-- ==== Sys2Proof/Word.lean ====
section
/-! DEFINITION. Words of the Moalin Q64: the widths the manual gives registers, cells and item IDs. -/
namespace Sys2Proof

/-- One byte of external, tile, scratch or host memory (R6). -/
abbrev Byte := BitVec 8

/-- One BAR0 register word (R425). -/
abbrev Word := BitVec 32

/-- One PALETTE cell, scratch word or scalar register (R226, R149). -/
abbrev Cell64 := BitVec 64

/-- An item ID: stream in [31:24], sequence in [23:0] (R24). -/
abbrev ItemId := BitVec 32

end Sys2Proof
end

