-- ==== Sys2Proof/Syntax.lean ====
section
/-! DEFINITION. The commands of the block: one constructor for each row of spec/opcode_table.json. -/
namespace Sys2Proof

/-- The interface a register write or a boot command arrives over (R91, R92). -/
inductive Iface where
  | pcie | spi
  deriving DecidableEq, Repr

/-- The six rails of R64, in the order of PW_RAIL. -/
inductive Rail where
  | core | aon | io18 | io33 | phy | memq
  deriving DecidableEq, Repr

/-- Outcome of the header ECC of a CSI-2 packet (R176, R200). -/
inductive Ecc where
  | ok | corrected | uncorrectable
  deriving DecidableEq, Repr

/-- Bits of one cell that memory upsets have flipped before it is read: data bits, and whether the link
and the owner field fail their parity (R226, R239, R250, R251). -/
structure Upset where
  data : Cell64
  link : Bool
  owner : Bool
  deriving DecidableEq, Repr

/-- No upset. -/
def Upset.none : Upset := ⟨0, false, false⟩

/-- The marks of a pushed cell: EOP for the last of an item, EPM for an epoch marker (R226, R233). -/
structure CellMarks where
  eop : Bool := false
  epm : Bool := false
  deriving DecidableEq, Repr

/-- A long frame of a span link (R402, R404). A control frame carries its entries as cells (R405). -/
structure LongFrame where
  lseq : Nat
  ack : Nat
  nak : Bool
  stop : Bool
  type : Nat
  src : Nat
  dst : Nat
  token : Bool
  last : Bool
  esc : Bool
  qid : Nat
  frag : Nat
  iseq : Nat
  cells : List Cell64
  deriving DecidableEq, Repr

/-- A command (spec/opcode_table.json). Operands are what the world supplies with it; k names a slot
operation in progress, counted from the oldest; memOk says whether external-memory training succeeds (R94). -/
inductive Instr where
  /-- REGISTER_WRITE (R7). -/
  | registerWrite (off : Nat) (value : Word) (via : Iface)
  /-- PACE_MONITOR_INTERVAL (R35). -/
  | paceMonitorInterval (readings : List (Option (BitVec 16))) (vsense : BitVec 12)
  /-- MONITOR_FAILED (R57). -/
  | monitorFailed (n : Nat)
  /-- GUARD_EN_CLEAR (R52). -/
  | guardEnClear
  /-- PEAK_CLR (R60). -/
  | peakClr
  /-- RESET_N_ASSERT (R68). -/
  | resetNAssert
  /-- RESET_N_RELEASE (R68). -/
  | resetNRelease (bootSel : BitVec 2) (memOk : Bool)
  /-- POWER_ON_RESET_RELEASE (R67). -/
  | powerOnResetRelease (bootSel : BitVec 2) (memOk : Bool)
  /-- RAIL_BROWNOUT (R82). -/
  | railBrownout (rail : Rail)
  /-- BROWNOUT_HOLD_CHECK (R89). -/
  | brownoutHoldCheck (railsOk : BitVec 6) (memOk : Bool)
  /-- KEEPER_WD (R69). -/
  | keeperWd (bootSel : BitVec 2) (memOk : Bool)
  /-- TEMP_SAMPLE (R81). -/
  | tempSample (tj : BitVec 12)
  /-- THERMAL_COOLED (R87). -/
  | thermalCooled (tj : BitVec 12)
  /-- DOMAIN_REQUEST (R71). -/
  | domainRequest (value : Word) (via : Iface)
  /-- DOMAIN_WAKE_DONE (R70). -/
  | domainWakeDone (d : Nat)
  /-- DOMAIN_SWITCH_FAIL (R88). -/
  | domainSwitchFail (d : Nat)
  /-- POWER_SAMPLE (R74). -/
  | powerSample (mw : BitVec 16)
  /-- POWER_PEAK_CLR (R90). -/
  | powerPeakClr
  /-- HEARTBEAT_EDGE (R76). -/
  | heartbeatEdge
  /-- PERST_N (R86). -/
  | perstN (asserted : Bool)
  /-- BOOT_GO (R109). -/
  | bootGo (via : Iface)
  /-- BOOT_WAIT_EXPIRE (R94). -/
  | bootWaitExpire
  /-- ALLOW_UNTESTED (R106). -/
  | allowUntested (on : Bool) (via : Iface)
  /-- BANK_CLR (R115). -/
  | bankClr (a b : Bool) (via : Iface)
  /-- PREFER_B (R117). -/
  | preferB (on : Bool) (via : Iface)
  /-- LOAD (R133). -/
  | loadCanvas
  /-- CANVAS_STAGED (R133). -/
  | canvasStaged (badRouter : Option Nat)
  /-- LOAD_DEFERRED_START (R142). -/
  | loadDeferredStart
  /-- HANG (R135). -/
  | hangRequest
  /-- HANG_EFFECT (R136). -/
  | hangEffect
  /-- UNSTAGE (R143). -/
  | unstage
  /-- EPOCH_DRAIN_END (R138). -/
  | epochDrainEnd
  /-- DRAIN_TIMEOUT (R146). -/
  | drainTimeout
  /-- TILE_ROLE_TAKE (R138). -/
  | tileRoleTake (t : Nat)
  /-- MESH_PACKET_ROUTE (R123). -/
  | meshPacketRoute (k : Nat)
  /-- ESCAPE_DIVERT (R129). -/
  | escapeDivert (k : Nat)
  /-- STEP_SLOT_START (R161). -/
  | stepSlotStart
  /-- BUNDLE_ISSUE (R158). -/
  | bundleIssue
  /-- SCALAR_NOP (R156). -/
  | scalarNop
  /-- INTEGER_OP (R156). -/
  | integerOp
  /-- SCRATCH_ACCESS (R156). -/
  | scratchAccess (parityFail : Bool)
  /-- MEMORY_LOAD_STORE (R156). -/
  | memoryLoadStore
  /-- STATUS_READ (R156). -/
  | statusRead
  /-- CONDITIONAL_BRANCH (R156). -/
  | conditionalBranch
  /-- LOOP (R156). -/
  | loopOp
  /-- BUNDLE_OVERRUN (R173). -/
  | bundleOverrun
  /-- SLOT_OP_COMPLETE (R160). -/
  | slotOpComplete (k : Nat)
  /-- MOVE_TILE_TO_TILE (R300). -/
  | moveTileToTile (k : Nat) (parityFail : Bool)
  /-- MOVE_TILE_TO_MEMORY (R300). -/
  | moveTileToMemory (k : Nat) (parityFail : Bool)
  /-- MOVE_MEMORY_TO_TILE (R300). -/
  | moveMemoryToTile (k : Nat)
  /-- RESHARD (R300). -/
  | reshard (k : Nat) (parityEntry : Option Nat)
  /-- QUEUE_PUSH (R241). -/
  | queuePush (k : Nat)
  /-- QUEUE_POP_TO_TILE (R241). -/
  | queuePopToTile (k : Nat) (upset : Upset)
  /-- DROP_REMAINDER (R240). -/
  | dropRemainder (k : Nat)
  /-- WATERMARK_QUERY (R241). -/
  | watermarkQuery (k : Nat)
  /-- FENCE_SLOT_START (R157). -/
  | fenceSlotStart (k : Nat)
  /-- FENCE_QUEUE_DEPTH (R157). -/
  | fenceQueueDepth (k : Nat)
  /-- FENCE_MARKER_AT_HEAD (R157). -/
  | fenceMarkerAtHead (k : Nat)
  /-- HOST_STEP (R166). -/
  | hostStep (k : Nat)
  /-- STEP_GRACE_EXPIRE (R166). -/
  | stepGraceExpire
  /-- RENDER_WINDOW_OPEN (R168). -/
  | renderWindowOpen (k : Nat)
  /-- RENDER_WINDOW_CLOSE (R168). -/
  | renderWindowClose (k : Nat)
  /-- EVENT_PACKET_RECEIVE (R179). -/
  | eventPacketReceive (port : Nat) (vc : BitVec 2) (dt : BitVec 8) (ecc : Ecc) (crcOk : Bool) (payload : List Byte)
  /-- EVENT_PACKET_WRITE (R180). -/
  | eventPacketWrite (port : Nat)
  /-- LINK_ERROR (R200). -/
  | linkError (port : Nat) (deskew : Bool)
  /-- THERMAL_FRAME_START (R194). -/
  | thermalFrameStart (m : Nat) (vc : BitVec 2) (ecc : Ecc)
  /-- THERMAL_LINE (R194). -/
  | thermalLine (m : Nat) (line : Nat) (vc : BitVec 2) (dt : BitVec 8) (ecc : Ecc) (crcOk : Bool) (pixels : List (BitVec 14))
  /-- THERMAL_FRAME_END (R194). -/
  | thermalFrameEnd (m : Nat) (vc : BitVec 2)
  /-- AER_REQUEST (R192). -/
  | aerRequest (word : BitVec 28)
  /-- AER_REQ_FALL (R192). -/
  | aerReqFall
  /-- AER_HOLD_EXPIRE (R193). -/
  | aerHoldExpire
  /-- PSEUDO_PACKET_TIMEOUT (R191). -/
  | pseudoPacketTimeout
  /-- GLINT_WINDOW_END (R187). -/
  | glintWindowEnd (port : Nat)
  /-- GLINT_HOLD_EXPIRE (R187). -/
  | glintHoldExpire (port : Nat)
  /-- REFRACT_SWEEP (R185). -/
  | refractSweep (port : Nat)
  /-- COMMIT (R197). -/
  | commit (port : Nat)
  /-- COMMIT_APPLY (R197). -/
  | commitApply (port : Nat)
  /-- CNT_CLR (R202). -/
  | cntClr (port : Nat)
  /-- HOT_CLR (R202). -/
  | hotClr (port : Nat)
  /-- PORT_EN (R199). -/
  | portEn (port : Nat) (on : Bool)
  /-- REF_WINDOW (R205). -/
  | refWindow (ppb : Int)
  /-- REF_EDGE_LOSS (R205). -/
  | refEdgeLoss
  /-- PPS_EDGE (R206). -/
  | ppsEdge (highOk : Bool)
  /-- PPS_TIMEOUT (R205). -/
  | ppsTimeout
  /-- UPWARD_HOLD_EXPIRE (R208). -/
  | upwardHoldExpire
  /-- ANNOUNCE_END (R209). -/
  | announceEnd
  /-- SLEW_END (R209). -/
  | slewEnd
  /-- HOLD_AGED (R211). -/
  | holdAged
  /-- CAM_SYNC_PULSE (R213). -/
  | camSyncPulse
  /-- CAM_LATCH_READ_DONE (R214). -/
  | camLatchReadDone (n : Nat) (latch : BitVec 48)
  /-- CAM_LATCH_TIMEOUT (R215). -/
  | camLatchTimeout (n : Nat) (nack : Bool)
  /-- CAM_MODE_WRITE (R214). -/
  | camModeWrite (n : Nat) (mode : BitVec 2)
  /-- XTAL_FAIL (R223). -/
  | xtalFail
  /-- DEVTIME_READ (R222). -/
  | devtimeRead
  /-- WINDOWS_READ (R483). -/
  | windowsRead
  /-- PUSH (R233, R250). -/
  | pushCell (ep qid : Nat) (data : Cell64) (item : ItemId) (marks : CellMarks) (link : Bool)
  /-- POP (R237). -/
  | popCell (ep qid : Nat) (upset : Upset)
  /-- TAKE (R237). -/
  | takeCell (ep qid : Nat) (upset : Upset)
  /-- FREE (R238). -/
  | freeCell (ep cell : Nat) (item : ItemId)
  /-- KEYED_POP (R265). -/
  | keyedPop (qid : Nat) (upset : Upset)
  /-- KEYED_EOP_ACCEPTED (R266). -/
  | keyedEopAccepted (qid : Nat)
  /-- SCRUB_VISIT (R249). -/
  | scrubVisit (upset : Upset)
  /-- SEVER_COMPLETE (R250). -/
  | severComplete (qid : Nat)
  /-- FREE_LIST_REBUILD_DONE (R252). -/
  | freeListRebuildDone
  /-- POOL_LOW_CLR (R253). -/
  | poolLowClr
  /-- SPIKE_TILE_INPUT (R269). -/
  | spikeTileInput (t : Nat) (fails : List Nat)
  /-- PACED_STEP_CLOSE (R262). -/
  | pacedStepClose (p t : Nat) (fails : List Nat)
  /-- NEURON_SWEEP (R260). -/
  | neuronSweep (t : Nat)
  /-- CUT (R270). -/
  | cut (k : Nat)
  /-- CUT_MARKERS_COLLECTED (R270). -/
  | cutMarkersCollected (p : Nat)
  /-- RESET (R270). -/
  | resetPop (k : Nat)
  /-- SPIKE_COUNT_WINDOW (R274). -/
  | spikeCountWindow (p : Nat)
  /-- TILE_SLEEP (R273). -/
  | tileSleep (t : Nat)
  /-- GEMM (R292). -/
  | gemm (k : Nat) (parityTile : Option Nat)
  /-- CONV (R293). -/
  | conv (k : Nat) (parityTile : Option Nat)
  /-- GCONV (R294). -/
  | gconv (k : Nat) (parityTile : Option Nat)
  /-- POOL (R295). -/
  | pool (k : Nat) (parityTile : Option Nat)
  /-- ELTWISE (R295). -/
  | eltwise (k : Nat) (parityTile : Option Nat)
  /-- SURFACE_ACCUMULATE (R297). -/
  | surfaceAccumulate (k : Nat) (parityTile : Option Nat)
  /-- SURFACE_TIME_READOUT (R298). -/
  | surfaceTimeReadout (k : Nat) (parityTile : Option Nat)
  /-- SURFACE_COUNT_READOUT (R298). -/
  | surfaceCountReadout (k : Nat) (parityTile : Option Nat)
  /-- GEMM_BATCH (R296). -/
  | gemmBatch (k : Nat) (parityTile : Option Nat)
  /-- DISPATCH (R318). -/
  | dispatch (k : Nat) (badEntries : List Nat)
  /-- COMBINE (R325). -/
  | combine (k : Nat) (poisoned : List Nat)
  /-- EXIT (R324). -/
  | exitOp (k : Nat)
  /-- BIAS_UPDATE (R326). -/
  | biasUpdate
  /-- BIAS_WRITE (R331). -/
  | biasWrite (j : Nat) (value : Word)
  /-- REMOTE_TMO (R329). -/
  | remoteTmo (item : ItemId)
  /-- FUSION_INPUT_TAKE (R336). -/
  | fusionInputTake (c : Nat) (upset : Upset)
  /-- GATHER_TIMEOUT (R341). -/
  | gatherTimeout
  /-- CYCLE_START (R339). -/
  | cycleStart
  /-- EARLY (R343). -/
  | early
  /-- ASSOC (R349). -/
  | assoc (badSlots : List Nat)
  /-- MID (R347). -/
  | mid
  /-- UPDATE (R352). -/
  | update (badSlots : List Nat)
  /-- POST (R355). -/
  | post
  /-- TEST_WINDOW_END (R360). -/
  | testWindowEnd
  /-- QUAR_CLR (R360). -/
  | quarClr (mask : BitVec 6)
  /-- DRAW_LIST_TAKE (R370). -/
  | drawListTake (upset : Upset)
  /-- TRIANGLE_LIST (R371). -/
  | triangleList
  /-- TRIANGLE_STRIP (R371). -/
  | triangleStrip
  /-- LINE_LIST (R371). -/
  | lineList
  /-- GLYPH_QUADS (R371). -/
  | glyphQuads
  /-- TRANSFORM (R373). -/
  | transform
  /-- TEXTURE_SLOT (R371). -/
  | textureSlot
  /-- UNDERPAINT (R374). -/
  | underpaint (k : Nat)
  /-- CLOSE (R374). -/
  | closeFrame (k : Nat)
  /-- SCREEN_TILE_TAKE (R384). -/
  | screenTileTake (t : Nat)
  /-- SCREEN_TILE_DONE (R376). -/
  | screenTileDone (t : Nat) (parityBlocks : List Nat)
  /-- END (R378). -/
  | endOp
  /-- MOV (R378). -/
  | mov (d a : BitVec 3)
  /-- ADD (R378). -/
  | addOp (d a b : BitVec 3)
  /-- MUL (R378). -/
  | mulOp (d a b : BitVec 3)
  /-- MAD (R378). -/
  | mad (d a b : BitVec 3)
  /-- MIN (R378). -/
  | minOp (d a b : BitVec 3)
  /-- MAX (R378). -/
  | maxOp (d a b : BitVec 3)
  /-- SAT (R378). -/
  | sat (d a : BitVec 3)
  /-- SWZ (R378). -/
  | swz (d a : BitVec 3) (imm : BitVec 15)
  /-- CONST (R378). -/
  | constOp (d : BitVec 3) (imm : BitVec 15)
  /-- TEX (R378). -/
  | tex (d a : BitVec 3)
  /-- KILL (R378). -/
  | kill (a : BitVec 3)
  /-- RCP (R378). -/
  | rcp (d a : BitVec 3)
  /-- FRAME_START (R385). -/
  | frameStart
  /-- DSI_LINE (R387). -/
  | dsiLine (underrun : Bool)
  /-- VIDEO (R387). -/
  | video (on : Bool)
  /-- DCS_SHORT_WRITE (R386). -/
  | dcsShortWrite
  /-- DCS_SHORT_WRITE_PARAM (R386). -/
  | dcsShortWriteParam
  /-- DCS_LONG_WRITE (R386). -/
  | dcsLongWrite
  /-- TRAIN_PAIR_RECEIVE (R403). -/
  | trainPairReceive (side : Nat) (ringId : BitVec 16) (chip : BitVec 2) (peerSide : Bool) (good : Bool)
  /-- TRAINING_TIMEOUT (R403). -/
  | trainingTimeout (side : Nat)
  /-- TRAINING_RETRY (R403). -/
  | trainingRetry (side : Nat)
  /-- SPAN_TRANSMIT (R407). -/
  | spanTransmit (k : Nat) (upset : Upset)
  /-- LONG_FRAME_RECEIVE (R409): bytes 2 to 75 of the frame, and its CRC-32 (R402). -/
  | longFrameReceive (side : Nat) (bytes : List Byte) (crc : Word)
  /-- SHORT_FRAME_RECEIVE (R409): the LINK word of the frame, and its CRC-32 (R402). -/
  | shortFrameReceive (side : Nat) (link crc : Word)
  /-- SHORT_FRAME_SEND (R409). -/
  | shortFrameSend (side : Nat)
  /-- CREDIT (R414). -/
  | credit
  /-- GRANT (R415). -/
  | grant
  /-- DELIVERED (R412). -/
  | delivered
  /-- NOTICE (R410). -/
  | notice
  /-- ACK_TIMEOUT (R409). -/
  | ackTimeout (side : Nat)
  /-- DELIV_TMO (R411). -/
  | delivTmo (item : ItemId)
  /-- RETRAIN (R422). -/
  | retrain (side : Nat)
  /-- CMD_DOORBELL (R426). -/
  | cmdDoorbell (pi : Word) (slots : List (List Byte))
  /-- NOP (R430). -/
  | nopCmd
  /-- GO (R433). -/
  | goCmd
  /-- DOMAIN (R430). -/
  | domainCmd
  /-- RESET_CORE (R430). -/
  | resetCore (memOk : Bool)
  /-- FW_STAGE (R430). -/
  | fwStage
  /-- FW_STAGE_DONE (R110). -/
  | fwStageDone
  /-- I2C_XFER (R441). -/
  | i2cXfer
  /-- I2C_XFER_DONE (R441). -/
  | i2cXferDone (bus : Nat) (nackAt : Option Nat) (data : List Byte)
  /-- I2C_STRETCH_TIMEOUT (R441). -/
  | i2cStretchTimeout (bus : Nat)
  /-- ALARM_SEND (R444). -/
  | alarmSend
  /-- RESUME (R475). -/
  | resume
  /-- BAD_OP (R431). -/
  | badOp
  /-- RINGS_EN (R426). -/
  | ringsEn (on : Bool)
  /-- READOUT_POP (R435). -/
  | readoutPop (k : Nat) (upset : Upset)
  /-- DMA_ERROR (R452). -/
  | dmaError
  /-- PCIE_LINK_DOWN (R453). -/
  | pcieLinkDown
  /-- BAR2_ACCESS (R480). -/
  | bar2Access (off len : Nat) (write : Option (List Byte))
  /-- SPI_STATUS (R437). -/
  | spiStatus
  /-- SPI_READ (R437). -/
  | spiRead (off words : Nat)
  /-- SPI_WRITE (R437). -/
  | spiWrite (off : Nat) (words : List Word)
  /-- SPI_MREAD (R437). -/
  | spiMread (addr len : Nat)
  /-- SPI_MWRITE (R437). -/
  | spiMwrite (addr : Nat) (data : List Byte)
  /-- SPI_CMD (R437). -/
  | spiCmd (entry : List Byte) (crc : BitVec 16)
  /-- SPI_RESP (R437). -/
  | spiResp (bytesRead : Nat)
  /-- ALARM_STATUS_TIMER (R443). -/
  | alarmStatusTimer
  /-- ALARM_SENTENCE_SENT (R444). -/
  | alarmSentenceSent
  /-- TEST_LOGIC_RESET (R445). -/
  | testLogicReset
  /-- BYPASS (R445). -/
  | bypass
  /-- IDCODE (R445). -/
  | idcode
  /-- SAMPLE_PRELOAD (R445). -/
  | samplePreload (preload : Option (List Bool))
  /-- EXTEST (R445). -/
  | extest
  /-- CLAMP (R445). -/
  | clamp
  /-- HIGHZ (R445). -/
  | highz
  /-- TRACE_PACKET (R446). -/
  | tracePacket
  /-- TRACE_TIME (R446). -/
  | traceTime
  /-- COMPLETION_NOTICE (R459). -/
  | completionNotice (item : ItemId) (block : BitVec 8)
  /-- TERMINAL_REPORT (R460). -/
  | terminalReport (item : ItemId) (reason stage : BitVec 8) (flags : BitVec 16)
  /-- COALESCE_EXPIRE (R460). -/
  | coalesceExpire
  /-- FAULT_RAISE (R466). -/
  | faultRaise (off bit sev block : Nat)
  /-- FAULT_HANDLE (R468). -/
  | faultHandle
  /-- LG_FAULT_ACK (R473). -/
  | lgFaultAck (mask : BitVec 8)
  /-- WATCHDOG (R470). -/
  | watchdog
  /-- QUIESCE_DONE (R471). -/
  | quiesceDone
  /-- REVERSING_END (R210). -/
  | reversingEnd
  /-- PCIE_LINK_UP (R453). -/
  | pcieLinkUp (gen width : BitVec 2)
  /-- SPAN_LINK_ENABLE (R403). -/
  | spanLinkEnable (side : Nat) (on : Bool)
  deriving DecidableEq, Repr

end Sys2Proof
end

