-- ==== Sys2Proof/Decode.lean ====
section
/-! DEFINITION. Decoding: no row of spec/opcode_table.json gives its command bits, so no word spells one. -/
namespace Sys2Proof

/-- The command that a word spells by the table's bits: none, since no row gives bits. DESIGN CHOICE (notes/assumptions/13.md). -/
def decodeTableWord (_nbits _w : Nat) : Option Instr := none

end Sys2Proof
end

