-- ==== Sys2Proof/Config.lean ====
section
/-! DEFINITION. What the manual leaves open. Every constant here is opaque: it has no body, so no proof
can see a value of it. notes/assumptions/4.md to 9.md say which rule leaves each of them open. -/
namespace Sys2Proof.Config

/-- A byte of a memory region the manual calls undefined (R32, R70, R127): generation, address.
DESIGN CHOICE (notes/assumptions/4.md). -/
opaque freeByte : Nat → Nat → Byte

/-- A fresh value wherever the manual leaves a result undefined (R309 outputs after a parity failure).
DESIGN CHOICE (notes/assumptions/4.md). -/
opaque freeWord : Nat → Cell64

/-- Which of the free cells a push takes (R233 says only "a cell from the free list"). DESIGN CHOICE (notes/assumptions/5.md). -/
opaque pickCell : Nat → Nat

/-- Whether the D-PHY lanes of an event port are in an HS burst when EI_Pn_STATUS.LINK is read (R202).
DESIGN CHOICE (notes/assumptions/37.md). -/
opaque hsReceiving : Nat → Nat → Bool

/-- Rounding of INC x (1 + CORR) to the 32-bit fraction (R203): may add one unit. DESIGN CHOICE (notes/assumptions/5.md). -/
opaque incRound : Int → Bool

/-- Result of a scalar integer operation 0x01 to 0x1F: operation, A, B, IMM (R156; encodings are Lemmet's).
DESIGN CHOICE (notes/assumptions/6.md). -/
opaque intOp : BitVec 8 → Cell64 → Cell64 → BitVec 32 → Cell64

/-- Whether scratch operation 0x20 to 0x2F stores (R156; encodings are Lemmet's). DESIGN CHOICE (notes/assumptions/6.md). -/
opaque scratchStores : BitVec 8 → Bool

/-- log2 of the byte count (0 to 3 after reduction) of scratch operation 0x20 to 0x2F (R156).
DESIGN CHOICE (notes/assumptions/6.md). -/
opaque scratchSize : BitVec 8 → Nat

/-- Whether a narrow scratch load extends the sign (R156; operand forms are Lemmet's). DESIGN CHOICE (notes/assumptions/6.md). -/
opaque scratchSigned : BitVec 8 → Bool

/-- IMM as it enters the address A + IMM of operations 0x20 to 0x37 (R156; operand forms are Lemmet's).
DESIGN CHOICE (notes/assumptions/6.md). -/
opaque immAddr : BitVec 8 → BitVec 32 → Cell64

/-- What a status read places in D for a fence: its number, and whether it is pending (R156).
DESIGN CHOICE (notes/assumptions/6.md). -/
opaque fenceWord : Nat → Bool → Cell64

/-- What operation 0x30 to 0x37 does: 0 data-segment load, 1 external load, 2 external store (R156).
DESIGN CHOICE (notes/assumptions/6.md). -/
opaque memKind : BitVec 8 → Nat

/-- Which source a status read 0x38 to 0x3F selects: operation, IMM give a selector and an index (R156).
DESIGN CHOICE (notes/assumptions/6.md). -/
opaque statusSelect : BitVec 8 → BitVec 32 → Nat × Nat

/-- Whether conditional branch 0x40 to 0x47 is taken on A and B (R156; conditions are Lemmet's).
DESIGN CHOICE (notes/assumptions/6.md). -/
opaque branchTaken : BitVec 8 → Cell64 → Cell64 → Bool

/-- The slot-0 public key Qx‖Qy in Keeper ROM (R99 prints no value). DESIGN CHOICE (notes/assumptions/7.md). -/
opaque romKey : List Byte

/-- The router at which the palette's cells of a keyed queue enter the mesh (R265 names none). The model takes it modulo the
member's tiles. DESIGN CHOICE (notes/assumptions/9.md). -/
opaque keyedRouter : Nat → Nat

/-- The route key of a tile-to-tile move (R121, R300 name none): source tile, destination tile.
DESIGN CHOICE (notes/assumptions/9.md). -/
opaque moveKey : Nat → Nat → Nat

/-- The bank header of a firmware image (R93; its layout is not in the manual): version, lowest and
highest stepping, member mask, CANVAS format range, plan ABI range. DESIGN CHOICE (notes/assumptions/7.md). -/
opaque fwHeader : List Byte → List Nat

/-- External-memory ranges that a plan declares (R173 names them; the plan header of R151 has no field).
DESIGN CHOICE (notes/assumptions/7.md). -/
opaque planRanges : List Byte → List (Nat × Nat)

/-- The FP32 sum of FP16 products in the order the array adds them (R284 gives no order).
DESIGN CHOICE (notes/assumptions/8.md). -/
opaque fpDot : List (BitVec 16 × BitVec 16) → BitVec 32

/-- The INT32 accumulator after products whose sum may leave its range on the way (R284 does not say what happens).
DESIGN CHOICE (notes/assumptions/8.md). -/
opaque accSum : List Int → Int

/-- An output of one number family written in a format of the other (R290 gives none): FMT_IN, FMT_OUT, value.
DESIGN CHOICE (notes/assumptions/8.md). -/
opaque convertOut : Nat → Nat → Int → Nat

/-- Whether an FP16 number that is no integer takes the integer above it when it is written in an integer format (R290).
DESIGN CHOICE (notes/assumptions/8.md). -/
opaque convertUp : BitVec 16 → Bool

/-- The FP16 average of a window (R295 gives no rounding). DESIGN CHOICE (notes/assumptions/8.md). -/
opaque fpAverage : List (BitVec 16) → BitVec 16

/-- Rows or columns of padding before the first pixel for "same" padding where the total is odd or the stride is not 1
(R289 does not place them): kernel, dilation, stride, size. The model takes it modulo the kernel's extent.
DESIGN CHOICE (notes/assumptions/8.md). -/
opaque padBefore : Nat → Nat → Nat → Nat → Nat

/-- A weight of a grouped convolution that is not INT8 depthwise, in the 32 bytes of a tap and channel block (R287):
format, log2 of the group width, bytes, row, column. DESIGN CHOICE (notes/assumptions/8.md). -/
opaque groupWeight : Nat → Nat → List Byte → Nat → Nat → Nat

/-- Whether the rest of an amount that is no whole number of thousands or KiB adds one to its counter (R311).
DESIGN CHOICE (notes/assumptions/5.md). -/
opaque unitCarry : Nat → Bool

/-- FP32 addition of BIAS (R290; R284 names FP32 and no rounding mode). DESIGN CHOICE (notes/assumptions/8.md). -/
opaque fp32Add : BitVec 32 → BitVec 32 → BitVec 32

/-- Rounding direction of an inexact FP16 result of a pixel program (R378): true is away from zero.
DESIGN CHOICE (notes/assumptions/8.md). -/
opaque halfRoundUp : Nat → Int → Int → Bool

/-- An FP16 result of a pixel program that has no finite value (R378: 1 / 0, overflow, NaN operands).
DESIGN CHOICE (notes/assumptions/8.md). -/
opaque halfOpen : Nat → BitVec 16 → BitVec 16 → BitVec 16

/-- The token item that the header cell of a remote result names (R323 places it nowhere).
DESIGN CHOICE (notes/assumptions/9.md). -/
opaque resultItem : Cell64 → BitVec 32

/-- Bytes of a routing table of so many objects and tokens (R314 gives it no layout). DESIGN CHOICE (notes/assumptions/7.md). -/
opaque routingBytes : Nat → Nat → Nat

/-- Where the problem list of an expert lies in the partition, by the routing table's address and the expert (R324 reaches it through
the routing table, to which R314 gives no layout). DESIGN CHOICE (notes/assumptions/7.md). -/
opaque problemList : Nat → Nat → Nat

/-- Integer rounding that R345, R347 and R351 leave open: rule number, numerator, denominator. The model
adds 0 or 1 to the floor. DESIGN CHOICE (notes/assumptions/5.md). -/
opaque divUp : Nat → Int → Int → Bool

/-- The distribution of captured boundary bits: pins seen by SAMPLE (R445; the BSDL is not in the manual).
DESIGN CHOICE (notes/assumptions/9.md). -/
opaque boundaryBits : Nat → List Bool

/-- What the boundary register drives at output ball n; none: it floats it (R445; the BSDL is not in the manual).
DESIGN CHOICE (notes/assumptions/9.md). -/
opaque boundaryDrive : Nat → List Bool → Option Bool

/-- The part-number-dependent bits of IDCODE that R445 does not give ([11:1], and the part numbers of
the other members). DESIGN CHOICE (notes/assumptions/9.md). -/
opaque idcodeRest : Nat → BitVec 32

/-- The measured pace or power sample that a rule leaves to the analog part has no constant here: it is an
operand of its command. This constant is the energy factor of R73 between the listed voltages, in thousandths.
DESIGN CHOICE (notes/assumptions/9.md). -/
opaque vddFactor : Nat → Nat

/-- What R374 leaves open of the cursor draw: 0 its program, 1 its blend mode, 2 its colour, 3 its PARAM.
DESIGN CHOICE (notes/assumptions/9.md). -/
opaque cursorDraw : Nat → Nat

/-- Whether x and y in C1 of a pixel program are those of the pixel's centre, not of its corner (R378).
DESIGN CHOICE (notes/assumptions/8.md). -/
opaque pixelCentre : Bool

end Sys2Proof.Config
end

