-- ==== Sys2Proof/Machine/Regs.lean ====
section
/-! DEFINITION. The register map: every field of every register table of the spec, with its place, access
code, reset value and behaviour on HANG (R7, R8, R478, R481). Array registers are one row with their strides. -/
namespace Sys2Proof.Machine

/-- Access codes of R7, with the two conditional ones of R202 (P3 only) and R225 (MANUAL mode only). -/
inductive Access where
  | ro | rw | wo | w1c | w1s | rwP3 | rwMan
  deriving DecidableEq, Repr

/-- The On HANG values of R7. -/
inductive OnHang where
  | kept | easel | cleared
  deriving DecidableEq, Repr

/-- The unit whose absence on a member makes a register read 0 (R481), or whose role makes a tile window
live (R479). The row's first index is the unit's number. -/
inductive RegUnit where
  | any | evPort | thPort | queue | monitor | spikeWin | denseWin | link | endpoint
  deriving DecidableEq, Repr

/-- One field row of a register table. A field that a row of the command table gives a behaviour of its
own is marked `own`: REGISTER_WRITE leaves it to that row. -/
structure Row where
  off : Nat
  lo : Nat
  width : Nat
  acc : Access := .ro
  rst : Nat := 0
  hang : OnHang := .kept
  own : Bool := false
  n1 : Nat := 1
  s1 : Nat := 0
  n2 : Nat := 1
  s2 : Nat := 0
  unit : RegUnit := .any
  rstStep : Nat := 0
  rstTab : List Nat := []
  deriving DecidableEq, Repr

/-- The bit address of element (i, j) of a row: 32 × the word offset ÷ 4 + the lowest bit. One field, one home. -/
def Row.key (r : Row) (i j : Nat) : Nat := 8 * (r.off + r.s1 * i + r.s2 * j) + r.lo

/-- The reset value of element (i, j) of a row. -/
def Row.resetAt (r : Row) (i : Nat) : Nat :=
  match r.rstTab[i]? with
  | some v => v
  | none => r.rst + r.rstStep * i

namespace R

/-! KP registers (R117). -/
def kpIdStepping : Row := { off := 0x0, lo := 0, width := 8 }
def kpIdMember : Row := { off := 0x0, lo := 8, width := 2 }
def kpIdRom : Row := { off := 0x0, lo := 16, width := 8 }
def kpFwVersion : Row := { off := 0x4, lo := 0, width := 16 }
def kpFwBank : Row := { off := 0x4, lo := 16, width := 1 }
def kpFwRomOnly : Row := { off := 0x4, lo := 17, width := 1, rst := 1 }
def kpBankVersion : Row := { off := 0x8, lo := 0, width := 16, n1 := 2, s1 := 0x4 }
def kpBankUsable : Row := { off := 0x8, lo := 16, width := 1, n1 := 2, s1 := 0x4 }
def kpBankSigned : Row := { off := 0x8, lo := 17, width := 1, n1 := 2, s1 := 0x4 }
def kpBankTested : Row := { off := 0x8, lo := 18, width := 1, n1 := 2, s1 := 0x4 }
def kpBankExcluded : Row := { off := 0x8, lo := 19, width := 1, n1 := 2, s1 := 0x4 }
def kpBankFails : Row := { off := 0x8, lo := 20, width := 2, n1 := 2, s1 := 0x4 }
def kpBootStep : Row := { off := 0x10, lo := 0, width := 4, rst := 1 }
def kpBootSource : Row := { off := 0x10, lo := 4, width := 2 }
def kpBootGo : Row := { off := 0x10, lo := 8, width := 1, acc := .w1s, hang := .cleared, own := true }
def kpBootGoIgnored : Row := { off := 0x10, lo := 9, width := 1, acc := .w1c }
def kpBootStrapBad : Row := { off := 0x10, lo := 10, width := 1 }
def kpCtrlAllowUntested : Row := { off := 0x14, lo := 0, width := 1, acc := .rw, own := true }
def kpCtrlPreferB : Row := { off := 0x14, lo := 1, width := 1, acc := .rw, own := true }
def kpCtrlBankClr : Row := { off := 0x14, lo := 2, width := 2, acc := .w1s, hang := .cleared, own := true }
def kpAgreeResult : Row := { off := 0x18, lo := 0, width := 2, hang := .easel }
def kpAgreeMismatch : Row := { off := 0x18, lo := 4, width := 4, hang := .easel }
def kpAgreeUntestedLatch : Row := { off := 0x18, lo := 8, width := 1 }
def kpVerActiveCanvas : Row := { off := 0x1C, lo := 0, width := 16, hang := .easel }
def kpVerActivePlan : Row := { off := 0x1C, lo := 16, width := 16, hang := .easel }
def kpVerStagedCanvas : Row := { off := 0x20, lo := 0, width := 16 }
def kpVerStagedPlan : Row := { off := 0x20, lo := 16, width := 16 }
def kpManifestSerial : Row := { off := 0x24, lo := 0, width := 32 }
def kpManifestInfoEntries : Row := { off := 0x28, lo := 0, width := 10 }
def kpManifestInfoSource : Row := { off := 0x28, lo := 12, width := 1 }
def kpManifestInfoConflict : Row := { off := 0x28, lo := 13, width := 1, acc := .w1c }
def kpFuseSbEn : Row := { off := 0x2C, lo := 0, width := 1 }
def kpFuseUntestedLock : Row := { off := 0x2C, lo := 1, width := 1 }
def kpFuseKeyValid : Row := { off := 0x2C, lo := 2, width := 4 }
def kpFuseKeyRevoked : Row := { off := 0x2C, lo := 6, width := 4 }
def kpSigKind : Row := { off := 0x30, lo := 0, width := 3 }
def kpSigResult : Row := { off := 0x30, lo := 4, width := 2 }
def kpSigSlot : Row := { off := 0x30, lo := 8, width := 3 }
def kpSigUnsignedSeen : Row := { off := 0x30, lo := 16, width := 1 }

/-! PC registers (R60). -/
def pcPacePace : Row := { off := 0x100000, lo := 0, width := 16, rst := 4096 }
def pcPaceMon : Row := { off := 0x100000, lo := 16, width := 5 }
def pcPacePeakPeak : Row := { off := 0x100004, lo := 0, width := 16 }
def pcCtrlGuardEn : Row := { off := 0x100008, lo := 0, width := 1, acc := .rw, rst := 1, hang := .easel, own := true }
def pcCtrlPeakClr : Row := { off := 0x100008, lo := 1, width := 1, acc := .w1s, hang := .cleared, own := true }
def pcGuardThetaHi : Row := { off := 0x10000C, lo := 0, width := 10, rst := 900, hang := .easel }
def pcGuardThetaLo : Row := { off := 0x10000C, lo := 16, width := 10, rst := 800, hang := .easel }
def pcGuardBackoff : Row := { off := 0x10000C, lo := 26, width := 6, rst := 16, hang := .easel }
def pcLevelLevel : Row := { off := 0x100010, lo := 0, width := 2 }
def pcLevelGuardLvl : Row := { off := 0x100010, lo := 2, width := 2 }
def pcLevelHostMin : Row := { off := 0x100010, lo := 4, width := 2, acc := .rw, hang := .cleared }
def pcLevelMiss : Row := { off := 0x100010, lo := 16, width := 1, acc := .w1c }
def pcTripsCount : Row := { off := 0x100014, lo := 0, width := 32 }
def pcStatusUnguaranteed : Row := { off := 0x100018, lo := 0, width := 1 }
def pcStatusMonFail : Row := { off := 0x100018, lo := 1, width := 1 }
def pcStatusCertExceed : Row := { off := 0x100018, lo := 2, width := 1 }
def pcStatusVsense : Row := { off := 0x100018, lo := 16, width := 12 }
def pcCertPCert : Row := { off := 0x10001C, lo := 0, width := 16, rst := 6636, hang := .easel }
def pcCertLevels : Row := { off := 0x10001C, lo := 16, width := 2, hang := .easel }
def pcDeadlineDUs : Row := { off := 0x100020, lo := 0, width := 24, hang := .easel }
def pcBstepBstep : Row := { off := 0x100024, lo := 0, width := 32, hang := .easel, n1 := 4, s1 := 0x4 }
def pcPredPredUs : Row := { off := 0x100034, lo := 0, width := 24 }
def pcMonPace : Row := { off := 0x100100, lo := 0, width := 16, n1 := 20, s1 := 0x4, unit := .monitor }
def pcMonState : Row := { off := 0x100100, lo := 16, width := 2, rst := 3, n1 := 20, s1 := 0x4, unit := .monitor }

/-! PW registers (R90). -/
def pwDomStateOn : Row := { off := 0x200000, lo := 0, width := 26, rst := 1 }
def pwDomFailedFailed : Row := { off := 0x200004, lo := 0, width := 26, acc := .w1c }
def pwDomPresentPresent : Row := { off := 0x200008, lo := 0, width := 26, rst := 67108863 }
def pwDomReqAon : Row := { off := 0x20000C, lo := 0, width := 1, rst := 1 }
def pwDomReqOnReq : Row := { off := 0x20000C, lo := 1, width := 9, acc := .rw, rst := 511, own := true }
def pwDomReqQuadReq : Row := { off := 0x20000C, lo := 10, width := 16, hang := .easel }
def pwDomErrDomain : Row := { off := 0x200010, lo := 0, width := 5 }
def pwDomErrCause : Row := { off := 0x200010, lo := 8, width := 2 }
def pwDomErrErr : Row := { off := 0x200010, lo := 16, width := 1, acc := .w1c }
def pwRailOk : Row := { off := 0x200014, lo := 0, width := 6, rst := 63 }
def pwRailBrown : Row := { off := 0x200014, lo := 8, width := 6, acc := .w1c }
def pwTempTj : Row := { off := 0x200018, lo := 0, width := 12 }
def pwTempHot : Row := { off := 0x200018, lo := 16, width := 1 }
def pwTempWarn : Row := { off := 0x200018, lo := 17, width := 1, acc := .w1c }
def pwPowerMw : Row := { off := 0x20001C, lo := 0, width := 16 }
def pwPowerOver : Row := { off := 0x20001C, lo := 16, width := 1, acc := .w1c }
def pwPowerPeakMw : Row := { off := 0x200020, lo := 0, width := 16 }
def pwPowerPeakClr : Row := { off := 0x200020, lo := 31, width := 1, acc := .w1s, hang := .cleared, own := true }
def pwResetCausePor : Row := { off := 0x200024, lo := 0, width := 1, acc := .w1c }
def pwResetCausePin : Row := { off := 0x200024, lo := 1, width := 1, acc := .w1c }
def pwResetCauseBrownout : Row := { off := 0x200024, lo := 2, width := 1, acc := .w1c }
def pwResetCauseHost : Row := { off := 0x200024, lo := 3, width := 1, acc := .w1c }
def pwResetCauseKeeperWd : Row := { off := 0x200024, lo := 4, width := 1, acc := .w1c }
def pwResetCauseThermal : Row := { off := 0x200024, lo := 5, width := 1, acc := .w1c }
def pwHbMode : Row := { off := 0x200028, lo := 0, width := 2 }
def pwHbCode : Row := { off := 0x200028, lo := 4, width := 4 }
def pwHbReady : Row := { off := 0x200028, lo := 8, width := 1 }
def pwHbFault : Row := { off := 0x200028, lo := 9, width := 1 }
def pwHbBootSel : Row := { off := 0x200028, lo := 12, width := 2 }

/-! EI registers (R202). -/
def eiPCfgEn : Row := { off := 0x400000, lo := 0, width := 1, acc := .rw, own := true, n1 := 4, s1 := 0x1000, unit := .evPort }
def eiPCfgMode : Row := { off := 0x400000, lo := 1, width := 1, acc := .rwP3, n1 := 4, s1 := 0x1000, unit := .evPort }
def eiPCfgLanes : Row := { off := 0x400000, lo := 2, width := 3, acc := .rw, rst := 1, n1 := 4, s1 := 0x1000, unit := .evPort }
def eiPCfgVc : Row := { off := 0x400000, lo := 6, width := 2, acc := .rw, n1 := 4, s1 := 0x1000, unit := .evPort }
def eiPCfgQid : Row := { off := 0x400000, lo := 16, width := 9, acc := .rw, n1 := 4, s1 := 0x1000, unit := .evPort }
def eiPSizeWM1 : Row := { off := 0x400004, lo := 0, width := 12, acc := .rw, rst := 4095, n1 := 4, s1 := 0x1000, unit := .evPort }
def eiPSizeHM1 : Row := { off := 0x400004, lo := 16, width := 12, acc := .rw, rst := 4095, n1 := 4, s1 := 0x1000, unit := .evPort }
def eiPCtrlCommit : Row := { off := 0x400008, lo := 0, width := 1, acc := .w1s, own := true, n1 := 4, s1 := 0x1000, unit := .evPort }
def eiPCtrlCntClr : Row := { off := 0x400008, lo := 1, width := 1, acc := .w1s, own := true, n1 := 4, s1 := 0x1000, unit := .evPort }
def eiPCtrlHotClr : Row := { off := 0x400008, lo := 2, width := 1, acc := .w1s, own := true, n1 := 4, s1 := 0x1000, unit := .evPort }
def eiPFiltHot : Row := { off := 0x40000C, lo := 0, width := 2, acc := .rw, n1 := 4, s1 := 0x1000, unit := .evPort }
def eiPFiltRef : Row := { off := 0x40000C, lo := 2, width := 2, acc := .rw, n1 := 4, s1 := 0x1000, unit := .evPort }
def eiPFiltRoi : Row := { off := 0x40000C, lo := 4, width := 2, acc := .rw, n1 := 4, s1 := 0x1000, unit := .evPort }
def eiPFiltGlint : Row := { off := 0x40000C, lo := 6, width := 2, acc := .rw, n1 := 4, s1 := 0x1000, unit := .evPort }
def eiPFiltBin : Row := { off := 0x40000C, lo := 8, width := 2, acc := .rw, n1 := 4, s1 := 0x1000, unit := .evPort }
def eiPRefractUs : Row := { off := 0x400010, lo := 0, width := 14, acc := .rw, n1 := 4, s1 := 0x1000, unit := .evPort }
def eiPRoiAX0 : Row := { off := 0x400020, lo := 0, width := 12, acc := .rw, n1 := 4, s1 := 0x1000, n2 := 4, s2 := 0x8, unit := .evPort }
def eiPRoiAY0 : Row := { off := 0x400020, lo := 16, width := 12, acc := .rw, n1 := 4, s1 := 0x1000, n2 := 4, s2 := 0x8, unit := .evPort }
def eiPRoiBX1 : Row := { off := 0x400024, lo := 0, width := 12, acc := .rw, n1 := 4, s1 := 0x1000, n2 := 4, s2 := 0x8, unit := .evPort }
def eiPRoiBY1 : Row := { off := 0x400024, lo := 16, width := 12, acc := .rw, n1 := 4, s1 := 0x1000, n2 := 4, s2 := 0x8, unit := .evPort }
def eiPRoiBEn : Row := { off := 0x400024, lo := 31, width := 1, acc := .rw, n1 := 4, s1 := 0x1000, n2 := 4, s2 := 0x8, unit := .evPort }
def eiPGlintCell : Row := { off := 0x400040, lo := 0, width := 2, acc := .rw, rst := 1, n1 := 4, s1 := 0x1000, unit := .evPort }
def eiPGlintWin : Row := { off := 0x400040, lo := 4, width := 12, acc := .rw, rst := 1000, n1 := 4, s1 := 0x1000, unit := .evPort }
def eiPGlintThresh : Row := { off := 0x400040, lo := 16, width := 16, acc := .rw, rst := 256, n1 := 4, s1 := 0x1000, unit := .evPort }
def eiPGlint2Bal : Row := { off := 0x400044, lo := 0, width := 8, acc := .rw, rst := 32, n1 := 4, s1 := 0x1000, unit := .evPort }
def eiPGlint2Decim : Row := { off := 0x400044, lo := 8, width := 4, acc := .rw, rst := 4, n1 := 4, s1 := 0x1000, unit := .evPort }
def eiPGlint2Hold : Row := { off := 0x400044, lo := 16, width := 16, acc := .rw, rst := 2000, n1 := 4, s1 := 0x1000, unit := .evPort }
def eiPTimeRegressTol : Row := { off := 0x400048, lo := 0, width := 16, acc := .rw, rst := 100, n1 := 4, s1 := 0x1000, unit := .evPort }
def eiPTimeFutTol : Row := { off := 0x400048, lo := 16, width := 16, acc := .rw, rst := 1000, n1 := 4, s1 := 0x1000, unit := .evPort }
def eiPHotIdxIdx : Row := { off := 0x400050, lo := 0, width := 13, acc := .rw, n1 := 4, s1 := 0x1000, unit := .evPort }
def eiPHotDataX : Row := { off := 0x400054, lo := 0, width := 12, acc := .rw, n1 := 4, s1 := 0x1000, unit := .evPort }
def eiPHotDataY : Row := { off := 0x400054, lo := 16, width := 12, acc := .rw, n1 := 4, s1 := 0x1000, unit := .evPort }
def eiPHotDataValid : Row := { off := 0x400054, lo := 31, width := 1, acc := .rw, n1 := 4, s1 := 0x1000, unit := .evPort }
def eiPStatusBuf : Row := { off := 0x400060, lo := 0, width := 2, n1 := 4, s1 := 0x1000, unit := .evPort }
def eiPStatusXoff : Row := { off := 0x400060, lo := 2, width := 1, n1 := 4, s1 := 0x1000, unit := .evPort }
def eiPStatusLink : Row := { off := 0x400060, lo := 3, width := 1, n1 := 4, s1 := 0x1000, unit := .evPort }
def eiPStatusDeskewErr : Row := { off := 0x400060, lo := 4, width := 1, acc := .w1c, n1 := 4, s1 := 0x1000, unit := .evPort }
def eiPStatusCfgErr : Row := { off := 0x400060, lo := 5, width := 1, acc := .w1c, n1 := 4, s1 := 0x1000, unit := .evPort }
def eiPStatusCommitPend : Row := { off := 0x400060, lo := 6, width := 1, n1 := 4, s1 := 0x1000, unit := .evPort }
def eiPStatusGlintCells : Row := { off := 0x400060, lo := 16, width := 16, n1 := 4, s1 := 0x1000, unit := .evPort }
def eiPCntCount : Row := { off := 0x400080, lo := 0, width := 32, n1 := 4, s1 := 0x1000, n2 := 15, s2 := 0x4, unit := .evPort }
def eiTCfgEn : Row := { off := 0x404000, lo := 0, width := 1, acc := .rw, n1 := 2, s1 := 0x1000, unit := .thPort }
def eiTCfgLanes : Row := { off := 0x404000, lo := 1, width := 2, acc := .rw, rst := 1, n1 := 2, s1 := 0x1000, unit := .thPort }
def eiTCfgVc : Row := { off := 0x404000, lo := 6, width := 2, acc := .rw, n1 := 2, s1 := 0x1000, unit := .thPort }
def eiTCfgQid : Row := { off := 0x404000, lo := 16, width := 9, acc := .rw, n1 := 2, s1 := 0x1000, unit := .thPort }
def eiTSizeW : Row := { off := 0x404004, lo := 0, width := 12, acc := .rw, rst := 640, n1 := 2, s1 := 0x1000, unit := .thPort }
def eiTSizeH : Row := { off := 0x404004, lo := 16, width := 12, acc := .rw, rst := 512, n1 := 2, s1 := 0x1000, unit := .thPort }
def eiTCntCount : Row := { off := 0x404080, lo := 0, width := 32, n1 := 2, s1 := 0x1000, n2 := 6, s2 := 0x4, unit := .thPort }
def eiXoffState : Row := { off := 0x408000, lo := 0, width := 4 }
def eiXoffBufEn : Row := { off := 0x408000, lo := 4, width := 4, acc := .rw }
def eiAerHoldNs : Row := { off := 0x408004, lo := 0, width := 16, acc := .rw, rst := 1000 }
def eiAerPktEv : Row := { off := 0x408004, lo := 16, width := 9, acc := .rw, rst := 256 }
def eiAerPktUs : Row := { off := 0x408004, lo := 25, width := 7, acc := .rw, rst := 100 }

/-! TM registers (R225). -/
def tmDevtimeLoNs : Row := { off := 0x500000, lo := 0, width := 32 }
def tmDevtimeHiNs : Row := { off := 0x500004, lo := 0, width := 32 }
def tmCtrlRefEn : Row := { off := 0x500008, lo := 0, width := 1, acc := .rw, rst := 1 }
def tmCtrlPpsEn : Row := { off := 0x500008, lo := 1, width := 1, acc := .rw, rst := 1 }
def tmCtrlSyncEn : Row := { off := 0x500008, lo := 2, width := 1, acc := .rw }
def tmCtrlSlewPpm : Row := { off := 0x500008, lo := 8, width := 8, acc := .rw, rst := 50 }
def tmCtrlRamp : Row := { off := 0x500008, lo := 16, width := 8, acc := .rw, rst := 100 }
def tmCtrlOfsTol : Row := { off := 0x500008, lo := 24, width := 8, acc := .rw, rst := 20 }
def tmStatusSource : Row := { off := 0x50000C, lo := 0, width := 3 }
def tmStatusSwitch : Row := { off := 0x50000C, lo := 4, width := 2 }
def tmStatusTarget : Row := { off := 0x50000C, lo := 8, width := 3 }
def tmStatusRefQ : Row := { off := 0x50000C, lo := 12, width := 1 }
def tmStatusPpsQ : Row := { off := 0x50000C, lo := 13, width := 1 }
def tmStatusHoldAged : Row := { off := 0x50000C, lo := 14, width := 1 }
def tmStatusXtalFail : Row := { off := 0x50000C, lo := 15, width := 1 }
def tmStatusAligned : Row := { off := 0x50000C, lo := 16, width := 1 }
def tmFreqCorr : Row := { off := 0x500010, lo := 0, width := 32 }
def tmPhaseErr : Row := { off := 0x500014, lo := 0, width := 32 }
def tmPpsCapLoNs : Row := { off := 0x500018, lo := 0, width := 32 }
def tmPpsCapHiNs : Row := { off := 0x50001C, lo := 0, width := 32 }
def tmSwitchesCommits : Row := { off := 0x500020, lo := 0, width := 16 }
def tmSwitchesCancels : Row := { off := 0x500020, lo := 16, width := 16 }
def tmEpochEpoch : Row := { off := 0x500024, lo := 0, width := 24 }
def tmPinDlyNs : Row := { off := 0x500028, lo := 0, width := 16, acc := .rw }
def tmThLatUs : Row := { off := 0x500030, lo := 0, width := 20, acc := .rw, n1 := 2, s1 := 0x4, unit := .thPort }
def tmCamCfgMode : Row := { off := 0x500040, lo := 0, width := 2, acc := .rw, own := true, n1 := 4, s1 := 0x10, unit := .evPort }
def tmCamCfgBus : Row := { off := 0x500040, lo := 2, width := 1, acc := .rw, n1 := 4, s1 := 0x10, unit := .evPort }
def tmCamCfgAddr : Row := { off := 0x500040, lo := 3, width := 7, acc := .rw, n1 := 4, s1 := 0x10, unit := .evPort }
def tmCamCfgReg : Row := { off := 0x500040, lo := 16, width := 16, acc := .rw, n1 := 4, s1 := 0x10, unit := .evPort }
def tmCamOfsLoOffset : Row := { off := 0x500044, lo := 0, width := 32, acc := .rwMan, n1 := 4, s1 := 0x10, unit := .evPort }
def tmCamOfsHiOffset : Row := { off := 0x500048, lo := 0, width := 32, acc := .rwMan, n1 := 4, s1 := 0x10, unit := .evPort }
def tmCamDriftPpb : Row := { off := 0x50004C, lo := 0, width := 32, acc := .rwMan, n1 := 4, s1 := 0x10, unit := .evPort }
def tmCamStatJumps : Row := { off := 0x500080, lo := 0, width := 16, n1 := 4, s1 := 0x4, unit := .evPort }
def tmCamStatMisses : Row := { off := 0x500080, lo := 16, width := 8, n1 := 4, s1 := 0x4, unit := .evPort }
def tmCamStatLost : Row := { off := 0x500080, lo := 31, width := 1, n1 := 4, s1 := 0x4, unit := .evPort }

/-! QM registers (R253). -/
def qmPoolFree : Row := { off := 0x600000, lo := 0, width := 21, rst := 1048576 }
def qmPoolLowMin : Row := { off := 0x600004, lo := 0, width := 21, rst := 1048576 }
def qmPoolLowClr : Row := { off := 0x600004, lo := 31, width := 1, acc := .w1s, hang := .cleared, own := true }
def qmStatusRebuild : Row := { off := 0x600008, lo := 0, width := 1 }
def qmStatusBadfree : Row := { off := 0x600008, lo := 1, width := 1, acc := .w1c }
def qmStatusSever : Row := { off := 0x600008, lo := 2, width := 1, acc := .w1c }
def qmStatusUnnamed : Row := { off := 0x600008, lo := 3, width := 1, acc := .w1c }
def qmStatusWrongEp : Row := { off := 0x600008, lo := 4, width := 1, acc := .w1c }
def qmLostCount : Row := { off := 0x60000C, lo := 0, width := 21 }
def qmScrubPeriod : Row := { off := 0x600010, lo := 0, width := 8, acc := .rw, rst := 64 }
def qmScrubPos : Row := { off := 0x600010, lo := 8, width := 20 }
def qmBadfreeCell : Row := { off := 0x600014, lo := 0, width := 20 }
def qmBadfreeEp : Row := { off := 0x600014, lo := 20, width := 8 }
def qmBadfreeDouble : Row := { off := 0x600014, lo := 28, width := 1 }
def qmHoldLimit : Row := { off := 0x600400, lo := 0, width := 16, acc := .rw, n1 := 256, s1 := 0x4, unit := .endpoint }
def qmHoldHeld : Row := { off := 0x600400, lo := 16, width := 16, n1 := 256, s1 := 0x4, unit := .endpoint }
def qmQCfgQuota : Row := { off := 0x608000, lo := 0, width := 21, hang := .easel, n1 := 512, s1 := 0x20, unit := .queue }
def qmQCfgClass : Row := { off := 0x608000, lo := 21, width := 3, hang := .easel, n1 := 512, s1 := 0x20, unit := .queue }
def qmQCfgXoff : Row := { off := 0x608000, lo := 24, width := 4, hang := .easel, n1 := 512, s1 := 0x20, unit := .queue }
def qmQCfgPresent : Row := { off := 0x608000, lo := 28, width := 1, hang := .easel, n1 := 512, s1 := 0x20, unit := .queue }
def qmQCfgRetired : Row := { off := 0x608000, lo := 29, width := 1, hang := .easel, n1 := 512, s1 := 0x20, unit := .queue }
def qmQHighHigh : Row := { off := 0x608004, lo := 0, width := 21, hang := .easel, n1 := 512, s1 := 0x20, unit := .queue }
def qmQLowLow : Row := { off := 0x608008, lo := 0, width := 21, hang := .easel, n1 := 512, s1 := 0x20, unit := .queue }
def qmQEpProd : Row := { off := 0x60800C, lo := 0, width := 8, hang := .easel, n1 := 512, s1 := 0x20, unit := .queue }
def qmQEpCons : Row := { off := 0x60800C, lo := 8, width := 8, hang := .easel, n1 := 512, s1 := 0x20, unit := .queue }
def qmQDepthDepth : Row := { off := 0x608010, lo := 0, width := 21, n1 := 512, s1 := 0x20, unit := .queue }
def qmQDepthHighState : Row := { off := 0x608010, lo := 24, width := 1, n1 := 512, s1 := 0x20, unit := .queue }
def qmQDepthMarkerIn : Row := { off := 0x608010, lo := 25, width := 1, n1 := 512, s1 := 0x20, unit := .queue }
def qmQDepthMarkerOpen : Row := { off := 0x608010, lo := 26, width := 1, n1 := 512, s1 := 0x20, unit := .queue }
def qmQDepthDropPend : Row := { off := 0x608010, lo := 27, width := 1, n1 := 512, s1 := 0x20, unit := .queue }
def qmQDepthSevering : Row := { off := 0x608010, lo := 28, width := 1, n1 := 512, s1 := 0x20, unit := .queue }
def qmQGapCount : Row := { off := 0x608014, lo := 0, width := 32, n1 := 512, s1 := 0x20, unit := .queue }
def qmQDropsCount : Row := { off := 0x608018, lo := 0, width := 32, n1 := 512, s1 := 0x20, unit := .queue }
def qmQEvtPoison : Row := { off := 0x60801C, lo := 0, width := 12, n1 := 512, s1 := 0x20, unit := .queue }
def qmQEvtSevers : Row := { off := 0x60801C, lo := 12, width := 4, n1 := 512, s1 := 0x20, unit := .queue }
def qmQEvtDropRem : Row := { off := 0x60801C, lo := 16, width := 16, n1 := 512, s1 := 0x20, unit := .queue }

/-! CV registers (R148). -/
def cvStatusStaged : Row := { off := 0x800000, lo := 0, width := 1, hang := .cleared }
def cvStatusEpoch : Row := { off := 0x800000, lo := 1, width := 1, hang := .easel }
def cvStatusHangPend : Row := { off := 0x800000, lo := 2, width := 1, hang := .cleared }
def cvStatusDraining : Row := { off := 0x800000, lo := 3, width := 1 }
def cvStatusLoadBusy : Row := { off := 0x800000, lo := 4, width := 1 }
def cvStatusInitHeld : Row := { off := 0x800000, lo := 5, width := 1 }
def cvStatusActive : Row := { off := 0x800000, lo := 6, width := 1 }
def cvStatusPlanStaged : Row := { off := 0x800000, lo := 7, width := 1, hang := .cleared }
def cvStatusHangNone : Row := { off := 0x800000, lo := 8, width := 1, acc := .w1c }
def cvCmdLoad : Row := { off := 0x800004, lo := 0, width := 1, acc := .w1s, hang := .cleared, own := true }
def cvCmdHang : Row := { off := 0x800004, lo := 1, width := 1, acc := .w1s, hang := .cleared, own := true }
def cvCmdUnstage : Row := { off := 0x800004, lo := 2, width := 1, acc := .w1s, hang := .cleared, own := true }
def cvImageAddrAddr : Row := { off := 0x800008, lo := 0, width := 32, acc := .rw }
def cvImageLenLen : Row := { off := 0x80000C, lo := 0, width := 32, acc := .rw }
def cvPlanAddrAddr : Row := { off := 0x800010, lo := 0, width := 32, acc := .rw }
def cvPlanLenLen : Row := { off := 0x800014, lo := 0, width := 32, acc := .rw }
def cvInitAddrAddr : Row := { off := 0x800018, lo := 0, width := 32, acc := .rw }
def cvActiveIdId : Row := { off := 0x80001C, lo := 0, width := 32, hang := .easel }
def cvStagedIdId : Row := { off := 0x800020, lo := 0, width := 32, hang := .cleared }
def cvEpochDrainCount : Row := { off := 0x800024, lo := 0, width := 20 }
def cvHangsCount : Row := { off := 0x800028, lo := 0, width := 32 }
def cvLastDrainUs : Row := { off := 0x80002C, lo := 0, width := 16 }
def cvLastDrainAborts : Row := { off := 0x80002C, lo := 16, width := 16 }
def cvRejectCheck : Row := { off := 0x800030, lo := 0, width := 8 }
def cvRejectIndex : Row := { off := 0x800030, lo := 8, width := 16 }
def cvRejectValid : Row := { off := 0x800030, lo := 31, width := 1, acc := .w1c }
def cvInitBlockedCount : Row := { off := 0x800034, lo := 0, width := 32 }
def cvPeekAddrAddr : Row := { off := 0x800038, lo := 0, width := 24, acc := .rw }
def cvPeekDataData : Row := { off := 0x80003C, lo := 0, width := 32 }
def cvRoleARole : Row := { off := 0x800040, lo := 0, width := 32, hang := .easel, n1 := 4, s1 := 0x4 }
def cvRoleERole : Row := { off := 0x800050, lo := 0, width := 32, hang := .cleared, n1 := 4, s1 := 0x4 }
def cvHangCostUs : Row := { off := 0x800060, lo := 0, width := 16, hang := .cleared }

/-! PP registers (R175). -/
def ppStatusRun : Row := { off := 0x900000, lo := 0, width := 1 }
def ppStatusHalted : Row := { off := 0x900000, lo := 1, width := 1, hang := .cleared }
def ppStatusClamp : Row := { off := 0x900000, lo := 2, width := 1, acc := .w1c }
def ppStatusPhase : Row := { off := 0x900000, lo := 4, width := 3 }
def ppStatusCause : Row := { off := 0x900000, lo := 8, width := 4, hang := .cleared }
def ppBundleIndex : Row := { off := 0x900004, lo := 0, width := 20 }
def ppHaltAtIndex : Row := { off := 0x900008, lo := 0, width := 20, hang := .cleared }
def ppStepCount : Row := { off := 0x90000C, lo := 0, width := 32 }
def ppT0LoT0 : Row := { off := 0x900010, lo := 0, width := 32 }
def ppT0HiT0 : Row := { off := 0x900014, lo := 0, width := 32 }
def ppFencePending : Row := { off := 0x900018, lo := 0, width := 32 }
def ppStepGraceGrace : Row := { off := 0x90001C, lo := 0, width := 32, rst := 200000, hang := .easel }
def ppHostLateCount : Row := { off := 0x900020, lo := 0, width := 32 }
def ppOverrunsCount : Row := { off := 0x900024, lo := 0, width := 32 }
def ppOverrunsHiLast : Row := { off := 0x900028, lo := 0, width := 20 }
def ppWindowsLoOpen : Row := { off := 0x90002C, lo := 0, width := 32 }
def ppWindowsHiOpen : Row := { off := 0x900038, lo := 0, width := 32 }
def ppImageBlockedCount : Row := { off := 0x900030, lo := 0, width := 32 }
def ppPlanIdAbi : Row := { off := 0x900034, lo := 0, width := 16, hang := .easel }
def ppPlanIdCvSlot : Row := { off := 0x900034, lo := 16, width := 2, hang := .easel }

/-! SF registers (R283). -/
def sfPopCfgEn : Row := { off := 0xA01000, lo := 0, width := 1, hang := .easel, n1 := 64, s1 := 0x80 }
def sfPopCfgMode : Row := { off := 0xA01000, lo := 1, width := 1, hang := .easel, n1 := 64, s1 := 0x80 }
def sfPopCfgFmt : Row := { off := 0xA01000, lo := 2, width := 2, hang := .easel, n1 := 64, s1 := 0x80 }
def sfPopCfgFanout : Row := { off := 0xA01000, lo := 4, width := 1, hang := .easel, n1 := 64, s1 := 0x80 }
def sfPopCfgExport : Row := { off := 0xA01000, lo := 5, width := 1, hang := .easel, n1 := 64, s1 := 0x80 }
def sfPopCfgOutQid : Row := { off := 0xA01000, lo := 8, width := 9, hang := .easel, n1 := 64, s1 := 0x80 }
def sfPopCfgPort : Row := { off := 0xA01000, lo := 17, width := 2, hang := .easel, n1 := 64, s1 := 0x80 }
def sfPopCfgExportTile : Row := { off := 0xA01000, lo := 24, width := 6, hang := .easel, n1 := 64, s1 := 0x80 }
def sfPopPar0Theta0 : Row := { off := 0xA01004, lo := 0, width := 16, hang := .easel, n1 := 64, s1 := 0x80 }
def sfPopPar0AInc : Row := { off := 0xA01004, lo := 16, width := 16, hang := .easel, n1 := 64, s1 := 0x80 }
def sfPopPar1VReset : Row := { off := 0xA01008, lo := 0, width := 16, hang := .easel, n1 := 64, s1 := 0x80 }
def sfPopPar1TRef : Row := { off := 0xA01008, lo := 16, width := 16, hang := .easel, n1 := 64, s1 := 0x80 }
def sfPopPar2ColV : Row := { off := 0xA0100C, lo := 0, width := 2, hang := .easel, n1 := 64, s1 := 0x80 }
def sfPopPar2ColA : Row := { off := 0xA0100C, lo := 2, width := 2, hang := .easel, n1 := 64, s1 := 0x80 }
def sfPopPar2WShift : Row := { off := 0xA0100C, lo := 4, width := 4, hang := .easel, n1 := 64, s1 := 0x80 }
def sfPopPar2VMin : Row := { off := 0xA0100C, lo := 16, width := 16, rst := 32768, hang := .easel, n1 := 64, s1 := 0x80 }
def sfPopGridGw : Row := { off := 0xA01010, lo := 0, width := 12, hang := .easel, n1 := 64, s1 := 0x80 }
def sfPopGridCs : Row := { off := 0xA01010, lo := 12, width := 3, hang := .easel, n1 := 64, s1 := 0x80 }
def sfPopGridNplaneM1 : Row := { off := 0xA01010, lo := 16, width := 4, hang := .easel, n1 := 64, s1 := 0x80 }
def sfPopOriginX0 : Row := { off := 0xA01014, lo := 0, width := 12, hang := .easel, n1 := 64, s1 := 0x80 }
def sfPopOriginY0 : Row := { off := 0xA01014, lo := 16, width := 12, hang := .easel, n1 := 64, s1 := 0x80 }
def sfPopStepStepUs : Row := { off := 0xA01018, lo := 0, width := 16, hang := .easel, n1 := 64, s1 := 0x80 }
def sfPopStepSettleUs : Row := { off := 0xA01018, lo := 16, width := 16, hang := .easel, n1 := 64, s1 := 0x80 }
def sfPopStretchMax : Row := { off := 0xA0101C, lo := 0, width := 8, rst := 16, hang := .easel, n1 := 64, s1 := 0x80 }
def sfPopStretchLast : Row := { off := 0xA0101C, lo := 8, width := 8, n1 := 64, s1 := 0x80 }
def sfPopWinWinUs : Row := { off := 0xA01020, lo := 0, width := 24, acc := .rw, rst := 1000000, n1 := 64, s1 := 0x80 }
def sfPopWinBinModM1 : Row := { off := 0xA01020, lo := 24, width := 4, acc := .rw, rst := 15, n1 := 64, s1 := 0x80 }
def sfPopSnapSeqSeq : Row := { off := 0xA01024, lo := 0, width := 32, n1 := 64, s1 := 0x80 }
def sfPopSnapTotalCount : Row := { off := 0xA01028, lo := 0, width := 32, n1 := 64, s1 := 0x80 }
def sfPopItemId : Row := { off := 0xA0102C, lo := 0, width := 32, n1 := 64, s1 := 0x80 }
def sfPopStepsClosed : Row := { off := 0xA01030, lo := 0, width := 16, n1 := 64, s1 := 0x80 }
def sfPopStepsStretched : Row := { off := 0xA01030, lo := 16, width := 16, n1 := 64, s1 := 0x80 }
def sfPopLateCount : Row := { off := 0xA01034, lo := 0, width := 32, n1 := 64, s1 := 0x80 }
def sfPopBinCount : Row := { off := 0xA01040, lo := 0, width := 32, n1 := 64, s1 := 0x80, n2 := 16, s2 := 0x4 }
def sfTSegPop : Row := { off := 0xA10000, lo := 0, width := 6, hang := .easel, n1 := 64, s1 := 0x1000, n2 := 4, s2 := 0x8, unit := .spikeWin }
def sfTSegEn : Row := { off := 0xA10000, lo := 7, width := 1, hang := .easel, n1 := 64, s1 := 0x1000, n2 := 4, s2 := 0x8, unit := .spikeWin }
def sfTSegNeuLo : Row := { off := 0xA10000, lo := 8, width := 24, hang := .easel, n1 := 64, s1 := 0x1000, n2 := 4, s2 := 0x8, unit := .spikeWin }
def sfTSegHiLocal : Row := { off := 0xA10004, lo := 0, width := 14, hang := .easel, n1 := 64, s1 := 0x1000, n2 := 4, s2 := 0x8, unit := .spikeWin }
def sfTSegHiCountM1 : Row := { off := 0xA10004, lo := 16, width := 14, hang := .easel, n1 := 64, s1 := 0x1000, n2 := 4, s2 := 0x8, unit := .spikeWin }
def sfTPartsState : Row := { off := 0xA10020, lo := 0, width := 4, hang := .easel, n1 := 64, s1 := 0x1000, unit := .spikeWin }
def sfTPartsSyn : Row := { off := 0xA10020, lo := 4, width := 4, hang := .easel, n1 := 64, s1 := 0x1000, unit := .spikeWin }
def sfTPartsDecay : Row := { off := 0xA10020, lo := 8, width := 4, hang := .easel, n1 := 64, s1 := 0x1000, unit := .spikeWin }
def sfTStatAwake : Row := { off := 0xA10040, lo := 0, width := 1, n1 := 64, s1 := 0x1000, unit := .spikeWin }
def sfTCntCount : Row := { off := 0xA10080, lo := 0, width := 32, n1 := 64, s1 := 0x1000, n2 := 8, s2 := 0x4, unit := .spikeWin }
def sfTMapKeyKey : Row := { off := 0xA10100, lo := 0, width := 32, hang := .easel, n1 := 64, s1 := 0x1000, n2 := 16, s2 := 0x20, unit := .spikeWin }
def sfTMapMaskMask : Row := { off := 0xA10104, lo := 0, width := 32, hang := .easel, n1 := 64, s1 := 0x1000, n2 := 16, s2 := 0x20, unit := .spikeWin }
def sfTMapModeMode : Row := { off := 0xA10108, lo := 0, width := 1, hang := .easel, n1 := 64, s1 := 0x1000, n2 := 16, s2 := 0x20, unit := .spikeWin }
def sfTMapModeK : Row := { off := 0xA10108, lo := 1, width := 2, hang := .easel, n1 := 64, s1 := 0x1000, n2 := 16, s2 := 0x20, unit := .spikeWin }
def sfTMapModeIshift : Row := { off := 0xA10108, lo := 7, width := 5, hang := .easel, n1 := 64, s1 := 0x1000, n2 := 16, s2 := 0x20, unit := .spikeWin }
def sfTMapModeIbits : Row := { off := 0xA10108, lo := 12, width := 5, hang := .easel, n1 := 64, s1 := 0x1000, n2 := 16, s2 := 0x20, unit := .spikeWin }
def sfTMapModeRowLenM1 : Row := { off := 0xA10108, lo := 17, width := 10, hang := .easel, n1 := 64, s1 := 0x1000, n2 := 16, s2 := 0x20, unit := .spikeWin }
def sfTMapSynSynBase : Row := { off := 0xA1010C, lo := 0, width := 21, hang := .easel, n1 := 64, s1 := 0x1000, n2 := 16, s2 := 0x20, unit := .spikeWin }
def sfTMapNeuNeuBase : Row := { off := 0xA10110, lo := 0, width := 24, hang := .easel, n1 := 64, s1 := 0x1000, n2 := 16, s2 := 0x20, unit := .spikeWin }
def sfTMapStepNeuStep : Row := { off := 0xA10114, lo := 0, width := 14, hang := .easel, n1 := 64, s1 := 0x1000, n2 := 16, s2 := 0x20, unit := .spikeWin }

/-! DE registers (R311). -/
def deStatusParity : Row := { off := 0xB00000, lo := 0, width := 1, acc := .w1c }
def deStatusClamp : Row := { off := 0xB00000, lo := 1, width := 1, acc := .w1c }
def deStatusBounds : Row := { off := 0xB00000, lo := 2, width := 1, acc := .w1c }
def deMemOutKib : Row := { off := 0xB00004, lo := 0, width := 32 }
def deMemInKib : Row := { off := 0xB00008, lo := 0, width := 32 }
def deMemExtKib : Row := { off := 0xB0000C, lo := 0, width := 32 }
def deCmpFmtCount : Row := { off := 0xB00010, lo := 0, width := 32 }
def deTStatBusy : Row := { off := 0xB10000, lo := 0, width := 1, n1 := 64, s1 := 0x1000, unit := .denseWin }
def deTStatKind : Row := { off := 0xB10000, lo := 1, width := 4, n1 := 64, s1 := 0x1000, unit := .denseWin }
def deTStatWindow : Row := { off := 0xB10000, lo := 5, width := 1, n1 := 64, s1 := 0x1000, unit := .denseWin }
def deTStatYielded : Row := { off := 0xB10000, lo := 6, width := 1, n1 := 64, s1 := 0x1000, unit := .denseWin }
def deTEpochEpoch : Row := { off := 0xB10010, lo := 0, width := 24, n1 := 64, s1 := 0x1000, n2 := 4, s2 := 0x4, unit := .denseWin }
def deTEpochValid : Row := { off := 0xB10010, lo := 31, width := 1, n1 := 64, s1 := 0x1000, n2 := 4, s2 := 0x4, unit := .denseWin }
def deTCntCount : Row := { off := 0xB10080, lo := 0, width := 32, n1 := 64, s1 := 0x1000, n2 := 9, s2 := 0x4, unit := .denseWin }

/-! XR registers (R335). -/
def xrCtrlMode : Row := { off := 0xC00000, lo := 0, width := 1, hang := .easel }
def xrCtrlLoopEn : Row := { off := 0xC00000, lo := 1, width := 1, acc := .rw, rst := 1 }
def xrCtrlTopkG0 : Row := { off := 0xC00000, lo := 4, width := 2, rst := 1, hang := .easel }
def xrCtrlTopkG1 : Row := { off := 0xC00000, lo := 6, width := 2, rst := 1, hang := .easel }
def xrCtrlTopkG2 : Row := { off := 0xC00000, lo := 8, width := 2, rst := 1, hang := .easel }
def xrCtrlTopkG3 : Row := { off := 0xC00000, lo := 10, width := 2, rst := 1, hang := .easel }
def xrCtrlChip : Row := { off := 0xC00000, lo := 12, width := 2, hang := .easel }
def xrCapCf : Row := { off := 0xC00004, lo := 0, width := 8, rst := 16, hang := .easel }
def xrCapCapMin : Row := { off := 0xC00004, lo := 8, width := 12, rst := 1, hang := .easel }
def xrBiasctlStepB : Row := { off := 0xC00008, lo := 0, width := 8, acc := .rw, rst := 8 }
def xrBiasctlBmax : Row := { off := 0xC00008, lo := 8, width := 16, acc := .rw, rst := 2048 }
def xrBiasctlDead : Row := { off := 0xC00008, lo := 24, width := 8, acc := .rw, rst := 32 }
def xrSkipStableN : Row := { off := 0xC0000C, lo := 0, width := 8, rst := 4, hang := .easel }
def xrSkipSkipMax : Row := { off := 0xC0000C, lo := 8, width := 8, rst := 8, hang := .easel }
def xrSkipSkipConf : Row := { off := 0xC0000C, lo := 16, width := 8, rst := 160, hang := .easel }
def xrRemoteTmoUs : Row := { off := 0xC00010, lo := 0, width := 24, hang := .easel }
def xrStatusUnreach : Row := { off := 0xC00014, lo := 0, width := 4 }
def xrStatusClamp : Row := { off := 0xC00014, lo := 8, width := 1, acc := .w1c }
def xrStatusPeriodPos : Row := { off := 0xC00014, lo := 16, width := 8 }
def xrRetQid : Row := { off := 0xC00020, lo := 0, width := 9, hang := .easel, n1 := 2, s1 := 0x4, unit := .link }
def xrCntCount : Row := { off := 0xC00040, lo := 0, width := 32, n1 := 8, s1 := 0x4 }
def xrExpCfgEn : Row := { off := 0xC01000, lo := 0, width := 1, hang := .easel, n1 := 64, s1 := 0x10 }
def xrExpCfgHome : Row := { off := 0xC01000, lo := 1, width := 2, hang := .easel, n1 := 64, s1 := 0x10 }
def xrExpCfgQid : Row := { off := 0xC01000, lo := 4, width := 9, hang := .easel, n1 := 64, s1 := 0x10 }
def xrExpCfgCapMax : Row := { off := 0xC01000, lo := 16, width := 13, hang := .easel, n1 := 64, s1 := 0x10 }
def xrExpBiasBias : Row := { off := 0xC01004, lo := 0, width := 16, acc := .rw, own := true, n1 := 64, s1 := 0x10 }
def xrExpLoadRouted : Row := { off := 0xC01008, lo := 0, width := 16, n1 := 64, s1 := 0x10 }
def xrExpLoadKept : Row := { off := 0xC01008, lo := 16, width := 16, n1 := 64, s1 := 0x10 }
def xrExpDropsCount : Row := { off := 0xC0100C, lo := 0, width := 32, n1 := 64, s1 := 0x10 }
def xrRqQid : Row := { off := 0xC02000, lo := 0, width := 9, hang := .easel, n1 := 4, s1 := 0x100, n2 := 64, s2 := 0x4 }

/-! FU registers (R368). -/
def fuCtrlEn : Row := { off := 0xD00000, lo := 0, width := 1, hang := .easel }
def fuCtrlCmdQid : Row := { off := 0xD00000, lo := 8, width := 9, hang := .easel }
def fuCtrlDoneQid : Row := { off := 0xD00000, lo := 17, width := 9, hang := .easel }
def fuAlignLagUs : Row := { off := 0xD00004, lo := 0, width := 16, hang := .easel }
def fuAlignGUs : Row := { off := 0xD00004, lo := 16, width := 16, rst := 500, hang := .easel }
def fuWinWinUs : Row := { off := 0xD00008, lo := 0, width := 24, rst := 8333, hang := .easel }
def fuTrackM : Row := { off := 0xD0000C, lo := 0, width := 4, rst := 3, hang := .easel }
def fuTrackN : Row := { off := 0xD0000C, lo := 4, width := 4, rst := 5, hang := .easel }
def fuTrackCoastMax : Row := { off := 0xD0000C, lo := 8, width := 8, rst := 24, hang := .easel }
def fuTrackHazCoast : Row := { off := 0xD0000C, lo := 16, width := 8, rst := 120, hang := .easel }
def fuTrackBirthScore : Row := { off := 0xD0000C, lo := 24, width := 8, rst := 64, hang := .easel }
def fuGateGateDm : Row := { off := 0xD00010, lo := 0, width := 12, rst := 50, hang := .easel }
def fuGateAlpha : Row := { off := 0xD00010, lo := 12, width := 8, rst := 128, hang := .easel }
def fuGateBeta : Row := { off := 0xD00010, lo := 20, width := 8, rst := 32, hang := .easel }
def fuGridCellCm : Row := { off := 0xD00014, lo := 0, width := 8, rst := 50, hang := .easel }
def fuGridOrgX : Row := { off := 0xD00014, lo := 8, width := 9, rst := 256, hang := .easel }
def fuGridOrgY : Row := { off := 0xD00014, lo := 17, width := 9, rst := 480, hang := .easel }
def fuLatLatReport : Row := { off := 0xD00018, lo := 0, width := 8, rst := 128, hang := .easel }
def fuLatLatBirth : Row := { off := 0xD00018, lo := 8, width := 8, rst := 200, hang := .easel }
def fuLatLatGateDm : Row := { off := 0xD00018, lo := 16, width := 12, rst := 50, hang := .easel }
def fuMotMinSpikes : Row := { off := 0xD0001C, lo := 0, width := 16, rst := 2000, hang := .easel }
def fuMotResMax : Row := { off := 0xD0001C, lo := 16, width := 16, rst := 400, hang := .easel }
def fuHzHzMin : Row := { off := 0xD00020, lo := 0, width := 16, rst := 64, hang := .easel }
def fuHzHzSrc : Row := { off := 0xD00020, lo := 16, width := 3, hang := .easel }
def fuLadderUpHold : Row := { off := 0xD00024, lo := 0, width := 8, rst := 120, hang := .easel }
def fuLadderMotHold : Row := { off := 0xD00024, lo := 8, width := 8, rst := 60, hang := .easel }
def fuLadderStaleMs : Row := { off := 0xD00024, lo := 16, width := 16, rst := 50, hang := .easel }
def fuTestTestWin : Row := { off := 0xD00028, lo := 0, width := 8, acc := .rw, rst := 120 }
def fuTestQuarN : Row := { off := 0xD00028, lo := 8, width := 4, acc := .rw, rst := 3 }
def fuTestRelN : Row := { off := 0xD00028, lo := 12, width := 4, acc := .rw, rst := 10 }
def fuTestAutoRel : Row := { off := 0xD00028, lo := 16, width := 1, acc := .rw }
def fuTestDisMax : Row := { off := 0xD00028, lo := 24, width := 8, acc := .rw, rst := 192 }
def fuTest2RegMax : Row := { off := 0xD0002C, lo := 0, width := 16, acc := .rw, rst := 655 }
def fuTest2StuckFrac : Row := { off := 0xD0002C, lo := 16, width := 8, acc := .rw, rst := 64 }
def fuTest2JumpMax : Row := { off := 0xD0002C, lo := 24, width := 8, acc := .rw, rst := 2 }
def fuStatusLevel : Row := { off := 0xD00030, lo := 0, width := 3 }
def fuStatusMotionValid : Row := { off := 0xD00030, lo := 3, width := 1 }
def fuStatusHorizonValid : Row := { off := 0xD00030, lo := 4, width := 1 }
def fuStatusAttHeld : Row := { off := 0xD00030, lo := 5, width := 1 }
def fuStatusCmdErr : Row := { off := 0xD00030, lo := 8, width := 1, acc := .w1c }
def fuStatusParity : Row := { off := 0xD00030, lo := 9, width := 1, acc := .w1c }
def fuSrcstateHealthy : Row := { off := 0xD00034, lo := 0, width := 6 }
def fuSrcstateSuspect : Row := { off := 0xD00034, lo := 8, width := 6 }
def fuSrcstateQuar : Row := { off := 0xD00034, lo := 16, width := 6 }
def fuSrcstateQuarClr : Row := { off := 0xD00034, lo := 24, width := 6, acc := .w1s, hang := .cleared, own := true }
def fuMotion0WRoll : Row := { off := 0xD00038, lo := 0, width := 16 }
def fuMotion0WPitch : Row := { off := 0xD00038, lo := 16, width := 16 }
def fuMotion1WYaw : Row := { off := 0xD0003C, lo := 0, width := 16 }
def fuMotion1Roll : Row := { off := 0xD0003C, lo := 16, width := 16 }
def fuMotion2Pitch : Row := { off := 0xD00040, lo := 0, width := 16 }
def fuMotion2Bands : Row := { off := 0xD00040, lo := 16, width := 4 }
def fuTracksConfirmed : Row := { off := 0xD00044, lo := 0, width := 13 }
def fuTracksTentative : Row := { off := 0xD00044, lo := 16, width := 13 }
def fuAssocOffOff : Row := { off := 0xD00048, lo := 0, width := 32, hang := .easel }
def fuMidOutOffOff : Row := { off := 0xD0004C, lo := 0, width := 32, hang := .easel }
def fuCntCount : Row := { off := 0xD00080, lo := 0, width := 32, n1 := 13, s1 := 0x4 }
def fuInCfgEn : Row := { off := 0xD00100, lo := 0, width := 1, hang := .easel, n1 := 16, s1 := 0x4 }
def fuInCfgKind : Row := { off := 0xD00100, lo := 1, width := 3, hang := .easel, n1 := 16, s1 := 0x4 }
def fuInCfgAlign : Row := { off := 0xD00100, lo := 4, width := 1, hang := .easel, n1 := 16, s1 := 0x4 }
def fuInCfgSrc : Row := { off := 0xD00100, lo := 5, width := 3, hang := .easel, n1 := 16, s1 := 0x4 }
def fuInCfgQid : Row := { off := 0xD00100, lo := 8, width := 9, hang := .easel, n1 := 16, s1 := 0x4 }
def fuInFrontUs : Row := { off := 0xD00140, lo := 0, width := 32, n1 := 16, s1 := 0x4 }
def fuOutCfgEn : Row := { off := 0xD00180, lo := 0, width := 1, hang := .easel, n1 := 16, s1 := 0x4 }
def fuOutCfgStamped : Row := { off := 0xD00180, lo := 1, width := 1, hang := .easel, n1 := 16, s1 := 0x4 }
def fuOutCfgContent : Row := { off := 0xD00180, lo := 4, width := 4, hang := .easel, n1 := 16, s1 := 0x4 }
def fuOutCfgQid : Row := { off := 0xD00180, lo := 8, width := 9, hang := .easel, n1 := 16, s1 := 0x4 }
def fuSrcCal0F : Row := { off := 0xD00200, lo := 0, width := 16, hang := .easel, n1 := 6, s1 := 0x20 }
def fuSrcCal0HeightCm : Row := { off := 0xD00200, lo := 16, width := 16, hang := .easel, n1 := 6, s1 := 0x20 }
def fuSrcCal1Cx : Row := { off := 0xD00204, lo := 0, width := 12, hang := .easel, n1 := 6, s1 := 0x20 }
def fuSrcCal1Cy : Row := { off := 0xD00204, lo := 16, width := 12, hang := .easel, n1 := 6, s1 := 0x20 }
def fuSrcCal2Yaw : Row := { off := 0xD00208, lo := 0, width := 16, hang := .easel, n1 := 6, s1 := 0x20 }
def fuSrcCal2MountPitch : Row := { off := 0xD00208, lo := 16, width := 16, hang := .easel, n1 := 6, s1 := 0x20 }
def fuSrcCal3Speed : Row := { off := 0xD0020C, lo := 0, width := 16, hang := .easel, n1 := 6, s1 := 0x20 }
def fuSrcRateRateLo : Row := { off := 0xD00210, lo := 0, width := 16, hang := .easel, n1 := 6, s1 := 0x20 }
def fuSrcRateRateHi : Row := { off := 0xD00210, lo := 16, width := 16, rst := 65535, hang := .easel, n1 := 6, s1 := 0x20 }
def fuEarlyHH : Row := { off := 0xD00300, lo := 0, width := 32, hang := .easel, n1 := 4, s1 := 0x40, n2 := 9, s2 := 0x4 }
def fuEarlyCfgEn : Row := { off := 0xD00324, lo := 0, width := 1, hang := .easel, n1 := 4, s1 := 0x40 }
def fuEarlyCfgTherm : Row := { off := 0xD00324, lo := 1, width := 1, hang := .easel, n1 := 4, s1 := 0x40 }
def fuEarlyCfgBs : Row := { off := 0xD00324, lo := 2, width := 3, hang := .easel, n1 := 4, s1 := 0x40 }
def fuEarlyCfgLo : Row := { off := 0xD00324, lo := 5, width := 14, hang := .easel, n1 := 4, s1 := 0x40 }
def fuEarlyCfg2Hi : Row := { off := 0xD00328, lo := 0, width := 14, hang := .easel, n1 := 4, s1 := 0x40 }
def fuEarlyCfg2WM1 : Row := { off := 0xD00328, lo := 16, width := 12, hang := .easel, n1 := 4, s1 := 0x40 }
def fuEarlyCfg3HM1 : Row := { off := 0xD0032C, lo := 0, width := 12, hang := .easel, n1 := 4, s1 := 0x40 }
def fuEarlyOffOff : Row := { off := 0xD00330, lo := 0, width := 32, hang := .easel, n1 := 4, s1 := 0x40 }
def fuMidLocEn : Row := { off := 0xD00500, lo := 0, width := 1, hang := .easel, n1 := 6, s1 := 0x10 }
def fuMidLocGroup : Row := { off := 0xD00500, lo := 1, width := 6, hang := .easel, n1 := 6, s1 := 0x10 }
def fuMidLocPos : Row := { off := 0xD00500, lo := 7, width := 6, hang := .easel, n1 := 6, s1 := 0x10 }
def fuMidLocPart : Row := { off := 0xD00500, lo := 13, width := 4, hang := .easel, n1 := 6, s1 := 0x10 }
def fuMidOffOff : Row := { off := 0xD00504, lo := 0, width := 32, hang := .easel, n1 := 6, s1 := 0x10 }
def fuMidShapeWM1 : Row := { off := 0xD00508, lo := 0, width := 12, hang := .easel, n1 := 6, s1 := 0x10 }
def fuMidShapeHM1 : Row := { off := 0xD00508, lo := 12, width := 12, hang := .easel, n1 := 6, s1 := 0x10 }
def fuMidShapeCM1 : Row := { off := 0xD00508, lo := 24, width := 5, hang := .easel, n1 := 6, s1 := 0x10 }
def fuMidShapeFshift : Row := { off := 0xD00508, lo := 29, width := 3, hang := .easel, n1 := 6, s1 := 0x10 }

/-! RD registers (R399). -/
def rdCtrlVideo : Row := { off := 0xE00000, lo := 0, width := 1, acc := .rw, own := true }
def rdCtrlEotp : Row := { off := 0xE00000, lo := 1, width := 1, acc := .rw }
def rdStatusSealed : Row := { off := 0xE00004, lo := 0, width := 1 }
def rdStatusReady : Row := { off := 0xE00004, lo := 1, width := 1 }
def rdStatusVideoOn : Row := { off := 0xE00004, lo := 2, width := 1 }
def rdStatusCfgErr : Row := { off := 0xE00004, lo := 8, width := 1, acc := .w1c }
def rdStatusUnderrun : Row := { off := 0xE00004, lo := 9, width := 1, acc := .w1c }
def rdStatusParity : Row := { off := 0xE00004, lo := 10, width := 1, acc := .w1c }
def rdFrameOpen : Row := { off := 0xE00008, lo := 0, width := 16 }
def rdFrameShown : Row := { off := 0xE00008, lo := 16, width := 16 }
def rdBinUsed : Row := { off := 0xE0000C, lo := 0, width := 16 }
def rdBinPeak : Row := { off := 0xE0000C, lo := 16, width := 16 }
def rdLayerEn : Row := { off := 0xE00010, lo := 0, width := 5, acc := .rw, rst := 31 }
def rdLayerAlphaG0 : Row := { off := 0xE00014, lo := 0, width := 8, acc := .rw, rst := 255 }
def rdLayerAlphaG1 : Row := { off := 0xE00014, lo := 8, width := 8, acc := .rw, rst := 255 }
def rdLayerAlphaG2 : Row := { off := 0xE00014, lo := 16, width := 8, acc := .rw, rst := 255 }
def rdLayerAlphaG3 : Row := { off := 0xE00014, lo := 24, width := 8, acc := .rw, rst := 255 }
def rdCursorX : Row := { off := 0xE00018, lo := 0, width := 12, acc := .rw }
def rdCursorY : Row := { off := 0xE00018, lo := 16, width := 12, acc := .rw }
def rdCursorEn : Row := { off := 0xE00018, lo := 31, width := 1, acc := .rw }
def rdDrawqQid : Row := { off := 0xE00020, lo := 0, width := 9, hang := .easel, n1 := 4, s1 := 0x4 }
def rdDrawqEn : Row := { off := 0xE00020, lo := 31, width := 1, hang := .easel, n1 := 4, s1 := 0x4 }
def rdProgPart : Row := { off := 0xE00030, lo := 0, width := 4, hang := .easel }
def rdProgOff : Row := { off := 0xE00030, lo := 4, width := 28, hang := .easel }
def rdTbufPart : Row := { off := 0xE00034, lo := 0, width := 4, hang := .easel }
def rdTbufOff : Row := { off := 0xE00034, lo := 4, width := 28, hang := .easel }
def rdScreenWM1 : Row := { off := 0xE00038, lo := 0, width := 11, acc := .rw }
def rdScreenHM1 : Row := { off := 0xE00038, lo := 16, width := 11, acc := .rw }
def rdFbAddr : Row := { off := 0xE00040, lo := 0, width := 32, acc := .rw, n1 := 3, s1 := 0x4 }
def rdDsiCfgLanes : Row := { off := 0xE00050, lo := 0, width := 3, acc := .rw, rst := 4 }
def rdDsiCfgMbps : Row := { off := 0xE00050, lo := 4, width := 12, acc := .rw, rst := 800 }
def rdDsiVVsa : Row := { off := 0xE00054, lo := 0, width := 8, acc := .rw, rst := 4 }
def rdDsiVVbp : Row := { off := 0xE00054, lo := 8, width := 8, acc := .rw, rst := 16 }
def rdDsiVVfp : Row := { off := 0xE00054, lo := 16, width := 8, acc := .rw, rst := 13 }
def rdDsiLineLineNs : Row := { off := 0xE00058, lo := 0, width := 20, acc := .rw, rst := 20008 }
def rdDsiHHsaNs : Row := { off := 0xE0005C, lo := 0, width := 16, acc := .rw, rst := 200 }
def rdDsiHHbpNs : Row := { off := 0xE0005C, lo := 16, width := 16, acc := .rw, rst := 400 }
def rdDcsHdrDt : Row := { off := 0xE00060, lo := 0, width := 6, acc := .rw }
def rdDcsHdrWc : Row := { off := 0xE00060, lo := 8, width := 16, acc := .rw }
def rdDcsHdrGo : Row := { off := 0xE00060, lo := 30, width := 1, acc := .w1s, own := true }
def rdDcsHdrBusy : Row := { off := 0xE00060, lo := 31, width := 1 }
def rdDcsDataBytes : Row := { off := 0xE00064, lo := 0, width := 32, acc := .wo, own := true }
def rdCntCount : Row := { off := 0xE00080, lo := 0, width := 32, n1 := 13, s1 := 0x4 }
def rdTintRgb : Row := { off := 0xE00400, lo := 0, width := 24, acc := .rw, n1 := 128, s1 := 0x4, rstStep := 0x20202 }

/-! SL registers (R423). -/
def slRingNM1 : Row := { off := 0xF00000, lo := 0, width := 2, hang := .easel }
def slRingTopo : Row := { off := 0xF00000, lo := 2, width := 2, hang := .easel }
def slRingRingId : Row := { off := 0xF00000, lo := 16, width := 16, hang := .easel }
def slReachReach : Row := { off := 0xF00004, lo := 0, width := 4 }
def slDelivDelivTmo : Row := { off := 0xF00008, lo := 0, width := 24, hang := .easel }
def slTxQid : Row := { off := 0xF00100, lo := 0, width := 9, hang := .easel, n1 := 32, s1 := 0x4 }
def slTxDst : Row := { off := 0xF00100, lo := 9, width := 2, hang := .easel, n1 := 32, s1 := 0x4 }
def slTxClass : Row := { off := 0xF00100, lo := 11, width := 1, hang := .easel, n1 := 32, s1 := 0x4 }
def slTxDstQid : Row := { off := 0xF00100, lo := 16, width := 9, hang := .easel, n1 := 32, s1 := 0x4 }
def slTxEn : Row := { off := 0xF00100, lo := 31, width := 1, hang := .easel, n1 := 32, s1 := 0x4 }
def slRxqQid : Row := { off := 0xF00180, lo := 0, width := 9, hang := .easel, n1 := 32, s1 := 0x4 }
def slRxqGrant : Row := { off := 0xF00180, lo := 12, width := 13, hang := .easel, n1 := 32, s1 := 0x4 }
def slRxqEn : Row := { off := 0xF00180, lo := 31, width := 1, hang := .easel, n1 := 32, s1 := 0x4 }
def slCredSelBinding : Row := { off := 0xF00200, lo := 0, width := 5, acc := .rw }
def slCredGeneral : Row := { off := 0xF00204, lo := 0, width := 16 }
def slCredEsc : Row := { off := 0xF00204, lo := 16, width := 4 }
def slSCtrlEn : Row := { off := 0xF01000, lo := 0, width := 1, acc := .rw, own := true, n1 := 2, s1 := 0x1000, unit := .link }
def slSCtrlRetrain : Row := { off := 0xF01000, lo := 1, width := 1, acc := .w1s, own := true, n1 := 2, s1 := 0x1000, unit := .link }
def slSCfgAckNs : Row := { off := 0xF01004, lo := 0, width := 16, acc := .rw, rst := 2000, n1 := 2, s1 := 0x1000, unit := .link }
def slSCfgWindow : Row := { off := 0xF01004, lo := 16, width := 8, acc := .rw, rst := 32, n1 := 2, s1 := 0x1000, unit := .link }
def slSStatusState : Row := { off := 0xF01008, lo := 0, width := 2, n1 := 2, s1 := 0x1000, unit := .link }
def slSStatusPeerChip : Row := { off := 0xF01008, lo := 2, width := 2, n1 := 2, s1 := 0x1000, unit := .link }
def slSStatusPeerSide : Row := { off := 0xF01008, lo := 4, width := 1, n1 := 2, s1 := 0x1000, unit := .link }
def slSStatusStopIn : Row := { off := 0xF01008, lo := 5, width := 1, n1 := 2, s1 := 0x1000, unit := .link }
def slSStatusRttNs : Row := { off := 0xF01008, lo := 16, width := 16, n1 := 2, s1 := 0x1000, unit := .link }
def slSCntCount : Row := { off := 0xF01040, lo := 0, width := 32, n1 := 2, s1 := 0x1000, n2 := 13, s2 := 0x4, unit := .link }

/-! LG registers (R477). -/
def lgCtrlIrqDepth : Row := { off := 0xF80000, lo := 0, width := 21, acc := .rw, rst := 512 }
def lgStatusCause : Row := { off := 0xF80004, lo := 0, width := 2 }
def lgStatusQuiescing : Row := { off := 0xF80004, lo := 2, width := 1 }
def lgStatusLive : Row := { off := 0xF80004, lo := 4, width := 4 }
def lgStatusTopSev : Row := { off := 0xF80004, lo := 8, width := 2 }
def lgStatusRate : Row := { off := 0xF80004, lo := 16, width := 7 }
def lgWdLimitMs : Row := { off := 0xF80008, lo := 0, width := 8, acc := .rw, rst := 50 }
def lgWdEn : Row := { off := 0xF80008, lo := 8, width := 1, acc := .rw, rst := 1 }
def lgWdStream : Row := { off := 0xF80008, lo := 16, width := 8 }
def lgWdOldestMs : Row := { off := 0xF80008, lo := 24, width := 8 }
def lgFaultAckAck : Row := { off := 0xF8000C, lo := 0, width := 8, acc := .w1s, hang := .cleared, own := true }
def lgHistPosNext : Row := { off := 0xF80010, lo := 0, width := 6 }
def lgHistPosTotal : Row := { off := 0xF80010, lo := 8, width := 24 }
def lgLogOkStreams : Row := { off := 0xF80020, lo := 0, width := 32, acc := .rw, n1 := 8, s1 := 0x4 }
def lgWdMaskStreams : Row := { off := 0xF80040, lo := 0, width := 32, acc := .rw, n1 := 8, s1 := 0x4, rstTab := [0xFFFFFCFE, 0xFFFFFFFF, 0xFFFFFFFF, 0xFFFF0000, 0xFFFFFFFF, 0xFFFFFFFF, 0xFFFFFFFF, 0xFFFFFFFF] }
def lgFaultWord : Row := { off := 0xF80100, lo := 0, width := 32, n1 := 8, s1 := 0x10, n2 := 4, s2 := 0x4 }
def lgCntCount : Row := { off := 0xF80080, lo := 0, width := 32, n1 := 10, s1 := 0x4 }
def lgReasonCount : Row := { off := 0xF80200, lo := 0, width := 32, n1 := 21, s1 := 0x4 }
def lgHistWord : Row := { off := 0xF81000, lo := 0, width := 32, n1 := 64, s1 := 0x10, n2 := 4, s2 := 0x4 }

/-! HI registers (R454). -/
def hiCtrlRingsEn : Row := { off := 0xFC0000, lo := 0, width := 1, acc := .rw, own := true }
def hiStatusLinkUp : Row := { off := 0xFC0004, lo := 0, width := 1 }
def hiStatusGen : Row := { off := 0xFC0004, lo := 1, width := 2 }
def hiStatusWidth : Row := { off := 0xFC0004, lo := 3, width := 2 }
def hiStatusDmaErr : Row := { off := 0xFC0004, lo := 8, width := 1, acc := .w1c }
def hiCmdBaseAddr : Row := { off := 0xFC0010, lo := 0, width := 32, acc := .rw, n1 := 2, s1 := 0x4 }
def hiCmdSizeLog2 : Row := { off := 0xFC0018, lo := 0, width := 4, acc := .rw, rst := 4 }
def hiCmdPiIndex : Row := { off := 0xFC001C, lo := 0, width := 12, acc := .rw, own := true }
def hiCmdCiIndex : Row := { off := 0xFC0020, lo := 0, width := 12 }
def hiRspBaseAddr : Row := { off := 0xFC0028, lo := 0, width := 32, acc := .rw, n1 := 2, s1 := 0x4 }
def hiRspSizeLog2 : Row := { off := 0xFC0030, lo := 0, width := 4, acc := .rw, rst := 4 }
def hiRspRpIndex : Row := { off := 0xFC0034, lo := 0, width := 12, acc := .rw }
def hiRspWpIndex : Row := { off := 0xFC0038, lo := 0, width := 12 }
def hiSumBaseAddr : Row := { off := 0xFC0040, lo := 0, width := 32, acc := .rw, n1 := 2, s1 := 0x4 }
def hiSumSizeLog2 : Row := { off := 0xFC0048, lo := 0, width := 4, acc := .rw, rst := 2 }
def hiSumRpIndex : Row := { off := 0xFC004C, lo := 0, width := 8, acc := .rw }
def hiSumWpIndex : Row := { off := 0xFC0050, lo := 0, width := 8 }
def hiSeqHigh : Row := { off := 0xFC0058, lo := 0, width := 24 }
def hiSeqValid : Row := { off := 0xFC0058, lo := 31, width := 1 }
def hiSeqSpiHigh : Row := { off := 0xFC005C, lo := 0, width := 24 }
def hiSeqSpiValid : Row := { off := 0xFC005C, lo := 31, width := 1 }
def hiBar2Base : Row := { off := 0xFC0060, lo := 0, width := 6, acc := .rw }
def hiIrqStatusVec : Row := { off := 0xFC0068, lo := 0, width := 8, acc := .w1c }
def hiIrqMaskVec : Row := { off := 0xFC006C, lo := 0, width := 8, acc := .rw, rst := 255 }
def hiI2cCfgFast : Row := { off := 0xFC0070, lo := 0, width := 1, acc := .rw, n1 := 2, s1 := 0x4 }
def hiAlarmEn : Row := { off := 0xFC0078, lo := 0, width := 1, acc := .rw, rst := 1 }
def hiAlarmBaud : Row := { off := 0xFC0078, lo := 1, width := 1, acc := .rw }
def hiAlarmPeriod : Row := { off := 0xFC0078, lo := 4, width := 4, acc := .rw, rst := 1 }
def hiAlarmNn : Row := { off := 0xFC0078, lo := 8, width := 8 }
def hiTraceEn : Row := { off := 0xFC007C, lo := 0, width := 1, acc := .rw }
def hiTraceLedger : Row := { off := 0xFC007C, lo := 1, width := 1, acc := .rw }
def hiTraceRetire : Row := { off := 0xFC007C, lo := 2, width := 1, acc := .rw }
def hiTraceSeamsOnly : Row := { off := 0xFC007C, lo := 3, width := 1, acc := .rw }
def hiCntCount : Row := { off := 0xFC0080, lo := 0, width := 32, n1 := 13, s1 := 0x4 }
def hiRdCfgEn : Row := { off := 0xFC0100, lo := 0, width := 1, acc := .rw, n1 := 16, s1 := 0x20 }
def hiRdCfgLog2 : Row := { off := 0xFC0100, lo := 1, width := 5, acc := .rw, rst := 6, n1 := 16, s1 := 0x20 }
def hiRdCfgQid : Row := { off := 0xFC0100, lo := 16, width := 9, acc := .rw, n1 := 16, s1 := 0x20 }
def hiRdBaseAddr : Row := { off := 0xFC0104, lo := 0, width := 32, acc := .rw, n1 := 16, s1 := 0x20, n2 := 2, s2 := 0x4 }
def hiRdRpIndex : Row := { off := 0xFC010C, lo := 0, width := 16, acc := .rw, n1 := 16, s1 := 0x20 }
def hiRdWpIndex : Row := { off := 0xFC0110, lo := 0, width := 16, n1 := 16, s1 := 0x20 }
/-- An MSI-X table entry: address and data words (R424). PRESUMED (notes/assumptions/32.md). -/
def hiMsixTableWord : Row := { off := 0xFCF000, lo := 0, width := 32, acc := .rw, n1 := 8, s1 := 0x10, n2 := 3, s2 := 0x4 }
/-- Vector control of an MSI-X table entry (R424). PRESUMED (notes/assumptions/32.md). -/
def hiMsixCtrlWord : Row := { off := 0xFCF00C, lo := 0, width := 32, acc := .rw, rst := 1, n1 := 8, s1 := 0x10 }
/-- The MSI-X pending bits (R424). PRESUMED (notes/assumptions/32.md). -/
def hiMsixPbaPending : Row := { off := 0xFCF800, lo := 0, width := 8 }

/-- The field rows of the KP block (R117). -/
def kpRows : List Row :=
  [kpIdStepping, kpIdMember, kpIdRom, kpFwVersion, kpFwBank, kpFwRomOnly, kpBankVersion, kpBankUsable, kpBankSigned, kpBankTested, kpBankExcluded, kpBankFails, kpBootStep, kpBootSource, kpBootGo, kpBootGoIgnored, kpBootStrapBad, kpCtrlAllowUntested, kpCtrlPreferB, kpCtrlBankClr, kpAgreeResult, kpAgreeMismatch, kpAgreeUntestedLatch, kpVerActiveCanvas] ++
  [kpVerActivePlan, kpVerStagedCanvas, kpVerStagedPlan, kpManifestSerial, kpManifestInfoEntries, kpManifestInfoSource, kpManifestInfoConflict, kpFuseSbEn, kpFuseUntestedLock, kpFuseKeyValid, kpFuseKeyRevoked, kpSigKind, kpSigResult, kpSigSlot, kpSigUnsignedSeen]

/-- The field rows of the PC block (R60). -/
def pcRows : List Row :=
  [pcPacePace, pcPaceMon, pcPacePeakPeak, pcCtrlGuardEn, pcCtrlPeakClr, pcGuardThetaHi, pcGuardThetaLo, pcGuardBackoff, pcLevelLevel, pcLevelGuardLvl, pcLevelHostMin, pcLevelMiss, pcTripsCount, pcStatusUnguaranteed, pcStatusMonFail, pcStatusCertExceed, pcStatusVsense, pcCertPCert, pcCertLevels, pcDeadlineDUs, pcBstepBstep, pcPredPredUs, pcMonPace, pcMonState]

/-- The field rows of the PW block (R90). -/
def pwRows : List Row :=
  [pwDomStateOn, pwDomFailedFailed, pwDomPresentPresent, pwDomReqAon, pwDomReqOnReq, pwDomReqQuadReq, pwDomErrDomain, pwDomErrCause, pwDomErrErr, pwRailOk, pwRailBrown, pwTempTj, pwTempHot, pwTempWarn, pwPowerMw, pwPowerOver, pwPowerPeakMw, pwPowerPeakClr, pwResetCausePor, pwResetCausePin, pwResetCauseBrownout, pwResetCauseHost, pwResetCauseKeeperWd, pwResetCauseThermal] ++
  [pwHbMode, pwHbCode, pwHbReady, pwHbFault, pwHbBootSel]

/-- The field rows of the EI block (R202). -/
def eiRows : List Row :=
  [eiPCfgEn, eiPCfgMode, eiPCfgLanes, eiPCfgVc, eiPCfgQid, eiPSizeWM1, eiPSizeHM1, eiPCtrlCommit, eiPCtrlCntClr, eiPCtrlHotClr, eiPFiltHot, eiPFiltRef, eiPFiltRoi, eiPFiltGlint, eiPFiltBin, eiPRefractUs, eiPRoiAX0, eiPRoiAY0, eiPRoiBX1, eiPRoiBY1, eiPRoiBEn, eiPGlintCell, eiPGlintWin, eiPGlintThresh] ++
  [eiPGlint2Bal, eiPGlint2Decim, eiPGlint2Hold, eiPTimeRegressTol, eiPTimeFutTol, eiPHotIdxIdx, eiPHotDataX, eiPHotDataY, eiPHotDataValid, eiPStatusBuf, eiPStatusXoff, eiPStatusLink, eiPStatusDeskewErr, eiPStatusCfgErr, eiPStatusCommitPend, eiPStatusGlintCells, eiPCntCount, eiTCfgEn, eiTCfgLanes, eiTCfgVc, eiTCfgQid, eiTSizeW, eiTSizeH, eiTCntCount] ++
  [eiXoffState, eiXoffBufEn, eiAerHoldNs, eiAerPktEv, eiAerPktUs]

/-- The field rows of the TM block (R225). -/
def tmRows : List Row :=
  [tmDevtimeLoNs, tmDevtimeHiNs, tmCtrlRefEn, tmCtrlPpsEn, tmCtrlSyncEn, tmCtrlSlewPpm, tmCtrlRamp, tmCtrlOfsTol, tmStatusSource, tmStatusSwitch, tmStatusTarget, tmStatusRefQ, tmStatusPpsQ, tmStatusHoldAged, tmStatusXtalFail, tmStatusAligned, tmFreqCorr, tmPhaseErr, tmPpsCapLoNs, tmPpsCapHiNs, tmSwitchesCommits, tmSwitchesCancels, tmEpochEpoch, tmPinDlyNs] ++
  [tmThLatUs, tmCamCfgMode, tmCamCfgBus, tmCamCfgAddr, tmCamCfgReg, tmCamOfsLoOffset, tmCamOfsHiOffset, tmCamDriftPpb, tmCamStatJumps, tmCamStatMisses, tmCamStatLost]

/-- The field rows of the QM block (R253). -/
def qmRows : List Row :=
  [qmPoolFree, qmPoolLowMin, qmPoolLowClr, qmStatusRebuild, qmStatusBadfree, qmStatusSever, qmStatusUnnamed, qmStatusWrongEp, qmLostCount, qmScrubPeriod, qmScrubPos, qmBadfreeCell, qmBadfreeEp, qmBadfreeDouble, qmHoldLimit, qmHoldHeld, qmQCfgQuota, qmQCfgClass, qmQCfgXoff, qmQCfgPresent, qmQCfgRetired, qmQHighHigh, qmQLowLow, qmQEpProd] ++
  [qmQEpCons, qmQDepthDepth, qmQDepthHighState, qmQDepthMarkerIn, qmQDepthMarkerOpen, qmQDepthDropPend, qmQDepthSevering, qmQGapCount, qmQDropsCount, qmQEvtPoison, qmQEvtSevers, qmQEvtDropRem]

/-- The field rows of the CV block (R148). -/
def cvRows : List Row :=
  [cvStatusStaged, cvStatusEpoch, cvStatusHangPend, cvStatusDraining, cvStatusLoadBusy, cvStatusInitHeld, cvStatusActive, cvStatusPlanStaged, cvStatusHangNone, cvCmdLoad, cvCmdHang, cvCmdUnstage, cvImageAddrAddr, cvImageLenLen, cvPlanAddrAddr, cvPlanLenLen, cvInitAddrAddr, cvActiveIdId, cvStagedIdId, cvEpochDrainCount, cvHangsCount, cvLastDrainUs, cvLastDrainAborts, cvRejectCheck] ++
  [cvRejectIndex, cvRejectValid, cvInitBlockedCount, cvPeekAddrAddr, cvPeekDataData, cvRoleARole, cvRoleERole, cvHangCostUs]

/-- The field rows of the PP block (R175). -/
def ppRows : List Row :=
  [ppStatusRun, ppStatusHalted, ppStatusClamp, ppStatusPhase, ppStatusCause, ppBundleIndex, ppHaltAtIndex, ppStepCount, ppT0LoT0, ppT0HiT0, ppFencePending, ppStepGraceGrace, ppHostLateCount, ppOverrunsCount, ppOverrunsHiLast, ppWindowsLoOpen, ppWindowsHiOpen, ppImageBlockedCount, ppPlanIdAbi, ppPlanIdCvSlot]

/-- The field rows of the SF block (R283). -/
def sfRows : List Row :=
  [sfPopCfgEn, sfPopCfgMode, sfPopCfgFmt, sfPopCfgFanout, sfPopCfgExport, sfPopCfgOutQid, sfPopCfgPort, sfPopCfgExportTile, sfPopPar0Theta0, sfPopPar0AInc, sfPopPar1VReset, sfPopPar1TRef, sfPopPar2ColV, sfPopPar2ColA, sfPopPar2WShift, sfPopPar2VMin, sfPopGridGw, sfPopGridCs, sfPopGridNplaneM1, sfPopOriginX0, sfPopOriginY0, sfPopStepStepUs, sfPopStepSettleUs, sfPopStretchMax] ++
  [sfPopStretchLast, sfPopWinWinUs, sfPopWinBinModM1, sfPopSnapSeqSeq, sfPopSnapTotalCount, sfPopItemId, sfPopStepsClosed, sfPopStepsStretched, sfPopLateCount, sfPopBinCount, sfTSegPop, sfTSegEn, sfTSegNeuLo, sfTSegHiLocal, sfTSegHiCountM1, sfTPartsState, sfTPartsSyn, sfTPartsDecay, sfTStatAwake, sfTCntCount, sfTMapKeyKey, sfTMapMaskMask, sfTMapModeMode, sfTMapModeK] ++
  [sfTMapModeIshift, sfTMapModeIbits, sfTMapModeRowLenM1, sfTMapSynSynBase, sfTMapNeuNeuBase, sfTMapStepNeuStep]

/-- The field rows of the DE block (R311). -/
def deRows : List Row :=
  [deStatusParity, deStatusClamp, deStatusBounds, deMemOutKib, deMemInKib, deMemExtKib, deCmpFmtCount, deTStatBusy, deTStatKind, deTStatWindow, deTStatYielded, deTEpochEpoch, deTEpochValid, deTCntCount]

/-- The field rows of the XR block (R335). -/
def xrRows : List Row :=
  [xrCtrlMode, xrCtrlLoopEn, xrCtrlTopkG0, xrCtrlTopkG1, xrCtrlTopkG2, xrCtrlTopkG3, xrCtrlChip, xrCapCf, xrCapCapMin, xrBiasctlStepB, xrBiasctlBmax, xrBiasctlDead, xrSkipStableN, xrSkipSkipMax, xrSkipSkipConf, xrRemoteTmoUs, xrStatusUnreach, xrStatusClamp, xrStatusPeriodPos, xrRetQid, xrCntCount, xrExpCfgEn, xrExpCfgHome, xrExpCfgQid] ++
  [xrExpCfgCapMax, xrExpBiasBias, xrExpLoadRouted, xrExpLoadKept, xrExpDropsCount, xrRqQid]

/-- The field rows of the FU block (R368). -/
def fuRows : List Row :=
  [fuCtrlEn, fuCtrlCmdQid, fuCtrlDoneQid, fuAlignLagUs, fuAlignGUs, fuWinWinUs, fuTrackM, fuTrackN, fuTrackCoastMax, fuTrackHazCoast, fuTrackBirthScore, fuGateGateDm, fuGateAlpha, fuGateBeta, fuGridCellCm, fuGridOrgX, fuGridOrgY, fuLatLatReport, fuLatLatBirth, fuLatLatGateDm, fuMotMinSpikes, fuMotResMax, fuHzHzMin, fuHzHzSrc] ++
  [fuLadderUpHold, fuLadderMotHold, fuLadderStaleMs, fuTestTestWin, fuTestQuarN, fuTestRelN, fuTestAutoRel, fuTestDisMax, fuTest2RegMax, fuTest2StuckFrac, fuTest2JumpMax, fuStatusLevel, fuStatusMotionValid, fuStatusHorizonValid, fuStatusAttHeld, fuStatusCmdErr, fuStatusParity, fuSrcstateHealthy, fuSrcstateSuspect, fuSrcstateQuar, fuSrcstateQuarClr, fuMotion0WRoll, fuMotion0WPitch, fuMotion1WYaw] ++
  [fuMotion1Roll, fuMotion2Pitch, fuMotion2Bands, fuTracksConfirmed, fuTracksTentative, fuAssocOffOff, fuMidOutOffOff, fuCntCount, fuInCfgEn, fuInCfgKind, fuInCfgAlign, fuInCfgSrc, fuInCfgQid, fuInFrontUs, fuOutCfgEn, fuOutCfgStamped, fuOutCfgContent, fuOutCfgQid, fuSrcCal0F, fuSrcCal0HeightCm, fuSrcCal1Cx, fuSrcCal1Cy, fuSrcCal2Yaw, fuSrcCal2MountPitch] ++
  [fuSrcCal3Speed, fuSrcRateRateLo, fuSrcRateRateHi, fuEarlyHH, fuEarlyCfgEn, fuEarlyCfgTherm, fuEarlyCfgBs, fuEarlyCfgLo, fuEarlyCfg2Hi, fuEarlyCfg2WM1, fuEarlyCfg3HM1, fuEarlyOffOff, fuMidLocEn, fuMidLocGroup, fuMidLocPos, fuMidLocPart, fuMidOffOff, fuMidShapeWM1, fuMidShapeHM1, fuMidShapeCM1, fuMidShapeFshift]

/-- The field rows of the RD block (R399). -/
def rdRows : List Row :=
  [rdCtrlVideo, rdCtrlEotp, rdStatusSealed, rdStatusReady, rdStatusVideoOn, rdStatusCfgErr, rdStatusUnderrun, rdStatusParity, rdFrameOpen, rdFrameShown, rdBinUsed, rdBinPeak, rdLayerEn, rdLayerAlphaG0, rdLayerAlphaG1, rdLayerAlphaG2, rdLayerAlphaG3, rdCursorX, rdCursorY, rdCursorEn, rdDrawqQid, rdDrawqEn, rdProgPart, rdProgOff] ++
  [rdTbufPart, rdTbufOff, rdScreenWM1, rdScreenHM1, rdFbAddr, rdDsiCfgLanes, rdDsiCfgMbps, rdDsiVVsa, rdDsiVVbp, rdDsiVVfp, rdDsiLineLineNs, rdDsiHHsaNs, rdDsiHHbpNs, rdDcsHdrDt, rdDcsHdrWc, rdDcsHdrGo, rdDcsHdrBusy, rdDcsDataBytes, rdCntCount, rdTintRgb]

/-- The field rows of the SL block (R423). -/
def slRows : List Row :=
  [slRingNM1, slRingTopo, slRingRingId, slReachReach, slDelivDelivTmo, slTxQid, slTxDst, slTxClass, slTxDstQid, slTxEn, slRxqQid, slRxqGrant, slRxqEn, slCredSelBinding, slCredGeneral, slCredEsc, slSCtrlEn, slSCtrlRetrain, slSCfgAckNs, slSCfgWindow, slSStatusState, slSStatusPeerChip, slSStatusPeerSide, slSStatusStopIn] ++
  [slSStatusRttNs, slSCntCount]

/-- The field rows of the LG block (R477). -/
def lgRows : List Row :=
  [lgCtrlIrqDepth, lgStatusCause, lgStatusQuiescing, lgStatusLive, lgStatusTopSev, lgStatusRate, lgWdLimitMs, lgWdEn, lgWdStream, lgWdOldestMs, lgFaultAckAck, lgHistPosNext, lgHistPosTotal, lgLogOkStreams, lgWdMaskStreams, lgFaultWord, lgCntCount, lgReasonCount, lgHistWord]

/-- The field rows of the HI block (R454). -/
def hiRows : List Row :=
  [hiCtrlRingsEn, hiStatusLinkUp, hiStatusGen, hiStatusWidth, hiStatusDmaErr, hiCmdBaseAddr, hiCmdSizeLog2, hiCmdPiIndex, hiCmdCiIndex, hiRspBaseAddr, hiRspSizeLog2, hiRspRpIndex, hiRspWpIndex, hiSumBaseAddr, hiSumSizeLog2, hiSumRpIndex, hiSumWpIndex, hiSeqHigh, hiSeqValid, hiSeqSpiHigh, hiSeqSpiValid, hiBar2Base, hiIrqStatusVec, hiIrqMaskVec] ++
  [hiI2cCfgFast, hiAlarmEn, hiAlarmBaud, hiAlarmPeriod, hiAlarmNn, hiTraceEn, hiTraceLedger, hiTraceRetire, hiTraceSeamsOnly, hiCntCount, hiRdCfgEn, hiRdCfgLog2, hiRdCfgQid, hiRdBaseAddr, hiRdRpIndex, hiRdWpIndex, hiMsixTableWord, hiMsixCtrlWord, hiMsixPbaPending]

/-- Every field row of the register map (R478). -/
def all : List Row :=
  kpRows ++ pcRows ++ pwRows ++ eiRows ++ tmRows ++ qmRows ++ cvRows ++ ppRows ++ sfRows ++ deRows ++ xrRows ++ fuRows ++ rdRows ++ slRows ++ lgRows ++ hiRows

end R

end Sys2Proof.Machine
end

