-- ==== Sys2Proof/Machine/State.lean ====
section
/-! DEFINITION. The state of the block: the register file, and every queue, store, buffer, timer and mode
that the spec gives the device beside its registers; the reasons a step can stop; the state after reset. -/
namespace Sys2Proof.Machine

/-- Why the machine stops. DESIGN CHOICE (notes/assumptions/30.md). -/
inductive Fault where
  /-- Raised by SCREEN_TILE_DONE where the drawing buffer lies above the installed memory (R11, R376, R385): no rule says what
  such a write does. Safe. -/
  | absentExternal (addr : Nat)
  deriving DecidableEq, Repr

/-- Why a command has no meaning. -/
inductive Refusal where
  /-- Raised by an arm of exec that has no meaning yet. Safe: nothing can be proved of its effect. -/
  | notModelled (mnemonic : String)
  deriving DecidableEq, Repr

/-- The members of the family (R11). -/
inductive Member where
  | q4 | q16 | q32 | q64
  deriving DecidableEq, Repr

/-- An integrator key slot in the fuses (R99). -/
structure KeySlot where
  valid : Bool := false
  revoked : Bool := false
  digest : List Byte := []
  deriving DecidableEq, Repr

/-- What is fixed in one part: member, stepping, ROM version, fuses (R101, R99, R117). DESIGN CHOICE (notes/assumptions/2.md). -/
structure Part where
  member : Member := .q64
  stepping : Nat := 0x21
  rom : Nat := 1
  sbEn : Bool := false
  untestedLock : Bool := false
  slots : List KeySlot := [{}, {}, {}, {}]
  deriving DecidableEq, Repr

/-- One firmware bank of the Keeper store, its image and what its header says, with its record (R93, R105, R115).
DESIGN CHOICE (notes/assumptions/2.md). -/
structure Bank where
  image : List Byte := []
  headerOk : Bool := false
  signed : Bool := false
  sigOk : Bool := false
  version : Nat := 0
  stepLo : Nat := 0
  stepHi : Nat := 0
  members : Nat := 0
  cvLo : Nat := 0
  cvHi : Nat := 0
  abiLo : Nat := 0
  abiHi : Nat := 0
  fails : Nat := 0
  excluded : Bool := false
  deriving DecidableEq, Repr

/-- One entry of a manifest (R103). -/
structure ManifestEntry where
  stepping : Nat
  members : Nat
  fw : Nat
  cvLo : Nat
  cvHi : Nat
  abiLo : Nat
  abiHi : Nat
  deriving DecidableEq, Repr

/-- A manifest, as bytes of the manifest slot and as they read (R93, R103). DESIGN CHOICE (notes/assumptions/2.md). -/
structure Manifest where
  image : List Byte := []
  serial : Nat := 0
  entries : List ManifestEntry := []
  deriving DecidableEq, Repr

/-- The Keeper store (R93). DESIGN CHOICE (notes/assumptions/2.md). -/
structure Store where
  bankA : Bank := {}
  bankB : Bank := {}
  manifest : Option Manifest := none
  preferB : Bool := false
  deriving DecidableEq, Repr

/-- The level of an output ball: not driven, low or high (R61). -/
inductive Level where
  | z | low | high
  deriving DecidableEq, Repr

/-- Outputs and inputs at the balls that no register holds (R61, R63). DESIGN CHOICE (notes/assumptions/2.md). -/
structure Pins where
  resetN : Bool := false
  porReleased : Bool := false
  perstN : Bool := true
  heartbeat : Level := .z
  ready : Level := .z
  faultN : Level := .z
  camSync : Level := .z
  aerAck : Level := .z
  xoff : List Level := [.z, .z, .z, .z]
  dsi : Level := .z
  spanTx : Level := .z
  memResetN : Level := .low
  alarmTx : Level := .z
  spiSdo : Level := .z
  deriving DecidableEq, Repr

/-- What the device is doing as a whole (R94, R87, R471). KP_BOOT.STEP is the numbered view. -/
inductive Mode where
  | reset | waitGo | booting | run | gesso | tripped | stopped
  deriving DecidableEq, Repr

/-- Every timer that the rules name; its deadline is a DEVTIME in ns. -/
inductive Timer where
  | bootWait | brownHold | domain (d : Nat) | heartbeat | grace | drain | glintWin (p : Nat) | pktUs | aerHold
  | ppsLost | announce | slew | holdAge | reverse | camSync | camLatch (n : Nat) | coalesce (item : ItemId) | quiesce
  | sever (q : Nat) | rebuild | tileSleep (t : Nat) | gather | remote (item : ItemId) | frame | line | trainLimit (s : Nat)
  | trainRetry (s : Nat) | ack (s : Nat) | ackIdle (s : Nat) | deliv (item : ItemId) | alarm | alarmSent
  deriving DecidableEq, Repr

/-- A byte memory: listed cells in rising order of address, and the regions whose other bytes are
undefined, as (base, size, generation). An unlisted byte elsewhere reads 0. DESIGN CHOICE (notes/assumptions/3.md). -/
structure Mem where
  cells : List Host.Cell := []
  undef : List (Nat × Nat × Nat) := []
  deriving DecidableEq, Repr

/-- A TILE record (R120). -/
structure TileRec where
  role : Nat := 0
  parts : Nat := 0
  partFirst : Nat := 0
  routes : Nat := 0
  routeFirst : Nat := 0
  deriving DecidableEq, Repr

/-- A ROUTE record (R122). -/
structure RouteRec where
  key : Nat
  mask : Nat
  out : Nat
  vc : Nat
  dest : Nat
  deriving DecidableEq, Repr

/-- A QUEUE record (R124). -/
structure QueueRec where
  qid : Nat
  cls : Nat
  xoff : Nat
  quota : Nat
  high : Nat
  low : Nat
  prod : Nat
  cons : Nat
  deriving DecidableEq, Repr

/-- A MEM record (R126). -/
structure MemRec where
  base : Nat
  size : Nat
  kind : Nat
  keep : Bool
  partId : Nat
  deriving DecidableEq, Repr

/-- A DEP record (R128). -/
structure DepRec where
  tile : Nat
  port : Nat
  vc : Nat
  wait : Nat
  deriving DecidableEq, Repr

/-- A REG record (R131). -/
structure RegRec where
  off : Nat
  value : Nat
  mask : Nat
  deriving DecidableEq, Repr

/-- An INIT record with its data (R132). -/
structure InitRec where
  tile : Nat
  part : Nat
  off : Nat
  data : List Byte
  deriving DecidableEq, Repr

/-- A CANVAS as the loader reads it (R118 to R132). -/
structure Canvas where
  format : Nat := 0
  id : Nat := 0
  quadOn : Nat := 0
  tiles : List TileRec := []
  routes : List RouteRec := []
  queues : List QueueRec := []
  mems : List MemRec := []
  deps : List DepRec := []
  regs : List RegRec := []
  inits : List InitRec := []
  deriving DecidableEq, Repr

/-- A plan: where its image lies and the fields of its header (R151). -/
structure Plan where
  addr : Nat := 0
  len : Nat := 0
  abi : Nat := 0
  phases : Nat := 1
  fwLo : Nat := 0
  fwHi : Nat := 0
  cvLo : Nat := 0
  cvHi : Nat := 0
  canvasIds : List Nat := []
  entry : Nat := 0
  bundles : Nat := 0
  bundleOff : Nat := 0
  dataOff : Nat := 0
  dataLen : Nat := 0
  certOff : Nat := 0
  certLen : Nat := 0
  groupOff : Nat := 0
  dUs : Nat := 0
  pCert : Nat := 0
  levels : Nat := 1
  backoff : Nat := 16
  thetaHi : Nat := 900
  thetaLo : Nat := 800
  grace : Nat := 200000
  bstep : List Nat := []
  streams : Nat := 0
  scrOff : Nat := 0
  scrLen : Nat := 0
  deriving DecidableEq, Repr

/-- EASEL: the staged CANVAS, the staged plan and the staged register fields, by field key (R131). -/
structure Easel where
  canvas : Canvas
  plan : Option Plan
  regs : List (Nat × Nat)
  untested : Bool
  item : ItemId
  markers : List (Nat × Nat)
  quadsOn : List Nat
  deriving DecidableEq, Repr

/-- The CANVAS block beside its registers (R133, R136 to R146). `seamHang` holds the HANG cost of a HANG that
has taken effect at the seam in hand (R43); `initAt` is the address of the INIT buffer while it holds INIT data (R132). -/
structure CanvasState where
  active : Option Canvas := none
  draining : Option Canvas := none
  easel : Option Easel := none
  loading : Option Easel := none
  loadWaits : Option ItemId := none
  unstageWaits : Bool := false
  takers : List Nat := []
  drainFrom : Nat := 0
  drained : Bool := true
  seamHang : Option Nat := none
  inits : List InitRec := []
  initAt : Option Nat := none
  quadOn : Nat := 0
  deriving DecidableEq, Repr

/-- A GO argument block (R433). -/
structure GoArgs where
  step : Nat := 0
  hang : Bool := false
  minValid : Bool := false
  hostMin : Nat := 0
  topk1 : Bool := false
  cfValid : Bool := false
  cf : Nat := 0
  expDisable : Nat := 0
  force : List Nat := []
  deriving DecidableEq, Repr

/-- A slot operation in progress (R157 to R160): the serial number of its bundle's issue, its 152-bit word, its item,
its step, the addresses of the group table and of the data segment that it resolves through (R151, R152, R162), the
values it saw at issue (COUNT_REG, the two summary registers and the expert overrides, R167, R170), its own number, by which the
packets of a move name it (R300), and how far it is. -/
structure SlotOp where
  id : Nat := 0
  bundle : Nat
  cls : Nat
  word : Nat
  item : ItemId
  step : Nat
  groups : Nat
  data : Nat
  dataLen : Nat
  count : Nat := 0
  sreg0 : Cell64 := 0
  sreg1 : Cell64 := 0
  overrides : GoArgs := {}
  begun : Bool := false
  done : Bool := false
  moved : Nat := 0
  blocks : List (Nat × Nat) := []
  deriving DecidableEq, Repr

/-- How the host step of a step ended (R433). -/
inductive HostEnd where
  | go | defaults
  deriving DecidableEq, Repr

/-- A bundle that has issued and not completed (R53, R160, R173): issue number, index, DEVTIME in ns at issue, bound in units of
10 ns, the largest P_guard since its issue, and whether it has been counted as late. -/
structure Issued where
  serial : Nat
  index : Nat
  at_ : Nat
  bound : Nat
  pace : Nat
  late : Bool := false
  deriving DecidableEq, Repr

/-- The plan processor beside its registers (R149): `scalar` is the issued scalar operation that has not completed, as
(issue number, bundle index, operation); `serial` and `opCount` number the issues and the slot operations. The plan stays known
while PD05 is off, and starts again when it comes on (R149). -/
structure PlanProc where
  plan : Option Plan := none
  sregs : List Cell64 := List.replicate 32 0
  scalar : Option (Nat × Nat × Nat) := none
  ops : List SlotOp := []
  loops : List (Nat × Nat) := []
  issued : List Issued := []
  serial : Nat := 0
  opCount : Nat := 0
  slotStart : Nat := 0
  slotBegun : Bool := false
  firstStep : Bool := true
  startSeam : Bool := false
  posted : Option ItemId := none
  hostWait : Option Nat := none
  hostEnds : List (Nat × HostEnd) := []
  heldGo : Option (GoArgs × ItemId) := none
  overrides : GoArgs := {}
  deriving DecidableEq, Repr

/-- A PALETTE cell that is not free (R226). Its link is its place in the list; `lpOk` and `opOk` say that the stored LP and OP
agree with its link and owner fields; `item` is the item that the push named (R233). -/
structure Cell where
  idx : Nat
  data : Cell64
  dp : Bool
  item : ItemId := 0
  eop : Bool := false
  epm : Bool := false
  marker : Bool := false
  lpOk : Bool := true
  opOk : Bool := true
  deriving DecidableEq, Repr

/-- A queue beside its descriptor registers (R232 to R252). `eopOut` holds, for a keyed queue, the items whose EOP cell is on
its way to its destinations, and whether they lost cells (R266). `markerBad` says that the word left in the unlinked marker cell
fails DP (R249). -/
structure Queue where
  cells : List Cell := []
  markerIdx : Nat := 0
  highState : Bool := false
  markerOpen : Bool := false
  dropPend : Bool := false
  severing : Bool := false
  lastEop : Bool := true
  gapFirst : Nat := 0
  accFirst : Nat := 0
  accLast : Nat := 0
  stalled : Option (Nat × Bool) := none
  discard : Bool := false
  severSrc : Nat := 2
  severAt : Nat := 0
  eopOut : List (ItemId × Bool) := []
  markerBad : Bool := false
  deriving DecidableEq, Repr

/-- A cell taken and not freed (R226, R237), with its parts as Cell has them. -/
structure HeldCell where
  idx : Nat
  qid : Nat
  data : Cell64
  dp : Bool
  item : ItemId := 0
  eop : Bool := false
  epm : Bool := false
  lpOk : Bool := true
  deriving DecidableEq, Repr

/-- What a pop delivered last: endpoint, queue, word, tag of R228, EOP (R237). -/
structure Delivery where
  ep : Nat
  qid : Nat
  data : Cell64
  tag : Nat
  eop : Bool
  epm : Bool
  item : ItemId
  idx : Nat
  deriving DecidableEq, Repr

/-- The palette beside its registers (R226 to R252); `marks` holds the epoch of the last marker that a producer endpoint
wrote into a queue, by (endpoint, queue) (R217); `dropOut` the cells delivered to a drop-remainder command that waits in
DROP_PEND, until it writes them (R240, R246). -/
structure Palette where
  queues : List (Nat × Queue) := []
  held : List HeldCell := []
  lost : List Nat := []
  marks : List ((Nat × Nat) × Nat) := []
  dropped : List ItemId := []
  poisoned : List ItemId := []
  dropOut : List Delivery := []
  delivered : Option Delivery := none
  deriving DecidableEq, Repr

/-- What a packet of a tile-to-tile move carries (R300): the number of its slot operation, the address in the destination tile,
the bytes, and whether a read of them failed parity (R309). -/
structure MoveLoad where
  op : Nat
  addr : Nat
  data : List Byte
  bad : Bool := false
  deriving DecidableEq, Repr

/-- A mesh packet: head-flit fields, payload cells with tags or the bytes of a move, epoch, where it entered the mesh and where
it is (R121, R137). `qid` is the queue that a keyed cell comes from (R265); `since` the DEVTIME in ns at which it came to its
router (R129); `served` the populations that an input has reached (R261), and 64 once the export tile has pushed its cell (R271). -/
structure Packet where
  item : ItemId
  key : Nat
  vc : Nat
  epoch : Nat
  dest : Nat
  tile : Nat
  cells : List (Cell64 × Nat)
  qid : Nat := 512
  eop : Bool := false
  escPort : Option Nat := none
  origin : Nat := 0
  load : Option MoveLoad := none
  since : Nat := 0
  served : List Nat := []
  deriving DecidableEq, Repr

/-- The mesh: packets in flight, and packets waiting at local ports (R123, R138). -/
structure Mesh where
  packets : List Packet := []
  atLocal : List Packet := []
  deriving DecidableEq, Repr

/-- One event after unpacking: camera time (µs) or arrival DEVTIME, coordinates, polarity (R177). -/
structure Event where
  time : Nat
  x : Nat
  y : Nat
  pol : Bool
  deriving DecidableEq, Repr

/-- A received packet in a port buffer (R179), or a closed pseudo-packet (R191). -/
structure RxPacket where
  item : ItemId
  words : List Nat := []
  events : List Event := []
  arrival : Bool := false
  lost : Nat := 0
  deriving DecidableEq, Repr

/-- A glint cell (R187). -/
structure GlintCell where
  cx : Nat
  cy : Nat
  on : Nat := 0
  off : Nat := 0
  until_ : Nat := 0
  glinting : Bool := false
  seen : Nat := 0
  deriving DecidableEq, Repr

/-- One event port beside its registers (R179 to R202). `applied` holds the settings in force as (bit address, value) of
each pending field that is not at reset (R197); `hotPend` the pending hot list as (entry, HOT_DATA word), `hot` the one in force
as (x, y); `refract` holds (block x, block y, time in µs); times of `glint` are
DEVTIME in ns. -/
structure PortState where
  bufs : List RxPacket := []
  wraps : Nat := 0
  lastHi : Nat := 0
  latestRow : Nat := 0
  rowSeen : Bool := false
  applied : List (Nat × Nat) := []
  hotPend : List (Nat × Nat) := []
  hot : List (Nat × Nat) := []
  refract : List (Nat × Nat × Nat) := []
  glint : List GlintCell := []
  otherStatus : Nat := 0
  errTimes : List Nat := []
  deriving DecidableEq, Repr

/-- A thermal frame in progress (R194). -/
structure ThermalFrame where
  item : ItemId
  w : Nat
  h : Nat
  qid : Nat
  epoch : Nat
  nextLine : Nat := 0
  invalid : Nat := 0
  dropped : Bool := false
  deriving DecidableEq, Repr

/-- Ingress beside its registers (R176 to R202). -/
structure Ingress where
  ports : List PortState := [{}, {}, {}, {}]
  thermal : List (Option ThermalFrame) := [none, none]
  thermalErr : List (List Nat) := [[], []]
  aerPkt : Option RxPacket := none
  aerWait : Option (BitVec 28) := none
  aerLost : Nat := 0
  deriving DecidableEq, Repr

/-- A time-reference switch in progress (R209, R210): its direction, its target, the frequency part of CORR at ANNOUNCE, when
SLEW began, and the phase applied since ANNOUNCE in ns, up to `mark`. -/
structure Switch where
  down : Bool
  target : Nat
  corr0 : Int
  began : Nat := 0
  applied : Int := 0
  mark : Nat := 0
  deriving DecidableEq, Repr

/-- Camera offset learning (R214, R215). -/
structure CamState where
  fresh : Nat := 0
  lastAt : Nat := 0
  samples : List (Nat × Int) := []
  cands : List Int := []
  missRun : Nat := 0
  pulse : Nat := 0
  waiting : Bool := false
  deriving DecidableEq, Repr

/-- Time references beside their registers (R203 to R224). The frequency part of CORR runs from `fFrom` at DEVTIME `fAt` to
`fTo` at `fRate` ppb per second; the phase part is `phRate` ppb until DEVTIME `phUntil`. `ppsRates` holds, for each of the
last 16 intervals, the CORR in ppb at which it would have measured 1 s; `corrSum` is the sum of CORR over the `corrN`
crystal cycles since the last PPS edge. -/
structure TimeRef where
  fFrom : Int := 0
  fTo : Int := 0
  fAt : Nat := 0
  fRate : Nat := 0
  phRate : Int := 0
  phUntil : Nat := 0
  refWindows : Nat := 0
  refPpb : Int := 0
  refQualAt : Nat := 0
  ppsGood : Nat := 0
  ppsLast : Option Nat := none
  ppsRates : List Int := []
  corrSum : Int := 0
  corrN : Nat := 0
  ppsQualAt : Nat := 0
  learned : Option Int := none
  ppsEverQual : Bool := false
  noStep : Bool := false
  sw : Option Switch := none
  lastPulse : Option Nat := none
  cams : List CamState := [{}, {}, {}, {}]
  deriving DecidableEq, Repr

/-- One population beside its registers (R261 to R274): M_0 in µs; the run of stretched steps with its maximum and LATE; steps
that a tile hard-closed; the spikes of the open windows as (window, bin); the window that is open; whether the current item is
to carry a poison cell; a CUT in progress as the item to come and the tiles whose marker has not come; cells pushed for the
current item, and whether one was dropped. -/
structure PopState where
  m0 : Nat := 0
  run : Option (Nat × Bool) := none
  hard : List Nat := []
  spikes : List (Nat × Nat) := []
  win : Nat := 0
  poison : Bool := false
  cut : Option (ItemId × List Nat) := none
  sent : Nat := 0
  lossy : Bool := false
  deriving DecidableEq, Repr

/-- The spiking fabric beside registers and tile memory: populations, the open step of each
(population, tile), epochs per (tile, source queue), parity failure times per tile (R261, R267, R281). -/
structure Spiking where
  pops : List (Nat × PopState) := []
  steps : List ((Nat × Nat) × Nat) := []
  epochs : List ((Nat × Nat) × Nat) := []
  parity : List (Nat × Nat) := []
  deriving DecidableEq, Repr

/-- The routing state of one explicit track slot (R312). -/
structure XrEntry where
  cls : Nat := 0
  conf : Nat := 0
  stable : Nat := 0
  skip : Nat := 0
  hazard : Bool := false
  deriving DecidableEq, Repr

/-- A token (R317): the routing table it belongs to, its item, object, rank, expert, gate weight, biased score, whether it goes
to another chip, whether capacity kept it, its index in the dispatch, whether it has ended without a result, whether it left
its batch early, and its result. -/
structure Token where
  tbl : Nat
  item : ItemId
  obj : Nat
  rank : Nat
  expert : Nat
  weight : Nat
  score : Int
  remote : Bool
  kept : Bool := true
  index : Nat
  lost : Bool := false
  exited : Bool := false
  result : Option (List Byte) := none
  deriving DecidableEq, Repr

/-- One object of a dispatch (R315, R325): its routing table, and how it was handled. `hazard`: it becomes UNRESOLVED_HAZARD. -/
structure XrObject where
  tbl : Nat
  obj : Nat
  skipped : Bool := false
  hazard : Bool := false
  forced : Bool := false
  deriving DecidableEq, Repr

/-- Expert routing beside its registers (R312 to R334). A routing table is named by the tile address it was written at; `home`
holds the tokens of other chips whose cells have been popped here and whose results have not been pushed, in order (R323). -/
structure Experts where
  entries : List (Nat × XrEntry) := []
  objects : List XrObject := []
  tokens : List Token := []
  routed : List (Nat × Nat) := []
  keptCounts : List (Nat × Nat) := []
  biasWrites : List (Nat × Nat) := []
  biasDue : Bool := false
  biasSkips : List Nat := []
  home : List ItemId := []
  deriving DecidableEq, Repr

/-- A held thermal frame of a THERM channel (R336, R343): its item, time of validity in µs, size and pixel words. -/
structure HeldFrame where
  item : ItemId
  validUs : Nat
  width : Nat
  height : Nat
  pixels : List (BitVec 16)
  deriving DecidableEq, Repr

/-- The cells of an item that the engine has begun to take on a channel, in order (R336). -/
structure FuPartial where
  item : ItemId
  cells : List Cell64 := []
  poisoned : Bool := false
  lossy : Bool := false
  deriving DecidableEq, Repr

/-- A DET, VERDICT or LATENT item that the engine has taken and not finished (R337, R350, R353, R354). -/
structure FuItem where
  item : ItemId
  kind : Nat
  src : Nat
  cells : List Cell64
  deriving DecidableEq, Repr

/-- State of an explicit track (R348). -/
inductive TrackState where
  | tentative | confirmed | coasting | deleted
  deriving DecidableEq, Repr

/-- A live slot of the track table (R348): positions in cm, velocities in cm/s, `at_` the full µs that they stand for. `hist`
holds the hits of the last counted cycles, newest last; `hitNow` and `missNow` are of the cycle in hand, and `off` says that its
prediction lies off the grid; `oldest` and `validUs` belong to the last update. -/
structure Track where
  slot : Nat
  gen : Nat
  state : TrackState := .tentative
  x : Int
  y : Int
  vx : Int := 0
  vy : Int := 0
  at_ : Nat
  hist : List Bool := [true]
  counted : Nat := 1
  misses : Nat := 0
  cls : Nat := 0
  conf : Nat := 0
  hazard : Bool := false
  src : Nat := 0
  isNew : Bool := true
  hitNow : Bool := true
  missNow : Bool := false
  off : Bool := false
  oldest : Nat
  validUs : Nat
  cause : Nat := 0
  deriving DecidableEq, Repr

/-- A measurement of the cycle (R349): sensor pixel, place on the sea plane in cm where its ray meets it, the track it was
paired with or gave birth to, and the verdict attached to it while untracked, as CLASS, CONF and HAZARD (R353). -/
structure Measure where
  src : Nat
  cand : Nat
  score : Nat
  px : Nat
  py : Nat
  place : Option (Int × Int)
  paired : Option Nat := none
  born : Bool := false
  verdict : Option (Nat × Nat × Bool) := none
  deriving DecidableEq, Repr

/-- A latent cell taken for the cycle (R354). -/
structure Latent where
  slot : Nat
  gx : Nat
  gy : Nat
  exist : Nat
  vx : Int
  vy : Int
  linked : Option Nat
  deriving DecidableEq, Repr

/-- What EARLY wrote for a camera in the cycle in hand (R343, R356): the thermal source and the time of validity of its frame,
the map's width and bin shift, and which map pixels are valid. -/
structure EarlyMap where
  cam : Nat
  src : Nat
  validUs : Nat
  width : Nat
  bs : Nat
  valid : List Bool
  deriving DecidableEq, Repr

/-- Test counts of one source over the open window (R360), and its health (R358, R359): `pix` holds each thermal pixel's word
and whether it has kept it. -/
structure SourceTest where
  events : Nat := 0
  tagged : Nat := 0
  buckets : List (Nat × Nat) := []
  frames : Nat := 0
  frameBad : Bool := false
  lastValid : Option Nat := none
  pix : List (BitVec 16 × Bool) := []
  jumps0 : Nat := 0
  fails : Nat := 0
  passes : Nat := 0
  lastBits : Nat := 0
  lastAdvance : Option Nat := none
  goodCycles : Nat := 0
  outOfUse : Bool := false
  hitTracks : List Nat := []
  deriving DecidableEq, Repr

/-- A GATHER channel that was not satisfied when G_US expired (R341, R361): its frontier then, and the frame it held.
DESIGN CHOICE (notes/assumptions/50.md). -/
structure LateChan where
  chan : Nat
  front : Nat
  frame : Option HeldFrame
  deriving DecidableEq, Repr

/-- The expiry of G_US for the cycle of a step (R341, R361): the stragglers that it found. -/
structure GatherEnd where
  step : Nat
  late : List LateChan
  deriving DecidableEq, Repr

/-- The fusion engine beside its registers (R336 to R366). `fronts` holds (channel, frontier in full µs); `rows` holds (full
µs, column band, row bin) of the observed events of HZ_SRC; `flow` holds (full µs, source, plane, x, y); `cycleStep` is the step
whose cycle came last and `cycleSlot` the start of its slot in ns; `spoiled`: a command of the cycle was poisoned; `begun`: a cycle
has run. `waits` holds (step, DEVTIME in ns at which its first command was admitted) for the cycles to come, `expired` what G_US has
ended among them, `late` the stragglers of the cycle; `horizon` is (φ, θ) in 0.01° where it is valid. -/
structure Fusion where
  frames : List (Nat × HeldFrame) := []
  partials : List (Nat × FuPartial) := []
  flow : List (Nat × Nat × Nat × Nat × Nat) := []
  rows : List (Nat × Nat × Nat) := []
  fronts : List (Nat × Nat) := []
  chanEpoch : List (Nat × Nat) := []
  items : List FuItem := []
  cycleOpen : Bool := false
  cycleStep : Option Nat := none
  cycleSlot : Nat := 0
  begun : Bool := false
  waits : List (Nat × Nat) := []
  expired : List GatherEnd := []
  late : List LateChan := []
  tf : Nat := 0
  tfPrev : Option Nat := none
  stragglers : Nat := 0
  roll : Int := 0
  pitch : Int := 0
  omega : Int × Int × Int := (0, 0, 0)
  horizon : Option (Int × Int) := none
  motInvalid : Nat := 0
  upRun : Nat := 0
  winCycles : Nat := 0
  winStart : Nat := 0
  tracks : List Track := []
  gens : List (Nat × Nat) := []
  measures : List Measure := []
  latents : List Latent := []
  latBirths : List (Int × Int) := []
  early : List EarlyMap := []
  detPoison : List Nat := []
  spoiled : Bool := false
  srcs : List SourceTest := [{}, {}, {}, {}, {}, {}]
  parityTimes : List Nat := []
  deriving DecidableEq, Repr

/-- A vertex or glyph after binning: screen position in 1/16 px and texture coordinates (R372). -/
structure Vertex where
  x : Int
  y : Int
  u : Nat
  v : Nat
  deriving DecidableEq, Repr

/-- The shape of a primitive record (R371). -/
inductive Prim where
  | tri (a b c : Vertex)
  | line (a b : Vertex) (width : Nat)
  | glyph (x y : Int) (u0 v0 w h : Nat)
  deriving DecidableEq, Repr

/-- A draw call with what its entries need (R371, R375). -/
structure Draw where
  item : ItemId
  layer : Nat
  prog : Nat
  blend : Nat
  tex : Nat
  colour : Nat
  param : Nat
  prims : List Prim
  ended : Bool := false
  deriving DecidableEq, Repr

/-- A frame of the renderer (R369). `bins` holds (screen tile, draw, primitive) in binning order; `recs` and `binBlocks` hold
the blocks of bin memory in use, as (block, draw, primitive) and (block, screen tile, ordinal in its bin) (R375); `under` is the
UNDERPAINT image as (item, address, width, height, RATE); `todo` are the screen tiles that no render side has begun, `left` those
that have not finished. -/
structure RFrame where
  no : Nat := 0
  draws : List Draw := []
  bins : List (Nat × Nat × Nat) := []
  recs : List (Nat × Nat × Nat) := []
  binBlocks : List (Nat × Nat × Nat) := []
  under : Option (ItemId × Nat × Nat × Nat × Nat) := none
  buffer : Nat := 0
  todo : List Nat := []
  left : List Nat := []
  dropped : Bool := false
  parity : Bool := false
  progErr : Bool := false
  deriving DecidableEq, Repr

/-- A texture slot (R371). -/
structure TexSlot where
  fmt : Nat
  log2w : Nat
  log2h : Nat
  part : Nat
  off : Nat
  deriving DecidableEq, Repr

/-- A draw list in hand: its queue, the cells of the group in hand with their POISON marks, whether the rest of the list is
discarded, and the draw that the group in hand has created, by its place in the open frame (R370, R371, R395). -/
structure DrawList where
  queue : Nat
  cells : List (Cell64 × Bool) := []
  skip : Bool := false
  draw : Option Nat := none
  deriving DecidableEq, Repr

/-- The render side of a tile in an open window (R384): its contested decisions, the screen tile that it has in hand, and the
entries of that one still to be drawn. -/
structure RenderSide where
  tile : Nat
  group : Nat
  decisions : Nat := 0
  screen : Option Nat := none
  entries : Nat := 0
  deriving DecidableEq, Repr

/-- The pixel-program registers of the pixel in hand: C0 to C7, four FP16 lanes each, with its state (R378). -/
structure PixelUnit where
  regs : List (List (BitVec 16)) := List.replicate 8 [0, 0, 0, 0]
  steps : Nat := 0
  ended : Bool := false
  killed : Bool := false
  tex : Nat := 0
  tile : Nat := 0
  deriving DecidableEq, Repr

/-- The renderer and the display port beside their registers (R369 to R398). `want` holds, for each draw queue, the cells that had
landed when the CLOSE under way was issued and are still to be taken (R374); `fifo` is the payload of a DCS long write; `dsiOut`
holds the packets that the port sent last, as (data type, payload). -/
structure Renderer where
  openF : RFrame := {}
  sealed : Option RFrame := none
  readyF : Option RFrame := none
  front : Option Nat := none
  frontBuf : Option Nat := none
  list : Option DrawList := none
  want : List Nat := []
  xf : List (Nat × List Int) := []
  tex : List (Nat × TexSlot) := []
  sides : List RenderSide := []
  prios : List (Nat × Nat) := []
  px : PixelUnit := {}
  line : Nat := 0
  fifo : List Byte := []
  dsiOut : List (Nat × List Byte) := []
  underruns : List Nat := []
  deriving DecidableEq, Repr

/-- A long frame in a replay buffer (R409): its retries, and the DEVTIME in ns at which it was last put on the link. -/
structure SentFrame where
  frame : LongFrame
  retries : Nat := 0
  at_ : Nat
  deriving DecidableEq, Repr

/-- One side of the span links beside its registers (R403, R408, R409, R413): good TRAIN pairs in a row; the LSEQ of the next new
frame and of the frame expected; what the next frame has to answer; the replay and forward buffers; control entries to send, as
(destination, entry); the frames and the short frames that went onto the link last; give-up times; whether 64 give-ups hold it
LOST; the item of the duplicates in hand; the binding whose turn to send comes next (R407). -/
structure SpanSide where
  trainGood : Nat := 0
  txNext : Nat := 0
  rxNext : Nat := 0
  ackOwed : Bool := false
  nakDue : Bool := false
  nakSent : Bool := false
  replay : List SentFrame := []
  forward : List LongFrame := []
  ctrl : List (Nat × Cell64) := []
  wire : List (List Byte) := []
  shorts : List (List Byte) := []
  giveups : List Nat := []
  heldLost : Bool := false
  dup : Option ItemId := none
  turn : Nat := 0
  deriving DecidableEq, Repr

/-- One transmit binding (R407, R414, R415): general credit, general cells sent and not returned, escape credit, the FRAG and ISEQ
of the item in progress, and whether the rest of that item is discarded. -/
structure Binding where
  k : Nat
  general : Int := 0
  sent : Int := 0
  esc : Nat := 8
  frag : Nat := 0
  iseq : Nat := 0
  skip : Bool := false
  deriving DecidableEq, Repr

/-- A binding that a HANG has removed while its queue held cells: it is served until they have drained, under a number from 32 on. -/
structure OldBinding where
  k : Nat
  qid : Nat
  dst : Nat
  dstQid : Nat
  token : Bool
  deriving DecidableEq, Repr

/-- An item that the receive side has partly received (R412, R416): ISEQ, next FRAG, queue, and the side of its frames. -/
structure RxItem where
  iseq : Nat
  next : Nat
  qid : Nat
  side : Nat
  deriving DecidableEq, Repr

/-- One incoming stream (R413): the highest ISEQ accepted, the items completed within 1,024 of it, the items in progress. -/
structure RxStream where
  high : Option Nat := none
  complete : List Nat := []
  inProgress : List RxItem := []
  deriving DecidableEq, Repr

/-- The cells of one frame in a receive queue that have not been popped (R414): queue, the QID that its source knows the queue by,
source chip (4 for none), whether it came on escape credit, its cells, and how many of them are still queued. -/
structure RxFrame where
  qid : Nat
  name : Nat
  src : Nat
  esc : Bool
  cells : Nat
  left : Nat
  deriving DecidableEq, Repr

/-- An item of this chip that is on its way over a link (R410, R412): item, destination, class, ISEQ, first side, and the ring
links that it crosses, named by the chip whose SPAN_B they join. -/
structure SpanItem where
  item : ItemId
  dst : Nat
  token : Bool
  iseq : Nat
  side : Nat
  links : List Nat
  deriving DecidableEq, Repr

/-- The span links beside their registers (R400 to R422): `iseqs` and `rx` are keyed by chip, plus 4 for tokens; `ctrlIn` holds
received control entries as (side, source chip, entry); `linksDown` the ring links that are known not to be UP. -/
structure Span where
  sides : List SpanSide := [{}, {}]
  bindings : List Binding := []
  removed : List OldBinding := []
  iseqs : List (Nat × Nat) := []
  rx : List (Nat × RxStream) := []
  rxFrames : List RxFrame := []
  items : List SpanItem := []
  ctrlIn : List (Nat × Nat × Cell64) := []
  linksDown : List Nat := []
  deriving DecidableEq, Repr

/-- A fetched command that waits for its turn or runs (R428, R431); `args` are the 64 bytes of its entry. -/
structure Fetched where
  stream : Nat
  item : ItemId
  op : Nat
  args : List Byte
  deriving DecidableEq, Repr

/-- The window of seen sequences of stream 0x08 or 0x09, each with the status of its command once it has one (R429). -/
structure CmdWindow where
  high : Option Nat := none
  seen : List (Nat × Option Nat) := []
  deriving DecidableEq, Repr

/-- A response that waits for room in its ring (R426, R431); `ends`: writing it completes the item. -/
structure Response where
  item : ItemId
  op : Nat
  status : Nat
  result : Nat
  ends : Bool
  deriving DecidableEq, Repr

/-- A background transfer (R431, R441, R449): its command, its controller, and whether it has gained the controller. -/
structure Transfer where
  cmd : Fetched
  bus : Nat
  started : Bool := false
  deriving DecidableEq, Repr

/-- A queued NMEA sentence: its characters, whether it is an alarm, status or message, its command (R444). -/
structure Sentence where
  kind : Nat
  text : List Byte
  cmd : Option Fetched := none
  deriving DecidableEq, Repr

/-- JTAG instructions (R445). -/
inductive TapInstr where
  | idcode | bypass | sample | extest | clamp | highz
  deriving DecidableEq, Repr

/-- A firmware load in progress (R93, R110, R430): its command and item; once it has begun, the image, the bank, and the check
that it failed. -/
structure FwLoad where
  cmd : Fetched
  item : ItemId
  begun : Bool := false
  img : List Byte := []
  bank : Nat := 0
  check : Option Nat := none
  deriving DecidableEq, Repr

/-- The host interfaces beside their registers (R424 to R453): commands fetched and not yet begun, the two sequence windows,
duplicates that wait for the original's status, PHASE by ring (0 responses, 1 summaries, 2 + k readout k), transfers and
firmware loads in progress, responses that wait for room and the response queue of the SPI target, CRC_ERR, the last bytes
sent over SPI and as BAR2 completion (`busUr`: Unsupported Request), MSI-X messages sent, queued sentences and the one being
sent, trace packets that are due as (type, payload), the trace buffer with the DEVTIME at which its first byte follows the
last change, lost packets, TRACE_D and TRACE_STB, the last second of a TIME packet, and the TAP. -/
structure HostIf where
  fetched : List Fetched := []
  win8 : CmdWindow := {}
  win9 : CmdWindow := {}
  dups : List Fetched := []
  phases : List (Nat × Bool) := []
  transfers : List Transfer := []
  fwLoads : List FwLoad := []
  rspWait : List Response := []
  spiWait : List Response := []
  spiResp : List (List Byte) := []
  spiCrc : Bool := false
  spiOut : List Byte := []
  busOut : List Byte := []
  busUr : Bool := false
  messages : List Nat := []
  alarms : List Sentence := []
  sending : Option Sentence := none
  traceDue : List (Nat × List Byte) := []
  trace : List Byte := []
  traceAt : Nat := 0
  traceLost : Nat := 0
  traceD : Byte := 0
  traceStb : Bool := false
  traceSec : Nat := 0
  tap : TapInstr := .idcode
  boundary : List Bool := []
  tapOut : List Bool := []
  deriving DecidableEq, Repr

/-- A record that the ledger head holds (R460). -/
structure HeldRecord where
  item : ItemId
  reason : Nat
  stage : Nat
  flags : Nat
  time : Nat
  deriving DecidableEq, Repr

/-- A live entry of the fault stack (R466). State: 1 pending, 2 in hand, 3 held. -/
structure FaultEntry where
  slot : Nat
  time : Nat
  off : Nat
  bit : Nat
  sev : Nat
  state : Nat
  block : Nat
  rep : Nat
  order : Nat
  deriving DecidableEq, Repr

/-- The ledger head and the fault stack beside their registers (R459 to R473). -/
structure Ledger where
  items : List (ItemId × Nat) := []
  seqs : List (Nat × Nat) := []
  ended : List ItemId := []
  held : List HeldRecord := []
  faults : List FaultEntry := []
  raises : List Nat := []
  order : Nat := 0
  deriving DecidableEq, Repr

/-- A write of PW_DOM_REQ that waits for Keeper (R71): the state that it asks of PD01 to PD09, and its interface. -/
structure DomRequest where
  onReq : Nat
  via : Iface
  deriving DecidableEq, Repr

/-- Keeper's own state: the DEVTIME in ns at which the interval of the pace monitors in hand ends (R35), monitors, guard, power
history, domain switches (`domWork` holds the domains that the request in service has still to wake, the one that wakes first;
`domWaits` the requests that wait), heartbeat, boot images (R37, R45, R57, R70, R71, R74, R76, R89, R97). -/
structure Keeper where
  mode : Mode := .reset
  paceAt : Nat := 100000
  paceHist : List Nat := []
  monMiss : List Nat := List.replicate 20 0
  monOut : List Nat := []
  guardDeepest : Bool := false
  guardSeams : Nat := 0
  powerHist : List Nat := []
  brownouts : List Nat := []
  switching : List (Nat × Bool) := []
  domWork : List Nat := []
  domWaits : List DomRequest := []
  lastResult : Option Nat := none
  hbPulse : Nat := 0
  manifestNew : Option Manifest := none
  written : List Nat := []
  k8Boot : Bool := false
  deriving DecidableEq, Repr

/-- The whole state of the block. `regs` lists every register field that is not at its reset value, by
bit address in rising order (R7, R478); `pending` is the queue of commands that wait. -/
structure State where
  part : Part := {}
  store : Store := {}
  regs : List (Nat × Nat) := []
  pins : Pins := {}
  devtime : Nat := 0
  frac : Nat := 0
  timers : List (Timer × Nat) := []
  keeper : Keeper := {}
  cv : CanvasState := {}
  roles : List Nat := List.replicate 64 0
  pp : PlanProc := {}
  ext : Mem := {}
  tmem : Mem := {}
  scratch : Mem := {}
  hostMem : Mem := {}
  mesh : Mesh := {}
  pal : Palette := {}
  ei : Ingress := {}
  tm : TimeRef := {}
  sf : Spiking := {}
  deParity : List (Nat × Nat) := []
  xr : Experts := {}
  fu : Fusion := {}
  rd : Renderer := {}
  sl : Span := {}
  hi : HostIf := {}
  lg : Ledger := {}
  freeCtr : Nat := 0
  pending : List Instr := []
  deriving DecidableEq, Repr

/-- The state after power-on: RESET_N asserted and the internal power-on reset active (R67, R68), every
register at its reset value, PW_RESET_CAUSE showing POR (R69, R90) and the strap of PW_HB (R90) at 01.
DESIGN CHOICE (notes/assumptions/2.md). -/
def State.reset : State :=
  { regs := [((R.pwResetCausePor).key 0 0, 1)] }

end Sys2Proof.Machine
end

