-- ==== Sys2Proof/Machine/Operands.lean ====
section
/-! DEFINITION. Operand forms: bit fields, byte orders, signed readings, the cells of PALETTE queues, the
fields of bundles, slot operations and queue descriptors. -/
namespace Sys2Proof.Machine

/-- Bits [hi:lo] of a number (the writing convention of 00). -/
def bits (v hi lo : Nat) : Nat := v / 2 ^ lo % 2 ^ (hi + 1 - lo)

/-- Bit b of a number. -/
def bitAt (v b : Nat) : Bool := v.testBit b

/-- A flag as a number. -/
def ofFlag (b : Bool) : Nat := if b then 1 else 0

/-- A number with bits [hi:lo] replaced. -/
def putBits (v hi lo x : Nat) : Nat :=
  v - bits v hi lo * 2 ^ lo + x % 2 ^ (hi + 1 - lo) * 2 ^ lo

/-- Two's complement reading of the low w bits. -/
def toSigned (w v : Nat) : Int :=
  let x := v % 2 ^ w
  if x < 2 ^ (w - 1) then (x : Int) else (x : Int) - (2 ^ w : Nat)

/-- The low w bits of an integer, as a number. -/
def ofSigned (w : Nat) (v : Int) : Nat := (v % (2 ^ w : Nat)).toNat

/-- Saturation to a signed width. -/
def satSigned (w : Nat) (v : Int) : Int :=
  let hi : Int := (2 ^ (w - 1) : Nat)
  if v > hi - 1 then hi - 1 else if v < -hi then -hi else v

/-- Saturation to an unsigned bound. -/
def satTo (top v : Nat) : Nat := min top v

/-- The smallest integer not below a / b. -/
def ceilDiv (a b : Nat) : Nat := (a + b - 1) / b

/-- A quotient whose rounding the manual does not give: the floor, or one more (rule number, numerator, denominator).
DESIGN CHOICE (notes/assumptions/5.md). -/
def openDiv (rule : Nat) (num den : Int) : Int :=
  let q := num / den
  if num % den ≠ 0 ∧ Config.divUp rule num den = true then q + 1 else q

/-- The nearest integer to a quotient with a positive denominator; a half goes either way (rule number, numerator,
denominator). DESIGN CHOICE (notes/assumptions/5.md). -/
def openRound (rule : Nat) (num den : Int) : Int :=
  let q := (2 * num + den) / (2 * den)
  if (2 * num + den) % (2 * den) = 0 ∧ Config.divUp rule num den = false then q - 1 else q

/-- Little-endian bytes of a number (R6). -/
def leBytes : Nat → Nat → List Byte
  | 0, _ => []
  | n + 1, v => BitVec.ofNat 8 v :: leBytes n (v / 256)

/-- The number that little-endian bytes hold (R6). -/
def leNat : List Byte → Nat
  | [] => 0
  | b :: t => b.toNat + 256 * leNat t

/-- The number that big-endian bytes hold (R6, R98). -/
def beNat (l : List Byte) : Nat := leNat l.reverse

/-- n bytes at offset o of a byte list; a byte that is not there reads 0. -/
def bytesAt (l : List Byte) (o n : Nat) : List Byte :=
  let t := (l.drop o).take n
  t ++ List.replicate (n - t.length) 0

/-- The little-endian value of n bytes at offset o (R6). -/
def fieldAt (l : List Byte) (o n : Nat) : Nat := leNat (bytesAt l o n)

/-- Number of set bits among the low n bits. -/
def popCount : Nat → Nat → Nat
  | 0, _ => 0
  | n + 1, v => v % 2 + popCount n (v / 2)

/-- The position of the k-th set bit, counted from 0, among n bits from position p (R241, R300). -/
def nthSet : Nat → Nat → Nat → Nat → Option Nat
  | 0, _, _, _ => none
  | n + 1, p, v, k =>
    if v % 2 = 1 then (if k = 0 then some p else nthSet n (p + 1) (v / 2) (k - 1))
    else nthSet n (p + 1) (v / 2) k

/-- The set bits among the low n bits, lowest first. -/
def setBits (n v : Nat) : List Nat := (List.range n).filter fun i => v.testBit i

/-- A number from the set bits of a list. -/
def ofSet (l : List Nat) : Nat := l.foldl (fun a b => a ||| 2 ^ b) 0

/-- The ceiling of log2: the smallest e with v ≤ 2^e, up to n. -/
def log2Up : Nat → Nat → Nat
  | 0, _ => 0
  | n + 1, v => if v ≤ 1 then 0 else 1 + log2Up n (ceilDiv v 2)

/-! Association lists: the newest value of a key. -/

/-- The value of a key. -/
def alGet {α β : Type} [DecidableEq α] : List (α × β) → α → Option β
  | [], _ => none
  | (k, v) :: t, x => if k = x then some v else alGet t x

/-- Remove a key. -/
def alDel {α β : Type} [DecidableEq α] (l : List (α × β)) (x : α) : List (α × β) :=
  l.filter fun e => decide (e.1 ≠ x)

/-- Give a key a value. -/
def alPut {α β : Type} [DecidableEq α] (l : List (α × β)) (x : α) (v : β) : List (α × β) :=
  alDel l x ++ [(x, v)]

/-- Change the value of a key, from a default where it has none. -/
def alMod {α β : Type} [DecidableEq α] (l : List (α × β)) (x : α) (d : β) (f : β → β) : List (α × β) :=
  alPut l x (f ((alGet l x).getD d))

/-! Cells (R226, R229, R230). -/

/-- Even parity over the low n bits: true when the count of ones is odd (R226). -/
def parity (n v : Nat) : Bool := popCount n v % 2 = 1

/-- The type of a typed cell (R229). -/
def cellType (c : Cell64) : Nat := bits c.toNat 11 8

/-- The item ID of an EOP cell (R230). -/
def cellItem (c : Cell64) : ItemId := BitVec.ofNat 32 (c.toNat / 2 ^ 32)

/-- A gap marker (R236): first and last loss in µs of DEVTIME, source, count. -/
def gapMarker (first last src count : Nat) : Cell64 :=
  let n := satTo 0xFFFFF count
  let span := satTo 16383 ((last - first) / 64)
  BitVec.ofNat 64 (first % 2 ^ 24 * 2 ^ 40 + span * 2 ^ 26 + src % 4 * 2 ^ 24 + n / 256 * 2 ^ 12
    + 2 * 2 ^ 8 + n % 256)

/-- COUNT of a gap marker (R236). -/
def gapCount (c : Cell64) : Nat := bits c.toNat 23 12 * 256 + bits c.toNat 7 0

/-- SRC of a gap marker (R236). -/
def gapSrc (c : Cell64) : Nat := bits c.toNat 25 24

/-- A poison replacement cell (R239). -/
def poisonCell (item : ItemId) : Cell64 := BitVec.ofNat 64 (item.toNat * 2 ^ 32 + 5 * 2 ^ 8)

/-- An epoch marker (R217). -/
def epochCell (port epoch : Nat) : Cell64 :=
  BitVec.ofNat 64 (port % 4 * 2 ^ 38 + epoch % 2 ^ 24 * 2 ^ 12 + 3 * 2 ^ 8)

/-- The epoch number of a time in µs (R217). -/
def epochOf (us : Nat) : Nat := us / 2 ^ 24 % 2 ^ 24

/-- An end-of-packet cell (R180). -/
def eopCell (item : ItemId) (count : Nat) (lossy : Bool) : Cell64 :=
  BitVec.ofNat 64 (item.toNat * 2 ^ 32 + min count 65535 * 2 ^ 16 + ofFlag lossy * 2 ^ 12 + 4 * 2 ^ 8)

/-! Item IDs (R24). -/

/-- Stream of an item. -/
def streamOf (i : ItemId) : Nat := bits i.toNat 31 24

/-- Sequence of an item. -/
def seqOf (i : ItemId) : Nat := bits i.toNat 23 0

/-- The item of a stream and a sequence, modulo 2^24. -/
def mkItem (stream seq : Nat) : ItemId := BitVec.ofNat 32 (stream % 256 * 2 ^ 24 + seq % 2 ^ 24)

/-! Bundles and slot operations (R155 to R157). -/

/-- The 152 bits of slot k of a bundle (R155). -/
def slotWord (bundle : Nat) (k : Nat) : Nat := bits bundle (343 + 152 * k) (192 + 152 * k)

/-- CLASS of a slot operation (R157). -/
def slotClass (w : Nat) : Nat := bits w 3 0
/-- FEN of a slot operation. -/
def slotFen (w : Nat) : Bool := bitAt w 4
/-- FENCE of a slot operation. -/
def slotFence (w : Nat) : Nat := bits w 9 5
/-- STREAM of a slot operation. -/
def slotStream (w : Nat) : Nat := bits w 13 10
/-- TAG of a slot operation. -/
def slotTag (w : Nat) : Nat := bits w 21 14
/-- FINAL of a slot operation. -/
def slotFinal (w : Nat) : Bool := bitAt w 22

/-- The 16-byte descriptor of a class-3 slot operation (R241). -/
structure QueueDesc where
  pos : Nat
  part : Nat
  group : Nat
  count : Nat
  offset : Nat
  last : Bool
  take : Bool
  toEop : Bool
  deriving DecidableEq, Repr

/-- Reading of a queue descriptor (R241). -/
def QueueDesc.ofBytes (l : List Byte) : QueueDesc :=
  let v := leNat (bytesAt l 0 16)
  { pos := bits v 5 0, part := bits v 9 6, group := bits v 15 10, count := bits v 31 16,
    offset := bits v 63 32, last := bitAt v 64, take := bitAt v 65, toEop := bitAt v 66 }

end Sys2Proof.Machine
end

