-- ==== Sys2Proof/Machine/Descriptors.lean ====
section
/-! DEFINITION. The descriptors that slot operations resolve through: dense compute (R289), moves (R300), expert routing
(R314), render submit (R374), spiking (R270), and what a plan may not hold in them (R174, R288). -/
namespace Sys2Proof.Machine

/-- The descriptor of a DENSE class-1 operation (R289). -/
structure DenseDesc where
  inPart : Nat
  in2Part : Nat
  wPart : Nat
  outPart : Nat
  lbPart : Nat
  inOff : Nat
  wOff : Nat
  outOff : Nat
  qOff : Nat
  in2Off : Nat
  w : Nat
  h : Nat
  c : Nat
  n : Nat
  kh : Nat
  kw : Nat
  stride : Nat
  dil : Nat
  pad : Nat
  fmtIn : Nat
  fmtOut : Nat
  split : Bool
  act : Nat
  clip : Nat
  gw : Nat
  sub : Nat
  maxCount : Nat
  x0 : Nat
  y0 : Nat
  bs : Nat
  deriving DecidableEq, Repr

/-- Reading of a dense descriptor (R289). -/
def DenseDesc.ofBytes (l : List Byte) : DenseDesc :=
  let v := leNat (bytesAt l 0 64)
  { inPart := bits v 3 0, in2Part := bits v 7 4, wPart := bits v 11 8, outPart := bits v 15 12, lbPart := bits v 19 16,
    inOff := bits v 63 32, wOff := bits v 95 64, outOff := bits v 127 96, qOff := bits v 159 128, in2Off := bits v 191 160,
    w := bits v 203 192 + 1, h := bits v 215 204 + 1, c := bits v 227 216 + 1, n := bits v 239 228 + 1,
    kh := bits v 242 240 + 1, kw := bits v 245 243 + 1, stride := 2 ^ bits v 247 246, dil := bits v 248 248 + 1,
    pad := bits v 250 249, fmtIn := bits v 252 251, fmtOut := bits v 254 253, split := bitAt v 255, act := bits v 258 256,
    clip := bits v 266 259, gw := bits v 269 267, sub := bits v 271 270, maxCount := bits v 287 272,
    x0 := bits v 171 160, y0 := bits v 187 176, bs := bits v 242 240 }

/-- Channels in a map as stored, INT8 (R286). -/
def padTo (n c : Nat) : Nat := ceilDiv c n * n

/-- Channels that an element's format pads to (R286): 4 for INT8, 8 for INT4, 2 for FP16.
DESIGN CHOICE (notes/assumptions/45.md). -/
def fmtPad (fmt : Nat) : Nat := if fmt = 1 then 8 else if fmt = 2 then 2 else 4

/-- Bytes of n stored elements (R286). -/
def fmtBytes (fmt n : Nat) : Nat := if fmt = 1 then n / 2 else if fmt = 2 then 2 * n else n

/-- Bytes of the line buffer that an operation needs (R293). -/
def lineBytes (kind : Nat) (d : DenseDesc) : Nat :=
  if 1 ≤ kind ∧ kind ≤ 3 then fmtBytes d.fmtIn ((d.kh + d.stride) * d.w * padTo (fmtPad d.fmtIn) d.c) else 0

/-- Limits and zero bits of a dense descriptor (R289, R304). -/
def denseDescOk (kind : Nat) (l : List Byte) : Bool :=
  let v := leNat (bytesAt l 0 64)
  let d := DenseDesc.ofBytes l
  bits v 31 20 == 0 && bits v 511 288 == 0 && decide (d.stride ≤ 4) && decide (d.pad ≤ 2) && decide (d.fmtIn ≤ 2) &&
  decide (d.fmtOut ≤ 2) && decide (d.act ≤ 3) && decide (d.sub ≤ (if kind = 3 then 1 else 2)) && decide (d.gw ≤ 5) &&
  (if kind = 5 then decide (d.bs ≤ 4) && bits v 175 172 == 0 && bits v 191 188 == 0 else decide (d.kh ≤ 7) && decide (d.kw ≤ 7)) &&
  decide (lineBytes kind d ≤ 262144)

/-- The descriptor of a class-2 operation (R300). -/
structure MoveDesc where
  srcGroup : Nat
  srcPos : Nat
  dstGroup : Nat
  dstPos : Nat
  srcPart : Nat
  dstPart : Nat
  srcOff : Nat
  dstOff : Nat
  bytes : Nat
  w : Nat
  h : Nat
  c : Nat
  rate : Nat
  map : Bool
  mem : Nat
  entries : Nat
  list : Nat
  deriving DecidableEq, Repr

/-- Reading of a move descriptor (R300). -/
def MoveDesc.ofBytes (l : List Byte) : MoveDesc :=
  let v := leNat (bytesAt l 0 32)
  { srcGroup := bits v 5 0, srcPos := bits v 11 6, dstGroup := bits v 17 12, dstPos := bits v 23 18, srcPart := bits v 27 24,
    dstPart := bits v 31 28, srcOff := bits v 63 32, dstOff := bits v 95 64, bytes := bits v 127 96, w := bits v 139 128 + 1,
    h := bits v 151 140 + 1, c := bits v 163 152 + 1, rate := bits v 165 164, map := bitAt v 166, mem := bits v 255 192,
    entries := bits v 15 0, list := bits v 51 32 }

/-- Bytes that a move takes in a tile (R286, R300). -/
def MoveDesc.tileBytes (d : MoveDesc) : Nat := if d.map then d.w * d.h * padTo 4 d.c else d.bytes

/-- Bytes of a compressed block (R301). -/
def blockBytes (rate : Nat) : Nat := 16 / 2 ^ min rate 2

/-- Bytes that a move takes in external memory (R301). -/
def MoveDesc.extBytes (d : MoveDesc) : Nat :=
  if d.map then ceilDiv d.w 4 * ceilDiv d.h 4 * padTo 32 d.c * blockBytes d.rate else d.bytes

/-- Limits and zero bits of a move descriptor (R300). -/
def moveDescOk (sub : Nat) (l : List Byte) : Bool :=
  let v := leNat (bytesAt l 0 32)
  let d := MoveDesc.ofBytes l
  if sub = 3 then bits v 31 16 == 0 && bits v 255 52 == 0
  else bits v 191 167 == 0 && decide (d.rate ≤ 2) && d.mem % 64 == 0 && (d.rate == 0 || (d.map && sub != 0))

/-- The descriptor of a class-5 operation (R314). -/
structure ExpertDesc where
  sub : Nat
  group : Nat
  pos : Nat
  part : Nat
  inOff : Nat
  outOff : Nat
  maxObj : Nat
  feat : Nat
  nclass : Nat
  exitConf : Nat
  expert : Nat
  outQid : Nat
  scrOff : Nat
  deriving DecidableEq, Repr

/-- Reading of an expert descriptor (R314). -/
def ExpertDesc.ofBytes (l : List Byte) : ExpertDesc :=
  let v := leNat (bytesAt l 0 32)
  { sub := bits v 3 0, group := bits v 9 4, pos := bits v 15 10, part := bits v 19 16, inOff := bits v 63 32,
    outOff := bits v 95 64, maxObj := bits v 111 96, feat := 8 * (bits v 117 112 + 1), nclass := bits v 125 120 + 1,
    exitConf := bits v 135 128, expert := bits v 141 136, outQid := bits v 152 144, scrOff := bits v 175 160 }

/-- Limits and zero bits of an expert descriptor (R314). -/
def expertDescOk (l : List Byte) : Bool :=
  let v := leNat (bytesAt l 0 32)
  let d := ExpertDesc.ofBytes l
  bits v 31 20 == 0 && bits v 119 118 == 0 && bits v 127 126 == 0 && bits v 143 142 == 0 && bits v 159 153 == 0 &&
  bits v 255 176 == 0 && (d.sub != 0 || (decide (1 ≤ d.maxObj) && decide (d.maxObj ≤ 4096)))

/-- Zero bits and limits of a render descriptor (R374): a CLOSE names nothing beside its SUB. -/
def renderDescOk (l : List Byte) : Bool :=
  let v := leNat (bytesAt l 0 32)
  if bits v 3 0 = 1 then v == 1
  else bits v 63 4 == 0 && bits v 255 154 == 0 && decide (bits v 153 152 ≤ 2)

/-- The descriptors of a slot operation on a group of a role: their offsets in the data segment and their lengths (R157,
R241, R270, R289, R300, R314, R374, R432, R434). -/
def slotDescs (role w : Nat) : List (Nat × Nat) :=
  match slotClass w with
  | 1 => [(16 * bits w 53 34, if role = 1 then 16 else 64)]
  | 2 => [(16 * bits w 47 28, 32)]
  | 3 => [(16 * bits w 56 37, 16)]
  | 5 => [(16 * bits w 43 24, 32)]
  | 6 => [(16 * bits w 43 24, 32)]
  | 7 => [(16 * bits w 43 24, 16), (16 * bits w 63 44, 56)]
  | _ => []

/-- The check that a slot operation breaks with its descriptor (R174, R270, R288, R300, R314, R374): 0x23 for a KIND or SUB
that is not allowed, 0x22 for a limit or a bit that must be 0. `read` gives bytes of the data segment. -/
def slotCheck (role w : Nat) (read : Nat → Nat → List Byte) : Option Nat :=
  let kind := bits w 33 30
  let sub := bits w 27 24
  let desc := fun n => match slotDescs role w with
    | (o, _) :: _ => read o n
    | [] => []
  let at_ := fun (ok : Bool) (c : Nat) => if ok then none else some c
  match slotClass w with
  | 1 =>
    if role = 2 then (at_ (decide (kind < 7)) 0x23).or (at_ (denseDescOk kind (desc 64)) 0x22)
    else if role = 1 then (at_ (decide (kind < 2)) 0x23).or (at_ (decide (leNat (desc 16) < 64)) 0x22)
    else none
  | 2 => (at_ (decide (sub < 4)) 0x23).or (at_ (moveDescOk sub (desc 32)) 0x22)
  | 3 =>
    let d := desc 16
    (at_ (decide (sub < 4)) 0x23).or (at_ (bits (leNat d) 127 67 == 0 && bits (leNat d) 34 32 == 0 && (sub == 3 || bits (leNat d) 31 16 != 0)) 0x22)
  | 4 => at_ (decide (sub < 3)) 0x23
  | 5 => (at_ (decide (bits (leNat (desc 32)) 3 0 < 3)) 0x23).or (at_ (expertDescOk (desc 32)) 0x22)
  | 6 => (at_ (decide (bits (leNat (desc 32)) 3 0 < 2)) 0x23).or (at_ (renderDescOk (desc 32)) 0x22)
  | _ => none

end Sys2Proof.Machine
end

