-- ==== Sys2Proof/Machine/Crypto.lean ====
section
/-! DEFINITION. The primitives that the manual names and leaves to their standards: CRC-32 (R118, R402), and for R98 and R99
SHA-256 and the verification of ECDSA over P-256. -/
namespace Sys2Proof.Machine

/-! ## CRC-32 -/

/-- Eight shift steps of the reflected CRC-32 of IEEE 802.3. -/
def crc32Bits : Nat → Nat → Nat
  | 0, c => c
  | n + 1, c => crc32Bits n (if c % 2 = 1 then (c / 2) ^^^ 0xEDB88320 else c / 2)

/-- CRC-32 of IEEE 802.3 over bytes (R118, R402). PRESUMED (notes/assumptions/72.md). -/
def crc32 (l : List Byte) : Nat := (l.foldl (fun c b => crc32Bits 8 (c ^^^ b.toNat)) 0xFFFFFFFF) ^^^ 0xFFFFFFFF

/-! ## SHA-256 -/

/-- The 64 round constants of SHA-256. PRESUMED (notes/assumptions/72.md). -/
def shaK : List Nat :=
  [0x428a2f98, 0x71374491, 0xb5c0fbcf, 0xe9b5dba5, 0x3956c25b, 0x59f111f1, 0x923f82a4, 0xab1c5ed5,
   0xd807aa98, 0x12835b01, 0x243185be, 0x550c7dc3, 0x72be5d74, 0x80deb1fe, 0x9bdc06a7, 0xc19bf174,
   0xe49b69c1, 0xefbe4786, 0x0fc19dc6, 0x240ca1cc, 0x2de92c6f, 0x4a7484aa, 0x5cb0a9dc, 0x76f988da,
   0x983e5152, 0xa831c66d, 0xb00327c8, 0xbf597fc7, 0xc6e00bf3, 0xd5a79147, 0x06ca6351, 0x14292967] ++
  [0x27b70a85, 0x2e1b2138, 0x4d2c6dfc, 0x53380d13, 0x650a7354, 0x766a0abb, 0x81c2c92e, 0x92722c85,
   0xa2bfe8a1, 0xa81a664b, 0xc24b8b70, 0xc76c51a3, 0xd192e819, 0xd6990624, 0xf40e3585, 0x106aa070,
   0x19a4c116, 0x1e376c08, 0x2748774c, 0x34b0bcb5, 0x391c0cb3, 0x4ed8aa4a, 0x5b9cca4f, 0x682e6ff3,
   0x748f82ee, 0x78a5636f, 0x84c87814, 0x8cc70208, 0x90befffa, 0xa4506ceb, 0xbef9a3f7, 0xc67178f2]

/-- The eight working words of a compression. -/
structure Sha where
  a : Word := 0x6a09e667
  b : Word := 0xbb67ae85
  c : Word := 0x3c6ef372
  d : Word := 0xa54ff53a
  e : Word := 0x510e527f
  f : Word := 0x9b05688c
  g : Word := 0x1f83d9ab
  h : Word := 0x5be0cd19
  deriving DecidableEq, Repr

/-- The exclusive or of three rotations to the right. -/
def rot3 (x : Word) (i j k : Nat) : Word := x.rotateRight i ^^^ x.rotateRight j ^^^ x.rotateRight k

/-- The exclusive or of two rotations and a shift to the right. -/
def rotShift (x : Word) (i j k : Nat) : Word := x.rotateRight i ^^^ x.rotateRight j ^^^ (x >>> k)

/-- The message schedule, newest word first, n words on. -/
def shaExtend : Nat → List Word → List Word
  | 0, w => w
  | n + 1, w =>
    let at_ := fun i => w.getD i 0
    shaExtend n ((rotShift (at_ 1) 17 19 10 + at_ 6 + rotShift (at_ 14) 7 18 3 + at_ 15) :: w)

/-- One round with its constant and schedule word. -/
def Sha.round (s : Sha) (kw : Nat × Word) : Sha :=
  let t1 := s.h + rot3 s.e 6 11 25 + ((s.e &&& s.f) ^^^ (~~~s.e &&& s.g)) + BitVec.ofNat 32 kw.1 + kw.2
  let t2 := rot3 s.a 2 13 22 + ((s.a &&& s.b) ^^^ (s.a &&& s.c) ^^^ (s.b &&& s.c))
  { a := t1 + t2, b := s.a, c := s.b, d := s.c, e := s.d + t1, f := s.e, g := s.f, h := s.g }

/-- One block of 16 words. -/
def Sha.block (s : Sha) (w : List Word) : Sha :=
  let t := (shaK.zip (shaExtend 48 w.reverse).reverse).foldl Sha.round s
  { a := s.a + t.a, b := s.b + t.b, c := s.c + t.c, d := s.d + t.d, e := s.e + t.e, f := s.f + t.f, g := s.g + t.g, h := s.h + t.h }

/-- Big-endian bytes of a number. -/
def beBytes (n v : Nat) : List Byte := (leBytes n v).reverse

/-- A message with its padding: a one bit, zeros, and its length in bits. -/
def shaPad (l : List Byte) : List Byte :=
  l ++ [0x80] ++ List.replicate ((119 - l.length % 64) % 64) 0 ++ beBytes 8 (8 * l.length)

/-- The 32-bit word at position i of a padded message. -/
def shaWord (l : List Byte) (i : Nat) : Word := BitVec.ofNat 32 (beNat (bytesAt l (4 * i) 4))

/-- The SHA-256 digest of bytes, as 32 bytes. PRESUMED (notes/assumptions/72.md). -/
def sha256 (l : List Byte) : List Byte :=
  let m := shaPad l
  let s := (List.range (m.length / 64)).foldl (fun (s : Sha) k =>
    s.block ((List.range 16).map fun i => shaWord (m.drop (64 * k)) i)) {}
  [s.a, s.b, s.c, s.d, s.e, s.f, s.g, s.h].flatMap fun w => beBytes 4 w.toNat

/-! ## P-256 -/

/-- The field prime of P-256. PRESUMED (notes/assumptions/72.md). -/
def p256 : Nat := 2 ^ 256 - 2 ^ 224 + 2 ^ 192 + 2 ^ 96 - 1

/-- The order of the group. -/
def p256Order : Nat := 0xFFFFFFFF00000000FFFFFFFFFFFFFFFFBCE6FAADA7179E84F3B9CAC2FC632551

/-- The constant of the curve equation y² = x³ − 3x + b. -/
def p256B : Nat := 0x5AC635D8AA3A93E7B3EBBD55769886BC651D06B0CC53B0F63BCE3C3E27D2604B

/-- The base point. -/
def p256Base : Nat × Nat :=
  (0x6B17D1F2E12C4247F8BCE6E563A440F277037D812DEB33A0F4A13945D898C296,
   0x4FE342E2FE1A7F9B8EE7EB4A7C0F9E162BCE33576B315ECECBB6406837BF51F5)

/-- A power modulo m; n bounds the bits of the exponent. -/
def powMod (m : Nat) : Nat → Nat → Nat → Nat
  | 0, _, _ => 1
  | n + 1, b, e =>
    let r := powMod m n (b * b % m) (e / 2)
    if e % 2 = 1 then r * b % m else r

/-- The inverse modulo a prime. -/
def invMod (m a : Nat) : Nat := powMod m 256 (a % m) (m - 2)

/-- Sum of two points; none is the point at infinity. -/
def curveAdd : Option (Nat × Nat) → Option (Nat × Nat) → Option (Nat × Nat)
  | none, q => q
  | p, none => p
  | some (x, y), some (u, v) =>
    if x = u ∧ (y + v) % p256 = 0 then none
    else
      let k := if x = u then (3 * x * x + p256 - 3) * invMod p256 (2 * y) % p256
        else (v + p256 - y) * invMod p256 (u + p256 - x) % p256
      let w := (k * k + 2 * p256 - x - u) % p256
      some (w, (k * (x + p256 - w) + p256 - y) % p256)

/-- A multiple of a point; n bounds the bits of the factor. -/
def curveMul : Nat → Nat → Option (Nat × Nat) → Option (Nat × Nat)
  | 0, _, _ => none
  | n + 1, k, q =>
    let r := curveMul n (k / 2) (curveAdd q q)
    if k % 2 = 1 then curveAdd r q else r

/-- A point lies on the curve, with coordinates in range. -/
def onCurve (x y : Nat) : Bool :=
  decide (x < p256) && decide (y < p256) && (y * y % p256 == (x * x * x + (p256 - 3) * x + p256B) % p256)

/-- ECDSA over P-256 with SHA-256: the signature (r, s) of a message verifies under the key Qx‖Qy, all of them big-endian (R98).
PRESUMED (notes/assumptions/72.md). -/
def ecdsaVerifies (message key sig : List Byte) : Bool :=
  let q := (beNat (bytesAt key 0 32), beNat (bytesAt key 32 32))
  let r := beNat (bytesAt sig 0 32)
  let s := beNat (bytesAt sig 32 32)
  let w := invMod p256Order s
  let e := beNat (sha256 message)
  decide (0 < r) && decide (r < p256Order) && decide (0 < s) && decide (s < p256Order) && onCurve q.1 q.2 &&
  match curveAdd (curveMul 256 (e * w % p256Order) (some p256Base)) (curveMul 256 (r * w % p256Order) (some q)) with
  | none => false
  | some x => x.1 % p256Order == r

end Sys2Proof.Machine
end

