-- ==== Sys2Proof/Machine/Ops.lean ====
section
/-! DEFINITION. The named operations over registers, memories, timers and time that the meanings share. -/
namespace Sys2Proof.Machine

/-- The outcome of a command. -/
abbrev Out := Host.Outcome State Fault Refusal

/-! One update for each part of the state. -/

/-- Apply a change to `part`. -/
def State.modPart (s : State) (f : Part → Part) : State := { s with part := f s.part }
/-- Apply a change to `store`. -/
def State.modStore (s : State) (f : Store → Store) : State := { s with store := f s.store }
/-- Apply a change to `pins`. -/
def State.modPins (s : State) (f : Pins → Pins) : State := { s with pins := f s.pins }
/-- Apply a change to `devtime`. -/
def State.modDevtime (s : State) (f : Nat → Nat) : State := { s with devtime := f s.devtime }
/-- Apply a change to `frac`. -/
def State.modFrac (s : State) (f : Nat → Nat) : State := { s with frac := f s.frac }
/-- Apply a change to `timers`. -/
def State.modTimers (s : State) (f : List (Timer × Nat) → List (Timer × Nat)) : State := { s with timers := f s.timers }
/-- Apply a change to `keeper`. -/
def State.modKeeper (s : State) (f : Keeper → Keeper) : State := { s with keeper := f s.keeper }
/-- Apply a change to `cv`. -/
def State.modCv (s : State) (f : CanvasState → CanvasState) : State := { s with cv := f s.cv }
/-- Apply a change to `roles`. -/
def State.modRoles (s : State) (f : List Nat → List Nat) : State := { s with roles := f s.roles }
/-- Apply a change to `pp`. -/
def State.modPp (s : State) (f : PlanProc → PlanProc) : State := { s with pp := f s.pp }
/-- Apply a change to `ext`. -/
def State.modExt (s : State) (f : Mem → Mem) : State := { s with ext := f s.ext }
/-- Apply a change to `tmem`. -/
def State.modTmem (s : State) (f : Mem → Mem) : State := { s with tmem := f s.tmem }
/-- Apply a change to `scratch`. -/
def State.modScratch (s : State) (f : Mem → Mem) : State := { s with scratch := f s.scratch }
/-- Apply a change to `hostMem`. -/
def State.modHostMem (s : State) (f : Mem → Mem) : State := { s with hostMem := f s.hostMem }
/-- Apply a change to `mesh`. -/
def State.modMesh (s : State) (f : Mesh → Mesh) : State := { s with mesh := f s.mesh }
/-- Apply a change to `pal`. -/
def State.modPal (s : State) (f : Palette → Palette) : State := { s with pal := f s.pal }
/-- Apply a change to `ei`. -/
def State.modEi (s : State) (f : Ingress → Ingress) : State := { s with ei := f s.ei }
/-- Apply a change to `tm`. -/
def State.modTm (s : State) (f : TimeRef → TimeRef) : State := { s with tm := f s.tm }
/-- Apply a change to `sf`. -/
def State.modSf (s : State) (f : Spiking → Spiking) : State := { s with sf := f s.sf }
/-- Apply a change to `deParity`. -/
def State.modDeParity (s : State) (f : List (Nat × Nat) → List (Nat × Nat)) : State := { s with deParity := f s.deParity }
/-- Apply a change to `xr`. -/
def State.modXr (s : State) (f : Experts → Experts) : State := { s with xr := f s.xr }
/-- Apply a change to `fu`. -/
def State.modFu (s : State) (f : Fusion → Fusion) : State := { s with fu := f s.fu }
/-- Apply a change to `rd`. -/
def State.modRd (s : State) (f : Renderer → Renderer) : State := { s with rd := f s.rd }
/-- Apply a change to `sl`. -/
def State.modSl (s : State) (f : Span → Span) : State := { s with sl := f s.sl }
/-- Apply a change to `hi`. -/
def State.modHi (s : State) (f : HostIf → HostIf) : State := { s with hi := f s.hi }
/-- Apply a change to `lg`. -/
def State.modLg (s : State) (f : Ledger → Ledger) : State := { s with lg := f s.lg }
/-- Apply a change to `freeCtr`. -/
def State.modFreeCtr (s : State) (f : Nat → Nat) : State := { s with freeCtr := f s.freeCtr }
/-- Apply a change to `pending`. -/
def State.modPending (s : State) (f : List Instr → List Instr) : State := { s with pending := f s.pending }

/-! ## Registers (R7, R478, R482) -/

/-- The value of a key in the register file, with its value where the key is not listed. -/
def regGet : List (Nat × Nat) → Nat → Nat → Nat
  | [], _, d => d
  | (k, v) :: t, x, d => if k = x then v else regGet t x d

/-- The register file without a key. -/
def regDel (l : List (Nat × Nat)) (x : Nat) : List (Nat × Nat) := l.filter fun e => decide (e.1 ≠ x)

/-- The register file with a key put in its place, in rising order. -/
def regIns : List (Nat × Nat) → Nat → Nat → List (Nat × Nat)
  | [], x, v => [(x, v)]
  | (k, w) :: t, x, v => if x < k then (x, v) :: (k, w) :: t else (k, w) :: regIns t x v

/-- The canonical form of the register file: keys strictly rising. -/
def regSorted : List (Nat × Nat) → Bool
  | [] => true
  | [_] => true
  | (k, _) :: (k', v') :: t => decide (k < k') && regSorted ((k', v') :: t)

/-- A field of the register file (R7): what was written last, or its reset value. -/
def State.reg (s : State) (r : Row) (i : Nat := 0) (j : Nat := 0) : Nat :=
  regGet s.regs (r.key i j) (r.resetAt i)

/-- Write a field: its value is taken modulo its width. -/
def State.setReg (s : State) (r : Row) (v : Nat) (i : Nat := 0) (j : Nat := 0) : State :=
  let x := v % 2 ^ r.width
  let l := regDel s.regs (r.key i j)
  { s with regs := if x = r.resetAt i then l else regIns l (r.key i j) x }

/-- A one-bit field. -/
def State.flag (s : State) (r : Row) (i : Nat := 0) (j : Nat := 0) : Bool := s.reg r i j = 1

/-- Write a one-bit field. -/
def State.setFlag (s : State) (r : Row) (b : Bool) (i : Nat := 0) (j : Nat := 0) : State :=
  s.setReg r (ofFlag b) i j

/-- Add to a wrapping counter. -/
def State.bump (s : State) (r : Row) (i : Nat := 0) (j : Nat := 0) (n : Nat := 1) : State :=
  s.setReg r (s.reg r i j + n) i j

/-- Add to a saturating counter. -/
def State.bumpSat (s : State) (r : Row) (i : Nat := 0) (j : Nat := 0) (n : Nat := 1) : State :=
  s.setReg r (satTo (2 ^ r.width - 1) (s.reg r i j + n)) i j

/-- Write one bit of a field. -/
def State.setRegBit (s : State) (r : Row) (b : Nat) (x : Bool) (i : Nat := 0) (j : Nat := 0) : State :=
  s.setReg r (putBits (s.reg r i j) b b (ofFlag x)) i j

/-- A signed field. -/
def State.regS (s : State) (r : Row) (i : Nat := 0) (j : Nat := 0) : Int := toSigned r.width (s.reg r i j)

/-- Write a signed field. -/
def State.setRegS (s : State) (r : Row) (v : Int) (i : Nat := 0) (j : Nat := 0) : State :=
  s.setReg r (ofSigned r.width v) i j

/-- Every field whose bit address lies in a range of BAR0 offsets takes its reset value. -/
def State.clearRegs (s : State) (lo hi : Nat) : State :=
  { s with regs := s.regs.filter fun e => decide (e.1 < 8 * lo) || decide (8 * hi ≤ e.1) }

/-- Write n elements of an array row from a function. -/
def State.setRegs (s : State) (r : Row) (n : Nat) (f : Nat → Nat) : State :=
  (List.range n).foldl (fun s i => s.setReg r (f i) i) s

/-! ## Free values -/

/-- A counter value that no earlier free value used. DESIGN CHOICE (notes/assumptions/4.md). -/
def State.tick (s : State) : State := s.modFreeCtr (· + 1)

/-! ## Byte memories (R6, R11, R32, R70, R127) -/

/-- The generation of the newest undefined region that holds an address. DESIGN CHOICE (notes/assumptions/4.md). -/
def undefGen : List (Nat × Nat × Nat) → Nat → Option Nat
  | [], _ => none
  | (b, n, g) :: t, a => if b ≤ a ∧ a < b + n then some g else undefGen t a

/-- What an address that is not listed reads as. DESIGN CHOICE (notes/assumptions/3.md). -/
def Mem.unlisted (m : Mem) (a : Nat) : Byte :=
  match undefGen m.undef a with
  | some g => Config.freeByte g a
  | none => 0

/-- The listed byte of an address. -/
def cellGet : List Host.Cell → Nat → Option Byte
  | [], _ => none
  | (k, v) :: t, a => if k = a then some v else cellGet t a

/-- The cells with one put in its place, in rising order of address. -/
def cellIns : List Host.Cell → Nat → Byte → List Host.Cell
  | [], a, v => [(a, v)]
  | (k, w) :: t, a, v => if a < k then (a, v) :: (k, w) :: t else (k, w) :: cellIns t a v

/-- Read one byte. DESIGN CHOICE (notes/assumptions/3.md). -/
def Mem.read (m : Mem) (a : Nat) : Byte := (cellGet m.cells a).getD (m.unlisted a)

/-- Write one byte. Outside the undefined regions a zero byte is not listed. DESIGN CHOICE (notes/assumptions/3.md). -/
def Mem.write (m : Mem) (a : Nat) (v : Byte) : Mem :=
  let l := m.cells.filter fun c => decide (c.1 ≠ a)
  { m with cells := if undefGen m.undef a = none ∧ v = 0 then l else cellIns l a v }

/-- Read n bytes. -/
def Mem.readBytes (m : Mem) (a n : Nat) : List Byte := (List.range n).map fun i => m.read (a + i)

/-- Write bytes at rising addresses. -/
def Mem.writeBytes (m : Mem) (a : Nat) : List Byte → Mem
  | [] => m
  | b :: t => (m.write a b).writeBytes (a + 1) t

/-- Read an n-byte little-endian number (R6). -/
def Mem.readNat (m : Mem) (a n : Nat) : Nat := leNat (m.readBytes a n)

/-- Write an n-byte little-endian number (R6). -/
def Mem.writeNat (m : Mem) (a n v : Nat) : Mem := m.writeBytes a (leBytes n v)

/-- Whether an address lies in [b, b + n). -/
def inRange (b n a : Nat) : Bool := decide (b ≤ a) && decide (a < b + n)

/-- A region becomes undefined: generation g. Regions inside it are forgotten. DESIGN CHOICE (notes/assumptions/3.md). -/
def Mem.makeUndef (m : Mem) (b n g : Nat) : Mem :=
  { cells := m.cells.filter fun c => !(inRange b n c.1),
    undef := if n = 0 then m.undef else
      (b, n, g) :: m.undef.filter fun r => !(decide (b ≤ r.1) && decide (r.1 + r.2.1 ≤ b + n)) }

/-- Addresses strictly rising, and no listed zero outside the undefined regions. -/
def cellsSorted : List Host.Cell → Bool
  | [] => true
  | [_] => true
  | (k, _) :: (k', v') :: t => decide (k < k') && cellsSorted ((k', v') :: t)

/-- The canonical form of a memory. DESIGN CHOICE (notes/assumptions/3.md). -/
def Mem.wf (m : Mem) : Bool :=
  cellsSorted m.cells && m.cells.all fun c => !(decide (c.2 = 0) && (undefGen m.undef c.1).isNone)

/-- The address in `tmem` of a byte of a tile's memory (R15: 1 MiB for each tile). -/
def tileAddr (t a : Nat) : Nat := t * 2 ^ 20 + a % 2 ^ 20

/-- Read bytes of tile memory. -/
def State.tileRead (s : State) (t a n : Nat) : List Byte := s.tmem.readBytes (tileAddr t a) n

/-- Read a little-endian number from tile memory. -/
def State.tileNat (s : State) (t a n : Nat) : Nat := s.tmem.readNat (tileAddr t a) n

/-- Write bytes to tile memory. -/
def State.tileWrite (s : State) (t a : Nat) (l : List Byte) : State := s.modTmem (·.writeBytes (tileAddr t a) l)

/-- Write a little-endian number to tile memory. -/
def State.tileWriteNat (s : State) (t a n v : Nat) : State := s.tileWrite t a (leBytes n v)

/-! ## The part (R11, R17, R101) -/

/-- Member number (R117, R118). -/
def Member.num : Member → Nat
  | .q4 => 0 | .q16 => 1 | .q32 => 2 | .q64 => 3

/-- Tiles (R11). -/
def Member.tiles : Member → Nat
  | .q4 => 4 | .q16 => 16 | .q32 => 32 | .q64 => 64

/-- Mesh columns (R17). -/
def Member.cols : Member → Nat
  | .q4 => 2 | .q16 => 4 | .q32 => 8 | .q64 => 8

/-- Mesh rows (R11). -/
def Member.rows (m : Member) : Nat := m.tiles / m.cols

/-- Tile quads (R17). -/
def Member.quads (m : Member) : Nat := m.tiles / 4

/-- PALETTE cells (R11). -/
def Member.cells : Member → Nat
  | .q4 => 131072 | .q16 => 262144 | .q32 => 524288 | .q64 => 1048576

/-- Queues (R11). -/
def Member.queues : Member → Nat
  | .q4 => 64 | .q16 => 128 | .q32 => 256 | .q64 => 512

/-- Event ports (R11). -/
def Member.ports : Member → Nat
  | .q4 => 1 | .q16 => 2 | .q32 => 3 | .q64 => 4

/-- Thermal ports (R11). -/
def Member.thermals : Member → Nat
  | .q4 => 0 | .q16 => 1 | .q32 => 1 | .q64 => 2

/-- Span links (R11). -/
def Member.links : Member → Nat
  | .q4 => 0 | .q16 => 1 | .q32 => 2 | .q64 => 2

/-- Installed external memory in bytes (R11). -/
def Member.extBytes : Member → Nat
  | .q4 => 4 * 2 ^ 30 | .q16 => 8 * 2 ^ 30 | .q32 => 8 * 2 ^ 30 | .q64 => 16 * 2 ^ 30

/-- External-memory bandwidth in MB/s (R11). -/
def Member.extMBs : Member → Nat
  | .q4 => 12800 | .q16 => 25600 | .q32 => 25600 | .q64 => 51200

/-- Maximum package power in mW (R73). -/
def Member.maxMw : Member → Nat
  | .q4 => 900 | .q16 => 3000 | .q32 => 5500 | .q64 => 10000

/-- Domain d is implemented (R11, R12). -/
def Member.hasDomain (m : Member) (d : Nat) : Bool :=
  if d < 10 then (if d = 3 ∨ d = 9 then m != .q4 else true) else decide (d < 10 + m.quads)

/-- Every domain implemented, as the bits of PW_DOM_PRESENT (R90). -/
def Member.present (m : Member) : Nat := ofSet ((List.range 26).filter m.hasDomain)

/-- The member of the part. -/
def State.member (s : State) : Member := s.part.member

/-- Mesh column of tile t (R17). -/
def State.tileX (s : State) (t : Nat) : Nat := t % s.member.cols

/-- Mesh row of tile t (R17). -/
def State.tileY (s : State) (t : Nat) : Nat := t / s.member.cols

/-- The quad of tile t (R17). -/
def State.quadOf (s : State) (t : Nat) : Nat := s.tileY t / 2 * (s.member.cols / 2) + s.tileX t / 2

/-- The tiles of quad q (R17). -/
def State.quadTiles (s : State) (q : Nat) : List Nat :=
  (List.range s.member.tiles).filter fun t => s.quadOf t = q

/-- The role a tile has taken (R16, R138): 0 OFF, 1 SPIKE, 2 DENSE. -/
def State.role (s : State) (t : Nat) : Nat := s.roles.getD t 0

/-- Give a tile a role. -/
def State.setRole (s : State) (t r : Nat) : State := s.modRoles (·.set t r)

/-! ## Time, pace and timers (R9, R10, R35, R37) -/

/-- DEVTIME in µs. DESIGN CHOICE (notes/assumptions/31.md). -/
def State.us (s : State) : Nat := s.devtime / 1000

/-- P_guard, 4.12 (R37): the largest P_dev of the last 8 intervals. -/
def State.pguard (s : State) : Nat :=
  match s.keeper.paceHist with
  | [] => s.reg R.pcPacePace
  | h :: t => t.foldl max h

/-- A time of ns at pace 1.00, at P_guard, in whole ns rounded up (R10, R37). DESIGN CHOICE (notes/assumptions/70.md). -/
def State.scaled (s : State) (ns : Nat) : Nat := ceilDiv (ns * s.pguard) 4096

/-- Start or restart a timer that falls due `ns` from now. DESIGN CHOICE (notes/assumptions/10.md). -/
def State.arm (s : State) (t : Timer) (ns : Nat) : State := s.modTimers fun l => alPut l t (s.devtime + ns)

/-- Set a timer to a DEVTIME. DESIGN CHOICE (notes/assumptions/70.md). -/
def State.armAt (s : State) (t : Timer) (at_ : Nat) : State := s.modTimers fun l => alPut l t at_

/-- Stop a timer. DESIGN CHOICE (notes/assumptions/10.md). -/
def State.disarm (s : State) (t : Timer) : State := s.modTimers fun l => alDel l t

/-- Whether a timer runs. -/
def State.armed (s : State) (t : Timer) : Bool := (alGet s.timers t).isSome

/-- Whether a timer runs and its deadline has come. DESIGN CHOICE (notes/assumptions/10.md). -/
def State.due (s : State) (t : Timer) : Bool :=
  match alGet s.timers t with
  | some d => decide (d ≤ s.devtime)
  | none => false

/-- The frequency part of CORR now (R206, R209): on its way at its ramp, or where it goes. -/
def State.freqPart (s : State) : Int :=
  let m : Nat := (openDiv 206 ((s.tm.fRate * (s.devtime - s.tm.fAt) : Nat) : Int) 1000000000).toNat
  if s.tm.fFrom ≤ s.tm.fTo then min s.tm.fTo (s.tm.fFrom + m) else max s.tm.fTo (s.tm.fFrom - m)

/-- The phase part of CORR now (R206). -/
def State.phasePart (s : State) : Int := if s.devtime < s.tm.phUntil then s.tm.phRate else 0

/-- CORR in ppb (R203): the two parts, within ± 200,000 ppb. -/
def State.corr (s : State) : Int := max (-200000) (min 200000 (s.freqPart + s.phasePart))

/-- INC × (1 + CORR) of R203 in units of 2^-32 ns; where the product is no whole number of units, its rounding
is open. -/
def State.increment (s : State) : Nat :=
  let inc : Int := 26 * 2 ^ 32 + 0x0AAAAAAB
  let p := inc * (1000000000 + s.corr)
  let q := p / 1000000000
  (if p % 1000000000 ≠ 0 ∧ Config.incRound p = true then q + 1 else q).toNat

/-- DEVTIME runs: out of reset, and the crystal has not failed (R203, R223). -/
def State.clockRuns (s : State) : Bool := s.keeper.mode ≠ .reset && !(s.flag R.tmStatusXtalFail)

/-- CAM_SYNC falls 10 µs after it rose (R213). DESIGN CHOICE (notes/assumptions/1.md). -/
def State.camSyncFalls (s : State) : State :=
  if s.due .camSync then (s.disarm .camSync).modPins fun p => { p with camSync := .low } else s

/-- One cycle of the 38.4 MHz crystal (R203). DESIGN CHOICE (notes/assumptions/1.md). -/
def State.crystalCycle (s : State) : State :=
  if s.clockRuns then
    let f := s.frac + s.increment
    let c := s.corr
    (((s.modTm fun t => { t with corrSum := t.corrSum + c, corrN := t.corrN + 1 }).modFrac fun _ => f % 2 ^ 32).modDevtime fun d =>
      (d + f / 2 ^ 32) % 2 ^ 64).camSyncFalls
  else s

/-! ## Modes and domains (R70, R94, R108) -/

/-- In run (R95). -/
def State.inRun (s : State) : Bool := s.keeper.mode = .run

/-- In GESSO (R108). -/
def State.inGesso (s : State) : Bool := s.keeper.mode = .gesso

/-- Out of reset: Keeper runs. -/
def State.alive (s : State) : Bool := s.keeper.mode ≠ .reset

/-- Domain d is on and ready (R90). -/
def State.domOn (s : State) (d : Nat) : Bool := bitAt (s.reg R.pwDomStateOn) d

/-- Domain d is waking (R70). -/
def State.waking (s : State) (d : Nat) : Bool := s.keeper.switching.contains (d, true)

/-- The domain that holds an endpoint (R70, R231); PD00 for Keeper and the ledger head. DEDUCED (notes/assumptions/19.md). -/
def State.epDomain (s : State) (ep : Nat) : Nat :=
  if ep = 1 ∨ ep = 2 then 2
  else if ep = 3 ∨ ep = 4 ∨ ep = 5 ∨ ep = 6 then 3
  else if ep = 8 ∨ ep = 9 ∨ ep = 0x70 then 1
  else if ep = 0x10 ∨ ep = 0x60 then 5
  else if 0x20 ≤ ep ∧ ep ≤ 0x5F then 10 + s.quadOf (ep - 0x20)
  else if ep = 0x62 then 7
  else if ep = 0x63 ∨ ep = 0x64 then 8
  else if 0x68 ≤ ep ∧ ep ≤ 0x6B then 9
  else if ep = 0x61 ∨ ep = 0x7F then 4
  else 0

/-- An endpoint's domain serves its queues: it is on or waking (R72, R84). -/
def State.epServed (s : State) (ep : Nat) : Bool := s.domOn (s.epDomain ep) || s.waking (s.epDomain ep)

/-! ## Interrupts (R436) and trace -/

/-- A cause of MSI-X vector v (R436): its bit of HI_IRQ_STATUS is set, and a message is sent when the bit
rises, HI_IRQ_MASK does not mask it and the link is up. PRESUMED (notes/assumptions/32.md). -/
def State.vector (s : State) (v : Nat) : State :=
  let rises := !(bitAt (s.reg R.hiIrqStatusVec) v)
  let sent := rises && !(bitAt (s.reg R.hiIrqMaskVec) v) && s.flag R.hiStatusLinkUp
  let s1 := s.setRegBit R.hiIrqStatusVec v true
  if sent then s1.modHi fun h => { h with messages := h.messages ++ [v] } else s1

/-! ## Items (R24, R25) -/

/-- An item is created: it is live from now until it ends (R25, R26, R470). DESIGN CHOICE (notes/assumptions/69.md). -/
def State.create (s : State) (i : ItemId) : State :=
  s.modLg fun l => { l with items := alPut l.items i s.devtime }

/-- The item that the next one of a stream will be (R25). DESIGN CHOICE (notes/assumptions/69.md). -/
def State.nextItem (s : State) (stream : Nat) : ItemId := mkItem stream ((alGet s.lg.seqs stream).getD 0)

/-- Count one item of a stream and create it (R25). DESIGN CHOICE (notes/assumptions/69.md). -/
def State.takeItem (s : State) (stream : Nat) : State :=
  (s.create (s.nextItem stream)).modLg fun l =>
    { l with seqs := alPut l.seqs stream (((alGet l.seqs stream).getD 0 + 1) % 2 ^ 24) }

/-- A host write of 1 sets a W1S bit, and a written 0 leaves it (R7); a HANG clears it where its row says so.
DESIGN CHOICE (notes/assumptions/15.md). -/
def State.setCmd (s : State) (r : Row) (i : Nat := 0) (v : Nat := 1) : State :=
  if s.alive then s.setReg r (s.reg r i ||| v) i else s

/-- An item is live. -/
def State.live (s : State) (i : ItemId) : Bool := (alGet s.lg.items i).isSome

/-! ## External memory (R11, R480) -/

/-- An access of n bytes at a lies inside the installed capacity. -/
def State.extOk (s : State) (a n : Nat) : Bool := decide (a + n ≤ s.member.extBytes)

end Sys2Proof.Machine
end

