-- ==== Sys2Proof/Machine/QueueOps.lean ====
section
/-! DEFINITION. The PALETTE's named operations: allocation, push, drop and gap marker, pop, take, free
(R226 to R246), that every producer and consumer shares. -/
namespace Sys2Proof.Machine

/-- The runtime part of queue q. -/
def State.queue (s : State) (q : Nat) : Queue := (alGet s.pal.queues q).getD {}

/-- Change the runtime part of queue q. -/
def State.modQueue (s : State) (q : Nat) (f : Queue → Queue) : State :=
  s.modPal fun p => { p with queues := alMod p.queues q {} f }

/-- Queue q exists: present or retired (R133, R140). -/
def State.hasQueue (s : State) (q : Nat) : Bool := s.flag R.qmQCfgPresent q || s.flag R.qmQCfgRetired q

/-- The queues that have a runtime part. -/
def State.queueIds (s : State) : List Nat := s.pal.queues.map (·.1)

/-- Depth: cells whose STATE is queued; the marker cell does not count (R232). -/
def Queue.depth (q : Queue) : Nat := (q.cells.filter fun c => !c.marker).length

/-- Depth of queue q (R232). -/
def State.depth (s : State) (q : Nat) : Nat := (s.queue q).depth

/-- The gap marker of the queue is linked (R235). -/
def Queue.markerIn (q : Queue) : Bool := q.cells.any (·.marker)

/-- Cells reserved as markers for staged or loading queues (R133). -/
def State.stagedMarkers (s : State) : List Nat :=
  let m := fun (o : Option Easel) => match o with | some e => e.markers.map (·.2) | none => []
  m s.cv.easel ++ m s.cv.loading

/-- Every cell that is not on the free list (R226). -/
def State.usedCells (s : State) : List Nat :=
  (s.pal.queues.flatMap fun e => e.2.markerIdx :: (e.2.cells.filter fun c => !c.marker).map (·.idx)) ++
  s.pal.held.map (·.idx) ++ s.pal.lost ++ s.stagedMarkers

/-- Cells on the free list; none while it is being rebuilt (R252, R253). -/
def State.freeCells (s : State) : Nat :=
  if s.flag R.qmStatusRebuild then 0 else s.member.cells - s.usedCells.length

/-- The first index from i, cyclically among n, that is not used. -/
def firstFree : Nat → List Nat → Nat → Nat → Nat
  | 0, _, _, i => i
  | k + 1, used, n, i => if used.contains i then firstFree k used n ((i + 1) % n) else i

/-- The cell that an allocation takes from the free list: which one is free (R233). DESIGN CHOICE (notes/assumptions/5.md). -/
def State.pickFree (s : State) : Nat :=
  let n := s.member.cells
  firstFree s.usedCells.length s.usedCells n (Config.pickCell s.freeCtr % n)

/-- QM_POOL_LOW.MIN follows the lowest FREE (R253). -/
def State.poolLow (s : State) : State :=
  if s.freeCells < s.reg R.qmPoolLowMin then s.setReg R.qmPoolLowMin s.freeCells else s

/-- XOFF[n] follows the watermark states and the hold of both packet buffers (R190); low in reset and GESSO (R61). -/
def State.xoffLevel (s : State) (n : Nat) : Bool :=
  s.alive && !s.inGesso &&
  ((s.queueIds.any fun q => bitAt (s.reg R.qmQCfgXoff q) n && (s.queue q).highState) ||
   (bitAt (s.reg R.eiXoffBufEn) n && decide (2 ≤ ((s.ei.ports.getD n {}).bufs).length)))

/-- The balls XOFF[3:0] take the present levels (R61, R190); not driven in reset and after a trip (R87). -/
def State.xoffPins (s : State) : State :=
  s.modPins fun p => { p with xoff := (List.range 4).map fun n =>
    if s.keeper.mode = .reset ∨ s.keeper.mode = .tripped then .z else if s.xoffLevel n then .high else .low }

/-- EI_XOFF.STATE and the balls take the present levels (R61, R190). -/
def State.refreshXoff (s : State) : State :=
  (s.setReg R.eiXoffState (ofSet ((List.range 4).filter s.xoffLevel))).xoffPins

/-- After a push or a pop the high-watermark state follows the depth (R232), and XOFF follows it (R190). -/
def State.watermark (s : State) (q : Nat) : State :=
  let d := s.depth q
  let h := if s.reg R.qmQHighHigh q ≤ d then true
    else if d ≤ s.reg R.qmQLowLow q then false else (s.queue q).highState
  (s.modQueue q fun x => { x with highState := h }).refreshXoff

/-- Vector 4 is raised whenever a gap marker is linked in queue 0x1FF (R463). -/
def State.markerVector (s : State) (q : Nat) : State := if q = 511 then s.vector 4 else s

/-- A push of queue q is dropped: gap marker and accumulator (R235, R236). While the queue is severing every
drop goes to the accumulator (R250). -/
def State.dropPush (s : State) (q : Nat) : State :=
  let s := s.bump R.qmQDropsCount q
  let x := s.queue q
  let t := s.us
  if !x.severing && !x.markerIn then
    let c : Cell := { idx := x.markerIdx, data := gapMarker t t 0 1, dp := parity 64 (gapMarker t t 0 1).toNat,
                      marker := true }
    (s.modQueue q fun x =>
      { x with cells := x.cells ++ [c], markerOpen := true, gapFirst := t, markerBad := false }).markerVector q
  else if !x.severing && x.markerOpen then
    let n := gapCount ((x.cells.getLast?.map (·.data)).getD 0) + 1
    let d := gapMarker x.gapFirst t 0 n
    s.modQueue q fun x =>
      { x with cells := x.cells.map fun c => if c.marker then { c with data := d, dp := parity 64 d.toNat } else c,
               markerOpen := decide (n < 0xFFFFF) }
  else
    let first := if s.reg R.qmQGapCount q = 0 then t else x.accFirst
    (s.bumpSat R.qmQGapCount q).modQueue q fun x => { x with accFirst := first, accLast := t }

/-- The step whose command an item is (R163, R339): the plan's items carry it. -/
def State.itemStep (s : State) (item : ItemId) : Nat :=
  let n := s.reg R.ppStepCount
  if 0x10 ≤ streamOf item ∧ streamOf item ≤ 0x1F then n - (n + 65536 - seqOf item / 256) % 65536 else n

/-- The wait of at most G_US runs for the earliest cycle to come that it has not ended (R341). -/
def State.gatherTimer (s : State) : State :=
  match s.fu.waits.find? fun w => !(s.fu.expired.any (·.step == w.1)) with
  | some w => s.armAt .gather (w.2 + 1000 * s.reg R.fuAlignGUs)
  | none => s.disarm .gather

/-- The first command of a step's fusion cycle is admitted when it lands in CMD_QID (R341): the wait of at most G_US begins.
DESIGN CHOICE (notes/assumptions/50.md). -/
def State.gatherStarts (s : State) (q : Nat) (item : ItemId) : State :=
  let k := s.itemStep item
  if s.flag R.fuCtrlEn && q == s.reg R.fuCtrlCmdQid && s.fu.cycleStep != some k && !(s.fu.waits.any (·.1 == k)) then
    let now := s.devtime
    (s.modFu fun u => { u with waits := u.waits ++ [(k, now)] }).gatherTimer
  else s

/-- A cell lands at the tail of queue q (R233); it closes an open marker (R235). -/
def State.landCell (s : State) (q : Nat) (data : Cell64) (item : ItemId) (eop epm : Bool) : State :=
  let c : Cell := { idx := s.pickFree, data := data, dp := parity 64 data.toNat, item := item, eop := eop, epm := epm }
  ((((s.modQueue q fun x => { x with cells := x.cells ++ [c], markerOpen := false }).tick).poolLow).watermark q).gatherStarts q item

/-- A retired queue that is empty releases its cells and its marker (R140). -/
def State.releaseRetired (s : State) (q : Nat) : State :=
  if s.flag R.qmQCfgRetired q && (s.queue q).cells.isEmpty then
    let s := s.modPal fun p => { p with queues := alDel p.queues q }
    ([R.qmQCfgQuota, R.qmQCfgClass, R.qmQCfgXoff, R.qmQCfgPresent, R.qmQCfgRetired, R.qmQHighHigh, R.qmQLowLow,
      R.qmQEpProd, R.qmQEpCons, R.qmQGapCount].foldl (fun s r => s.setReg r 0 q) s).refreshXoff
  else s

/-- The consumer has popped the marker: a non-zero accumulator is written into it at once (R235). -/
def State.relinkMarker (s : State) (q : Nat) : State :=
  let n := s.reg R.qmQGapCount q
  if n = 0 then s else
    let x := s.queue q
    let d := gapMarker x.accFirst x.accLast 0 n
    let c : Cell := { idx := x.markerIdx, data := d, dp := parity 64 d.toNat, marker := true }
    ((s.setReg R.qmQGapCount 0 q).modQueue q fun x =>
      { x with cells := x.cells ++ [c], markerOpen := decide (n < 0xFFFFF), gapFirst := x.accFirst, markerBad := false }).markerVector q

/-- The item of a delivered cell: an EOP cell names it in its word (R230, R239); every other cell, and a poisoned one,
belongs to the item that its push named (R233). -/
def Cell.itemSeen (c : Cell) (tag : Nat) : ItemId := if c.eop && tag == 0 then cellItem c.data else c.item

/-- What is known of poisoned cells of an item goes over to the item that its EOP cell names (R239). -/
def State.renameItem (s : State) (a b : ItemId) : State :=
  if a = b then s else s.modPal fun p => { p with poisoned := p.poisoned.map fun i => if i = a then b else i }

/-- The head cell of queue q is delivered to endpoint ep (R237, R239). A marker cell is delivered with tag
MARKER and stays the queue's own, also on a TAKE. -/
def State.deliverHead (s : State) (q ep : Nat) (take : Bool) : State :=
  match (s.queue q).cells with
  | [] => s
  | c :: rest =>
    let tag := if parity 64 c.data.toNat != c.dp then 1 else if c.marker then 2 else 0
    let s := s.modQueue q fun x =>
      { x with cells := rest, stalled := none, markerOpen := x.markerOpen && !c.marker,
               dropPend := x.dropPend && !c.eop && !c.marker,
               markerBad := if c.marker then tag == 1 else x.markerBad }
    let dl : Delivery :=
      { ep := ep, qid := q, data := c.data, tag := tag, eop := c.eop, epm := c.epm, item := if q = 0x1FF then c.item else c.itemSeen tag, idx := c.idx }
    let s := (s.renameItem c.item dl.item).modPal fun p => { p with delivered := some dl }
    let s := if c.marker then s.relinkMarker q
      else if take then
        let h : HeldCell := { idx := c.idx, qid := q, data := c.data, dp := c.dp, item := dl.item, eop := c.eop,
                               epm := c.epm, lpOk := c.lpOk }
        (s.modPal fun p => { p with held := p.held ++ [h] }).bump R.qmHoldHeld ep
      else s
    (s.watermark q).releaseRetired q

/-- Answers of the palette to a push (R231, R233). -/
inductive PushRes where
  | landed | dropped | refused
  deriving DecidableEq, Repr

/-- A push goes straight to the reader that a POP of the empty queue q has left stalled; it takes no cell (R237, R243). -/
def State.direct (s : State) (q : Nat) : Bool :=
  (s.queue q).cells.isEmpty && match (s.queue q).stalled with
    | some (_, take) => !take
    | none => false

/-- A push at full (R233): the depth has reached QUOTA, the queue is retired (R140), its consumer's domain is
off (R84), or no cell is free where the push needs one. -/
def State.pushFull (s : State) (q : Nat) : Bool :=
  s.flag R.qmQCfgRetired q || !(s.epServed (s.reg R.qmQEpCons q)) ||
  decide (s.reg R.qmQCfgQuota q ≤ s.depth q) || (s.freeCells == 0 && !(s.direct q))

/-- What a push of one cell is answered (R231, R233, R240, R246, R250). -/
def State.pushRes (s : State) (ep q : Nat) (eop epm : Bool) : PushRes :=
  if !(s.domOn 4) || !(s.hasQueue q) || ep != s.reg R.qmQEpProd q then .refused
  else if (s.queue q).severing then .dropped
  else if (s.queue q).dropPend then
    (if !(eop || epm) then .landed else if s.freeCells == 0 then .dropped else .landed)
  else if s.pushFull q then .dropped else .landed

/-- A pop or take waits (R237, R238, R247). -/
def State.popWaits (s : State) (ep q : Nat) (take : Bool) : Bool :=
  (s.queue q).severing || (s.queue q).cells.isEmpty ||
  (take && decide (s.reg R.qmHoldLimit ep ≤ s.reg R.qmHoldHeld ep))

/-- A drop-remainder command of the plan waits at queue q (R157, R240, R241). -/
def State.dropWaits (s : State) (q : Nat) : Bool :=
  s.pp.ops.any fun o => o.cls == 3 && bits o.word 27 24 == 2 && bits o.word 36 28 == q && !o.done

/-- The cell at the head of queue q goes to the drop-remainder command that waits for it in DROP_PEND (R240, R246).
DESIGN CHOICE (notes/assumptions/35.md). -/
def State.toDropper (s : State) (q : Nat) : State :=
  if !(s.dropWaits q) then s
  else
    let s := s.deliverHead q (s.reg R.qmQEpCons q) false
    match s.pal.delivered with
    | some d => s.modPal fun p => { p with dropOut := p.dropOut ++ [d] }
    | none => s

/-- A cell is handed to the reader that waits at the empty queue q, and takes no place in the pool (R237, R243). -/
def State.handOver (s : State) (q : Nat) (data : Cell64) (item : ItemId) (eop epm : Bool) (ep : Nat) : State :=
  let c : Cell := { idx := s.pickFree, data := data, dp := parity 64 data.toNat, item := item, eop := eop, epm := epm }
  ((s.modQueue q fun x => { x with cells := [c] }).tick).deliverHead q ep false

/-- A push of one cell of an item by endpoint ep into queue q (R233). A cell goes straight to a stalled reader (R237, R243); in
DROP_PEND an EOP or EPM cell, and the gap marker where it is dropped, go to the waiting command (R240, R246). -/
def State.push (s : State) (ep q : Nat) (data : Cell64) (item : ItemId) (eop epm : Bool) : State :=
  let note := fun (s : State) => s.modQueue q fun x => { x with lastEop := eop }
  match s.pushRes ep q eop epm with
  | .refused => s.setReg R.qmStatusWrongEp 1
  | .dropped =>
    let pend := (s.queue q).dropPend && !(s.queue q).severing
    let s := (note s).dropPush q
    if pend then s.toDropper q else s
  | .landed =>
    let s := note s
    if (s.queue q).dropPend then
      (if !(eop || epm) then s.bump R.qmQEvtDropRem q else (s.landCell q data item eop epm).toDropper q)
    else
      match (s.queue q).stalled with
      | some (e, take) =>
        if s.direct q then s.handOver q data item eop epm e
        else
          let s := s.landCell q data item eop epm
          if s.popWaits e q take then s else s.deliverHead q e take
      | none => s.landCell q data item eop epm

/-- Push the cells of an item; the last one with EOP where `eop` says so. Answers whether every cell landed. -/
def State.pushAll (s : State) (ep q : Nat) (item : ItemId) (eop : Bool) : List Cell64 → Bool × State
  | [] => (true, s)
  | c :: t =>
    let last := eop && t.isEmpty
    let ok := decide (s.pushRes ep q last false = .landed)
    let r := (s.push ep q c item last false).pushAll ep q item eop t
    (ok && r.1, r.2)

/-- A pop by endpoint ep is allowed (R231). -/
def State.popAllowed (s : State) (ep q : Nat) : Bool :=
  s.domOn 4 && s.hasQueue q && ep == s.reg R.qmQEpCons q

/-- The endpoint's waiting TAKEs are served, oldest queue first (R238). -/
def State.serveTakes (s : State) (ep : Nat) : State :=
  s.queueIds.foldl (fun s q =>
    if (s.queue q).stalled = some (ep, true) && !(s.popWaits ep q true) then s.deliverHead q ep true else s) s

/-- Answers of the palette to a FREE (R238, R245). -/
inductive FreeRes where
  | ok | doubleFree | ownerFree
  deriving DecidableEq, Repr

/-- What a FREE of a cell is answered (R238, R245). -/
def State.freeRes (s : State) (ep cell : Nat) : FreeRes :=
  match s.pal.held.find? (·.idx = cell) with
  | some h => if s.reg R.qmQEpCons h.qid = ep then .ok else .ownerFree
  | none => if s.usedCells.contains cell then .ownerFree else .doubleFree

/-- An accepted FREE (R238). -/
def State.freeHeld (s : State) (ep cell : Nat) : State :=
  let s := s.modPal fun p => { p with held := p.held.filter (·.idx ≠ cell) }
  (s.setReg R.qmHoldHeld (s.reg R.qmHoldHeld ep - 1) ep).serveTakes ep

/-- The epoch of the last marker that producer ep wrote into queue q (R217). -/
def State.markOf (s : State) (ep q : Nat) : Option Nat := alGet s.pal.marks (ep, q)

/-- Markers whose (endpoint, queue) satisfies f are forgotten, so that one goes before the next cell there: a queue is
created, or a port enabled (R217). -/
def State.forgetMarks (s : State) (f : Nat × Nat → Bool) : State :=
  s.modPal fun p => { p with marks := p.marks.filter fun e => !(f e.1) }

/-- Producer ep writes an epoch marker into queue q before a cell of an epoch, where the last one that it wrote there
differs; a dropped one is written again before the next cell (R189, R217). -/
def State.epochMark (s : State) (ep q port epoch : Nat) (item : ItemId) : State :=
  if s.markOf ep q = some epoch then s
  else
    let ok := decide (s.pushRes ep q false true = .landed)
    (s.push ep q (epochCell port epoch) item false true).modPal fun p =>
      { p with marks := if ok then alPut p.marks (ep, q) epoch else alDel p.marks (ep, q) }

/-- Queue q is created empty, its marker cell reserved (R133, R140). -/
def State.createQueue (s : State) (r : QueueRec) (marker : Nat) : State :=
  let s := s.forgetMarks fun k => k.2 == r.qid
  let s := s.modPal fun p => { p with queues := alPut p.queues r.qid { markerIdx := marker } }
  let put := fun (s : State) (x : Row × Nat) => s.setReg x.1 x.2 r.qid
  ([(R.qmQCfgQuota, r.quota), (R.qmQCfgClass, r.cls), (R.qmQCfgXoff, r.xoff), (R.qmQCfgPresent, 1),
    (R.qmQCfgRetired, 0), (R.qmQHighHigh, r.high), (R.qmQLowLow, r.low), (R.qmQEpProd, r.prod),
    (R.qmQEpCons, r.cons), (R.qmQGapCount, 0)].foldl put s).poolLow

/-- A queue of both CANVASes takes the new limits and keeps its contents (R140). -/
def State.updateQueue (s : State) (r : QueueRec) : State :=
  let put := fun (s : State) (x : Row × Nat) => s.setReg x.1 x.2 r.qid
  [(R.qmQCfgQuota, r.quota), (R.qmQCfgClass, r.cls), (R.qmQCfgXoff, r.xoff), (R.qmQCfgPresent, 1),
    (R.qmQHighHigh, r.high), (R.qmQLowLow, r.low)].foldl put s

/-- A queue of the old CANVAS only is retired (R140). -/
def State.retireQueue (s : State) (q : Nat) : State :=
  ((s.setReg R.qmQCfgPresent 0 q).setReg R.qmQCfgRetired 1 q).releaseRetired q

/-- Queue 0x1FF as Keeper creates it when PD04 powers up (R463). -/
def State.createLedgerQueue (s : State) : State :=
  let m := s.pickFree
  (s.createQueue { qid := 511, cls := 0, xoff := 0, quota := 1024, high := 768, low := 256, prod := 0x0E,
                   cons := 0x70 } m).tick

/-- PD04 loses its contents (R70): cells, queues, descriptors, palette registers. -/
def State.clearPalette (s : State) : State :=
  ((s.modPal fun _ => {}).clearRegs 0x600000 0x700000).refreshXoff

end Sys2Proof.Machine
end

