-- ==== Sys2Proof/Machine/LedgerOps.lean ====
section
/-! DEFINITION. The ledger head's and the fault stack's named operations: endings of items, records, raises
of faults, the quiesce (R455 to R473), and the alarm sentences that they send (R443, R444). -/
namespace Sys2Proof.Machine

/-! Reason codes (R457). -/

/-- Rank of a terminal reason in R461, 1 the most specific; 14 for a code without a rank. -/
def reasonRank : Nat → Nat
  | 0x02 => 1 | 0x13 => 2 | 0x0E => 3 | 0x04 => 4 | 0x03 => 5 | 0x01 => 6 | 0x0F => 7 | 0x12 => 8
  | 0x0D => 9 | 0x05 => 10 | 0x06 => 11 | 0x11 => 12 | 0x14 => 13 | _ => 14

/-- Cell 0 of a record (R455). -/
def recordCell (item : ItemId) (reason stage flags : Nat) : Cell64 :=
  BitVec.ofNat 64 (item.toNat + reason % 256 * 2 ^ 32 + stage % 256 * 2 ^ 40 + flags % 2 ^ 16 * 2 ^ 48)

/-- The history copy of a record (R464): slot NEXT of LG_HIST. -/
def State.copyHistory (s : State) (c0 c1 : Nat) : State :=
  let n := s.reg R.lgHistPosNext
  let w := fun (s : State) (j v : Nat) => s.setReg R.lgHistWord v n j
  let s := w (w (w (w s 0 c0) 1 (c0 / 2 ^ 32)) 2 c1) 3 (c1 / 2 ^ 32)
  (s.setReg R.lgHistPosNext (n + 1)).bump R.lgHistPosTotal

/-- The head pushes one record into queue 0x1FF: cell 0, and cell 1 only if cell 0 landed (R462). It is
counted (R477), copied to the history (R464), due as a trace packet (R446), and vector 4 follows the depth (R463). -/
def State.pushRecord (s : State) (item : ItemId) (reason stage flags time : Nat) : State :=
  let c0 := recordCell item reason stage flags
  let c1 : Cell64 := BitVec.ofNat 64 time
  let s := (s.bump R.lgCntCount 0).copyHistory c0.toNat c1.toNat
  let s := if reason = 0 then s.bump R.lgCntCount 1 else s
  let s := if reason ≤ 0x14 then s.bump R.lgReasonCount reason else s
  let before := s.depth 511
  let s :=
    if s.pushRes 0x0E 511 false false = .landed then
      let s := s.push 0x0E 511 c0 0 false false
      let ok := decide (s.pushRes 0x0E 511 false false = .landed)
      let s := s.push 0x0E 511 c1 0 false false
      if ok then s else s.bump R.lgCntCount 2
    else (s.push 0x0E 511 c0 0 false false).bump R.lgCntCount 2
  let s := if s.domOn 1 && s.flag R.hiTraceEn && s.flag R.hiTraceLedger then
      s.modHi fun h => { h with traceDue := h.traceDue ++ [(1, leBytes 8 c0.toNat ++ leBytes 8 c1.toNat)] } else s
  let irq := s.reg R.lgCtrlIrqDepth
  if before < irq ∧ irq ≤ s.depth 511 then s.vector 4 else s

/-- An informational record is pushed on admission and ends nothing (R26, R461). DESIGN CHOICE (notes/assumptions/11.md). -/
def State.inform (s : State) (item : ItemId) (reason stage flags : Nat) : State :=
  s.pushRecord item reason stage flags s.devtime

/-- An ID is in the ended table (R459). -/
def State.hasEnded (s : State) (item : ItemId) : Bool := s.lg.ended.contains item

/-- The ended table takes one more ID and keeps the 16,384 most recent (R459); the item is live no more.
DESIGN CHOICE (notes/assumptions/22.md). -/
def State.markEnded (s : State) (item : ItemId) : State :=
  s.modLg fun l => { l with ended := (item :: l.ended).take 16384, items := alDel l.items item }

/-- A completion notice reaches the ledger head (R30, R459, R465). DESIGN CHOICE (notes/assumptions/11.md). -/
def State.complete (s : State) (item : ItemId) (block : Nat) : State :=
  if s.hasEnded item then s.bump R.lgCntCount 4
  else
    let s := s.markEnded item
    let st := streamOf item
    if bitAt (s.reg R.lgLogOkStreams (st / 32)) (st % 32) then s.inform item 0 block 0 else s

/-- A terminal report reaches the ledger head (R30, R459 to R461): it ends the item and is held for COALESCE,
or it meets a held record of the item, or it is discarded. DESIGN CHOICE (notes/assumptions/11.md). -/
def State.report (s : State) (item : ItemId) (reason stage flags : Nat) : State :=
  match s.lg.held.find? (·.item = item) with
  | some h =>
    let s := s.bump R.lgCntCount 3
    if reasonRank reason < reasonRank h.reason then
      s.modLg fun l => { l with held := l.held.map fun r =>
        if r.item = item then { r with reason := reason, stage := stage, flags := flags, time := s.devtime } else r }
    else s
  | none =>
    if s.hasEnded item then s.bump R.lgCntCount 4
    else
      let s := s.markEnded item
      let s := s.modLg fun l => { l with held := l.held ++
        [{ item := item, reason := reason, stage := stage, flags := flags, time := s.devtime }] }
      s.arm (.coalesce item) (s.scaled 2000)

/-- Report every item of a list with one reason. -/
def State.reportAll (s : State) (items : List ItemId) (reason stage flags : Nat) : State :=
  items.foldl (fun s i => s.report i reason stage flags) s

/-- The held records whose hold has ended are pushed in order of first admission (R460); with DEVTIME stopped (R223) at
once. DESIGN CHOICE (notes/assumptions/22.md). -/
def State.pushHeld (s : State) : State :=
  s.lg.held.foldl (fun s r =>
    if s.due (.coalesce r.item) || !s.clockRuns then
      ((s.modLg fun l => { l with held := l.held.filter (·.item ≠ r.item) }).disarm (.coalesce r.item)).pushRecord
        r.item r.reason r.stage r.flags r.time
    else s) s

/-! ## Alarm sentences (R442 to R444) -/

/-- The characters of a decimal number. -/
def decimal (n : Nat) : List Byte := (Nat.toDigits 10 n).map fun c => BitVec.ofNat 8 c.toNat

/-- A decimal number with at least n digits. -/
def decimalPad (n v : Nat) : List Byte :=
  let d := decimal v
  List.replicate (n - d.length) 0x30 ++ d

/-- One hexadecimal digit, as a capital. -/
def hexDigit (v : Nat) : Byte := BitVec.ofNat 8 (if v % 16 < 10 then 0x30 + v % 16 else 0x37 + v % 16)

/-- Two hexadecimal digits. -/
def hex2 (v : Nat) : List Byte := [hexDigit (v / 16), hexDigit v]

/-- The characters of a text. -/
def chars (t : String) : List Byte := t.toList.map fun c => BitVec.ofNat 8 c.toNat

/-- The time field of a sentence: DEVTIME in seconds with three decimals (R443). DESIGN CHOICE (notes/assumptions/31.md). -/
def State.timeText (s : State) : List Byte :=
  decimal (s.devtime / 1000000000) ++ [0x2E] ++ decimalPad 3 (s.devtime / 1000000 % 1000)

/-- A whole sentence: dollar sign, body, asterisk, XOR checksum of the body, CR and LF (R442). -/
def sentenceText (body : List Byte) : List Byte :=
  [0x24] ++ body ++ [0x2A] ++ hex2 ((body.foldl (· ^^^ ·) 0).toNat) ++ [0x0D, 0x0A]

/-- The port begins its next sentence when it is free: alarm sentences go first (R444). A character takes ten bit times
(R442). DESIGN CHOICE (notes/assumptions/65.md). -/
def State.startSentence (s : State) : State :=
  if s.hi.sending.isSome then s else
    match s.hi.alarms with
    | [] => s
    | e :: t =>
      let n := ((e :: t).findIdx? (·.kind = 0)).getD 0
      let x := (e :: t).getD n e
      let baud := if s.flag R.hiAlarmBaud then 38400 else 4800
      (s.modHi fun h => { h with alarms := (e :: t).eraseIdx n, sending := some x }).arm .alarmSent
        (ceilDiv (x.text.length * 10 * 1000000000) baud)

/-- Queue a sentence: 0 alarm, 1 status, 2 message (R444). Answers whether it is queued.
DESIGN CHOICE (notes/assumptions/65.md). -/
def State.queueSentence (s : State) (kind : Nat) (body : List Byte) (cmd : Option Fetched) : Bool × State :=
  let e : Sentence := { kind := kind, text := sentenceText body, cmd := cmd }
  if !(s.flag R.hiAlarmEn) then (false, s)
  else if s.hi.alarms.length < 16 then (true, (s.modHi fun h => { h with alarms := h.alarms ++ [e] }).startSentence)
  else
    let s := s.bump R.hiCntCount 10
    match kind, s.hi.alarms.findIdx? (·.kind = 1) with
    | 0, some i => (true, s.modHi fun h => { h with alarms := h.alarms.eraseIdx i ++ [e] })
    | _, _ => (false, s)

/-- An alarm sentence: kind of cause and value (R443). nn counts 00 to 99 and wraps. DESIGN CHOICE (notes/assumptions/65.md). -/
def State.alarm (s : State) (k : String) (v : Nat) : State :=
  let nn := s.reg R.hiAlarmNn
  let body := chars "PQWXA," ++ decimalPad 2 nn ++ chars "," ++ chars k ++ chars "," ++ decimal v ++ chars "," ++
    s.timeText
  (s.setReg R.hiAlarmNn ((nn + 1) % 100)).queueSentence 0 body none |>.2

/-! ## Pins of Keeper (R75, R79, R80) -/

/-- READY and its view in PW_HB (R80, R90). -/
def State.setReady (s : State) (b : Bool) : State :=
  (s.modPins fun p => { p with ready := if b then .high else .low }).setFlag R.pwHbReady b

/-- FAULT_N asserted or released and its view in PW_HB (R79, R90). The pin is open-drain. -/
def State.setFaultN (s : State) (asserted : Bool) : State :=
  (s.modPins fun p => { p with faultN := if asserted then .low else .z }).setFlag R.pwHbFault asserted

/-! ## The quiesce (R471) -/

/-- The tile whose router discards (R146) is not asked here; a quiesce reports every live item that the block
table of R471 names: the packets and frames that ingress holds. -/
def State.ingressItems (s : State) : List ItemId :=
  (s.ei.ports.flatMap fun p => p.bufs.map (·.item)) ++
  (s.ei.thermal.filterMap fun t => t.map (·.item)) ++
  (match s.ei.aerPkt with | some p => [p.item] | none => [])

/-- Items whose EOP cell is queued or held (R471). -/
def State.paletteItems (s : State) : List ItemId :=
  (s.pal.queues.flatMap fun e =>
    if e.1 = 511 then [] else (e.2.cells.filter fun c => c.eop && !c.marker).map fun c => cellItem c.data) ++
  (s.pal.held.filter (·.eop)).map fun c => cellItem c.data

/-- Plan-stream items without a completed FINAL, and host commands awaiting a GO (R471). -/
def State.planItems (s : State) : List ItemId :=
  ((s.lg.items.map (·.1)).filter fun i => decide (0x10 ≤ streamOf i) && decide (streamOf i ≤ 0x1F)) ++
  (match s.pp.heldGo with | some g => [g.2] | none => [])

/-- Each population's current output item (R471): PP is the producer of its stream, so it is a plan-stream item. -/
def State.spikeItems (s : State) : List ItemId :=
  (((List.range 64).filter fun p => s.flag R.sfPopCfgEn p && s.reg R.sfPopItemId p != 0).map fun p =>
    BitVec.ofNat 32 (s.reg R.sfPopItemId p))

/-- Tokens in dispatch or awaiting results (R471). -/
def State.tokenItems (s : State) : List ItemId :=
  (s.xr.tokens.filter fun t => t.kept && t.result.isNone && !t.lost && !t.exited).map (·.item)

/-- Items that fusion has taken and not finished, and result sets being posted (R471). -/
def State.fusionItems (s : State) : List ItemId :=
  s.fu.partials.map (·.2.item) ++ s.fu.items.map (·.item) ++
  (s.lg.items.map (·.1)).filter fun i => decide (0x60 ≤ streamOf i) && decide (streamOf i ≤ 0x6F)

/-- Draws and images of the open and sealed frames (R471). -/
def State.renderItems (s : State) : List ItemId :=
  let f := fun (x : RFrame) => (x.draws.filter fun d => !d.ended).map (·.item) ++
    (match x.under with | some u => [u.1] | none => [])
  f s.rd.openF ++ (match s.rd.sealed with | some x => f x | none => [])

/-- The local item of an incoming item (R24, R412): `key` is the source chip, plus 4 for a token. -/
def rxLocal (key iseq : Nat) : ItemId := mkItem (if key < 4 then 0x80 + key else 0xC0 + (key - 4)) iseq

/-- Items not yet DELIVERED and partly received ones (R471). -/
def State.spanItems (s : State) : List ItemId :=
  s.sl.items.map (·.item) ++ s.sl.rx.flatMap fun e => e.2.inProgress.map fun x => rxLocal e.1 x.iseq

/-- Fetched commands without a response (R471), and the firmware loads that they started (R430). -/
def State.commandItems (s : State) : List ItemId :=
  ((s.lg.items.map (·.1)).filter fun i => streamOf i == 8 || streamOf i == 9) ++ s.hi.fwLoads.map (·.item)

/-- The block that produces a stream (R24, R456). -/
def producerBlock (st : Nat) : Nat :=
  if st = 0 then 0 else if st ≤ 6 then 3 else if st ≤ 9 then 0x0F else if st ≤ 0x1F then 7 else if st ≤ 0x5F then 0x0A
  else if st ≤ 0x6F then 0x0B else if st ≤ 0x75 then 0x0C else 0x0D

/-- Step 3 of the quiesce: every block reports the items it holds, STAGE its block number (R456, R471). Producers report what no
block holds any more (R458, R471). DESIGN CHOICE (notes/assumptions/23.md). -/
def State.quiesceReports (s : State) (reason flags : Nat) : State :=
  let s := s.reportAll s.ingressItems reason 3 flags
  let s := s.reportAll s.paletteItems reason 5 flags
  let s := s.reportAll s.planItems reason 7 flags
  let s := s.reportAll s.spikeItems reason 8 flags
  let s := s.reportAll s.tokenItems reason 0x0A flags
  let s := s.reportAll s.fusionItems reason 0x0B flags
  let s := s.reportAll s.renderItems reason 0x0C flags
  let s := s.reportAll s.spanItems reason 0x0D flags
  let s := s.reportAll s.commandItems reason 0x0F flags
  (s.lg.items.map (·.1)).foldl (fun s i => s.report i reason (producerBlock (streamOf i)) flags) s

/-- Cells held in all queues (R471). -/
def State.queuedCells (s : State) : Nat := (s.queueIds.map s.depth).foldl (· + ·) 0

/-- The palette pops every queue other than 0x1FF (R471); also the emptying of RESUME (R475). -/
def State.emptyQueues (s : State) : State :=
  (s.modPal fun p => { p with queues := p.queues.map fun e =>
    if e.1 = 511 then e else
      (e.1, { e.2 with cells := [], markerOpen := false, dropPend := false, highState := false, stalled := none }) }).refreshXoff

/-- What each block holds is given up after its reports (R471 steps 2 and 3): the plan processor issues
nothing more, ingress is closed, the renderer stops binning, no item is created. DESIGN CHOICE (notes/assumptions/23.md). -/
def State.stopWork (s : State) : State :=
  let s := s.emptyQueues
  let s := s.modPal fun p => { p with held := [], dropOut := [] }
  let s := s.modEi fun e => { e with ports := e.ports.map fun p => { p with bufs := [] }, thermal := [none, none],
                                     aerPkt := none }
  let s := s.modPp fun p => { p with ops := [], issued := [], scalar := none, heldGo := none, hostWait := none, loops := [] }
  let s := s.modXr fun x => { x with tokens := [], objects := [], home := [] }
  let s := (s.modFu fun f => { f with partials := [], items := [], cycleOpen := false, waits := [], expired := [] }).disarm .gather
  let s := s.rd.sides.foldl (fun (s : State) x => s.setReg R.deTStatWindow 0 x.tile) s
  let s := s.modRd fun r => { r with openF := { no := r.openF.no }, sealed := none, list := none, sides := [], prios := [] }
  let s := (s.setReg R.rdStatusSealed 0).setReg R.rdBinUsed 0
  let s := s.modSl fun x => { x with items := [], rx := x.rx.map fun e => (e.1, { e.2 with inProgress := [] }) }
  let s := s.modHi fun h => { h with fetched := [], dups := [], transfers := [], fwLoads := [],
                                      rspWait := [], spiWait := [], alarms := h.alarms.filter (·.kind ≠ 2) }
  let s := (s.modMesh fun _ => {}).setReg R.cvEpochDrainCount 0
  let s := s.setReg R.ppStatusRun 0
  s.setReg R.ppFencePending 0

/-- A quiesce is in progress or has led to its GESSO code: CAUSE is set until RESUME or reset (R472, R475).
DESIGN CHOICE (notes/assumptions/23.md). -/
def State.quiesced (s : State) : Bool := s.reg R.lgStatusCause ≠ 0

/-- Steps 1 to 3 of a quiesce (R471, R472): cause 1 storm, 2 watchdog, 3 severity 3. Step 4 follows at
QUIESCE_DONE within 1 ms + 8 ns for each queued cell at pace 1.00. DESIGN CHOICE (notes/assumptions/23.md). -/
def State.quiesce (s : State) (cause reason flags : Nat) : State :=
  if s.quiesced then s else
    let ns := s.scaled (1000000 + 8 * s.queuedCells)
    let s := ((s.setReg R.lgStatusCause cause).setReg R.lgStatusQuiescing 1).setFaultN true
    let s := s.alarm "FLT" 2
    let s := s.quiesceReports reason flags
    s.stopWork.arm .quiesce ns

/-! ## The fault stack (R466 to R473) -/

/-- The raises of the last 1 s of DEVTIME (R469). -/
def State.recentRaises (s : State) : List Nat := s.lg.raises.filter fun t => decide (s.devtime < t + 1000000000)

/-- Of two entries the one that Keeper handles first: higher severity, then earlier raise (R468). -/
def FaultEntry.before (a b : FaultEntry) : Bool := decide (b.sev < a.sev) || (a.sev == b.sev && decide (a.order < b.order))

/-- The pending entry that Keeper handles next (R468). DESIGN CHOICE (notes/assumptions/22.md). -/
def nextFault : List FaultEntry → Option FaultEntry
  | [] => none
  | e :: t =>
    match nextFault t with
    | none => if e.state = 1 then some e else none
    | some x => if e.state = 1 && e.before x then some e else some x

/-- Set the STATE of the entry in a slot. -/
def setFaultState (l : List FaultEntry) (slot st : Nat) : List FaultEntry :=
  l.map fun e => if e.slot = slot then { e with state := st } else e

/-- Keeper takes the next entry in hand when it has none, and suspends the one in hand for a pending entry of
higher severity (R468). DESIGN CHOICE (notes/assumptions/22.md). -/
def State.takeFault (s : State) : State :=
  match s.lg.faults.find? (·.state = 2), nextFault s.lg.faults with
  | _, none => s
  | none, some n => s.modLg fun l => { l with faults := setFaultState l.faults n.slot 2 }
  | some h, some n =>
    if h.sev < n.sev then
      (s.modLg fun l => { l with faults := setFaultState (setFaultState l.faults h.slot 1) n.slot 2 }).bump R.lgCntCount 8
    else s

/-- The lowest slot of the fault stack that holds no live entry. DESIGN CHOICE (notes/assumptions/22.md). -/
def State.freeFaultSlot (s : State) : Option Nat := (List.range 8).find? fun k => s.lg.faults.all (·.slot ≠ k)

/-- A storm begins (R469), unless a quiesce came first (R472). -/
def State.storm (s : State) : State := (s.bump R.lgCntCount 6).quiesce 1 0x11 0

/-- A fault is raised (R466, R469, R472): severity, BAR0 offset and lowest bit of the field that shows it, block.
DESIGN CHOICE (notes/assumptions/16.md). DESIGN CHOICE (notes/assumptions/22.md). -/
def State.raise (s : State) (off bit sev block : Nat) : State :=
  let s := s.modLg fun l => { l with raises := (l.raises.filter fun t => decide (s.devtime < t + 1000000000)) ++ [s.devtime] }
  let many := decide (65 ≤ s.lg.raises.length) && !s.quiesced
  let s := if s.quiesced && s.lg.raises.length == 65 then s.bump R.lgCntCount 6 else s
  match s.lg.faults.find? fun e => e.off == off && e.bit == bit with
  | some e =>
    let s := (s.modLg fun l => { l with faults := l.faults.map fun x =>
      if x.slot = e.slot then { x with rep := satTo 255 (x.rep + 1) } else x }).vector 3
    if many then s.storm else s
  | none =>
    if many then s.storm
    else match s.freeFaultSlot with
      | none => s.storm
      | some k =>
        let e : FaultEntry := { slot := k, time := s.devtime, off := off, bit := bit, sev := sev, state := 1,
                                block := block, rep := 0, order := s.lg.order }
        ((s.modLg fun l => { l with faults := l.faults ++ [e], order := l.order + 1 }).vector 3).takeFault

/-- A fault stack entry retires (R467, R473). -/
def State.retireFault (s : State) (k : Nat) : State :=
  (s.modLg fun l => { l with faults := l.faults.filter (·.slot ≠ k) }).vector 3

/-- The fault stack holds a fault of severity 2 or 3 (R79). -/
def State.badFault (s : State) : Bool := s.lg.faults.any fun e => decide (2 ≤ e.sev)

/-- FAULT_N is to be asserted (R79, R471): in GESSO for every code other than 1; in run while the fault stack holds a fault of
severity 2 or 3, or a quiesce is on; after a thermal trip. -/
def State.faultNShould (s : State) : Bool :=
  match s.keeper.mode with
  | .gesso => s.reg R.pwHbCode ≠ 1
  | .tripped => true
  | .run => s.badFault || s.quiesced
  | _ => false

end Sys2Proof.Machine
end

