-- ==== Sys2Proof/Machine/Registers.lean ====
section
/-! DEFINITION. Reads and writes of BAR0 words (R7, R8, R425, R478 to R483), and the commands REGISTER_WRITE,
DEVTIME_READ and WINDOWS_READ. -/
namespace Sys2Proof.Machine

/-- The element of a row that lies in the word at a BAR0 offset. -/
def Row.find (r : Row) (o : Nat) : Option (Nat × Nat) :=
  if o < r.off then none else
    let d := o - r.off
    let i := if r.s1 = 0 then 0 else if r.n2 ≤ 1 ∨ r.s2 ≤ r.s1 then d / r.s1 else 0
    let e := d - r.s1 * i
    let j := if r.s2 = 0 then 0 else e / r.s2
    if i < r.n1 ∧ j < r.n2 ∧ d = r.s1 * i + r.s2 * j then some (i, j) else none

/-- The field rows of the block that an offset lies in (R478). -/
def blockRows (o : Nat) : List Row :=
  if o < 0x100000 then R.kpRows else if o < 0x200000 then R.pcRows else if o < 0x300000 then R.pwRows
  else if o < 0x400000 then [] else if o < 0x500000 then R.eiRows else if o < 0x600000 then R.tmRows
  else if o < 0x700000 then R.qmRows else if o < 0x800000 then [] else if o < 0x900000 then R.cvRows
  else if o < 0xA00000 then R.ppRows else if o < 0xB00000 then R.sfRows else if o < 0xC00000 then R.deRows
  else if o < 0xD00000 then R.xrRows else if o < 0xE00000 then R.fuRows else if o < 0xF00000 then R.rdRows
  else if o < 0xF80000 then R.slRows else if o < 0xFC0000 then R.lgRows else R.hiRows

/-- An endpoint of this member, as a consumer or as a producer (R231, R481). DESIGN CHOICE (notes/assumptions/36.md). -/
def State.epExists (s : State) (ep : Nat) (cons : Bool) : Bool :=
  (decide (1 ≤ ep) && decide (ep ≤ s.member.ports)) || (decide (5 ≤ ep) && decide (ep < 5 + s.member.thermals)) ||
  [0x08, 0x09, 0x0C, 0x0E, 0x10, 0x60, 0x61, 0x62, 0x63, 0x64, 0x70].contains ep ||
  (decide (0x20 ≤ ep) && decide (ep < 0x20 + s.member.tiles)) ||
  (s.member.links != 0 && (ep == 0x68 || ep == 0x6A)) || (s.member.links == 2 && (ep == 0x69 || ep == 0x6B)) ||
  (cons && ep == 0x7F)

/-- The unit behind element i of a row exists on the member (R481) and, for a tile window, the tile has
taken the window's role (R479). -/
def State.unitLive (s : State) (u : RegUnit) (i : Nat) : Bool :=
  match u with
  | .any => true
  | .evPort => decide (i < s.member.ports)
  | .thPort => decide (i < s.member.thermals)
  | .queue => decide (i < s.member.queues) || i == 511
  | .monitor => decide (i < s.member.quads) || decide (16 ≤ i)
  | .spikeWin => decide (i < s.member.tiles) && s.role i == 1
  | .denseWin => decide (i < s.member.tiles) && s.role i == 2
  | .link => decide (i < s.member.links)
  | .endpoint => s.epExists i true

/-- A host write of one field's bits by its access code (R7). Fields with a command of their own are left to it.
DESIGN CHOICE (notes/assumptions/14.md). -/
def State.writeField (s : State) (r : Row) (i j x : Nat) : State :=
  if r.own || !(s.unitLive r.unit i) then s else
    match r.acc with
    | .ro => s
    | .rw => s.setReg r x i j
    | .wo => s.setReg r x i j
    | .w1c => s.setReg r (s.reg r i j &&& (2 ^ r.width - 1 - x)) i j
    | .w1s => s.setReg r (s.reg r i j ||| x) i j
    | .rwP3 => if i = 3 then s.setReg r x i j else s
    | .rwMan => if s.reg R.tmCamCfgMode i = 2 then s.setReg r x i j else s

/-- The pending hot-pixel entry of port n that HOT_IDX selects, as a HOT_DATA word (R202). -/
def State.hotEntry (s : State) (n : Nat) : Nat := (alGet (s.ei.ports.getD n {}).hotPend (s.reg R.eiPHotIdxIdx n)).getD 0

/-- The D-PHY receiver of event port n is in use (R11, R191, R199): enabled, its domain on, and not in AER mode. -/
def State.portLinked (s : State) (n : Nat) : Bool :=
  decide (n < s.member.ports) && s.domOn (s.epDomain (1 + n)) && s.flag R.eiPCfgEn n && !(s.flag R.eiPCfgMode n && n == 3)

/-- A write of HOT_DATA goes to the pending hot-pixel entry that HOT_IDX selects (R184, R202).
DESIGN CHOICE (notes/assumptions/37.md). -/
def State.writeHot (s : State) (n v : Nat) : State :=
  if s.member.ports ≤ n then s else
    let i := s.reg R.eiPHotIdxIdx n
    s.modEi fun e => { e with ports := e.ports.modify n fun p =>
      { p with hotPend := if v &&& 0x8FFF0FFF = 0 then alDel p.hotPend i else alPut p.hotPend i (v &&& 0x8FFF0FFF) } }

/-- A host write of one BAR0 word: every field in it by its access code; reserved bits and unassigned
offsets are ignored (R7, R8, R425). Setting PC_CTRL.GUARD_EN is plain; clearing it is GUARD_EN_CLEAR (R52).
DESIGN CHOICE (notes/assumptions/14.md). -/
def State.writeWord (s : State) (o v : Nat) : State :=
  let s := (blockRows o).foldl (fun s r =>
    match r.find o with
    | some (i, j) => s.writeField r i j (v / 2 ^ r.lo % 2 ^ r.width)
    | none => s) s
  let s := if o = 0x100008 ∧ v % 2 = 1 then s.setReg R.pcCtrlGuardEn 1 else s
  let s := if (o = 0x404000 ∨ o = 0x405000) ∧ v % 2 = 0 then
      s.forgetMarks fun k => k.1 == 5 + o / 0x1000 % 2 else s
  let s := if 0x400000 ≤ o ∧ o < 0x404000 ∧ o % 0x1000 = 0x54 then s.writeHot (o / 0x1000 % 4) v else s
  s.refreshXoff

/-- The PCIe link carries requests: PD01 is on and the link is up (R70, R453). -/
def State.pcieUp (s : State) : Bool := s.domOn 1 && s.flag R.hiStatusLinkUp

/-- Offsets of the KP, PW and TM blocks (R438). -/
def aonOffset (o : Nat) : Bool :=
  decide (o < 0x100000) || (decide (0x200000 ≤ o) && decide (o < 0x300000)) ||
  (decide (0x500000 ≤ o) && decide (o < 0x600000))

/-- The SPI target serves an access to a BAR0 offset: out of reset, and PD01 is on or the block lies in PD00
(R438). -/
def State.spiServes (s : State) (o : Nat) : Bool := s.alive && (s.domOn 1 || aonOffset o)

/-- A register write over an interface reaches the register (R425, R437, R438). -/
def State.writeReaches (s : State) (o : Nat) (via : Iface) : Bool :=
  o % 4 == 0 && decide (o < 0x1000000) &&
  match via with
  | .pcie => s.pcieUp
  | .spi => s.spiServes o

/-- Live entries of the fault stack as LG_FAULTk shows them (R466). -/
def State.faultWord (s : State) (k j : Nat) : Nat :=
  match s.lg.faults.find? (·.slot = k) with
  | none => 0
  | some e =>
    if j = 0 then e.time % 2 ^ 32 else if j = 1 then e.time / 2 ^ 32
    else if j = 2 then e.off % 2 ^ 24 + e.bit % 32 * 2 ^ 24
    else e.sev % 4 + e.state % 4 * 4 + e.block % 16 * 16 + e.rep % 256 * 256

/-- The bank of KP_BANKA and KP_BANKB. -/
def State.bank (s : State) (i : Nat) : Bank := if i = 0 then s.store.bankA else s.store.bankB

/-- A bank is usable: its header is valid and its signature outcome is not Refused (R93, R100). -/
def State.bankUsable (s : State) (i : Nat) : Bool :=
  let b := s.bank i
  b.headerOk && (if b.signed then b.sigOk else !s.part.sbEn)

/-- The manifest in use (R104, R114): the boot-set one where KP_MANIFEST_INFO.SOURCE says so. -/
def State.manifest (s : State) : Option Manifest :=
  if s.flag R.kpManifestInfoSource then s.keeper.manifestNew else s.store.manifest

/-- The EASEL copy of the word at an offset (R131, R148): bits without one read 0. -/
def State.peek (s : State) (o : Nat) : Nat :=
  match s.cv.easel with
  | none => 0
  | some e =>
    (blockRows o).foldl (fun v r =>
      match r.find o with
      | some (i, j) =>
        if r.hang = .easel then v + ((alGet e.regs (r.key i j)).getD (r.resetAt i)) * 2 ^ r.lo else v
      | none => v) 0

/-- The compute operation that tile t runs: the first class-1 operation in progress whose group holds the tile (R305, R311). -/
def State.tileOp (s : State) (t : Nat) : Option SlotOp :=
  s.pp.ops.find? fun o => o.cls == 1 && !o.done && bitAt (s.ext.readNat (o.groups + 16 * bits o.word 29 24) 8) t

/-- The watchdog covers a stream (R470). -/
def State.wdCovers (s : State) (stream : Nat) : Bool := bitAt (s.reg R.lgWdMaskStreams (stream / 32)) (stream % 32)

/-- The largest age of a covered item in ms, saturating (R470, R477). DESIGN CHOICE (notes/assumptions/31.md). -/
def State.oldestMs (s : State) : Nat :=
  satTo 255 (((s.lg.items.filter fun e => s.wdCovers (streamOf e.1)).map fun e => (s.devtime - e.2) / 1000000).foldl max 0)

/-- Groups whose render window is open (R168, R175). -/
def State.openGroups (s : State) : List Nat := s.rd.prios.map (·.1)

/-- What a read of a field returns: registers that show live state of their block (R90, R117, R148, R175,
R202, R222, R225, R253, R399, R423, R477) and, for every other field, the register file. -/
def State.view (s : State) (r : Row) (i j : Nat) : Nat :=
  if r = R.kpIdStepping then s.part.stepping
  else if r = R.kpIdMember then s.member.num
  else if r = R.kpIdRom then s.part.rom
  else if r = R.kpBankVersion then (s.bank i).version
  else if r = R.kpBankUsable then ofFlag (s.bankUsable i)
  else if r = R.kpBankSigned then ofFlag (s.bank i).signed
  else if r = R.kpBankExcluded then ofFlag (s.bank i).excluded
  else if r = R.kpBankFails then (s.bank i).fails
  else if r = R.kpCtrlPreferB then ofFlag s.store.preferB
  else if r = R.kpFuseSbEn then ofFlag s.part.sbEn
  else if r = R.kpFuseUntestedLock then ofFlag s.part.untestedLock
  else if r = R.kpFuseKeyValid then ofSet ((List.range 4).filter fun k => (s.part.slots.getD k {}).valid)
  else if r = R.kpFuseKeyRevoked then ofSet ((List.range 4).filter fun k => (s.part.slots.getD k {}).revoked)
  else if r = R.kpManifestSerial then ((s.manifest).map (·.serial)).getD 0
  else if r = R.kpManifestInfoEntries then ((s.manifest).map (·.entries.length)).getD 0
  else if r = R.pwDomPresentPresent then s.member.present
  else if r = R.pwDomReqOnReq then s.reg R.pwDomReqOnReq &&& s.member.present / 2
  else if r = R.tmDevtimeLoNs then s.devtime % 2 ^ 32
  else if r = R.ppWindowsLoOpen then ofSet (s.openGroups.filter (· < 32))
  else if r = R.tmEpochEpoch then epochOf s.us
  else if r = R.tmFreqCorr then ofSigned 32 s.corr
  else if r = R.qmPoolFree then s.freeCells
  else if r = R.qmQDepthDepth then s.depth i
  else if r = R.qmQDepthHighState then ofFlag (s.queue i).highState
  else if r = R.qmQDepthMarkerIn then ofFlag (s.queue i).markerIn
  else if r = R.qmQDepthMarkerOpen then ofFlag (s.queue i).markerOpen
  else if r = R.qmQDepthDropPend then ofFlag (s.queue i).dropPend
  else if r = R.qmQDepthSevering then ofFlag (s.queue i).severing
  else if r = R.cvPeekDataData then s.peek (s.reg R.cvPeekAddrAddr)
  else if r = R.eiPStatusBuf then ((s.ei.ports.getD i {}).bufs).length
  else if r = R.eiPStatusXoff then ofFlag (s.xoffLevel i)
  else if r = R.eiPStatusLink then ofFlag (s.portLinked i && Config.hsReceiving s.freeCtr i)
  else if r = R.eiPStatusGlintCells then (((s.ei.ports.getD i {}).glint).filter (·.glinting)).length
  else if r = R.eiPHotDataX then bits (s.hotEntry i) 11 0
  else if r = R.eiPHotDataY then bits (s.hotEntry i) 27 16
  else if r = R.eiPHotDataValid then bits (s.hotEntry i) 31 31
  else if r = R.deTStatBusy then ofFlag (s.tileOp i).isSome
  else if r = R.deTStatYielded then ofFlag ((s.tileOp i).isSome && s.rd.sides.any fun x => x.tile == i && x.screen.isSome)
  else if r = R.deTStatKind then ((s.tileOp i).map fun o => bits o.word 33 30).getD 0
  else if r = R.slCredGeneral then
    (((s.sl.bindings.find? (·.k = s.reg R.slCredSelBinding)).map fun b => ofSigned 16 b.general).getD 0)
  else if r = R.slCredEsc then (((s.sl.bindings.find? (·.k = s.reg R.slCredSelBinding)).map (·.esc)).getD 0)
  else if r = R.lgStatusLive then s.lg.faults.length
  else if r = R.lgStatusTopSev then (s.lg.faults.map (·.sev)).foldl max 0
  else if r = R.lgStatusRate then satTo 127 s.recentRaises.length
  else if r = R.lgWdOldestMs then (if s.inRun then s.oldestMs else 0)
  else if r = R.lgFaultWord then s.faultWord i j
  else s.reg r i j

/-- A read of one BAR0 word: write-only and reserved bits, absent units and unassigned offsets read 0
(R7, R8, R425, R479, R481). -/
def State.readWord (s : State) (o : Nat) : Nat :=
  (blockRows o).foldl (fun v r =>
    match r.find o with
    | some (i, j) =>
      if r.acc = .wo || !(s.unitLive r.unit i) then v else v + s.view r i j % 2 ^ r.width * 2 ^ r.lo
    | none => v) 0

/-- DEVTIME_READ (R222, R483): the low word is read, and the upper word is latched in the same action. -/
def execDevtimeRead (s : State) : Out :=
  .next (s.setReg R.tmDevtimeHiNs (s.devtime / 2 ^ 32))

/-- WINDOWS_READ (R175, R483): the low word is read, and the upper word is latched in the same action. -/
def execWindowsRead (s : State) : Out :=
  .next (s.setReg R.ppWindowsHiOpen (ofSet (s.openGroups.filter fun g => decide (32 ≤ g)) / 2 ^ 32))

end Sys2Proof.Machine
end

