-- ==== Sys2Proof/Machine/SpanOps.lean ====
section
/-! DEFINITION. The span links' named operations: the ring, sending frames, control entries, credit (R402 to R409, R412, R414,
R415, R417). -/
namespace Sys2Proof.Machine

/-! ## Sides and the ring (R403, R406, R408, R417) -/

/-- A side of the span links. -/
def State.spanSide (s : State) (n : Nat) : SpanSide := s.sl.sides.getD n {}

/-- Change a side. -/
def State.modSpan (s : State) (n : Nat) (f : SpanSide → SpanSide) : State := s.modSl fun x => { x with sides := x.sides.modify n f }

/-- The member has this side, and PD09 is on. -/
def State.sideOn (s : State) (n : Nat) : Bool := decide (n < s.member.links) && s.domOn 9

/-- STATE of a side: 0 DOWN, 1 TRAINING, 2 UP, 3 LOST (R403). -/
def State.linkState (s : State) (n : Nat) : Nat := s.reg R.slSStatusState n

/-- A side is UP. -/
def State.linkUp (s : State) (n : Nat) : Bool := s.sideOn n && s.linkState n == 2

/-- Distributed expert mode, which needs a span link (R14, R322). -/
def State.distributed (s : State) : Bool := s.flag R.xrCtrlMode && decide (0 < s.member.links)

/-- Chips in the ring; its number of this chip (R406). -/
def State.chips (s : State) : Nat := s.reg R.slRingNM1 + 1

/-- This chip's number (R406). -/
def State.chip (s : State) : Nat := s.reg R.xrCtrlChip

/-- The ring link that a chip's side joins, named by the chip whose SPAN_B it is (R406); a single pair has one link. -/
def State.ringLink (s : State) (chip side : Nat) : Nat :=
  if s.reg R.slRingTopo = 1 then 0 else if side = 1 then chip else (chip + s.chips - 1) % s.chips

/-- The chip and the side at the other end of a side of this chip (R406); none where the ring joins nothing to it. A double pair
or a ring needs both links; a member with one joins a single pair (R14). -/
def State.ringNeighbour (s : State) (side : Nat) : Option (Nat × Nat) :=
  let n := s.chips
  if s.reg R.slRingTopo = 0 then none
  else if s.reg R.slRingTopo = 1 then (if side = 0 then some (1 - s.chip, 0) else none)
  else if s.member.links < 2 then none
  else if side = 1 then some ((s.chip + 1) % n, 0) else some ((s.chip + n - 1) % n, 1)

/-- Hops to a chip in a side's direction. -/
def State.hops (s : State) (side dst : Nat) : Nat :=
  if s.reg R.slRingTopo = 1 then 1 else if side = 1 then (dst + s.chips - s.chip) % s.chips else (s.chip + s.chips - dst) % s.chips

/-- The ring links on the way to a chip in a side's direction. -/
def State.linksTo (s : State) (side dst : Nat) : List Nat :=
  if s.reg R.slRingTopo = 1 then [0]
  else (List.range (s.hops side dst)).map fun i =>
    if side = 1 then (s.chip + i) % s.chips else (s.chip + 2 * s.chips - 1 - i) % s.chips

/-- A side leads to a chip over links that are UP (R408, R417). -/
def State.leads (s : State) (side dst : Nat) : Bool :=
  (s.ringNeighbour side).isSome && s.linkUp side && decide (dst < s.chips) && dst != s.chip &&
  ((s.linksTo side dst).drop 1).all fun l => !(s.sl.linksDown.contains l)

/-- The direction of R408 to a chip: fewer hops, SPAN_B on a tie. -/
def State.direction (s : State) (dst : Nat) : Option Nat :=
  match s.leads 0 dst, s.leads 1 dst with
  | true, true => some (if s.hops 0 dst < s.hops 1 dst then 0 else 1)
  | true, false => some 0
  | false, true => some 1
  | false, false => none

/-- SL_REACH and XR_STATUS.UNREACH follow the links; a chip that becomes unreachable is a fault (R334, R417, R422).
DESIGN CHOICE (notes/assumptions/60.md). -/
def State.refreshReach (s : State) : State :=
  let ring := if s.reg R.slRingTopo = 0 then [] else List.range s.chips
  let now := ring.filter fun c => c == s.chip || (s.direction c).isSome
  let gone := (setBits 4 (s.reg R.slReachReach)).filter fun c => ring.contains c && !(now.contains c)
  let s := (s.setReg R.slReachReach (ofSet now)).setReg R.xrStatusUnreach (ofSet (ring.filter fun c => !(now.contains c)))
  gone.foldl (fun (s : State) c => s.raise 0xF00004 c 2 0x0D) s

/-- A side enters TRAINING (R403): UP within 10 ms, or LOST. -/
def State.train (s : State) (n : Nat) : State :=
  let s := (s.setReg R.slSStatusState 1 n).modSpan n fun x => { x with trainGood := 0, heldLost := false }
  ((s.disarm (.trainRetry n)).arm (.trainLimit n) 10000000).refreshReach

/-- The six data bytes of the TRAIN pairs that a side sends all the time in TRAINING (R401, R403): RING_ID, chip number, side,
member and stepping, in this order. Outside TRAINING it sends none. DEDUCED (notes/assumptions/74.md). -/
def State.trainSent (s : State) (n : Nat) : Option (List Byte) :=
  if s.sideOn n && s.linkState n == 1 then
    some (leBytes 2 (s.reg R.slRingRingId) ++ [BitVec.ofNat 8 s.chip, BitVec.ofNat 8 n, BitVec.ofNat 8 s.member.num,
      BitVec.ofNat 8 s.part.stepping])
  else none

/-! ## Sending (R402, R404, R408, R409) -/

/-- The LINK word of a frame (R404). -/
def linkField (lseq ack : Nat) (nak stop : Bool) : Nat :=
  lseq % 4096 + ack % 4096 * 2 ^ 12 + ofFlag nak * 2 ^ 24 + ofFlag stop * 2 ^ 25

/-- The HDR of a long frame (R404). -/
def frameHdr (f : LongFrame) : Nat :=
  f.type % 4 + f.src % 4 * 2 ^ 2 + f.dst % 4 * 2 ^ 4 + ofFlag f.token * 2 ^ 6 + ofFlag f.last * 2 ^ 7 + ofFlag f.esc * 2 ^ 8 +
  f.qid % 512 * 2 ^ 9 + (f.cells.length - 1) % 8 * 2 ^ 18 + f.frag % 2048 * 2 ^ 21 + f.iseq % 65536 * 2 ^ 32

/-- Bytes with their CRC-32 behind them, least significant byte first (R402). DEDUCED (notes/assumptions/74.md). -/
def withCrc (l : List Byte) : List Byte := l ++ leBytes 4 (crc32 l)

/-- A long frame on the link, behind SOF_L (R402, R404): LINK word, HDR, the cells and zeros up to 64 bytes, and the CRC-32.
DEDUCED (notes/assumptions/74.md). -/
def frameBytes (f : LongFrame) : List Byte :=
  withCrc (leBytes 4 (linkField f.lseq f.ack f.nak f.stop) ++ leBytes 6 (frameHdr f) ++
    ((f.cells.flatMap fun (c : Cell64) => leBytes 8 c.toNat) ++ List.replicate 64 0).take 64)

/-- What a receiver reads out of bytes 2 to 75 of a long frame and its CRC-32 (R402, R404); none where the CRC fails. -/
def frameOf (l : List Byte) (crc : Word) : Option LongFrame :=
  let v := fun (a n : Nat) => leNat ((l.drop a).take n)
  let link := v 0 4
  let h := v 4 6
  if l.length = 74 ∧ crc.toNat = crc32 l then
    some { lseq := bits link 11 0, ack := bits link 23 12, nak := bitAt link 24, stop := bitAt link 25,
           type := bits h 1 0, src := bits h 3 2, dst := bits h 5 4, token := bitAt h 6, last := bitAt h 7, esc := bitAt h 8,
           qid := bits h 17 9, frag := bits h 31 21, iseq := bits h 47 32,
           cells := (List.range (bits h 20 18 + 1)).map fun i => BitVec.ofNat 64 (v (10 + 8 * i) 8) }
  else none

/-- The LINK word of a short frame, by its CRC-32 (R402, R404); none where the CRC fails. -/
def shortOf (link crc : Word) : Option Nat :=
  if crc.toNat = crc32 (leBytes 4 link.toNat) then some link.toNat else none

/-- The receiver of a side has no room for two more frames to forward: STOP (R408). A forward buffer of 16 KiB holds 204 frames. -/
def State.stopOut (s : State) (n : Nat) : Bool := decide (204 < (s.spanSide (1 - n)).forward.length + 2)

/-- The LINK fields that a side sends now, in a long frame (R404, R409). -/
def State.stamp (s : State) (n : Nat) (f : LongFrame) : LongFrame :=
  let x := s.spanSide n
  { f with ack := (x.rxNext + 4095) % 4096, nak := x.nakDue, stop := s.stopOut n }

/-- The ACK timer of a side runs from the end of its oldest frame's transmission (R402, R409). -/
def State.ackTimer (s : State) (n : Nat) : State :=
  match (s.spanSide n).replay with
  | [] => s.disarm (.ack n)
  | f :: _ => s.armAt (.ack n) (f.at_ + 250 + s.reg R.slSCfgAckNs n)

/-- A side may send a new long frame (R403, R409). -/
def State.roomToSend (s : State) (n : Nat) : Bool :=
  s.linkUp n && decide ((s.spanSide n).replay.length < s.reg R.slSCfgWindow n)

/-- A new long frame goes onto a side (R409). -/
def State.sendFrame (s : State) (n : Nat) (f : LongFrame) : State :=
  let f := s.stamp n { f with lseq := (s.spanSide n).txNext }
  let now := s.devtime
  let s := s.modSpan n fun x =>
    { x with txNext := (x.txNext + 1) % 4096, replay := x.replay ++ [{ frame := f, at_ := now }], wire := x.wire ++ [frameBytes f], ackOwed := false,
             nakSent := x.nakSent || x.nakDue, nakDue := false }
  ((s.bump R.slSCntCount n 0).disarm (.ackIdle n)).ackTimer n

/-- A control frame (R404, R405). -/
def State.controlFrame (s : State) (dst : Nat) (entries : List Cell64) : LongFrame :=
  { lseq := 0, ack := 0, nak := false, stop := false, type := 2, src := s.chip, dst := dst, token := false, last := false, esc := false,
    qid := 0, frag := 0, iseq := 0, cells := entries }

/-- A frame has to be forwarded by the chip at the other end of a side (R408). -/
def State.goesOn (s : State) (n : Nat) (f : LongFrame) : Bool := (s.ringNeighbour n).map (·.1) != some f.dst

/-- STOP holds a data frame back on a side (R408). -/
def State.stopped (s : State) (n : Nat) (f : LongFrame) : Bool := f.type == 1 && s.flag R.slSStatusStopIn n && s.goesOn n f

/-- A side sends what waits for it: forwarded frames ahead of its own, then control entries, up to 8 in a frame (R405, R408). -/
def State.pumpSide (s : State) (n : Nat) : Nat → State
  | 0 => s
  | k + 1 =>
    if !(s.roomToSend n) then s
    else
      let x := s.spanSide n
      match x.forward, x.ctrl with
      | f :: rest, c =>
        if !(s.stopped n f) then ((s.modSpan n fun y => { y with forward := rest }).sendFrame n f).pumpSide n k
        else
          match c with
          | [] => s
          | e :: _ =>
            let mine := (c.filter fun p => p.1 == e.1).take 8
            let left := (c.filter fun p => p.1 == e.1).drop 8 ++ c.filter fun p => p.1 != e.1
            ((s.modSpan n fun y => { y with ctrl := left }).sendFrame n (s.controlFrame e.1 (mine.map (·.2)))).pumpSide n k
      | [], e :: t =>
        let c := e :: t
        let mine := (c.filter fun p => p.1 == e.1).take 8
        let left := (c.filter fun p => p.1 == e.1).drop 8 ++ c.filter fun p => p.1 != e.1
        ((s.modSpan n fun y => { y with ctrl := left }).sendFrame n (s.controlFrame e.1 (mine.map (·.2)))).pumpSide n k
      | [], [] => s

/-- A control entry for a chip waits on the side of its direction (R405, R408); one for a chip that no path leads to is lost.
DESIGN CHOICE (notes/assumptions/60.md). -/
def State.queueEntry (s : State) (dst : Nat) (e : Cell64) : State :=
  match s.direction dst with
  | some n => s.modSpan n fun x => { x with ctrl := x.ctrl ++ [(dst, e)] }
  | none => s

/-! ## Control entries (R405) -/

/-- A CREDIT entry. -/
def creditEntry (qid count : Nat) (esc : Bool) : Cell64 := BitVec.ofNat 64 (1 + qid % 512 * 2 ^ 4 + count % 65536 * 2 ^ 13 + ofFlag esc * 2 ^ 29)

/-- A GRANT entry. -/
def grantEntry (qid count : Nat) : Cell64 := BitVec.ofNat 64 (2 + qid % 512 * 2 ^ 4 + count % 65536 * 2 ^ 13)

/-- A DELIVERED entry. -/
def deliveredEntry (token : Bool) (iseq : Nat) : Cell64 := BitVec.ofNat 64 (3 + ofFlag token * 2 ^ 4 + iseq % 2 ^ 24 * 2 ^ 5)

/-- A NOTICE entry. -/
def noticeEntry (chip side us : Nat) : Cell64 := BitVec.ofNat 64 (4 + chip % 4 * 2 ^ 4 + side % 2 * 2 ^ 6 + us % 2 ^ 32 * 2 ^ 32)

/-! ## Transmit bindings (R407) -/

/-- The removed binding of a number. -/
def State.oldBinding (s : State) (k : Nat) : Option OldBinding := s.sl.removed.find? (·.k = k)

/-- A binding is enabled (R407): SL_TXk, or a removed one that drains. -/
def State.txOn (s : State) (k : Nat) : Bool := (s.oldBinding k).isSome || (decide (k < 32) && s.flag R.slTxEn k)

/-- The local queue of a binding (R407). -/
def State.txQid (s : State) (k : Nat) : Nat := ((s.oldBinding k).map (·.qid)).getD (s.reg R.slTxQid k)

/-- The destination chip of a binding (R407). -/
def State.txDst (s : State) (k : Nat) : Nat := ((s.oldBinding k).map (·.dst)).getD (s.reg R.slTxDst k)

/-- The destination queue of a binding (R407). -/
def State.txDstQid (s : State) (k : Nat) : Nat := ((s.oldBinding k).map (·.dstQid)).getD (s.reg R.slTxDstQid k)

/-- A binding carries tokens (R407). -/
def State.txToken (s : State) (k : Nat) : Bool := ((s.oldBinding k).map (·.token)).getD (s.flag R.slTxClass k)

/-- One more than the highest number of a binding. -/
def State.txCount (s : State) : Nat := s.sl.removed.foldl (fun n o => max n (o.k + 1)) 32

/-- The state of a binding. -/
def State.binding (s : State) (k : Nat) : Binding := (s.sl.bindings.find? (·.k = k)).getD { k := k }

/-- A binding has cells to send: its queue holds some, or an item of it has begun. -/
def State.txBusy (s : State) (k : Nat) : Bool := !((s.queue (s.txQid k)).cells.isEmpty) || decide (0 < (s.binding k).frag)

/-- A HANG has changed SL_TX from what it was in `pre`: a removed binding drains its queue first, and a new one takes the credit of
the old one to the same destination queue, where that one does not drain. DESIGN CHOICE (notes/assumptions/60.md). -/
def State.removeBindings (s pre : State) : State :=
  let same := fun (a b : State) (j k : Nat) => a.txDst j == b.txDst k && a.txDstQid j == b.txDstQid k
  let changed := (List.range 32).filter fun k => !(pre.txOn k == s.txOn k && same pre s k k && pre.txQid k == s.txQid k &&
    pre.txToken k == s.txToken k)
  let kept := pre.sl.removed.filter fun o => pre.txBusy o.k
  let gone := (changed.filter fun k => pre.txOn k && pre.txBusy k).zipIdx.map fun e => (e.1, pre.txCount + e.2)
  let old : List OldBinding := gone.map fun e =>
    { k := e.2, qid := pre.txQid e.1, dst := pre.txDst e.1, dstQid := pre.txDstQid e.1, token := pre.txToken e.1 }
  let stay := pre.sl.bindings.filter fun b => !(changed.contains b.k) && (decide (b.k < 32) || kept.any (·.k == b.k))
  let drain := gone.map fun e => { pre.binding e.1 with k := e.2 }
  let fresh := changed.map fun k =>
    match (List.range 32).find? fun j => pre.txOn j && same pre s j k && !(gone.any (·.1 == j)) with
    | some j => { k := k, general := (pre.binding j).general, sent := (pre.binding j).sent, esc := (pre.binding j).esc }
    | none => ({ k := k } : Binding)
  s.modSl fun x => { x with removed := kept ++ old, bindings := stay ++ drain ++ fresh }

/-! ## Credit (R414, R415) -/

/-- The queues named in SL_RXQ (R414), with their grants. -/
def State.rxQueues (s : State) : List (Nat × Nat) :=
  ((List.range 32).filter fun k => s.flag R.slRxqEn k).map fun k => (s.reg R.slRxqQid k, s.reg R.slRxqGrant k)

/-- Cells of a receive queue that its consumer has popped since the last look (R414). -/
def State.poppedCells (s : State) (q : Nat) : Nat :=
  ((s.sl.rxFrames.filter (·.qid = q)).map (·.left)).foldl (· + ·) 0 - s.depth q

/-- Take popped cells off the frames of a queue, oldest first: the frames that stay, and the credit due as (source, its QID, cells,
escape). An escape frame's credit returns as a whole (R414). DESIGN CHOICE (notes/assumptions/60.md). -/
def popFrames (q : Nat) : Nat → List RxFrame → List RxFrame × List (Nat × Nat × Nat × Bool)
  | _, [] => ([], [])
  | n, f :: t =>
    if f.qid ≠ q then
      let r := popFrames q n t
      (f :: r.1, r.2)
    else
      let k := min n f.left
      let r := popFrames q (n - k) t
      let stay := if k = f.left then r.1 else { f with left := f.left - k } :: r.1
      let due := if f.src = 4 ∨ k = 0 then [] else if f.esc then (if k = f.left then [(f.src, f.name, f.cells, true)] else [])
        else [(f.src, f.name, k, false)]
      (stay, due ++ r.2)

/-- Credit returns in CREDIT entries as the consumer pops the cells (R414). DESIGN CHOICE (notes/assumptions/60.md). -/
def State.returnCredit (s : State) : State :=
  let qs := ((s.sl.rxFrames.map (·.qid)).eraseDups)
  qs.foldl (fun (s : State) q =>
    let r := popFrames q (s.poppedCells q) s.sl.rxFrames
    let s := s.modSl fun x => { x with rxFrames := r.1 }
    r.2.foldl (fun (s : State) e => s.queueEntry e.1 (creditEntry e.2.1 e.2.2.1 e.2.2.2)) s) s

/-- Both sides send what waits for them. -/
def State.pump (s : State) : State :=
  let s := s.returnCredit
  let work := fun (n : Nat) => (s.spanSide n).forward.length + (s.spanSide n).ctrl.length
  (s.pumpSide 0 (work 0)).pumpSide 1 (work 1)

/-- GRANT entries for every receive queue go to every source chip (R415). -/
def State.sendGrants (s : State) : State :=
  if s.reg R.slRingTopo = 0 || !(s.domOn 9) then s
  else
    let others := (List.range s.chips).filter (· != s.chip)
    (others.foldl (fun (s : State) c => s.rxQueues.foldl (fun (s : State) q => s.queueEntry c (grantEntry q.1 q.2)) s) s).pump

end Sys2Proof.Machine
end

