-- ==== Sys2Proof/Machine/Power.lean ====
section
/-! DEFINITION. Power domains, resets and GESSO (R61 to R90, R108), the sensors of Keeper, and HEARTBEAT. -/
namespace Sys2Proof.Machine

/-! ## Domains (R70, R71, R84) -/

/-- Domains that domain d needs on (R70). -/
def domNeeds (d : Nat) : List Nat :=
  if d = 0 then [] else if d = 1 ∨ d = 4 ∨ d = 6 then [0]
  else if d = 7 ∨ d = 8 ∨ 10 ≤ d then [4, 5] else [4]

/-- Wake latency (R70): ns at pace 1.00 and ns of fixed I/O time. -/
def wakeNs (d : Nat) : Nat × Nat :=
  if d = 1 then (20000, 0) else if d = 2 ∨ d = 3 then (30000, 100000) else if d = 4 then (1800000, 0)
  else if d = 5 then (15000, 0) else if d = 6 then (20000, 400000) else if d = 7 then (20000, 0)
  else if d = 8 then (20000, 100000) else if d = 9 then (20000, 50000) else (12000, 0)

/-- Show domain d on or off (R90). -/
def State.showDom (s : State) (d : Nat) (on : Bool) : State := s.setRegBit R.pwDomStateOn d on

/-- Registers and filter state of one event port are lost (R70, R201). -/
def State.losePort (s : State) (n : Nat) : State :=
  (s.clearRegs (0x400000 + 0x1000 * n) (0x401000 + 0x1000 * n)).modEi fun e => { e with ports := e.ports.set n {} }

/-- Registers and frame of one thermal port are lost (R70). -/
def State.loseThermal (s : State) (m : Nat) : State :=
  (s.clearRegs (0x404000 + 0x1000 * m) (0x405000 + 0x1000 * m)).modEi fun e =>
    { e with thermal := e.thermal.set m none, thermalErr := e.thermalErr.set m [] }

/-- The registers of the AER port, its pseudo-packet and its handshake are lost (R70, R201).
DESIGN CHOICE (notes/assumptions/14.md). -/
def State.loseAer (s : State) : State :=
  (((s.clearRegs 0x408004 0x408008).modEi fun e => { e with aerPkt := none, aerWait := none, aerLost := 0 }).disarm .pktUs).disarm .aerHold

/-- The memory of a tile becomes undefined (R16, R32, R70). -/
def State.loseTile (s : State) (t : Nat) : State :=
  (s.modTmem fun m => m.makeUndef (tileAddr t 0) (2 ^ 20) s.freeCtr).tick

/-- The fusion block returns to reset; its EASEL fields keep what the active CANVAS gave them (R367). -/
def State.loseFusion (s : State) : State :=
  let s := (s.modFu fun _ => {})
  R.fuRows.foldl (fun s r => if r.hang = .easel then s else
    (List.range r.n1).foldl (fun s i => (List.range r.n2).foldl (fun s j => s.setReg r (r.resetAt i) i j) s) s) s

/-- The span links stop with PD09: the links are DOWN, no other chip of the ring is reachable (R334, R417), and their state is
lost; what a CANVAS or the host configured stays, since a wake trains again (R70). DESIGN CHOICE (notes/assumptions/14.md). -/
def State.loseLinks (s : State) : State :=
  let ring := if s.reg R.slRingTopo = 0 then [] else List.range s.chips
  let s := (s.setReg R.xrStatusUnreach (ofSet (ring.filter (· != s.chip)))).setReg R.slReachReach (ofSet (ring.filter (· == s.chip)))
  let rows := [R.slSStatusState, R.slSStatusPeerChip, R.slSStatusPeerSide, R.slSStatusStopIn, R.slSStatusRttNs]
  let s := rows.foldl (fun (s : State) r => (s.setReg r 0 0).setReg r 0 1) s
  let s := [0, 1].foldl (fun (s : State) n =>
    (((s.disarm (.ack n)).disarm (.ackIdle n)).disarm (.trainLimit n)).disarm (.trainRetry n)) s
  s.modSl fun _ => {}

/-- What a domain loses when it is switched off (R70). DESIGN CHOICE (notes/assumptions/14.md). -/
def State.domLost (s : State) (d : Nat) : State :=
  if d = 1 then
    ((s.clearRegs 0xFC0000 0x1000000).modHi fun h => { tap := h.tap, boundary := h.boundary }).modPins
      fun p => { p with spiSdo := .z }
  else if d = 2 then (s.losePort 0).losePort 1
  else if d = 3 then ((((s.losePort 2).losePort 3).loseThermal 0).loseThermal 1).loseAer
  else if d = 4 then s.clearPalette
  else if d = 5 then
    (((((s.clearRegs 0x900000 0xA00000).modPp fun p => { plan := p.plan }).modXr fun _ => {}).modScratch fun m =>
      m.makeUndef 0 65536 s.freeCtr).tick)
  else if d = 7 then s.loseFusion
  else if d = 8 then ((s.clearRegs 0xE00000 0xF00000).modRd fun _ => {}).modPins fun p => { p with dsi := .z }
  else if d = 9 then s.loseLinks.modPins fun p => { p with spanTx := .z }
  else if 10 ≤ d then (s.quadTiles (d - 10)).foldl State.loseTile s
  else s

/-- Switch a domain off at once: its contents are lost, and a wake in progress is given up. -/
def State.domOff (s : State) (d : Nat) : State :=
  let s := s.modKeeper fun k => { k with switching := k.switching.filter (·.1 ≠ d) }
  ((s.disarm (.domain d)).showDom d false).domLost d

/-- A domain has come on: it starts from reset (R201, R454), and PD04 gets queue 0x1FF (R463).
DESIGN CHOICE (notes/assumptions/14.md). -/
def State.domReady (s : State) (d : Nat) : State :=
  let s := s.modKeeper fun k => { k with switching := k.switching.filter (·.1 ≠ d) }
  let s := if 1 ≤ d ∧ d ≤ 3 then s.domLost d else s
  let s := (s.disarm (.domain d)).showDom d true
  if d = 4 then s.createLedgerQueue
  else if d = 6 then s.modPins fun p => { p with memResetN := .high }
  else if d = 8 && s.inRun then s.modPins fun p => { p with dsi := .high }
  else if d = 9 && s.inRun then
    let s := s.modPins fun p => { p with spanTx := .high }
    [0, 1].foldl (fun (s : State) n => if s.sideOn n && s.flag R.slSCtrlEn n then s.train n else s) s
  else s

/-- Switch a domain on within one step, where it is off and the member has it. -/
def State.domOnNow (s : State) (d : Nat) : State :=
  if s.domOn d || !(s.member.hasDomain d) then s else s.domReady d

/-- A wake begins; the deadline of R88 is 10 times the wake latency. -/
def State.domWake (s : State) (d : Nat) : State :=
  let w := wakeNs d
  (s.modKeeper fun k => { k with switching := k.switching ++ [(d, true)] }).arm (.domain d)
    (10 * (s.scaled w.1 + w.2))

/-- A domain is on or waking. -/
def State.domUp (s : State) (d : Nat) : Bool := s.domOn d || s.waking d

/-- A written cell of a port of domain d is held in its queue (R199). -/
def State.portCells (s : State) (d : Nat) : Bool :=
  s.queueIds.any fun q => !((s.queue q).cells.isEmpty) && s.epDomain (s.reg R.qmQEpProd q) == d

/-- A domain holds an item or a non-empty queue (R71, R199). -/
def State.domBusy (s : State) (d : Nat) : Bool :=
  (s.queueIds.any fun q => !((s.queue q).cells.isEmpty) && (d == 4 || s.epDomain (s.reg R.qmQEpCons q) == d)) ||
  (if d = 1 then !(s.commandItems.isEmpty)
   else if d = 2 then ((s.ei.ports.take 2).any fun p => !p.bufs.isEmpty) || s.portCells 2
   else if d = 3 then
     ((s.ei.ports.drop 2).any fun p => !p.bufs.isEmpty) || s.ei.thermal.any (·.isSome) || s.ei.aerPkt.isSome || s.portCells 3
   else if d = 4 then !s.pal.held.isEmpty
   else if d = 5 then !(s.planItems.isEmpty) || !(s.tokenItems.isEmpty) || !s.pp.ops.isEmpty
   else if d = 7 then !(s.fusionItems.isEmpty)
   else if d = 8 then !(s.renderItems.isEmpty)
   else if d = 9 then
    !(s.spanItems.isEmpty) || ((List.range s.txCount).any fun k => s.txOn k && s.txBusy k) ||
    s.rxQueues.any fun q => !((s.queue q.1).cells.isEmpty)
   else false)

/-- Why a host request with bits [9:1] of PW_DOM_REQ as `onReq` is refused for domain d (R12, R71): 0 not refused, 1 BUSY,
2 DEPEND, 3 NOT_HOST. Domains that the same request switches count as it asks. DESIGN CHOICE (notes/assumptions/18.md). -/
def State.domRefusal (s : State) (onReq d : Nat) (via : Iface) : Nat :=
  let up := fun (e : Nat) => if 1 ≤ e ∧ e ≤ 9 then bitAt onReq (e - 1) && s.member.hasDomain e else s.domUp e
  if d = 0 ∨ 10 ≤ d ∨ s.member.hasDomain d = false ∨ (d = 1 ∧ via = .pcie) then 3
  else if bitAt onReq (d - 1) then (if (domNeeds d).all up then 0 else 2)
  else if (List.range 26).any fun e => up e && (domNeeds e).contains d then 2
  else if s.domBusy d then 1 else 0

/-- A refused request shows in PW_DOM_ERR and changes no other state (R71). DESIGN CHOICE (notes/assumptions/18.md). -/
def State.domRefuse (s : State) (d cause : Nat) : State :=
  ((s.setReg R.pwDomErrDomain d).setReg R.pwDomErrCause cause).setReg R.pwDomErrErr 1

/-- The order in which one request wakes domains, so that needed domains come first; switch-offs go in the opposite order.
DESIGN CHOICE (notes/assumptions/18.md). -/
def domOrder : List Nat := [1, 4, 6, 5, 2, 3, 7, 8, 9]

/-- The domains that a request would switch on, in order; a bit equal to the present state asks for nothing (R430). -/
def State.domOns (s : State) (onReq : Nat) : List Nat := domOrder.filter fun d => bitAt onReq (d - 1) && !(s.domUp d)

/-- The domains that a request would switch off, in order. -/
def State.domOffs (s : State) (onReq : Nat) : List Nat :=
  domOrder.reverse.filter fun d => !(bitAt onReq (d - 1)) && s.domUp d

/-- The first domain for which a request is refused, and the cause (R71). Outside run the requests are held in ON_REQ, and only
NOT_HOST refuses one (R87, R108). DESIGN CHOICE (notes/assumptions/18.md). -/
def State.domFault (s : State) (onReq : Nat) (via : Iface) : Option (Nat × Nat) :=
  let cause := fun d => if s.inRun then s.domRefusal onReq d via else s.domRefusal onReq d via / 3 * 3
  (((s.domOns onReq ++ s.domOffs onReq).map fun d => (d, cause d)).find? fun e => e.2 != 0)

/-- The host's request switches a domain off at once (R84); should it not reach its off state, DOMAIN_SWITCH_FAIL says so (R88).
DESIGN CHOICE (notes/assumptions/18.md). -/
def State.domSleep (s : State) (d : Nat) : State :=
  let w := wakeNs d
  let s := if d = 9 then ((s.setReg R.slSStatusState 0 0).setReg R.slSStatusState 0 1).refreshReach else s
  ((s.domOff d).modKeeper fun k => { k with switching := k.switching ++ [(d, false)] }).arm (.domain d)
    (10 * (s.scaled w.1 + w.2))

/-- The request in service goes on to the next domain that it has to wake (R71); one whose needed domain has failed meanwhile is
refused. DESIGN CHOICE (notes/assumptions/18.md). -/
def State.domNext (s : State) : List Nat → State
  | [] => s.modKeeper fun k => { k with domWork := [] }
  | d :: t =>
    if s.domUp d then s.domNext t
    else if (domNeeds d).all s.domOn then (s.modKeeper fun k => { k with domWork := d :: t }).domWake d
    else ((s.domRefuse d 2).setRegBit R.pwDomReqOnReq (d - 1) false).domNext t

/-- Keeper serves one request as a whole (R12, R71, R84): refused, it changes nothing; admitted, its bits stand in ON_REQ, and in
run its switch-offs take effect at once and its wakes begin. Answers the cause of a refusal.
DESIGN CHOICE (notes/assumptions/18.md). -/
def State.domAdmit (s : State) (onReq : Nat) (via : Iface) : Option Nat × State :=
  match s.domFault onReq via with
  | some (d, c) => (some c, s.domRefuse d c)
  | none =>
    let ons := s.domOns onReq
    let offs := s.domOffs onReq
    let s := s.setReg R.pwDomReqOnReq onReq
    if s.inRun then (none, (offs.foldl State.domSleep s).domNext ons) else (none, s)

/-- Keeper has a request in service (R71). -/
def State.domServing (s : State) : Bool := !s.keeper.domWork.isEmpty

/-- A write of the complete requested state of PD01 to PD09 (R71, R430); it waits while Keeper serves another.
DESIGN CHOICE (notes/assumptions/18.md). -/
def State.domRequest (s : State) (onReq : Nat) (via : Iface) : State :=
  if s.domServing then s.modKeeper fun k => { k with domWaits := k.domWaits ++ [{ onReq := onReq, via := via }] }
  else (s.domAdmit onReq via).2

/-- Requests that wait are served in order, until one is in service (R71). -/
def State.domDrain (s : State) : List DomRequest → State
  | [] => s.modKeeper fun k => { k with domWaits := [] }
  | r :: t =>
    let s := (s.domAdmit r.onReq r.via).2
    if s.domServing then s.modKeeper fun k => { k with domWaits := t } else s.domDrain t

/-- A wake of a request has ended: the request goes on, and after it the next one is served (R71). -/
def State.domServed (s : State) (d : Nat) : State :=
  if s.keeper.domWork.head? = some d then
    let s := s.domNext (s.keeper.domWork.drop 1)
    if s.domServing then s else s.domDrain s.keeper.domWaits
  else s

/-- One held request is applied, or refused (R71, R108). DESIGN CHOICE (notes/assumptions/18.md). -/
def State.domHeld (s : State) (d : Nat) : State :=
  let c := s.domRefusal (s.reg R.pwDomReqOnReq) d .spi
  if c ≠ 0 then (s.domRefuse d c).setRegBit R.pwDomReqOnReq (d - 1) (s.domUp d) else if s.domUp d then s.domSleep d else s

/-- The requests held in ON_REQ are applied when run begins (R108). DESIGN CHOICE (notes/assumptions/18.md). -/
def State.domApply (s : State) : State :=
  let want := s.reg R.pwDomReqOnReq
  let held := fun (l : List Nat) => l.filter s.member.hasDomain
  let s := (held (s.domOffs want)).foldl State.domHeld s
  let s := (held (s.domOns want)).foldl State.domHeld s
  s.domNext (held (s.domOns (s.reg R.pwDomReqOnReq)))

/-- A requested domain comes on at K9 (R71, R94); one whose needed domains are off is refused. -/
def State.domBoot (s : State) (d : Nat) : State :=
  if s.domOn d || !(s.member.hasDomain d) then s
  else if (domNeeds d).all s.domOn then s.domReady d
  else (s.domRefuse d 2).setRegBit R.pwDomReqOnReq (d - 1) false

/-! ## Resets (R68, R69, R83) -/

/-- Timers that Keeper and the ledger head keep through a core reset; the others belong to PD01 to PD25.
DEDUCED (notes/assumptions/17.md). -/
def Timer.keeps : Timer → Bool
  | .brownHold | .ppsLost | .announce | .slew | .holdAge | .reverse | .camSync | .camLatch _
  | .coalesce _ => true
  | _ => false

/-- The active set is gone: no CANVAS, no plan, every tile OFF (R83, R96). DEDUCED (notes/assumptions/17.md). -/
def State.clearCanvas (s : State) : State :=
  let s := (s.modCv fun _ => {}).modRoles fun l => l.map fun _ => 0
  let z := [R.cvStatusStaged, R.cvStatusEpoch, R.cvStatusHangPend, R.cvStatusDraining, R.cvStatusLoadBusy,
    R.cvStatusInitHeld, R.cvStatusActive, R.cvStatusPlanStaged, R.cvActiveIdId, R.cvStagedIdId,
    R.cvEpochDrainCount, R.cvHangCostUs, R.pwDomReqQuadReq]
  let s := z.foldl (fun s r => s.setReg r 0) s
  let s := (s.setRegs R.cvRoleARole 4 fun _ => 0).setRegs R.cvRoleERole 4 fun _ => 0
  (s.modMesh fun _ => {}).modPp fun _ => {}

/-- Registers of the core blocks: every block but KP, PC, PW, TM, CV, QM and LG returns to reset.
DEDUCED (notes/assumptions/17.md). -/
def State.clearCore (s : State) : State :=
  (s.clearRegs 0x400000 0x500000).clearRegs 0x900000 0xF80000

/-- State of the core blocks that no register holds. DEDUCED (notes/assumptions/17.md). -/
def State.dropCore (s : State) : State :=
  let s := (((s.modEi fun _ => {}).modSf fun _ => {}).modXr fun _ => {}).modFu fun _ => {}
  ((s.modRd fun _ => {}).modSl fun _ => {}).modDeParity fun _ => []

/-- The pins of a core reset: READY low, display and handshakes still; HEARTBEAT holds its level (R63, R76, R87).
DEDUCED (notes/assumptions/17.md). -/
def State.corePins (s : State) : State :=
  ((s.modPins fun p => { p with camSync := .low, aerAck := .low, dsi := .z, spanTx := .z, alarmTx := .z, spiSdo := .z }).setReady
    false).xoffPins

/-- A core reset (R69): PD01 to PD25 are cleared; Keeper, the fault stack, the history and DEVTIME are kept.
Items in flight get no record (R34), and the ended table is cleared (R459). DEDUCED (notes/assumptions/17.md). -/
def State.coreReset (s : State) : State :=
  let s := ((List.range 26).drop 1).foldl (fun s d => if s.domUp d then s.domOff d else s) s
  let s := (((s.clearCore).dropCore).clearCanvas).clearPalette
  let s := s.modTimers fun l => l.filter (·.1.keeps)
  let s := s.modLg fun l => { l with items := [], ended := [], seqs := l.seqs.filter (·.1 = 0) }
  let s := ((s.setReg R.lgStatusQuiescing 0).setReg R.pwHbMode 0).setReg R.kpBootStep 1
  let s := s.modKeeper fun k => { k with switching := [], domWork := [], domWaits := [], lastResult := none, hbPulse := 0,
                                         guardDeepest := false, guardSeams := 0 }
  let s := s.setReg R.pcLevelLevel 0
  ((s.setReg R.pcLevelGuardLvl 0).setReg R.pwHbCode 0).corePins

/-- PW_RESET_CAUSE shows the cause of the last reset (R69, R90). -/
def State.setCause (s : State) (cause : Row) : State :=
  ([R.pwResetCausePor, R.pwResetCausePin, R.pwResetCauseBrownout, R.pwResetCauseHost, R.pwResetCauseKeeperWd,
    R.pwResetCauseThermal].foldl (fun (s : State) r => s.setReg r 0) s).setReg cause 1

/-- A full reset with a cause bit of PW_RESET_CAUSE (R69): every register at reset, DEVTIME 0, every ball in its
Reset state (R61), external memory undefined. The part, the Keeper store and the host's memory stay.
DEDUCED (notes/assumptions/17.md). -/
def State.fullReset (s : State) (cause : Row) : State :=
  { part := s.part, store := s.store, regs := [(cause.key 0 0, 1)], hostMem := s.hostMem, freeCtr := s.freeCtr + 1,
    ext := s.ext.makeUndef 0 s.member.extBytes s.freeCtr,
    pins := { resetN := s.pins.resetN, porReleased := s.pins.porReleased, perstN := s.pins.perstN },
    hi := { tap := s.hi.tap, boundary := s.hi.boundary }, pending := s.pending }

/-! ## GESSO (R78, R108) -/

/-- HEARTBEAT starts the code pattern (R75): low, the first pulse due now. DESIGN CHOICE (notes/assumptions/27.md). -/
def State.startCode (s : State) : State :=
  let s := s.modKeeper fun k => { k with hbPulse := 0 }
  ((s.modPins fun p => { p with heartbeat := .low }).setReg R.pwHbMode 3).arm .heartbeat 0

/-- Keeper enters GESSO with a code (R78, R79, R80, R108): domains, pins, HEARTBEAT, vector 6.
DESIGN CHOICE (notes/assumptions/27.md). -/
def State.enterGesso (s : State) (code : Nat) : State :=
  let off := ((List.range 26).drop 1).filter fun d => d ≠ 1 ∧ d ≠ 4 ∧ d ≠ 6
  let s := off.foldl (fun s d => if s.domUp d then s.domOff d else s) s
  let s := ((s.domOnNow 4).domOnNow 6).domOnNow 1
  let s := s.clearCanvas
  let waits := s.keeper.domWaits
  let s := (s.modKeeper fun k => { k with mode := .gesso, lastResult := none, domWork := [] }).domDrain waits
  let s := (s.setReg R.kpBootStep 15).setReg R.pwHbCode code
  let s := (s.setReady false).setFaultN (code ≠ 1)
  let s := s.modPins fun p => { p with camSync := .low, aerAck := .low, dsi := .z, spanTx := .z }
  let s := ((s.startCode).refreshXoff).vector 6
  if s.armed .alarm then s else s.arm .alarm (1000000000 * s.reg R.hiAlarmPeriod)

/-! ## Commands -/

/-- RESET_N_ASSERT (R68, R69, R83): the qualified low level resets the device in full. -/
def execResetNAssert (s : State) : Out :=
  if s.keeper.mode = .reset then .next (s.modPins fun p => { p with resetN := false })
  else .next ((s.fullReset R.pwResetCausePin).modPins fun p => { p with resetN := false })

/-- DOMAIN_REQUEST (R12, R71, R84, R87, R90): a write of PW_DOM_REQ. -/
def execDomainRequest (value : Word) (via : Iface) (s : State) : Out :=
  .next (if s.writeReaches 0x20000C via then s.domRequest (bits value.toNat 9 1) via else s)

/-- A domain is on its way to on or off (R70, R88). -/
def State.switches (s : State) (d : Nat) : Bool := s.keeper.switching.any (·.1 = d)

/-- DOMAIN_SWITCH_FAIL (R88, R458): 10 times the wake latency has passed; the domain is marked failed, and the
items held in it stay outstanding. -/
def execDomainSwitchFail (d : Nat) (s : State) : Out :=
  .next (if s.switches d && s.due (.domain d) then
    let s := s.modKeeper fun k => { k with switching := k.switching.filter (·.1 ≠ d) }
    (((s.disarm (.domain d)).setRegBit R.pwDomFailedFailed d true).raise 0x200004 d 2 2).domServed d
  else s)

/-- The average of a list of samples. DESIGN CHOICE (notes/assumptions/21.md). -/
def meanOf (l : List Nat) : Nat := (openDiv 74 ((l.foldl (· + ·) 0 : Nat) : Int) l.length).toNat

/-- POWER_SAMPLE (R74): package power in mW every 100 µs; its average over 10 ms (100 samples) is compared with
the member's maximum. DESIGN CHOICE (notes/assumptions/21.md). DESIGN CHOICE (notes/assumptions/29.md). -/
def execPowerSample (mw : BitVec 16) (s : State) : Out :=
  if !s.alive then .next s else
    let h := (mw.toNat :: s.keeper.powerHist).take 100
    let avg := meanOf h
    let s := (s.modKeeper fun k => { k with powerHist := h }).setReg R.pwPowerMw avg
    let s := if s.reg R.pwPowerPeakMw < avg then s.setReg R.pwPowerPeakMw avg else s
    .next (if s.member.maxMw < avg && !(s.flag R.pwPowerOver) then
      (s.setReg R.pwPowerOver 1).raise 0x20001C 16 1 2
    else s)

/-- POWER_PEAK_CLR (R90): clears the highest average. -/
def execPowerPeakClr (s : State) : Out := .next ((s.setCmd R.pwPowerPeakClr).setReg R.pwPowerPeakMw 0)

/-- After a thermal trip the pins of PD01 to PD25 are in their Reset state, and HEARTBEAT is low (R61, R87). -/
def State.tripPins (s : State) : State :=
  ((s.modPins fun p => { p with heartbeat := .low, camSync := .z, aerAck := .z }).modKeeper fun k =>
    { k with mode := .tripped }).xoffPins

/-- TEMP_SAMPLE (R79, R81, R87): the hottest junction in 0.125 °C.
DESIGN CHOICE (notes/assumptions/21.md). DESIGN CHOICE (notes/assumptions/29.md). -/
def execTempSample (tj : BitVec 12) (s : State) : Out :=
  if !s.alive then .next s else
    let t := tj.toInt
    let s := (s.setReg R.pwTempTj tj.toNat).setFlag R.pwTempHot (decide (840 ≤ t))
    let s := if 864 ≤ t && !(s.flag R.pwTempWarn) then (s.setReg R.pwTempWarn 1).raise 0x200018 17 2 2 else s
    .next (if 920 ≤ t && s.keeper.mode ≠ .tripped then
      (((s.coreReset).setCause R.pwResetCauseThermal).tripPins).setFaultN true
    else s)

/-- THERMAL_COOLED (R78, R87, R89): below 95 °C after a trip Keeper switches PD01 on and enters GESSO 8. -/
def execThermalCooled (tj : BitVec 12) (s : State) : Out :=
  .next (if s.keeper.mode = .tripped ∧ tj.toInt < 760 then
    ((s.setReg R.pwTempTj tj.toNat).setFlag R.pwTempHot false).enterGesso 8
  else s)

/-- PERST_N (R86, R453): resets only the PCIe logic; the link is down while it is asserted. DEDUCED (notes/assumptions/17.md). -/
def execPerstN (asserted : Bool) (s : State) : Out :=
  let s := s.modPins fun p => { p with perstN := !asserted }
  .next (if asserted then ((s.setReg R.hiStatusLinkUp 0).setReg R.hiStatusGen 0).setReg R.hiStatusWidth 0 else s)

/-- The conditions of the healthy pattern (R76, R85). DESIGN CHOICE (notes/assumptions/68.md). -/
def State.healthy (s : State) : Bool :=
  s.inRun && s.flag R.cvStatusActive && s.reg R.lgStatusCause ≠ 1 && !(s.flag R.lgStatusQuiescing) &&
  match s.keeper.lastResult with
  | some t => decide (s.devtime < t + 250000000)
  | none => false

/-- Make an edge: the pin takes the other level. DESIGN CHOICE (notes/assumptions/68.md). -/
def State.hbToggle (s : State) : State :=
  s.modPins fun p => { p with heartbeat := if p.heartbeat = .high then .low else .high }

/-- High and low time of the healthy pattern in ns, by VERSION_UNTESTED (R75). DESIGN CHOICE (notes/assumptions/68.md). -/
def State.hbPhase (s : State) (high : Bool) : Nat :=
  if s.flag R.kpAgreeUntestedLatch then (if high then 93750000 else 31250000) else 62500000

/-- A scheduled edge in run (R76): made only while the conditions hold. DESIGN CHOICE (notes/assumptions/68.md). -/
def State.hbRunEdge (s : State) : State :=
  if s.healthy then
    let s := (s.hbToggle).setReg R.pwHbMode (if s.flag R.kpAgreeUntestedLatch then 2 else 1)
    s.arm .heartbeat (s.hbPhase (s.pins.heartbeat = .high))
  else (s.setReg R.pwHbMode 0).arm .heartbeat 62500000

/-- A scheduled edge of the code pattern (R75): c pulses of 31.25 ms high and low, then 1,000 ms low.
DESIGN CHOICE (notes/assumptions/68.md). -/
def State.hbCodeEdge (s : State) : State :=
  if s.pins.heartbeat = .high then
    let n := s.keeper.hbPulse + 1
    let last := decide (s.reg R.pwHbCode ≤ n)
    let s := (s.hbToggle).modKeeper fun k => { k with hbPulse := if last then 0 else n }
    s.arm .heartbeat (if last then 1031250000 else 31250000)
  else (s.hbToggle).arm .heartbeat 31250000

/-- HEARTBEAT_EDGE (R75, R76, R85, R107, R357): a scheduled edge falls due. While Keeper boots, and from a quiesce
on, there is none. DESIGN CHOICE (notes/assumptions/68.md). -/
def execHeartbeatEdge (s : State) : Out :=
  .next (if !(s.due .heartbeat) || !s.clockRuns then s
    else if s.inGesso then s.hbCodeEdge
    else if s.inRun && !(s.flag R.lgStatusQuiescing) then s.hbRunEdge
    else s)

end Sys2Proof.Machine
end

