-- ==== Sys2Proof/Machine/Images.lean ====
section
/-! DEFINITION. Images: the signature check (R98 to R100), and the readings of CANVAS, plan, manifest and
boot-set directory (R97, R103, R118 to R132, R151 to R153). -/
namespace Sys2Proof.Machine

/-- CRC-16 with polynomial 0x1021 and initial value 0xFFFF (R437). DESIGN CHOICE (notes/assumptions/25.md). -/
def crc16Bits : Nat → Nat → Nat
  | 0, c => c
  | n + 1, c => crc16Bits n (if c / 2 ^ 15 % 2 = 1 then ((c * 2) % 2 ^ 16) ^^^ 0x1021 else (c * 2) % 2 ^ 16)

/-- CRC-16 over bytes, most significant bit first. -/
def crc16 (l : List Byte) : Nat := l.foldl (fun c b => crc16Bits 8 (c ^^^ (b.toNat * 256))) 0xFFFF

/-- CRC-8 with polynomial 0x07 (R446). -/
def crc8Bits : Nat → Nat → Nat
  | 0, c => c
  | n + 1, c => crc8Bits n (if c / 2 ^ 7 % 2 = 1 then ((c * 2) % 2 ^ 8) ^^^ 0x07 else (c * 2) % 2 ^ 8)

/-- CRC-8 over bytes with initial value 0 (R446). -/
def crc8 (l : List Byte) : Nat := l.foldl (fun c b => crc8Bits 8 (c ^^^ b.toNat)) 0

/-! ## Signatures (R98 to R100) -/

/-- The outcome of a signature check as KP_SIG.RESULT numbers it (R100, R117). -/
inductive SigRes where
  | valid | unsignedOk | failed | unsignedRefused
  deriving DecidableEq, Repr

/-- RESULT code of KP_SIG. -/
def SigRes.code : SigRes → Nat
  | .valid => 0 | .unsignedOk => 1 | .failed => 2 | .unsignedRefused => 3

/-- The outcome is not Refused (R100). -/
def SigRes.ok : SigRes → Bool
  | .valid => true | .unsignedOk => true | _ => false

/-- An image ends in a trailer: its last 144 bytes start with the trailer's MAGIC (R98).
DESIGN CHOICE (notes/assumptions/25.md). -/
def hasTrailer (img : List Byte) : Bool :=
  decide (144 ≤ img.length) && fieldAt img (img.length - 144) 4 == 0x53494731

/-- The key slot may verify the image kind (R99): slot 0 firmware (4) and manifests (1), slots 1 to 4 CANVAS (2)
and plan (3) when valid, not revoked, and fused with the digest of the trailer's key. -/
def State.slotOk (s : State) (kind slot : Nat) (key : List Byte) : Bool :=
  if kind = 1 ∨ kind = 4 then slot == 0
  else
    let k := s.part.slots.getD (slot - 1) {}
    decide (1 ≤ slot) && decide (slot ≤ 4) && k.valid && !k.revoked && k.digest == sha256 key

/-- The signature check of an image (R98, R99, R100); `signed` says that a trailer is declared.
DESIGN CHOICE (notes/assumptions/7.md). PRESUMED (notes/assumptions/72.md). -/
def State.sigCheck (s : State) (kind : Nat) (signed : Bool) (img : List Byte) : SigRes :=
  if !signed then (if s.part.sbEn then .unsignedRefused else .unsignedOk)
  else
    let o := img.length - 144
    let slot := fieldAt img (o + 4) 1
    let key := bytesAt img (o + 0x10) 64
    if hasTrailer img && fieldAt img (o + 5) 1 == 1 && fieldAt img (o + 6) 2 == 0 && fieldAt img (o + 8) 4 == o &&
      fieldAt img (o + 12) 4 == 0 && s.slotOk kind slot key &&
      ecdsaVerifies (img.take o ++ bytesAt img o 0x50) (if slot = 0 then Config.romKey else key) (bytesAt img (o + 0x50) 64)
    then .valid else .failed

/-- KP_SIG shows the check (R117). -/
def State.noteSig (s : State) (kind : Nat) (slot : Nat) (r : SigRes) : State :=
  let s := ((s.setReg R.kpSigKind kind).setReg R.kpSigResult r.code).setReg R.kpSigSlot slot
  if r = .unsignedOk then s.setReg R.kpSigUnsignedSeen 1 else s

/-- The key slot that an image's trailer names. DESIGN CHOICE (notes/assumptions/25.md). -/
def slotIn (img : List Byte) : Nat := if hasTrailer img then fieldAt img (img.length - 140) 1 else 0

/-! ## CANVAS images (R118 to R132) -/

/-- n records of a section, by their bytes. -/
def records (img : List Byte) (off size n : Nat) : List (List Byte) :=
  (List.range n).map fun i => bytesAt img (off + size * i) size

/-- COUNT, OFFSET and LENGTH of directory entry k (R118). -/
def dirEntry (img : List Byte) (k : Nat) : Nat × Nat × Nat :=
  (fieldAt img (0x24 + 16 * k) 4, fieldAt img (0x28 + 16 * k) 4, fieldAt img (0x2C + 16 * k) 4)

/-- INIT records from an offset (R119, R132): header, data, padding to 16 bytes. -/
def initRecords (img : List Byte) : Nat → Nat → List InitRec
  | 0, _ => []
  | n + 1, o =>
    let len := fieldAt img (o + 8) 4
    { tile := fieldAt img o 1, part := fieldAt img (o + 1) 1 % 16, off := fieldAt img (o + 4) 4, data := bytesAt img (o + 16) len } ::
      initRecords img n (o + 16 + ceilDiv len 16 * 16)

/-- Bytes that n INIT records take from an offset. -/
def initLength (img : List Byte) : Nat → Nat → Nat
  | 0, _ => 0
  | n + 1, o =>
    let len := 16 + ceilDiv (fieldAt img (o + 8) 4) 16 * 16
    len + initLength img n (o + len)

/-- TILE record (R120). -/
def TileRec.ofBytes (b : List Byte) : TileRec :=
  let v := leNat b
  { role := bits v 1 0, parts := bits v 12 8, partFirst := bits v 31 16, routes := bits v 40 32, routeFirst := bits v 63 48 }

/-- ROUTE record (R122). -/
def RouteRec.ofBytes (b : List Byte) : RouteRec :=
  let v := leNat b
  { key := bits v 31 0, mask := bits v 63 32, out := bits v 68 64, vc := bits v 73 72, dest := bits v 85 80 }

/-- QUEUE record (R124). -/
def QueueRec.ofBytes (b : List Byte) : QueueRec :=
  let v := leNat b
  { qid := bits v 8 0, cls := bits v 11 9, xoff := bits v 15 12, quota := bits v 36 16, high := bits v 57 37,
    low := bits v 78 58, prod := bits v 87 80, cons := bits v 95 88 }

/-- MEM record (R126). -/
def MemRec.ofBytes (b : List Byte) : MemRec :=
  let v := leNat b
  { base := bits v 7 0, size := bits v 16 8, kind := bits v 20 17, keep := bitAt v 21, partId := bits v 27 24 }

/-- DEP record (R128). -/
def DepRec.ofBytes (b : List Byte) : DepRec :=
  let v := leNat b
  { tile := bits v 5 0, port := bits v 8 6, vc := bits v 10 9, wait := bits v 23 16 }

/-- REG record (R131). -/
def RegRec.ofBytes (b : List Byte) : RegRec :=
  { off := fieldAt b 0 4, value := fieldAt b 4 4, mask := fieldAt b 8 4 }

/-- The CANVAS that an image holds (R118 to R132). -/
def Canvas.ofImage (img : List Byte) : Canvas :=
  let sec := fun (k size : Nat) => let e := dirEntry img k; records img e.2.1 size e.1
  let ini := dirEntry img 6
  { format := fieldAt img 4 2, id := fieldAt img 0x10 4, quadOn := fieldAt img 0x0E 2,
    tiles := (sec 0 16).map TileRec.ofBytes, routes := (sec 1 16).map RouteRec.ofBytes,
    queues := (sec 2 16).map QueueRec.ofBytes, mems := (sec 3 8).map MemRec.ofBytes, deps := (sec 4 8).map DepRec.ofBytes,
    regs := (sec 5 12).map RegRec.ofBytes, inits := initRecords img ini.1 ini.2.1 }

/-- Record size of section k; INIT has no fixed one (R119). -/
def sectionSize (k : Nat) : Nat := if k ≤ 2 then 16 else if k ≤ 4 then 8 else 12

/-- The route entries of tile t (R120). -/
def Canvas.tileRoutes (c : Canvas) (t : Nat) : List RouteRec :=
  let r := c.tiles.getD t {}
  (c.routes.drop r.routeFirst).take r.routes

/-- The partitions of tile t (R120). -/
def Canvas.tileParts (c : Canvas) (t : Nat) : List MemRec :=
  let r := c.tiles.getD t {}
  (c.mems.drop r.partFirst).take r.parts

/-- A partition of a tile by its PART_ID (R126). -/
def Canvas.part (c : Canvas) (t p : Nat) : Option MemRec := (c.tileParts t).find? (·.partId = p)

/-- The role that the CANVAS gives tile t. -/
def Canvas.role (c : Canvas) (t : Nat) : Nat := (c.tiles.getD t {}).role

/-! ## Plan images (R151 to R153) -/

/-- The header of a plan image at an external address (R151). -/
def Plan.ofImage (addr len : Nat) (img : List Byte) : Plan :=
  let f := fieldAt img
  { addr := addr, len := len, abi := f 4 2, phases := f 7 1, fwLo := f 8 2, fwHi := f 0x0A 2, cvLo := f 0x0C 2,
    cvHi := f 0x0E 2, canvasIds := (List.range 4).map fun k => f (0x10 + 4 * k) 4, entry := f 0x20 4, bundles := f 0x24 4,
    bundleOff := f 0x28 4, dataOff := f 0x2C 4, dataLen := f 0x30 4, certOff := f 0x34 4, certLen := f 0x38 4,
    groupOff := f 0x3C 4, dUs := f 0x40 4, pCert := f 0x44 2, levels := f 0x46 1, backoff := f 0x47 1, thetaHi := f 0x48 2,
    thetaLo := f 0x4A 2, grace := f 0x4C 4, bstep := (List.range 4).map fun l => f (0x50 + 4 * l) 4, streams := f 0x60 2,
    scrOff := f 0x64 4, scrLen := f 0x68 4 }

/-- A plan names a CANVAS_ID (R134, R151): the slot that does. -/
def Plan.slotFor (p : Plan) (id : Nat) : Option Nat := p.canvasIds.findIdx? fun x => x == id && x != 0

/-- Bundle i of a plan image as a number (R155). -/
def bundleIn (p : Plan) (img : List Byte) (i : Nat) : Nat := leNat (bytesAt img (p.bundleOff + 256 * i) 256)

/-- MASK and ROLE of group g of CANVAS slot c and phase ph (R152). -/
def groupIn (p : Plan) (img : List Byte) (c ph g : Nat) : Nat × Nat :=
  let o := p.groupOff + 1024 * (8 * c + ph) + 16 * g
  (fieldAt img o 8, fieldAt img (o + 8) 1 % 4)

/-- The bits of a group entry that must be 0 (R152). -/
def groupRest (p : Plan) (img : List Byte) (c ph g : Nat) : Nat :=
  fieldAt img (p.groupOff + 1024 * (8 * c + ph) + 16 * g + 8) 8 / 4

/-- SEAMS and PATHS of the certificate (R153). -/
def certSeams (p : Plan) (img : List Byte) : Nat := fieldAt img (p.certOff + 4) 4
/-- PATHS of the certificate (R153). -/
def certPaths (p : Plan) (img : List Byte) : Nat := fieldAt img (p.certOff + 8) 4

/-- The bound b of bundle i in 10 ns units (R153). -/
def boundIn (p : Plan) (img : List Byte) (i : Nat) : Nat := fieldAt img (p.certOff + 16 + 4 * i) 4

/-- B_rem of a seam bundle at level l, by its certificate entry (R153). -/
def bremIn (p : Plan) (img : List Byte) (i l : Nat) : Option Nat :=
  let base := p.certOff + 16 + 4 * p.bundles
  ((List.range (certSeams p img)).find? fun k => fieldAt img (base + 20 * k) 4 = i).map fun k =>
    fieldAt img (base + 20 * k + 4 + 4 * l) 4

/-! ## Manifests and the boot set (R97, R103) -/

/-- The bits of manifest entry i that must be 0 (R103). -/
def manifestZero (img : List Byte) (i : Nat) : Bool :=
  let v := fieldAt img (64 + 16 * i) 16
  bits v 15 12 == 0 && bits v 127 96 == 0

/-- Bytes of an image before its trailer (R98). -/
def bodyLength (img : List Byte) : Nat := if hasTrailer img then img.length - 144 else img.length

/-- A well-formed manifest (R103, R111): header, COUNT entries, and nothing else before its trailer.
DESIGN CHOICE (notes/assumptions/25.md). -/
def Manifest.ofImage (img : List Byte) : Option Manifest :=
  let n := fieldAt img 8 2
  let zero := (img.drop 10).take 54
  if fieldAt img 0 4 = 0x514D4631 ∧ 1 ≤ n ∧ n ≤ 512 ∧ zero.all (· == 0) = true ∧ bodyLength img = 64 + 16 * n ∧
      (List.range n).all (manifestZero img) = true then
    some { image := img, serial := fieldAt img 4 4, entries := (List.range n).map fun i =>
      let o := 64 + 16 * i
      { stepping := fieldAt img o 1, members := fieldAt img (o + 1) 1 % 16, fw := fieldAt img (o + 2) 2,
        cvLo := fieldAt img (o + 4) 2, cvHi := fieldAt img (o + 6) 2, abiLo := fieldAt img (o + 8) 2,
        abiHi := fieldAt img (o + 10) 2 } }
  else none

/-- One entry of the boot-set directory (R97). -/
structure DirEnt where
  kind : Nat
  signed : Bool
  off : Nat
  len : Nat
  deriving DecidableEq, Repr

/-- The boot-set directory at external address 0 (R97): none where it breaks a rule. DESIGN CHOICE (notes/assumptions/12.md). -/
def bootDir (m : Mem) : Option (List DirEnt) :=
  let d := m.readBytes 0 64
  let n := fieldAt d 6 2
  let es := (List.range n).map fun e =>
    let o := 8 + 12 * e
    (fieldAt d (o + 1) 1, ({ kind := fieldAt d o 1, signed := bitAt (fieldAt d (o + 1) 1) 0, off := fieldAt d (o + 4) 4,
                             len := fieldAt d (o + 8) 4 } : DirEnt), fieldAt d (o + 2) 2)
  let ok := fieldAt d 0 4 == 0x51534231 && fieldAt d 4 2 == 1 && decide (1 ≤ n) && decide (n ≤ 4) &&
    fieldAt d 0x38 8 == 0 &&
    es.all fun e => decide (e.1 < 2) && e.2.2 == 0 && decide (1 ≤ e.2.1.kind) && decide (e.2.1.kind ≤ 4) &&
      e.2.1.off % 4096 == 0 && decide (0 < e.2.1.len) && decide (e.2.1.off + e.2.1.len ≤ 0x4000000)
  let l := es.map (·.2.1)
  let once := (List.range 5).all fun k => decide ((l.filter (·.kind = k)).length ≤ 1)
  if ok && once && l.any (·.kind = 2) && l.any (·.kind = 3) then some l else none

end Sys2Proof.Machine
end

