-- ==== Sys2Proof/Machine/Loader.lean ====
section
/-! DEFINITION. The loader's checks on a CANVAS and a plan (R100 to R107, R112, R118 to R134, R145, R174), in
ascending order of their codes. A check answers the first offending index. -/
namespace Sys2Proof.Machine

/-! ## Version agreement (R101 to R107, R112) -/

/-- lo ≤ v ≤ hi. -/
def within (lo hi v : Nat) : Bool := decide (lo ≤ v) && decide (v ≤ hi)

/-- What agreement looks at in the staged pair. -/
structure Pair where
  cvMember : Nat
  stepLo : Nat
  stepHi : Nat
  cvFwLo : Nat
  cvFwHi : Nat
  format : Nat
  abi : Nat
  plFwLo : Nat
  plFwHi : Nat
  plCvLo : Nat
  plCvHi : Nat
  deriving DecidableEq, Repr

/-- The pair of a CANVAS image and a plan. -/
def Pair.of (cv : List Byte) (p : Plan) : Pair :=
  { cvMember := fieldAt cv 6 1, stepLo := fieldAt cv 8 1, stepHi := fieldAt cv 9 1, cvFwLo := fieldAt cv 0x0A 2,
    cvFwHi := fieldAt cv 0x0C 2, format := fieldAt cv 4 2, abi := p.abi, plFwLo := p.fwLo, plFwHi := p.fwHi,
    plCvLo := p.cvLo, plCvHi := p.cvHi }

/-- Components that do not agree, as KP_AGREE.MISMATCH: silicon, firmware, CANVAS, plan (R102, R117). -/
def State.mismatch (s : State) (b : Bank) (p : Pair) : Nat :=
  let silicon := within b.stepLo b.stepHi s.part.stepping && bitAt b.members s.member.num &&
    within p.stepLo p.stepHi s.part.stepping && p.cvMember == s.member.num
  let fw := within p.cvFwLo p.cvFwHi b.version && within p.plFwLo p.plFwHi b.version
  let cv := within b.cvLo b.cvHi p.format && within p.plCvLo p.plCvHi p.format
  let pl := within b.abiLo b.abiHi p.abi
  ofFlag (!silicon) + 2 * ofFlag (!fw) + 4 * ofFlag (!cv) + 8 * ofFlag (!pl)

/-- A combination is tested (R104): some entry of the manifest in use names it. -/
def State.tested (s : State) (b : Bank) (p : Pair) : Bool :=
  match s.manifest with
  | none => false
  | some m => m.entries.any fun e =>
    e.stepping == s.part.stepping && bitAt e.members s.member.num && e.fw == b.version && within e.cvLo e.cvHi p.format &&
    within e.abiLo e.abiHi p.abi

/-- A bank is a candidate (R105). -/
def State.candidate (s : State) (i : Nat) : Bool :=
  let b := s.bank i
  s.bankUsable i && !b.excluded && within b.stepLo b.stepHi s.part.stepping && bitAt b.members s.member.num

/-- Of two banks the one that R105 prefers: the higher version, then the preferred bank. -/
def State.pickBank (s : State) (l : List Nat) : Option Nat :=
  match l with
  | [] => none
  | [i] => some i
  | _ =>
    if s.store.bankA.version < s.store.bankB.version then some 1
    else if s.store.bankB.version < s.store.bankA.version then some 0
    else some (if s.store.preferB then 1 else 0)

/-- Outcome of K7 (R105): bank, RESULT, MISMATCH; or the GESSO code of a refusal. -/
inductive Agree where
  | run (bank : Nat) (untested : Bool)
  | refuse (code result mismatch : Nat)
  deriving DecidableEq, Repr

/-- K7: agreement and bank selection among the given banks (R96, R105, R112). DESIGN CHOICE (notes/assumptions/12.md). -/
def State.agree (s : State) (cands : List Nat) (p : Pair) : Agree :=
  let compat := cands.filter fun i => s.mismatch (s.bank i) p == 0
  match s.pickBank (compat.filter fun i => s.tested (s.bank i) p), s.pickBank compat, s.pickBank cands with
  | some i, _, _ => .run i false
  | none, some i, _ => if s.flag R.kpCtrlAllowUntested then .run i true else .refuse 2 2 0
  | none, none, some i => .refuse 2 3 (s.mismatch (s.bank i) p)
  | none, none, none => .refuse 4 3 1

/-- The bank of the running firmware, where one runs (R117). -/
def State.runningBank (s : State) : Option Nat := if s.flag R.kpFwRomOnly then none else some (s.reg R.kpFwBank)

/-! ## CANVAS checks (R145) -/

/-- First index of a list that fails a test. -/
def firstBad {α : Type} (ok : α → Bool) : Nat → List α → Option Nat
  | _, [] => none
  | n, x :: t => if ok x then firstBad ok (n + 1) t else some n

/-- The neighbour of tile t at a port: 0 north, 1 south, 2 east, 3 west (R122). -/
def State.neighbour (s : State) (t port : Nat) : Option Nat :=
  let c := s.member.cols
  let x := t % c
  let y := t / c
  if port = 0 then (if 0 < y then some (t - c) else none)
  else if port = 1 then (if y + 1 < s.member.rows then some (t + c) else none)
  else if port = 2 then (if x + 1 < c then some (t + 1) else none)
  else if port = 3 then (if 0 < x then some (t - 1) else none)
  else none

/-- The port of tile t that leads toward a tile in dimension order, X then Y (R20); none at the tile itself. -/
def State.xyPort (s : State) (t dest : Nat) : Option Nat :=
  if s.tileX t < s.tileX dest then some 2 else if s.tileX dest < s.tileX t then some 3
  else if s.tileY t < s.tileY dest then some 1 else if s.tileY dest < s.tileY t then some 0 else none

/-- The tiles on the X-then-Y path from a tile to another, both ends included (R20, R129). -/
def State.xyPath (s : State) (dest : Nat) : Nat → Nat → List Nat
  | 0, t => [t]
  | n + 1, t =>
    match s.xyPort t dest with
    | none => [t]
    | some p => t :: s.xyPath dest n ((s.neighbour t p).getD t)

/-- Bytes of an image from a to b are zero. -/
def zeroBytes (img : List Byte) (a b : Nat) : Bool := ((img.drop a).take (b - a)).all (· == 0)

/-- The reserved bits of one record are 0 (R118 to R132). -/
def recordZero (k : Nat) (b : List Byte) : Bool :=
  let v := leNat b
  if k = 0 then bits v 7 2 == 0 && bits v 15 13 == 0 && bits v 47 41 == 0 && bits v 127 64 == 0
  else if k = 1 then bits v 71 69 == 0 && bits v 79 74 == 0 && bits v 127 86 == 0
  else if k = 2 then !(bitAt v 79) && bits v 127 96 == 0
  else if k = 3 then bits v 23 22 == 0 && bits v 63 28 == 0
  else if k = 4 then bits v 15 11 == 0 && bits v 63 24 == 0
  else true

/-- Most records of a section that has a limit of its own (05, At the limits). -/
def sectionLimit (k tiles : Nat) : Option Nat :=
  if k = 0 then some tiles else if k = 1 then some (256 * tiles) else if k = 2 then some 512
  else if k = 3 then some (16 * tiles) else if k = 4 then some (64 * tiles) else if k = 5 then some 1024 else none

/-- The first INIT record, counted from i, whose header bits without a name or whose padding are not 0 (R119, R132). -/
def initBad (img : List Byte) (i : Nat) : Nat → Nat → Option Nat
  | 0, _ => none
  | n + 1, o =>
    let len := fieldAt img (o + 8) 4
    let next := o + 16 + ceilDiv len 16 * 16
    if decide (fieldAt img (o + 1) 1 < 16) && fieldAt img (o + 2) 2 == 0 && fieldAt img (o + 12) 4 == 0 &&
      decide (next ≤ img.length) && zeroBytes img (o + 16 + len) next then initBad img (i + 1) n next else some i

/-- Bytes of INIT data of n records from an offset (05, At the limits). -/
def initData (img : List Byte) : Nat → Nat → Nat
  | 0, _ => 0
  | n + 1, o =>
    let len := fieldAt img (o + 8) 4
    len + initData img n (o + 16 + ceilDiv len 16 * 16)

/-- Directory, offsets, lengths, counts, padding and zero bits from section k on (R118, R119). Answers the end of
the last section, and the first offending index: the section where its entry or its padding is wrong, else the record.
DESIGN CHOICE (notes/assumptions/26.md). -/
def dirCheck (img : List Byte) (tiles : Nat) : Nat → Nat → Nat → Nat × Option Nat
  | 0, _, fin => (fin, none)
  | n + 1, k, fin =>
    let e := dirEntry img k
    let recs := min e.1 (img.length / 16)
    let len := if k = 6 then initLength img recs e.2.1 else sectionSize k * e.1
    let head := fieldAt img (0x20 + 16 * k) 1 == k + 1 && zeroBytes img (0x21 + 16 * k) (0x24 + 16 * k)
    let pad := ceilDiv (e.2.1 + len) 16 * 16
    let few := match sectionLimit k tiles with
      | some m => decide (e.1 ≤ m)
      | none => decide (initData img recs e.2.1 ≤ 0x400000)
    let ok := head && few && (k != 0 || e.1 == tiles) &&
      (if e.1 = 0 then e.2.2 == 0 && e.2.1 == fin
       else e.2.1 % 16 == 0 && decide (fin ≤ e.2.1) && (k != 0 || e.2.1 == 0x90) && e.2.2 == len && decide (pad ≤ img.length) &&
         zeroBytes img fin e.2.1 && zeroBytes img (e.2.1 + len) pad)
    if !ok then (fin, some k)
    else
      match if k = 6 then initBad img 0 recs e.2.1 else firstBad (recordZero k) 0 (records img e.2.1 (sectionSize k) e.1) with
      | some i => (fin, some i)
      | none => dirCheck img tiles n (k + 1) (if e.1 = 0 then fin else pad)

/-- BODY_CRC is right (R118). -/
def bodyCrcOk (img : List Byte) : Bool :=
  let n := fieldAt img 0x14 4
  crc32 ((img.take 0x18 ++ [0, 0, 0, 0] ++ (img.drop 0x1C)).take n) == fieldAt img 0x18 4

/-- Checks 0x05 and 0x06: BODY_CRC; layout, lengths and zero bits (R118, R119). -/
def State.checkLayout (s : State) (img : List Byte) : Option (Nat × Nat) :=
  let body := fieldAt img 0x14 4
  if img.length < body ∨ 0x800000 < img.length ∨ body < 0x90 then some (0x06, 0)
  else if !(bodyCrcOk img) then some (0x05, 0)
  else
    let d := dirCheck img s.member.tiles 7 0 0x90
    match d.2 with
    | some k => some (0x06, k)
    | none =>
      if body ≠ d.1 ∨ fieldAt img 0x1C 4 ≠ 0 ∨ fieldAt img 0x10 4 = 0 ∨ (hasTrailer img ∧ body ≠ img.length - 144) then some (0x06, 0)
      else none

/-- A KIND is allowed for a role (R126). -/
def kindAllowed (kind role : Nat) : Bool :=
  if 1 ≤ kind ∧ kind ≤ 3 then role == 1 else if 4 ≤ kind ∧ kind ≤ 7 then role == 2 else kind == 8

/-- Two partitions overlap. -/
def overlaps (a b : MemRec) : Bool := decide (a.base < b.base + b.size) && decide (b.base < a.base + a.size)

/-- No element of a list conflicts with a later one. -/
def pairwiseOk {α : Type} (bad : α → α → Bool) : List α → Bool
  | [] => true
  | x :: t => t.all (fun y => !(bad x y)) && pairwiseOk bad t

/-- The partitions of tile t are sound (R126). -/
def Canvas.partsOk (c : Canvas) (t : Nat) : Bool :=
  let r := c.tiles.getD t {}
  let ps := c.tileParts t
  decide (r.parts ≤ 16) && ps.length == r.parts &&
  ps.all (fun p => decide (1 ≤ p.size) && decide (p.base + p.size ≤ 256) && kindAllowed p.kind r.role) &&
  pairwiseOk (fun a b => overlaps a b || a.partId == b.partId) ps

/-- KEEP partitions match the active CANVAS (R127). -/
def State.keepOk (s : State) (c : Canvas) (t : Nat) : Bool :=
  (c.tileParts t).all fun p => !p.keep ||
    match s.cv.active with
    | none => false
    | some a => a.role t != 0 && c.role t != 0 &&
      match a.part t p.partId with
      | some q => q.base == p.base && q.size == p.size
      | none => false

/-- INIT data lie inside a non-KEEP partition (R132). DESIGN CHOICE (notes/assumptions/26.md). -/
def Canvas.initOk (c : Canvas) (r : InitRec) : Bool :=
  match c.part r.tile r.part with
  | some p => !p.keep && decide (r.off + r.data.length ≤ p.size * 4096)
  | none => false

/-- The ports set in OUT (R122). -/
def outPorts (out : Nat) : List Nat := setBits 5 out

/-- The route table of tile t is sound (R122, R123). -/
def State.routesOk (s : State) (c : Canvas) (t : Nat) : Bool :=
  let r := c.tiles.getD t {}
  let es := c.tileRoutes t
  decide (r.routes ≤ 256) && es.length == r.routes &&
  es.all (fun e => e.vc != 0 && e.out != 0 && (e.vc == 1 || (outPorts e.out).length == 1) &&
    (if e.vc = 1 then e.dest == 0 else decide (e.dest < s.member.tiles)) &&
    (outPorts e.out).all fun p => p == 4 || (s.neighbour t p).isSome) &&
  [1, 2, 3].all fun v =>
    match (es.filter (·.vc = v)).getLast? with
    | none => true
    | some e => e.mask == 0

/-- An escape record names a channel of VC2 or VC3 that exists (R128). -/
def State.depOk (s : State) (d : DepRec) : Bool :=
  decide (d.tile < s.member.tiles) && (d.vc == 2 || d.vc == 3) && d.wait != 0 &&
  (d.port == 4 || (s.neighbour d.tile d.port).isSome)

/-- The quad of a tile is declared on. -/
def State.quadOnFor (s : State) (c : Canvas) (t : Nat) : Bool := bitAt c.quadOn (s.quadOf t)

/-- R18 for tile t: a tile that is not OFF, a router with entries and every tile an entry leads to lie in quads
declared on. -/
def State.quadOk (s : State) (c : Canvas) (t : Nat) : Bool :=
  (c.role t == 0 || s.quadOnFor c t) &&
  ((c.tileRoutes t).isEmpty || s.quadOnFor c t) &&
  (c.tileRoutes t).all fun e => (outPorts e.out).all fun p =>
    match s.neighbour t p with
    | some n => s.quadOnFor c n
    | none => true

/-- R18 for an escape record: every X-then-Y path of its entries crosses quads declared on. -/
def State.escapeOk (s : State) (c : Canvas) (d : DepRec) : Bool :=
  (c.tileRoutes d.tile).all fun e =>
    if e.vc = d.vc ∧ bitAt e.out d.port then (s.xyPath e.dest 16 d.tile).all fun t => s.quadOnFor c t else true

/-- One QUEUE record is sound (R125, R140, R231, R463). -/
def State.queueOk (s : State) (q : QueueRec) : Bool :=
  decide (0 < q.low) && decide (q.low < q.high) && decide (q.high ≤ q.quota) &&
  decide (q.quota ≤ s.member.cells - s.member.queues) && (decide (q.qid < s.member.queues) || q.qid == 511) &&
  s.epExists q.prod false && s.epExists q.cons true &&
  (q.qid != 511 || (decide (1024 ≤ q.quota) && q.prod == 0x0E && q.cons == 0x70)) &&
  (!(s.flag R.qmQCfgPresent q.qid) || (s.reg R.qmQEpProd q.qid == q.prod && s.reg R.qmQEpCons q.qid == q.cons))

/-- The staged value of a register field (R131). -/
def staged (l : List (Nat × Nat)) (r : Row) (i : Nat := 0) (j : Nat := 0) : Nat := (alGet l (r.key i j)).getD (r.resetAt i)

/-- Grants and escape reserves of the span receive queue fit its QUOTA (R414). -/
def grantsOk (regs : List (Nat × Nat)) (q : QueueRec) : Bool :=
  let chips := staged regs R.slRingNM1
  let ks := (List.range 32).filter fun k => staged regs R.slRxqEn k == 1 && staged regs R.slRxqQid k == q.qid
  decide ((ks.map fun k => chips * (staged regs R.slRxqGrant k + 8)).foldl (· + ·) 0 ≤ q.quota)

/-- A channel: router, output port, VC (R128). -/
abbrev Chan := Nat × Nat × Nat

/-- The edges that one CANVAS gives the channel-dependency graph (R130). -/
def State.chanEdges (s : State) (c : Canvas) : List (Chan × Chan) :=
  (List.range s.member.tiles).flatMap fun r => (c.tileRoutes r).flatMap fun e => (outPorts e.out).flatMap fun o =>
    (List.range 4).filterMap fun p =>
      match s.neighbour r p with
      | none => none
      | some n =>
        let toward := if p = 0 then 1 else if p = 1 then 0 else if p = 2 then 3 else 2
        if c.deps.any (fun d => d.tile == n && d.port == toward && d.vc == e.vc) then none
        else some ((n, toward, e.vc), (r, o, e.vc))

/-- Repeatedly drop the edges that lead to a channel without edges of its own; what stays lies on a cycle or
leads to one. -/
def peel : Nat → List (Chan × Chan) → List (Chan × Chan)
  | 0, l => l
  | n + 1, l => peel n (l.filter fun e => l.any fun f => f.1 == e.2)

/-- The graph of both epochs that can coexist has a cycle (R130): the lowest router among the edges that are left when those
that lead to no cycle, or that come from none, are dropped. DESIGN CHOICE (notes/assumptions/26.md). -/
def State.cycleAt (s : State) (c : Canvas) : Option Nat :=
  let es := s.chanEdges c ++ (match s.cv.active with | some a => s.chanEdges a | none => [])
  let n := 15 * s.member.tiles
  let turn := fun (l : List (Chan × Chan)) => l.map fun e => (e.2, e.1)
  let left := turn (peel n (turn (peel n es)))
  (List.range s.member.tiles).find? fun t => left.any fun e => e.1.1 == t

/-- Bits of a word that EASEL fields of existing units cover (R131). -/
def State.easelMask (s : State) (o : Nat) : Nat :=
  (blockRows o).foldl (fun m r =>
    match r.find o with
    | some (i, _) =>
      let live := match r.unit with | .spikeWin => true | .denseWin => true | u => s.unitLive u i
      if r.hang = .easel && live then m ||| ((2 ^ r.width - 1) * 2 ^ r.lo) else m
    | none => m) 0

/-- Two REG records name one bit with different values. -/
def regConflict (a b : RegRec) : Bool := a.off == b.off && (a.value ^^^ b.value) &&& a.mask &&& b.mask != 0

/-- The first REG record that conflicts with an earlier one (R145 check 0x0E). DESIGN CHOICE (notes/assumptions/26.md). -/
def regClash (l : List RegRec) : Option Nat :=
  (List.range l.length).find? fun i => match l[i]? with
    | some r => (l.take i).any (regConflict r)
    | none => false

/-- The fields that a plan's certificate supplies (R131, R151): row, element, value. -/
def Plan.fields (p : Plan) (slot : Nat) : List (Row × Nat × Nat) :=
  [(R.pcGuardThetaHi, 0, p.thetaHi), (R.pcGuardThetaLo, 0, p.thetaLo), (R.pcGuardBackoff, 0, p.backoff),
   (R.pcCertPCert, 0, p.pCert), (R.pcCertLevels, 0, p.levels - 1), (R.pcDeadlineDUs, 0, p.dUs),
   (R.ppStepGraceGrace, 0, p.grace), (R.ppPlanIdAbi, 0, p.abi), (R.ppPlanIdCvSlot, 0, slot)] ++
  (List.range 4).map fun l => (R.pcBstepBstep, l, p.bstep.getD l 0)

/-- A REG record conflicts with a field that the plan supplies (R145 check 0x0E). -/
def planConflict (p : Plan) (slot : Nat) (r : RegRec) : Bool :=
  (p.fields slot).any fun f =>
    (f.1.off + f.1.s1 * f.2.1) == r.off &&
    ((r.value ^^^ (f.2.2 % 2 ^ f.1.width * 2 ^ f.1.lo)) &&& r.mask &&& ((2 ^ f.1.width - 1) * 2 ^ f.1.lo)) != 0

/-- The register fields that REG records stage (R131): each masked bit takes VALUE over the reset value. -/
def regFields (l : List RegRec) : List (Nat × Nat) :=
  l.foldl (fun acc r =>
    (blockRows r.off).foldl (fun acc row =>
      match row.find r.off with
      | some (i, j) =>
        let m := bits r.mask (row.lo + row.width - 1) row.lo
        if row.hang = .easel ∧ m ≠ 0 then
          let old := (alGet acc (row.key i j)).getD (row.resetAt i)
          alPut acc (row.key i j) ((old &&& (2 ^ row.width - 1 - m)) ||| (bits r.value (row.lo + row.width - 1) row.lo &&& m))
        else acc
      | none => acc) acc) []

/-- Queues that the CANVAS adds (R133). -/
def State.newQueues (s : State) (c : Canvas) : List Nat :=
  (c.queues.map (·.qid)).filter fun q => !(s.hasQueue q)

/-- The R73 sum in mW at 0.80 V for the domains that run will switch on and the tile roles of a CANVAS, with the
factor for VDD_CORE, in thousandths of a mW (R73, R89). -/
def domMw (m : Member) (d : Nat) : Nat :=
  let t : List Nat := match m with
    | .q4 => [50, 70, 40, 0, 30, 25, 200, 30, 30, 0]
    | .q16 => [50, 150, 120, 60, 100, 80, 450, 120, 120, 50]
    | .q32 => [50, 250, 150, 150, 250, 100, 450, 300, 300, 100]
    | .q64 => [50, 350, 200, 300, 450, 150, 900, 300, 300, 200]
  t.getD d 0

/-- The factor of R73 for VDD_CORE in thousandths: the listed values, and an open one between them.
DESIGN CHOICE (notes/assumptions/9.md). -/
def vddFactor (mv : Nat) : Nat :=
  if mv = 720 then 780 else if mv = 760 then 890 else if mv = 800 then 1000 else if mv = 850 then 1200
  else if mv = 900 then 1420 else Config.vddFactor mv

/-- Power of a CANVAS in nW (R73, R89). DESIGN CHOICE (notes/assumptions/26.md). -/
def State.canvasPower (s : State) (c : Canvas) : Nat :=
  let on := (List.range 10).filter fun d => s.member.hasDomain d && (d == 0 || bitAt (s.reg R.pwDomReqOnReq) (d - 1))
  let scaled := [4, 5, 7, 8]
  let sum := fun (l : List Nat) => (l.map (domMw s.member)).foldl (· + ·) 0
  let tiles := ((List.range s.member.tiles).map fun t =>
    if c.role t = 2 then 106250 else if c.role t = 1 then 45000 else if s.quadOnFor c t then 7500 else 0).foldl (· + ·) 0
  sum (on.filter fun d => !(scaled.contains d)) * 1000000 +
    (sum (on.filter fun d => scaled.contains d) * 1000 + tiles) * vddFactor (s.reg R.pcStatusVsense)

/-- Bytes of INIT data. -/
def Canvas.initBytes (c : Canvas) : Nat := (c.inits.map (·.data.length)).foldl (· + ·) 0

/-- The INIT buffer is missing or overlaps the running plan (R132, R145 check 0x10). At boot none is used. -/
def State.initBufferBad (s : State) (c : Canvas) (boot : Bool) : Bool :=
  !boot && c.initBytes != 0 &&
  (let a := s.reg R.cvInitAddrAddr * 4096
   a == 0 || !(s.extOk a c.initBytes) ||
   match s.pp.plan with
   | some p => decide (a < p.addr + p.len) && decide (p.addr < a + c.initBytes)
   | none => false)

/-- The first QID that two records name (R145). -/
def repeatedQid : List QueueRec → Option Nat
  | [] => none
  | q :: t => if t.any fun x => x.qid == q.qid then some q.qid else repeatedQid t

/-- Checks 0x07 to 0x10 on the parsed CANVAS; p is the plan that will run, regs the staged register fields.
DESIGN CHOICE (notes/assumptions/26.md). -/
def State.checkCanvas (s : State) (c : Canvas) (p : Plan) (boot : Bool) : Option (Nat × Nat) :=
  let ts := List.range s.member.tiles
  let slot := (p.slotFor c.id).getD 0
  let regs := regFields c.regs
  let at_ := fun (k : Nat) (o : Option Nat) => o.map fun i => (k, i)
  let tests : List (Option (Nat × Nat)) :=
    [at_ 7 (firstBad (fun (r : TileRec) => r.role != 3 && (r.role != 0 || r.parts == 0)) 0 c.tiles),
     at_ 8 (ts.find? fun t => !(c.partsOk t)),
     at_ 9 (ts.find? fun t => !(s.keepOk c t)),
     at_ 9 (firstBad c.initOk 0 c.inits),
     at_ 10 (ts.find? fun t => !(s.routesOk c t)),
     at_ 10 (firstBad s.depOk 0 c.deps),
     at_ 11 (ts.find? fun t => !(s.quadOk c t)),
     at_ 11 (firstBad (s.escapeOk c) 0 c.deps),
     at_ 11 (if c.quadOn < 2 ^ s.member.quads then none else some 0),
     at_ 12 ((c.queues.find? fun q => !(s.queueOk q)).map (·.qid)),
     at_ 12 (repeatedQid c.queues),
     at_ 12 (if c.queues.any (·.qid = 511) then none else some 511),
     at_ 12 ((c.queues.find? fun q => !(grantsOk regs q)).map (·.qid)),
     at_ 13 (s.cycleAt c),
     at_ 14 (firstBad (fun (r : RegRec) => r.mask &&& (2 ^ 32 - 1 - s.easelMask r.off) == 0 && r.off % 4 == 0) 0 c.regs),
     at_ 14 (regClash c.regs),
     at_ 14 (firstBad (fun r => !(planConflict p slot r)) 0 c.regs),
     at_ 16 ((s.newQueues c)[s.freeCells]?),
     at_ 16 (if s.initBufferBad c boot then some 0 else none),
     at_ 17 (if (p.slotFor c.id).isSome then none else some 0)]
  tests.findSome? id

/-! ## Plan checks (R174) -/

/-- Any two of the parts (offset, length) overlap. -/
def partOverlap (a b : Nat × Nat) : Bool := a.2 != 0 && b.2 != 0 && decide (a.1 < b.1 + b.2) && decide (b.1 < a.1 + a.2)

/-- The CANVAS slots that a plan uses (R151). -/
def Plan.slots (p : Plan) : List Nat := (List.range 4).filter fun c => p.canvasIds.getD c 0 != 0

/-- Every entry of the group tables of a plan, as (slot, phase, group) (R152). -/
def Plan.entries (p : Plan) : List (Nat × Nat × Nat) :=
  p.slots.flatMap fun c => (List.range p.phases).flatMap fun ph => (List.range 64).map fun g => (c, ph, g)

/-- The parts of a plan image as (offset, length): header, group tables by used slot, bundles, data segment, certificate and
scratch image (R151, R152). DESIGN CHOICE (notes/assumptions/26.md). -/
def Plan.parts (p : Plan) : List (Nat × Nat) :=
  (0, 256) :: (p.slots.map fun c => (p.groupOff + 8192 * c, 1024 * p.phases)) ++
    [(p.bundleOff, 256 * p.bundles), (p.dataOff, p.dataLen), (p.certOff, p.certLen), (p.scrOff, p.scrLen)]

/-- The end of the part that holds the byte at an offset; none where no part does. -/
def partEnd (l : List (Nat × Nat)) (o : Nat) : Option Nat := (l.find? fun x => inRange x.1 x.2 o).map fun x => x.1 + x.2

/-- The start of the next part after an offset, at most `fin`. -/
def nextPart (l : List (Nat × Nat)) (fin o : Nat) : Nat := ((l.filter fun x => decide (o < x.1) && x.2 != 0).map (·.1)).foldl min fin

/-- The bytes from an offset up to `fin` that no part holds are 0 (R151); at most n parts and gaps follow. -/
def gapsZero (l : List (Nat × Nat)) (img : List Byte) (fin : Nat) : Nat → Nat → Bool
  | 0, _ => true
  | n + 1, o =>
    if fin ≤ o then true
    else match partEnd l o with
      | some e => gapsZero l img fin n e
      | none => let e := nextPart l fin o; zeroBytes img o e && gapsZero l img fin n e

/-- Check 0x22 on the header, the parts and the group tables (R151, R152 and 06, At the limits). -/
def Plan.layoutOk (p : Plan) (img : List Byte) : Bool :=
  let body := bodyLength img
  within 1 8 p.phases && within 1 4 p.levels && within 1 63 p.backoff && decide (p.bundles ≤ 131072) && decide (1 ≤ p.bundles) &&
  p.bundleOff % 256 == 0 && decide (p.dataLen ≤ 0x1000000) && decide (p.scrLen ≤ 65536) && decide (img.length ≤ 0x3000000) &&
  p.parts.all (fun x => decide (x.1 + x.2 ≤ body)) && pairwiseOk partOverlap p.parts &&
  zeroBytes img 0x62 0x64 && zeroBytes img 0x6C 0x100 && gapsZero p.parts img body 24 0 &&
  p.entries.all fun e => groupRest p img e.1 e.2.1 e.2.2 == 0

/-- Bits of a slot operation that must be 0 (R155, R157). -/
def slotZeroOk (w : Nat) : Bool := bitAt w 23 == false && (slotClass w != 0 || w == 0)

/-- Bits of a bundle that must be 0, and the PHASE_SEAM that goes with a STEP_SEAM (R155, R156): check 0x22. -/
def bundleZeroOk (b : Nat) : Bool :=
  bits b 63 41 == 0 && bits b 127 96 == 0 && bits b 2047 2016 == 0 && bits b 159 151 == 0 &&
  (bitAt b 37 || bits b 40 38 == 0) && (!(bitAt b 36) || bitAt b 37) && (List.range 12).all fun k => slotZeroOk (slotWord b k)

/-- The CLASS and QID of a slot operation are in range (R157, R174). -/
def State.slotFieldsOk (s : State) (w : Nat) : Bool :=
  let c := slotClass w
  decide (c ≤ 8) &&
  (if c = 3 ∨ c = 4 then decide (bits w 36 28 < s.member.queues) || bits w 36 28 == 511 else true)

/-- Check 0x23 for one bundle: INDEX, CLASS, OP and QID (R155 to R157). -/
def State.bundleOk (s : State) (i b : Nat) : Bool :=
  bits b 95 64 == i && decide (bits b 135 128 ≤ 0x48) && (List.range 12).all fun k => s.slotFieldsOk (slotWord b k)

/-- The roles that the group of a class-1 operation has in the tables that use it (R152). -/
def plannedRoles (p : Plan) (img : List Byte) (w : Nat) : List Nat :=
  ((p.slots.flatMap fun c => (List.range p.phases).map fun ph => groupIn p img c ph (bits w 29 24)).filter (·.1 ≠ 0)).map (·.2)

/-- The check of R174 that a slot operation's descriptors break for a group of one role: their places in the data segment, then
their contents. -/
def slotDescCheck (p : Plan) (img : List Byte) (r w : Nat) : Option Nat :=
  if (slotDescs r w).all fun d => decide (d.1 + d.2 ≤ p.dataLen) then slotCheck r w (fun o n => bytesAt img (p.dataOff + o) n)
  else some 0x22

/-- The check of R174 that a bundle's descriptors break. A class-1 operation is held to the role of its group; where the tables
give the group both roles, to what holds for either: a KIND that neither has, a place outside the data segment (R288).
DESIGN CHOICE (notes/assumptions/26.md). -/
def bundleDescCheck (p : Plan) (img : List Byte) (b : Nat) : Option Nat :=
  (List.range 12).findSome? fun k =>
    let w := slotWord b k
    match if slotClass w = 1 then plannedRoles p img w else [] with
    | [] => slotDescCheck p img 0 w
    | r :: t =>
      if t.all (· == r) then slotDescCheck p img r w
      else if 7 ≤ bits w 33 30 then some 0x23
      else if 16 * bits w 53 34 + 16 ≤ p.dataLen then none else some 0x22

/-- Check 0x24 for one bundle: branch and LOOP targets (R156). -/
def branchOk (n b : Nat) : Bool :=
  let op := bits b 135 128
  if 0x40 ≤ op ∧ op ≤ 0x48 then decide (bits b 179 160 < n) else true

/-- A group entry keeps R152: unused, or of role SPIKE or DENSE over tiles that exist and that have its role in those of the
given CANVASes that its slot names. -/
def State.groupOk (s : State) (p : Plan) (img : List Byte) (cvs : List Canvas) (slot ph g : Nat) : Bool :=
  let e := groupIn p img slot ph g
  let named := cvs.filter fun c => p.slotFor c.id == some slot
  e.1 == 0 || ((e.2 == 1 || e.2 == 2) && (List.range 64).all fun t =>
    !(bitAt e.1 t) || (decide (t < s.member.tiles) && named.all fun c => c.role t == e.2))

/-- The first bundle without its bound or, at a seam, its seam entry in the certificate (R153). -/
def Plan.missingBound (p : Plan) (img : List Byte) : Option Nat :=
  (List.range p.bundles).find? fun i =>
    let b := bundleIn p img i
    decide (p.certLen < 16 + 4 * (i + 1)) || ((bitAt b 36 || bitAt b 37) && !(bremIn p img i 0).isSome)

/-- Check 0x26: certificate, BSTEP, R41, R42, THETA (R153). -/
def Plan.certOk (p : Plan) (img : List Byte) : Bool :=
  let seams := certSeams p img
  let need := 16 + 4 * p.bundles + 20 * seams + 20 * certPaths p img
  let deepest := p.bstep.getD (p.levels - 1) 0
  fieldAt img p.certOff 4 == 0x43455231 && decide (need ≤ p.certLen) && fieldAt img (p.certOff + 12) 4 == 0 &&
  (p.missingBound img).isNone &&
  (List.range (p.levels - 1)).all (fun l => decide (p.bstep.getD (l + 1) 0 ≤ p.bstep.getD l 0)) && decide (4096 ≤ p.pCert) &&
  decide (p.pCert * deepest * 1000 ≤ p.thetaHi * p.dUs * 100 * 4096) &&
  decide (0 < p.thetaLo) && decide (p.thetaLo < p.thetaHi) && decide (p.thetaHi ≤ 1000)

/-- A CANVAS enables an output channel of the fusion engine (R339, R355). -/
def Canvas.postsResults (c : Canvas) : Bool :=
  (List.range 16).any fun k => alGet (regFields c.regs) (R.fuOutCfgEn.key k 0) == some 1

/-- The first bundle with an operation of a stream outside STREAMS (R151, R163). -/
def Plan.strayStream (p : Plan) (img : List Byte) : Option Nat :=
  (List.range p.bundles).find? fun i => (List.range 12).any fun k =>
    let w := slotWord (bundleIn p img i) k
    slotClass w != 0 && !(bitAt p.streams (slotStream w))

/-- Check 0x27: streams and D_US (R151, R163, R339). -/
def Plan.streamsOk (p : Plan) (img : List Byte) (cvs : List Canvas) : Bool :=
  within 500 1000000 p.dUs && (!(cvs.any (·.postsResults)) || within 1000 33333 p.dUs) && (p.strayStream img).isNone

/-- The checks of R174 on a plan image that lies in the staging region (06, At the limits), with the CANVASes known to the loader by their ID.
DESIGN CHOICE (notes/assumptions/26.md). -/
def State.checkPlan (s : State) (p : Plan) (img : List Byte) (fw : Option Bank) (cvs : List Canvas) : Option (Nat × Nat) :=
  let abiOk := match fw with
    | some b => within b.abiLo b.abiHi p.abi
    | none => true
  let cvOk := cvs.all fun c => (p.slotFor c.id).isNone || within p.cvLo p.cvHi c.format
  if fieldAt img 0 4 ≠ 0x504C4E31 ∨ !abiOk ∨ !cvOk then some (0x20, 0)
  else if fieldAt img 6 1 ≠ s.member.num then some (0x21, 0)
  else if !(p.layoutOk img) ∨ 0x4000000 < p.addr + p.len then some (0x22, 0)
  else
    let at_ := fun (c : Nat) (o : Option Nat) => o.map fun i => (c, i)
    let zero := (List.range p.bundles).find? fun i =>
      !(bundleZeroOk (bundleIn p img i)) || decide (p.phases ≤ bits (bundleIn p img i) 40 38) || bundleDescCheck p img (bundleIn p img i) == some 0x22
    let enc := (List.range p.bundles).find? fun i =>
      !(s.bundleOk i (bundleIn p img i)) || bundleDescCheck p img (bundleIn p img i) == some 0x23
    match (at_ 0x22 zero).or (at_ 0x23 enc) with
    | some r => some r
    | none =>
      match (List.range p.bundles).find? fun i => !(branchOk p.bundles (bundleIn p img i)) with
      | some i => some (0x24, i)
      | none =>
        if p.bundles ≤ p.entry then some (0x24, 0)
        else
          match p.entries.find? fun e => !(s.groupOk p img cvs e.1 e.2.1 e.2.2) with
          | some e => some (0x25, e.2.2)
          | none =>
            if !(p.certOk img) then some (0x26, (p.missingBound img).getD 0)
            else if !(p.streamsOk img cvs) then some (0x27, (p.strayStream img).getD 0)
            else none

end Sys2Proof.Machine
end

