-- ==== Sys2Proof/Machine/Responses.lean ====
section
/-! DEFINITION. Rings in host memory and the responses to commands (R426, R427, R429, R431, R437, R452, R453). -/
namespace Sys2Proof.Machine

/-- A 64-bit host address from the two words of a base register. -/
def hostBase (lo hi : Nat) : Nat := lo + 2 ^ 32 * hi

/-- The rings are served: RINGS_EN is set and the link is up (R426, R452, R453). -/
def State.ringsUp (s : State) : Bool := s.flag R.hiCtrlRingsEn && s.pcieUp

/-- A ring has a free slot (R426). -/
def ringFree (rp wp log2 : Nat) : Bool := decide ((wp + 1) % 2 ^ log2 ≠ rp % 2 ^ log2)

/-- The PHASE of ring n: 1 on the first pass (R427). 0 is the response ring, 1 the summary ring, 2 + k readout k. -/
def State.phase (s : State) (n : Nat) : Bool := (alGet s.hi.phases n).getD true

/-- One entry is written at WP of a ring; PHASE inverts when WP wraps (R426, R427). -/
def State.ringWrite (s : State) (n base wp log2 : Nat) (entry : List Byte) : State :=
  let size := 2 ^ log2
  let w := wp % size
  let s := s.modHostMem fun m => m.writeBytes (base + entry.length * w) entry
  if w + 1 = size then s.modHi fun h => { h with phases := alPut h.phases n (!(s.phase n)) } else s

/-- The bytes of a response (R431). -/
def responseBytes (r : Response) (phase : Bool) : List Byte :=
  leBytes 4 r.item.toNat ++ [BitVec.ofNat 8 r.op, BitVec.ofNat 8 r.status, 0, BitVec.ofNat 8 (128 * ofFlag phase)] ++
  leBytes 8 r.result

/-- Write one response into the ring; a completing response completes its item (R431). -/
def State.writeResponse (s : State) (r : Response) : State :=
  let wp := s.reg R.hiRspWpIndex
  let l := s.reg R.hiRspSizeLog2
  let s := s.ringWrite 0 (hostBase (s.reg R.hiRspBaseAddr 0) (s.reg R.hiRspBaseAddr 1)) wp l (responseBytes r (s.phase 0))
  let s := (s.setReg R.hiRspWpIndex ((wp + 1) % 2 ^ l)).bump R.hiCntCount 1
  (if r.ends then s.complete r.item 0x0F else s).vector 0

/-- Responses that wait are written while the ring has room, oldest first (R426, R453).
DESIGN CHOICE (notes/assumptions/24.md). -/
def State.flushResponses (s : State) : Nat → State
  | 0 => s
  | n + 1 =>
    match s.hi.rspWait with
    | [] => s
    | r :: t =>
      if s.ringsUp && ringFree (s.reg R.hiRspRpIndex) (s.reg R.hiRspWpIndex) (s.reg R.hiRspSizeLog2) then
        ((s.modHi fun h => { h with rspWait := t }).writeResponse r).flushResponses n
      else s

/-- Responses to SPI commands enter the target's response queue of 8 while it has room (R431, R437). PHASE means nothing there
and is open. DESIGN CHOICE (notes/assumptions/64.md). -/
def State.flushSpi (s : State) : Nat → State
  | 0 => s
  | n + 1 =>
    match s.hi.spiWait with
    | [] => s
    | r :: t =>
      if s.hi.spiResp.length < 8 then
        let e := responseBytes r (bitAt (Config.freeWord s.freeCtr).toNat 0)
        let s := ((s.modHi fun h => { h with spiWait := t, spiResp := h.spiResp ++ [e] }).tick).bump R.hiCntCount 1
        (if r.ends then s.complete r.item 0x0F else s).flushSpi n
      else s

/-- A STATUS with which the response completes the item (R431). -/
def statusEnds (status : Nat) : Bool := [0, 3, 4, 5, 6, 7, 9].contains status

/-- The response of a command is posted (R431, R437, R452). With RINGS_EN clear a ring response is not written and counts in
RSP_LOST. DESIGN CHOICE (notes/assumptions/24.md). -/
def State.respond (s : State) (c : Fetched) (status result : Nat) : State :=
  let r : Response := { item := c.item, op := c.op, status := status, result := result % 2 ^ 64,
                        ends := statusEnds status && streamOf c.item == c.stream }
  if c.stream = 9 then
    let s := s.modHi fun h => { h with spiWait := h.spiWait ++ [r] }
    s.flushSpi s.hi.spiWait.length
  else if s.flag R.hiCtrlRingsEn then
    let s := s.modHi fun h => { h with rspWait := h.rspWait ++ [r] }
    s.flushResponses s.hi.rspWait.length
  else s.bump R.hiCntCount 6

/-- A command has its status: it is noted in its window, the command is answered, and so are its duplicates (R429, R431).
DESIGN CHOICE (notes/assumptions/24.md). -/
def State.answer (s : State) (c : Fetched) (status result : Nat) : State :=
  let q := seqOf c.item
  let note := fun (w : CmdWindow) => { w with seen := w.seen.map fun e => if e.1 = q then (q, some status) else e }
  let s := s.modHi fun h => if c.stream = 9 then { h with win9 := note h.win9 } else { h with win8 := note h.win8 }
  let twins := s.hi.dups.filter (·.item = c.item)
  let s := s.modHi fun h => { h with dups := h.dups.filter (·.item ≠ c.item) }
  twins.foldl (fun s d => s.respond d 1 status) (s.respond c status result)

end Sys2Proof.Machine
end

