-- ==== Sys2Proof/Machine/Consume.lean ====
section
/-! DEFINITION. What producers and consumers of items share: pushes whose drops end the item, upsets that a read finds,
severing, and the taking of cells by a final consumer (R27, R181, R234, R239, R249 to R251, R299). -/
namespace Sys2Proof.Machine

/-! ## Producers (R234, R239) -/

/-- An item had a push dropped: it ends GAP_DROP after its last push (R234). -/
def State.markDropped (s : State) (item : ItemId) : State :=
  if s.pal.dropped.contains item then s else s.modPal fun p => { p with dropped := p.dropped ++ [item] }

/-- A cell of an item was poisoned, or a result of it is undefined (R239, R309): it ends POISON. -/
def State.markPoisoned (s : State) (item : ItemId) : State :=
  if s.pal.poisoned.contains item then s else s.modPal fun p => { p with poisoned := p.poisoned ++ [item] }

/-- The marks of an item are forgotten. -/
def State.unmark (s : State) (item : ItemId) : State :=
  s.modPal fun p => { p with dropped := p.dropped.filter (· ≠ item), poisoned := p.poisoned.filter (· ≠ item) }

/-- A producer pushes one cell of an item; a drop is noted, and with the item's last push an item that lost one ends
GAP_DROP with the producer's STAGE and FLAGS (R234). -/
def State.pushItem (s : State) (ep q : Nat) (data : Cell64) (item : ItemId) (last epm : Bool) (stage flags : Nat) : State :=
  let r := s.pushRes ep q last epm
  let s := s.push ep q data item last epm
  let s := if r = .dropped then s.markDropped item else s
  if last && s.pal.dropped.contains item then (s.unmark item).report item 0x01 stage flags else s

/-- Push the cells of an item in order, EOP on the last one (R230, R234). -/
def State.pushItemAll (s : State) (ep q : Nat) (item : ItemId) (stage flags : Nat) : List Cell64 → State
  | [] => s
  | c :: t => (s.pushItem ep q c item t.isEmpty false stage flags).pushItemAll ep q item stage flags t

/-! ## Severing and quarantine (R250, R251) -/

/-- Queue q is severed (R250, step 1). DESIGN CHOICE (notes/assumptions/36.md). -/
def State.sever (s : State) (q : Nat) : State :=
  if (s.queue q).severing then s
  else
    let s := s.modQueue q fun x =>
      { x with severing := true, severSrc := if x.lastEop then 2 else 3, severAt := s.us }
    (s.setReg R.qmStatusSever 1).arm (.sever q) (s.scaled 2100000)

/-- A cell is taken out of use (R251); 64 or more raise severity 2. A held cell no longer counts in HELD.
DESIGN CHOICE (notes/assumptions/16.md). DESIGN CHOICE (notes/assumptions/36.md). -/
def State.quarantine (s : State) (idx : Nat) : State :=
  let s := match s.pal.held.find? (·.idx = idx) with
    | some h =>
      let ep := s.reg R.qmQEpCons h.qid
      (s.modPal fun p => { p with held := p.held.filter (·.idx ≠ idx) }).setReg R.qmHoldHeld (s.reg R.qmHoldHeld ep - 1) ep
    | none => s
  let s := s.modPal fun p => { p with lost := p.lost ++ [idx] }
  let s := (s.setReg R.qmLostCount s.pal.lost.length).poolLow
  if 64 ≤ s.pal.lost.length then s.raise 0x60000C 0 2 5 else s

/-- A cell of queue q leaves the queue, or its marker cell is replaced (R251). DESIGN CHOICE (notes/assumptions/36.md). -/
def State.dropCell (s : State) (q i : Nat) : State :=
  let s := if (s.queue q).markerIdx = i then
      let m := s.pickFree
      (s.tick).modQueue q fun x => { x with markerIdx := m, markerBad := false }
    else s
  s.modQueue q fun x => { x with cells := x.cells.filter (·.idx ≠ i) }

/-- Bits of a cell are flipped (R226). -/
def Cell.upset (c : Cell) (u : Upset) : Cell :=
  { c with data := c.data ^^^ u.data, lpOk := c.lpOk != u.link, opOk := c.opOk != u.owner }

/-- A read of cell c of queue q finds what its parities say of its owner and link fields (R250, R251): a failure of OP takes it
out of use, and either severs the queue. DESIGN CHOICE (notes/assumptions/36.md). -/
def State.checkCell (s : State) (q : Nat) (c : Cell) : State :=
  let s := if c.opOk then s else ((s.quarantine c.idx).dropCell q c.idx).sever q
  if c.lpOk then s else s.sever q

/-- Upsets that a read of the head cell of queue q finds (R239, R250, R251): flipped data bits stay in the cell; a link or
owner parity failure severs the queue. DESIGN CHOICE (notes/assumptions/29.md). -/
def State.upsetHead (s : State) (q : Nat) (u : Upset) : State :=
  if u = Upset.none then s
  else
    match (s.queue q).cells with
    | [] => s
    | c :: t => (s.modQueue q fun x => { x with cells := c.upset u :: t }).checkCell q (c.upset u)

/-- A push reads the link field of the tail cell behind which it links; LP of it fails (R250).
DESIGN CHOICE (notes/assumptions/29.md). -/
def State.upsetTail (s : State) (q : Nat) (link : Bool) : State :=
  if !link || (s.queue q).cells.isEmpty then s else s.sever q

/-! ## Consumers (R27, R181, R239, R250, R299) -/

/-- An end-of-packet cell or thermal trailer that reports lost cells (R181, R194): LOSSY, or invalid pixels. -/
def lossyCell (data : Cell64) : Bool :=
  (cellType data == 4 && bitAt data.toNat 12) || (cellType data == 7 && bits data.toNat 21 12 != 0)

/-- The final consumer has taken all of an item (R27, R181, R239): it ends POISON where a cell of it was poisoned; it is
left to its producer's GAP_DROP where cells were lost; else it completes. -/
def State.endTaken (s : State) (block : Nat) (item : ItemId) (lossy : Bool) : State :=
  if lossy then s.unmark item
  else if s.pal.poisoned.contains item then (s.unmark item).report item 0x02 block 0
  else s.complete item block

/-- What a consumer may do with a delivered cell (R235, R239, R250): use its word; take it as poisoned; take it as a gap marker; or
discard it behind an SRC 3 marker. -/
inductive Taken where
  | use | poison | gap | discard
  deriving DecidableEq, Repr

/-- A consumer takes a delivered cell (R239, R250). Behind an SRC 3 marker it discards cells up to and including the next EOP
cell, and ends that item SEVERED. -/
def State.accept (s : State) (block : Nat) (d : Delivery) : Taken × State :=
  if d.tag = 2 then (.gap, if gapSrc d.data = 3 then s.modQueue d.qid fun x => { x with discard := true } else s)
  else if (s.queue d.qid).discard then
    (.discard, if d.eop then (s.modQueue d.qid fun x => { x with discard := false }).report d.item 0x13 block 0 else s)
  else if d.tag = 1 then (.poison, s.markPoisoned d.item)
  else (.use, s)

/-- A final consumer pops the head of queue q by endpoint ep. Answers the delivery and what it may do with it, or
nothing where the pop waits or is refused. The item of an EOP cell is left to the consumer. -/
def State.popFor (s : State) (block ep q : Nat) (take : Bool) (u : Upset) : Option (Delivery × Taken) × State :=
  if !(s.popAllowed ep q) then (none, s.setReg R.qmStatusWrongEp 1)
  else
    let s := s.upsetHead q u
    if s.popWaits ep q take then (none, s)
    else
      let s := s.deliverHead q ep take
      match s.pal.delivered with
      | none => (none, s)
      | some d =>
        let r := s.accept block d
        (some (d, r.1), r.2)

end Sys2Proof.Machine
end

