-- ==== Sys2Proof/Machine/SpikeOps.lean ====
section
/-! DEFINITION. The spiking fabric's named operations: segments, neurons, decay, updates, spikes, paced steps
(R254 to R274, R281). -/
namespace Sys2Proof.Machine

/-- Byte address and size of a partition of a tile under the active CANVAS (R126). -/
def State.partOf (s : State) (t p : Nat) : Option (Nat × Nat) :=
  s.cv.active.bind fun c => (c.part t p).map fun m => (4096 * m.base, 4096 * m.size)

/-! ## The mesh (R137) -/

/-- A packet enters the mesh at a tile's router under the present epoch (R137). -/
def State.inject (s : State) (p : Packet) : State :=
  s.modMesh fun m => { m with packets := m.packets ++ [{ p with epoch := s.reg R.cvStatusEpoch, since := s.devtime }] }

/-- The role that the active CANVAS gives a tile (R32): it differs from the role taken while the tile's role is changing. -/
def State.newRole (s : State) (t : Nat) : Nat := (s.cv.active.map (·.role t)).getD 0

/-- Group work to a tile whose role is changing waits at its local port (R32, R172). -/
def State.tileWaits (s : State) (t : Nat) : Bool := s.cv.takers.contains t

/-- n bytes at an address of tile t become undefined. -/
def State.tileUndef (s : State) (t a n : Nat) : State :=
  let g := s.freeCtr
  (s.modTmem fun m => m.makeUndef (tileAddr t a) n g).tick

/-! ## Segments and neurons (R255, R256) -/

/-- An enabled segment of a tile: population, first index, first local neuron, neurons (R256). -/
structure Segment where
  pop : Nat
  lo : Nat
  loc : Nat
  count : Nat
  deriving DecidableEq, Repr

/-- The enabled segments of tile t (R256). -/
def State.segments (s : State) (t : Nat) : List Segment :=
  ((List.range 4).filter fun j => s.flag R.sfTSegEn t j).map fun j =>
    { pop := s.reg R.sfTSegPop t j, lo := s.reg R.sfTSegNeuLo t j, loc := s.reg R.sfTSegHiLocal t j,
      count := s.reg R.sfTSegHiCountM1 t j + 1 }

/-- The populations that tile t holds, each once. -/
def State.tilePops (s : State) (t : Nat) : List Nat := ((s.segments t).map (·.pop)).eraseDups

/-- Tile t holds neurons of population p. -/
def State.holdsPop (s : State) (t p : Nat) : Bool := (s.segments t).any (·.pop == p)

/-- The tiles that hold neurons of population p (R256). -/
def State.popTiles (s : State) (p : Nat) : List Nat := (List.range s.member.tiles).filter fun t => s.holdsPop t p

/-- A neuron's state record (R255). -/
structure Neuron where
  v : Int := 0
  a : Nat := 0
  last : Nat := 0
  left : Nat := 0
  deriving DecidableEq, Repr

/-- The record at an address of tile t. -/
def State.neuronAt (s : State) (t a : Nat) : Neuron :=
  { v := toSigned 16 (s.tileNat t a 2), a := s.tileNat t (a + 2) 2, last := s.tileNat t (a + 4) 4, left := s.tileNat t (a + 8) 2 }

/-- Write the record at an address of tile t. -/
def State.putNeuron (s : State) (t a : Nat) (n : Neuron) : State :=
  s.tileWrite t a (leBytes 2 (ofSigned 16 n.v) ++ leBytes 2 n.a ++ leBytes 4 n.last ++ leBytes 2 n.left ++ leBytes 6 0)

/-- The address of local neuron l of tile t, where the state partition holds it. -/
def State.neuronAddr (s : State) (t l : Nat) : Option Nat :=
  match s.partOf t (s.reg R.sfTPartsState t) with
  | some (b, n) => if 16 * l + 16 ≤ n then some (b + 16 * l) else none
  | none => none

/-- The addresses of index i of population p in tile t. -/
def State.indexAddrs (s : State) (t p i : Nat) : List Nat :=
  (s.segments t).filterMap fun g =>
    if g.pop = p ∧ g.lo ≤ i ∧ i < g.lo + g.count then s.neuronAddr t (g.loc + (i - g.lo)) else none

/-- Every (index, address) of population p in tile t, segment by segment. -/
def State.popNeurons (s : State) (t p : Nat) : List (Nat × Nat) :=
  ((s.segments t).filter (·.pop == p)).flatMap fun g =>
    (List.range g.count).filterMap fun j => (s.neuronAddr t (g.loc + j)).map fun a => (g.lo + j, a)

/-- Weight nibble o of tile t's synapse partition, low nibble first (R254, R257, R269). A nibble that the partition does not
hold is open. DESIGN CHOICE (notes/assumptions/42.md). -/
def State.synapse (s : State) (t o : Nat) : Int :=
  match s.partOf t (s.reg R.sfTPartsSyn t) with
  | some (b, n) => if o / 2 < n then toSigned 4 (s.tileNat t (b + o / 2) 1 / 16 ^ (o % 2)) else toSigned 4 (Config.freeWord o).toNat
  | none => toSigned 4 (Config.freeWord o).toNat

/-! ## Decay (R257, R258) -/

/-- The table index of an elapsed time in µs (R258). -/
def decaySlot (d : Nat) : Nat :=
  if d < 128 then d else
    let e := Nat.log2 d
    128 + 16 * (e - 7) + d / 2 ^ (e - 4) % 16

/-- A factor of tile t's decay table (R258). A factor that the partition does not hold is open.
DESIGN CHOICE (notes/assumptions/42.md). -/
def State.decayFactor (s : State) (t c i : Nat) : Nat :=
  match s.partOf t (s.reg R.sfTPartsDecay t) with
  | some (b, n) => if 1024 * c + 2 * i + 2 ≤ n then s.tileNat t (b + 1024 * c + 2 * i) 2 else (Config.freeWord i).toNat % 65536
  | none => (Config.freeWord i).toNat % 65536

/-- Decay of a value by a factor (R258). DESIGN CHOICE (notes/assumptions/42.md). -/
def decayed (x : Int) (f : Nat) : Int := (x * f + 32768) / 65536

/-- V within its field and not below V_MIN (R257). DESIGN CHOICE (notes/assumptions/42.md). -/
def State.floorV (s : State) (p : Nat) (v : Int) : Int := max (s.regS R.sfPopPar2VMin p) (satSigned 16 v)

/-- V and A decay over d µs (R257, R258). -/
def State.decayNeuron (s : State) (t p d : Nat) (n : Neuron) : Neuron :=
  if d = 0 then n else
    let i := decaySlot d
    { n with v := s.floorV p (decayed n.v (s.decayFactor t (s.reg R.sfPopPar2ColV p) i)),
             a := satTo 65535 (decayed n.a (s.decayFactor t (s.reg R.sfPopPar2ColA p) i)).toNat }

/-! ## Populations -/

/-- The state of population p. -/
def State.pop (s : State) (p : Nat) : PopState := (alGet s.sf.pops p).getD {}

/-- Change the state of population p. -/
def State.modPop (s : State) (p : Nat) (f : PopState → PopState) : State := s.modSf fun x => { x with pops := alMod x.pops p {} f }

/-- The current output item of population p (R270). -/
def State.popItem (s : State) (p : Nat) : ItemId := BitVec.ofNat 32 (s.reg R.sfPopItemId p)

/-- Population p is enabled and PACED (R261). -/
def State.paced (s : State) (p : Nat) : Bool := s.flag R.sfPopCfgEn p && s.flag R.sfPopCfgMode p

/-- The open step of population p in tile t (R261). -/
def State.openStep (s : State) (p t : Nat) : Nat := (alGet s.sf.steps (p, t)).getD 0

/-- M_k in µs (R261). -/
def State.stepBase (s : State) (p k : Nat) : Nat := (s.pop p).m0 + k * s.reg R.sfPopStepStepUs p

/-- A full time from its low 24 bits: the one nearest to DEVTIME. DESIGN CHOICE (notes/assumptions/42.md). -/
def State.nearTime (s : State) (low : Nat) : Nat :=
  let m := 2 ^ 24
  let base := s.us + m / 2 - low
  base / m * m + low

/-! ## Spikes (R259, R268, R271, R272, R274) -/

/-- The grid place of an index: x and y in pixels (R272). -/
def State.gridXY (s : State) (p i : Nat) : Nat × Nat :=
  let site := i / (s.reg R.sfPopGridNplaneM1 p + 1)
  let cs := s.reg R.sfPopGridCs p
  let gw := s.reg R.sfPopGridGw p
  (s.reg R.sfPopOriginX0 p + site % gw * 2 ^ cs + 2 ^ cs / 2, s.reg R.sfPopOriginY0 p + site / gw * 2 ^ cs + 2 ^ cs / 2)

/-- The output cell of a spike (R272): time in µs, index, polarity, and V − THETA0 − A before reset. The format code 3 has no
layout. DESIGN CHOICE (notes/assumptions/42.md). -/
def State.spikeCell (s : State) (p us i : Nat) (pol : Bool) (above : Int) : Cell64 :=
  let fmt := s.reg R.sfPopCfgFmt p
  let xy := s.gridXY p i
  let place := s.reg R.sfPopCfgPort p * 2 ^ 38 + ofFlag pol * 2 ^ 37 + xy.2 % 4096 * 2 ^ 24 + xy.1 % 4096 * 2 ^ 12
  let time := us % 2 ^ 24 * 2 ^ 40
  if fmt = 0 then BitVec.ofNat 64 (time + i % 2 ^ 24 * 2 ^ 16 + 8 * 2 ^ 8 + p * 4)
  else if fmt = 1 then
    BitVec.ofNat 64 (time + place + 2 ^ 36 + 2 ^ 8 + i % (s.reg R.sfPopGridNplaneM1 p + 1) * 16 + min 15 (above / 16).toNat)
  else if fmt = 2 then BitVec.ofNat 64 (time + place)
  else Config.freeWord s.freeCtr

/-- The item that a spike of population p belongs to (R277): once a CUT has sent the cut markers, the item that the CUT makes
current. -/
def State.spikeItem (s : State) (p : Nat) : ItemId :=
  match (s.pop p).cut with
  | some c => c.1
  | none => s.popItem p

/-- A spike counts in its tile and in the window that holds its time (R274), unless its population has had no CUT (R270).
DESIGN CHOICE (notes/assumptions/42.md). -/
def State.countSpike (s : State) (p us i : Nat) : State :=
  if s.spikeItem p = 0 then s
  else
    let w := us / s.reg R.sfPopWinWinUs p
    let b := i % (s.reg R.sfPopWinBinModM1 p + 1)
    s.modPop p fun x => { x with spikes := x.spikes ++ [(w, b)] }

/-- A neuron of tile t spikes (R268, R274): its cell travels under the spike key of population and index.
DESIGN CHOICE (notes/assumptions/42.md). -/
def State.emitSpike (s : State) (p t us i : Nat) (pol : Bool) (above : Int) : State :=
  let item := s.spikeItem p
  let s := if item = 0 then s else (s.bump R.sfTCntCount t 1).countSpike p us i
  if s.flag R.sfPopCfgFanout p || s.flag R.sfPopCfgExport p then
    (s.inject { item := item, key := 2 ^ 31 + p * 2 ^ 24 + i, vc := 1, epoch := 0, dest := 0, tile := t,
                cells := [(s.spikeCell p us i pol above, 0)], origin := t }).tick
  else s

/-- Step 5 of R259: the neuron spikes where V reaches the threshold. -/
def State.testSpike (s : State) (p t us i : Nat) (pol : Bool) (n : Neuron) : Neuron × State :=
  let th : Int := s.reg R.sfPopPar0Theta0 p + n.a
  if th ≤ n.v then
    ({ n with v := s.floorV p (s.regS R.sfPopPar1VReset p), a := satTo 65535 (n.a + s.reg R.sfPopPar0AInc p),
              left := s.reg R.sfPopPar1TRef p }, s.emitSpike p t us i pol (n.v - th))
  else (n, s)

/-! ## Parity (R281) -/

/-- A read of tile t fails parity during an update of population p (R281): counted, the item poisoned, severity 1, and 2 from
the 16th in 1 s. DESIGN CHOICE (notes/assumptions/43.md). -/
def State.spikeParity (s : State) (p t : Nat) : State :=
  let now := s.devtime
  let s := s.modSf fun x => { x with parity := (x.parity.filter fun e => decide (now < e.2 + 1000000000)) ++ [(t, now)] }
  let n := (s.sf.parity.filter (·.1 == t)).length
  let s := (s.bump R.sfTCntCount t 5).modPop p fun x => { x with poison := true }
  s.raise (0xA10094 + 0x1000 * t) 0 (if 16 ≤ n then 2 else 1) 8

/-! ## Updates (R259, R261, R263) -/

/-- Elapsed time of step 1 of R259, and whether the input is older than T_LAST. -/
def elapsed (now last : Nat) : Nat × Bool :=
  let d := ofSigned 32 ((now : Int) - last)
  if 2 ^ 31 ≤ d then (0, true) else (d, false)

/-- Steps 1 and 2 of R259 at a full time. -/
def State.advance (s : State) (t p us : Nat) (n : Neuron) : Neuron × Bool :=
  let (d, old) := elapsed us n.last
  let m := s.decayNeuron t p d n
  ({ m with left := n.left - d, last := if old then n.last else us % 2 ^ 32 }, old)

/-- One input of weight w for the neuron of index i at an address (R257, R259, R261, R281). In a PACED population only steps 3
and 4 apply. DESIGN CHOICE (notes/assumptions/43.md). -/
def State.neuronInput (s : State) (p t i addr us : Nat) (w : Int) (pol fail : Bool) : State :=
  let s := s.bump R.sfTCntCount t 0
  let n := s.neuronAt t addr
  if fail then
    let r := s.advance t p us n
    (s.putNeuron t addr { last := if s.paced p then n.last else r.1.last }).spikeParity p t
  else
    let add := fun (n : Neuron) => { n with v := s.floorV p (n.v + w * 2 ^ s.reg R.sfPopPar2WShift p) }
    if s.paced p then
      if 0 < n.left then s.bump R.sfTCntCount t 2 else s.putNeuron t addr (add n)
    else
      let r := s.advance t p us n
      let s := if r.2 then s.bump R.sfTCntCount t 4 else s
      if 0 < r.1.left then (s.putNeuron t addr r.1).bump R.sfTCntCount t 2
      else
        let at_ := if r.2 then us + ofSigned 32 ((r.1.last : Int) - us) else us
        let e := s.testSpike p t at_ i pol (add r.1)
        e.2.putNeuron t addr e.1

/-! ## Map entries (R269) -/

/-- The first map entry of tile t that a key matches (R269). DESIGN CHOICE (notes/assumptions/42.md). -/
def State.mapEntry (s : State) (t key : Nat) : Option Nat :=
  (List.range 16).find? fun k => (key ^^^ s.reg R.sfTMapKeyKey t k) &&& s.reg R.sfTMapMaskMask t k == 0

/-- The (index, nibble offset) pairs that a KERNEL entry addresses in the grid of population p (R269). -/
def State.kernelTargets (s : State) (t k p x y pol : Nat) : List (Nat × Nat) :=
  let side := 2 * s.reg R.sfTMapModeK t k + 1
  let np := s.reg R.sfPopGridNplaneM1 p + 1
  let gw := s.reg R.sfPopGridGw p
  let cs := s.reg R.sfPopGridCs p
  let gx : Int := ((x : Int) - s.reg R.sfPopOriginX0 p) / 2 ^ cs
  let gy : Int := ((y : Int) - s.reg R.sfPopOriginY0 p) / 2 ^ cs
  let half : Int := side / 2
  (List.range side).flatMap fun (dy : Nat) => (List.range side).flatMap fun (dx : Nat) => (List.range np).filterMap fun (n : Nat) =>
    let sx := gx + dx - half
    let sy := gy + dy - half
    let nib : Nat := s.reg R.sfTMapSynSynBase t k + ((n * side + dy) * side + dx) * 2 + pol
    if 0 ≤ sx ∧ sx < gw ∧ 0 ≤ sy then
      some ((sy.toNat * gw + sx.toNat) * np + n, nib)
    else none

/-- The (index, nibble offset) pairs that a ROW entry addresses (R269). -/
def State.rowTargets (s : State) (t k key : Nat) : List (Nat × Nat) :=
  let r := key / 2 ^ s.reg R.sfTMapModeIshift t k % 2 ^ s.reg R.sfTMapModeIbits t k
  let len := s.reg R.sfTMapModeRowLenM1 t k + 1
  (List.range len).map fun j =>
    (s.reg R.sfTMapNeuNeuBase t k + r * s.reg R.sfTMapStepNeuStep t k + j, s.reg R.sfTMapSynSynBase t k + r * len + j)

/-- One input for the targets of population p in tile t; `fails` holds the numbers of the command's updates that fail parity, and
`n` numbers the next one (R269, R281). Indices that no segment holds, and weights of 0, make no update.
DESIGN CHOICE (notes/assumptions/42.md). -/
def State.inputTargets (s : State) (p t us : Nat) (pol : Bool) (fails : List Nat) : Nat → List (Nat × Nat) → Nat × State
  | n, [] => (n, s)
  | n, (i, o) :: l =>
    let w := s.synapse t o
    let as := s.indexAddrs t p i
    if w = 0 ∨ as = [] then s.inputTargets p t us pol fails n l
    else
      let r := as.foldl (fun (r : Nat × State) a => (r.1 + 1, r.2.neuronInput p t i a us w pol (fails.contains r.1))) (n, s)
      r.2.inputTargets p t us pol fails r.1 l

/-! ## Paced steps (R261 to R264) -/

/-- The nominal close has come (R262). -/
def State.nominalClose (s : State) (p t : Nat) : Bool :=
  decide (1000 * (s.stepBase p (s.openStep p t) + s.reg R.sfPopStepStepUs p + s.reg R.sfPopStepSettleUs p) ≤ s.devtime)

/-- The hard close has come (R262). -/
def State.hardClose (s : State) (p t : Nat) : Bool :=
  decide (16000 * (s.stepBase p (s.openStep p t) + s.reg R.sfPopStepSettleUs p) +
    1000 * s.reg R.sfPopStepStepUs p * s.reg R.sfPopStretchMax p ≤ 16 * s.devtime)

/-- One neuron at the close of a step that ends at `til` (R262). -/
def State.closeNeuron (s : State) (p t i addr til : Nat) (fail : Bool) : State :=
  if fail then (s.putNeuron t addr { last := til % 2 ^ 32 }).spikeParity p t
  else
    let h := s.reg R.sfPopStepStepUs p
    let n := s.decayNeuron t p h (s.neuronAt t addr)
    let r := if n.left = 0 then s.testSpike p t til i false n else (n, s)
    let m := if n.left = 0 then r.1 else { n with left := n.left - h }
    r.2.putNeuron t addr { m with last := til % 2 ^ 32 }

/-- The run of stretched steps of population p ends with its record (R264). -/
def State.endStretch (s : State) (p : Nat) : State :=
  match (s.pop p).run with
  | none => s
  | some (m, late) =>
    (s.inform (s.popItem p) 0x0B p (ofFlag late + min 255 m * 256)).modPop p fun x => { x with run := none }

/-- Every tile of population p has closed step k (R262, R264). -/
def State.stepClosed (s : State) (p k : Nat) : State :=
  let h := s.reg R.sfPopStepStepUs p
  let above := s.devtime - 1000 * (s.stepBase p k + s.reg R.sfPopStepSettleUs p)
  let q := (openDiv 264 ((16 * above : Nat) : Int) ((1000 * h : Nat) : Int)).toNat
  let s := (s.setReg R.sfPopStretchLast (min 255 q) p).bump R.sfPopStepsClosed p
  let late := (s.pop p).hard.contains k
  let s := s.modPop p fun x => { x with hard := x.hard.filter fun j => decide (k < j) }
  if 17000 * h ≤ 16 * above then
    (s.bump R.sfPopStepsStretched p).modPop p fun x =>
      { x with run := match x.run with
        | none => some (q, late)
        | some (m, l) => some (max m q, l || late) }
  else s.endStretch p

/-- Tile t closes its open step of population p (R262); `fails` holds the numbers of the updates that fail parity (R281). -/
def State.closeStep (s : State) (p t : Nat) (hard : Bool) (fails : List Nat) : State :=
  let k := s.openStep p t
  let til := s.stepBase p k + s.reg R.sfPopStepStepUs p
  let r := (s.popNeurons t p).foldl (fun (r : Nat × State) e => (r.1 + 1, r.2.closeNeuron p t e.1 e.2 til (fails.contains r.1))) (0, s)
  let s := r.2.modSf fun x => { x with steps := alPut x.steps (p, t) (k + 1) }
  let s := if hard then s.modPop p fun x => { x with hard := if x.hard.contains k then x.hard else x.hard ++ [k] } else s
  if (s.popTiles p).all fun u => decide (k < s.openStep p u) then s.stepClosed p k else s

/-- The PACED populations with their STEP_US and tiles (R261). -/
def State.pacedNow (s : State) : List (Nat × Nat) :=
  ((List.range 64).filter s.paced).map fun p => (p, s.reg R.sfPopStepStepUs p)

/-- The value that a field will have after a HANG (R131). -/
def stagedValue (l : List (Nat × Nat)) (r : Row) (i : Nat) : Nat := (alGet l (r.key i 0)).getD (r.resetAt i)

/-- A HANG closes the open step of every PACED population whose STEP_US changes, as at its hard close (the HANG case of 10).
DESIGN CHOICE (notes/assumptions/41.md). -/
def State.closeChangedSteps (s : State) (staged : List (Nat × Nat)) : State :=
  (s.pacedNow.filter fun e => stagedValue staged R.sfPopStepStepUs e.1 != e.2).foldl (fun (s : State) e =>
    (s.popTiles e.1).foldl (fun (s : State) t => s.closeStep e.1 t true []) s) s

/-- After a HANG, each PACED population that is new, or whose STEP_US changed, starts at M_0 (R261); a tile that is new to a
population starts at the step whose window holds now. -/
def State.startPaced (s : State) (was : List (Nat × Nat)) : State :=
  s.pacedNow.foldl (fun (s : State) e =>
    let h := e.2
    let keeps := was.contains e
    let m := if keeps then (s.pop e.1).m0 else s.us / h * h
    let k := if keeps then (s.us - m) / h else 0
    let s := s.modPop e.1 fun x => { x with m0 := m, hard := if keeps then x.hard else [] }
    (s.popTiles e.1).foldl (fun (s : State) t =>
      if keeps && (alGet s.sf.steps (e.1, t)).isSome then s
      else s.modSf fun x => { x with steps := alPut x.steps (e.1, t) k }) s) s

/-! ## Sleep (R273) -/

/-- Work reaches tile t: it wakes, and its idle time starts afresh (R273). -/
def State.wakeTile (s : State) (t : Nat) : State :=
  let s := if s.flag R.sfTStatAwake t then s else (s.setReg R.sfTStatAwake 1 t).bump R.sfTCntCount t 6
  s.arm (.tileSleep t) (s.scaled 2000)

end Sys2Proof.Machine
end

