-- ==== Sys2Proof/Machine/Canvas.lean ====
section
/-! DEFINITION. LOAD, HANG, drain and mesh (R121 to R147, R172): the CANVAS block's commands. -/
namespace Sys2Proof.Machine

/-! ## Staging (R131, R133, R139) -/

/-- An image in external memory; empty where it does not lie in the installed memory. -/
def State.image (s : State) (addr len : Nat) : List Byte := if s.extOk addr len then s.ext.readBytes addr len else []

/-- Tiles whose role changes at the HANG to a CANVAS (R32, R139). DESIGN CHOICE (notes/assumptions/41.md). -/
def State.roleChanges (s : State) (c : Canvas) : List Nat :=
  (List.range s.member.tiles).filter fun t => s.role t ≠ c.role t

/-- INIT bytes of tile t (R139). -/
def Canvas.tileInit (c : Canvas) (t : Nat) : Nat := ((c.inits.filter (·.tile = t)).map (·.data.length)).foldl (· + ·) 0

/-- The HANG cost of a CANVAS in µs at pace 1.00 (R139). DESIGN CHOICE (notes/assumptions/41.md). -/
def State.hangCost (s : State) (c : Canvas) : Nat :=
  let i := (s.roleChanges c).map c.tileInit
  200 + max (ceilDiv (i.foldl max 0) 5000) (ceilDiv (i.foldl (· + ·) 0 * 100) (71 * s.member.extMBs))

/-- Roles of tiles 16n to 16n + 15, two bits each (R148). -/
def Canvas.roleWord (c : Canvas) (n : Nat) : Nat := ((List.range 16).map fun k => c.role (16 * n + k) % 4 * 4 ^ k).foldl (· + ·) 0

/-- Every EASEL field's staged value (R131, R148): REG records, what the loader derives from the CANVAS, and the
fields of the plan that will run. DEDUCED (notes/assumptions/75.md). -/
def easelRegs (c : Canvas) (p : Plan) (result mism epoch : Nat) : List (Nat × Nat) :=
  let put := fun (l : List (Nat × Nat)) (x : Row × Nat × Nat) => alPut l (x.1.key x.2.1 0) (x.2.2 % 2 ^ x.1.width)
  let dev : List (Row × Nat × Nat) :=
    [(R.cvActiveIdId, 0, c.id), (R.cvStatusEpoch, 0, epoch), (R.pwDomReqQuadReq, 0, c.quadOn), (R.kpAgreeResult, 0, result),
     (R.kpAgreeMismatch, 0, mism), (R.kpVerActiveCanvas, 0, c.format), (R.kpVerActivePlan, 0, p.abi)] ++
    (List.range 4).map fun n => (R.cvRoleARole, n, c.roleWord n)
  let qs : List (Row × Nat × Nat) := c.queues.flatMap fun q =>
    [(R.qmQCfgQuota, q.qid, q.quota), (R.qmQCfgClass, q.qid, q.cls), (R.qmQCfgXoff, q.qid, q.xoff), (R.qmQCfgPresent, q.qid, 1),
     (R.qmQHighHigh, q.qid, q.high), (R.qmQLowLow, q.qid, q.low), (R.qmQEpProd, q.qid, q.prod), (R.qmQEpCons, q.qid, q.cons)]
  (dev ++ qs ++ p.fields ((p.slotFor c.id).getD 0)).foldl put (regFields c.regs)

/-- Reserve one marker cell for each new queue (R133). -/
def State.reserveMarkers (s : State) (e : Easel) : List Nat → State
  | [] => s.modCv fun c => { c with loading := some e }
  | q :: t =>
    let s := s.modCv fun c => { c with loading := some e }
    (s.tick).reserveMarkers { e with markers := e.markers ++ [(q, s.pickFree)] } t

/-- CV_REJECT shows a refusal (R145, R174). -/
def State.showReject (s : State) (check index : Nat) : State :=
  ((s.setReg R.cvRejectCheck check).setReg R.cvRejectIndex index).setReg R.cvRejectValid 1

/-- A load item ends CANVAS_REJECT: STAGE is the image kind, FLAGS the check (R116, R145, R174). -/
def State.rejectLoad (s : State) (item : ItemId) (stage check index : Nat) : State :=
  (s.showReject check index).report item 0x0F stage check

/-- Quads switched on for a CANVAS that is not hung are switched off again (R143). -/
def State.quadsOff (s : State) (qs : List Nat) : State :=
  qs.foldl (fun s q => if s.domUp (10 + q) && !(bitAt s.cv.quadOn q) then s.domOff (10 + q) else s) s

/-- The INIT buffer is given free (R132). -/
def State.freeInit (s : State) : State := (s.setReg R.cvStatusInitHeld 0).modCv fun v => { v with initAt := none }

/-- EASEL is emptied, and what R133 reserved for it is released (R142, R143). -/
def State.discardEasel (s : State) : State :=
  match s.cv.easel with
  | none => s
  | some e =>
    let s := (s.modCv fun c => { c with easel := none }).quadsOff e.quadsOn
    let s := [R.cvStatusStaged, R.cvStatusPlanStaged, R.cvStatusHangPend, R.cvStagedIdId, R.cvHangCostUs].foldl
      (fun s r => s.setReg r 0) s.freeInit
    s.setRegs R.cvRoleERole 4 fun _ => 0

/-- The CANVASes that a staged plan meets in run: the staged one, and the active one under another CANVAS_ID (R152, R174). -/
def State.namedCanvases (s : State) (c : Canvas) : List Canvas :=
  match s.cv.active with
  | some a => if a.id = c.id then [c] else [c, a]
  | none => [c]

/-- What the loader finds for the images at CV_IMAGE_ADDR and CV_PLAN_ADDR in run (R112, R133, R145, R174): a refusal
as stage, check and index, or the EASEL to stage. DESIGN CHOICE (notes/assumptions/26.md). -/
def State.checkLoad (s : State) (item : ItemId) (img planImg : List Byte) (havePlan : Bool) : (Nat × Nat × Nat) ⊕ Easel :=
  let fw := (s.runningBank).map s.bank
  let plan : Option Plan := if havePlan then some (Plan.ofImage (s.reg R.cvPlanAddrAddr * 4096) planImg.length planImg) else s.pp.plan
  let magic := fieldAt img 0 4 == 0x43564E31 && fieldAt img 5 1 == 2 &&
    (match fw with | some b => within b.cvLo b.cvHi (fieldAt img 4 2) | none => true)
  if !magic then .inl (2, 0x01, 0)
  else if fieldAt img 6 1 ≠ s.member.num ∨ fieldAt img 7 1 ≠ s.member.tiles then .inl (2, 0x02, 0)
  else if havePlan && fieldAt planImg 0 4 != 0x504C4E31 then .inl (3, 0x20, 0)
  else
    match plan with
    | none => .inl (2, 0x11, 0)
    | some p =>
      match s.agree (match s.runningBank with | some b => [b] | none => []) (Pair.of img p) with
      | .refuse _ _ _ => .inl (2, 0x03, 0)
      | .run _ untested =>
        if !(s.sigCheck 2 (hasTrailer img) img).ok then .inl (2, 0x04, 0)
        else if havePlan && !(s.sigCheck 3 (hasTrailer planImg) planImg).ok then .inl (3, 0x04, 0)
        else
          match s.checkLayout img with
          | some (k, i) => .inl (2, k, i)
          | none =>
            let c := Canvas.ofImage img
            match s.checkCanvas c p false with
            | some (k, i) => .inl (2, k, i)
            | none =>
              match if havePlan then s.checkPlan p planImg fw (s.namedCanvases c) else none with
              | some (k, i) => .inl (3, k, i)
              | none =>
                .inr { canvas := c, plan := if havePlan then some p else none,
                       regs := easelRegs c p (ofFlag untested) 0 (1 - s.reg R.cvStatusEpoch), untested := untested,
                       item := item, markers := [], quadsOn := (List.range s.member.quads).filter fun q => bitAt c.quadOn q && !(s.domUp (10 + q)) }

/-- The bytes of INIT data are copied to the INIT buffer, one record after another (R132). -/
def State.copyInits (s : State) (c : Canvas) : State :=
  if c.initBytes = 0 then s
  else
    let a := s.reg R.cvInitAddrAddr * 4096
    ((s.modExt fun m => m.writeBytes a (c.inits.flatMap (·.data))).setReg R.cvStatusInitHeld 1).modCv fun v => { v with initAt := some a }

/-- A load begins (R133, R142): the replaced EASEL is emptied, the checks run, and the loader reserves markers, wakes
quads and copies the INIT data. CANVAS_STAGED ends it. -/
def State.beginLoad (s : State) (item : ItemId) : State :=
  let s := s.discardEasel
  let img := s.image (s.reg R.cvImageAddrAddr * 4096) (s.reg R.cvImageLenLen)
  let havePlan := s.reg R.cvPlanLenLen ≠ 0
  let planImg := if havePlan then s.image (s.reg R.cvPlanAddrAddr * 4096) (s.reg R.cvPlanLenLen) else []
  let s := s.noteSig 2 (slotIn img) (s.sigCheck 2 (hasTrailer img) img)
  let s := if havePlan then s.noteSig 3 (slotIn planImg) (s.sigCheck 3 (hasTrailer planImg) planImg) else s
  let s := s.setReg R.kpVerStagedCanvas (fieldAt img 4 2)
  let s := if havePlan then s.setReg R.kpVerStagedPlan (fieldAt planImg 4 2) else s
  match s.checkLoad item img planImg havePlan with
  | .inl (stage, check, index) =>
    ((s.rejectLoad item stage check index).setReg R.cvStatusLoadBusy 0).modCv fun v => { v with unstageWaits := false }
  | .inr e =>
    let s := s.setReg R.cvStatusLoadBusy 1
    let s := s.reserveMarkers e (s.newQueues e.canvas)
    let s := e.quadsOn.foldl (fun s q => s.domWake (10 + q)) s
    s.copyInits e.canvas

/-- LOAD (R133, R142, R145, R174): in run, loading and checking of a CANVAS and an optional plan starts.
DESIGN CHOICE (notes/assumptions/26.md). -/
def execLoadCanvas (s : State) : Out :=
  let s := s.setCmd R.cvCmdLoad
  if !s.inRun then .next s
  else
    let item := s.nextItem 0
    let s := s.takeItem 0
    .next (if s.flag R.cvStatusHangPend || s.flag R.cvStatusLoadBusy then s.rejectLoad item 2 0x0F 0
      else if s.flag R.cvStatusDraining then
        (s.modCv fun c => { c with loadWaits := some item }).setReg R.cvStatusLoadBusy 1
      else s.beginLoad item)

/-- LOAD_DEFERRED_START (R142): a LOAD that waited for DRAINING begins when it clears. -/
def execLoadDeferredStart (s : State) : Out :=
  .next (match s.cv.loadWaits with
    | some item =>
      if s.flag R.cvStatusDraining then s
      else (s.modCv fun c => { c with loadWaits := none }).beginLoad item
    | none => s)

/-- UNSTAGE of a staged CANVAS that waited for the load (R142). -/
def State.unstageAfter (s : State) : State :=
  if s.cv.unstageWaits then (s.modCv fun c => { c with unstageWaits := false }).discardEasel else s

/-- CANVAS_STAGED (R107, R133, R147): every router has written its idle bank, and the load item completes; a router
that failed ends the load with check 0x06 and a severity-2 fault. It waits for the quads that the load wakes. -/
def execCanvasStaged (badRouter : Option Nat) (s : State) : Out :=
  .next (match s.cv.loading with
    | none => s
    | some e =>
      if !(e.quadsOn.all fun q => s.domOn (10 + q)) then s
      else
        let s := s.modCv fun c => { c with loading := none }
        match badRouter with
        | some r =>
          let s := ((s.quadsOff e.quadsOn).rejectLoad e.item 2 0x06 r).raise 0x800030 8 2 6
          ((s.setReg R.cvStatusLoadBusy 0).freeInit).unstageAfter
        | none =>
          let c := e.canvas
          let s := s.modCv fun v => { v with easel := some e }
          let s := ((s.setReg R.cvStatusStaged 1).setFlag R.cvStatusPlanStaged e.plan.isSome).setReg R.cvStatusLoadBusy 0
          let s := (s.setReg R.cvStagedIdId c.id).setReg R.cvHangCostUs (s.hangCost c)
          let s := s.setRegs R.cvRoleERole 4 c.roleWord
          let s := if e.untested then s.inform e.item 0x10 2 (staged e.regs R.kpAgreeMismatch) else s
          (s.complete e.item 6).unstageAfter)

/-- HANG (R135, R141, R142): a request pends, or finds nothing staged and sets HANG_NONE. -/
def State.requestHang (s : State) : State :=
  if s.flag R.cvStatusStaged then s.setReg R.cvStatusHangPend 1 else s.setReg R.cvStatusHangNone 1

/-- HANG by CV_CMD (R135). -/
def execHangRequest (s : State) : Out := .next (s.setCmd R.cvCmdHang).requestHang

/-- UNSTAGE (R142, R143): EASEL is emptied; it waits while a load is in progress. -/
def execUnstage (s : State) : Out :=
  let s := s.setCmd R.cvCmdUnstage
  .next (if s.flag R.cvStatusLoadBusy then s.modCv fun c => { c with unstageWaits := true } else s.discardEasel)

/-! ## Tile memory across a HANG (R32, R127, R132) -/

/-- Unit u of 4 KiB of tile t lies in a KEEP partition. -/
def Canvas.keepsUnit (c : Canvas) (t u : Nat) : Bool :=
  (c.tileParts t).any fun p => p.keep && decide (p.base ≤ u) && decide (u < p.base + p.size)

/-- Everything outside the KEEP partitions of tile t becomes undefined (R32, R127). -/
def State.dropParts (s : State) (c : Canvas) (t : Nat) : State :=
  if (c.tileParts t).any (·.keep) then
    ((s.modTmem fun m => (List.range 256).foldl (fun m u =>
      if c.keepsUnit t u then m else m.makeUndef (tileAddr t (4096 * u)) 4096 s.freeCtr) m)).tick
  else s.loseTile t

/-- INIT records with the offsets of their data in the INIT buffer (R132). DESIGN CHOICE (notes/assumptions/41.md). -/
def initOffsets : Nat → List InitRec → List (InitRec × Nat)
  | _, [] => []
  | o, r :: t => (r, o) :: initOffsets (o + r.data.length) t

/-- The data of an INIT record: what the INIT buffer holds for it, or at boot what the image holds (R132). -/
def State.initBytesOf (s : State) (x : InitRec × Nat) : List Byte :=
  match s.cv.initAt with
  | some a => s.ext.readBytes (a + x.2) x.1.data.length
  | none => x.1.data

/-- Write the INIT data of tile t (R132, R138). -/
def State.writeInits (s : State) (c : Canvas) (l : List InitRec) (t : Nat) : State :=
  ((initOffsets 0 l).filter (·.1.tile = t)).foldl (fun (s : State) x =>
    match c.part t x.1.part with
    | some p => s.tileWrite t (4096 * p.base + x.1.off) (s.initBytesOf x)
    | none => s) s

/-- The counters and state bits of tile t's windows start afresh (R283, R311, 18). -/
def State.clearTileWindow (s : State) (t : Nat) : State :=
  let z := fun (s : State) (r : Row) => (List.range r.n2).foldl (fun s j => s.setReg r 0 t j) s
  [R.sfTCntCount, R.sfTStatAwake, R.deTCntCount, R.deTStatBusy, R.deTStatKind, R.deTStatWindow, R.deTStatYielded, R.deTEpochEpoch,
    R.deTEpochValid].foldl z s

/-- Tile t takes the role of a CANVAS: non-KEEP memory undefined, INIT data written (R16, R32, R138). A render window that opened
over its group meanwhile has it from now on (R168, R172). -/
def State.takeRole (s : State) (c : Canvas) (t : Nat) : State :=
  let s := if c.role t = 0 then s.loseTile t else (s.dropParts c t).writeInits c s.cv.inits t
  let s := (s.setRole t (c.role t)).clearTileWindow t
  if s.rd.sides.any (·.tile = t) then s.setReg R.deTStatWindow 1 t else s

/-! ## The HANG (R136, R140, R172) -/

/-- The row and element that a key of the register file belongs to. -/
def rowOf (k : Nat) : Option (Row × Nat × Nat) :=
  let o := k / 32 * 4
  (blockRows o).findSome? fun r => if r.lo = k % 32 then (r.find o).map fun x => (r, x.1, x.2) else none

/-- A key of the palette block. -/
def paletteKey (k : Nat) : Bool := decide (8 * 0x600000 ≤ k) && decide (k < 8 * 0x700000)

/-- A field keeps its value through a HANG; queue descriptors follow R140 instead of EASEL. -/
def keptAtHang (k : Nat) : Bool :=
  match rowOf k with
  | some (r, _, _) => r.hang = .kept || (r.hang = .easel && paletteKey k)
  | none => true

/-- Give a key its staged value. -/
def putStaged (l : List (Nat × Nat)) (x : Nat × Nat) : List (Nat × Nat) :=
  match rowOf x.1 with
  | some (r, i, _) => if paletteKey x.1 || x.2 = r.resetAt i then l else regIns (regDel l x.1) x.1 x.2
  | none => l

/-- Every EASEL field takes its staged value and every cleared field its reset value, in one action (R136, R482).
DESIGN CHOICE (notes/assumptions/41.md). -/
def State.applyEasel (s : State) (e : Easel) : State :=
  { s with regs := e.regs.foldl putStaged (s.regs.filter fun x => keptAtHang x.1) }

/-- Queue descriptors at the HANG (R140). -/
def State.hangQueues (s : State) (e : Easel) : State :=
  let ids := e.canvas.queues.map (·.qid)
  let old := s.queueIds.filter fun q => s.flag R.qmQCfgPresent q && !(ids.contains q)
  let s := old.foldl State.retireQueue s
  (e.canvas.queues.foldl (fun s q =>
    if s.flag R.qmQCfgPresent q.qid then s.updateQueue q
    else s.createQueue q ((alGet e.markers q.qid).getD 0)) s).refreshXoff

/-- A plan starts at its entry with fresh registers, scratch and fences (R149, R161, R172); t0 is the start of its first slot.
Slot operations already issued run to completion; a GO held for a step of the old plan is answered BAD_ARG. Other than at a
HANG the renderer numbers its frames from 0 and forgets its state slots (R369, R371). -/
def State.startPlan (s : State) (p : Plan) (t0 : Nat) (atSeam : Bool) : State :=
  let s := match s.pp.heldGo with
    | some g => s.answer { stream := streamOf g.2, item := g.2, op := 2, args := [] } 4 0
    | none => s
  let img := s.image p.addr p.len
  let scr : Mem := (({} : Mem).writeBytes 0 (bytesAt img p.scrOff p.scrLen))
  let s := (s.modScratch fun _ => scr).modPp fun x =>
    { plan := some p, ops := x.ops, issued := x.issued, serial := x.serial, opCount := x.opCount, slotStart := t0, slotBegun := atSeam,
      startSeam := !atSeam }
  let s := (s.modTm fun t => { t with noStep := true }).modFu fun u => { u with cycleStep := none }
  let s := if atSeam then s else
    (s.modRd fun r => { r with openF := { r.openF with no := 0 }, xf := [], tex := [] }).setReg R.rdFrameOpen 0
  let s := ((s.setReg R.ppStatusRun 1).setReg R.ppStatusPhase 0).setReg R.ppBundleIndex p.entry
  let s := ((s.setReg R.ppStepCount 0).setReg R.ppFencePending 0).setReg R.ppT0LoT0 t0
  s.setReg R.ppT0HiT0 (t0 / 2 ^ 32)

/-- The start of the slot that the running plan's next step takes (R161, R172). -/
def State.nextSlot (s : State) : Nat :=
  if s.pp.startSeam then s.devtime
  else
    let t0 := s.reg R.ppT0LoT0 + 2 ^ 32 * s.reg R.ppT0HiT0
    let k := if s.pp.firstStep then 0 else s.reg R.ppStepCount + 1
    t0 + k * s.reg R.pcDeadlineDUs * 1000

/-- The windows still open close at a step seam (R168). -/
def State.closeWindows (s : State) : State :=
  (s.rd.sides.foldl (fun (s : State) x => s.setReg R.deTStatWindow 0 x.tile) s).modRd fun r => { r with sides := [], prios := [] }

/-- The old-epoch packets in the mesh (R137): CV_EPOCH_DRAIN follows them. -/
def State.refreshDrain (s : State) : State :=
  let e := s.reg R.cvStatusEpoch
  let old := fun (p : Packet) => decide (p.epoch ≠ e)
  s.setReg R.cvEpochDrainCount ((s.mesh.packets.filter old).length + (s.mesh.atLocal.filter old).length)

/-- The HANG (R136): everything that changes in one action; windows still open close (R168, R172). At boot no CANVAS was active:
epoch 0, no drain, roles taken at once. -/
def State.doHang (s : State) (e : Easel) (boot : Bool) : State :=
  let c := e.canvas
  let slot := s.nextSlot
  let cost := s.hangCost c
  let changes := s.roleChanges c
  let old := s.cv.active
  let s := (s.closeWindows).closeChangedSteps e.regs
  let was := s.pacedNow
  let s := s.hangQueues e
  let s := ((s.applyEasel e).removeBindings s).startPaced was
  let s := ((s.setReg R.cvStatusActive 1).bump R.cvHangsCount).setReg R.cvStatusHangPend 0
  let s := if e.untested then s.setReg R.kpAgreeUntestedLatch 1 else s
  let s := s.modKeeper fun k => { k with guardDeepest := false }
  let s := s.modCv fun v =>
    { v with active := some c, draining := if boot then none else old, easel := none, takers := if boot then [] else changes,
             drainFrom := s.devtime, drained := boot, seamHang := some cost, inits := c.inits, quadOn := c.quadOn }
  let s :=
    if boot then (List.range s.member.tiles).foldl (fun s t => if c.role t = 0 then s.setRole t 0 else s.takeRole c t) s
    else
      let same := (List.range s.member.tiles).filter fun t => c.role t ≠ 0 ∧ ¬ (changes.contains t)
      ((same.foldl (fun s t => s.dropParts c t) s).setReg R.cvStatusDraining 1).arm .drain (s.scaled 200000)
  let s := match e.plan with
    | some p => if boot then s.startPlan p s.devtime false else s.startPlan p slot true
    | none => s
  (s.refreshDrain).sendGrants

/-- The plan's next bundle as a number (R149, R155). -/
def State.nextBundle (s : State) : Option Nat :=
  s.pp.plan.map fun p => s.ext.readNat (p.addr + p.bundleOff + 256 * s.reg R.ppBundleIndex) 256

/-- A screen tile is in progress in a render window (R168). -/
def State.screensBusy (s : State) : Bool := s.rd.sides.any (·.screen.isSome)

/-- The next bundle is a STEP_SEAM bundle, the scalar operation before it has completed and every fence has completed
(R158): the windows still open are closing (R168). -/
def State.seamReached (s : State) : Bool :=
  s.flag R.ppStatusRun && s.pp.scalar.isNone && s.reg R.ppFencePending == 0 &&
  match s.nextBundle with
  | some b => bitAt b 36
  | none => false

/-- The step seam handshake of the next bundle can complete (R158, R168): the step's slot has begun, too, and no screen
tile is in progress. -/
def State.atStepSeam (s : State) : Bool := s.seamReached && (s.pp.slotBegun || s.pp.startSeam) && !s.screensBusy

/-- A requested HANG can take effect at a seam (R135). -/
def State.hangReady (s : State) : Bool :=
  s.flag R.cvStatusHangPend && s.flag R.cvStatusStaged && !(s.flag R.cvStatusDraining)

/-- HANG_EFFECT (R32, R43, R55, R127, R131, R135 to R141, R172, R261, R415, R482): at a step seam the HANG applies
EASEL before any bundle of the next step issues. DESIGN CHOICE (notes/assumptions/33.md). -/
def execHangEffect (s : State) : Out :=
  .next (if s.atStepSeam && s.hangReady then
    match s.cv.easel with
    | some e => s.doHang e false
    | none => s
  else s)

/-! ## Moves in the mesh (R20, R300) -/

/-- A packet of a move has left the mesh: the operation has finished once none of its packets is left (R160, R300). -/
def State.moveOver (s : State) (p : Packet) : State :=
  match p.load with
  | none => s
  | some m =>
    if s.mesh.packets.any fun x => (x.load.map (·.op)) == some m.op then s
    else s.modPp fun x => { x with ops := x.ops.map fun o => if o.id = m.op ∧ o.cls = 2 then { o with done := true } else o }

/-- A packet of a move arrives at tile t (R300, R309): its bytes are written, or are undefined.
DESIGN CHOICE (notes/assumptions/47.md). -/
def State.takeMove (s : State) (t : Nat) (p : Packet) (m : MoveLoad) : State :=
  let s := s.tileWrite t m.addr m.data
  (if m.bad then s.tileUndef t m.addr m.data.length else s).moveOver p

/-! ## The drain (R138, R140, R144, R146) -/

/-- DRAINING clears when the drain and every role change have finished; quads that QUAD_ON no longer declares on are
switched off (R138). -/
def State.finishDrain (s : State) : State :=
  if s.cv.drained && s.cv.takers.isEmpty && s.flag R.cvStatusDraining then
    let s := ((s.setReg R.cvStatusDraining 0).freeInit).modCv fun c => { c with inits := [] }
    (List.range s.member.quads).foldl (fun s q =>
      if s.domUp (10 + q) && !(bitAt s.cv.quadOn q) then s.domOff (10 + q) else s) s
  else s

/-- Items of which a retired queue still holds a cell when the epoch drain ends end with EPOCH_ABORT (R140, R457). -/
def State.abortRetired (s : State) (q : Nat) : State :=
  if s.flag R.qmQCfgRetired q then
    let items := ((s.queue q).cells.filter fun c => !c.marker && !c.epm).map fun c =>
      c.itemSeen (ofFlag (parity 64 c.data.toNat != c.dp))
    let s := s.reportAll items.eraseDups 0x0D 0xFF q
    (s.modQueue q fun x => { x with cells := [] }).releaseRetired q
  else s

/-- The drain has ended (R138): banks are released, retired queues are closed, tiles that keep their role get their
INIT data, and the others may take their roles. DESIGN CHOICE (notes/assumptions/41.md). -/
def State.endDrain (s : State) : State :=
  let us := (openDiv 148 ((s.devtime - s.cv.drainFrom : Nat) : Int) 1000).toNat
  let s := (s.setReg R.cvLastDrainUs (satTo 0xFFFF us)).disarm .drain
  let s := s.modCv fun c => { c with drained := true, draining := none }
  let s := s.queueIds.foldl State.abortRetired s
  let s := match s.cv.active with
    | some c => ((List.range s.member.tiles).filter fun t => !(s.cv.takers.contains t)).foldl (fun (s : State) t => s.writeInits c s.cv.inits t) s
    | none => s
  s.finishDrain

/-- EPOCH_DRAIN_END (R18, R138, R140): CV_EPOCH_DRAIN has reached 0. -/
def execEpochDrainEnd (s : State) : Out :=
  .next (if s.flag R.cvStatusDraining && !s.cv.drained && s.reg R.cvEpochDrainCount == 0 then
    (s.setReg R.cvLastDrainAborts 0).endDrain
  else s)

/-- One old-epoch packet is discarded at its router (R146): its item ends with EPOCH_ABORT and counts, unless it has
already ended; where the ledger head holds the item's record, the two become one (R31, R144, R460).
DESIGN CHOICE (notes/assumptions/41.md). -/
def State.abortPacket (s : State) (p : Packet) : State :=
  let s := s.moveOver p
  if !(s.hasEnded p.item) then (s.report p.item 0x0D p.tile 0).bumpSat R.cvLastDrainAborts
  else if s.lg.held.any (·.item = p.item) then s.report p.item 0x0D p.tile 0
  else s

/-- DRAIN_TIMEOUT (R144, R146): the drain bound has passed, and the routers discard what is left of the old epoch.
DESIGN CHOICE (notes/assumptions/41.md). -/
def execDrainTimeout (s : State) : Out :=
  .next (if s.flag R.cvStatusDraining && !s.cv.drained && s.due .drain then
    let e := s.reg R.cvStatusEpoch
    let lost := (s.mesh.packets ++ s.mesh.atLocal).filter fun p => decide (p.epoch ≠ e)
    let s := s.modMesh fun m => { packets := m.packets.filter fun p => decide (p.epoch = e),
                                  atLocal := m.atLocal.filter fun p => decide (p.epoch = e) }
    ((lost.foldl State.abortPacket (s.setReg R.cvLastDrainAborts 0)).refreshDrain).endDrain
  else s)

/-- TILE_ROLE_TAKE (R15, R16, R32, R132, R138, R283): after the drain a tile writes its INIT data and takes its role.
DESIGN CHOICE (notes/assumptions/41.md). -/
def execTileRoleTake (t : Nat) (s : State) : Out :=
  .next (match s.cv.active with
    | some c =>
      if s.cv.drained && s.cv.takers.contains t then
        ((s.takeRole c t).modCv fun v => { v with takers := v.takers.filter (· ≠ t) }).finishDrain
      else s
    | none => s)

/-! ## The mesh (R19 to R21, R121 to R123, R129, R137) -/

/-- The CANVAS whose bank routes an epoch (R136, R137). -/
def State.bankOf (s : State) (epoch : Nat) : Option Canvas :=
  if epoch = s.reg R.cvStatusEpoch then s.cv.active else s.cv.draining

/-- The entry of tile t that decides a packet (R123). -/
def Canvas.lookup (c : Canvas) (t key vc : Nat) : Option RouteRec :=
  (c.tileRoutes t).find? fun e => e.vc == vc && (key ^^^ e.key) &&& e.mask == 0

/-- A packet moves out of a port of its router: to a neighbour, or to the local port, where the tile takes a move and every other
packet waits for its consumer (R123, R129, R300). -/
def State.moveOut (s : State) (p : Packet) (port : Nat) : State :=
  match s.neighbour p.tile port, p.load with
  | some n, _ => s.modMesh fun m => { m with packets := m.packets ++ [{ p with tile := n, since := s.devtime }] }
  | none, some l => s.takeMove p.tile p l
  | none, none => s.modMesh fun m => { m with atLocal := m.atLocal ++ [{ p with vc := p.escPort.getD p.vc, escPort := none }] }

/-- The ports that a packet leaves its router by (R20, R123). -/
def State.routePorts (s : State) (p : Packet) : Option (List Nat) :=
  if p.vc = 0 then some [(s.xyPort p.tile p.dest).getD 4]
  else
    match s.bankOf p.epoch with
    | none => none
    | some c => (c.lookup p.tile p.key p.vc).map fun e => outPorts e.out

/-- An earlier packet that entered the mesh at the same router waits at the same router on the same channel: a link keeps
order. -/
def State.behind (s : State) (k : Nat) (p : Packet) : Bool :=
  (s.mesh.packets.take k).any fun q => q.tile == p.tile && q.vc == p.vc && q.origin == p.origin

/-- MESH_PACKET_ROUTE (R19 to R21, R32, R121, R123, R137): the router forwards packet k whole under the table of its
epoch, on VC1 to every port of the entry. Without an entry for its VC, behind an earlier packet of the same path, and in a quad
that is off (R282), it waits. DESIGN CHOICE (notes/assumptions/41.md). -/
def execMeshPacketRoute (k : Nat) (s : State) : Out :=
  .next (match s.mesh.packets[k]? with
    | none => s
    | some p =>
      if s.behind k p || !(s.domOn (10 + s.quadOf p.tile)) then s else
      match s.routePorts p with
      | none => s
      | some ports =>
        let s := s.modMesh fun m => { m with packets := m.packets.eraseIdx k }
        (ports.foldl (fun s o => s.moveOut p o) s).refreshDrain)

/-- ESCAPE_DIVERT (R20, R129): packet k has waited ESC_WAIT, from its coming to the router, on an escape channel; it leaves it
whole and continues on VC0 to DEST, where it arrives as on its own VC. DESIGN CHOICE (notes/assumptions/41.md). -/
def execEscapeDivert (k : Nat) (s : State) : Out :=
  .next (match s.mesh.packets[k]? with
    | none => s
    | some p =>
      match s.bankOf p.epoch with
      | none => s
      | some c =>
        match c.lookup p.tile p.key p.vc with
        | none => s
        | some e =>
          match c.deps.find? fun d => d.tile == p.tile && bitAt e.out d.port && d.vc == p.vc with
          | some d =>
            if (p.vc = 2 ∨ p.vc = 3) ∧ p.since + s.scaled (100 * d.wait) ≤ s.devtime then
              s.modMesh fun m => { m with packets := m.packets.set k { p with vc := 0, dest := e.dest, escPort := some p.vc, since := s.devtime } }
            else s
          | none => s)

end Sys2Proof.Machine
end

