-- ==== Sys2Proof/Machine/Boot.lean ====
section
/-! DEFINITION. Reset exit, the boot steps K1 to K9, core reboot, run begin, and the Keeper store (R67 to R69, R82,
R89, R91 to R117). -/
namespace Sys2Proof.Machine

/-! ## Banks of the Keeper store (R93, R105, R110, R115) -/

/-- Change bank i of the store. -/
def State.modBank (s : State) (i : Nat) (f : Bank → Bank) : State :=
  s.modStore fun t => if i = 0 then { t with bankA := f t.bankA } else { t with bankB := f t.bankB }

/-- The bank that a firmware image makes (R93, R101); the layout of its header is not in the manual.
DESIGN CHOICE (notes/assumptions/7.md). -/
def Bank.ofImage (img : List Byte) (sigOk : Bool) : Bank :=
  let h := fun k => (Config.fwHeader img).getD k 0
  { image := img, headerOk := true, signed := hasTrailer img, sigOk := sigOk, version := h 0 % 2 ^ 16, stepLo := h 1, stepHi := h 2,
    members := h 3, cvLo := h 4, cvHi := h 5, abiLo := h 6, abiHi := h 7 }

/-- The bank that a firmware image is written to (R110). -/
def State.fwTarget (s : State) : Nat :=
  match s.runningBank with
  | some b => 1 - b
  | none =>
    let bad := fun i => !(s.bankUsable i) || (s.bank i).excluded
    if bad 0 then 0 else if bad 1 then 1
    else if s.store.bankA.version < s.store.bankB.version then 0
    else if s.store.bankB.version < s.store.bankA.version then 1
    else if s.store.preferB then 0 else 1

/-- A firmware image passes R100, the candidate test of R105 and the limit of R111. Answers the failing check. -/
def State.fwCheck (s : State) (img : List Byte) (signed : Bool) : Option Nat :=
  let b := Bank.ofImage img true
  if !(s.sigCheck 4 signed img).ok then some 0x04
  else if 262144 < img.length then some 0x06
  else if within b.stepLo b.stepHi s.part.stepping && bitAt b.members s.member.num then none else some 0x03

/-- The body of a checked firmware image is written to bank i, whose header is not valid meanwhile (R93).
DESIGN CHOICE (notes/assumptions/62.md). -/
def State.fwBody (s : State) (i : Nat) (img : List Byte) : State :=
  s.modBank i fun b => { b with image := img, headerOk := false }

/-- The header of a firmware image is written, last of all, and its bank's failures and exclusion are cleared (R93, R110).
It counts for bank selection from the next full reset on. DESIGN CHOICE (notes/assumptions/62.md). -/
def State.fwHeader (s : State) (i : Nat) (img : List Byte) : State :=
  (s.modBank i fun _ => Bank.ofImage img true).modKeeper fun k => { k with written := i :: k.written.filter (· ≠ i) }

/-- A checked firmware image is written, body first and header last (R93, R110). -/
def State.fwWrite (s : State) (img : List Byte) : State :=
  let i := s.fwTarget
  (s.fwBody i img).fwHeader i img

/-! ## A plan that starts again (R149) -/

/-- PD05 has come on in run: the plan starts at its entry point, with the PP fields that its header fills (R131, R149, R151); the
grid starts at its first step seam (R161). DESIGN CHOICE (notes/assumptions/18.md). -/
def State.restartPlan (s : State) : State :=
  match s.pp.plan, s.cv.active with
  | some p, some c =>
    let s := ((s.setReg R.ppStepGraceGrace p.grace).setReg R.ppPlanIdAbi p.abi).setReg R.ppPlanIdCvSlot ((p.slotFor c.id).getD 0)
    s.startPlan p s.devtime false
  | _, _ => s

/-- DOMAIN_WAKE_DONE (R70 to R72, R149, R201, R454, R463): a waking domain is powered and ready. -/
def execDomainWakeDone (d : Nat) (s : State) : Out :=
  .next (if s.waking d then
    let s := s.domReady d
    (if d = 5 && s.inRun then s.restartPlan else s).domServed d
  else s)

/-! ## The boot checks K5 to K7 (R94 to R105, R112, R114, R116) -/

/-- A check of K5 to K9 that fails: the GESSO code of R78, and the image kind and check of the CANVAS_REJECT record. -/
structure Reject where
  code : Nat
  kind : Nat
  check : Nat
  index : Nat := 0
  deriving DecidableEq, Repr

/-- K5's choice of a manifest (R104, R114). A boot-set manifest that is not well formed is not valid. -/
def State.chooseManifest (s : State) (new : Option Manifest) : State :=
  match new, s.store.manifest with
  | none, _ => s.setReg R.kpManifestInfoSource 0
  | some m, none => (s.modKeeper fun k => { k with manifestNew := some m }).setReg R.kpManifestInfoSource 1
  | some m, some o =>
    if o.serial < m.serial then (s.modKeeper fun k => { k with manifestNew := some m }).setReg R.kpManifestInfoSource 1
    else
      let s := s.setReg R.kpManifestInfoSource 0
      if m.serial = o.serial ∧ m.entries ≠ o.entries then (s.setReg R.kpManifestInfoConflict 1).raise 0x28 13 1 0 else s

/-- The image of a directory entry. -/
def State.dirImage (s : State) (e : DirEnt) : List Byte := s.image e.off e.len

/-- What K5 and K6 leave: the CANVAS image, the plan's address and image. -/
structure BootImages where
  cv : List Byte
  planAddr : Nat
  planImg : List Byte
  deriving DecidableEq, Repr

/-- Signature check of a boot image, shown in KP_SIG (R100, R117). -/
def State.bootSig (s : State) (e : DirEnt) : Bool × State :=
  let img := s.dirImage e
  let r := s.sigCheck e.kind e.signed img
  (r.ok, s.noteSig e.kind (slotIn img) r)

/-- K5 for the manifest of the directory (R100, R103, R104). -/
def State.bootManifest (s : State) (l : List DirEnt) : State × Option Reject :=
  match l.find? (·.kind = 1) with
  | none => (s.chooseManifest none, none)
  | some e =>
    let r := s.bootSig e
    if r.1 then (r.2.chooseManifest (Manifest.ofImage (s.dirImage e)), none) else (r.2, some { code := 3, kind := 1, check := 4 })

/-- The firmware image of a boot set (R110): an item of stream 0x00 that completes when its header is written.
DESIGN CHOICE (notes/assumptions/12.md). -/
def State.bootFirmware (s : State) (l : List DirEnt) : State × Option Reject :=
  match l.find? (·.kind = 4) with
  | none => (s, none)
  | some e =>
    let img := s.dirImage e
    let item := s.nextItem 0
    let s := (s.takeItem 0).noteSig 4 (slotIn img) (s.sigCheck 4 e.signed img)
    match s.fwCheck img e.signed with
    | none => ((s.fwWrite img).complete item 0, none)
    | some k => (s.report item 0x0F 4 k, some { code := if k = 4 then 3 else 2, kind := 4, check := k })

/-- K5 and K6: the directory, the manifest, the signatures of CANVAS and plan, and a firmware image (R94, R97 to
R100, R104, R110). -/
def State.bootImages (s : State) : State × (Reject ⊕ BootImages) :=
  match bootDir s.ext with
  | none => (s, .inl { code := 5, kind := 2, check := 6 })
  | some l =>
    match s.bootManifest l with
    | (s, some r) => (s, .inl r)
    | (s, none) =>
      match s.bootFirmware l with
      | (s, some r) => (s, .inl r)
      | (s, none) =>
        match l.find? (·.kind = 2), l.find? (·.kind = 3) with
        | some c, some p =>
          let a := s.bootSig c
          let b := a.2.bootSig p
          if !a.1 then (a.2, .inl { code := 3, kind := 2, check := 4 })
          else if !b.1 then (b.2, .inl { code := 3, kind := 3, check := 4 })
          else (b.2, .inr { cv := s.dirImage c, planAddr := p.off, planImg := s.dirImage p })
        | _, _ => (s, .inl { code := 5, kind := 2, check := 6 })

/-- K7: version agreement (R102, R105, R117); with `keep` the running bank stays (R96, R475). Answers the bank and
whether it runs untested. -/
def State.bootAgree (s : State) (keep : Bool) (cands : List Nat) (b : BootImages) : State × (Reject ⊕ (Nat × Bool)) :=
  let p := Plan.ofImage b.planAddr b.planImg.length b.planImg
  let pair := Pair.of b.cv p
  let l := if keep then (match s.runningBank with | some i => [i] | none => []) else cands
  let s := (s.setReg R.kpVerStagedCanvas pair.format).setReg R.kpVerStagedPlan pair.abi
  let s := s.setRegs R.kpBankTested 2 fun i => ofFlag (s.tested (s.bank i) pair)
  match s.agree l pair with
  | .run i u => ((s.setReg R.kpAgreeResult (ofFlag u)).setReg R.kpAgreeMismatch 0, .inr (i, u))
  | .refuse code result m =>
    ((s.setReg R.kpAgreeResult result).setReg R.kpAgreeMismatch m, .inl { code := code, kind := 2, check := 3 })

/-! ## K8 and K9 (R89, R94, R95, R133, R145) -/

/-- K8: the chosen bank runs (R94, R117). -/
def State.startBank (s : State) (i : Nat) : State :=
  let s := ((s.setReg R.kpFwVersion (s.bank i).version).setReg R.kpFwBank i).setReg R.kpFwRomOnly 0
  (s.modKeeper fun k => { k with k8Boot := true }).setReg R.kpBootStep 8

/-- The loader's checks on the boot CANVAS and plan, in ascending order of code (R89, R145, R174).
DESIGN CHOICE (notes/assumptions/12.md). -/
def State.bootLoadCheck (s : State) (c : Canvas) (p : Plan) (b : BootImages) (fw : Bank) : Option Reject :=
  if fieldAt b.cv 0 4 ≠ 0x43564E31 ∨ fieldAt b.cv 5 1 ≠ 2 then some { code := 5, kind := 2, check := 1 }
  else if fieldAt b.cv 6 1 ≠ s.member.num ∨ fieldAt b.cv 7 1 ≠ s.member.tiles then some { code := 5, kind := 2, check := 2 }
  else
    match s.checkLayout b.cv with
    | some (k, i) => some { code := 5, kind := 2, check := k, index := i }
    | none =>
      match s.checkCanvas c p true with
      | some (k, i) => some { code := 5, kind := 2, check := k, index := i }
      | none =>
        if s.member.maxMw * 1000000 < s.canvasPower c then some { code := 8, kind := 2, check := 0x12 }
        else
          (s.checkPlan p b.planImg (some fw) [c]).map fun x => { code := 5, kind := 3, check := x.1, index := x.2 }

/-- K9: requested domains and the CANVAS's quads come on, the loader stages, the boot HANG takes effect and the plan
starts (R94, R133, R136). DESIGN CHOICE (notes/assumptions/12.md). -/
def State.bootHang (s : State) (item : ItemId) (c : Canvas) (p : Plan) (untested : Bool) : State :=
  let want := s.reg R.pwDomReqOnReq
  let s := domOrder.foldl (fun s d => if bitAt want (d - 1) then s.domBoot d else s) s
  let s := (List.range s.member.quads).foldl (fun s q => if bitAt c.quadOn q then s.domOnNow (10 + q) else s) s
  let e : Easel := { canvas := c, plan := some p, regs := easelRegs c p (ofFlag untested) 0 0, untested := untested,
                     item := item, markers := [], quadsOn := [] }
  let s := s.reserveMarkers e (s.newQueues c)
  let e := (s.cv.loading).getD e
  let s := s.modCv fun v => { v with loading := none }
  let s := if untested then s.inform item 0x10 2 0 else s
  ((s.doHang e true).setReg R.kpBootStep 9).complete item 6

/-- A boot, reboot or RESUME that fails (R96, R109, R116): the load item ends CANVAS_REJECT, and GESSO follows; after
a core reset its code is 1, but for the power check of R89. A refused firmware image has ended its own item, and no load item
is made. DESIGN CHOICE (notes/assumptions/12.md). -/
def State.bootReject (s : State) (reboot : Bool) (r : Reject) : State :=
  let s := if r.kind = 4 then s else (s.takeItem 0).rejectLoad (s.nextItem 0) r.kind r.check r.index
  s.enterGesso (if reboot ∧ r.code ≠ 8 then 1 else r.code)

/-- K5 to K9 (R94). `keep`: the running bank is kept (R96, R475); `reboot`: failures lead to code 1 (R96).
DESIGN CHOICE (notes/assumptions/12.md). -/
def State.bootFrom5 (s : State) (keep reboot : Bool) : State :=
  let cands := ([0, 1].filter s.candidate).filter fun i => !(s.keeper.written.contains i)
  let s := s.modKeeper fun k => { k with mode := .booting, lastResult := none }
  let s := (((s.disarm .bootWait).disarm .heartbeat).setReg R.pwHbCode 0).setReg R.pwHbMode 0
  let s := (s.setReg R.kpBootStep 5).setFaultN false
  match s.bootImages with
  | (s, .inl r) => s.bootReject reboot r
  | (s, .inr b) =>
    match s.bootAgree keep cands b with
    | (s, .inl r) => s.bootReject reboot r
    | (s, .inr (i, u)) =>
      let s := if keep then s else s.startBank i
      let c := Canvas.ofImage b.cv
      let p := Plan.ofImage b.planAddr b.planImg.length b.planImg
      match s.bootLoadCheck c p b (s.bank i) with
      | some r => s.bootReject reboot r
      | none => (s.takeItem 0).bootHang (s.nextItem 0) c p u

/-! ## K1 to K4 (R68, R91, R94) -/

/-- K3: headers and signatures of both banks (R94, R100). The store's banks count again for selection.
DESIGN CHOICE (notes/assumptions/12.md). -/
def State.bootK3 (s : State) : State :=
  let s := s.modKeeper fun k => { k with written := [] }
  [0, 1].foldl (fun s i =>
    let b := s.bank i
    if !b.headerOk then s else
      s.noteSig (5 + i) 0 (if b.signed then (if b.sigOk then .valid else .failed)
        else if s.part.sbEn then .unsignedRefused else .unsignedOk)) s

/-- Reset exit (R68, R91, R94): straps, pins, K1 to K3, and the wait of K4. DESIGN CHOICE (notes/assumptions/12.md). -/
def State.resetExit (s : State) (bootSel : Nat) (memOk : Bool) : State :=
  let s := ((s.setReg R.pwHbBootSel bootSel).setReg R.kpBootSource bootSel).setFlag R.kpBootStrapBad (bootSel = 3)
  let s := s.modPins fun p => { p with heartbeat := .low, ready := .low, camSync := .low, faultN := .z }
  let s := (s.modKeeper fun k => { k with mode := .waitGo }).xoffPins
  let s := ((s.domOnNow 1).domOnNow 4).domOnNow 6
  if !memOk then s.enterGesso 9
  else
    let s := s.bootK3
    if 2 ≤ bootSel then s.enterGesso 1
    else (s.setReg R.kpBootStep 4).arm .bootWait 5000000000

/-- RESET_N_RELEASE (R67, R68, R91, R94, R100): RESET_N rises; with the internal power-on reset released the device
leaves reset. -/
def execResetNRelease (bootSel : BitVec 2) (memOk : Bool) (s : State) : Out :=
  .next (if s.keeper.mode = .reset ∧ s.pins.resetN = false then
    let s := s.modPins fun p => { p with resetN := true }
    if s.pins.porReleased then s.resetExit bootSel.toNat memOk else s
  else s)

/-- POWER_ON_RESET_RELEASE (R67, R68, R91, R94): the internal power-on reset releases; with RESET_N high the device
leaves reset. -/
def execPowerOnResetRelease (bootSel : BitVec 2) (memOk : Bool) (s : State) : Out :=
  .next (if s.keeper.mode = .reset ∧ s.pins.porReleased = false then
    let s := s.modPins fun p => { p with porReleased := true }
    if s.pins.resetN then s.resetExit bootSel.toNat memOk else s
  else s)

/-- A KEEPER_WD between K8 and run raises the running bank's failure count; from 2 on the bank is excluded (R115). -/
def State.bankFailed (s : State) : State :=
  if s.keeper.k8Boot then
    s.modBank (s.reg R.kpFwBank) fun b => { b with fails := satTo 3 (b.fails + 1), excluded := b.excluded || decide (2 ≤ b.fails + 1) }
  else s

/-- KEEPER_WD (R69, R115): Keeper's own watchdog resets the device in full, and it leaves reset at once. -/
def execKeeperWd (bootSel : BitVec 2) (memOk : Bool) (s : State) : Out :=
  .next (if s.alive then
    let s := (s.bankFailed).fullReset R.pwResetCauseKeeperWd
    if s.pins.resetN && s.pins.porReleased then s.resetExit bootSel.toNat memOk else s
  else s)

/-! ## Core resets (R69, R82, R89, R96) -/

/-- The core is rebooted: K2, then K5 to K7 and K9 on the staged images with the running bank (R96). -/
def State.coreReboot (s : State) (memOk : Bool) : State :=
  let s := ((s.domOnNow 1).domOnNow 4).domOnNow 6
  if !memOk then s.enterGesso 9 else s.bootFrom5 true true

/-- PW_RAIL bit of a rail (R90). DESIGN CHOICE (notes/assumptions/28.md). -/
def railBit : Rail → Nat
  | .core => 0 | .aon => 1 | .io18 => 2 | .io33 => 3 | .phy => 4 | .memq => 5

/-- RAIL_BROWNOUT (R69, R82, R89, R90): a rail has been below its threshold for 2 µs. VDD_AON resets the device in
full and holds it in reset; any other rail resets the core, and the third such reset in 10 s leads to GESSO 8. After a
thermal trip PD01 stays off until the junction has cooled (R87). DESIGN CHOICE (notes/assumptions/28.md). -/
def execRailBrownout (rail : Rail) (s : State) : Out :=
  if rail = .aon then
    .next ((s.fullReset R.pwResetCausePor).modPins fun p => { p with porReleased := false })
  else if !s.alive then .next s
  else
    let tripped := s.keeper.mode = .tripped
    let s := s.coreReset
    let s := (s.setRegBit R.pwRailOk (railBit rail) false).setRegBit R.pwRailBrown (railBit rail) true
    let s := s.setCause R.pwResetCauseBrownout
    let l := s.devtime :: s.keeper.brownouts.filter fun t => decide (s.devtime < t + 10000000000)
    let s := s.modKeeper fun k => { k with brownouts := l }
    .next (if tripped then s.tripPins
      else if 3 ≤ l.length then s.enterGesso 8
      else ((s.modKeeper fun k => { k with mode := .stopped }).arm .brownHold 100000000).setFaultN false)

/-- BROWNOUT_HOLD_CHECK (R89, R90, R96): Keeper looks at its rails. After a BROWNOUT core reset, with every rail in range
the core is rebooted; a rail that is still out 100 ms after the reset leads to GESSO 8.
DESIGN CHOICE (notes/assumptions/28.md). -/
def execBrownoutHoldCheck (railsOk : BitVec 6) (memOk : Bool) (s : State) : Out :=
  .next (if s.alive then
    let due := s.due .brownHold
    let held := s.keeper.mode = .stopped ∧ s.armed .brownHold
    let s := s.setReg R.pwRailOk railsOk.toNat
    if ¬ held then s
    else if railsOk.toNat = 63 then (s.disarm .brownHold).coreReboot memOk
    else if due then (s.disarm .brownHold).enterGesso 8
    else s
  else s)

/-! ## GO and KP_CTRL (R92, R106, R109, R113, R115, R117) -/

/-- Writes to the staging region, KP_BOOT.GO and KP_CTRL are accepted from this interface (R91, R92).
DESIGN CHOICE (notes/assumptions/27.md). -/
def State.bootIface (s : State) (via : Iface) : Bool :=
  match s.reg R.kpBootSource, via with
  | 0, .pcie => false
  | 1, .spi => false
  | _, _ => true

/-- A write of GO to KP_BOOT (R94, R96, R109, R113). DESIGN CHOICE (notes/assumptions/27.md). -/
def State.writeGo (s : State) (via : Iface) : State :=
  if !(s.bootIface via) then s else
  let s := s.setCmd R.kpBootGo
  match s.keeper.mode with
  | .booting => s.setReg R.kpBootGoIgnored 1
  | .waitGo => s.bootFrom5 false false
  | .gesso =>
    let c := s.reg R.pwHbCode
    if c = 4 then (if [0, 1].any s.bootK3.candidate then (s.bootK3).bootFrom5 false false else s)
    else if c = 1 ∨ c = 2 ∨ c = 3 ∨ c = 5 then s.bootFrom5 false false
    else s
  | _ => s

/-- BOOT_GO (R92, R94, R95, R97 to R105, R109, R113, R116). DESIGN CHOICE (notes/assumptions/27.md). -/
def execBootGo (via : Iface) (s : State) : Out :=
  .next (if s.writeReaches 0x10 via then s.writeGo via else s)

/-- BOOT_WAIT_EXPIRE (R78, R94, R108): no GO within 5 s of K4: GESSO code 1, and the wait goes on. -/
def execBootWaitExpire (s : State) : Out :=
  .next (if s.keeper.mode = .waitGo ∧ s.due .bootWait then (s.disarm .bootWait).enterGesso 1 else s)

/-- A write to KP_CTRL.ALLOW_UNTESTED (R106). -/
def State.writeAllow (s : State) (on : Bool) : State :=
  if !on then s.setReg R.kpCtrlAllowUntested 0
  else if (s.inGesso ∨ s.keeper.mode = .waitGo) ∧ s.part.untestedLock = false then s.setReg R.kpCtrlAllowUntested 1
  else s

/-- ALLOW_UNTESTED (R92, R106). -/
def execAllowUntested (on : Bool) (via : Iface) (s : State) : Out :=
  .next (if s.writeReaches 0x14 via && s.bootIface via then s.writeAllow on else s)

/-- Clears the exclusion of the banks named (R115, R117). -/
def State.writeBankClr (s : State) (a b : Bool) : State :=
  let s := s.setCmd R.kpCtrlBankClr 0 (a.toNat + 2 * b.toNat)
  let s := if a then s.modBank 0 fun x => { x with excluded := false } else s
  if b then s.modBank 1 fun x => { x with excluded := false } else s

/-- BANK_CLR (R92, R115, R117). -/
def execBankClr (a b : Bool) (via : Iface) (s : State) : Out :=
  .next (if s.writeReaches 0x14 via && s.bootIface via then s.writeBankClr a b else s)

/-- PREFER_B (R92, R93, R117): the preferred bank, written to the store. -/
def execPreferB (on : Bool) (via : Iface) (s : State) : Out :=
  .next (if s.writeReaches 0x14 via && s.bootIface via then s.modStore fun t => { t with preferB := on } else s)

/-! ## Run begins (R80, R95, R104, R108, R115) -/

/-- The plan declares result sets: the fusion engine is enabled and an output channel is (R95, R355). -/
def State.declaresResults (s : State) : Bool :=
  s.flag R.fuCtrlEn && (List.range 16).any fun c => s.flag R.fuOutCfgEn c

/-- Run begins: READY high, the chosen boot-set manifest stored, the bank's failures cleared, held domain requests
applied. Outside boot nothing happens. DESIGN CHOICE (notes/assumptions/12.md). -/
def State.runBegins (s : State) : State :=
  if s.keeper.mode ≠ .booting then s
  else
    let s := s.modKeeper fun k => { k with mode := .run, k8Boot := false }
    let s := (s.setReady true).setReg R.kpBootStep 10
    let s := match s.runningBank with
      | some i => s.modBank i fun b => { b with fails := 0 }
      | none => s
    let s := match s.flag R.kpManifestInfoSource, s.keeper.manifestNew with
      | true, some m => s.modStore fun t => { t with manifest := some m }
      | _, _ => s
    let s := if s.domOn 8 then s.modPins fun p => { p with dsi := .high } else s
    let s := if s.domOn 9 then s.modPins fun p => { p with spanTx := .high } else s
    let s := if s.armed .alarm then s else s.arm .alarm (1000000000 * s.reg R.hiAlarmPeriod)
    (s.domApply).setFaultN s.faultNShould

end Sys2Proof.Machine
end

