-- ==== Sys2Proof/Machine/Flags.lean ====
section
/-! DEFINITION. Flag computations: the flag words of records, headers, summaries and sentences, and the status
bits that follow other state. -/
namespace Sys2Proof.Machine

/-- 1.62 in 4.12 fixed point, as PC_CERT writes it (R60). DESIGN CHOICE (notes/assumptions/20.md). -/
def pace162 : Nat := 0x19EC

/-- UNGUARANTEED (R50): VDD_CORE below 0.72 V, or P_guard above 1.62. DESIGN CHOICE (notes/assumptions/20.md). -/
def unguaranteedOf (vsenseMv pguard : Nat) : Bool := decide (vsenseMv < 720) || decide (pace162 < pguard)

/-- CERT_EXCEED (R51): P_guard above P_cert but not above 1.62. -/
def certExceedOf (pguard pCert : Nat) : Bool := decide (pCert < pguard) && decide (pguard ≤ pace162)

/-- Flags of a PACE_GUARD record (R59). DESIGN CHOICE (notes/assumptions/71.md). -/
def State.paceFlags (s : State) (miss hostReq : Bool) : Nat :=
  ofFlag miss + 2 * s.reg R.pcStatusUnguaranteed + 4 * s.reg R.pcStatusMonFail + 8 * ofFlag hostReq +
  16 * s.reg R.pcStatusCertExceed

/-- The status bits of PC_STATUS that follow pace, voltage and P_cert (R50, R51). -/
def State.paceStatus (s : State) : State :=
  (s.setFlag R.pcStatusUnguaranteed (unguaranteedOf (s.reg R.pcStatusVsense) s.pguard)).setFlag R.pcStatusCertExceed
    (certExceedOf s.pguard (s.reg R.pcCertPCert))

/-- The flag digits of a status sentence (R443). -/
def State.sentenceFlags (s : State) : Nat :=
  s.reg R.kpAgreeUntestedLatch + 2 * s.reg R.pwHbFault +
  4 * ofFlag (s.reg R.tmStatusSwitch ≠ 0) + 8 * s.reg R.fuStatusAttHeld +
  16 * ofFlag (s.reg R.fuStatusLevel = 5)

/-- The command queue of the SPI target holds 4 commands (R437). -/
def State.spiQueueFull (s : State) : Bool := decide (4 ≤ (s.hi.fetched.filter (·.stream = 9)).length)

/-- The STATUS byte of the SPI target (R437). -/
def State.spiStatusByte (s : State) : Nat :=
  ofFlag s.spiQueueFull + 2 * ofFlag (!s.hi.spiResp.isEmpty) + 4 * ofFlag s.inGesso +
  8 * s.reg R.pwHbFault + 16 * ofFlag s.hi.spiCrc + 32 * ofFlag (s.domOn 1)

/-- Flags of a RETIRE trace word (R446). -/
def retireWord (index level : Nat) (stepSeam phaseSeam : Bool) (devtime : Nat) : Nat :=
  index % 2 ^ 20 + level % 4 * 2 ^ 20 + ofFlag stepSeam * 2 ^ 22 + ofFlag phaseSeam * 2 ^ 23 + devtime % 2 ^ 32 * 2 ^ 32

end Sys2Proof.Machine
end

