-- ==== Sys2Proof/Machine/Pace.lean ====
section
/-! DEFINITION. Pace monitors and the commands of the pace block (R35 to R37, R50 to R52, R57, R60). -/
namespace Sys2Proof.Machine

/-- The domain that monitor n sits in (R35, R70). -/
def monDomain (n : Nat) : Nat :=
  if n < 16 then 10 + n else if n = 16 then 5 else if n = 17 then 4 else if n = 18 then 7 else 8

/-- Monitor n exists on the member and its domain is on (R35, R36). -/
def State.monOn (s : State) (n : Nat) : Bool := s.member.hasDomain (monDomain n) && s.domOn (monDomain n)

/-- A reading below 0.50 or above 3.00, in 4.12 (R57). -/
def badReading (v : Nat) : Bool := decide (v < 0x800) || decide (0x3000 < v)

/-- What one interval's reading does to monitor n (R35, R36, R57): 0 valid, 1 stale, 2 out of range, 3 domain off.
DESIGN CHOICE (notes/assumptions/16.md). DESIGN CHOICE (notes/assumptions/71.md). -/
def State.takeReading (s : State) (n : Nat) (r : Option (BitVec 16)) : State :=
  if !(s.monOn n) then
    (s.setReg R.pcMonState 3 n).modKeeper fun k => { k with monMiss := k.monMiss.set n 0 }
  else match r with
    | none =>
      let m := s.keeper.monMiss.getD n 0 + 1
      let s := s.modKeeper fun k => { k with monMiss := k.monMiss.set n m }
      if 4 ≤ m ∨ s.reg R.pcMonState n = 3 then s.setReg R.pcMonState 1 n else s
    | some v =>
      let s := (s.setReg R.pcMonPace v.toNat n).modKeeper fun k => { k with monMiss := k.monMiss.set n 0 }
      s.setReg R.pcMonState (if badReading v.toNat then 2 else 0) n

/-- Monitor n counts in P_dev: its latest reading is valid and it is not excluded (R37, R57). -/
def State.monValid (s : State) (n : Nat) : Bool :=
  s.monOn n && s.reg R.pcMonState n == 0 && !(s.keeper.monOut.contains n)

/-- The monitor with the largest reading of a list, the first of equals. DESIGN CHOICE (notes/assumptions/20.md). -/
def State.maxMon (s : State) : List Nat → Option Nat
  | [] => none
  | n :: t =>
    match s.maxMon t with
    | none => some n
    | some m => if s.reg R.pcMonPace m ≤ s.reg R.pcMonPace n then some n else some m

/-- P_dev and the monitor that gives it (R37). While exactly one of monitors 0 to 15 has failed, the largest
reading is multiplied by 1.10 (R57). DESIGN CHOICE (notes/assumptions/20.md). -/
def State.pdev (s : State) : Option (Nat × Nat) :=
  match s.maxMon ((List.range 20).filter s.monValid) with
  | none => none
  | some n =>
    let p := s.reg R.pcMonPace n
    some (if (s.keeper.monOut.filter (· < 16)).length = 1 then (openDiv 57 ((p * 11 : Nat) : Int) 10).toNat else p, n)

/-- Issued bundles have at least the bound that P_guard now gives them (R53). -/
def State.raiseBounds (s : State) : State :=
  s.modPp fun p => { p with issued := p.issued.map fun e => { e with pace := max e.pace s.pguard } }

/-- The device pace of one interval enters PC_PACE, the history of P_guard and the peak (R37, R60).
DESIGN CHOICE (notes/assumptions/71.md). -/
def State.takePace (s : State) : State :=
  match s.pdev with
  | none => s
  | some (p, n) =>
    let p := satTo 0xFFFF p
    let s := (s.setReg R.pcPacePace p).setReg R.pcPaceMon n
    let s := s.modKeeper fun k => { k with paceHist := (p :: k.paceHist).take 8 }
    let s := s.raiseBounds
    if s.reg R.pcPacePeakPeak < s.pguard then s.setReg R.pcPacePeakPeak s.pguard else s

/-- The readings of one interval, monitor by monitor. -/
def State.takeReadings (s : State) : Nat → List (Option (BitVec 16)) → State
  | _, [] => s
  | n, r :: t => if n < 20 then (s.takeReading n r).takeReadings (n + 1) t else s

/-- A 100 µs interval of DEVTIME has ended, and its readings have not come (R35). DESIGN CHOICE (notes/assumptions/71.md). -/
def State.paceDue (s : State) : Bool := s.clockRuns && decide (s.keeper.paceAt ≤ s.devtime)

/-- PACE_MONITOR_INTERVAL (R35 to R37, R50, R51, R53, R56, R57, R60): the readings of one 100 µs interval and
VDD_CORE in mV. DESIGN CHOICE (notes/assumptions/29.md). -/
def execPaceMonitorInterval (readings : List (Option (BitVec 16))) (vsense : BitVec 12) (s : State) : Out :=
  .next (if s.paceDue then
    let s := s.modKeeper fun k => { k with paceAt := k.paceAt + 100000 }
    (((s.takeReadings 0 readings).takePace).setReg R.pcStatusVsense vsense.toNat).paceStatus
  else s)

/-- MONITOR_FAILED (R57): a monitor without a reading for 4 intervals, or out of range, is excluded while its
domain is on. One of monitors 0 to 15 alone raises severity 1; otherwise severity 2, and the guard holds the
deepest level until the next HANG or reset. DESIGN CHOICE (notes/assumptions/71.md). -/
def execMonitorFailed (n : Nat) (s : State) : Out :=
  .next (if s.monOn n && (decide (4 ≤ s.keeper.monMiss.getD n 0) || s.reg R.pcMonState n == 2) && !(s.keeper.monOut.contains n) then
    let s := (s.modKeeper fun k => { k with monOut := k.monOut ++ [n] }).setReg R.pcStatusMonFail 1
    let bad := decide (2 ≤ s.keeper.monOut.length) || decide (16 ≤ n)
    let s := if bad then s.modKeeper fun k => { k with guardDeepest := true } else s
    s.raise (0x100100 + 4 * n) 16 (if bad then 2 else 1) 1
  else s)

/-- Result sets of earlier steps that are still to come (R58, R338, R363): POST commands of other steps in CMD_QID. A command's
item ID names its step (R163). DESIGN CHOICE (notes/assumptions/20.md). -/
def State.resultsOwed (s : State) : Nat :=
  ((s.queue (s.reg R.fuCtrlCmdQid)).cells.filter fun c =>
    !c.marker && bits c.data.toNat 3 0 == 4 && bits c.data.toNat 55 40 != s.reg R.ppStepCount % 65536).length

/-- The item of the first result set of the step: the one posted, or the one that the lowest enabled output channel gives it
after those that earlier steps still owe (R46, R58, R166, R355). DESIGN CHOICE (notes/assumptions/20.md). -/
def State.firstResult (s : State) : ItemId :=
  s.pp.posted.getD <|
    match (List.range 16).find? fun c => s.flag R.fuOutCfgEn c with
    | some c => mkItem (0x60 + c) (seqOf (s.nextItem (0x60 + c)) + s.resultsOwed)
    | none => (Config.freeWord s.freeCtr).setWidth 32

/-- One PACE_GUARD record (R46, R59). DESIGN CHOICE (notes/assumptions/20.md). -/
def State.paceRecord (s : State) (miss hostReq : Bool) : State :=
  s.inform s.firstResult 0x0C (s.reg R.pcLevelLevel) (s.paceFlags miss hostReq)

/-- GUARD_EN_CLEAR (R52, R59): the guard holds its level; while the plan runs one PACE_GUARD record with
HOST_REQ is written. -/
def execGuardEnClear (s : State) : Out :=
  .next (if s.flag R.pcCtrlGuardEn then
    let s := s.setReg R.pcCtrlGuardEn 0
    if s.flag R.ppStatusRun then s.paceRecord false true else s
  else s)

/-- PEAK_CLR (R60): clears PC_PACE_PEAK. -/
def execPeakClr (s : State) : Out := .next ((s.setCmd R.pcCtrlPeakClr).setReg R.pcPacePeakPeak 0)

end Sys2Proof.Machine
end

