-- ==== Sys2Proof/Machine/TimeOps.lean ====
section
/-! DEFINITION. Time references: CORR and its two parts, availability, loss, and switches (R203 to R211, R220, R221, R224). -/
namespace Sys2Proof.Machine

/-! ## CORR (R203, R206) -/

/-- CORR goes to a frequency from where it is, within RAMP (R206): 0.01 ppm per s is 10 ppb per s.
DEDUCED (notes/assumptions/39.md). -/
def State.setFreq (s : State) (ppb : Int) : State :=
  let f := s.freqPart
  let target : Int := max (-200000) (min 200000 ppb)
  let rate := 10 * s.reg R.tmCtrlRamp
  s.modTm fun t => { t with fFrom := f, fTo := target, fAt := s.devtime, fRate := rate }

/-- The time in ns that a change of CORR takes within RAMP (R209). DEDUCED (notes/assumptions/39.md). -/
def State.rampTime (s : State) (d : Int) : Nat :=
  (openDiv 209 ((d.natAbs * 1000000000 : Nat) : Int) (10 * s.reg R.tmCtrlRamp : Nat)).toNat

/-- The time in ns that the removal of a phase error takes at SLEW_PPM (R206, R209). DEDUCED (notes/assumptions/39.md). -/
def State.phaseTime (s : State) (err : Int) : Nat :=
  (openDiv 209 ((err.natAbs * 1000000 : Nat) : Int) (s.reg R.tmCtrlSlewPpm)).toNat

/-- A phase error in ns is removed at SLEW_PPM from now on (R206). DEDUCED (notes/assumptions/39.md). -/
def State.setPhase (s : State) (err : Int) : State :=
  let p : Int := 1000 * s.reg R.tmCtrlSlewPpm
  let rate := if 0 < err then -p else p
  let til := s.devtime + s.phaseTime err
  s.modTm fun t => { t with phRate := rate, phUntil := til }

/-- The phase error of a capture (R206): the capture minus the nearest whole second, in (-0.5 s, +0.5 s]. -/
def phaseError (cap : Nat) : Int :=
  let r : Nat := cap % 1000000000
  if r ≤ 500000000 then (r : Int) else (r : Int) - 1000000000

/-! ## Sources (R204) -/

/-- The source of a TQ is qualified and enabled (R204). -/
def State.sourceOk (s : State) (tq : Nat) : Bool :=
  let ref := s.flag R.tmStatusRefQ && s.flag R.tmCtrlRefEn
  let pps := s.flag R.tmStatusPpsQ && s.flag R.tmCtrlPpsEn
  match tq with
  | 4 => ref && pps
  | 3 => pps
  | 2 => ref
  | 1 => s.tm.learned.isSome
  | _ => true

/-- The best source that is qualified and enabled (R204). -/
def State.bestSource (s : State) : Nat := if s.sourceOk 4 then 4 else if s.sourceOk 3 then 3 else if s.sourceOk 2 then 2 else if s.sourceOk 1 then 1 else 0

/-- When a source began to be qualified (R208). -/
def State.sourceSince (s : State) (tq : Nat) : Nat :=
  if tq = 4 then max s.tm.refQualAt s.tm.ppsQualAt else if tq = 3 then s.tm.ppsQualAt else if tq = 2 then s.tm.refQualAt else 0

/-- The frequency of a source in ppb (R204): the latest REF_IN window, the mean over the PPS intervals, the last one
learned, or the crystal's own. DEDUCED (notes/assumptions/39.md). -/
def State.sourceFreq (s : State) (tq : Nat) : Int :=
  if tq = 4 ∨ tq = 2 then s.tm.refPpb
  else if tq = 3 then
    (if s.tm.ppsRates.isEmpty then s.freqPart else openDiv 206 (s.tm.ppsRates.foldl (· + ·) 0) s.tm.ppsRates.length)
  else if tq = 1 then s.tm.learned.getD 0 else 0

/-- A source has a phase (R204). -/
def hasPhase (tq : Nat) : Bool := decide (3 ≤ tq)

/-- The active source sets CORR from its latest measurement, outside a switch (R206). -/
def State.followSource (s : State) : State :=
  let tq := s.reg R.tmStatusSource
  if s.tm.sw.isNone && decide (2 ≤ tq) && s.sourceOk tq then
    let f := s.sourceFreq tq
    (s.setFreq f).modTm fun t => { t with learned := some f }
  else s

/-! ## Switches (R208 to R211, R220, R221) -/

/-- ANNOUNCE begins toward a target (R209): CORR is held for 10 ms, counted in crystal cycles.
DEDUCED (notes/assumptions/39.md). -/
def State.announceTo (s : State) (down : Bool) (target : Nat) : State :=
  let f := s.freqPart
  let p := s.phasePart
  let s := s.modTm fun t =>
    { t with fFrom := f, fTo := f, fAt := s.devtime, phRate := p, phUntil := 2 ^ 64,
             sw := some { down := down, target := target, corr0 := f, mark := s.devtime } }
  let s := (s.setReg R.tmStatusSwitch 1).setReg R.tmStatusTarget target
  ((s.disarm .slew).disarm .reverse).arm .announce (openDiv 209 (384000 * s.increment : Nat) (2 ^ 32)).toNat

/-- The phase applied since the mark of the switch is added up. -/
def State.noteApplied (s : State) : State :=
  match s.tm.sw with
  | none => s
  | some w =>
    let upto := min s.devtime s.tm.phUntil
    let d : Int := openDiv 210 (s.tm.phRate * ((upto - w.mark : Nat) : Int)) 1000000000
    s.modTm fun t => { t with sw := some { w with applied := w.applied + d, mark := s.devtime } }

/-- SLEW begins or goes on with a phase error (R209, R220): its end is the longest of 100 ms from its beginning, the
removal of the error, and the change of CORR. DEDUCED (notes/assumptions/39.md). -/
def State.slewWith (s : State) (err : Int) : State :=
  match s.tm.sw with
  | none => s
  | some w =>
    let s := if hasPhase w.target then s.setPhase err else s.modTm fun t => { t with phRate := 0, phUntil := 0 }
    let minimum := w.began + 100000000 - s.devtime
    let phase := if hasPhase w.target then s.phaseTime err else 0
    s.arm .slew (max minimum (max phase (s.rampTime (s.tm.fTo - s.freqPart))))

/-- A switch is cancelled and reversed (R210): CORR returns within RAMP, and the phase applied since ANNOUNCE is undone at
the same rate. DEDUCED (notes/assumptions/39.md). -/
def State.reverseSwitch (s : State) : State :=
  let s := s.noteApplied
  match s.tm.sw with
  | none => s
  | some w =>
    let s := ((s.setFreq w.corr0).setPhase w.applied).setReg R.tmStatusSwitch 3
    ((s.disarm .announce).disarm .slew).arm .reverse (max (s.phaseTime w.applied) (s.rampTime (w.corr0 - s.freqPart)))

/-- A cancel is counted and raised (R210, R224). -/
def State.countCancel (s : State) : State := (s.bump R.tmSwitchesCancels).raise 0x500020 16 0 4

/-- Keeper looks at the sources after a qualification, a loss or a change of an enable (R208, R210, R221). -/
def State.reviewSources (s : State) : State :=
  match s.tm.sw with
  | none => if s.sourceOk (s.reg R.tmStatusSource) then s else s.announceTo true s.bestSource
  | some w =>
    if s.reg R.tmStatusSwitch = 3 then s
    else if w.down then
      if w.target < s.bestSource then s.reverseSwitch
      else if s.sourceOk w.target then s
      else s.countCancel.announceTo true s.bestSource
    else if !(s.sourceOk (s.reg R.tmStatusSource)) then s.countCancel.announceTo true s.bestSource
    else if s.sourceOk w.target then s else s.reverseSwitch

/-- A source becomes active (R209 to R211); one that stays active keeps its time in HOLDOVER.
DEDUCED (notes/assumptions/39.md). -/
def State.makeActive (s : State) (tq : Nat) : State :=
  let f := s.tm.fTo
  let same := decide (s.reg R.tmStatusSource = tq)
  let s := s.modTm fun t =>
    { t with sw := none, learned := if 2 ≤ tq then some f else t.learned,
             phRate := if hasPhase tq then t.phRate else 0, phUntil := if hasPhase tq then t.phUntil else 0 }
  let s := (s.setReg R.tmStatusSource tq).setReg R.tmStatusSwitch 0
  let s := ((s.disarm .announce).disarm .slew).disarm .reverse
  if same then s else
  let s := s.setReg R.tmStatusHoldAged 0
  if tq = 1 then s.arm .holdAge 600000000000 else s.disarm .holdAge

/-! ## Qualification and loss (R205, R224) -/

/-- REF_IN is lost (R205, R224). -/
def State.refLost (s : State) : State :=
  let s := s.modTm fun t => { t with refWindows := 0 }
  if s.flag R.tmStatusRefQ then ((s.setReg R.tmStatusRefQ 0).raise 0x50000C 12 0 4).reviewSources else s

/-- PPS_IN is lost (R205, R224). -/
def State.ppsLost (s : State) : State :=
  let s := s.modTm fun t => { t with ppsGood := 0, ppsRates := [] }
  if s.flag R.tmStatusPpsQ then ((s.setReg R.tmStatusPpsQ 0).raise 0x50000C 13 0 4).reviewSources else s

/-- DEVTIME is stepped, and every deadline with it (R207). DEDUCED (notes/assumptions/39.md). -/
def State.stepDevtime (s : State) (n : Nat) : State :=
  let s := s.modTimers fun l => l.map fun e => (e.1, e.2 + n)
  (s.modTm fun t => { t with refQualAt := t.refQualAt + n, fAt := t.fAt + n, phUntil := t.phUntil + n,
                             sw := t.sw.map fun w => { w with began := w.began + n, mark := w.mark + n } }).modDevtime fun d =>
    (d + n) % 2 ^ 64

end Sys2Proof.Machine
end

