-- ==== Sys2Proof/Machine/HostOps.lean ====
section
/-! DEFINITION. Step summaries (R432), what a register write sets going, and the command REGISTER_WRITE. -/
namespace Sys2Proof.Machine

/-- Bytes of a step summary (R432). -/
def State.summaryBytes (s : State) (w : Nat) (sreg0 sreg1 : Cell64) (latePrev phase : Bool) : List Byte :=
  let deadline := s.devtime + s.scaled (10 * s.reg R.ppStepGraceGrace)
  let lv := s.reg R.pcLevelLevel + 4 * s.reg R.pcLevelGuardLvl + 16 * s.reg R.pcLevelHostMin + 64 * s.reg R.fuStatusLevel +
    512 * ofFlag latePrev + 2 ^ 16 * s.pguard
  let fl := s.reg R.kpAgreeUntestedLatch + 2 * s.reg R.pcStatusCertExceed + 4 * s.reg R.pcStatusUnguaranteed + 2 ^ 31 * ofFlag phase
  leBytes 4 (s.reg R.ppStepCount) ++ leBytes 4 s.firstResult.toNat ++ leBytes 8 s.devtime ++ leBytes 8 deadline ++ leBytes 4 lv ++
  leBytes 4 fl ++ leBytes 4 (s.depth (bits w 8 0)) ++ leBytes 4 (s.depth (bits w 24 16)) ++ leBytes 4 (s.depth (bits w 40 32)) ++
  leBytes 4 (s.depth (bits w 56 48)) ++ leBytes 8 sreg0.toNat ++ leBytes 8 sreg1.toNat

/-- Post a step summary; one that finds no room is not written and counts in SUM_LOST (R426, R432, R436).
DESIGN CHOICE (notes/assumptions/24.md). -/
def State.postSummary (s : State) (w : Nat) (sreg0 sreg1 : Cell64) (latePrev : Bool) : State :=
  let wp := s.reg R.hiSumWpIndex
  let l := s.reg R.hiSumSizeLog2
  if s.ringsUp && ringFree (s.reg R.hiSumRpIndex) wp l then
    let s := s.ringWrite 1 (hostBase (s.reg R.hiSumBaseAddr 0) (s.reg R.hiSumBaseAddr 1)) wp l
      (s.summaryBytes w sreg0 sreg1 latePrev (s.phase 1))
    (s.setReg R.hiSumWpIndex ((wp + 1) % 2 ^ l)).vector 1
  else s.bump R.hiCntCount 5

/-- What a write of a BAR0 word lets happen at once: room in the response ring (R426, R453), enables of the time references
(R204), and four bytes into the payload FIFO of DCS long writes, as far as they fit (R399).
DESIGN CHOICE (notes/assumptions/15.md). -/
def State.afterWrite (s : State) (off value : Nat) : State :=
  let s := s.flushResponses s.hi.rspWait.length
  let s := if off = 0xE00064 && s.domOn 8 then s.modRd fun r => { r with fifo := (r.fifo ++ leBytes 4 value).take 64 } else s
  if off = 0x500008 && s.clockRuns then s.reviewSources else s

/-- REGISTER_WRITE (R7, R8, R425, R426, R450): one word, every plain field by its access code.
DESIGN CHOICE (notes/assumptions/15.md). -/
def execRegisterWrite (off : Nat) (value : Word) (via : Iface) (s : State) : Out :=
  .next (if s.writeReaches off via then (s.writeWord off value.toNat).afterWrite off value.toNat else s)

end Sys2Proof.Machine
end

