-- ==== Sys2Proof/Machine/PlanOps.lean ====
section
/-! DEFINITION. The plan processor's named operations: groups and descriptors, the guard, seams, bundles, fences,
halts, GO (R43 to R46, R149 to R175, R433). -/
namespace Sys2Proof.Machine

/-! ## Data segment, groups, tiles (R151, R152, R157, R162) -/

/-- n bytes of the data segment that a slot operation resolves through. -/
def State.opData (s : State) (o : SlotOp) (off n : Nat) : List Byte := s.ext.readBytes (o.data + off) n

/-- MASK of group g in the table of the operation's phase (R152, R162). -/
def State.opMask (s : State) (o : SlotOp) (g : Nat) : Nat := s.ext.readNat (o.groups + 16 * g) 8

/-- The tiles of group g, lowest first (R152). -/
def State.opTiles (s : State) (o : SlotOp) (g : Nat) : List Nat :=
  (List.range s.member.tiles).filter fun t => bitAt (s.opMask o g) t

/-- The tile at position p of group g (R241, R300). -/
def State.opTile (s : State) (o : SlotOp) (g p : Nat) : Option Nat := nthSet 64 0 (s.opMask o g) p

/-- Operand bits [hi:lo] of a slot operation (R157). -/
def SlotOp.opnd (o : SlotOp) (hi lo : Nat) : Nat := bits o.word hi lo

/-- Change slot operation k. -/
def State.modOp (s : State) (k : Nat) (f : SlotOp → SlotOp) : State := s.modPp fun p => { p with ops := p.ops.modify k f }

/-- Slot operation k, when it is in progress and of a class. -/
def State.opAt (s : State) (k cls : Nat) : Option SlotOp :=
  match s.pp.ops[k]? with
  | some o => if o.cls = cls ∧ o.done = false then some o else none
  | none => none

/-- The operation has finished; its block's acknowledgement is SLOT_OP_COMPLETE (R160). -/
def State.finishOp (s : State) (k : Nat) : State := s.modOp k fun o => { o with done := true }

/-! ## Halts and faults (R173) -/

/-- The plan halts at a bundle with a cause in the row order of R173. DESIGN CHOICE (notes/assumptions/16.md). -/
def State.haltPlan (s : State) (cause index : Nat) : State :=
  let s := ((s.setReg R.ppStatusRun 0).setReg R.ppStatusHalted 1).setReg R.ppStatusCause cause
  (s.setReg R.ppHaltAtIndex index).raise 0x900000 1 2 7

/-! ## The pace guard (R43 to R46, R50, R51, R52, R54, R55, R57) -/

/-- T_pred at level l in units of 1 ns / 4096 (R43): elapsed time, P_guard × B_rem, and P_guard × HANG cost. -/
def State.tpred (s : State) (brem hangUs : Nat) : Nat :=
  (s.devtime - s.pp.slotStart) * 4096 + s.pguard * (10 * brem + 1000 * hangUs)

/-- T_pred is at most θ (thousandths) × D (R43, R45). -/
def State.fits (s : State) (tp theta : Nat) : Bool := decide (tp * 1000 ≤ theta * (s.reg R.pcDeadlineDUs * 1000) * 4096)

/-- The shallowest level from l on, at most deepest, whose T_pred fits θ_hi × D; the deepest one where none does. -/
def State.pickLevel (s : State) (tp : Nat → Nat) : Nat → Nat → Nat
  | 0, l => l
  | n + 1, l => if s.fits (tp l) (s.reg R.pcGuardThetaHi) then l else s.pickLevel tp n (l + 1)

/-- The guard's own choice at a seam and the count of step seams of R45 after it. DESIGN CHOICE (notes/assumptions/71.md). -/
def State.guardChoice (s : State) (tp : Nat → Nat) (stepSeam : Bool) : Nat × Nat :=
  let deep := s.reg R.pcCertLevels
  let now := min deep (s.reg R.pcLevelGuardLvl)
  let n := if !stepSeam then s.keeper.guardSeams
    else if now ≠ 0 ∧ s.fits (tp (now - 1)) (s.reg R.pcGuardThetaLo) = true then s.keeper.guardSeams + 1 else 0
  if !(s.flag R.pcCtrlGuardEn) then (s.reg R.pcLevelGuardLvl, n)
  else if s.flag R.pcStatusUnguaranteed || s.flag R.pcStatusCertExceed || s.keeper.guardDeepest then
    (deep, if now = deep then n else 0)
  else
    let back := stepSeam && decide (now ≠ 0) && decide (s.reg R.pcGuardBackoff ≤ n)
    let low := if back then now - 1 else now
    let l := s.pickLevel tp (deep - low) low
    (l, if back || decide (now < l) then 0 else n)

/-- Evaluation at the handshake of a seam bundle (R43 to R46, R53 to R56, R165). DESIGN CHOICE (notes/assumptions/71.md). -/
def State.guardEval (s : State) (index : Nat) (stepSeam : Bool) : State :=
  match s.pp.plan with
  | none => s
  | some p =>
    let s := s.paceStatus
    let img := s.image p.addr p.len
    let hang := if stepSeam then s.cv.seamHang else none
    let tp := fun l => s.tpred ((bremIn p img index l).getD 0) (hang.getD 0)
    let c := s.guardChoice tp stepSeam
    let level := max c.1 (s.reg R.pcLevelHostMin)
    let old := s.reg R.pcLevelLevel
    let hostReq := decide (c.1 < s.reg R.pcLevelHostMin) || c.1 == s.reg R.pcLevelGuardLvl
    let s := (s.modKeeper fun k => { k with guardSeams := c.2 }).modCv fun v => { v with seamHang := none }
    let s := (s.setReg R.pcLevelGuardLvl c.1).setReg R.pcLevelLevel level
    let s := s.setReg R.pcPredPredUs (openDiv 60 (tp level) (4096 * 1000)).toNat
    if level = old then s else (s.bump R.pcTripsCount).paceRecord false hostReq

/-! ## Fences and completion (R158 to R160, R163) -/

/-- The fences that slot operations in progress signal (R159, R175). -/
def State.refreshFences (s : State) : State :=
  s.setReg R.ppFencePending (ofSet ((s.pp.ops.filter fun o => slotFen o.word).map fun o => slotFence o.word))

/-- The RETIRE packet of a bundle that completes is due (R446): with SEAMS_ONLY set only for seam bundles.
DESIGN CHOICE (notes/assumptions/67.md). -/
def State.traceRetire (s : State) (index : Nat) : State :=
  let b := match s.pp.plan with
    | some p => s.ext.readNat (p.addr + p.bundleOff + 256 * index) 256
    | none => 0
  let step := bitAt b 36
  let phase := bitAt b 37
  if s.domOn 1 && s.flag R.hiTraceEn && s.flag R.hiTraceRetire && (step || phase || !(s.flag R.hiTraceSeamsOnly)) then
    s.modHi fun h => { h with traceDue := h.traceDue ++
      [(2, leBytes 8 (retireWord index (s.reg R.pcLevelLevel) step phase s.devtime))] }
  else s

/-- The bundle is past P_guard × b after its issue (R53, R173) and has not been counted. -/
def State.isLate (s : State) (e : Issued) : Bool :=
  !e.late && decide (e.at_ + ceilDiv (10 * e.bound * e.pace) 4096 < s.devtime)

/-- A late bundle counts, and raises severity 1 (R173). DESIGN CHOICE (notes/assumptions/16.md). -/
def State.countLate (s : State) (e : Issued) : State :=
  ((s.bump R.ppOverrunsCount).setReg R.ppOverrunsHiLast e.index).raise 0x900024 0 1 7

/-- A bundle whose scalar operation and slot operations have completed is complete (R160); one that completes late counts
(R173). -/
def State.closeBundles (s : State) : State :=
  let open_ := fun (n : Nat) => s.pp.ops.any (·.bundle = n) || (match s.pp.scalar with | some x => x.1 == n | none => false)
  let fin := s.pp.issued.filter fun e => !(open_ e.serial)
  let s := fin.foldl (fun s e => s.traceRetire e.index) s
  let s := s.modPp fun p => { p with issued := p.issued.filter fun e => open_ e.serial }
  (fin.filter s.isLate).foldl State.countLate s

/-- The block that completes the item of a FINAL operation (R239, R456): expert routing, the renderer, else PP.
DEDUCED (notes/assumptions/34.md). -/
def opBlock (cls : Nat) : Nat := if cls = 5 then 0x0A else if cls = 6 then 0x0C else 7

/-- A slot operation names an item (R163): one that handles data, and a fence source, a host step or a render window with a STREAM,
a TAG or FINAL. DEDUCED (notes/assumptions/34.md). -/
def namesItem (w : Nat) : Bool := [1, 2, 3, 5, 6].contains (slotClass w) || bits w 22 10 != 0

/-- A scalar register (R149): S0 reads 0. -/
def State.sreg (s : State) (n : Nat) : Cell64 := if n = 0 then 0 else s.pp.sregs.getD n 0

/-- Write a scalar register (R149): S0 ignores writes. -/
def State.setSreg (s : State) (n : Nat) (v : Cell64) : State :=
  if n = 0 then s else s.modPp fun p => { p with sregs := p.sregs.set n v }

/-! ## Issue (R155 to R158, R163, R164, R170, R173) -/

/-- The item that an operation names in a step (R163). DESIGN CHOICE (notes/assumptions/69.md). -/
def planItem (step : Nat) (w : Nat) : ItemId := mkItem (0x10 + slotStream w) (step % 65536 * 256 + slotTag w)

/-- Start slot operation w of the bundle with issue number n (R158, R163, R170). DESIGN CHOICE (notes/assumptions/69.md). -/
def State.startOp (s : State) (p : Plan) (n w : Nat) : State :=
  let cls := slotClass w
  if cls = 0 then s
  else
    let step := s.reg R.ppStepCount
    let item := planItem step w
    let cnt := if cls = 1 then s.sreg (bits w 58 54) else 0
    let sum := s.ext.readNat (p.addr + p.dataOff + 16 * bits w 43 24) 16
    let o : SlotOp :=
      { id := s.pp.opCount, bundle := n, cls := cls, word := w, item := item, step := step,
        groups := p.addr + p.groupOff + 1024 * (8 * s.reg R.ppPlanIdCvSlot + s.reg R.ppStatusPhase),
        data := p.addr + p.dataOff, dataLen := p.dataLen, count := cnt.toNat,
        sreg0 := if cls = 7 then s.sreg (bits sum 68 64) else 0, sreg1 := if cls = 7 then s.sreg (bits sum 76 72) else 0,
        overrides := s.pp.overrides }
    let s := if namesItem w && !(s.live item) && !(s.hasEnded item) then s.create item else s
    s.modPp fun x => { x with ops := x.ops ++ [o], opCount := x.opCount + 1 }

/-- The role of the group of a slot operation in the active group table (R152). -/
def State.activeRole (s : State) (p : Plan) (w : Nat) : Nat :=
  s.ext.readNat (p.addr + p.groupOff + 1024 * (8 * s.reg R.ppPlanIdCvSlot + s.reg R.ppStatusPhase) + 16 * bits w 29 24 + 8) 1 % 4

/-- An external range of a plan: installed, and declared by the plan (R173). DESIGN CHOICE (notes/assumptions/7.md). -/
def State.declared (s : State) (p : Plan) (a n : Nat) : Bool :=
  s.extOk a n && (Config.planRanges (s.image p.addr p.len)).any fun r => decide (r.1 ≤ a) && decide (a + n ≤ r.1 + r.2)

/-- What a slot operation's descriptor names lies where R173 has it: external memory in the plan's ranges (R300, R374), the list
of a reshard in the data segment (R300), the counts of expert routing in scratch (R318, R324).
DESIGN CHOICE (notes/assumptions/47.md). -/
def State.slotExtOk (s : State) (p : Plan) (w : Nat) : Bool :=
  let read := fun o n => s.ext.readBytes (p.addr + p.dataOff + o) n
  if slotClass w = 2 ∧ (bits w 27 24 = 1 ∨ bits w 27 24 = 2) then
    let d := MoveDesc.ofBytes (read (16 * bits w 47 28) 32)
    s.declared p d.mem d.extBytes
  else if slotClass w = 2 ∧ bits w 27 24 = 3 then
    let d := MoveDesc.ofBytes (read (16 * bits w 47 28) 32)
    decide (16 * d.list + 32 * d.entries ≤ p.dataLen)
  else if slotClass w = 5 then
    let d := ExpertDesc.ofBytes (read (16 * bits w 43 24) 32)
    decide (d.scrOff + (if d.sub = 0 then 128 else if d.sub = 2 then 2 else 0) ≤ 65536)
  else if slotClass w = 6 then
    let v := leNat (read (16 * bits w 43 24) 32)
    bits v 3 0 != 0 ||
      s.declared p (bits v 127 64) (ceilDiv (bits v 139 128 + 1) 4 * ceilDiv (bits v 151 140 + 1) 4 * 32 * blockBytes (bits v 153 152))
  else true

/-- The byte address of a scalar memory operation: A + IMM modulo 2^64 (R156). DESIGN CHOICE (notes/assumptions/6.md). -/
def State.scalarAddr (s : State) (sc : Nat) : Nat :=
  let op := BitVec.ofNat 8 (bits sc 7 0)
  (s.sreg (bits sc 17 13) + Config.immAddr op (BitVec.ofNat 32 (bits sc 63 32))).toNat

/-- Size in bytes of a scratch access: 1, 2, 4 or 8 (R156). DESIGN CHOICE (notes/assumptions/6.md). -/
def scratchBytes (op : Nat) : Nat := 2 ^ (Config.scratchSize (BitVec.ofNat 8 op) % 4)

/-- The scalar operation's address is allowed (R156, R173): scratch, the data segment, or a declared external range.
DESIGN CHOICE (notes/assumptions/6.md). DESIGN CHOICE (notes/assumptions/33.md). -/
def State.scalarOk (s : State) (p : Plan) (sc : Nat) : Bool :=
  let op := bits sc 7 0
  let a := s.scalarAddr sc
  if 0x20 ≤ op ∧ op ≤ 0x2F then decide (a + scratchBytes op ≤ 65536)
  else if 0x30 ≤ op ∧ op ≤ 0x37 then
    a % 8 == 0 &&
    (if Config.memKind (BitVec.ofNat 8 op) % 3 = 0 then decide (a + 8 ≤ p.dataLen)
     else s.declared p a 8)
  else true

/-- A LOOP that would branch needs a table entry (R169, R173). -/
def State.loopOk (s : State) (index sc : Nat) : Bool :=
  bits sc 7 0 != 0x48 || s.sreg (bits sc 17 13) == 1 || bits sc 63 52 == 0 || (alGet s.pp.loops index).isSome ||
  decide (s.pp.loops.length < 16)

/-- Why the plan halts before a bundle: a cause in the row order of R173. Slots that the level suppresses are not looked
at. DESIGN CHOICE (notes/assumptions/33.md). -/
def State.haltBefore (s : State) (p : Plan) (index b level : Nat) : Option Nat :=
  let sc := bits b 191 128
  let slots := if bitAt b (32 + level) then (List.range 12).map (slotWord b) else []
  let read := fun o n => s.ext.readBytes (p.addr + p.dataOff + o) n
  let places := slots.all fun w =>
    ((slotDescs (s.activeRole p w) w).all fun d => decide (d.1 + d.2 ≤ p.dataLen)) && s.slotExtOk p w
  if p.bundles ≤ index ∨ s.bundleOk index b = false then some 1
  else if !(s.scalarOk p sc) || !places then some 2
  else if slots.any fun w => (slotCheck (s.activeRole p w) w read).isSome then some 1
  else if !(s.loopOk index sc) then some 4
  else none

/-- Expert routing at a step seam (R326, R327, R331): host writes of biases take effect, and every 256th step seam makes
the loop update due. -/
def State.xrSeam (s : State) : State :=
  let w := s.xr.biasWrites
  let s := w.foldl (fun s e => s.setReg R.xrExpBiasBias e.2 e.1) s
  let n := (s.reg R.xrStatusPeriodPos + 1) % 256
  (s.setReg R.xrStatusPeriodPos n).modXr fun x =>
    { x with biasWrites := [], biasDue := x.biasDue || n == 0, biasSkips := if n = 0 then w.map (·.1) else x.biasSkips }

/-- A step begins: its slot, its count, fresh LOOP counts and overrides, closed windows (R161, R168, R169, R175). A plan
without result sets begins run at its first step seam (R95). -/
def State.beginStep (s : State) : State :=
  let start := s.nextSlot
  let s := if s.pp.startSeam then ((s.setReg R.ppT0LoT0 start).setReg R.ppT0HiT0 (start / 2 ^ 32)) else s
  let s := if s.pp.firstStep then s else s.bump R.ppStepCount
  let s := s.modPp fun p =>
    { p with slotStart := start, slotBegun := false, firstStep := false, startSeam := false, loops := [], posted := none,
             overrides := {} }
  let s := (s.closeWindows).xrSeam
  if s.declaresResults then s else s.runBegins

/-- Issue the next bundle at the level in effect (R158, R164): slots in slot order, then the scalar operation. -/
def State.issueBundle (s : State) (p : Plan) (index b : Nat) : State :=
  let level := s.reg R.pcLevelLevel
  let n := s.pp.serial
  let bound := boundIn p (s.image p.addr p.len) index
  let e : Issued := { serial := n, index := index, at_ := s.devtime, bound := bound, pace := s.pguard }
  let s := s.modPp fun x => { x with serial := n + 1, issued := x.issued ++ [e] }
  let slots := if bitAt b (32 + level) then (List.range 12).map (slotWord b) else []
  let s := slots.foldl (fun s w => s.startOp p n w) s
  let s := (s.modPp fun x => { x with scalar := some (n, index, bits b 191 128) }).setReg R.ppBundleIndex (index + 1)
  s.refreshFences

/-- The next bundle may issue (R158, R164): the scalar operation before has completed, its fences have completed, and a
seam bundle has found every fence complete and, at a step seam, its slot begun and no HANG to come first.
DESIGN CHOICE (notes/assumptions/33.md). -/
def State.mayIssue (s : State) (b : Nat) : Bool :=
  let pend := s.reg R.ppFencePending
  s.flag R.ppStatusRun && s.pp.scalar.isNone &&
  (if bitAt b 36 then s.atStepSeam && !s.hangReady
   else if bitAt b 37 then pend == 0
   else !(bitAt b (32 + s.reg R.pcLevelLevel)) || bits b 31 0 &&& pend == 0)

/-! ## GO and the host step (R166, R167, R171, R433, R434) -/

/-- A GO argument block (R433): bytes 0x08 to 0x3F of a command entry. -/
def GoArgs.ofBytes (l : List Byte) : GoArgs :=
  let c := fieldAt l 4 4
  { step := fieldAt l 0 4, hang := bitAt c 0, minValid := bitAt c 1, hostMin := bits c 3 2, topk1 := bitAt c 4,
    cfValid := bitAt c 5, cf := bits c 13 6, expDisable := fieldAt l 8 8,
    force := (List.range (min 16 (bits c 18 14))).map fun i => bits (fieldAt l (0x10 + 2 * i) 2) 12 0 }

/-- Overrides take effect (R54, R167, R327): HOST_MIN at the next seam, a HANG request, expert overrides in this step. -/
def State.applyGo (s : State) (g : GoArgs) : State :=
  let s := if g.minValid then s.setReg R.pcLevelHostMin g.hostMin else s
  let s := if g.hang then s.requestHang else s
  s.modPp fun p => { p with overrides := g }

/-- The host-step operation that waits for its GO. -/
def State.waitingHost (s : State) : Option Nat := s.pp.ops.findIdx? fun o => o.cls == 7 && o.begun && !o.done

/-- The host step of a step ends (R160, R166): GO or the defaults have been applied. -/
def State.endHostStep (s : State) (step : Nat) (e : HostEnd) : State :=
  let s := match s.waitingHost with
    | some k => s.finishOp k
    | none => s
  (s.disarm .grace).modPp fun p =>
    { p with hostWait := none, hostEnds := (step, e) :: p.hostEnds }

end Sys2Proof.Machine
end

