-- ==== Sys2Proof/Machine/Plan.lean ====
section
/-! DEFINITION. The plan processor's commands: slots, bundles, scalar operations, fence sources, the host step and
render windows (R149 to R175). -/
namespace Sys2Proof.Machine

/-- STEP_SLOT_START (R161): the slot of the plan's next step has begun. -/
def execStepSlotStart (s : State) : Out :=
  .next (if s.flag R.ppStatusRun && !s.pp.slotBegun && !s.pp.startSeam && decide (s.nextSlot ≤ s.devtime) then
    s.modPp fun p => { p with slotBegun := true }
  else s)

/-- What a bundle that may issue does: seam effects and the guard, a halt, or the issue (R43, R158, R161, R162, R165,
R173). -/
def State.runBundle (s : State) (p : Plan) (index b : Nat) : State :=
  let seam := bitAt b 36 || bitAt b 37
  let bad := decide (p.bundles ≤ index) || !(s.bundleOk index b)
  if bad then s.haltPlan 1 index
  else
    let s := if bitAt b 36 then s.beginStep else s
    let s := if bitAt b 37 then s.setReg R.ppStatusPhase (bits b 40 38) else s
    let s := if seam then s.guardEval index (bitAt b 36) else s
    match s.haltBefore p index b (s.reg R.pcLevelLevel) with
    | some c => s.haltPlan c index
    | none => s.issueBundle p index b

/-- BUNDLE_ISSUE (R36 to R46, R54 to R56, R58, R95, R152, R155 to R159, R161 to R165, R168 to R170, R173, R331): the next
bundle issues as soon as its conditions hold; at an eligible step seam HANG_EFFECT comes first.
DESIGN CHOICE (notes/assumptions/33.md). -/
def execBundleIssue (s : State) : Out :=
  .next (match s.pp.plan, s.nextBundle with
    | some p, some b => if s.mayIssue b then s.runBundle p (s.reg R.ppBundleIndex) b else s
    | _, _ => s)

/-! ## Scalar operations (R149, R150, R156, R169, R170, R173) -/

/-- The issued scalar operation has completed (R150). -/
def State.scalarDone (s : State) : State := (s.modPp fun p => { p with scalar := none }).closeBundles

/-- The issued scalar operation, as bundle index and operation, when its OP lies in a range. -/
def State.scalarIn (s : State) (lo hi : Nat) : Option (Nat × Nat) :=
  match s.pp.scalar with
  | some (_, i, sc) => if lo ≤ bits sc 7 0 ∧ bits sc 7 0 ≤ hi then some (i, sc) else none
  | none => none

/-- OP of a scalar operation (R156). -/
def scOp (sc : Nat) : BitVec 8 := BitVec.ofNat 8 (bits sc 7 0)
/-- IMM of a scalar operation (R156). DESIGN CHOICE (notes/assumptions/6.md). -/
def scImm (sc : Nat) : BitVec 32 := BitVec.ofNat 32 (bits sc 63 32)
/-- Register A of a scalar operation (R156). -/
def State.scA (s : State) (sc : Nat) : Cell64 := s.sreg (bits sc 17 13)
/-- Register B of a scalar operation (R156). -/
def State.scB (s : State) (sc : Nat) : Cell64 := s.sreg (bits sc 22 18)
/-- Write register D of a scalar operation (R156). -/
def State.setD (s : State) (sc : Nat) (v : Cell64) : State := s.setSreg (bits sc 12 8) v

/-- SCALAR_NOP (R156). -/
def execScalarNop (s : State) : Out :=
  .next (match s.scalarIn 0 0 with
    | some _ => s.scalarDone
    | none => s)

/-- INTEGER_OP (R156): the operation of the Lemmet documentation on A, B and IMM into D.
DESIGN CHOICE (notes/assumptions/6.md). -/
def execIntegerOp (s : State) : Out :=
  .next (match s.scalarIn 1 0x1F with
    | some (_, sc) => (s.setD sc (Config.intOp (scOp sc) (s.scA sc) (s.scB sc) (scImm sc))).scalarDone
    | none => s)

/-- A scratch load value: n bytes, with or without sign extension (R156). -/
def scratchValue (op : BitVec 8) (n v : Nat) : Cell64 :=
  if Config.scratchSigned op then BitVec.ofNat 64 (ofSigned 64 (toSigned (8 * n) v)) else BitVec.ofNat 64 v

/-- SCRATCH_ACCESS (R156, R173): a scratch load or store of 1, 2, 4 or 8 bytes at A + IMM. A load whose parity fails
gives an undefined value, and the plan halts after the bundle. DESIGN CHOICE (notes/assumptions/6.md). -/
def execScratchAccess (parityFail : Bool) (s : State) : Out :=
  .next (match s.scalarIn 0x20 0x2F with
    | some (i, sc) =>
      let a := s.scalarAddr sc
      let n := scratchBytes (bits sc 7 0)
      if Config.scratchStores (scOp sc) then
        (s.modScratch fun m => m.writeNat a n (s.scB sc).toNat).scalarDone
      else if parityFail then
        (((s.setD sc (Config.freeWord s.freeCtr)).tick).scalarDone).haltPlan 3 i
      else (s.setD sc (scratchValue (scOp sc) n (s.scratch.readNat a n))).scalarDone
    | none => s)

/-- MEMORY_LOAD_STORE (R149, R156): an 8-byte load from the data segment, or a load or store of external memory, at
A + IMM. DESIGN CHOICE (notes/assumptions/6.md). -/
def execMemoryLoadStore (s : State) : Out :=
  .next (match s.scalarIn 0x30 0x37, s.pp.plan with
    | some (_, sc), some p =>
      let a := s.scalarAddr sc
      let k := Config.memKind (scOp sc) % 3
      if k = 0 then (s.setD sc (BitVec.ofNat 64 (s.ext.readNat (p.addr + p.dataOff + a) 8))).scalarDone
      else if k = 1 then (s.setD sc (BitVec.ofNat 64 (s.ext.readNat a 8))).scalarDone
      else (s.modExt fun m => m.writeNat a 8 (s.scB sc).toNat).scalarDone
    | _, _ => s)

/-- What a status read places in D (R156): DEVTIME, step count, level, a queue's depth or a fence's state.
DESIGN CHOICE (notes/assumptions/6.md). -/
def State.statusWord (s : State) (sel : Nat × Nat) : Cell64 :=
  if sel.1 % 5 = 0 then BitVec.ofNat 64 s.devtime
  else if sel.1 % 5 = 1 then BitVec.ofNat 64 (s.reg R.ppStepCount)
  else if sel.1 % 5 = 2 then BitVec.ofNat 64 (s.reg R.pcLevelLevel)
  else if sel.1 % 5 = 3 then BitVec.ofNat 64 (s.depth (sel.2 % 512))
  else Config.fenceWord (sel.2 % 32) (bitAt (s.reg R.ppFencePending) (sel.2 % 32))

/-- STATUS_READ (R156): IMM selects the source, by the Lemmet documentation. DESIGN CHOICE (notes/assumptions/6.md). -/
def execStatusRead (s : State) : Out :=
  .next (match s.scalarIn 0x38 0x3F with
    | some (_, sc) => (s.setD sc (s.statusWord (Config.statusSelect (scOp sc) (scImm sc)))).scalarDone
    | none => s)

/-- A branch target: IMM[19:0] (R150, R156). -/
def branchTarget (sc : Nat) : Nat := bits sc 51 32

/-- CONDITIONAL_BRANCH (R150, R156): to bundle IMM[19:0] when the operation's condition on A and B holds.
DESIGN CHOICE (notes/assumptions/6.md). -/
def execConditionalBranch (s : State) : Out :=
  .next (match s.scalarIn 0x40 0x47 with
    | some (_, sc) =>
      (if Config.branchTaken (scOp sc) (s.scA sc) (s.scB sc) then s.setReg R.ppBundleIndex (branchTarget sc) else s).scalarDone
    | none => s)

/-- LOOP falls through: its count is forgotten (R169). -/
def State.loopFalls (s : State) (index : Nat) : State := s.modPp fun p => { p with loops := alDel p.loops index }

/-- LOOP (R156, R169, R173): A is decremented; while it is not 0 the plan branches, up to the cap. At the cap the LOOP
falls through, CLAMP is set and a severity-1 fault is raised. DESIGN CHOICE (notes/assumptions/16.md). -/
def execLoopOp (s : State) : Out :=
  .next (match s.scalarIn 0x48 0x48 with
    | some (i, sc) =>
      let s := s.setSreg (bits sc 17 13) (s.scA sc - 1)
      let n := (alGet s.pp.loops i).getD 0
      if s.scA sc = 0 then (s.loopFalls i).scalarDone
      else if bits sc 63 52 ≤ n then
        ((((s.loopFalls i).setReg R.ppStatusClamp 1).raise 0x900000 2 1 7)).scalarDone
      else
        ((s.modPp fun p => { p with loops := alPut p.loops i (n + 1) }).setReg R.ppBundleIndex (branchTarget sc)).scalarDone
    | none => s)

/-- BUNDLE_OVERRUN (R53, R173): a bundle that has not completed within P_guard × b of its issue counts once and raises
severity 1. DESIGN CHOICE (notes/assumptions/16.md). DESIGN CHOICE (notes/assumptions/33.md). -/
def execBundleOverrun (s : State) : Out :=
  .next (match s.pp.issued.find? s.isLate with
    | some e =>
      (s.modPp fun p => { p with issued := p.issued.map fun x => if x.serial = e.serial then { x with late := true } else x }).countLate e
    | none => s)

/-- SLOT_OP_COMPLETE (R27, R159, R160, R163, R239): the block acknowledges operation k; its fence is updated, and the
item of a FINAL operation ends (R27, R234, R239). -/
def execSlotOpComplete (k : Nat) (s : State) : Out :=
  .next (match s.pp.ops[k]? with
    | some o =>
      if !o.done then s
      else
        let s := s.modPp fun p => { p with ops := p.ops.eraseIdx k }
        let s := if !(slotFinal o.word) then s
          else if s.pal.dropped.contains o.item then (s.unmark o.item).report o.item 0x01 7 0
          else s.endTaken (opBlock o.cls) o.item false
        (s.refreshFences).closeBundles
    | none => s)

/-! ## Fence sources (R157) -/

/-- SUB of a fence source or a queue operation (R157). -/
def SlotOp.sub (o : SlotOp) : Nat := o.opnd 27 24
/-- QID of a fence source or a queue operation (R157). -/
def SlotOp.qid (o : SlotOp) : Nat := o.opnd 36 28

/-- FENCE_SLOT_START (R157, R161): the operation's condition is that the slot of the step after its own has begun. -/
def execFenceSlotStart (k : Nat) (s : State) : Out :=
  .next (match s.opAt k 4 with
    | some o => if o.sub = 0 ∧ s.nextSlot ≤ s.devtime then s.finishOp k else s
    | none => s)

/-- FENCE_QUEUE_DEPTH (R157): the queue holds at least N cells. -/
def execFenceQueueDepth (k : Nat) (s : State) : Out :=
  .next (match s.opAt k 4 with
    | some o => if o.sub = 1 ∧ o.opnd 56 37 ≤ s.depth o.qid then s.finishOp k else s
    | none => s)

/-- FENCE_MARKER_AT_HEAD (R157): the queue's head is its marker cell. -/
def execFenceMarkerAtHead (k : Nat) (s : State) : Out :=
  .next (match s.opAt k 4 with
    | some o => if o.sub = 2 ∧ (((s.queue o.qid).cells.head?).map (·.marker)) = some true then s.finishOp k else s
    | none => s)

/-! ## The host step (R166, R171, R432 to R434) -/

/-- The step before the present one ended its host step on its defaults (R432). -/
def State.latePrev (s : State) : Bool :=
  s.reg R.ppStepCount != 0 && s.pp.hostEnds.any fun e => e.1 + 1 == s.reg R.ppStepCount && e.2 == .defaults

/-- HOST_STEP (R40, R166, R167, R432, R433): the summary is posted, and the operation waits for its GO for STEP_GRACE ×
P_guard. A GO held for this step is applied at once. -/
def execHostStep (k : Nat) (s : State) : Out :=
  .next (match s.opAt k 7 with
    | some o =>
      if o.begun then s
      else
        let s := s.postSummary (leNat (s.opData o (16 * o.opnd 43 24) 16)) o.sreg0 o.sreg1 s.latePrev
        let s := s.modOp k fun o => { o with begun := true }
        match s.pp.heldGo with
        | some (g, item) =>
          let s := (s.modPp fun p => { p with heldGo := none }).applyGo g
          (s.endHostStep o.step .go).answer { stream := streamOf item, item := item, op := 2, args := [] } 0 0
        | none =>
          (s.arm .grace (s.scaled (10 * s.reg R.ppStepGraceGrace))).modPp fun p => { p with hostWait := some o.step }
    | none => s)

/-- STEP_GRACE_EXPIRE (R40, R166, R327, R434): no GO came in time; HOST_MIN of DEFAULTS applies, without HANG and without expert
overrides, and one HOST_LATE record names the step's first result set. -/
def execStepGraceExpire (s : State) : Out :=
  .next (match s.pp.hostWait, s.waitingHost with
    | some step, some k =>
      if s.due .grace then
        match s.pp.ops[k]? with
        | some o =>
          let g := GoArgs.ofBytes (s.opData o (16 * o.opnd 63 44) 56)
          let s := (s.bump R.ppHostLateCount).inform s.firstResult 0x08 (s.reg R.pcLevelLevel) 0
          (s.applyGo { minValid := g.minValid, hostMin := g.hostMin }).endHostStep step .defaults
        | none => s
      else s
    | _, _ => s)

/-! ## Render windows (R168, R175, R384) -/

/-- RENDER_WINDOW_OPEN (R168, R172, R384): the DENSE tiles of the group get a render side; priority PRIO. That of a tile which is
still to take DENSE role waits for it. DESIGN CHOICE (notes/assumptions/58.md). -/
def execRenderWindowOpen (k : Nat) (s : State) : Out :=
  .next (match s.opAt k 8 with
    | some o =>
      if o.opnd 24 24 ≠ 0 then s
      else
        let g := o.opnd 30 25
        let tiles := (s.opTiles o g).filter fun t => (if s.tileWaits t then s.newRole t else s.role t) = 2
        let s := (tiles.filter fun t => !(s.tileWaits t)).foldl (fun s t => s.setReg R.deTStatWindow 1 t) s
        (s.modRd fun r =>
          { r with prios := alPut r.prios g (o.opnd 33 31),
                   sides := (r.sides.filter fun x => !(tiles.contains x.tile)) ++ tiles.map fun t => { tile := t, group := g } }).finishOp k
    | none => s)

/-- RENDER_WINDOW_CLOSE (R168): once every tile of the window has finished its current screen tile the window closes.
DESIGN CHOICE (notes/assumptions/58.md). -/
def execRenderWindowClose (k : Nat) (s : State) : Out :=
  .next (match s.opAt k 8 with
    | some o =>
      let g := o.opnd 30 25
      if o.opnd 24 24 ≠ 1 then s
      else if s.rd.sides.any fun x => x.group == g && x.screen.isSome then s.modOp k fun o => { o with begun := true }
      else
        let tiles := (s.rd.sides.filter (·.group = g)).map (·.tile)
        let s := tiles.foldl (fun s t => s.setReg R.deTStatWindow 0 t) s
        (s.modRd fun r => { r with prios := alDel r.prios g, sides := r.sides.filter (·.group ≠ g) }).finishOp k
    | none => s)

end Sys2Proof.Machine
end

