-- ==== Sys2Proof/Machine/Host.lean ====
section
/-! DEFINITION. The host's command ring and the commands of R430, I2C transfers, readout rings, and the PCIe link (R424 to R436,
R440, R441, R448 to R453, R474, R475, R480). -/
namespace Sys2Proof.Machine

/-! ## Fetching (R426, R428, R429, R431) -/

/-- A field of a command entry at a byte offset (R428). -/
def Fetched.num (c : Fetched) (o n : Nat) : Nat := fieldAt c.args o n

/-- Bytes of the entry that must be 0 are 0 (R428, R431). -/
def Fetched.zero (c : Fetched) (o n : Nat) : Bool := c.num o n == 0

/-- How a sequence stands to its window (R429). -/
inductive SeqClass where
  | fresh | duplicate | stale
  deriving DecidableEq, Repr

/-- A sequence lies above the highest accepted one, modulo 2^24 in the nearer direction (R429); of two equal distances the
manual names neither. DESIGN CHOICE (notes/assumptions/61.md). -/
def CmdWindow.above (w : CmdWindow) (seq : Nat) : Bool :=
  match w.high with
  | none => true
  | some h =>
    let up := (seq + 2 ^ 24 - h) % 2 ^ 24
    decide (0 < up) && (decide (up < 2 ^ 23) || (up == 2 ^ 23 && Config.divUp 429 seq h))

/-- The class of a sequence (R429). -/
def CmdWindow.classify (w : CmdWindow) (seq : Nat) : SeqClass :=
  if w.above seq then .fresh
  else if 1023 < ((w.high.getD 0) + 2 ^ 24 - seq) % 2 ^ 24 then .stale
  else if w.seen.any (·.1 = seq) then .duplicate else .fresh

/-- The window accepts a sequence: it keeps the 1,024 sequences at and below the highest (R429). -/
def CmdWindow.accept (w : CmdWindow) (seq : Nat) : CmdWindow :=
  let h := if w.above seq then seq else w.high.getD seq
  { high := some h, seen := ((seq, none) :: w.seen).filter fun e => decide ((h + 2 ^ 24 - e.1) % 2 ^ 24 < 1024) }

/-- The window of stream 0x08 or 0x09. -/
def State.window (s : State) (stream : Nat) : CmdWindow := if stream = 9 then s.hi.win9 else s.hi.win8

/-- A new command is accepted into its window and becomes an item (R25, R429). -/
def State.acceptCommand (s : State) (c : Fetched) : State :=
  let w := (s.window c.stream).accept (seqOf c.item)
  let h := w.high.getD 0
  let s := s.modHi fun x => { x with fetched := x.fetched ++ [c] }
  let s := if c.stream = 9 then ((s.modHi fun x => { x with win9 := w }).setReg R.hiSeqSpiHigh h).setReg R.hiSeqSpiValid 1
    else ((s.modHi fun x => { x with win8 := w }).setReg R.hiSeqHigh h).setReg R.hiSeqValid 1
  s.create c.item

/-- An entry that has come in on a stream (R428, R429, R431): a new item, a duplicate, a stale one, or no item of the stream.
DESIGN CHOICE (notes/assumptions/24.md). DESIGN CHOICE (notes/assumptions/61.md). -/
def State.admitCommand (s : State) (stream : Nat) (entry : List Byte) : State :=
  let c : Fetched := { stream := stream, item := BitVec.ofNat 32 (fieldAt entry 0 4), op := fieldAt entry 4 1, args := entry }
  let s := s.bump R.hiCntCount 0
  if streamOf c.item ≠ stream then (s.bump R.hiCntCount 12).respond c 4 0
  else
    let w := s.window stream
    match w.classify (seqOf c.item) with
    | .fresh => s.acceptCommand c
    | .stale => ((s.bump R.hiCntCount 3).inform c.item 7 0x0F 0).respond c 8 0
    | .duplicate =>
      let s := (s.bump R.hiCntCount 2).inform c.item 7 0x0F 0
      match (w.seen.find? (·.1 = seqOf c.item)).bind (·.2) with
      | some st => s.respond c 1 st
      | none => s.modHi fun h => { h with dups := h.dups ++ [c] }

/-- Commands that run in the background (R431): FW_STAGE, I2C_XFER and ALARM_SEND. -/
def isBackground (op : Nat) : Bool := decide (5 ≤ op) && decide (op ≤ 7)

/-- Background commands in progress (R431). DESIGN CHOICE (notes/assumptions/61.md). -/
def State.background (s : State) : Nat :=
  s.hi.transfers.length + s.hi.fwLoads.length + ((s.hi.alarms ++ s.hi.sending.toList).filter (·.cmd.isSome)).length

/-- The device fetches command slots from CI up to PI; a background command waits at fetch while 8 are fetched or in progress
(R426, R431). At most n slots. Nothing is fetched during a quiesce (R471). DESIGN CHOICE (notes/assumptions/61.md). -/
def State.fetch (s : State) : Nat → State
  | 0 => s
  | n + 1 =>
    let size := 2 ^ s.reg R.hiCmdSizeLog2
    let ci := s.reg R.hiCmdCiIndex % size
    if s.ringsUp && !(s.flag R.lgStatusQuiescing) && ci != s.reg R.hiCmdPiIndex % size then
      let e := s.hostMem.readBytes (hostBase (s.reg R.hiCmdBaseAddr 0) (s.reg R.hiCmdBaseAddr 1) + 64 * ci) 64
      let busy := s.background + (s.hi.fetched.filter fun c => isBackground c.op).length
      if isBackground (fieldAt e 4 1) && decide (8 ≤ busy) then s
      else ((s.setReg R.hiCmdCiIndex ((ci + 1) % size)).admitCommand 8 e).fetch n
    else s

/-- Fetch as far as the ring goes. -/
def State.fetchAll (s : State) : State := s.fetch 4096

/-- The host writes slots of its command ring from the index that it wrote last (R426).
DESIGN CHOICE (notes/assumptions/61.md). -/
def State.writeSlots (s : State) (slots : List (List Byte)) : State :=
  let size := 2 ^ s.reg R.hiCmdSizeLog2
  let base := hostBase (s.reg R.hiCmdBaseAddr 0) (s.reg R.hiCmdBaseAddr 1)
  let from_ := s.reg R.hiCmdPiIndex
  slots.zipIdx.foldl (fun (s : State) e => s.modHostMem fun m =>
    m.writeBytes (base + 64 * ((from_ + e.2) % size)) ((e.1 ++ List.replicate 64 0).take 64)) s

/-- A write of HI_CMD_PI (R426). -/
def State.writePi (s : State) (pi : Nat) : State := (s.setReg R.hiCmdPiIndex pi).fetchAll

/-- A write of RINGS_EN (R426). -/
def State.writeRings (s : State) (on : Bool) : State :=
  let s := s.setFlag R.hiCtrlRingsEn on
  (s.flushResponses s.hi.rspWait.length).fetchAll

/-- CMD_DOORBELL (R426, R431): the host has filled slots and writes HI_CMD_PI; the device fetches up to PI.
DESIGN CHOICE (notes/assumptions/61.md). -/
def execCmdDoorbell (pi : Word) (slots : List (List Byte)) (s : State) : Out :=
  .next (if s.writeReaches 0xFC001C .pcie then (s.writeSlots slots).writePi pi.toNat else s)

/-- RINGS_EN (R426): service of the rings starts, or ends. -/
def execRingsEn (on : Bool) (s : State) : Out :=
  .next (if s.writeReaches 0xFC0000 .pcie then s.writeRings on else s)

/-! ## The commands (R430, R431) -/

/-- The command whose turn it is, where its OP is the one asked for (R431). -/
def State.command (s : State) (op : Nat) : Option Fetched :=
  match s.hi.fetched with
  | c :: _ => if c.op = op then some c else none
  | [] => none

/-- The command has begun and leaves its place to the next one. -/
def State.popCommand (s : State) : State := s.modHi fun h => { h with fetched := h.fetched.drop 1 }

/-- Run the command whose turn it is; arguments that do not hold are answered BAD_ARG (R431). Then fetching goes on.
DESIGN CHOICE (notes/assumptions/61.md). -/
def State.serve (s : State) (op : Nat) (ok : Fetched → Bool) (f : Fetched → State → State) : State :=
  match s.command op with
  | some c => ((if ok c && c.zero 5 3 then f c s.popCommand else s.popCommand.answer c 4 0)).fetchAll
  | none => s

/-- NOP (R430, R431): RESULT is DEVTIME in ns. -/
def execNopCmd (s : State) : Out :=
  .next (s.serve 1 (fun c => c.zero 8 56) fun c s => s.answer c 0 s.devtime)

/-- The arguments of a GO hold (R431, R433). -/
def goArgsOk (c : Fetched) : Bool :=
  let w := c.num 0x0C 4
  bits w 31 19 == 0 && decide (bits w 18 14 ≤ 16) && c.zero 0x38 8 &&
  (List.range 16).all fun i => decide (c.num (0x18 + 2 * i) 2 < 2 ^ 13)

/-- The step whose host step issues next (R433). -/
def State.nextHostStep (s : State) : Nat :=
  let k := s.reg R.ppStepCount
  if (alGet s.pp.hostEnds k).isSome || s.pp.hostWait == some k then (k + 1) % 2 ^ 32 else k

/-- A GO meets its step (R171, R431, R433, R448). DESIGN CHOICE (notes/assumptions/33.md). -/
def State.takeGo (s : State) (c : Fetched) : State :=
  let g := GoArgs.ofBytes (c.args.drop 8)
  if !(s.flag R.ppStatusRun) then s.answer c 4 0
  else if s.pp.hostWait = some g.step then ((s.applyGo g).endHostStep g.step .go).answer c 0 0
  else
    match alGet s.pp.hostEnds g.step with
    | some .defaults => ((s.bump R.hiCntCount 4).report c.item 0x06 0x0F 0).answer c 2 0
    | some .go => s.answer c 9 0
    | none =>
      if g.step ≠ s.nextHostStep then s.answer c 4 0
      else if s.pp.heldGo.isSome then s.answer c 9 0
      else s.modPp fun p => { p with heldGo := some (g, c.item) }

/-- GO (R54, R166, R167, R171, R431, R433, R448). -/
def execGoCmd (s : State) : Out := .next (s.serve 2 goArgsOk fun c s => s.takeGo c)

/-- The requests of a DOMAIN command are served; the command itself does not keep PD01 busy. Answers the cause of a refusal
(R71, R430). DESIGN CHOICE (notes/assumptions/18.md). -/
def State.domCommand (s : State) (c : Fetched) : Option Nat × State :=
  let item := alGet s.lg.items c.item
  let s := s.modLg fun l => { l with items := alDel l.items c.item }
  let r := s.domAdmit (bits (c.num 8 4) 9 1) (if c.stream = 9 then .spi else .pcie)
  (r.1, match item with
    | some t => r.2.modLg fun l => { l with items := alPut l.items c.item t }
    | none => r.2)

/-- DOMAIN (R71, R430, R431). It waits while Keeper serves another request. -/
def execDomainCmd (s : State) : Out :=
  .next (if s.domServing then s else s.serve 3 (fun c => bits (c.num 8 4) 31 10 == 0 && bits (c.num 8 4) 0 0 == 0 && c.zero 12 52) fun c s =>
    match s.domCommand c with
    | (some k, s) => s.answer c 5 k
    | (none, s) => s.answer c 0 (s.reg R.pwDomStateOn))

/-- RESET_CORE (R69, R96, R430, R451): the response is posted first. -/
def execResetCore (memOk : Bool) (s : State) : Out :=
  .next (s.serve 4 (fun c => c.zero 8 56) fun c s =>
    (((s.answer c 0 0).coreReset).setCause R.pwResetCauseHost).coreReboot memOk)

/-- The oldest firmware load begins where it has not (R93, R98 to R100, R105, R110): Keeper checks the image, and writes the body
of one that passes to the bank of R110. DESIGN CHOICE (notes/assumptions/62.md). -/
def State.fwBegin (s : State) : State :=
  match s.hi.fwLoads with
  | [] => s
  | l :: t =>
    if l.begun then s
    else
      let img := s.image (l.cmd.num 8 8) (l.cmd.num 0x10 4)
      let signed := hasTrailer img
      let i := s.fwTarget
      let k := s.fwCheck img signed
      let s := s.modHi fun h => { h with fwLoads := { l with begun := true, img := img, bank := i, check := k } :: t }
      let s := s.noteSig 4 (slotIn img) (s.sigCheck 4 signed img)
      if k.isNone then s.fwBody i img else s

/-- FW_STAGE (R93, R110, R430, R431): a firmware-load item begins in stream 0x00; loads run one after another.
DESIGN CHOICE (notes/assumptions/61.md). -/
def execFwStage (s : State) : Out :=
  .next (if 8 ≤ s.background then s
    else s.serve 5 (fun c => c.zero 0x14 44 && decide (0 < c.num 0x10 4) && s.extOk (c.num 8 8) (c.num 0x10 4)) fun c s =>
      let item := s.nextItem 0
      ((s.takeItem 0).modHi fun h => { h with fwLoads := h.fwLoads ++ [{ cmd := c, item := item }] }).fwBegin)

/-- FW_STAGE_DONE (R93, R110, R116, R431): the firmware load in progress ends; its item completes when the bank's header is
written, or ends CANVAS_REJECT. RESULT is the item. The next load begins. DESIGN CHOICE (notes/assumptions/62.md). -/
def execFwStageDone (s : State) : Out :=
  .next (match s.hi.fwLoads with
    | [] => s
    | l :: t =>
      let s := s.modHi fun h => { h with fwLoads := t }
      let s := match l.check with
        | none => (s.fwHeader l.bank l.img).complete l.item 0
        | some k => s.report l.item 0x0F 4 k
      ((s.answer l.cmd 0 l.item.toNat).fwBegin).fetchAll)

/-! ## I2C (R440, R441, R449) -/

/-- The arguments of an I2C transfer hold (R430, R431, R441). -/
def i2cArgsOk (c : Fetched) : Bool :=
  let w := c.num 8 4
  bits w 15 14 == 0 && bits w 31 20 == 0 && decide (bits w 13 8 ≤ 40) && decide (bits w 19 16 ≤ 8) && c.zero 0x0C 4 &&
  c.zero 0x38 8

/-- A latch read of Keeper is pending on a controller (R214, R449). DESIGN CHOICE (notes/assumptions/63.md). -/
def State.latchWaits (s : State) (bus : Nat) : Bool :=
  (List.range 4).any fun n => (s.tm.cams.getD n {}).waiting && s.reg R.tmCamCfgMode n == 1 && s.reg R.tmCamCfgBus n == bus

/-- The oldest transfer of a controller gains it, after the latch reads of Keeper (R449).
DESIGN CHOICE (notes/assumptions/63.md). -/
def State.startTransfer (s : State) (bus : Nat) : State :=
  if s.latchWaits bus then s
  else
    match s.hi.transfers.findIdx? (·.bus = bus) with
    | some i => s.modHi fun h => { h with transfers := h.transfers.modify i fun t => { t with started := true } }
    | none => s

/-- I2C_XFER (R430, R431, R441, R449). DESIGN CHOICE (notes/assumptions/63.md). -/
def execI2cXfer (s : State) : Out :=
  .next (if 8 ≤ s.background then s
    else s.serve 6 i2cArgsOk fun c s =>
      let bus := bits (c.num 8 4) 0 0
      (s.modHi fun h => { h with transfers := h.transfers ++ [{ cmd := c, bus := bus }] }).startTransfer bus)

/-- The transfer that holds a controller, with its place. -/
def State.transferOn (s : State) (bus : Nat) : Option (Nat × Transfer) :=
  (s.hi.transfers.findIdx? fun t => t.bus = bus && t.started).bind fun i => (s.hi.transfers[i]?).map fun t => (i, t)

/-- A transfer ends: its response is posted, and the next one gains the controller (R431, R449). -/
def State.endTransfer (s : State) (i : Nat) (t : Transfer) (status result : Nat) : State :=
  let s := s.modHi fun h => { h with transfers := h.transfers.eraseIdx i }
  ((s.answer t.cmd status result).startTransfer t.bus).fetchAll

/-- I2C_XFER_DONE (R431, R441, R449): the transfer ends with the bytes read, byte 0 first, or at a byte that was not
acknowledged. DESIGN CHOICE (notes/assumptions/63.md). -/
def execI2cXferDone (bus : Nat) (nackAt : Option Nat) (data : List Byte) (s : State) : Out :=
  let s := s.startTransfer bus
  .next (match s.transferOn bus with
    | none => s
    | some (i, t) =>
      match nackAt with
      | some b => (s.bump R.hiCntCount 8).endTransfer i t 6 b
      | none => if data.length = bits (t.cmd.num 8 4) 19 16 then s.endTransfer i t 0 (leNat data) else s)

/-- I2C_STRETCH_TIMEOUT (R440, R441): a target stretched the clock beyond 10 ms. -/
def execI2cStretchTimeout (bus : Nat) (s : State) : Out :=
  .next (match s.transferOn bus with
    | none => s
    | some (i, t) => (s.bump R.hiCntCount 9).endTransfer i t 7 0)

/-! ## ALARM_SEND, RESUME, unknown commands (R430, R431, R443, R444, R474, R475) -/

/-- A character that an M sentence may hold (R443). -/
def sentenceChar (b : Byte) : Bool :=
  let n := b.toNat
  decide (0x20 ≤ n) && decide (n ≤ 0x7E) && !([0x24, 0x2A, 0x2C, 0x21, 0x5C, 0x5E, 0x7E].contains n)

/-- ALARM_SEND (R430, R431, R443, R444): an M sentence is queued, or the command is refused.
DESIGN CHOICE (notes/assumptions/61.md). -/
def execAlarmSend (s : State) : Out :=
  .next (if 8 ≤ s.background then s
    else s.serve 7 (fun c => c.zero 9 3 && decide (1 ≤ c.num 8 1) && decide (c.num 8 1 ≤ 52) &&
        (bytesAt c.args 0x0C (c.num 8 1)).all sentenceChar) fun c s =>
      match s.queueSentence 2 (chars "PQWXM," ++ bytesAt c.args 0x0C (c.num 8 1)) (some c) with
      | (true, s) => s
      | (false, s) => s.answer c 5 0)

/-- The staged CANVAS passes the power check (R89, R474). -/
def State.stagedPowerOk (s : State) : Bool :=
  match (bootDir s.ext).bind fun l => l.find? (·.kind = 2) with
  | some e => decide (s.canvasPower (Canvas.ofImage (s.dirImage e)) ≤ s.member.maxMw * 1000000)
  | none => false

/-- RESULT of a RESUME that is refused, or nothing where it is accepted (R474, R475). DESIGN CHOICE (notes/assumptions/62.md). -/
def State.resumeRefusal (s : State) : Option Nat :=
  let code := if s.inGesso then s.reg R.pwHbCode else 0
  if code = 6 ∨ code = 7 then none
  else if code = 8 then
    let rails := s.reg R.pwRailOk ≠ 63
    let hot := !(decide ((toSigned 12 (s.reg R.pwTempTj)) < 760))
    let power := s.flag R.pwPowerOver || !s.stagedPowerOk
    if rails || hot || power then some (8 + 16 * ofFlag rails + 32 * ofFlag hot + 64 * ofFlag power) else none
  else some code

/-- The ledger side of RESUME (R475): fault stack, CAUSE, ended table, queues, sequence numbers.
DESIGN CHOICE (notes/assumptions/62.md). -/
def State.clearForResume (s : State) : State :=
  let keep := fun (n : Nat) => n == 0 || n == 8 || n == 9
  let s := s.modLg fun l => { l with faults := [], ended := [], seqs := l.seqs.filter fun e => keep e.1,
                                     items := l.items.filter fun e => keep (streamOf e.1) }
  ((((s.setReg R.lgStatusCause 0).setReg R.lgStatusQuiescing 0).emptyQueues).bump R.lgCntCount 9).vector 3

/-- RESUME (R109, R474, R475). DESIGN CHOICE (notes/assumptions/62.md). -/
def execResume (s : State) : Out :=
  .next (s.serve 8 (fun c => c.zero 8 56) fun c s =>
    match s.resumeRefusal with
    | some r => s.answer c 5 r
    | none => (s.clearForResume.bootFrom5 true false).answer c 0 0)

/-- BAD_OP (R430, R431): the command's OP is none of R430. -/
def execBadOp (s : State) : Out :=
  .next (match s.hi.fetched with
    | c :: _ => if 1 ≤ c.op ∧ c.op ≤ 8 then s else (s.popCommand.answer c 3 0).fetchAll
    | [] => s)

/-! ## Readout rings (R426, R427, R435, R436, R452) -/

/-- The entry of a popped cell (R435). -/
def readoutEntry (d : Delivery) (phase : Bool) : List Byte :=
  leBytes 8 d.data.toNat ++ [BitVec.ofNat 8 (d.tag % 4 + 4 * ofFlag d.eop)] ++ List.replicate 6 0 ++
  [BitVec.ofNat 8 (128 * ofFlag phase)]

/-- READOUT_POP (R27, R230, R231, R235, R239, R250, R355, R426, R427, R435, R436): ring k pops its queue while it has room; an
item ends when its EOP entry is written. -/
def execReadoutPop (k : Nat) (upset : Upset) (s : State) : Out :=
  let wp := s.reg R.hiRdWpIndex k
  let l := s.reg R.hiRdCfgLog2 k
  let q := s.reg R.hiRdCfgQid k
  if s.ringsUp && s.flag R.hiRdCfgEn k && decide (k < 16) && ringFree (s.reg R.hiRdRpIndex k) wp l then
    .next (match s.popFor 0x0F 0x70 q false upset with
      | (none, s) => s
      | (some (d, got), s) =>
        let base := hostBase (s.reg R.hiRdBaseAddr k 0) (s.reg R.hiRdBaseAddr k 1)
        let s := s.ringWrite (2 + k) base wp l (readoutEntry d (s.phase (2 + k)))
        let s := s.setReg R.hiRdWpIndex ((wp + 1) % 2 ^ l) k
        if !d.eop then s
        else
          let s := s.vector 2
          if q = 511 then s
          else if got = .use then s.endTaken 0x0F (cellItem d.data) (lossyCell d.data)
          else if got = .poison then s.endTaken 0x0F d.item false
          else s)
  else .next s

/-! ## The PCIe link (R424, R425, R452, R453, R480, R484) -/

/-- DMA_ERROR (R452): a bus-master access failed. Responses that wait are not written. DESIGN CHOICE (notes/assumptions/24.md). -/
def execDmaError (s : State) : Out :=
  .next (if s.ringsUp then
    let n := s.hi.rspWait.length
    let s := (s.setReg R.hiStatusDmaErr 1).setReg R.hiCtrlRingsEn 0
    let s := (s.modHi fun h => { h with rspWait := [] }).bump R.hiCntCount 6 0 n
    s.raise 0xFC0004 8 2 0x0F
  else s)

/-- PCIE_LINK_DOWN (R453). -/
def execPcieLinkDown (s : State) : Out :=
  .next (((s.setReg R.hiStatusLinkUp 0).setReg R.hiStatusGen 0).setReg R.hiStatusWidth 0)

/-- PCIE_LINK_UP (R424, R435, R453): the link returns, and what waited for it goes on. -/
def execPcieLinkUp (gen width : BitVec 2) (s : State) : Out :=
  .next (if s.domOn 1 && s.pins.perstN && decide (1 ≤ gen.toNat) && decide (1 ≤ width.toNat) && decide (width.toNat ≤ 2) then
    let s := ((s.setReg R.hiStatusLinkUp 1).setReg R.hiStatusGen gen.toNat).setReg R.hiStatusWidth width.toNat
    (s.flushResponses s.hi.rspWait.length).fetchAll
  else s)

/-- Two ranges of bytes meet. -/
def bytesMeet (a n b m : Nat) : Bool := decide (a < b + m) && decide (b < a + n)

/-- Bytes of INIT data that the INIT buffer holds: those of the CANVAS being loaded or staged, else of the one being written to
the tiles (R132). -/
def State.initHeld (s : State) : Nat :=
  match s.cv.loading, s.cv.easel with
  | some e, _ => e.canvas.initBytes
  | none, some e => e.canvas.initBytes
  | none, none => (s.cv.inits.map (·.data.length)).foldl (· + ·) 0

/-- A BAR2 write of n bytes at an external address touches the INIT buffer that is held (R132). -/
def State.hitsInit (s : State) (a n : Nat) : Bool :=
  match s.cv.initAt with
  | some b => s.flag R.cvStatusInitHeld && bytesMeet a n b s.initHeld
  | none => false

/-- A BAR2 write touches a plan image that is active or staged (R154). -/
def State.hitsPlan (s : State) (a n : Nat) : Bool :=
  (s.pp.plan.toList ++ (s.cv.easel.bind (·.plan)).toList ++ (s.cv.loading.bind (·.plan)).toList).any fun p =>
    bytesMeet a n p.addr p.len

/-- A write that the memory controller lets through or discards (R92, R113, R132, R154).
DESIGN CHOICE (notes/assumptions/62.md). -/
def State.hostStore (s : State) (a : Nat) (data : List Byte) : State :=
  if decide (a < 0x4000000) && (!(s.bootIface .pcie) || s.keeper.mode == .booting) then s
  else if s.hitsInit a data.length then s.bump R.cvInitBlockedCount
  else if s.hitsPlan a data.length then s.bump R.ppImageBlockedCount
  else s.modExt fun m => m.writeBytes a data

/-- BAR2_ACCESS (R92, R132, R154, R425, R480, R484): a read or write through HI_BAR2.BASE; Unsupported Request while PD06 is
off or above the installed capacity. DESIGN CHOICE (notes/assumptions/62.md). -/
def execBar2Access (off len : Nat) (write : Option (List Byte)) (s : State) : Out :=
  if !s.pcieUp then .next s
  else
    let a := s.reg R.hiBar2Base * 0x10000000 + off
    let n := match write with | some d => d.length | none => len
    .next (if !(s.domOn 6) || !(s.extOk a n) || decide (0x10000000 < off + n) then s.modHi fun h => { h with busUr := true, busOut := [] }
      else
        match write with
        | some d => (s.modHi fun h => { h with busUr := false, busOut := [] }).hostStore a d
        | none => s.modHi fun h => { h with busUr := false, busOut := s.ext.readBytes a n })

end Sys2Proof.Machine
end

