-- ==== Sys2Proof/Machine/Alarm.lean ====
section
/-! DEFINITION. The alarm port's own events (R442 to R444). -/
namespace Sys2Proof.Machine

/-- The body of a status sentence (R443). DESIGN CHOICE (notes/assumptions/65.md). -/
def State.statusBody (s : State) : List Byte :=
  chars "PQWXS," ++ chars (if s.inRun then "R" else "G") ++ chars "," ++
  decimal (if s.inGesso then s.reg R.pwHbCode else 0) ++ chars "," ++ decimal (s.reg R.fuStatusLevel) ++ chars "," ++
  decimal (s.reg R.tmStatusSource) ++ chars "," ++ hex2 s.sentenceFlags ++ chars "," ++ s.timeText

/-- ALARM_STATUS_TIMER (R443, R444): every PERIOD seconds of DEVTIME, in run and in GESSO.
DESIGN CHOICE (notes/assumptions/65.md). -/
def execAlarmStatusTimer (s : State) : Out :=
  .next (if s.due .alarm && (s.inRun || s.inGesso) then
    let at_ := (alGet s.timers .alarm).getD s.devtime + 1000000000 * max 1 (s.reg R.hiAlarmPeriod)
    let s := s.modTimers fun l => alPut l .alarm at_
    (s.queueSentence 1 s.statusBody none).2
  else s)

/-- ALARM_SENTENCE_SENT (R431, R444): the last stop bit has been sent; an ALARM_SEND completes, and the next sentence starts. -/
def execAlarmSentenceSent (s : State) : Out :=
  .next (match s.hi.sending with
    | none => s
    | some x =>
      if s.due .alarmSent then
        let s := ((s.disarm .alarmSent).modHi fun h => { h with sending := none }).startSentence
        match x.cmd with
        | some c => (s.answer c 0 0).fetchAll
        | none => s
      else s)

end Sys2Proof.Machine
end

