-- ==== Sys2Proof/Machine/Half.lean ====
section
/-! DEFINITION. FP16 and FP32 numbers of the dense fabric and of pixel programs (R284, R290, R378), as exact integers: an
FP16 value counts units of 2^-24, an FP32 value units of 2^-149. -/
namespace Sys2Proof.Machine

/-- The value of an FP16 number in units of 2^-24; none for an infinity or a NaN. -/
def halfVal (h : BitVec 16) : Option Int :=
  let e := bits h.toNat 14 10
  let m := bits h.toNat 9 0
  let v : Nat := if e = 0 then m else (1024 + m) * 2 ^ (e - 1)
  if e = 31 then none else some (if bitAt h.toNat 15 then -(v : Int) else v)

/-- The value of an FP32 number in units of 2^-149; none for an infinity or a NaN. -/
def singleVal (w : BitVec 32) : Option Int :=
  let e := bits w.toNat 30 23
  let m := bits w.toNat 22 0
  let v : Nat := if e = 0 then m else (2 ^ 23 + m) * 2 ^ (e - 1)
  if e = 255 then none else some (if bitAt w.toNat 31 then -(v : Int) else v)

/-- The FP16 grid below a magnitude of num / den units: the largest representable value not above it, and the step to the
next one. -/
def halfFloor (num den : Nat) : Nat × Nat :=
  let v := num / den
  let step := 2 ^ (Nat.log2 v - 10)
  (v / step * step, step)

/-- Encode a magnitude that FP16 represents; 2^40 and above encode as infinity. -/
def halfBits (v : Nat) : Nat :=
  if v < 1024 then v
  else
    let e := Nat.log2 v - 9
    if 31 ≤ e then 0x7C00 else e * 1024 + (v / 2 ^ (e - 1) - 1024)

/-- Round num / den units (den positive) to FP16, where `up` says whether an inexact magnitude takes the upper neighbour:
it sees the lower neighbour, the step, and the magnitude. -/
def halfRound (up : Nat → Nat → Bool) (num : Int) (den : Nat) : BitVec 16 :=
  let n := num.natAbs
  let f := halfFloor n den
  let v := if n = f.1 * den then f.1 else if up f.1 f.2 then f.1 + f.2 else f.1
  BitVec.ofNat 16 (halfBits v + (if num < 0 then 0x8000 else 0))

/-- Round to nearest, ties to even (R290). -/
def halfNearest (num : Int) (den : Nat) : BitVec 16 :=
  let n := num.natAbs
  halfRound (fun lo step =>
    let twice := 2 * (n - lo * den)
    decide (step * den < twice) || (decide (twice = step * den) && decide (lo / step % 2 = 1))) num den

/-- FP32 to FP16, to nearest even (R290); an infinity stays one, and a NaN gives a NaN. -/
def halfOfSingle (w : BitVec 32) : BitVec 16 :=
  match singleVal w with
  | some v => if v = 0 then BitVec.ofNat 16 (w.toNat / 2 ^ 16 &&& 0x8000) else halfNearest v (2 ^ 125)
  | none => BitVec.ofNat 16 ((w.toNat / 2 ^ 16 &&& 0x8000) + (if bits w.toNat 22 0 = 0 then 0x7C00 else 0x7E00))

/-- Trailing zero bits of a number, at most n. -/
def lowZeros : Nat → Nat → Nat
  | 0, _ => 0
  | n + 1, v => if v % 2 = 1 then 0 else 1 + lowZeros n (v / 2)

/-- The sum of FP32 terms (units of 2^-149) where no order of adding them rounds; else none. -/
def exactSum (l : List Int) : Option Int :=
  let all := l.foldl (fun a x => a ||| x.natAbs) 0
  let size := (l.map Int.natAbs).foldl (· + ·) 0
  if size / 2 ^ lowZeros 400 all < 2 ^ 24 then some (l.foldl (· + ·) 0) else none

/-- The exact value of a list of optional values. -/
def allSome : List (Option Int) → Option (List Int)
  | [] => some []
  | none :: _ => none
  | some x :: t => (allSome t).map (x :: ·)

/-- BIAS plus the sum of FP16 products in FP32, rounded to FP16 (R284, R290). Where adding cannot round, the sum is exact;
else the order and the rounding of R284's FP32 additions are open. DESIGN CHOICE (notes/assumptions/8.md). -/
def fpOutput (pairs : List (BitVec 16 × BitVec 16)) (bias : BitVec 32) : BitVec 16 :=
  let terms := allSome (singleVal bias :: pairs.map fun p =>
    match halfVal p.1, halfVal p.2 with
    | some a, some b => some (a * b * (2 ^ 101 : Nat))
    | _, _ => none)
  match terms.bind exactSum with
  | some v => halfNearest v (2 ^ 125)
  | none => halfOfSingle (Config.fp32Add (Config.fpDot pairs) bias)

/-! ## Operations of pixel programs (R378). The rounding of an inexact result is open, and so is a result from an infinity,
a NaN, a division by zero or an overflow; `op` numbers the operation. -/

/-- Round with the open direction. DESIGN CHOICE (notes/assumptions/8.md). -/
def halfOpenRound (op : Nat) (a b : BitVec 16) (num : Int) (den : Nat) : BitVec 16 :=
  let r := halfRound (fun _ _ => Config.halfRoundUp op num den) num den
  if bits r.toNat 14 10 = 31 then Config.halfOpen op a b else r

/-- A result of two finite values. -/
def halfOp2 (op : Nat) (f : Int → Int → Int × Nat) (a b : BitVec 16) : BitVec 16 :=
  match halfVal a, halfVal b with
  | some x, some y => halfOpenRound op a b (f x y).1 (f x y).2
  | _, _ => Config.halfOpen op a b

/-- A + B. -/
def halfAdd (a b : BitVec 16) : BitVec 16 := halfOp2 2 (fun x y => (x + y, 1)) a b

/-- A × B. -/
def halfMul (a b : BitVec 16) : BitVec 16 := halfOp2 3 (fun x y => (x * y, 2 ^ 24)) a b

/-- D + A × B. Whether the product rounds before the addition is open where it is inexact.
DESIGN CHOICE (notes/assumptions/8.md). -/
def halfMad (d a b : BitVec 16) : BitVec 16 :=
  match halfVal d, halfVal a, halfVal b with
  | some z, some x, some y =>
    let p := halfMul a b
    match halfVal p with
    | some q =>
      if q * (2 ^ 24 : Nat) = x * y then halfOpenRound 4 a b (z + q) 1
      else if Config.halfRoundUp 4 (z * (2 ^ 24 : Nat)) (x * y) then halfOpenRound 4 a b (z * (2 ^ 24 : Nat) + x * y) (2 ^ 24)
      else halfOpenRound 4 a b (z + q) 1
    | none => Config.halfOpen 4 a b
  | _, _, _ => Config.halfOpen 4 a b

/-- min. -/
def halfMin (a b : BitVec 16) : BitVec 16 :=
  match halfVal a, halfVal b with
  | some x, some y => if x ≤ y then a else b
  | _, _ => Config.halfOpen 5 a b

/-- max. -/
def halfMax (a b : BitVec 16) : BitVec 16 :=
  match halfVal a, halfVal b with
  | some x, some y => if x ≤ y then b else a
  | _, _ => Config.halfOpen 6 a b

/-- A clamped to [0, 1]. -/
def halfSat (a : BitVec 16) : BitVec 16 :=
  match halfVal a with
  | some x => if x ≤ 0 then 0 else if (2 ^ 24 : Nat) ≤ x then 0x3C00 else a
  | none => Config.halfOpen 7 a a

/-- 1 / A. -/
def halfRcp (a : BitVec 16) : BitVec 16 :=
  match halfVal a with
  | some x =>
    if x = 0 then Config.halfOpen 12 a a
    else halfOpenRound 12 a a ((if x < 0 then -1 else 1) * (2 ^ 48 : Nat)) x.natAbs
  | none => Config.halfOpen 12 a a

/-- The FP16 number nearest below or above num / den (R378: colours / 255, IMM / 32,767, coordinates); its rounding is
open. -/
def halfOfQuot (num : Int) (den : Nat) : BitVec 16 := halfOpenRound 9 0 0 (num * (2 ^ 24 : Nat)) den

end Sys2Proof.Machine
end

