-- ==== Sys2Proof/Machine/Palette.lean ====
section
/-! DEFINITION. The PALETTE's commands: push, pop, take, free, scrubbing, severing, and the plan's queue operations (R226
to R253). -/
namespace Sys2Proof.Machine

/-- The block number of an endpoint (R231, R456); an ingress port reports its port number (R457).
DEDUCED (notes/assumptions/34.md). -/
def epStage (ep : Nat) : Nat :=
  if 1 ≤ ep ∧ ep ≤ 6 then ep - 1
  else if ep = 8 ∨ ep = 9 ∨ ep = 0x70 then 0x0F
  else if ep = 0x0C then 0 else if ep = 0x0E then 0x0E
  else if 0x20 ≤ ep ∧ ep ≤ 0x5F then 8
  else if ep = 0x60 then 0x0A else if ep = 0x62 then 0x0B
  else if ep = 0x63 ∨ ep = 0x64 then 0x0C
  else if 0x68 ≤ ep ∧ ep ≤ 0x6B then 0x0D else 7

/-- PUSH (R28, R226, R231, R233 to R236, R240, R243, R244, R246, R250): one cell; EOP for the last of an item, EPM for an epoch
marker; `link` says that the link field of the tail cell behind which it links fails LP. Requests reach the mutexes of R243 and
R244 in the order of the commands. DESIGN CHOICE (notes/assumptions/36.md). -/
def execPushCell (ep qid : Nat) (data : Cell64) (item : ItemId) (marks : CellMarks) (link : Bool) (s : State) : Out :=
  let s := if s.pushRes ep qid marks.eop marks.epm = .refused then s else s.upsetTail qid link
  .next (s.pushItem ep qid data item marks.eop marks.epm (epStage ep) 0)

/-- A pop or take that waits leaves its reader stalled (R237). -/
def State.stall (s : State) (ep q : Nat) (take : Bool) : State :=
  s.modQueue q fun x => if x.stalled.isSome then x else { x with stalled := some (ep, take) }

/-- A pop or take of one cell by endpoint ep (R231, R235, R237 to R239, R243, R247, R250, R251). -/
def State.popOne (s : State) (ep q : Nat) (take : Bool) (u : Upset) : State :=
  if !(s.popAllowed ep q) then s.setReg R.qmStatusWrongEp 1
  else
    let s := s.upsetHead q u
    if s.popWaits ep q take then s.stall ep q take else s.deliverHead q ep take

/-- POP (R231, R232, R235, R237, R239, R243, R247, R250, R251). -/
def execPopCell (ep qid : Nat) (upset : Upset) (s : State) : Out := .next (s.popOne ep qid false upset)

/-- TAKE (R231, R237 to R239, R247, R250, R251): the cell stays allocated and counts in HELD.
DESIGN CHOICE (notes/assumptions/36.md). -/
def execTakeCell (ep qid : Nat) (upset : Upset) (s : State) : Out := .next (s.popOne ep qid true upset)

/-- A FREE that R238 does not accept (R245). -/
def State.badFree (s : State) (ep cell : Nat) (item : ItemId) (double : Bool) : State :=
  let s := s.inform item (if double then 0x0A else 0x09) ep 0
  let s := ((s.setReg R.qmStatusBadfree 1).setReg R.qmBadfreeCell cell).setReg R.qmBadfreeEp ep
  (s.setFlag R.qmBadfreeDouble double).raise 0x600008 1 1 5

/-- FREE (R231, R238, R245). -/
def execFreeCell (ep cell : Nat) (item : ItemId) (s : State) : Out :=
  .next (if !(s.domOn 4) then s else
    match s.freeRes ep cell with
    | .ok => s.freeHeld ep cell
    | .doubleFree => s.badFree ep cell item true
    | .ownerFree => s.badFree ep cell item false)

/-! ## Scrubbing and severing (R249 to R252) -/

/-- The queue that a queued cell or a marker cell belongs to, and whether it is queued in it. -/
def State.cellHome (s : State) (i : Nat) : Option (Nat × Bool) :=
  match s.pal.queues.find? fun e => e.2.cells.any (·.idx = i) with
  | some e => some (e.1, true)
  | none => (s.pal.queues.find? fun e => e.2.markerIdx = i).map fun e => (e.1, false)

/-- A queued cell of queue q under the scrubber (R249 to R251): a DP error counts each time and changes nothing. -/
def State.scrubQueued (s : State) (q i : Nat) (u : Upset) : State :=
  let s := s.modQueue q fun x => { x with cells := x.cells.map fun c => if c.idx = i then c.upset u else c }
  match (s.queue q).cells.find? (·.idx = i) with
  | some c => (if parity 64 c.data.toNat != c.dp then s.bump R.qmQEvtPoison q else s).checkCell q c
  | none => s

/-- The unlinked marker cell of queue q under the scrubber (R249 to R251). -/
def State.scrubMarker (s : State) (q i : Nat) (u : Upset) : State :=
  let s := s.modQueue q fun x => { x with markerBad := x.markerBad != parity 64 u.data.toNat }
  let s := if (s.queue q).markerBad then s.bump R.qmQEvtPoison q else s
  s.checkCell q { idx := i, data := 0, dp := false, marker := true, lpOk := !u.link, opOk := !u.owner }

/-- A held cell under the scrubber (R249, R251): its link field is in no list. -/
def State.scrubHeld (s : State) (i : Nat) (u : Upset) : State :=
  let s := s.modPal fun p => { p with held := p.held.map fun h =>
    if h.idx = i then { h with data := h.data ^^^ u.data, lpOk := h.lpOk != u.link } else h }
  let s := match s.pal.held.find? (·.idx = i) with
    | some h => if parity 64 h.data.toNat != h.dp then s.bump R.qmQEvtPoison h.qid else s
    | none => s
  if u.owner then s.quarantine i else s

/-- A cell reserved as the marker of a staged or loading CANVAS under the scrubber: one whose OP fails is taken out of use, and
another cell is reserved (R133, R251). DESIGN CHOICE (notes/assumptions/36.md). -/
def State.scrubStaged (s : State) (i : Nat) (u : Upset) : State :=
  if !u.owner then s
  else
    let s := s.quarantine i
    let m := s.pickFree
    let swap := fun (o : Option Easel) =>
      o.map fun e => { e with markers := e.markers.map fun x => if x.2 = i then (x.1, m) else x }
    (s.tick).modCv fun c => { c with easel := swap c.easel, loading := swap c.loading }

/-- A free cell under the scrubber (R251, R252). -/
def State.scrubFree (s : State) (i : Nat) (u : Upset) : State :=
  let s := if u.owner then s.quarantine i else s
  if u.link then
    (((s.setReg R.qmStatusRebuild 1).poolLow).arm .rebuild (s.scaled 2100000)).raise 0x600008 0 2 5
  else s

/-- The scrubber reads cell i and finds what an upset has flipped, and what earlier ones have left (R249 to R252). A cell taken
out of use stays so. DESIGN CHOICE (notes/assumptions/36.md). -/
def State.scrubCell (s : State) (i : Nat) (u : Upset) : State :=
  match s.cellHome i with
  | some (q, true) => s.scrubQueued q i u
  | some (q, false) => s.scrubMarker q i u
  | none =>
    if s.pal.held.any (·.idx = i) then s.scrubHeld i u
    else if s.stagedMarkers.contains i then s.scrubStaged i u
    else if s.usedCells.contains i then s else s.scrubFree i u

/-- SCRUB_VISIT (R226, R248 to R252): the next cell is checked, and POS advances. -/
def execScrubVisit (upset : Upset) (s : State) : Out :=
  .next (if !(s.domOn 4) then s else
    let i := s.reg R.qmScrubPos
    (s.scrubCell i upset).setReg R.qmScrubPos ((i + 1) % s.member.cells))

/-- The sever marker (R236, R250). DESIGN CHOICE (notes/assumptions/36.md). -/
def Queue.severMarker (x : Queue) (n : Nat) : Cell :=
  let d := gapMarker x.severAt x.severAt x.severSrc n
  { idx := x.markerIdx, data := d, dp := parity 64 d.toNat, marker := true }

/-- Steps 2 to 5 of a sever (R34, R250, R476): reclaim, records, reinitialise, fault. -/
def State.severDone (s : State) (q : Nat) : State :=
  let cells := (s.queue q).cells.filter fun c => !c.marker
  let eops := cells.filter (·.eop)
  let good := eops.filter fun c => parity 64 c.data.toNat == c.dp
  let s := if q = 511 then s.bump R.lgCntCount 2 0 (ceilDiv cells.length 2)
    else good.foldl (fun s c => s.report (cellItem c.data) 0x13 (q % 256) (q / 256)) s
  let s := if good.length < eops.length then (s.setReg R.qmStatusUnnamed 1).raise 0x600008 3 2 5 else s
  let s := s.modQueue q fun x =>
    { x with cells := [x.severMarker cells.length], severing := false, markerOpen := false, markerBad := false }
  let s := ((s.disarm (.sever q)).bump R.qmQEvtSevers q).raise 0x600008 2 1 5
  let s := (s.watermark q).markerVector q
  match (s.queue q).stalled with
  | some (ep, take) => if s.popWaits ep q take then s else s.deliverHead q ep take
  | none => s

/-- SEVER_COMPLETE (R34, R236, R247, R250, R476): the reclaim of a severing queue ends.
DESIGN CHOICE (notes/assumptions/36.md). -/
def execSeverComplete (qid : Nat) (s : State) : Out :=
  .next (if (s.queue qid).severing then s.severDone qid else s)

/-- FREE_LIST_REBUILD_DONE (R252): the free list is rebuilt from the owner fields. DESIGN CHOICE (notes/assumptions/36.md). -/
def execFreeListRebuildDone (s : State) : Out :=
  .next (if s.flag R.qmStatusRebuild then (s.setReg R.qmStatusRebuild 0).disarm .rebuild else s)

/-- POOL_LOW_CLR (R253): MIN takes FREE. -/
def execPoolLowClr (s : State) : Out := .next ((s.setCmd R.qmPoolLowClr).setReg R.qmPoolLowMin s.freeCells)

/-! ## The plan's queue operations (R157, R160, R241) -/

/-- The bundle index of a slot operation. -/
def State.opBundle (s : State) (o : SlotOp) : Nat := ((s.pp.issued.find? (·.serial = o.bundle)).map (·.index)).getD 0

/-- A region outside its partition or of the wrong KIND (R173, R310): the plan halts, BOUNDS is set, and the operation
does not run. DESIGN CHOICE (notes/assumptions/33.md). -/
def State.boundsFail (s : State) (k : Nat) : State :=
  match s.pp.ops[k]? with
  | some o => ((s.setReg R.deStatusBounds 1).haltPlan 2 (s.opBundle o)).finishOp k
  | none => s

/-- The byte address in tile t of n bytes at an offset of a partition, where they lie inside it (R310). -/
def State.region (s : State) (t part off n : Nat) : Option Nat :=
  (s.partOf t part).bind fun p => if off + n ≤ p.2 then some (p.1 + off) else none

/-- A queue operation resolved: its tile and the address of its region. -/
def State.queueRegion (s : State) (o : SlotOp) (d : QueueDesc) (n : Nat) : Option (Nat × Nat) :=
  (s.opTile o d.group d.pos).bind fun t => (s.region t d.part d.offset n).map fun a => (t, a)

/-- The descriptor of a class-3 operation (R157, R241). -/
def State.queueDesc (s : State) (o : SlotOp) : QueueDesc := QueueDesc.ofBytes (s.opData o (16 * o.opnd 56 37) 16)

/-- Bytes of the tag array of n cells: 2 bits each (R241). -/
def tagBytes (n : Nat) : Nat := ceilDiv n 4

/-- The endpoint that a class-3 operation stands for: the tile's local port where the queue names it, else the plan
processor (R231, R241). DEDUCED (notes/assumptions/34.md). -/
def opEp (named t : Nat) : Nat := if named = 0x20 + t then named else 0x10

/-- A class-3 operation with its tile and region, once it can run; a bad region halts the plan.
DESIGN CHOICE (notes/assumptions/35.md). -/
def State.withQueueOp (s : State) (k sub : Nat) (need : QueueDesc → Nat)
    (run : SlotOp → QueueDesc → Nat → Nat → State → State) : State :=
  match s.opAt k 3 with
  | some o =>
    if o.sub ≠ sub then s
    else
      let d := s.queueDesc o
      if d.offset % 8 ≠ 0 ∨ (sub ≠ 3 ∧ d.count = 0) then s.boundsFail k
      else
        match s.queueRegion o d (need d) with
        | none => s.boundsFail k
        | some (t, a) => if s.tileWaits t then s else run o d t a s
  | none => s

/-- The push of a result for another chip has landed in a queue that a token binding sends from: the oldest token of that chip whose
cells were popped here completes (R323). DESIGN CHOICE (notes/assumptions/49.md). -/
def State.resultPushed (s : State) (q : Nat) : State :=
  match (List.range 32).find? fun k => s.flag R.slTxEn k && s.flag R.slTxClass k && s.reg R.slTxQid k == q with
  | none => s
  | some k =>
    match s.xr.home.find? fun x => streamOf x == 0xC0 + s.reg R.slTxDst k with
    | none => s
    | some item =>
      let s := s.modXr fun x => { x with home := x.home.filter (· ≠ item) }
      if s.hasEnded item then s else s.complete item 7

/-- QUEUE_PUSH (R160, R163, R230, R234, R241, R323): COUNT cells of the partition go into the queue; with LAST the final one
carries EOP. -/
def execQueuePush (k : Nat) (s : State) : Out :=
  .next (s.withQueueOp k 0 (fun d => 8 * d.count) fun o d t a s =>
    let ep := opEp (s.reg R.qmQEpProd o.qid) t
    let s := (List.range d.count).foldl (fun s i =>
      let w := BitVec.ofNat 64 (s.tileNat t (a + 8 * i) 8)
      s.pushItem ep o.qid w o.item (d.last && i + 1 == d.count) false 7 0) s
    (if d.last && !(s.hasEnded o.item) then s.resultPushed o.qid else s).finishOp k)

/-- Cell i and its tag are written to the region of a pop of n cells (R241). -/
def State.writePopped (s : State) (t a n i : Nat) (d : Delivery) : State :=
  let s := s.tileWriteNat t (a + 8 * i) 8 d.data.toNat
  let b := a + 8 * n + i / 4
  s.tileWriteNat t b 1 (putBits (s.tileNat t b 1) (2 * (i % 4) + 1) (2 * (i % 4)) d.tag)

/-- A FINAL pop is the final consumer of the items whose EOP cells it delivers, but for items of the plan's own streams
(R27, R163, R299). A token (streams 0x20 to 0x5F and 0xC0 to 0xC3) has another end, at COMBINE or at the push of its result (R323,
R325): a pop ends it only where it was poisoned (R333). DEDUCED (notes/assumptions/34.md). -/
def State.popEnds (s : State) (o : SlotOp) (d : Delivery) : State :=
  let st := streamOf d.item
  let local_ := decide (0x20 ≤ st) && decide (st ≤ 0x5F)
  let remote := decide (0xC0 ≤ st) && decide (st ≤ 0xC3)
  if local_ || remote then
    if !d.eop || d.tag == 2 || s.hasEnded d.item then s
    else if s.pal.poisoned.contains d.item then s.endTaken 7 d.item false
    else if remote then s.modXr fun x => { x with home := x.home.filter (· ≠ d.item) ++ [d.item] }
    else s
  else if d.eop && d.tag != 2 && slotFinal o.word && !(decide (0x10 ≤ st) && decide (st ≤ 0x1F)) then
    s.endTaken 7 d.item (d.tag == 0 && lossyCell d.data)
  else s

/-- Cells delivered one by one into the region until the operation has its COUNT, meets EOP with TO_EOP, or waits.
DESIGN CHOICE (notes/assumptions/35.md). -/
def State.popCells (s : State) (k ep t a : Nat) (o : SlotOp) (d : QueueDesc) (u : Upset) : Nat → State
  | 0 => s
  | n + 1 =>
    let i := d.count - (n + 1)
    match s.popFor 7 ep o.qid d.take u with
    | (none, s) => s
    | (some (x, _), s) =>
      let s := (s.writePopped t a d.count i x).popEnds o x
      let s := s.modOp k fun o => { o with moved := i + 1 }
      if n = 0 ∨ (d.toEop ∧ x.eop) then s.finishOp k else s.popCells k ep t a o d .none n

/-- QUEUE_POP_TO_TILE (R160, R231, R237 to R239, R241, R250): cells and tags go to the partition as far as the queue has
them; the operation goes on when issued again. DESIGN CHOICE (notes/assumptions/35.md). -/
def execQueuePopToTile (k : Nat) (upset : Upset) (s : State) : Out :=
  .next (s.withQueueOp k 1 (fun d => 8 * d.count + tagBytes d.count) fun o d t a s =>
    let ep := opEp (s.reg R.qmQEpCons o.qid) t
    if !(s.popAllowed ep o.qid) then (s.setReg R.qmStatusWrongEp 1).finishOp k
    else s.popCells k ep t a o d upset (d.count - o.moved))

/-- Cells of a drop-remainder that are delivered are written as a pop writes them, as far as COUNT has room (R240, R241). -/
def State.writeDropped (s : State) (t a k : Nat) (d : QueueDesc) (x : Delivery) : State :=
  match s.pp.ops[k]? with
  | some o =>
    let s := if o.moved < d.count then s.writePopped t a d.count o.moved x else s
    s.modOp k fun o => { o with moved := o.moved + 1 }
  | none => s

/-- The palette unlinks cells up to the first EOP cell: EPM cells, a gap marker and the EOP cell are delivered, the others
freed and counted (R240). DESIGN CHOICE (notes/assumptions/35.md). -/
def State.dropCells (s : State) (k ep t a : Nat) (o : SlotOp) (d : QueueDesc) : Nat → State
  | 0 => s.modQueue o.qid fun x => { x with dropPend := true }
  | n + 1 =>
    match (s.queue o.qid).cells with
    | [] => s.modQueue o.qid fun x => { x with dropPend := true }
    | c :: _ =>
      let s := s.deliverHead o.qid ep false
      match s.pal.delivered with
      | none => s
      | some x =>
        let s := (s.accept 7 x).2
        if c.eop then ((s.writeDropped t a k d x).popEnds o x).finishOp k
        else
          (if c.marker || c.epm then s.writeDropped t a k d x else s.bump R.qmQEvtDropRem o.qid).dropCells k ep t a o d n

/-- What DROP_PEND has delivered to the waiting command is written; the EOP cell, or the gap marker in its place, completes it
(R240, R246). DESIGN CHOICE (notes/assumptions/35.md). -/
def State.dropDelivered (s : State) (k t a : Nat) (o : SlotOp) (d : QueueDesc) : State :=
  let l := s.pal.dropOut.filter (·.qid = o.qid)
  let s := s.modPal fun p => { p with dropOut := p.dropOut.filter (·.qid ≠ o.qid) }
  let s := l.foldl (fun s x => (((s.accept 7 x).2).writeDropped t a k d x).popEnds o x) s
  if l.any fun x => x.eop || x.tag == 2 then s.finishOp k else s

/-- DROP_REMAINDER (R240, R241, R246): the rest of the packet at the head of the queue; without an EOP cell the queue
enters DROP_PEND, and what is delivered there is written when the operation is issued again.
DESIGN CHOICE (notes/assumptions/35.md). -/
def execDropRemainder (k : Nat) (s : State) : Out :=
  .next (s.withQueueOp k 2 (fun d => 8 * d.count + tagBytes d.count) fun o d t a s =>
    let ep := opEp (s.reg R.qmQEpCons o.qid) t
    if !(s.popAllowed ep o.qid) then (s.setReg R.qmStatusWrongEp 1).finishOp k
    else if (s.queue o.qid).severing then s
    else if (s.queue o.qid).dropPend || s.pal.dropOut.any (·.qid = o.qid) then s.dropDelivered k t a o d
    else s.dropCells k ep t a o d ((s.queue o.qid).cells.length))

/-- WATERMARK_QUERY (R232, R241): depth, high-watermark state, DROP_PEND and accumulator as one 64-bit word. -/
def execWatermarkQuery (k : Nat) (s : State) : Out :=
  .next (s.withQueueOp k 3 (fun _ => 8) fun o _ t a s =>
    let x := s.queue o.qid
    let w := x.depth % 2 ^ 21 + 2 ^ 24 * ofFlag x.highState + 2 ^ 25 * ofFlag x.dropPend + 2 ^ 32 * s.reg R.qmQGapCount o.qid
    (s.tileWriteNat t a 8 w).finishOp k)

end Sys2Proof.Machine
end

