-- ==== Sys2Proof/Machine/Dense.lean ====
section
/-! DEFINITION. The dense fabric (R284 to R311): feature maps and weights in tile memory, array and window-unit operations,
time surfaces. -/
namespace Sys2Proof.Machine

/-! ## Maps in tile memory (R286) -/

/-- Bytes of a map of some rows (R286). -/
def mapBytes (fmt w rows c : Nat) : Nat := fmtBytes fmt (w * rows * padTo (fmtPad fmt) c)

/-- Element e of an array of elements: a signed number for integer formats, the raw bits for FP16. -/
def State.elem (s : State) (t a fmt e : Nat) : Int :=
  if fmt = 1 then
    let b := s.tileNat t (a + e / 2) 1
    toSigned 4 (if e % 2 = 1 then b / 16 else b)
  else if fmt = 2 then (s.tileNat t (a + 2 * e) 2 : Int)
  else toSigned 8 (s.tileNat t (a + e) 1)

/-- Write element e of an array of elements; v holds the raw bits. -/
def State.setElem (s : State) (t a fmt e v : Nat) : State :=
  if fmt = 1 then
    let b := s.tileNat t (a + e / 2) 1
    s.tileWriteNat t (a + e / 2) 1 (if e % 2 = 1 then putBits b 7 4 v else putBits b 3 0 v)
  else if fmt = 2 then s.tileWriteNat t (a + 2 * e) 2 v
  else s.tileWriteNat t (a + e) 1 v

/-- A slice of a map as a tile holds it: `first` is the map's row that lies first, `chans` the channels that are stored. -/
structure Slice where
  tile : Nat
  base : Nat
  fmt : Nat
  w : Nat
  first : Nat
  chans : Nat
  deriving DecidableEq, Repr

/-- Element (x, y, c) of a slice, in the map's coordinates (R286). DESIGN CHOICE (notes/assumptions/45.md). -/
def State.sliceGet (s : State) (m : Slice) (x y c : Nat) : Int :=
  s.elem m.tile m.base m.fmt (((y - m.first) * m.w + x) * padTo (fmtPad m.fmt) m.chans + c)

/-- Write element (x, y, c) of a slice. -/
def State.sliceSet (s : State) (m : Slice) (x y c v : Nat) : State :=
  s.setElem m.tile m.base m.fmt (((y - m.first) * m.w + x) * padTo (fmtPad m.fmt) m.chans + c) v

/-! ## Windows (R289) -/

/-- The extent of a kernel with dilation. -/
def extent (k dil : Nat) : Nat := (k - 1) * dil + 1

/-- Output size along one axis: PAD 0 valid, else same. DESIGN CHOICE (notes/assumptions/45.md). -/
def outSize (pad k dil stride n : Nat) : Nat :=
  if pad = 0 then (if n < extent k dil then 0 else (n - extent k dil) / stride + 1) else ceilDiv n stride

/-- Padding before the first pixel along one axis: with stride 1 and an even total it is half the total.
DESIGN CHOICE (notes/assumptions/8.md). -/
def padFirst (pad k dil stride n : Nat) : Nat :=
  if pad = 0 then 0
  else if stride = 1 ∧ (extent k dil - 1) % 2 = 0 then (extent k dil - 1) / 2
  else Config.padBefore k dil stride n % extent k dil

/-- The place that a window reads along one axis: none is a zero pixel outside the map (PAD 1); PAD 2 takes the edge.
DESIGN CHOICE (notes/assumptions/45.md). -/
def tapAt (pad first stride dil n o d : Nat) : Option Nat :=
  let p : Int := (o * stride + d * dil : Nat) - (first : Int)
  if 0 ≤ p ∧ p < n then some p.toNat
  else if pad = 2 then some (if p < 0 then 0 else n - 1) else none

/-! ## Shares (R291) -/

/-- The run that member i of n gets of some rows: its first row and its length. -/
def dealt (rows n i : Nat) : Nat × Nat :=
  let q := rows / n
  let r := rows % n
  (i * q + min i r, q + (if i < r then 1 else 0))

/-- A tile's share of an operation: output rows, output channels, and the input rows that it holds. -/
structure Share where
  tile : Nat
  r0 : Nat
  rows : Nat
  c0 : Nat
  chans : Nat
  in0 : Nat
  inRows : Nat
  deriving DecidableEq, Repr

/-- The share of member i of n tiles (R291): output rows, or whole blocks of 32 output channels.
DESIGN CHOICE (notes/assumptions/45.md). -/
def shareOf (d : DenseDesc) (window : Bool) (chans n i t : Nat) : Share :=
  let k := if window then d.kh else 1
  let st := if window then d.stride else 1
  let pad := if window then d.pad else 0
  let hOut := outSize pad k (if window then d.dil else 1) st d.h
  let before := padFirst pad k (if window then d.dil else 1) st d.h
  if d.split then
    let b := dealt (ceilDiv chans 32) n i
    { tile := t, r0 := 0, rows := hOut, c0 := 32 * b.1, chans := min chans (32 * (b.1 + b.2)) - 32 * b.1, in0 := 0, inRows := d.h }
  else
    let r := dealt hOut n i
    let lo := r.1 * st - before
    let hi := min d.h ((r.1 + r.2 - 1) * st + extent k (if window then d.dil else 1) - before)
    { tile := t, r0 := r.1, rows := r.2, c0 := 0, chans := chans, in0 := lo, inRows := if r.2 = 0 then 0 else hi - lo }

/-! ## Output stage (R290) -/

/-- ACT on an integer. -/
def actInt (d : DenseDesc) (v : Int) : Int :=
  if d.act = 1 then max v 0
  else if d.act = 2 then min (max v 0) d.clip
  else if d.act = 3 ∧ v < 0 then openDiv 290 v 8
  else v

/-- ACT on an FP16 number. -/
def actHalf (d : DenseDesc) (v : BitVec 16) : BitVec 16 :=
  if d.act = 1 then halfMax v 0
  else if d.act = 2 then halfMin (halfMax v 0) (halfNearest (d.clip * 2 ^ 24 : Nat) 1)
  else if d.act = 3 ∧ bitAt v.toNat 15 = true then halfMul v 0x3000
  else v

/-- An integer in FP16 (R290): what FP16 represents is exact, what it cannot reach saturates to its largest finite number, and the
rounding between is open. DESIGN CHOICE (notes/assumptions/8.md). -/
def halfOfInt (fmtIn : Nat) (r : Int) : Nat × Bool :=
  if 65504 < r.natAbs then (if r < 0 then 0xFBFF else 0x7BFF, true)
  else if r.natAbs ≤ 2048 then ((halfNearest (r * (2 ^ 24 : Nat)) 1).toNat, false)
  else (Config.convertOut fmtIn 2 r % 2 ^ 16, false)

/-- An FP16 number as an integer of w bits (R290): which neighbour a fraction takes is open, and what lies outside saturates; an
infinity saturates, and a NaN gives an open element. DESIGN CHOICE (notes/assumptions/8.md). -/
def intOfHalf (fmtOut w : Nat) (h : BitVec 16) : Nat × Bool :=
  match halfVal h with
  | some n =>
    let one : Int := (2 ^ 24 : Nat)
    let v := n / one + (if n % one ≠ 0 ∧ Config.convertUp h = true then 1 else 0)
    (ofSigned w (satSigned w v), satSigned w v != v)
  | none =>
    if bits h.toNat 9 0 ≠ 0 then (Config.convertOut 2 fmtOut h.toNat % 2 ^ w, false)
    else (if bitAt h.toNat 15 then 2 ^ (w - 1) else 2 ^ (w - 1) - 1, true)

/-- The integer output stage: the scaled sum after ACT, its raw bits in FMT_OUT, and whether it saturated.
DESIGN CHOICE (notes/assumptions/8.md). -/
def outInt (d : DenseDesc) (acc : Int) (entry : Nat) : Nat × Bool :=
  let bias := toSigned 32 (bits entry 31 0)
  let mult := bits entry 47 32
  let shift := bits entry 53 48
  let v := (acc + bias) * (mult : Int)
  let r := actInt d (if shift = 0 then v else (v + (2 ^ (shift - 1) : Nat)) / (2 ^ shift : Nat))
  if d.fmtOut = 2 then halfOfInt d.fmtIn r
  else
    let w := if d.fmtOut = 1 then 4 else 8
    (ofSigned w (satSigned w r), satSigned w r != r)

/-- The FP16 output stage. DESIGN CHOICE (notes/assumptions/8.md). -/
def outHalf (d : DenseDesc) (pairs : List (BitVec 16 × BitVec 16)) (entry : Nat) : Nat × Bool :=
  let h := actHalf d (fpOutput pairs (BitVec.ofNat 32 (bits entry 31 0)))
  if d.fmtOut = 2 then (h.toNat, false)
  else intOfHalf d.fmtOut (if d.fmtOut = 1 then 4 else 8) h

/-- The sum of integer products in INT32 (R284). DESIGN CHOICE (notes/assumptions/8.md). -/
def intSum (l : List Int) : Int :=
  if (l.map Int.natAbs).foldl (· + ·) 0 < 2 ^ 31 then l.foldl (· + ·) 0 else toSigned 32 (ofSigned 32 (Config.accSum l))

/-- Inputs and weights of one output element through the output stage. -/
def outElem (d : DenseDesc) (terms : List (Int × Int)) (entry : Nat) : Nat × Bool :=
  if d.fmtIn = 2 then outHalf d (terms.map fun p => (BitVec.ofInt 16 p.1, BitVec.ofInt 16 p.2)) entry
  else outInt d (intSum (terms.map fun p => p.1 * p.2)) entry

/-! ## Weights (R287) -/

/-- Channels of a weight block (R284, R287). -/
def blockK (fmt : Nat) : Nat := if fmt = 1 then 64 else 32

/-- Bytes of a weight block (R287). -/
def weightBlock (fmt : Nat) : Nat := if fmt = 2 then 2048 else 1024

/-- The weight of input channel c, output channel n (counted from the tile's first) and tap t of `taps`. -/
def State.weight (s : State) (d : DenseDesc) (tile w taps t c n : Nat) : Int :=
  let nI := ceilDiv d.c (blockK d.fmtIn)
  let b := (n / 32 * taps + t) * nI + c / blockK d.fmtIn
  s.elem tile (w + weightBlock d.fmtIn * b) d.fmtIn (c % blockK d.fmtIn * 32 + n % 32)

/-- The weight of a grouped convolution for input channel c and output channel n of one group, of the tile's block j
(R287, R294). DESIGN CHOICE (notes/assumptions/8.md). -/
def State.groupWeightAt (s : State) (d : DenseDesc) (tile w taps t j c n : Nat) : Int :=
  let a := w + 32 * (j * taps + t)
  if d.fmtIn = 0 ∧ d.gw = 0 then toSigned 8 (s.tileNat tile (a + n % 32) 1)
  else
    let v := Config.groupWeight d.fmtIn d.gw (s.tileRead tile a 32) (c % 32) (n % 32)
    if d.fmtIn = 2 then ((v % 2 ^ 16 : Nat) : Int) else toSigned (if d.fmtIn = 1 then 4 else 8) v

/-! ## Output elements of each operation -/

/-- The input element under tap (dx, dy) of output (x, y): 0 where zero padding lies (R289). -/
def State.tapGet (s : State) (d : DenseDesc) (m : Slice) (x y dx dy c : Nat) : Int :=
  let px := tapAt d.pad (padFirst d.pad d.kw d.dil d.stride d.w) d.stride d.dil d.w x dx
  let py := tapAt d.pad (padFirst d.pad d.kh d.dil d.stride d.h) d.stride d.dil d.h y dy
  match px, py with
  | some i, some j => s.sliceGet m i j c
  | _, _ => 0

/-- The taps of a kernel as (t, dx, dy) (R287). -/
def taps (d : DenseDesc) : List (Nat × Nat × Nat) :=
  (List.range d.kh).flatMap fun dy => (List.range d.kw).map fun dx => (dy * d.kw + dx, dx, dy)

/-- The regions of an operation on one tile, resolved (R289, R310). -/
structure Places where
  inp : Nat
  in2 : Nat
  wts : Nat
  tab : Nat
  out : Nat
  deriving DecidableEq, Repr

/-- The requantisation entry of a tile's channel (R290). -/
def State.entry (s : State) (sh : Share) (p : Places) (n : Nat) : Nat := s.tileNat sh.tile (p.tab + 8 * n) 8

/-- One output element: kind, descriptor, share, regions, x, y, channel counted from the share's first. -/
def State.denseElem (s : State) (kind : Nat) (d : DenseDesc) (sh : Share) (p : Places) (x y n : Nat) : Nat × Bool :=
  let m : Slice := { tile := sh.tile, base := p.inp, fmt := d.fmtIn, w := d.w, first := sh.in0, chans := d.c }
  let ch := sh.c0 + n
  match kind with
  | 0 => outElem d ((List.range d.c).map fun c => (s.sliceGet m x y c, s.weight d sh.tile p.wts 1 0 c n)) (s.entry sh p n)
  | 1 =>
    outElem d ((taps d).flatMap fun t => (List.range d.c).map fun c =>
      (s.tapGet d m x y t.2.1 t.2.2 c, s.weight d sh.tile p.wts (d.kh * d.kw) t.1 c n)) (s.entry sh p n)
  | 2 =>
    let g := 2 ^ d.gw
    outElem d ((taps d).flatMap fun t => (List.range g).map fun i =>
      let c := ch / g * g + i
      (if c < d.c then s.tapGet d m x y t.2.1 t.2.2 c else 0, s.groupWeightAt d sh.tile p.wts (d.kh * d.kw) t.1 (n / 32) c ch)) (s.entry sh p n)
  | 3 =>
    let l := (taps d).map fun t => s.tapGet d m x y t.2.1 t.2.2 ch
    if d.fmtIn = 2 then
      let h := l.map fun v => BitVec.ofInt 16 v
      (((if d.sub = 0 then h.tail.foldl halfMax (h.headD 0) else Config.fpAverage h)).toNat, false)
    else
      let v := if d.sub = 0 then l.tail.foldl max (l.headD 0) else openDiv 295 (l.foldl (· + ·) 0) (l.length : Int)
      (ofSigned (if d.fmtIn = 1 then 4 else 8) v, false)
  | _ =>
    let a := s.sliceGet m x y ch
    let b := s.sliceGet { m with base := p.in2 } x y ch
    let one : Int := if d.fmtIn = 2 then 0x3C00 else 1
    outElem d (if d.sub = 0 then [(a, one), (b, one)] else if d.sub = 1 then [(a, b)] else [(a, one)]) (s.entry sh p n)

/-! ## Costs (R285, R292 to R296) -/

/-- Σ max(chunk, 32) over chunks of at most 512 positions (R285). DESIGN CHOICE (notes/assumptions/46.md). -/
def chunkSum (n : Nat) : Nat := n / 512 * 512 + (if n % 512 = 0 then 0 else max (n % 512) 32)

/-- Intervals of an operation on one tile (R292 to R295). DESIGN CHOICE (notes/assumptions/46.md). -/
def denseCost (kind : Nat) (d : DenseDesc) (sh : Share) : Nat :=
  let wOut := if kind = 0 ∨ kind = 4 then d.w else outSize d.pad d.kw d.dil d.stride d.w
  let px := wOut * sh.rows
  let f := if d.fmtIn = 2 then 4 else 1
  let kb := ceilDiv d.c (blockK d.fmtIn)
  let fill := d.w * (d.kh - 1) * kb
  if kind = 0 then kb * ceilDiv sh.chans 32 * chunkSum px * f + 32
  else if kind = 1 then kb * ceilDiv sh.chans 32 * d.kh * d.kw * chunkSum px * f + 32 + fill
  else if kind = 2 then ceilDiv sh.chans 32 * d.kh * d.kw * chunkSum px * f + 32 + fill
  else if kind = 3 then ceilDiv sh.chans 32 * d.kh * d.kw * px + 32 + fill
  else ceilDiv sh.chans 32 * px * (if d.sub = 2 then 1 else 2) + 32

/-! ## Running an operation -/

/-- Units of an amount that go to a counter; whether the rest adds one more is open. DESIGN CHOICE (notes/assumptions/5.md). -/
def State.unitsOf (s : State) (amount unit : Nat) : Nat :=
  amount / unit + (if amount % unit ≠ 0 ∧ Config.unitCarry s.freeCtr = true then 1 else 0)

/-- Counters of a tile's part in an operation (R311): OPS, KINTERVALS, SAT. DESIGN CHOICE (notes/assumptions/46.md). -/
def State.countOp (s : State) (t cost sat : Nat) : State :=
  let k := s.unitsOf cost 1000
  (((s.tick).bump R.deTCntCount t 0).bump R.deTCntCount t 1 k).bump R.deTCntCount t 2 sat

/-- Channels of an operation's output. -/
def denseChans (kind : Nat) (d : DenseDesc) : Nat := if kind ≤ 1 then d.n else d.c

/-- One output element is written, saturations counted beside the state. -/
def State.putElem (s old : State) (kind : Nat) (d : DenseDesc) (sh : Share) (p : Places) (o : Slice) (x y n : Nat) : State × Nat :=
  let r := old.denseElem kind d sh p x y n
  (s.sliceSet o x y n r.1, ofFlag r.2)

/-- The output elements of a tile's share are written, from the inputs as they were; the second part counts the saturated ones.
DESIGN CHOICE (notes/assumptions/45.md). -/
def State.writeShare (s : State) (kind : Nat) (d : DenseDesc) (sh : Share) (p : Places) : State × Nat :=
  let wOut := if kind = 0 ∨ kind = 4 then d.w else outSize d.pad d.kw d.dil d.stride d.w
  let o : Slice :=
    { tile := sh.tile, base := p.out, fmt := if kind = 3 then d.fmtIn else d.fmtOut, w := wOut, first := sh.r0, chans := sh.chans }
  let cells := (List.range sh.rows).flatMap fun j => (List.range wOut).flatMap fun x => (List.range sh.chans).map fun n => (x, sh.r0 + j, n)
  cells.foldl (fun (a : State × Nat) e =>
    let q := a.1.putElem s kind d sh p o e.1 e.2.1 e.2.2
    (q.1, a.2 + q.2)) (s, 0)

/-- A tile's part of an operation, with its counters. DESIGN CHOICE (notes/assumptions/45.md). -/
def State.runShare (s : State) (kind : Nat) (d : DenseDesc) (sh : Share) (p : Places) : State :=
  let r := s.writeShare kind d sh p
  r.1.countOp sh.tile (denseCost kind d sh) r.2

/-- A region inside a partition of tile t whose KIND is allowed (R310). An empty region needs no partition.
DESIGN CHOICE (notes/assumptions/45.md). -/
def State.placeIn (s : State) (t part off n : Nat) (kinds : List Nat) : Option Nat :=
  if n = 0 then some 0
  else
    match s.cv.active.bind fun c => c.part t part with
    | some m => if off + n ≤ 4096 * m.size ∧ kinds.contains m.kind = true then some (4096 * m.base + off) else none
    | none => none

/-- Bytes of weights that a share reads (R287). -/
def weightBytes (kind : Nat) (d : DenseDesc) (sh : Share) : Nat :=
  let j := ceilDiv sh.chans 32
  let nI := ceilDiv d.c (blockK d.fmtIn)
  if kind = 0 then j * nI * weightBlock d.fmtIn
  else if kind = 1 then j * d.kh * d.kw * nI * weightBlock d.fmtIn
  else if kind = 2 then j * d.kh * d.kw * 32 else 0

/-- The regions of a share, all inside partitions of fitting KIND (R293, R304, R310): maps and lists lie in KIND 5 or 8, weights
and tables in KIND 4 or 8, the line buffer in KIND 6. DESIGN CHOICE (notes/assumptions/45.md). -/
def State.placesOf (s : State) (kind : Nat) (d : DenseDesc) (sh : Share) : Option Places :=
  if sh.rows = 0 ∨ sh.chans = 0 then some { inp := 0, in2 := 0, wts := 0, tab := 0, out := 0 }
  else if 262144 < lineBytes kind d then none
  else
    let t := sh.tile
    let wOut := if kind = 0 ∨ kind = 4 then d.w else outSize d.pad d.kw d.dil d.stride d.w
    let inB := mapBytes d.fmtIn d.w sh.inRows d.c
    let outB := mapBytes (if kind = 3 then d.fmtIn else d.fmtOut) wOut sh.rows sh.chans
    match s.placeIn t d.inPart d.inOff inB [5, 8], s.placeIn t d.in2Part d.in2Off (if kind = 4 ∧ d.sub ≠ 2 then inB else 0) [5, 8],
      s.placeIn t d.wPart d.wOff (weightBytes kind d sh) [4, 8], s.placeIn t d.wPart d.qOff (if kind = 3 then 0 else 8 * sh.chans) [4, 8],
      s.placeIn t d.outPart d.outOff outB [5, 8], s.placeIn t d.lbPart 0 (lineBytes kind d) [6] with
    | some a, some b, some c, some q, some o, some _ => some { inp := a, in2 := b, wts := c, tab := q, out := o }
    | _, _, _, _, _, _ => none

/-- Parity failures of a tile in the last 1 s, with one more (R309). -/
def State.parityCount (s : State) (t : Nat) : Nat :=
  (s.deParity.filter fun e => e.1 == t && decide (s.devtime < e.2 + 1000000000)).length + 1

/-- A read of tile t's memory fails parity during an operation or a move for an item (R309): the n bytes written at a of
tile `dst` are undefined. DESIGN CHOICE (notes/assumptions/45.md). -/
def State.denseParity (s : State) (t : Nat) (item : ItemId) : State :=
  let n := s.parityCount t
  let s := s.modDeParity fun l => (l.filter fun e => decide (s.devtime < e.2 + 1000000000)) ++ [(t, s.devtime)]
  let s := ((s.bump R.deTCntCount t 3).setReg R.deStatusParity 1).markPoisoned item
  s.raise 0xB00000 0 (if 16 ≤ n then 2 else 1) 9

/-- A class-1 operation of KIND on a DENSE group, when it is its turn on every tile (R291, R305, R32): no class-1 operation
admitted before it shares a tile, and no tile's role is changing. DESIGN CHOICE (notes/assumptions/45.md). -/
def State.denseOp (s : State) (k kind : Nat) : Option (SlotOp × DenseDesc × List Nat) :=
  match s.opAt k 1 with
  | some o =>
    let g := o.opnd 29 24
    let role := s.ext.readNat (o.groups + 16 * g + 8) 1 % 4
    let tiles := s.opTiles o g
    let mask := s.opMask o g
    let before := (s.pp.ops.take k).any fun x => x.cls == 1 && !x.done && (s.opMask x (x.opnd 29 24) &&& mask) != 0
    if role = 2 ∧ o.opnd 33 30 = kind ∧ before = false ∧ tiles.any s.tileWaits = false then
      some (o, DenseDesc.ofBytes (s.opData o (16 * o.opnd 53 34) 64), tiles)
    else none
  | none => none

/-- The shares of an operation over its tiles (R291). -/
def shares (kind : Nat) (d : DenseDesc) (tiles : List Nat) : List Share :=
  tiles.zipIdx.map fun e => shareOf d (decide (1 ≤ kind) && decide (kind ≤ 3)) (denseChans kind d) tiles.length e.2 e.1

/-! ## Compute and render on one tile (R305, R307, R384) -/

/-- Blocks over chunks that an operation streams on one tile (R285, R292 to R294): where they end, compute may yield.
DESIGN CHOICE (notes/assumptions/58.md). -/
def denseBlocks (kind : Nat) (d : DenseDesc) (sh : Share) : Nat :=
  let wOut := if kind = 0 ∨ kind = 4 then d.w else outSize d.pad d.kw d.dil d.stride d.w
  let chunks := ceilDiv (wOut * sh.rows) 512
  let kb := ceilDiv d.c (blockK d.fmtIn)
  if kind = 0 then kb * ceilDiv sh.chans 32 * chunks
  else if kind = 1 then kb * ceilDiv sh.chans 32 * d.kh * d.kw * chunks
  else if kind = 2 then ceilDiv sh.chans 32 * d.kh * d.kw * chunks else 1

/-- Blocks over chunks of a class-1 operation on tile t (R285, R296). DESIGN CHOICE (notes/assumptions/58.md). -/
def State.opBlocks (s : State) (o : SlotOp) (t : Nat) : Nat :=
  let kind := o.opnd 33 30
  let d := DenseDesc.ofBytes (s.opData o (16 * o.opnd 53 34) 64)
  match (shares (if kind = 6 then 0 else kind) d (s.opTiles o (o.opnd 29 24))).find? (·.tile = t) with
  | none => 0
  | some sh =>
    if kind = 6 then min o.count d.maxCount * (ceilDiv d.c (blockK d.fmtIn) * ceilDiv sh.chans 32) else denseBlocks kind d sh

/-- The place of the class-1 operation whose turn it is on tile t (R305). -/
def State.computeOn (s : State) (t : Nat) : Option Nat :=
  s.pp.ops.findIdx? fun o => o.cls == 1 && !o.done && bitAt (s.opMask o (o.opnd 29 24)) t

/-- Blocks that the operation on tile t has still to stream. -/
def State.blocksLeft (s : State) (t : Nat) : Nat :=
  match (s.computeOn t).bind (s.pp.ops[·]?) with
  | some o => s.opBlocks o t - (alGet o.blocks t).getD 0
  | none => 0

/-- n blocks of the operation on tile t have been streamed. -/
def State.streamed (s : State) (t n : Nat) : State :=
  match s.computeOn t with
  | some k => s.modOp k fun o => { o with blocks := alPut o.blocks t ((alGet o.blocks t).getD 0 + n) }
  | none => s

/-- Contested decisions on a tile (R384): how many have been made, entries and blocks still to do, and who has won how many. -/
structure Contest where
  decisions : Nat
  entries : Nat
  blocks : Nat
  render : Nat := 0
  compute : Nat := 0
  deriving DecidableEq, Repr

/-- Decisions are made while both sides have work (R384); at most n of them. -/
def Contest.run (prio : Nat) : Nat → Contest → Contest
  | 0, c => c
  | n + 1, c =>
    if c.entries = 0 ∨ c.blocks = 0 then c
    else if c.decisions % 8 < prio then
      Contest.run prio n { c with decisions := c.decisions + 1, entries := c.entries - 1, render := c.render + 1 }
    else Contest.run prio n { c with decisions := c.decisions + 1, blocks := c.blocks - 1, compute := c.compute + 1 }

/-- Change the render side of tile t. -/
def State.modSide (s : State) (t : Nat) (f : RenderSide → RenderSide) : State :=
  s.modRd fun r => { r with sides := r.sides.map fun x => if x.tile = t then f x else x }

/-- The contested decisions between the screen tile in hand of tile t and the operation on it, until one of them has no work left
(R307, R384). DESIGN CHOICE (notes/assumptions/58.md). -/
def State.contest (s : State) (t : Nat) : State :=
  match s.rd.sides.find? (·.tile = t) with
  | none => s
  | some x =>
    let b := s.blocksLeft t
    if x.screen.isNone || x.entries == 0 || b == 0 then s
    else
      let c := Contest.run ((alGet s.rd.prios x.group).getD 0) (x.entries + b) { decisions := x.decisions, entries := x.entries, blocks := b }
      let s := (s.modSide t fun x => { x with decisions := c.decisions, entries := c.entries }).streamed t c.compute
      (s.bump R.deTCntCount t 8 c.render).bump R.rdCntCount 10 0 c.compute

/-- All of a list of optional values. -/
def allOf {α : Type} : List (Option α) → Option (List α)
  | [] => some []
  | none :: _ => none
  | some x :: t => (allOf t).map (x :: ·)

/-- GEMM, CONV, GCONV, POOL and ELTWISE (R288 to R295, R305, R309, R310). -/
def State.runDense (s : State) (k kind : Nat) (parityTile : Option Nat) : State :=
  match s.denseOp k kind with
  | none => s
  | some (o, d, tiles) =>
    let shs := shares kind d tiles
    match allOf (shs.map (s.placesOf kind d)) with
    | none => s.boundsFail k
    | some ps =>
      let s := tiles.foldl State.contest s
      let s := (shs.zip ps).foldl (fun s e => s.runShare kind d e.1 e.2) s
      let s := match parityTile, (shs.zip ps).find? (fun e => some e.1.tile == parityTile) with
        | some t, some e =>
          let wOut := if kind = 0 ∨ kind = 4 then d.w else outSize d.pad d.kw d.dil d.stride d.w
          (s.tileUndef t e.2.out (mapBytes (if kind = 3 then d.fmtIn else d.fmtOut) wOut e.1.rows e.1.chans)).denseParity t o.item
        | _, _ => s
      s.finishOp k

/-- GEMM (R284 to R287, R290 to R292). -/
def execGemm (k : Nat) (parityTile : Option Nat) (s : State) : Out := .next (s.runDense k 0 parityTile)

/-- CONV (R286, R287, R289 to R291, R293). -/
def execConv (k : Nat) (parityTile : Option Nat) (s : State) : Out := .next (s.runDense k 1 parityTile)

/-- GCONV (R286, R287, R289 to R291, R294). -/
def execGconv (k : Nat) (parityTile : Option Nat) (s : State) : Out := .next (s.runDense k 2 parityTile)

/-- POOL (R286, R289, R291, R295). -/
def execPool (k : Nat) (parityTile : Option Nat) (s : State) : Out := .next (s.runDense k 3 parityTile)

/-- ELTWISE (R286, R289 to R291, R295). -/
def execEltwise (k : Nat) (parityTile : Option Nat) (s : State) : Out := .next (s.runDense k 4 parityTile)

/-! ## GEMM_BATCH (R296, R308) -/

/-- COUNT of an operation, clamped to MAX_COUNT; a clamp is a severity-1 fault (R308). -/
def State.clampCount (s : State) (o : SlotOp) (d : DenseDesc) : Nat × State :=
  if d.maxCount < o.count then (d.maxCount, (s.setReg R.deStatusClamp 1).raise 0xB00000 1 1 9) else (o.count, s)

/-- One entry of a problem list: M, IN_OFF, W_OFF, OUT_OFF (R296). -/
def batchEntry (v : Nat) : Nat × Nat × Nat × Nat := (bits v 15 0, bits v 63 32, bits v 95 64, bits v 127 96)

/-- The descriptor of one problem. -/
def batchDesc (d : DenseDesc) (e : Nat × Nat × Nat × Nat) : DenseDesc :=
  { d with w := 1, h := min e.1 32, inOff := e.2.1, wOff := e.2.2.1, outOff := e.2.2.2 }

/-- The share of a tile in one problem: its rows under SPLIT 0 are the whole problem, since the list is the tile's own.
DESIGN CHOICE (notes/assumptions/45.md). -/
def batchShare (d : DenseDesc) (n i t : Nat) : Share :=
  let sh := shareOf { d with split := true } false d.n (if d.split then n else 1) (if d.split then i else 0) t
  { sh with rows := d.h, inRows := d.h }

/-- The problems of tile t (R296). -/
def State.batchList (s : State) (t list count : Nat) : List (Nat × Nat × Nat × Nat) :=
  (List.range count).map fun i => batchEntry (s.tileNat t (list + 16 * i) 16)

/-- An entry with M above 32 (R308): CLAMP, CLAMPS, severity 1, and the item ends POISON. -/
def State.batchClamp (s : State) (t : Nat) (item : ItemId) (e : Nat × Nat × Nat × Nat) : State :=
  if e.1 ≤ 32 then s
  else ((((s.setReg R.deStatusClamp 1).bump R.deTCntCount t 7).markPoisoned item).raise 0xB00000 1 1 9)

/-- The problems of one tile, with their descriptors, shares and regions, run in order; the intervals share one initial 32, and the
operation counts once (R296, R308, R311). -/
def State.runBatch (s : State) (t : Nat) (item : ItemId)
    (work : List (((Nat × Nat × Nat × Nat) × DenseDesc × Share) × Places)) : State :=
  let r := work.foldl (fun (a : State × Nat) j =>
    let q := (a.1.batchClamp t item j.1.1).writeShare 0 j.1.2.1 j.1.2.2 j.2
    (q.1, a.2 + q.2)) (s, 0)
  r.1.countOp t (32 + (work.map fun j => denseCost 0 j.1.2.1 j.1.2.2 - 32).sum) r.2

/-- GEMM_BATCH (R290 to R292, R296, R308 to R310). -/
def execGemmBatch (k : Nat) (parityTile : Option Nat) (s : State) : Out :=
  .next (match s.denseOp k 6 with
    | none => s
    | some (o, d, tiles) =>
      let (count, s) := s.clampCount o d
      match allOf (tiles.map fun t => s.placeIn t d.in2Part d.in2Off (16 * count) [5, 8]) with
      | none => s.boundsFail k
      | some lists =>
        let jobs := (tiles.zip lists).zipIdx.flatMap fun x =>
          (s.batchList x.1.1 x.1.2 count).map fun e => (e, batchDesc d e, batchShare (batchDesc d e) tiles.length x.2 x.1.1)
        match allOf (jobs.map fun j => s.placesOf 0 j.2.1 j.2.2) with
        | none => s.boundsFail k
        | some ps =>
          let work : List (((Nat × Nat × Nat × Nat) × DenseDesc × Share) × Places) := jobs.zip ps
          let s := tiles.foldl State.contest s
          let s := tiles.foldl (fun (s : State) t => s.runBatch t o.item (work.filter fun j => j.1.2.2.tile = t)) s
          let s := match parityTile with
            | some t =>
              if tiles.contains t then
                (work.foldl (fun (s : State) (j : ((Nat × Nat × Nat × Nat) × DenseDesc × Share) × Places) =>
                  if j.1.2.2.tile = t then s.tileUndef t j.2.out (mapBytes d.fmtOut 1 j.1.2.2.rows j.1.2.2.chans) else s) s).denseParity t o.item
              else s
            | none => s
          s.finishOp k)

/-! ## Time surfaces (R297 to R299) -/

/-- Bytes of a surface (R297). -/
def surfaceBytes (d : DenseDesc) : Nat := 16 + 16 * d.w * d.h

/-- The entry of bin (bx, by) and polarity p of a surface at a (R297). -/
def surfaceEntry (d : DenseDesc) (a bx by_ p : Nat) : Nat := a + 16 + ((by_ * d.w + bx) * 2 + p) * 8

/-- An event lands in a surface (R297). DESIGN CHOICE (notes/assumptions/46.md). -/
def State.surfaceHit (s : State) (d : DenseDesc) (t a bx by_ p time : Nat) : State :=
  let e := surfaceEntry d a bx by_ p
  let s := s.tileWriteNat t e 4 (max (s.tileNat t e 4) time)
  let s := s.tileWriteNat t (e + 4) 2 (satTo 65535 (s.tileNat t (e + 4) 2 + 1))
  s.tileWriteNat t a 4 (max (s.tileNat t a 4) time)

/-- One cell with its tag enters a surface at a of tile t (R218, R297, R299). DESIGN CHOICE (notes/assumptions/46.md). -/
def State.surfaceCell (s : State) (d : DenseDesc) (t a : Nat) (cell tag : Nat) : State :=
  let ty := bits cell 11 8
  let port := bits cell 39 38
  if tag = 2 then
    (s.tileWriteNat t (a + 4) 4 (s.tileNat t (a + 4) 4 + gapCount (BitVec.ofNat 64 cell))).bump R.deTCntCount t 4
  else if tag = 1 then s.bump R.deTCntCount t 6
  else if ty = 3 then (s.setReg R.deTEpochEpoch (bits cell 35 12) t port).setReg R.deTEpochValid 1 t port
  else if ty = 4 then s.endTaken 7 (cellItem (BitVec.ofNat 64 cell)) (lossyCell (BitVec.ofNat 64 cell))
  else if ty ≤ 1 then
    let x := bits cell 23 12
    let y := bits cell 35 24
    let bx := (x - d.x0) / 2 ^ d.bs
    let by_ := (y - d.y0) / 2 ^ d.bs
    if !(s.flag R.deTEpochValid t port) || decide (x < d.x0) || decide (y < d.y0) || decide (d.w ≤ bx) || decide (d.h ≤ by_) then
      s.bump R.deTCntCount t 5
    else s.surfaceHit d t a bx by_ (bits cell 37 37) ((s.reg R.deTEpochEpoch t port * 2 ^ 24 + bits cell 63 40) % 2 ^ 32)
  else s

/-- The cells of a list at `src` of tile t, their tags after MAX_COUNT cells (R241, R297). -/
def State.surfaceCells (s : State) (d : DenseDesc) (t src a : Nat) : Nat → Nat → State
  | 0, _ => s
  | n + 1, i =>
    let tag := bits (s.tileNat t (src + 8 * d.maxCount + i / 4) 1) (2 * (i % 4) + 1) (2 * (i % 4))
    (s.surfaceCell d t a (s.tileNat t (src + 8 * i) 8) tag).surfaceCells d t src a n (i + 1)

/-- SURFACE accumulate (R218, R297, R299, R305, R308 to R310): each tile of the group takes COUNT cells of its own. -/
def execSurfaceAccumulate (k : Nat) (parityTile : Option Nat) (s : State) : Out :=
  .next (match s.denseOp k 5 with
    | none => s
    | some (o, d, tiles) =>
      if d.sub ≠ 0 then s
      else
        let (count, s) := s.clampCount o d
        let place := fun t =>
          match s.placeIn t d.inPart d.inOff (8 * d.maxCount + tagBytes d.maxCount) [5, 8], s.placeIn t d.outPart d.outOff (surfaceBytes d) [5, 8] with
          | some a, some b => some (t, a, b)
          | _, _ => none
        match allOf (tiles.map place) with
        | none => s.boundsFail k
        | some ps =>
          let s := ps.foldl (fun s e => (s.surfaceCells d e.1 e.2.1 e.2.2 count 0).countOp e.1 (2 * count + 32) 0) s
          let s := match ps.find? (fun e => some e.1 == parityTile) with
            | some e => (s.tileUndef e.1 e.2.2 (surfaceBytes d)).denseParity e.1 o.item
            | none => s
          s.finishOp k)

/-- One element of a readout (R298): the table value for the time readout, or min(127, COUNT).
DESIGN CHOICE (notes/assumptions/45.md). -/
def State.readoutElem (s : State) (d : DenseDesc) (t src tab bx by_ p : Nat) : Nat :=
  let e := surfaceEntry d src bx by_ p
  if d.sub = 2 then min 127 (s.tileNat t (e + 4) 2)
  else
    let last := s.tileNat t e 4
    let dt := ofSigned 32 ((s.tileNat t src 4 : Int) - last)
    if last = 0 ∨ 2 ^ 30 ≤ dt then 0 else s.tileNat t (tab + decaySlot dt) 1

/-- A surface is read out to an INT8 map with ON in channel 0 and OFF in channel 1 (R298). -/
def State.readoutTile (s : State) (d : DenseDesc) (t src tab out : Nat) : State :=
  let bins := (List.range d.h).flatMap fun y => (List.range d.w).map fun x => (x, y)
  let r := bins.foldl (fun (a : State) e =>
    let put := fun (a : State) (c v : Nat) => a.tileWriteNat t (out + 4 * (e.2 * d.w + e.1) + c) 1 v
    put (put (put (put a 0 (s.readoutElem d t src tab e.1 e.2 1)) 1 (s.readoutElem d t src tab e.1 e.2 0)) 2 0) 3 0) s
  let r := if d.sub = 2 then
      bins.foldl (fun (a : State) e =>
        (a.tileWriteNat t (surfaceEntry d src e.1 e.2 0 + 4) 2 0).tileWriteNat t (surfaceEntry d src e.1 e.2 1 + 4) 2 0) r
    else r
  r.countOp t (d.w * d.h + 32) 0

/-- SURFACE readouts (R298, R305, R309, R310). -/
def State.runReadout (s : State) (k sub : Nat) (parityTile : Option Nat) : State :=
  match s.denseOp k 5 with
  | none => s
  | some (o, d, tiles) =>
    if d.sub ≠ sub then s
    else
      let place := fun t =>
        match s.placeIn t d.inPart d.inOff (surfaceBytes d) [5, 8], s.placeIn t d.wPart d.qOff (if sub = 1 then 512 else 0) [4, 8],
          s.placeIn t d.outPart d.outOff (4 * d.w * d.h) [5, 8] with
        | some a, some b, some c => some (t, a, b, c)
        | _, _, _ => none
      match allOf (tiles.map place) with
      | none => s.boundsFail k
      | some ps =>
        let s := ps.foldl (fun s e => s.readoutTile d e.1 e.2.1 e.2.2.1 e.2.2.2) s
        let s := match ps.find? (fun e => some e.1 == parityTile) with
          | some e => (s.tileUndef e.1 e.2.2.2 (4 * d.w * d.h)).denseParity e.1 o.item
          | none => s
        s.finishOp k

/-- SURFACE time readout (R258, R298). -/
def execSurfaceTimeReadout (k : Nat) (parityTile : Option Nat) (s : State) : Out := .next (s.runReadout k 1 parityTile)

/-- SURFACE count readout (R298). -/
def execSurfaceCountReadout (k : Nat) (parityTile : Option Nat) (s : State) : Out := .next (s.runReadout k 2 parityTile)

end Sys2Proof.Machine
end

