-- ==== Sys2Proof/Machine/ExpertOps.lean ====
section
/-! DEFINITION. Expert routing's named operations: entries, gate weights, priorities, the loss of a token
(R312, R316 to R321, R329). -/
namespace Sys2Proof.Machine

/-- The routing state of an explicit track slot (R312). -/
def State.xrEntry (s : State) (obj : Nat) : XrEntry := (alGet s.xr.entries obj).getD {}

/-- Change the entry of an object, where it is an explicit track slot (R312). -/
def State.modEntry (s : State) (obj : Nat) (f : XrEntry → XrEntry) : State :=
  if obj < 4096 then s.modXr fun x => { x with entries := alMod x.entries obj {} f } else s

/-- An object becomes HAZARD (R320, R332, R333); HAZARD_SET counts the objects that were not. -/
def State.setHazard (s : State) (tbl obj : Nat) : State :=
  let was := (decide (obj < 4096) && (s.xrEntry obj).hazard) || s.xr.objects.any fun o => o.tbl == tbl && o.obj == obj && o.hazard
  let s := if was then s else s.bump R.xrCntCount 2
  (s.modXr fun x => { x with objects := x.objects.map fun o =>
    if o.tbl = tbl ∧ o.obj = obj then { o with hazard := true } else o }).modEntry obj fun e => { e with hazard := true }

/-- A token has ended without a result: its object bears the trace (R320, R329, R333). -/
def State.tokenLost (s : State) (item : ItemId) : State :=
  match s.xr.tokens.find? (·.item = item) with
  | none => s
  | some t =>
    if t.lost then s
    else
      let s := s.disarm (.remote item)
      let s := s.modXr fun x => { x with tokens := x.tokens.map fun u =>
        if u.item = item then { u with lost := true }
        else if u.tbl = t.tbl ∧ u.obj = t.obj ∧ u.rank = 0 ∧ t.rank = 1 then { u with weight := 0xFFFF } else u }
      if t.rank = 0 then s.setHazard t.tbl t.obj else s

/-! ## Gate weights (R316) -/

/-- exp(n / 256) in units of 2^-128, for n up to 3,200: the first 80 terms of its series. -/
def expScaled (n : Nat) : Nat :=
  ((List.range 80).foldl (fun (r : Nat × Nat) k =>
    let t := r.1 * n / (256 * (k + 1))
    (t, r.2 + t)) (2 ^ 128, 2 ^ 128)).2

/-- w_0 for k = 2 (R316): 65,535 / (1 + exp(d / 256)) rounded to nearest, where d is logit_1 − logit_0. The half at d = 0 may
go either way. -/
def gateWeight (d : Int) : Nat :=
  let n := d.natAbs
  if n = 0 then 32767 + ofFlag (Config.divUp 316 65535 2)
  else if 3200 < n then (if 0 < d then 0 else 65535)
  else
    let e := expScaled n
    let one := 2 ^ 128
    let num := if 0 < d then 65535 * one else 65535 * e
    (2 * num + (one + e)) / (2 * (one + e))

/-! ## Order (R316, R318) -/

/-- Insertion into a list kept in an order. -/
def insertBy {α : Type} (le : α → α → Bool) (x : α) : List α → List α
  | [] => [x]
  | y :: t => if le x y then x :: y :: t else y :: insertBy le x t

/-- A list in an order; equal elements keep their places. -/
def sortBy {α : Type} (le : α → α → Bool) : List α → List α
  | [] => []
  | x :: t => insertBy le x (sortBy le t)

/-- The selected experts (R316): the k highest scores, ties to the lower expert. -/
def topExperts (k : Nat) (l : List (Nat × Int)) : List (Nat × Int) :=
  (sortBy (fun (a b : Nat × Int) => decide (b.2 < a.2) || (a.2 == b.2 && decide (a.1 ≤ b.1))) l).take k

/-- The capacity of an expert (R318). -/
def capacity (capMax capMin cf ntok eact : Nat) : Nat := min capMax (max capMin (ceilDiv (cf * ntok) (16 * eact)))

end Sys2Proof.Machine
end

