-- ==== Sys2Proof/Machine/Moves.lean ====
section
/-! DEFINITION. Mesh moves and external memory (R300 to R303, R306, R309, R310): the class-2 slot operations. -/
namespace Sys2Proof.Machine

/-- The descriptor of a class-2 operation (R157, R300). -/
def State.moveDesc (s : State) (o : SlotOp) : MoveDesc := MoveDesc.ofBytes (s.opData o (16 * o.opnd 47 28) 32)

/-- A named tile and the address of a region of it (R300, R310). -/
def State.movePlace (s : State) (o : SlotOp) (g p part off n : Nat) : Option (Nat × Nat) :=
  (s.opTile o g p).bind fun t => (s.region t part off n).map fun a => (t, a)

/-- Source and destination of a tile-to-tile move (R300). -/
def State.tileEnds (s : State) (o : SlotOp) (d : MoveDesc) : Option ((Nat × Nat) × (Nat × Nat)) :=
  match s.movePlace o d.srcGroup d.srcPos d.srcPart d.srcOff d.tileBytes, s.movePlace o d.dstGroup d.dstPos d.dstPart d.dstOff d.tileBytes with
  | some a, some b => some (a, b)
  | _, _ => none

/-- One tile-to-tile move of n bytes (R20, R21, R300): the source tile sends them as a packet of the operation's item on VC2. A read
that fails parity counts there, and leaves the destination undefined (R309). DESIGN CHOICE (notes/assumptions/47.md). -/
def State.sendMove (s : State) (o : SlotOp) (a b : Nat × Nat) (n : Nat) (fail : Bool) : State :=
  let s := s.inject { item := o.item, key := Config.moveKey a.1 b.1 % 2 ^ 32, vc := 2, epoch := 0, dest := 0, tile := a.1, cells := [],
                      origin := a.1, load := some { op := o.id, addr := b.2, data := s.tileRead a.1 a.2 n, bad := fail } }
  if fail then s.denseParity a.1 o.item else s

/-- MOVE_TILE_TO_TILE (R20, R32, R300, R306, R309, R310): the operation has finished when its packet has arrived. -/
def execMoveTileToTile (k : Nat) (parityFail : Bool) (s : State) : Out :=
  .next (match s.opAt k 2 with
    | some o =>
      if o.sub ≠ 0 || o.begun then s
      else
        let d := s.moveDesc o
        match s.tileEnds o d with
        | none => s.boundsFail k
        | some (a, b) =>
          if s.tileWaits a.1 || s.tileWaits b.1 then s
          else (s.sendMove o a b d.tileBytes parityFail).modOp k fun o => { o with begun := true }
    | none => s)

/-! ## The map formats of external memory (R301, R302) -/

/-- S of a block (R301): the smallest shift, at most 7, with range >> S ≤ top. -/
def blockShift (top range : Nat) : Nat → Nat → Nat
  | 0, k => k
  | n + 1, k => if range / 2 ^ k ≤ top then k else blockShift top range n (k + 1)

/-- The block of 16 pixels at a RATE (R301). -/
def encodeBlock (rate : Nat) (px : List Int) : List Byte :=
  if rate = 0 then px.map fun v => BitVec.ofNat 8 (ofSigned 8 v)
  else
    let lo := px.tail.foldl min (px.headD 0)
    let hi := px.tail.foldl max (px.headD 0)
    let top := if rate = 1 then 7 else 1
    let w := if rate = 1 then 3 else 1
    let k := blockShift top (hi - lo).toNat 7 0
    let head := ofSigned 8 lo + k * 2 ^ 8
    leBytes (blockBytes rate) (px.zipIdx.foldl (fun a e => a + (e.1 - lo).toNat / 2 ^ k * 2 ^ (16 + w * e.2)) head)

/-- The 16 pixels of a block (R302). -/
def decodeBlock (rate : Nat) (b : List Byte) : List Int :=
  if rate = 0 then b.map fun v => toSigned 8 v.toNat
  else
    let v := leNat b
    let w := if rate = 1 then 3 else 1
    let k := bits v 10 8
    let h : Nat := if k = 0 then 0 else 2 ^ (k - 1)
    (List.range 16).map fun i => min 127 (toSigned 8 (bits v 7 0) + (bits v (15 + w * (i + 1)) (16 + w * i) * 2 ^ k + h : Nat))

/-- A block breaks R301: non-zero bits in [15:11] (R302). -/
def blockBad (rate : Nat) (b : List Byte) : Bool := rate != 0 && bits (leNat b) 15 11 != 0

/-- The blocks of a map in external memory, as (block column, block row, channel) in storage order (R301). -/
def mapBlocks (d : MoveDesc) : List (Nat × Nat × Nat) :=
  (List.range (ceilDiv d.c 32)).flatMap fun cg => (List.range (ceilDiv d.h 4)).flatMap fun y =>
    (List.range (ceilDiv d.w 4)).flatMap fun x => (List.range 32).map fun c => (x, y, 32 * cg + c)

/-- The pixels of a block of an INT8 map at a of tile t: edges replicated, channels above C zero (R301).
DESIGN CHOICE (notes/assumptions/47.md). -/
def State.blockPixels (s : State) (d : MoveDesc) (t a : Nat) (b : Nat × Nat × Nat) : List Int :=
  (List.range 16).map fun i =>
    let x := min (d.w - 1) (4 * b.1 + i % 4)
    let y := min (d.h - 1) (4 * b.2.1 + i / 4)
    if d.c ≤ b.2.2 then 0 else s.elem t a 0 ((y * d.w + x) * padTo 4 d.c + b.2.2)

/-- KiB of an amount of bytes go to a counter (R311). -/
def State.countKib (s : State) (r : Row) (bytes : Nat) : State :=
  let k := s.unitsOf bytes 1024
  (s.tick).bump r 0 0 k

/-- MOVE_TILE_TO_MEMORY (R32, R300, R301, R306, R309 to R311). DESIGN CHOICE (notes/assumptions/47.md). -/
def execMoveTileToMemory (k : Nat) (parityFail : Bool) (s : State) : Out :=
  .next (match s.opAt k 2 with
    | some o =>
      if o.sub ≠ 1 then s
      else
        let d := s.moveDesc o
        match s.movePlace o d.srcGroup d.srcPos d.srcPart d.srcOff d.tileBytes with
        | none => s.boundsFail k
        | some (t, a) =>
          if s.tileWaits t then s
          else
            let data := if d.map then (mapBlocks d).flatMap fun b => encodeBlock d.rate (s.blockPixels d t a b)
              else s.tileRead t a d.bytes
            let s := s.modExt fun m => m.writeBytes d.mem data
            let s := if parityFail then
                let g := s.freeCtr
                (((s.modExt fun m => m.makeUndef d.mem d.extBytes g).tick).denseParity t o.item)
              else s
            ((s.countKib R.deMemOutKib d.tileBytes).countKib R.deMemExtKib d.extBytes).finishOp k
    | none => s)

/-- The pixels of a decoded block are written to the map; those of the padding are not (R301, R302).
DESIGN CHOICE (notes/assumptions/47.md). -/
def State.putBlock (s : State) (d : MoveDesc) (t a : Nat) (b : Nat × Nat × Nat) (px : List Int) : State :=
  px.zipIdx.foldl (fun s e =>
    let x := 4 * b.1 + e.2 % 4
    let y := 4 * b.2.1 + e.2 / 4
    if x < d.w ∧ y < d.h ∧ b.2.2 < d.c then s.setElem t a 0 ((y * d.w + x) * padTo 4 d.c + b.2.2) (ofSigned 8 e.1) else s) s

/-- A map is read from external memory into tile t (R301, R302); a bad block counts in DE_CMP_FMT. -/
def State.readMap (s : State) (d : MoveDesc) (t a : Nat) : State :=
  (mapBlocks d).zipIdx.foldl (fun s e =>
    let b := s.ext.readBytes (d.mem + blockBytes d.rate * e.2) (blockBytes d.rate)
    let s := if blockBad d.rate b then s.bump R.deCmpFmtCount else s
    s.putBlock d t a e.1 (decodeBlock d.rate b)) s

/-- MOVE_MEMORY_TO_TILE (R32, R300 to R302, R306, R310, R311). -/
def execMoveMemoryToTile (k : Nat) (s : State) : Out :=
  .next (match s.opAt k 2 with
    | some o =>
      if o.sub ≠ 2 then s
      else
        let d := s.moveDesc o
        match s.movePlace o d.dstGroup d.dstPos d.dstPart d.dstOff d.tileBytes with
        | none => s.boundsFail k
        | some (t, a) =>
          if s.tileWaits t then s
          else
            let s := if d.map then s.readMap d t a else s.tileWrite t a (s.ext.readBytes d.mem d.bytes)
            ((s.countKib R.deMemInKib d.tileBytes).countKib R.deMemExtKib d.extBytes).finishOp k
    | none => s)

/-- RESHARD (R20, R32, R157, R300, R306, R309, R310): ENTRIES tile-to-tile moves on VC2; `parityEntry` names the one whose read fails.
The operation has finished when every packet has arrived. DESIGN CHOICE (notes/assumptions/47.md). -/
def execReshard (k : Nat) (parityEntry : Option Nat) (s : State) : Out :=
  .next (match s.opAt k 2 with
    | some o =>
      if o.sub ≠ 3 || o.begun then s
      else
        let d := s.moveDesc o
        let inside := decide (16 * d.list + 32 * d.entries ≤ o.dataLen)
        let ds := (List.range d.entries).map fun i => MoveDesc.ofBytes (s.opData o (16 * d.list + 32 * i) 32)
        match allOf (ds.map (s.tileEnds o)) with
        | none => s.boundsFail k
        | some es =>
          if !inside then s.boundsFail k
          else if es.any fun e => s.tileWaits e.1.1 || s.tileWaits e.2.1 then s
          else
            let s := (ds.zip es).zipIdx.foldl (fun (s : State) e =>
              s.sendMove o e.1.2.1 e.1.2.2 e.1.1.tileBytes (some e.2 == parityEntry)) s
            if es.isEmpty then s.finishOp k else s.modOp k fun o => { o with begun := true }
    | none => s)

end Sys2Proof.Machine
end

