-- ==== Sys2Proof/Machine/Pixel.lean ====
section
/-! DEFINITION. Textures and pixel programs of the renderer (R378, R381 to R383, R397). -/
namespace Sys2Proof.Machine

/-! ## SWATCH textures (R381 to R383) -/

/-- A channel of a SWATCH-4 block: base, step, shift, index (R382). -/
def swatchChannel (b d s k : Nat) : Nat :=
  let base : Int := b * 4 + b / 16
  let v := base + (2 * (k : Int) - 3) * toSigned 4 d * 2 ^ s
  (max 0 (min 255 v)).toNat

/-- Red, green and blue of pixel i of a SWATCH-4 block (R382). -/
def swatchRgb (v i : Nat) : List Nat :=
  let k := bits v (33 + 2 * i) (32 + 2 * i)
  let s := bits v 31 30
  [swatchChannel (bits v 5 0) (bits v 21 18) s k, swatchChannel (bits v 11 6) (bits v 25 22) s k,
   swatchChannel (bits v 17 12) (bits v 29 26) s k]

/-- Alpha of pixel i of a SWATCH-8A block (R383). -/
def swatchAlpha (v i : Nat) : Nat :=
  min 255 (bits v 71 64 + bits v (82 + 3 * i) (80 + 3 * i) * bits v 76 72 * 2 ^ bits v 79 77 / 4)

/-- The texel of pixel i of a block: R, G, B, A (R382, R383). -/
def swatchTexel (fmt v i : Nat) : List Nat := swatchRgb v i ++ [if fmt = 0 then 255 else swatchAlpha v i]

/-- Bytes of a texture (R381). -/
def TexSlot.bytes (x : TexSlot) : Nat := 2 ^ (x.log2w - 2) * 2 ^ (x.log2h - 2) * (if x.fmt = 0 then 8 else 16)

/-- Texel (x, y) of a texture slot as tile t holds it; none where the slot is invalid (R381, R397). -/
def State.texel (s : State) (t slot x y : Nat) : Option (List Nat) :=
  match alGet s.rd.tex slot with
  | none => none
  | some e =>
    (s.region t e.part (64 * e.off) e.bytes).map fun a =>
      let bb := if e.fmt = 0 then 8 else 16
      swatchTexel e.fmt (s.tileNat t (a + (y / 4 * 2 ^ (e.log2w - 2) + x / 4) * bb) bb) (4 * (y % 4) + x % 4)

/-! ## Pixel programs (R378) -/

/-- Register r of a pixel. -/
def PixelUnit.get (u : PixelUnit) (r : Nat) : List (BitVec 16) := u.regs.getD r []

/-- Lane i of register r of a pixel. -/
def PixelUnit.lane (u : PixelUnit) (r i : Nat) : BitVec 16 := (u.get r).getD i 0

/-- Write register d, lane by lane. -/
def PixelUnit.put (u : PixelUnit) (d : Nat) (f : Nat → BitVec 16) : PixelUnit :=
  { u with regs := u.regs.set d ((List.range 4).map f) }

/-- One lane of MOV, SAT and RCP applied to register a. -/
def PixelUnit.un (f : BitVec 16 → BitVec 16) (d a : Nat) (u : PixelUnit) : PixelUnit := u.put d fun i => f (u.lane a i)

/-- One lane of ADD, MUL, MIN and MAX applied to registers a and b. -/
def PixelUnit.bin (f : BitVec 16 → BitVec 16 → BitVec 16) (d a b : Nat) (u : PixelUnit) : PixelUnit :=
  u.put d fun i => f (u.lane a i) (u.lane b i)

/-- MAD: D + A × B. -/
def PixelUnit.mad (d a b : Nat) (u : PixelUnit) : PixelUnit := u.put d fun i => halfMad (u.lane d i) (u.lane a i) (u.lane b i)

/-- SWZ: D[i] = A[IMM[2i + 1 : 2i]]. -/
def PixelUnit.swz (d a imm : Nat) (u : PixelUnit) : PixelUnit := u.put d fun i => u.lane a (bits imm (2 * i + 1) (2 * i))

/-- CONST: every lane is IMM / 32,767. -/
def PixelUnit.const (d imm : Nat) (u : PixelUnit) : PixelUnit := u.put d fun _ => halfOfQuot imm 32767

/-- An FP16 number is below 0. A NaN is not. DESIGN CHOICE (notes/assumptions/56.md). -/
def halfNeg (h : BitVec 16) : Bool :=
  match halfVal h with
  | some v => decide (v < 0)
  | none => h == 0xFC00

/-- KILL: the pixel is not blended where A.x < 0. -/
def PixelUnit.kill (a : Nat) (u : PixelUnit) : PixelUnit := if halfNeg (u.lane a 0) then { u with killed := true } else u

/-- END: C7 goes to blending. -/
def PixelUnit.end_ (u : PixelUnit) : PixelUnit := { u with ended := true }

/-- One instruction has run; the program ends after the 64th. -/
def PixelUnit.stepped (u : PixelUnit) : PixelUnit := { u with steps := u.steps + 1, ended := u.ended || decide (63 ≤ u.steps) }

/-- A texture coordinate as a texel index: nearest, clamped to the texture. A coordinate that is no number is open.
DESIGN CHOICE (notes/assumptions/56.md). -/
def texCoord (h : BitVec 16) (log2 : Nat) : Nat :=
  match halfVal h with
  | some v => (max 0 (min (2 ^ log2 - 1 : Int) (v * 2 ^ log2 / 2 ^ 24))).toNat
  | none => (Config.halfOpen 10 h h).toNat % 2 ^ log2

/-- TEX: D is the texel of the draw's slot; an invalid slot gives 0 and an error (R378, R397). -/
def State.pixelTex (s : State) (d a : Nat) (u : PixelUnit) : PixelUnit × Bool :=
  let e := alGet s.rd.tex u.tex
  let lw := (e.map (·.log2w)).getD 0
  let lh := (e.map (·.log2h)).getD 0
  match s.texel u.tile u.tex (texCoord (u.lane a 0) lw) (texCoord (u.lane a 1) lh) with
  | some c => (u.put d fun i => halfOfQuot (c.getD i 0) 255, false)
  | none => (u.put d fun _ => 0, true)

/-- One instruction word (R378): the unit after it, and whether it counts in PROG_ERR and in TEX_ERR. -/
def State.pixelStep (s : State) (w : Nat) (u : PixelUnit) : PixelUnit × Bool × Bool :=
  let d := bits w 10 8
  let a := bits w 13 11
  let b := bits w 16 14
  let imm := bits w 31 17
  match bits w 7 0 with
  | 0x00 => (u.end_, false, false)
  | 0x01 => (u.un id d a, false, false)
  | 0x02 => (u.bin halfAdd d a b, false, false)
  | 0x03 => (u.bin halfMul d a b, false, false)
  | 0x04 => (u.mad d a b, false, false)
  | 0x05 => (u.bin halfMin d a b, false, false)
  | 0x06 => (u.bin halfMax d a b, false, false)
  | 0x07 => (u.un halfSat d a, false, false)
  | 0x08 => (u.swz d a imm, false, false)
  | 0x09 => (u.const d imm, false, false)
  | 0x0A => let r := s.pixelTex d a u; (r.1, false, r.2)
  | 0x0B => (u.kill a, false, false)
  | 0x0C => (u.un halfRcp d a, false, false)
  | _ => (u.end_, true, false)

/-- Instruction word i of program p on tile t (R378). A table that lies outside its partition gives no words: they are open.
DESIGN CHOICE (notes/assumptions/56.md). -/
def State.pixelWord (s : State) (t p i : Nat) : Nat :=
  match s.region t (s.reg R.rdProgPart) (256 * s.reg R.rdProgOff + 256 * p + 4 * i) 4 with
  | some a => s.tileNat t a 4
  | none => (Config.freeWord (s.freeCtr + i)).toNat % 2 ^ 32

/-- Run a pixel program to its end (R378): the unit, and the counts for PROG_ERR and TEX_ERR. -/
def State.runPixel (s : State) (p : Nat) : Nat → PixelUnit → PixelUnit × Nat × Nat
  | 0, u => (u, 0, 0)
  | n + 1, u =>
    if u.ended then (u, 0, 0)
    else
      let r := s.pixelStep (s.pixelWord u.tile p u.steps) u
      let q := s.runPixel p n r.1.stepped
      (q.1, q.2.1 + ofFlag r.2.1, q.2.2 + ofFlag r.2.2)

/-- One instruction of the pixel in hand; a program that has ended runs nothing more (R378). -/
def State.pixelOp (s : State) (f : PixelUnit → PixelUnit) : State :=
  if s.rd.px.ended then s else s.modRd fun r => { r with px := (f r.px).stepped }

/-- END (R378). -/
def execEndOp (s : State) : Out := .next (s.pixelOp PixelUnit.end_)

/-- MOV (R378). -/
def execMov (d a : BitVec 3) (s : State) : Out := .next (s.pixelOp (PixelUnit.un id d.toNat a.toNat))

/-- ADD (R378). -/
def execAddOp (d a b : BitVec 3) (s : State) : Out := .next (s.pixelOp (PixelUnit.bin halfAdd d.toNat a.toNat b.toNat))

/-- MUL (R378). -/
def execMulOp (d a b : BitVec 3) (s : State) : Out := .next (s.pixelOp (PixelUnit.bin halfMul d.toNat a.toNat b.toNat))

/-- MAD (R378). -/
def execMad (d a b : BitVec 3) (s : State) : Out := .next (s.pixelOp (PixelUnit.mad d.toNat a.toNat b.toNat))

/-- MIN (R378). -/
def execMinOp (d a b : BitVec 3) (s : State) : Out := .next (s.pixelOp (PixelUnit.bin halfMin d.toNat a.toNat b.toNat))

/-- MAX (R378). -/
def execMaxOp (d a b : BitVec 3) (s : State) : Out := .next (s.pixelOp (PixelUnit.bin halfMax d.toNat a.toNat b.toNat))

/-- SAT (R378). -/
def execSat (d a : BitVec 3) (s : State) : Out := .next (s.pixelOp (PixelUnit.un halfSat d.toNat a.toNat))

/-- SWZ (R378). -/
def execSwz (d a : BitVec 3) (imm : BitVec 15) (s : State) : Out := .next (s.pixelOp (PixelUnit.swz d.toNat a.toNat imm.toNat))

/-- CONST (R378). -/
def execConstOp (d : BitVec 3) (imm : BitVec 15) (s : State) : Out := .next (s.pixelOp (PixelUnit.const d.toNat imm.toNat))

/-- TEX (R378, R397): an invalid slot counts in TEX_ERR. -/
def execTex (d a : BitVec 3) (s : State) : Out :=
  .next (if s.rd.px.ended then s else
    let r := s.pixelTex d.toNat a.toNat s.rd.px
    let s := s.modRd fun x => { x with px := r.1.stepped }
    if r.2 then s.bump R.rdCntCount 12 else s)

/-- KILL (R378). -/
def execKill (a : BitVec 3) (s : State) : Out := .next (s.pixelOp (PixelUnit.kill a.toNat))

/-- RCP (R378). -/
def execRcp (d a : BitVec 3) (s : State) : Out := .next (s.pixelOp (PixelUnit.un halfRcp d.toNat a.toNat))

end Sys2Proof.Machine
end

