-- ==== Sys2Proof/Machine/Raster.lean ====
section
/-! DEFINITION. Geometry of the renderer (R372, R373, R375, R376): projection, bounds, coverage. Positions are in 1/16 pixel. -/
namespace Sys2Proof.Machine

/-- Columns of 32-pixel screen tiles, and rows (R375, R388). -/
def State.screenTiles (s : State) : Nat × Nat := (ceilDiv (s.reg R.rdScreenWM1 + 1) 32, ceilDiv (s.reg R.rdScreenHM1 + 1) 32)

/-- The screen position of a point in 1/16 pixel (R372, R373): screen pixels in signed 12.4, or sea-plane dm through a transform
slot; none where w < 1/256. DESIGN CHOICE (notes/assumptions/56.md). -/
def State.screenPoint (s : State) (world : Bool) (xf x y : Nat) : Option (Int × Int) :=
  let px := toSigned 16 x
  let py := toSigned 16 y
  if !world then some (px, py)
  else
    let m := (alGet s.rd.xf xf).getD []
    let row := fun i => m.getD (4 * i) 0 * px + m.getD (4 * i + 1) 0 * py + m.getD (4 * i + 3) 0
    let w := row 2
    if w < 256 then none else some (openDiv 373 (16 * row 0) w, openDiv 373 (16 * row 1) w)

/-- A vertex cell (R372). -/
def State.vertex (s : State) (world : Bool) (xf : Nat) (c : Cell64) : Option Vertex :=
  let v := c.toNat
  (s.screenPoint world xf (bits v 15 0) (bits v 31 16)).map fun p => { x := p.1, y := p.2, u := bits v 47 32, v := bits v 63 48 }

/-- A glyph quad of two cells (R372): its first pixel is the one whose centre is not left of or above the corner.
DESIGN CHOICE (notes/assumptions/56.md). -/
def State.glyph (s : State) (world : Bool) (xf : Nat) (c0 c1 : Cell64) : Option Prim :=
  let a := c0.toNat
  let b := c1.toNat
  (s.screenPoint world xf (bits a 15 0) (bits a 31 16)).map fun p =>
    .glyph ((p.1 + 16 * toSigned 16 (bits a 47 32) + 7) / 16) ((p.2 + 16 * toSigned 16 (bits a 63 48) + 7) / 16) (bits b 15 0) (bits b 31 16)
      (bits b 47 32) (bits b 63 48)

/-- What a covered pixel gives to C1 (R376, R378): fractions over a denominator, or a texel of the slot. -/
inductive Frag where
  | frac (u v : Int) (den : Nat)
  | texel (u v : Nat)
  deriving DecidableEq, Repr

/-- Twice the area of a triangle, signed: positive where it winds from right to down. -/
def cross2 (ax ay bx by_ px py : Int) : Int := (bx - ax) * (py - ay) - (by_ - ay) * (px - ax)

/-- Where the segment from p to q, in either axis order, meets the line at `at_` of its first coordinate, within 0 to h of the
second: that coordinate, rounded down. -/
def meets (p q : Int × Int) (at_ h : Int) : Option Int :=
  let d := q.1 - p.1
  if d = 0 ∨ at_ < min p.1 q.1 ∨ max p.1 q.1 < at_ then none
  else
    let n := (p.2 * d + (q.2 - p.2) * (at_ - p.1)) * d.sign
    let m : Int := d.natAbs
    if 0 ≤ n ∧ n ≤ h * m then some (n / m) else none

/-- The points where a segment meets the border of a screen of w by h. -/
def borderPoints (w h : Int) (p q : Int × Int) : List (Int × Int) :=
  ([0, w].filterMap fun x => (meets p q x h).map fun y => (x, y)) ++
  ([0, h].filterMap fun y => (meets (p.2, p.1) (q.2, q.1) y w).map fun x => (x, y))

/-- The smallest rectangle around some points: left, top, right, bottom. -/
def hull : List (Int × Int) → Option (Int × Int × Int × Int)
  | [] => none
  | p :: t => some (t.foldl (fun r q => (min r.1 q.1, min r.2.1 q.2, max r.2.2.1 q.1, max r.2.2.2 q.2)) (p.1, p.2, p.1, p.2))

/-- A corner of the screen lies in a triangle. -/
def inTriangle (a b c p : Int × Int) : Bool :=
  let e := fun (a b : Int × Int) => cross2 a.1 a.2 b.1 b.2 p.1 p.2
  decide (cross2 a.1 a.2 b.1 b.2 c.1 c.2 ≠ 0) &&
  ((decide (0 ≤ e a b) && decide (0 ≤ e b c) && decide (0 ≤ e c a)) || (decide (e a b ≤ 0) && decide (e b c ≤ 0) && decide (e c a ≤ 0)))

/-- The bounding rectangle of a primitive, taken after clipping to a screen of w by h in 1/16 pixel and then widened by LW/2 for a
line: left, top, right, bottom, both ends included; none where nothing of it is left (R375).
DESIGN CHOICE (notes/assumptions/56.md). -/
def Prim.bounds (w h : Int) : Prim → Option (Int × Int × Int × Int)
  | .tri a b c =>
    let l := [(a.x, a.y), (b.x, b.y), (c.x, c.y)]
    let inside := l.filter fun p => decide (0 ≤ p.1) && decide (p.1 ≤ w) && decide (0 ≤ p.2) && decide (p.2 ≤ h)
    let corners := [(0, 0), (w, 0), (0, h), (w, h)].filter (inTriangle (a.x, a.y) (b.x, b.y) (c.x, c.y))
    let edge := fun (p q : Vertex) => borderPoints w h (p.x, p.y) (q.x, q.y)
    hull (inside ++ corners ++ edge a b ++ edge b c ++ edge c a)
  | .line a b lw =>
    let inside := [(a.x, a.y), (b.x, b.y)].filter fun p => decide (0 ≤ p.1) && decide (p.1 ≤ w) && decide (0 ≤ p.2) && decide (p.2 ≤ h)
    (hull (inside ++ borderPoints w h (a.x, a.y) (b.x, b.y))).map fun r =>
      (r.1 - 8 * (lw : Int), r.2.1 - 8 * (lw : Int), r.2.2.1 + 8 * (lw : Int), r.2.2.2 + 8 * (lw : Int))
  | .glyph x y _ _ gw gh =>
    let r := (max 0 (16 * x), max 0 (16 * y), min w (16 * (x + (gw : Int))) - 1, min h (16 * (y + (gh : Int))) - 1)
    if r.1 ≤ r.2.2.1 ∧ r.2.1 ≤ r.2.2.2 then some r else none

/-- The screen tiles that a primitive's rectangle touches (R375). -/
def State.touched (s : State) (p : Prim) : List Nat :=
  match p.bounds (16 * (s.reg R.rdScreenWM1 + 1 : Nat)) (16 * (s.reg R.rdScreenHM1 + 1 : Nat)) with
  | none => []
  | some (x0, y0, x1, y1) =>
    let (cols, rows) := s.screenTiles
    let span := fun (a b : Int) (n : Nat) => (List.range n).filter fun (i : Nat) => decide (a / 512 ≤ (i : Int)) && decide ((i : Int) ≤ b / 512)
    (span y0 y1 rows).flatMap fun r => (span x0 x1 cols).map fun c => r * cols + c

/-- A point is on the inner side of an edge from a to b, or on it where it is a top or a left edge (R376).
DESIGN CHOICE (notes/assumptions/56.md). -/
def edgeIn (ax ay bx by_ px py : Int) : Bool :=
  let e := cross2 ax ay bx by_ px py
  decide (0 < e) || (decide (e = 0) && (decide (by_ < ay) || (decide (by_ = ay) && decide (ax < bx))))

/-- Coverage of a triangle that winds positively. DESIGN CHOICE (notes/assumptions/56.md). -/
def triCover (a b c : Vertex) (px py : Int) : Option Frag :=
  if edgeIn a.x a.y b.x b.y px py && edgeIn b.x b.y c.x c.y px py && edgeIn c.x c.y a.x a.y px py then
    let wa := cross2 b.x b.y c.x c.y px py
    let wb := cross2 c.x c.y a.x a.y px py
    let wc := cross2 a.x a.y b.x b.y px py
    let area := cross2 a.x a.y b.x b.y c.x c.y
    some (.frac (wa * a.u + wb * b.u + wc * c.u) (wa * a.v + wb * b.v + wc * c.v) (65536 * area.toNat))
  else none

/-- A point within a half-plane that ends at a bound: on the bound where the outward normal points left, or up (R376).
DESIGN CHOICE (notes/assumptions/56.md). -/
def halfIn (v bound nx ny : Int) : Bool :=
  decide (v < bound) || (decide (v = bound) && (decide (nx < 0) || (decide (nx = 0) && decide (ny < 0))))

/-- Coverage of a line: the rectangle of its width centred on the segment (R376). DESIGN CHOICE (notes/assumptions/56.md). -/
def lineCover (a b : Vertex) (w : Nat) (px py : Int) : Option Frag :=
  let dx := b.x - a.x
  let dy := b.y - a.y
  let len2 := dx * dx + dy * dy
  let t := (px - a.x) * dx + (py - a.y) * dy
  let c := dx * (py - a.y) - dy * (px - a.x)
  let lim := (8 * (w : Int)) * (8 * w) * len2
  let side := if 0 ≤ c then halfIn (c * c) lim (-dy) dx else halfIn (c * c) lim dy (-dx)
  if len2 ≠ 0 ∧ side ∧ halfIn (-t) 0 (-dx) (-dy) ∧ halfIn t len2 dx dy then
    let mix := fun (p q : Nat) => (p : Int) * (len2 - t) + q * t
    some (.frac (mix a.u b.u) (mix a.v b.v) (65536 * len2.toNat))
  else none

/-- Coverage of pixel (x, y) by a primitive: by its centre (R376). -/
def Prim.cover (x y : Nat) : Prim → Option Frag
  | .tri a b c =>
    let px : Int := 16 * x + 8
    let py : Int := 16 * y + 8
    let area := cross2 a.x a.y b.x b.y c.x c.y
    if area = 0 then none else if 0 < area then triCover a b c px py else triCover a c b px py
  | .line a b w => lineCover a b w (16 * x + 8) (16 * y + 8)
  | .glyph gx gy u0 v0 w h =>
    let i : Int := x - gx
    let j : Int := y - gy
    if 0 ≤ i ∧ i < w ∧ 0 ≤ j ∧ j < h then some (.texel (u0 + i.toNat) (v0 + j.toNat)) else none

end Sys2Proof.Machine
end

