-- ==== Sys2Proof/Machine/Renderer.lean ====
section
/-! DEFINITION. The renderer's commands: draw lists, binning, frames, screen tiles (R369 to R380, R384, R385, R388 to R397). -/
namespace Sys2Proof.Machine

/-! ## Frames and bin memory (R369, R375, R385, R394) -/

/-- Change the open frame. -/
def State.modOpen (s : State) (f : RFrame → RFrame) : State := s.modRd fun r => { r with openF := f r.openF }

/-- Blocks that a frame uses. -/
def RFrame.blocks (f : RFrame) : List Nat := f.recs.map (·.1) ++ f.binBlocks.map (·.1)

/-- Blocks in use. -/
def State.usedBlocks (s : State) : List Nat := s.rd.openF.blocks ++ ((s.rd.sealed.map RFrame.blocks).getD [])

/-- RD_BIN follows the blocks in use (R399). -/
def State.showBin (s : State) : State :=
  let n := s.usedBlocks.length
  let s := s.setReg R.rdBinUsed n
  if s.reg R.rdBinPeak < n then s.setReg R.rdBinPeak n else s

/-- A free block of bin memory (R375). DESIGN CHOICE (notes/assumptions/55.md). -/
def State.freeBlock (s : State) : Option Nat :=
  let used := s.usedBlocks
  if 32768 ≤ used.length then none else some (firstFree used.length used 32768 0)

/-- FLAGS of the renderer's records (R369). -/
def RFrame.flags (f : RFrame) (parity : Bool) : Nat := f.no % 4096 + 4096 * ofFlag parity

/-- The items of a frame that have not ended get one record each (R391, R394, R396): POISON for the draws named, the reason
for the others. DESIGN CHOICE (notes/assumptions/55.md). -/
def State.endFrame (s : State) (f : RFrame) (reason : Nat) (poisoned : List Nat) (parity : Bool) : State :=
  let s := match f.under with
    | some u => s.report u.1 reason 0 (f.flags parity)
    | none => s
  f.draws.zipIdx.foldl (fun (s : State) e =>
    if e.1.ended then s
    else if poisoned.contains e.2 then s.report e.1.item 0x02 e.1.layer (f.flags false)
    else s.report e.1.item reason e.1.layer (f.flags parity)) s

/-- The open frame is dropped (R388, R394, R396). -/
def State.dropOpen (s : State) (poisoned : List Nat) (parity : Bool) : State :=
  let f := s.rd.openF
  let s := s.endFrame f 0x03 poisoned parity
  let s := s.modRd fun r =>
    { r with openF := { no := f.no, dropped := true, parity := parity }, list := r.list.map fun l => { l with draw := none } }
  s.showBin

/-- A draw call is created (R369, R388, R394): its place in the open frame, or none where the frame is dropped.
DESIGN CHOICE (notes/assumptions/55.md). -/
def State.newDraw (s : State) (layer : Nat) (d : ItemId → Draw) : Option Nat × State :=
  let item := s.nextItem (0x70 + layer)
  let s := (s.takeItem (0x70 + layer)).bump R.rdCntCount 6
  let s := if !s.rd.openF.dropped && decide (4096 ≤ s.rd.openF.draws.length) then s.dropOpen [] false else s
  if s.rd.openF.dropped then (none, s.report item 0x03 layer (s.rd.openF.flags s.rd.openF.parity))
  else (some s.rd.openF.draws.length, s.modOpen fun f => { f with draws := f.draws ++ [d item] })

/-- Change a draw of the open frame. -/
def State.modDraw (s : State) (i : Nat) (f : Draw → Draw) : State := s.modOpen fun r => { r with draws := r.draws.modify i f }

/-- One entry enters the bin of a screen tile (R375): a bin takes a block for every 15 entries. -/
def State.addEntry (s : State) (i k tile : Nat) : State :=
  if s.rd.openF.dropped then s
  else
    let n := (s.rd.openF.bins.filter (·.1 = tile)).length
    let s := if n % 15 ≠ 0 then s
      else
        match s.freeBlock with
        | none => s.dropOpen [] false
        | some b => (s.modOpen fun f => { f with binBlocks := f.binBlocks ++ [(b, tile, n / 15)] }).showBin
    if s.rd.openF.dropped then s else s.modOpen fun f => { f with bins := f.bins ++ [(tile, i, k)] }

/-- A primitive of draw i is binned (R375, R380, R389, R394). -/
def State.binPrim (s : State) (i : Nat) (p : Prim) : State :=
  if s.rd.openF.dropped then s
  else
    match s.freeBlock with
    | none => s.dropOpen [] false
    | some b =>
      let k := ((s.rd.openF.draws[i]?.map (·.prims.length))).getD 0
      let s := (s.modDraw i fun d => { d with prims := d.prims ++ [p] }).modOpen fun f => { f with recs := f.recs ++ [(b, i, k)] }
      (s.touched p).foldl (fun (s : State) t => s.addEntry i k t) s.showBin

/-- The primitives of draw i, in order; one with a vertex at w < 1/256 is discarded (R373).
DESIGN CHOICE (notes/assumptions/55.md). -/
def State.binAll (s : State) (i : Nat) (hidden : Bool) (ps : List (Option Prim)) : State :=
  ps.foldl (fun (s : State) p =>
    let s := s.bump R.rdCntCount 7
    match p with
    | none => s.bump R.rdCntCount 8
    | some p => if hidden then s else s.binPrim i p) s

/-! ## Draw lists (R370, R371, R395) -/

/-- PRIM of an H0 cell. -/
def h0Prim (h : Cell64) : Nat := bits h.toNat 3 0

/-- NPRIM of an H0 cell. -/
def h0Count (h : Cell64) : Nat := bits h.toNat 47 32

/-- The cells of a group (R371). -/
def groupCells (h : Cell64) : Nat :=
  match h0Prim h with
  | 0 => 2 + 3 * h0Count h
  | 1 => 4 + h0Count h
  | 2 => 2 + 2 * h0Count h
  | 3 => 2 + 2 * h0Count h
  | 4 => 7
  | _ => 1

/-- An H0 cell keeps R371: no bit set that is not named, every field in its range. DESIGN CHOICE (notes/assumptions/55.md). -/
def h0Ok (h : Cell64) : Bool :=
  let v := h.toNat
  let draw := decide (bits v 6 4 ≤ 4) && decide (bits v 17 16 ≤ 2) && bits v 31 27 == 0 && bits v 63 48 == 0
  match h0Prim h with
  | 0 => draw && bits v 21 18 == 0
  | 1 => draw && bits v 21 18 == 0
  | 2 => draw
  | 3 => draw && bits v 21 18 == 0
  | 4 => bits v 7 4 == 0 && bits v 63 12 == 0
  | 5 => bits v 21 4 == 0 && bits v 31 29 == 0 && decide (bits v 28 27 ≤ 1) && decide (2 ≤ bits v 35 32) && decide (bits v 35 32 ≤ 10) &&
      decide (2 ≤ bits v 39 36) && decide (bits v 39 36 ≤ 10)
  | _ => false

/-- Change the list in hand. -/
def State.modList (s : State) (f : DrawList → DrawList) : State := s.modRd fun r => { r with list := r.list.map f }

/-- The group in hand has all its cells. -/
def DrawList.full (l : DrawList) : Bool :=
  match l.cells with
  | [] => false
  | h :: _ => decide (groupCells h.1 ≤ l.cells.length)

/-- The draw of the group in hand ends POISON (R395). -/
def State.poisonDraw (s : State) : State :=
  match s.rd.list.bind (·.draw) with
  | none => s
  | some i =>
    match s.rd.openF.draws[i]? with
    | some d => if d.ended then s else
        (s.report d.item 0x02 d.layer (s.rd.openF.flags false)).modDraw i fun d => { d with ended := true }
    | none => s

/-- The rest of a list is discarded as behind a poisoned H0 (R395): a group that breaks R371 counts in PROG_ERR. -/
def State.breakList (s : State) (item : ItemId) : State :=
  (((s.bump R.rdCntCount 11).markPoisoned item).poisonDraw).modList fun l => { l with cells := [], skip := true, draw := none }

/-- The H0 cell of a group is taken (R369, R371, R395): a draw call is created. DESIGN CHOICE (notes/assumptions/55.md). -/
def State.takeH0 (s : State) (d : Delivery) : State :=
  let v := d.data.toNat
  if d.tag = 1 then s.modList fun l => { l with skip := true }
  else if !(h0Ok d.data) then s.breakList d.item
  else
    let s := s.modList fun l => { l with cells := [(d.data, false)], draw := none }
    if 4 ≤ h0Prim d.data then s
    else
      let layer := bits v 6 4
      let r := s.newDraw layer fun i =>
        { item := i, layer := layer, prog := bits v 15 12, blend := bits v 17 16, tex := bits v 26 22, colour := 0, param := 0, prims := [] }
      r.2.modList fun l => { l with draw := r.1 }

/-- The EOP cell of a list is taken (R369, R371, R395): the list has ended; a group that it cuts short breaks R371.
DESIGN CHOICE (notes/assumptions/55.md). -/
def State.endList (s : State) (d : Delivery) : State :=
  let cut := match s.rd.list with | some l => !l.cells.isEmpty | none => false
  let s := if cut then s.breakList d.item else s
  (s.modRd fun r => { r with list := none }).endTaken 0x0C d.item false

/-- A cell of a draw list is taken from queue q (R250, R370, R395). -/
def State.listCell (s : State) (q : Nat) (d : Delivery) (got : Taken) : State :=
  if got = .gap then (if gapSrc d.data = 3 then s.modRd fun r => { r with list := none } else s)
  else if got = .discard then s
  else
    let s := if s.rd.list.isNone then s.modRd fun r => { r with list := some { queue := q } } else s
    match s.rd.list with
    | none => s
    | some l =>
      if d.eop then s.endList d
      else if l.skip then s
      else if l.cells.isEmpty then s.takeH0 d
      else s.modList fun l => { l with cells := l.cells ++ [(d.data, decide (d.tag = 1))] }

/-- A CLOSE has begun and is not finished (R374). -/
def State.closing (s : State) : Bool := s.pp.ops.any fun o => o.cls == 6 && o.begun && !o.done

/-- The enabled draw queue that the front end takes from (R370): that of the list in hand, else the lowest-numbered one that is
not empty; under a CLOSE, one with a cell that had landed when it was issued (R374). DESIGN CHOICE (notes/assumptions/55.md). -/
def State.drawQueue (s : State) : Option Nat :=
  match s.rd.list with
  | some l => some l.queue
  | none =>
    ((List.range 4).find? fun k => s.flag R.rdDrawqEn k && !((s.queue (s.reg R.rdDrawqQid k)).cells.isEmpty) &&
      (!s.closing || decide (0 < s.rd.want.getD k 0))).map fun k => s.reg R.rdDrawqQid k

/-- One cell fewer of draw queue q is wanted. -/
def State.wanted (s : State) (q : Nat) : State :=
  s.modRd fun r => { r with want := r.want.zipIdx.map fun e => if s.reg R.rdDrawqQid e.2 = q then e.1 - 1 else e.1 }

/-- The front end takes the next cell (R370). -/
def State.takeDraw (s : State) (u : Upset) : State :=
  match s.drawQueue with
  | none => s
  | some q =>
    match s.popFor 0x0C 0x63 q false u with
    | (none, s) => s
    | (some (d, got), s) => (s.wanted q).listCell q d got

/-- The renderer runs: its domain is on and it has not stopped binning (R471). -/
def State.rdRuns (s : State) : Bool := s.domOn 8 && !s.quiesced

/-- The group in hand waits to be handled. -/
def State.groupReady (s : State) : Bool := match s.rd.list with | some l => l.full | none => false

/-- DRAW_LIST_TAKE (R369, R370, R371, R388, R394, R395): the front end takes the next cell of its list. Behind a whole group it
waits until the group has been handled. DESIGN CHOICE (notes/assumptions/55.md). -/
def execDrawListTake (upset : Upset) (s : State) : Out :=
  .next (if !s.rdRuns || s.groupReady then s else s.takeDraw upset)

/-! ## Groups (R371 to R373) -/

/-- The vertices of cells in threes. -/
def threes : List (Option Vertex) → List (Option Prim)
  | a :: b :: c :: t => (match a, b, c with | some a, some b, some c => some (.tri a b c) | _, _, _ => none) :: threes t
  | _ => []

/-- The vertices of a strip: every three in a row. -/
def strip : List (Option Vertex) → List (Option Prim)
  | a :: b :: c :: t => (match a, b, c with | some a, some b, some c => some (.tri a b c) | _, _, _ => none) :: strip (b :: c :: t)
  | _ => []

/-- The vertices of lines in twos. -/
def twos (w : Nat) : List (Option Vertex) → List (Option Prim)
  | a :: b :: t => (match a, b with | some a, some b => some (.line a b w) | _, _ => none) :: twos w t
  | _ => []

/-- The glyph cells in twos. -/
def State.glyphs (s : State) (world : Bool) (xf : Nat) : List Cell64 → List (Option Prim)
  | a :: b :: t => s.glyph world xf a b :: s.glyphs world xf t
  | _ => []

/-- The primitives of a group (R371, R372). -/
def State.groupPrims (s : State) (h : Cell64) (cells : List Cell64) : List (Option Prim) :=
  let v := h.toNat
  let world := bitAt v 7
  let xf := bits v 11 8
  let n := h0Count h
  match h0Prim h with
  | 0 => threes (cells.map (s.vertex world xf))
  | 1 => if n = 0 then [] else strip (cells.map (s.vertex world xf))
  | 2 => twos (bits v 21 18 + 1) (cells.map (s.vertex world xf))
  | _ => s.glyphs world xf cells

/-- Handle the group in hand where it is whole and of a PRIM; one with a poisoned cell is not used (R395). -/
def State.withGroup (s : State) (prim : Nat) (run : Cell64 → List Cell64 → Option Nat → State → State) : State :=
  match s.rd.list with
  | none => s
  | some l =>
    match l.cells with
    | [] => s
    | h :: t =>
      if !l.full || h0Prim h.1 != prim then s
      else
        let s := if t.any (·.2) then s.poisonDraw else run h.1 (t.map (·.1)) l.draw s
        s.modList fun l => { l with cells := [], draw := none }

/-- A draw call is binned (R371, R375, R380). -/
def State.binGroup (s : State) (h : Cell64) (cells : List Cell64) (draw : Option Nat) : State :=
  match cells with
  | [] => s
  | h1 :: t =>
    match draw with
    | none => s.bump R.rdCntCount 7 0 (s.groupPrims h t).length
    | some i =>
      let c := h1.toNat
      let s := s.modDraw i fun d => { d with colour := bits c 31 0, param := bits c 63 32 }
      s.binAll i (!(bitAt (s.reg R.rdLayerEn) (bits h.toNat 6 4))) (s.groupPrims h t)

/-- A transform slot is set (R373): coefficients in signed 16.16, row-major. -/
def State.setTransform (s : State) (h : Cell64) (cells : List Cell64) : State :=
  let m := cells.flatMap fun c => [toSigned 32 (bits c.toNat 31 0), toSigned 32 (bits c.toNat 63 32)]
  s.modRd fun r => { r with xf := alPut r.xf (bits h.toNat 11 8) m }

/-- A texture slot is set (R371). -/
def State.setTexture (s : State) (h : Cell64) : State :=
  let v := h.toNat
  let x : TexSlot := { fmt := bits v 28 27, log2w := bits v 35 32, log2h := bits v 39 36, part := bits v 43 40, off := bits v 63 44 }
  s.modRd fun r => { r with tex := alPut r.tex (bits v 26 22) x }

/-- TRIANGLE_LIST (R369, R371 to R373, R375, R380, R388, R389, R394, R395). -/
def execTriangleList (s : State) : Out := .next (if s.rdRuns then s.withGroup 0 fun h c d s => s.binGroup h c d else s)

/-- TRIANGLE_STRIP (R369, R371 to R373, R375, R380, R388, R389, R394, R395). -/
def execTriangleStrip (s : State) : Out := .next (if s.rdRuns then s.withGroup 1 fun h c d s => s.binGroup h c d else s)

/-- LINE_LIST (R369, R371 to R373, R375, R380, R388, R389, R394, R395). -/
def execLineList (s : State) : Out := .next (if s.rdRuns then s.withGroup 2 fun h c d s => s.binGroup h c d else s)

/-- GLYPH_QUADS (R369, R371 to R373, R375, R380, R388, R389, R394, R395). -/
def execGlyphQuads (s : State) : Out := .next (if s.rdRuns then s.withGroup 3 fun h c d s => s.binGroup h c d else s)

/-- TRANSFORM (R371, R373, R395). -/
def execTransform (s : State) : Out := .next (if s.rdRuns then s.withGroup 4 fun h c _ s => s.setTransform h c else s)

/-- TEXTURE_SLOT (R371, R395, R397). -/
def execTextureSlot (s : State) : Out := .next (if s.rdRuns then s.withGroup 5 fun h _ _ s => s.setTexture h else s)

/-- The group in hand is handled, whatever its PRIM. -/
def State.anyGroup (s : State) : State :=
  match s.rd.list.bind (·.cells.head?) with
  | none => s
  | some h =>
    s.withGroup (h0Prim h.1) fun h c d s =>
      if h0Prim h = 4 then s.setTransform h c else if h0Prim h = 5 then s.setTexture h else s.binGroup h c d

/-! ## Render submits (R374, R385, R390, R391, R393, R394) -/

/-- The descriptor of a class-6 operation with its SUB, as a number (R374). -/
def State.renderOp (s : State) (k sub : Nat) : Option Nat :=
  match s.opAt k 6 with
  | some o =>
    let v := leNat (s.opData o (16 * o.opnd 43 24) 32)
    if bits v 3 0 = sub then some v else none
  | none => none

/-- UNDERPAINT (R369, R374, R394): the image item of the open frame, replacing an earlier one, which completes. -/
def execUnderpaint (k : Nat) (s : State) : Out :=
  .next (match s.renderOp k 0 with
    | none => s
    | some v =>
      let item := s.nextItem 0x70
      let s := s.takeItem 0x70
      let s := if s.rd.openF.dropped then s.report item 0x03 0 (s.rd.openF.flags s.rd.openF.parity)
        else
          let s := match s.rd.openF.under with
            | some u => s.complete u.1 0x0C
            | none => s
          s.modOpen fun f =>
            { f with under := some (item, bits v 127 64, bits v 139 128 + 1, bits v 151 140 + 1, bits v 153 152) }
      s.finishOp k)

/-- The front end takes every cell that it may, and handles every group (R374). DESIGN CHOICE (notes/assumptions/55.md). -/
def State.drainDraws (s : State) : Nat → State
  | 0 => s
  | n + 1 =>
    if s.groupReady then s.anyGroup.drainDraws n
    else
      match s.drawQueue with
      | none => s
      | some q => if (s.queue q).cells.isEmpty then s else (s.takeDraw Upset.none).drainDraws n

/-- Twice the cells in the draw queues: enough steps to take and handle them all. -/
def State.drawWork (s : State) : Nat :=
  2 + 2 * (((List.range 4).map fun k => (s.queue (s.reg R.rdDrawqQid k)).cells.length).foldl (· + ·) 0)

/-- The cursor draw (R374, R380): a single glyph of slot 31 at RD_CURSOR, of the size of its texture.
DESIGN CHOICE (notes/assumptions/9.md). DESIGN CHOICE (notes/assumptions/56.md). -/
def State.cursor (s : State) : State :=
  if !(s.flag R.rdCursorEn) then s
  else
    let r := s.newDraw 5 fun i =>
      { item := i, layer := 5, prog := Config.cursorDraw 0 % 16, blend := Config.cursorDraw 1 % 3, tex := 31,
        colour := Config.cursorDraw 2 % 2 ^ 32, param := Config.cursorDraw 3 % 2 ^ 32, prims := [] }
    match r.1, alGet r.2.rd.tex 31 with
    | some i, some e =>
      r.2.binAll i false [some (.glyph (s.reg R.rdCursorX) (s.reg R.rdCursorY) 0 0 (2 ^ e.log2w) (2 ^ e.log2h))]
    | _, _ => r.2

/-- The sealed frame is given up: no screen tile of it is in progress any more. -/
def State.clearSealed (s : State) : State :=
  ((s.modRd fun r => { r with sealed := none, sides := r.sides.map fun x => { x with screen := none, entries := 0 } }).setReg R.rdStatusSealed 0).showBin

/-- An unfinished sealed frame is superseded (R391). -/
def State.supersede (s : State) : State :=
  match s.rd.sealed with
  | none => s
  | some f => ((s.endFrame f 0x12 [] false).clearSealed).bump R.rdCntCount 4

/-- The frame buffer that is neither front nor ready (R385). DESIGN CHOICE (notes/assumptions/55.md). -/
def State.freeBuffer (s : State) : Nat :=
  ((List.range 3).find? fun b => s.rd.frontBuf != some b && (s.rd.readyF.map (·.buffer)) != some b).getD 0

/-- Draws of a frame whose entries have all gone complete (R369). -/
def State.completeDraws (s : State) (f : RFrame) : RFrame × State :=
  let done := fun (e : Draw × Nat) => !e.1.ended && !(f.bins.any fun b => b.2.1 == e.2)
  let items := (f.draws.zipIdx.filter done).map (·.1.item)
  ({ f with draws := f.draws.zipIdx.map fun e => if done e then { e.1 with ended := true } else e.1 },
   items.foldl (fun (s : State) i => s.complete i 0x0C) s)

/-- The open frame is sealed and the next one opens (R369, R374, R385, R394). -/
def State.seal (s : State) : State :=
  let f := s.rd.openF
  let next : RFrame := { no := (f.no + 1) % 65536 }
  let open_ := fun (s : State) => ((s.modRd fun r => { r with openF := next }).setReg R.rdFrameOpen next.no).showBin
  if f.dropped then open_ (s.bump R.rdCntCount 3)
  else
    let s := s.supersede
    let (cols, rows) := s.screenTiles
    let tiles := List.range (cols * rows)
    let f := { f with buffer := s.freeBuffer, todo := tiles, left := tiles }
    let (f, s) := s.completeDraws f
    open_ (((s.modRd fun r => { r with sealed := some f }).setReg R.rdStatusSealed 1).bump R.rdCntCount 0)

/-- The moment of a CLOSE (R374): the cells that have landed in each draw queue. DESIGN CHOICE (notes/assumptions/55.md). -/
def State.beginClose (s : State) (k : Nat) : State :=
  (s.modOp k fun o => { o with begun := true }).modRd fun r =>
    { r with want := (List.range 4).map fun i => (s.queue (s.reg R.rdDrawqQid i)).cells.length }

/-- CLOSE (R369, R374, R385, R390, R391, R393, R394): it waits while a list in hand has cells still to land, and goes on with what
had landed at its moment when issued again. DESIGN CHOICE (notes/assumptions/55.md). -/
def execCloseFrame (k : Nat) (s : State) : Out :=
  .next (match s.renderOp k 1, s.opAt k 6 with
    | some _, some o =>
      let s := if o.begun then s else s.beginClose k
      let s := s.drainDraws s.drawWork
      if s.rd.list.isSome || s.drawQueue.isSome then s else (s.cursor.seal).finishOp k
    | _, _ => s)

/-! ## Screen tiles (R168, R376 to R380, R384, R385, R390, R396, R397) -/

/-- Compute work waits at a boundary of tile t (R384). DESIGN CHOICE (notes/assumptions/58.md). -/
def State.computeWaits (s : State) (t : Nat) : Bool := decide (0 < s.blocksLeft t)

/-- The window over a group closes: its close operation has begun, or a step seam is reached (R168).
DESIGN CHOICE (notes/assumptions/58.md). -/
def State.windowCloses (s : State) (g : Nat) : Bool :=
  s.seamReached || s.pp.ops.any fun o => o.cls == 8 && o.begun && !o.done && o.opnd 24 24 == 1 && o.opnd 30 25 == g

/-- SCREEN_TILE_TAKE (R168, R172, R384): the render side of tile t takes the next screen tile; a contested decision may go to
compute, which then streams one block. DESIGN CHOICE (notes/assumptions/58.md). -/
def execScreenTileTake (t : Nat) (s : State) : Out :=
  .next (match s.rd.sides.find? (·.tile = t), s.rd.sealed with
    | some x, some f =>
      match f.todo with
      | [] => s
      | n :: rest =>
        if x.screen.isSome || s.windowCloses x.group || !s.rdRuns || s.role t != 2 || s.tileWaits t then s
        else
          let contested := s.computeWaits t
          let wins := !contested || decide (x.decisions % 8 < (alGet s.rd.prios x.group).getD 0)
          let s := if contested then s.modSide t fun x => { x with decisions := x.decisions + 1 } else s
          if wins then
            let s := (s.modSide t fun x => { x with screen := some n, entries := (f.bins.filter (·.1 = n)).length }).modRd fun r =>
              { r with sealed := r.sealed.map fun f => { f with todo := rest } }
            if contested then s.bump R.deTCntCount t 8 else s
          else (s.bump R.rdCntCount 10).streamed t 1
    | _, _ => s)

/-- The UNDERPAINT colour of a pixel (R374, R376): R, G, B. A map value below 0 has no tint.
DESIGN CHOICE (notes/assumptions/56.md). -/
def State.underColour (s : State) (f : RFrame) (x y : Nat) : List Nat :=
  match f.under with
  | none => [0, 0, 0]
  | some (_, mem, w, h, rate) =>
    if !(bitAt (s.reg R.rdLayerEn) 0) then [0, 0, 0]
    else
      let mx := x * w / (s.reg R.rdScreenWM1 + 1)
      let my := y * h / (s.reg R.rdScreenHM1 + 1)
      let a := mem + (my / 4 * ceilDiv w 4 + mx / 4) * 32 * blockBytes rate
      let v := (decodeBlock rate (s.ext.readBytes a (blockBytes rate))).getD (4 * (my % 4) + mx % 4) 0
      let c := if v < 0 then (Config.freeWord s.freeCtr).toNat else s.reg R.rdTintRgb v.toNat
      [bits c 7 0, bits c 15 8, bits c 23 16]

/-- Blend one colour channel (R378): c is C7, a its alpha, l the layer alpha, d the present value. A channel that is no number
is open. DESIGN CHOICE (notes/assumptions/56.md). -/
def blendChannel (mode l : Nat) (c a : BitVec 16) (d : Nat) : Nat :=
  match halfVal c, halfVal a with
  | some n, some m =>
    let one : Int := 2 ^ 24
    let src := n * m * l
    let v := if mode = 0 then openRound 378 (255 * n) one
      else if mode = 1 then openRound 378 (255 * src + d * (255 * one - m * l) * one) (255 * one * one)
      else openRound 378 (src + d * one * one) (one * one)
    (max 0 (min 255 v)).toNat
  | _, _ => (Config.halfOpen 14 c a).toNat % 256

/-- The registers that a program finds on entry (R378). DESIGN CHOICE (notes/assumptions/8.md). -/
def State.pixelEntry (s : State) (t : Nat) (d : Draw) (g : Frag) (x y : Nat) (dst : List Nat) : PixelUnit :=
  let lanes := fun (l : List Nat) => l.map fun v => halfOfQuot (v : Nat) 255
  let at_ := fun (v : Nat) => if Config.pixelCentre then halfOfQuot (2 * v + 1) 2 else halfOfQuot v 1
  let uv := match g with
    | .frac u v n => [halfOfQuot u n, halfOfQuot v n]
    | .texel u v =>
      match alGet s.rd.tex d.tex with
      | some e => [halfOfQuot u (2 ^ e.log2w), halfOfQuot v (2 ^ e.log2h)]
      | none => [Config.halfOpen 13 (BitVec.ofNat 16 u) 0, Config.halfOpen 13 (BitVec.ofNat 16 v) 1]
  let byte := fun (v k : Nat) => bits v (8 * k + 7) (8 * k)
  { regs := [lanes ((List.range 4).map (byte d.colour)), uv ++ [at_ x, at_ y], lanes (dst ++ [255]), lanes ((List.range 4).map (byte d.param))]
      ++ List.replicate 4 [0, 0, 0, 0],
    tex := d.tex, tile := t }

/-- The layer alpha of a draw (R378, R380). -/
def State.layerAlpha (s : State) (layer : Nat) : Nat :=
  match layer with
  | 1 => s.reg R.rdLayerAlphaG0
  | 2 => s.reg R.rdLayerAlphaG1
  | 3 => s.reg R.rdLayerAlphaG2
  | 4 => s.reg R.rdLayerAlphaG3
  | _ => 255

/-- A pixel in the making: its colour, the pixel unit that ran last, and the counts for PROG_ERR and TEX_ERR. -/
structure Shade where
  rgb : List Nat
  unit : PixelUnit
  prog : Nat := 0
  tex : Nat := 0
  deriving DecidableEq, Repr

/-- One entry at one pixel (R376 to R378). -/
def State.shadeEntry (s : State) (t x y : Nat) (h : Shade) (e : Draw × Prim) : Shade :=
  match e.2.cover x y with
  | none => h
  | some g =>
    let r := s.runPixel e.1.prog 64 (s.pixelEntry t e.1 g x y h.rgb)
    let u := r.1
    let l := s.layerAlpha e.1.layer
    let rgb := if u.killed then h.rgb else h.rgb.zipIdx.map fun c => blendChannel e.1.blend l (u.lane 7 c.2) (u.lane 7 3) c.1
    { rgb := rgb, unit := u, prog := h.prog + r.2.1, tex := h.tex + r.2.2 }

/-- The entries of a screen tile in order (R376): by layer, and in binning order within each. -/
def RFrame.entries (f : RFrame) (n : Nat) : List (Draw × Prim) :=
  let l := (f.bins.filter (·.1 = n)).filterMap fun b => (f.draws[b.2.1]?).bind fun d => (d.prims[b.2.2]?).map fun p => (d, p)
  sortBy (fun (a b : Draw × Prim) => decide (a.1.layer ≤ b.1.layer)) l

/-- The pixels of screen tile n, row by row, and the pixel unit and the counts after them (R376). Only pixels on the screen are
drawn. DESIGN CHOICE (notes/assumptions/56.md). -/
def State.shadeTile (s : State) (t : Nat) (f : RFrame) (n : Nat) : List (List Nat) × Shade :=
  let cols := s.screenTiles.1
  let es := f.entries n
  (List.range 1024).foldl (fun (r : List (List Nat) × Shade) i =>
    let x := 32 * (n % cols) + i % 32
    let y := 32 * (n / cols) + i / 32
    let on := decide (x ≤ s.reg R.rdScreenWM1) && decide (y ≤ s.reg R.rdScreenHM1)
    let base := s.underColour f (min x (s.reg R.rdScreenWM1)) (min y (s.reg R.rdScreenHM1))
    let h := (if on then es else []).foldl (s.shadeEntry t x y) { r.2 with rgb := base }
    (r.1 ++ [h.rgb], h)) ([], { rgb := [0, 0, 0], unit := s.rd.px })

/-- The external address of pixel (x, y) of a frame buffer (R385). -/
def State.fbAddr (s : State) (b x y : Nat) : Nat := 4096 * s.reg R.rdFbAddr b + 3 * (y * (s.reg R.rdScreenWM1 + 1) + x)

/-- Write out a screen tile (R376): the RGBA8 buffer at RD_TBUF, and the pixels on the screen as RGB888. -/
def State.writeTile (s : State) (t : Nat) (f : RFrame) (n : Nat) (px : List (List Nat)) : State :=
  let cols := s.screenTiles.1
  let byte := fun (c : List Nat) => c.map (BitVec.ofNat 8)
  let s := match s.region t (s.reg R.rdTbufPart) (256 * s.reg R.rdTbufOff) 4096 with
    | some a => s.tileWrite t a (px.flatMap fun c => byte (c ++ [255]))
    | none => s
  px.zipIdx.foldl (fun (s : State) e =>
    let x := 32 * (n % cols) + e.2 % 32
    let y := 32 * (n / cols) + e.2 / 32
    if x ≤ s.reg R.rdScreenWM1 ∧ y ≤ s.reg R.rdScreenHM1 then s.modExt fun m => m.writeBytes (s.fbAddr f.buffer x y) (byte e.1) else s) s

/-- A frame whose last screen tile has finished is ready (R369, R385): it replaces an older ready frame. -/
def State.frameReady (s : State) (f : RFrame) : State :=
  let s := match f.under with
    | some u => s.complete u.1 0x0C
    | none => s
  let s := if s.rd.readyF.isSome then s.bump R.rdCntCount 5 else s
  (s.clearSealed.modRd fun r => { r with readyF := some f }).setReg R.rdStatusReady 1

/-- Screen tile n of the sealed frame has finished (R369, R375, R385): its blocks are released. -/
def State.tileFinished (s : State) (f : RFrame) (n : Nat) : State :=
  let bins := f.bins.filter (·.1 ≠ n)
  let f := { f with bins := bins, left := f.left.filter (· ≠ n), binBlocks := f.binBlocks.filter (fun b => b.2.1 ≠ n),
                    recs := f.recs.filter fun r => bins.any fun b => b.2.1 == r.2.1 && b.2.2 == r.2.2 }
  let (f, s) := s.completeDraws f
  let s := (s.modRd fun r => { r with sealed := some f }).showBin
  if f.left.isEmpty then s.frameReady f else s

/-- The draws with a record or an entry in a failing block (R396). -/
def RFrame.hurt (f : RFrame) (blocks : List Nat) : List Nat :=
  ((f.recs.filter fun r => blocks.contains r.1).map (·.2.1)) ++
  (f.binBlocks.filter fun b => blocks.contains b.1).flatMap fun b =>
    (((f.bins.filter (·.1 = b.2.1)).drop (15 * b.2.2)).take 15).map (·.2.1)

/-- Reads of bin memory that fail parity drop the frame that they belong to (R394, R396). -/
def State.binParity (s : State) (blocks : List Nat) : State :=
  let s := (s.setReg R.rdStatusParity 1).raise 0xE00004 10 1 0x0C
  let s := match s.rd.sealed with
    | some f =>
      if f.blocks.any blocks.contains then ((s.endFrame f 0x03 (f.hurt blocks) true).clearSealed).bump R.rdCntCount 3 else s
    | none => s
  if s.rd.openF.blocks.any blocks.contains then s.dropOpen (s.rd.openF.hurt blocks) true else s

/-- The last byte of the drawing buffer lies in installed memory (R11, R385). DESIGN CHOICE (notes/assumptions/30.md). -/
def State.fbInstalled (s : State) (b : Nat) : Bool := s.extOk (s.fbAddr b 0 0) (3 * (s.reg R.rdScreenWM1 + 1) * (s.reg R.rdScreenHM1 + 1))

/-- The screen tile that tile t has in hand is drawn and written out (R376 to R380, R397).
DESIGN CHOICE (notes/assumptions/16.md). -/
def State.drawTile (s : State) (t : Nat) (f : RFrame) (n : Nat) : State :=
  let r := s.shadeTile t f n
  let s := ((s.writeTile t f n r.1).tick).modRd fun x => { x with px := r.2.unit }
  let s := (s.bump R.rdCntCount 11 0 r.2.prog).bump R.rdCntCount 12 0 r.2.tex
  let bad := decide (0 < r.2.prog)
  let s := if bad && !f.progErr then s.raise 0xE000AC 0 1 0x0C else s
  s.tileFinished { f with progErr := f.progErr || bad } n

/-- SCREEN_TILE_DONE (R369, R375 to R380, R384, R385, R390, R396, R397): the screen tile in hand of tile t finishes, behind the
contested decisions at the ends of its entries.
`parityBlocks` are the blocks of bin memory whose reads fail. A frame buffer above the installed memory cannot be written.
DESIGN CHOICE (notes/assumptions/30.md). DESIGN CHOICE (notes/assumptions/58.md). -/
def execScreenTileDone (t : Nat) (parityBlocks : List Nat) (s : State) : Out :=
  match s.rd.sides.find? (·.tile = t), s.rd.sealed with
  | some x, some f =>
    match x.screen with
    | none => .next s
    | some n =>
      let s := (s.contest t).modSide t fun x => { x with screen := none, entries := 0 }
      if f.blocks.any parityBlocks.contains then .next (s.binParity parityBlocks)
      else if !(s.fbInstalled f.buffer) then .fault (.absentExternal (s.fbAddr f.buffer 0 0))
      else .next (s.drawTile t f n)
  | some _, none => .next (s.modSide t fun x => { x with screen := none, entries := 0 })
  | none, _ => .next s

end Sys2Proof.Machine
end

