-- ==== Sys2Proof/Machine/Display.lean ====
section
/-! DEFINITION. The display port (R385 to R387, R392, R398, R399): frames, lines, video mode, DCS writes. -/
namespace Sys2Proof.Machine

/-- Lines of a frame (R387). -/
def State.vtotal (s : State) : Nat := s.reg R.rdDsiVVsa + s.reg R.rdDsiVVbp + (s.reg R.rdScreenHM1 + 1) + s.reg R.rdDsiVVfp

/-- The display port sends: its domain is on and video mode runs. -/
def State.scanning (s : State) : Bool := s.domOn 8 && s.flag R.rdStatusVideoOn && s.clockRuns

/-- The flip at a frame start (R385, R392): the ready frame becomes the front frame, or the front frame repeats.
DESIGN CHOICE (notes/assumptions/57.md). -/
def State.flip (s : State) : State :=
  match s.rd.readyF with
  | some f =>
    let s := s.modRd fun r => { r with readyF := none, front := some f.no, frontBuf := some f.buffer }
    ((s.setReg R.rdStatusReady 0).setReg R.rdFrameShown f.no).bump R.rdCntCount 1
  | none => if s.rd.front.isSome then s.bump R.rdCntCount 2 else s

/-- FRAME_START (R385, R387, R392): the frame period has passed; line 0 is due. -/
def execFrameStart (s : State) : Out :=
  .next (if !s.scanning || !(s.due .frame) then s
  else
    let s := (s.arm .frame (s.vtotal * s.reg R.rdDsiLineLineNs)).arm .line 0
    (s.modRd fun r => { r with line := 0 }).flip)

/-- The pixels of an active line as the port sends them (R385, R398): the front frame's, or black before the first flip and
behind the pixel where an underrun begins. Bytes above the installed memory are open.
DESIGN CHOICE (notes/assumptions/30.md). DESIGN CHOICE (notes/assumptions/57.md). -/
def State.linePixels (s : State) (y : Nat) (underrun : Bool) : List Byte :=
  let w := s.reg R.rdScreenWM1 + 1
  let n := if underrun then (Config.freeWord s.freeCtr).toNat % w else w
  match s.rd.frontBuf with
  | some b =>
    let a := s.fbAddr b 0 y
    (if s.extOk a (3 * n) then s.ext.readBytes a (3 * n) else (List.range (3 * n)).map fun i => Config.freeByte s.freeCtr (a + i)) ++
      List.replicate (3 * (w - n)) 0
  | none => List.replicate (3 * w) 0

/-- An underrun (R398): 60 within 1 s raise severity 1. -/
def State.underran (s : State) : State :=
  let now := s.devtime
  let l := (s.rd.underruns.filter fun t => decide (now < t + 1000000000)) ++ [now]
  let s := ((s.setReg R.rdStatusUnderrun 1).bump R.rdCntCount 9).modRd fun r => { r with underruns := if 60 ≤ l.length then [] else l }
  if 60 ≤ l.length then s.raise 0xE00004 9 1 0x0C else s

/-- DSI_LINE (R386, R387, R398): the next line starts, with VSS on the first line and HSS on the others, and an active line
sends its pixels. DESIGN CHOICE (notes/assumptions/57.md). -/
def execDsiLine (underrun : Bool) (s : State) : Out :=
  .next (if !s.scanning || !(s.due .line) then s
  else
    let n := s.rd.line
    let top := s.reg R.rdDsiVVsa + s.reg R.rdDsiVVbp
    let active := decide (top ≤ n) && decide (n < top + s.reg R.rdScreenHM1 + 1)
    let sync := [((if n = 0 then 0x01 else 0x21 : Nat), ([] : List Byte))]
    let pixels := if active then [((0x3E : Nat), s.linePixels (n - top) (underrun && s.rd.frontBuf.isSome))] else []
    let eot := if s.flag R.rdCtrlEotp then [((0x08 : Nat), ([] : List Byte))] else []
    let s := (s.tick).modRd fun r => { r with dsiOut := sync ++ pixels ++ eot, line := n + 1 }
    let s := if underrun && active && s.rd.frontBuf.isSome then s.underran else s
    if n + 1 < s.vtotal then s.arm .line (s.reg R.rdDsiLineLineNs) else s.disarm .line)

/-- The check of R387 on the line time, with the lanes and the rate that R386 supports.
DESIGN CHOICE (notes/assumptions/57.md). -/
def State.videoOk (s : State) : Bool :=
  let lanes := s.reg R.rdDsiCfgLanes
  let mbps := s.reg R.rdDsiCfgMbps
  let fixed := s.reg R.rdDsiHHsaNs + s.reg R.rdDsiHHbpNs + 600
  let line := s.reg R.rdDsiLineLineNs
  decide (1 ≤ lanes) && decide (lanes ≤ 4) && decide (80 ≤ mbps) && decide (mbps ≤ 1500) && decide (fixed ≤ line) &&
  decide ((3 * (s.reg R.rdScreenWM1 + 1) + 6) * 8 * 1000 ≤ (line - fixed) * (lanes * mbps))

/-- VIDEO (R386, R387): video mode starts, is refused with CFG_ERR, or ends. -/
def execVideo (on : Bool) (s : State) : Out :=
  .next (if !(s.domOn 8) then s
  else if !on then
    ((((s.setReg R.rdCtrlVideo 0).setReg R.rdStatusVideoOn 0).disarm .frame).disarm .line).modRd fun r => { r with dsiOut := [] }
  else if s.flag R.rdStatusVideoOn then s
  else if s.videoOk then ((s.setReg R.rdCtrlVideo 1).setReg R.rdStatusVideoOn 1).arm .frame 0
  else s.setReg R.rdStatusCfgErr 1)

/-- A DCS write of a data type is sent when RD_DCS_HDR.GO is written while VIDEO is 0 (R386, R399).
DESIGN CHOICE (notes/assumptions/57.md). -/
def State.dcsWrite (s : State) (dt : Nat) (data : List Byte) (rest : List Byte) : State :=
  if !(s.domOn 8) || !s.inRun || s.flag R.rdCtrlVideo || s.reg R.rdDcsHdrDt != dt then s
  else (s.setCmd R.rdDcsHdrGo).modRd fun r => { r with dsiOut := [(dt, data)], fifo := rest }

/-- DCS_SHORT_WRITE (R386): the command byte is the low byte of WC. DESIGN CHOICE (notes/assumptions/57.md). -/
def execDcsShortWrite (s : State) : Out := .next (s.dcsWrite 0x05 [BitVec.ofNat 8 (s.reg R.rdDcsHdrWc)] s.rd.fifo)

/-- DCS_SHORT_WRITE_PARAM (R386): the command byte and its parameter are the two bytes of WC.
DESIGN CHOICE (notes/assumptions/57.md). -/
def execDcsShortWriteParam (s : State) : Out := .next (s.dcsWrite 0x15 (leBytes 2 (s.reg R.rdDcsHdrWc)) s.rd.fifo)

/-- DCS_LONG_WRITE (R386, R399): WC bytes from the payload FIFO; bytes that it does not hold are open.
DESIGN CHOICE (notes/assumptions/57.md). -/
def execDcsLongWrite (s : State) : Out :=
  let n := s.reg R.rdDcsHdrWc
  let have_ := s.rd.fifo.take n
  let free := (List.range (n - have_.length)).map fun i => Config.freeByte s.freeCtr i
  .next ((s.dcsWrite 0x39 (have_ ++ free) (s.rd.fifo.drop n)).tick)

end Sys2Proof.Machine
end

