-- ==== Sys2Proof/Machine/Experts.lean ====
section
/-! DEFINITION. The commands of expert routing (R312 to R334). -/
namespace Sys2Proof.Machine

/-- A class-5 operation of SUB with its tile and descriptor, when its tile's role is not changing (R32, R314). -/
def State.expertOp (s : State) (k sub : Nat) : Option (SlotOp × ExpertDesc × Nat) :=
  match s.opAt k 5 with
  | some o =>
    let d := ExpertDesc.ofBytes (s.opData o (16 * o.opnd 43 24) 32)
    match s.opTile o d.group d.pos with
    | some t => if d.sub = sub ∧ s.tileWaits t = false then some (o, d, t) else none
    | none => none
  | none => none

/-- An entry of a candidate table (R313), by its place, with the addresses of its features and logits. -/
structure Candidate where
  idx : Nat
  obj : Nat
  fresh : Bool
  feat : Nat
  logit : Nat
  deriving DecidableEq, Repr

/-- Entry i of the candidate table at a (R313). -/
def State.candidateAt (s : State) (t a base i : Nat) : Candidate :=
  let e := a + 16 + 16 * i
  let w := s.tileNat t e 4
  { idx := i, obj := bits w 12 0, fresh := bitAt w 13, feat := base + s.tileNat t (e + 4) 4, logit := base + s.tileNat t (e + 8) 4 }

/-- The enabled experts of the step (R316, R327). -/
def State.enabledExperts (s : State) (g : GoArgs) : List Nat :=
  (List.range 64).filter fun j => s.flag R.xrExpCfgEn j && !(bitAt g.expDisable j)

/-- k of the level in effect, which TOPK may lower (R316, R327). -/
def State.topk (s : State) (g : GoArgs) : Nat :=
  let l := s.reg R.pcLevelLevel
  let k := s.reg (if l = 0 then R.xrCtrlTopkG0 else if l = 1 then R.xrCtrlTopkG1 else if l = 2 then R.xrCtrlTopkG2 else R.xrCtrlTopkG3)
  if g.topk1 then 1 else min 2 (max 1 k)

/-- The home chip of an expert is unreachable (R316, R322, R334). -/
def State.unreachable (s : State) (j : Nat) : Bool :=
  s.distributed && bitAt (s.reg R.xrStatusUnreach) (s.reg R.xrExpCfgHome j)

/-- An expert lives on another chip (R322). -/
def State.isRemote (s : State) (j : Nat) : Bool := s.distributed && s.reg R.xrExpCfgHome j != s.reg R.xrCtrlChip

/-- A token is created (R25, R317): the next item of its expert's stream. DESIGN CHOICE (notes/assumptions/48.md). -/
def State.makeToken (s : State) (tbl obj rank weight : Nat) (e : Nat × Int) : State :=
  let item := s.nextItem (0x20 + e.1)
  let i := (s.xr.tokens.filter (·.tbl = tbl)).length
  let t : Token := { tbl := tbl, item := item, obj := obj, rank := rank, expert := e.1, weight := weight, score := e.2,
                     remote := s.isRemote e.1, index := i }
  let s := (s.takeItem (0x20 + e.1)).bump R.xrCntCount 0
  s.modXr fun x => { x with tokens := x.tokens ++ [t],
                            routed := if s.flag R.xrCtrlLoopEn then alMod x.routed e.1 0 (· + 1) else x.routed }

/-- The tokens of a classified object (R316, R317). -/
def State.selectExperts (s : State) (g : GoArgs) (t tbl : Nat) (c : Candidate) : State :=
  let logit := fun (j : Nat) => toSigned 16 (s.tileNat t (c.logit + 2 * j) 2)
  let scores := (s.enabledExperts g).map fun j => (j, logit j + s.regS R.xrExpBiasBias j)
  match topExperts 1 scores with
  | [] => s.setHazard tbl c.obj
  | best :: _ =>
    if s.unreachable best.1 then (s.setHazard tbl c.obj).bump R.xrCntCount 7
    else
      match topExperts (s.topk g) (scores.filter fun e => !(s.unreachable e.1)) with
      | [a, b] =>
        let w := gateWeight (logit b.1 - logit a.1)
        (s.makeToken tbl c.obj 0 w a).makeToken tbl c.obj 1 (65535 - w) b
      | a :: _ => s.makeToken tbl c.obj 0 0xFFFF a
      | [] => s.setHazard tbl c.obj

/-- One candidate of a dispatch (R312, R315, R320, R333). DESIGN CHOICE (notes/assumptions/48.md). -/
def State.takeCandidate (s : State) (g : GoArgs) (t tbl : Nat) (bad : List Nat) (c : Candidate) : State :=
  let forced := g.force.contains c.obj
  let add := fun (s : State) (skip : Bool) =>
    s.modXr fun x => { x with objects := x.objects ++ [{ tbl := tbl, obj := c.obj, skipped := skip, forced := forced }] }
  if bad.contains c.idx then (add s false).setHazard tbl c.obj
  else
    let s := if c.fresh then s.modEntry c.obj fun _ => {} else s
    let e := s.xrEntry c.obj
    let skip := decide (c.obj < 4096) && !c.fresh && !e.hazard && !forced && decide (s.reg R.xrSkipStableN ≤ e.stable) &&
      decide (s.reg R.xrSkipSkipConf ≤ e.conf) && decide (e.skip < s.reg R.xrSkipSkipMax)
    if skip then ((add s true).modEntry c.obj fun e => { e with skip := e.skip + 1 }).bump R.xrCntCount 3
    else ((add s false).modEntry c.obj fun e => { e with skip := 0 }).selectExperts g t tbl c

/-- The priority class of a token (R318). -/
def tokenClass (g : GoArgs) (hazards : List Nat) (t : Token) : Nat :=
  if g.force.contains t.obj then 0 else if hazards.contains t.obj then 1 else if t.rank = 0 then 2 else 3

/-- The tokens of an expert in the order in which capacity keeps them (R318). DESIGN CHOICE (notes/assumptions/48.md). -/
def tokenOrder (g : GoArgs) (hazards : List Nat) (l : List Token) : List Token :=
  sortBy (fun (a b : Token) =>
    let ca := tokenClass g hazards a
    let cb := tokenClass g hazards b
    decide (ca < cb) || (ca == cb && (decide (b.score < a.score) || (a.score == b.score && decide (a.obj ≤ b.obj))))) l

/-- A token is dropped for capacity (R318, R320). -/
def State.dropToken (s : State) (t : Token) : State :=
  let s := s.modXr fun x => { x with tokens := x.tokens.map fun u => if u.item = t.item then { u with kept := false } else u }
  let s := (s.bump R.xrCntCount 1).bump R.xrExpDropsCount t.expert
  (s.report t.item 0x04 t.expert (t.rank + 2 * ofFlag (t.rank = 0))).tokenLost t.item

/-- Capacity over the tokens of a dispatch (R318). DESIGN CHOICE (notes/assumptions/48.md). -/
def State.applyCapacity (s : State) (g : GoArgs) (tbl : Nat) (hazards : List Nat) : State :=
  let on := s.enabledExperts g
  let mine := s.xr.tokens.filter (·.tbl = tbl)
  let cf := if g.cfValid then g.cf else s.reg R.xrCapCf
  on.foldl (fun (s : State) j =>
    let l := tokenOrder g hazards (mine.filter (·.expert = j))
    let c := capacity (s.reg R.xrExpCfgCapMax j) (s.reg R.xrCapCapMin) cf mine.length on.length
    (l.drop c).foldl State.dropToken s) s

/-- The cells of a token (R317). -/
def State.tokenCells (s : State) (t : Nat) (d : ExpertDesc) (c : Candidate) (k : Token) : List Cell64 :=
  let head := c.obj + k.rank * 2 ^ 13 + k.expert * 2 ^ 14 + k.weight * 2 ^ 20 + s.reg R.xrCtrlChip * 2 ^ 36
  [BitVec.ofNat 64 head] ++ (List.range (d.feat / 8)).map (fun i => BitVec.ofNat 64 (s.tileNat t (c.feat + 8 * i) 8)) ++
  [BitVec.ofNat 64 (k.item.toNat * 2 ^ 32 + c.obj)]

/-- T_rt of a link in ns (R409). DESIGN CHOICE (notes/assumptions/49.md). -/
def State.roundTrip (s : State) (side : Nat) : Nat := s.reg R.slSCfgAckNs side + s.reg R.slSCfgWindow side * 250

/-- A kept token is pushed into its expert's queue (R234, R321, R322, R329): by expert routing, or by the scatter engine when it
goes to another chip; the timer of a remote token starts. DESIGN CHOICE (notes/assumptions/49.md). -/
def State.pushToken (s : State) (t : Nat) (d : ExpertDesc) (c : Candidate) (k : Token) : State :=
  let q := s.reg R.xrExpCfgQid k.expert
  let s := s.pushItemAll (if k.remote then 0x61 else 0x60) q k.item 0x0A 0 (s.tokenCells t d c k)
  if s.hasEnded k.item then s.tokenLost k.item
  else
    let s := s.modXr fun x => { x with keptCounts := if s.flag R.xrCtrlLoopEn then alMod x.keptCounts k.expert 0 (· + 1) else x.keptCounts }
    if k.remote then
      s.arm (.remote k.item) (max (1000 * s.reg R.xrRemoteTmoUs) (5 * s.roundTrip (s.reg R.qmQEpCons q - 0x68)))
    else s

/-- Kept tokens of a dispatch, expert by expert, to scratch: 64 × 16 bits (R318). -/
def State.writeKept (s : State) (tbl scrOff : Nat) : State :=
  let n := fun (j : Nat) => (s.xr.tokens.filter fun t => t.tbl == tbl && t.kept && t.expert == j).length
  s.modScratch fun m => m.writeBytes scrOff ((List.range 64).flatMap fun j => leBytes 2 (n j))

/-- The bytes of a routing table, whose layout is not given, are undefined to a reader in its partition (R314).
DESIGN CHOICE (notes/assumptions/7.md). -/
def State.writeRouting (s : State) (t part off nobj ntok : Nat) : State :=
  match s.partOf t part with
  | some (b, size) =>
    let n := min (Config.routingBytes nobj ntok) (size - off)
    let g := s.freeCtr
    (s.modTmem fun m => m.makeUndef (tileAddr t (b + off)) n g).tick
  | none => s

/-- DISPATCH (R25, R312 to R322, R327, R329, R332, R333): the objects of a candidate table are skipped or classified, tokens
made, capacity applied, and the kept tokens pushed. Entries beyond MAX_OBJ that do not lie in the partition are no candidates. badEntries: entries read with a parity failure.
DESIGN CHOICE (notes/assumptions/48.md). -/
def execDispatch (k : Nat) (badEntries : List Nat) (s : State) : Out :=
  .next (match s.expertOp k 0 with
    | none => s
    | some (o, d, t) =>
      if s.xr.biasDue then s
      else
        match s.partOf t d.part, s.region t d.part d.inOff 16, s.region t d.part d.outOff 0 with
        | some (base, size), some a, some tbl =>
          let count := s.tileNat t a 2
          let n := min count d.maxObj
          let inside := min count ((size - d.inOff - 16) / 16)
          let cs := (List.range inside).map (s.candidateAt t a base)
          let fits := decide (d.inOff + 16 + 16 * n ≤ size) && (cs.take n).all fun c =>
            decide (c.feat + d.feat ≤ base + size) && decide (c.logit + 128 ≤ base + size)
          if !fits then s.boundsFail k
          else
            let s := s.modXr fun x => { x with tokens := x.tokens.filter (·.tbl ≠ tbl), objects := x.objects.filter (·.tbl ≠ tbl) }
            let hazards := (cs.filter fun c => decide (c.obj < 4096) && !c.fresh && (s.xrEntry c.obj).hazard).map (·.obj)
            let s := (cs.take n).foldl (fun (s : State) c => s.takeCandidate o.overrides t tbl badEntries c) s
            let s := (cs.drop n).foldl (fun (s : State) c =>
              (s.modXr fun x => { x with objects := x.objects ++ [{ tbl := tbl, obj := c.obj }] }).setHazard tbl c.obj) s
            let s := if n < count then (s.setReg R.xrStatusClamp 1).raise 0xC00014 8 1 0x0A else s
            let s := s.applyCapacity o.overrides tbl hazards
            let kept := s.xr.tokens.filter fun x => x.tbl == tbl && x.kept
            let s := kept.foldl (fun (s : State) x =>
              match cs.find? (·.obj = x.obj), s.xr.tokens.find? (·.item = x.item) with
              | some c, some x => s.pushToken t d c x
              | _, _ => s) s
            let s := s.writeKept tbl d.scrOff
            (s.writeRouting t d.part d.outOff count (s.xr.tokens.filter (·.tbl = tbl)).length).finishOp k
        | _, _, _ => s.boundsFail k)

/-! ## Results (R323 to R325, R329, R330, R333) -/

/-- Bytes between the results of two tokens (R323). -/
def resultStride (nclass : Nat) : Nat := padTo 8 nclass

/-- A result that came back from another chip (R323, R329, R330, R333): the cells before the EOP cell.
DESIGN CHOICE (notes/assumptions/9.md). -/
def State.takeResult (s : State) (nclass : Nat) (cells : List Cell64) (bad : Bool) : State :=
  match cells with
  | [] => s
  | head :: data =>
    let item := Config.resultItem head
    match s.xr.tokens.find? fun t => t.item == item && t.remote with
    | none => s.bump R.xrCntCount 6
    | some t =>
      if t.lost || s.hasEnded item then s.bump R.xrCntCount 6
      else if t.result.isSome then (s.inform item 0x07 0x0A 0).bump R.xrCntCount 5
      else if bad then (s.report item 0x02 0x0A 0).tokenLost item
      else
        let l := (data.flatMap fun c => leBytes 8 c.toNat).take nclass
        (s.modXr fun x => { x with tokens := x.tokens.map fun u => if u.item = item then { u with result := some l } else u }).disarm
          (.remote item)

/-- The cells of return queue q up to its last EOP cell are taken (R322, R323, R416): `acc` holds the cells of the item in
hand and whether one was poisoned. DESIGN CHOICE (notes/assumptions/49.md). -/
def State.takeReturns (s : State) (q nclass : Nat) : Nat → List Cell64 × Bool → State
  | 0, _ => s
  | n + 1, acc =>
    if !((s.queue q).cells.any (·.eop)) then s
    else
      match s.popFor 0x0A 0x60 q false Upset.none with
      | (none, s) => s
      | (some (d, got), s) =>
        let ok := decide (got = .use)
        if got = .gap ∨ (got = .discard ∧ d.eop = false) then s.takeReturns q nclass n acc
        else if d.eop then
          if got = .discard then s.takeReturns q nclass n ([], false) else
          let abort := decide (d.data.toNat % 2 ^ 32 = 0xFFFFFFFF)
          let s := if abort || !ok then s else s.takeResult nclass acc.1 acc.2
          (s.endTaken 0x0A d.item abort).takeReturns q nclass n ([], false)
        else s.takeReturns q nclass n (acc.1 ++ [d.data], acc.2 || !ok)

/-- COMBINE takes the result of a local token, or ends it where its result is poisoned (R323, R325, R333). A token that has ended
already, SEVERED, POISON or by a watchdog, has no result (R320). DESIGN CHOICE (notes/assumptions/48.md). -/
def State.takeLocal (s : State) (t a nclass : Nat) (poisoned : List Nat) (x : Token) : State :=
  if s.hasEnded x.item then s.tokenLost x.item
  else if s.pal.poisoned.contains x.item then ((s.unmark x.item).report x.item 0x02 0x0A 0).tokenLost x.item
  else if poisoned.contains x.index then (s.report x.item 0x02 0x0A 0).tokenLost x.item
  else
    let l := match x.result with
      | some r => r
      | none => s.tileRead t (a + x.index * resultStride nclass) nclass
    s.modXr fun y => { y with tokens := y.tokens.map fun u => if u.item = x.item then { u with result := some l } else u }

/-- The combined score of class c (R325). -/
def combinedScore (l : List Token) (c : Nat) : Int :=
  l.foldl (fun a t => a + (t.weight : Int) * toSigned 8 (((t.result.getD []).getD c 0).toNat)) 0

/-- Class, highest and second score (R325): ties go to the lower class. DESIGN CHOICE (notes/assumptions/48.md). -/
def bestClass (scores : List Int) : Nat × Int × Option Int :=
  let l := sortBy (fun (a b : Int × Nat) => decide (b.1 < a.1) || (a.1 == b.1 && decide (a.2 ≤ b.2))) scores.zipIdx
  match l with
  | [] => (0, 0, none)
  | [a] => (a.2, a.1, none)
  | a :: b :: _ => (a.2, a.1, some b.1)

/-- A verdict cell (R325). -/
def verdictCell (obj cls conf verdict flags : Nat) : Cell64 :=
  BitVec.ofNat 64 (obj * 2 ^ 51 + cls % 64 * 2 ^ 45 + conf % 256 * 2 ^ 37 + verdict * 2 ^ 34 + 10 * 2 ^ 8 + flags)

/-- The verdict of one object (R312, R315, R320, R325). CLASS and CONF of an UNRESOLVED_HAZARD verdict are open, and so is CONF
with one class. DESIGN CHOICE (notes/assumptions/48.md). -/
def State.verdict (s : State) (nclass : Nat) (o : XrObject) : Cell64 × State :=
  let toks := s.xr.tokens.filter fun t => t.tbl == o.tbl && t.obj == o.obj
  let good := toks.filter fun t => t.kept && !t.lost && t.result.isSome
  let lost1 := toks.any fun t => t.rank == 1 && (t.lost || !t.kept)
  let flags := fun (h : Bool) => ofFlag h + 2 * ofFlag lost1 + 4 * ofFlag (good.any (·.remote)) + 8 * ofFlag o.forced + 16 * ofFlag (good.any (·.exited))
  if o.skipped then
    let e := s.xrEntry o.obj
    (verdictCell o.obj e.cls e.conf 1 (flags false), s)
  else if o.hazard || good.isEmpty then
    let v := (Config.freeWord s.freeCtr).toNat
    (verdictCell o.obj v (v / 64) 2 (flags true), s.tick)
  else
    let (c, hi, second) := bestClass ((List.range nclass).map (combinedScore good))
    let conf := match second with
      | some x => (min 255 ((hi - x) / 65536)).toNat
      | none => (Config.freeWord s.freeCtr).toNat % 256
    let s := s.tick.modEntry o.obj fun e =>
      { e with cls := c, conf := conf, stable := if e.stable ≠ 0 ∧ e.cls = c then e.stable + 1 else 1, hazard := false }
    (verdictCell o.obj c conf 0 (flags false), s)

/-- The verdicts of a list of objects, in candidate order (R325). -/
def State.verdicts (s : State) (nclass : Nat) : List XrObject → List Cell64 × State
  | [] => ([], s)
  | o :: t =>
    let r := s.verdict nclass o
    let q := r.2.verdicts nclass t
    (r.1 :: q.1, q.2)

/-- COMBINE (R27, R312, R320, R323, R325, R329, R330, R333): takes the results, completes the tokens and writes the verdict
item. It waits for the results of remote tokens. poisoned: tokens whose result was read with tag POISON.
DESIGN CHOICE (notes/assumptions/48.md). -/
def execCombine (k : Nat) (poisoned : List Nat) (s : State) : Out :=
  .next (match s.expertOp k 1 with
    | none => s
    | some (o, d, t) =>
      match s.region t d.part d.inOff 0, s.region t d.part d.outOff 0 with
      | some tbl, some a =>
        let s := [0, 1].foldl (fun (s : State) c =>
          let q := s.reg R.xrRetQid c
          if s.reg R.qmQEpCons q = 0x60 && s.distributed then s.takeReturns q d.nclass (s.queue q).cells.length ([], false) else s) s
        let all := s.xr.tokens.filter fun x => x.tbl == tbl && x.kept
        let s := (all.filter fun x => x.remote && s.hasEnded x.item).foldl (fun (s : State) x => s.tokenLost x.item) s
        let mine := s.xr.tokens.filter fun x => x.tbl == tbl && x.kept && !x.lost
        if mine.any fun x => x.remote && x.result.isNone then s
        else
          let s := (mine.filter fun x => !x.remote).foldl (fun (s : State) x => s.takeLocal t a d.nclass poisoned x) s
          let r := s.verdicts d.nclass (s.xr.objects.filter (·.tbl = tbl))
          let eop := BitVec.ofNat 64 (o.item.toNat * 2 ^ 32 + r.1.length % 65536 * 2 ^ 16 + 11 * 2 ^ 8)
          let s := mine.foldl (fun (s : State) x => if s.hasEnded x.item then s else s.complete x.item 0x0A) r.2
          let s := s.pushItemAll 0x60 d.outQid o.item 0x0A 0 (r.1 ++ [eop])
          (s.modXr fun x => { x with tokens := x.tokens.filter (·.tbl ≠ tbl), objects := x.objects.filter (·.tbl ≠ tbl) }).finishOp k
      | _, _ => s.boundsFail k)

/-- The problem list of an expert is compacted in order (R296, R324): the 16-byte entries of the tokens that stay follow one
another. Where the list lies only the routing table says. DESIGN CHOICE (notes/assumptions/7.md). -/
def State.compactList (s : State) (t part tbl expert : Nat) (stay : List Bool) : State :=
  match s.partOf t part with
  | some (b, size) =>
    let n := min stay.length (size / 16)
    let a := b + Config.problemList tbl expert % (size - 16 * n + 1)
    let left := ((List.range n).zip stay).filter (·.2)
    s.tileWrite t a (left.flatMap fun e => s.tileRead t (a + 16 * e.1) 16)
  | none => s

/-- EXIT (R324): tokens of EXPERT whose confidence byte, after their result, reaches EXIT_CONF leave the batch with the logits
that lie there now, and the list is compacted; the count that remains goes to scratch. DESIGN CHOICE (notes/assumptions/49.md). -/
def execExitOp (k : Nat) (s : State) : Out :=
  .next (match s.expertOp k 2 with
    | none => s
    | some (_, d, t) =>
      match s.region t d.part d.inOff 0, s.region t d.part d.outOff 0 with
      | some tbl, some a =>
        let live := s.xr.tokens.filter fun x => x.tbl == tbl && x.kept && !x.lost && !x.exited && x.expert == d.expert
        let place := fun (x : Token) => a + x.index * resultStride d.nclass
        let out := live.filter fun x => decide (d.exitConf ≤ s.tileNat t (place x + d.nclass) 1)
        let s := out.foldl (fun (s : State) x =>
          let l := s.tileRead t (place x) d.nclass
          (s.bump R.xrCntCount 4).modXr fun y => { y with tokens := y.tokens.map fun u =>
            if u.item = x.item then { u with exited := true, result := some l } else u }) s
        let s := s.modScratch fun m => m.writeNat d.scrOff 2 (live.length - out.length)
        let n := (s.xr.tokens.filter (·.tbl = tbl)).length
        let s := s.writeRouting t d.part d.inOff (s.xr.objects.filter (·.tbl = tbl)).length n
        (s.compactList t d.part tbl d.expert (live.map fun x => !(out.any (·.item == x.item)))).finishOp k
      | _, _ => s.boundsFail k)

/-! ## Biases and timers (R326, R329, R331) -/

/-- The loop moves one bias (R326): by STEP_B against the sign of ROUTED − M where it lies outside the dead band.
DESIGN CHOICE (notes/assumptions/49.md). -/
def State.moveBias (s : State) (sum eact j : Nat) : State :=
  let d : Int := ((alGet s.xr.routed j).getD 0 * eact : Nat) - (sum : Int)
  if s.reg R.xrBiasctlDead * sum < 256 * d.natAbs then
    let b := s.regS R.xrExpBiasBias j
    let step : Int := s.reg R.xrBiasctlStepB
    let top : Int := s.reg R.xrBiasctlBmax
    s.setRegS R.xrExpBiasBias (max (-top) (min top (if 0 < d then b - step else b + step))) j
  else s

/-- BIAS_UPDATE (R326, R331): at every 256th step seam; an expert whose bias the host wrote at that seam is skipped.
DESIGN CHOICE (notes/assumptions/49.md). -/
def execBiasUpdate (s : State) : Out :=
  .next (if !s.xr.biasDue then s
  else
    let skips := s.xr.biasSkips
    let s := if s.flag R.xrCtrlLoopEn then
        let on := (List.range 64).filter fun j => s.flag R.xrExpCfgEn j
        let routed := fun (j : Nat) => (alGet s.xr.routed j).getD 0
        let sum := (on.map routed).foldl (· + ·) 0
        let s := (on.filter fun j => !(skips.contains j)).foldl (fun (s : State) j => s.moveBias sum on.length j) s
        let kept := fun (j : Nat) => (alGet s.xr.keptCounts j).getD 0
        (List.range 64).foldl (fun (s : State) j =>
          (s.setReg R.xrExpLoadRouted (satTo 0xFFFF (routed j)) j).setReg R.xrExpLoadKept (satTo 0xFFFF (kept j)) j) s
      else s
    s.modXr fun x => { x with biasDue := false, biasSkips := [], routed := [], keptCounts := [] })

/-- A host write of XR_EXPj_BIAS, held for the next step seam (R331). DESIGN CHOICE (notes/assumptions/49.md). -/
def State.writeBias (s : State) (j v : Nat) : State := s.modXr fun x => { x with biasWrites := alPut x.biasWrites j (v % 65536) }

/-- BIAS_WRITE (R331). -/
def execBiasWrite (j : Nat) (value : Word) (s : State) : Out :=
  .next (if s.alive && decide (j < 64) then s.writeBias j value.toNat else s)

/-- A result of a token waits at the head of an item in a return queue (R329): its timer has stopped.
DESIGN CHOICE (notes/assumptions/49.md). -/
def State.resultWaits (s : State) (item : ItemId) : Bool :=
  [0, 1].any fun c => (s.queue (s.reg R.xrRetQid c)).cells.any fun x => !x.eop && Config.resultItem x.data == item

/-- REMOTE_TMO (R320, R329): a remote token's timer expires before its result. DESIGN CHOICE (notes/assumptions/49.md). -/
def execRemoteTmo (item : ItemId) (s : State) : Out :=
  .next (if s.due (.remote item) && !(s.resultWaits item) then
    ((s.disarm (.remote item)).report item 0x06 0x0A 0).tokenLost item
  else s)

end Sys2Proof.Machine
end

