-- ==== Sys2Proof/Machine/Observe.lean ====
section
/-! DEFINITION. What the fusion engine observes of ingress (R336, R345, R360): frontiers of PORT channels, the cells
written for a source, thermal frames. -/
namespace Sys2Proof.Machine

/-- Channel c of the fusion engine is enabled, of a KIND, for source n (R336). -/
def State.chanIs (s : State) (c kind n : Nat) : Bool :=
  s.flag R.fuInCfgEn c && s.reg R.fuInCfgKind c == kind && s.reg R.fuInCfgSrc c == n

/-- Change the tests of source n (R360). -/
def State.modSrc (s : State) (n : Nat) (f : SourceTest → SourceTest) : State := s.modFu fun u => { u with srcs := u.srcs.modify n f }

/-- The frontier of channel c in full µs (R336). -/
def State.front (s : State) (c : Nat) : Nat := (alGet s.fu.fronts c).getD 0

/-- A source has advanced a frontier or delivered an item now (R358). -/
def State.sourceAlive (s : State) (n : Nat) : State :=
  let t := s.devtime
  s.modSrc n fun x => { x with lastAdvance := some t }

/-- A frontier advances to a full time (R336, R358). -/
def State.setFront (s : State) (c us : Nat) : State :=
  if s.front c < us then
    ((s.modFu fun u => { u with fronts := alPut u.fronts c us }).setReg R.fuInFrontUs us c).sourceAlive (s.reg R.fuInCfgSrc c)
  else s

/-- The engine runs and has an enabled PORT channel for source n. -/
def State.watches (s : State) (n : Nat) : Bool := s.domOn 7 && (List.range 16).any fun c => s.chanIs c 0 n

/-- The latest time word of an accepted packet of port n advances its PORT channels (R336). -/
def State.portFront (s : State) (n us : Nat) : State :=
  if s.domOn 7 then
    (List.range 16).foldl (fun s c => if s.chanIs c 0 n then s.setFront c us else s) s
  else s

/-- One event cell that ingress writes for port n (R345, R360): full time in µs, place and tags; w is the sensor's width. -/
def State.seeEvent (s : State) (n us x y tags w : Nat) : State :=
  if !(s.watches n) then s
  else
    let s := s.modSrc n fun t =>
      { t with events := t.events + 1, tagged := t.tagged + ofFlag (bitAt tags 4 || bitAt tags 5),
               buckets := alMod t.buckets ((x + 64 * y) % 4096) 0 (· + 1) }
    if s.reg R.fuHzHzSrc = n then s.modFu fun u => { u with rows := u.rows ++ [(us, 8 * x / w, y / 4)] } else s

end Sys2Proof.Machine
end

