-- ==== Sys2Proof/Machine/Ingress.lean ====
section
/-! DEFINITION. Event ingress (R176 to R202): packets, filters, cells, the AER port, thermal frames, and the ports' own
commands. -/
namespace Sys2Proof.Machine

/-! ## Ports and their settings (R197, R199) -/

/-- Event port n beside its registers. -/
def State.port (s : State) (n : Nat) : PortState := s.ei.ports.getD n {}

/-- Change event port n. -/
def State.modPort (s : State) (n : Nat) (f : PortState → PortState) : State :=
  s.modEi fun e => { e with ports := e.ports.modify n f }

/-- Fields of the pending copy (R197, R202) with how many elements each has in a port. -/
def pendingRows : List (Row × Nat) :=
  [(R.eiPSizeWM1, 1), (R.eiPSizeHM1, 1), (R.eiPFiltHot, 1), (R.eiPFiltRef, 1), (R.eiPFiltRoi, 1), (R.eiPFiltGlint, 1),
   (R.eiPFiltBin, 1), (R.eiPRefractUs, 1), (R.eiPRoiAX0, 4), (R.eiPRoiAY0, 4), (R.eiPRoiBX1, 4), (R.eiPRoiBY1, 4),
   (R.eiPRoiBEn, 4), (R.eiPGlintCell, 1), (R.eiPGlintWin, 1), (R.eiPGlintThresh, 1), (R.eiPGlint2Bal, 1),
   (R.eiPGlint2Decim, 1), (R.eiPGlint2Hold, 1), (R.eiPTimeRegressTol, 1), (R.eiPTimeFutTol, 1)]

/-- The pending copy of port n: every field that is not at reset, by its bit address. -/
def State.pendingCopy (s : State) (n : Nat) : List (Nat × Nat) :=
  pendingRows.flatMap fun e => (List.range e.2).filterMap fun j =>
    if s.reg e.1 n j = e.1.resetAt n then none else some (e.1.key n j, s.reg e.1 n j)

/-- A setting in force at port n (R197). -/
def State.setting (s : State) (n : Nat) (r : Row) (j : Nat := 0) : Nat :=
  (alGet (s.port n).applied (r.key n j)).getD (r.resetAt n)

/-- A filter mode; 3 names none and does nothing (R183). DESIGN CHOICE (notes/assumptions/38.md). -/
def filterMode (v : Nat) : Nat := if v = 3 then 0 else v

/-- A glint cell's side in pixels (R187, R202). -/
def glintSide (cell : Nat) : Nat := 8 * 2 ^ min cell 2

/-- A pending copy asks for more refractory entries or glint cells than the stores hold (R185, R187). -/
def State.copyBad (s : State) (n : Nat) : Bool :=
  let w := s.reg R.eiPSizeWM1 n + 1
  let h := s.reg R.eiPSizeHM1 n + 1
  let b := 2 ^ min (s.reg R.eiPFiltBin n) 2
  let c := glintSide (s.reg R.eiPGlintCell n)
  decide (1048576 < ceilDiv w b * ceilDiv h b) ||
  (filterMode (s.reg R.eiPFiltGlint n) != 0 && decide (16384 < ceilDiv w c * ceilDiv h c))

/-- Event port n receives (R11, R191, R199, R471): enabled, its domain on, no quiesce, and not in AER mode. -/
def State.portOpen (s : State) (n : Nat) (aer : Bool) : Bool :=
  !s.quiesced && if aer then n == 3 && decide (3 < s.member.ports) && s.domOn 3 && s.flag R.eiPCfgEn 3 && s.flag R.eiPCfgMode 3
    else s.portLinked n

/-- Count in EI_Pn_CNTi (R202): 0 PKTS, 1 EVENTS, 2 HOT, 3 REF, 4 ROI, 5 GLINT, 6 OOB, 7 QFULL, 8 OVERRUN, 9 CRC, 10 HDR,
11 FORMAT, 12 OTHER, 13 CAM_DROP, 14 LINK. -/
def State.countPort (s : State) (n i : Nat) (k : Nat := 1) : State := s.bump R.eiPCntCount n i k

/-! ## Damaged items (R200) -/

/-- The severity-1 fault of a port with 64 HDR or LINK items within 1 s (R200).
DESIGN CHOICE (notes/assumptions/16.md). DESIGN CHOICE (notes/assumptions/37.md). -/
def State.portError (s : State) (n i : Nat) : State :=
  let l := ((s.port n).errTimes.filter fun t => decide (s.devtime < t + 1000000000)) ++ [s.devtime]
  let s := s.modPort n fun p => { p with errTimes := l }
  if l.length = 64 then s.raise (0x400080 + 0x1000 * n + 4 * i) 0 1 3 else s

/-- The QID of event port n. -/
def State.portQid (s : State) (n : Nat) : Nat := s.reg R.eiPCfgQid n

/-- An epoch marker goes before a cell of an epoch that port n writes into its queue (R189, R217). -/
def State.portMark (s : State) (n epoch : Nat) : State := s.epochMark (1 + n) (s.portQid n) n epoch 0

/-- The first cell that a port writes into its queue needs an epoch marker (R217). -/
def State.portFirst (s : State) (n : Nat) : State :=
  if (s.markOf (1 + n) (s.portQid n)).isNone then s.portMark n (epochOf s.us) else s

/-- Producer-reported loss (R182, R200, R236): SRC 1 markers of at most 0xF_FFFF each. -/
def State.portGap (s : State) (n count : Nat) : State :=
  let full := count / 0xFFFFF
  let rest := count % 0xFFFFF
  let l := List.replicate full 0xFFFFF ++ (if rest = 0 then [] else [rest])
  if l.isEmpty then s
  else l.foldl (fun s c => s.push (1 + n) (s.portQid n) (gapMarker s.us s.us 1 c) 0 false false) (s.portFirst n)

/-- A damaged item ends GAP_DROP with one flag of R200, its counter, and a gap marker where events could be counted. -/
def State.damaged (s : State) (n : Nat) (item : ItemId) (flagBit counter events : Nat) : State :=
  let s := (s.countPort n counter).report item 0x01 n (2 ^ flagBit)
  let s := if counter = 10 ∨ counter = 14 then s.portError n counter else s
  s.portGap n events

/-- The next item of an event port (R24, R179). -/
def State.portItem (s : State) (n : Nat) : ItemId × State := (s.nextItem (1 + n), s.takeItem (1 + n))

/-! ## Words (R177, R178) -/

/-- The 32-bit words of a payload. -/
def payloadWords (l : List Byte) : List Nat := (List.range (l.length / 4)).map fun i => fieldAt l (4 * i) 4

/-- A word list that R178 allows from a word on; `row` says that a ROW came before. -/
def wordsOk : Bool → List Nat → Bool
  | _, [] => true
  | row, w :: t =>
    let k := bits w 31 29
    !(k == 3 || k == 6 || k == 7) && (k != 4 || row) && wordsOk (row || k == 2) t

/-- A well-formed packet (R178). -/
def packetOk (l : List Byte) : Bool :=
  let ws := payloadWords l
  l.length % 4 == 0 && decide (8 ≤ l.length) && decide (l.length ≤ 16384) && bits (ws.headD 0) 31 29 == 1 && wordsOk false ws

/-- Events counted from the masks of a packet that is dropped whole (R200). -/
def maskEvents (l : List Byte) : Nat :=
  ((payloadWords l).filter fun w => bits w 31 29 = 4).foldl (fun a w => a + popCount 16 w) 0

/-- EVENT_PACKET_RECEIVE (R176, R178, R179, R190, R199, R200). DESIGN CHOICE (notes/assumptions/37.md). -/
def execEventPacketReceive (port : Nat) (vc : BitVec 2) (dt : BitVec 8) (ecc : Ecc) (crcOk : Bool) (payload : List Byte)
    (s : State) : Out :=
  .next (if !(s.portOpen port false) then s
    else if ecc = .uncorrectable then
      let (item, s) := s.portItem port
      s.damaged port item 3 10 0
    else if vc.toNat ≠ s.reg R.eiPCfgVc port then s
    else if dt ≠ 0x30 then s.countPort port 12
    else
      let (item, s) := s.portItem port
      let s := s.countPort port 0
      if 2 ≤ (s.port port).bufs.length then s.damaged port item 1 8 (maskEvents payload)
      else if !crcOk then s.damaged port item 2 9 (maskEvents payload)
      else if !(packetOk payload) then s.damaged port item 4 11 0
      else (s.modPort port fun p => { p with bufs := p.bufs ++ [{ item := item, words := payloadWords payload }] }).refreshXoff)

/-- LINK_ERROR (R199, R200): the burst of the packet in reception ends early, or deskew is lost. -/
def execLinkError (port : Nat) (deskew : Bool) (s : State) : Out :=
  .next (if !(s.portOpen port false) then s
    else
      let (item, s) := s.portItem port
      let s := s.countPort port 0
      let s := if deskew then s.setReg R.eiPStatusDeskewErr 1 port else s
      s.damaged port item 6 14 0)

/-! ## Unpacking (R177, R178, R188) -/

/-- What the words of a packet leave behind while they are unpacked: events with the TIME_REGRESS tag, camera losses, and
the latest time word. -/
structure Unpacked where
  events : List (Event × Bool) := []
  lost : List Nat := []
  hi : Nat := 0
  row : Nat := 0
  y : Nat := 0
  pol : Bool := false
  regress : Bool := false
  latest : Nat := 0
  deriving DecidableEq, Repr

/-- TIME_HI with its wraps (R178): a fall of more than half the range is a wrap, a rise of as much undoes one. -/
def wrapsAfter (wraps last hi : Nat) : Nat :=
  if hi + 2 ^ 28 ≤ last then wraps + 1 else if last + 2 ^ 28 ≤ hi then wraps - 1 else wraps

/-- One word of a packet on port n (R177, R182, R188). STATUS words of other codes are counted in the port's own count, which
no register shows. DESIGN CHOICE (notes/assumptions/37.md). -/
def unpackWord (tol : Nat) (a : PortState × Unpacked) (w : Nat) : PortState × Unpacked :=
  let p := a.1
  let u := a.2
  match bits w 31 29 with
  | 1 =>
    let hi := bits w 28 0
    let wr := wrapsAfter p.wraps p.lastHi hi
    let t := (wr * 2 ^ 29 + hi) * 4096
    ({ p with wraps := wr, lastHi := hi }, { u with hi := wr * 2 ^ 29 + hi, latest := max u.latest t })
  | 2 =>
    let t := u.hi * 4096 + bits w 28 17
    let reg := p.rowSeen && decide (t + tol < p.latestRow)
    ({ p with latestRow := if p.rowSeen then max p.latestRow t else t, rowSeen := true },
     { u with row := t, y := bits w 16 5, pol := bitAt w 4, regress := reg, latest := max u.latest t })
  | 4 =>
    let es := (setBits 16 w).map fun i =>
      (({ time := u.row, x := bits w 27 16 + i, y := u.y, pol := u.pol } : Event), u.regress)
    (p, { u with events := u.events ++ es })
  | 5 =>
    if bits w 28 24 ≠ 1 then ({ p with otherStatus := p.otherStatus + 1 }, u)
    else (p, if bits w 23 0 = 0 then u else { u with lost := u.lost ++ [bits w 23 0] })
  | _ => a

/-! ## Filters (R183 to R187) -/

/-- The outcome of a filter on an event: removed, or a tag bit. -/
def filterTag (mode : Nat) (hit : Bool) (bit : Nat) : Option Nat :=
  if !hit || mode = 0 then some 0 else if mode = 1 then some (2 ^ bit) else none

/-- The refractory entry of a pixel (R185). -/
def State.refractBlock (s : State) (n : Nat) (e : Event) : Nat × Nat :=
  let b := 2 ^ min (s.setting n R.eiPFiltBin) 2
  (e.x / b, e.y / b)

/-- The age of the refractory entry that an event meets, where it is valid (R185): less than 16,384 µs.
DESIGN CHOICE (notes/assumptions/37.md). -/
def State.refractAge (s : State) (n : Nat) (e : Event) : Option Nat :=
  let b := s.refractBlock n e
  match (s.port n).refract.find? fun r => r.1 == b.1 && r.2.1 == b.2 with
  | some r =>
    let age := ofSigned 15 ((e.time : Int) - (r.2.2 : Int))
    if e.time ≤ r.2.2 + 16384 then some age else none
  | none => none

/-- The event's time is written into its entry (R185). -/
def State.refractPut (s : State) (n : Nat) (e : Event) : State :=
  let b := s.refractBlock n e
  s.modPort n fun p => { p with refract := p.refract.filter (fun r => !(r.1 == b.1 && r.2.1 == b.2)) ++ [(b.1, b.2, e.time)] }

/-- The event lies inside the region window (R186). -/
def State.inRegion (s : State) (n : Nat) (e : Event) : Bool :=
  let on := (List.range 4).filter fun k => s.setting n R.eiPRoiBEn k == 1
  on.isEmpty || on.any fun k =>
    decide (s.setting n R.eiPRoiAX0 k ≤ e.x) && decide (e.x ≤ s.setting n R.eiPRoiBX1 k) &&
    decide (s.setting n R.eiPRoiAY0 k ≤ e.y) && decide (e.y ≤ s.setting n R.eiPRoiBY1 k)

/-- The glint cell of an event, with the event counted (R187). -/
def State.glintCount (s : State) (n : Nat) (e : Event) : GlintCell × State :=
  let c := glintSide (s.setting n R.eiPGlintCell)
  let key := (e.x / c, e.y / c)
  let old := ((s.port n).glint.find? fun g => g.cx == key.1 && g.cy == key.2).getD { cx := key.1, cy := key.2 }
  let g := { old with on := old.on + ofFlag e.pol, off := old.off + ofFlag (!e.pol), seen := old.seen + ofFlag old.glinting }
  (old, s.modPort n fun p => { p with glint := p.glint.filter (fun x => !(x.cx == key.1 && x.cy == key.2)) ++ [g] })

/-- The glint suppressor (R187, R188): in a glinting cell TAG tags every event; DROP lets one in 2^DECIM pass, tagged.
DESIGN CHOICE (notes/assumptions/37.md). -/
def State.glintFilter (s : State) (n : Nat) (e : Event) : Option Nat × State :=
  let mode := filterMode (s.setting n R.eiPFiltGlint)
  if mode = 0 then (some 0, s)
  else
    let (old, s) := s.glintCount n e
    if !old.glinting then (some 0, s)
    else if mode = 1 ∨ old.seen % 2 ^ min (s.setting n R.eiPGlint2Decim) 8 = 0 then (some 8, s)
    else (none, s.countPort n 5)

/-- The first four filters in order (R183): the tags of an event that passes. DESIGN CHOICE (notes/assumptions/38.md). -/
def State.filterEvent (s : State) (n : Nat) (e : Event) : Option Nat × State :=
  let hot := (s.port n).hot.any fun h => h.1 == e.x && h.2 == e.y
  match filterTag (filterMode (s.setting n R.eiPFiltHot)) hot 0 with
  | none => (none, s.countPort n 2)
  | some t0 =>
    let rm := filterMode (s.setting n R.eiPFiltRef)
    let hit := match s.refractAge n e with
      | some age => decide (age < s.setting n R.eiPRefractUs)
      | none => false
    match filterTag rm hit 1 with
    | none => (none, s.countPort n 3)
    | some t1 =>
      let s := if rm = 0 then s else s.refractPut n e
      match filterTag (filterMode (s.setting n R.eiPFiltRoi)) (!(s.inRegion n e)) 2 with
      | none => (none, s.countPort n 4)
      | some t2 =>
        match s.glintFilter n e with
        | (none, s) => (none, s)
        | (some t3, s) => (some (t0 + t1 + t2 + t3), s)

/-! ## Writing a packet (R180 to R182, R188, R189, R198) -/

/-- OFFSET_n as ingress samples it (R198, R214, R216): OFFSET + DRIFT × time since the last accepted sample.
DESIGN CHOICE (notes/assumptions/38.md). -/
def State.camOffset (s : State) (n : Nat) : Int :=
  let base := toSigned 64 (s.reg R.tmCamOfsLoOffset n + 2 ^ 32 * s.reg R.tmCamOfsHiOffset n)
  let dt : Int := (s.devtime : Int) - ((s.tm.cams.getD n {}).lastAt : Int)
  base + openDiv 214 (s.regS R.tmCamDriftPpb n * dt) 1000000000

/-- An event cell (R180): DEVTIME in µs, port, polarity, place and tags. -/
def eventCell (n us : Nat) (e : Event) (tags : Nat) : Cell64 :=
  BitVec.ofNat 64 (us % 2 ^ 24 * 2 ^ 40 + n % 4 * 2 ^ 38 + ofFlag e.pol * 2 ^ 37 + e.y % 4096 * 2 ^ 24 + e.x % 4096 * 2 ^ 12 + tags % 256)

/-- One event of a packet: bounds, filters, alignment, its cell (R178, R180, R183, R188, R189). `w` counts landed cells and
notes a loss. -/
def State.writeEvent (s : State) (n : Nat) (item : ItemId) (offset : Option Int) (w : Nat × Bool) (e : Event) (regress : Bool) :
    (Nat × Bool) × State :=
  if s.setting n R.eiPSizeWM1 < e.x ∨ s.setting n R.eiPSizeHM1 < e.y then (w, s.countPort n 6)
  else
    match s.filterEvent n (if offset.isNone then { e with time := e.time / 1000 } else e) with
    | (none, s) => (w, s)
    | (some t, s) =>
      let dev : Int := match offset with
        | some o => (e.time : Int) * 1000 + o
        | none => (e.time : Int)
      let us := dev / 1000
      let future := decide ((s.devtime : Int) + 1000 * (s.setting n R.eiPTimeFutTol : Int) < dev)
      let tags := t + 16 * ofFlag regress + 32 * ofFlag future + 64 * ofFlag offset.isNone
      let s := s.portMark n (us / 2 ^ 24 % 2 ^ 24).toNat
      let ok := decide (s.pushRes (1 + n) (s.portQid n) false false = .landed)
      let s := s.push (1 + n) (s.portQid n) (eventCell n (us % 2 ^ 24).toNat e tags) item false false
      ((w.1 + ofFlag ok, w.2 || !ok), s.seeEvent n us.toNat e.x e.y tags (s.setting n R.eiPSizeWM1 + 1))

/-- The end-of-packet cell, the record of a lossy packet, and a gap marker for each report of camera losses (R180 to R182);
`above` counts the events of the handshakes that were withheld (R193). -/
def State.endPacket (s : State) (n : Nat) (item : ItemId) (w : Nat × Bool) (lost : List Nat) (above : Nat) : State :=
  let s := s.portFirst n
  let lossy := w.2 || decide (0 < above)
  let ok := decide (s.pushRes (1 + n) (s.portQid n) true false = .landed)
  let s := s.push (1 + n) (s.portQid n) (eopCell item w.1 lossy) item true false
  let full := w.2 || !ok
  let s := if full then s.countPort n 7 else s
  let s := if full || decide (0 < above) then s.report item 0x01 n (ofFlag full + 2 * ofFlag (decide (0 < above))) else s
  (lost ++ [above]).foldl (fun s c => s.portGap n c) (s.countPort n 13 lost.sum)

/-- The events of a packet, one after another. -/
def State.writeEvents (s : State) (n : Nat) (item : ItemId) (offset : Option Int) :
    Nat × Bool → List (Event × Bool) → (Nat × Bool) × State
  | w, [] => (w, s)
  | w, e :: t =>
    let r := s.writeEvent n item offset w e.1 e.2
    r.2.writeEvents n item offset r.1 t

/-- The packet at the head of port n's buffers is written and its buffer freed. -/
def State.writePacket (s : State) (n : Nat) (b : RxPacket) : State :=
  let s := s.modPort n fun p => { p with bufs := p.bufs.tail }
  if b.arrival then
    let s := s.countPort n 1 b.events.length
    let r := s.writeEvents n b.item none (0, false) (b.events.map fun e => (e, false))
    r.2.endPacket n b.item r.1 [] b.lost
  else
    let offset := s.camOffset n
    let u := b.words.foldl (unpackWord (s.setting n R.eiPTimeRegressTol)) (s.port n, {})
    let s := (s.modPort n fun _ => u.1).countPort n 1 u.2.events.length
    let r := s.writeEvents n b.item (some offset) (0, false) u.2.events
    (r.2.endPacket n b.item r.1 u.2.lost 0).portFront n (((u.2.latest : Int) * 1000 + offset) / 1000).toNat

/-! ## AER (R191 to R193) -/

/-- There is space for one more event: a pseudo-packet is open, or a buffer is free (R192).
DESIGN CHOICE (notes/assumptions/37.md). -/
def State.aerSpace (s : State) : Bool := s.ei.aerPkt.isSome || decide ((s.port 3).bufs.length < 2)

/-- The open pseudo-packet closes and joins the buffers of P3 (R191). -/
def State.aerClose (s : State) : State :=
  match s.ei.aerPkt with
  | some p =>
    (((s.modEi fun e => { e with aerPkt := none }).modPort 3 fun q => { q with bufs := q.bufs ++ [p] }).disarm .pktUs).refreshXoff
  | none => s

/-- An AER word is sampled (R191, R192): its event joins the pseudo-packet; a word that breaks the format is discarded and
counted. DESIGN CHOICE (notes/assumptions/37.md). -/
def State.aerSample (s : State) (w : BitVec 28) : State :=
  let v := w.toNat
  let s := s.modPins fun p => { p with aerAck := .high }
  if bits v 27 25 ≠ 0 then s.countPort 3 11
  else
    let e : Event := { time := s.devtime, x := bits v 11 0, y := bits v 23 12, pol := bitAt v 24 }
    let s := match s.ei.aerPkt with
      | some _ => s
      | none =>
        let (item, s) := s.portItem 3
        let lost := s.ei.aerLost
        ((s.countPort 3 0).modEi fun x =>
          { x with aerPkt := some { item := item, arrival := true, lost := lost }, aerLost := 0 }).arm .pktUs (1000 * s.reg R.eiAerPktUs)
    let s := s.modEi fun x => { x with aerPkt := x.aerPkt.map fun p => { p with events := p.events ++ [e] } }
    match s.ei.aerPkt with
    | some p => if max 1 (s.reg R.eiAerPktEv) ≤ p.events.length then s.aerClose else s
    | none => s

/-- A withheld handshake goes on once there is space (R192, R193). -/
def State.aerRetry (s : State) : State :=
  match s.ei.aerWait with
  | some w => if s.aerSpace then (((s.modEi fun e => { e with aerWait := none }).disarm .aerHold).aerSample w) else s
  | none => s

/-- EVENT_PACKET_WRITE (R178, R180 to R189, R197 to R199, R236, R336): the next buffered packet of the port is filtered and
written. -/
def execEventPacketWrite (port : Nat) (s : State) : Out :=
  .next (match (s.port port).bufs with
    | b :: _ =>
      if !(s.domOn (s.epDomain (1 + port))) || s.quiesced then s
      else
        let s := (s.writePacket port b).refreshXoff
        if port = 3 then s.aerRetry else s
    | [] => s)

/-- AER_REQUEST (R191 to R193). -/
def execAerRequest (word : BitVec 28) (s : State) : Out :=
  .next (if !(s.portOpen 3 true) || s.pins.aerAck == .high || s.ei.aerWait.isSome then s
    else if s.aerSpace || bits word.toNat 27 25 != 0 then s.aerSample word
    else (s.modEi fun e => { e with aerWait := some word }).arm .aerHold (s.reg R.eiAerHoldNs))

/-- AER_REQ_FALL (R192): AER_ACK falls. -/
def execAerReqFall (s : State) : Out :=
  .next (if s.pins.aerAck = .high then s.modPins fun p => { p with aerAck := .low } else s)

/-- AER_HOLD_EXPIRE (R193): the handshake completes, and the event is counted in the next pseudo-packet. -/
def execAerHoldExpire (s : State) : Out :=
  .next (if s.ei.aerWait.isSome && s.due .aerHold then
    ((s.modEi fun e => { e with aerWait := none, aerLost := e.aerLost + 1 }).disarm .aerHold).modPins fun p => { p with aerAck := .high }
  else s)

/-- PSEUDO_PACKET_TIMEOUT (R191). -/
def execPseudoPacketTimeout (s : State) : Out := .next (if s.due .pktUs then s.aerClose else s)

/-! ## Glint windows, the refractory sweep, settings (R185, R187, R197, R199, R202) -/

/-- A glint cell at the end of a window (R187). -/
def glintNext (thresh bal : Nat) (until_ : Nat) (g : GlintCell) : GlintCell :=
  let n := g.on + g.off
  let diff := max g.on g.off - min g.on g.off
  let q := decide (thresh ≤ n) && decide (256 * diff ≤ bal * n)
  { g with on := 0, off := 0, glinting := g.glinting || q, until_ := if q then until_ else g.until_, seen := if g.glinting then g.seen else 0 }

/-- The glint cells of port n that one window end evaluates: those with a counted event or a state, and, where no event at all
qualifies a cell, every cell of the sensor (R187). -/
def State.glintCells (s : State) (n : Nat) : List GlintCell :=
  let l := (s.port n).glint
  if s.setting n R.eiPGlintThresh ≠ 0 then l
  else
    let c := glintSide (s.setting n R.eiPGlintCell)
    let cols := ceilDiv (s.setting n R.eiPSizeWM1 + 1) c
    let all := List.range (cols * ceilDiv (s.setting n R.eiPSizeHM1 + 1) c)
    l ++ all.filterMap fun i =>
      if l.any fun g => g.cx == i % cols && g.cy == i / cols then none else some { cx := i % cols, cy := i / cols }

/-- GLINT_WINDOW_END (R187). DESIGN CHOICE (notes/assumptions/37.md). -/
def execGlintWindowEnd (port : Nat) (s : State) : Out :=
  .next (if s.due (.glintWin port) then
    let hold := s.devtime + 1000 * s.setting port R.eiPGlint2Hold
    let cells := s.glintCells port
    let s := s.modPort port fun p =>
      { p with glint := cells.map (glintNext (s.setting port R.eiPGlintThresh) (s.setting port R.eiPGlint2Bal) hold) }
    s.arm (.glintWin port) (1000 * max 1 (s.setting port R.eiPGlintWin))
  else s)

/-- GLINT_HOLD_EXPIRE (R187): cells whose HOLD has passed stop glinting. -/
def execGlintHoldExpire (port : Nat) (s : State) : Out :=
  .next (s.modPort port fun p => { p with glint := p.glint.map fun g =>
    if g.glinting ∧ g.until_ ≤ s.devtime then { g with glinting := false, seen := 0 } else g })

/-- REFRACT_SWEEP (R185): entries older than 16,384 µs against the port's latest time are invalidated. -/
def execRefractSweep (port : Nat) (s : State) : Out :=
  .next (let now := if s.flag R.eiPCfgMode port then s.us else (s.port port).latestRow
    s.modPort port fun p => { p with refract := p.refract.filter fun r => decide (now ≤ r.2.2 + 16384) })

/-- COMMIT (R185, R187, R197): the pending copy is marked for application, or refused with CFG_ERR. -/
def execCommit (port : Nat) (s : State) : Out :=
  .next (if s.member.ports ≤ port then s
    else
      let s := s.setCmd R.eiPCtrlCommit port
      s.setReg (if s.copyBad port then R.eiPStatusCfgErr else R.eiPStatusCommitPend) 1 port)

/-- What the glint windows of port n run on: suppressor on, WIN and CELL (R187). -/
def State.glintRun (s : State) (n : Nat) : Bool × Nat × Nat :=
  (filterMode (s.setting n R.eiPFiltGlint) != 0, s.setting n R.eiPGlintWin, s.setting n R.eiPGlintCell)

/-- The pending copy comes into force (R197). Tables whose geometry changes are emptied; the glint windows begin afresh, with
counts of 0, where the suppressor comes on or WIN or CELL changes, and go on otherwise (R187).
DESIGN CHOICE (notes/assumptions/37.md). -/
def State.applyCopy (s : State) (n : Nat) : State :=
  let old := (s.setting n R.eiPFiltBin, s.setting n R.eiPGlintCell)
  let run := s.glintRun n
  let copy := s.pendingCopy n
  let s := s.modPort n fun p => { p with applied := copy, hot := (p.hotPend.filter fun h => bitAt h.2 31).map fun h => (bits h.2 11 0, bits h.2 27 16) }
  let s := if s.setting n R.eiPFiltBin = old.1 then s else s.modPort n fun p => { p with refract := [] }
  let s := if s.setting n R.eiPGlintCell = old.2 then s else s.modPort n fun p => { p with glint := [] }
  let s := s.setReg R.eiPStatusCommitPend 0 n
  if (s.glintRun n).1 = false then s.disarm (.glintWin n)
  else if s.glintRun n = run then s
  else (s.modPort n fun p => { p with glint := p.glint.map fun g => { g with on := 0, off := 0 } }).arm (.glintWin n)
    (1000 * max 1 (s.setting n R.eiPGlintWin))

/-- COMMIT_APPLY (R185, R187, R197): at a packet boundary. -/
def execCommitApply (port : Nat) (s : State) : Out :=
  .next (if !(s.flag R.eiPStatusCommitPend port) then s
    else if s.copyBad port then (s.setReg R.eiPStatusCfgErr 1 port).setReg R.eiPStatusCommitPend 0 port
    else s.applyCopy port)

/-- CNT_CLR (R202). -/
def execCntClr (port : Nat) (s : State) : Out :=
  .next (if s.member.ports ≤ port then s else (List.range 15).foldl (fun s i => s.setReg R.eiPCntCount 0 port i) (s.setCmd R.eiPCtrlCntClr port))

/-- HOT_CLR (R202): the pending hot list is emptied. -/
def execHotClr (port : Nat) (s : State) : Out := 
  .next ((if s.member.ports ≤ port then s else s.setCmd R.eiPCtrlHotClr port).modPort port fun p => { p with hotPend := [] })

/-- PORT_EN (R199, R202, R207, R217). -/
def execPortEn (port : Nat) (on : Bool) (s : State) : Out :=
  .next (if s.member.ports ≤ port then s
    else if on then
      let s := if s.flag R.eiPCfgEn port then s else s.forgetMarks fun k => k.1 == 1 + port
      (s.setReg R.eiPCfgEn 1 port).modTm fun t => { t with noStep := true }
    else s.setReg R.eiPCfgEn 0 port)

/-! ## Thermal frames (R194, R200) -/

/-- Thermal port m receives: enabled, or with a frame in hand, which is written to its end (R194, R199). -/
def State.thermalOpen (s : State) (m : Nat) : Bool :=
  decide (m < s.member.thermals) && s.domOn 3 && !s.quiesced && (s.flag R.eiTCfgEn m || (s.ei.thermal.getD m none).isSome)

/-- Thermal port m receives, and a packet is of its virtual channel (R176). -/
def State.thermalTakes (s : State) (m : Nat) (vc : BitVec 2) : Bool := s.thermalOpen m && vc.toNat == s.reg R.eiTCfgVc m

/-- Count in EI_Tm_CNTi (R202): 0 FRAMES, 1 LINE_ERR, 2 QFULL, 3 CRC, 4 HDR, 5 OTHER. -/
def State.countThermal (s : State) (m i : Nat) (k : Nat := 1) : State := s.bump R.eiTCntCount m i k

/-- Change the frame in progress on thermal port m. -/
def State.modThermal (s : State) (m : Nat) (f : Option ThermalFrame → Option ThermalFrame) : State :=
  s.modEi fun e => { e with thermal := e.thermal.modify m f }

/-- Push a cell of the frame of port m, with the epoch marker that is due before it (R217); a push that does not land is
noted. DESIGN CHOICE (notes/assumptions/37.md). -/
def State.thermalPush (s : State) (m : Nat) (f : ThermalFrame) (c : Cell64) (last : Bool) : State :=
  let s := s.epochMark (5 + m) f.qid m f.epoch 0
  let ok := decide (s.pushRes (5 + m) f.qid last false = .landed)
  (s.push (5 + m) f.qid c f.item last false).modThermal m fun o => o.map fun x => { x with dropped := x.dropped || !ok }

/-- The data cells of one line (R194). -/
def lineCells (w : Nat) (px : List (BitVec 14)) (invalid : Bool) : List Cell64 :=
  (List.range (ceilDiv w 4)).map fun i => BitVec.ofNat 64 ((List.range 4).foldl (fun a k =>
    let v := if w ≤ 4 * i + k then 0 else if invalid then 0x8000 else (px.getD (4 * i + k) 0).toNat
    a + v * 2 ^ (16 * k)) 0)

/-- Lines up to line n of the frame are written as invalid where they are missing (R194).
DESIGN CHOICE (notes/assumptions/37.md). -/
def State.fillLines (s : State) (m : Nat) : Nat → State
  | 0 => s
  | k + 1 =>
    match s.ei.thermal.getD m none with
    | some f =>
      let s := (lineCells f.w [] true).foldl (fun s c => s.thermalPush m f c false) s
      (s.modThermal m fun o => o.map fun x => { x with nextLine := x.nextLine + 1, invalid := x.invalid + 1 }).fillLines m k
    | none => s

/-- The frame of port m ends: missing lines, trailer, counters and record (R194, R200). -/
def State.endThermal (s : State) (m : Nat) : State :=
  match s.ei.thermal.getD m none with
  | some f =>
    let s := s.fillLines m (f.h - f.nextLine)
    match s.ei.thermal.getD m none with
    | some f =>
      let c : Cell64 := BitVec.ofNat 64 (f.item.toNat * 2 ^ 32 + f.invalid % 1024 * 2 ^ 12 + 7 * 2 ^ 8)
      let s := s.thermalPush m f c true
      let lost := match s.ei.thermal.getD m none with
        | some x => x.dropped
        | none => false
      let s := ((s.countThermal m 0).countThermal m 1 f.invalid).countThermal m 2 (ofFlag lost)
      let s := if lost || f.invalid != 0 then s.report f.item 0x01 (4 + m) (ofFlag lost + 32 * ofFlag (f.invalid != 0)) else s
      s.modThermal m fun _ => none
    | none => s
  | none => s

/-- The severity-1 fault of a thermal port with 64 HDR items within 1 s (R200). -/
def State.thermalError (s : State) (m : Nat) : State :=
  let l := ((s.ei.thermalErr.getD m []).filter fun t => decide (s.devtime < t + 1000000000)) ++ [s.devtime]
  let s := s.modEi fun e => { e with thermalErr := e.thermalErr.set m l }
  if l.length = 64 then s.raise (0x404090 + 0x1000 * m) 0 1 3 else s

/-- THERMAL_FRAME_START (R176, R194, R199, R200, R217): a frame that had no Frame End is ended first. An uncorrectable header
shows no virtual channel. -/
def execThermalFrameStart (m : Nat) (vc : BitVec 2) (ecc : Ecc) (s : State) : Out :=
  .next (if !(s.thermalOpen m) || ecc != .uncorrectable && vc.toNat != s.reg R.eiTCfgVc m then s
    else if !(s.flag R.eiTCfgEn m) then s.endThermal m
    else
      let s := s.endThermal m
      let item := s.nextItem (5 + m)
      let s := s.takeItem (5 + m)
      if ecc = .uncorrectable then ((s.countThermal m 4).report item 0x01 (4 + m) 8).thermalError m
      else
        let f : ThermalFrame :=
          { item := item, w := s.reg R.eiTSizeW m, h := s.reg R.eiTSizeH m, qid := s.reg R.eiTCfgQid m, epoch := epochOf s.us }
        let s := s.modThermal m fun _ => some f
        let c : Cell64 := BitVec.ofNat 64 (s.us % 2 ^ 24 * 2 ^ 40 + m % 4 * 2 ^ 38 + f.h % 4096 * 2 ^ 24 + f.w % 4096 * 2 ^ 12 + 6 * 2 ^ 8)
        s.thermalPush m f c false)

/-- THERMAL_LINE (R176, R194, R199, R200): a line that is short, long or fails its CRC is written invalid; a line whose header
cannot be read is missing, and counts in HDR whatever its channel; another data type counts in OTHER, inside a frame or between
frames. DESIGN CHOICE (notes/assumptions/37.md). -/
def execThermalLine (m : Nat) (line : Nat) (vc : BitVec 2) (dt : BitVec 8) (ecc : Ecc) (crcOk : Bool) (pixels : List (BitVec 14))
    (s : State) : Out :=
  .next (if !(s.thermalOpen m) then s
    else if ecc = .uncorrectable then (s.countThermal m 4).thermalError m
    else if vc.toNat ≠ s.reg R.eiTCfgVc m then s
    else if dt ≠ 0x2D then s.countThermal m 5
    else match s.ei.thermal.getD m none with
    | some f =>
      if line < f.nextLine ∨ f.h ≤ line then s
      else
        let s := s.fillLines m (line - f.nextLine)
        let bad := !crcOk || pixels.length != f.w
        let s := if crcOk then s else s.countThermal m 3
        let s := (lineCells f.w pixels bad).foldl (fun s c => s.thermalPush m f c false) s
        s.modThermal m fun o => o.map fun x => { x with nextLine := x.nextLine + 1, invalid := x.invalid + ofFlag bad }
    | none => s)

/-- THERMAL_FRAME_END (R194, R200). -/
def execThermalFrameEnd (m : Nat) (vc : BitVec 2) (s : State) : Out :=
  .next (if s.thermalTakes m vc then s.endThermal m else s)

end Sys2Proof.Machine
end

