-- ==== Sys2Proof/Machine/Sea.lean ====
section
/-! DEFINITION. The sea plane (R346, R347, R351): rays of sensor pixels, turned by the mounting of the camera and by roll and
pitch, and points seen from a camera. Angles are in 0.01 degrees; sines and cosines in units of 2^-64. -/
namespace Sys2Proof.Machine

/-- One unit of the trigonometric scale. -/
def trigOne : Int := 2 ^ 64

/-- Terms of a series x - x^3/3! + ... from a first term: n further terms, the next divisor k (k + 1).
PRESUMED (notes/assumptions/51.md). -/
def trigSeries (x2 : Int) : Nat → Int → Int → Int
  | 0, _, t => t
  | n + 1, k, t => t + trigSeries x2 n (k + 2) (-(t * x2 / trigOne) / (k * (k + 1)))

/-- An angle in 0.01 degrees as radians on the scale: π is 57952155664616982739 × 2^-64. -/
def radians (a : Int) : Int := ((a + 18000) % 36000 - 18000) * 57952155664616982739 / 18000

/-- Sine of an angle. -/
def sin100 (a : Int) : Int := let x := radians a; trigSeries (x * x / trigOne) 24 2 x

/-- Cosine of an angle. -/
def cos100 (a : Int) : Int := let x := radians a; trigSeries (x * x / trigOne) 24 1 trigOne

/-- The calibration of a source (R344, R346, R368): focal length, height in cm, principal point, mounting angles. -/
structure Calib where
  f : Nat
  height : Nat
  cx : Nat
  cy : Nat
  yaw : Int
  mount : Int
  deriving DecidableEq, Repr

/-- A direction: to the right or starboard, down, and forward. -/
structure Ray where
  right : Int
  down : Int
  fwd : Int
  deriving DecidableEq, Repr

/-- Turn the down and forward parts: an upward pitch a of the frame that the ray is in. -/
def Ray.pitch (r : Ray) (a : Int) : Ray :=
  { right := r.right * trigOne, down := r.down * cos100 a - r.fwd * sin100 a, fwd := r.fwd * cos100 a + r.down * sin100 a }

/-- Turn the right and forward parts: a yaw a to starboard of the frame that the ray is in. -/
def Ray.yaw (r : Ray) (a : Int) : Ray :=
  { right := r.right * cos100 a + r.fwd * sin100 a, down := r.down * trigOne, fwd := r.fwd * cos100 a - r.right * sin100 a }

/-- Turn the right and down parts: a roll a, starboard down, of the frame that the ray is in. -/
def Ray.roll (r : Ray) (a : Int) : Ray :=
  { right := r.right * cos100 a - r.down * sin100 a, down := r.down * cos100 a + r.right * sin100 a, fwd := r.fwd * trigOne }

/-- A camera ray in the levelled boat frame (R344, R346). PRESUMED (notes/assumptions/51.md). -/
def Ray.level (r : Ray) (c : Calib) (roll pitch : Int) : Ray := (((r.pitch c.mount).yaw c.yaw).roll roll).pitch pitch

/-- A levelled ray in the camera's frame. PRESUMED (notes/assumptions/51.md). -/
def Ray.unlevel (r : Ray) (c : Calib) (roll pitch : Int) : Ray := (((r.pitch (-pitch)).roll (-roll)).yaw (-c.yaw)).pitch (-c.mount)

/-- Where the ray of pixel (x, y) meets the sea plane, X and Y in cm (R346); none where it does not descend.
PRESUMED (notes/assumptions/51.md). -/
def seaProject (c : Calib) (roll pitch : Int) (x y : Nat) : Option (Int × Int) :=
  let r := ({ right := (x : Int) - c.cx, down := (y : Int) - c.cy, fwd := c.f } : Ray).level c roll pitch
  if r.down ≤ 0 then none else some (openDiv 346 (c.height * r.right) r.down, openDiv 346 (c.height * r.fwd) r.down)

/-- The pixel nearest to a point of the sea plane, X and Y in half cm (R347, R351); none behind the camera.
PRESUMED (notes/assumptions/51.md). -/
def seaToPixel (c : Calib) (roll pitch : Int) (x2 y2 : Int) : Option (Int × Int) :=
  let r := ({ right := x2, down := 2 * c.height, fwd := y2 } : Ray).unlevel c roll pitch
  if r.fwd ≤ 0 then none
  else some ((c.cx : Int) + openRound 347 (c.f * r.right) r.fwd, (c.cy : Int) + openRound 347 (c.f * r.down) r.fwd)

end Sys2Proof.Machine
end

