-- ==== Sys2Proof/Machine/Motion.lean ====
section
/-! DEFINITION. The sums behind ego-motion: the rotational flow of spikes and its least-squares solution (R344), and the horizon
line (R345), in exact arithmetic. What FP32 may round away is open: log entry 9. -/
namespace Sys2Proof.Machine

/-! ## The rotational flow (R344) -/

/-- One equation a · ω = b of the least-squares system, ω in the boat frame (R344). -/
structure FlowEq where
  a : Ray
  b : Int
  deriving DecidableEq, Repr

/-- The common scale of the equations of calibrations with the product p of their focal lengths. -/
def flowScale (p : Nat) : Int := p * trigOne * trigOne

/-- The two equations of a spike at pixel (x, y) of a plane, scaled by flowScale p (R344): its image velocity is SPEED in
direction plane × 45°. The camera's axes are turned into the boat's by its mounting. PRESUMED (notes/assumptions/51.md). -/
def flowEqs (p : Nat) (c : Calib) (speed plane x y : Nat) : List FlowEq :=
  let u : Int := (x : Int) - c.cx
  let v : Int := (y : Int) - c.cy
  let f : Int := c.f
  let k : Int := p / c.f
  let turn := fun (r : Ray) => (r.pitch c.mount).yaw c.yaw
  let angle : Int := 4500 * (plane : Int)
  [{ a := turn { right := u * v * k, down := -((f * f + u * u) * k), fwd := v * p }, b := speed * cos100 angle * trigOne * p },
   { a := turn { right := (f * f + v * v) * k, down := -(u * v * k), fwd := -(u * p) }, b := speed * sin100 angle * trigOne * p }]

/-- A sum over the equations. -/
def sumEqs (l : List FlowEq) (f : FlowEq → Int) : Int := l.foldl (fun s e => s + f e) 0

/-- A determinant of order 3, by rows. -/
def det3 (a b c d e f g h i : Int) : Int := a * (e * i - f * h) - b * (d * i - f * g) + c * (d * h - e * g)

/-- The least-squares solution of the equations: ω about the right, down and forward axes in rad/s as numerators over a positive
denominator, and the sum of the squared residuals over the same denominator and the squared scale; none where the equations
do not determine ω. -/
structure FlowFit where
  right : Int
  down : Int
  fwd : Int
  den : Int
  resid : Int
  deriving DecidableEq, Repr

/-- Least squares by the normal equations (R344). DEDUCED (notes/assumptions/73.md). -/
def fitFlow (l : List FlowEq) : Option FlowFit :=
  let n := fun (f g : Ray → Int) => sumEqs l fun e => f e.a * g e.a
  let t := fun (f : Ray → Int) => sumEqs l fun e => f e.a * e.b
  let rr := n Ray.right Ray.right
  let rd := n Ray.right Ray.down
  let rf := n Ray.right Ray.fwd
  let dd := n Ray.down Ray.down
  let df := n Ray.down Ray.fwd
  let ff := n Ray.fwd Ray.fwd
  let tr := t Ray.right
  let td := t Ray.down
  let tf := t Ray.fwd
  let den := det3 rr rd rf rd dd df rf df ff
  let right := det3 tr rd rf td dd df tf df ff
  let down := det3 rr tr rf rd td df rf tf ff
  let fwd := det3 rr rd tr rd dd td rf df tf
  if den ≤ 0 then none
  else some { right := right, down := down, fwd := fwd, den := den,
              resid := sumEqs l (fun e => e.b * e.b) * den - (tr * right + td * down + tf * fwd) }

/-- An angular rate num / den in rad/s as 0.01°/s (R344, R355). -/
def centiDegrees (num den : Int) : Int := openDiv 344 (num * 18000 * trigOne) (den * 57952155664616982739)

/-- The RMS residual of n spikes is at most lim px/s (R344): the root of the mean squared length of a spike's residual.
DEDUCED (notes/assumptions/73.md). -/
def FlowFit.within (f : FlowFit) (p n lim : Nat) : Bool :=
  decide (f.resid ≤ (lim : Int) * lim * n * f.den * flowScale p * flowScale p)

/-! ## The horizon line (R345) -/

/-- The largest angle a in 0.01°, from -9000 to 8999, with tan a ≤ num / den (den positive), by bisection. -/
def atanSearch (num den : Int) : Nat → Int → Int
  | 0, a => a
  | k + 1, a =>
    let m := a + 2 ^ k
    if m < 9000 ∧ sin100 m * den ≤ num * cos100 m then atanSearch num den k m else atanSearch num den k a

/-- The arc tangent of num / den (den positive) in 0.01°; its rounding is open. DESIGN CHOICE (notes/assumptions/5.md). -/
def openAtan (num den : Int) : Int :=
  if num = 0 then 0 else atanSearch num den 15 (-9000) + (if Config.divUp 345 num den then 1 else 0)

/-- Least squares through the band results (band, row) of an image w wide (R345): slope numerator, slope denominator in rows per
sixteenth of w, and the row at column cx as a fraction. -/
def fitLine (w cx : Nat) (l : List (Nat × Nat)) : Int × Int × Int × Int :=
  let n : Int := l.length
  let sum := fun (f : Nat × Nat → Int) => l.foldl (fun a e => a + f e) 0
  let x := fun (e : Nat × Nat) => (2 * e.1 + 1 : Int)
  let sx := sum x
  let sy := sum fun e => (e.2 : Int)
  let num := n * sum (fun e => x e * e.2) - sx * sy
  let den := n * sum (fun e => x e * x e) - sx * sx
  (num, den, sy * den * w + num * (16 * cx * n - sx * w), n * den * w)

/-- φ_h and θ_h in 0.01° from the usable bands of an image w wide (R345). The line's row y_h is read at the column of the principal
point, and a line that rises to the right is a roll starboard down. DEDUCED (notes/assumptions/73.md). -/
def horizonAngles (c : Calib) (w : Nat) (l : List (Nat × Nat)) : Int × Int :=
  let r := fitLine w c.cx l
  let dip : Int := openDiv 345 (Nat.sqrt (85849 * c.height)) 1000
  (-(openAtan (16 * r.1) (r.2.1 * w)), openAtan (r.2.2.1 - c.cy * r.2.2.2) (r.2.2.2 * c.f) - c.mount - dip)

end Sys2Proof.Machine
end

