-- ==== Sys2Proof/Machine/FusionOps.lean ====
section
/-! DEFINITION. The fusion engine's named operations: commands, health, the ladder, attitude, parity (R336 to R345, R357 to
R359, R364, R366). -/
namespace Sys2Proof.Machine

/-! ## Sources (R336, R358, R359) -/

/-- Bits of FU_SRCSTATE.QUAR. -/
def State.quarantined (s : State) (n : Nat) : Bool := bitAt (s.reg R.fuSrcstateQuar) n

/-- The tests and the health of source n. -/
def State.srcTest (s : State) (n : Nat) : SourceTest := s.fu.srcs.getD n {}

/-- The sources that an enabled channel names (R358). -/
def State.fuSources (s : State) : List Nat :=
  (List.range 6).filter fun n => (List.range 16).any fun c => s.flag R.fuInCfgEn c && s.reg R.fuInCfgSrc c == n

/-- The power domain of a source: that of its ingress port (R70). DESIGN CHOICE (notes/assumptions/50.md). -/
def State.srcOn (s : State) (n : Nat) : Bool := s.domOn (s.epDomain (n + 1))

/-- A source is healthy (R358). -/
def State.srcHealthy (s : State) (n : Nat) : Bool :=
  s.srcOn n && !(s.quarantined n) &&
  match (s.srcTest n).lastAdvance with
  | some t => decide (s.devtime ≤ t + 1000000 * s.reg R.fuLadderStaleMs)
  | none => false

/-- A source is healthy and in use (R359). -/
def State.srcUsable (s : State) (n : Nat) : Bool := s.srcHealthy n && !(s.srcTest n).outOfUse

/-- DET items of a source are used at the level in force: none at D5, thermal ones alone at D4 (R358, R359). -/
def State.detUsable (s : State) (n : Nat) : Bool :=
  s.srcUsable n && decide (s.reg R.fuStatusLevel < 4 ∨ s.reg R.fuStatusLevel = 4 ∧ 4 ≤ n)

/-- A channel's source is usable; a channel without a source is (R336). DESIGN CHOICE (notes/assumptions/50.md). -/
def State.chanUsable (s : State) (c : Nat) : Bool :=
  let n := s.reg R.fuInCfgSrc c
  decide (6 ≤ n) || s.srcUsable n

/-- The calibration of a source (R368). -/
def State.calib (s : State) (n : Nat) : Calib :=
  { f := s.reg R.fuSrcCal0F n, height := s.reg R.fuSrcCal0HeightCm n, cx := s.reg R.fuSrcCal1Cx n, cy := s.reg R.fuSrcCal1Cy n,
    yaw := s.regS R.fuSrcCal2Yaw n, mount := s.regS R.fuSrcCal2MountPitch n }

/-- Width and height of a source's image in pixels. -/
def State.srcSize (s : State) (n : Nat) : Nat × Nat :=
  if n < 4 then (s.setting n R.eiPSizeWM1 + 1, s.setting n R.eiPSizeHM1 + 1) else (s.reg R.eiTSizeW (n - 4), s.reg R.eiTSizeH (n - 4))

/-- The image of a source contains a point of the sea plane in cm (R351, R360). -/
def State.srcSees (s : State) (n : Nat) (x y : Int) : Bool :=
  match seaToPixel (s.calib n) s.fu.roll s.fu.pitch (2 * x) (2 * y) with
  | some (px, py) =>
    let z := s.srcSize n
    decide (0 ≤ px) && decide (px < z.1) && decide (0 ≤ py) && decide (py < z.2)
  | none => false

/-- One QUARANTINE record for an item of a quarantined source (R360). -/
def State.quarItem (s : State) (n : Nat) (item : ItemId) : State :=
  ((s.unmark item).bump R.fuCntCount 8).report item 0x0E n (s.srcTest n).lastBits

/-! ## Commands (R338, R366) -/

/-- The mask of group g and the tile at a position, in the active group table (R152, R300). -/
def State.groupTile (s : State) (g p : Nat) : Option Nat :=
  match s.pp.plan with
  | none => none
  | some l => nthSet 64 0 (s.ext.readNat (l.addr + l.groupOff + 1024 * (8 * s.reg R.ppPlanIdCvSlot + s.reg R.ppStatusPhase) + 16 * g) 8) p

/-- The address in a tile of n bytes at an offset of a command's target partition (R338, R366). -/
def State.fuTarget (s : State) (c : Cell64) (off n : Nat) : Option (Nat × Nat) :=
  (s.groupTile (bits c.toNat 9 4) (bits c.toNat 15 10)).bind fun t => (s.region t (bits c.toNat 19 16) off n).map fun a => (t, a)

/-- The engine runs. -/
def State.fuRuns (s : State) : Bool := s.domOn 7 && s.flag R.fuCtrlEn && !s.quiesced

/-- The cell of the command at the head of CMD_QID. -/
def State.fuHeadCell (s : State) : Option Cell := (s.queue (s.reg R.fuCtrlCmdQid)).cells.find? fun c => !c.marker

/-- The command at the head of CMD_QID. -/
def State.fuHead (s : State) : Option Cell64 := s.fuHeadCell.map (·.data)

/-- The step of the command at the head (R339). -/
def State.cycleNext (s : State) : Nat :=
  match s.fuHeadCell with
  | some c => s.itemStep c.item
  | none => s.reg R.ppStepCount

/-- The command at the head is the first of its step, whose cycle has not started (R339, R363). Where output channels are enabled, a
cycle lasts until its POST, or until the next step where a command of it was poisoned. DESIGN CHOICE (notes/assumptions/50.md). -/
def State.cycleDue (s : State) : Bool :=
  s.fu.cycleStep != some s.cycleNext &&
  (!s.fu.cycleOpen || s.fu.spoiled || !((List.range 16).any fun c => s.flag R.fuOutCfgEn c))

/-- The engine takes its next command (R338): nothing where there is none, or where its cycle has not started. -/
def State.takeCommand (s : State) : Option (Delivery × Taken) × State :=
  if !s.fuRuns || s.cycleDue then (none, s) else s.popFor 0x0B 0x62 (s.reg R.fuCtrlCmdQid) false Upset.none

/-- A command has finished (R338): its cell goes back with STATUS. -/
def State.commandDone (s : State) (d : Delivery) (status : Nat) : State :=
  s.pushItem 0x62 (s.reg R.fuCtrlDoneQid) (BitVec.ofNat 64 (putBits d.data.toNat 27 24 status)) (cellItem d.data) true false 0x0B 0

/-- A command is refused (R366). -/
def State.refuseCommand (s : State) (d : Delivery) : State :=
  ((s.setReg R.fuStatusCmdErr 1).raise 0xD00030 8 2 0x0B).commandDone d 3

/-- STATUS of a finished command (R338). -/
def State.doneStatus (s : State) : Nat := if s.fu.stragglers = 0 then 0 else 1

/-- Serve the command at the head where it is of SUB (R338, R366). One whose SUB names nothing is refused, and one whose cell
was poisoned gives a poison replacement cell (R239). `run` answers none for a bad target.
DESIGN CHOICE (notes/assumptions/50.md). -/
def State.serveCommand (s : State) (sub : Nat) (run : Cell64 → State → Option State) : State :=
  match s.fuHead with
  | none => s
  | some h =>
    if bits h.toNat 3 0 ≠ sub ∧ bits h.toNat 3 0 < 5 then s
    else
      match s.takeCommand with
      | (none, s) => s
      | (some (d, got), s) =>
        if got = .gap then s.bump R.fuCntCount 10
        else if got = .discard then s
        else if got = .poison then
          (s.modFu fun u => { u with spoiled := true }).pushItem 0x62 (s.reg R.fuCtrlDoneQid) (poisonCell d.item) d.item true false 0x0B 0
        else if bits d.data.toNat 3 0 ≠ sub then s.refuseCommand d
        else
          match run d.data s with
          | some s => s.commandDone d s.doneStatus
          | none => s.refuseCommand d

/-! ## Alignment (R341) -/

/-- Channel c waits for its input: a GATHER channel of a frontier kind whose source is usable (R341, R359). -/
def State.gathers (s : State) (c : Nat) : Bool :=
  s.flag R.fuInCfgEn c && decide (s.reg R.fuInCfgKind c ≤ 2) && s.flag R.fuInCfgAlign c && s.chanUsable c

/-- The start of the slot of a step in ns (R161). -/
def State.stepSlot (s : State) (k : Nat) : Nat := s.pp.slotStart - (s.reg R.ppStepCount - k) * (1000 * s.reg R.pcDeadlineDUs)

/-- τ of the cycle of a step in µs (R341). DESIGN CHOICE (notes/assumptions/31.md). -/
def State.tau (s : State) (k : Nat) : Nat := s.stepSlot k / 1000 - s.reg R.fuAlignLagUs

/-- The GATHER channels that are not satisfied for the cycle of a step (R341). -/
def State.unsatisfied (s : State) (k : Nat) : List Nat := (List.range 16).filter fun c => s.gathers c && decide (s.front c < s.tau k)

/-- G_US has ended the wait of the cycle to come (R341, R361). -/
def State.timedOut (s : State) : Bool := s.fu.expired.any (·.step == s.cycleNext)

/-- The stragglers of the cycle to come (R341, R361, R362): those that the expiry of G_US found and that are still waited on. -/
def State.stragglers (s : State) : List LateChan :=
  match s.fu.expired.find? (·.step == s.cycleNext) with
  | some e => e.late.filter fun l => s.gathers l.chan
  | none => []

/-- t_f in µs (R341, R361): τ or the earliest frontier; that of a straggler is the one that the expiry found. -/
def State.validTime (s : State) : Nat :=
  ((List.range 16).filter s.gathers).foldl (fun t c =>
    min t (match s.stragglers.find? (·.chan == c) with | some l => l.front | none => s.front c)) (s.tau s.cycleNext)

/-! ## Ego-motion (R342, R344, R345) -/

/-- The largest of a list of bin boundaries by a score, the lowest of equals. -/
def bestBoundary (score : Nat → Int) : List Nat → Option Nat
  | [] => none
  | b :: t =>
    match bestBoundary score t with
    | none => some b
    | some c => if score c ≤ score b then some b else some c

/-- The usable bands of the horizon with the row of their boundary (R345). -/
def State.horizonBands (s : State) : List (Nat × Nat) :=
  let lo := s.fu.tf - s.reg R.fuWinWinUs
  let ev := s.fu.rows.filter fun r => decide (lo < r.1) && decide (r.1 ≤ s.fu.tf)
  let n := ceilDiv (s.srcSize (s.reg R.fuHzHzSrc)).2 4
  (List.range 8).filterMap fun band =>
    let rows := (ev.filter (·.2.1 = band)).map (·.2.2)
    let inBins := fun (a b : Nat) => (rows.filter fun r => decide (a ≤ r) && decide (r < b)).length
    let score := fun (b : Nat) => (inBins b (b + 4) : Int) - inBins (b - 4) b
    match bestBoundary score (List.range (n + 1)) with
    | some b => if (s.reg R.fuHzHzMin : Int) ≤ score b then some (band, 4 * b) else none
    | none => none

/-- A signed 16-bit result: one that does not fit is open. DESIGN CHOICE (notes/assumptions/53.md). -/
def fitSigned (free : Nat) (v : Int) : Int := if -32768 ≤ v ∧ v < 32768 then v else toSigned 16 (free % 65536)

/-- The flow spikes that a cycle uses (R340, R342, R344): those in the window of usable event sources, the newest 65,536. -/
def State.usedFlow (s : State) : List (Nat × Nat × Nat × Nat × Nat) :=
  let lo := s.fu.tf - s.reg R.fuWinWinUs
  let used := s.fu.flow.filter fun f => decide (lo < f.1) && decide (f.1 ≤ s.fu.tf) && decide (f.2.1 < 4) && s.srcUsable f.2.1
  (sortBy (fun (a b : Nat × Nat × Nat × Nat × Nat) => decide (b.1 ≤ a.1)) used).take 65536

/-- ω roll, pitch and yaw in 0.01°/s, and whether the RMS residual lies within RES_MAX (R344). Where the spikes do not determine ω,
or a source has no focal length, both are open. DESIGN CHOICE (notes/assumptions/9.md). -/
def State.solveFlow (s : State) (used : List (Nat × Nat × Nat × Nat × Nat)) : (Int × Int × Int) × Bool :=
  let p := ((List.range 4).filter fun n => used.any (·.2.1 == n)).foldl (fun a n => a * (s.calib n).f) 1
  let eqs := used.flatMap fun (f : Nat × Nat × Nat × Nat × Nat) =>
    flowEqs p (s.calib f.2.1) (s.reg R.fuSrcCal3Speed f.2.1) f.2.2.1 f.2.2.2.1 f.2.2.2.2
  let free := (Config.freeWord s.freeCtr).toNat
  match if p = 0 then none else fitFlow eqs with
  | some w =>
    let rate := fun (k : Nat) (x : Int) => fitSigned (free / 2 ^ (16 * k)) (centiDegrees x w.den)
    ((rate 0 w.fwd, rate 1 w.right, rate 2 w.down), w.within p used.length (s.reg R.fuMotResMax))
  | none => ((toSigned 16 (free % 65536), toSigned 16 (free / 2 ^ 16 % 65536), toSigned 16 (free / 2 ^ 32 % 65536)), bitAt free 48)

/-- The motion solver at the start of a cycle (R342, R344, R345): ω and the horizon. The attitude follows the ladder. -/
def State.solveMotion (s : State) : State :=
  let lo := s.fu.tf - s.reg R.fuWinWinUs
  let used := s.usedFlow
  let (w, ok) := s.solveFlow used
  let valid := decide (s.reg R.fuMotMinSpikes ≤ used.length) && ok
  let src := s.reg R.fuHzHzSrc
  let bands := if s.srcUsable src then s.horizonBands else []
  let hz := if 4 ≤ bands.length then some (horizonAngles (s.calib src) (s.srcSize src).1 bands) else none
  let s := s.tick.modFu fun u =>
    { u with omega := w, horizon := hz, motInvalid := if valid then 0 else u.motInvalid + 1,
             flow := u.flow.filter fun f => decide (lo < f.1), rows := u.rows.filter fun r => decide (lo < r.1) }
  let s := (s.setFlag R.fuStatusMotionValid valid).setFlag R.fuStatusHorizonValid hz.isSome
  let s := ((s.setRegS R.fuMotion0WRoll w.1).setRegS R.fuMotion0WPitch w.2.1).setRegS R.fuMotion1WYaw w.2.2
  s.setReg R.fuMotion2Bands bands.length

/-- Roll and pitch of a cycle (R345, R358): by ω over the time since the last one, and towards the horizon. They are held, with ATT_HELD
set, while MOTION_VALID is clear and while level D3 or deeper is in force. DEDUCED (notes/assumptions/73.md). -/
def State.moveAttitude (s : State) : State :=
  let held := !(s.flag R.fuStatusMotionValid) || decide (3 ≤ s.reg R.fuStatusLevel)
  let dt : Int := match s.fu.tfPrev with | some p => (s.fu.tf : Int) - p | none => 0
  let free := (Config.freeWord s.freeCtr).toNat
  let move := fun (k : Nat) (x w : Int) (h : Option Int) =>
    let x := x + openDiv 345 (w * dt) 1000000
    fitSigned (free / 2 ^ (16 * k)) (match h with | some h => x + openDiv 345 (h - x) 16 | none => x)
  let roll := if held then s.fu.roll else move 0 s.fu.roll s.fu.omega.1 (s.fu.horizon.map (·.1))
  let pitch := if held then s.fu.pitch else move 1 s.fu.pitch s.fu.omega.2.1 (s.fu.horizon.map (·.2))
  let s := (s.tick.modFu fun u => { u with roll := roll, pitch := pitch }).setFlag R.fuStatusAttHeld held
  (s.setRegS R.fuMotion1Roll roll).setRegS R.fuMotion2Pitch pitch

/-! ## The ladder (R357 to R359) -/

/-- The deepest level whose condition holds (R358). -/
def State.ladderNow (s : State) : Nat :=
  let all := s.fuSources
  let events := all.filter (· < 4)
  let thermals := all.filter fun n => decide (4 ≤ n)
  let ok := s.srcHealthy
  if !(all.any ok) then 5
  else if !(events.any ok) && thermals.any ok then 4
  else if s.reg R.fuLadderMotHold ≤ s.fu.motInvalid then 3
  else if events.any fun n => !(ok n) then 2
  else if thermals.any fun n => !(ok n) then 1 else 0

/-- The ladder moves to a level (R358): counted; deeper into D2 or below raises a fault.
DESIGN CHOICE (notes/assumptions/50.md). -/
def State.setLadder (s : State) (old d : Nat) : State :=
  let s := (s.setReg R.fuStatusLevel d).bump R.fuCntCount 11
  if old < d then
    (if d = 5 then s.raise 0xD00030 0 2 0x0B else if 2 ≤ d then s.raise 0xD00030 0 1 0x0B else s)
  else s

/-- Health, use and the ladder at the start of a cycle (R358, R359). -/
def State.runLadder (s : State) : State :=
  let healthy := (List.range 6).filter s.srcHealthy
  let s := s.setReg R.fuSrcstateHealthy (ofSet healthy)
  let s := s.modFu fun u =>
    { u with srcs := u.srcs.zipIdx.map fun e =>
        if healthy.contains e.2 then { e.1 with goodCycles := e.1.goodCycles + 1 }
        else { e.1 with goodCycles := 0, outOfUse := true } }
  let old := s.reg R.fuStatusLevel
  let d := s.ladderNow
  if old < d then (s.modFu fun u => { u with upRun := 0 }).setLadder old d
  else if d < old then
    let n := s.fu.upRun + 1
    let hold := s.reg R.fuLadderUpHold
    if hold ≤ n then
      let s := s.modFu fun u =>
        { u with upRun := 0,
                 srcs := u.srcs.map fun x => if x.outOfUse && decide (hold ≤ x.goodCycles) then { x with outOfUse := false } else x }
      s.setLadder old (old - 1)
    else s.modFu fun u => { u with upRun := n }
  else s.modFu fun u => { u with upRun := 0 }

/-! ## The track table (R348, R352, R364) -/

/-- Change the tracks. -/
def State.mapTracks (s : State) (f : Track → Track) : State := s.modFu fun u => { u with tracks := u.tracks.map f }

/-- A track is live: not deleted (R348, R352). -/
def Track.live (t : Track) : Bool := t.state ≠ .deleted

/-- Column and row of a point in cm (R346). -/
def State.gridCell (s : State) (x y : Int) : Int × Int :=
  let c : Int := s.reg R.fuGridCellCm
  (s.reg R.fuGridOrgX + x / c, s.reg R.fuGridOrgY - y / c)

/-- A point lies on the grid (R346, R352). -/
def State.onGrid (s : State) (x y : Int) : Bool :=
  let g := s.gridCell x y
  decide (0 ≤ g.1) && decide (g.1 < 512) && decide (0 ≤ g.2) && decide (g.2 < 512)

/-- Slots that fail parity are deleted with CAUSE 3 (R364). DESIGN CHOICE (notes/assumptions/52.md). -/
def State.trackParity (s : State) (bad : List Nat) : State :=
  (s.fu.tracks.filter fun t => t.live && bad.contains t.slot).foldl (fun (s : State) t =>
    let now := s.devtime
    let s := s.modFu fun u => { u with parityTimes := (u.parityTimes.filter fun p => decide (now < p + 1000000000)) ++ [now] }
    let s := s.mapTracks fun x => if x.slot = t.slot then { x with state := .deleted, cause := 3 } else x
    ((s.setReg R.fuStatusParity 1).bump R.fuCntCount 4).raise 0xD00030 9 (if 16 ≤ s.fu.parityTimes.length then 2 else 1) 0x0B) s

/-- FU_TRACKS follows the table (R368). -/
def State.countTracks (s : State) : State :=
  let n := fun (st : TrackState) => (s.fu.tracks.filter fun t => t.state = st).length
  (s.setReg R.fuTracksConfirmed (n .confirmed)).setReg R.fuTracksTentative (n .tentative)

end Sys2Proof.Machine
end

