-- ==== Sys2Proof/Machine/Fusion.lean ====
section
/-! DEFINITION. The fusion engine's commands: inputs, the cycle, early and mid fusion, tracks, result sets, lying sensors
(R336 to R367). -/
namespace Sys2Proof.Machine

/-! ## Inputs (R336, R337, R365) -/

/-- The full time of a 24-bit cell time taken on channel c (R218). DESIGN CHOICE (notes/assumptions/50.md). -/
def State.chanTime (s : State) (c low : Nat) : Nat :=
  match alGet s.fu.chanEpoch c with
  | some e => e * 2 ^ 24 + low
  | none => s.nearTime low

/-- A flow spike cell (R272, R336, R344): it is placed at its site centre and advances the frontier. -/
def State.takeFlow (s : State) (c : Nat) (w : Cell64) : State :=
  let n := s.reg R.fuInCfgSrc c
  let us := s.chanTime c (bits w.toNat 63 40)
  let p := bits w.toNat 7 2
  let i := bits w.toNat 39 16
  let xy := s.gridXY p i
  let plane := i % (s.reg R.sfPopGridNplaneM1 p + 1)
  let s := if s.quarantined n then s else s.modFu fun u => { u with flow := u.flow ++ [(us, n, plane, xy.1, xy.2)] }
  s.setFront c us

/-- What the tests note of a thermal frame (R360). DESIGN CHOICE (notes/assumptions/54.md). -/
def SourceTest.seeFrame (x : SourceTest) (us : Nat) (px : List (BitVec 16)) : SourceTest :=
  let late := match x.lastValid with | some l => decide (us ≤ l) | none => false
  let keep := if x.pix.length = px.length then (x.pix.zip px).map fun e => (e.1.1, e.1.2 && e.1.1 == e.2) else px.map fun w => (w, true)
  { x with frames := x.frames + 1, frameBad := x.frameBad || late, lastValid := some us, pix := keep }

/-- The frontier of a THERM channel is the time of validity of its newest complete frame (R336).
DESIGN CHOICE (notes/assumptions/50.md). -/
def State.thermFront (s : State) (c us : Nat) : State :=
  if s.front c ≤ us then s.setFront c us
  else (s.modFu fun u => { u with fronts := alPut u.fronts c us }).setReg R.fuInFrontUs us c

/-- A thermal frame has been taken (R194, R219, R336, R360): header, data cells, four pixels each.
DESIGN CHOICE (notes/assumptions/50.md). -/
def State.frameTaken (s : State) (c : Nat) (item : ItemId) : List Cell64 → State
  | [] => s
  | h :: data =>
    let w := bits h.toNat 23 12
    let ht := bits h.toNat 35 24
    if cellType h ≠ 6 ∨ 4 * data.length ≠ w * ht then s
    else
      let n := s.reg R.fuInCfgSrc c
      let us := s.chanTime c (bits h.toNat 63 40) - s.reg R.tmThLatUs (n - 4)
      let px := data.flatMap fun d => (List.range 4).map fun k => BitVec.ofNat 16 (bits d.toNat (16 * k + 15) (16 * k))
      let f : HeldFrame := { item := item, validUs := us, width := w, height := ht, pixels := px }
      let s := s.modSrc n fun x => x.seeFrame us px
      let s := if s.quarantined n then s else s.modFu fun u => { u with frames := alPut u.frames c f }
      s.thermFront c us

/-- The source that an item of channel c belongs to (R337, R360); 7 for none. -/
def State.itemSource (s : State) (c kind : Nat) (d : Delivery) (ok : Bool) : Nat :=
  if kind = 3 then (if ok then bits d.data.toNat 15 13 else s.reg R.fuInCfgSrc c)
  else if kind ≤ 2 then s.reg R.fuInCfgSrc c else 7

/-- The end of an item on channel c (R27, R336, R337, R360, R365). -/
def State.inputEnded (s : State) (c kind : Nat) (d : Delivery) (ok : Bool) (p : FuPartial) : State :=
  let n := s.itemSource c kind d ok
  let s := s.modFu fun u => { u with partials := alDel u.partials c }
  if s.pal.poisoned.contains d.item then
    let s := if kind = 3 then s.modFu fun u => { u with detPoison := u.detPoison ++ [n] } else s
    (s.bump R.fuCntCount 9).endTaken 0x0B d.item false
  else
    let s := if kind = 1 then s.frameTaken c d.item p.cells else s
    let s := s.sourceAlive n
    if lossyCell d.data then s.endTaken 0x0B d.item true
    else if s.quarantined n then s.quarItem n d.item
    else if kind ≤ 2 then s.endTaken 0x0B d.item false
    else s.modFu fun u => { u with items := u.items ++ [{ item := d.item, kind := kind, src := n, cells := p.cells }] }

/-- A cell taken on channel c (R217, R229, R336, R365). -/
def State.inputCell (s : State) (c kind : Nat) (d : Delivery) (got : Taken) : State :=
  let ok := decide (got = .use)
  if got = .gap then
    let s := s.bump R.fuCntCount 10
    if gapSrc d.data = 3 then s.modFu fun u => { u with partials := alDel u.partials c } else s
  else if got = .discard then s
  else if d.epm then
    (if ok then s.modFu fun u => { u with chanEpoch := alPut u.chanEpoch c (bits d.data.toNat 35 12) } else s)
  else
    let p := match alGet s.fu.partials c with
      | some p => if p.item = d.item || d.eop then p else { item := d.item }
      | none => { item := d.item }
    if d.eop then s.inputEnded c kind d ok p
    else
      let typed := (kind == 3 && cellType d.data == 13) || (kind == 4 && cellType d.data == 10) || (kind == 5 && cellType d.data == 9)
      let p := if ok && (kind == 1 || typed) then { p with cells := p.cells ++ [d.data] } else p
      let s := s.modFu fun u => { u with partials := alPut u.partials c p }
      if ok && kind == 2 && cellType d.data == 8 then s.takeFlow c d.data else s

/-- FUSION_INPUT_TAKE (R336, R337, R361): the engine takes the next cell of an input channel. -/
def execFusionInputTake (c : Nat) (upset : Upset) (s : State) : Out :=
  .next (let kind := s.reg R.fuInCfgKind c
    if !s.fuRuns || !(s.flag R.fuInCfgEn c) || kind == 0 || decide (6 ≤ kind) then s
    else
      match s.popFor 0x0B 0x62 (s.reg R.fuInCfgQid c) false upset with
      | (none, s) => s
      | (some (d, got), s) => s.inputCell c kind d got)

/-! ## The cycle (R339, R341, R361 to R363) -/

/-- GATHER_TIMEOUT (R341, R361): G_US has passed since the first command of a cycle was admitted. What has not reached τ is a
straggler from now on. -/
def execGatherTimeout (s : State) : Out :=
  .next (if s.due .gather then
    match s.fu.waits.find? fun w => !(s.fu.expired.any (·.step == w.1)) with
    | some w =>
      let l := (s.unsatisfied w.1).map fun c =>
        ({ chan := c, front := s.front c, frame := if s.reg R.fuInCfgKind c = 1 then alGet s.fu.frames c else none } : LateChan)
      (s.modFu fun u => { u with expired := u.expired ++ [{ step := w.1, late := l }] }).gatherTimer
    | none => s.disarm .gather
  else s)

/-- The counts of a test window begin afresh (R360). DESIGN CHOICE (notes/assumptions/54.md). -/
def State.newWindow (s : State) : State :=
  let t := s.devtime
  let jumps := fun (n : Nat) => if n < 4 then s.reg R.tmCamStatJumps n else 0
  s.modFu fun u =>
    { u with winCycles := 0, winStart := t,
             srcs := u.srcs.zipIdx.map fun e =>
               { e.1 with events := 0, tagged := 0, buckets := [], frames := 0, frameBad := false, pix := [], jumps0 := jumps e.2,
                          hitTracks := [] } }

/-- The cycle of a step starts (R339, R341, R361). -/
def State.startCycle (s : State) : State :=
  let s := if s.fu.begun then s else s.newWindow
  let late := s.stragglers
  let tf := s.validTime
  let step := s.cycleNext
  let start := s.stepSlot step
  let s := s.modFu fun u =>
    let waits := if u.waits.any (·.1 == step) then (u.waits.dropWhile (·.1 != step)).drop 1 else u.waits
    { u with cycleOpen := true, begun := true, cycleStep := some step, cycleSlot := start, spoiled := false, late := late,
             waits := waits, expired := u.expired.filter fun e => waits.any (·.1 == e.step),
             tfPrev := if u.begun then some u.tf else none, tf := tf, stragglers := ofSet (late.map (·.chan)),
             winCycles := u.winCycles + 1, measures := [], latents := [], early := [],
             tracks := u.tracks.map fun t => { t with isNew := false, hitNow := false, missNow := false, src := 0 } }
  let s := ((s.bump R.fuCntCount 0).bump R.fuCntCount 1 0 late.length).gatherTimer
  s.solveMotion.runLadder.moveAttitude

/-- CYCLE_START (R219, R339, R341, R344, R345, R358, R359, R361 to R363): the alignment of the step's first command has
ended, by its last frontier or by G_US. -/
def execCycleStart (s : State) : Out :=
  .next (if s.fuRuns && s.fuHead.isSome && s.cycleDue && ((s.unsatisfied s.cycleNext).isEmpty || s.timedOut) then s.startCycle else s)

/-! ## Early fusion (R343) -/

/-- The frame of a THERM channel that the cycle uses (R336, R341): the newest complete one; a straggler's is the one that the expiry
of G_US found. -/
def State.chanFrame (s : State) (c : Nat) : Option HeldFrame :=
  match s.fu.late.find? (·.chan == c) with
  | some l => l.frame
  | none => alGet s.fu.frames c

/-- The newest complete frame of a THERM channel of source n (R336, R343). -/
def State.frameOf (s : State) (n : Nat) : Option HeldFrame :=
  (List.range 16).foldl (fun a c =>
    if s.chanIs c 1 n then
      match a, s.chanFrame c with
      | some f, some g => some (if f.validUs < g.validUs then g else f)
      | none, g => g
      | f, none => f
    else a) none

/-- The thermal pixel that a map pixel reads: its centre under the homography, rounded (R343). -/
def State.thermalPlace (s : State) (cam u v : Nat) : Option (Int × Int) :=
  let bs := s.reg R.fuEarlyCfgBs cam
  let x : Int := u * 2 ^ (bs + 1) + 2 ^ bs
  let y : Int := v * 2 ^ (bs + 1) + 2 ^ bs
  let row := fun j => s.regS R.fuEarlyHH cam j * x + s.regS R.fuEarlyHH cam (j + 1) * y + 2 * s.regS R.fuEarlyHH cam (j + 2)
  let w := row 6
  if w = 0 then none
  else
    let g : Int := if w < 0 then -1 else 1
    some (openRound 343 (g * row 0) (g * w), openRound 343 (g * row 3) (g * w))

/-- The value of a thermal pixel on the scale LO to HI (R343). A scale that does not rise gives no value.
DESIGN CHOICE (notes/assumptions/54.md). -/
def State.thermalScale (s : State) (cam i v : Nat) : Nat :=
  let lo := s.reg R.fuEarlyCfgLo cam
  let hi := s.reg R.fuEarlyCfg2Hi cam
  if hi ≤ lo then (Config.freeWord (s.freeCtr + i)).toNat % 128
  else if v ≤ lo then 0 else if hi ≤ v then 127 else (openDiv 343 (127 * (v - lo : Nat)) (hi - lo : Nat)).toNat

/-- The valid pixel that map pixel (u, v) reads in a frame, scaled (R343). -/
def State.earlyValue (s : State) (cam : Nat) (f : HeldFrame) (i u v : Nat) : Option Nat :=
  match s.thermalPlace cam u v with
  | none => none
  | some (x, y) =>
    if 0 ≤ x ∧ x < f.width ∧ 0 ≤ y ∧ y < f.height then
      let p := (f.pixels.getD (y.toNat * f.width + x.toNat) 0).toNat
      if bitAt p 15 then none else some (s.thermalScale cam i (bits p 13 0))
    else none

/-- EARLY writes the map of a camera at an address of a tile (R343). -/
def State.writeEarly (s : State) (cam t a w h : Nat) : State :=
  let n := 4 + s.reg R.fuEarlyCfgTherm cam
  match (if s.srcUsable n then s.frameOf n else none) with
  | none => s.tileWrite t a (List.replicate (4 * w * h) 0)
  | some f =>
    let age := ofSigned 8 (satSigned 8 (openDiv 343 ((s.fu.tf : Int) - f.validUs) 1000))
    let px := (List.range (w * h)).map fun i => s.earlyValue cam f i (i % w) (i / w)
    let m : EarlyMap :=
      { cam := cam, src := n, validUs := f.validUs, width := w, bs := s.reg R.fuEarlyCfgBs cam, valid := px.map (·.isSome) }
    let cells := px.flatMap fun p => [BitVec.ofNat 8 (p.getD 0), if p.isSome then 127 else 0, BitVec.ofNat 8 age, 0]
    ((s.tileWrite t a cells).modFu fun u => { u with early := u.early.filter (·.cam ≠ cam) ++ [m] }).modFreeCtr (· + w * h)

/-- EARLY (R338, R343, R366): the early map of one camera. A camera whose map is not enabled has no target. -/
def execEarly (s : State) : Out :=
  .next (s.serveCommand 0 fun c s =>
    let cam := bits c.toNat 21 20
    let w := s.reg R.fuEarlyCfg2WM1 cam + 1
    let h := s.reg R.fuEarlyCfg3HM1 cam + 1
    if !(s.flag R.fuEarlyCfgEn cam) then none
    else (s.fuTarget c (s.reg R.fuEarlyOffOff cam) (4 * w * h)).map fun e => s.writeEarly cam e.1 e.2 w h)

/-! ## ASSOC (R346, R349 to R351, R354, R356) -/

/-- A detection cell of an item as a measurement (R337, R346). -/
def State.measureOf (s : State) (src : Nat) (w : Cell64) : Measure :=
  let x := bits w.toNat 63 52
  let y := bits w.toNat 51 40
  { src := src, cand := bits w.toNat 25 14, score := bits w.toNat 7 0, px := x, py := y,
    place := seaProject (s.calib src) s.fu.roll s.fu.pitch x y }

/-- A track predicted to t_f (R351). PRESUMED (notes/assumptions/51.md). -/
def Track.predict (t : Track) (tf : Nat) : Track :=
  let dt : Int := (tf : Int) - t.at_
  { t with x := t.x + openDiv 351 (t.vx * dt) 1000000, y := t.y + openDiv 351 (t.vy * dt) 1000000, at_ := tf }

/-- A possible pair (R349): squared distance, slot, CAND, index of the measurement. -/
structure Pairing where
  d2 : Int
  slot : Nat
  cand : Nat
  idx : Nat
  deriving DecidableEq, Repr

/-- Order of pairing (R349): distance, then the lower slot, then the lower CAND. -/
def Pairing.le (a b : Pairing) : Bool :=
  decide (a.d2 < b.d2) || (a.d2 == b.d2 && (decide (a.slot < b.slot) || (a.slot == b.slot && decide (a.cand ≤ b.cand))))

/-- The square of a distance in cm. -/
def dist2 (x y x' y' : Int) : Int := (x - x') * (x - x') + (y - y') * (y - y')

/-- The pairs within a gate in cm, in order (R349). -/
def pairsOf (gate : Nat) (ms : List Measure) (ts : List Track) : List Pairing :=
  let all := ms.zipIdx.flatMap fun e =>
    match e.1.place with
    | none => []
    | some (x, y) => ts.filterMap fun t =>
        let d := dist2 x y t.x t.y
        if d ≤ (gate : Int) * gate then some ({ d2 := d, slot := t.slot, cand := e.1.cand, idx := e.2 } : Pairing) else none
  sortBy Pairing.le all

/-- The measurements after pairing in order (R349): a measurement is paired once, and a track takes one of each source.
DESIGN CHOICE (notes/assumptions/52.md). -/
def pairUp (ms : List Measure) (ps : List Pairing) : List Measure :=
  ps.foldl (fun ms p =>
    match ms[p.idx]? with
    | none => ms
    | some m =>
      if m.paired.isSome || ms.any fun k => k.paired == some p.slot && k.src == m.src then ms
      else ms.set p.idx { m with paired := some p.slot }) ms

/-- The sources behind a measurement as a mask, and its oldest input time in µs (R355, R356).
DESIGN CHOICE (notes/assumptions/53.md). -/
def State.behindMeasure (s : State) (m : Measure) : Nat × Nat :=
  if m.src < 4 then
    let t := s.fu.tf - s.reg R.fuWinWinUs - s.reg R.fuAlignLagUs
    let hit := fun (e : EarlyMap) =>
      e.cam == m.src && decide (m.px / 2 ^ e.bs < e.width) && e.valid.getD (m.py / 2 ^ e.bs * e.width + m.px / 2 ^ e.bs) false
    match s.fu.early.find? hit with
    | some e => (2 ^ m.src ||| 2 ^ e.src, min t e.validUs)
    | none => (2 ^ m.src, t)
  else (2 ^ m.src, ((s.frameOf m.src).map (·.validUs)).getD s.fu.tf)

/-- The mean of integers (R351). -/
def meanPos (l : List Int) : Int := openDiv 351 l.sum l.length

/-- A quotient with a divisor of either sign. -/
def signedDiv (num den : Int) : Int := if den < 0 then openDiv 351 (-num) (-den) else openDiv 351 num den

/-- A predicted track takes its measurements (R351): dt is the time since its last t_f in µs. With dt 0 its velocity is open.
DESIGN CHOICE (notes/assumptions/52.md). -/
def State.hitTrack (s : State) (t : Track) (dt : Int) (ms : List Measure) : Track :=
  let ex := meanPos (ms.filterMap fun m => m.place.map (·.1)) - t.x
  let ey := meanPos (ms.filterMap fun m => m.place.map (·.2)) - t.y
  let α : Int := s.reg R.fuGateAlpha
  let β : Int := s.reg R.fuGateBeta
  let free := (Config.freeWord s.freeCtr).toNat
  let v := fun (v e : Int) (k : Nat) => if dt = 0 then toSigned 16 (free / k) else v + signedDiv (β * e * 1000000) (256 * dt)
  let from_ := ms.map s.behindMeasure
  { t with x := t.x + openDiv 351 (α * ex) 256, y := t.y + openDiv 351 (α * ey) 256, vx := v t.vx ex 1, vy := v t.vy ey 65536,
           hitNow := true, hist := (t.hist ++ [true]).drop (t.hist.length + 1 - s.reg R.fuTrackN), counted := t.counted + 1,
           misses := 0, src := from_.foldl (fun a e => a ||| e.1) 0, validUs := s.fu.tf,
           oldest := from_.foldl (fun a e => min a e.2) s.fu.tf }

/-- A counted miss (R351). -/
def State.missTrack (s : State) (t : Track) : Track :=
  { t with missNow := true, hist := (t.hist ++ [false]).drop (t.hist.length + 1 - s.reg R.fuTrackN), counted := t.counted + 1,
           misses := t.misses + 1 }

/-- A live track in ASSOC (R349, R351, R352, R365): `seen` are the sources that delivered a DET item, `bad` those of a
poisoned one. DESIGN CHOICE (notes/assumptions/52.md). -/
def State.assocTrack (s : State) (ms : List Measure) (seen bad : List Nat) (t : Track) : Track :=
  let dt : Int := (s.fu.tf : Int) - t.at_
  let p := t.predict s.fu.tf
  let p := { p with off := !(s.onGrid p.x p.y) }
  let mine := ms.filter fun m => m.paired == some t.slot
  if !mine.isEmpty then s.hitTrack p dt mine
  else if seen.any (fun n => s.srcSees n p.x p.y) && !(bad.any fun n => s.srcSees n p.x p.y) then s.missTrack p
  else p

/-- The lowest FREE slot (R349). -/
def State.freeSlot (s : State) : Option Nat := (List.range 4096).find? fun k => !(s.fu.tracks.any fun t => t.slot == k)

/-- A birth (R348, R349): a TENTATIVE track in the lowest FREE slot, or none where no slot is FREE.
DESIGN CHOICE (notes/assumptions/52.md). -/
def State.birth (s : State) (x y : Int) (src oldest : Nat) : Option Nat × State :=
  match s.freeSlot with
  | none => (none, s.bump R.fuCntCount 5)
  | some k =>
    let g := ((alGet s.fu.gens k).getD 0 + 1) % 16
    let t : Track := { slot := k, gen := g, x := x, y := y, at_ := s.fu.tf, src := src, oldest := oldest, validUs := s.fu.tf }
    (some k, (s.modFu fun u => { u with tracks := u.tracks ++ [t], gens := alPut u.gens k g }).bump R.fuCntCount 2)

/-- Births from the unpaired measurements, in order (R349). DESIGN CHOICE (notes/assumptions/52.md). -/
def State.births (s : State) : List Measure → List Measure × State
  | [] => ([], s)
  | m :: t =>
    let r : Measure × State := match m.paired, m.place with
      | none, some (x, y) =>
        if s.reg R.fuTrackBirthScore ≤ m.score then
          let b := s.behindMeasure m
          let q := s.birth x y b.1 b.2
          ({ m with paired := q.1, born := q.1.isSome }, q.2)
        else (m, s)
      | _, _ => (m, s)
    let q := r.2.births t
    (r.1 :: q.1, q.2)

/-- Births of unlinked latent slots at the ASSOC after (R354): no source is behind them, so their oldest input time is open.
DESIGN CHOICE (notes/assumptions/52.md). -/
def State.latentBirths (s : State) : State :=
  let l := s.fu.latBirths
  l.foldl (fun (s : State) e => (s.birth e.1 e.2 0 (Config.freeWord s.freeCtr).toNat).2.tick) (s.modFu fun u => { u with latBirths := [] })

/-- The association entry of a measurement (R349): its track, or 4,096 + CAND; one that met no point of the sea names no
object. DESIGN CHOICE (notes/assumptions/52.md). -/
def Measure.entry (m : Measure) : Nat :=
  if m.place.isNone then 0xFFFF
  else
    match m.paired with
    | some k => k + 8192 * ofFlag m.born
    | none => 4096 + m.cand

/-- Write entries of the association table (R349). -/
def State.writeEntries (s : State) (t a : Nat) (l : List (Nat × Nat)) : State :=
  l.foldl (fun (s : State) e => s.tileWriteNat t (a + 2 * e.1) 2 e.2) s

/-- The tracks hit by each source in the window (R360). -/
def State.noteHits (s : State) : State :=
  s.fu.measures.foldl (fun (s : State) m =>
    match m.paired with
    | some k => s.modSrc m.src fun x => if x.hitTracks.contains k then x else { x with hitTracks := x.hitTracks ++ [k] }
    | none => s) s

/-- The DET items of an ASSOC end (R336, R350): complete, or GAP_DROP where a measurement lay beyond the 4,096th.
DESIGN CHOICE (notes/assumptions/16.md). -/
def State.endDet (s : State) (items : List FuItem) (above : List ItemId) : State :=
  let s := items.foldl (fun (s : State) i => if above.contains i.item then s.report i.item 0x01 0x0B 1 else s.complete i.item 0x0B) s
  if above.isEmpty then s else s.raise 0xD000B0 0 1 0x0B

/-- ASSOC with its table at an address of a tile (R349 to R351, R354). DESIGN CHOICE (notes/assumptions/52.md). -/
def State.doAssoc (s : State) (t a : Nat) : State :=
  let items := s.fu.items.filter fun i => i.kind == 3
  let cells := items.flatMap fun i => i.cells.map fun c => (i, c)
  let good := cells.filter fun e => s.detUsable e.1.src
  let used := good.take 4096
  let above := good.drop 4096
  let ms := used.map fun e => s.measureOf e.1.src e.2
  let tf := s.fu.tf
  let live := s.fu.tracks.filter (·.live)
  let ms := pairUp ms (pairsOf (10 * s.reg R.fuGateGateDm) ms (live.map fun t => t.predict tf))
  let seen := (items.map (·.src)).filter s.detUsable
  let bad := s.fu.detPoison
  let next := fun (x : Track) => if x.live then s.assocTrack ms seen bad x else x
  let s1 := ((s.mapTracks next).tick).bump R.fuCntCount 7 0 (ms.filter fun m => m.place.isNone).length
  let r := s1.births ms
  let s2 := (r.2).latentBirths
  let s3 := s2.modFu fun u => { u with measures := r.1, detPoison := [], items := u.items.filter fun i => i.kind != 3 }
  let none_ := (above ++ cells.filter fun e => !(s.detUsable e.1.src)).map fun e => (bits e.2.toNat 25 14, 0xFFFF)
  let s4 := ((s3.writeEntries t a none_).writeEntries t a (r.1.map fun m => (m.cand, m.entry))).noteHits
  ((s4.bump R.fuCntCount 12 0 above.length).endDet items (above.map (·.1.item))).countTracks

/-- ASSOC (R337, R338, R346, R349 to R351, R354, R359, R364 to R366). -/
def execAssoc (badSlots : List Nat) (s : State) : Out :=
  .next (s.serveCommand 1 fun c s =>
    let cells := (s.fu.items.filter fun i => i.kind == 3).flatMap (·.cells)
    let n := cells.foldl (fun m w => max m (bits w.toNat 25 14 + 1)) 0
    (s.fuTarget c (s.reg R.fuAssocOffOff) (2 * n)).map fun e => (s.trackParity badSlots).doAssoc e.1 e.2)

/-! ## Mid fusion (R346, R347) -/

/-- A source's feature map for MID: source, tile, address, width, height, channels, bin shift. -/
structure MidMap where
  src : Nat
  tile : Nat
  addr : Nat
  w : Nat
  h : Nat
  c : Nat
  shift : Nat
  deriving DecidableEq, Repr

/-- The feature map of source n, where it lies inside its partition (R347). -/
def State.midMap (s : State) (n : Nat) : Option MidMap :=
  let w := s.reg R.fuMidShapeWM1 n + 1
  let h := s.reg R.fuMidShapeHM1 n + 1
  let c := s.reg R.fuMidShapeCM1 n + 1
  (s.groupTile (s.reg R.fuMidLocGroup n) (s.reg R.fuMidLocPos n)).bind fun t =>
    (s.region t (s.reg R.fuMidLocPart n) (s.reg R.fuMidOffOff n) (w * h * padTo 4 c)).map fun a =>
      { src := n, tile := t, addr := a, w := w, h := h, c := c, shift := s.reg R.fuMidShapeFshift n }

/-- The index of the map pixel of a source that sees the centre of a cell (R346, R347). -/
def State.midPixel (s : State) (m : MidMap) (col row : Nat) : Option Nat :=
  let k : Int := s.reg R.fuGridCellCm
  let x2 := 2 * ((col : Int) - s.reg R.fuGridOrgX) * k + k
  let y2 := 2 * ((s.reg R.fuGridOrgY : Int) - row) * k + k
  match seaToPixel (s.calib m.src) s.fu.roll s.fu.pitch x2 y2 with
  | none => none
  | some (px, py) =>
    let u := px / 2 ^ m.shift
    let v := py / 2 ^ m.shift
    if 0 ≤ u ∧ u < m.w ∧ 0 ≤ v ∧ v < m.h then some (v.toNat * m.w + u.toNat) else none

/-- The mean of signed bytes, to nearest with ties upward (R347). -/
def meanUp (l : List Int) : Int := if l.isEmpty then 0 else (2 * l.sum + l.length) / (2 * l.length)

/-- The C + 1 channels of a cell (R347). -/
def State.midCell (s : State) (maps : List MidMap) (c col row : Nat) : List Int :=
  let seen := maps.filterMap fun m => (s.midPixel m col row).map fun i => (m, i)
  let chan := fun k => meanUp ((seen.filter fun e => decide (k < e.1.c)).map fun e => s.elem e.1.tile e.1.addr 0 (e.2 * padTo 4 e.1.c + k))
  (List.range c).map chan ++ [if seen.isEmpty then 0 else 127]

/-- MID writes the sea-plane map at an address of a tile (R347). -/
def State.writeMid (s : State) (maps : List MidMap) (c t a : Nat) : State :=
  (List.range (512 * 512)).foldl (fun (r : State) i =>
    (s.midCell maps c (i % 512) (i / 512)).zipIdx.foldl (fun (r : State) e =>
      r.setElem t a 0 (i * padTo 4 (c + 1) + e.2) (ofSigned 8 e.1)) r) s

/-- MID (R338, R346, R347, R359, R366). C is the channel count of the lowest enabled source. -/
def execMid (s : State) : Out :=
  .next (s.serveCommand 2 fun cmd s =>
    let on := (List.range 6).filter fun n => s.flag R.fuMidLocEn n
    let c := match on with | n :: _ => s.reg R.fuMidShapeCM1 n + 1 | [] => 0
    let use := on.filter s.srcUsable
    let maps := use.filterMap s.midMap
    if maps.length ≠ use.length then none
    else (s.fuTarget cmd (s.reg R.fuMidOutOffOff) (512 * 512 * padTo 4 (c + 1))).map fun e => s.writeMid maps c e.1 e.2)

/-! ## UPDATE (R352 to R354) -/

/-- One verdict (R325, R353). -/
def State.applyVerdict (s : State) (w : Cell64) : State :=
  let obj := bits w.toNat 63 51
  let cls := bits w.toNat 50 45
  let conf := bits w.toNat 44 37
  let v := bits w.toNat 36 34
  if obj < 4096 then
    if s.fu.tracks.any fun t => t.live && t.slot == obj then
      s.mapTracks fun t =>
        if t.slot ≠ obj then t
        else if v = 0 then { t with cls := cls, conf := conf, hazard := false }
        else if v = 2 then { t with hazard := true } else t
    else s.bump R.fuCntCount 6
  else
    s.modFu fun u => { u with measures := u.measures.map fun m =>
      if m.paired.isNone ∧ m.place.isSome ∧ m.cand = obj - 4096 then
        let old := m.verdict.getD (0, 0, false)
        if v = 0 then { m with verdict := some (cls, conf, false) }
        else if v = 2 then { m with verdict := some (old.1, old.2.1, true) } else m
      else m }

/-- The centre of a sea-plane cell in half cm (R346, R354). -/
def State.cellCentre2 (s : State) (gx gy : Nat) : Int × Int :=
  let k : Int := s.reg R.fuGridCellCm
  (2 * ((gx : Int) - s.reg R.fuGridOrgX) * k + k, 2 * ((s.reg R.fuGridOrgY : Int) - gy) * k + k)

/-- The nearest live track within LAT_GATE_DM of a place in half cm (R354): ties go to the lower slot. -/
def State.linkOf (s : State) (p : Int × Int) : Option Nat :=
  let gate : Int := 20 * s.reg R.fuLatLatGateDm
  let near := (s.fu.tracks.filter (·.live)).filterMap fun t =>
    let d := dist2 p.1 p.2 (2 * t.x) (2 * t.y)
    if d ≤ gate * gate then some (d, t.slot) else none
  ((sortBy (fun (a b : Int × Nat) => decide (a.1 < b.1) || (a.1 == b.1 && decide (a.2 ≤ b.2))) near).head?).map (·.2)

/-- One latent cell (R354): reported, linked, or a birth to come. -/
def State.applyLatent (s : State) (w : Cell64) : State :=
  let v := w.toNat
  let e := bits v 35 28
  let p := s.cellCentre2 (bits v 53 45) (bits v 44 36)
  let link := s.linkOf p
  let l : Latent :=
    { slot := bits v 63 54, gx := bits v 53 45, gy := bits v 44 36, exist := e, vx := toSigned 8 (bits v 27 20),
      vy := toSigned 8 (bits v 19 12), linked := link }
  let s := if s.reg R.fuLatLatReport ≤ e then s.modFu fun u => { u with latents := u.latents ++ [l] } else s
  if link.isNone ∧ s.reg R.fuLatLatBirth ≤ e then
    s.modFu fun u => { u with latBirths := u.latBirths ++ [(openDiv 354 p.1 2, openDiv 354 p.2 2)] }
  else s

/-- The state of a track after UPDATE (R352). DESIGN CHOICE (notes/assumptions/52.md). -/
def State.nextState (s : State) (t : Track) : Track :=
  let hits := (t.hist.drop (t.hist.length - s.reg R.fuTrackN)).filter (· = true)
  let dies := fun (c : Nat) => { t with state := TrackState.deleted, cause := c }
  let limit := if t.hazard then s.reg R.fuTrackHazCoast else s.reg R.fuTrackCoastMax
  if !t.live then t
  else if t.state = .tentative && decide (hits.length < s.reg R.fuTrackM) && decide (s.reg R.fuTrackN ≤ t.counted) then dies 1
  else if t.missNow && decide (limit ≤ t.misses) then dies 0
  else if t.off then dies 2
  else if t.state = .tentative && decide (s.reg R.fuTrackM ≤ hits.length) then { t with state := .confirmed }
  else if t.state = .confirmed && t.missNow then { t with state := .coasting }
  else if t.state = .coasting && t.hitNow then { t with state := .confirmed } else t

/-- The state changes of UPDATE, counted (R352). -/
def State.changeStates (s : State) : State :=
  let old := s.fu.tracks
  let new := old.map s.nextState
  let n := fun (f : Track → Track → Bool) => ((old.zip new).filter fun e => f e.1 e.2).length
  let confirms := n fun a b => a.state = .tentative && b.state = .confirmed
  let deletes := n fun a b => a.live && !b.live
  ((s.modFu fun u => { u with tracks := new }).bump R.fuCntCount 3 0 confirms).bump R.fuCntCount 4 0 deletes

/-- UPDATE (R338, R352 to R354, R364, R366): verdicts, latent cells, then the state changes; its items are complete. -/
def execUpdate (badSlots : List Nat) (s : State) : Out :=
  .next (s.serveCommand 3 fun _ s =>
    let s := s.trackParity badSlots
    let mine := s.fu.items.filter fun i => decide (4 ≤ i.kind)
    let s := ((mine.filter fun i => i.kind == 4).flatMap (·.cells)).foldl State.applyVerdict s
    let s := ((mine.filter fun i => i.kind == 5).flatMap (·.cells)).foldl State.applyLatent s
    let s := s.changeStates.modFu fun u => { u with items := u.items.filter fun i => decide (i.kind < 4) }
    some ((mine.foldl (fun (s : State) i => s.complete i.item 0x0B) s).countTracks))

/-! ## Result sets (R355 to R357) -/

/-- A record before its words: the fields of R356 that it holds, with its place in cm and its velocity in cm/s. -/
structure OutRec where
  kind : Nat
  slot : Nat
  low : Nat
  high : Nat
  x2 : Int
  y2 : Int
  vx : Int
  vy : Int
  oldest : Nat
  validUs : Nat
  deriving DecidableEq, Repr

/-- A value in a signed 16-bit field: one that does not fit is open. DESIGN CHOICE (notes/assumptions/53.md). -/
def fit16 (free : Nat) (v : Int) : Nat := if -32768 ≤ v ∧ v < 32768 then ofSigned 16 v else free % 65536

/-- STATUS of a track (R356). -/
def TrackState.code : TrackState → Nat
  | .deleted => 0
  | .tentative => 1
  | .confirmed => 2
  | .coasting => 3

/-- GEN, STATUS, HAZARD, NEW, CLASS and CONF of a record in place (R356). DESIGN CHOICE (notes/assumptions/53.md). -/
def recLow (gen status hazard isNew cls conf : Nat) : Nat :=
  gen % 16 * 2 ^ 12 + status % 4 * 2 ^ 16 + hazard % 2 * 2 ^ 18 + isNew % 2 * 2 ^ 19 + cls % 64 * 2 ^ 20 + conf % 256 * 2 ^ 26

/-- The record of an explicit track (R356). -/
def Track.outRec (t : Track) : OutRec :=
  { kind := 0, slot := t.slot, low := recLow t.gen t.state.code (ofFlag t.hazard) (ofFlag t.isNew) t.cls t.conf,
    high := t.src % 64 * 2 ^ 34 + (if t.state = .deleted then t.cause * 2 ^ 42 else 0), x2 := 2 * t.x, y2 := 2 * t.y,
    vx := t.vx, vy := t.vy, oldest := t.oldest, validUs := t.validUs }

/-- The record of a latent slot (R354, R356). GEN, STATUS, HAZARD, NEW, CLASS and the oldest input time are open.
DESIGN CHOICE (notes/assumptions/53.md). -/
def State.latentRec (s : State) (free : Nat) (l : Latent) : OutRec :=
  let p := s.cellCentre2 l.gx l.gy
  { kind := 1, slot := l.slot, low := recLow free (free / 16) (free / 64) (free / 128) (free / 256) l.exist,
    high := match l.linked with | some k => 2 ^ 44 + k * 2 ^ 45 | none => 0,
    x2 := p.1, y2 := p.2, vx := 10 * l.vx, vy := 10 * l.vy, oldest := free / 2 ^ 14, validUs := s.fu.tf }

/-- The record of an untracked measurement (R353, R356). GEN, STATUS, its velocity, and CLASS and CONF without a verdict are
open. DESIGN CHOICE (notes/assumptions/53.md). -/
def State.untrackedRec (s : State) (free : Nat) (m : Measure) : OutRec :=
  let b := s.behindMeasure m
  let v := m.verdict.getD (free / 64 % 64, free / 4096 % 256, false)
  let p := m.place.getD (0, 0)
  { kind := 2, slot := m.cand, low := recLow free (free / 16) (ofFlag v.2.2) 0 v.1 v.2.1, high := b.1 * 2 ^ 34, x2 := 2 * p.1,
    y2 := 2 * p.2, vx := toSigned 16 (free / 2 ^ 20), vy := toSigned 16 (free / 2 ^ 36), oldest := b.2, validUs := s.fu.tf }

/-- The records of an output channel in order (R352, R356). DESIGN CHOICE (notes/assumptions/53.md). -/
def State.outRecs (s : State) (content : Nat) : List OutRec :=
  let free := fun (i : Nat) => (Config.freeWord (s.freeCtr + i)).toNat
  let ts := s.fu.tracks.filter fun t =>
    t.state = .confirmed || t.state = .coasting || (t.state = .tentative && bitAt content 0) || (t.state = .deleted && bitAt content 3)
  let ls := if bitAt content 1 then s.fu.latents else []
  let ms := if bitAt content 2 then s.fu.measures.filter fun m => m.paired.isNone && m.place.isSome else []
  let all := ts.map Track.outRec ++ ls.zipIdx.map (fun e => s.latentRec (free e.2) e.1) ++
    ms.zipIdx.map (fun e => s.untrackedRec (free (1024 + e.2)) e.1)
  sortBy (fun (a b : OutRec) => decide (a.kind < b.kind) || (a.kind == b.kind && decide (a.slot ≤ b.slot))) all

/-- AGE of a record in µs, saturating (R356). DESIGN CHOICE (notes/assumptions/31.md). -/
def OutRec.age (r : OutRec) (us : Nat) : Nat := satTo 0xFFFFFFFF (us - r.oldest)

/-- The words of a record (R356). -/
def OutRec.words (r : OutRec) (stamped : Bool) (us free : Nat) : List Cell64 :=
  let a := r.slot % 4096 + r.low + r.high + r.kind * 2 ^ 40
  let b := fit16 free (openDiv 356 r.x2 20) + fit16 (free / 2 ^ 16) (openDiv 356 r.y2 20) * 2 ^ 16 +
    fit16 (free / 2 ^ 32) r.vx * 2 ^ 32 + fit16 (free / 2 ^ 48) r.vy * 2 ^ 48
  let c := r.age us + r.validUs % 2 ^ 32 * 2 ^ 32
  [BitVec.ofNat 64 a, BitVec.ofNat 64 b] ++ if stamped then [BitVec.ofNat 64 c] else []

/-- The HEALTHY input-channel mask (R355): enabled channels whose source the cycle found healthy at its start (R358). -/
def State.healthyChans (s : State) : Nat :=
  ofSet ((List.range 16).filter fun c =>
    s.flag R.fuInCfgEn c && bitAt (s.reg R.fuSrcstateHealthy) (s.reg R.fuInCfgSrc c))

/-- The six header words of a result set (R355). -/
def State.outHeader (s : State) (stamped : Bool) (recs : List OutRec) : List Cell64 :=
  let f := fun (b : Bool) (n : Nat) => ofFlag b * 2 ^ n
  let level := s.reg R.fuStatusLevel
  let h0 := s.reg R.ppStepCount % 2 ^ 32 + f stamped 32 + f (s.reg R.tmStatusSwitch ≠ 0) 33 + f (s.flag R.kpAgreeUntestedLatch) 34 +
    f (s.flag R.fuStatusAttHeld) 35 + f (s.fu.stragglers ≠ 0) 36 + f (level = 5) 37 + f (s.flag R.fuStatusMotionValid) 38 +
    f (s.flag R.fuStatusHorizonValid) 39 + level * 2 ^ 40 + s.reg R.tmStatusSource * 2 ^ 43 + s.reg R.pcLevelLevel % 4 * 2 ^ 46 +
    recs.length % 65536 * 2 ^ 48
  let w := fun (v : Int) (n : Nat) => ofSigned 16 v * 2 ^ n
  let h3 := w s.fu.omega.1 0 + w s.fu.omega.2.1 16 + w s.fu.omega.2.2 32 + w s.fu.roll 48
  let h4 := w s.fu.pitch 0 + s.healthyChans * 2 ^ 32 + s.reg R.fuSrcstateQuar * 2 ^ 48
  let oldest := recs.foldl (fun m r => max m (r.age s.us)) 0
  let h5 := (if stamped then oldest else 0) + s.fu.stragglers * 2 ^ 32
  [h0, s.devtime, if stamped then 1000 * s.fu.tf else 0, h3, h4, h5].map (BitVec.ofNat 64)

/-- The result set of output channel c is pushed (R355). -/
def State.postChannel (s : State) (c : Nat) : State :=
  let stamped := s.flag R.fuOutCfgStamped c
  let recs := s.outRecs (s.reg R.fuOutCfgContent c)
  let words := s.outHeader stamped recs ++
    recs.zipIdx.flatMap fun e => e.1.words stamped s.us (Config.freeWord (s.freeCtr + 5120 + e.2)).toNat
  let item := s.nextItem (0x60 + c)
  let s := s.takeItem (0x60 + c)
  let eop := BitVec.ofNat 64 (item.toNat * 2 ^ 32 + words.length)
  let s := (s.pushItemAll 0x62 (s.reg R.fuOutCfgQid c) item 0x0B 0 (words ++ [eop])).modFreeCtr (· + 16384)
  s.modPp fun p => { p with posted := if p.posted.isNone && s.fu.cycleStep == some (s.reg R.ppStepCount) then some item else p.posted }

/-- What a posted result set means outside the engine (R58, R76, R85, R95, R357). DESIGN CHOICE (notes/assumptions/68.md). -/
def State.afterPost (s : State) (first : ItemId) : State :=
  let s := if s.fu.cycleSlot + 1000 * s.reg R.pcDeadlineDUs < s.devtime then
      (s.setReg R.pcLevelMiss 1).inform first 0x0C (s.reg R.pcLevelLevel) (s.paceFlags true false)
    else s
  let s := s.runBegins
  if s.reg R.fuStatusLevel ≤ 4 then
    let now := s.devtime
    let s := s.modKeeper fun k => { k with lastResult := some now }
    if s.inRun && !(s.armed .heartbeat) then s.hbRunEdge else s
  else s

/-- Deleted slots become FREE and the cycle ends (R352, R363). -/
def State.endCycle (s : State) : State :=
  s.modFu fun u => { u with cycleOpen := false, tracks := u.tracks.filter fun t => t.state ≠ .deleted }

/-- POST (R58, R80, R85, R95, R104, R107, R115, R212, R338, R352, R355 to R357, R363). -/
def execPost (s : State) : Out :=
  .next (s.serveCommand 4 fun _ s =>
    let chans := (List.range 16).filter fun c => s.flag R.fuOutCfgEn c
    let s := match chans with
      | [] => s
      | c :: _ =>
        let first := s.nextItem (0x60 + c)
        (chans.foldl State.postChannel s).afterPost first
    some s.endCycle)

/-! ## Lying sensors (R360) -/

/-- The CONFIRMED tracks that the disagreement test of source n counts (R360). DESIGN CHOICE (notes/assumptions/54.md). -/
def State.disagreeTracks (s : State) (n : Nat) : List Nat :=
  let others := (List.range 6).filter fun m => m != n && s.srcHealthy m
  let ok := fun (t : Track) =>
    t.state = .confirmed && s.srcSees n t.x t.y && decide (2 ≤ (others.filter fun m => (s.srcTest m).hitTracks.contains t.slot).length)
  (s.fu.tracks.filter ok).map (·.slot)

/-- The test bits of source n at the end of a window (R360). DESIGN CHOICE (notes/assumptions/54.md). -/
def State.testBits (s : State) (n : Nat) : Nat :=
  let x := s.srcTest n
  let span := s.devtime - s.fu.winStart
  let ev := decide (n < 4)
  let b0 := if ev then
      decide (s.reg R.fuTest2RegMax * x.events < 65536 * x.tagged) ||
      decide (s.reg R.fuTest2JumpMax < (s.reg R.tmCamStatJumps n + 65536 - x.jumps0) % 65536)
    else x.frameBad
  let rate := if ev then 10000 * x.events else 10000000000 * x.frames
  let b1 := decide (rate < s.reg R.fuSrcRateRateLo n * span) || decide (s.reg R.fuSrcRateRateHi n * span < rate)
  let kept := (x.pix.filter fun p => p.2).length
  let frac := s.reg R.fuTest2StuckFrac
  let b2 := if ev then x.buckets.any fun b => decide (frac * x.events < 256 * b.2)
    else decide (2 ≤ x.frames) && decide (frac * x.pix.length < 256 * kept)
  let cand := s.disagreeTracks n
  let hit := (cand.filter fun k => x.hitTracks.contains k).length
  let b3 := decide (4 ≤ cand.length) && decide (256 * hit < (256 - s.reg R.fuTestDisMax) * cand.length)
  ofFlag b0 + 2 * ofFlag b1 + 4 * ofFlag b2 + 8 * ofFlag b3

/-- A source is quarantined (R360, R362): the items of it that the engine holds end, and a fault is raised.
DESIGN CHOICE (notes/assumptions/54.md). -/
def State.quarantineSource (s : State) (n : Nat) : State :=
  let mine := s.fu.items.filter fun i => i.src == n
  let s := (s.setRegBit R.fuSrcstateQuar n true).modSrc n fun x => { x with passes := 0, outOfUse := true }
  let s := s.modFu fun u =>
    { u with items := u.items.filter (fun i => i.src != n), flow := u.flow.filter (fun f => f.2.1 != n) }
  (mine.foldl (fun (s : State) i => s.quarItem n i.item) s).raise 0xD00034 (16 + n) 1 0x0B

/-- A source is released (R360): it stays out of use until the ladder steps up (R359). -/
def State.releaseSource (s : State) (n : Nat) : State :=
  if s.quarantined n then (s.setRegBit R.fuSrcstateQuar n false).modSrc n fun x => { x with fails := 0, passes := 0 } else s

/-- The verdict of a window on source n (R360). DESIGN CHOICE (notes/assumptions/54.md). -/
def State.judge (s : State) (n bits : Nat) : State :=
  let s := s.setRegBit R.fuSrcstateSuspect n (bits ≠ 0)
  if bits ≠ 0 then
    let s := s.modSrc n fun x => { x with fails := x.fails + 1, passes := 0, lastBits := bits }
    if !(s.quarantined n) && decide (s.reg R.fuTestQuarN ≤ (s.srcTest n).fails) then s.quarantineSource n else s
  else
    let s := s.modSrc n fun x => { x with fails := 0, passes := x.passes + 1 }
    if s.quarantined n && s.flag R.fuTestAutoRel && decide (s.reg R.fuTestRelN ≤ (s.srcTest n).passes) then s.releaseSource n else s

/-- TEST_WINDOW_END (R359, R360, R362): TEST_WIN cycles have passed. -/
def execTestWindowEnd (s : State) : Out :=
  .next (if s.domOn 7 && decide (0 < s.reg R.fuTestTestWin) && decide (s.reg R.fuTestTestWin ≤ s.fu.winCycles) then
    let found := s.fuSources.map fun n => (n, s.testBits n)
    (found.foldl (fun (s : State) e => s.judge e.1 e.2) s).newWindow
  else s)

/-- QUAR_CLR (R359, R360): the host releases sources. -/
def execQuarClr (mask : BitVec 6) (s : State) : Out :=
  .next (if s.domOn 7 then (setBits 6 mask.toNat).foldl State.releaseSource (s.setCmd R.fuSrcstateQuarClr 0 mask.toNat) else s)

end Sys2Proof.Machine
end

