-- ==== Sys2Proof/Machine/Jtag.lean ====
section
/-! DEFINITION. The JTAG TAP (R445). -/
namespace Sys2Proof.Machine

/-- EXTEST, CLAMP and HIGHZ take effect: RESET_N is asserted or the device is in GESSO (R445). At any other time they act as
BYPASS. DESIGN CHOICE (notes/assumptions/66.md). -/
def State.tapDrives (s : State) : Bool :=
  (!s.pins.resetN || s.inGesso) && (s.hi.tap == .extest || s.hi.tap == .clamp || s.hi.tap == .highz)

/-- The level that a boundary register drives at ball n; which bits do so is in the BSDL (R445). -/
def ballLevel (bits : List Bool) (n : Nat) : Level :=
  match Config.boundaryDrive n bits with
  | none => .z
  | some true => .high
  | some false => .low

/-- The levels at the output balls: the device's own, or those of the TAP (R445). D-PHY balls are not in the boundary register.
DESIGN CHOICE (notes/assumptions/9.md). DESIGN CHOICE (notes/assumptions/66.md). -/
def State.balls (s : State) : Pins :=
  if !s.tapDrives then s.pins
  else
    let l := fun (n : Nat) => if s.hi.tap = .highz then Level.z else ballLevel s.hi.boundary n
    { s.pins with heartbeat := l 0, ready := l 1, faultN := l 2, camSync := l 3, aerAck := l 4, xoff := [l 5, l 8, l 9, l 10],
                  alarmTx := l 6, spiSdo := l 7 }

/-- Select an instruction; the register between TDI and TDO then holds what it captured.
DESIGN CHOICE (notes/assumptions/66.md). -/
def State.selectTap (s : State) (i : TapInstr) (out : List Bool) : State :=
  s.modHi fun h => { h with tap := i, tapOut := out }

/-- The identification (R445): stepping digit, part number, and 1 in bit 0. The manual gives the part number of the Q64 alone,
and no bits [11:1]. DESIGN CHOICE (notes/assumptions/9.md). -/
def State.idWord (s : State) : Nat :=
  let open_ := fun (n : Nat) => (Config.idcodeRest n).toNat
  let part := if s.member = .q64 then 0x0064 else bits (open_ s.member.num) 27 12
  1 + bits (open_ 0) 11 1 * 2 + part * 2 ^ 12 + s.part.stepping % 16 * 2 ^ 28

/-- The bits of a 32-bit word, bit 0 first. -/
def bitList (w : Nat) : List Bool := (List.range 32).map (bitAt w)

/-- TEST_LOGIC_RESET (R445): IDCODE is selected. -/
def execTestLogicReset (s : State) : Out := .next (s.selectTap .idcode [])

/-- BYPASS (R445): one bit that captures 0. -/
def execBypass (s : State) : Out := .next (s.selectTap .bypass [false])

/-- IDCODE (R445). -/
def execIdcode (s : State) : Out := .next (s.selectTap .idcode (bitList s.idWord))

/-- SAMPLE/PRELOAD (R445): the boundary register captures the balls, which the BSDL numbers, and shifts them out; with a preload
it holds the bits shifted in. DESIGN CHOICE (notes/assumptions/66.md). -/
def execSamplePreload (preload : Option (List Bool)) (s : State) : Out :=
  let seen := Config.boundaryBits s.freeCtr
  .next (((s.selectTap .sample seen).modHi fun h => { h with boundary := preload.getD seen }).tick)

/-- EXTEST (R445): the boundary register drives the outputs and captures the inputs; outside reset and GESSO it acts as BYPASS.
DESIGN CHOICE (notes/assumptions/66.md). -/
def execExtest (s : State) : Out :=
  let s := s.selectTap .extest [false]
  .next (if s.tapDrives then (s.modHi fun h => { h with tapOut := Config.boundaryBits s.freeCtr }).tick else s)

/-- CLAMP (R445): the boundary register holds the outputs while BYPASS is shifted. DESIGN CHOICE (notes/assumptions/66.md). -/
def execClamp (s : State) : Out := .next (s.selectTap .clamp [false])

/-- HIGHZ (R445): the outputs float while BYPASS is shifted. DESIGN CHOICE (notes/assumptions/66.md). -/
def execHighz (s : State) : Out := .next (s.selectTap .highz [false])

end Sys2Proof.Machine
end

