-- ==== Sys2Proof/Machine/Ledger.lean ====
section
/-! DEFINITION. The ledger head and the fault stack: notices, reports, faults, the watchdog and the end of a quiesce (R459 to
R473). -/
namespace Sys2Proof.Machine

/-- COMPLETION_NOTICE (R30, R459, R465). DESIGN CHOICE (notes/assumptions/11.md). -/
def execCompletionNotice (item : ItemId) (block : BitVec 8) (s : State) : Out :=
  .next (if s.alive then s.complete item block.toNat else s)

/-- Informational codes (R457). -/
def isInformational (reason : Nat) : Bool := [0x07, 0x08, 0x09, 0x0A, 0x0B, 0x0C, 0x10].contains reason

/-- TERMINAL_REPORT (R26, R30, R457, R459 to R461): a terminal code ends the item or meets its held record; an informational one
is pushed; other codes are never written. DESIGN CHOICE (notes/assumptions/11.md). -/
def execTerminalReport (item : ItemId) (reason stage : BitVec 8) (flags : BitVec 16) (s : State) : Out :=
  .next (if !s.alive then s
    else if reasonRank reason.toNat < 14 then s.report item reason.toNat stage.toNat flags.toNat
    else if isInformational reason.toNat then s.inform item reason.toNat stage.toNat flags.toNat
    else s)

/-- COALESCE_EXPIRE (R460, R462): held records whose hold has ended are pushed. -/
def execCoalesceExpire (s : State) : Out := .next s.pushHeld

/-! ## Faults (R466 to R469, R473) -/

/-- FAULT_RAISE (R466, R468, R469, R472). -/
def execFaultRaise (off bit sev block : Nat) (s : State) : Out := .next (if s.alive then s.raise off bit sev block else s)

/-- Keeper has handled an entry (R467): below severity 2 it retires; else it is held with FAULT_N asserted and an alarm, and
severity 3 quiesces. -/
def State.faultHandled (s : State) (e : FaultEntry) : State :=
  let s := s.bump R.lgCntCount 5
  if e.sev < 2 then (s.retireFault e.slot).takeFault
  else
    let s := (s.modLg fun l => { l with faults := setFaultState l.faults e.slot 3 }).vector 3
    let s := (s.setFaultN s.faultNShould).alarm "FLT" e.sev
    let s := if e.sev = 3 then s.quiesce 3 0x14 0x100 else s
    s.takeFault

/-- FAULT_HANDLE (R79, R436, R443, R467, R468): the entry in hand has been handled, and Keeper takes the next. -/
def execFaultHandle (s : State) : Out :=
  .next (match s.lg.faults.find? (·.state = 2) with
    | some e => s.faultHandled e
    | none => s)

/-- Held severity-2 entries that a mask names retire (R467, R473), and FAULT_N follows (R474). -/
def State.ackFaults (s : State) (mask : Nat) : State :=
  let l := (s.lg.faults.filter fun e => e.state == 3 && e.sev == 2 && bitAt mask e.slot).map (·.slot)
  let s := l.foldl State.retireFault s
  if l.isEmpty then s else s.setFaultN s.faultNShould

/-- LG_FAULT_ACK (R467, R473, R474). -/
def execLgFaultAck (mask : BitVec 8) (s : State) : Out :=
  .next (if s.alive then (s.setCmd R.lgFaultAckAck 0 mask.toNat).ackFaults mask.toNat else s)

/-! ## The watchdog and the quiesce (R470 to R472) -/

/-- The first covered item that is older than LIMIT_MS × P_guard (R470). -/
def State.tooOld (s : State) : Option ItemId :=
  (s.lg.items.find? fun e => s.wdCovers (streamOf e.1) && decide (s.scaled (1000000 * s.reg R.lgWdLimitMs) < s.devtime - e.2)).map
    (·.1)

/-- WATCHDOG (R470 to R472): the stream is recorded, the device quiesces, and a severity-2 fault enters the stack where a slot
holds no live entry. DESIGN CHOICE (notes/assumptions/16.md). DESIGN CHOICE (notes/assumptions/23.md). -/
def execWatchdog (s : State) : Out :=
  .next (if s.inRun && s.flag R.lgWdEn && !s.quiesced then
    match s.tooOld with
    | some i =>
      let st := streamOf i
      let s := (s.setReg R.lgWdStream st).bump R.lgCntCount 7
      (s.quiesce 2 0x14 st).raise 0xF80008 16 2 0x0E
    | none => s
  else s)

/-- QUIESCE_DONE (R108, R223, R471, R472): the reports are finished. After a storm or the watchdog Keeper enters GESSO code 6 or
7; after a severity-3 fault the device stays as it is. DESIGN CHOICE (notes/assumptions/23.md). -/
def execQuiesceDone (s : State) : Out :=
  .next (if !(s.flag R.lgStatusQuiescing) then s
    else
      let c := s.reg R.lgStatusCause
      if c = 3 then (s.disarm .quiesce).setReg R.lgStatusQuiescing 0
      else if s.due .quiesce then
        (((s.disarm .quiesce).setReg R.lgStatusQuiescing 0).enterGesso (if c = 1 then 6 else 7)).fetchAll
      else s)

end Sys2Proof.Machine
end

