-- ==== Sys2Proof/Machine/Span.lean ====
section
/-! DEFINITION. The span links' commands: training, frames, acknowledgement and give-up, items, credit (R400 to R422). -/
namespace Sys2Proof.Machine

/-- What the sides put on their links last is forgotten when a command begins. -/
def State.clearWire (s : State) : State :=
  s.modSl fun x => { x with sides := x.sides.map fun y => { y with wire := [], shorts := [] } }

/-! ## Training (R403, R422) -/

/-- A side becomes UP (R403, R415, R417): sequences begin afresh and GRANT entries go out.
DESIGN CHOICE (notes/assumptions/59.md). -/
def State.linkComesUp (s : State) (n : Nat) (chip side : Nat) : State :=
  let link := s.ringLink s.chip n
  let s := ((s.setReg R.slSStatusState 2 n).setReg R.slSStatusPeerChip chip n).setReg R.slSStatusPeerSide side n
  let s := (s.setReg R.slSStatusStopIn 0 n).modSpan n fun x =>
    { x with trainGood := 0, txNext := 0, rxNext := 0, ackOwed := false, nakDue := false, nakSent := false, replay := [], dup := none }
  let s := s.modSl fun x => { x with linksDown := x.linksDown.filter (· != link) }
  (((s.disarm (.trainLimit n)).disarm (.trainRetry n)).refreshReach).sendGrants

/-- A side becomes LOST (R403, R422): a fault, and training again after 100 ms unless it is held. -/
def State.loseLink (s : State) (n : Nat) : State :=
  let s := ((s.setReg R.slSStatusState 3 n).disarm (.trainLimit n)).raise (0xF01008 + 0x1000 * n) 0 1 0x0D
  (if (s.spanSide n).heldLost then s.disarm (.trainRetry n) else s.arm (.trainRetry n) 100000000).refreshReach

/-- TRAINING_TIMEOUT (R403, R422): 10 ms of training have passed. -/
def execTrainingTimeout (side : Nat) (s : State) : Out :=
  .next (if s.sideOn side && s.linkState side == 1 && s.due (.trainLimit side) then s.loseLink side else s)

/-- TRAINING_RETRY (R403): a LOST link that is not held trains again. -/
def execTrainingRetry (side : Nat) (s : State) : Out :=
  .next (if s.sideOn side && s.linkState side == 3 && s.due (.trainRetry side) && !((s.spanSide side).heldLost) then
    (s.train side).bump R.slSCntCount side 11 else s)

/-- RETRAIN (R422): the host restarts training of a LOST link. -/
def execRetrain (side : Nat) (s : State) : Out :=
  let s := if s.sideOn side then s.setCmd R.slSCtrlRetrain side else s
  .next (if s.sideOn side && s.linkState side == 3 && s.flag R.slSCtrlEn side then (s.train side).bump R.slSCntCount side 11 else s)

/-! ## Give-up (R410, R416, R417) -/

/-- Items of this chip end LINK_EXHAUSTED (R31, R320, R410): the timer above each is cancelled, and the rest of an item in
progress is discarded. DESIGN CHOICE (notes/assumptions/60.md). -/
def State.exhaust (s : State) (l : List SpanItem) (side flags : Nat) : State :=
  l.foldl (fun (s : State) x =>
    let s := ((s.report x.item 0x05 side flags).disarm (.deliv x.item)).tokenLost x.item
    let mine := fun (b : Binding) =>
      decide (0 < b.frag) && b.iseq == x.iseq && s.txDst b.k == x.dst && s.txToken b.k == x.token
    s.modSl fun y =>
      { y with items := y.items.filter fun i => i.item != x.item,
               bindings := y.bindings.map fun b => if mine b then { b with skip := true } else b }) s

/-- The endpoint that pushes into a receive queue (R412): its producer, SPAN_A or SPAN_B receive. -/
def State.rxEndpoint (s : State) (n q : Nat) : Nat :=
  let p := s.reg R.qmQEpProd q
  if p = 0x6A ∨ p = 0x6B then p else 0x6A + n

/-- Change an incoming stream. -/
def State.modRx (s : State) (key : Nat) (f : RxStream → RxStream) : State := s.modSl fun x => { x with rx := alMod x.rx key {} f }

/-- An item is complete in the window (R413). -/
def RxStream.done (r : RxStream) (iseq : Nat) : RxStream :=
  { r with inProgress := r.inProgress.filter (·.iseq ≠ iseq), complete := (iseq :: r.complete).take 1024 }

/-- Partly received items of a side are aborted (R416): an abort cell, and LINK_EXHAUSTED.
DESIGN CHOICE (notes/assumptions/60.md). -/
def State.abortRx (s : State) (hit : Nat → RxItem → Bool) (side flags : Nat) : State :=
  let l := s.sl.rx.flatMap fun e => (e.2.inProgress.filter (hit e.1)).map fun x => (e.1, x)
  l.foldl (fun (s : State) e =>
    let item := rxLocal e.1 e.2.iseq
    let ep := s.rxEndpoint e.2.side e.2.qid
    let landed := s.pushRes ep e.2.qid true false = .landed
    let s := s.push ep e.2.qid (BitVec.ofNat 64 (item.toNat * 2 ^ 32 + 0xFFFFFFFF)) item true false
    let s := if landed then
        s.modSl fun y => { y with rxFrames := y.rxFrames ++ [{ qid := e.2.qid, name := e.2.qid, src := 4, esc := false, cells := 1, left := 1 }] }
      else s
    (s.report item 0x05 side flags).modRx e.1 fun r => r.done e.2.iseq) s

/-- A side stops being UP (R410, R416): its buffers are discarded and the items that it was carrying here are aborted.
DESIGN CHOICE (notes/assumptions/60.md). -/
def State.linkFalls (s : State) (n flags : Nat) : State :=
  let link := s.ringLink s.chip n
  let s := s.modSpan n fun x => { x with replay := [], forward := [], ctrl := [], ackOwed := false, nakDue := false }
  let s := s.modSl fun x => { x with linksDown := if x.linksDown.contains link then x.linksDown else x.linksDown ++ [link] }
  let s := ((s.disarm (.ack n)).disarm (.ackIdle n)).abortRx (fun _ x => x.side == n) n flags
  s.setReg R.slSStatusStopIn 0 n

/-- A data frame of this chip carries an item (R404, R412). -/
def State.frameOfItem (s : State) (f : LongFrame) (x : SpanItem) : Bool :=
  f.type == 1 && f.src == s.chip && f.dst == x.dst && f.token == x.token && f.iseq == x.iseq % 65536

/-- The transmitter of a side gives up (R410, R416, R417, R422): the link goes DOWN and trains again, or is held LOST after 64
give-ups within 1 s. DESIGN CHOICE (notes/assumptions/16.md). DESIGN CHOICE (notes/assumptions/60.md). -/
def State.giveUp (s : State) (n : Nat) : State :=
  let now := s.devtime
  let lost := s.sl.items.filter fun x => (s.spanSide n).replay.any fun e => s.frameOfItem e.frame x
  let times := ((s.spanSide n).giveups.filter fun t => decide (now < t + 1000000000)) ++ [now]
  let s := (s.bump R.slSCntCount n 5).modSpan n fun x => { x with giveups := times }
  let s := (s.exhaust lost n s.chip).linkFalls n s.chip
  let s := if 64 ≤ times.length then
      ((s.modSpan n fun x => { x with heldLost := true, giveups := [] }).raise (0xF01054 + 0x1000 * n) 0 2 0x0D).loseLink n
    else (s.train n).bump R.slSCntCount n 11
  let others := (List.range s.chips).filter (· != s.chip)
  others.foldl (fun (s : State) c => s.queueEntry c (noticeEntry s.chip n s.us)) s

/-- The partner of an UP side has gone back to TRAINING (R403, R410, R416): the link is DOWN here too, what its buffers held is
discarded, and this side trains again. DESIGN CHOICE (notes/assumptions/59.md). -/
def State.partnerTrains (s : State) (n : Nat) : State :=
  let peer := s.reg R.slSStatusPeerChip n
  let lost := s.sl.items.filter fun x => (s.spanSide n).replay.any fun e => s.frameOfItem e.frame x
  (((s.exhaust lost n peer).linkFalls n peer).train n).bump R.slSCntCount n 11

/-- TRAIN_PAIR_RECEIVE (R403, R406, R410, R415, R417): 64 good pairs in a row that fit SL_RING make a link in TRAINING UP; 64 of
them, with no frame between, show an UP side that its partner trains again. DESIGN CHOICE (notes/assumptions/59.md). -/
def execTrainPairReceive (side : Nat) (ringId : BitVec 16) (chip : BitVec 2) (peerSide good : Bool) (s : State) : Out :=
  .next (if !(s.sideOn side) || !(s.linkState side == 1 || s.linkState side == 2) then s
  else
    let s := s.clearWire
    let fits := good && ringId.toNat == s.reg R.slRingRingId && s.ringNeighbour side == some (chip.toNat, ofFlag peerSide)
    let k := if fits then (s.spanSide side).trainGood + 1 else 0
    if k < 64 then s.modSpan side fun x => { x with trainGood := k }
    else if s.linkState side = 1 then s.linkComesUp side chip.toNat (ofFlag peerSide)
    else s.partnerTrains side)

/-! ## Acknowledgement and replay (R408, R409, R419) -/

/-- Replay from the oldest unacknowledged frame (R409): one retry of that frame. DESIGN CHOICE (notes/assumptions/59.md). -/
def State.replayFrames (s : State) (n : Nat) : State :=
  let now := s.devtime
  let again := (s.spanSide n).replay.zipIdx.map fun e =>
    { e.1 with frame := s.stamp n e.1.frame, at_ := now + 250 * e.2, retries := if e.2 = 0 then e.1.retries + 1 else e.1.retries }
  let s := s.modSpan n fun x =>
    { x with replay := again, wire := x.wire ++ again.map fun e => frameBytes e.frame, ackOwed := false, nakSent := x.nakSent || x.nakDue, nakDue := false }
  ((s.bump R.slSCntCount n 4).disarm (.ackIdle n)).ackTimer n

/-- The LINK word of a good frame (R404, R408, R409): ACK, NAK and STOP. DESIGN CHOICE (notes/assumptions/59.md). -/
def State.linkWord (s : State) (n ack : Nat) (nak stop : Bool) : State :=
  let s := s.setFlag R.slSStatusStopIn stop n
  let s := match (s.spanSide n).replay.findIdx? fun e => e.frame.lseq == ack with
    | some i =>
      let at_ := ((s.spanSide n).replay[i]?.map (·.at_)).getD s.devtime
      let s := s.setReg R.slSStatusRttNs (satTo 0xFFFF (s.devtime - at_)) n
      (s.modSpan n fun x => { x with replay := x.replay.drop (i + 1) }).ackTimer n
    | none => s
  if !nak then s
  else
    let s := s.bump R.slSCntCount n 3
    match (s.spanSide n).replay with
    | e :: _ => if e.retries < 4 then s.replayFrames n else s
    | [] => s

/-- The receiver owes an answer: with the next frame, or in a short frame after 500 ns (R409).
DESIGN CHOICE (notes/assumptions/59.md). -/
def State.oweAck (s : State) (n : Nat) (nak : Bool) : State :=
  let s := s.modSpan n fun x => { x with ackOwed := true, nakDue := x.nakDue || nak }
  if s.armed (.ackIdle n) then s else s.arm (.ackIdle n) 500

/-! ## Receiving items (R412 to R414) -/

/-- The 24-bit ISEQ nearest to the highest one accepted (R412), with its distance from it.
DESIGN CHOICE (notes/assumptions/59.md). -/
def extendSeq (high : Option Nat) (low : Nat) : Nat × Int :=
  match high with
  | none => (low, 0)
  | some h =>
    let d := toSigned 16 (low + 65536 - h % 65536)
    (((h : Int) + d).toNat % 2 ^ 24, d)

/-- The cells of a data frame are pushed (R230, R412): the item's EOP cell names the local item. Answers how many landed. -/
def State.pushRx (s : State) (ep q : Nat) (item : ItemId) (last : Bool) : List Cell64 → Nat × State
  | [] => (0, s)
  | c :: t =>
    let eop := last && t.isEmpty
    let c := if eop then BitVec.ofNat 64 (item.toNat * 2 ^ 32 + bits c.toNat 31 0) else c
    let ok := s.pushRes ep q eop false = .landed
    let r := (s.pushItem ep q c item eop false 0x0D 0).pushRx ep q item last t
    ((if ok then 1 else 0) + r.1, r.2)

/-- A duplicate frame (R413): acknowledged and not pushed; one DUPLICATE record for the item.
DESIGN CHOICE (notes/assumptions/59.md). -/
def State.duplicateFrame (s : State) (n : Nat) (item : ItemId) : State :=
  let s := s.bump R.slSCntCount n 6
  if (s.spanSide n).dup = some item then s
  else (s.modSpan n fun x => { x with dup := some item }).inform item 0x07 0x0D 0

/-- The queue that takes the item of a frame (R322, R412): a token that begins goes by its source and the expert in its header cell;
a result, whose QID is that of a return queue, and any other item go to the QID of the frame.
DESIGN CHOICE (notes/assumptions/49.md). -/
def State.rxQueue (s : State) (f : LongFrame) : Nat :=
  match f.cells with
  | c :: _ =>
    if f.token && s.distributed && !([0, 1].any fun k => s.reg R.xrRetQid k == f.qid) then s.reg R.xrRqQid f.src (bits c.toNat 19 14)
    else f.qid
  | [] => f.qid

/-- A data frame for this chip (R322, R412 to R414). DESIGN CHOICE (notes/assumptions/59.md). -/
def State.receiveData (s : State) (n : Nat) (f : LongFrame) : State :=
  let key := f.src + 4 * ofFlag f.token
  let r := (alGet s.sl.rx key).getD {}
  let e := extendSeq r.high f.iseq
  let item := rxLocal key e.1
  let x := r.inProgress.find? (·.iseq = e.1)
  if e.2 < -1023 then s.bump R.slSCntCount n 7
  else if r.complete.contains e.1 || (match x with | some x => decide (f.frag < x.next) | none => false) then s.duplicateFrame n item
  else if f.frag ≠ (match x with | some x => x.next | none => 0) then s
  else
    let s := if x.isNone then s.create item else s
    let s := s.modSpan n fun y => { y with dup := none }
    let q := (x.map (·.qid)).getD (s.rxQueue f)
    let p := s.pushRx (s.rxEndpoint n q) q item f.last f.cells
    let s := p.2.modSl fun y =>
      { y with rxFrames := y.rxFrames ++ [{ qid := q, name := f.qid, src := f.src, esc := f.esc, cells := p.1, left := p.1 }] }
    let s := s.modRx key fun r =>
      { r with high := if e.2 ≤ 0 ∧ r.high.isSome then r.high else some e.1,
               inProgress := (r.inProgress.filter (·.iseq ≠ e.1)) ++ [{ iseq := e.1, next := f.frag + 1, qid := q, side := n }] }
    if f.last then
      let s := s.modRx key fun r => r.done e.1
      if p.1 = f.cells.length then s.queueEntry f.src (deliveredEntry f.token e.1) else s
    else s

/-- A frame accepted in order (R404, R405, R408): forwarded, pushed, or read as control entries.
DESIGN CHOICE (notes/assumptions/59.md). -/
def State.acceptFrame (s : State) (n : Nat) (f : LongFrame) : State :=
  if f.type ≠ 1 ∧ f.type ≠ 2 then s
  else if f.dst ≠ s.chip then
    let s := s.bump R.slSCntCount n 10
    match s.direction f.dst with
    | some m => s.modSpan m fun x => { x with forward := x.forward ++ [f] }
    | none => s
  else if f.type = 1 then s.receiveData n f
  else
    let known := f.cells.filter fun c => decide (1 ≤ bits c.toNat 3 0) && decide (bits c.toNat 3 0 ≤ 4)
    s.modSl fun x => { x with ctrlIn := x.ctrlIn ++ known.map fun c => (n, f.src, c) }

/-- LONG_FRAME_RECEIVE (R402, R404, R408, R409, R412 to R414, R419). DESIGN CHOICE (notes/assumptions/59.md). -/
def execLongFrameReceive (side : Nat) (bytes : List Byte) (crc : Word) (s : State) : Out :=
  .next (if !(s.linkUp side) then s
  else
    let s := s.clearWire.modSpan side fun x => { x with trainGood := 0 }
    match frameOf bytes crc with
    | none => ((s.bump R.slSCntCount side 2).oweAck side true).pump
    | some frame =>
      let s := s.linkWord side frame.ack frame.nak frame.stop
      let x := s.spanSide side
      let d := (frame.lseq + 4096 - x.rxNext) % 4096
      if d = 0 then
        let s := (s.bump R.slSCntCount side 1).modSpan side fun x => { x with rxNext := (x.rxNext + 1) % 4096, nakDue := false, nakSent := false }
        ((s.oweAck side false).acceptFrame side frame).pump
      else if 2048 ≤ d then
        let s := s.oweAck side false
        (if frame.type = 1 ∧ frame.dst = s.chip then s.receiveData side frame else s).pump
      else (s.oweAck side (!x.nakSent)).pump)

/-- SHORT_FRAME_RECEIVE (R402, R404, R409, R419). -/
def execShortFrameReceive (side : Nat) (link crc : Word) (s : State) : Out :=
  .next (if !(s.linkUp side) then s
  else
    let s := s.clearWire.modSpan side fun x => { x with trainGood := 0 }
    match shortOf link crc with
    | none => (s.bump R.slSCntCount side 2).pump
    | some link => (s.linkWord side (bits link 23 12) (bitAt link 24) (bitAt link 25)).pump)

/-- A short frame on the link, behind SOF_S (R402, R404). -/
def State.shortBytes (s : State) (n : Nat) : List Byte :=
  withCrc (leBytes 4 (linkField 0 (((s.spanSide n).rxNext + 4095) % 4096) (s.spanSide n).nakDue (s.stopOut n)))

/-- SHORT_FRAME_SEND (R409): the ACK goes in a short frame where no long frame took it within 500 ns. -/
def execShortFrameSend (side : Nat) (s : State) : Out :=
  .next (if !(s.linkUp side) || !(s.due (.ackIdle side)) then s
  else
    let s := s.clearWire.pump
    if !(s.spanSide side).ackOwed then s
    else
      let w := s.shortBytes side
      (s.modSpan side fun x => { x with shorts := [w], ackOwed := false, nakSent := x.nakSent || x.nakDue, nakDue := false }).disarm (.ackIdle side))

/-- ACK_TIMEOUT (R409, R410, R416, R417, R419, R422). -/
def execAckTimeout (side : Nat) (s : State) : Out :=
  .next (if !(s.linkUp side) || !(s.due (.ack side)) then s
  else
    let s := s.clearWire
    match (s.spanSide side).replay with
    | [] => s.disarm (.ack side)
    | e :: _ => (if 4 ≤ e.retries then s.giveUp side else s.replayFrames side).pump)

/-! ## Sending items (R407, R409, R411, R412, R414) -/

/-- Change a binding. -/
def State.modBinding (s : State) (k : Nat) (f : Binding → Binding) : State :=
  let b := f (s.binding k)
  s.modSl fun x => { x with bindings := (x.bindings.filter (·.k ≠ k)) ++ [b] }

/-- Cells at the head of a queue that one data frame can take (R407): at most 8, closed at the EOP cell. -/
def frameRun : Nat → List Cell → Nat
  | 0, _ => 0
  | _, [] => 0
  | n + 1, c :: t => if c.marker then 0 else if c.eop then 1 else 1 + frameRun n t

/-- The side that a binding's frames leave by (R407, R408, R417): its own link where it leads to the destination. -/
def State.txSide (s : State) (k : Nat) : Option Nat :=
  let dst := s.txDst k
  let own := s.reg R.qmQEpCons (s.txQid k) - 0x68
  if s.leads own dst then some own else s.direction dst

/-- What a data frame of n cells is sent on (R414, R420): general credit, or the escape credit; none: it waits. -/
def Binding.pays (b : Binding) (n : Nat) : Option Bool :=
  if (n : Int) ≤ b.general then some false
  else if 0 ≤ b.general ∧ 0 < b.frag ∧ b.esc = 8 then some true else none

/-- The cells of a data frame are popped (R239, R407): each with its EOP and its item. A poisoned one is replaced. -/
def State.popFrame (s : State) (ep q : Nat) (u : Upset) : Nat → List (Cell64 × Bool × ItemId) × State
  | 0 => ([], s)
  | n + 1 =>
    match s.popFor 0x0D ep q false u with
    | (none, s) => ([], s)
    | (some (d, got), s) =>
      let mine := if got = .use then [(d.data, d.eop, d.item)] else if got = .poison then [(poisonCell d.item, d.eop, d.item)] else []
      let r := s.popFrame ep q Upset.none n
      (mine ++ r.1, r.2)

/-- A data frame of binding k with the cells popped goes out on a side (R404, R407, R411, R412, R414).
DESIGN CHOICE (notes/assumptions/60.md). -/
def State.sendData (s : State) (k n : Nat) (esc : Bool) (cells : List (Cell64 × Bool × ItemId)) : State :=
  match cells with
  | [] => s
  | c :: _ =>
    let dst := s.txDst k
    let token := s.txToken k
    let key := dst + 4 * ofFlag token
    let m := cells.length
    let last := cells.any (·.2.1)
    let s := if (s.binding k).frag ≠ 0 then s
      else
        let iseq := (alGet s.sl.iseqs key).getD 0
        let x : SpanItem := { item := c.2.2, dst := dst, token := token, iseq := iseq, side := n, links := s.linksTo n dst }
        let s := s.modSl fun y => { y with iseqs := alPut y.iseqs key ((iseq + 1) % 2 ^ 24), items := y.items ++ [x] }
        let s := s.modBinding k fun b => { b with iseq := iseq }
        if token then s else s.arm (.deliv c.2.2) (1000 * s.reg R.slDelivDelivTmo)
    let b := s.binding k
    let f : LongFrame :=
      { lseq := 0, ack := 0, nak := false, stop := false, type := 1, src := s.chip, dst := dst, token := token, last := last, esc := esc,
        qid := s.txDstQid k, frag := b.frag, iseq := b.iseq % 65536, cells := cells.map (·.1) }
    let s := s.modBinding k fun b =>
      { b with general := if esc then b.general else b.general - m, sent := if esc then b.sent else b.sent + m,
               esc := if esc then 0 else b.esc, frag := if last then 0 else (b.frag + 1) % 2048 }
    ((if esc then s.bump R.slSCntCount n 9 else s).modSpan n fun x => { x with turn := (k + 1) % s.txCount }).sendFrame n f

/-- Binding k has a data frame that it can send on a side now (R407 to R409, R414, R420). -/
def State.canSend (s : State) (n k : Nat) : Bool :=
  let q := s.txQid k
  let ep := s.reg R.qmQEpCons q
  s.txOn k && (ep == 0x68 || ep == 0x69) && s.txSide k == some n && s.popAllowed ep q && !(s.popWaits ep q false) &&
  !((s.binding k).skip) && decide (0 < frameRun 8 (s.queue q).cells) && s.roomToSend n &&
  !(s.goesOn n (s.controlFrame (s.txDst k) []) && s.flag R.slSStatusStopIn n) &&
  ((s.binding k).pays (frameRun 8 (s.queue q).cells)).isSome

/-- It is the turn of binding k on a side (R407): round-robin over the bindings that can send, from the one behind the last that
did. -/
def State.inTurn (s : State) (n k : Nat) : Bool :=
  ((List.range s.txCount).map fun i => ((s.spanSide n).turn + i) % s.txCount).find? (s.canSend n) == some k

/-- SPAN_TRANSMIT (R407 to R409, R411, R412, R414, R417, R420): binding k, whose queue has SPAN_A or SPAN_B transmit as consumer,
sends its next data frame in its turn, behind what is forwarded. One that waits for credit counts and holds up no other. -/
def execSpanTransmit (k : Nat) (upset : Upset) (s : State) : Out :=
  .next (if !(s.txOn k) || !(s.domOn 9) || s.quiesced ||
    !(s.reg R.qmQEpCons (s.txQid k) == 0x68 || s.reg R.qmQEpCons (s.txQid k) == 0x69) then s
  else
    let s := s.clearWire.pump
    let q := s.txQid k
    let ep := s.reg R.qmQEpCons q
    let b := s.binding k
    match (s.queue q).cells with
    | [] => s
    | c :: _ =>
      if c.marker || b.skip then
        let r := s.popFrame ep q upset 1
        if b.skip && r.1.any (·.2.1) then r.2.modBinding k fun b => { b with skip := false, frag := 0 } else r.2
      else
        match s.txSide k with
        | none => s
        | some n =>
          let far := s.goesOn n (s.controlFrame (s.txDst k) [])
          if !(s.roomToSend n) || (far && s.flag R.slSStatusStopIn n) then s
          else
            let m := frameRun 8 (s.queue q).cells
            match b.pays m with
            | none => s.bump R.slSCntCount n 8
            | some esc =>
              if !(s.inTurn n k) then s
              else
                let r := s.popFrame ep q upset m
                r.2.sendData k n esc r.1)

/-! ## Control entries (R405, R410, R412, R414, R415, R421) -/

/-- The oldest control entry received, where it is of a KIND: its side, source and word; it is taken. -/
def State.takeEntry (s : State) (kind : Nat) : Option (Nat × Nat × Nat) × State :=
  match s.sl.ctrlIn with
  | [] => (none, s)
  | e :: t => if bits e.2.2.toNat 3 0 = kind then (some (e.1, e.2.1, e.2.2.toNat), s.modSl fun x => { x with ctrlIn := t }) else (none, s)

/-- The binding that an entry of a chip's queue speaks of (R405, R407): the lowest-numbered one.
DESIGN CHOICE (notes/assumptions/60.md). -/
def State.bindingTo (s : State) (chip q : Nat) : Option Nat :=
  (List.range s.txCount).find? fun k => s.txOn k && s.txDst k == chip && s.txDstQid k == q

/-- CREDIT (R405, R414, R420): cells of general credit return, or the escape credit as a whole. -/
def execCredit (s : State) : Out :=
  .next (match s.takeEntry 1 with
    | (none, s) => s
    | (some (_, src, v), s) =>
      match s.bindingTo src (bits v 12 4) with
      | none => s
      | some k =>
        let n : Int := bits v 28 13
        s.modBinding k fun b => if bitAt v 29 then { b with esc := 8 } else { b with general := b.general + n, sent := b.sent - n })

/-- GRANT (R405, R415, R417): available general credit is GRANT less the cells sent and not returned. The links of a chip that
grants are UP again. -/
def execGrant (s : State) : Out :=
  .next (match s.takeEntry 2 with
    | (none, s) => s
    | (some (_, src, v), s) =>
      let links := [s.ringLink src 0, s.ringLink src 1].filter fun l =>
        l != s.ringLink s.chip 0 && l != s.ringLink s.chip 1
      let s := (s.modSl fun x => { x with linksDown := x.linksDown.filter fun l => !(links.contains l) }).refreshReach
      match s.bindingTo src (bits v 12 4) with
      | none => s
      | some k => s.modBinding k fun b => { b with general := (bits v 28 13 : Int) - b.sent })

/-- DELIVERED (R405, R411, R412, R421): a general item completes on its source chip; a token waits for its result. -/
def execDelivered (s : State) : Out :=
  .next (match s.takeEntry 3 with
    | (none, s) => s
    | (some (side, src, v), s) =>
      match s.sl.items.find? fun x => x.dst == src && x.token == bitAt v 4 && x.iseq == bits v 28 5 with
      | none => s.bump R.slSCntCount side 12
      | some x =>
        let s := (s.modSl fun y => { y with items := y.items.filter fun i => i.item != x.item }).disarm (.deliv x.item)
        if x.token then s else s.endTaken 0x0D x.item false)

/-- NOTICE (R405, R410, R416, R417, R421): items whose path crossed the failed link end LINK_EXHAUSTED. -/
def execNotice (s : State) : Out :=
  .next (match s.takeEntry 4 with
    | (none, s) => s
    | (some (_, _, v), s) =>
      let chip := bits v 5 4
      let side := bits v 6 6
      let link := s.ringLink chip side
      let s := s.modSl fun x => { x with linksDown := if x.linksDown.contains link then x.linksDown else x.linksDown ++ [link] }
      let s := s.exhaust (s.sl.items.filter fun x => x.links.contains link) side (chip + 4)
      (s.abortRx (fun key x => (s.linksTo x.side (key % 4)).contains link) side (chip + 4)).refreshReach)

/-- DELIV_TMO (R411, R418): a general item is not DELIVERED in time and ends TIMEOUT. -/
def execDelivTmo (item : ItemId) (s : State) : Out :=
  .next (if !(s.due (.deliv item)) then s
  else
    let s := (s.modSl fun y => { y with items := y.items.filter fun i => i.item != item }).disarm (.deliv item)
    s.report item 0x06 0x0D 0)

/-- SPAN_LINK_ENABLE (R403, R422, R423): EN takes a link from DOWN into TRAINING; with EN clear it is DOWN.
DESIGN CHOICE (notes/assumptions/60.md). -/
def execSpanLinkEnable (side : Nat) (on : Bool) (s : State) : Out :=
  .next (if !(s.sideOn side) then s
  else
    let s := (s.setFlag R.slSCtrlEn on side).clearWire
    if on then (if s.linkState side = 0 then s.train side else s)
    else if s.linkState side = 0 then s
    else
      let s := if s.linkState side = 2 then s.linkFalls side s.chip else s
      (((s.setReg R.slSStatusState 0 side).disarm (.trainLimit side)).disarm (.trainRetry side)).refreshReach)

end Sys2Proof.Machine
end

