-- ==== Sys2Proof/Machine/Time.lean ====
section
/-! DEFINITION. The commands of the time block (R205 to R216, R223). -/
namespace Sys2Proof.Machine

/-- REF_WINDOW (R204 to R206): a 10 ms window measures REF_IN at `ppb` from 10 MHz against the crystal. 100 windows within
100 ppm qualify it; one outside loses it. DESIGN CHOICE (notes/assumptions/29.md). -/
def execRefWindow (ppb : Int) (s : State) : Out :=
  .next (if !s.clockRuns then s
  else if 100000 < ppb.natAbs then s.refLost
  else
    let n := s.tm.refWindows + 1
    let s := s.modTm fun t => { t with refWindows := min n 100, refPpb := ppb }
    let s := if 100 ≤ n ∧ s.flag R.tmStatusRefQ = false then
      ((s.setReg R.tmStatusRefQ 1).modTm fun t => { t with refQualAt := s.devtime }).reviewSources else s
    if s.reg R.tmStatusSource = 2 ∨ s.reg R.tmStatusSource = 4 then s.followSource else s)

/-- REF_EDGE_LOSS (R205): no edge of REF_IN for 1 µs. -/
def execRefEdgeLoss (s : State) : Out := .next (if s.clockRuns then s.refLost else s)

/-- PPS_IN qualifies (R205); at its first qualification after a full reset DEVTIME is stepped, if no plan has started and no
event port has been enabled (R207). -/
def State.ppsQualifies (s : State) (err : Int) : State :=
  let step := !s.tm.ppsEverQual && !s.tm.noStep
  let n := ((1000000000 - err) % 1000000000).toNat
  let s := if step then
      ((s.stepDevtime n).setReg R.tmStatusAligned 1).modTm fun t => { t with ppsLast := t.ppsLast.map (· + n) }
    else s
  ((s.setReg R.tmStatusPpsQ 1).modTm fun t => { t with ppsEverQual := true, ppsQualAt := s.devtime }).reviewSources

/-- The phase error of an edge takes effect (R206, R220): outside a switch the active source removes it; during SLEW the
remaining time is computed again from it. -/
def State.ppsPhase (s : State) (err : Int) : State :=
  match s.tm.sw with
  | none => if hasPhase (s.reg R.tmStatusSource) && s.flag R.tmStatusPpsQ then s.setPhase err else s
  | some w => if s.reg R.tmStatusSwitch = 2 && hasPhase w.target then s.noteApplied.slewWith err else s

/-- PPS_EDGE (R205 to R207, R220): the edge is captured, counted for qualification and its phase error used; highOk says
that the pulse is high for at least 1 µs. The rate of the reference over the interval is the mean CORR that acted in it less
what DEVTIME ran ahead. DEDUCED (notes/assumptions/39.md). -/
def execPpsEdge (highOk : Bool) (s : State) : Out :=
  .next (if !s.clockRuns then s
  else
    let now := s.devtime
    let err := phaseError now
    let s := ((s.setReg R.tmPpsCapLoNs now).setReg R.tmPpsCapHiNs (now / 2 ^ 32)).setRegS R.tmPhaseErr err
    let d : Int := match s.tm.ppsLast with | some t => (now : Int) - t | none => 0
    let good := decide (999900000 ≤ d) && decide (d ≤ 1000100000)
    let acted := if s.tm.corrN = 0 then s.corr else openDiv 206 s.tm.corrSum s.tm.corrN
    let rate := acted - (d - 1000000000)
    let lost := s.tm.ppsLast.isSome && !good
    let s := if lost then s.ppsLost else s
    let run := if !highOk then 0 else if good then min 3 (s.tm.ppsGood + 1) else 1
    let s := s.modTm fun t =>
      { t with ppsLast := some now, ppsGood := run, corrSum := 0, corrN := 0,
               ppsRates := if good then (t.ppsRates ++ [rate]).drop (t.ppsRates.length - 15) else t.ppsRates }
    let first := decide (run = 3) && !(s.flag R.tmStatusPpsQ)
    let s := if first then s.ppsQualifies err else s
    let s := s.arm .ppsLost 1100000000
    let s := if s.reg R.tmStatusSource = 3 then s.followSource else s
    s.ppsPhase (phaseError s.devtime))

/-- PPS_TIMEOUT (R205): no pulse within 1.1 s of the previous one. -/
def execPpsTimeout (s : State) : Out :=
  .next (if s.due .ppsLost then ((s.disarm .ppsLost).modTm fun t => { t with ppsLast := none }).ppsLost else s)

/-- UPWARD_HOLD_EXPIRE (R208): the best source that is better than the active one and has stayed qualified for 10 s is
announced. -/
def execUpwardHoldExpire (s : State) : Out :=
  .next (if s.clockRuns && s.tm.sw.isNone then
    match ([4, 3, 2] : List Nat).find? fun q =>
      decide (s.reg R.tmStatusSource < q) && s.sourceOk q && decide (s.sourceSince q + 10000000000 ≤ s.devtime) with
    | some q => s.announceTo false q
    | none => s
  else s)

/-- ANNOUNCE_END (R209): SLEW begins; CORR moves to the target's frequency, and the target's phase error is removed. -/
def execAnnounceEnd (s : State) : Out :=
  .next (if s.due .announce then
    match s.tm.sw with
    | none => s.disarm .announce
    | some w =>
      let s := (s.disarm .announce).noteApplied
      let s := (s.modTm fun t => { t with sw := t.sw.map fun w => { w with began := s.devtime } }).setReg R.tmStatusSwitch 2
      (s.setFreq (s.sourceFreq w.target)).slewWith (s.regS R.tmPhaseErr)
  else s)

/-- SLEW_END (R209, R224): COMMIT. -/
def execSlewEnd (s : State) : Out :=
  .next (if s.due .slew then
    match s.tm.sw with
    | none => s.disarm .slew
    | some w => ((s.makeActive w.target).bump R.tmSwitchesCommits).raise 0x500020 0 0 4
  else s)

/-- REVERSING_END (R210, R224): the best source becomes active without ANNOUNCE where the active one was lost; after a
cancelled upward switch the active source stays, unless it was lost meanwhile. DEDUCED (notes/assumptions/39.md). -/
def execReversingEnd (s : State) : Out :=
  .next (if s.due .reverse then
    match s.tm.sw with
    | none => s.disarm .reverse
    | some w =>
      let s := s.countCancel
      if w.down then s.makeActive s.bestSource
      else (s.makeActive (s.reg R.tmStatusSource)).reviewSources
  else s)

/-- HOLD_AGED (R211). -/
def execHoldAged (s : State) : Out :=
  .next (if s.due .holdAge then (s.disarm .holdAge).setReg R.tmStatusHoldAged 1 else s)

/-! ## Camera offsets (R213 to R216) -/

/-- Change the offset learning of camera n. -/
def State.modCam (s : State) (n : Nat) (f : CamState → CamState) : State := s.modTm fun t => { t with cams := t.cams.modify n f }

/-- The offset learning of camera n. -/
def State.cam (s : State) (n : Nat) : CamState := s.tm.cams.getD n {}

/-- The ports in LEARN mode (R214). -/
def State.learnPorts (s : State) : List Nat := (List.range s.member.ports).filter fun n => s.reg R.tmCamCfgMode n == 1

/-- CAM_SYNC_PULSE (R213, R214): within the first 10 µs of a whole second of DEVTIME, once for each, CAM_SYNC rises for
10 µs, and a latch read of each LEARN port is due within 500 ms. -/
def execCamSyncPulse (s : State) : Out :=
  .next (let k := s.devtime / 1000000000
    if s.clockRuns && s.inRun && s.flag R.tmCtrlSyncEn && decide (s.devtime % 1000000000 < 10000) && s.tm.lastPulse != some k then
      let s := (s.modPins fun p => { p with camSync := .high }).modTm fun t => { t with lastPulse := some k }
      let s := s.arm .camSync (10000 - s.devtime % 1000000000)
      s.learnPorts.foldl (fun s n => (s.modCam n fun c => { c with pulse := k, waiting := true }).arm (.camLatch n) 500000000) s
    else s)

/-- OFFSET of camera n in ns (R214). -/
def State.camBase (s : State) (n : Nat) : Int := toSigned 64 (s.reg R.tmCamOfsLoOffset n + 2 ^ 32 * s.reg R.tmCamOfsHiOffset n)

/-- DRIFT (R214): the mean slope over the last 16 accepted samples, in ppb. DESIGN CHOICE (notes/assumptions/40.md). -/
def meanSlope : List (Nat × Int) → Option Int
  | [] => none
  | [_] => none
  | a :: t =>
    match t.getLast? with
    | none => none
    | some b => if a.1 < b.1 then some (openDiv 214 ((b.2 - a.2) * 1000000000) ((b.1 - a.1 : Nat) : Int)) else none

/-- A sample of camera n at a pulse is accepted (R214, R215). DESIGN CHOICE (notes/assumptions/40.md). -/
def State.acceptSample (s : State) (n at_ : Nat) (v : Int) : State :=
  let l := (s.cam n).samples ++ [(at_, v)]
  let l := l.drop (l.length - 16)
  let s := s.modCam n fun c => { c with fresh := min 2 (c.fresh + 1), lastAt := at_, samples := l, cands := [] }
  let o := ofSigned 64 v
  let s := ((s.setReg R.tmCamOfsLoOffset o n).setReg R.tmCamOfsHiOffset (o / 2 ^ 32) n).setReg R.tmCamStatLost 0 n
  match meanSlope l with
  | some d => s.setRegS R.tmCamDriftPpb d n
  | none => s

/-- Three samples lie within a tolerance of one another (R214). DESIGN CHOICE (notes/assumptions/40.md). -/
def closeRun (tol : Int) : List Int → Bool
  | [a, b, c] => decide ((a - b).natAbs ≤ tol) && decide ((a - c).natAbs ≤ tol) && decide ((b - c).natAbs ≤ tol)
  | _ => false

/-- CAM_LATCH_READ_DONE (R214, R215): the 41-bit latch of camera n at the last pulse. DESIGN CHOICE (notes/assumptions/40.md). -/
def execCamLatchReadDone (n : Nat) (latch : BitVec 48) (s : State) : Out :=
  .next (let c := s.cam n
    if s.clockRuns && c.waiting && s.reg R.tmCamCfgMode n == 1 && !(s.due (.camLatch n)) then
      let at_ := c.pulse * 1000000000
      let v : Int := (at_ : Int) - (latch.toNat % 2 ^ 41 : Nat) * 1000 + s.regS R.tmPinDlyNs
      let s := (s.disarm (.camLatch n)).modCam n fun c => { c with waiting := false, missRun := 0 }
      let p := s.camBase n + openDiv 214 (s.regS R.tmCamDriftPpb n * ((at_ : Int) - c.lastAt)) 1000000000
      let tol : Int := 1000 * s.reg R.tmCtrlOfsTol
      if c.fresh < 2 ∨ (v - p).natAbs ≤ tol then s.acceptSample n at_ v
      else
        let l := c.cands ++ [v]
        let l := l.drop (l.length - 3)
        let s := s.bump R.tmCamStatJumps n
        if closeRun tol l then s.acceptSample n at_ v else s.modCam n fun c => { c with cands := l }
    else s)

/-- CAM_LATCH_TIMEOUT (R215): a read that is not acknowledged, or not finished within 500 ms, is a MISS; LOST after 3. -/
def execCamLatchTimeout (n : Nat) (nack : Bool) (s : State) : Out :=
  .next (let c := s.cam n
    if s.clockRuns && c.waiting && (nack || s.due (.camLatch n)) then
      let s := (s.disarm (.camLatch n)).modCam n fun c => { c with waiting := false, missRun := c.missRun + 1 }
      let s := s.bump R.tmCamStatMisses n
      if 3 ≤ (s.cam n).missRun then s.setReg R.tmCamStatLost 1 n else s
    else s)

/-- MODE of camera n is written (R214, R216): sample acceptance starts afresh. DESIGN CHOICE (notes/assumptions/40.md). -/
def State.writeCamMode (s : State) (n mode : Nat) : State :=
  if s.member.ports ≤ n then s
  else
    let t := s.devtime
    ((s.setReg R.tmCamCfgMode mode n).disarm (.camLatch n)).modCam n fun _ => { lastAt := t }

/-- CAM_MODE_WRITE (R214). -/
def execCamModeWrite (n : Nat) (mode : BitVec 2) (s : State) : Out := .next (if s.alive then s.writeCamMode n mode.toNat else s)

/-- XTAL_FAIL (R223): no crystal edge for 2 µs; DEVTIME and every timer counted in it stop.
DESIGN CHOICE (notes/assumptions/16.md). -/
def execXtalFail (s : State) : Out :=
  .next (if s.clockRuns then (s.raise 0x50000C 15 3 4).setReg R.tmStatusXtalFail 1 else s)

end Sys2Proof.Machine
end

