-- ==== Sys2Proof/Machine/Spi.lean ====
section
/-! DEFINITION. The SPI target (R91, R92, R437 to R439, R450). -/
namespace Sys2Proof.Machine

/-! ## Writes of fields that have a command of their own (R7, R437, R450) -/

/-- The state that a command of this block leaves. -/
def Out.after (o : Out) (s : State) : State :=
  match o with
  | .next t => t
  | _ => s

/-- Fields of KP, PC and PW (R52, R60, R71, R90, R92, R117). DESIGN CHOICE (notes/assumptions/15.md). -/
def State.ownKeeper (s : State) (o v : Nat) : State :=
  if o = 0x10 then (if bitAt v 8 then s.writeGo .spi else s)
  else if o = 0x14 then
    if s.bootIface .spi then
      (((s.writeAllow (bitAt v 0)).modStore fun t => { t with preferB := bitAt v 1 })).writeBankClr (bitAt v 2) (bitAt v 3)
    else s
  else if o = 0x100008 then
    let s := if bitAt v 0 then s else (execGuardEnClear s).after s
    if bitAt v 1 then (execPeakClr s).after s else s
  else if o = 0x20000C then s.domRequest (bits v 9 1) .spi
  else if o = 0x200020 then (if bitAt v 31 then (execPowerPeakClr s).after s else s)
  else s

/-- Fields of EI, TM, QM and CV (R148, R202, R225, R253). DESIGN CHOICE (notes/assumptions/15.md). -/
def State.ownMiddle (s : State) (o v : Nat) : State :=
  if 0x400000 ≤ o ∧ o < 0x404000 ∧ o % 0x1000 = 0 then (execPortEn (o / 0x1000 % 4) (bitAt v 0) s).after s
  else if 0x400000 ≤ o ∧ o < 0x404000 ∧ o % 0x1000 = 8 then
    let n := o / 0x1000 % 4
    let s := if bitAt v 2 then (execHotClr n s).after s else s
    let s := if bitAt v 1 then (execCntClr n s).after s else s
    if bitAt v 0 then (execCommit n s).after s else s
  else if 0x500040 ≤ o ∧ o < 0x500080 ∧ o % 16 = 0 then s.writeCamMode ((o - 0x500040) / 16) (bits v 1 0)
  else if o = 0x600004 then (if bitAt v 31 then (execPoolLowClr s).after s else s)
  else if o = 0x800004 then
    let s := if bitAt v 0 then (execLoadCanvas s).after s else s
    let s := if bitAt v 1 then (execHangRequest s).after s else s
    if bitAt v 2 then (execUnstage s).after s else s
  else s

/-- Fields of XR, FU, RD and SL (R331, R367, R386, R399, R423). DESIGN CHOICE (notes/assumptions/15.md). -/
def State.ownUpper (s : State) (o v : Nat) : State :=
  if 0xC01004 ≤ o ∧ o < 0xC01404 ∧ o % 16 = 4 then s.writeBias ((o - 0xC01004) / 16) v
  else if o = 0xD00034 then (execQuarClr (BitVec.ofNat 6 (bits v 29 24)) s).after s
  else if o = 0xE00000 then (execVideo (bitAt v 0) s).after s
  else if o = 0xE00060 then
    if bitAt v 30 then
      let t := bits v 5 0
      if t = 0x05 then (execDcsShortWrite s).after s
      else if t = 0x15 then (execDcsShortWriteParam s).after s
      else if t = 0x39 then (execDcsLongWrite s).after s
      else s
    else s
  else if o = 0xF01000 ∨ o = 0xF02000 then
    let side := o / 0x1000 % 16 - 1
    let s := (execSpanLinkEnable side (bitAt v 0) s).after s
    if bitAt v 1 then (execRetrain side s).after s else s
  else s

/-- Fields of LG and HI (R426, R454, R473, R477). DESIGN CHOICE (notes/assumptions/15.md). -/
def State.ownHost (s : State) (o v : Nat) : State :=
  if o = 0xF8000C then (execLgFaultAck (BitVec.ofNat 8 (bits v 7 0)) s).after s
  else if o = 0xFC0000 then s.writeRings (bitAt v 0)
  else if o = 0xFC001C then s.writePi v
  else s

/-- A word written over SPI: plain fields by their access codes, then the fields with a command of their own (R7, R437, R438,
R450). DESIGN CHOICE (notes/assumptions/15.md). -/
def State.spiWord (s : State) (o v : Nat) : State :=
  if !(s.writeReaches o .spi) then s
  else
    let s := (s.writeWord o v).afterWrite o v
    if o < 0x400000 then s.ownKeeper o v
    else if o < 0xC00000 then s.ownMiddle o v
    else if o < 0xF80000 then s.ownUpper o v
    else s.ownHost o v

/-! ## Frames (R437, R438) -/

/-- A frame that the target serves only with PD01 on (R438). -/
def State.spiFull (s : State) : Bool := s.alive && s.domOn 1

/-- Bytes appear on SPI_SDO (R437). -/
def State.spiSend (s : State) (l : List Byte) : State := s.modHi fun h => { h with spiOut := l }

/-- SPI_STATUS (R437, R438). -/
def execSpiStatus (s : State) : Out :=
  .next (if s.alive then s.spiSend [BitVec.ofNat 8 s.spiStatusByte] else s)

/-- The side effect of reading a word: a low word latches its upper word (R222, R483). -/
def State.latchRead (s : State) (o : Nat) : State :=
  if o = 0x500000 then (execDevtimeRead s).after s
  else if o = 0x90002C then (execWindowsRead s).after s
  else s

/-- A word read over SPI; SDO stays low where the target does not serve the offset (R438). -/
def State.spiReadWord (s : State) (o : Nat) : List Byte × State :=
  if s.spiServes o && o % 4 == 0 then
    let s := s.latchRead o
    (leBytes 4 (s.readWord o), s)
  else (leBytes 4 0, s)

/-- SPI_READ (R437, R438): words from an offset on, the offset in 24 bits. DESIGN CHOICE (notes/assumptions/64.md). -/
def execSpiRead (off words : Nat) (s : State) : Out :=
  .next (if !s.alive then s
  else
    let r := (List.range words).foldl (fun (x : List Byte × State) i =>
      let y := x.2.spiReadWord ((off + 4 * i) % 2 ^ 24)
      (x.1 ++ y.1, y.2)) ([], s)
    r.2.spiSend r.1)

/-- SPI_WRITE (R437, R438, R450): words to an offset on. DESIGN CHOICE (notes/assumptions/15.md). -/
def execSpiWrite (off : Nat) (words : List Word) (s : State) : Out :=
  .next (words.zipIdx.foldl (fun (s : State) e => s.spiWord ((off + 4 * e.2) % 2 ^ 24) e.1.toNat) s)

/-- External memory answers: PD06 is on and the bytes lie inside the installed capacity and the first 4 GiB (R11, R437). -/
def State.spiMem (s : State) (a n : Nat) : Bool := s.domOn 6 && s.extOk a n && decide (a + n ≤ 2 ^ 32)

/-- SPI_MREAD (R437, R438). Bytes that no memory answers are open. DESIGN CHOICE (notes/assumptions/64.md). -/
def execSpiMread (addr len : Nat) (s : State) : Out :=
  .next (if !s.spiFull then s
    else if s.spiMem addr len then s.spiSend (s.ext.readBytes addr len)
    else (s.spiSend ((List.range len).map fun i => Config.freeByte s.freeCtr (addr + i))).tick)

/-- SPI_MWRITE (R91, R92, R437, R438): staging; a multiple of 4 bytes. DESIGN CHOICE (notes/assumptions/64.md). -/
def execSpiMwrite (addr : Nat) (data : List Byte) (s : State) : Out :=
  .next (if !s.spiFull then s
    else if data.length % 4 ≠ 0 || !(s.spiMem addr data.length) then s
    else if decide (addr < 0x4000000) && (!(s.bootIface .spi) || s.keeper.mode == .booting) then s
    else s.modExt fun m => m.writeBytes addr data)

/-- SPI_CMD (R428, R429, R437): a whole entry with its CRC is queued; a short frame or a bad CRC shows CRC_ERR, and a full queue
shows in CMD_FULL; neither makes an item. DESIGN CHOICE (notes/assumptions/64.md). -/
def execSpiCmd (entry : List Byte) (crc : BitVec 16) (s : State) : Out :=
  .next (if !s.spiFull then s
    else if entry.length ≠ 64 ∨ crc16 entry ≠ crc.toNat then (s.modHi fun h => { h with spiCrc := true }).bump R.hiCntCount 7
    else
      let s := s.modHi fun h => { h with spiCrc := false }
      if s.spiQueueFull || s.flag R.lgStatusQuiescing then s else s.admitCommand 9 entry)

/-- SPI_RESP (R431, R437): the oldest response and its CRC-16; all 18 bytes remove it. With no response the bytes are open.
DESIGN CHOICE (notes/assumptions/64.md). -/
def execSpiResp (bytesRead : Nat) (s : State) : Out :=
  .next (if !s.spiFull then s
    else
      match s.hi.spiResp with
      | [] => (s.spiSend ((List.range (min bytesRead 18)).map fun i => Config.freeByte s.freeCtr i)).tick
      | r :: t =>
        let c := crc16 r
        let s := s.spiSend ((r ++ [BitVec.ofNat 8 (c / 256), BitVec.ofNat 8 c]).take bytesRead)
        if 18 ≤ bytesRead then
          let s := s.modHi fun h => { h with spiResp := t }
          s.flushSpi s.hi.spiWait.length
        else s)

end Sys2Proof.Machine
end

