-- ==== Sys2Proof/Machine/Spiking.lean ====
section
/-! DEFINITION. The commands of the spiking fabric and of the keyed mesh stream (R254 to R282). -/
namespace Sys2Proof.Machine

/-! ## Keyed queues (R265 to R267) -/

/-- The route key of a cell that leaves a keyed queue (R265). -/
def keyedKey (q : Nat) (data : Cell64) (tag : Nat) : Nat :=
  let low := if cellType data ≤ 1 ∧ tag = 0 then bits data.toNat 35 25 * 2 ^ 11 + bits data.toNat 23 13 else 0x3FFFFF
  q * 2 ^ 22 + low

/-- A packet of keyed queue q is on its way or waits at a local port. DESIGN CHOICE (notes/assumptions/44.md). -/
def State.keyedOut (s : State) (q : Nat) : Bool := (s.mesh.packets ++ s.mesh.atLocal).any (·.qid == q)

/-- KEYED_POP (R231, R237, R239, R250, R265, R266): the palette pops a keyed queue and sends the cell on VC1, a gap marker and a
poisoned cell too; an EOP cell waits for every earlier cell of its item.
DESIGN CHOICE (notes/assumptions/9.md). DESIGN CHOICE (notes/assumptions/44.md). -/
def execKeyedPop (qid : Nat) (upset : Upset) (s : State) : Out :=
  .next (let head := (s.queue qid).cells.head?
    let eopWaits := match head with | some c => c.eop && s.keyedOut qid | none => false
    if eopWaits then s
    else
      match s.popFor 5 0x7F qid false upset with
      | (none, s) => s
      | (some (d, got), s) =>
        if got = .discard then s
        else
          let at_ := Config.keyedRouter qid % s.member.tiles
          let s := s.inject { item := d.item, key := keyedKey qid d.data d.tag, vc := 1, epoch := 0, dest := 0, tile := at_,
                              cells := [(d.data, d.tag)], qid := qid, eop := d.eop, origin := at_ }
          if d.eop then s.modQueue qid fun x => { x with eopOut := x.eopOut ++ [(d.item, d.tag == 0 && lossyCell d.data)] } else s)

/-- KEYED_EOP_ACCEPTED (R266, R267): every copy of the EOP cell has been taken, and the palette ends the item.
DESIGN CHOICE (notes/assumptions/44.md). -/
def execKeyedEopAccepted (qid : Nat) (s : State) : Out :=
  .next (match (s.queue qid).eopOut with
    | [] => s
    | (item, lossy) :: t =>
      if (s.mesh.packets ++ s.mesh.atLocal).any (fun p => p.qid == qid && p.eop) then s
      else (s.modQueue qid fun x => { x with eopOut := t }).endTaken 5 item lossy)

/-! ## Inputs (R261, R263, R267 to R269, R271, R281) -/

/-- A packet carries a spike key (R268). -/
def Packet.isSpike (p : Packet) : Bool := bitAt p.key 31

/-- A packet is a cut marker (R268, R270). -/
def Packet.isCut (p : Packet) : Bool := p.isSpike && p.key % 2 ^ 24 == 0xFFFFFF

/-- The cell that a packet carries. -/
def Packet.cell (p : Packet) : Cell64 := (p.cells.head?.map (·.1)).getD 0

/-- The delivery tag of a packet's cell. -/
def Packet.tag (p : Packet) : Nat := (p.cells.head?.map (·.2)).getD 0

/-- A packet holds an event, corner or spike cell that a tile integrates (R267, R269). -/
def Packet.isData (p : Packet) : Bool :=
  if p.isSpike then !p.isCut else p.tag == 0 && decide (cellType p.cell ≤ 1)

/-- The full time in µs of a packet's cell at tile t (R218, R267): from the epoch markers of its queue, or nearest to now for
a spike. -/
def State.packetTime (s : State) (t : Nat) (p : Packet) : Nat :=
  let low := bits p.cell.toNat 63 40
  if p.isSpike then s.nearTime low
  else match alGet s.sf.epochs (t, p.qid) with
    | some e => e * 2 ^ 24 + low
    | none => s.nearTime low

/-- The (index, nibble) targets of population q that map entry k of tile t gives a packet, as far as the tile holds them (R269).
DESIGN CHOICE (notes/assumptions/42.md). -/
def State.targetsOf (s : State) (t k : Nat) (p : Packet) (q : Nat) : List (Nat × Nat) :=
  let c := p.cell
  let pol := decide (cellType c ≤ 1) && bitAt c.toNat 37
  (if s.flag R.sfTMapModeMode t k then s.kernelTargets t k q (bits c.toNat 23 12) (bits c.toNat 35 24) (ofFlag pol)
   else s.rowTargets t k p.key).filter fun e => s.indexAddrs t q e.1 ≠ []

/-- The enabled populations of tile t that a data packet has not reached, with its targets there (R261, R269); none where no map
entry takes it. -/
def State.inputPops (s : State) (t : Nat) (p : Packet) : Option (List (Nat × List (Nat × Nat))) :=
  match s.mapEntry t p.key with
  | none => none
  | some k =>
    if s.flag R.sfTMapModeMode t k && decide (2 ≤ cellType p.cell) then none
    else some (((s.tilePops t).filter fun q => s.flag R.sfPopCfgEn q && !(p.served.contains q)).map fun q => (q, s.targetsOf t k p q))

/-- The time of a data packet lies behind the window of the open step of population q, so that its input there waits in the
local input of tile t (R261, R262). -/
def State.inputEarly (s : State) (t : Nat) (p : Packet) (q : Nat) : Bool :=
  s.paced q && decide (s.stepBase q (s.openStep q t) + s.reg R.sfPopStepStepUs q ≤ s.packetTime t p)

/-- Tile t is the export tile of a spike that it has not pushed yet (R271). -/
def State.exportDue (s : State) (t : Nat) (p : Packet) : Bool :=
  let q := bits p.key 30 24
  p.isSpike && !p.isCut && s.reg R.sfPopCfgExportTile q == t && s.flag R.sfPopCfgExport q && p.item != 0 && !(p.served.contains 64)

/-- A data packet can be acted on now: its cell is to be exported, it reaches a population, or it reaches none and leaves. -/
def State.inputReady (s : State) (t : Nat) (p : Packet) : Bool :=
  s.exportDue t p ||
  match s.inputPops t p with
  | none => true
  | some l =>
    let l := l.filter fun e => !e.2.isEmpty
    l.isEmpty || l.any fun e => !(s.inputEarly t p e.1)

/-- A packet is held at the local port of tile t: new-epoch work while the tile's role is changing (R32), and at the export tile a
spike of the new item until the old item has its EOP cell (R270, R277). DESIGN CHOICE (notes/assumptions/43.md). -/
def State.inputHeld (s : State) (t : Nat) (p : Packet) : Bool :=
  (s.tileWaits t && p.epoch == s.reg R.cvStatusEpoch) ||
  (s.exportDue t p && match (s.pop (bits p.key 30 24)).cut with | some c => c.1 == p.item | none => false)

/-- Packets that came one behind another: those of one queue, and those of one population from one tile (R266, R270). -/
def Packet.lane (p : Packet) : Nat × Nat × Nat := if p.isSpike then (512, bits p.key 30 24, p.origin) else (p.qid, 0, 0)

/-- The position of the packet that tile t takes next: the first VC1 packet at its local port that can be acted on. `waits` holds
the lanes with data that waits for a step, which no control cell passes, `held` the lanes that are held.
DESIGN CHOICE (notes/assumptions/43.md). -/
def State.nextInput (s : State) (t : Nat) : List Packet → Nat → List (Nat × Nat × Nat) → List (Nat × Nat × Nat) → Option Nat
  | [], _, _, _ => none
  | p :: l, i, waits, held =>
    if p.tile ≠ t ∨ p.vc ≠ 1 ∨ held.contains p.lane = true then s.nextInput t l (i + 1) waits held
    else if s.inputHeld t p then s.nextInput t l (i + 1) waits (p.lane :: held)
    else if p.isData then
      if s.inputReady t p then some i else s.nextInput t l (i + 1) (p.lane :: waits) held
    else if !p.isCut && waits.contains p.lane then s.nextInput t l (i + 1) waits (p.lane :: held)
    else some i

/-- The export tile writes an epoch marker into OUT_QID where one is due (R217, R270). -/
def State.popMark (s : State) (p t epoch : Nat) : State :=
  s.epochMark (0x20 + t) (s.reg R.sfPopCfgOutQid p) (s.reg R.sfPopCfgPort p) epoch (s.popItem p)

/-- The export tile pushes one output cell of the population (R271, R234). -/
def State.exportCell (s : State) (p t : Nat) (item : ItemId) (c : Cell64) : State :=
  let s := s.popMark p t (epochOf (s.nearTime (bits c.toNat 63 40)))
  let q := s.reg R.sfPopCfgOutQid p
  let ok := decide (s.pushRes (0x20 + t) q false false = .landed)
  let s := s.pushItem (0x20 + t) q c item false false 7 0
  s.modPop p fun x => { x with sent := x.sent + ofFlag ok, lossy := x.lossy || !ok }

/-- A data packet reaches the neurons of tile t, in every population whose open step it does not lie behind (R259, R261, R263,
R269). Answers what of it waits for a later step. DESIGN CHOICE (notes/assumptions/42.md). -/
def State.integrate (s : State) (t : Nat) (p : Packet) (fails : List Nat) : Option Packet × State :=
  match s.inputPops t p with
  | none => (none, s.bump R.sfTCntCount t 3)
  | some l =>
    let us := s.packetTime t p
    let pol := decide (cellType p.cell ≤ 1) && bitAt p.cell.toNat 37
    let (later, now) := l.partition fun e => !e.2.isEmpty && s.inputEarly t p e.1
    let r := now.foldl (fun (r : Nat × State) e =>
      let q := e.1
      let s := r.2
      let late := s.paced q && !e.2.isEmpty && decide (us < s.stepBase q (s.openStep q t))
      let s := if late then s.bump R.sfPopLateCount q else s
      s.inputTargets q t us pol fails r.1 e.2) (0, s)
    (if later.isEmpty then none else some { p with served := p.served ++ now.map (·.1) }, r.2)

/-- A control cell at tile t (R218, R267). DESIGN CHOICE (notes/assumptions/44.md). -/
def State.controlCell (s : State) (t : Nat) (p : Packet) : State :=
  if p.tag = 2 then s.bump R.sfTCntCount t 7
  else if p.tag = 0 ∧ cellType p.cell = 3 then
    let e := bits p.cell.toNat 35 12
    s.modSf fun x => { x with epochs := alPut x.epochs (t, p.qid) e }
  else if p.tag = 0 ∧ cellType p.cell = 2 then s.bump R.sfTCntCount t 7
  else s

/-- Tile t acts on a packet of its local port (R267 to R271). Answers what of it stays there. -/
def State.takeInput (s : State) (t : Nat) (p : Packet) (fails : List Nat) : Option Packet × State :=
  let q := bits p.key 30 24
  if p.isCut then
    (none, if s.reg R.sfPopCfgExportTile q = t then s.modPop q fun x => { x with cut := x.cut.map fun c => (c.1, c.2.filter (· ≠ p.origin)) }
      else s)
  else
    let due := s.exportDue t p
    let s := if due then s.exportCell q t p.item p.cell else s
    let p := if due then { p with served := p.served ++ [64] } else p
    if p.isData then s.integrate t p fails else (none, s.controlCell t p)

/-- SPIKE_TILE_INPUT (R32, R218, R257 to R259, R261, R263, R267 to R269, R271 to R273, R276, R277, R279, R281): tile t acts on the
next packet of its local port; `fails` holds the numbers of its updates that fail parity. -/
def execSpikeTileInput (t : Nat) (fails : List Nat) (s : State) : Out :=
  .next (if s.role t ≠ 1 || !(s.domOn (10 + s.quadOf t)) then s
  else
    match s.nextInput t s.mesh.atLocal 0 [] [] with
    | none => s
    | some i =>
      match s.mesh.atLocal[i]? with
      | none => s
      | some p =>
        let r := (s.wakeTile t).takeInput t p fails
        (r.2.modMesh fun m => { m with atLocal := match r.1 with
          | some x => m.atLocal.set i x
          | none => m.atLocal.eraseIdx i }).refreshDrain)

/-! ## Steps, sweeps and sleep (R260, R262, R264, R273) -/

/-- The local input of tile t holds a data cell with a time before the end of the open step of population p (R262). -/
def State.inputPending (s : State) (p t : Nat) : Bool :=
  let til := s.stepBase p (s.openStep p t) + s.reg R.sfPopStepStepUs p
  s.mesh.atLocal.any fun x => x.tile == t && x.vc == 1 && x.isData && !(x.served.contains p) && decide (s.packetTime t x < til)

/-- PACED_STEP_CLOSE (R257, R258, R262, R264, R268, R272, R281): tile t closes its open step of population p at or after N_k
when no input of it waits, or at H_k. -/
def execPacedStepClose (p t : Nat) (fails : List Nat) (s : State) : Out :=
  .next (if s.role t = 1 && s.domOn (10 + s.quadOf t) && s.paced p && s.holdsPop t p && s.nominalClose p t then
    let pending := s.inputPending p t
    if pending && !(s.hardClose p t) then s
    else (s.wakeTile t).closeStep p t pending fails
  else s)

/-- A neuron's T_LAST is more than 2^26 µs old (R260). -/
def State.neuronOld (s : State) (t a : Nat) : Bool :=
  let d := elapsed s.us (s.neuronAt t a).last
  !d.2 && decide (2 ^ 26 < d.1)

/-- NEURON_SWEEP (R260): steps 1 and 2 of R259 for every neuron of tile t that is old. DESIGN CHOICE (notes/assumptions/43.md). -/
def execNeuronSweep (t : Nat) (s : State) : Out :=
  .next (if s.role t = 1 && s.domOn (10 + s.quadOf t) then
    (s.tilePops t).foldl (fun (s : State) p => (s.popNeurons t p).foldl (fun (s : State) e =>
      if s.neuronOld t e.2 then s.putNeuron t e.2 (s.advance t p s.us (s.neuronAt t e.2)).1 else s) s) s
  else s)

/-- TILE_SLEEP (R273, R280): tile t has been idle for 2 µs at pace 1.00, and no close or sweep is due.
DESIGN CHOICE (notes/assumptions/43.md). -/
def execTileSleep (t : Nat) (s : State) : Out :=
  .next (let input := s.mesh.atLocal.any fun p => p.tile == t && p.vc == 1
    let work := (s.tilePops t).any fun p =>
      (s.paced p && s.nominalClose p t) || (s.popNeurons t p).any fun e => s.neuronOld t e.2
    if s.due (.tileSleep t) && !input && !work then (s.disarm (.tileSleep t)).setReg R.sfTStatAwake 0 t else s)

/-! ## Output items (R270, R271) -/

/-- A class-1 operation of KIND on a SPIKE group, with its population (R270), when the role of none of its tiles is changing (R32). -/
def State.spikeOp (s : State) (k kind : Nat) : Option (SlotOp × Nat) :=
  match s.opAt k 1 with
  | some o =>
    let g := o.opnd 29 24
    let role := s.ext.readNat (o.groups + 16 * g + 8) 1 % 4
    let p := fieldAt (s.opData o (16 * o.opnd 53 34) 16) 0 1 % 64
    if role = 1 ∧ o.opnd 33 30 = kind ∧ o.begun = false ∧ (s.popTiles p).any s.tileWaits = false then some (o, p) else none
  | none => none

/-- The SPIKE tiles of population p (R16, R270). -/
def State.spikeTiles (s : State) (p : Nat) : List Nat := (s.popTiles p).filter fun t => s.role t = 1

/-- CUT (R270, R277, R282): every tile of POP sends a cut marker toward the export tile; a tile whose domain is off or failed
sends none, and its marker stays awaited. DESIGN CHOICE (notes/assumptions/43.md). -/
def execCut (k : Nat) (s : State) : Out :=
  .next (match s.spikeOp k 0 with
    | none => s
    | some (o, p) =>
      if (s.pop p).cut.isSome then s
      else
        let tiles := s.spikeTiles p
        let s := s.modOp k fun x => { x with begun := true }
        let s := s.modPop p fun x => { x with cut := some (o.item, tiles) }
        (tiles.filter fun t => s.domOn (10 + s.quadOf t)).foldl (fun (s : State) t =>
          s.inject { item := s.popItem p, key := 2 ^ 31 + p * 2 ^ 24 + 0xFFFFFF, vc := 1, epoch := 0, dest := 0, tile := t,
                     cells := [], origin := t }) s)

/-- The CUT operation of population p that is in progress. DESIGN CHOICE (notes/assumptions/43.md). -/
def State.cutOp (s : State) (p : Nat) : Option Nat :=
  (List.range s.pp.ops.length).find? fun k =>
    match s.opAt k 1 with
    | some o => o.begun && o.opnd 33 30 == 0 && s.ext.readNat (o.groups + 16 * o.opnd 29 24 + 8) 1 % 4 == 1 &&
        fieldAt (s.opData o (16 * o.opnd 53 34) 16) 0 1 % 64 == p
    | none => false

/-- CUT_MARKERS_COLLECTED (R217, R234, R239, R270, R271, R281): the export tile has every marker; it pushes a poison cell where
one is due, then the EOP cell of the current item, and the new item becomes current. DESIGN CHOICE (notes/assumptions/43.md). -/
def execCutMarkersCollected (p : Nat) (s : State) : Out :=
  .next (match (s.pop p).cut with
    | some (item, []) =>
      let t := s.reg R.sfPopCfgExportTile p
      let q := s.reg R.sfPopCfgOutQid p
      let old := s.popItem p
      let s := s.popMark p t ((s.markOf (0x20 + t) q).getD (epochOf s.us))
      let s := if (s.pop p).poison then (s.pushItem (0x20 + t) q (poisonCell old) old false false 7 0).markPoisoned old else s
      let s := s.pushItem (0x20 + t) q (eopCell old (s.pop p).sent (s.pop p).lossy) old true false 7 0
      let s := s.modPop p fun x => { x with cut := none, poison := false, sent := 0, lossy := false }
      let s := s.setReg R.sfPopItemId item.toNat p
      match s.cutOp p with
      | some k => s.finishOp k
      | none => s
    | _ => s)

/-- RESET (R270): every neuron of POP is cleared at this time. DESIGN CHOICE (notes/assumptions/43.md). -/
def execResetPop (k : Nat) (s : State) : Out :=
  .next (match s.spikeOp k 1 with
    | none => s
    | some (_, p) =>
      let n : Neuron := { last := s.us % 2 ^ 32 }
      ((s.spikeTiles p).foldl (fun (s : State) t =>
        (s.popNeurons t p).foldl (fun (s : State) e => s.putNeuron t e.2 n) s) s).finishOp k)

/-- SPIKE_COUNT_WINDOW (R274, R278): at a window end the counts are copied to the snapshot in one action. -/
def execSpikeCountWindow (p : Nat) (s : State) : Out :=
  .next (let w := s.us / s.reg R.sfPopWinWinUs p
    if !s.clockRuns || w == (s.pop p).win then s
    else
      let l := ((s.pop p).spikes.filter fun e => e.1 + 1 == w).map (·.2)
      let s := ((s.setReg R.sfPopSnapTotalCount l.length p).setReg R.sfPopSnapSeqSeq w p)
      let s := (List.range 16).foldl (fun (s : State) b => s.setReg R.sfPopBinCount (l.filter (· == b)).length p b) s
      s.modPop p fun x => { x with win := w, spikes := x.spikes.filter fun e => decide (w ≤ e.1) })

end Sys2Proof.Machine
end

