-- ==== Sys2Proof/Machine/Trace.lean ====
section
/-! DEFINITION. The Diqua trace port (R446). -/
namespace Sys2Proof.Machine

/-- A trace packet (R446). -/
def traceBytes (type : Nat) (payload : List Byte) : List Byte :=
  let body := [BitVec.ofNat 8 type, BitVec.ofNat 8 payload.length] ++ payload
  [0xA5] ++ body ++ [BitVec.ofNat 8 (crc8 body)]

/-- The port has placed a byte every 8 ns since its last change (R446, R447). DESIGN CHOICE (notes/assumptions/67.md). -/
def State.drainTrace (s : State) : State :=
  let n := min s.hi.trace.length ((s.devtime - s.hi.traceAt) / 8)
  let now := s.devtime
  s.modHi fun h =>
    { h with traceD := (h.trace.take n).getLastD h.traceD, traceStb := h.traceStb != decide (n % 2 = 1), trace := h.trace.drop n,
             traceAt := if n = h.trace.length then now else h.traceAt + 8 * n }

/-- A packet is buffered behind the LOST packet that is owed, or discarded and counted where 4 KiB do not hold them (R446).
DESIGN CHOICE (notes/assumptions/67.md). -/
def State.putTrace (s : State) (type : Nat) (payload : List Byte) : State :=
  let s := s.drainTrace
  let owed := if s.hi.traceLost = 0 then [] else traceBytes 3 (leBytes 4 s.hi.traceLost)
  let l := owed ++ traceBytes type payload
  if s.hi.trace.length + l.length ≤ 4096 then s.modHi fun h => { h with trace := h.trace ++ l, traceLost := 0 }
  else (s.modHi fun h => { h with traceLost := h.traceLost + 1 }).bump R.hiCntCount 11

/-- The trace port runs (R446, R454). -/
def State.traceOn (s : State) : Bool := s.domOn 1 && s.flag R.hiTraceEn

/-- TRACE_PACKET (R446): the oldest packet that is due is buffered or discarded. DESIGN CHOICE (notes/assumptions/67.md). -/
def execTracePacket (s : State) : Out :=
  .next (match s.hi.traceDue with
    | [] => s
    | (t, p) :: rest =>
      if s.traceOn then (s.modHi fun h => { h with traceDue := rest }).putTrace t p else s)

/-- TRACE_TIME (R446): within the first 10 µs of a whole second of DEVTIME, once for each.
DESIGN CHOICE (notes/assumptions/67.md). -/
def execTraceTime (s : State) : Out :=
  let k := s.devtime / 1000000000
  .next (if s.traceOn && s.clockRuns && decide (0 < k) && k != s.hi.traceSec && decide (s.devtime % 1000000000 < 10000) then
    (s.modHi fun h => { h with traceSec := k }).putTrace 4 (leBytes 8 s.devtime)
  else s)

end Sys2Proof.Machine
end

