-- ==== Sys2Proof/Machine/Dispatch.lean ====
section
/-! DEFINITION. The meaning of every command: one arm for each constructor of Instr. -/
namespace Sys2Proof.Machine

def exec (i : Instr) (s : State) : Host.Outcome State Fault Refusal :=
  match i with
  | .registerWrite off value via => Sys2Proof.Machine.execRegisterWrite off value via s
  | .paceMonitorInterval readings vsense => Sys2Proof.Machine.execPaceMonitorInterval readings vsense s
  | .monitorFailed n => Sys2Proof.Machine.execMonitorFailed n s
  | .guardEnClear => Sys2Proof.Machine.execGuardEnClear s
  | .peakClr => Sys2Proof.Machine.execPeakClr s
  | .resetNAssert => Sys2Proof.Machine.execResetNAssert s
  | .resetNRelease bootSel memOk => Sys2Proof.Machine.execResetNRelease bootSel memOk s
  | .powerOnResetRelease bootSel memOk => Sys2Proof.Machine.execPowerOnResetRelease bootSel memOk s
  | .railBrownout rail => Sys2Proof.Machine.execRailBrownout rail s
  | .brownoutHoldCheck railsOk memOk => Sys2Proof.Machine.execBrownoutHoldCheck railsOk memOk s
  | .keeperWd bootSel memOk => Sys2Proof.Machine.execKeeperWd bootSel memOk s
  | .tempSample tj => Sys2Proof.Machine.execTempSample tj s
  | .thermalCooled tj => Sys2Proof.Machine.execThermalCooled tj s
  | .domainRequest value via => Sys2Proof.Machine.execDomainRequest value via s
  | .domainWakeDone d => Sys2Proof.Machine.execDomainWakeDone d s
  | .domainSwitchFail d => Sys2Proof.Machine.execDomainSwitchFail d s
  | .powerSample mw => Sys2Proof.Machine.execPowerSample mw s
  | .powerPeakClr => Sys2Proof.Machine.execPowerPeakClr s
  | .heartbeatEdge => Sys2Proof.Machine.execHeartbeatEdge s
  | .perstN asserted => Sys2Proof.Machine.execPerstN asserted s
  | .bootGo via => Sys2Proof.Machine.execBootGo via s
  | .bootWaitExpire => Sys2Proof.Machine.execBootWaitExpire s
  | .allowUntested on via => Sys2Proof.Machine.execAllowUntested on via s
  | .bankClr a b via => Sys2Proof.Machine.execBankClr a b via s
  | .preferB on via => Sys2Proof.Machine.execPreferB on via s
  | .loadCanvas => Sys2Proof.Machine.execLoadCanvas s
  | .canvasStaged badRouter => Sys2Proof.Machine.execCanvasStaged badRouter s
  | .loadDeferredStart => Sys2Proof.Machine.execLoadDeferredStart s
  | .hangRequest => Sys2Proof.Machine.execHangRequest s
  | .hangEffect => Sys2Proof.Machine.execHangEffect s
  | .unstage => Sys2Proof.Machine.execUnstage s
  | .epochDrainEnd => Sys2Proof.Machine.execEpochDrainEnd s
  | .drainTimeout => Sys2Proof.Machine.execDrainTimeout s
  | .tileRoleTake t => Sys2Proof.Machine.execTileRoleTake t s
  | .meshPacketRoute k => Sys2Proof.Machine.execMeshPacketRoute k s
  | .escapeDivert k => Sys2Proof.Machine.execEscapeDivert k s
  | .stepSlotStart => Sys2Proof.Machine.execStepSlotStart s
  | .bundleIssue => Sys2Proof.Machine.execBundleIssue s
  | .scalarNop => Sys2Proof.Machine.execScalarNop s
  | .integerOp => Sys2Proof.Machine.execIntegerOp s
  | .scratchAccess parityFail => Sys2Proof.Machine.execScratchAccess parityFail s
  | .memoryLoadStore => Sys2Proof.Machine.execMemoryLoadStore s
  | .statusRead => Sys2Proof.Machine.execStatusRead s
  | .conditionalBranch => Sys2Proof.Machine.execConditionalBranch s
  | .loopOp => Sys2Proof.Machine.execLoopOp s
  | .bundleOverrun => Sys2Proof.Machine.execBundleOverrun s
  | .slotOpComplete k => Sys2Proof.Machine.execSlotOpComplete k s
  | .moveTileToTile k parityFail => Sys2Proof.Machine.execMoveTileToTile k parityFail s
  | .moveTileToMemory k parityFail => Sys2Proof.Machine.execMoveTileToMemory k parityFail s
  | .moveMemoryToTile k => Sys2Proof.Machine.execMoveMemoryToTile k s
  | .reshard k parityEntry => Sys2Proof.Machine.execReshard k parityEntry s
  | .queuePush k => Sys2Proof.Machine.execQueuePush k s
  | .queuePopToTile k upset => Sys2Proof.Machine.execQueuePopToTile k upset s
  | .dropRemainder k => Sys2Proof.Machine.execDropRemainder k s
  | .watermarkQuery k => Sys2Proof.Machine.execWatermarkQuery k s
  | .fenceSlotStart k => Sys2Proof.Machine.execFenceSlotStart k s
  | .fenceQueueDepth k => Sys2Proof.Machine.execFenceQueueDepth k s
  | .fenceMarkerAtHead k => Sys2Proof.Machine.execFenceMarkerAtHead k s
  | .hostStep k => Sys2Proof.Machine.execHostStep k s
  | .stepGraceExpire => Sys2Proof.Machine.execStepGraceExpire s
  | .renderWindowOpen k => Sys2Proof.Machine.execRenderWindowOpen k s
  | .renderWindowClose k => Sys2Proof.Machine.execRenderWindowClose k s
  | .eventPacketReceive port vc dt ecc crcOk payload => Sys2Proof.Machine.execEventPacketReceive port vc dt ecc crcOk payload s
  | .eventPacketWrite port => Sys2Proof.Machine.execEventPacketWrite port s
  | .linkError port deskew => Sys2Proof.Machine.execLinkError port deskew s
  | .thermalFrameStart m vc ecc => Sys2Proof.Machine.execThermalFrameStart m vc ecc s
  | .thermalLine m line vc dt ecc crcOk pixels => Sys2Proof.Machine.execThermalLine m line vc dt ecc crcOk pixels s
  | .thermalFrameEnd m vc => Sys2Proof.Machine.execThermalFrameEnd m vc s
  | .aerRequest word => Sys2Proof.Machine.execAerRequest word s
  | .aerReqFall => Sys2Proof.Machine.execAerReqFall s
  | .aerHoldExpire => Sys2Proof.Machine.execAerHoldExpire s
  | .pseudoPacketTimeout => Sys2Proof.Machine.execPseudoPacketTimeout s
  | .glintWindowEnd port => Sys2Proof.Machine.execGlintWindowEnd port s
  | .glintHoldExpire port => Sys2Proof.Machine.execGlintHoldExpire port s
  | .refractSweep port => Sys2Proof.Machine.execRefractSweep port s
  | .commit port => Sys2Proof.Machine.execCommit port s
  | .commitApply port => Sys2Proof.Machine.execCommitApply port s
  | .cntClr port => Sys2Proof.Machine.execCntClr port s
  | .hotClr port => Sys2Proof.Machine.execHotClr port s
  | .portEn port on => Sys2Proof.Machine.execPortEn port on s
  | .refWindow ppb => Sys2Proof.Machine.execRefWindow ppb s
  | .refEdgeLoss => Sys2Proof.Machine.execRefEdgeLoss s
  | .ppsEdge highOk => Sys2Proof.Machine.execPpsEdge highOk s
  | .ppsTimeout => Sys2Proof.Machine.execPpsTimeout s
  | .upwardHoldExpire => Sys2Proof.Machine.execUpwardHoldExpire s
  | .announceEnd => Sys2Proof.Machine.execAnnounceEnd s
  | .slewEnd => Sys2Proof.Machine.execSlewEnd s
  | .holdAged => Sys2Proof.Machine.execHoldAged s
  | .camSyncPulse => Sys2Proof.Machine.execCamSyncPulse s
  | .camLatchReadDone n latch => Sys2Proof.Machine.execCamLatchReadDone n latch s
  | .camLatchTimeout n nack => Sys2Proof.Machine.execCamLatchTimeout n nack s
  | .camModeWrite n mode => Sys2Proof.Machine.execCamModeWrite n mode s
  | .xtalFail => Sys2Proof.Machine.execXtalFail s
  | .devtimeRead => Sys2Proof.Machine.execDevtimeRead s
  | .windowsRead => Sys2Proof.Machine.execWindowsRead s
  | .pushCell ep qid data item marks link => Sys2Proof.Machine.execPushCell ep qid data item marks link s
  | .popCell ep qid upset => Sys2Proof.Machine.execPopCell ep qid upset s
  | .takeCell ep qid upset => Sys2Proof.Machine.execTakeCell ep qid upset s
  | .freeCell ep cell item => Sys2Proof.Machine.execFreeCell ep cell item s
  | .keyedPop qid upset => Sys2Proof.Machine.execKeyedPop qid upset s
  | .keyedEopAccepted qid => Sys2Proof.Machine.execKeyedEopAccepted qid s
  | .scrubVisit upset => Sys2Proof.Machine.execScrubVisit upset s
  | .severComplete qid => Sys2Proof.Machine.execSeverComplete qid s
  | .freeListRebuildDone => Sys2Proof.Machine.execFreeListRebuildDone s
  | .poolLowClr => Sys2Proof.Machine.execPoolLowClr s
  | .spikeTileInput t fails => Sys2Proof.Machine.execSpikeTileInput t fails s
  | .pacedStepClose p t fails => Sys2Proof.Machine.execPacedStepClose p t fails s
  | .neuronSweep t => Sys2Proof.Machine.execNeuronSweep t s
  | .cut k => Sys2Proof.Machine.execCut k s
  | .cutMarkersCollected p => Sys2Proof.Machine.execCutMarkersCollected p s
  | .resetPop k => Sys2Proof.Machine.execResetPop k s
  | .spikeCountWindow p => Sys2Proof.Machine.execSpikeCountWindow p s
  | .tileSleep t => Sys2Proof.Machine.execTileSleep t s
  | .gemm k parityTile => Sys2Proof.Machine.execGemm k parityTile s
  | .conv k parityTile => Sys2Proof.Machine.execConv k parityTile s
  | .gconv k parityTile => Sys2Proof.Machine.execGconv k parityTile s
  | .pool k parityTile => Sys2Proof.Machine.execPool k parityTile s
  | .eltwise k parityTile => Sys2Proof.Machine.execEltwise k parityTile s
  | .surfaceAccumulate k parityTile => Sys2Proof.Machine.execSurfaceAccumulate k parityTile s
  | .surfaceTimeReadout k parityTile => Sys2Proof.Machine.execSurfaceTimeReadout k parityTile s
  | .surfaceCountReadout k parityTile => Sys2Proof.Machine.execSurfaceCountReadout k parityTile s
  | .gemmBatch k parityTile => Sys2Proof.Machine.execGemmBatch k parityTile s
  | .dispatch k badEntries => Sys2Proof.Machine.execDispatch k badEntries s
  | .combine k poisoned => Sys2Proof.Machine.execCombine k poisoned s
  | .exitOp k => Sys2Proof.Machine.execExitOp k s
  | .biasUpdate => Sys2Proof.Machine.execBiasUpdate s
  | .biasWrite j value => Sys2Proof.Machine.execBiasWrite j value s
  | .remoteTmo item => Sys2Proof.Machine.execRemoteTmo item s
  | .fusionInputTake c upset => Sys2Proof.Machine.execFusionInputTake c upset s
  | .gatherTimeout => Sys2Proof.Machine.execGatherTimeout s
  | .cycleStart => Sys2Proof.Machine.execCycleStart s
  | .early => Sys2Proof.Machine.execEarly s
  | .assoc badSlots => Sys2Proof.Machine.execAssoc badSlots s
  | .mid => Sys2Proof.Machine.execMid s
  | .update badSlots => Sys2Proof.Machine.execUpdate badSlots s
  | .post => Sys2Proof.Machine.execPost s
  | .testWindowEnd => Sys2Proof.Machine.execTestWindowEnd s
  | .quarClr mask => Sys2Proof.Machine.execQuarClr mask s
  | .drawListTake upset => Sys2Proof.Machine.execDrawListTake upset s
  | .triangleList => Sys2Proof.Machine.execTriangleList s
  | .triangleStrip => Sys2Proof.Machine.execTriangleStrip s
  | .lineList => Sys2Proof.Machine.execLineList s
  | .glyphQuads => Sys2Proof.Machine.execGlyphQuads s
  | .transform => Sys2Proof.Machine.execTransform s
  | .textureSlot => Sys2Proof.Machine.execTextureSlot s
  | .underpaint k => Sys2Proof.Machine.execUnderpaint k s
  | .closeFrame k => Sys2Proof.Machine.execCloseFrame k s
  | .screenTileTake t => Sys2Proof.Machine.execScreenTileTake t s
  | .screenTileDone t parityBlocks => Sys2Proof.Machine.execScreenTileDone t parityBlocks s
  | .endOp => Sys2Proof.Machine.execEndOp s
  | .mov d a => Sys2Proof.Machine.execMov d a s
  | .addOp d a b => Sys2Proof.Machine.execAddOp d a b s
  | .mulOp d a b => Sys2Proof.Machine.execMulOp d a b s
  | .mad d a b => Sys2Proof.Machine.execMad d a b s
  | .minOp d a b => Sys2Proof.Machine.execMinOp d a b s
  | .maxOp d a b => Sys2Proof.Machine.execMaxOp d a b s
  | .sat d a => Sys2Proof.Machine.execSat d a s
  | .swz d a imm => Sys2Proof.Machine.execSwz d a imm s
  | .constOp d imm => Sys2Proof.Machine.execConstOp d imm s
  | .tex d a => Sys2Proof.Machine.execTex d a s
  | .kill a => Sys2Proof.Machine.execKill a s
  | .rcp d a => Sys2Proof.Machine.execRcp d a s
  | .frameStart => Sys2Proof.Machine.execFrameStart s
  | .dsiLine underrun => Sys2Proof.Machine.execDsiLine underrun s
  | .video on => Sys2Proof.Machine.execVideo on s
  | .dcsShortWrite => Sys2Proof.Machine.execDcsShortWrite s
  | .dcsShortWriteParam => Sys2Proof.Machine.execDcsShortWriteParam s
  | .dcsLongWrite => Sys2Proof.Machine.execDcsLongWrite s
  | .trainPairReceive side ringId chip peerSide good => Sys2Proof.Machine.execTrainPairReceive side ringId chip peerSide good s
  | .trainingTimeout side => Sys2Proof.Machine.execTrainingTimeout side s
  | .trainingRetry side => Sys2Proof.Machine.execTrainingRetry side s
  | .spanTransmit k upset => Sys2Proof.Machine.execSpanTransmit k upset s
  | .longFrameReceive side bytes crc => Sys2Proof.Machine.execLongFrameReceive side bytes crc s
  | .shortFrameReceive side link crc => Sys2Proof.Machine.execShortFrameReceive side link crc s
  | .shortFrameSend side => Sys2Proof.Machine.execShortFrameSend side s
  | .credit => Sys2Proof.Machine.execCredit s
  | .grant => Sys2Proof.Machine.execGrant s
  | .delivered => Sys2Proof.Machine.execDelivered s
  | .notice => Sys2Proof.Machine.execNotice s
  | .ackTimeout side => Sys2Proof.Machine.execAckTimeout side s
  | .delivTmo item => Sys2Proof.Machine.execDelivTmo item s
  | .retrain side => Sys2Proof.Machine.execRetrain side s
  | .cmdDoorbell pi slots => Sys2Proof.Machine.execCmdDoorbell pi slots s
  | .nopCmd => Sys2Proof.Machine.execNopCmd s
  | .goCmd => Sys2Proof.Machine.execGoCmd s
  | .domainCmd => Sys2Proof.Machine.execDomainCmd s
  | .resetCore memOk => Sys2Proof.Machine.execResetCore memOk s
  | .fwStage => Sys2Proof.Machine.execFwStage s
  | .fwStageDone => Sys2Proof.Machine.execFwStageDone s
  | .i2cXfer => Sys2Proof.Machine.execI2cXfer s
  | .i2cXferDone bus nackAt data => Sys2Proof.Machine.execI2cXferDone bus nackAt data s
  | .i2cStretchTimeout bus => Sys2Proof.Machine.execI2cStretchTimeout bus s
  | .alarmSend => Sys2Proof.Machine.execAlarmSend s
  | .resume => Sys2Proof.Machine.execResume s
  | .badOp => Sys2Proof.Machine.execBadOp s
  | .ringsEn on => Sys2Proof.Machine.execRingsEn on s
  | .readoutPop k upset => Sys2Proof.Machine.execReadoutPop k upset s
  | .dmaError => Sys2Proof.Machine.execDmaError s
  | .pcieLinkDown => Sys2Proof.Machine.execPcieLinkDown s
  | .bar2Access off len write => Sys2Proof.Machine.execBar2Access off len write s
  | .spiStatus => Sys2Proof.Machine.execSpiStatus s
  | .spiRead off words => Sys2Proof.Machine.execSpiRead off words s
  | .spiWrite off words => Sys2Proof.Machine.execSpiWrite off words s
  | .spiMread addr len => Sys2Proof.Machine.execSpiMread addr len s
  | .spiMwrite addr data => Sys2Proof.Machine.execSpiMwrite addr data s
  | .spiCmd entry crc => Sys2Proof.Machine.execSpiCmd entry crc s
  | .spiResp bytesRead => Sys2Proof.Machine.execSpiResp bytesRead s
  | .alarmStatusTimer => Sys2Proof.Machine.execAlarmStatusTimer s
  | .alarmSentenceSent => Sys2Proof.Machine.execAlarmSentenceSent s
  | .testLogicReset => Sys2Proof.Machine.execTestLogicReset s
  | .bypass => Sys2Proof.Machine.execBypass s
  | .idcode => Sys2Proof.Machine.execIdcode s
  | .samplePreload preload => Sys2Proof.Machine.execSamplePreload preload s
  | .extest => Sys2Proof.Machine.execExtest s
  | .clamp => Sys2Proof.Machine.execClamp s
  | .highz => Sys2Proof.Machine.execHighz s
  | .tracePacket => Sys2Proof.Machine.execTracePacket s
  | .traceTime => Sys2Proof.Machine.execTraceTime s
  | .completionNotice item block => Sys2Proof.Machine.execCompletionNotice item block s
  | .terminalReport item reason stage flags => Sys2Proof.Machine.execTerminalReport item reason stage flags s
  | .coalesceExpire => Sys2Proof.Machine.execCoalesceExpire s
  | .faultRaise off bit sev block => Sys2Proof.Machine.execFaultRaise off bit sev block s
  | .faultHandle => Sys2Proof.Machine.execFaultHandle s
  | .lgFaultAck mask => Sys2Proof.Machine.execLgFaultAck mask s
  | .watchdog => Sys2Proof.Machine.execWatchdog s
  | .quiesceDone => Sys2Proof.Machine.execQuiesceDone s
  | .reversingEnd => Sys2Proof.Machine.execReversingEnd s
  | .pcieLinkUp gen width => Sys2Proof.Machine.execPcieLinkUp gen width s
  | .spanLinkEnable side on => Sys2Proof.Machine.execSpanLinkEnable side on s

end Sys2Proof.Machine
end

