-- ==== Sys2Proof/Machine/Step.lean ====
section
/-! DEFINITION. One step: the command at the front of the queue, or one crystal cycle on an empty queue. -/
namespace Sys2Proof.Machine

/-- One step. A waiting command runs with the queue's rest; on an empty queue one cycle of the 38.4 MHz
crystal passes (R203). DESIGN CHOICE (notes/assumptions/1.md). -/
def step (s : State) : Host.Outcome State Fault Refusal :=
  match s.pending with
  | [] => .next s.crystalCycle
  | c :: rest => exec c (s.modPending fun _ => rest)

/-- The state with a command put at the front of its queue. DESIGN CHOICE (notes/assumptions/13.md). -/
def State.withCommand (s : State) (c : Instr) : State := s.modPending (c :: ·)

/-- The state with the command that a word spells at the front of its queue. DESIGN CHOICE (notes/assumptions/13.md). -/
def State.withFetchWord (s : State) (nbits w : Nat) : State :=
  match Sys2Proof.decodeTableWord nbits w with
  | some c => s.withCommand c
  | none => s

end Sys2Proof.Machine
end

