-- ==== Sys2Proof/Safety.lean ====
section
/-! DEFINITION. What counts as a sound state and what a command leaves alone, in the terms that the statements use. -/
namespace Sys2Proof.Machine

/-- The register file and every byte memory are in canonical form. -/
def State.canonical (s : State) : Bool :=
  regSorted s.regs && s.ext.wf && s.tmem.wf && s.scratch.wf && s.hostMem.wf

/-- The fault stack holds entries in different slots of its eight, and Keeper has at most one of them in hand (R466, R468). -/
def State.stackSound (s : State) : Bool :=
  decide ((s.lg.faults.map (·.slot)).Nodup) && (s.lg.faults.all fun e => decide (e.slot < 8)) &&
  decide ((s.lg.faults.filter fun e => e.state = 2).length ≤ 1)

/-- The bit addresses of every element of a row. -/
def keysOf (r : Row) : List Nat := (List.range r.n1).flatMap fun i => (List.range r.n2).map fun j => r.key i j

/-- Every register field reads the same in both states, but for those at the listed bit addresses. -/
def State.regsBut (s t : State) (ks : List Nat) : Prop :=
  ∀ (r : Row) (i j : Nat), r.key i j ∉ ks → t.reg r i j = s.reg r i j

/-- The states differ in register fields at the listed bit addresses and in nothing else. -/
def State.onlyRegs (s t : State) (ks : List Nat) : Prop := t = { s with regs := t.regs } ∧ s.regsBut t ks

/-- Every byte of every memory reads the same in both states. -/
def State.sameBytes (s t : State) : Prop :=
  ∀ a, t.ext.read a = s.ext.read a ∧ t.tmem.read a = s.tmem.read a ∧ t.scratch.read a = s.scratch.read a ∧
    t.hostMem.read a = s.hostMem.read a

/-- Nothing waits to be sent over a span link, and no received cell awaits its credit. -/
def State.spanQuiet (s : State) : Prop :=
  s.sl.sides.length = 2 ∧ s.sl.rxFrames = [] ∧ ∀ n, (s.spanSide n).forward = [] ∧ (s.spanSide n).ctrl = []

end Sys2Proof.Machine
end

