-- ==== Sys2Proof/WellFormed.lean ====
section
/-! DEFINITION. Well-formed commands: every operand lies in the range that the spec gives its name. -/
namespace Sys2Proof

/-- A BAR0 word offset: inside 16 MiB and naturally aligned (R425, R478). -/
def wordOffset (o : Nat) : Bool := decide (o < 2 ^ 24) && o % 4 == 0

/-- A 3-byte BAR0 offset of an SPI frame (R437). -/
def byteOffset (o : Nat) : Bool := decide (o < 2 ^ 24)

/-- A BAR2 offset: inside 256 MiB (R424). -/
def bar2Offset (o : Nat) : Bool := decide (o < 2 ^ 28)

/-- A 4-byte external address of an SPI frame (R437). -/
def addr32 (a : Nat) : Bool := decide (a < 2 ^ 32)

/-- The speeds of R424. -/
def linkGen (g : BitVec 2) : Bool := g != 0

/-- The lanes of R424. -/
def linkWidth (w : BitVec 2) : Bool := w == 1 || w == 2

/-- Every operand of the command is in range. -/
def Instr.wellFormed : Instr → Bool
  | .registerWrite off _ _ => wordOffset off
  | .paceMonitorInterval readings _ => readings.length == 20
  | .monitorFailed n => decide (n < 20)
  | .guardEnClear => true
  | .peakClr => true
  | .resetNAssert => true
  | .resetNRelease _ _ => true
  | .powerOnResetRelease _ _ => true
  | .railBrownout _ => true
  | .brownoutHoldCheck _ _ => true
  | .keeperWd _ _ => true
  | .tempSample _ => true
  | .thermalCooled _ => true
  | .domainRequest _ _ => true
  | .domainWakeDone d => decide (d < 26)
  | .domainSwitchFail d => decide (d < 26)
  | .powerSample _ => true
  | .powerPeakClr => true
  | .heartbeatEdge => true
  | .perstN _ => true
  | .bootGo _ => true
  | .bootWaitExpire => true
  | .allowUntested _ _ => true
  | .bankClr _ _ _ => true
  | .preferB _ _ => true
  | .loadCanvas => true
  | .canvasStaged _ => true
  | .loadDeferredStart => true
  | .hangRequest => true
  | .hangEffect => true
  | .unstage => true
  | .epochDrainEnd => true
  | .drainTimeout => true
  | .tileRoleTake t => decide (t < 64)
  | .meshPacketRoute _ => true
  | .escapeDivert _ => true
  | .stepSlotStart => true
  | .bundleIssue => true
  | .scalarNop => true
  | .integerOp => true
  | .scratchAccess _ => true
  | .memoryLoadStore => true
  | .statusRead => true
  | .conditionalBranch => true
  | .loopOp => true
  | .bundleOverrun => true
  | .slotOpComplete _ => true
  | .moveTileToTile _ _ => true
  | .moveTileToMemory _ _ => true
  | .moveMemoryToTile _ => true
  | .reshard _ _ => true
  | .queuePush _ => true
  | .queuePopToTile _ _ => true
  | .dropRemainder _ => true
  | .watermarkQuery _ => true
  | .fenceSlotStart _ => true
  | .fenceQueueDepth _ => true
  | .fenceMarkerAtHead _ => true
  | .hostStep _ => true
  | .stepGraceExpire => true
  | .renderWindowOpen _ => true
  | .renderWindowClose _ => true
  | .eventPacketReceive port _ _ _ _ _ => decide (port < 4)
  | .eventPacketWrite port => decide (port < 4)
  | .linkError port _ => decide (port < 4)
  | .thermalFrameStart m _ _ => decide (m < 2)
  | .thermalLine m _ _ _ _ _ _ => decide (m < 2)
  | .thermalFrameEnd m _ => decide (m < 2)
  | .aerRequest _ => true
  | .aerReqFall => true
  | .aerHoldExpire => true
  | .pseudoPacketTimeout => true
  | .glintWindowEnd port => decide (port < 4)
  | .glintHoldExpire port => decide (port < 4)
  | .refractSweep port => decide (port < 4)
  | .commit port => decide (port < 4)
  | .commitApply port => decide (port < 4)
  | .cntClr port => decide (port < 4)
  | .hotClr port => decide (port < 4)
  | .portEn port _ => decide (port < 4)
  | .refWindow _ => true
  | .refEdgeLoss => true
  | .ppsEdge _ => true
  | .ppsTimeout => true
  | .upwardHoldExpire => true
  | .announceEnd => true
  | .slewEnd => true
  | .holdAged => true
  | .camSyncPulse => true
  | .camLatchReadDone n _ => decide (n < 4)
  | .camLatchTimeout n _ => decide (n < 4)
  | .camModeWrite n _ => decide (n < 4)
  | .xtalFail => true
  | .devtimeRead => true
  | .windowsRead => true
  | .pushCell ep qid _ _ _ _ => decide (ep < 256) && decide (qid < 512)
  | .popCell ep qid _ => decide (ep < 256) && decide (qid < 512)
  | .takeCell ep qid _ => decide (ep < 256) && decide (qid < 512)
  | .freeCell ep cell _ => decide (ep < 256) && decide (cell < 1048576)
  | .keyedPop qid _ => decide (qid < 512)
  | .keyedEopAccepted qid => decide (qid < 512)
  | .scrubVisit _ => true
  | .severComplete qid => decide (qid < 512)
  | .freeListRebuildDone => true
  | .poolLowClr => true
  | .spikeTileInput t _ => decide (t < 64)
  | .pacedStepClose p t _ => decide (p < 64) && decide (t < 64)
  | .neuronSweep t => decide (t < 64)
  | .cut _ => true
  | .cutMarkersCollected p => decide (p < 64)
  | .resetPop _ => true
  | .spikeCountWindow p => decide (p < 64)
  | .tileSleep t => decide (t < 64)
  | .gemm _ _ => true
  | .conv _ _ => true
  | .gconv _ _ => true
  | .pool _ _ => true
  | .eltwise _ _ => true
  | .surfaceAccumulate _ _ => true
  | .surfaceTimeReadout _ _ => true
  | .surfaceCountReadout _ _ => true
  | .gemmBatch _ _ => true
  | .dispatch _ _ => true
  | .combine _ _ => true
  | .exitOp _ => true
  | .biasUpdate => true
  | .biasWrite j _ => decide (j < 64)
  | .remoteTmo _ => true
  | .fusionInputTake c _ => decide (c < 16)
  | .gatherTimeout => true
  | .cycleStart => true
  | .early => true
  | .assoc _ => true
  | .mid => true
  | .update _ => true
  | .post => true
  | .testWindowEnd => true
  | .quarClr _ => true
  | .drawListTake _ => true
  | .triangleList => true
  | .triangleStrip => true
  | .lineList => true
  | .glyphQuads => true
  | .transform => true
  | .textureSlot => true
  | .underpaint _ => true
  | .closeFrame _ => true
  | .screenTileTake t => decide (t < 64)
  | .screenTileDone t _ => decide (t < 64)
  | .endOp => true
  | .mov _ _ => true
  | .addOp _ _ _ => true
  | .mulOp _ _ _ => true
  | .mad _ _ _ => true
  | .minOp _ _ _ => true
  | .maxOp _ _ _ => true
  | .sat _ _ => true
  | .swz _ _ _ => true
  | .constOp _ _ => true
  | .tex _ _ => true
  | .kill _ => true
  | .rcp _ _ => true
  | .frameStart => true
  | .dsiLine _ => true
  | .video _ => true
  | .dcsShortWrite => true
  | .dcsShortWriteParam => true
  | .dcsLongWrite => true
  | .trainPairReceive side _ _ _ _ => decide (side < 2)
  | .trainingTimeout side => decide (side < 2)
  | .trainingRetry side => decide (side < 2)
  | .spanTransmit _ _ => true
  | .longFrameReceive side bytes _ => decide (side < 2) && decide (bytes.length = 74)
  | .shortFrameReceive side _ _ => decide (side < 2)
  | .shortFrameSend side => decide (side < 2)
  | .credit => true
  | .grant => true
  | .delivered => true
  | .notice => true
  | .ackTimeout side => decide (side < 2)
  | .delivTmo _ => true
  | .retrain side => decide (side < 2)
  | .cmdDoorbell _ _ => true
  | .nopCmd => true
  | .goCmd => true
  | .domainCmd => true
  | .resetCore _ => true
  | .fwStage => true
  | .fwStageDone => true
  | .i2cXfer => true
  | .i2cXferDone bus _ _ => decide (bus < 2)
  | .i2cStretchTimeout bus => decide (bus < 2)
  | .alarmSend => true
  | .resume => true
  | .badOp => true
  | .ringsEn _ => true
  | .readoutPop k _ => decide (k < 16)
  | .dmaError => true
  | .pcieLinkDown => true
  | .bar2Access off _ _ => bar2Offset off
  | .spiStatus => true
  | .spiRead off _ => byteOffset off
  | .spiWrite off _ => byteOffset off
  | .spiMread addr _ => addr32 addr
  | .spiMwrite addr _ => addr32 addr
  | .spiCmd entry _ => decide (entry.length ≤ 64)
  | .spiResp _ => true
  | .alarmStatusTimer => true
  | .alarmSentenceSent => true
  | .testLogicReset => true
  | .bypass => true
  | .idcode => true
  | .samplePreload _ => true
  | .extest => true
  | .clamp => true
  | .highz => true
  | .tracePacket => true
  | .traceTime => true
  | .completionNotice _ _ => true
  | .terminalReport _ _ _ _ => true
  | .coalesceExpire => true
  | .faultRaise off bit sev block => wordOffset off && decide (bit < 32) && decide (sev < 4) && decide (block < 16)
  | .faultHandle => true
  | .lgFaultAck _ => true
  | .watchdog => true
  | .quiesceDone => true
  | .reversingEnd => true
  | .pcieLinkUp gen width => linkGen gen && linkWidth width
  | .spanLinkEnable side _ => decide (side < 2)

end Sys2Proof
end

