-- ==== Sys2Proof/Certificates/Slice0/Obligations.lean ====
section
/-! DEFINITION. The statements for the provers, from the numbered rules of spec/. -/
open Sys2Proof Sys2Proof.Machine

/-! ## The machine as a whole -/

/-- O: a step takes the command at the front of the queue and runs it with the queue's rest; putting a command in front and
stepping is running it. -/
def Obligations.StepRunsTheFrontCommand : Prop :=
  (∀ (c : Instr) (rest : List Instr) (s : State), s.pending = c :: rest → step s = exec c (s.modPending fun _ => rest)) ∧
  (∀ (c : Instr) (s : State), step (s.withCommand c) = exec c s)

/-- O: on an empty queue one crystal cycle passes (the model's choice, notes/assumptions/1.md). While the clock runs, DEVTIME with
its 32-bit fraction grows by the increment of R203 modulo 2^96; while it does not, nothing changes. -/
def Obligations.EmptyQueueStepIsACrystalCycle : Prop :=
  (∀ s : State, s.pending = [] → s.clockRuns = false → step s = .next s) ∧
  (∀ s : State, s.pending = [] → s.clockRuns = true → s.devtime < 2 ^ 64 → s.frac < 2 ^ 32 →
    ∃ t, step s = .next t ∧ t = { s with
        devtime := t.devtime, frac := t.frac, timers := t.timers, pins := t.pins,
        tm := { s.tm with corrSum := s.tm.corrSum + s.corr, corrN := s.tm.corrN + 1 } } ∧
      t.frac < 2 ^ 32 ∧ t.devtime * 2 ^ 32 + t.frac = (s.devtime * 2 ^ 32 + s.frac + s.increment) % 2 ^ 96) ∧
  (∀ s : State, s.corr = 0 → s.increment = 26 * 2 ^ 32 + 0x0AAAAAAB)

/-- O: what reset leaves. Every register field reads its reset value but POR of PW_RESET_CAUSE, which reads 1 (R69, R90);
DEVTIME is 0 (R203); PD00 alone is on; every ball is in its Reset state; no item, fault, queue or command is there; an unlisted byte
of memory reads 0, and the strap, the balls and the MSI-X words are as notes/assumptions/2.md, 3.md and 32.md choose (the model's choice), and the invariants of the next statements hold. -/
def Obligations.ResetState : Prop :=
  (∀ (r : Row) (i j : Nat), r.key i j ≠ R.pwResetCausePor.key 0 0 → State.reset.reg r i j = r.resetAt i) ∧
  State.reset.reg R.pwResetCausePor = 1 ∧ State.reset.reg R.pwDomStateOn = 1 ∧ State.reset.reg R.kpBootStep = 1 ∧
  State.reset.devtime = 0 ∧ State.reset.keeper.mode = .reset ∧ State.reset.pins.resetN = false ∧
  State.reset.pins.ready = .z ∧ State.reset.pins.faultN = .z ∧ State.reset.pins.heartbeat = .z ∧
  State.reset.lg.items = [] ∧ State.reset.lg.faults = [] ∧ State.reset.pal.queues = [] ∧ State.reset.pending = [] ∧
  State.reset.pp.plan = none ∧ State.reset.cv.active = none ∧
  (∀ a, State.reset.ext.read a = 0 ∧ State.reset.tmem.read a = 0 ∧ State.reset.scratch.read a = 0) ∧
  State.reset.canonical = true ∧ State.reset.stackSound = true

/-- O: every step keeps the canonical form of the register file and of every memory, so that equal contents are equal data. -/
def Obligations.EveryStepKeepsTheCanonicalForm : Prop :=
  ∀ s t : State, s.canonical = true → step s = .next t → t.canonical = true

/-- O: every step keeps the fault stack sound: eight slots, one live entry in each, at most one entry in Keeper's hand (R466,
R468). -/
def Obligations.EveryStepKeepsTheFaultStackSound : Prop :=
  ∀ s t : State, s.stackSound = true → step s = .next t → t.stackSound = true

/-- O: every command completes with a next state in every state, but the end of a screen tile whose frame buffer lies above the installed
memory. And a command changes neither the queue of waiting commands nor the part: its member, stepping, ROM, fuses and key slots
(R99, R101, R117). -/
def Obligations.CommandsLeaveQueueAndPartAlone : Prop :=
  (∀ (c : Instr) (s : State), (∀ tl bl f, c = .screenTileDone tl bl → s.rd.sealed = some f → s.fbInstalled f.buffer = true) →
    ∃ t, exec c s = .next t) ∧
  (∀ (c : Instr) (s t : State), exec c s = .next t → t.pending = s.pending ∧ t.part = s.part)

/-! ## Registers (R7, R8, R175, R222, R425, R438, R483) -/

/-- O (R222): a read of TM_DEVTIME_LO latches the upper word into TM_DEVTIME_HI in the same action, and the two words together
are the DEVTIME of that moment; nothing else changes. -/
def Obligations.DevtimeReadLatchesTheUpperWord : Prop :=
  ∀ s : State, s.devtime < 2 ^ 64 → ∃ t, exec .devtimeRead s = .next t ∧
    t.reg R.tmDevtimeHiNs = s.devtime / 2 ^ 32 ∧
    t.view R.tmDevtimeLoNs 0 0 + 2 ^ 32 * t.view R.tmDevtimeHiNs 0 0 = s.devtime ∧
    s.onlyRegs t [R.tmDevtimeHiNs.key 0 0]

/-- O (R175, R483, R52, R60, R90, R253): a read of PP_WINDOWS_LO latches the windows of groups 32 to 63 into PP_WINDOWS_HI; nothing else changes.
The clear commands. PEAK_CLR clears PC_PACE_PEAK, the power peak clears, QM_POOL_LOW.MIN takes FREE;
clearing GUARD_EN while no plan runs clears that bit, and while one runs writes a PACE_GUARD record with HOST_REQ, too. Nothing
else changes. Choices of the model in it: log entries 10 and 20. -/
def Obligations.WindowsReadsAndClears : Prop :=
  (∀ s : State, s.flag R.pcCtrlGuardEn = false → exec .guardEnClear s = .next s) ∧
  (∀ s : State, (s.openGroups.all fun g => decide (g < 64)) = true → ∃ t, exec .windowsRead s = .next t ∧
    (∀ g, g < 32 → bitAt (t.reg R.ppWindowsHiOpen) g = s.openGroups.contains (32 + g)) ∧
    (∀ g, g < 32 → bitAt (t.view R.ppWindowsLoOpen 0 0) g = s.openGroups.contains g) ∧
    s.onlyRegs t [R.ppWindowsHiOpen.key 0 0]) ∧
  ((∀ s : State, ∃ t, exec .peakClr s = .next t ∧ t.reg R.pcPacePeakPeak = 0 ∧ (s.alive = true → t.reg R.pcCtrlPeakClr = 1) ∧
    s.onlyRegs t [R.pcPacePeakPeak.key 0 0, R.pcCtrlPeakClr.key 0 0]) ∧
  (∀ s : State, ∃ t, exec .powerPeakClr s = .next t ∧ t.reg R.pwPowerPeakMw = 0 ∧ (s.alive = true → t.reg R.pwPowerPeakClr = 1) ∧
    s.onlyRegs t [R.pwPowerPeakMw.key 0 0, R.pwPowerPeakClr.key 0 0]) ∧
  (∀ s : State, s.freeCells < 2 ^ 21 → ∃ t, exec .poolLowClr s = .next t ∧ t.reg R.qmPoolLowMin = s.freeCells ∧
    (s.alive = true → t.reg R.qmPoolLowClr = 1) ∧ s.onlyRegs t [R.qmPoolLowMin.key 0 0, R.qmPoolLowClr.key 0 0]) ∧
  (∀ s : State, s.flag R.pcCtrlGuardEn = true → s.flag R.ppStatusRun = false → ∃ t, exec .guardEnClear s = .next t ∧
    t.reg R.pcCtrlGuardEn = 0 ∧ s.onlyRegs t [R.pcCtrlGuardEn.key 0 0]) ∧
  (∀ s : State, s.flag R.pcCtrlGuardEn = true → s.flag R.ppStatusRun = true → ∃ t, exec .guardEnClear s = .next t ∧
    t = (s.setReg R.pcCtrlGuardEn 0).inform (s.setReg R.pcCtrlGuardEn 0).firstResult 0x0C (s.reg R.pcLevelLevel)
      (8 + 2 * s.reg R.pcStatusUnguaranteed + 4 * s.reg R.pcStatusMonFail + 16 * s.reg R.pcStatusCertExceed)))

/-- O (R7, R8, R425, R438): a register write that does not reach its register changes nothing. With no response waiting, one that
reaches it gives RW and WO bits the written value, sets W1S bits and clears W1C bits where 1 is written, and leaves RO bits and
offsets that no block assigns alone, for every field without a command of its own; no register outside the word changes, but where
the sources of TM_CTRL are chosen anew. Shown, too, on QM_SCRUB, PW_RAIL, PC_TRIPS and an unassigned offset. EI_XOFF.STATE and the XOFF balls show the
present levels.
Choices of the model in it: log entries 10, 14 and 15. -/
def Obligations.RegisterWritesFollowTheAccessCodes : Prop :=
  (∀ (off : Nat) (v : Word) (via : Iface) (s : State), s.writeReaches off via = false → exec (.registerWrite off v via) s = .next s) ∧
  (∀ (v : Word) (via : Iface) (s : State), s.writeReaches 0x600010 via = true → s.hi.rspWait = [] →
    ∃ t, exec (.registerWrite 0x600010 v via) s = .next t ∧ t.reg R.qmScrubPeriod = bits v.toNat 7 0 ∧
      t = { s with regs := t.regs, pins := { s.pins with xoff := t.pins.xoff } } ∧
      s.regsBut t [R.qmScrubPeriod.key 0 0, R.eiXoffState.key 0 0]) ∧
  (∀ (v : Word) (via : Iface) (s : State), s.writeReaches 0x200014 via = true → s.hi.rspWait = [] →
    ∃ t, exec (.registerWrite 0x200014 v via) s = .next t ∧
      t.reg R.pwRailBrown = (s.reg R.pwRailBrown &&& (63 - bits v.toNat 13 8)) % 64 ∧
      t = { s with regs := t.regs, pins := { s.pins with xoff := t.pins.xoff } } ∧
      s.regsBut t [R.pwRailBrown.key 0 0, R.eiXoffState.key 0 0]) ∧
  (∀ (off : Nat) (v : Word) (via : Iface) (s : State), off = 0x100014 ∨ off = 0x300000 → s.writeReaches off via = true →
    s.hi.rspWait = [] → ∃ t, exec (.registerWrite off v via) s = .next t ∧
      t = { s with regs := t.regs, pins := { s.pins with xoff := t.pins.xoff } } ∧ s.regsBut t [R.eiXoffState.key 0 0]) ∧
  (∀ (off : Nat) (v : Word) (via : Iface) (s : State), s.writeReaches off via = true → s.hi.rspWait = [] →
    ∃ t, exec (.registerWrite off v via) s = .next t ∧
      (∀ (r : Row) (i j : Nat), r ∈ blockRows off → r.find off = some (i, j) → r.own = false → r ≠ R.eiXoffState →
        (s.unitLive r.unit i = true →
          (r.acc = .rw ∨ r.acc = .wo → t.reg r i j = v.toNat / 2 ^ r.lo % 2 ^ r.width) ∧
          (r.acc = .w1s → t.reg r i j = (s.reg r i j ||| v.toNat / 2 ^ r.lo % 2 ^ r.width) % 2 ^ r.width) ∧
          (r.acc = .w1c → t.reg r i j = (s.reg r i j &&& (2 ^ r.width - 1 - v.toNat / 2 ^ r.lo % 2 ^ r.width)) % 2 ^ r.width)) ∧
        (r.acc = .ro ∨ s.unitLive r.unit i = false → t.reg r i j = s.reg r i j)) ∧
      (off ≠ 0x500008 → (∀ (r : Row) (i j : Nat), r.key i j < 8 * off ∨ 8 * off + 32 ≤ r.key i j →
          r.key i j ≠ R.eiXoffState.key 0 0 → t.reg r i j = s.reg r i j) ∧
        t = { s with regs := t.regs, ei := t.ei, pal := t.pal, rd := { s.rd with fifo := t.rd.fifo },
                     pins := { s.pins with xoff := t.pins.xoff } }))

/-! ## Pace and power (R35 to R90) -/

/-- O (R35 to R37, R50, R51, R53, R57, R60): an interval of the pace monitors, once its 100 µs have passed. With every monitor's domain on, each
of twenty readings in 0.50 to 3.00 enters its PC_MON valid; with no monitor excluded PC_PACE is the largest of them; P_guard is the
largest of the last eight; VSENSE is VDD_CORE; UNGUARANTEED and CERT_EXCEED follow, and the bounds of issued bundles rise with P_guard. A monitor that gives a reading shows it,
out of range or not, and one whose domain is off shows that, on every interval. Nothing but the pace block and Keeper's history changes, and before the
100 µs have passed nothing does.
A monitor whose domain is on fails after 4 intervals without a reading or with a reading out of range; it is excluded
once, MON_FAIL is set, and the fault is of severity 1 for a single one of monitors 0 to 15, else of severity 2 with the guard
held at the deepest level. Otherwise nothing happens. Choices of the model in it: log entries 10, 20 and 29. -/
def Obligations.PaceAndMonitors : Prop :=
  (∀ (readings : List (BitVec 16)) (vsense : BitVec 12) (s : State), readings.length = 20 →
    (readings.all fun v => decide (0x800 ≤ v.toNat) && decide (v.toNat ≤ 0x3000)) = true →
    s.paceDue = true → ((List.range 20).all s.monOn) = true → s.keeper.monOut = [] →
    ∃ t, exec (.paceMonitorInterval (readings.map some) vsense) s = .next t ∧
      (∀ n, n < 20 → t.reg R.pcMonPace n = (readings.getD n 0).toNat ∧ t.reg R.pcMonState n = 0) ∧
      t.reg R.pcPacePace = (readings.map (·.toNat)).foldl max 0 ∧
      t.keeper.paceHist = (t.reg R.pcPacePace :: s.keeper.paceHist).take 8 ∧
      t.pguard = t.keeper.paceHist.foldl max 0 ∧
      t.reg R.pcStatusVsense = vsense.toNat ∧
      t.flag R.pcStatusUnguaranteed = (decide (vsense.toNat < 720) || decide (0x19EC < t.pguard)) ∧
      t.flag R.pcStatusCertExceed = (decide (s.reg R.pcCertPCert < t.pguard) && decide (t.pguard ≤ 0x19EC)) ∧
      t.pp = { s.pp with issued := s.pp.issued.map fun e => { e with pace := max e.pace t.pguard } } ∧
      t = { s with
        regs := t.regs, pp := t.pp,
        keeper := { s.keeper with paceAt := s.keeper.paceAt + 100000, paceHist := t.keeper.paceHist, monMiss := t.keeper.monMiss } } ∧
      s.regsBut t (keysOf R.pcMonPace ++ keysOf R.pcMonState ++ [R.pcPacePace.key 0 0, R.pcPaceMon.key 0 0, R.pcPacePeakPeak.key 0 0,
        R.pcStatusVsense.key 0 0, R.pcStatusUnguaranteed.key 0 0, R.pcStatusCertExceed.key 0 0])) ∧
  (∀ (readings : List (Option (BitVec 16))) (vsense : BitVec 12) (s : State), s.paceDue = true →
    ∃ t, exec (.paceMonitorInterval readings vsense) s = .next t ∧ t.reg R.pcStatusVsense = vsense.toNat ∧
      t.keeper.paceAt = s.keeper.paceAt + 100000 ∧
      t.flag R.pcStatusUnguaranteed = (decide (vsense.toNat < 720) || decide (0x19EC < t.pguard)) ∧
      t.flag R.pcStatusCertExceed = (decide (s.reg R.pcCertPCert < t.pguard) && decide (t.pguard ≤ 0x19EC)) ∧
      (∀ n, n < 20 → n < readings.length → s.monOn n = false → t.reg R.pcMonState n = 3 ∧ t.reg R.pcMonPace n = s.reg R.pcMonPace n) ∧
      (∀ n v, n < 20 → readings[n]? = some (some v) → s.monOn n = true → t.reg R.pcMonPace n = v.toNat ∧
        t.reg R.pcMonState n = if 0x800 ≤ v.toNat ∧ v.toNat ≤ 0x3000 then 0 else 2) ∧
      t = { s with regs := t.regs, pp := { s.pp with issued := t.pp.issued }, keeper := t.keeper }) ∧
  (∀ (readings : List (Option (BitVec 16))) (vsense : BitVec 12) (s : State), s.paceDue = false →
    exec (.paceMonitorInterval readings vsense) s = .next s) ∧
  ((∀ (n : Nat) (s : State), s.monOn n = true → 4 ≤ s.keeper.monMiss.getD n 0 ∨ s.reg R.pcMonState n = 2 →
    n ∉ s.keeper.monOut → s.keeper.monOut = [] → n < 16 → ∃ t u : State, exec (.monitorFailed n) s = .next t ∧
      u.reg R.pcStatusMonFail = 1 ∧ u.keeper = { s.keeper with monOut := [n] } ∧
      u = { s with regs := u.regs, keeper := u.keeper } ∧ s.regsBut u [R.pcStatusMonFail.key 0 0] ∧
      t = u.raise (0x100100 + 4 * n) 16 1 1) ∧
  (∀ (n : Nat) (s : State), s.monOn n = true → 4 ≤ s.keeper.monMiss.getD n 0 ∨ s.reg R.pcMonState n = 2 →
    n ∉ s.keeper.monOut → s.keeper.monOut ≠ [] ∨ 16 ≤ n → ∃ t u : State, exec (.monitorFailed n) s = .next t ∧
      u.reg R.pcStatusMonFail = 1 ∧ u.keeper = { s.keeper with monOut := s.keeper.monOut ++ [n], guardDeepest := true } ∧
      u = { s with regs := u.regs, keeper := u.keeper } ∧ s.regsBut u [R.pcStatusMonFail.key 0 0] ∧
      t = u.raise (0x100100 + 4 * n) 16 2 1) ∧
  (∀ (n : Nat) (s : State), s.monOn n = false ∨ n ∈ s.keeper.monOut → exec (.monitorFailed n) s = .next s))

/-- O (R12, R71, R84, R90, R70, R88, R454, R463): domain requests. A refused one changes nothing but PW_DOM_ERR, which shows domain and cause; one that comes while Keeper serves another
waits; outside run an accepted one is held in ON_REQ. In run, where it asks for one switch alone, an accepted switch-on begins a wake, and a
switch-off takes the domain off at once. A write that does not reach PW_DOM_REQ changes nothing.
The end of a domain switch: a waking domain that is ready is on, PD01 with its registers at reset, PD04
with queue 0x1FF, and the request in service goes on; at 10 times the wake latency a switching domain is failed, with a fault of severity 2; a domain
that is not switching is left alone.
Choices of the model in it: log entries 10, 14 and 18. -/
def Obligations.DomainSwitches : Prop :=
  (∀ (v : Word) (via : Iface) (s : State), s.writeReaches 0x20000C via = true → s.domServing = false → s.inRun = true →
    s.domFault (bits v.toNat 9 1) via = none → ∃ t, exec (.domainRequest v via) s = .next t ∧
      (∀ d, 1 ≤ d → d ≤ 9 → (bitAt v.toNat d = false → t.domUp d = false) ∧
        (bitAt v.toNat d = true → s.domUp d = true → t.domUp d = true) ∧
        (bitAt v.toNat d = true → s.domUp d = false → t.domServing = true ∨ t.reg R.pwDomErrErr = 1))) ∧
  ((∀ (v : Word) (via : Iface) (s : State), s.writeReaches 0x20000C via = false → exec (.domainRequest v via) s = .next s) ∧
  (∀ (v : Word) (via : Iface) (d c : Nat) (s : State), s.writeReaches 0x20000C via = true → s.domServing = false →
    s.domFault (bits v.toNat 9 1) via = some (d, c) → ∃ t, exec (.domainRequest v via) s = .next t ∧
      t.reg R.pwDomErrErr = 1 ∧ t.reg R.pwDomErrDomain = d % 2 ^ R.pwDomErrDomain.width ∧
      t.reg R.pwDomErrCause = c % 2 ^ R.pwDomErrCause.width ∧
      s.onlyRegs t [R.pwDomErrErr.key 0 0, R.pwDomErrDomain.key 0 0, R.pwDomErrCause.key 0 0]) ∧
  (∀ (v : Word) (via : Iface) (s : State), s.writeReaches 0x20000C via = true → s.domServing = true →
    exec (.domainRequest v via) s = .next { s with keeper := { s.keeper with
      domWaits := s.keeper.domWaits ++ [{ onReq := bits v.toNat 9 1, via := via }] } }) ∧
  (∀ (v : Word) (via : Iface) (s : State), s.writeReaches 0x20000C via = true → s.domServing = false → s.inRun = false →
    s.domFault (bits v.toNat 9 1) via = none → ∃ t, exec (.domainRequest v via) s = .next t ∧
      t.reg R.pwDomReqOnReq = bits v.toNat 9 1 ∧ s.onlyRegs t [R.pwDomReqOnReq.key 0 0]) ∧
  (∀ (v : Word) (via : Iface) (d : Nat) (s : State), s.writeReaches 0x20000C via = true → s.domServing = false → s.inRun = true →
    1 ≤ d → d ≤ 9 → bitAt v.toNat d ≠ s.domUp d → (∀ e, 1 ≤ e → e ≤ 9 → e ≠ d → bitAt v.toNat e = s.domUp e) →
    s.domRefusal (bits v.toNat 9 1) d via = 0 →
    (bitAt v.toNat d = true → ((domNeeds d).all s.domOn) = true → ∃ t, exec (.domainRequest v via) s = .next t ∧
      t.keeper = { s.keeper with switching := s.keeper.switching ++ [(d, true)], domWork := [d] } ∧ t.armed (.domain d) = true ∧
      t.reg R.pwDomReqOnReq = bits v.toNat 9 1 ∧
      t = { s with regs := t.regs, keeper := t.keeper, timers := t.timers } ∧ s.regsBut t [R.pwDomReqOnReq.key 0 0]) ∧
    (bitAt v.toNat d = false → ∃ t, exec (.domainRequest v via) s = .next t ∧
      t.domUp d = false ∧ (d, false) ∈ t.keeper.switching ∧ (∀ e, e < 26 → e ≠ d → t.domOn e = s.domOn e) ∧
      t.reg R.pwDomReqOnReq = bits v.toNat 9 1 ∧ t.armed (.domain d) = true ∧
      t.reg R.pwDomErrErr = s.reg R.pwDomErrErr ∧ (d ≠ 9 → t.lg = s.lg) ∧ t.devtime = s.devtime ∧ t.ext = s.ext ∧
      t.hostMem = s.hostMem))) ∧
  ((∀ (d : Nat) (s : State), s.waking d = true → d = 0 ∨ 5 < d → d < 26 → d ≠ 6 → d ≠ 8 → d ≠ 9 → s.keeper.domWork.head? ≠ some d →
    ∃ t, exec (.domainWakeDone d) s = .next t ∧
    t.domOn d = true ∧ t.waking d = false ∧ (∀ e, e < 26 → e ≠ d → t.domOn e = s.domOn e) ∧ t.armed (.domain d) = false ∧
    t = { s with regs := t.regs, keeper := { s.keeper with switching := t.keeper.switching }, timers := t.timers } ∧
    s.regsBut t [R.pwDomStateOn.key 0 0]) ∧
  (∀ (d : Nat) (s : State), s.waking d = true → d < 26 → s.keeper.domWork = [d] → s.keeper.domWaits = [] →
    ∃ t, exec (.domainWakeDone d) s = .next t ∧ t.domOn d = true ∧ t.waking d = false ∧ t.keeper.domWork = [] ∧
    (∀ e, e < 26 → e ≠ d → t.domOn e = s.domOn e)) ∧
  (∀ (s : State), s.waking 5 = true → s.inRun = false → s.keeper.domWork.head? ≠ some 5 → ∃ t, exec (.domainWakeDone 5) s = .next t ∧
    t.domOn 5 = true ∧ t.waking 5 = false ∧
    t = { s with regs := t.regs, keeper := { s.keeper with switching := t.keeper.switching }, timers := t.timers } ∧
    s.regsBut t [R.pwDomStateOn.key 0 0]) ∧
  (∀ (s : State), s.waking 6 = true → s.keeper.domWork.head? ≠ some 6 → ∃ t, exec (.domainWakeDone 6) s = .next t ∧
    t.domOn 6 = true ∧ t.waking 6 = false ∧ t.pins = { s.pins with memResetN := .high } ∧
    t = { s with regs := t.regs, keeper := { s.keeper with switching := t.keeper.switching }, timers := t.timers, pins := t.pins } ∧
    s.regsBut t [R.pwDomStateOn.key 0 0]) ∧
  (∀ s : State, s.waking 1 = true → s.keeper.domWork.head? ≠ some 1 → ∃ t, exec (.domainWakeDone 1) s = .next t ∧
    t.domOn 1 = true ∧ t.waking 1 = false ∧
    (∀ (r : Row) (i j : Nat), 8 * 0xFC0000 ≤ r.key i j → r.key i j < 8 * 0x1000000 → t.reg r i j = r.resetAt i) ∧
    (∀ (r : Row) (i j : Nat), r.key i j < 8 * 0xFC0000 ∨ 8 * 0x1000000 ≤ r.key i j → r.key i j ≠ R.pwDomStateOn.key 0 0 →
      t.reg r i j = s.reg r i j) ∧
    t = { s with
      regs := t.regs, keeper := { s.keeper with switching := t.keeper.switching }, timers := t.timers,
      hi := { tap := s.hi.tap, boundary := s.hi.boundary }, pins := { s.pins with spiSdo := .z } }) ∧
  (∀ s : State, s.waking 4 = true → s.keeper.domWork.head? ≠ some 4 → ∃ t, exec (.domainWakeDone 4) s = .next t ∧
    t.domOn 4 = true ∧ t.waking 4 = false ∧
    t.hasQueue 511 = true ∧ t.reg R.qmQEpProd 511 = 0x0E ∧ t.reg R.qmQEpCons 511 = 0x70 ∧ t.reg R.qmQCfgQuota 511 = 1024 ∧
    t.reg R.qmQHighHigh 511 = 768 ∧ t.reg R.qmQLowLow 511 = 256 ∧ t.depth 511 = 0 ∧ t.lg = s.lg ∧ s.sameBytes t) ∧
  (∀ s : State, s.waking 8 = true → s.keeper.domWork.head? ≠ some 8 → ∃ t, exec (.domainWakeDone 8) s = .next t ∧
    t.domOn 8 = true ∧ t.waking 8 = false ∧
    t.pins = (if s.inRun then { s.pins with dsi := .high } else s.pins) ∧ s.regsBut t [R.pwDomStateOn.key 0 0]) ∧
  (∀ s : State, s.waking 9 = true → s.keeper.domWork.head? ≠ some 9 → s.inRun = true →
    s.flag R.slSCtrlEn 0 = false → s.flag R.slSCtrlEn 1 = false → ∃ t, exec (.domainWakeDone 9) s = .next t ∧
    t.domOn 9 = true ∧ t.waking 9 = false ∧ t.pins = { s.pins with spanTx := .high } ∧ s.regsBut t [R.pwDomStateOn.key 0 0]) ∧
  (∀ (d : Nat) (s : State), s.switches d = true → s.due (.domain d) = true → d < 26 → s.keeper.domWork.head? ≠ some d →
    ∃ t u : State, exec (.domainSwitchFail d) s = .next t ∧
    u.waking d = false ∧ bitAt (u.reg R.pwDomFailedFailed) d = true ∧ u.domOn d = s.domOn d ∧
    u = { s with regs := u.regs, keeper := { s.keeper with switching := u.keeper.switching }, timers := u.timers } ∧
    s.regsBut u [R.pwDomFailedFailed.key 0 0] ∧ t = u.raise 0x200004 d 2 2) ∧
  (∀ (d : Nat) (s : State), s.waking d = false → exec (.domainWakeDone d) s = .next s) ∧
  (∀ (d : Nat) (s : State), s.switches d = false → exec (.domainSwitchFail d) s = .next s))

/-- O (R201): when PD02 or PD03 switches on, every register of its ports takes its reset value and every filter table is empty. Nothing
else of the ports is held, and no other domain, memory byte or register changes (of EI_AER and the AER handshake nothing is claimed). -/
def Obligations.EventPortsStartFromReset : Prop :=
  (∀ s : State, s.waking 2 = true → s.keeper.domWork.head? ≠ some 2 → ∃ t, exec (.domainWakeDone 2) s = .next t ∧ t.domOn 2 = true ∧ t.waking 2 = false ∧
    (∀ (r : Row) (i j : Nat), 8 * 0x400000 ≤ r.key i j → r.key i j < 8 * 0x402000 → t.reg r i j = r.resetAt i) ∧
    (∀ n, n < 2 → (t.port n).hot = [] ∧ (t.port n).refract = [] ∧ (t.port n).glint = []) ∧
    t.ei = { s.ei with ports := (s.ei.ports.set 0 {}).set 1 {} } ∧
    (∀ (r : Row) (i j : Nat), r.key i j < 8 * 0x400000 ∨ 8 * 0x402000 ≤ r.key i j → r.key i j ≠ R.pwDomStateOn.key 0 0 →
      t.reg r i j = s.reg r i j) ∧ (∀ e, e < 26 → e ≠ 2 → t.domOn e = s.domOn e) ∧
    t = { s with regs := t.regs, keeper := { s.keeper with switching := t.keeper.switching }, timers := t.timers, ei := t.ei }) ∧
  (∀ s : State, s.waking 3 = true → s.keeper.domWork.head? ≠ some 3 → ∃ t, exec (.domainWakeDone 3) s = .next t ∧ t.domOn 3 = true ∧ t.waking 3 = false ∧
    (∀ (r : Row) (i j : Nat), 8 * 0x402000 ≤ r.key i j → r.key i j < 8 * 0x406000 → t.reg r i j = r.resetAt i) ∧
    (∀ n, n = 2 ∨ n = 3 → (t.port n).hot = [] ∧ (t.port n).refract = [] ∧ (t.port n).glint = []) ∧
    t.ei = { t.ei with ports := (s.ei.ports.set 2 {}).set 3 {}, thermal := (s.ei.thermal.set 0 none).set 1 none,
                       thermalErr := (s.ei.thermalErr.set 0 []).set 1 [] } ∧
    (∀ (r : Row) (i j : Nat), r.key i j < 8 * 0x402000 ∨ (8 * 0x406000 ≤ r.key i j ∧ r.key i j < 8 * 0x408004) ∨
      8 * 0x408008 ≤ r.key i j → r.key i j ≠ R.pwDomStateOn.key 0 0 → t.reg r i j = s.reg r i j) ∧
    (∀ e, e < 26 → e ≠ 3 → t.domOn e = s.domOn e) ∧
    t = { s with regs := t.regs, keeper := { s.keeper with switching := t.keeper.switching }, timers := t.timers, ei := t.ei })

/-- O (R74, R79, R81, R87, R89, R90): Keeper's sensors. A power sample gives PW_POWER.MW the average of at most 100 samples and the
peak its largest; an average above the member's maximum sets OVER with a fault of severity 1. A junction below 108 °C shows in TJ
and HOT alone; from 108 °C WARN is set with a fault of severity 2; from 115 °C the device trips: core reset, READY low, FAULT_N
asserted. Below 95 °C after a trip GESSO code 8 follows. Every sample while Keeper runs shows in its registers; in reset none does. Choices of the model in it: log entries 10, 5, 21 and 29. -/
def Obligations.KeepersSensors : Prop :=
  (∀ (mw : BitVec 16) (s : State), s.alive = true →
    meanOf ((mw.toNat :: s.keeper.powerHist).take 100) < 2 ^ 16 →
    meanOf ((mw.toNat :: s.keeper.powerHist).take 100) ≤ s.member.maxMw ∨ s.flag R.pwPowerOver = true →
    ∃ t, exec (.powerSample mw) s = .next t ∧ t.reg R.pwPowerMw = meanOf ((mw.toNat :: s.keeper.powerHist).take 100) ∧
      t.reg R.pwPowerPeakMw = max (s.reg R.pwPowerPeakMw) (t.reg R.pwPowerMw) ∧
      t = { s with regs := t.regs, keeper := { s.keeper with powerHist := (mw.toNat :: s.keeper.powerHist).take 100 } } ∧
      s.regsBut t [R.pwPowerMw.key 0 0, R.pwPowerPeakMw.key 0 0]) ∧
  (∀ (mw : BitVec 16) (s : State), s.alive = true → s.flag R.pwPowerOver = false →
    s.member.maxMw < meanOf ((mw.toNat :: s.keeper.powerHist).take 100) → ∃ t u : State, exec (.powerSample mw) s = .next t ∧
      u.reg R.pwPowerOver = 1 ∧ s.regsBut u [R.pwPowerMw.key 0 0, R.pwPowerPeakMw.key 0 0, R.pwPowerOver.key 0 0] ∧
      u = { s with regs := u.regs, keeper := { s.keeper with powerHist := (mw.toNat :: s.keeper.powerHist).take 100 } } ∧
      t = u.raise 0x20001C 16 1 2) ∧
  (∀ (tj : BitVec 12) (s : State), s.alive = true → tj.toInt < 864 ∨ (tj.toInt < 920 ∧ s.flag R.pwTempWarn = true) →
    ∃ t, exec (.tempSample tj) s = .next t ∧ t.reg R.pwTempTj = tj.toNat ∧ t.flag R.pwTempHot = decide (840 ≤ tj.toInt) ∧
      s.onlyRegs t [R.pwTempTj.key 0 0, R.pwTempHot.key 0 0]) ∧
  (∀ (tj : BitVec 12) (s : State), s.alive = true → 864 ≤ tj.toInt → tj.toInt < 920 → s.flag R.pwTempWarn = false →
    ∃ t u : State, exec (.tempSample tj) s = .next t ∧ u.reg R.pwTempTj = tj.toNat ∧ u.reg R.pwTempWarn = 1 ∧
      s.onlyRegs u [R.pwTempTj.key 0 0, R.pwTempHot.key 0 0, R.pwTempWarn.key 0 0] ∧ t = u.raise 0x200018 17 2 2) ∧
  (∀ (tj : BitVec 12) (s : State), s.alive = true → 920 ≤ tj.toInt → s.keeper.mode ≠ .tripped → s.flag R.pwTempWarn = true →
    ∃ t, exec (.tempSample tj) s = .next t ∧ t.keeper.mode = .tripped ∧ t.pins.ready = .low ∧ t.pins.faultN = .low ∧
      t.pins.heartbeat = .low ∧ t.reg R.pwHbReady = 0 ∧ t.reg R.pwHbFault = 1 ∧ t.reg R.pwResetCauseThermal = 1 ∧
      t.devtime = s.devtime ∧ t.lg.faults = s.lg.faults) ∧
  (∀ (tj : BitVec 12) (s : State), s.keeper.mode = .tripped → tj.toInt < 760 → ∃ t, exec (.thermalCooled tj) s = .next t ∧
    t.keeper.mode = .gesso ∧ t.reg R.pwHbCode = 8 ∧ t.reg R.kpBootStep = 15 ∧ t.pins.ready = .low ∧ t.pins.faultN = .low ∧
    t.domOn 1 = true ∧ t.devtime = s.devtime) ∧
  (∀ (mw : BitVec 16) (s : State), s.alive = true → ∃ t, exec (.powerSample mw) s = .next t ∧
    t.reg R.pwPowerMw = meanOf ((mw.toNat :: s.keeper.powerHist).take 100) % 2 ^ 16 ∧ s.reg R.pwPowerPeakMw ≤ t.reg R.pwPowerPeakMw) ∧
  (∀ (tj : BitVec 12) (s : State), s.alive = true → ∃ t, exec (.tempSample tj) s = .next t ∧ t.reg R.pwTempTj = tj.toNat ∧
    t.flag R.pwTempHot = decide (840 ≤ tj.toInt) ∧ (864 ≤ tj.toInt → t.reg R.pwTempWarn = 1) ∧
    (920 ≤ tj.toInt → t.keeper.mode = .tripped)) ∧
  (∀ (tj : BitVec 12) (s : State), s.alive = false → exec (.tempSample tj) s = .next s)

/-- O (R61, R68, R69, R75, R76, R85, R86): resets and HEARTBEAT. RESET_N resets the device in full: every register at its reset
value but the cause PIN, DEVTIME 0, memories of the device forgotten; the part, the store and the host's memory stay. In reset only the
pin is noted. PERST_N takes the PCIe link down and resets nothing else. A due edge of HEARTBEAT in run inverts the pin while the
conditions of R76 hold, and none is made while they do not. Choices of the model in it: log entries 10, 2, 17 and 68. -/
def Obligations.ResetsAndHeartbeat : Prop :=
  (∀ s : State, s.keeper.mode ≠ .reset → ∃ t, exec .resetNAssert s = .next t ∧
    (∀ (r : Row) (i j : Nat), r.key i j ≠ R.pwResetCausePin.key 0 0 → t.reg r i j = r.resetAt i) ∧ t.reg R.pwResetCausePin = 1 ∧
    t.devtime = 0 ∧ t.keeper = {} ∧ t.lg = {} ∧ t.pal = {} ∧ t.cv = {} ∧ t.pp = {} ∧ t.pins.resetN = false ∧ t.pins.ready = .z ∧
    t.pins.faultN = .z ∧ t.pins.heartbeat = .z ∧ t.part = s.part ∧ t.store = s.store ∧ t.hostMem = s.hostMem ∧ t.pending = s.pending) ∧
  (∀ s : State, s.keeper.mode = .reset → exec .resetNAssert s = .next { s with pins := { s.pins with resetN := false } }) ∧
  (∀ s : State, ∃ t, exec .resetNAssert s = .next t ∧ t.keeper.mode = .reset ∧ t.pins.resetN = false) ∧
  (∀ s : State, ∃ t, exec (.perstN true) s = .next t ∧ t.pins = { s.pins with perstN := false } ∧ t.reg R.hiStatusLinkUp = 0 ∧
    t = { s with regs := t.regs, pins := t.pins } ∧
    s.regsBut t [R.hiStatusLinkUp.key 0 0, R.hiStatusGen.key 0 0, R.hiStatusWidth.key 0 0]) ∧
  (∀ s : State, exec (.perstN false) s = .next { s with pins := { s.pins with perstN := true } }) ∧
  (∀ s : State, s.due .heartbeat = true → s.clockRuns = true → s.healthy = true → s.flag R.lgStatusQuiescing = false →
    ∃ t, exec .heartbeatEdge s = .next t ∧ t.pins = { s.pins with heartbeat := if s.pins.heartbeat = .high then .low else .high } ∧
      t.reg R.pwHbMode = (if s.flag R.kpAgreeUntestedLatch then 2 else 1) ∧
      t = { s with regs := t.regs, pins := t.pins, timers := t.timers } ∧ s.regsBut t [R.pwHbMode.key 0 0]) ∧
  (∀ s : State, s.due .heartbeat = true → s.clockRuns = true → s.inRun = true → s.healthy = false →
    s.flag R.lgStatusQuiescing = false → ∃ t, exec .heartbeatEdge s = .next t ∧ t.pins = s.pins ∧ t.reg R.pwHbMode = 0 ∧
      t = { s with regs := t.regs, timers := t.timers } ∧ s.regsBut t [R.pwHbMode.key 0 0]) ∧
  (∀ s : State, s.due .heartbeat = false → exec .heartbeatEdge s = .next s)

/-! ## Bring-up and the Keeper store (R67 to R69, R82, R89, R91 to R117) -/

/-- O (R67, R68, R91, R94): reset exit. With the other reset released, the release of RESET_N or of the power-on reset samples the
straps and brings Keeper to the wait of K4 on a host interface, to GESSO code 1 where the straps name none, and to GESSO code 9 where
external memory fails; with the other one still asserted the device stays in reset.
Choices of the model in it: log entries 10, 12 and 27. -/
def Obligations.ResetExit : Prop :=
  (∀ (b : BitVec 2) (s : State), s.keeper.mode = .reset → s.pins.resetN = false → s.pins.porReleased = true → b.toNat < 2 →
    ∃ t, exec (.resetNRelease b true) s = .next t ∧ t.keeper.mode = .waitGo ∧ t.pins.resetN = true ∧ t.reg R.kpBootStep = 4 ∧
      t.reg R.kpBootSource = b.toNat ∧ t.reg R.pwHbBootSel = b.toNat ∧ t.pins.ready = .low ∧ t.pins.heartbeat = .low ∧
      alGet t.timers .bootWait = some (s.devtime + 5000000000) ∧ t.domOn 1 = true ∧ t.domOn 4 = true ∧ t.domOn 6 = true) ∧
  (∀ (b : BitVec 2) (s : State), s.keeper.mode = .reset → s.pins.porReleased = false → s.pins.resetN = true → b.toNat < 2 →
    ∃ t, exec (.powerOnResetRelease b true) s = .next t ∧ t.keeper.mode = .waitGo ∧ t.pins.porReleased = true ∧
      t.reg R.kpBootStep = 4 ∧ t.reg R.kpBootSource = b.toNat ∧ alGet t.timers .bootWait = some (s.devtime + 5000000000)) ∧
  (∀ (b : BitVec 2) (s : State), s.keeper.mode = .reset → s.pins.resetN = false → s.pins.porReleased = true → 2 ≤ b.toNat →
    ∃ t, exec (.resetNRelease b true) s = .next t ∧ t.keeper.mode = .gesso ∧ t.reg R.pwHbCode = 1) ∧
  (∀ (b : BitVec 2) (s : State), s.keeper.mode = .reset → s.pins.resetN = false → s.pins.porReleased = true →
    ∃ t, exec (.resetNRelease b false) s = .next t ∧ t.keeper.mode = .gesso ∧ t.reg R.pwHbCode = 9) ∧
  (∀ (b : BitVec 2) (m : Bool) (s : State), s.keeper.mode = .reset → s.pins.resetN = false → s.pins.porReleased = false →
    exec (.resetNRelease b m) s = .next { s with pins := { s.pins with resetN := true } } ∧
    exec (.powerOnResetRelease b m) s = .next { s with pins := { s.pins with porReleased := true } })

/-- O (R69, R82, R89, R90, R115): brown-outs and Keeper's watchdog. A brown-out of VDD_AON resets the device in full and holds it in
reset; one of another rail resets the core and stops it for the hold, or leads to GESSO code 8 the third time in 10 s; after a thermal
trip the device stays tripped. A check of
the rails while nothing is held shows them; with all rails in range the held core reboots, and 100 ms after the reset a rail that is out leads to GESSO code 8. Keeper's watchdog resets
in full with its cause, and the device leaves reset at once. Choices of the model in it: log entries 10, 12, 17 and 28. -/
def Obligations.BrownOutsAndKeepersWatchdog : Prop :=
  (∀ s : State, ∃ t, exec (.railBrownout .aon) s = .next t ∧ t.reg R.pwResetCausePor = 1 ∧ t.devtime = 0 ∧
    t.keeper = {} ∧ t.pins.porReleased = false ∧ t.lg = {} ∧ t.part = s.part ∧ t.store = s.store) ∧
  (∀ (r : Rail) (s : State), r ≠ .aon → s.alive = true → s.keeper.mode ≠ .tripped →
    (s.keeper.brownouts.filter fun t => decide (s.devtime < t + 10000000000)).length < 2 →
    ∃ t, exec (.railBrownout r) s = .next t ∧ t.keeper.mode = .stopped ∧ t.reg R.pwResetCauseBrownout = 1 ∧
      bitAt (t.reg R.pwRailOk) (railBit r) = false ∧ bitAt (t.reg R.pwRailBrown) (railBit r) = true ∧
      alGet t.timers .brownHold = some (s.devtime + 100000000) ∧ t.devtime = s.devtime ∧ t.lg.faults = s.lg.faults) ∧
  (∀ (r : Rail) (s : State), r ≠ .aon → s.alive = true → s.keeper.mode ≠ .tripped →
    2 ≤ (s.keeper.brownouts.filter fun t => decide (s.devtime < t + 10000000000)).length →
    ∃ t, exec (.railBrownout r) s = .next t ∧ t.keeper.mode = .gesso ∧ t.reg R.pwHbCode = 8) ∧
  (∀ (r : Rail) (s : State), r ≠ .aon → s.keeper.mode = .tripped → ∃ t, exec (.railBrownout r) s = .next t ∧ t.keeper.mode = .tripped ∧
    t.reg R.pwResetCauseBrownout = 1 ∧ bitAt (t.reg R.pwRailOk) (railBit r) = false ∧ t.domOn 1 = false) ∧
  (∀ (v : BitVec 6) (m : Bool) (s : State), s.alive = true → s.keeper.mode ≠ .stopped →
    ∃ t, exec (.brownoutHoldCheck v m) s = .next t ∧ t.reg R.pwRailOk = v.toNat ∧ s.onlyRegs t [R.pwRailOk.key 0 0]) ∧
  (∀ (v : BitVec 6) (m : Bool) (s : State), s.keeper.mode = .stopped → s.due .brownHold = true → v.toNat ≠ 63 →
    ∃ t, exec (.brownoutHoldCheck v m) s = .next t ∧ t.keeper.mode = .gesso ∧ t.reg R.pwHbCode = 8 ∧ t.reg R.pwRailOk = v.toNat) ∧
  (∀ (m : Bool) (s : State), s.keeper.mode = .stopped → s.armed .brownHold = true →
    ∃ t u : State, exec (.brownoutHoldCheck 63 m) s = .next t ∧ u.reg R.pwRailOk = 63 ∧ u.armed .brownHold = false ∧
      u = { s with regs := u.regs, timers := u.timers } ∧ s.regsBut u [R.pwRailOk.key 0 0] ∧ t = u.coreReboot m) ∧
  (∀ (b : BitVec 2) (s : State), s.alive = true → s.pins.resetN = true → s.pins.porReleased = true → b.toNat < 2 →
    ∃ t, exec (.keeperWd b true) s = .next t ∧ t.reg R.pwResetCauseKeeperWd = 1 ∧ t.devtime = 0 ∧ t.keeper.mode = .waitGo ∧
      t.reg R.kpBootStep = 4 ∧ t.lg = {} ∧ (s.keeper.k8Boot = false → t.store = s.store))

/-- O (R78, R92 to R94, R106, R109, R113, R115, R117): GO and KP_CTRL. A GO that does not reach KP_BOOT or comes over an interface
that the straps exclude changes nothing; one while Keeper boots is ignored and noted; one in K4's wait with no boot set in the
staging region leads to GESSO code 5. No GO for 5 s leads to GESSO code 1. ALLOW_UNTESTED is set only in GESSO or the wait, with its
fuse clear; BANK_CLR clears exclusions and PREFER_B chooses the bank, in the Keeper store.
Choices of the model in it: log entries 10, 12 and 27. -/
def Obligations.GoAndKeeperControl : Prop :=
  (∀ (via : Iface) (s : State), s.writeReaches 0x10 via = true → s.bootIface via = true →
    (s.keeper.mode = .waitGo ∨ (s.keeper.mode = .gesso ∧ s.reg R.pwHbCode ∈ [1, 2, 3, 5]) → ∃ t, exec (.bootGo via) s = .next t ∧
      (t.keeper.mode = .booting ∨ t.keeper.mode = .gesso)) ∧
    (s.keeper.mode ∈ [Mode.run, .stopped, .tripped] ∨ (s.keeper.mode = .gesso ∧ s.reg R.pwHbCode ∉ [1, 2, 3, 4, 5]) →
      exec (.bootGo via) s = .next (s.setCmd R.kpBootGo))) ∧
  (∀ (via : Iface) (s : State), s.writeReaches 0x10 via = false ∨ s.bootIface via = false → exec (.bootGo via) s = .next s) ∧
  (∀ (via : Iface) (s : State), s.writeReaches 0x10 via = true → s.bootIface via = true → s.keeper.mode = .booting →
    ∃ t, exec (.bootGo via) s = .next t ∧ t.reg R.kpBootGoIgnored = 1 ∧ s.onlyRegs t [R.kpBootGoIgnored.key 0 0, R.kpBootGo.key 0 0]) ∧
  (∀ (via : Iface) (s : State), s.writeReaches 0x10 via = true → s.bootIface via = true → s.keeper.mode = .waitGo →
    bootDir s.ext = none → ∃ t, exec (.bootGo via) s = .next t ∧ t.keeper.mode = .gesso ∧ t.reg R.pwHbCode = 5 ∧
      t.reg R.cvRejectValid = 1 ∧ t.reg R.cvRejectCheck = 6) ∧
  (∀ s : State, s.keeper.mode = .waitGo → s.due .bootWait = true → ∃ t, exec .bootWaitExpire s = .next t ∧
    t.keeper.mode = .gesso ∧ t.reg R.pwHbCode = 1 ∧ t.armed .bootWait = false) ∧
  (∀ (via : Iface) (s : State), s.writeReaches 0x14 via = true → s.bootIface via = true →
    (∃ t, exec (.allowUntested false via) s = .next t ∧ t.reg R.kpCtrlAllowUntested = 0 ∧
      s.onlyRegs t [R.kpCtrlAllowUntested.key 0 0]) ∧
    (s.inGesso = true ∨ s.keeper.mode = .waitGo → s.part.untestedLock = false → ∃ t, exec (.allowUntested true via) s = .next t ∧
      t.reg R.kpCtrlAllowUntested = 1 ∧ s.onlyRegs t [R.kpCtrlAllowUntested.key 0 0]) ∧
    ((s.inGesso = false ∧ s.keeper.mode ≠ .waitGo) ∨ s.part.untestedLock = true → exec (.allowUntested true via) s = .next s) ∧
    (∀ a b : Bool, ∃ t, exec (.bankClr a b via) s = .next t ∧ t = { s with regs := t.regs, store := { s.store with
      bankA := { s.store.bankA with excluded := s.store.bankA.excluded && !a },
      bankB := { s.store.bankB with excluded := s.store.bankB.excluded && !b } } } ∧ s.regsBut t [R.kpCtrlBankClr.key 0 0]) ∧
    (∀ on : Bool, exec (.preferB on via) s = .next { s with store := { s.store with preferB := on } }))

/-! ## CANVAS, HANG, drain and mesh (R17 to R21, R118 to R147) -/

/-- O (R133, R135, R142, R143, R145): the loader's commands. A LOAD while a HANG pends or a load is in progress is refused with
check 0x0F; one while DRAINING waits and begins when the drain has ended; outside run nothing happens. A HANG request pends where
a CANVAS is staged and else sets HANG_NONE. UNSTAGE during a load waits for it; else EASEL is empty after it.
Choices of the model in it: log entries 10 and 26. -/
def Obligations.LoaderCommands : Prop :=
  (∀ s : State, s.inRun = false → ∃ t, exec .loadCanvas s = .next t ∧ (s.alive = true → t.reg R.cvCmdLoad = 1) ∧
    s.onlyRegs t [R.cvCmdLoad.key 0 0]) ∧
  (∀ s : State, s.inRun = true → s.flag R.cvStatusHangPend = true ∨ s.flag R.cvStatusLoadBusy = true →
    ∃ t u : State, exec .loadCanvas s = .next t ∧ u = (s.setCmd R.cvCmdLoad).takeItem 0 ∧ u.live (s.nextItem 0) = true ∧
      t = (((u.setReg R.cvRejectCheck 0x0F).setReg R.cvRejectIndex 0).setReg R.cvRejectValid 1).report (s.nextItem 0) 0x0F 2 0x0F) ∧
  (∀ s : State, s.inRun = true → s.flag R.cvStatusHangPend = false → s.flag R.cvStatusLoadBusy = false →
    s.flag R.cvStatusDraining = true → ∃ t, exec .loadCanvas s = .next t ∧ t.cv = { s.cv with loadWaits := some (s.nextItem 0) } ∧
      t.reg R.cvStatusLoadBusy = 1 ∧ t.live (s.nextItem 0) = true ∧ t = { s with regs := t.regs, cv := t.cv, lg := t.lg } ∧
      s.regsBut t [R.cvStatusLoadBusy.key 0 0, R.cvCmdLoad.key 0 0]) ∧
  (∀ s : State, s.inRun = true → s.flag R.cvStatusHangPend = false → s.flag R.cvStatusLoadBusy = false →
    s.flag R.cvStatusDraining = false → exec .loadCanvas s = .next (((s.setCmd R.cvCmdLoad).takeItem 0).beginLoad (s.nextItem 0))) ∧
  (∀ (i : ItemId) (s : State), s.cv.loadWaits = some i → s.flag R.cvStatusDraining = false →
    exec .loadDeferredStart s = .next (({ s with cv := { s.cv with loadWaits := none } } : State).beginLoad i)) ∧
  (∀ s : State, s.cv.loadWaits = none ∨ s.flag R.cvStatusDraining = true → exec .loadDeferredStart s = .next s) ∧
  (∀ s : State, s.flag R.cvStatusStaged = true → ∃ t, exec .hangRequest s = .next t ∧ t.reg R.cvStatusHangPend = 1 ∧
    s.onlyRegs t [R.cvStatusHangPend.key 0 0, R.cvCmdHang.key 0 0]) ∧
  (∀ s : State, s.flag R.cvStatusStaged = false → ∃ t, exec .hangRequest s = .next t ∧ t.reg R.cvStatusHangNone = 1 ∧
    s.onlyRegs t [R.cvStatusHangNone.key 0 0, R.cvCmdHang.key 0 0]) ∧
  (∀ s : State, s.flag R.cvStatusLoadBusy = true → ∃ t, exec .unstage s = .next t ∧
    t = { s with regs := t.regs, cv := { s.cv with unstageWaits := true } } ∧ s.regsBut t [R.cvCmdUnstage.key 0 0]) ∧
  (∀ (e : Easel) (s : State), s.flag R.cvStatusLoadBusy = false → s.cv.easel = some e → e.quadsOn = [] →
    ∃ t, exec .unstage s = .next t ∧ t.cv = { s.cv with easel := none, initAt := none } ∧ t.reg R.cvStatusStaged = 0 ∧
      t.reg R.cvStatusHangPend = 0 ∧ t.reg R.cvStagedIdId = 0 ∧ t = { s with regs := t.regs, cv := t.cv } ∧
      s.regsBut t ([R.cvStatusStaged.key 0 0, R.cvStatusPlanStaged.key 0 0, R.cvStatusHangPend.key 0 0, R.cvStatusInitHeld.key 0 0,
        R.cvStagedIdId.key 0 0, R.cvHangCostUs.key 0 0, R.cvCmdUnstage.key 0 0] ++ keysOf R.cvRoleERole))

/-- O (R107, R133, R136, R147): a load whose quads are on stages its CANVAS and completes its item; a bad router ends it with check
0x06 and a fault. At a step seam a requested HANG makes the staged CANVAS active in one action: EASEL is empty, the old CANVAS drains,
HANG_PEND clears and the count grows. Choices of the model in it: log entries 10, 26 and 41. -/
def Obligations.StagingAndHang : Prop :=
  (∀ (e : Easel) (bad : Option Nat) (s : State), s.cv.loading = some e → (e.quadsOn.all fun q => s.domOn (10 + q)) = true →
    ∃ t, exec (.canvasStaged bad) s = .next t ∧ t.cv.loading = none ∧ t.reg R.cvStatusLoadBusy = 0) ∧
  (∀ (e : Easel) (s : State), s.cv.loading = some e → (e.quadsOn.all fun q => s.domOn (10 + q)) = true → e.untested = false →
    s.cv.unstageWaits = false → ∃ t u : State, exec (.canvasStaged none) s = .next t ∧
      u.cv = { s.cv with loading := none, easel := some e } ∧ u.reg R.cvStatusStaged = 1 ∧ u.reg R.cvStatusLoadBusy = 0 ∧
      u.reg R.cvStatusPlanStaged = ofFlag e.plan.isSome ∧ u.reg R.cvStagedIdId = e.canvas.id % 2 ^ R.cvStagedIdId.width ∧
      u = { s with regs := u.regs, cv := u.cv } ∧
      s.regsBut u ([R.cvStatusStaged.key 0 0, R.cvStatusPlanStaged.key 0 0, R.cvStatusLoadBusy.key 0 0, R.cvStagedIdId.key 0 0,
        R.cvHangCostUs.key 0 0] ++ keysOf R.cvRoleERole) ∧ t = u.complete e.item 6) ∧
  (∀ (e : Easel) (r : Nat) (s : State), s.cv.loading = some e → e.quadsOn = [] → s.cv.unstageWaits = false →
    ∃ t u : State, exec (.canvasStaged (some r)) s = .next t ∧ u = (({ s with cv := { s.cv with loading := none } } : State).rejectLoad
        e.item 2 0x06 r).raise 0x800030 8 2 6 ∧
      t = (u.setReg R.cvStatusLoadBusy 0).freeInit) ∧
  (∀ (e : Easel) (s : State), s.atStepSeam = true → s.hangReady = true → s.cv.easel = some e →
    ∃ t, exec .hangEffect s = .next t ∧ t.cv.active = some e.canvas ∧ t.cv.easel = none ∧ t.cv.draining = s.cv.active ∧
      t.reg R.cvStatusHangPend = 0 ∧ t.reg R.cvStatusActive = 1 ∧ t.reg R.cvStatusDraining = 1 ∧
      t.cv.takers = s.roleChanges e.canvas ∧ t.ext = s.ext ∧ t.devtime = s.devtime) ∧
  (∀ s : State, s.atStepSeam = false ∨ s.hangReady = false → exec .hangEffect s = .next s)

/-- O (R15, R16, R32, R138, R140, R144, R146, R283): the drain. It ends when no packet of the old epoch is left, or at its bound, when
the routers discard what is left; tiles then take their roles, one command each, and DRAINING clears with the last.
Choices of the model in it: log entries 10, 5 and 41. -/
def Obligations.DrainAndRoles : Prop :=
  (∀ s : State, s.flag R.cvStatusDraining = true → s.cv.drained = false → s.reg R.cvEpochDrainCount = 0 →
    ∃ t, exec .epochDrainEnd s = .next t ∧ t.cv.drained = true ∧ t.cv.draining = none ∧ t.armed .drain = false ∧
      t.reg R.cvLastDrainAborts = 0 ∧ 
      t.reg R.cvLastDrainUs = satTo 0xFFFF (openDiv 148 ((s.devtime - s.cv.drainFrom : Nat) : Int) 1000).toNat ∧
      t.cv.takers = s.cv.takers) ∧
  (∀ s : State, s.flag R.cvStatusDraining = false ∨ s.cv.drained = true ∨ s.reg R.cvEpochDrainCount ≠ 0 →
    exec .epochDrainEnd s = .next s) ∧
  (∀ s : State, s.flag R.cvStatusDraining = true → s.cv.drained = false → s.due .drain = true →
    ∃ t, exec .drainTimeout s = .next t ∧ t.cv.drained = true ∧
      t.mesh.packets = s.mesh.packets.filter (fun p => decide (p.epoch = s.reg R.cvStatusEpoch)) ∧
      t.mesh.atLocal = s.mesh.atLocal.filter (fun p => decide (p.epoch = s.reg R.cvStatusEpoch)) ∧
      t.reg R.cvEpochDrainCount = 0) ∧
  (∀ (c : Canvas) (t : Nat) (s : State), s.cv.active = some c → s.cv.drained = true → t ∈ s.cv.takers → t < 64 → s.roles.length = 64 →
    ∃ u, exec (.tileRoleTake t) s = .next u ∧ u.role t = c.role t ∧ t ∉ u.cv.takers ∧
      (∀ n, n ≠ t → u.role n = s.role n) ∧ u.ext = s.ext ∧ u.scratch = s.scratch ∧ u.hostMem = s.hostMem ∧ u.lg = s.lg) ∧
  (∀ (t : Nat) (s : State), s.cv.active = none ∨ s.cv.drained = false ∨ t ∉ s.cv.takers → exec (.tileRoleTake t) s = .next s)

/-- O (R17, R19 to R21, R121, R123, R129): the mesh. A VC0 packet that no earlier one blocks moves whole to the next router on its XY
path, or to the local port at its destination; a packet of another channel goes to every port of its entry, in order; without an
entry, and in a quad that is off, it waits. A packet of a move is taken by the tile that it reaches. A packet that has waited its ESC_WAIT at a dependency of an escape channel
continues on VC0 to the entry's DEST, and before that stays.
Choices of the model in it: log entries 10, 11 and 41. -/
def Obligations.MeshRouting : Prop :=
  (∀ (k : Nat) (p : Packet) (s : State), s.mesh.packets[k]? = some p → s.behind k p = false → p.vc = 0 →
    s.domOn (10 + s.quadOf p.tile) = true → p.load = none →
    ∃ t, exec (.meshPacketRoute k) s = .next t ∧
      (∀ n, s.neighbour p.tile ((s.xyPort p.tile p.dest).getD 4) = some n →
        t.mesh = { s.mesh with packets := s.mesh.packets.eraseIdx k ++ [{ p with tile := n, since := s.devtime }] }) ∧
      (s.neighbour p.tile ((s.xyPort p.tile p.dest).getD 4) = none →
        t.mesh = { packets := s.mesh.packets.eraseIdx k,
                   atLocal := s.mesh.atLocal ++ [{ p with vc := p.escPort.getD 0, escPort := none }] }) ∧
      t = { s with regs := t.regs, mesh := t.mesh } ∧ s.regsBut t [R.cvEpochDrainCount.key 0 0]) ∧
  (∀ (k : Nat) (p : Packet) (l : MoveLoad) (s : State), s.mesh.packets[k]? = some p → s.behind k p = false →
    s.routePorts p = some [4] → s.domOn (10 + s.quadOf p.tile) = true → p.load = some l → ∃ t u : State,
      exec (.meshPacketRoute k) s = .next t ∧ u = { s with mesh := { s.mesh with packets := s.mesh.packets.eraseIdx k } } ∧
      t = (u.takeMove p.tile p l).refreshDrain) ∧
  (∀ (k : Nat) (p : Packet) (c : Canvas) (e : RouteRec) (s : State), s.mesh.packets[k]? = some p → s.behind k p = false →
    s.domOn (10 + s.quadOf p.tile) = true → p.load = none → p.vc ≠ 0 → s.bankOf p.epoch = some c → c.lookup p.tile p.key p.vc = some e → ∃ t, exec (.meshPacketRoute k) s = .next t ∧
      t.mesh.packets.length + t.mesh.atLocal.length + 1 = s.mesh.packets.length + s.mesh.atLocal.length + (outPorts e.out).length ∧
      t = { s with regs := t.regs, mesh := t.mesh } ∧ s.regsBut t [R.cvEpochDrainCount.key 0 0]) ∧
  (∀ (k : Nat) (p : Packet) (s : State), s.mesh.packets[k]? = some p → s.behind k p = true ∨ s.routePorts p = none ∨ s.domOn (10 + s.quadOf p.tile) = false →
    exec (.meshPacketRoute k) s = .next s) ∧
  (∀ (k : Nat) (p : Packet) (c : Canvas) (e : RouteRec) (d : DepRec) (s : State), s.mesh.packets[k]? = some p → p.vc = 2 ∨ p.vc = 3 →
    s.bankOf p.epoch = some c → c.lookup p.tile p.key p.vc = some e →
    (c.deps.find? fun d => d.tile == p.tile && bitAt e.out d.port && d.vc == p.vc) = some d →
    (p.since + s.scaled (100 * d.wait) ≤ s.devtime → exec (.escapeDivert k) s = .next { s with mesh := { s.mesh with
      packets := s.mesh.packets.set k { p with vc := 0, dest := e.dest, escPort := some p.vc, since := s.devtime } } }) ∧
    (s.devtime < p.since + s.scaled (100 * d.wait) → exec (.escapeDivert k) s = .next s))

/-! ## The plan processor (R149 to R175) -/

/-- O (R149, R150, R156, R169, R173): a scalar operation that has issued completes; it writes at most its register D, S0 stays 0, and every other
scalar register, memory byte and register field stays. NOP writes nothing; an integer operation, a status read, a scratch or memory
load gives D its value. The bundle may then be complete, and may owe a trace packet; no bundle past its bound is
supposed here, but for one clause. The operations of the
Lemmet documentation are opaque (notes/assumptions/6.md).
A scalar store writes register B to the bytes at A + IMM and to no other byte of any memory; a scratch load
whose parity fails gives D a free value and halts the plan with cause 3 after the bundle.
Branches: a conditional branch that is taken and a LOOP whose A is not 0 after the decrement and
whose count is below its cap set the index of the next bundle to IMM[19:0]; one not taken leaves it. A LOOP that falls through
forgets its count, and at its cap sets CLAMP with a fault of severity 1. Choices of the model in it: log entries 10, 6 and 33. -/
def Obligations.ScalarOperations : Prop :=
  ((∀ (n i sc : Nat) (s : State), s.pp.scalar = some (n, i, sc) → s.pp.sregs.length = 32 →
    (s.pp.issued.all fun e => !s.isLate e) = true →
    (bits sc 7 0 = 0 → ∃ t, exec .scalarNop s = .next t ∧ t.pp.scalar = none ∧ t.pp.sregs = s.pp.sregs ∧
      t = { s with pp := t.pp, hi := { s.hi with traceDue := t.hi.traceDue } }) ∧
    (1 ≤ bits sc 7 0 → bits sc 7 0 ≤ 0x1F → ∃ t, exec .integerOp s = .next t ∧ t.pp.scalar = none ∧
      (∀ m, t.sreg m = if m = bits sc 12 8 ∧ m ≠ 0 then Config.intOp (scOp sc) (s.scA sc) (s.scB sc) (scImm sc) else s.sreg m) ∧
      t = { s with pp := t.pp, hi := { s.hi with traceDue := t.hi.traceDue } }) ∧
    (0x38 ≤ bits sc 7 0 → bits sc 7 0 ≤ 0x3F → ∃ t, exec .statusRead s = .next t ∧ t.pp.scalar = none ∧
      (∀ m, t.sreg m =
        if m = bits sc 12 8 ∧ m ≠ 0 then s.statusWord (Config.statusSelect (scOp sc) (scImm sc)) else s.sreg m) ∧
      t = { s with pp := t.pp, hi := { s.hi with traceDue := t.hi.traceDue } }) ∧
    (0x20 ≤ bits sc 7 0 → bits sc 7 0 ≤ 0x2F → Config.scratchStores (scOp sc) = false →
      ∃ t, exec (.scratchAccess false) s = .next t ∧ t.pp.scalar = none ∧
        (∀ m, t.sreg m = if m = bits sc 12 8 ∧ m ≠ 0 then
          scratchValue (scOp sc) (scratchBytes (bits sc 7 0)) (s.scratch.readNat (s.scalarAddr sc) (scratchBytes (bits sc 7 0)))
          else s.sreg m) ∧
        t = { s with pp := t.pp, hi := { s.hi with traceDue := t.hi.traceDue } }) ∧
    (∀ p, 0x30 ≤ bits sc 7 0 → bits sc 7 0 ≤ 0x37 → s.pp.plan = some p → Config.memKind (scOp sc) % 3 < 2 →
      ∃ t, exec .memoryLoadStore s = .next t ∧ t.pp.scalar = none ∧
        (∀ m, t.sreg m = if m = bits sc 12 8 ∧ m ≠ 0 then
          BitVec.ofNat 64 (s.ext.readNat (s.scalarAddr sc + if Config.memKind (scOp sc) % 3 = 0 then p.addr + p.dataOff else 0) 8)
          else s.sreg m) ∧
        t = { s with pp := t.pp, hi := { s.hi with traceDue := t.hi.traceDue } })) ∧
  (∀ (n i sc : Nat) (s : State), s.pp.scalar = some (n, i, sc) → s.pp.sregs.length = 32 →
    (s.pp.issued.all fun e => !s.isLate e) = true →
    (∀ pf, 0x20 ≤ bits sc 7 0 → bits sc 7 0 ≤ 0x2F → Config.scratchStores (scOp sc) = true →
      ∃ t, exec (.scratchAccess pf) s = .next t ∧ t.pp.scalar = none ∧ t.pp.sregs = s.pp.sregs ∧
        t.scratch.readBytes (s.scalarAddr sc) (scratchBytes (bits sc 7 0)) =
          leBytes (scratchBytes (bits sc 7 0)) (s.scB sc).toNat ∧
        (∀ a, a < s.scalarAddr sc ∨ s.scalarAddr sc + scratchBytes (bits sc 7 0) ≤ a → t.scratch.read a = s.scratch.read a) ∧
        t = { s with pp := t.pp, scratch := t.scratch, hi := { s.hi with traceDue := t.hi.traceDue } }) ∧
    (∀ p, 0x30 ≤ bits sc 7 0 → bits sc 7 0 ≤ 0x37 → s.pp.plan = some p → Config.memKind (scOp sc) % 3 = 2 →
      ∃ t, exec .memoryLoadStore s = .next t ∧ t.pp.scalar = none ∧ t.pp.sregs = s.pp.sregs ∧
        t.ext.readBytes (s.scalarAddr sc) 8 = leBytes 8 (s.scB sc).toNat ∧
        (∀ a, a < s.scalarAddr sc ∨ s.scalarAddr sc + 8 ≤ a → t.ext.read a = s.ext.read a) ∧
        t = { s with pp := t.pp, ext := t.ext, hi := { s.hi with traceDue := t.hi.traceDue } }) ∧
    (0x20 ≤ bits sc 7 0 → bits sc 7 0 ≤ 0x2F → Config.scratchStores (scOp sc) = false →
      ∃ t u : State, exec (.scratchAccess true) s = .next t ∧ u.pp.scalar = none ∧
        (∀ m, u.sreg m = if m = bits sc 12 8 ∧ m ≠ 0 then Config.freeWord s.freeCtr else s.sreg m) ∧
        u.scratch = s.scratch ∧ u.ext = s.ext ∧ u.regs = s.regs ∧ t = u.haltPlan 3 i))) ∧
  (∀ (n i sc : Nat) (s : State), s.pp.scalar = some (n, i, sc) → s.pp.sregs.length = 32 →
    (s.pp.issued.all fun e => !s.isLate e) = true →
    (0x40 ≤ bits sc 7 0 → bits sc 7 0 ≤ 0x47 → ∃ t, exec .conditionalBranch s = .next t ∧ t.pp.scalar = none ∧
      t.reg R.ppBundleIndex = (if Config.branchTaken (scOp sc) (s.scA sc) (s.scB sc) then branchTarget sc
        else s.reg R.ppBundleIndex) ∧ t.pp.sregs = s.pp.sregs ∧
      t = { s with regs := t.regs, pp := t.pp, hi := { s.hi with traceDue := t.hi.traceDue } } ∧
      s.regsBut t [R.ppBundleIndex.key 0 0]) ∧
    (bits sc 7 0 = 0x48 → bits sc 17 13 ≠ 0 → s.scA sc ≠ 1 → (alGet s.pp.loops i).getD 0 < bits sc 63 52 →
      ∃ t, exec .loopOp s = .next t ∧ t.pp.scalar = none ∧ t.scA sc = s.scA sc - 1 ∧
        alGet t.pp.loops i = some ((alGet s.pp.loops i).getD 0 + 1) ∧ t.reg R.ppBundleIndex = branchTarget sc ∧
        t = { s with regs := t.regs, pp := t.pp, hi := { s.hi with traceDue := t.hi.traceDue } } ∧
        s.regsBut t [R.ppBundleIndex.key 0 0]) ∧
    (bits sc 7 0 = 0x48 → bits sc 17 13 = 0 → ∃ t, exec .loopOp s = .next t ∧ t.pp.scalar = none ∧ t.pp.sregs = s.pp.sregs ∧
      alGet t.pp.loops i = none ∧
      t = { s with pp := t.pp, hi := { s.hi with traceDue := t.hi.traceDue } }) ∧
    (bits sc 7 0 = 0x48 → bits sc 17 13 ≠ 0 → s.scA sc = 1 → ∃ t, exec .loopOp s = .next t ∧ t.pp.scalar = none ∧
      t.scA sc = 0 ∧ alGet t.pp.loops i = none ∧
      t = { s with pp := t.pp, hi := { s.hi with traceDue := t.hi.traceDue } }) ∧
    (bits sc 7 0 = 0x48 → bits sc 17 13 ≠ 0 → s.scA sc ≠ 1 → bits sc 63 52 ≤ (alGet s.pp.loops i).getD 0 →
      ∃ t u : State, exec .loopOp s = .next t ∧ alGet u.pp.loops i = none ∧ u.scA sc = s.scA sc - 1 ∧ u.reg R.ppStatusClamp = 1 ∧
        u = { s with regs := u.regs, pp := u.pp } ∧ s.regsBut u [R.ppStatusClamp.key 0 0] ∧
        t = (u.raise 0x900000 2 1 7).scalarDone)) ∧
  (∀ (n i sc : Nat) (s : State), s.pp.scalar = some (n, i, sc) → bits sc 7 0 = 0 → ∃ t u : State, exec .scalarNop s = .next t ∧
    u = { s with pp := { s.pp with scalar := none } } ∧ t = u.closeBundles)

/-- O (R155 to R158, R161, R163, R173): issue. A bundle whose conditions do not hold does not issue. One that may issue, is no seam
and meets no reason to halt takes its serial number, its bound and P_guard, becomes the scalar operation in progress, starts its enabled slot
operations in slot order behind those in progress, and PP_BUNDLE names the next one; one with a reason to halt halts the plan before
it. The slot of the next step begins at its time. Choices of the model in it: log entries 10 and 33. -/
def Obligations.BundleIssue : Prop :=
  (∀ (p : Plan) (b : Nat) (s : State), s.pp.plan = some p → s.nextBundle = some b → s.mayIssue b = false →
    exec .bundleIssue s = .next s) ∧
  (∀ (p : Plan) (b : Nat) (s : State), s.pp.plan = some p → s.nextBundle = some b → s.mayIssue b = true →
    bitAt b 36 = false → bitAt b 37 = false → s.haltBefore p (s.reg R.ppBundleIndex) b (s.reg R.pcLevelLevel) = none →
    ∃ t, exec .bundleIssue s = .next t ∧ t.pp.scalar = some (s.pp.serial, s.reg R.ppBundleIndex, bits b 191 128) ∧
      t.pp.serial = s.pp.serial + 1 ∧ t.pp.issued = s.pp.issued ++ [{
        serial := s.pp.serial, index := s.reg R.ppBundleIndex, at_ := s.devtime, pace := s.pguard,
        bound := boundIn p (s.image p.addr p.len) (s.reg R.ppBundleIndex) }] ∧
      t.reg R.ppBundleIndex = (s.reg R.ppBundleIndex + 1) % 2 ^ 20 ∧
      (t.pp.ops.map (·.word)) = s.pp.ops.map (·.word) ++
        (if bitAt b (32 + s.reg R.pcLevelLevel) then ((List.range 12).map (slotWord b)).filter (fun w => slotClass w ≠ 0) else []) ∧
      t = { s with regs := t.regs, pp := t.pp, lg := t.lg } ∧
      s.regsBut t [R.ppBundleIndex.key 0 0, R.ppFencePending.key 0 0]) ∧
  (∀ (p : Plan) (b c : Nat) (s : State), s.pp.plan = some p → s.nextBundle = some b → s.mayIssue b = true →
    bitAt b 36 = false → bitAt b 37 = false → s.haltBefore p (s.reg R.ppBundleIndex) b (s.reg R.pcLevelLevel) = some c →
    ∃ t, exec .bundleIssue s = .next t ∧ t = s.haltPlan c (s.reg R.ppBundleIndex)) ∧
  (∀ s : State, s.flag R.ppStatusRun = true → s.pp.slotBegun = false → s.pp.startSeam = false → s.nextSlot ≤ s.devtime →
    exec .stepSlotStart s = .next { s with pp := { s.pp with slotBegun := true } }) ∧
  (∀ s : State, s.flag R.ppStatusRun = false ∨ s.pp.slotBegun = true ∨ s.devtime < s.nextSlot → exec .stepSlotStart s = .next s)

/-- O (R159, R160, R163, R173): the end of a slot operation. Its acknowledgement takes it from the operations in progress, and
PP_FENCE shows the fences that the others still signal; an operation that is not FINAL ends no item, and the FINAL one of an item
that lost and poisoned nothing completes it. The first bundle that is past its bound at the highest P_guard since its issue counts as an
overrun once and raises a fault of severity 1. Choices of the model in it: log entries 10, 33 and 34. -/
def Obligations.SlotOperationEnd : Prop :=
  (∀ (k : Nat) (o : SlotOp) (s : State), s.pp.ops[k]? = some o → o.done = true → slotFinal o.word = false →
    (s.pp.issued.all fun e => !s.isLate e) = true →
    ∃ t, exec (.slotOpComplete k) s = .next t ∧ t.pp.ops = s.pp.ops.eraseIdx k ∧
      t.reg R.ppFencePending = ofSet (((s.pp.ops.eraseIdx k).filter fun o => slotFen o.word).map fun o => slotFence o.word) % 2 ^ 32 ∧
      t = { s with regs := t.regs, pp := t.pp, hi := { s.hi with traceDue := t.hi.traceDue } } ∧
      s.regsBut t [R.ppFencePending.key 0 0]) ∧
  (∀ (k : Nat) (o : SlotOp) (s : State), s.pp.ops[k]? = some o → o.done = true → slotFinal o.word = true →
    o.item ∉ s.pal.dropped → o.item ∉ s.pal.poisoned → ∃ t u : State, exec (.slotOpComplete k) s = .next t ∧
      u = { s with pp := { s.pp with ops := s.pp.ops.eraseIdx k } } ∧
      t = ((u.complete o.item (opBlock o.cls)).refreshFences).closeBundles) ∧
  (∀ (k : Nat) (o : SlotOp) (s : State), s.pp.ops[k]? = some o → o.done = false → exec (.slotOpComplete k) s = .next s) ∧
  (∀ (e : Issued) (s : State), s.pp.issued.find? s.isLate = some e →
    ∃ t u : State, exec .bundleOverrun s = .next t ∧ u.reg R.ppOverrunsCount = (s.reg R.ppOverrunsCount + 1) % 2 ^ 32 ∧
      u.reg R.ppOverrunsHiLast = e.index % 2 ^ R.ppOverrunsHiLast.width ∧
      u = { s with regs := u.regs, pp := { s.pp with issued := s.pp.issued.map fun x =>
        if x.serial = e.serial then { x with late := true } else x } } ∧
      s.regsBut u [R.ppOverrunsCount.key 0 0, R.ppOverrunsHiLast.key 0 0] ∧ t = u.raise 0x900024 0 1 7) ∧
  (∀ s : State, s.pp.issued.find? s.isLate = none → exec .bundleOverrun s = .next s)

/-- O (R157, R161, R168): fence sources and render windows. A fence source finishes exactly when its condition holds and changes
nothing else. An open gives every tile of its group that is DENSE, or is to become so, a render side at its priority; a close with no screen tile in progress in
the group takes them away. Choices of the model in it: log entries 10, 33 and 58. -/
def Obligations.FencesAndWindows : Prop :=
  (∀ (k : Nat) (o : SlotOp) (s : State), s.opAt k 4 = some o →
    exec (.fenceSlotStart k) s = .next (if o.sub = 0 ∧ s.nextSlot ≤ s.devtime then s.finishOp k else s) ∧
    exec (.fenceQueueDepth k) s = .next (if o.sub = 1 ∧ o.opnd 56 37 ≤ s.depth o.qid then s.finishOp k else s) ∧
    exec (.fenceMarkerAtHead k) s =
      .next (if o.sub = 2 ∧ (((s.queue o.qid).cells.head?).map (·.marker)) = some true then s.finishOp k else s)) ∧
  (∀ (k : Nat) (o : SlotOp) (s : State), s.opAt k 4 = some o → (s.finishOp k).opAt k 4 = none ∧
    s.finishOp k = { s with pp := { s.pp with ops := s.pp.ops.set k { o with done := true } } }) ∧
  (∀ (k : Nat) (o : SlotOp) (s : State), s.opAt k 8 = some o → o.opnd 24 24 = 0 → ∃ t, exec (.renderWindowOpen k) s = .next t ∧
    alGet t.rd.prios (o.opnd 30 25) = some (o.opnd 33 31) ∧ t.opAt k 8 = none ∧
    (∀ n, n ∈ s.opTiles o (o.opnd 30 25) → (if s.tileWaits n then s.newRole n else s.role n) = 2 →
      (s.tileWaits n = false → t.reg R.deTStatWindow n = 1) ∧ { tile := n, group := o.opnd 30 25 } ∈ t.rd.sides) ∧
    t = { s with regs := t.regs, pp := t.pp, rd := t.rd } ∧ s.regsBut t (keysOf R.deTStatWindow)) ∧
  (∀ (k : Nat) (o : SlotOp) (s : State), s.opAt k 8 = some o → o.opnd 24 24 = 1 →
    (s.rd.sides.any fun x => x.group == o.opnd 30 25 && x.screen.isSome) = false → (s.rd.sides.all fun x => decide (x.tile < 64)) = true →
    ∃ t, exec (.renderWindowClose k) s = .next t ∧ alGet t.rd.prios (o.opnd 30 25) = none ∧ t.opAt k 8 = none ∧
      t.rd.sides = s.rd.sides.filter (fun x => decide (x.group ≠ o.opnd 30 25)) ∧
      t = { s with regs := t.regs, pp := t.pp, rd := t.rd } ∧ s.regsBut t (keysOf R.deTStatWindow))

/-- O (R40, R166, R433, R434): the host step. Without a held GO the operation posts its summary and waits for STEP_GRACE at P_guard;
when the wait ends, HOST_LATE is counted and recorded on the step's first result set and HOST_MIN of the defaults applies, without a HANG and without
expert overrides. A GO
that is held is applied at once. Choices of the model in it: log entries 10, 24 and 33. -/
def Obligations.HostStep : Prop :=
  (∀ (k : Nat) (o : SlotOp) (s : State), s.opAt k 7 = some o → o.begun = false → s.pp.heldGo = none →
    ∃ t u : State, exec (.hostStep k) s = .next t ∧
      u = s.postSummary (leNat (s.opData o (16 * o.opnd 43 24) 16)) o.sreg0 o.sreg1 s.latePrev ∧
      t.pp.hostWait = some o.step ∧ alGet t.timers .grace = some (u.devtime + u.scaled (10 * u.reg R.ppStepGraceGrace)) ∧
      t.pp.ops = u.pp.ops.modify k (fun x => { x with begun := true }) ∧
      t = { u with pp := t.pp, timers := t.timers }) ∧
  (∀ (k : Nat) (o : SlotOp) (g : GoArgs) (i : ItemId) (s : State), s.opAt k 7 = some o → o.begun = false →
    s.pp.heldGo = some (g, i) → ∃ t u : State, exec (.hostStep k) s = .next t ∧ u.pp.overrides = g ∧ u.pp.heldGo = none ∧
      u.pp.hostWait = none ∧ u.pp.hostEnds.head? = some (o.step, .go) ∧
      t = u.answer { stream := streamOf i, item := i, op := 2, args := [] } 0 0) ∧
  (∀ (k step : Nat) (o : SlotOp) (s : State), s.pp.hostWait = some step → s.waitingHost = some k → s.pp.ops[k]? = some o →
    s.due .grace = true → ∃ t u : State, exec .stepGraceExpire s = .next t ∧
      u = (s.bump R.ppHostLateCount).inform s.firstResult 0x08 (s.reg R.pcLevelLevel) 0 ∧
      t = (u.applyGo {
        minValid := (GoArgs.ofBytes (s.opData o (16 * o.opnd 63 44) 56)).minValid,
        hostMin := (GoArgs.ofBytes (s.opData o (16 * o.opnd 63 44) 56)).hostMin }).endHostStep step .defaults) ∧
  (∀ s : State, s.due .grace = false → exec .stepGraceExpire s = .next s)

/-! ## The PALETTE (R226 to R253) and the moves (R300 to R310) -/

/-- O (R231, R233, R234, R236, R237, R240, R243, R246, R250): a push. One that lands puts its cell at the tail of its queue with EOP and EPM as named; one that is
dropped while no marker is linked links the gap marker with COUNT 1 and counts; one from a wrong endpoint sets WRONG_EP and changes no
other state. No other queue and no memory byte changes. A push to the reader that a POP of the empty queue left goes straight to it; in
DROP_PEND cells that end nothing are freed and counted, and an EOP cell goes to the waiting command; a push that meets a failing link
severs the queue and is dropped. Choices of the model in it: log entries 10 and 36. -/
def Obligations.Push : Prop :=
  (∀ (ep q : Nat) (data : Cell64) (item : ItemId) (last epm : Bool) (s : State), s.pushRes ep q last epm = .landed →
    (s.queue q).dropPend = false → (s.queue q).stalled = none → item ∉ s.pal.dropped →
    ∃ t c, exec (.pushCell ep q data item ⟨last, epm⟩ false) s = .next t ∧
      t.depth q = s.depth q + 1 ∧ (t.queue q).cells = (s.queue q).cells ++ [c] ∧ c.data = data ∧ c.dp = parity 64 data.toNat ∧
      c.item = item ∧ c.eop = last ∧ c.epm = epm ∧ c.marker = false ∧
      (t.queue q).markerOpen = false ∧ (∀ n, n ≠ q → t.queue n = s.queue n) ∧ t.freeCtr = s.freeCtr + 1 ∧
      t = { s with
        regs := t.regs, pal := { s.pal with queues := t.pal.queues }, freeCtr := t.freeCtr, timers := t.timers, fu := t.fu,
        pins := { s.pins with xoff := t.pins.xoff } } ∧
      (q ≠ s.reg R.fuCtrlCmdQid → t.fu = s.fu ∧ t.timers = s.timers) ∧
      s.regsBut t [R.qmPoolLowMin.key 0 0, R.eiXoffState.key 0 0]) ∧
  (∀ (ep q : Nat) (data : Cell64) (item : ItemId) (epm : Bool) (s : State), s.pushRes ep q false epm = .dropped →
    (s.queue q).severing = false → (s.queue q).dropPend = false → (s.queue q).markerIn = false → q ≠ 511 → item ∉ s.pal.dropped →
    ∃ t, exec (.pushCell ep q data item ⟨false, epm⟩ false) s = .next t ∧
      (t.queue q).cells = (s.queue q).cells ++ [{ idx := (s.queue q).markerIdx, data := gapMarker s.us s.us 0 1,
                                                  dp := parity 64 (gapMarker s.us s.us 0 1).toNat, marker := true }] ∧
      (t.queue q).markerOpen = true ∧ t.depth q = s.depth q ∧ t.reg R.qmQDropsCount q = (s.reg R.qmQDropsCount q + 1) % 2 ^ 32 ∧
      item ∈ t.pal.dropped ∧ (∀ n, n ≠ q → t.queue n = s.queue n) ∧
      t = { s with regs := t.regs, pal := { s.pal with queues := t.pal.queues, dropped := t.pal.dropped } } ∧
      s.regsBut t [R.qmQDropsCount.key q 0]) ∧
  (∀ (ep q : Nat) (data : Cell64) (item : ItemId) (epm link : Bool) (s : State), s.pushRes ep q false epm = .refused →
    ∃ t, exec (.pushCell ep q data item ⟨false, epm⟩ link) s = .next t ∧ t.reg R.qmStatusWrongEp = 1 ∧
      s.onlyRegs t [R.qmStatusWrongEp.key 0 0]) ∧
  (∀ (ep q e : Nat) (data : Cell64) (item : ItemId) (last epm : Bool) (s : State), s.pushRes ep q last epm = .landed →
    (s.queue q).dropPend = false → (s.queue q).stalled = some (e, false) → (s.queue q).cells = [] →
    s.flag R.qmQCfgRetired q = false → item ∉ s.pal.dropped →
    ∃ t d, exec (.pushCell ep q data item ⟨last, epm⟩ false) s = .next t ∧ (t.queue q).cells = [] ∧ (t.queue q).stalled = none ∧
      t.pal.delivered = some d ∧ d.data = data ∧ d.ep = e ∧ d.qid = q ∧ d.eop = last ∧ d.epm = epm ∧ d.tag = 0 ∧
      (∀ n, n ≠ q → t.queue n = s.queue n) ∧ s.regsBut t [R.eiXoffState.key 0 0]) ∧
  (∀ (ep q : Nat) (data : Cell64) (item : ItemId) (s : State), s.domOn 4 = true → s.hasQueue q = true → ep = s.reg R.qmQEpProd q →
    (s.queue q).severing = false → (s.queue q).dropPend = true → item ∉ s.pal.dropped →
    (∃ t, exec (.pushCell ep q data item ⟨false, false⟩ false) s = .next t ∧ t.depth q = s.depth q ∧
      t.reg R.qmQEvtDropRem q = (s.reg R.qmQEvtDropRem q + 1) % 2 ^ R.qmQEvtDropRem.width ∧
      s.regsBut t [R.qmQEvtDropRem.key q 0]) ∧
    (s.freeCells ≠ 0 → s.dropWaits q = true → (s.queue q).cells = [] → s.flag R.qmQCfgRetired q = false →
      ∃ t d, exec (.pushCell ep q data item ⟨true, false⟩ false) s = .next t ∧ (t.queue q).cells = [] ∧ (t.queue q).dropPend = false ∧
      t.pal.dropOut = s.pal.dropOut ++ [d] ∧ d.data = data ∧ d.eop = true ∧ d.qid = q)) ∧
  (∀ (ep q : Nat) (data : Cell64) (item : ItemId) (epm : Bool) (s : State), s.pushRes ep q false epm ≠ .refused →
    (s.queue q).severing = false → (s.queue q).cells ≠ [] → item ∉ s.pal.dropped →
    ∃ t, exec (.pushCell ep q data item ⟨false, epm⟩ true) s = .next t ∧ (t.queue q).severing = true ∧ t.reg R.qmStatusSever = 1 ∧
      t.armed (.sever q) = true ∧ (t.queue q).cells = (s.queue q).cells ∧ item ∈ t.pal.dropped)

/-- O (R231, R237 to R239): POP and TAKE. The head cell of a queue is delivered with its tag: POISON where its parity fails, MARKER for
the marker cell, else none; a POP frees it, a TAKE holds it and HELD grows. On an empty queue the reader stalls; a wrong endpoint
sets WRONG_EP and changes no other state. Choices of the model in it: log entries 10 and 36. -/
def Obligations.PopAndTake : Prop :=
  (∀ (ep q : Nat) (c : Cell) (rest : List Cell) (s : State), s.popAllowed ep q = true → (s.queue q).severing = false →
    (s.queue q).cells = c :: rest → c.marker = false → s.flag R.qmQCfgRetired q = false →
    ∃ t, exec (.popCell ep q .none) s = .next t ∧ (t.queue q).cells = rest ∧
      t.pal.delivered = some { ep := ep, qid := q, data := c.data, tag := if parity 64 c.data.toNat = c.dp then 0 else 1, eop := c.eop,
                               epm := c.epm, idx := c.idx,
                               item := if q = 0x1FF then c.item else c.itemSeen (if parity 64 c.data.toNat = c.dp then 0 else 1) } ∧
      t.pal.held = s.pal.held ∧ (∀ n, n ≠ q → t.queue n = s.queue n) ∧
      t = { s with regs := t.regs, pal := t.pal, pins := { s.pins with xoff := t.pins.xoff } } ∧ s.regsBut t [R.eiXoffState.key 0 0]) ∧
  (∀ (ep q : Nat) (c : Cell) (rest : List Cell) (s : State), s.popAllowed ep q = true → (s.queue q).severing = false →
    (s.queue q).cells = c :: rest → c.marker = false → s.flag R.qmQCfgRetired q = false →
    s.reg R.qmHoldHeld ep < s.reg R.qmHoldLimit ep → s.reg R.qmHoldLimit ep < 2 ^ 16 → ∃ t, exec (.takeCell ep q .none) s = .next t ∧
      (t.queue q).cells = rest ∧ t.reg R.qmHoldHeld ep = s.reg R.qmHoldHeld ep + 1 ∧
      t.pal.held.map (·.idx) = s.pal.held.map (·.idx) ++ [c.idx] ∧ (∀ n, n ≠ q → t.queue n = s.queue n) ∧
      t = { s with regs := t.regs, pal := t.pal, pins := { s.pins with xoff := t.pins.xoff } } ∧
      s.regsBut t [R.eiXoffState.key 0 0, R.qmHoldHeld.key ep 0]) ∧
  (∀ (ep q : Nat) (c : Cell) (rest : List Cell) (s : State), s.popAllowed ep q = true → (s.queue q).severing = false →
    (s.queue q).cells = c :: rest → c.marker = true → s.reg R.qmQGapCount q = 0 → s.flag R.qmQCfgRetired q = false →
    ∃ t d, exec (.popCell ep q .none) s = .next t ∧ (t.queue q).cells = rest ∧ t.pal.delivered = some d ∧ d.data = c.data ∧
      d.tag = (if parity 64 c.data.toNat = c.dp then 2 else 1) ∧ t.depth q = (rest.filter fun c => !c.marker).length ∧
      s.regsBut t [R.eiXoffState.key 0 0]) ∧
  (∀ (ep q : Nat) (s : State), s.popAllowed ep q = true → (s.queue q).cells = [] → (s.queue q).stalled = none →
    (∃ t, exec (.popCell ep q .none) s = .next t ∧ t.queue q = { s.queue q with stalled := some (ep, false) } ∧
      (∀ n, n ≠ q → t.queue n = s.queue n) ∧ t = { s with pal := { s.pal with queues := t.pal.queues } }) ∧
    (∃ t, exec (.takeCell ep q .none) s = .next t ∧ t.queue q = { s.queue q with stalled := some (ep, true) } ∧
      (∀ n, n ≠ q → t.queue n = s.queue n) ∧ t = { s with pal := { s.pal with queues := t.pal.queues } })) ∧
  (∀ (ep q : Nat) (u : Upset) (s : State), s.popAllowed ep q = false →
    exec (.popCell ep q u) s = .next (s.setReg R.qmStatusWrongEp 1) ∧ exec (.takeCell ep q u) s = .next (s.setReg R.qmStatusWrongEp 1))

/-- O (R231, R238, R245, R252, R253, R34, R236, R247, R250): FREE, scrubbing and the free list. An accepted FREE with no reader stalled returns the held cell
and lowers HELD by 1; another one leaves every cell alone, writes an informational record and QM_BADFREE, and raises a fault of
severity 1. A visit of the scrubber that finds no upset only advances POS. The end of a rebuild clears REBUILD.
The end of a sever, for a queue other than 0x1FF whose reclaimed cells hold no end of an item, with no
reader stalled and a quiet fault stack: the queue holds its marker alone, with SRC and the cells reclaimed, and SEVERS counts. A
queue that is not severing is left alone. Choices of the model in it: log entries 10 and 36. -/
def Obligations.FreeScrubAndSever : Prop :=
  ((∀ (ep cell : Nat) (item : ItemId) (s : State), s.domOn 4 = true → s.freeRes ep cell = .ok →
    (s.pal.queues.all fun e => e.2.stalled.isNone) = true → s.reg R.qmHoldHeld ep < 2 ^ 16 →
    ∃ t, exec (.freeCell ep cell item) s = .next t ∧ t.pal = { s.pal with held := s.pal.held.filter (fun h => decide (h.idx ≠ cell)) } ∧
      t.reg R.qmHoldHeld ep = s.reg R.qmHoldHeld ep - 1 ∧ t = { s with regs := t.regs, pal := t.pal } ∧
      s.regsBut t [R.qmHoldHeld.key ep 0]) ∧
  (∀ (ep cell : Nat) (item : ItemId) (s : State), s.domOn 4 = true → s.freeRes ep cell ≠ .ok →
    ∃ t u : State, exec (.freeCell ep cell item) s = .next t ∧
      u = s.inform item (if s.freeRes ep cell = .doubleFree then 0x0A else 0x09) ep 0 ∧
      t = ((((u.setReg R.qmStatusBadfree 1).setReg R.qmBadfreeCell cell).setReg R.qmBadfreeEp ep).setReg R.qmBadfreeDouble
        (ofFlag (decide (s.freeRes ep cell = .doubleFree)))).raise 0x600008 1 1 5) ∧
  (∀ (s : State), s.domOn 4 = true → s.reg R.qmScrubPos < s.member.cells →
    (s.pal.queues.all fun e => !e.2.markerBad && e.2.cells.all fun c => parity 64 c.data.toNat == c.dp && c.lpOk && c.opOk) = true →
    (s.pal.held.all fun h => parity 64 h.data.toNat == h.dp) = true →
    ∃ t, exec (.scrubVisit .none) s = .next t ∧ t.reg R.qmScrubPos = (s.reg R.qmScrubPos + 1) % s.member.cells ∧
      s.onlyRegs t [R.qmScrubPos.key 0 0]) ∧
  (∀ s : State, s.flag R.qmStatusRebuild = true → ∃ t, exec .freeListRebuildDone s = .next t ∧ t.reg R.qmStatusRebuild = 0 ∧
    t.armed .rebuild = false ∧ t = { s with regs := t.regs, timers := t.timers } ∧ s.regsBut t [R.qmStatusRebuild.key 0 0])) ∧
  ((∀ (q : Nat) (s : State), q ≠ 511 → (s.queue q).severing = true → ((s.queue q).cells.all fun c => c.marker || !c.eop) = true →
    (s.queue q).stalled = none → s.lg.faults = [] → s.lg.raises = [] → ∃ t, exec (.severComplete q) s = .next t ∧
      (t.queue q).cells = [(s.queue q).severMarker ((s.queue q).cells.filter fun c => !c.marker).length] ∧
      (t.queue q).severing = false ∧ t.depth q = 0 ∧ (∀ n, n ≠ q → t.queue n = s.queue n) ∧
      t.reg R.qmQEvtSevers q = (s.reg R.qmQEvtSevers q + 1) % 2 ^ 4 ∧ t.armed (.sever q) = false ∧
      (t.lg.faults.map fun e => (e.off, e.bit, e.sev, e.state)) = [(0x600008, 2, 1, 2)] ∧ s.sameBytes t) ∧
  (∀ (q : Nat) (s : State), (s.queue q).severing = false → exec (.severComplete q) s = .next s))

/-- O (R157, R173, R231, R240, R241, R310): the plan's queue operations. A push pushes COUNT cells of its region and finishes, and with LAST may complete the token that it answers; a pop
of one cell writes the word and its tag into the region; a drop-remainder at an end of packet delivers it, and on an empty queue
enters DROP_PEND; a watermark query writes one word. A region outside its partition halts the plan and sets BOUNDS.
Choices of the model in it: log entries 10, 35 and 36. -/
def Obligations.QueueOperations : Prop :=
  (∀ (k tl a n : Nat) (o : SlotOp) (s : State), s.opAt k 3 = some o → o.sub = 1 → (s.queueDesc o).offset % 8 = 0 →
    (s.queueDesc o).count ≠ 0 → (s.queueDesc o).take = false → n + o.moved = (s.queueDesc o).count → 0 < n →
    s.queueRegion o (s.queueDesc o) (8 * (s.queueDesc o).count + tagBytes (s.queueDesc o).count) = some (tl, a) →
    s.tileWaits tl = false → s.popAllowed (opEp (s.reg R.qmQEpCons o.qid) tl) o.qid = true → (s.queue o.qid).severing = false →
    (s.queue o.qid).discard = false → s.flag R.qmQCfgRetired o.qid = false → n ≤ (s.queue o.qid).cells.length →
    (∀ c ∈ (s.queue o.qid).cells.take n, c.marker = false ∧ c.eop = false ∧ parity 64 c.data.toNat = c.dp) →
    ∃ t, exec (.queuePopToTile k .none) s = .next t ∧ (t.queue o.qid).cells = (s.queue o.qid).cells.drop n ∧ t.opAt k 3 = none) ∧
  (∀ (k tl a : Nat) (o : SlotOp) (s : State), s.opAt k 3 = some o → o.sub = 0 → (s.queueDesc o).offset % 8 = 0 →
    (s.queueDesc o).count ≠ 0 → s.queueRegion o (s.queueDesc o) (8 * (s.queueDesc o).count) = some (tl, a) → s.tileWaits tl = false →
    ∃ t u : State, exec (.queuePush k) s = .next t ∧ u = (List.range (s.queueDesc o).count).foldl (fun (x : State) i =>
      x.pushItem (opEp (s.reg R.qmQEpProd o.qid) tl) o.qid (BitVec.ofNat 64 (x.tileNat tl (a + 8 * i) 8)) o.item
        ((s.queueDesc o).last && i + 1 == (s.queueDesc o).count) false 7 0) s ∧
      t = (if (s.queueDesc o).last && !(u.hasEnded o.item) then u.resultPushed o.qid else u).finishOp k) ∧
  (∀ (k tl a : Nat) (o : SlotOp) (c : Cell) (rest : List Cell) (s : State), s.opAt k 3 = some o → o.sub = 1 → o.moved = 0 →
    (s.queueDesc o).offset % 8 = 0 → (s.queueDesc o).count = 1 → (s.queueDesc o).take = false →
    s.queueRegion o (s.queueDesc o) 9 = some (tl, a) → a + 9 ≤ 2 ^ 20 → s.tileWaits tl = false →
    s.popAllowed (opEp (s.reg R.qmQEpCons o.qid) tl) o.qid = true → (s.queue o.qid).severing = false → (s.queue o.qid).discard = false →
    (s.queue o.qid).cells = c :: rest → c.marker = false → c.eop = false → parity 64 c.data.toNat = c.dp →
    s.flag R.qmQCfgRetired o.qid = false → ∃ t, exec (.queuePopToTile k .none) s = .next t ∧
      (t.queue o.qid).cells = rest ∧ t.tmem.readNat (tileAddr tl a) 8 = c.data.toNat ∧
      bits (t.tmem.readNat (tileAddr tl (a + 8)) 1) 1 0 = 0 ∧ t.opAt k 3 = none ∧
      (∀ b, tileAddr tl a + 9 ≤ b ∨ b < tileAddr tl a → t.tmem.read b = s.tmem.read b) ∧
      t.ext = s.ext ∧ t.scratch = s.scratch ∧ t.hostMem = s.hostMem ∧ s.regsBut t [R.eiXoffState.key 0 0]) ∧
  (∀ (k tl a : Nat) (o : SlotOp) (s : State), s.opAt k 3 = some o → o.sub = 2 → (s.queueDesc o).offset % 8 = 0 →
    (s.queueDesc o).count ≠ 0 →
    s.queueRegion o (s.queueDesc o) (8 * (s.queueDesc o).count + tagBytes (s.queueDesc o).count) = some (tl, a) →
    s.tileWaits tl = false → s.popAllowed (opEp (s.reg R.qmQEpCons o.qid) tl) o.qid = true → (s.queue o.qid).severing = false →
    (s.queue o.qid).dropPend = false → (s.pal.dropOut.any fun x => decide (x.qid = o.qid)) = false →
    ((s.queue o.qid).cells = [] → ∃ t, exec (.dropRemainder k) s = .next t ∧
      t.queue o.qid = { s.queue o.qid with dropPend := true } ∧ (∀ n, n ≠ o.qid → t.queue n = s.queue n) ∧
      t = { s with pal := { s.pal with queues := t.pal.queues } }) ∧
    (∀ c rest, (s.queue o.qid).cells = c :: rest → c.eop = true → c.marker = false → parity 64 c.data.toNat = c.dp →
      (s.queue o.qid).discard = false → s.flag R.qmQCfgRetired o.qid = false → o.moved = 0 →
      a + 8 * (s.queueDesc o).count + tagBytes (s.queueDesc o).count ≤ 2 ^ 20 → ∃ t, exec (.dropRemainder k) s = .next t ∧
      (t.queue o.qid).cells = rest ∧ t.tmem.readNat (tileAddr tl a) 8 = c.data.toNat ∧ t.opAt k 3 = none)) ∧
  (∀ (k tl a : Nat) (o : SlotOp) (s : State), s.opAt k 3 = some o → o.sub = 3 → (s.queueDesc o).offset % 8 = 0 →
    s.queueRegion o (s.queueDesc o) 8 = some (tl, a) → s.tileWaits tl = false →
    s.reg R.qmQGapCount o.qid < 2 ^ 32 → ∃ t, exec (.watermarkQuery k) s = .next t ∧
      t.tmem.readNat (tileAddr tl a) 8 = s.depth o.qid % 2 ^ 21 + 2 ^ 24 * ofFlag (s.queue o.qid).highState +
        2 ^ 25 * ofFlag (s.queue o.qid).dropPend + 2 ^ 32 * s.reg R.qmQGapCount o.qid ∧
      (∀ b, tileAddr tl a + 8 ≤ b ∨ b < tileAddr tl a → t.tmem.read b = s.tmem.read b) ∧ t.opAt k 3 = none ∧
      t = { s with pp := t.pp, tmem := t.tmem }) ∧
  (∀ (k : Nat) (o : SlotOp) (s : State), s.opAt k 3 = some o → o.sub = 0 →
    (s.queueDesc o).offset % 8 ≠ 0 ∨ (s.queueDesc o).count = 0 ∨
      s.queueRegion o (s.queueDesc o) (8 * (s.queueDesc o).count) = none → ∃ t u : State, exec (.queuePush k) s = .next t ∧
      u = (s.setReg R.deStatusBounds 1).haltPlan 2 (s.opBundle o) ∧ t = u.finishOp k)

/-- O (R20, R32, R123, R157, R160, R300, R306, R310, R311): moves. A tile-to-tile move sends its bytes as a packet on VC2; the tile that
the packet reaches has them, every other byte stays, and with the last packet of an operation the operation is finished; a reshard sends
the packets of its entries. A raw move to or from external memory copies its bytes and leaves every other byte of every memory alone.
Choices of the model in it: log entries 10 and 47. -/
def Obligations.Moves : Prop :=
  (∀ (k : Nat) (a b : Nat × Nat) (o : SlotOp) (s : State), s.opAt k 2 = some o → o.sub = 0 → o.begun = false →
    s.tileEnds o (s.moveDesc o) = some (a, b) → s.tileWaits a.1 = false → s.tileWaits b.1 = false →
    ∃ t, exec (.moveTileToTile k false) s = .next t ∧
      t.mesh = { s.mesh with packets := s.mesh.packets ++ [
        { item := o.item, key := Config.moveKey a.1 b.1 % 2 ^ 32, vc := 2, epoch := s.reg R.cvStatusEpoch, dest := 0, tile := a.1, cells := [],
          origin := a.1, load := some { op := o.id, addr := b.2, data := s.tileRead a.1 a.2 (s.moveDesc o).tileBytes }, since := s.devtime }] } ∧
      t.opAt k 2 = some { o with begun := true } ∧ t = { s with pp := t.pp, mesh := t.mesh }) ∧
  (∀ (k : Nat) (p : Packet) (l : MoveLoad) (s : State), s.mesh.packets[k]? = some p → s.behind k p = false →
    s.routePorts p = some [4] → s.domOn (10 + s.quadOf p.tile) = true → p.load = some l → l.bad = false →
    ∃ t, exec (.meshPacketRoute k) s = .next t ∧
      t.tmem.readBytes (tileAddr p.tile l.addr) l.data.length = l.data ∧
      (∀ n, n < tileAddr p.tile l.addr ∨ tileAddr p.tile l.addr + l.data.length ≤ n → t.tmem.read n = s.tmem.read n) ∧
      t.mesh = { s.mesh with packets := s.mesh.packets.eraseIdx k } ∧
      (((s.mesh.packets.eraseIdx k).any fun x => (x.load.map (·.op)) == some l.op) = false →
        t.pp.ops = s.pp.ops.map fun o => if o.id = l.op ∧ o.cls = 2 then { o with done := true } else o) ∧
      t = { s with regs := t.regs, pp := t.pp, tmem := t.tmem, mesh := t.mesh } ∧ s.regsBut t [R.cvEpochDrainCount.key 0 0]) ∧
  (∀ (k tl a : Nat) (o : SlotOp) (s : State), s.opAt k 2 = some o → o.sub = 1 → (s.moveDesc o).map = false →
    s.movePlace o (s.moveDesc o).srcGroup (s.moveDesc o).srcPos (s.moveDesc o).srcPart (s.moveDesc o).srcOff (s.moveDesc o).bytes =
      some (tl, a) → s.tileWaits tl = false → ∃ t, exec (.moveTileToMemory k false) s = .next t ∧
      t.ext.readBytes (s.moveDesc o).mem (s.moveDesc o).bytes = s.tileRead tl a (s.moveDesc o).bytes ∧
      (∀ n, n < (s.moveDesc o).mem ∨ (s.moveDesc o).mem + (s.moveDesc o).bytes ≤ n → t.ext.read n = s.ext.read n) ∧
      t.opAt k 2 = none ∧ t = { s with regs := t.regs, pp := t.pp, ext := t.ext, freeCtr := t.freeCtr } ∧
      s.regsBut t [R.deMemOutKib.key 0 0, R.deMemExtKib.key 0 0]) ∧
  (∀ (k tl a : Nat) (o : SlotOp) (s : State), s.opAt k 2 = some o → o.sub = 2 → (s.moveDesc o).map = false →
    s.movePlace o (s.moveDesc o).dstGroup (s.moveDesc o).dstPos (s.moveDesc o).dstPart (s.moveDesc o).dstOff (s.moveDesc o).bytes =
      some (tl, a) → s.tileWaits tl = false → ∃ t, exec (.moveMemoryToTile k) s = .next t ∧
      t.tileRead tl a (s.moveDesc o).bytes = s.ext.readBytes (s.moveDesc o).mem (s.moveDesc o).bytes ∧
      (∀ n, n < tileAddr tl a ∨ tileAddr tl a + (s.moveDesc o).bytes ≤ n → t.tmem.read n = s.tmem.read n) ∧
      t.opAt k 2 = none ∧ t = { s with regs := t.regs, pp := t.pp, tmem := t.tmem, freeCtr := t.freeCtr } ∧
      s.regsBut t [R.deMemInKib.key 0 0, R.deMemExtKib.key 0 0]) ∧
  (∀ (k : Nat) (a b : Nat × Nat) (d : MoveDesc) (o : SlotOp) (s : State), s.opAt k 2 = some o → o.sub = 3 → o.begun = false →
    (s.moveDesc o).entries = 1 → d = MoveDesc.ofBytes (s.opData o (16 * (s.moveDesc o).list) 32) →
    16 * (s.moveDesc o).list + 32 ≤ o.dataLen → s.tileEnds o d = some (a, b) → s.tileWaits a.1 = false → s.tileWaits b.1 = false →
    ∃ t, exec (.reshard k none) s = .next t ∧
      t.mesh = { s.mesh with packets := s.mesh.packets ++ [
        { item := o.item, key := Config.moveKey a.1 b.1 % 2 ^ 32, vc := 2, epoch := s.reg R.cvStatusEpoch, dest := 0, tile := a.1, cells := [],
          origin := a.1, load := some { op := o.id, addr := b.2, data := s.tileRead a.1 a.2 d.tileBytes }, since := s.devtime }] } ∧
      t.opAt k 2 = some { o with begun := true } ∧ t = { s with pp := t.pp, mesh := t.mesh })
/-! ## Event ingress (R176 to R202) -/

/-- O (R176, R178, R190, R199, R200, R180 to R189, R197, R198): a packet arrives at an open event port. A well-formed one on the accepted virtual channel, with
a packet buffer free, becomes the next item of the port's stream and waits in a buffer; another data type counts in OTHER; with
both buffers held the packet ends GAP_DROP with OVERRUN; a closed port and another channel take nothing. A link error ends the
item of its packet with LINK.
The packet at the head of a port's buffers is filtered and written as one, and its buffer is free
again; the packet behind it, the external, tile, scratch and host memory and DEVTIME stay. With nothing buffered, with the port's domain
off or in a quiesce nothing happens. Choices of the model in it: log entries 10, 37 and 38. -/
def Obligations.EventPackets : Prop :=
  (∀ (n : Nat) (vc : BitVec 2) (dt : BitVec 8) (crc : Bool) (l : List Byte) (s : State), s.portOpen n false = true →
    (s.port n).errTimes = [] → s.ei.ports.length = 4 →
    ∃ t, exec (.eventPacketReceive n vc dt .uncorrectable crc l) s = .next t ∧ (t.port n).errTimes = [s.devtime]) ∧
  ((∀ (n : Nat) (vc : BitVec 2) (ecc : Ecc) (l : List Byte) (s : State), s.portOpen n false = true → s.ei.ports.length = 4 →
    ecc ≠ .uncorrectable → vc.toNat = s.reg R.eiPCfgVc n → (s.port n).bufs.length < 2 → packetOk l = true →
    ∃ t, exec (.eventPacketReceive n vc 0x30 ecc true l) s = .next t ∧
      (t.port n).bufs = (s.port n).bufs ++ [{ item := s.nextItem (1 + n), words := payloadWords l }] ∧
      t.live (s.nextItem (1 + n)) = true ∧ t.reg R.eiPCntCount n 0 = (s.reg R.eiPCntCount n 0 + 1) % 2 ^ 32 ∧
      (∀ m, m ≠ n → t.port m = s.port m) ∧ 
      t = { s with regs := t.regs, ei := { s.ei with ports := t.ei.ports }, lg := t.lg, pins := { s.pins with xoff := t.pins.xoff } } ∧
      s.regsBut t [R.eiPCntCount.key n 0, R.eiXoffState.key 0 0]) ∧
  (∀ (n : Nat) (vc : BitVec 2) (ecc : Ecc) (l : List Byte) (s : State), s.portOpen n false = true → ecc ≠ .uncorrectable →
    vc.toNat = s.reg R.eiPCfgVc n → (s.port n).bufs.length < 2 →
    exec (.eventPacketReceive n vc 0x30 ecc false l) s = .next (((((s.takeItem (1 + n)).countPort n 0).countPort n 9).report
      (s.nextItem (1 + n)) 0x01 n 4).portGap n (maskEvents l)) ∧
    (packetOk l = false → exec (.eventPacketReceive n vc 0x30 ecc true l) s = .next ((((s.takeItem (1 + n)).countPort n 0).countPort n
      11).report (s.nextItem (1 + n)) 0x01 n 16))) ∧
  (∀ (n : Nat) (vc : BitVec 2) (ecc : Ecc) (crc : Bool) (l : List Byte) (s : State), s.portOpen n false = true →
    ecc ≠ .uncorrectable → vc.toNat = s.reg R.eiPCfgVc n → 2 ≤ (s.port n).bufs.length →
    exec (.eventPacketReceive n vc 0x30 ecc crc l) s = .next (((((s.takeItem (1 + n)).countPort n 0).countPort n 8).report
      (s.nextItem (1 + n)) 0x01 n 2).portGap n (maskEvents l))) ∧
  (∀ (n : Nat) (vc : BitVec 2) (dt : BitVec 8) (ecc : Ecc) (crc : Bool) (l : List Byte) (s : State), s.portOpen n false = true →
    ecc ≠ .uncorrectable → vc.toNat = s.reg R.eiPCfgVc n → dt ≠ 0x30 → ∃ t, exec (.eventPacketReceive n vc dt ecc crc l) s = .next t ∧
      t.reg R.eiPCntCount n 12 = (s.reg R.eiPCntCount n 12 + 1) % 2 ^ 32 ∧ s.onlyRegs t [R.eiPCntCount.key n 12]) ∧
  (∀ (n : Nat) (vc : BitVec 2) (dt : BitVec 8) (ecc : Ecc) (crc : Bool) (l : List Byte) (s : State),
    s.portOpen n false = false ∨ (ecc ≠ .uncorrectable ∧ vc.toNat ≠ s.reg R.eiPCfgVc n) →
    exec (.eventPacketReceive n vc dt ecc crc l) s = .next s) ∧
  (∀ (n : Nat) (s : State), s.portOpen n false = true → (s.port n).errTimes = [] → s.ei.ports.length = 4 →
    ∃ t u : State, exec (.linkError n false) s = .next t ∧
      u = (((s.takeItem (1 + n)).countPort n 0).countPort n 14).report (s.nextItem (1 + n)) 0x01 n 64 ∧
      (t.port n).errTimes = [s.devtime] ∧ t = { u with ei := { u.ei with ports := t.ei.ports } } ∧ (∀ m, m ≠ n → t.port m = u.port m))) ∧
  ((∀ (n : Nat) (b : RxPacket) (rest : List RxPacket) (s : State), (s.port n).bufs = b :: rest → n < 3 ∨ (n = 3 ∧ s.ei.aerWait = none) → s.ei.ports.length = 4 →
    s.domOn (s.epDomain (1 + n)) = true → s.quiesced = false → ∃ t, exec (.eventPacketWrite n) s = .next t ∧
      t = (s.writePacket n b).refreshXoff ∧ (t.port n).bufs = rest ∧ t.devtime = s.devtime ∧ s.sameBytes t) ∧
  (∀ (n : Nat) (s : State), (s.port n).bufs = [] ∨ s.domOn (s.epDomain (1 + n)) = false ∨ s.quiesced = true →
    exec (.eventPacketWrite n) s = .next s))

/-- O (R191 to R193, R185, R187, R197, R199, R202): the AER port. A word in order, sampled with space, joins the open pseudo-packet, or opens one as the next item
of stream 0x04, and AER_ACK rises; a word with other bits set counts in FORMAT; without space the handshake is withheld for HOLD_NS, and
then completed with the event counted as lost. AER_ACK falls with AER_REQ. At PKT_US the pseudo-packet closes.
The commands of an event port. COMMIT marks a copy that fits the stores and refuses another with
CFG_ERR; its application puts the pending copy and hot list in force; CNT_CLR clears the fifteen counters and HOT_CLR the pending hot
list; EN follows PORT_EN; the sweeper forgets entries older than 16,384 µs; a glint window that ends evaluates every cell and
starts the next one; a cell whose HOLD has passed glints no more. Choices of the model in it: log entries 10, 37 and 38. -/
def Obligations.AerAndPortCommands : Prop :=
  ((∀ (w : BitVec 28) (p : RxPacket) (s : State), s.portOpen 3 true = true → s.pins.aerAck ≠ .high → s.ei.aerWait = none →
    bits w.toNat 27 25 = 0 → s.ei.aerPkt = some p → p.events.length + 1 < max 1 (s.reg R.eiAerPktEv) →
    exec (.aerRequest w) s = .next { s with pins := { s.pins with aerAck := .high }, ei := { s.ei with aerPkt := some { p with
      events := p.events ++ [{ time := s.devtime, x := bits w.toNat 11 0, y := bits w.toNat 23 12, pol := bitAt w.toNat 24 }] } } }) ∧
  (∀ (w : BitVec 28) (s : State), s.portOpen 3 true = true → s.pins.aerAck ≠ .high → s.ei.aerWait = none →
    bits w.toNat 27 25 = 0 → s.ei.aerPkt = none → (s.port 3).bufs.length < 2 → 1 < s.reg R.eiAerPktEv →
    ∃ t p, exec (.aerRequest w) s = .next t ∧ t.ei.aerPkt = some p ∧ p.item = s.nextItem 4 ∧ p.arrival = true ∧
      p.lost = s.ei.aerLost ∧
      p.events = [{ time := s.devtime, x := bits w.toNat 11 0, y := bits w.toNat 23 12, pol := bitAt w.toNat 24 }] ∧
      t.pins = { s.pins with aerAck := .high } ∧ t.live (s.nextItem 4) = true ∧
      alGet t.timers .pktUs = some (s.devtime + 1000 * s.reg R.eiAerPktUs) ∧ s.regsBut t [R.eiPCntCount.key 3 0] ∧ s.sameBytes t) ∧
  (∀ (w : BitVec 28) (s : State), s.portOpen 3 true = true → s.pins.aerAck ≠ .high → s.ei.aerWait = none →
    bits w.toNat 27 25 ≠ 0 → ∃ t, exec (.aerRequest w) s = .next t ∧ t.pins = { s.pins with aerAck := .high } ∧
      t.reg R.eiPCntCount 3 11 = (s.reg R.eiPCntCount 3 11 + 1) % 2 ^ 32 ∧ t = { s with regs := t.regs, pins := t.pins } ∧
      s.regsBut t [R.eiPCntCount.key 3 11]) ∧
  (∀ (w : BitVec 28) (s : State), s.portOpen 3 true = true → s.pins.aerAck ≠ .high → s.ei.aerWait = none →
    bits w.toNat 27 25 = 0 → s.aerSpace = false → ∃ t, exec (.aerRequest w) s = .next t ∧
      t = { s with ei := { s.ei with aerWait := some w }, timers := t.timers } ∧
      alGet t.timers .aerHold = some (s.devtime + s.reg R.eiAerHoldNs)) ∧
  (∀ s : State, s.ei.aerWait.isSome = true → s.due .aerHold = true → ∃ t, exec .aerHoldExpire s = .next t ∧
    t.ei = { s.ei with aerWait := none, aerLost := s.ei.aerLost + 1 } ∧ t.pins = { s.pins with aerAck := .high } ∧
    t.armed .aerHold = false ∧ t = { s with ei := t.ei, pins := t.pins, timers := t.timers }) ∧
  (∀ s : State, s.pins.aerAck = .high → exec .aerReqFall s = .next { s with pins := { s.pins with aerAck := .low } }) ∧
  (∀ (p : RxPacket) (s : State), s.due .pktUs = true → s.ei.aerPkt = some p → s.ei.ports.length = 4 →
    ∃ t, exec .pseudoPacketTimeout s = .next t ∧ t.ei.aerPkt = none ∧ (t.port 3).bufs = (s.port 3).bufs ++ [p] ∧
      (∀ m, m ≠ 3 → t.port m = s.port m) ∧ t.armed .pktUs = false ∧
      t = { s with regs := t.regs, ei := t.ei, timers := t.timers, pins := { s.pins with xoff := t.pins.xoff } } ∧
      s.regsBut t [R.eiXoffState.key 0 0]) ∧
  (∀ s : State, s.due .pktUs = false → exec .pseudoPacketTimeout s = .next s)) ∧
  ((∀ (n : Nat) (s : State), n < s.member.ports → s.copyBad n = false → ∃ t, exec (.commit n) s = .next t ∧
    t.reg R.eiPStatusCommitPend n = 1 ∧ s.onlyRegs t [R.eiPStatusCommitPend.key n 0, R.eiPCtrlCommit.key n 0]) ∧
  (∀ (n : Nat) (s : State), n < s.member.ports → s.copyBad n = true → ∃ t, exec (.commit n) s = .next t ∧
    t.reg R.eiPStatusCfgErr n = 1 ∧ s.onlyRegs t [R.eiPStatusCfgErr.key n 0, R.eiPCtrlCommit.key n 0]) ∧
  (∀ (n : Nat) (s : State), s.flag R.eiPStatusCommitPend n = true → s.copyBad n = false → n < s.ei.ports.length →
    ∃ t, exec (.commitApply n) s = .next t ∧ (t.port n).applied = s.pendingCopy n ∧ t.reg R.eiPStatusCommitPend n = 0 ∧
      (t.port n).hot = ((s.port n).hotPend.filter fun h => bitAt h.2 31).map (fun h => (bits h.2 11 0, bits h.2 27 16)) ∧
      (t.port n).bufs = (s.port n).bufs ∧ (∀ m, m ≠ n → t.port m = s.port m) ∧
      t = { s with regs := t.regs, ei := { s.ei with ports := t.ei.ports }, timers := t.timers } ∧
      s.regsBut t [R.eiPStatusCommitPend.key n 0]) ∧
  (∀ (n : Nat) (s : State), n < s.member.ports → ∃ t, exec (.cntClr n) s = .next t ∧
    (∀ i, i < 15 → t.reg R.eiPCntCount n i = 0) ∧ s.onlyRegs t (R.eiPCtrlCntClr.key n 0 :: (List.range 15).map fun i => R.eiPCntCount.key n i)) ∧
  (∀ (n : Nat) (s : State), n < s.ei.ports.length → ∃ t, exec (.hotClr n) s = .next t ∧
    t.port n = { s.port n with hotPend := [] } ∧ (∀ m, m ≠ n → t.port m = s.port m) ∧
    t = { s with regs := t.regs, ei := { s.ei with ports := t.ei.ports } } ∧ s.regsBut t [R.eiPCtrlHotClr.key n 0]) ∧
  (∀ (n : Nat) (on : Bool) (s : State), n < s.member.ports → ∃ t, exec (.portEn n on) s = .next t ∧ t.flag R.eiPCfgEn n = on ∧
    t = { s with regs := t.regs, pal := { s.pal with marks := t.pal.marks }, tm := t.tm } ∧
    t.tm = (if on then { s.tm with noStep := true } else s.tm) ∧ s.regsBut t [R.eiPCfgEn.key n 0]) ∧
  (∀ (n now : Nat) (s : State), n < s.ei.ports.length → now = (if s.flag R.eiPCfgMode n then s.us else (s.port n).latestRow) →
    ∃ t, exec (.refractSweep n) s = .next t ∧
    (t.port n) = { s.port n with refract := (s.port n).refract.filter fun r => decide (now ≤ r.2.2 + 16384) } ∧
    (∀ m, m ≠ n → t.port m = s.port m) ∧ t = { s with ei := { s.ei with ports := t.ei.ports } }) ∧
  (∀ (n : Nat) (s : State), n < s.ei.ports.length → s.due (.glintWin n) = true → ∃ t, exec (.glintWindowEnd n) s = .next t ∧
    (t.port n).glint = (s.glintCells n).map (glintNext (s.setting n R.eiPGlintThresh) (s.setting n R.eiPGlint2Bal)
      (s.devtime + 1000 * s.setting n R.eiPGlint2Hold)) ∧
    alGet t.timers (.glintWin n) = some (s.devtime + 1000 * max 1 (s.setting n R.eiPGlintWin)) ∧
    (∀ m, m ≠ n → t.port m = s.port m) ∧ t = { s with ei := { s.ei with ports := t.ei.ports }, timers := t.timers }) ∧
  (∀ (n : Nat) (s : State), n < s.ei.ports.length → ∃ t, exec (.glintHoldExpire n) s = .next t ∧
    (∀ g ∈ (t.port n).glint, g.glinting = true → s.devtime < g.until_) ∧
    (t.port n).glint.length = (s.port n).glint.length ∧ (∀ m, m ≠ n → t.port m = s.port m) ∧
    t = { s with ei := { s.ei with ports := t.ei.ports } }) ∧
  (∀ (thresh bal til : Nat) (g : GlintCell), g.glinting = false →
    ((glintNext thresh bal til g).glinting = true ↔
      thresh ≤ g.on + g.off ∧ 256 * (max g.on g.off - min g.on g.off) ≤ bal * (g.on + g.off))))

/-- O (R176, R194, R199, R200): thermal frames. A header that cannot be read counts in HDR, and another data type in OTHER, with a frame in progress or
without. A Frame Start at an enabled port with no frame in progress opens the next item of its stream and
writes the type 6 header with time, port, height and width; a good line writes its cells and a line that is short, long or fails its
CRC writes as many with every pixel INVALID; the Frame End after the last line writes the type 7 trailer with the invalid lines, and the
frame is no longer in progress. Choices of the model in it: log entries 10, 37 and 38. -/
def Obligations.ThermalFrames : Prop :=
  (∀ (m : Nat) (vc : BitVec 2) (ecc : Ecc) (s : State), s.thermalTakes m vc = true → s.flag R.eiTCfgEn m = true →
    s.ei.thermal.length = 2 → s.ei.thermal.getD m none = none → ecc ≠ .uncorrectable →
    ∃ (t u : State) (f : ThermalFrame) (c : Cell64), exec (.thermalFrameStart m vc ecc) s = .next t ∧
      f = { item := s.nextItem (5 + m), w := s.reg R.eiTSizeW m, h := s.reg R.eiTSizeH m, qid := s.reg R.eiTCfgQid m,
            epoch := epochOf s.us } ∧
      u = (s.takeItem (5 + m)).modThermal m (fun _ => some f) ∧ t = u.thermalPush m f c false ∧
      cellType c = 6 ∧ bits c.toNat 63 40 = s.us % 2 ^ 24 ∧ bits c.toNat 39 38 = m ∧ bits c.toNat 35 24 = f.h % 2 ^ 12 ∧
      bits c.toNat 23 12 = f.w % 2 ^ 12) ∧
  (∀ (m : Nat) (vc : BitVec 2) (s : State), s.thermalOpen m = true → s.flag R.eiTCfgEn m = true → s.ei.thermal.getD m none = none →
    exec (.thermalFrameStart m vc .uncorrectable) s = .next ((((s.takeItem (5 + m)).countThermal m 4).report (s.nextItem (5 + m)) 0x01
      (4 + m) 8).thermalError m)) ∧
  (∀ (m line : Nat) (vc : BitVec 2) (dt : BitVec 8) (ecc : Ecc) (crc : Bool) (px : List (BitVec 14)) (s : State), s.thermalOpen m = true →
    (exec (.thermalLine m line vc dt .uncorrectable crc px) s = .next ((s.countThermal m 4).thermalError m)) ∧
    (ecc ≠ .uncorrectable → s.thermalTakes m vc = true → dt ≠ 0x2D → ∃ t, exec (.thermalLine m line vc dt ecc crc px) s = .next t ∧
      t.reg R.eiTCntCount m 5 = (s.reg R.eiTCntCount m 5 + 1) % 2 ^ 32 ∧ s.onlyRegs t [R.eiTCntCount.key m 5])) ∧
  (∀ (m line : Nat) (vc : BitVec 2) (ecc : Ecc) (crc : Bool) (px : List (BitVec 14)) (f : ThermalFrame) (s : State),
    s.ei.thermal.getD m none = some f → s.ei.thermal.length = 2 → s.thermalTakes m vc = true → ecc ≠ .uncorrectable →
    line = f.nextLine → line < f.h → ∃ t u : State, exec (.thermalLine m line vc 0x2D ecc crc px) s = .next t ∧
      u = (if crc then s else s.countThermal m 3) ∧
      (∃ g, t.ei.thermal.getD m none = some g ∧ g.nextLine = f.nextLine + 1 ∧
        g.invalid = f.invalid + ofFlag (!crc || px.length != f.w) ∧ g.item = f.item) ∧
      t = ((lineCells f.w px (!crc || px.length != f.w)).foldl (fun (x : State) c => x.thermalPush m f c false) u).modThermal m
        fun o => o.map fun x => { x with nextLine := x.nextLine + 1, invalid := x.invalid + ofFlag (!crc || px.length != f.w) }) ∧
  (∀ (m : Nat) (vc : BitVec 2) (f : ThermalFrame) (s : State), s.thermalTakes m vc = true → s.ei.thermal.length = 2 →
    s.ei.thermal.getD m none = some f → ∃ t, exec (.thermalFrameEnd m vc) s = .next t ∧ t.ei.thermal.getD m none = none) ∧
  (∀ (w i : Nat) (px : List (BitVec 14)), w % 4 = 0 → i < w / 4 →
    (lineCells w px true)[i]? = some (BitVec.ofNat 64 0x8000800080008000)) ∧
  (∀ (m line : Nat) (vc : BitVec 2) (dt : BitVec 8) (ecc : Ecc) (crc : Bool) (px : List (BitVec 14)) (s : State), s.thermalOpen m = false →
    exec (.thermalFrameStart m vc ecc) s = .next s ∧ exec (.thermalLine m line vc dt ecc crc px) s = .next s ∧
    exec (.thermalFrameEnd m vc) s = .next s)


/-! ## Time references and camera offsets (R203 to R224) -/

/-- O (R205 to R207, R224, R203, R208 to R211, R223, R224): the references. A good 10 ms window counts and its measurement is kept; the hundredth in a row qualifies
REF_IN; a bad one, or 1 µs without an edge, loses it. An edge of PPS_IN is captured with its phase error; the third good one in a row
qualifies, and at the first qualification after a full reset DEVTIME is stepped to a whole second and ALIGNED is set, where no
plan has started and no event port has been enabled. 1.1 s without a pulse loses PPS_IN. Without a clock nothing happens.
Switches: the best source that has stayed qualified for 10 s is announced with CORR held for
384,000 crystal cycles; SLEW then moves CORR to the target's frequency for the longest of its three times; COMMIT makes the target active
and counts one; a reversal that ends makes the best source active, or leaves the active one where an upward switch was
cancelled. 600 s of HOLDOVER set HOLD_AGED. A failed crystal raises severity 3 and stops DEVTIME.
Choices of the model in it: log entries 10, 5 and 39. -/
def Obligations.TimeReferencesAndSwitches : Prop :=
  (∀ (ppb : Int) (s : State), s.clockRuns = true → ppb.natAbs ≤ 100000 → ∃ t, exec (.refWindow ppb) s = .next t ∧
    t.tm.refPpb = ppb ∧ t.tm.refWindows = min (s.tm.refWindows + 1) 100 ∧ (100 ≤ s.tm.refWindows + 1 → t.reg R.tmStatusRefQ = 1)) ∧
  (∀ (highOk : Bool) (s : State), s.clockRuns = true → ∃ t, exec (.ppsEdge highOk) s = .next t ∧
    t.reg R.tmPpsCapLoNs = s.devtime % 2 ^ 32 ∧ t.reg R.tmPpsCapHiNs = s.devtime / 2 ^ 32 % 2 ^ 32 ∧ t.armed .ppsLost = true) ∧
  ((∀ (ppb : Int) (s : State), s.clockRuns = true → ppb.natAbs ≤ 100000 → s.tm.refWindows < 99 ∨ s.flag R.tmStatusRefQ = true →
    s.reg R.tmStatusSource ≠ 2 → s.reg R.tmStatusSource ≠ 4 → exec (.refWindow ppb) s =
      .next { s with tm := { s.tm with refWindows := min (s.tm.refWindows + 1) 100, refPpb := ppb } }) ∧
  (∀ (ppb : Int) (s : State), s.clockRuns = true → ppb.natAbs ≤ 100000 → 99 ≤ s.tm.refWindows → s.flag R.tmStatusRefQ = false →
    s.reg R.tmStatusSource = 0 → s.tm.sw = none → ∃ t, exec (.refWindow ppb) s = .next t ∧ t.reg R.tmStatusRefQ = 1 ∧
      t.tm = { s.tm with refWindows := 100, refPpb := ppb, refQualAt := s.devtime } ∧ t = { s with regs := t.regs, tm := t.tm } ∧
      s.regsBut t [R.tmStatusRefQ.key 0 0]) ∧
  (∀ (ppb : Int) (s : State), s.clockRuns = true → 100000 < ppb.natAbs → s.flag R.tmStatusRefQ = true → ∃ t u : State,
    exec (.refWindow ppb) s = .next t ∧ exec .refEdgeLoss s = .next t ∧ u.reg R.tmStatusRefQ = 0 ∧
      u = { s with regs := u.regs, tm := { s.tm with refWindows := 0 } } ∧ s.regsBut u [R.tmStatusRefQ.key 0 0] ∧
      t = (u.raise 0x50000C 12 0 4).reviewSources) ∧
  (∀ (ppb : Int) (s : State), s.clockRuns = true → 100000 < ppb.natAbs → s.flag R.tmStatusRefQ = false →
    exec (.refWindow ppb) s = .next { s with tm := { s.tm with refWindows := 0 } } ∧
    exec .refEdgeLoss s = .next { s with tm := { s.tm with refWindows := 0 } }) ∧
  (∀ (highOk : Bool) (s : State), s.clockRuns = true → s.tm.ppsLast = none → s.tm.sw = none → s.reg R.tmStatusSource < 3 →
    ∃ t, exec (.ppsEdge highOk) s = .next t ∧ t.reg R.tmPpsCapLoNs = s.devtime % 2 ^ 32 ∧
      t.reg R.tmPpsCapHiNs = s.devtime / 2 ^ 32 % 2 ^ 32 ∧ t.regS R.tmPhaseErr = phaseError s.devtime ∧
      t.tm = { s.tm with ppsLast := some s.devtime, ppsGood := if highOk then 1 else 0, corrSum := 0, corrN := 0 } ∧
      alGet t.timers .ppsLost = some (s.devtime + 1100000000) ∧ t = { s with regs := t.regs, tm := t.tm, timers := t.timers } ∧
      s.regsBut t [R.tmPpsCapLoNs.key 0 0, R.tmPpsCapHiNs.key 0 0, R.tmPhaseErr.key 0 0]) ∧
  (∀ (l : Nat) (s : State), s.clockRuns = true → s.tm.ppsLast = some l → 2 ≤ s.tm.ppsGood → s.flag R.tmStatusPpsQ = false →
    l + 999900000 ≤ s.devtime → s.devtime ≤ l + 1000100000 → s.tm.sw = none → s.reg R.tmStatusSource = 0 →
    (s.tm.ppsEverQual = true ∨ s.tm.noStep = true → ∃ t, exec (.ppsEdge true) s = .next t ∧ t.reg R.tmStatusPpsQ = 1 ∧
      t.tm.ppsGood = 3 ∧ t.tm.ppsQualAt = s.devtime ∧ t = { s with regs := t.regs, tm := t.tm, timers := t.timers } ∧
      s.regsBut t [R.tmPpsCapLoNs.key 0 0, R.tmPpsCapHiNs.key 0 0, R.tmPhaseErr.key 0 0, R.tmStatusPpsQ.key 0 0]) ∧
    (s.tm.ppsEverQual = false → s.tm.noStep = false → s.devtime + 1000000000 < 2 ^ 64 → ∃ t, exec (.ppsEdge true) s = .next t ∧
      t.reg R.tmStatusPpsQ = 1 ∧ t.reg R.tmStatusAligned = 1 ∧ t.devtime % 1000000000 = 0 ∧ s.devtime ≤ t.devtime ∧
      t.devtime < s.devtime + 1000000000 ∧ t = { s with devtime := t.devtime, regs := t.regs, tm := t.tm, timers := t.timers })) ∧
  (∀ s : State, s.due .ppsLost = true → s.flag R.tmStatusPpsQ = true → ∃ t u : State, exec .ppsTimeout s = .next t ∧
    u.reg R.tmStatusPpsQ = 0 ∧ u.armed .ppsLost = false ∧ u.tm = { s.tm with ppsLast := none, ppsGood := 0, ppsRates := [] } ∧
    u = { s with regs := u.regs, tm := u.tm, timers := u.timers } ∧ s.regsBut u [R.tmStatusPpsQ.key 0 0] ∧
    t = (u.raise 0x50000C 13 0 4).reviewSources) ∧
  (∀ s : State, s.due .ppsLost = false → exec .ppsTimeout s = .next s) ∧
  (∀ (ppb : Int) (highOk : Bool) (s : State), s.clockRuns = false → exec (.refWindow ppb) s = .next s ∧
    exec .refEdgeLoss s = .next s ∧ exec (.ppsEdge highOk) s = .next s ∧ exec .upwardHoldExpire s = .next s ∧
    exec .camSyncPulse s = .next s ∧ exec .xtalFail s = .next s)) ∧
  ((∀ (q : Nat) (s : State), s.clockRuns = true → s.tm.sw = none → 2 ≤ q → q ≤ 4 → s.reg R.tmStatusSource < q → s.sourceOk q = true →
    s.sourceSince q + 10000000000 ≤ s.devtime → s.devtime < 2 ^ 64 →
    (∀ p, q < p → p ≤ 4 → s.sourceOk p = false ∨ s.devtime < s.sourceSince p + 10000000000) →
    ∃ t, exec .upwardHoldExpire s = .next t ∧ t.reg R.tmStatusSwitch = 1 ∧ t.reg R.tmStatusTarget = q ∧ t.corr = s.corr ∧
      t.tm.sw = some { down := false, target := q, corr0 := s.freqPart, mark := s.devtime } ∧
      alGet t.timers .announce = some (s.devtime + (openDiv 209 ((384000 * s.increment : Nat) : Int) (2 ^ 32)).toNat) ∧
      t = { s with regs := t.regs, tm := t.tm, timers := t.timers } ∧
      s.regsBut t [R.tmStatusSwitch.key 0 0, R.tmStatusTarget.key 0 0]) ∧
  (∀ s : State, s.tm.sw.isSome = true → exec .upwardHoldExpire s = .next s) ∧
  (∀ (w : Switch) (s : State), s.due .announce = true → s.tm.sw = some w → ∃ t, exec .announceEnd s = .next t ∧
    t.reg R.tmStatusSwitch = 2 ∧ t.tm.fTo = max (-200000) (min 200000 (s.sourceFreq w.target)) ∧ t.tm.fFrom = s.freqPart ∧
    alGet t.timers .slew = some (s.devtime + max 100000000 (max (if hasPhase w.target then s.phaseTime (s.regS R.tmPhaseErr) else 0)
      (s.rampTime (t.tm.fTo - s.freqPart)))) ∧ t.armed .announce = false ∧
    t = { s with regs := t.regs, tm := t.tm, timers := t.timers } ∧ s.regsBut t [R.tmStatusSwitch.key 0 0]) ∧
  (∀ (w : Switch) (s : State), s.due .slew = true → s.tm.sw = some w → w.target ≤ 4 → s.reg R.tmStatusSource ≠ w.target → ∃ t u : State, exec .slewEnd s = .next t ∧
    u.reg R.tmStatusSource = w.target ∧ u.reg R.tmStatusSwitch = 0 ∧ u.reg R.tmStatusHoldAged = 0 ∧ u.tm.sw = none ∧
    u.reg R.tmSwitchesCommits = (s.reg R.tmSwitchesCommits + 1) % 2 ^ R.tmSwitchesCommits.width ∧
    u.armed .holdAge = decide (w.target = 1) ∧ u = { s with regs := u.regs, tm := u.tm, timers := u.timers } ∧
    s.regsBut u [R.tmStatusSource.key 0 0, R.tmStatusSwitch.key 0 0, R.tmStatusHoldAged.key 0 0, R.tmSwitchesCommits.key 0 0] ∧
    t = u.raise 0x500020 0 0 4) ∧
  (∀ (w : Switch) (s u : State), s.due .reverse = true → s.tm.sw = some w → u = (s.bump R.tmSwitchesCancels).raise 0x500020 16 0 4 →
    w.down = true ∨ (u.sourceOk (u.reg R.tmStatusSource) = true ∧ u.reg R.tmStatusSource ≤ 4) →
    ∃ t, exec .reversingEnd s = .next t ∧ t.reg R.tmStatusSource = (if w.down then u.bestSource else u.reg R.tmStatusSource) ∧
      t.reg R.tmStatusSwitch = 0 ∧ t.tm.sw = none ∧ t.armed .reverse = false ∧
      t = { u with regs := t.regs, tm := t.tm, timers := t.timers } ∧
      u.regsBut t [R.tmStatusSource.key 0 0, R.tmStatusSwitch.key 0 0, R.tmStatusHoldAged.key 0 0]) ∧
  (∀ s : State, s.due .holdAge = true → ∃ t, exec .holdAged s = .next t ∧ t.reg R.tmStatusHoldAged = 1 ∧ t.armed .holdAge = false ∧
    t = { s with regs := t.regs, timers := t.timers } ∧ s.regsBut t [R.tmStatusHoldAged.key 0 0]) ∧
  (∀ s : State, s.clockRuns = true → ∃ t, exec .xtalFail s = .next t ∧ t = (s.raise 0x50000C 15 3 4).setReg R.tmStatusXtalFail 1 ∧
    t.clockRuns = false) ∧
  (∀ s : State, (s.due .announce = false → exec .announceEnd s = .next s) ∧ (s.due .slew = false → exec .slewEnd s = .next s) ∧
    (s.due .reverse = false → exec .reversingEnd s = .next s) ∧ (s.due .holdAge = false → exec .holdAged s = .next s)))

/-- O (R213 to R216): camera offsets. At a whole second CAM_SYNC rises for 10 µs and a read of each LEARN port is due within 500 ms. A
sample that is one of the first two, within the tolerance, or the third of three that agree, becomes OFFSET; another one counts in
JUMPS and leaves OFFSET as it is. A miss counts, and the third in a row sets LOST. A write of MODE starts afresh.
Choices of the model in it: log entries 10, 5 and 40. -/
def Obligations.CameraOffsets : Prop :=
  (∀ (n : Nat) (latch : BitVec 48) (s : State), s.clockRuns = true → (s.cam n).waiting = true → s.reg R.tmCamCfgMode n = 1 →
    s.due (.camLatch n) = false → n < s.tm.cams.length → ∃ t, exec (.camLatchReadDone n latch) s = .next t ∧
      (t.cam n).waiting = false ∧ (t.cam n).missRun = 0 ∧ t.armed (.camLatch n) = false) ∧
  (∀ s : State, s.clockRuns = true → s.inRun = true → s.flag R.tmCtrlSyncEn = true → s.devtime % 1000000000 < 10000 →
    s.tm.lastPulse ≠ some (s.devtime / 1000000000) → s.tm.cams.length = 4 → ∃ t, exec .camSyncPulse s = .next t ∧
      t.pins = { s.pins with camSync := .high } ∧ t.tm.lastPulse = some (s.devtime / 1000000000) ∧
      alGet t.timers .camSync = some (s.devtime / 1000000000 * 1000000000 + 10000) ∧
      (∀ n, n < s.member.ports → t.cam n = if s.reg R.tmCamCfgMode n = 1 then
        { s.cam n with pulse := s.devtime / 1000000000, waiting := true } else s.cam n) ∧
      (∀ n, n < s.member.ports → s.reg R.tmCamCfgMode n = 1 → alGet t.timers (.camLatch n) = some (s.devtime + 500000000)) ∧
      t = { s with pins := t.pins, tm := t.tm, timers := t.timers }) ∧
  (∀ s : State, s.inRun = false ∨ s.flag R.tmCtrlSyncEn = false ∨ 10000 ≤ s.devtime % 1000000000 ∨
    s.tm.lastPulse = some (s.devtime / 1000000000) → exec .camSyncPulse s = .next s) ∧
  (∀ (n : Nat) (latch : BitVec 48) (v p : Int) (s : State), s.clockRuns = true → (s.cam n).waiting = true →
    s.reg R.tmCamCfgMode n = 1 → s.due (.camLatch n) = false → n < s.tm.cams.length → n < 4 → (s.cam n).pulse < 2 ^ 33 →
    v = ((s.cam n).pulse * 1000000000 : Nat) - (latch.toNat % 2 ^ 41 * 1000 : Nat) + s.regS R.tmPinDlyNs →
    p = s.camBase n + openDiv 214 (s.regS R.tmCamDriftPpb n * (((s.cam n).pulse * 1000000000 : Nat) - ((s.cam n).lastAt : Int)))
      1000000000 →
    ((s.cam n).fresh < 2 ∨ (v - p).natAbs ≤ 1000 * s.reg R.tmCtrlOfsTol → ∃ t, exec (.camLatchReadDone n latch) s = .next t ∧
      t.camBase n = v ∧ t.reg R.tmCamStatLost n = 0 ∧ (t.cam n).waiting = false ∧ (t.cam n).cands = [] ∧
      (t.cam n).lastAt = (s.cam n).pulse * 1000000000 ∧ (∀ m, m ≠ n → t.cam m = s.cam m) ∧
      t = { s with regs := t.regs, tm := t.tm, timers := t.timers } ∧
      s.regsBut t [R.tmCamOfsLoOffset.key n 0, R.tmCamOfsHiOffset.key n 0, R.tmCamStatLost.key n 0, R.tmCamDriftPpb.key n 0]) ∧
    (2 ≤ (s.cam n).fresh → ((1000 * s.reg R.tmCtrlOfsTol : Nat) : Int) < (v - p).natAbs → (s.cam n).cands.length < 2 →
      ∃ t, exec (.camLatchReadDone n latch) s = .next t ∧
        t.cam n = { s.cam n with waiting := false, missRun := 0, cands := (s.cam n).cands ++ [v] } ∧
        t.reg R.tmCamStatJumps n = (s.reg R.tmCamStatJumps n + 1) % 2 ^ R.tmCamStatJumps.width ∧
        t = { s with regs := t.regs, tm := t.tm, timers := t.timers } ∧ s.regsBut t [R.tmCamStatJumps.key n 0]) ∧
    (∀ a b : Int, 2 ≤ (s.cam n).fresh → ((1000 * s.reg R.tmCtrlOfsTol : Nat) : Int) < (v - p).natAbs → (s.cam n).cands = [a, b] →
      (a - b).natAbs ≤ 1000 * s.reg R.tmCtrlOfsTol → (a - v).natAbs ≤ 1000 * s.reg R.tmCtrlOfsTol →
      (b - v).natAbs ≤ 1000 * s.reg R.tmCtrlOfsTol → ∃ t, exec (.camLatchReadDone n latch) s = .next t ∧ t.camBase n = v ∧
        (t.cam n).cands = [] ∧ t.reg R.tmCamStatJumps n = (s.reg R.tmCamStatJumps n + 1) % 2 ^ R.tmCamStatJumps.width)) ∧
  (∀ (n : Nat) (latch : BitVec 48) (s : State), (s.cam n).waiting = false ∨ s.reg R.tmCamCfgMode n ≠ 1 →
    exec (.camLatchReadDone n latch) s = .next s) ∧
  (∀ (n : Nat) (nack : Bool) (s : State), s.clockRuns = true → (s.cam n).waiting = true → nack = true ∨ s.due (.camLatch n) = true →
    n < s.tm.cams.length → ∃ t, exec (.camLatchTimeout n nack) s = .next t ∧
      t.cam n = { s.cam n with waiting := false, missRun := (s.cam n).missRun + 1 } ∧ (∀ m, m ≠ n → t.cam m = s.cam m) ∧
      t.reg R.tmCamStatMisses n = (s.reg R.tmCamStatMisses n + 1) % 2 ^ R.tmCamStatMisses.width ∧
      t.reg R.tmCamStatLost n = (if 2 ≤ (s.cam n).missRun then 1 else s.reg R.tmCamStatLost n) ∧
      t = { s with regs := t.regs, tm := t.tm, timers := t.timers } ∧
      s.regsBut t [R.tmCamStatMisses.key n 0, R.tmCamStatLost.key n 0]) ∧
  (∀ (n : Nat) (mode : BitVec 2) (s : State), s.alive = true → n < s.member.ports → n < s.tm.cams.length →
    ∃ t, exec (.camModeWrite n mode) s = .next t ∧ t.reg R.tmCamCfgMode n = mode.toNat ∧ t.cam n = { lastAt := s.devtime } ∧
      (∀ m, m ≠ n → t.cam m = s.cam m) ∧ t.armed (.camLatch n) = false ∧
      t = { s with regs := t.regs, tm := t.tm, timers := t.timers } ∧ s.regsBut t [R.tmCamCfgMode.key n 0])

/-! ## The spiking fabric (R254 to R282) -/

/-- O (R231, R237, R265 to R270, R255, R257 to R259): the keyed stream. The head cell of a keyed queue leaves it on VC1 under its route key; an EOP cell
waits until no earlier cell is on its way, and ends its item when every copy of it has been taken. A tile takes the first packet that
may be taken: a cut marker at the export tile is counted off, a data cell that no map entry matches counts in UNMATCHED, another one
is integrated, and what of it lies beyond an open step stays; a spike at its export tile is pushed into the output queue first.
One input of weight w for a neuron of a population that is not PACED, at or after its T_LAST and past its
refractory time. V and A decay over the time since T_LAST, V takes w shifted, within 16 bits and not below V_MIN; below THETA0 + A
the neuron stays so; from there on it spikes: V becomes V_RESET, A grows by A_INC and the refractory time starts. Within the
refractory time the input is ignored. Every byte outside the neuron's record stays.
Choices of the model in it: log entries 10, 42 and 44. -/
def Obligations.KeyedStreamAndNeurons : Prop :=
  (∀ (q : Nat) (c : Cell) (rest : List Cell) (s : State), s.popAllowed 0x7F q = true → (s.queue q).severing = false →
    (s.queue q).cells = c :: rest → c.eop = true → c.marker = false → s.keyedOut q = false → (s.queue q).discard = false →
    s.flag R.qmQCfgRetired q = false → q < 511 → ∃ t i b, exec (.keyedPop q .none) s = .next t ∧ (t.queue q).cells = rest ∧
      (t.queue q).eopOut = (s.queue q).eopOut ++ [(i, b)] ∧ t.mesh.packets.length = s.mesh.packets.length + 1) ∧
  ((∀ (q : Nat) (c : Cell) (rest : List Cell) (s : State), s.popAllowed 0x7F q = true → (s.queue q).severing = false →
    (s.queue q).cells = c :: rest → c.eop = false → c.marker = false → parity 64 c.data.toNat = c.dp → (s.queue q).discard = false →
    s.flag R.qmQCfgRetired q = false → q < 511 → ∃ t, exec (.keyedPop q .none) s = .next t ∧ (t.queue q).cells = rest ∧
      (∀ n, n ≠ q → t.queue n = s.queue n) ∧ t.mesh = { s.mesh with packets := s.mesh.packets ++
        [{ item := c.itemSeen 0, key := keyedKey q c.data 0, vc := 1, epoch := s.reg R.cvStatusEpoch, dest := 0,
           tile := Config.keyedRouter q % s.member.tiles, cells := [(c.data, 0)], qid := q,
           origin := Config.keyedRouter q % s.member.tiles, since := s.devtime }] } ∧
      t = { s with regs := t.regs, pal := t.pal, mesh := t.mesh, pins := { s.pins with xoff := t.pins.xoff } } ∧ s.regsBut t [R.eiXoffState.key 0 0]) ∧
  (∀ (q : Nat) (c : Cell) (rest : List Cell) (u : Upset) (s : State), (s.queue q).cells = c :: rest → c.eop = true →
    s.keyedOut q = true → exec (.keyedPop q u) s = .next s) ∧
  (∀ (q : Nat) (u : Upset) (s : State), s.keyedOut q = false → s.popAllowed 0x7F q = false →
    exec (.keyedPop q u) s = .next (s.setReg R.qmStatusWrongEp 1)) ∧
  (∀ (q : Nat) (item : ItemId) (lossy : Bool) (rest : List (ItemId × Bool)) (s : State), (s.queue q).eopOut = (item, lossy) :: rest →
    ((s.mesh.packets ++ s.mesh.atLocal).any (fun p => p.qid == q && p.eop)) = false → ∃ t u : State,
      exec (.keyedEopAccepted q) s = .next t ∧ u.queue q = { s.queue q with eopOut := rest } ∧ (∀ n, n ≠ q → u.queue n = s.queue n) ∧
      u = { s with pal := { s.pal with queues := u.pal.queues } } ∧ t = u.endTaken 5 item lossy) ∧
  (∀ (q : Nat) (s : State), (s.queue q).eopOut = [] ∨ ((s.mesh.packets ++ s.mesh.atLocal).any (fun p => p.qid == q && p.eop)) = true →
    exec (.keyedEopAccepted q) s = .next s) ∧
  (∀ (t i : Nat) (fails : List Nat) (p : Packet) (s : State), s.role t = 1 → s.domOn (10 + s.quadOf t) = true → t < 64 →
    s.nextInput t s.mesh.atLocal 0 [] [] = some i → s.mesh.atLocal[i]? = some p → p.isCut = true →
    s.reg R.sfPopCfgExportTile (bits p.key 30 24) = t → ∃ r, exec (.spikeTileInput t fails) s = .next r ∧
      r.mesh = { s.mesh with atLocal := s.mesh.atLocal.eraseIdx i } ∧
      r.pop (bits p.key 30 24) = { s.pop (bits p.key 30 24) with
        cut := (s.pop (bits p.key 30 24)).cut.map fun c => (c.1, c.2.filter (fun n => decide (n ≠ p.origin))) } ∧
      (∀ n, n ≠ bits p.key 30 24 → r.pop n = s.pop n) ∧ r = { s with regs := r.regs, mesh := r.mesh, sf := r.sf, timers := r.timers } ∧
      s.regsBut r [R.sfTStatAwake.key t 0, R.sfTCntCount.key t 6, R.cvEpochDrainCount.key 0 0]) ∧
  (∀ (t i : Nat) (fails : List Nat) (p : Packet) (s : State), s.role t = 1 → s.domOn (10 + s.quadOf t) = true → t < 64 →
    s.nextInput t s.mesh.atLocal 0 [] [] = some i → s.mesh.atLocal[i]? = some p → p.isData = true →
    ∃ (r u v : State) (x : Option Packet), exec (.spikeTileInput t fails) s = .next r ∧ u.reg R.sfTStatAwake t = 1 ∧
      u = { s with regs := u.regs, timers := u.timers } ∧ s.regsBut u [R.sfTStatAwake.key t 0, R.sfTCntCount.key t 6] ∧
      (s.exportDue t p = false → (x, v) = u.integrate t p fails) ∧
      (s.exportDue t p = true → (x, v) = (u.exportCell (bits p.key 30 24) t p.item p.cell).integrate t
        { p with served := p.served ++ [64] } fails) ∧
      (s.exportDue t p = false → s.inputPops t p = none → x = none ∧ v = u.bump R.sfTCntCount t 3) ∧
      r = (v.modMesh fun m => { m with atLocal := match x with
        | some y => m.atLocal.set i y
        | none => m.atLocal.eraseIdx i }).refreshDrain) ∧
  (∀ (t : Nat) (fails : List Nat) (s : State), s.role t ≠ 1 ∨ s.domOn (10 + s.quadOf t) = false ∨
    s.nextInput t s.mesh.atLocal 0 [] [] = none → exec (.spikeTileInput t fails) s = .next s)) ∧
  (∀ (p t i a us d : Nat) (w v : Int) (n m : Neuron) (pol : Bool) (s : State), p < 64 → s.paced p = false → a % 2 ^ 20 + 16 ≤ 2 ^ 20 →
    n = s.neuronAt t a → elapsed us n.last = (d, false) → m = s.decayNeuron t p d n →
    v = s.floorV p (m.v + w * 2 ^ s.reg R.sfPopPar2WShift p) →
    (n.left ≤ d → v < s.reg R.sfPopPar0Theta0 p + m.a →
      (s.neuronInput p t i a us w pol false).neuronAt t a = { v := v, a := m.a, last := us % 2 ^ 32, left := 0 }) ∧
    (n.left ≤ d → ((s.reg R.sfPopPar0Theta0 p + m.a : Nat) : Int) ≤ v → s.reg R.sfPopPar1TRef p < 2 ^ 16 →
      (s.neuronInput p t i a us w pol false).neuronAt t a =
        { v := s.floorV p (s.regS R.sfPopPar1VReset p), a := min 65535 (m.a + s.reg R.sfPopPar0AInc p), last := us % 2 ^ 32,
          left := s.reg R.sfPopPar1TRef p }) ∧
    (d < n.left → (s.neuronInput p t i a us w pol false).neuronAt t a = { m with last := us % 2 ^ 32, left := n.left - d }) ∧
    (∀ x, x < tileAddr t a ∨ tileAddr t a + 16 ≤ x → (s.neuronInput p t i a us w pol false).tmem.read x = s.tmem.read x))

/-- O (R260 to R264, R270, R273, R274): steps, items, windows and sleep. A tile closes its open step at or after its nominal close
when no input of it waits, or at its hard close, and the next one opens. A sweep brings an old neuron up to now. CUT sends a marker from
every SPIKE tile of the population whose domain is on; with every marker in, the EOP cell of the current item is pushed and the new item is current. RESET
clears every neuron. A count window that ends fills the snapshot. A tile idle for 2 µs sleeps.
Choices of the model in it: log entries 10, 42 and 43. -/
def Obligations.SpikingStepsAndItems : Prop :=
  (∀ (p t : Nat) (fails : List Nat) (s : State), s.role t = 1 → s.domOn (10 + s.quadOf t) = true → s.paced p = true → s.holdsPop t p = true →
    s.nominalClose p t = true → s.inputPending p t = false ∨ s.hardClose p t = true →
    ∃ r, exec (.pacedStepClose p t fails) s = .next r ∧ r = (s.wakeTile t).closeStep p t (s.inputPending p t) fails ∧
      r.openStep p t = s.openStep p t + 1 ∧ r.devtime = s.devtime ∧ r.ext = s.ext) ∧
  (∀ (p t : Nat) (fails : List Nat) (s : State), s.role t ≠ 1 ∨ s.paced p = false ∨ s.nominalClose p t = false ∨
    (s.inputPending p t = true ∧ s.hardClose p t = false) → exec (.pacedStepClose p t fails) s = .next s) ∧
  (∀ (t : Nat) (s : State), s.role t = 1 → s.domOn (10 + s.quadOf t) = true → ∃ r, exec (.neuronSweep t) s = .next r ∧
    r = { s with tmem := r.tmem } ∧ (∀ x, x < t * 2 ^ 20 ∨ (t + 1) * 2 ^ 20 ≤ x → r.tmem.read x = s.tmem.read x) ∧
    (∀ p i a, s.tilePops t = [p] → s.popNeurons t p = [(i, a)] → s.neuronOld t a = true →
      r.neuronAt t a = (s.advance t p s.us (s.neuronAt t a)).1)) ∧
  (∀ (k p : Nat) (o : SlotOp) (s : State), s.spikeOp k 0 = some (o, p) → (s.pop p).cut = none → ∃ r, exec (.cut k) s = .next r ∧
    r.pop p = { s.pop p with cut := some (o.item, s.spikeTiles p) } ∧ (∀ n, n ≠ p → r.pop n = s.pop n) ∧
    r.mesh = { s.mesh with packets := s.mesh.packets ++
      ((s.spikeTiles p).filter fun t => s.domOn (10 + s.quadOf t)).map fun t =>
        { item := s.popItem p, key := 2 ^ 31 + p * 2 ^ 24 + 0xFFFFFF, vc := 1, epoch := s.reg R.cvStatusEpoch, dest := 0, tile := t,
          cells := [], origin := t, since := s.devtime } } ∧
    r.spikeOp k 0 = none ∧ r = { s with pp := r.pp, sf := r.sf, mesh := r.mesh }) ∧
  (∀ (k : Nat) (s : State), s.spikeOp k 0 = none → exec (.cut k) s = .next s) ∧
  (∀ (p : Nat) (item : ItemId) (s : State), (s.pop p).cut = some (item, []) → (s.pop p).poison = false →
    (s.markOf (0x20 + s.reg R.sfPopCfgExportTile p) (s.reg R.sfPopCfgOutQid p)).isSome = true →
    ∃ r u : State, exec (.cutMarkersCollected p) s = .next r ∧
      u = s.pushItem (0x20 + s.reg R.sfPopCfgExportTile p) (s.reg R.sfPopCfgOutQid p)
        (eopCell (s.popItem p) (s.pop p).sent (s.pop p).lossy) (s.popItem p) true false 7 0 ∧
      r.popItem p = item ∧ r.pop p = { s.pop p with cut := none, sent := 0, lossy := false } ∧
      (∀ n, n ≠ p → r.pop n = s.pop n) ∧ r = { u with regs := r.regs, sf := r.sf, pp := r.pp } ∧
      u.regsBut r [R.sfPopItemId.key p 0]) ∧
  (∀ (p : Nat) (s : State), (∀ item, (s.pop p).cut ≠ some (item, [])) → exec (.cutMarkersCollected p) s = .next s) ∧
  (∀ (k p : Nat) (o : SlotOp) (s : State), s.spikeOp k 1 = some (o, p) → ∃ r, exec (.resetPop k) s = .next r ∧
    (∀ t, t ∈ s.spikeTiles p → ∀ e, e ∈ s.popNeurons t p → r.neuronAt t e.2 = { last := s.us % 2 ^ 32 }) ∧ r.opAt k 1 = none ∧
    r = { s with pp := r.pp, tmem := r.tmem }) ∧
  (∀ (p w : Nat) (l : List Nat) (s : State), p < 64 → s.clockRuns = true → w = s.us / s.reg R.sfPopWinWinUs p → w ≠ (s.pop p).win →
    l = ((s.pop p).spikes.filter fun e => e.1 + 1 == w).map (·.2) → ∃ r, exec (.spikeCountWindow p) s = .next r ∧
      r.reg R.sfPopSnapTotalCount p = l.length % 2 ^ R.sfPopSnapTotalCount.width ∧
      r.reg R.sfPopSnapSeqSeq p = w % 2 ^ R.sfPopSnapSeqSeq.width ∧
      (∀ b, b < 16 → r.reg R.sfPopBinCount p b = (l.filter (· == b)).length % 2 ^ R.sfPopBinCount.width) ∧
      (r.pop p).win = w ∧ (∀ n, n ≠ p → r.pop n = s.pop n) ∧ r = { s with regs := r.regs, sf := r.sf } ∧
      s.regsBut r ([R.sfPopSnapTotalCount.key p 0, R.sfPopSnapSeqSeq.key p 0] ++ (List.range 16).map fun b => R.sfPopBinCount.key p b)) ∧
  (∀ (t : Nat) (s : State), s.due (.tileSleep t) = true → (s.mesh.atLocal.any fun p => p.tile == t && p.vc == 1) = false →
    ((s.tilePops t).any fun p => (s.paced p && s.nominalClose p t) || (s.popNeurons t p).any fun e => s.neuronOld t e.2) = false →
    ∃ r, exec (.tileSleep t) s = .next r ∧ r.reg R.sfTStatAwake t = 0 ∧ r.armed (.tileSleep t) = false ∧
      r = { s with regs := r.regs, timers := r.timers } ∧ s.regsBut r [R.sfTStatAwake.key t 0]) ∧
  (∀ (t : Nat) (s : State), s.due (.tileSleep t) = false → exec (.tileSleep t) s = .next s)

/-! ## The dense fabric (R284 to R311) -/

/-- O (R286 to R295, R305, R309 to R311): GEMM, CONV, GCONV, POOL and ELTWISE. When it is its turn and every region fits, the operation
writes its output regions, counts on its tiles and finishes; every byte outside the output regions stays, and the render side where no screen
tile contends. On one tile with INT8 output
every element of the tile's share holds its value of the inputs as they were. A region that does not fit ends it as the bounds rule says;
until its turn it waits. Choices of the model in it: log entries 10, 8 and 45. -/
def Obligations.DenseOperations : Prop :=
  ∀ (k kind : Nat) (f : Nat → Option Nat → Instr) (s : State),
    (kind, f) ∈ ([(0, .gemm), (1, .conv), (2, .gconv), (3, .pool), (4, .eltwise)] : List (Nat × (Nat → Option Nat → Instr))) →
    (∀ pt, s.denseOp k kind = none → exec (f k pt) s = .next s) ∧
    (∀ (o : SlotOp) (d : DenseDesc) (tiles : List Nat) (pt : Option Nat), s.denseOp k kind = some (o, d, tiles) →
      ∃ t, exec (f k pt) s = .next t ∧ t.opAt k 1 = none) ∧
    (∀ (o : SlotOp) (d : DenseDesc) (tiles : List Nat) (pt : Option Nat), s.denseOp k kind = some (o, d, tiles) →
      allOf ((shares kind d tiles).map (s.placesOf kind d)) = none → exec (f k pt) s = .next (s.boundsFail k)) ∧
    (∀ (o : SlotOp) (d : DenseDesc) (tiles : List Nat) (ps : List Places) (wOut fmt : Nat), s.denseOp k kind = some (o, d, tiles) →
      allOf ((shares kind d tiles).map (s.placesOf kind d)) = some ps →
      wOut = (if kind = 0 ∨ kind = 4 then d.w else outSize d.pad d.kw d.dil d.stride d.w) →
      fmt = (if kind = 3 then d.fmtIn else d.fmtOut) →
      (∀ e ∈ (shares kind d tiles).zip ps, e.2.out + mapBytes fmt wOut e.1.rows e.1.chans ≤ 2 ^ 20) →
      ∃ t, exec (f k none) s = .next t ∧ t.opAt k 1 = none ∧
        t = { s with regs := t.regs, tmem := t.tmem, pp := t.pp, rd := t.rd, freeCtr := t.freeCtr } ∧
        s.regsBut t (keysOf R.deTCntCount ++ keysOf R.rdCntCount) ∧
        ((∀ x ∈ s.rd.sides, x.screen = none) → t.rd = s.rd ∧ s.regsBut t (keysOf R.deTCntCount)) ∧
        (∀ a, (∀ e ∈ (shares kind d tiles).zip ps, a < tileAddr e.1.tile e.2.out ∨
            tileAddr e.1.tile e.2.out + mapBytes fmt wOut e.1.rows e.1.chans ≤ a) → t.tmem.read a = s.tmem.read a) ∧
        (∀ (tl : Nat) (sh : Share) (p : Places), tiles = [tl] → shares kind d tiles = [sh] → ps = [p] → fmt = 0 →
          ∀ j x n, j < sh.rows → x < wOut → n < sh.chans →
            t.tmem.read (tileAddr tl (p.out + ((j * wOut + x) * padTo 4 sh.chans + n))) =
              BitVec.ofNat 8 (s.denseElem kind d sh p x (sh.r0 + j) n).1)) ∧
    (∀ (o : SlotOp) (d : DenseDesc) (tl : Nat) (sh : Share) (p : Places) (wOut fmt : Nat), s.denseOp k kind = some (o, d, [tl]) →
      shares kind d [tl] = [sh] → s.placesOf kind d sh = some p →
      wOut = (if kind = 0 ∨ kind = 4 then d.w else outSize d.pad d.kw d.dil d.stride d.w) →
      fmt = (if kind = 3 then d.fmtIn else d.fmtOut) → ∃ u : State, exec (f k none) s = .next (u.finishOp k) ∧
        exec (f k (some tl)) s =
          .next (((u.tileUndef tl p.out (mapBytes fmt wOut sh.rows sh.chans)).denseParity tl o.item).finishOp k))

/-- O (R296 to R298, R308, R310): GEMM_BATCH and the time surfaces, on one tile. A batch of one problem runs it as a GEMM of its own;
an empty one only counts and finishes; a count above MAX_COUNT sets CLAMP with a fault of severity 1. An event that lies in the surface raises its
bin's LAST and COUNT and the surface's newest time, and no other byte. A readout writes its map of two planes; the count readout then
clears the counts. Choices of the model in it: log entries 10, 45 and 46. -/
def Obligations.BatchesAndSurfaces : Prop :=
  (∀ (k : Nat) (o : SlotOp) (d : DenseDesc) (tiles : List Nat) (pt : Option Nat) (s : State), s.denseOp k 6 = some (o, d, tiles) →
    ∃ t, exec (.gemmBatch k pt) s = .next t ∧ t.opAt k 1 = none) ∧
  (∀ (n k : Nat) (f : Instr) (o : SlotOp) (d : DenseDesc) (tiles : List Nat) (pt : Option Nat) (s : State),
    (n, f) ∈ [(0, Instr.surfaceAccumulate k pt), (1, .surfaceTimeReadout k pt), (2, .surfaceCountReadout k pt)] →
    s.denseOp k 5 = some (o, d, tiles) → d.sub = n → ∃ t, exec f s = .next t ∧ t.opAt k 1 = none) ∧
  (∀ (k tl list : Nat) (o : SlotOp) (d b : DenseDesc) (e : Nat × Nat × Nat × Nat) (p : Places) (s : State),
    s.denseOp k 6 = some (o, d, [tl]) → o.count = 1 → 1 ≤ d.maxCount → s.placeIn tl d.in2Part d.in2Off 16 [5, 8] = some list →
    e = batchEntry (s.tileNat tl list 16) → e.1 ≤ 32 → b = batchDesc d e → s.placesOf 0 b (batchShare b 1 0 tl) = some p →
    ∃ (u : State) (n : Nat), (u, n) = (s.contest tl).writeShare 0 b (batchShare b 1 0 tl) p ∧ exec (.gemmBatch k none) s =
      .next ((u.countOp tl (32 + (denseCost 0 b (batchShare b 1 0 tl) - 32)) n).finishOp k)) ∧
  (∀ (k tl : Nat) (o : SlotOp) (d : DenseDesc) (s : State), s.denseOp k 6 = some (o, d, [tl]) → o.count = 0 →
    exec (.gemmBatch k none) s = .next (((s.contest tl).countOp tl 32 0).finishOp k)) ∧
  (∀ (k tl : Nat) (o : SlotOp) (d : DenseDesc) (s : State), s.denseOp k 6 = some (o, d, [tl]) → d.maxCount = 0 → 0 < o.count →
    exec (.gemmBatch k none) s =
      .next ((((((s.setReg R.deStatusClamp 1).raise 0xB00000 1 1 9).contest tl).countOp tl 32 0)).finishOp k)) ∧
  (∀ (k tl a b x y e time : Nat) (o : SlotOp) (d : DenseDesc) (cell : Nat) (s : State), s.denseOp k 5 = some (o, d, [tl]) →
    d.sub = 0 → o.count = 1 → 1 ≤ d.maxCount → tl < 64 →
    s.placeIn tl d.inPart d.inOff (8 * d.maxCount + tagBytes d.maxCount) [5, 8] = some a →
    s.placeIn tl d.outPart d.outOff (surfaceBytes d) [5, 8] = some b → b + surfaceBytes d ≤ 2 ^ 20 →
    cell = s.tileNat tl a 8 → s.tileNat tl (a + 8 * d.maxCount) 1 % 4 = 0 → bits cell 11 8 ≤ 1 →
    s.flag R.deTEpochValid tl (bits cell 39 38) = true → d.x0 ≤ bits cell 23 12 → d.y0 ≤ bits cell 35 24 →
    x = (bits cell 23 12 - d.x0) / 2 ^ d.bs → y = (bits cell 35 24 - d.y0) / 2 ^ d.bs → x < d.w → y < d.h →
    e = surfaceEntry d b x y (bits cell 37 37) →
    time = (s.reg R.deTEpochEpoch tl (bits cell 39 38) * 2 ^ 24 + bits cell 63 40) % 2 ^ 32 →
    ∃ t, exec (.surfaceAccumulate k none) s = .next t ∧ t.tileNat tl e 4 = max (s.tileNat tl e 4) time ∧
      t.tileNat tl (e + 4) 2 = min 65535 (s.tileNat tl (e + 4) 2 + 1) ∧ t.tileNat tl b 4 = max (s.tileNat tl b 4) time ∧
      (∀ n, n < tileAddr tl b ∨ (tileAddr tl b + 4 ≤ n ∧ n < tileAddr tl e) ∨ tileAddr tl e + 6 ≤ n →
        t.tmem.read n = s.tmem.read n) ∧ t.opAt k 1 = none ∧
      t = { s with regs := t.regs, tmem := t.tmem, pp := t.pp, freeCtr := t.freeCtr } ∧ s.regsBut t (keysOf R.deTCntCount)) ∧
  (∀ (k tl a q b : Nat) (o : SlotOp) (d : DenseDesc) (s : State), s.denseOp k 5 = some (o, d, [tl]) → d.sub = 1 → tl < 64 →
    s.placeIn tl d.inPart d.inOff (surfaceBytes d) [5, 8] = some a → s.placeIn tl d.wPart d.qOff 512 [4, 8] = some q →
    s.placeIn tl d.outPart d.outOff (4 * d.w * d.h) [5, 8] = some b → b + 4 * d.w * d.h ≤ 2 ^ 20 →
    ∃ t, exec (.surfaceTimeReadout k none) s = .next t ∧
      (∀ x y, x < d.w → y < d.h → t.tileRead tl (b + 4 * (y * d.w + x)) 4 =
        [BitVec.ofNat 8 (s.readoutElem d tl a q x y 1), BitVec.ofNat 8 (s.readoutElem d tl a q x y 0), 0, 0]) ∧
      (∀ n, n < tileAddr tl b ∨ tileAddr tl b + 4 * d.w * d.h ≤ n → t.tmem.read n = s.tmem.read n) ∧ t.opAt k 1 = none ∧
      t = { s with regs := t.regs, tmem := t.tmem, pp := t.pp, freeCtr := t.freeCtr } ∧ s.regsBut t (keysOf R.deTCntCount)) ∧
  (∀ (k tl a b : Nat) (o : SlotOp) (d : DenseDesc) (s : State), s.denseOp k 5 = some (o, d, [tl]) → d.sub = 2 → tl < 64 →
    s.placeIn tl d.inPart d.inOff (surfaceBytes d) [5, 8] = some a →
    s.placeIn tl d.outPart d.outOff (4 * d.w * d.h) [5, 8] = some b → b + 4 * d.w * d.h ≤ 2 ^ 20 → a + surfaceBytes d ≤ 2 ^ 20 →
    a + surfaceBytes d ≤ b ∨ b + 4 * d.w * d.h ≤ a → ∃ t, exec (.surfaceCountReadout k none) s = .next t ∧
      (∀ x y, x < d.w → y < d.h → t.tileRead tl (b + 4 * (y * d.w + x)) 4 =
        [BitVec.ofNat 8 (min 127 (s.tileNat tl (surfaceEntry d a x y 1 + 4) 2)),
         BitVec.ofNat 8 (min 127 (s.tileNat tl (surfaceEntry d a x y 0 + 4) 2)), 0, 0]) ∧
      (∀ x y c, x < d.w → y < d.h → c < 2 → t.tileNat tl (surfaceEntry d a x y c + 4) 2 = 0 ∧
        t.tileNat tl (surfaceEntry d a x y c) 4 = s.tileNat tl (surfaceEntry d a x y c) 4) ∧ t.opAt k 1 = none ∧
      t = { s with regs := t.regs, tmem := t.tmem, pp := t.pp, freeCtr := t.freeCtr } ∧ s.regsBut t (keysOf R.deTCntCount)) ∧
  (∀ (k : Nat) (pt : Option Nat) (s : State), s.denseOp k 5 = none → exec (.surfaceAccumulate k pt) s = .next s ∧
    exec (.surfaceTimeReadout k pt) s = .next s ∧ exec (.surfaceCountReadout k pt) s = .next s)

/-! ## Expert routing (R312 to R334) -/

/-- O (R312 to R318, R325 to R329, R331, R333): dispatch. An empty table leaves its routing table without objects and tokens and writes
64 counts of 0; an object whose class is stable is skipped and counted, without a token; a classified object with one enabled expert
becomes one token of weight 65,535, the next item of the expert's stream. A bias update moves each bias whose load lies outside the
dead band by one step within ± BMAX and copies the loads; a host write of a bias is held. A remote token whose timer expires ends
TIMEOUT. Choices of the model in it: log entries 10, 48 and 49. -/
def Obligations.DispatchAndBiases : Prop :=
  (∀ (k tl : Nat) (o : SlotOp) (d : ExpertDesc) (bad : List Nat) (s : State), s.expertOp k 0 = some (o, d, tl) → s.xr.biasDue = false →
    ∃ t, exec (.dispatch k bad) s = .next t ∧ t.opAt k 5 = none) ∧
  (∀ s : State, s.xr.biasDue = true → s.flag R.xrCtrlLoopEn = false → exec .biasUpdate s =
    .next { s with xr := { s.xr with biasDue := false, biasSkips := [], routed := [], keptCounts := [] } }) ∧
  (∀ (k : Nat) (bad : List Nat) (s : State), s.expertOp k 0 = none ∨ s.xr.biasDue = true → exec (.dispatch k bad) s = .next s) ∧
  (∀ (k tl base size a tbl : Nat) (o : SlotOp) (d : ExpertDesc) (s : State), s.expertOp k 0 = some (o, d, tl) → s.xr.biasDue = false →
    s.partOf tl d.part = some (base, size) → s.region tl d.part d.inOff 16 = some a → s.region tl d.part d.outOff 0 = some tbl →
    s.tileNat tl a 2 = 0 → ∃ t, exec (.dispatch k []) s = .next t ∧
      t.xr = { s.xr with tokens := s.xr.tokens.filter (fun x => decide (x.tbl ≠ tbl)),
                         objects := s.xr.objects.filter (fun x => decide (x.tbl ≠ tbl)) } ∧
      t.scratch.readBytes d.scrOff 128 = List.replicate 128 0 ∧
      (∀ n, n < d.scrOff ∨ d.scrOff + 128 ≤ n → t.scratch.read n = s.scratch.read n) ∧
      (∀ n, n < tileAddr tl (base + d.outOff) ∨ tileAddr tl (base + d.outOff) + Config.routingBytes 0 0 ≤ n →
        t.tmem.read n = s.tmem.read n) ∧ t.opAt k 5 = none ∧
      t = { s with xr := t.xr, scratch := t.scratch, tmem := t.tmem, pp := t.pp, freeCtr := t.freeCtr }) ∧
  (∀ (g : GoArgs) (tl tbl : Nat) (c : Candidate) (s : State), c.obj < 4096 → c.fresh = false → (s.xrEntry c.obj).hazard = false →
    c.obj ∉ g.force → s.reg R.xrSkipStableN ≤ (s.xrEntry c.obj).stable → s.reg R.xrSkipSkipConf ≤ (s.xrEntry c.obj).conf →
    (s.xrEntry c.obj).skip < s.reg R.xrSkipSkipMax → ∃ t, s.takeCandidate g tl tbl [] c = t ∧
      t.xr.objects = s.xr.objects ++ [{ tbl := tbl, obj := c.obj, skipped := true }] ∧ t.xr.tokens = s.xr.tokens ∧
      t.xrEntry c.obj = { s.xrEntry c.obj with skip := (s.xrEntry c.obj).skip + 1 } ∧
      (∀ m, m ≠ c.obj → t.xrEntry m = s.xrEntry m) ∧ t.reg R.xrCntCount 3 = (s.reg R.xrCntCount 3 + 1) % 2 ^ 32 ∧
      t = { s with regs := t.regs, xr := t.xr } ∧ s.regsBut t [R.xrCntCount.key 3 0]) ∧
  (∀ (g : GoArgs) (tl tbl j : Nat) (c : Candidate) (s : State), s.enabledExperts g = [j] → s.unreachable j = false →
    ∃ (t : State) (k : Token), s.selectExperts g tl tbl c = t ∧ t.xr.tokens = s.xr.tokens ++ [k] ∧ k.tbl = tbl ∧ k.obj = c.obj ∧
      k.expert = j ∧ k.rank = 0 ∧ k.weight = 0xFFFF ∧ k.item = s.nextItem (0x20 + j) ∧ k.remote = s.isRemote j ∧
      k.score = toSigned 16 (s.tileNat tl (c.logit + 2 * j) 2) + s.regS R.xrExpBiasBias j ∧ k.kept = true ∧
      t.live k.item = true ∧ t.reg R.xrCntCount 0 = (s.reg R.xrCntCount 0 + 1) % 2 ^ 32 ∧ t.xr.objects = s.xr.objects ∧
      t = { s with regs := t.regs, xr := t.xr, lg := t.lg } ∧ s.regsBut t [R.xrCntCount.key 0 0]) ∧
  (∀ s : State, s.xr.biasDue = false → exec .biasUpdate s = .next s) ∧
  (∀ (sum eact : Nat) (on : List Nat) (s : State), s.xr.biasDue = true → s.flag R.xrCtrlLoopEn = true → s.reg R.xrBiasctlBmax < 2 ^ 15 →
    on = (List.range 64).filter (fun j => s.flag R.xrExpCfgEn j) → eact = on.length →
    sum = (on.map fun j => (alGet s.xr.routed j).getD 0).foldl (· + ·) 0 → ∃ t, exec .biasUpdate s = .next t ∧
      (∀ (j r : Nat) (b : Int), j < 64 → r = (alGet s.xr.routed j).getD 0 → b = s.regS R.xrExpBiasBias j →
        t.regS R.xrExpBiasBias j =
          (if j ∈ on ∧ j ∉ s.xr.biasSkips ∧ s.reg R.xrBiasctlDead * sum < 256 * (((r * eact : Nat) : Int) - sum).natAbs then
            max (-(s.reg R.xrBiasctlBmax : Int)) (min (s.reg R.xrBiasctlBmax : Int)
              (if sum < r * eact then b - s.reg R.xrBiasctlStepB else b + s.reg R.xrBiasctlStepB))
          else b) ∧
        t.reg R.xrExpLoadRouted j = min 0xFFFF r ∧ t.reg R.xrExpLoadKept j = min 0xFFFF ((alGet s.xr.keptCounts j).getD 0)) ∧
      t.xr = { s.xr with biasDue := false, biasSkips := [], routed := [], keptCounts := [] } ∧ t = { s with regs := t.regs, xr := t.xr } ∧
      s.regsBut t (keysOf R.xrExpBiasBias ++ keysOf R.xrExpLoadRouted ++ keysOf R.xrExpLoadKept)) ∧
  (∀ (j : Nat) (v : Word) (s : State), s.alive = true → j < 64 → exec (.biasWrite j v) s =
    .next { s with xr := { s.xr with biasWrites := alPut s.xr.biasWrites j (v.toNat % 65536) } }) ∧
  (∀ (item : ItemId) (s : State), s.due (.remote item) = true → s.resultWaits item = false → ∃ t u : State,
    exec (.remoteTmo item) s = .next t ∧ u = { s with timers := u.timers } ∧ u.armed (.remote item) = false ∧
    t = (u.report item 0x06 0x0A 0).tokenLost item) ∧
  (∀ (item : ItemId) (s : State), s.due (.remote item) = false ∨ s.resultWaits item = true → exec (.remoteTmo item) s = .next s)

/-- O (R312, R315, R323 to R325): results. A skipped object's verdict repeats its class with VERDICT 1; a classified object's verdict
is the class of the highest combined score, with the score's lead as confidence, and its entry takes both; the verdicts and the
count go out as one item, and the tokens complete. EXIT marks the tokens of its expert whose confidence has been reached, keeps their
logits, and writes the number that remain; the compacted list lies in the tables' partition. Choices of the model in it: log entries 10, 8, 48 and 49. -/
def Obligations.CombineAndExit : Prop :=
  (∀ (k tl : Nat) (o : SlotOp) (d : ExpertDesc) (bad : List Nat) (s : State), s.expertOp k 1 = some (o, d, tl) →
    (∀ x ∈ s.xr.tokens, x.remote = true → x.result.isSome = true ∨ x.lost = true ∨ x.kept = false) →
    ∃ t, exec (.combine k bad) s = .next t ∧ t.opAt k 5 = none) ∧
  (∀ (k tl : Nat) (o : SlotOp) (d : ExpertDesc) (s : State), s.expertOp k 2 = some (o, d, tl) →
    ∃ t, exec (.exitOp k) s = .next t ∧ t.opAt k 5 = none) ∧
  (∀ (k tl tbl a : Nat) (o : SlotOp) (d : ExpertDesc) (x : XrObject) (e : XrEntry) (s : State), s.expertOp k 1 = some (o, d, tl) →
    s.region tl d.part d.inOff 0 = some tbl → s.region tl d.part d.outOff 0 = some a → s.flag R.xrCtrlMode = false →
    (s.xr.objects.filter fun x => decide (x.tbl = tbl)) = [x] → x.skipped = true → (∀ y ∈ s.xr.tokens, y.tbl ≠ tbl) →
    e = s.xrEntry x.obj → ∃ t u : State, exec (.combine k []) s = .next t ∧
      u = s.pushItemAll 0x60 d.outQid o.item 0x0A 0 [verdictCell x.obj e.cls e.conf 1 (8 * ofFlag x.forced),
        BitVec.ofNat 64 (o.item.toNat * 2 ^ 32 + 2 ^ 16 + 11 * 2 ^ 8)] ∧
      t.xr.objects = u.xr.objects.filter (fun x => decide (x.tbl ≠ tbl)) ∧ t.opAt k 5 = none ∧ t = { u with xr := t.xr, pp := t.pp }) ∧
  (∀ (k tl tbl a c : Nat) (hi lo : Int) (o : SlotOp) (d : ExpertDesc) (x : XrObject) (y : Token) (s : State),
    s.expertOp k 1 = some (o, d, tl) → s.region tl d.part d.inOff 0 = some tbl → s.region tl d.part d.outOff 0 = some a →
    s.flag R.xrCtrlMode = false → (s.xr.objects.filter fun x => decide (x.tbl = tbl)) = [x] → x.skipped = false → x.hazard = false →
    (s.xr.tokens.filter fun y => decide (y.tbl = tbl)) = [y] → y.obj = x.obj → y.kept = true → y.lost = false → y.remote = false →
    y.result = none → x.obj < 4096 → s.hasEnded y.item = false → y.item ∉ s.pal.poisoned →
    bestClass ((List.range d.nclass).map fun c => (y.weight : Int) *
      toSigned 8 (((s.tileRead tl (a + y.index * resultStride d.nclass) d.nclass).getD c 0).toNat)) = (c, hi, some lo) →
    ∃ t, exec (.combine k []) s = .next t ∧ t.hasEnded y.item = true ∧ t.opAt k 5 = none ∧
      (t.xrEntry x.obj).cls = c ∧ (t.xrEntry x.obj).conf = (min 255 ((hi - lo) / 65536)).toNat ∧
      (t.xrEntry x.obj).hazard = false ∧
      (t.xrEntry x.obj).stable = (if (s.xrEntry x.obj).stable ≠ 0 ∧ (s.xrEntry x.obj).cls = c then (s.xrEntry x.obj).stable + 1 else 1) ∧
      (∀ m, m ≠ x.obj → t.xrEntry m = s.xrEntry m) ∧ (∀ z ∈ t.xr.tokens, z.tbl ≠ tbl) ∧ s.sameBytes t) ∧
  (∀ (k tl tbl a : Nat) (live out : List Token) (o : SlotOp) (d : ExpertDesc) (s : State), s.expertOp k 2 = some (o, d, tl) →
    s.region tl d.part d.inOff 0 = some tbl → s.region tl d.part d.outOff 0 = some a → (s.xr.tokens.map (·.item)).Nodup →
    live = (s.xr.tokens.filter fun x => x.tbl == tbl && x.kept && !x.lost && !x.exited && x.expert == d.expert) →
    out = (live.filter fun x => decide (d.exitConf ≤ s.tileNat tl (a + x.index * resultStride d.nclass + d.nclass) 1)) →
    ∃ t, exec (.exitOp k) s = .next t ∧
      t.xr = { s.xr with tokens := s.xr.tokens.map fun x => if x ∈ out then
        { x with exited := true, result := some (s.tileRead tl (a + x.index * resultStride d.nclass) d.nclass) } else x } ∧
      t.reg R.xrCntCount 4 % 2 ^ 32 = (s.reg R.xrCntCount 4 + out.length) % 2 ^ 32 ∧
      t.scratch.readNat d.scrOff 2 = (live.length - out.length) % 65536 ∧
      (∀ n, n < d.scrOff ∨ d.scrOff + 2 ≤ n → t.scratch.read n = s.scratch.read n) ∧ t.opAt k 5 = none ∧
      t = { s with regs := t.regs, xr := t.xr, scratch := t.scratch, tmem := t.tmem, pp := t.pp, freeCtr := t.freeCtr } ∧
      s.regsBut t [R.xrCntCount.key 4 0] ∧
      (∀ base size, s.partOf tl d.part = some (base, size) → base + size ≤ 2 ^ 20 →
        ∀ n, n < tileAddr tl base ∨ tileAddr tl base + size ≤ n → t.tmem.read n = s.tmem.read n)) ∧
  (∀ (k : Nat) (bad : List Nat) (s : State), (s.expertOp k 1 = none → exec (.combine k bad) s = .next s) ∧
    (s.expertOp k 2 = none → exec (.exitOp k) s = .next s))

/-! ## Fusion and tracks (R335 to R368) -/

/-- O (R218, R336, R337, R339, R341, R358 to R361): inputs, the start of a cycle and the tests. A detection cell joins the partial
item of its channel, and its EOP cell makes the item ready for ASSOC. When every GATHER channel has come, or after G_US, which
settles the stragglers, the cycle of the step starts with t_f the earliest of its frontiers; without flow spikes the attitude is held. At the end of a test window a source that passes is no longer SUSPECT and
one that fails is; QUAR_N failures in a row quarantine it, and QUAR_CLR releases it.
Choices of the model in it: log entries 10, 50 and 54. -/
def Obligations.FusionInputsAndTests : Prop :=
  (∀ s : State, s.domOn 7 = true → 0 < s.reg R.fuTestTestWin → s.reg R.fuTestTestWin ≤ s.fu.winCycles → ∃ t,
    exec .testWindowEnd s = .next t ∧ t.fu.winCycles = 0 ∧ t.fu.winStart = s.devtime) ∧
  (∀ (ch q : Nat) (c : Cell) (rest : List Cell) (s : State), s.fuRuns = true → s.flag R.fuInCfgEn ch = true → s.reg R.fuInCfgKind ch = 3 →
    q = s.reg R.fuInCfgQid ch → q < 511 → s.popAllowed 0x62 q = true → (s.queue q).severing = false → (s.queue q).cells = c :: rest →
    c.marker = false → c.epm = false → parity 64 c.data.toNat = c.dp → (s.queue q).discard = false → s.flag R.qmQCfgRetired q = false →
    (c.eop = false → cellType c.data = 13 → ∃ t, exec (.fusionInputTake ch .none) s = .next t ∧ (t.queue q).cells = rest ∧
      alGet t.fu.partials ch = some { ((alGet s.fu.partials ch).filter (fun p => decide (p.item = c.item))).getD { item := c.item } with
        cells := (((alGet s.fu.partials ch).filter (fun p => decide (p.item = c.item))).getD { item := c.item }).cells ++ [c.data] } ∧
      t = { s with
        regs := t.regs, pal := t.pal, fu := { s.fu with partials := t.fu.partials },
        pins := { s.pins with xoff := t.pins.xoff } } ∧
      s.regsBut t [R.eiXoffState.key 0 0]) ∧
    (∀ (p : FuPartial) (n : Nat), c.eop = true → alGet s.fu.partials ch = some p → lossyCell c.data = false → n = bits c.data.toNat 15 13 →
      s.quarantined n = false → cellItem c.data ∉ s.pal.poisoned → c.item = cellItem c.data → n < s.fu.srcs.length →
      ∃ t, exec (.fusionInputTake ch .none) s = .next t ∧ (t.queue q).cells = rest ∧ alGet t.fu.partials ch = none ∧
        t.fu.items = s.fu.items ++ [{ item := cellItem c.data, kind := 3, src := n, cells := p.cells }] ∧
        t.srcTest n = { s.srcTest n with lastAdvance := some s.devtime } ∧
        t = { s with regs := t.regs, pal := t.pal, fu := t.fu, pins := { s.pins with xoff := t.pins.xoff } } ∧
        s.regsBut t [R.eiXoffState.key 0 0])) ∧
  (∀ (ch : Nat) (u : Upset) (s : State), s.fuRuns = false ∨ s.flag R.fuInCfgEn ch = false ∨ s.reg R.fuInCfgKind ch = 0 →
    exec (.fusionInputTake ch u) s = .next s) ∧
  (∀ (s : State) (w : Nat × Nat), s.due .gather = true → s.fu.waits.find? (fun w => !(s.fu.expired.any (·.step == w.1))) = some w →
    ∃ t, exec .gatherTimeout s = .next t ∧ t.fu = { s.fu with
      expired := s.fu.expired ++ [{ step := w.1, late := (s.unsatisfied w.1).map fun c =>
        { chan := c, front := s.front c, frame := if s.reg R.fuInCfgKind c = 1 then alGet s.fu.frames c else none } }] } ∧
    (∀ k, s.fu.waits = [k] → t.armed .gather = false) ∧ t = { s with fu := t.fu, timers := t.timers }) ∧
  (∀ s : State, s.due .gather = true → s.fu.waits = [] → exec .gatherTimeout s = .next (s.disarm .gather)) ∧
  (∀ s : State, s.due .gather = false → exec .gatherTimeout s = .next s) ∧
  (∀ s : State, s.fuRuns = true → s.fuHead.isSome = true → s.cycleDue = true → 
    s.unsatisfied s.cycleNext = [] ∨ s.timedOut = true →
    ∃ t, exec .cycleStart s = .next t ∧ t.fu.cycleStep = some s.cycleNext ∧ t.fu.cycleSlot = s.stepSlot s.cycleNext ∧
      t.fu.tf = s.validTime ∧ t.fu.late = s.stragglers ∧ t.fu.stragglers = ofSet (s.stragglers.map (·.chan)) ∧ t.fu.measures = [] ∧
      (s.fu.waits = [] ∨ (∃ a, s.fu.waits = [(s.cycleNext, a)]) → t.armed .gather = false) ∧
      (s.fu.flow = [] → 0 < s.reg R.fuMotMinSpikes → t.fu.roll = s.fu.roll ∧ t.fu.pitch = s.fu.pitch ∧
        t.flag R.fuStatusAttHeld = true) ∧
      (t.fu.cycleOpen = true ∨ t.quiesced = true) ∧ t.reg R.fuCntCount 0 = (s.reg R.fuCntCount 0 + 1) % 2 ^ 32 ∧ t.devtime = s.devtime) ∧
  (∀ s : State, s.fuRuns = false ∨ s.fuHead = none ∨ s.cycleDue = false ∨ (s.unsatisfied s.cycleNext ≠ [] ∧ s.timedOut = false) →
    exec .cycleStart s = .next s) ∧
  (∀ (n b : Nat) (s : State), s.domOn 7 = true → 0 < s.reg R.fuTestTestWin → s.reg R.fuTestTestWin ≤ s.fu.winCycles → s.fuSources = [n] →
    s.fu.srcs.length = 6 → b = s.testBits n →
    (b = 0 → s.quarantined n = false → ∃ t, exec .testWindowEnd s = .next t ∧ bitAt (t.reg R.fuSrcstateSuspect) n = false ∧
      (t.srcTest n).fails = 0 ∧ (t.srcTest n).passes = (s.srcTest n).passes + 1 ∧ t.fu.winCycles = 0 ∧ t.fu.winStart = s.devtime ∧
      t = { s with regs := t.regs, fu := t.fu } ∧ s.regsBut t [R.fuSrcstateSuspect.key 0 0]) ∧
    (b ≠ 0 → s.quarantined n = true ∨ (s.srcTest n).fails + 1 < s.reg R.fuTestQuarN → ∃ t, exec .testWindowEnd s = .next t ∧
      bitAt (t.reg R.fuSrcstateSuspect) n = true ∧ (t.srcTest n).fails = (s.srcTest n).fails + 1 ∧ (t.srcTest n).passes = 0 ∧
      (t.srcTest n).lastBits = b ∧ t.quarantined n = s.quarantined n ∧ t.fu.winCycles = 0 ∧ t = { s with regs := t.regs, fu := t.fu } ∧
      s.regsBut t [R.fuSrcstateSuspect.key 0 0]) ∧
    (b ≠ 0 → s.quarantined n = false → s.reg R.fuTestQuarN ≤ (s.srcTest n).fails + 1 → ∃ t u : State, exec .testWindowEnd s = .next t ∧
      bitAt (u.reg R.fuSrcstateSuspect) n = true ∧ (u.srcTest n).fails = (s.srcTest n).fails + 1 ∧
      u = { s with regs := u.regs, fu := { s.fu with srcs := u.fu.srcs } } ∧ s.regsBut u [R.fuSrcstateSuspect.key 0 0] ∧
      t = (u.quarantineSource n).newWindow)) ∧
  (∀ s : State, s.domOn 7 = false ∨ s.reg R.fuTestTestWin = 0 ∨ s.fu.winCycles < s.reg R.fuTestTestWin →
    exec .testWindowEnd s = .next s) ∧
  (∀ (m : BitVec 6) (s : State), s.domOn 7 = true → s.reg R.fuSrcstateQuar < 64 → ∃ t, exec (.quarClr m) s = .next t ∧
    (∀ n, n < 6 → t.quarantined n = (s.quarantined n && !(bitAt m.toNat n))) ∧
    (s.alive = true → t.reg R.fuSrcstateQuarClr = s.reg R.fuSrcstateQuarClr ||| m.toNat) ∧
    t = { s with regs := t.regs, fu := { s.fu with srcs := t.fu.srcs } } ∧
    s.regsBut t [R.fuSrcstateQuar.key 0 0, R.fuSrcstateQuarClr.key 0 0]) ∧
  (∀ (m : BitVec 6) (s : State), s.domOn 7 = false → exec (.quarClr m) s = .next s)

/-- O (R338, R343, R347, R349 to R356, R363, R366): the commands of a cycle. Each takes the head of the command queue, does its work and
returns the cell with its status; one with a bad target is refused with CMD_ERR and STATUS 3. EARLY writes the map of a camera,
MID the sea-plane map; ASSOC without detections predicts every live track to t_f; UPDATE without items applies the state rules; POST sends
the result sets and ends the cycle. Without its command at the head nothing happens.
Choices of the model in it: log entries 10, 50, 51, 52 and 53. -/
def Obligations.FusionCommands : Prop :=
  (∀ (n : Nat) (f : Instr) (bad : List Nat) (h : Cell64) (d : Delivery) (s u : State),
    (n, f) ∈ [(0, Instr.early), (1, .assoc bad), (2, .mid), (3, .update bad), (4, .post)] → s.fuHead = some h → d.data = h →
    s.takeCommand = (some (d, .use), u) → bits h.toNat 3 0 = n → ∃ t v : State, exec f s = .next t ∧
      (t = v.refuseCommand d ∧ n < 3 ∨ (t = v.commandDone d v.doneStatus ∧
        (n = 3 → v.fu.items = u.fu.items.filter fun i => decide (i.kind < 4)) ∧ (n = 4 → v.fu.cycleOpen = false)))) ∧
  (∀ (n : Nat) (f : Instr) (s : State), (n, f) ∈ [(0, Instr.early), (1, .assoc []), (2, .mid), (3, .update []), (4, .post)] →
    s.fuHead = none ∨ (∃ h, s.fuHead = some h ∧ bits h.toNat 3 0 ≠ n ∧ bits h.toNat 3 0 < 5) ∨ s.fuRuns = false ∨ s.cycleDue = true →
    exec f s = .next s) ∧
  (∀ (n : Nat) (f : Instr) (h : Cell64) (d : Delivery) (s u : State),
    (n, f) ∈ [(0, Instr.early), (1, .assoc []), (2, .mid), (3, .update []), (4, .post)] → s.fuHead = some h → d.data = h →
    s.takeCommand = (some (d, .use), u) → 5 ≤ bits h.toNat 3 0 → ∃ t v : State, exec f s = .next t ∧
      v = (u.setReg R.fuStatusCmdErr 1).raise 0xD00030 8 2 0x0B ∧
      t = v.pushItem 0x62 (v.reg R.fuCtrlDoneQid) (BitVec.ofNat 64 (putBits d.data.toNat 27 24 3)) (cellItem d.data) true false 0x0B 0) ∧
  (∀ (h : Cell64) (d : Delivery) (cam w hh tl a : Nat) (s u : State), s.fuHead = some h → d.data = h →
    s.takeCommand = (some (d, .use), u) → bits h.toNat 3 0 = 0 → cam = bits h.toNat 21 20 →
    w = u.reg R.fuEarlyCfg2WM1 cam + 1 → hh = u.reg R.fuEarlyCfg3HM1 cam + 1 → u.flag R.fuEarlyCfgEn cam = true →
    u.fuTarget h (u.reg R.fuEarlyOffOff cam) (4 * w * hh) = some (tl, a) → a + 4 * w * hh ≤ 2 ^ 20 →
    ∃ t v : State, exec .early s = .next t ∧
      t = v.pushItem 0x62 (v.reg R.fuCtrlDoneQid) (BitVec.ofNat 64 (putBits d.data.toNat 27 24 (if u.fu.stragglers = 0 then 0 else 1)))
        (cellItem d.data) true false 0x0B 0 ∧
      (u.srcUsable (4 + u.reg R.fuEarlyCfgTherm cam) = false → v = u.tileWrite tl a (List.replicate (4 * w * hh) 0)) ∧
      (∀ (fr : HeldFrame) (i : Nat) (p : Option Nat), u.srcUsable (4 + u.reg R.fuEarlyCfgTherm cam) = true →
        u.frameOf (4 + u.reg R.fuEarlyCfgTherm cam) = some fr → i < w * hh → p = u.earlyValue cam fr i (i % w) (i / w) →
        v.tileRead tl (a + 4 * i) 4 = [BitVec.ofNat 8 (p.getD 0), if p.isSome then 127 else 0,
          BitVec.ofNat 8 (ofSigned 8 (satSigned 8 (openDiv 343 ((u.fu.tf : Int) - fr.validUs) 1000))), 0]) ∧
      (∀ n, n < tileAddr tl a ∨ tileAddr tl a + 4 * w * hh ≤ n → v.tmem.read n = u.tmem.read n) ∧
      v = { u with tmem := v.tmem, fu := { u.fu with early := v.fu.early }, freeCtr := v.freeCtr }) ∧
  (∀ (h : Cell64) (d : Delivery) (e : Nat × Nat) (s u : State), s.fuHead = some h → d.data = h → s.takeCommand = (some (d, .use), u) →
    bits h.toNat 3 0 = 1 → (∀ i ∈ u.fu.items, i.kind ≠ 3) → u.fu.latBirths = [] →
    u.fuTarget h (u.reg R.fuAssocOffOff) 0 = some e → ∃ t v : State, exec (.assoc []) s = .next t ∧
      t = v.pushItem 0x62 (v.reg R.fuCtrlDoneQid) (BitVec.ofNat 64 (putBits d.data.toNat 27 24 (if u.fu.stragglers = 0 then 0 else 1)))
        (cellItem d.data) true false 0x0B 0 ∧
      v.fu = { u.fu with measures := [], detPoison := [], tracks := u.fu.tracks.map fun x => if x.live then
        { x.predict u.fu.tf with off := !(u.onGrid (x.predict u.fu.tf).x (x.predict u.fu.tf).y) } else x } ∧
      v = { u with regs := v.regs, fu := v.fu, freeCtr := v.freeCtr } ∧ u.regsBut v [R.fuCntCount.key 7 0, R.fuCntCount.key 12 0,
        R.fuTracksConfirmed.key 0 0, R.fuTracksTentative.key 0 0]) ∧
  (∀ (h : Cell64) (d : Delivery) (maps : List MidMap) (c tl a : Nat) (on : List Nat) (s u : State), s.fuHead = some h → d.data = h →
    s.takeCommand = (some (d, .use), u) → bits h.toNat 3 0 = 2 → on = (List.range 6).filter (fun n => u.flag R.fuMidLocEn n) →
    c = (on.head?.map fun n => u.reg R.fuMidShapeCM1 n + 1).getD 0 → maps = (on.filter u.srcUsable).filterMap u.midMap →
    maps.length = (on.filter u.srcUsable).length → u.fuTarget h (u.reg R.fuMidOutOffOff) (512 * 512 * padTo 4 (c + 1)) = some (tl, a) →
    a + 512 * 512 * padTo 4 (c + 1) ≤ 2 ^ 20 → ∃ t v : State, exec .mid s = .next t ∧
      t = v.pushItem 0x62 (v.reg R.fuCtrlDoneQid) (BitVec.ofNat 64 (putBits d.data.toNat 27 24 (if u.fu.stragglers = 0 then 0 else 1)))
        (cellItem d.data) true false 0x0B 0 ∧ v = { u with tmem := v.tmem } ∧
      (∀ i k, i < 512 * 512 → k ≤ c → v.tmem.read (tileAddr tl (a + (i * padTo 4 (c + 1) + k))) =
        BitVec.ofNat 8 (ofSigned 8 ((u.midCell maps c (i % 512) (i / 512)).getD k 0)))) ∧
  (∀ (h : Cell64) (d : Delivery) (s u : State), s.fuHead = some h → d.data = h → s.takeCommand = (some (d, .use), u) →
    bits h.toNat 3 0 = 3 → (∀ i ∈ u.fu.items, i.kind < 4) → ∃ t v : State, exec (.update []) s = .next t ∧
      t = v.pushItem 0x62 (v.reg R.fuCtrlDoneQid) (BitVec.ofNat 64 (putBits d.data.toNat 27 24 (if u.fu.stragglers = 0 then 0 else 1)))
        (cellItem d.data) true false 0x0B 0 ∧
      v.fu = { u.fu with tracks := u.fu.tracks.map u.nextState } ∧ v = { u with regs := v.regs, fu := v.fu } ∧
      u.regsBut v [R.fuCntCount.key 3 0, R.fuCntCount.key 4 0, R.fuTracksConfirmed.key 0 0, R.fuTracksTentative.key 0 0]) ∧
  (∀ (h : Cell64) (d : Delivery) (s u : State), s.fuHead = some h → d.data = h → s.takeCommand = (some (d, .use), u) →
    bits h.toNat 3 0 = 4 → ((List.range 16).filter fun c => u.flag R.fuOutCfgEn c) = [] →
    (u.queue (u.reg R.fuCtrlCmdQid)).cells = [] → ∃ t v : State, exec .post s = .next t ∧
      t = v.pushItem 0x62 (v.reg R.fuCtrlDoneQid) (BitVec.ofNat 64 (putBits d.data.toNat 27 24 (if u.fu.stragglers = 0 then 0 else 1)))
        (cellItem d.data) true false 0x0B 0 ∧
      v.fu = { u.fu with cycleOpen := false, tracks := u.fu.tracks.filter fun t => decide (t.state ≠ .deleted) } ∧ v = { u with fu := v.fu }) ∧
  (∀ (h : Cell64) (d : Delivery) (c : Nat) (item : ItemId) (st : Bool) (s u : State), s.fuHead = some h → d.data = h →
    s.takeCommand = (some (d, .use), u) → bits h.toNat 3 0 = 4 →
    ((List.range 16).filter fun c => u.flag R.fuOutCfgEn c) = [c] → u.outRecs (u.reg R.fuOutCfgContent c) = [] →
    item = u.nextItem (0x60 + c) → st = u.flag R.fuOutCfgStamped c → ∃ t v w : State, exec .post s = .next t ∧
      w = (u.takeItem (0x60 + c)).pushItemAll 0x62 (u.reg R.fuOutCfgQid c) item 0x0B 0
        (u.outHeader st [] ++ [BitVec.ofNat 64 (item.toNat * 2 ^ 32 + 6)]) ∧
      v = { w with freeCtr := v.freeCtr, pp := { w.pp with posted := v.pp.posted } } ∧
      t = (((v.afterPost item).endCycle).commandDone d (v.afterPost item).endCycle.doneStatus))

/-- O (R348, R349, R352, R353): tracks. Pairing gives a measurement at most one track, and a track at most one measurement of each
source; a birth takes the lowest free slot as TENTATIVE. A track of M hits in its last N is confirmed, a confirmed one that misses
coasts and comes back with a hit; it is deleted at its limit of misses (cause 0), when its N counted cycles held too few hits (cause 1), and
off the grid (cause 2). A verdict of 0 gives its slot class and confidence and clears HAZARD, one of 2 sets HAZARD; no other slot
changes. Choices of the model in it: log entries 10 and 52. -/
def Obligations.TrackRules : Prop :=
  (∀ (gate k i j : Nat) (ms : List Measure) (ts : List Track) (m m' : Measure), (∀ x ∈ ms, x.paired = none) →
    (pairUp ms (pairsOf gate ms ts))[i]? = some m → (pairUp ms (pairsOf gate ms ts))[j]? = some m' → m.paired = some k →
    m'.paired = some k → m.src = m'.src → i = j) ∧
  (∀ (x y : Int) (src oldest k : Nat) (s : State), s.freeSlot = some k → ∃ t, s.birth x y src oldest = (some k, t) ∧
    (∃ g, t.fu.tracks = s.fu.tracks ++ [g] ∧ g.slot = k ∧ g.gen = ((alGet s.fu.gens k).getD 0 + 1) % 16 ∧ g.state = .tentative ∧
      g.x = x ∧ g.y = y ∧ g.vx = 0 ∧ g.vy = 0 ∧ g.at_ = s.fu.tf ∧ g.src = src ∧ g.oldest = oldest ∧ g.validUs = s.fu.tf ∧
      g.isNew = true ∧ g.hist = [true] ∧ g.hazard = false) ∧ (∀ e ∈ s.fu.tracks, e.slot ≠ k) ∧ (∀ n, n < k → ∃ e ∈ s.fu.tracks, e.slot = n) ∧
    t.reg R.fuCntCount 2 = (s.reg R.fuCntCount 2 + 1) % 2 ^ 32 ∧
    t = { s with regs := t.regs, fu := { s.fu with tracks := t.fu.tracks, gens := t.fu.gens } } ∧ s.regsBut t [R.fuCntCount.key 2 0]) ∧
  (∀ (t : Track) (hits limit : Nat) (s : State), t.state ≠ .deleted →
    hits = ((t.hist.drop (t.hist.length - s.reg R.fuTrackN)).filter fun b => decide (b = true)).length →
    limit = (if t.hazard then s.reg R.fuTrackHazCoast else s.reg R.fuTrackCoastMax) →
    (t.state = .tentative → hits < s.reg R.fuTrackM → s.reg R.fuTrackN ≤ t.counted →
      s.nextState t = { t with state := .deleted, cause := 1 }) ∧
    (t.state ≠ .tentative → t.missNow = true → limit ≤ t.misses → s.nextState t = { t with state := .deleted, cause := 0 }) ∧
    (t.state ≠ .tentative → t.missNow = false → t.off = true → s.nextState t = { t with state := .deleted, cause := 2 }) ∧
    (t.state = .tentative → s.reg R.fuTrackM ≤ hits → t.missNow = false → t.off = false → s.nextState t = { t with state := .confirmed }) ∧
    (t.state = .confirmed → t.missNow = true → t.misses < limit → t.off = false → s.nextState t = { t with state := .coasting }) ∧
    (t.state = .coasting → t.missNow = false → t.hitNow = true → t.off = false → s.nextState t = { t with state := .confirmed })) ∧
  (∀ (w : Cell64) (k : Nat) (s : State), k = bits w.toNat 63 51 → k < 4096 → (s.fu.tracks.any fun t => t.live && t.slot == k) = true →
    ∃ t, s.applyVerdict w = t ∧ t = { s with fu := { s.fu with tracks := t.fu.tracks } } ∧
      t.fu.tracks = s.fu.tracks.map fun x => if x.slot ≠ k then x else
        if bits w.toNat 36 34 = 0 then { x with cls := bits w.toNat 50 45, conf := bits w.toNat 44 37, hazard := false }
        else if bits w.toNat 36 34 = 2 then { x with hazard := true } else x)

/-! ## The renderer and the display port (R369 to R399) -/

/-- O (R369 to R373, R375, R380, R389, R395): draw lists. An H0 cell of a draw begins its group and creates its draw call, the next item of
its layer; the cells that follow join the group; the EOP cell ends the list. A whole group is handled by the command of its PRIM and by
no other: a draw takes its colour and parameter and counts its primitives, and on a hidden layer none of them is binned; a primitive
that is binned takes a record block and one entry for each screen tile it touches; TRANSFORM and TEXTURE_SLOT set their slots.
Choices of the model in it: log entries 10 and 55. -/
def Obligations.DrawLists : Prop :=
  (∀ (u : Upset) (s : State), s.rdRuns = false ∨ s.groupReady = true ∨ s.drawQueue = none →
    exec (.drawListTake u) s = .next s) ∧
  (∀ (q : Nat) (c : Cell) (rest : List Cell) (s : State), s.rdRuns = true → s.groupReady = false → s.drawQueue = some q →
    q < 511 → s.popAllowed 0x63 q = true → (s.queue q).severing = false →
    (s.queue q).cells = c :: rest → c.marker = false → parity 64 c.data.toNat = c.dp → (s.queue q).discard = false →
    s.flag R.qmQCfgRetired q = false →
    (s.rd.list = none → c.eop = false → h0Ok c.data = true → h0Prim c.data < 4 → s.rd.openF.dropped = false →
      s.rd.openF.draws.length < 4096 → ∃ t g, exec (.drawListTake .none) s = .next t ∧ (t.queue q).cells = rest ∧
        t.rd.openF = { s.rd.openF with draws := s.rd.openF.draws ++ [g] } ∧ g.item = s.nextItem (0x70 + bits c.data.toNat 6 4) ∧
        g.layer = bits c.data.toNat 6 4 ∧ g.prog = bits c.data.toNat 15 12 ∧ g.blend = bits c.data.toNat 17 16 ∧
        g.tex = bits c.data.toNat 26 22 ∧ g.prims = [] ∧ g.ended = false ∧ t.live g.item = true ∧
        t.rd.list = some { queue := q, cells := [(c.data, false)], draw := some s.rd.openF.draws.length } ∧
        t.reg R.rdCntCount 6 = (s.reg R.rdCntCount 6 + 1) % 2 ^ 32 ∧
        t = { s with
          regs := t.regs, pal := t.pal, lg := t.lg, pins := { s.pins with xoff := t.pins.xoff },
          rd := { s.rd with list := t.rd.list, openF := t.rd.openF, want := t.rd.want } } ∧
        s.regsBut t [R.eiXoffState.key 0 0, R.rdCntCount.key 6 0]) ∧
    (∀ l : DrawList, s.rd.list = some l → l.skip = false → l.cells ≠ [] → c.eop = false → ∃ t, exec (.drawListTake .none) s = .next t ∧
      (t.queue q).cells = rest ∧ t.rd = { s.rd with
        list := some { l with cells := l.cells ++ [(c.data, false)] }, want := t.rd.want } ∧
      t = { s with regs := t.regs, pal := t.pal, rd := t.rd, pins := { s.pins with xoff := t.pins.xoff } } ∧ s.regsBut t [R.eiXoffState.key 0 0]) ∧
    (∀ l : DrawList, s.rd.list = some l → l.cells = [] → c.eop = true → ∃ t u : State, exec (.drawListTake .none) s = .next t ∧
      (u.queue q).cells = rest ∧ u.rd = { s.rd with list := none, want := u.rd.want } ∧
      u = { s with regs := u.regs, pal := u.pal, rd := u.rd, pins := { s.pins with xoff := u.pins.xoff } } ∧
      s.regsBut u [R.eiXoffState.key 0 0] ∧ t = u.endTaken 0x0C (c.itemSeen 0) false)) ∧
  (∀ (p : Nat) (f : Instr) (l : DrawList) (h h1 : Cell64) (r : List (Cell64 × Bool)) (s : State),
    (p, f) ∈ [(0, Instr.triangleList), (1, .triangleStrip), (2, .lineList), (3, .glyphQuads)] → s.rdRuns = true →
    s.rd.list = some l → l.cells = (h, false) :: (h1, false) :: r → l.full = true → h0Prim h = p → (r.any (·.2)) = false →
    (∀ i, l.draw = some i → bitAt (s.reg R.rdLayerEn) (bits h.toNat 6 4) = false → ∃ t, exec f s = .next t ∧
      t.rd = { s.rd with list := some { l with cells := [], draw := none }, openF := { s.rd.openF with
        draws := s.rd.openF.draws.modify i fun d => { d with colour := bits h1.toNat 31 0, param := bits h1.toNat 63 32 } } } ∧
      t.reg R.rdCntCount 7 % 2 ^ 32 = (s.reg R.rdCntCount 7 + (s.groupPrims h (r.map (·.1))).length) % 2 ^ 32 ∧
      t.reg R.rdCntCount 8 % 2 ^ 32 =
        (s.reg R.rdCntCount 8 + ((s.groupPrims h (r.map (·.1))).filter (·.isNone)).length) % 2 ^ 32 ∧
      t = { s with regs := t.regs, rd := t.rd } ∧ s.regsBut t [R.rdCntCount.key 7 0, R.rdCntCount.key 8 0]) ∧
    (∀ i, l.draw = some i → bitAt (s.reg R.rdLayerEn) (bits h.toNat 6 4) = true → ∃ t u v : State, exec f s = .next t ∧
      u = { s with rd := { s.rd with openF := { s.rd.openF with
        draws := s.rd.openF.draws.modify i fun d => { d with colour := bits h1.toNat 31 0, param := bits h1.toNat 63 32 } } } } ∧
      v = u.binAll i false (s.groupPrims h (r.map (·.1))) ∧
      t = { v with rd := { v.rd with list := v.rd.list.map fun l => { l with cells := [], draw := none } } })) ∧
  (∀ (p : Nat) (f : Instr) (s : State),
    (p, f) ∈ [(0, Instr.triangleList), (1, .triangleStrip), (2, .lineList), (3, .glyphQuads), (4, .transform), (5, .textureSlot)] →
    s.rdRuns = false ∨ s.groupReady = false ∨ (∃ l h r, s.rd.list = some l ∧ l.cells = h :: r ∧ h0Prim h.1 ≠ p) → exec f s = .next s) ∧
  (∀ (i b n k : Nat) (p : Prim) (s : State), s.rd.openF.dropped = false → s.freeBlock = some b → s.touched p = [n] →
    k = ((s.rd.openF.draws[i]?.map (·.prims.length))).getD 0 → (s.rd.openF.bins.filter fun e => decide (e.1 = n)).length % 15 ≠ 0 →
    ∃ t, s.binPrim i p = t ∧ t.rd.openF = { s.rd.openF with
        draws := s.rd.openF.draws.modify i fun d => { d with prims := d.prims ++ [p] },
        recs := s.rd.openF.recs ++ [(b, i, k)], bins := s.rd.openF.bins ++ [(n, i, k)] } ∧
      t = { s with regs := t.regs, rd := { s.rd with openF := t.rd.openF } } ∧
      s.regsBut t [R.rdBinUsed.key 0 0, R.rdBinPeak.key 0 0]) ∧
  (∀ (l : DrawList) (h : Cell64) (r : List (Cell64 × Bool)) (s : State), s.rdRuns = true → s.rd.list = some l →
    l.cells = (h, false) :: r → l.full = true → (r.any (·.2)) = false →
    (h0Prim h = 4 → ∃ t, exec .transform s = .next t ∧
      alGet t.rd.xf (bits h.toNat 11 8) = some (r.flatMap fun c => [toSigned 32 (bits c.1.toNat 31 0), toSigned 32 (bits c.1.toNat 63 32)]) ∧
      t = { s with rd := { s.rd with xf := t.rd.xf, list := some { l with cells := [], draw := none } } }) ∧
    (h0Prim h = 5 → ∃ t, exec .textureSlot s = .next t ∧ alGet t.rd.tex (bits h.toNat 26 22) = some {
        fmt := bits h.toNat 28 27, log2w := bits h.toNat 35 32, log2h := bits h.toNat 39 36, part := bits h.toNat 43 40,
        off := bits h.toNat 63 44 } ∧
      t = { s with rd := { s.rd with tex := t.rd.tex, list := some { l with cells := [], draw := none } } }))

/-- O (R11, R168, R369, R374, R376, R384, R385, R391, R394, R396): frames and screen tiles. UNDERPAINT names the image of the open frame, the
next item of layer 0. CLOSE notes what has landed in the draw queues and waits for the list in hand; else it seals the open frame, and the next frame opens; a dropped frame is
counted and not sealed. A render side takes the next screen tile, where compute work waits by its priority in eight decisions. A
finished screen tile is in the frame buffer and no other external byte changes; a buffer above the installed memory stops (no rule says
what such a write does). Choices of the model in it: log entries 10, 30, 55 and 58. -/
def Obligations.FramesAndScreenTiles : Prop :=
  (∀ (k v : Nat) (s : State), s.renderOp k 0 = some v → ∃ t, exec (.underpaint k) s = .next t ∧ t.opAt k 6 = none) ∧
  (∀ (k v : Nat) (s : State), s.renderOp k 1 = some v → s.rd.list = none →
    (∀ i, i < 4 → s.flag R.rdDrawqEn i = true → (s.queue (s.reg R.rdDrawqQid i)).cells = []) →
    ∃ t, exec (.closeFrame k) s = .next t ∧ t.rd.openF = { no := (s.rd.openF.no + 1) % 65536 } ∧ t.opAt k 6 = none) ∧
  (∀ (k v : Nat) (o : SlotOp) (s : State), s.opAt k 6 = some o → s.renderOp k 0 = some v → s.rd.openF.dropped = false →
    s.rd.openF.under = none → ∃ t, exec (.underpaint k) s = .next t ∧
      t.rd = { s.rd with openF := { s.rd.openF with
        under := some (s.nextItem 0x70, bits v 127 64, bits v 139 128 + 1, bits v 151 140 + 1, bits v 153 152) } } ∧
      t.live (s.nextItem 0x70) = true ∧ t.opAt k 6 = none ∧ t = { s with lg := t.lg, rd := t.rd, pp := t.pp }) ∧
  (∀ (k : Nat) (s : State), (s.renderOp k 0 = none → exec (.underpaint k) s = .next s) ∧
    (s.renderOp k 1 = none → exec (.closeFrame k) s = .next s)) ∧
  (∀ (k v : Nat) (o : SlotOp) (s : State), s.opAt k 6 = some o → s.renderOp k 1 = some v → s.rd.list = none →
    (∀ i, i < 4 → s.flag R.rdDrawqEn i = true → (s.queue (s.reg R.rdDrawqQid i)).cells = []) → s.flag R.rdCursorEn = false →
    (s.rd.openF.dropped = false → s.rd.sealed = none → s.rd.openF.draws = [] → ∃ t, exec (.closeFrame k) s = .next t ∧
      t.rd.sealed = some { s.rd.openF with
        buffer := s.freeBuffer, todo := List.range (s.screenTiles.1 * s.screenTiles.2),
        left := List.range (s.screenTiles.1 * s.screenTiles.2) } ∧ t.rd.openF = { no := (s.rd.openF.no + 1) % 65536 } ∧
      t.reg R.rdStatusSealed = 1 ∧ t.reg R.rdCntCount 0 = (s.reg R.rdCntCount 0 + 1) % 2 ^ 32 ∧
      t.reg R.rdFrameOpen = (s.rd.openF.no + 1) % 65536 % 2 ^ R.rdFrameOpen.width ∧ t.opAt k 6 = none ∧
      t = { s with regs := t.regs, rd := { s.rd with sealed := t.rd.sealed, openF := t.rd.openF, want := t.rd.want }, pp := t.pp } ∧
      s.regsBut t [R.rdStatusSealed.key 0 0, R.rdCntCount.key 0 0, R.rdFrameOpen.key 0 0, R.rdBinUsed.key 0 0, R.rdBinPeak.key 0 0]) ∧
    (s.rd.openF.dropped = true → ∃ t, exec (.closeFrame k) s = .next t ∧ t.rd = { s.rd with
        openF := { no := (s.rd.openF.no + 1) % 65536 }, want := t.rd.want } ∧
      t.reg R.rdCntCount 3 = (s.reg R.rdCntCount 3 + 1) % 2 ^ 32 ∧ t.opAt k 6 = none ∧
      t = { s with regs := t.regs, rd := t.rd, pp := t.pp } ∧
      s.regsBut t [R.rdCntCount.key 3 0, R.rdFrameOpen.key 0 0, R.rdBinUsed.key 0 0, R.rdBinPeak.key 0 0])) ∧
  (∀ (k v : Nat) (o : SlotOp) (l : DrawList) (s : State), s.opAt k 6 = some o → s.renderOp k 1 = some v → s.rd.list = some l →
    s.groupReady = false → (s.queue l.queue).cells = [] →
    ∃ t, exec (.closeFrame k) s = .next t ∧ (t.opAt k 6).map (·.begun) = some true ∧ (o.begun = true → t = s) ∧
      (o.begun = false → t.rd.want = (List.range 4).map fun i => (s.queue (s.reg R.rdDrawqQid i)).cells.length) ∧
      t = { s with pp := t.pp, rd := { s.rd with want := t.rd.want } }) ∧
  (∀ (tl n : Nat) (rest : List Nat) (x : RenderSide) (f : RFrame) (s : State), tl < 64 → s.rd.sides.find? (fun x => decide (x.tile = tl)) = some x →
    s.rd.sealed = some f → f.todo = n :: rest → x.screen = none → s.windowCloses x.group = false → s.rdRuns = true →
    s.role tl = 2 → s.tileWaits tl = false →
    (s.computeWaits tl = false → ∃ t, exec (.screenTileTake tl) s = .next t ∧ t = { s with rd := { s.rd with
        sides := s.rd.sides.map (fun x => if x.tile = tl then
          { x with screen := some n, entries := (f.bins.filter fun b => decide (b.1 = n)).length } else x),
        sealed := some { f with todo := rest } } }) ∧
    (s.computeWaits tl = true → x.decisions % 8 < (alGet s.rd.prios x.group).getD 0 → ∃ t, exec (.screenTileTake tl) s = .next t ∧
      t.reg R.deTCntCount tl 8 = (s.reg R.deTCntCount tl 8 + 1) % 2 ^ 32 ∧ t = { s with regs := t.regs, rd := { s.rd with
        sides := s.rd.sides.map (fun x => if x.tile = tl then { x with
          decisions := x.decisions + 1, screen := some n, entries := (f.bins.filter fun b => decide (b.1 = n)).length } else x),
        sealed := some { f with todo := rest } } } ∧ s.regsBut t [R.deTCntCount.key tl 8]) ∧
    (s.computeWaits tl = true → (alGet s.rd.prios x.group).getD 0 ≤ x.decisions % 8 → ∃ t, exec (.screenTileTake tl) s = .next t ∧
      t.reg R.rdCntCount 10 = (s.reg R.rdCntCount 10 + 1) % 2 ^ 32 ∧ t.blocksLeft tl + 1 = s.blocksLeft tl ∧
      t = { s with regs := t.regs, pp := t.pp, rd := { s.rd with
        sides := s.rd.sides.map (fun x => if x.tile = tl then { x with decisions := x.decisions + 1 } else x) } } ∧
      s.regsBut t [R.rdCntCount.key 10 0])) ∧
  (∀ (tl : Nat) (s : State), s.rdRuns = false ∨ s.rd.sealed = none ∨ s.rd.sides.find? (fun x => decide (x.tile = tl)) = none ∨
    s.role tl ≠ 2 ∨ s.tileWaits tl = true → exec (.screenTileTake tl) s = .next s) ∧
  (∀ (tl n : Nat) (x : RenderSide) (f : RFrame) (u s : State), s.rd.sides.find? (fun x => decide (x.tile = tl)) = some x →
    s.rd.sealed = some f → x.screen = some n →
    u = (s.contest tl).modSide tl (fun x => { x with screen := none, entries := 0 }) →
    (s.fbInstalled f.buffer = false → exec (.screenTileDone tl []) s = .fault (.absentExternal (s.fbAddr f.buffer 0 0))) ∧
    (s.fbInstalled f.buffer = true → ∃ t, exec (.screenTileDone tl []) s = .next t ∧
      (∀ i px py c, i < 1024 → px = 32 * (n % s.screenTiles.1) + i % 32 → py = 32 * (n / s.screenTiles.1) + i / 32 →
        px ≤ s.reg R.rdScreenWM1 → py ≤ s.reg R.rdScreenHM1 → (u.shadeTile tl f n).1[i]? = some c →
        t.ext.readBytes (s.fbAddr f.buffer px py) 3 = c.map (BitVec.ofNat 8)) ∧
      (∀ a, a < s.fbAddr f.buffer 0 0 ∨ s.fbAddr f.buffer 0 0 + 3 * (s.reg R.rdScreenWM1 + 1) * (s.reg R.rdScreenHM1 + 1) ≤ a →
        t.ext.read a = s.ext.read a) ∧
      (∀ g, t.rd.sealed = some g → n ∉ g.left) ∧ t.devtime = s.devtime) ∧
    (∀ bl, (f.blocks.any bl.contains) = true → exec (.screenTileDone tl bl) s = .next (u.binParity bl))) ∧
  (∀ (tl : Nat) (bl : List Nat) (s : State), s.rd.sides.find? (fun x => decide (x.tile = tl)) = none →
    exec (.screenTileDone tl bl) s = .next s)

/-- O (R378, R397): the pixel program. While the pixel in hand has not ended, an instruction writes the four lanes of its destination,
no other register, and counts one step; the 64th ends the program. END ends it, KILL with A.x below 0 takes the pixel from blending, and
TEX reads the texel or, where the slot is invalid, writes 0 and counts in TEX_ERR. An ended pixel stays as it is.
Choices of the model in it: log entries 10, 8 and 56. -/
def Obligations.PixelInstructions : Prop :=
  (∀ (c : Instr) (d a b : BitVec 3) (imm : BitVec 15) (f : Nat → BitVec 16) (s : State), s.rd.px.ended = false → s.rd.px.regs.length = 8 →
    (c, f) ∈ [(Instr.mov d a, fun i => s.rd.px.lane a.toNat i),
      (.addOp d a b, fun i => halfAdd (s.rd.px.lane a.toNat i) (s.rd.px.lane b.toNat i)),
      (.mulOp d a b, fun i => halfMul (s.rd.px.lane a.toNat i) (s.rd.px.lane b.toNat i)),
      (.mad d a b, fun i => halfMad (s.rd.px.lane d.toNat i) (s.rd.px.lane a.toNat i) (s.rd.px.lane b.toNat i)),
      (.minOp d a b, fun i => halfMin (s.rd.px.lane a.toNat i) (s.rd.px.lane b.toNat i)),
      (.maxOp d a b, fun i => halfMax (s.rd.px.lane a.toNat i) (s.rd.px.lane b.toNat i)),
      (.sat d a, fun i => halfSat (s.rd.px.lane a.toNat i)),
      (.swz d a imm, fun i => s.rd.px.lane a.toNat (imm.toNat / 4 ^ i % 4)),
      (.constOp d imm, fun _ => halfOfQuot imm.toNat 32767),
      (.rcp d a, fun i => halfRcp (s.rd.px.lane a.toNat i))] →
    ∃ t, exec c s = .next t ∧
      (∀ r i, r < 8 → i < 4 → t.rd.px.lane r i = if r = d.toNat then f i else s.rd.px.lane r i) ∧
      t.rd.px.steps = s.rd.px.steps + 1 ∧ t.rd.px.ended = decide (63 ≤ s.rd.px.steps) ∧ t.rd.px.killed = s.rd.px.killed ∧
      t = { s with rd := { s.rd with px := t.rd.px } }) ∧
  (∀ s : State, s.rd.px.ended = false → exec .endOp s =
    .next { s with rd := { s.rd with px := { s.rd.px with steps := s.rd.px.steps + 1, ended := true } } }) ∧
  (∀ (a : BitVec 3) (s : State), s.rd.px.ended = false → exec (.kill a) s = .next { s with rd := { s.rd with px := { s.rd.px with
    steps := s.rd.px.steps + 1, ended := decide (63 ≤ s.rd.px.steps), killed := s.rd.px.killed || halfNeg (s.rd.px.lane a.toNat 0) } } }) ∧
  (∀ (d a : BitVec 3) (e : TexSlot) (c : List Nat) (s : State), s.rd.px.ended = false → s.rd.px.regs.length = 8 →
    alGet s.rd.tex s.rd.px.tex = some e → s.texel s.rd.px.tile s.rd.px.tex (texCoord (s.rd.px.lane a.toNat 0) e.log2w)
      (texCoord (s.rd.px.lane a.toNat 1) e.log2h) = some c →
    ∃ t, exec (.tex d a) s = .next t ∧
      (∀ r i, r < 8 → i < 4 → t.rd.px.lane r i = if r = d.toNat then halfOfQuot (c.getD i 0) 255 else s.rd.px.lane r i) ∧
      t.rd.px.steps = s.rd.px.steps + 1 ∧ t = { s with rd := { s.rd with px := t.rd.px } }) ∧
  (∀ (d a : BitVec 3) (s : State), s.rd.px.ended = false → s.rd.px.regs.length = 8 → alGet s.rd.tex s.rd.px.tex = none →
    ∃ t, exec (.tex d a) s = .next t ∧ (∀ r i, r < 8 → i < 4 → t.rd.px.lane r i = if r = d.toNat then 0 else s.rd.px.lane r i) ∧
      t.reg R.rdCntCount 12 = (s.reg R.rdCntCount 12 + 1) % 2 ^ 32 ∧ t = { s with regs := t.regs, rd := { s.rd with px := t.rd.px } } ∧
      s.regsBut t [R.rdCntCount.key 12 0]) ∧
  (∀ (c : Instr) (d a b : BitVec 3) (imm : BitVec 15) (s : State), s.rd.px.ended = true → c ∈ [Instr.endOp, .mov d a, .addOp d a b,
    .mulOp d a b, .mad d a b, .minOp d a b, .maxOp d a b, .sat d a, .swz d a imm, .constOp d imm, .tex d a, .kill a, .rcp d a] →
    exec c s = .next s)

/-- O (R385 to R387, R392, R398): the display port. At the frame period the ready frame becomes the front frame, or the front frame
repeats, and line 0 is due; each line sends its sync, an active one its pixels, and the next line follows while the frame has one. Video
mode starts where the line time holds its pixels and is refused with CFG_ERR where not. A DCS write is sent in run while VIDEO is 0.
Choices of the model in it: log entries 10 and 57. -/
def Obligations.DisplayPort : Prop :=
  (∀ s : State, s.scanning = true → s.due .frame = true → ∃ t, exec .frameStart s = .next t ∧ t.rd.line = 0 ∧
    alGet t.timers .frame = some (s.devtime + s.vtotal * s.reg R.rdDsiLineLineNs) ∧ alGet t.timers .line = some s.devtime ∧
    (∀ f, s.rd.readyF = some f → t.rd = { s.rd with line := 0, readyF := none, front := some f.no, frontBuf := some f.buffer } ∧
      t.reg R.rdStatusReady = 0 ∧ t.reg R.rdFrameShown = f.no % 2 ^ R.rdFrameShown.width ∧
      t.reg R.rdCntCount 1 = (s.reg R.rdCntCount 1 + 1) % 2 ^ 32) ∧
    (s.rd.readyF = none → t.rd = { s.rd with line := 0 } ∧
      t.reg R.rdCntCount 2 = (if s.rd.front.isSome then (s.reg R.rdCntCount 2 + 1) % 2 ^ 32 else s.reg R.rdCntCount 2)) ∧
    t = { s with regs := t.regs, rd := t.rd, timers := t.timers } ∧
    s.regsBut t [R.rdStatusReady.key 0 0, R.rdFrameShown.key 0 0, R.rdCntCount.key 1 0, R.rdCntCount.key 2 0]) ∧
  (∀ (n y : Nat) (s : State), s.scanning = true → s.due .line = true → n = s.rd.line → y = s.reg R.rdDsiVVsa + s.reg R.rdDsiVVbp →
    ∃ t, exec (.dsiLine false) s = .next t ∧ t.rd = { s.rd with line := n + 1, dsiOut :=
      [((if n = 0 then 0x01 else 0x21 : Nat), ([] : List Byte))] ++
      (if y ≤ n ∧ n < y + s.reg R.rdScreenHM1 + 1 then [(0x3E, s.linePixels (n - y) false)] else []) ++
      (if s.flag R.rdCtrlEotp then [(0x08, [])] else []) } ∧
      alGet t.timers .line = (if n + 1 < s.vtotal then some (s.devtime + s.reg R.rdDsiLineLineNs) else none) ∧
      t = { s with rd := t.rd, timers := t.timers, freeCtr := s.freeCtr + 1 }) ∧
  (∀ (n y b : Nat) (s : State), s.scanning = true → s.due .line = true → n = s.rd.line → y = s.reg R.rdDsiVVsa + s.reg R.rdDsiVVbp →
    y ≤ n → n < y + s.reg R.rdScreenHM1 + 1 → s.rd.frontBuf = some b → s.rd.underruns = [] → ∃ t, exec (.dsiLine true) s = .next t ∧
      t.reg R.rdStatusUnderrun = 1 ∧ t.reg R.rdCntCount 9 = (s.reg R.rdCntCount 9 + 1) % 2 ^ 32 ∧ t.rd.underruns = [s.devtime] ∧
      t.rd.line = n + 1 ∧ t = { s with regs := t.regs, rd := t.rd, timers := t.timers, freeCtr := s.freeCtr + 1 } ∧
      s.regsBut t [R.rdStatusUnderrun.key 0 0, R.rdCntCount.key 9 0]) ∧
  (∀ (u : Bool) (s : State), s.scanning = false → exec .frameStart s = .next s ∧ exec (.dsiLine u) s = .next s) ∧
  (∀ s : State, s.domOn 8 = true → s.flag R.rdStatusVideoOn = false → s.videoOk = true → ∃ t, exec (.video true) s = .next t ∧
    t.reg R.rdCtrlVideo = 1 ∧ t.reg R.rdStatusVideoOn = 1 ∧ alGet t.timers .frame = some s.devtime ∧
    t = { s with regs := t.regs, timers := t.timers } ∧ s.regsBut t [R.rdCtrlVideo.key 0 0, R.rdStatusVideoOn.key 0 0]) ∧
  (∀ s : State, s.domOn 8 = true → s.flag R.rdStatusVideoOn = false → s.videoOk = false → ∃ t, exec (.video true) s = .next t ∧
    t.reg R.rdStatusCfgErr = 1 ∧ s.onlyRegs t [R.rdStatusCfgErr.key 0 0]) ∧
  (∀ s : State, s.domOn 8 = true → ∃ t, exec (.video false) s = .next t ∧ t.reg R.rdCtrlVideo = 0 ∧ t.reg R.rdStatusVideoOn = 0 ∧
    t.armed .frame = false ∧ t.armed .line = false ∧ t.rd = { s.rd with dsiOut := [] } ∧
    t = { s with regs := t.regs, rd := t.rd, timers := t.timers } ∧ s.regsBut t [R.rdCtrlVideo.key 0 0, R.rdStatusVideoOn.key 0 0]) ∧
  (∀ (on : Bool) (s : State), s.domOn 8 = false → exec (.video on) s = .next s) ∧
  (∀ s : State, s.domOn 8 = true → s.inRun = true → s.flag R.rdCtrlVideo = false →
    (s.reg R.rdDcsHdrDt = 0x05 → ∃ t, exec .dcsShortWrite s = .next t ∧ t.reg R.rdDcsHdrGo = 1 ∧
      s.regsBut t [R.rdDcsHdrGo.key 0 0] ∧ t = { s with regs := t.regs, rd := { s.rd with
        dsiOut := [(0x05, [BitVec.ofNat 8 (s.reg R.rdDcsHdrWc)])] } }) ∧
    (s.reg R.rdDcsHdrDt = 0x15 → ∃ t, exec .dcsShortWriteParam s = .next t ∧ t.reg R.rdDcsHdrGo = 1 ∧
      s.regsBut t [R.rdDcsHdrGo.key 0 0] ∧ t = { s with regs := t.regs, rd := { s.rd with
        dsiOut := [(0x15, leBytes 2 (s.reg R.rdDcsHdrWc))] } }) ∧
    (s.reg R.rdDcsHdrDt = 0x39 → s.reg R.rdDcsHdrWc ≤ s.rd.fifo.length → ∃ t, exec .dcsLongWrite s = .next t ∧
      t.rd = { s.rd with dsiOut := [(0x39, s.rd.fifo.take (s.reg R.rdDcsHdrWc))], fifo := s.rd.fifo.drop (s.reg R.rdDcsHdrWc) } ∧
      t.reg R.rdDcsHdrGo = 1 ∧ s.regsBut t [R.rdDcsHdrGo.key 0 0] ∧
      t = { s with regs := t.regs, rd := t.rd, freeCtr := s.freeCtr + 1 })) ∧
  (∀ s : State, s.inRun = false ∨ s.flag R.rdCtrlVideo = true → exec .dcsShortWrite s = .next s ∧ exec .dcsShortWriteParam s = .next s ∧
    ∃ t, exec .dcsLongWrite s = .next t ∧ t = { s with freeCtr := s.freeCtr + 1 })

/-! ## The span links (R400 to R423) -/

/-- O (R403, R406, R415, R417, R422): training. A good pair that fits the ring counts, another one starts the count afresh, and the 64th in a
row makes the link UP with its peer. After 10 ms of training it is LOST with a fault of severity 1 and trains again after 100 ms; RETRAIN
starts that at once. EN takes a link from DOWN into TRAINING, and clearing it takes any link to DOWN. In TRAINING a side sends its TRAIN pairs; 64 of its
partner's show an UP side that the partner trains again, and it trains too.
Choices of the model in it: log entries 10 and 59. -/
def Obligations.SpanTraining : Prop :=
  (∀ (n : Nat) (ring : BitVec 16) (chip : BitVec 2) (ps good : Bool) (k : Nat) (s : State), s.sideOn n = true →
    s.linkState n = 1 ∨ s.linkState n = 2 → s.sl.sides.length = 2 → k = (if good = true ∧ ring.toNat = s.reg R.slRingRingId ∧ s.ringNeighbour n = some (chip.toNat, ofFlag ps)
      then (s.spanSide n).trainGood + 1 else 0) →
    (k < 64 → ∃ t, exec (.trainPairReceive n ring chip ps good) s = .next t ∧
      t.spanSide n = { s.spanSide n with trainGood := k, wire := [], shorts := [] } ∧
      t = { s with sl := { s.sl with sides := t.sl.sides } }) ∧
    (64 ≤ k → s.linkState n = 2 → ∃ t, exec (.trainPairReceive n ring chip ps good) s = .next t ∧ t = s.clearWire.partnerTrains n ∧
      t.linkState n = 1 ∧ (t.spanSide n).replay = [] ∧ (t.spanSide n).trainGood = 0 ∧ s.ringLink s.chip n ∈ t.sl.linksDown) ∧
    (64 ≤ k → s.linkState n = 1 → ∃ t u : State, exec (.trainPairReceive n ring chip ps good) s = .next t ∧ u.linkState n = 2 ∧
      u.reg R.slSStatusPeerChip n = chip.toNat ∧ u.reg R.slSStatusPeerSide n = ofFlag ps ∧ u.reg R.slSStatusStopIn n = 0 ∧
      u.armed (.trainLimit n) = false ∧ u.armed (.trainRetry n) = false ∧
      u.spanSide n = { s.spanSide n with
        wire := [], shorts := [], trainGood := 0, txNext := 0, rxNext := 0, ackOwed := false, nakDue := false, nakSent := false, replay := [],
        dup := none } ∧
      u.sl.linksDown = s.sl.linksDown.filter (· != s.ringLink s.chip n) ∧
      u = { s with regs := u.regs, sl := { s.sl with sides := u.sl.sides, linksDown := u.sl.linksDown }, timers := u.timers } ∧
      s.regsBut u [R.slSStatusState.key n 0, R.slSStatusPeerChip.key n 0, R.slSStatusPeerSide.key n 0, R.slSStatusStopIn.key n 0] ∧
      t = u.refreshReach.sendGrants)) ∧
  (∀ (n : Nat) (ring : BitVec 16) (chip : BitVec 2) (ps good : Bool) (s : State), s.sideOn n = false ∨ s.linkState n = 0 ∨
    s.linkState n = 3 → exec (.trainPairReceive n ring chip ps good) s = .next s) ∧
  (∀ (n : Nat) (s : State), s.sideOn n = true → s.linkState n = 1 → s.due (.trainLimit n) = true → ∃ t u v : State,
    exec (.trainingTimeout n) s = .next t ∧ u.linkState n = 3 ∧ u.armed (.trainLimit n) = false ∧
    u = { s with regs := u.regs, timers := u.timers } ∧ s.regsBut u [R.slSStatusState.key n 0] ∧
    v = u.raise (0xF01008 + 0x1000 * n) 0 1 0x0D ∧
    t = (if (v.spanSide n).heldLost then v.disarm (.trainRetry n) else v.arm (.trainRetry n) 100000000).refreshReach) ∧
  (∀ (n : Nat) (f : Instr) (s v : State), s.sideOn n = true → s.linkState n = 3 → s.sl.sides.length = 2 →
    (f = .trainingRetry n ∧ v = s ∧ s.due (.trainRetry n) = true ∧ (s.spanSide n).heldLost = false) ∨
      (f = .retrain n ∧ v = s.setCmd R.slSCtrlRetrain n ∧ s.flag R.slSCtrlEn n = true) → ∃ t u : State, exec f s = .next t ∧
    u.linkState n = 1 ∧ u.spanSide n = { s.spanSide n with trainGood := 0, heldLost := false } ∧ u.armed (.trainRetry n) = false ∧
    alGet u.timers (.trainLimit n) = some (s.devtime + 10000000) ∧ u = { v with regs := u.regs, sl := u.sl, timers := u.timers } ∧
    v.regsBut u [R.slSStatusState.key n 0] ∧ t = u.refreshReach.bump R.slSCntCount n 11) ∧
  (∀ (n : Nat) (s : State), s.sideOn n = true → s.linkState n = 1 → s.trainSent n = some (leBytes 2 (s.reg R.slRingRingId) ++
    [BitVec.ofNat 8 s.chip, BitVec.ofNat 8 n, BitVec.ofNat 8 s.member.num, BitVec.ofNat 8 s.part.stepping])) ∧
  (∀ (n : Nat) (s : State), (s.sideOn n = false ∨ s.due (.trainLimit n) = false → exec (.trainingTimeout n) s = .next s) ∧
    (s.sideOn n = false ∨ s.due (.trainRetry n) = false ∨ (s.spanSide n).heldLost = true → exec (.trainingRetry n) s = .next s) ∧
    (s.sideOn n = false → exec (.retrain n) s = .next s) ∧
    (s.sideOn n = true → s.linkState n ≠ 3 ∨ s.flag R.slSCtrlEn n = false →
      exec (.retrain n) s = .next (s.setCmd R.slSCtrlRetrain n))) ∧
  (∀ (n : Nat) (on : Bool) (s : State), s.sideOn n = false → exec (.spanLinkEnable n on) s = .next s) ∧
  (∀ (n : Nat) (s : State), s.sideOn n = true → s.linkState n = 0 → s.sl.sides.length = 2 → ∃ t u : State,
    exec (.spanLinkEnable n true) s = .next t ∧ u.reg R.slSCtrlEn n = 1 ∧ u.linkState n = 1 ∧
    alGet u.timers (.trainLimit n) = some (s.devtime + 10000000) ∧ u = { s with regs := u.regs, sl := u.sl, timers := u.timers } ∧
    s.regsBut u [R.slSCtrlEn.key n 0, R.slSStatusState.key n 0] ∧ t = u.refreshReach) ∧
  (∀ (n : Nat) (s : State), s.sideOn n = true → s.linkState n = 1 ∨ s.linkState n = 3 → ∃ t u : State,
    exec (.spanLinkEnable n false) s = .next t ∧ u.reg R.slSCtrlEn n = 0 ∧ u.linkState n = 0 ∧ u.armed (.trainLimit n) = false ∧
    u.armed (.trainRetry n) = false ∧ u = { s with regs := u.regs, sl := u.sl, timers := u.timers } ∧
    s.regsBut u [R.slSCtrlEn.key n 0, R.slSStatusState.key n 0] ∧ t = u.refreshReach) ∧
  (∀ (n : Nat) (s : State), s.sideOn n = true → s.linkState n = 2 → s.sl.sides.length = 2 → ∃ t,
    exec (.spanLinkEnable n false) s = .next t ∧ t.reg R.slSCtrlEn n = 0 ∧ t.linkState n = 0 ∧ (t.spanSide n).replay = [])

/-- O (R402 to R404, R407 to R414, R420): frames, where nothing else waits to be sent. The bytes of a frame read back as that
frame. One whose CRC fails, or that is ahead of the
expected one, is owed a NAK; the expected one advances the sequence, is owed an ACK, and its control entries wait to be read. An ACK
releases the replay buffer up to its frame and measures the round trip. The ACK goes in a short frame after 500 ns. At ACK_NS the buffer is
replayed, and after four retries the side gives up. A binding sends the cells of one data frame in its turn on general credit; without
credit it waits and counts. Choices of the model in it: log entries 10, 59 and 60. -/
def Obligations.SpanFrames : Prop :=
  (∀ (n : Nat) (l : List Byte) (c : Word) (s : State), s.linkUp n = true → n < 2 → ∃ t, exec (.longFrameReceive n l c) s = .next t ∧
    (frameOf l c = none → t.reg R.slSCntCount n 2 = (s.reg R.slSCntCount n 2 + 1) % 2 ^ 32) ∧
    (∀ f, frameOf l c = some f → f.nak = false → f.lseq = (s.spanSide n).rxNext → (t.spanSide n).rxNext = (f.lseq + 1) % 4096)) ∧
  (∀ (n : Nat) (l c : Word) (s : State), s.linkUp n = true → n < 2 → ∃ t, exec (.shortFrameReceive n l c) s = .next t ∧
    (shortOf l c = none → t.reg R.slSCntCount n 2 = (s.reg R.slSCntCount n 2 + 1) % 2 ^ 32) ∧
    (∀ w, shortOf l c = some w → bitAt w 24 = false → t.flag R.slSStatusStopIn n = bitAt w 25)) ∧
  (∀ (n : Nat) (s : State), s.linkUp n = true → n < 2 → s.due (.ackIdle n) = true →
    (s.spanSide n).ackOwed = true → ∃ t, exec (.shortFrameSend n) s = .next t ∧ t.armed (.ackIdle n) = false) ∧
  (∀ (n : Nat) (s : State), s.linkUp n = true → n < 2 → s.due (.ack n) = true → ∃ t, exec (.ackTimeout n) s = .next t ∧
    t.due (.ack n) = false) ∧
  (∀ (f : LongFrame) (l : List Byte) (c : Word), l = (frameBytes f).take 74 → c.toNat = leNat ((frameBytes f).drop 74) →
    f.lseq < 4096 → f.ack < 4096 → f.type < 4 → f.src < 4 → f.dst < 4 → f.qid < 512 → f.frag < 2048 →
    f.iseq < 65536 → 1 ≤ f.cells.length → f.cells.length ≤ 8 → (frameBytes f).length = 78 ∧ frameOf l c = some f) ∧
  (∀ (n : Nat) (l : List Byte) (w c : Word) (s : State), s.linkUp n = false → exec (.longFrameReceive n l c) s = .next s ∧
    exec (.shortFrameReceive n w c) s = .next s ∧ exec (.shortFrameSend n) s = .next s ∧ exec (.ackTimeout n) s = .next s) ∧
  (∀ (n : Nat) (l : List Byte) (c : Word) (s : State), s.linkUp n = true → s.spanQuiet → frameOf l c = none →
    ∃ t, exec (.longFrameReceive n l c) s = .next t ∧
    t.spanSide n = { s.spanSide n with wire := [], shorts := [], trainGood := 0, ackOwed := true, nakDue := true } ∧ t.armed (.ackIdle n) = true ∧
    t.reg R.slSCntCount n 2 = (s.reg R.slSCntCount n 2 + 1) % 2 ^ 32 ∧
    t = { s with regs := t.regs, sl := { s.sl with sides := t.sl.sides }, timers := t.timers } ∧ s.regsBut t [R.slSCntCount.key n 2]) ∧
  (∀ (n d : Nat) (l : List Byte) (c : Word) (f : LongFrame) (s : State), s.linkUp n = true → s.spanQuiet → frameOf l c = some f → f.nak = false →
    (∀ e ∈ (s.spanSide n).replay, e.frame.lseq ≠ f.ack) → d = (f.lseq + 4096 - (s.spanSide n).rxNext) % 4096 →
    (0 < d → d < 2048 → ∃ t, exec (.longFrameReceive n l c) s = .next t ∧
      t.spanSide n = { s.spanSide n with wire := [], shorts := [], trainGood := 0, ackOwed := true,
                                         nakDue := (s.spanSide n).nakDue || !(s.spanSide n).nakSent } ∧
      t.flag R.slSStatusStopIn n = f.stop ∧
      t = { s with regs := t.regs, sl := { s.sl with sides := t.sl.sides }, timers := t.timers } ∧
      s.regsBut t [R.slSStatusStopIn.key n 0]) ∧
    (d = 0 → f.type = 2 → f.dst = s.chip → ∃ t, exec (.longFrameReceive n l c) s = .next t ∧
      t.spanSide n = { s.spanSide n with wire := [], shorts := [], trainGood := 0, ackOwed := true, nakDue := false, nakSent := false,
                                         rxNext := ((s.spanSide n).rxNext + 1) % 4096 } ∧
      t.sl.ctrlIn = s.sl.ctrlIn ++ (f.cells.filter fun c =>
        decide (1 ≤ bits c.toNat 3 0) && decide (bits c.toNat 3 0 ≤ 4)).map (fun c => (n, f.src, c)) ∧
      t.reg R.slSCntCount n 1 = (s.reg R.slSCntCount n 1 + 1) % 2 ^ 32 ∧
      t = { s with regs := t.regs, sl := { s.sl with sides := t.sl.sides, ctrlIn := t.sl.ctrlIn }, timers := t.timers } ∧
      s.regsBut t [R.slSStatusStopIn.key n 0, R.slSCntCount.key n 1])) ∧
  (∀ (n i w : Nat) (l c : Word) (e : SentFrame) (s : State), s.linkUp n = true → s.spanQuiet → shortOf l c = some w →
    bitAt w 24 = false →
    (s.spanSide n).replay.findIdx? (fun e => e.frame.lseq == bits w 23 12) = some i → (s.spanSide n).replay[i]? = some e →
    ∃ t, exec (.shortFrameReceive n l c) s = .next t ∧
      t.spanSide n = { s.spanSide n with wire := [], shorts := [], trainGood := 0, replay := (s.spanSide n).replay.drop (i + 1) } ∧
      t.reg R.slSStatusRttNs n = min 0xFFFF (s.devtime - e.at_) ∧ t.flag R.slSStatusStopIn n = bitAt w 25 ∧
      t = { s with regs := t.regs, sl := { s.sl with sides := t.sl.sides }, timers := t.timers } ∧
      s.regsBut t [R.slSStatusStopIn.key n 0, R.slSStatusRttNs.key n 0]) ∧
  (∀ (n : Nat) (l c : Word) (s : State), s.linkUp n = true → s.spanQuiet → shortOf l c = none →
    ∃ t, exec (.shortFrameReceive n l c) s = .next t ∧ t.reg R.slSCntCount n 2 = (s.reg R.slSCntCount n 2 + 1) % 2 ^ 32 ∧
    t.spanSide n = { s.spanSide n with wire := [], shorts := [], trainGood := 0 } ∧
    t = { s with regs := t.regs, sl := { s.sl with sides := t.sl.sides } } ∧ s.regsBut t [R.slSCntCount.key n 2]) ∧
  (∀ (n : Nat) (s : State), s.linkUp n = true → s.spanQuiet → s.due (.ackIdle n) = true → (s.spanSide n).ackOwed = true →
    ∃ t, exec (.shortFrameSend n) s = .next t ∧ t.spanSide n = { s.spanSide n with
        wire := [], shorts := [s.shortBytes n], ackOwed := false, nakSent := (s.spanSide n).nakSent || (s.spanSide n).nakDue,
        nakDue := false } ∧ t.armed (.ackIdle n) = false ∧
      t = { s with sl := { s.sl with sides := t.sl.sides }, timers := t.timers }) ∧
  (∀ (n : Nat) (e : SentFrame) (r : List SentFrame) (s : State), s.linkUp n = true → s.spanQuiet → s.due (.ack n) = true →
    (s.spanSide n).replay = e :: r →
    (e.retries < 4 → ∃ t, exec (.ackTimeout n) s = .next t ∧
      (t.spanSide n).replay.map (·.retries) = (e.retries + 1) :: r.map (·.retries) ∧
      (t.spanSide n).replay.map (·.frame.cells) = (e :: r).map (·.frame.cells) ∧ (t.spanSide n).wire = (t.spanSide n).replay.map (fun e => frameBytes e.frame) ∧
      t.reg R.slSCntCount n 4 = (s.reg R.slSCntCount n 4 + 1) % 2 ^ 32 ∧
      alGet t.timers (.ack n) = some (s.devtime + 250 + s.reg R.slSCfgAckNs n) ∧
      t = { s with regs := t.regs, sl := { s.sl with sides := t.sl.sides }, timers := t.timers } ∧ s.regsBut t [R.slSCntCount.key n 4]) ∧
    (4 ≤ e.retries → exec (.ackTimeout n) s = .next ((s.clearWire.giveUp n).pump))) ∧
  (∀ (n : Nat) (s : State), (s.due (.ackIdle n) = false → exec (.shortFrameSend n) s = .next s) ∧
    (s.due (.ack n) = false → exec (.ackTimeout n) s = .next s)) ∧
  (∀ (k : Nat) (u : Upset) (s : State), s.txOn k = false ∨ s.domOn 9 = false ∨ s.quiesced = true ∨
    (s.reg R.qmQEpCons (s.txQid k) ≠ 0x68 ∧ s.reg R.qmQEpCons (s.txQid k) ≠ 0x69) → exec (.spanTransmit k u) s = .next s) ∧
  (∀ (k q n : Nat) (c : Cell) (s : State), s.txOn k = true → s.domOn 9 = true → s.quiesced = false → s.spanQuiet →
    q = s.txQid k → s.reg R.qmQEpCons q = 0x68 ∨ s.reg R.qmQEpCons q = 0x69 → q < 511 → (s.queue q).cells = [c] → c.marker = false → c.eop = true → (s.binding k).skip = false →
    (s.binding k).frag = 0 → s.txSide k = some n → s.roomToSend n = true → s.flag R.slSStatusStopIn n = false →
    ((s.binding k).general < 1 → ∃ t, exec (.spanTransmit k .none) s = .next t ∧
      t.reg R.slSCntCount n 8 = (s.reg R.slSCntCount n 8 + 1) % 2 ^ 32 ∧
      t = { s with regs := t.regs, sl := { s.sl with sides := t.sl.sides } } ∧ s.regsBut t [R.slSCntCount.key n 8]) ∧
    (1 ≤ (s.binding k).general → s.inTurn n k = true → s.popAllowed (s.reg R.qmQEpCons q) q = true → (s.queue q).severing = false →
      (s.queue q).discard = false → s.flag R.qmQCfgRetired q = false → parity 64 c.data.toNat = c.dp → c.item = cellItem c.data →
      s.txToken k = false → ∃ t f, exec (.spanTransmit k .none) s = .next t ∧ (t.queue q).cells = [] ∧
        (t.spanSide n).wire = [frameBytes f] ∧ f.type = 1 ∧ f.cells = [c.data] ∧ f.last = true ∧ f.src = s.chip ∧ f.dst = s.txDst k ∧
        f.qid = s.txDstQid k ∧ f.esc = false ∧ f.frag = 0 ∧ f.lseq = (s.spanSide n).txNext ∧
        (t.spanSide n).txNext = ((s.spanSide n).txNext + 1) % 4096 ∧
        (t.binding k).general = (s.binding k).general - 1 ∧ (t.binding k).sent = (s.binding k).sent + 1 ∧
        t.sl.items.map (·.item) = s.sl.items.map (·.item) ++ [cellItem c.data] ∧
        t.armed (.deliv (cellItem c.data)) = true ∧
        (t.spanSide n).turn = (k + 1) % s.txCount ∧
        t = { s with
          regs := t.regs, pal := t.pal, sl := t.sl, timers := t.timers, pins := { s.pins with xoff := t.pins.xoff } } ∧
        s.regsBut t [R.eiXoffState.key 0 0, R.slSCntCount.key n 0]))

/-- O (R405, R410 to R412, R414, R415, R418, R421): control entries. CREDIT returns general cells, or the escape credit as a whole; GRANT
sets general credit to the grant less the cells not returned; DELIVERED completes a general item and leaves a token to its result, and one
that names nothing is counted; NOTICE marks the link as down. An entry of another KIND waits. An item not DELIVERED in time ends TIMEOUT.
Choices of the model in it: log entries 10 and 60. -/
def Obligations.SpanControl : Prop :=
  (∀ (n : Nat) (f : Instr) (s : State), (n, f) ∈ [(1, Instr.credit), (2, .grant), (3, .delivered), (4, .notice)] →
    (∀ e, s.sl.ctrlIn.head? = some e → bits e.2.2.toNat 3 0 ≠ n) → exec f s = .next s) ∧
  (∀ (side src v k : Nat) (c : Cell64) (r : List (Nat × Nat × Cell64)) (s : State), s.sl.ctrlIn = (side, src, c) :: r → v = c.toNat →
    bits v 3 0 = 1 → s.bindingTo src (bits v 12 4) = some k → ∃ t, exec .credit s = .next t ∧
      t.binding k = (if bitAt v 29 then { s.binding k with esc := 8 } else { s.binding k with
        general := (s.binding k).general + bits v 28 13, sent := (s.binding k).sent - bits v 28 13 }) ∧
      (∀ m, m ≠ k → t.binding m = s.binding m) ∧ t = { s with sl := { s.sl with ctrlIn := r, bindings := t.sl.bindings } }) ∧
  (∀ (side src v : Nat) (c : Cell64) (r : List (Nat × Nat × Cell64)) (s : State), s.sl.ctrlIn = (side, src, c) :: r → v = c.toNat →
    bits v 3 0 = 1 → s.bindingTo src (bits v 12 4) = none → exec .credit s = .next { s with sl := { s.sl with ctrlIn := r } }) ∧
  (∀ (side src v k : Nat) (c : Cell64) (r : List (Nat × Nat × Cell64)) (s : State), s.sl.ctrlIn = (side, src, c) :: r → v = c.toNat →
    bits v 3 0 = 2 → s.bindingTo src (bits v 12 4) = some k → (∀ d ∈ s.rd.sides, d.tile < 64) → ∃ t u : State, exec .grant s = .next t ∧
      u = { s with sl := { s.sl with ctrlIn := r, linksDown := s.sl.linksDown.filter fun l =>
        !(([s.ringLink src 0, s.ringLink src 1].filter fun l => l != s.ringLink s.chip 0 && l != s.ringLink s.chip 1).contains l) } } ∧
      (t.binding k).general = (bits v 28 13 : Int) - (s.binding k).sent ∧ (t.binding k).sent = (s.binding k).sent ∧
      (∀ m, m ≠ k → t.binding m = s.binding m) ∧
      t = { u.refreshReach with sl := { u.refreshReach.sl with bindings := t.sl.bindings } }) ∧
  (∀ (side src v : Nat) (x : SpanItem) (c : Cell64) (r : List (Nat × Nat × Cell64)) (s : State), s.sl.ctrlIn = (side, src, c) :: r →
    v = c.toNat → bits v 3 0 = 3 →
    s.sl.items.find? (fun x => x.dst == src && x.token == bitAt v 4 && x.iseq == bits v 28 5) = some x → ∃ t u : State,
      exec .delivered s = .next t ∧ u.armed (.deliv x.item) = false ∧
      u = { s with sl := { s.sl with ctrlIn := r, items := s.sl.items.filter fun i => i.item != x.item }, timers := u.timers } ∧
      t = (if x.token then u else u.endTaken 0x0D x.item false)) ∧
  (∀ (side src v : Nat) (c : Cell64) (r : List (Nat × Nat × Cell64)) (s : State), s.sl.ctrlIn = (side, src, c) :: r → v = c.toNat →
    bits v 3 0 = 3 → s.sl.items.find? (fun x => x.dst == src && x.token == bitAt v 4 && x.iseq == bits v 28 5) = none →
    exec .delivered s = .next (({ s with sl := { s.sl with ctrlIn := r } } : State).bump R.slSCntCount side 12)) ∧
  (∀ (side src v link : Nat) (c : Cell64) (r : List (Nat × Nat × Cell64)) (s : State), s.sl.ctrlIn = (side, src, c) :: r → v = c.toNat →
    bits v 3 0 = 4 → link = s.ringLink (bits v 5 4) (bits v 6 6) → s.sl.rx = [] → (∀ x ∈ s.sl.items, link ∉ x.links) →
    ∃ t u : State, exec .notice s = .next t ∧ link ∈ u.sl.linksDown ∧ (∀ l, l ≠ link → (l ∈ u.sl.linksDown ↔ l ∈ s.sl.linksDown)) ∧
      u = { s with sl := { s.sl with ctrlIn := r, linksDown := u.sl.linksDown } } ∧ t = u.refreshReach) ∧
  (∀ (item : ItemId) (s : State), s.due (.deliv item) = true → ∃ t u : State, exec (.delivTmo item) s = .next t ∧
    u.armed (.deliv item) = false ∧
    u = { s with sl := { s.sl with items := s.sl.items.filter fun i => i.item != item }, timers := u.timers } ∧
    t = u.report item 0x06 0x0D 0) ∧
  (∀ (item : ItemId) (s : State), s.due (.deliv item) = false → exec (.delivTmo item) s = .next s)

/-! ## The host's commands (R424 to R445, R448 to R453) -/

/-- O (R429 to R431): a command of the host runs when its OP is the one at the front; arguments that do not hold are answered BAD_ARG, and
an OP that is none of R430 BAD_OP. NOP answers DEVTIME; with room in the response ring the response is written at WP, WP advances and the
command's item ends. A GO without a running plan, or for another step, is BAD_ARG; for the step that waits it ends that host step; for a
step that has had its end it is late or BUSY; for the next step it is held, once. DOMAIN waits while Keeper serves another request.
Choices of the model in it: log entries 10, 24 and 61. -/
def Obligations.HostCommands : Prop :=
  (∀ (c : Fetched) (r : List Fetched) (s u : State), s.hi.fetched = c :: r → c.op = 1 → c.zero 5 3 = true → c.zero 8 56 = true →
    u = { s with hi := { s.hi with fetched := r } } → exec .nopCmd s = .next (u.answer c 0 s.devtime).fetchAll) ∧
  (∀ (n : Nat) (f : Instr) (s : State), (n, f) ∈ [(1, Instr.nopCmd), (2, .goCmd), (3, .domainCmd), (4, .resetCore true), (4, .resetCore false),
      (5, .fwStage), (6, .i2cXfer), (7, .alarmSend), (8, .resume)] → (∀ c, s.hi.fetched.head? = some c → c.op ≠ n) →
    exec f s = .next s) ∧
  (∀ (n : Nat) (f : Instr) (c : Fetched) (r : List Fetched) (s u : State), (n, f) ∈ [(1, Instr.nopCmd), (2, .goCmd), (3, .domainCmd),
      (4, .resetCore true), (4, .resetCore false), (8, .resume)] → s.hi.fetched = c :: r → c.op = n → c.zero 5 3 = false →
    (n = 3 → s.domServing = false) → u = { s with hi := { s.hi with fetched := r } } → exec f s = .next (u.answer c 4 0).fetchAll) ∧
  (∀ (c : Fetched) (r : List Fetched) (s u : State), s.hi.fetched = c :: r → u = { s with hi := { s.hi with fetched := r } } →
    (c.op = 0 ∨ 8 < c.op → exec .badOp s = .next (u.answer c 3 0).fetchAll) ∧ (1 ≤ c.op → c.op ≤ 8 → exec .badOp s = .next s)) ∧
  (∀ s : State, s.hi.fetched = [] → exec .badOp s = .next s) ∧
  (∀ (c : Fetched) (r : List Fetched) (w l : Nat) (s : State), s.hi.fetched = c :: r → c.op = 1 → c.zero 5 3 = true → c.zero 8 56 = true →
    c.stream = 8 → streamOf c.item = 8 → s.ringsUp = true → w = s.reg R.hiRspWpIndex → l = s.reg R.hiRspSizeLog2 → l ≤ 12 →
    ringFree (s.reg R.hiRspRpIndex) w l = true → s.hi.rspWait = [] → s.hi.dups = [] →
    s.reg R.hiCmdCiIndex % 2 ^ s.reg R.hiCmdSizeLog2 = s.reg R.hiCmdPiIndex % 2 ^ s.reg R.hiCmdSizeLog2 → s.hasEnded c.item = false →
    bitAt (s.reg R.lgLogOkStreams 0) 8 = false → ∃ t, exec .nopCmd s = .next t ∧
      t.hostMem = s.hostMem.writeBytes (hostBase (s.reg R.hiRspBaseAddr 0) (s.reg R.hiRspBaseAddr 1) + 16 * (w % 2 ^ l))
        (responseBytes { item := c.item, op := 1, status := 0, result := s.devtime % 2 ^ 64, ends := true } (s.phase 0)) ∧
      t.reg R.hiRspWpIndex = (w + 1) % 2 ^ l ∧ t.reg R.hiCntCount 1 = (s.reg R.hiCntCount 1 + 1) % 2 ^ 32 ∧
      bitAt (t.reg R.hiIrqStatusVec) 0 = true ∧ t.hi.fetched = r ∧
      t.lg = { s.lg with ended := (c.item :: s.lg.ended).take 16384, items := alDel s.lg.items c.item } ∧
      t = { s with regs := t.regs, hi := t.hi, hostMem := t.hostMem, lg := t.lg } ∧
      s.regsBut t [R.hiRspWpIndex.key 0 0, R.hiCntCount.key 1 0, R.hiIrqStatusVec.key 0 0]) ∧
  (∀ (c : Fetched) (r : List Fetched) (g : GoArgs) (s u : State), s.hi.fetched = c :: r → c.op = 2 → c.zero 5 3 = true → goArgsOk c = true →
    g = GoArgs.ofBytes (c.args.drop 8) → u = { s with hi := { s.hi with fetched := r } } →
    (s.flag R.ppStatusRun = false → exec .goCmd s = .next (u.answer c 4 0).fetchAll) ∧
    (s.flag R.ppStatusRun = true → s.pp.hostWait = some g.step →
      exec .goCmd s = .next (((u.applyGo g).endHostStep g.step .go).answer c 0 0).fetchAll) ∧
    (s.flag R.ppStatusRun = true → s.pp.hostWait ≠ some g.step → alGet s.pp.hostEnds g.step = some .defaults →
      exec .goCmd s = .next (((u.bump R.hiCntCount 4).report c.item 0x06 0x0F 0).answer c 2 0).fetchAll) ∧
    (s.flag R.ppStatusRun = true → s.pp.hostWait ≠ some g.step → alGet s.pp.hostEnds g.step = some .go →
      exec .goCmd s = .next (u.answer c 9 0).fetchAll) ∧
    (s.flag R.ppStatusRun = true → s.pp.hostWait ≠ some g.step → alGet s.pp.hostEnds g.step = none → g.step ≠ s.nextHostStep →
      exec .goCmd s = .next (u.answer c 4 0).fetchAll) ∧
    (s.flag R.ppStatusRun = true → s.pp.hostWait ≠ some g.step → alGet s.pp.hostEnds g.step = none → g.step = s.nextHostStep →
      s.pp.heldGo.isSome = true → exec .goCmd s = .next (u.answer c 9 0).fetchAll) ∧
    (s.flag R.ppStatusRun = true → s.pp.hostWait ≠ some g.step → alGet s.pp.hostEnds g.step = none → g.step = s.nextHostStep →
      s.pp.heldGo = none →
      exec .goCmd s = .next ({ u with pp := { s.pp with heldGo := some (g, c.item) } } : State).fetchAll)) ∧
  (∀ (c : Fetched) (r : List Fetched) (k : Option Nat) (s u v : State), s.hi.fetched = c :: r → c.op = 3 → c.zero 5 3 = true →
    bits (c.num 8 4) 31 10 = 0 → bits (c.num 8 4) 0 0 = 0 → c.zero 12 52 = true → u = { s with hi := { s.hi with fetched := r } } →
    s.domServing = false → u.domCommand c = (k, v) → exec .domainCmd s = .next ((match k with
      | some n => v.answer c 5 n
      | none => v.answer c 0 (v.reg R.pwDomStateOn)) : State).fetchAll) ∧
  (∀ s : State, s.domServing = true → exec .domainCmd s = .next s) ∧
  (∀ (m : Bool) (c : Fetched) (r : List Fetched) (s u : State), s.hi.fetched = c :: r → c.op = 4 → c.zero 5 3 = true → c.zero 8 56 = true →
    u = { s with hi := { s.hi with fetched := r } } →
    exec (.resetCore m) s = .next ((((u.answer c 0 0).coreReset).setCause R.pwResetCauseHost).coreReboot m).fetchAll) ∧
  (∀ (c : Fetched) (r : List Fetched) (s u : State), s.hi.fetched = c :: r → c.op = 8 → c.zero 5 3 = true → c.zero 8 56 = true →
    u = { s with hi := { s.hi with fetched := r } } →
    (∀ k, s.resumeRefusal = some k → exec .resume s = .next (u.answer c 5 k).fetchAll) ∧
    (s.resumeRefusal = none → exec .resume s = .next ((u.clearForResume.bootFrom5 true false).answer c 0 0).fetchAll))

/-- O (R430, R431, R440, R441, R443, R444, R449): the background commands. With 8 of them in progress none begins. FW_STAGE begins a
firmware-load item of stream 0x00; the body of an image that passes its checks is written to a bank that is not usable meanwhile.
FW_STAGE_DONE writes the header and answers with the item. An I2C transfer gains a controller that is free, and
ends with the bytes read, at a byte that was not acknowledged, or at a stretched clock; the next one follows. ALARM_SEND is refused
where the sentence is not queued. Choices of the model in it: log entries 10, 61, 62, 63 and 65. -/
def Obligations.BackgroundCommands : Prop :=
  (∀ (s : State), 8 ≤ s.background → exec .fwStage s = .next s ∧ exec .i2cXfer s = .next s ∧ exec .alarmSend s = .next s) ∧
  (∀ (c : Fetched) (r : List Fetched) (item : ItemId) (s : State), s.background < 8 → s.hi.fetched = c :: r → c.op = 5 → c.zero 5 3 = true →
    c.zero 0x14 44 = true → 0 < c.num 0x10 4 → s.extOk (c.num 8 8) (c.num 0x10 4) = true → item = s.nextItem 0 →
    ∃ t u : State, exec .fwStage s = .next t ∧ alGet u.lg.items item = some s.devtime ∧
      u = { s with hi := { s.hi with fetched := r, fwLoads := s.hi.fwLoads ++ [{ cmd := c, item := item }] },
                   lg := { s.lg with items := u.lg.items, seqs := u.lg.seqs } } ∧ t = u.fwBegin.fetchAll) ∧
  (∀ (c : Fetched) (r : List Fetched) (s u : State), s.background < 8 → s.hi.fetched = c :: r → c.op = 5 → c.zero 5 3 = true →
    u = { s with hi := { s.hi with fetched := r } } →
    c.zero 0x14 44 = false ∨ c.num 0x10 4 = 0 ∨ s.extOk (c.num 8 8) (c.num 0x10 4) = false →
    exec .fwStage s = .next (u.answer c 4 0).fetchAll) ∧
  (∀ (s : State), s.hi.fwLoads = [] → exec .fwStageDone s = .next s) ∧
  (∀ (l : FwLoad) (r : List FwLoad) (i : Nat) (img : List Byte) (s : State), s.hi.fwLoads = l :: r → l.begun = false →
    img = s.image (l.cmd.num 8 8) (l.cmd.num 0x10 4) → i = s.fwTarget →
    (s.fwBegin).hi = { s.hi with
      fwLoads := { l with begun := true, img := img, bank := i, check := s.fwCheck img (hasTrailer img) } :: r } ∧
    (s.fwCheck img (hasTrailer img) = none → (s.fwBegin).bankUsable i = false ∧ ((s.fwBegin).bank i).image = img) ∧
    (∀ k, s.fwCheck img (hasTrailer img) = some k → (s.fwBegin).store = s.store)) ∧
  (∀ (l : FwLoad) (r : List FwLoad) (s u : State), s.hi.fwLoads = l :: r → u = { s with hi := { s.hi with fwLoads := r } } →
    (l.check = none → exec .fwStageDone s = .next
      ((((u.fwHeader l.bank l.img).complete l.item 0).answer l.cmd 0 l.item.toNat).fwBegin).fetchAll) ∧
    (∀ k, l.check = some k → exec .fwStageDone s = .next
      (((u.report l.item 0x0F 4 k).answer l.cmd 0 l.item.toNat).fwBegin).fetchAll)) ∧
  (∀ (c : Fetched) (r : List Fetched) (bus : Nat) (s : State), s.background < 8 → s.hi.fetched = c :: r → c.op = 6 → c.zero 5 3 = true →
    i2cArgsOk c = true → bus = bits (c.num 8 4) 0 0 → (∀ t ∈ s.hi.transfers, t.bus ≠ bus) → ∃ t u : State, exec .i2cXfer s = .next t ∧
      u = { s with hi := { s.hi with fetched := r, transfers := s.hi.transfers ++ [{ cmd := c, bus := bus, started := !(s.latchWaits bus) }] } } ∧
      t = u.fetchAll) ∧
  (∀ (c : Fetched) (r : List Fetched) (s u : State), s.background < 8 → s.hi.fetched = c :: r → c.op = 6 → c.zero 5 3 = true →
    u = { s with hi := { s.hi with fetched := r } } → i2cArgsOk c = false → exec .i2cXfer s = .next (u.answer c 4 0).fetchAll) ∧
  (∀ (bus : Nat) (nack : Option Nat) (data : List Byte) (s : State), (∀ t ∈ s.hi.transfers, t.bus ≠ bus) →
    exec (.i2cXferDone bus nack data) s = .next s ∧ exec (.i2cStretchTimeout bus) s = .next s) ∧
  (∀ (bus : Nat) (p r : List Transfer) (x : Transfer) (s u : State), s.hi.transfers = p ++ x :: r → (∀ y ∈ p, y.bus ≠ bus) → x.bus = bus →
    x.started = true → u = { s with hi := { s.hi with transfers := p ++ r } } →
    (∀ (n : Nat) (data : List Byte), exec (.i2cXferDone bus (some n) data) s =
      .next (((u.bump R.hiCntCount 8).answer x.cmd 6 n).startTransfer bus).fetchAll) ∧
    (∀ data : List Byte, data.length = bits (x.cmd.num 8 4) 19 16 →
      exec (.i2cXferDone bus none data) s = .next ((u.answer x.cmd 0 (leNat data)).startTransfer bus).fetchAll) ∧
    (∀ data : List Byte, data.length ≠ bits (x.cmd.num 8 4) 19 16 → exec (.i2cXferDone bus none data) s = .next s) ∧
    exec (.i2cStretchTimeout bus) s = .next (((u.bump R.hiCntCount 9).answer x.cmd 7 0).startTransfer bus).fetchAll) ∧
  (∀ (c : Fetched) (r : List Fetched) (n : Nat) (s u : State), s.background < 8 → s.hi.fetched = c :: r → c.op = 7 → c.zero 5 3 = true →
    u = { s with hi := { s.hi with fetched := r } } → n = c.num 8 1 →
    (c.zero 9 3 = false ∨ n = 0 ∨ 52 < n ∨ (bytesAt c.args 0x0C n).all sentenceChar = false →
      exec .alarmSend s = .next (u.answer c 4 0).fetchAll) ∧
    (c.zero 9 3 = true → 1 ≤ n → n ≤ 52 → (bytesAt c.args 0x0C n).all sentenceChar = true →
      (s.flag R.hiAlarmEn = false → exec .alarmSend s = .next (u.answer c 5 0).fetchAll) ∧
      (s.flag R.hiAlarmEn = true → 16 ≤ s.hi.alarms.length →
        exec .alarmSend s = .next ((u.bump R.hiCntCount 10).answer c 5 0).fetchAll) ∧
      (s.flag R.hiAlarmEn = true → s.hi.alarms.length < 16 → exec .alarmSend s = .next (({ u with hi := { u.hi with
        alarms := s.hi.alarms ++ [{ kind := 2, text := sentenceText (chars "PQWXM," ++ bytesAt c.args 0x0C n), cmd := some c }] } } : State)
        |>.startSentence).fetchAll)))

/-- O (R235, R424 to R429, R435, R436, R452, R453, R480, R484): rings, readouts, the link and BAR2. A doorbell behind which a fresh entry
stands fetches it: an item of stream 0x08 that the window accepts. A readout ring with room pops one cell of its queue into host memory
at WP. A bus-master error disables the rings, loses the responses that wait and is a fault of severity 2. A BAR2 access reads or writes
external memory; it is an Unsupported Request while PD06 is off or beyond the installed capacity.
Choices of the model in it: log entries 10, 24 and 62. -/
def Obligations.RingsReadoutsAndLink : Prop :=
  (∀ (pi : Word) (slots : List (List Byte)) (on : Bool) (s : State), s.pcieUp = false →
    exec (.cmdDoorbell pi slots) s = .next s ∧ exec (.ringsEn on) s = .next s ∧ exec .dmaError s = .next s) ∧
  (∀ (c : Fetched) (e : List Byte) (l ci : Nat) (s : State), s.ringsUp = true → s.flag R.lgStatusQuiescing = false →
    l = s.reg R.hiCmdSizeLog2 → 1 ≤ l → l ≤ 12 → ci = s.reg R.hiCmdCiIndex → ci = s.reg R.hiCmdPiIndex → ci < 2 ^ l → e.length = 64 →
    c = { stream := 8, item := BitVec.ofNat 32 (fieldAt e 0 4), op := fieldAt e 4 1, args := e } → isBackground c.op = false →
    streamOf c.item = 8 → s.hi.win8.classify (seqOf c.item) = .fresh →
    ∃ t, exec (.cmdDoorbell (BitVec.ofNat 32 ((ci + 1) % 2 ^ l)) [e]) s = .next t ∧
      t.hi = { s.hi with fetched := s.hi.fetched ++ [c], win8 := s.hi.win8.accept (seqOf c.item) } ∧
      t.reg R.hiCmdPiIndex = (ci + 1) % 2 ^ l ∧ t.reg R.hiCmdCiIndex = (ci + 1) % 2 ^ l ∧
      t.reg R.hiSeqHigh = (s.hi.win8.accept (seqOf c.item)).high.getD 0 % 2 ^ 24 ∧ t.reg R.hiSeqValid = 1 ∧
      t.reg R.hiCntCount 0 = (s.reg R.hiCntCount 0 + 1) % 2 ^ 32 ∧
      t.hostMem = s.hostMem.writeBytes (hostBase (s.reg R.hiCmdBaseAddr 0) (s.reg R.hiCmdBaseAddr 1) + 64 * ci) e ∧
      t.lg = { s.lg with items := alPut s.lg.items c.item s.devtime } ∧
      t = { s with regs := t.regs, hi := t.hi, hostMem := t.hostMem, lg := t.lg } ∧
      s.regsBut t [R.hiCmdPiIndex.key 0 0, R.hiCmdCiIndex.key 0 0, R.hiSeqHigh.key 0 0, R.hiSeqValid.key 0 0, R.hiCntCount.key 0 0]) ∧
  (∀ s : State, s.pcieUp = true → s.hi.rspWait = [] →
    (∃ t, exec (.ringsEn false) s = .next t ∧ t.reg R.hiCtrlRingsEn = 0 ∧ s.onlyRegs t [R.hiCtrlRingsEn.key 0 0]) ∧
    (∃ t u : State, exec (.ringsEn true) s = .next t ∧ u.reg R.hiCtrlRingsEn = 1 ∧ s.onlyRegs u [R.hiCtrlRingsEn.key 0 0] ∧
      t = u.fetchAll)) ∧
  (∀ (k : Nat) (u : Upset) (s : State), s.ringsUp = false ∨ s.flag R.hiRdCfgEn k = false ∨ 16 ≤ k ∨
    ringFree (s.reg R.hiRdRpIndex k) (s.reg R.hiRdWpIndex k) (s.reg R.hiRdCfgLog2 k) = false → exec (.readoutPop k u) s = .next s) ∧
  (∀ (k w l q : Nat) (c : Cell) (rest : List Cell) (s : State), s.ringsUp = true → s.flag R.hiRdCfgEn k = true → k < 16 →
    w = s.reg R.hiRdWpIndex k → l = s.reg R.hiRdCfgLog2 k → l ≤ 16 → q = s.reg R.hiRdCfgQid k →
    ringFree (s.reg R.hiRdRpIndex k) w l = true → s.popAllowed 0x70 q = true → (s.queue q).severing = false → (s.queue q).discard = false →
    (s.queue q).cells = c :: rest → c.marker = false → s.flag R.qmQCfgRetired q = false → parity 64 c.data.toNat = c.dp →
    ∃ t u : State, exec (.readoutPop k .none) s = .next t ∧ (u.queue q).cells = rest ∧ (∀ n, n ≠ q → u.queue n = s.queue n) ∧
      u.hostMem = s.hostMem.writeBytes (hostBase (s.reg R.hiRdBaseAddr k 0) (s.reg R.hiRdBaseAddr k 1) + 16 * (w % 2 ^ l))
        (leBytes 8 c.data.toNat ++ [BitVec.ofNat 8 (4 * ofFlag c.eop)] ++ List.replicate 6 0 ++
          [BitVec.ofNat 8 (128 * ofFlag (s.phase (2 + k)))]) ∧
      u.reg R.hiRdWpIndex k = (w + 1) % 2 ^ l ∧
      u = { s with
        regs := u.regs, pal := u.pal, hi := { s.hi with phases := u.hi.phases }, hostMem := u.hostMem,
        pins := { s.pins with xoff := u.pins.xoff } } ∧
      s.regsBut u [R.eiXoffState.key 0 0, R.hiRdWpIndex.key k 0] ∧
      t = (if c.eop = false then u else if q = 511 then u.vector 2 else
        (u.vector 2).endTaken 0x0F (cellItem c.data) (lossyCell c.data))) ∧
  (∀ s : State, (s.ringsUp = false → exec .dmaError s = .next s) ∧
    (s.ringsUp = true → ∃ t u : State, exec .dmaError s = .next t ∧ u.reg R.hiStatusDmaErr = 1 ∧ u.reg R.hiCtrlRingsEn = 0 ∧
      u.reg R.hiCntCount 6 = (s.reg R.hiCntCount 6 + s.hi.rspWait.length) % 2 ^ 32 ∧
      u = { s with regs := u.regs, hi := { s.hi with rspWait := [] } } ∧
      s.regsBut u [R.hiStatusDmaErr.key 0 0, R.hiCtrlRingsEn.key 0 0, R.hiCntCount.key 6 0] ∧ t = u.raise 0xFC0004 8 2 0x0F)) ∧
  (∀ s : State, ∃ t, exec .pcieLinkDown s = .next t ∧ t.pcieUp = false ∧ t.reg R.hiStatusGen = 0 ∧ t.reg R.hiStatusWidth = 0 ∧
    s.onlyRegs t [R.hiStatusLinkUp.key 0 0, R.hiStatusGen.key 0 0, R.hiStatusWidth.key 0 0]) ∧
  (∀ (g w : BitVec 2) (s : State), (s.domOn 1 = false ∨ s.pins.perstN = false ∨ g = 0 ∨ w = 0 ∨ w = 3 →
      exec (.pcieLinkUp g w) s = .next s) ∧
    (s.domOn 1 = true → s.pins.perstN = true → g ≠ 0 → w = 1 ∨ w = 2 → ∃ t u : State, exec (.pcieLinkUp g w) s = .next t ∧
      u.pcieUp = true ∧ u.reg R.hiStatusGen = g.toNat ∧ u.reg R.hiStatusWidth = w.toNat ∧
      s.onlyRegs u [R.hiStatusLinkUp.key 0 0, R.hiStatusGen.key 0 0, R.hiStatusWidth.key 0 0] ∧
      t = (u.flushResponses s.hi.rspWait.length).fetchAll)) ∧
  (∀ (off len : Nat) (w : Option (List Byte)) (s : State), s.pcieUp = false → exec (.bar2Access off len w) s = .next s) ∧
  (∀ (off len n : Nat) (w : Option (List Byte)) (s : State), s.pcieUp = true → n = (match w with | some d => d.length | none => len) →
    s.domOn 6 = false ∨ s.extOk (s.reg R.hiBar2Base * 0x10000000 + off) n = false ∨ 0x10000000 < off + n →
    exec (.bar2Access off len w) s = .next { s with hi := { s.hi with busUr := true, busOut := [] } }) ∧
  (∀ (off len a : Nat) (s : State), s.pcieUp = true → s.domOn 6 = true → a = s.reg R.hiBar2Base * 0x10000000 + off →
    off + len ≤ 0x10000000 → s.extOk a len = true →
    exec (.bar2Access off len none) s = .next { s with hi := { s.hi with busUr := false, busOut := s.ext.readBytes a len } }) ∧
  (∀ (off len a : Nat) (d : List Byte) (s : State), s.pcieUp = true → s.domOn 6 = true → a = s.reg R.hiBar2Base * 0x10000000 + off →
    off + d.length ≤ 0x10000000 → s.extOk a d.length = true → ∃ t u : State, exec (.bar2Access off len (some d)) s = .next t ∧
      u = { s with hi := { s.hi with busUr := false, busOut := [] } } ∧
      (a < 0x4000000 → s.bootIface .pcie = false ∨ s.keeper.mode = .booting → t = u) ∧
      (0x4000000 ≤ a ∨ (s.bootIface .pcie = true ∧ s.keeper.mode ≠ .booting) → s.hitsInit a d.length = true → t = u.bump R.cvInitBlockedCount) ∧
      (0x4000000 ≤ a ∨ (s.bootIface .pcie = true ∧ s.keeper.mode ≠ .booting) → s.hitsInit a d.length = false → s.hitsPlan a d.length = true →
        t = u.bump R.ppImageBlockedCount) ∧
      (0x4000000 ≤ a ∨ (s.bootIface .pcie = true ∧ s.keeper.mode ≠ .booting) → s.hitsInit a d.length = false → s.hitsPlan a d.length = false →
        t = { u with ext := s.ext.writeBytes a d }))

/-- O (R91, R92, R222, R428, R429, R437, R438, R450): the SPI target. In reset it does nothing; while PD01 is off it serves STATUS, and READ
and WRITE of the KP, PW and TM blocks, with SDO low elsewhere. A READ increments its offset and latches upper words; a WRITE of several
words is a WRITE of each, and a field with a command of its own acts as that command. A CMD frame that is short or fails its CRC shows
CRC_ERR, one at a full queue changes nothing else. RESP removes the response after all 18 bytes.
Choices of the model in it: log entries 10, 15 and 64. -/
def Obligations.SpiTarget : Prop :=
  (∀ s : State, s.alive = true → ∃ t n, exec .spiStatus s = .next t ∧ t = { s with hi := { s.hi with spiOut := [BitVec.ofNat 8 n] } } ∧
    bitAt n 1 = !s.hi.spiResp.isEmpty ∧ bitAt n 0 = decide (4 ≤ (s.hi.fetched.filter (·.stream = 9)).length) ∧
    (s.reg R.pwHbFault < 2 → bitAt n 2 = s.inGesso ∧ bitAt n 3 = s.flag R.pwHbFault ∧ bitAt n 4 = s.hi.spiCrc ∧ bitAt n 5 = s.domOn 1)) ∧
  (∀ (s : State) (off n : Nat) (w : List Word), s.alive = false → exec .spiStatus s = .next s ∧ exec (.spiRead off n) s = .next s ∧
    exec (.spiWrite off w) s = .next s) ∧
  (∀ (s : State) (a n : Nat) (d e : List Byte) (crc : BitVec 16), s.alive = false ∨ s.domOn 1 = false →
    exec (.spiMread a n) s = .next s ∧ exec (.spiMwrite a d) s = .next s ∧ exec (.spiCmd e crc) s = .next s ∧
    exec (.spiResp n) s = .next s) ∧
  (∀ (off n : Nat) (s : State), s.alive = true → off + 4 * n ≤ 2 ^ 24 →
    (∀ i, i < n → off + 4 * i ≠ 0x500000 ∧ off + 4 * i ≠ 0x90002C) →
    ∃ l : List Byte, exec (.spiRead off n) s = .next { s with hi := { s.hi with spiOut := l } } ∧ l = ((List.range n).flatMap fun i =>
      if s.spiServes (off + 4 * i) && off % 4 == 0 then leBytes 4 (s.readWord (off + 4 * i)) else [0, 0, 0, 0])) ∧
  (∀ s : State, s.alive = true → s.devtime < 2 ^ 64 → ∃ t, exec (.spiRead 0x500000 2) s = .next t ∧ t.hi.spiOut = leBytes 8 s.devtime ∧
    t = { s with regs := t.regs, hi := { s.hi with spiOut := t.hi.spiOut } } ∧ s.regsBut t [R.tmDevtimeHiNs.key 0 0]) ∧
  (∀ (off : Nat) (s : State), exec (.spiWrite off []) s = .next s) ∧
  (∀ (off : Nat) (w : Word) (ws : List Word) (s : State), ∃ t, exec (.spiWrite off [w]) s = .next t ∧
    exec (.spiWrite off (w :: ws)) s = exec (.spiWrite (off + 4) ws) t) ∧
  (∀ (off : Nat) (w : Word) (s : State), off < 2 ^ 24 → s.spiServes off = false ∨ off % 4 ≠ 0 → exec (.spiWrite off [w]) s = .next s) ∧
  (∀ (off v : Nat) (f : Instr) (s t : State), (off, v, f) ∈ [(0x800004, 1, Instr.loadCanvas), (0x800004, 2, .hangRequest), (0x800004, 4, .unstage),
      (0x600004, 0x80000000, .poolLowClr), (0x200020, 0x80000000, .powerPeakClr), (0xE00000, 1, .video true), (0xE00000, 0, .video false),
      (0xF01000, 1, .spanLinkEnable 0 true), (0xF02000, 0, .spanLinkEnable 1 false), (0x400000, 1, .portEn 0 true),
      (0x401008, 1, .commit 1), (0x402008, 2, .cntClr 2), (0xF8000C, 5, .lgFaultAck 5)] →
    s.spiServes off = true → exec (.registerWrite off (BitVec.ofNat 32 v) .spi) s = .next t → ∃ u, exec f t = .next u ∧
      exec (.spiWrite off [BitVec.ofNat 32 v]) s = .next u) ∧
  (∀ (off : Nat) (w : Word) (s : State), off = 0x600010 ∨ off = 0x200014 ∨ off = 0x700000 →
    exec (.spiWrite off [w]) s = exec (.registerWrite off w .spi) s) ∧
  (∀ (a n : Nat) (s : State), s.alive = true → s.domOn 1 = true →
    (s.domOn 6 = true → s.extOk a n = true → a + n ≤ 2 ^ 32 →
      exec (.spiMread a n) s = .next { s with hi := { s.hi with spiOut := s.ext.readBytes a n } }) ∧
    (s.domOn 6 = false ∨ s.extOk a n = false ∨ 2 ^ 32 < a + n → ∃ t, exec (.spiMread a n) s = .next t ∧ t.hi.spiOut.length = n ∧
      t = { s with hi := { s.hi with spiOut := t.hi.spiOut }, freeCtr := s.freeCtr + 1 })) ∧
  (∀ (a : Nat) (d : List Byte) (s : State), s.alive = true → s.domOn 1 = true →
    (d.length % 4 ≠ 0 ∨ s.domOn 6 = false ∨ s.extOk a d.length = false ∨ 2 ^ 32 < a + d.length ∨
        (a < 0x4000000 ∧ (s.bootIface .spi = false ∨ s.keeper.mode = .booting)) → exec (.spiMwrite a d) s = .next s) ∧
    (d.length % 4 = 0 → s.domOn 6 = true → s.extOk a d.length = true → a + d.length ≤ 2 ^ 32 → 0x4000000 ≤ a ∨ (s.bootIface .spi = true ∧ s.keeper.mode ≠ .booting) →
      exec (.spiMwrite a d) s = .next { s with ext := s.ext.writeBytes a d })) ∧
  (∀ (e : List Byte) (crc : BitVec 16) (s : State), s.alive = true → s.domOn 1 = true →
    (e.length ≠ 64 ∨ crc16 e ≠ crc.toNat → ∃ t, exec (.spiCmd e crc) s = .next t ∧
      t.reg R.hiCntCount 7 = (s.reg R.hiCntCount 7 + 1) % 2 ^ 32 ∧ t = { s with regs := t.regs, hi := { s.hi with spiCrc := true } } ∧
      s.regsBut t [R.hiCntCount.key 7 0]) ∧
    (e.length = 64 → crc16 e = crc.toNat → s.spiQueueFull = true ∨ s.flag R.lgStatusQuiescing = true →
      exec (.spiCmd e crc) s = .next { s with hi := { s.hi with spiCrc := false } }) ∧
    (∀ c : Fetched, e.length = 64 → crc16 e = crc.toNat → s.spiQueueFull = false → s.flag R.lgStatusQuiescing = false →
      c = { stream := 9, item := BitVec.ofNat 32 (fieldAt e 0 4), op := fieldAt e 4 1, args := e } → streamOf c.item = 9 →
      s.hi.win9.classify (seqOf c.item) = .fresh → ∃ t, exec (.spiCmd e crc) s = .next t ∧
        t.hi = { s.hi with spiCrc := false, fetched := s.hi.fetched ++ [c], win9 := s.hi.win9.accept (seqOf c.item) } ∧
        t.reg R.hiSeqSpiHigh = (s.hi.win9.accept (seqOf c.item)).high.getD 0 % 2 ^ 24 ∧ t.reg R.hiSeqSpiValid = 1 ∧
        t.lg = { s.lg with items := alPut s.lg.items c.item s.devtime } ∧ t = { s with regs := t.regs, hi := t.hi, lg := t.lg } ∧
        s.regsBut t [R.hiSeqSpiHigh.key 0 0, R.hiSeqSpiValid.key 0 0, R.hiCntCount.key 0 0])) ∧
  (∀ (n c : Nat) (r : List Byte) (l : List (List Byte)) (s : State), s.alive = true → s.domOn 1 = true → s.hi.spiResp = r :: l →
    s.hi.spiWait = [] → c = crc16 r →
    (n < 18 → exec (.spiResp n) s = .next { s with hi := { s.hi with
      spiOut := (r ++ [BitVec.ofNat 8 (c / 256), BitVec.ofNat 8 c]).take n } }) ∧
    (18 ≤ n → exec (.spiResp n) s = .next { s with hi := { s.hi with
      spiOut := (r ++ [BitVec.ofNat 8 (c / 256), BitVec.ofNat 8 c]).take n, spiResp := l } })) ∧
  (∀ (n : Nat) (s : State), s.alive = true → s.domOn 1 = true → s.hi.spiResp = [] → ∃ t, exec (.spiResp n) s = .next t ∧
    t.hi.spiOut.length = min n 18 ∧ t = { s with hi := { s.hi with spiOut := t.hi.spiOut }, freeCtr := s.freeCtr + 1 })

/-- O (R442 to R446): the alarm port, the TAP and the trace port. A status sentence is queued every PERIOD seconds; the port sends one sentence
at a time and answers an ALARM_SEND at its last stop bit. IDCODE carries the stepping digit, the part number of a Q64 and a 1; EXTEST, CLAMP and
HIGHZ act as BYPASS in a running device. A trace packet is buffered while 4 KiB hold it, with a LOST packet that is owed ahead of
it, else it is counted; a byte leaves every 8 ns with a change of TRACE_STB.
Choices of the model in it: log entries 10, 9, 65, 66 and 67. -/
def Obligations.AlarmTapAndTrace : Prop :=
  (∀ s : State, s.due .alarm = false ∨ (s.inRun = false ∧ s.inGesso = false) → exec .alarmStatusTimer s = .next s) ∧
  (∀ (d : Nat) (s : State), s.due .alarm = true → s.inRun = true ∨ s.inGesso = true → alGet s.timers .alarm = some d → ∃ t u : State,
    exec .alarmStatusTimer s = .next t ∧ alGet u.timers .alarm = some (d + 1000000000 * max 1 (s.reg R.hiAlarmPeriod)) ∧
    u = { s with timers := u.timers } ∧ t = (u.queueSentence 1 s.statusBody none).2 ∧
    (s.flag R.hiAlarmEn = false → t = u) ∧
    (s.flag R.hiAlarmEn = true → s.hi.alarms = [] → s.hi.sending = none →
      t = { u with hi := { s.hi with sending := some { kind := 1, text := sentenceText s.statusBody } }, timers := t.timers } ∧
      alGet t.timers .alarmSent = some (s.devtime + ceilDiv ((sentenceText s.statusBody).length * 10000000000)
        (if s.flag R.hiAlarmBaud then 38400 else 4800)))) ∧
  (∀ s : State, s.hi.sending = none ∨ s.due .alarmSent = false → exec .alarmSentenceSent s = .next s) ∧
  (∀ (x : Sentence) (s : State), s.hi.sending = some x → s.due .alarmSent = true → ∃ t u : State, exec .alarmSentenceSent s = .next t ∧
    u.armed .alarmSent = false ∧ u = { s with hi := { s.hi with sending := none }, timers := u.timers } ∧
    t = (match x.cmd with
      | some c => (u.startSentence.answer c 0 0).fetchAll
      | none => u.startSentence)) ∧
  (∀ s : State, exec .testLogicReset s = .next { s with hi := { s.hi with tap := .idcode, tapOut := [] } } ∧
    exec .bypass s = .next { s with hi := { s.hi with tap := .bypass, tapOut := [false] } } ∧
    exec .clamp s = .next { s with hi := { s.hi with tap := .clamp, tapOut := [false] } } ∧
    exec .highz s = .next { s with hi := { s.hi with tap := .highz, tapOut := [false] } }) ∧
  (∀ s : State, ∃ w, exec .idcode s = .next { s with hi := { s.hi with tap := .idcode, tapOut := (List.range 32).map (bitAt w) } } ∧
    bits w 31 28 = s.part.stepping % 16 ∧ bitAt w 0 = true ∧ (s.member = .q64 → bits w 27 12 = 0x0064)) ∧
  (∀ (p : Option (List Bool)) (s : State), ∃ t, exec (.samplePreload p) s = .next t ∧ t.hi.boundary = p.getD t.hi.tapOut ∧
    t = { s with hi := { s.hi with tap := .sample, tapOut := t.hi.tapOut, boundary := t.hi.boundary }, freeCtr := s.freeCtr + 1 }) ∧
  (∀ s : State, s.pins.resetN = true → s.inGesso = false →
    exec .extest s = .next { s with hi := { s.hi with tap := .extest, tapOut := [false] } } ∧
    (∀ f t, f ∈ [Instr.extest, .clamp, .highz] → exec f s = .next t → t.balls = t.pins)) ∧
  (∀ s : State, s.pins.resetN = false ∨ s.inGesso = true →
    (∃ t, exec .extest s = .next t ∧ t.hi.tap = .extest ∧ t = { s with hi := { s.hi with tap := .extest, tapOut := t.hi.tapOut }, freeCtr := s.freeCtr + 1 }) ∧
    (∀ t, exec .highz s = .next t → t.balls = { s.pins with
      heartbeat := .z, ready := .z, faultN := .z, camSync := .z, aerAck := .z, xoff := [.z, .z, .z, .z], alarmTx := .z, spiSdo := .z })) ∧
  (∀ s : State, (s.hi.traceDue = [] ∨ s.traceOn = false → exec .tracePacket s = .next s) ∧
    (s.traceOn = false ∨ s.clockRuns = false ∨ s.devtime < 1000000000 ∨ s.devtime / 1000000000 = s.hi.traceSec ∨
      10000 ≤ s.devtime % 1000000000 → exec .traceTime s = .next s)) ∧
  (∀ (n ty : Nat) (p owed : List Byte) (r : List (Nat × List Byte)) (s : State), s.traceOn = true →
    n = min s.hi.trace.length ((s.devtime - s.hi.traceAt) / 8) →
    owed = (if s.hi.traceLost = 0 then [] else traceBytes 3 (leBytes 4 s.hi.traceLost)) →
    (∀ b, b = s.hi.trace.drop n ++ (owed ++ traceBytes ty p) → b.length ≤ 4096 →
      (s.hi.traceDue = (ty, p) :: r → ∃ t, exec .tracePacket s = .next t ∧ t.hi.trace = b ∧ t.hi.traceLost = 0 ∧ t.hi.traceDue = r ∧
        t.hi.traceD = (s.hi.trace.take n).getLastD s.hi.traceD ∧ t.hi.traceStb = (s.hi.traceStb != decide (n % 2 = 1)) ∧
        t = { s with hi := { s.hi with traceDue := r, trace := b, traceAt := t.hi.traceAt, traceLost := 0, traceD := t.hi.traceD,
                                       traceStb := t.hi.traceStb } })) ∧
    (4096 < (s.hi.trace.drop n ++ (owed ++ traceBytes ty p)).length → s.hi.traceDue = (ty, p) :: r → ∃ t, exec .tracePacket s = .next t ∧
      t.hi.trace = s.hi.trace.drop n ∧ t.hi.traceLost = s.hi.traceLost + 1 ∧
      t.reg R.hiCntCount 11 = (s.reg R.hiCntCount 11 + 1) % 2 ^ 32 ∧
      t = { s with regs := t.regs, hi := { s.hi with traceDue := r, trace := t.hi.trace, traceAt := t.hi.traceAt, traceLost := t.hi.traceLost,
                                                     traceD := t.hi.traceD, traceStb := t.hi.traceStb } } ∧
      s.regsBut t [R.hiCntCount.key 11 0])) ∧
  (∀ (n k : Nat) (s : State), s.traceOn = true → s.clockRuns = true → k = s.devtime / 1000000000 → 0 < k → k ≠ s.hi.traceSec →
    s.devtime % 1000000000 < 10000 → n = min s.hi.trace.length ((s.devtime - s.hi.traceAt) / 8) → s.hi.traceLost = 0 →
    (s.hi.trace.drop n).length + 12 ≤ 4096 → ∃ t, exec .traceTime s = .next t ∧ t.hi.traceSec = k ∧
      t.hi.trace = s.hi.trace.drop n ++ traceBytes 4 (leBytes 8 s.devtime) ∧
      t = { s with hi := { s.hi with traceSec := k, trace := t.hi.trace, traceAt := t.hi.traceAt, traceD := t.hi.traceD,
                                     traceStb := t.hi.traceStb } })

/-! ## The ledger and faults (R455 to R477) -/

/-- O (R26, R30, R457, R459 to R462, R464, R465): endings and records. A notice or terminal report for an ID in the ended table is discarded
and counted. A notice ends its item, with an OK record where LG_LOG_OK selects the stream; the first terminal report ends it and is held
for COALESCE; a further one replaces the held cause when it ranks higher, and counts either way. An informational record is pushed on admission, ends
nothing, and goes into the history. Held records are pushed when their hold ends.
Choices of the model in it: log entries 10, 22 and 69. -/
def Obligations.LedgerRecords : Prop :=
  (∀ s : State, ∃ t, exec .coalesceExpire s = .next t ∧
    (∀ h ∈ t.lg.held, h ∈ s.lg.held → s.clockRuns = true ∧ s.due (.coalesce h.item) = false)) ∧
  (∀ (item : ItemId) (b r st : BitVec 8) (f : BitVec 16) (s : State), s.alive = false →
    exec (.completionNotice item b) s = .next s ∧ exec (.terminalReport item r st f) s = .next s) ∧
  (∀ (item : ItemId) (b r st : BitVec 8) (f : BitVec 16) (s : State), s.alive = true → item ∈ s.lg.ended → ∃ t,
    exec (.completionNotice item b) s = .next t ∧ t.reg R.lgCntCount 4 = (s.reg R.lgCntCount 4 + 1) % 2 ^ 32 ∧
    s.onlyRegs t [R.lgCntCount.key 4 0] ∧ ((∀ h ∈ s.lg.held, h.item ≠ item) → r ∈ ([0x01, 0x02, 0x03, 0x04, 0x05, 0x06, 0x0D, 0x0E, 0x0F, 0x11,
      0x12, 0x13, 0x14] : List (BitVec 8)) → exec (.terminalReport item r st f) s = .next t)) ∧
  (∀ (item : ItemId) (b : BitVec 8) (s : State), s.alive = true → item ∉ s.lg.ended → ∃ t u : State,
    exec (.completionNotice item b) s = .next t ∧
    u = { s with lg := { s.lg with ended := (item :: s.lg.ended).take 16384, items := alDel s.lg.items item } } ∧
    t = (if bitAt (s.reg R.lgLogOkStreams (streamOf item / 32)) (streamOf item % 32) then u.inform item 0 b.toNat 0 else u)) ∧
  (∀ (item : ItemId) (r st : BitVec 8) (f : BitVec 16) (s : State), s.alive = true → item ∉ s.lg.ended → (∀ h ∈ s.lg.held, h.item ≠ item) →
    r ∈ ([0x01, 0x02, 0x03, 0x04, 0x05, 0x06, 0x0D, 0x0E, 0x0F, 0x11, 0x12, 0x13, 0x14] : List (BitVec 8)) → ∃ t h,
    exec (.terminalReport item r st f) s = .next t ∧
    h = ({ item := item, reason := r.toNat, stage := st.toNat, flags := f.toNat, time := s.devtime } : HeldRecord) ∧
    t.lg = { s.lg with ended := (item :: s.lg.ended).take 16384, items := alDel s.lg.items item, held := s.lg.held ++ [h] } ∧
    alGet t.timers (.coalesce item) = some (s.devtime + s.scaled 2000) ∧ t = { s with lg := t.lg, timers := t.timers }) ∧
  (∀ (p l : List HeldRecord) (h : HeldRecord) (r st : BitVec 8) (f : BitVec 16) (s : State), s.alive = true → s.lg.held = p ++ h :: l →
    (∀ x ∈ p ++ l, x.item ≠ h.item) → r ∈ ([0x01, 0x02, 0x03, 0x04, 0x05, 0x06, 0x0D, 0x0E, 0x0F, 0x11, 0x12, 0x13, 0x14] : List (BitVec 8)) →
    ∃ t, exec (.terminalReport h.item r st f) s = .next t ∧ t.reg R.lgCntCount 3 = (s.reg R.lgCntCount 3 + 1) % 2 ^ 32 ∧
      t.lg = { s.lg with held := p ++ (if reasonRank r.toNat < reasonRank h.reason then
        { item := h.item, reason := r.toNat, stage := st.toNat, flags := f.toNat, time := s.devtime } else h) :: l } ∧
      t = { s with regs := t.regs, lg := t.lg } ∧ s.regsBut t [R.lgCntCount.key 3 0]) ∧
  (∀ (item : ItemId) (r st : BitVec 8) (f : BitVec 16) (n : Nat) (s : State), s.alive = true →
    r ∈ ([0x07, 0x08, 0x09, 0x0A, 0x0B, 0x0C, 0x10] : List (BitVec 8)) → n = s.reg R.lgHistPosNext → n < 64 → s.devtime < 2 ^ 64 →
    s.domOn 4 = true → s.hasQueue 511 = true → s.reg R.qmQEpProd 511 = 0x0E → s.flag R.qmQCfgRetired 511 = false →
    s.epServed (s.reg R.qmQEpCons 511) = true → s.depth 511 + 2 ≤ s.reg R.qmQCfgQuota 511 → 3 ≤ s.freeCells →
    (s.queue 511).severing = false → (s.queue 511).dropPend = false → (s.queue 511).stalled = none →
    ∃ t, exec (.terminalReport item r st f) s = .next t ∧
      (t.queue 511).cells.map (·.data) = (s.queue 511).cells.map (·.data) ++ [BitVec.ofNat 64 (item.toNat + r.toNat * 2 ^ 32 + st.toNat * 2 ^ 40 +
        f.toNat * 2 ^ 48), BitVec.ofNat 64 s.devtime] ∧
      t.reg R.lgHistWord n 0 = item.toNat ∧ t.reg R.lgHistWord n 1 = r.toNat + 2 ^ 8 * st.toNat + 2 ^ 16 * f.toNat ∧
      t.reg R.lgHistWord n 2 = s.devtime % 2 ^ 32 ∧ t.reg R.lgHistWord n 3 = s.devtime / 2 ^ 32 ∧ t.reg R.lgHistPosNext = (n + 1) % 64 ∧
      t.reg R.lgCntCount 0 = (s.reg R.lgCntCount 0 + 1) % 2 ^ 32 ∧
      t.reg R.lgReasonCount r.toNat = (s.reg R.lgReasonCount r.toNat + 1) % 2 ^ 32 ∧
      t = { s with
        regs := t.regs, pal := { s.pal with queues := t.pal.queues }, hi := t.hi, freeCtr := t.freeCtr, timers := t.timers, fu := t.fu,
        pins := { s.pins with xoff := t.pins.xoff } } ∧ (s.reg R.fuCtrlCmdQid ≠ 511 → t.fu = s.fu ∧ t.timers = s.timers)) ∧
  (∀ (item : ItemId) (r st : BitVec 8) (f : BitVec 16) (s : State), r ∉ ([0x01, 0x02, 0x03, 0x04, 0x05, 0x06, 0x0D, 0x0E, 0x0F, 0x11,
      0x12, 0x13, 0x14, 0x07, 0x08, 0x09, 0x0A, 0x0B, 0x0C, 0x10] : List (BitVec 8)) → exec (.terminalReport item r st f) s = .next s) ∧
  (∀ s : State, s.clockRuns = true → (∀ h ∈ s.lg.held, s.due (.coalesce h.item) = false) → exec .coalesceExpire s = .next s) ∧
  (∀ (h : HeldRecord) (s : State), s.lg.held = [h] → s.due (.coalesce h.item) = true ∨ s.clockRuns = false → ∃ t u : State,
    exec .coalesceExpire s = .next t ∧ u.armed (.coalesce h.item) = false ∧
    u = { s with lg := { s.lg with held := [] }, timers := u.timers } ∧ t = u.pushRecord h.item h.reason h.stage h.flags h.time)

/-- O (R30, R79, R108, R223, R466 to R472): faults, the watchdog and the quiesce. A raise takes the lowest free slot of the fault stack and vector 3,
and Keeper takes it in hand; a repeat of a live entry only counts in REPEAT; with eight live entries a new one is a storm, and the 65th raise within 1 s, which counts also in a quiesce. Handled entries below
severity 2 retire, one of severity 2 is held with FAULT_N and an alarm, one of severity 3 quiesces, too. The watchdog fires on a covered item that is
too old. The end of a quiesce enters GESSO code 6 or 7; after severity 3 nothing follows.
Choices of the model in it: log entries 10, 16, 22 and 23. -/
def Obligations.FaultsAndQuiesce : Prop :=
  (∀ (off bit sev block : Nat) (s : State), s.alive = true → ∃ t, exec (.faultRaise off bit sev block) s = .next t ∧
    ((∃ e ∈ t.lg.faults, e.off = off ∧ e.bit = bit) ∨ t.quiesced = true)) ∧
  (∀ (e : FaultEntry) (s : State), e ∈ s.lg.faults → e.state = 2 → ∃ t, exec .faultHandle s = .next t ∧
    t.reg R.lgCntCount 5 = (s.reg R.lgCntCount 5 + 1) % 2 ^ 32) ∧
  (∀ (off bit sev block : Nat) (s : State), s.alive = false → exec (.faultRaise off bit sev block) s = .next s) ∧
  (∀ (off bit sev block : Nat) (s : State), s.alive = true → s.recentRaises.length < 64 → s.lg.faults = [] → ∃ t,
    exec (.faultRaise off bit sev block) s = .next t ∧
    t.lg.faults = [{ slot := 0, time := s.devtime, off := off, bit := bit, sev := sev, state := 2, block := block, rep := 0,
                     order := s.lg.order }] ∧
    t.lg.raises = s.recentRaises ++ [s.devtime] ∧ bitAt (t.reg R.hiIrqStatusVec) 3 = true ∧
    t = { s with regs := t.regs, hi := t.hi, lg := { s.lg with faults := t.lg.faults, raises := t.lg.raises, order := s.lg.order + 1 } } ∧
    s.regsBut t [R.hiIrqStatusVec.key 0 0]) ∧
  (∀ (off bit sev block : Nat) (s : State), s.alive = true → s.recentRaises.length < 64 → s.lg.faults.length = 8 → s.stackSound = true →
    (∀ e ∈ s.lg.faults, e.off ≠ off ∨ e.bit ≠ bit) → ∃ t u : State, exec (.faultRaise off bit sev block) s = .next t ∧
    u = { s with lg := { s.lg with raises := s.recentRaises ++ [s.devtime] } } ∧ t = (u.bump R.lgCntCount 6).quiesce 1 0x11 0) ∧
  (∀ (off bit sev block : Nat) (s : State), s.alive = true → s.recentRaises.length = 64 → s.quiesced = false → s.lg.faults = [] → ∃ t u : State,
    exec (.faultRaise off bit sev block) s = .next t ∧ u = { s with lg := { s.lg with raises := s.recentRaises ++ [s.devtime] } } ∧
    t = (u.bump R.lgCntCount 6).quiesce 1 0x11 0) ∧
  (∀ (off bit sev block : Nat) (s : State), s.alive = true → s.recentRaises.length = 64 → s.quiesced = true → s.lg.faults = [] → ∃ t,
    exec (.faultRaise off bit sev block) s = .next t ∧ t.reg R.lgCntCount 6 = (s.reg R.lgCntCount 6 + 1) % 2 ^ 32 ∧
    t.lg.faults.map (fun e => (e.slot, e.off, e.bit, e.sev, e.state)) = [(0, off, bit, sev, 2)] ∧ t.quiesced = true) ∧
  (∀ (cause reason flags : Nat) (s : State), s.quiesced = true → s.quiesce cause reason flags = s) ∧
  (∀ s : State, (∀ e ∈ s.lg.faults, e.state ≠ 2) → exec .faultHandle s = .next s) ∧
  (∀ (e : FaultEntry) (s : State), s.lg.faults = [e] → e.state = 2 →
    (e.sev < 2 → ∃ t, exec .faultHandle s = .next t ∧ t.lg = { s.lg with faults := [] } ∧
      t.reg R.lgCntCount 5 = (s.reg R.lgCntCount 5 + 1) % 2 ^ 32 ∧ bitAt (t.reg R.hiIrqStatusVec) 3 = true ∧
      t = { s with regs := t.regs, hi := t.hi, lg := t.lg } ∧ s.regsBut t [R.lgCntCount.key 5 0, R.hiIrqStatusVec.key 0 0]) ∧
    (2 ≤ e.sev → s.inRun = true → ∃ t u : State, exec .faultHandle s = .next t ∧
      u.lg = { s.lg with faults := [{ e with state := 3 }] } ∧ u.pins = { s.pins with faultN := .low } ∧ u.reg R.pwHbFault = 1 ∧
      u.reg R.lgCntCount 5 = (s.reg R.lgCntCount 5 + 1) % 2 ^ 32 ∧ bitAt (u.reg R.hiIrqStatusVec) 3 = true ∧
      u = { s with regs := u.regs, hi := u.hi, lg := u.lg, pins := u.pins } ∧
      s.regsBut u [R.lgCntCount.key 5 0, R.hiIrqStatusVec.key 0 0, R.pwHbFault.key 0 0] ∧
      (e.sev = 2 → t = u.alarm "FLT" 2) ∧ (e.sev = 3 → t = ((u.alarm "FLT" 3).quiesce 3 0x14 0x100).takeFault))) ∧
  (∀ s : State, s.inRun = false ∨ s.flag R.lgWdEn = false ∨ s.quiesced = true ∨ (∀ e ∈ s.lg.items, s.wdCovers (streamOf e.1) = true →
    s.devtime ≤ e.2 + s.scaled (1000000 * s.reg R.lgWdLimitMs)) → exec .watchdog s = .next s) ∧
  (∀ (p l : List (ItemId × Nat)) (e : ItemId × Nat) (s : State), s.inRun = true → s.flag R.lgWdEn = true → s.quiesced = false →
    s.lg.items = p ++ e :: l → (∀ x ∈ p, s.wdCovers (streamOf x.1) = false) → s.wdCovers (streamOf e.1) = true →
    e.2 + s.scaled (1000000 * s.reg R.lgWdLimitMs) < s.devtime → ∃ t u : State, exec .watchdog s = .next t ∧
      u.reg R.lgWdStream = streamOf e.1 ∧ u.reg R.lgCntCount 7 = (s.reg R.lgCntCount 7 + 1) % 2 ^ 32 ∧
      s.onlyRegs u [R.lgWdStream.key 0 0, R.lgCntCount.key 7 0] ∧ t = (u.quiesce 2 0x14 (streamOf e.1)).raise 0xF80008 16 2 0x0E) ∧
  (∀ s : State, s.flag R.lgStatusQuiescing = false ∨ (s.reg R.lgStatusCause ≠ 3 ∧ s.due .quiesce = false) →
    exec .quiesceDone s = .next s) ∧
  (∀ s : State, s.flag R.lgStatusQuiescing = true → ∃ t u : State, u.reg R.lgStatusQuiescing = 0 ∧ u.armed .quiesce = false ∧
    u = { s with regs := u.regs, timers := u.timers } ∧ s.regsBut u [R.lgStatusQuiescing.key 0 0] ∧
    (s.reg R.lgStatusCause = 3 → exec .quiesceDone s = .next u) ∧
    (s.reg R.lgStatusCause ≠ 3 → s.due .quiesce = true → exec .quiesceDone s = .next t ∧
      t = (u.enterGesso (if s.reg R.lgStatusCause = 1 then 6 else 7)).fetchAll))

/-- O (R473): LG_FAULT_ACK and a repeat raise meet at the stack. If the repeat is admitted first, REPEAT rises and the acknowledgement
then retires the entry. If the acknowledgement is admitted first, the repeat takes a new entry. Acknowledging an entry that is
not held has no effect. (A held entry of severity 3 is left only by full reset, R467.) -/
def Obligations.AcknowledgementMeetsRepeat : Prop :=
  (∀ (e : FaultEntry) (sev block : Nat) (mask : BitVec 8) (s : State), s.alive = true → s.stackSound = true → s.recentRaises.length < 64 →
    e ∈ s.lg.faults → (∀ x ∈ s.lg.faults, x.off = e.off → x.bit = e.bit → x = e) → e.state = 3 → e.sev = 2 → bitAt mask.toNat e.slot = true →
    (∃ t u, exec (.faultRaise e.off e.bit sev block) s = .next t ∧ { e with rep := min 255 (e.rep + 1) } ∈ t.lg.faults ∧
      t.lg.faults.length = s.lg.faults.length ∧ exec (.lgFaultAck mask) t = .next u ∧
      (∀ y ∈ u.lg.faults, y.off = e.off → y.bit ≠ e.bit)) ∧
    (∃ t u y, exec (.lgFaultAck mask) s = .next t ∧ (∀ y ∈ t.lg.faults, y.off = e.off → y.bit ≠ e.bit) ∧
      exec (.faultRaise e.off e.bit sev block) t = .next u ∧ y ∈ u.lg.faults ∧ y.off = e.off ∧ y.bit = e.bit ∧ y.rep = 0 ∧
      y.time = s.devtime ∧ (y.state = 1 ∨ y.state = 2))) ∧
  (∀ (e : FaultEntry) (mask : BitVec 8) (s : State), s.alive = true → s.stackSound = true → e ∈ s.lg.faults → e.state ≠ 3 →
    ∃ t, exec (.lgFaultAck mask) s = .next t ∧ e ∈ t.lg.faults) ∧
  (∀ (mask : BitVec 8) (s : State), (∀ e ∈ s.lg.faults, bitAt mask.toNat e.slot = true → e.state ≠ 3) →
    exec (.lgFaultAck mask) s = .next (if s.alive then s.setCmd R.lgFaultAckAck 0 mask.toNat else s))
end

