-- ==== Sys2Proof/Laws/State.lean ====
section
/-! SUPPORT. One lemma for each field of State and each update, true by unfolding. -/
namespace Sys2Proof.Machine
@[simp] theorem State.modPart_part (s : State) (f : Part → Part) : (s.modPart f).part = f s.part := rfl
@[simp] theorem State.modPart_store (s : State) (f : Part → Part) : (s.modPart f).store = s.store := rfl
@[simp] theorem State.modPart_regs (s : State) (f : Part → Part) : (s.modPart f).regs = s.regs := rfl
@[simp] theorem State.modPart_pins (s : State) (f : Part → Part) : (s.modPart f).pins = s.pins := rfl
@[simp] theorem State.modPart_devtime (s : State) (f : Part → Part) : (s.modPart f).devtime = s.devtime := rfl
@[simp] theorem State.modPart_frac (s : State) (f : Part → Part) : (s.modPart f).frac = s.frac := rfl
@[simp] theorem State.modPart_timers (s : State) (f : Part → Part) : (s.modPart f).timers = s.timers := rfl
@[simp] theorem State.modPart_keeper (s : State) (f : Part → Part) : (s.modPart f).keeper = s.keeper := rfl
@[simp] theorem State.modPart_cv (s : State) (f : Part → Part) : (s.modPart f).cv = s.cv := rfl
@[simp] theorem State.modPart_roles (s : State) (f : Part → Part) : (s.modPart f).roles = s.roles := rfl
@[simp] theorem State.modPart_pp (s : State) (f : Part → Part) : (s.modPart f).pp = s.pp := rfl
@[simp] theorem State.modPart_ext (s : State) (f : Part → Part) : (s.modPart f).ext = s.ext := rfl
@[simp] theorem State.modPart_tmem (s : State) (f : Part → Part) : (s.modPart f).tmem = s.tmem := rfl
@[simp] theorem State.modPart_scratch (s : State) (f : Part → Part) : (s.modPart f).scratch = s.scratch := rfl
@[simp] theorem State.modPart_hostMem (s : State) (f : Part → Part) : (s.modPart f).hostMem = s.hostMem := rfl
@[simp] theorem State.modPart_mesh (s : State) (f : Part → Part) : (s.modPart f).mesh = s.mesh := rfl
@[simp] theorem State.modPart_pal (s : State) (f : Part → Part) : (s.modPart f).pal = s.pal := rfl
@[simp] theorem State.modPart_ei (s : State) (f : Part → Part) : (s.modPart f).ei = s.ei := rfl
@[simp] theorem State.modPart_tm (s : State) (f : Part → Part) : (s.modPart f).tm = s.tm := rfl
@[simp] theorem State.modPart_sf (s : State) (f : Part → Part) : (s.modPart f).sf = s.sf := rfl
@[simp] theorem State.modPart_deParity (s : State) (f : Part → Part) : (s.modPart f).deParity = s.deParity := rfl
@[simp] theorem State.modPart_xr (s : State) (f : Part → Part) : (s.modPart f).xr = s.xr := rfl
@[simp] theorem State.modPart_fu (s : State) (f : Part → Part) : (s.modPart f).fu = s.fu := rfl
@[simp] theorem State.modPart_rd (s : State) (f : Part → Part) : (s.modPart f).rd = s.rd := rfl
@[simp] theorem State.modPart_sl (s : State) (f : Part → Part) : (s.modPart f).sl = s.sl := rfl
@[simp] theorem State.modPart_hi (s : State) (f : Part → Part) : (s.modPart f).hi = s.hi := rfl
@[simp] theorem State.modPart_lg (s : State) (f : Part → Part) : (s.modPart f).lg = s.lg := rfl
@[simp] theorem State.modPart_freeCtr (s : State) (f : Part → Part) : (s.modPart f).freeCtr = s.freeCtr := rfl
@[simp] theorem State.modPart_pending (s : State) (f : Part → Part) : (s.modPart f).pending = s.pending := rfl
@[simp] theorem State.modStore_part (s : State) (f : Store → Store) : (s.modStore f).part = s.part := rfl
@[simp] theorem State.modStore_store (s : State) (f : Store → Store) : (s.modStore f).store = f s.store := rfl
@[simp] theorem State.modStore_regs (s : State) (f : Store → Store) : (s.modStore f).regs = s.regs := rfl
@[simp] theorem State.modStore_pins (s : State) (f : Store → Store) : (s.modStore f).pins = s.pins := rfl
@[simp] theorem State.modStore_devtime (s : State) (f : Store → Store) : (s.modStore f).devtime = s.devtime := rfl
@[simp] theorem State.modStore_frac (s : State) (f : Store → Store) : (s.modStore f).frac = s.frac := rfl
@[simp] theorem State.modStore_timers (s : State) (f : Store → Store) : (s.modStore f).timers = s.timers := rfl
@[simp] theorem State.modStore_keeper (s : State) (f : Store → Store) : (s.modStore f).keeper = s.keeper := rfl
@[simp] theorem State.modStore_cv (s : State) (f : Store → Store) : (s.modStore f).cv = s.cv := rfl
@[simp] theorem State.modStore_roles (s : State) (f : Store → Store) : (s.modStore f).roles = s.roles := rfl
@[simp] theorem State.modStore_pp (s : State) (f : Store → Store) : (s.modStore f).pp = s.pp := rfl
@[simp] theorem State.modStore_ext (s : State) (f : Store → Store) : (s.modStore f).ext = s.ext := rfl
@[simp] theorem State.modStore_tmem (s : State) (f : Store → Store) : (s.modStore f).tmem = s.tmem := rfl
@[simp] theorem State.modStore_scratch (s : State) (f : Store → Store) : (s.modStore f).scratch = s.scratch := rfl
@[simp] theorem State.modStore_hostMem (s : State) (f : Store → Store) : (s.modStore f).hostMem = s.hostMem := rfl
@[simp] theorem State.modStore_mesh (s : State) (f : Store → Store) : (s.modStore f).mesh = s.mesh := rfl
@[simp] theorem State.modStore_pal (s : State) (f : Store → Store) : (s.modStore f).pal = s.pal := rfl
@[simp] theorem State.modStore_ei (s : State) (f : Store → Store) : (s.modStore f).ei = s.ei := rfl
@[simp] theorem State.modStore_tm (s : State) (f : Store → Store) : (s.modStore f).tm = s.tm := rfl
@[simp] theorem State.modStore_sf (s : State) (f : Store → Store) : (s.modStore f).sf = s.sf := rfl
@[simp] theorem State.modStore_deParity (s : State) (f : Store → Store) : (s.modStore f).deParity = s.deParity := rfl
@[simp] theorem State.modStore_xr (s : State) (f : Store → Store) : (s.modStore f).xr = s.xr := rfl
@[simp] theorem State.modStore_fu (s : State) (f : Store → Store) : (s.modStore f).fu = s.fu := rfl
@[simp] theorem State.modStore_rd (s : State) (f : Store → Store) : (s.modStore f).rd = s.rd := rfl
@[simp] theorem State.modStore_sl (s : State) (f : Store → Store) : (s.modStore f).sl = s.sl := rfl
@[simp] theorem State.modStore_hi (s : State) (f : Store → Store) : (s.modStore f).hi = s.hi := rfl
@[simp] theorem State.modStore_lg (s : State) (f : Store → Store) : (s.modStore f).lg = s.lg := rfl
@[simp] theorem State.modStore_freeCtr (s : State) (f : Store → Store) : (s.modStore f).freeCtr = s.freeCtr := rfl
@[simp] theorem State.modStore_pending (s : State) (f : Store → Store) : (s.modStore f).pending = s.pending := rfl
@[simp] theorem State.modPins_part (s : State) (f : Pins → Pins) : (s.modPins f).part = s.part := rfl
@[simp] theorem State.modPins_store (s : State) (f : Pins → Pins) : (s.modPins f).store = s.store := rfl
@[simp] theorem State.modPins_regs (s : State) (f : Pins → Pins) : (s.modPins f).regs = s.regs := rfl
@[simp] theorem State.modPins_pins (s : State) (f : Pins → Pins) : (s.modPins f).pins = f s.pins := rfl
@[simp] theorem State.modPins_devtime (s : State) (f : Pins → Pins) : (s.modPins f).devtime = s.devtime := rfl
@[simp] theorem State.modPins_frac (s : State) (f : Pins → Pins) : (s.modPins f).frac = s.frac := rfl
@[simp] theorem State.modPins_timers (s : State) (f : Pins → Pins) : (s.modPins f).timers = s.timers := rfl
@[simp] theorem State.modPins_keeper (s : State) (f : Pins → Pins) : (s.modPins f).keeper = s.keeper := rfl
@[simp] theorem State.modPins_cv (s : State) (f : Pins → Pins) : (s.modPins f).cv = s.cv := rfl
@[simp] theorem State.modPins_roles (s : State) (f : Pins → Pins) : (s.modPins f).roles = s.roles := rfl
@[simp] theorem State.modPins_pp (s : State) (f : Pins → Pins) : (s.modPins f).pp = s.pp := rfl
@[simp] theorem State.modPins_ext (s : State) (f : Pins → Pins) : (s.modPins f).ext = s.ext := rfl
@[simp] theorem State.modPins_tmem (s : State) (f : Pins → Pins) : (s.modPins f).tmem = s.tmem := rfl
@[simp] theorem State.modPins_scratch (s : State) (f : Pins → Pins) : (s.modPins f).scratch = s.scratch := rfl
@[simp] theorem State.modPins_hostMem (s : State) (f : Pins → Pins) : (s.modPins f).hostMem = s.hostMem := rfl
@[simp] theorem State.modPins_mesh (s : State) (f : Pins → Pins) : (s.modPins f).mesh = s.mesh := rfl
@[simp] theorem State.modPins_pal (s : State) (f : Pins → Pins) : (s.modPins f).pal = s.pal := rfl
@[simp] theorem State.modPins_ei (s : State) (f : Pins → Pins) : (s.modPins f).ei = s.ei := rfl
@[simp] theorem State.modPins_tm (s : State) (f : Pins → Pins) : (s.modPins f).tm = s.tm := rfl
@[simp] theorem State.modPins_sf (s : State) (f : Pins → Pins) : (s.modPins f).sf = s.sf := rfl
@[simp] theorem State.modPins_deParity (s : State) (f : Pins → Pins) : (s.modPins f).deParity = s.deParity := rfl
@[simp] theorem State.modPins_xr (s : State) (f : Pins → Pins) : (s.modPins f).xr = s.xr := rfl
@[simp] theorem State.modPins_fu (s : State) (f : Pins → Pins) : (s.modPins f).fu = s.fu := rfl
@[simp] theorem State.modPins_rd (s : State) (f : Pins → Pins) : (s.modPins f).rd = s.rd := rfl
@[simp] theorem State.modPins_sl (s : State) (f : Pins → Pins) : (s.modPins f).sl = s.sl := rfl
@[simp] theorem State.modPins_hi (s : State) (f : Pins → Pins) : (s.modPins f).hi = s.hi := rfl
@[simp] theorem State.modPins_lg (s : State) (f : Pins → Pins) : (s.modPins f).lg = s.lg := rfl
@[simp] theorem State.modPins_freeCtr (s : State) (f : Pins → Pins) : (s.modPins f).freeCtr = s.freeCtr := rfl
@[simp] theorem State.modPins_pending (s : State) (f : Pins → Pins) : (s.modPins f).pending = s.pending := rfl
@[simp] theorem State.modDevtime_part (s : State) (f : Nat → Nat) : (s.modDevtime f).part = s.part := rfl
@[simp] theorem State.modDevtime_store (s : State) (f : Nat → Nat) : (s.modDevtime f).store = s.store := rfl
@[simp] theorem State.modDevtime_regs (s : State) (f : Nat → Nat) : (s.modDevtime f).regs = s.regs := rfl
@[simp] theorem State.modDevtime_pins (s : State) (f : Nat → Nat) : (s.modDevtime f).pins = s.pins := rfl
@[simp] theorem State.modDevtime_devtime (s : State) (f : Nat → Nat) : (s.modDevtime f).devtime = f s.devtime := rfl
@[simp] theorem State.modDevtime_frac (s : State) (f : Nat → Nat) : (s.modDevtime f).frac = s.frac := rfl
@[simp] theorem State.modDevtime_timers (s : State) (f : Nat → Nat) : (s.modDevtime f).timers = s.timers := rfl
@[simp] theorem State.modDevtime_keeper (s : State) (f : Nat → Nat) : (s.modDevtime f).keeper = s.keeper := rfl
@[simp] theorem State.modDevtime_cv (s : State) (f : Nat → Nat) : (s.modDevtime f).cv = s.cv := rfl
@[simp] theorem State.modDevtime_roles (s : State) (f : Nat → Nat) : (s.modDevtime f).roles = s.roles := rfl
@[simp] theorem State.modDevtime_pp (s : State) (f : Nat → Nat) : (s.modDevtime f).pp = s.pp := rfl
@[simp] theorem State.modDevtime_ext (s : State) (f : Nat → Nat) : (s.modDevtime f).ext = s.ext := rfl
@[simp] theorem State.modDevtime_tmem (s : State) (f : Nat → Nat) : (s.modDevtime f).tmem = s.tmem := rfl
@[simp] theorem State.modDevtime_scratch (s : State) (f : Nat → Nat) : (s.modDevtime f).scratch = s.scratch := rfl
@[simp] theorem State.modDevtime_hostMem (s : State) (f : Nat → Nat) : (s.modDevtime f).hostMem = s.hostMem := rfl
@[simp] theorem State.modDevtime_mesh (s : State) (f : Nat → Nat) : (s.modDevtime f).mesh = s.mesh := rfl
@[simp] theorem State.modDevtime_pal (s : State) (f : Nat → Nat) : (s.modDevtime f).pal = s.pal := rfl
@[simp] theorem State.modDevtime_ei (s : State) (f : Nat → Nat) : (s.modDevtime f).ei = s.ei := rfl
@[simp] theorem State.modDevtime_tm (s : State) (f : Nat → Nat) : (s.modDevtime f).tm = s.tm := rfl
@[simp] theorem State.modDevtime_sf (s : State) (f : Nat → Nat) : (s.modDevtime f).sf = s.sf := rfl
@[simp] theorem State.modDevtime_deParity (s : State) (f : Nat → Nat) : (s.modDevtime f).deParity = s.deParity := rfl
@[simp] theorem State.modDevtime_xr (s : State) (f : Nat → Nat) : (s.modDevtime f).xr = s.xr := rfl
@[simp] theorem State.modDevtime_fu (s : State) (f : Nat → Nat) : (s.modDevtime f).fu = s.fu := rfl
@[simp] theorem State.modDevtime_rd (s : State) (f : Nat → Nat) : (s.modDevtime f).rd = s.rd := rfl
@[simp] theorem State.modDevtime_sl (s : State) (f : Nat → Nat) : (s.modDevtime f).sl = s.sl := rfl
@[simp] theorem State.modDevtime_hi (s : State) (f : Nat → Nat) : (s.modDevtime f).hi = s.hi := rfl
@[simp] theorem State.modDevtime_lg (s : State) (f : Nat → Nat) : (s.modDevtime f).lg = s.lg := rfl
@[simp] theorem State.modDevtime_freeCtr (s : State) (f : Nat → Nat) : (s.modDevtime f).freeCtr = s.freeCtr := rfl
@[simp] theorem State.modDevtime_pending (s : State) (f : Nat → Nat) : (s.modDevtime f).pending = s.pending := rfl
@[simp] theorem State.modFrac_part (s : State) (f : Nat → Nat) : (s.modFrac f).part = s.part := rfl
@[simp] theorem State.modFrac_store (s : State) (f : Nat → Nat) : (s.modFrac f).store = s.store := rfl
@[simp] theorem State.modFrac_regs (s : State) (f : Nat → Nat) : (s.modFrac f).regs = s.regs := rfl
@[simp] theorem State.modFrac_pins (s : State) (f : Nat → Nat) : (s.modFrac f).pins = s.pins := rfl
@[simp] theorem State.modFrac_devtime (s : State) (f : Nat → Nat) : (s.modFrac f).devtime = s.devtime := rfl
@[simp] theorem State.modFrac_frac (s : State) (f : Nat → Nat) : (s.modFrac f).frac = f s.frac := rfl
@[simp] theorem State.modFrac_timers (s : State) (f : Nat → Nat) : (s.modFrac f).timers = s.timers := rfl
@[simp] theorem State.modFrac_keeper (s : State) (f : Nat → Nat) : (s.modFrac f).keeper = s.keeper := rfl
@[simp] theorem State.modFrac_cv (s : State) (f : Nat → Nat) : (s.modFrac f).cv = s.cv := rfl
@[simp] theorem State.modFrac_roles (s : State) (f : Nat → Nat) : (s.modFrac f).roles = s.roles := rfl
@[simp] theorem State.modFrac_pp (s : State) (f : Nat → Nat) : (s.modFrac f).pp = s.pp := rfl
@[simp] theorem State.modFrac_ext (s : State) (f : Nat → Nat) : (s.modFrac f).ext = s.ext := rfl
@[simp] theorem State.modFrac_tmem (s : State) (f : Nat → Nat) : (s.modFrac f).tmem = s.tmem := rfl
@[simp] theorem State.modFrac_scratch (s : State) (f : Nat → Nat) : (s.modFrac f).scratch = s.scratch := rfl
@[simp] theorem State.modFrac_hostMem (s : State) (f : Nat → Nat) : (s.modFrac f).hostMem = s.hostMem := rfl
@[simp] theorem State.modFrac_mesh (s : State) (f : Nat → Nat) : (s.modFrac f).mesh = s.mesh := rfl
@[simp] theorem State.modFrac_pal (s : State) (f : Nat → Nat) : (s.modFrac f).pal = s.pal := rfl
@[simp] theorem State.modFrac_ei (s : State) (f : Nat → Nat) : (s.modFrac f).ei = s.ei := rfl
@[simp] theorem State.modFrac_tm (s : State) (f : Nat → Nat) : (s.modFrac f).tm = s.tm := rfl
@[simp] theorem State.modFrac_sf (s : State) (f : Nat → Nat) : (s.modFrac f).sf = s.sf := rfl
@[simp] theorem State.modFrac_deParity (s : State) (f : Nat → Nat) : (s.modFrac f).deParity = s.deParity := rfl
@[simp] theorem State.modFrac_xr (s : State) (f : Nat → Nat) : (s.modFrac f).xr = s.xr := rfl
@[simp] theorem State.modFrac_fu (s : State) (f : Nat → Nat) : (s.modFrac f).fu = s.fu := rfl
@[simp] theorem State.modFrac_rd (s : State) (f : Nat → Nat) : (s.modFrac f).rd = s.rd := rfl
@[simp] theorem State.modFrac_sl (s : State) (f : Nat → Nat) : (s.modFrac f).sl = s.sl := rfl
@[simp] theorem State.modFrac_hi (s : State) (f : Nat → Nat) : (s.modFrac f).hi = s.hi := rfl
@[simp] theorem State.modFrac_lg (s : State) (f : Nat → Nat) : (s.modFrac f).lg = s.lg := rfl
@[simp] theorem State.modFrac_freeCtr (s : State) (f : Nat → Nat) : (s.modFrac f).freeCtr = s.freeCtr := rfl
@[simp] theorem State.modFrac_pending (s : State) (f : Nat → Nat) : (s.modFrac f).pending = s.pending := rfl
@[simp] theorem State.modTimers_part (s : State) (f : List (Timer × Nat) → List (Timer × Nat)) : (s.modTimers f).part = s.part := rfl
@[simp] theorem State.modTimers_store (s : State) (f : List (Timer × Nat) → List (Timer × Nat)) : (s.modTimers f).store = s.store := rfl
@[simp] theorem State.modTimers_regs (s : State) (f : List (Timer × Nat) → List (Timer × Nat)) : (s.modTimers f).regs = s.regs := rfl
@[simp] theorem State.modTimers_pins (s : State) (f : List (Timer × Nat) → List (Timer × Nat)) : (s.modTimers f).pins = s.pins := rfl
@[simp] theorem State.modTimers_devtime (s : State) (f : List (Timer × Nat) → List (Timer × Nat)) : (s.modTimers f).devtime = s.devtime := rfl
@[simp] theorem State.modTimers_frac (s : State) (f : List (Timer × Nat) → List (Timer × Nat)) : (s.modTimers f).frac = s.frac := rfl
@[simp] theorem State.modTimers_timers (s : State) (f : List (Timer × Nat) → List (Timer × Nat)) : (s.modTimers f).timers = f s.timers := rfl
@[simp] theorem State.modTimers_keeper (s : State) (f : List (Timer × Nat) → List (Timer × Nat)) : (s.modTimers f).keeper = s.keeper := rfl
@[simp] theorem State.modTimers_cv (s : State) (f : List (Timer × Nat) → List (Timer × Nat)) : (s.modTimers f).cv = s.cv := rfl
@[simp] theorem State.modTimers_roles (s : State) (f : List (Timer × Nat) → List (Timer × Nat)) : (s.modTimers f).roles = s.roles := rfl
@[simp] theorem State.modTimers_pp (s : State) (f : List (Timer × Nat) → List (Timer × Nat)) : (s.modTimers f).pp = s.pp := rfl
@[simp] theorem State.modTimers_ext (s : State) (f : List (Timer × Nat) → List (Timer × Nat)) : (s.modTimers f).ext = s.ext := rfl
@[simp] theorem State.modTimers_tmem (s : State) (f : List (Timer × Nat) → List (Timer × Nat)) : (s.modTimers f).tmem = s.tmem := rfl
@[simp] theorem State.modTimers_scratch (s : State) (f : List (Timer × Nat) → List (Timer × Nat)) : (s.modTimers f).scratch = s.scratch := rfl
@[simp] theorem State.modTimers_hostMem (s : State) (f : List (Timer × Nat) → List (Timer × Nat)) : (s.modTimers f).hostMem = s.hostMem := rfl
@[simp] theorem State.modTimers_mesh (s : State) (f : List (Timer × Nat) → List (Timer × Nat)) : (s.modTimers f).mesh = s.mesh := rfl
@[simp] theorem State.modTimers_pal (s : State) (f : List (Timer × Nat) → List (Timer × Nat)) : (s.modTimers f).pal = s.pal := rfl
@[simp] theorem State.modTimers_ei (s : State) (f : List (Timer × Nat) → List (Timer × Nat)) : (s.modTimers f).ei = s.ei := rfl
@[simp] theorem State.modTimers_tm (s : State) (f : List (Timer × Nat) → List (Timer × Nat)) : (s.modTimers f).tm = s.tm := rfl
@[simp] theorem State.modTimers_sf (s : State) (f : List (Timer × Nat) → List (Timer × Nat)) : (s.modTimers f).sf = s.sf := rfl
@[simp] theorem State.modTimers_deParity (s : State) (f : List (Timer × Nat) → List (Timer × Nat)) : (s.modTimers f).deParity = s.deParity := rfl
@[simp] theorem State.modTimers_xr (s : State) (f : List (Timer × Nat) → List (Timer × Nat)) : (s.modTimers f).xr = s.xr := rfl
@[simp] theorem State.modTimers_fu (s : State) (f : List (Timer × Nat) → List (Timer × Nat)) : (s.modTimers f).fu = s.fu := rfl
@[simp] theorem State.modTimers_rd (s : State) (f : List (Timer × Nat) → List (Timer × Nat)) : (s.modTimers f).rd = s.rd := rfl
@[simp] theorem State.modTimers_sl (s : State) (f : List (Timer × Nat) → List (Timer × Nat)) : (s.modTimers f).sl = s.sl := rfl
@[simp] theorem State.modTimers_hi (s : State) (f : List (Timer × Nat) → List (Timer × Nat)) : (s.modTimers f).hi = s.hi := rfl
@[simp] theorem State.modTimers_lg (s : State) (f : List (Timer × Nat) → List (Timer × Nat)) : (s.modTimers f).lg = s.lg := rfl
@[simp] theorem State.modTimers_freeCtr (s : State) (f : List (Timer × Nat) → List (Timer × Nat)) : (s.modTimers f).freeCtr = s.freeCtr := rfl
@[simp] theorem State.modTimers_pending (s : State) (f : List (Timer × Nat) → List (Timer × Nat)) : (s.modTimers f).pending = s.pending := rfl
@[simp] theorem State.modKeeper_part (s : State) (f : Keeper → Keeper) : (s.modKeeper f).part = s.part := rfl
@[simp] theorem State.modKeeper_store (s : State) (f : Keeper → Keeper) : (s.modKeeper f).store = s.store := rfl
@[simp] theorem State.modKeeper_regs (s : State) (f : Keeper → Keeper) : (s.modKeeper f).regs = s.regs := rfl
@[simp] theorem State.modKeeper_pins (s : State) (f : Keeper → Keeper) : (s.modKeeper f).pins = s.pins := rfl
@[simp] theorem State.modKeeper_devtime (s : State) (f : Keeper → Keeper) : (s.modKeeper f).devtime = s.devtime := rfl
@[simp] theorem State.modKeeper_frac (s : State) (f : Keeper → Keeper) : (s.modKeeper f).frac = s.frac := rfl
@[simp] theorem State.modKeeper_timers (s : State) (f : Keeper → Keeper) : (s.modKeeper f).timers = s.timers := rfl
@[simp] theorem State.modKeeper_keeper (s : State) (f : Keeper → Keeper) : (s.modKeeper f).keeper = f s.keeper := rfl
@[simp] theorem State.modKeeper_cv (s : State) (f : Keeper → Keeper) : (s.modKeeper f).cv = s.cv := rfl
@[simp] theorem State.modKeeper_roles (s : State) (f : Keeper → Keeper) : (s.modKeeper f).roles = s.roles := rfl
@[simp] theorem State.modKeeper_pp (s : State) (f : Keeper → Keeper) : (s.modKeeper f).pp = s.pp := rfl
@[simp] theorem State.modKeeper_ext (s : State) (f : Keeper → Keeper) : (s.modKeeper f).ext = s.ext := rfl
@[simp] theorem State.modKeeper_tmem (s : State) (f : Keeper → Keeper) : (s.modKeeper f).tmem = s.tmem := rfl
@[simp] theorem State.modKeeper_scratch (s : State) (f : Keeper → Keeper) : (s.modKeeper f).scratch = s.scratch := rfl
@[simp] theorem State.modKeeper_hostMem (s : State) (f : Keeper → Keeper) : (s.modKeeper f).hostMem = s.hostMem := rfl
@[simp] theorem State.modKeeper_mesh (s : State) (f : Keeper → Keeper) : (s.modKeeper f).mesh = s.mesh := rfl
@[simp] theorem State.modKeeper_pal (s : State) (f : Keeper → Keeper) : (s.modKeeper f).pal = s.pal := rfl
@[simp] theorem State.modKeeper_ei (s : State) (f : Keeper → Keeper) : (s.modKeeper f).ei = s.ei := rfl
@[simp] theorem State.modKeeper_tm (s : State) (f : Keeper → Keeper) : (s.modKeeper f).tm = s.tm := rfl
@[simp] theorem State.modKeeper_sf (s : State) (f : Keeper → Keeper) : (s.modKeeper f).sf = s.sf := rfl
@[simp] theorem State.modKeeper_deParity (s : State) (f : Keeper → Keeper) : (s.modKeeper f).deParity = s.deParity := rfl
@[simp] theorem State.modKeeper_xr (s : State) (f : Keeper → Keeper) : (s.modKeeper f).xr = s.xr := rfl
@[simp] theorem State.modKeeper_fu (s : State) (f : Keeper → Keeper) : (s.modKeeper f).fu = s.fu := rfl
@[simp] theorem State.modKeeper_rd (s : State) (f : Keeper → Keeper) : (s.modKeeper f).rd = s.rd := rfl
@[simp] theorem State.modKeeper_sl (s : State) (f : Keeper → Keeper) : (s.modKeeper f).sl = s.sl := rfl
@[simp] theorem State.modKeeper_hi (s : State) (f : Keeper → Keeper) : (s.modKeeper f).hi = s.hi := rfl
@[simp] theorem State.modKeeper_lg (s : State) (f : Keeper → Keeper) : (s.modKeeper f).lg = s.lg := rfl
@[simp] theorem State.modKeeper_freeCtr (s : State) (f : Keeper → Keeper) : (s.modKeeper f).freeCtr = s.freeCtr := rfl
@[simp] theorem State.modKeeper_pending (s : State) (f : Keeper → Keeper) : (s.modKeeper f).pending = s.pending := rfl
@[simp] theorem State.modCv_part (s : State) (f : CanvasState → CanvasState) : (s.modCv f).part = s.part := rfl
@[simp] theorem State.modCv_store (s : State) (f : CanvasState → CanvasState) : (s.modCv f).store = s.store := rfl
@[simp] theorem State.modCv_regs (s : State) (f : CanvasState → CanvasState) : (s.modCv f).regs = s.regs := rfl
@[simp] theorem State.modCv_pins (s : State) (f : CanvasState → CanvasState) : (s.modCv f).pins = s.pins := rfl
@[simp] theorem State.modCv_devtime (s : State) (f : CanvasState → CanvasState) : (s.modCv f).devtime = s.devtime := rfl
@[simp] theorem State.modCv_frac (s : State) (f : CanvasState → CanvasState) : (s.modCv f).frac = s.frac := rfl
@[simp] theorem State.modCv_timers (s : State) (f : CanvasState → CanvasState) : (s.modCv f).timers = s.timers := rfl
@[simp] theorem State.modCv_keeper (s : State) (f : CanvasState → CanvasState) : (s.modCv f).keeper = s.keeper := rfl
@[simp] theorem State.modCv_cv (s : State) (f : CanvasState → CanvasState) : (s.modCv f).cv = f s.cv := rfl
@[simp] theorem State.modCv_roles (s : State) (f : CanvasState → CanvasState) : (s.modCv f).roles = s.roles := rfl
@[simp] theorem State.modCv_pp (s : State) (f : CanvasState → CanvasState) : (s.modCv f).pp = s.pp := rfl
@[simp] theorem State.modCv_ext (s : State) (f : CanvasState → CanvasState) : (s.modCv f).ext = s.ext := rfl
@[simp] theorem State.modCv_tmem (s : State) (f : CanvasState → CanvasState) : (s.modCv f).tmem = s.tmem := rfl
@[simp] theorem State.modCv_scratch (s : State) (f : CanvasState → CanvasState) : (s.modCv f).scratch = s.scratch := rfl
@[simp] theorem State.modCv_hostMem (s : State) (f : CanvasState → CanvasState) : (s.modCv f).hostMem = s.hostMem := rfl
@[simp] theorem State.modCv_mesh (s : State) (f : CanvasState → CanvasState) : (s.modCv f).mesh = s.mesh := rfl
@[simp] theorem State.modCv_pal (s : State) (f : CanvasState → CanvasState) : (s.modCv f).pal = s.pal := rfl
@[simp] theorem State.modCv_ei (s : State) (f : CanvasState → CanvasState) : (s.modCv f).ei = s.ei := rfl
@[simp] theorem State.modCv_tm (s : State) (f : CanvasState → CanvasState) : (s.modCv f).tm = s.tm := rfl
@[simp] theorem State.modCv_sf (s : State) (f : CanvasState → CanvasState) : (s.modCv f).sf = s.sf := rfl
@[simp] theorem State.modCv_deParity (s : State) (f : CanvasState → CanvasState) : (s.modCv f).deParity = s.deParity := rfl
@[simp] theorem State.modCv_xr (s : State) (f : CanvasState → CanvasState) : (s.modCv f).xr = s.xr := rfl
@[simp] theorem State.modCv_fu (s : State) (f : CanvasState → CanvasState) : (s.modCv f).fu = s.fu := rfl
@[simp] theorem State.modCv_rd (s : State) (f : CanvasState → CanvasState) : (s.modCv f).rd = s.rd := rfl
@[simp] theorem State.modCv_sl (s : State) (f : CanvasState → CanvasState) : (s.modCv f).sl = s.sl := rfl
@[simp] theorem State.modCv_hi (s : State) (f : CanvasState → CanvasState) : (s.modCv f).hi = s.hi := rfl
@[simp] theorem State.modCv_lg (s : State) (f : CanvasState → CanvasState) : (s.modCv f).lg = s.lg := rfl
@[simp] theorem State.modCv_freeCtr (s : State) (f : CanvasState → CanvasState) : (s.modCv f).freeCtr = s.freeCtr := rfl
@[simp] theorem State.modCv_pending (s : State) (f : CanvasState → CanvasState) : (s.modCv f).pending = s.pending := rfl
@[simp] theorem State.modRoles_part (s : State) (f : List Nat → List Nat) : (s.modRoles f).part = s.part := rfl
@[simp] theorem State.modRoles_store (s : State) (f : List Nat → List Nat) : (s.modRoles f).store = s.store := rfl
@[simp] theorem State.modRoles_regs (s : State) (f : List Nat → List Nat) : (s.modRoles f).regs = s.regs := rfl
@[simp] theorem State.modRoles_pins (s : State) (f : List Nat → List Nat) : (s.modRoles f).pins = s.pins := rfl
@[simp] theorem State.modRoles_devtime (s : State) (f : List Nat → List Nat) : (s.modRoles f).devtime = s.devtime := rfl
@[simp] theorem State.modRoles_frac (s : State) (f : List Nat → List Nat) : (s.modRoles f).frac = s.frac := rfl
@[simp] theorem State.modRoles_timers (s : State) (f : List Nat → List Nat) : (s.modRoles f).timers = s.timers := rfl
@[simp] theorem State.modRoles_keeper (s : State) (f : List Nat → List Nat) : (s.modRoles f).keeper = s.keeper := rfl
@[simp] theorem State.modRoles_cv (s : State) (f : List Nat → List Nat) : (s.modRoles f).cv = s.cv := rfl
@[simp] theorem State.modRoles_roles (s : State) (f : List Nat → List Nat) : (s.modRoles f).roles = f s.roles := rfl
@[simp] theorem State.modRoles_pp (s : State) (f : List Nat → List Nat) : (s.modRoles f).pp = s.pp := rfl
@[simp] theorem State.modRoles_ext (s : State) (f : List Nat → List Nat) : (s.modRoles f).ext = s.ext := rfl
@[simp] theorem State.modRoles_tmem (s : State) (f : List Nat → List Nat) : (s.modRoles f).tmem = s.tmem := rfl
@[simp] theorem State.modRoles_scratch (s : State) (f : List Nat → List Nat) : (s.modRoles f).scratch = s.scratch := rfl
@[simp] theorem State.modRoles_hostMem (s : State) (f : List Nat → List Nat) : (s.modRoles f).hostMem = s.hostMem := rfl
@[simp] theorem State.modRoles_mesh (s : State) (f : List Nat → List Nat) : (s.modRoles f).mesh = s.mesh := rfl
@[simp] theorem State.modRoles_pal (s : State) (f : List Nat → List Nat) : (s.modRoles f).pal = s.pal := rfl
@[simp] theorem State.modRoles_ei (s : State) (f : List Nat → List Nat) : (s.modRoles f).ei = s.ei := rfl
@[simp] theorem State.modRoles_tm (s : State) (f : List Nat → List Nat) : (s.modRoles f).tm = s.tm := rfl
@[simp] theorem State.modRoles_sf (s : State) (f : List Nat → List Nat) : (s.modRoles f).sf = s.sf := rfl
@[simp] theorem State.modRoles_deParity (s : State) (f : List Nat → List Nat) : (s.modRoles f).deParity = s.deParity := rfl
@[simp] theorem State.modRoles_xr (s : State) (f : List Nat → List Nat) : (s.modRoles f).xr = s.xr := rfl
@[simp] theorem State.modRoles_fu (s : State) (f : List Nat → List Nat) : (s.modRoles f).fu = s.fu := rfl
@[simp] theorem State.modRoles_rd (s : State) (f : List Nat → List Nat) : (s.modRoles f).rd = s.rd := rfl
@[simp] theorem State.modRoles_sl (s : State) (f : List Nat → List Nat) : (s.modRoles f).sl = s.sl := rfl
@[simp] theorem State.modRoles_hi (s : State) (f : List Nat → List Nat) : (s.modRoles f).hi = s.hi := rfl
@[simp] theorem State.modRoles_lg (s : State) (f : List Nat → List Nat) : (s.modRoles f).lg = s.lg := rfl
@[simp] theorem State.modRoles_freeCtr (s : State) (f : List Nat → List Nat) : (s.modRoles f).freeCtr = s.freeCtr := rfl
@[simp] theorem State.modRoles_pending (s : State) (f : List Nat → List Nat) : (s.modRoles f).pending = s.pending := rfl
@[simp] theorem State.modPp_part (s : State) (f : PlanProc → PlanProc) : (s.modPp f).part = s.part := rfl
@[simp] theorem State.modPp_store (s : State) (f : PlanProc → PlanProc) : (s.modPp f).store = s.store := rfl
@[simp] theorem State.modPp_regs (s : State) (f : PlanProc → PlanProc) : (s.modPp f).regs = s.regs := rfl
@[simp] theorem State.modPp_pins (s : State) (f : PlanProc → PlanProc) : (s.modPp f).pins = s.pins := rfl
@[simp] theorem State.modPp_devtime (s : State) (f : PlanProc → PlanProc) : (s.modPp f).devtime = s.devtime := rfl
@[simp] theorem State.modPp_frac (s : State) (f : PlanProc → PlanProc) : (s.modPp f).frac = s.frac := rfl
@[simp] theorem State.modPp_timers (s : State) (f : PlanProc → PlanProc) : (s.modPp f).timers = s.timers := rfl
@[simp] theorem State.modPp_keeper (s : State) (f : PlanProc → PlanProc) : (s.modPp f).keeper = s.keeper := rfl
@[simp] theorem State.modPp_cv (s : State) (f : PlanProc → PlanProc) : (s.modPp f).cv = s.cv := rfl
@[simp] theorem State.modPp_roles (s : State) (f : PlanProc → PlanProc) : (s.modPp f).roles = s.roles := rfl
@[simp] theorem State.modPp_pp (s : State) (f : PlanProc → PlanProc) : (s.modPp f).pp = f s.pp := rfl
@[simp] theorem State.modPp_ext (s : State) (f : PlanProc → PlanProc) : (s.modPp f).ext = s.ext := rfl
@[simp] theorem State.modPp_tmem (s : State) (f : PlanProc → PlanProc) : (s.modPp f).tmem = s.tmem := rfl
@[simp] theorem State.modPp_scratch (s : State) (f : PlanProc → PlanProc) : (s.modPp f).scratch = s.scratch := rfl
@[simp] theorem State.modPp_hostMem (s : State) (f : PlanProc → PlanProc) : (s.modPp f).hostMem = s.hostMem := rfl
@[simp] theorem State.modPp_mesh (s : State) (f : PlanProc → PlanProc) : (s.modPp f).mesh = s.mesh := rfl
@[simp] theorem State.modPp_pal (s : State) (f : PlanProc → PlanProc) : (s.modPp f).pal = s.pal := rfl
@[simp] theorem State.modPp_ei (s : State) (f : PlanProc → PlanProc) : (s.modPp f).ei = s.ei := rfl
@[simp] theorem State.modPp_tm (s : State) (f : PlanProc → PlanProc) : (s.modPp f).tm = s.tm := rfl
@[simp] theorem State.modPp_sf (s : State) (f : PlanProc → PlanProc) : (s.modPp f).sf = s.sf := rfl
@[simp] theorem State.modPp_deParity (s : State) (f : PlanProc → PlanProc) : (s.modPp f).deParity = s.deParity := rfl
@[simp] theorem State.modPp_xr (s : State) (f : PlanProc → PlanProc) : (s.modPp f).xr = s.xr := rfl
@[simp] theorem State.modPp_fu (s : State) (f : PlanProc → PlanProc) : (s.modPp f).fu = s.fu := rfl
@[simp] theorem State.modPp_rd (s : State) (f : PlanProc → PlanProc) : (s.modPp f).rd = s.rd := rfl
@[simp] theorem State.modPp_sl (s : State) (f : PlanProc → PlanProc) : (s.modPp f).sl = s.sl := rfl
@[simp] theorem State.modPp_hi (s : State) (f : PlanProc → PlanProc) : (s.modPp f).hi = s.hi := rfl
@[simp] theorem State.modPp_lg (s : State) (f : PlanProc → PlanProc) : (s.modPp f).lg = s.lg := rfl
@[simp] theorem State.modPp_freeCtr (s : State) (f : PlanProc → PlanProc) : (s.modPp f).freeCtr = s.freeCtr := rfl
@[simp] theorem State.modPp_pending (s : State) (f : PlanProc → PlanProc) : (s.modPp f).pending = s.pending := rfl
@[simp] theorem State.modExt_part (s : State) (f : Mem → Mem) : (s.modExt f).part = s.part := rfl
@[simp] theorem State.modExt_store (s : State) (f : Mem → Mem) : (s.modExt f).store = s.store := rfl
@[simp] theorem State.modExt_regs (s : State) (f : Mem → Mem) : (s.modExt f).regs = s.regs := rfl
@[simp] theorem State.modExt_pins (s : State) (f : Mem → Mem) : (s.modExt f).pins = s.pins := rfl
@[simp] theorem State.modExt_devtime (s : State) (f : Mem → Mem) : (s.modExt f).devtime = s.devtime := rfl
@[simp] theorem State.modExt_frac (s : State) (f : Mem → Mem) : (s.modExt f).frac = s.frac := rfl
@[simp] theorem State.modExt_timers (s : State) (f : Mem → Mem) : (s.modExt f).timers = s.timers := rfl
@[simp] theorem State.modExt_keeper (s : State) (f : Mem → Mem) : (s.modExt f).keeper = s.keeper := rfl
@[simp] theorem State.modExt_cv (s : State) (f : Mem → Mem) : (s.modExt f).cv = s.cv := rfl
@[simp] theorem State.modExt_roles (s : State) (f : Mem → Mem) : (s.modExt f).roles = s.roles := rfl
@[simp] theorem State.modExt_pp (s : State) (f : Mem → Mem) : (s.modExt f).pp = s.pp := rfl
@[simp] theorem State.modExt_ext (s : State) (f : Mem → Mem) : (s.modExt f).ext = f s.ext := rfl
@[simp] theorem State.modExt_tmem (s : State) (f : Mem → Mem) : (s.modExt f).tmem = s.tmem := rfl
@[simp] theorem State.modExt_scratch (s : State) (f : Mem → Mem) : (s.modExt f).scratch = s.scratch := rfl
@[simp] theorem State.modExt_hostMem (s : State) (f : Mem → Mem) : (s.modExt f).hostMem = s.hostMem := rfl
@[simp] theorem State.modExt_mesh (s : State) (f : Mem → Mem) : (s.modExt f).mesh = s.mesh := rfl
@[simp] theorem State.modExt_pal (s : State) (f : Mem → Mem) : (s.modExt f).pal = s.pal := rfl
@[simp] theorem State.modExt_ei (s : State) (f : Mem → Mem) : (s.modExt f).ei = s.ei := rfl
@[simp] theorem State.modExt_tm (s : State) (f : Mem → Mem) : (s.modExt f).tm = s.tm := rfl
@[simp] theorem State.modExt_sf (s : State) (f : Mem → Mem) : (s.modExt f).sf = s.sf := rfl
@[simp] theorem State.modExt_deParity (s : State) (f : Mem → Mem) : (s.modExt f).deParity = s.deParity := rfl
@[simp] theorem State.modExt_xr (s : State) (f : Mem → Mem) : (s.modExt f).xr = s.xr := rfl
@[simp] theorem State.modExt_fu (s : State) (f : Mem → Mem) : (s.modExt f).fu = s.fu := rfl
@[simp] theorem State.modExt_rd (s : State) (f : Mem → Mem) : (s.modExt f).rd = s.rd := rfl
@[simp] theorem State.modExt_sl (s : State) (f : Mem → Mem) : (s.modExt f).sl = s.sl := rfl
@[simp] theorem State.modExt_hi (s : State) (f : Mem → Mem) : (s.modExt f).hi = s.hi := rfl
@[simp] theorem State.modExt_lg (s : State) (f : Mem → Mem) : (s.modExt f).lg = s.lg := rfl
@[simp] theorem State.modExt_freeCtr (s : State) (f : Mem → Mem) : (s.modExt f).freeCtr = s.freeCtr := rfl
@[simp] theorem State.modExt_pending (s : State) (f : Mem → Mem) : (s.modExt f).pending = s.pending := rfl
@[simp] theorem State.modTmem_part (s : State) (f : Mem → Mem) : (s.modTmem f).part = s.part := rfl
@[simp] theorem State.modTmem_store (s : State) (f : Mem → Mem) : (s.modTmem f).store = s.store := rfl
@[simp] theorem State.modTmem_regs (s : State) (f : Mem → Mem) : (s.modTmem f).regs = s.regs := rfl
@[simp] theorem State.modTmem_pins (s : State) (f : Mem → Mem) : (s.modTmem f).pins = s.pins := rfl
@[simp] theorem State.modTmem_devtime (s : State) (f : Mem → Mem) : (s.modTmem f).devtime = s.devtime := rfl
@[simp] theorem State.modTmem_frac (s : State) (f : Mem → Mem) : (s.modTmem f).frac = s.frac := rfl
@[simp] theorem State.modTmem_timers (s : State) (f : Mem → Mem) : (s.modTmem f).timers = s.timers := rfl
@[simp] theorem State.modTmem_keeper (s : State) (f : Mem → Mem) : (s.modTmem f).keeper = s.keeper := rfl
@[simp] theorem State.modTmem_cv (s : State) (f : Mem → Mem) : (s.modTmem f).cv = s.cv := rfl
@[simp] theorem State.modTmem_roles (s : State) (f : Mem → Mem) : (s.modTmem f).roles = s.roles := rfl
@[simp] theorem State.modTmem_pp (s : State) (f : Mem → Mem) : (s.modTmem f).pp = s.pp := rfl
@[simp] theorem State.modTmem_ext (s : State) (f : Mem → Mem) : (s.modTmem f).ext = s.ext := rfl
@[simp] theorem State.modTmem_tmem (s : State) (f : Mem → Mem) : (s.modTmem f).tmem = f s.tmem := rfl
@[simp] theorem State.modTmem_scratch (s : State) (f : Mem → Mem) : (s.modTmem f).scratch = s.scratch := rfl
@[simp] theorem State.modTmem_hostMem (s : State) (f : Mem → Mem) : (s.modTmem f).hostMem = s.hostMem := rfl
@[simp] theorem State.modTmem_mesh (s : State) (f : Mem → Mem) : (s.modTmem f).mesh = s.mesh := rfl
@[simp] theorem State.modTmem_pal (s : State) (f : Mem → Mem) : (s.modTmem f).pal = s.pal := rfl
@[simp] theorem State.modTmem_ei (s : State) (f : Mem → Mem) : (s.modTmem f).ei = s.ei := rfl
@[simp] theorem State.modTmem_tm (s : State) (f : Mem → Mem) : (s.modTmem f).tm = s.tm := rfl
@[simp] theorem State.modTmem_sf (s : State) (f : Mem → Mem) : (s.modTmem f).sf = s.sf := rfl
@[simp] theorem State.modTmem_deParity (s : State) (f : Mem → Mem) : (s.modTmem f).deParity = s.deParity := rfl
@[simp] theorem State.modTmem_xr (s : State) (f : Mem → Mem) : (s.modTmem f).xr = s.xr := rfl
@[simp] theorem State.modTmem_fu (s : State) (f : Mem → Mem) : (s.modTmem f).fu = s.fu := rfl
@[simp] theorem State.modTmem_rd (s : State) (f : Mem → Mem) : (s.modTmem f).rd = s.rd := rfl
@[simp] theorem State.modTmem_sl (s : State) (f : Mem → Mem) : (s.modTmem f).sl = s.sl := rfl
@[simp] theorem State.modTmem_hi (s : State) (f : Mem → Mem) : (s.modTmem f).hi = s.hi := rfl
@[simp] theorem State.modTmem_lg (s : State) (f : Mem → Mem) : (s.modTmem f).lg = s.lg := rfl
@[simp] theorem State.modTmem_freeCtr (s : State) (f : Mem → Mem) : (s.modTmem f).freeCtr = s.freeCtr := rfl
@[simp] theorem State.modTmem_pending (s : State) (f : Mem → Mem) : (s.modTmem f).pending = s.pending := rfl
@[simp] theorem State.modScratch_part (s : State) (f : Mem → Mem) : (s.modScratch f).part = s.part := rfl
@[simp] theorem State.modScratch_store (s : State) (f : Mem → Mem) : (s.modScratch f).store = s.store := rfl
@[simp] theorem State.modScratch_regs (s : State) (f : Mem → Mem) : (s.modScratch f).regs = s.regs := rfl
@[simp] theorem State.modScratch_pins (s : State) (f : Mem → Mem) : (s.modScratch f).pins = s.pins := rfl
@[simp] theorem State.modScratch_devtime (s : State) (f : Mem → Mem) : (s.modScratch f).devtime = s.devtime := rfl
@[simp] theorem State.modScratch_frac (s : State) (f : Mem → Mem) : (s.modScratch f).frac = s.frac := rfl
@[simp] theorem State.modScratch_timers (s : State) (f : Mem → Mem) : (s.modScratch f).timers = s.timers := rfl
@[simp] theorem State.modScratch_keeper (s : State) (f : Mem → Mem) : (s.modScratch f).keeper = s.keeper := rfl
@[simp] theorem State.modScratch_cv (s : State) (f : Mem → Mem) : (s.modScratch f).cv = s.cv := rfl
@[simp] theorem State.modScratch_roles (s : State) (f : Mem → Mem) : (s.modScratch f).roles = s.roles := rfl
@[simp] theorem State.modScratch_pp (s : State) (f : Mem → Mem) : (s.modScratch f).pp = s.pp := rfl
@[simp] theorem State.modScratch_ext (s : State) (f : Mem → Mem) : (s.modScratch f).ext = s.ext := rfl
@[simp] theorem State.modScratch_tmem (s : State) (f : Mem → Mem) : (s.modScratch f).tmem = s.tmem := rfl
@[simp] theorem State.modScratch_scratch (s : State) (f : Mem → Mem) : (s.modScratch f).scratch = f s.scratch := rfl
@[simp] theorem State.modScratch_hostMem (s : State) (f : Mem → Mem) : (s.modScratch f).hostMem = s.hostMem := rfl
@[simp] theorem State.modScratch_mesh (s : State) (f : Mem → Mem) : (s.modScratch f).mesh = s.mesh := rfl
@[simp] theorem State.modScratch_pal (s : State) (f : Mem → Mem) : (s.modScratch f).pal = s.pal := rfl
@[simp] theorem State.modScratch_ei (s : State) (f : Mem → Mem) : (s.modScratch f).ei = s.ei := rfl
@[simp] theorem State.modScratch_tm (s : State) (f : Mem → Mem) : (s.modScratch f).tm = s.tm := rfl
@[simp] theorem State.modScratch_sf (s : State) (f : Mem → Mem) : (s.modScratch f).sf = s.sf := rfl
@[simp] theorem State.modScratch_deParity (s : State) (f : Mem → Mem) : (s.modScratch f).deParity = s.deParity := rfl
@[simp] theorem State.modScratch_xr (s : State) (f : Mem → Mem) : (s.modScratch f).xr = s.xr := rfl
@[simp] theorem State.modScratch_fu (s : State) (f : Mem → Mem) : (s.modScratch f).fu = s.fu := rfl
@[simp] theorem State.modScratch_rd (s : State) (f : Mem → Mem) : (s.modScratch f).rd = s.rd := rfl
@[simp] theorem State.modScratch_sl (s : State) (f : Mem → Mem) : (s.modScratch f).sl = s.sl := rfl
@[simp] theorem State.modScratch_hi (s : State) (f : Mem → Mem) : (s.modScratch f).hi = s.hi := rfl
@[simp] theorem State.modScratch_lg (s : State) (f : Mem → Mem) : (s.modScratch f).lg = s.lg := rfl
@[simp] theorem State.modScratch_freeCtr (s : State) (f : Mem → Mem) : (s.modScratch f).freeCtr = s.freeCtr := rfl
@[simp] theorem State.modScratch_pending (s : State) (f : Mem → Mem) : (s.modScratch f).pending = s.pending := rfl
@[simp] theorem State.modHostMem_part (s : State) (f : Mem → Mem) : (s.modHostMem f).part = s.part := rfl
@[simp] theorem State.modHostMem_store (s : State) (f : Mem → Mem) : (s.modHostMem f).store = s.store := rfl
@[simp] theorem State.modHostMem_regs (s : State) (f : Mem → Mem) : (s.modHostMem f).regs = s.regs := rfl
@[simp] theorem State.modHostMem_pins (s : State) (f : Mem → Mem) : (s.modHostMem f).pins = s.pins := rfl
@[simp] theorem State.modHostMem_devtime (s : State) (f : Mem → Mem) : (s.modHostMem f).devtime = s.devtime := rfl
@[simp] theorem State.modHostMem_frac (s : State) (f : Mem → Mem) : (s.modHostMem f).frac = s.frac := rfl
@[simp] theorem State.modHostMem_timers (s : State) (f : Mem → Mem) : (s.modHostMem f).timers = s.timers := rfl
@[simp] theorem State.modHostMem_keeper (s : State) (f : Mem → Mem) : (s.modHostMem f).keeper = s.keeper := rfl
@[simp] theorem State.modHostMem_cv (s : State) (f : Mem → Mem) : (s.modHostMem f).cv = s.cv := rfl
@[simp] theorem State.modHostMem_roles (s : State) (f : Mem → Mem) : (s.modHostMem f).roles = s.roles := rfl
@[simp] theorem State.modHostMem_pp (s : State) (f : Mem → Mem) : (s.modHostMem f).pp = s.pp := rfl
@[simp] theorem State.modHostMem_ext (s : State) (f : Mem → Mem) : (s.modHostMem f).ext = s.ext := rfl
@[simp] theorem State.modHostMem_tmem (s : State) (f : Mem → Mem) : (s.modHostMem f).tmem = s.tmem := rfl
@[simp] theorem State.modHostMem_scratch (s : State) (f : Mem → Mem) : (s.modHostMem f).scratch = s.scratch := rfl
@[simp] theorem State.modHostMem_hostMem (s : State) (f : Mem → Mem) : (s.modHostMem f).hostMem = f s.hostMem := rfl
@[simp] theorem State.modHostMem_mesh (s : State) (f : Mem → Mem) : (s.modHostMem f).mesh = s.mesh := rfl
@[simp] theorem State.modHostMem_pal (s : State) (f : Mem → Mem) : (s.modHostMem f).pal = s.pal := rfl
@[simp] theorem State.modHostMem_ei (s : State) (f : Mem → Mem) : (s.modHostMem f).ei = s.ei := rfl
@[simp] theorem State.modHostMem_tm (s : State) (f : Mem → Mem) : (s.modHostMem f).tm = s.tm := rfl
@[simp] theorem State.modHostMem_sf (s : State) (f : Mem → Mem) : (s.modHostMem f).sf = s.sf := rfl
@[simp] theorem State.modHostMem_deParity (s : State) (f : Mem → Mem) : (s.modHostMem f).deParity = s.deParity := rfl
@[simp] theorem State.modHostMem_xr (s : State) (f : Mem → Mem) : (s.modHostMem f).xr = s.xr := rfl
@[simp] theorem State.modHostMem_fu (s : State) (f : Mem → Mem) : (s.modHostMem f).fu = s.fu := rfl
@[simp] theorem State.modHostMem_rd (s : State) (f : Mem → Mem) : (s.modHostMem f).rd = s.rd := rfl
@[simp] theorem State.modHostMem_sl (s : State) (f : Mem → Mem) : (s.modHostMem f).sl = s.sl := rfl
@[simp] theorem State.modHostMem_hi (s : State) (f : Mem → Mem) : (s.modHostMem f).hi = s.hi := rfl
@[simp] theorem State.modHostMem_lg (s : State) (f : Mem → Mem) : (s.modHostMem f).lg = s.lg := rfl
@[simp] theorem State.modHostMem_freeCtr (s : State) (f : Mem → Mem) : (s.modHostMem f).freeCtr = s.freeCtr := rfl
@[simp] theorem State.modHostMem_pending (s : State) (f : Mem → Mem) : (s.modHostMem f).pending = s.pending := rfl
@[simp] theorem State.modMesh_part (s : State) (f : Mesh → Mesh) : (s.modMesh f).part = s.part := rfl
@[simp] theorem State.modMesh_store (s : State) (f : Mesh → Mesh) : (s.modMesh f).store = s.store := rfl
@[simp] theorem State.modMesh_regs (s : State) (f : Mesh → Mesh) : (s.modMesh f).regs = s.regs := rfl
@[simp] theorem State.modMesh_pins (s : State) (f : Mesh → Mesh) : (s.modMesh f).pins = s.pins := rfl
@[simp] theorem State.modMesh_devtime (s : State) (f : Mesh → Mesh) : (s.modMesh f).devtime = s.devtime := rfl
@[simp] theorem State.modMesh_frac (s : State) (f : Mesh → Mesh) : (s.modMesh f).frac = s.frac := rfl
@[simp] theorem State.modMesh_timers (s : State) (f : Mesh → Mesh) : (s.modMesh f).timers = s.timers := rfl
@[simp] theorem State.modMesh_keeper (s : State) (f : Mesh → Mesh) : (s.modMesh f).keeper = s.keeper := rfl
@[simp] theorem State.modMesh_cv (s : State) (f : Mesh → Mesh) : (s.modMesh f).cv = s.cv := rfl
@[simp] theorem State.modMesh_roles (s : State) (f : Mesh → Mesh) : (s.modMesh f).roles = s.roles := rfl
@[simp] theorem State.modMesh_pp (s : State) (f : Mesh → Mesh) : (s.modMesh f).pp = s.pp := rfl
@[simp] theorem State.modMesh_ext (s : State) (f : Mesh → Mesh) : (s.modMesh f).ext = s.ext := rfl
@[simp] theorem State.modMesh_tmem (s : State) (f : Mesh → Mesh) : (s.modMesh f).tmem = s.tmem := rfl
@[simp] theorem State.modMesh_scratch (s : State) (f : Mesh → Mesh) : (s.modMesh f).scratch = s.scratch := rfl
@[simp] theorem State.modMesh_hostMem (s : State) (f : Mesh → Mesh) : (s.modMesh f).hostMem = s.hostMem := rfl
@[simp] theorem State.modMesh_mesh (s : State) (f : Mesh → Mesh) : (s.modMesh f).mesh = f s.mesh := rfl
@[simp] theorem State.modMesh_pal (s : State) (f : Mesh → Mesh) : (s.modMesh f).pal = s.pal := rfl
@[simp] theorem State.modMesh_ei (s : State) (f : Mesh → Mesh) : (s.modMesh f).ei = s.ei := rfl
@[simp] theorem State.modMesh_tm (s : State) (f : Mesh → Mesh) : (s.modMesh f).tm = s.tm := rfl
@[simp] theorem State.modMesh_sf (s : State) (f : Mesh → Mesh) : (s.modMesh f).sf = s.sf := rfl
@[simp] theorem State.modMesh_deParity (s : State) (f : Mesh → Mesh) : (s.modMesh f).deParity = s.deParity := rfl
@[simp] theorem State.modMesh_xr (s : State) (f : Mesh → Mesh) : (s.modMesh f).xr = s.xr := rfl
@[simp] theorem State.modMesh_fu (s : State) (f : Mesh → Mesh) : (s.modMesh f).fu = s.fu := rfl
@[simp] theorem State.modMesh_rd (s : State) (f : Mesh → Mesh) : (s.modMesh f).rd = s.rd := rfl
@[simp] theorem State.modMesh_sl (s : State) (f : Mesh → Mesh) : (s.modMesh f).sl = s.sl := rfl
@[simp] theorem State.modMesh_hi (s : State) (f : Mesh → Mesh) : (s.modMesh f).hi = s.hi := rfl
@[simp] theorem State.modMesh_lg (s : State) (f : Mesh → Mesh) : (s.modMesh f).lg = s.lg := rfl
@[simp] theorem State.modMesh_freeCtr (s : State) (f : Mesh → Mesh) : (s.modMesh f).freeCtr = s.freeCtr := rfl
@[simp] theorem State.modMesh_pending (s : State) (f : Mesh → Mesh) : (s.modMesh f).pending = s.pending := rfl
@[simp] theorem State.modPal_part (s : State) (f : Palette → Palette) : (s.modPal f).part = s.part := rfl
@[simp] theorem State.modPal_store (s : State) (f : Palette → Palette) : (s.modPal f).store = s.store := rfl
@[simp] theorem State.modPal_regs (s : State) (f : Palette → Palette) : (s.modPal f).regs = s.regs := rfl
@[simp] theorem State.modPal_pins (s : State) (f : Palette → Palette) : (s.modPal f).pins = s.pins := rfl
@[simp] theorem State.modPal_devtime (s : State) (f : Palette → Palette) : (s.modPal f).devtime = s.devtime := rfl
@[simp] theorem State.modPal_frac (s : State) (f : Palette → Palette) : (s.modPal f).frac = s.frac := rfl
@[simp] theorem State.modPal_timers (s : State) (f : Palette → Palette) : (s.modPal f).timers = s.timers := rfl
@[simp] theorem State.modPal_keeper (s : State) (f : Palette → Palette) : (s.modPal f).keeper = s.keeper := rfl
@[simp] theorem State.modPal_cv (s : State) (f : Palette → Palette) : (s.modPal f).cv = s.cv := rfl
@[simp] theorem State.modPal_roles (s : State) (f : Palette → Palette) : (s.modPal f).roles = s.roles := rfl
@[simp] theorem State.modPal_pp (s : State) (f : Palette → Palette) : (s.modPal f).pp = s.pp := rfl
@[simp] theorem State.modPal_ext (s : State) (f : Palette → Palette) : (s.modPal f).ext = s.ext := rfl
@[simp] theorem State.modPal_tmem (s : State) (f : Palette → Palette) : (s.modPal f).tmem = s.tmem := rfl
@[simp] theorem State.modPal_scratch (s : State) (f : Palette → Palette) : (s.modPal f).scratch = s.scratch := rfl
@[simp] theorem State.modPal_hostMem (s : State) (f : Palette → Palette) : (s.modPal f).hostMem = s.hostMem := rfl
@[simp] theorem State.modPal_mesh (s : State) (f : Palette → Palette) : (s.modPal f).mesh = s.mesh := rfl
@[simp] theorem State.modPal_pal (s : State) (f : Palette → Palette) : (s.modPal f).pal = f s.pal := rfl
@[simp] theorem State.modPal_ei (s : State) (f : Palette → Palette) : (s.modPal f).ei = s.ei := rfl
@[simp] theorem State.modPal_tm (s : State) (f : Palette → Palette) : (s.modPal f).tm = s.tm := rfl
@[simp] theorem State.modPal_sf (s : State) (f : Palette → Palette) : (s.modPal f).sf = s.sf := rfl
@[simp] theorem State.modPal_deParity (s : State) (f : Palette → Palette) : (s.modPal f).deParity = s.deParity := rfl
@[simp] theorem State.modPal_xr (s : State) (f : Palette → Palette) : (s.modPal f).xr = s.xr := rfl
@[simp] theorem State.modPal_fu (s : State) (f : Palette → Palette) : (s.modPal f).fu = s.fu := rfl
@[simp] theorem State.modPal_rd (s : State) (f : Palette → Palette) : (s.modPal f).rd = s.rd := rfl
@[simp] theorem State.modPal_sl (s : State) (f : Palette → Palette) : (s.modPal f).sl = s.sl := rfl
@[simp] theorem State.modPal_hi (s : State) (f : Palette → Palette) : (s.modPal f).hi = s.hi := rfl
@[simp] theorem State.modPal_lg (s : State) (f : Palette → Palette) : (s.modPal f).lg = s.lg := rfl
@[simp] theorem State.modPal_freeCtr (s : State) (f : Palette → Palette) : (s.modPal f).freeCtr = s.freeCtr := rfl
@[simp] theorem State.modPal_pending (s : State) (f : Palette → Palette) : (s.modPal f).pending = s.pending := rfl
@[simp] theorem State.modEi_part (s : State) (f : Ingress → Ingress) : (s.modEi f).part = s.part := rfl
@[simp] theorem State.modEi_store (s : State) (f : Ingress → Ingress) : (s.modEi f).store = s.store := rfl
@[simp] theorem State.modEi_regs (s : State) (f : Ingress → Ingress) : (s.modEi f).regs = s.regs := rfl
@[simp] theorem State.modEi_pins (s : State) (f : Ingress → Ingress) : (s.modEi f).pins = s.pins := rfl
@[simp] theorem State.modEi_devtime (s : State) (f : Ingress → Ingress) : (s.modEi f).devtime = s.devtime := rfl
@[simp] theorem State.modEi_frac (s : State) (f : Ingress → Ingress) : (s.modEi f).frac = s.frac := rfl
@[simp] theorem State.modEi_timers (s : State) (f : Ingress → Ingress) : (s.modEi f).timers = s.timers := rfl
@[simp] theorem State.modEi_keeper (s : State) (f : Ingress → Ingress) : (s.modEi f).keeper = s.keeper := rfl
@[simp] theorem State.modEi_cv (s : State) (f : Ingress → Ingress) : (s.modEi f).cv = s.cv := rfl
@[simp] theorem State.modEi_roles (s : State) (f : Ingress → Ingress) : (s.modEi f).roles = s.roles := rfl
@[simp] theorem State.modEi_pp (s : State) (f : Ingress → Ingress) : (s.modEi f).pp = s.pp := rfl
@[simp] theorem State.modEi_ext (s : State) (f : Ingress → Ingress) : (s.modEi f).ext = s.ext := rfl
@[simp] theorem State.modEi_tmem (s : State) (f : Ingress → Ingress) : (s.modEi f).tmem = s.tmem := rfl
@[simp] theorem State.modEi_scratch (s : State) (f : Ingress → Ingress) : (s.modEi f).scratch = s.scratch := rfl
@[simp] theorem State.modEi_hostMem (s : State) (f : Ingress → Ingress) : (s.modEi f).hostMem = s.hostMem := rfl
@[simp] theorem State.modEi_mesh (s : State) (f : Ingress → Ingress) : (s.modEi f).mesh = s.mesh := rfl
@[simp] theorem State.modEi_pal (s : State) (f : Ingress → Ingress) : (s.modEi f).pal = s.pal := rfl
@[simp] theorem State.modEi_ei (s : State) (f : Ingress → Ingress) : (s.modEi f).ei = f s.ei := rfl
@[simp] theorem State.modEi_tm (s : State) (f : Ingress → Ingress) : (s.modEi f).tm = s.tm := rfl
@[simp] theorem State.modEi_sf (s : State) (f : Ingress → Ingress) : (s.modEi f).sf = s.sf := rfl
@[simp] theorem State.modEi_deParity (s : State) (f : Ingress → Ingress) : (s.modEi f).deParity = s.deParity := rfl
@[simp] theorem State.modEi_xr (s : State) (f : Ingress → Ingress) : (s.modEi f).xr = s.xr := rfl
@[simp] theorem State.modEi_fu (s : State) (f : Ingress → Ingress) : (s.modEi f).fu = s.fu := rfl
@[simp] theorem State.modEi_rd (s : State) (f : Ingress → Ingress) : (s.modEi f).rd = s.rd := rfl
@[simp] theorem State.modEi_sl (s : State) (f : Ingress → Ingress) : (s.modEi f).sl = s.sl := rfl
@[simp] theorem State.modEi_hi (s : State) (f : Ingress → Ingress) : (s.modEi f).hi = s.hi := rfl
@[simp] theorem State.modEi_lg (s : State) (f : Ingress → Ingress) : (s.modEi f).lg = s.lg := rfl
@[simp] theorem State.modEi_freeCtr (s : State) (f : Ingress → Ingress) : (s.modEi f).freeCtr = s.freeCtr := rfl
@[simp] theorem State.modEi_pending (s : State) (f : Ingress → Ingress) : (s.modEi f).pending = s.pending := rfl
@[simp] theorem State.modTm_part (s : State) (f : TimeRef → TimeRef) : (s.modTm f).part = s.part := rfl
@[simp] theorem State.modTm_store (s : State) (f : TimeRef → TimeRef) : (s.modTm f).store = s.store := rfl
@[simp] theorem State.modTm_regs (s : State) (f : TimeRef → TimeRef) : (s.modTm f).regs = s.regs := rfl
@[simp] theorem State.modTm_pins (s : State) (f : TimeRef → TimeRef) : (s.modTm f).pins = s.pins := rfl
@[simp] theorem State.modTm_devtime (s : State) (f : TimeRef → TimeRef) : (s.modTm f).devtime = s.devtime := rfl
@[simp] theorem State.modTm_frac (s : State) (f : TimeRef → TimeRef) : (s.modTm f).frac = s.frac := rfl
@[simp] theorem State.modTm_timers (s : State) (f : TimeRef → TimeRef) : (s.modTm f).timers = s.timers := rfl
@[simp] theorem State.modTm_keeper (s : State) (f : TimeRef → TimeRef) : (s.modTm f).keeper = s.keeper := rfl
@[simp] theorem State.modTm_cv (s : State) (f : TimeRef → TimeRef) : (s.modTm f).cv = s.cv := rfl
@[simp] theorem State.modTm_roles (s : State) (f : TimeRef → TimeRef) : (s.modTm f).roles = s.roles := rfl
@[simp] theorem State.modTm_pp (s : State) (f : TimeRef → TimeRef) : (s.modTm f).pp = s.pp := rfl
@[simp] theorem State.modTm_ext (s : State) (f : TimeRef → TimeRef) : (s.modTm f).ext = s.ext := rfl
@[simp] theorem State.modTm_tmem (s : State) (f : TimeRef → TimeRef) : (s.modTm f).tmem = s.tmem := rfl
@[simp] theorem State.modTm_scratch (s : State) (f : TimeRef → TimeRef) : (s.modTm f).scratch = s.scratch := rfl
@[simp] theorem State.modTm_hostMem (s : State) (f : TimeRef → TimeRef) : (s.modTm f).hostMem = s.hostMem := rfl
@[simp] theorem State.modTm_mesh (s : State) (f : TimeRef → TimeRef) : (s.modTm f).mesh = s.mesh := rfl
@[simp] theorem State.modTm_pal (s : State) (f : TimeRef → TimeRef) : (s.modTm f).pal = s.pal := rfl
@[simp] theorem State.modTm_ei (s : State) (f : TimeRef → TimeRef) : (s.modTm f).ei = s.ei := rfl
@[simp] theorem State.modTm_tm (s : State) (f : TimeRef → TimeRef) : (s.modTm f).tm = f s.tm := rfl
@[simp] theorem State.modTm_sf (s : State) (f : TimeRef → TimeRef) : (s.modTm f).sf = s.sf := rfl
@[simp] theorem State.modTm_deParity (s : State) (f : TimeRef → TimeRef) : (s.modTm f).deParity = s.deParity := rfl
@[simp] theorem State.modTm_xr (s : State) (f : TimeRef → TimeRef) : (s.modTm f).xr = s.xr := rfl
@[simp] theorem State.modTm_fu (s : State) (f : TimeRef → TimeRef) : (s.modTm f).fu = s.fu := rfl
@[simp] theorem State.modTm_rd (s : State) (f : TimeRef → TimeRef) : (s.modTm f).rd = s.rd := rfl
@[simp] theorem State.modTm_sl (s : State) (f : TimeRef → TimeRef) : (s.modTm f).sl = s.sl := rfl
@[simp] theorem State.modTm_hi (s : State) (f : TimeRef → TimeRef) : (s.modTm f).hi = s.hi := rfl
@[simp] theorem State.modTm_lg (s : State) (f : TimeRef → TimeRef) : (s.modTm f).lg = s.lg := rfl
@[simp] theorem State.modTm_freeCtr (s : State) (f : TimeRef → TimeRef) : (s.modTm f).freeCtr = s.freeCtr := rfl
@[simp] theorem State.modTm_pending (s : State) (f : TimeRef → TimeRef) : (s.modTm f).pending = s.pending := rfl
@[simp] theorem State.modSf_part (s : State) (f : Spiking → Spiking) : (s.modSf f).part = s.part := rfl
@[simp] theorem State.modSf_store (s : State) (f : Spiking → Spiking) : (s.modSf f).store = s.store := rfl
@[simp] theorem State.modSf_regs (s : State) (f : Spiking → Spiking) : (s.modSf f).regs = s.regs := rfl
@[simp] theorem State.modSf_pins (s : State) (f : Spiking → Spiking) : (s.modSf f).pins = s.pins := rfl
@[simp] theorem State.modSf_devtime (s : State) (f : Spiking → Spiking) : (s.modSf f).devtime = s.devtime := rfl
@[simp] theorem State.modSf_frac (s : State) (f : Spiking → Spiking) : (s.modSf f).frac = s.frac := rfl
@[simp] theorem State.modSf_timers (s : State) (f : Spiking → Spiking) : (s.modSf f).timers = s.timers := rfl
@[simp] theorem State.modSf_keeper (s : State) (f : Spiking → Spiking) : (s.modSf f).keeper = s.keeper := rfl
@[simp] theorem State.modSf_cv (s : State) (f : Spiking → Spiking) : (s.modSf f).cv = s.cv := rfl
@[simp] theorem State.modSf_roles (s : State) (f : Spiking → Spiking) : (s.modSf f).roles = s.roles := rfl
@[simp] theorem State.modSf_pp (s : State) (f : Spiking → Spiking) : (s.modSf f).pp = s.pp := rfl
@[simp] theorem State.modSf_ext (s : State) (f : Spiking → Spiking) : (s.modSf f).ext = s.ext := rfl
@[simp] theorem State.modSf_tmem (s : State) (f : Spiking → Spiking) : (s.modSf f).tmem = s.tmem := rfl
@[simp] theorem State.modSf_scratch (s : State) (f : Spiking → Spiking) : (s.modSf f).scratch = s.scratch := rfl
@[simp] theorem State.modSf_hostMem (s : State) (f : Spiking → Spiking) : (s.modSf f).hostMem = s.hostMem := rfl
@[simp] theorem State.modSf_mesh (s : State) (f : Spiking → Spiking) : (s.modSf f).mesh = s.mesh := rfl
@[simp] theorem State.modSf_pal (s : State) (f : Spiking → Spiking) : (s.modSf f).pal = s.pal := rfl
@[simp] theorem State.modSf_ei (s : State) (f : Spiking → Spiking) : (s.modSf f).ei = s.ei := rfl
@[simp] theorem State.modSf_tm (s : State) (f : Spiking → Spiking) : (s.modSf f).tm = s.tm := rfl
@[simp] theorem State.modSf_sf (s : State) (f : Spiking → Spiking) : (s.modSf f).sf = f s.sf := rfl
@[simp] theorem State.modSf_deParity (s : State) (f : Spiking → Spiking) : (s.modSf f).deParity = s.deParity := rfl
@[simp] theorem State.modSf_xr (s : State) (f : Spiking → Spiking) : (s.modSf f).xr = s.xr := rfl
@[simp] theorem State.modSf_fu (s : State) (f : Spiking → Spiking) : (s.modSf f).fu = s.fu := rfl
@[simp] theorem State.modSf_rd (s : State) (f : Spiking → Spiking) : (s.modSf f).rd = s.rd := rfl
@[simp] theorem State.modSf_sl (s : State) (f : Spiking → Spiking) : (s.modSf f).sl = s.sl := rfl
@[simp] theorem State.modSf_hi (s : State) (f : Spiking → Spiking) : (s.modSf f).hi = s.hi := rfl
@[simp] theorem State.modSf_lg (s : State) (f : Spiking → Spiking) : (s.modSf f).lg = s.lg := rfl
@[simp] theorem State.modSf_freeCtr (s : State) (f : Spiking → Spiking) : (s.modSf f).freeCtr = s.freeCtr := rfl
@[simp] theorem State.modSf_pending (s : State) (f : Spiking → Spiking) : (s.modSf f).pending = s.pending := rfl
@[simp] theorem State.modDeParity_part (s : State) (f : List (Nat × Nat) → List (Nat × Nat)) : (s.modDeParity f).part = s.part := rfl
@[simp] theorem State.modDeParity_store (s : State) (f : List (Nat × Nat) → List (Nat × Nat)) : (s.modDeParity f).store = s.store := rfl
@[simp] theorem State.modDeParity_regs (s : State) (f : List (Nat × Nat) → List (Nat × Nat)) : (s.modDeParity f).regs = s.regs := rfl
@[simp] theorem State.modDeParity_pins (s : State) (f : List (Nat × Nat) → List (Nat × Nat)) : (s.modDeParity f).pins = s.pins := rfl
@[simp] theorem State.modDeParity_devtime (s : State) (f : List (Nat × Nat) → List (Nat × Nat)) : (s.modDeParity f).devtime = s.devtime := rfl
@[simp] theorem State.modDeParity_frac (s : State) (f : List (Nat × Nat) → List (Nat × Nat)) : (s.modDeParity f).frac = s.frac := rfl
@[simp] theorem State.modDeParity_timers (s : State) (f : List (Nat × Nat) → List (Nat × Nat)) : (s.modDeParity f).timers = s.timers := rfl
@[simp] theorem State.modDeParity_keeper (s : State) (f : List (Nat × Nat) → List (Nat × Nat)) : (s.modDeParity f).keeper = s.keeper := rfl
@[simp] theorem State.modDeParity_cv (s : State) (f : List (Nat × Nat) → List (Nat × Nat)) : (s.modDeParity f).cv = s.cv := rfl
@[simp] theorem State.modDeParity_roles (s : State) (f : List (Nat × Nat) → List (Nat × Nat)) : (s.modDeParity f).roles = s.roles := rfl
@[simp] theorem State.modDeParity_pp (s : State) (f : List (Nat × Nat) → List (Nat × Nat)) : (s.modDeParity f).pp = s.pp := rfl
@[simp] theorem State.modDeParity_ext (s : State) (f : List (Nat × Nat) → List (Nat × Nat)) : (s.modDeParity f).ext = s.ext := rfl
@[simp] theorem State.modDeParity_tmem (s : State) (f : List (Nat × Nat) → List (Nat × Nat)) : (s.modDeParity f).tmem = s.tmem := rfl
@[simp] theorem State.modDeParity_scratch (s : State) (f : List (Nat × Nat) → List (Nat × Nat)) : (s.modDeParity f).scratch = s.scratch := rfl
@[simp] theorem State.modDeParity_hostMem (s : State) (f : List (Nat × Nat) → List (Nat × Nat)) : (s.modDeParity f).hostMem = s.hostMem := rfl
@[simp] theorem State.modDeParity_mesh (s : State) (f : List (Nat × Nat) → List (Nat × Nat)) : (s.modDeParity f).mesh = s.mesh := rfl
@[simp] theorem State.modDeParity_pal (s : State) (f : List (Nat × Nat) → List (Nat × Nat)) : (s.modDeParity f).pal = s.pal := rfl
@[simp] theorem State.modDeParity_ei (s : State) (f : List (Nat × Nat) → List (Nat × Nat)) : (s.modDeParity f).ei = s.ei := rfl
@[simp] theorem State.modDeParity_tm (s : State) (f : List (Nat × Nat) → List (Nat × Nat)) : (s.modDeParity f).tm = s.tm := rfl
@[simp] theorem State.modDeParity_sf (s : State) (f : List (Nat × Nat) → List (Nat × Nat)) : (s.modDeParity f).sf = s.sf := rfl
@[simp] theorem State.modDeParity_deParity (s : State) (f : List (Nat × Nat) → List (Nat × Nat)) : (s.modDeParity f).deParity = f s.deParity := rfl
@[simp] theorem State.modDeParity_xr (s : State) (f : List (Nat × Nat) → List (Nat × Nat)) : (s.modDeParity f).xr = s.xr := rfl
@[simp] theorem State.modDeParity_fu (s : State) (f : List (Nat × Nat) → List (Nat × Nat)) : (s.modDeParity f).fu = s.fu := rfl
@[simp] theorem State.modDeParity_rd (s : State) (f : List (Nat × Nat) → List (Nat × Nat)) : (s.modDeParity f).rd = s.rd := rfl
@[simp] theorem State.modDeParity_sl (s : State) (f : List (Nat × Nat) → List (Nat × Nat)) : (s.modDeParity f).sl = s.sl := rfl
@[simp] theorem State.modDeParity_hi (s : State) (f : List (Nat × Nat) → List (Nat × Nat)) : (s.modDeParity f).hi = s.hi := rfl
@[simp] theorem State.modDeParity_lg (s : State) (f : List (Nat × Nat) → List (Nat × Nat)) : (s.modDeParity f).lg = s.lg := rfl
@[simp] theorem State.modDeParity_freeCtr (s : State) (f : List (Nat × Nat) → List (Nat × Nat)) : (s.modDeParity f).freeCtr = s.freeCtr := rfl
@[simp] theorem State.modDeParity_pending (s : State) (f : List (Nat × Nat) → List (Nat × Nat)) : (s.modDeParity f).pending = s.pending := rfl
@[simp] theorem State.modXr_part (s : State) (f : Experts → Experts) : (s.modXr f).part = s.part := rfl
@[simp] theorem State.modXr_store (s : State) (f : Experts → Experts) : (s.modXr f).store = s.store := rfl
@[simp] theorem State.modXr_regs (s : State) (f : Experts → Experts) : (s.modXr f).regs = s.regs := rfl
@[simp] theorem State.modXr_pins (s : State) (f : Experts → Experts) : (s.modXr f).pins = s.pins := rfl
@[simp] theorem State.modXr_devtime (s : State) (f : Experts → Experts) : (s.modXr f).devtime = s.devtime := rfl
@[simp] theorem State.modXr_frac (s : State) (f : Experts → Experts) : (s.modXr f).frac = s.frac := rfl
@[simp] theorem State.modXr_timers (s : State) (f : Experts → Experts) : (s.modXr f).timers = s.timers := rfl
@[simp] theorem State.modXr_keeper (s : State) (f : Experts → Experts) : (s.modXr f).keeper = s.keeper := rfl
@[simp] theorem State.modXr_cv (s : State) (f : Experts → Experts) : (s.modXr f).cv = s.cv := rfl
@[simp] theorem State.modXr_roles (s : State) (f : Experts → Experts) : (s.modXr f).roles = s.roles := rfl
@[simp] theorem State.modXr_pp (s : State) (f : Experts → Experts) : (s.modXr f).pp = s.pp := rfl
@[simp] theorem State.modXr_ext (s : State) (f : Experts → Experts) : (s.modXr f).ext = s.ext := rfl
@[simp] theorem State.modXr_tmem (s : State) (f : Experts → Experts) : (s.modXr f).tmem = s.tmem := rfl
@[simp] theorem State.modXr_scratch (s : State) (f : Experts → Experts) : (s.modXr f).scratch = s.scratch := rfl
@[simp] theorem State.modXr_hostMem (s : State) (f : Experts → Experts) : (s.modXr f).hostMem = s.hostMem := rfl
@[simp] theorem State.modXr_mesh (s : State) (f : Experts → Experts) : (s.modXr f).mesh = s.mesh := rfl
@[simp] theorem State.modXr_pal (s : State) (f : Experts → Experts) : (s.modXr f).pal = s.pal := rfl
@[simp] theorem State.modXr_ei (s : State) (f : Experts → Experts) : (s.modXr f).ei = s.ei := rfl
@[simp] theorem State.modXr_tm (s : State) (f : Experts → Experts) : (s.modXr f).tm = s.tm := rfl
@[simp] theorem State.modXr_sf (s : State) (f : Experts → Experts) : (s.modXr f).sf = s.sf := rfl
@[simp] theorem State.modXr_deParity (s : State) (f : Experts → Experts) : (s.modXr f).deParity = s.deParity := rfl
@[simp] theorem State.modXr_xr (s : State) (f : Experts → Experts) : (s.modXr f).xr = f s.xr := rfl
@[simp] theorem State.modXr_fu (s : State) (f : Experts → Experts) : (s.modXr f).fu = s.fu := rfl
@[simp] theorem State.modXr_rd (s : State) (f : Experts → Experts) : (s.modXr f).rd = s.rd := rfl
@[simp] theorem State.modXr_sl (s : State) (f : Experts → Experts) : (s.modXr f).sl = s.sl := rfl
@[simp] theorem State.modXr_hi (s : State) (f : Experts → Experts) : (s.modXr f).hi = s.hi := rfl
@[simp] theorem State.modXr_lg (s : State) (f : Experts → Experts) : (s.modXr f).lg = s.lg := rfl
@[simp] theorem State.modXr_freeCtr (s : State) (f : Experts → Experts) : (s.modXr f).freeCtr = s.freeCtr := rfl
@[simp] theorem State.modXr_pending (s : State) (f : Experts → Experts) : (s.modXr f).pending = s.pending := rfl
@[simp] theorem State.modFu_part (s : State) (f : Fusion → Fusion) : (s.modFu f).part = s.part := rfl
@[simp] theorem State.modFu_store (s : State) (f : Fusion → Fusion) : (s.modFu f).store = s.store := rfl
@[simp] theorem State.modFu_regs (s : State) (f : Fusion → Fusion) : (s.modFu f).regs = s.regs := rfl
@[simp] theorem State.modFu_pins (s : State) (f : Fusion → Fusion) : (s.modFu f).pins = s.pins := rfl
@[simp] theorem State.modFu_devtime (s : State) (f : Fusion → Fusion) : (s.modFu f).devtime = s.devtime := rfl
@[simp] theorem State.modFu_frac (s : State) (f : Fusion → Fusion) : (s.modFu f).frac = s.frac := rfl
@[simp] theorem State.modFu_timers (s : State) (f : Fusion → Fusion) : (s.modFu f).timers = s.timers := rfl
@[simp] theorem State.modFu_keeper (s : State) (f : Fusion → Fusion) : (s.modFu f).keeper = s.keeper := rfl
@[simp] theorem State.modFu_cv (s : State) (f : Fusion → Fusion) : (s.modFu f).cv = s.cv := rfl
@[simp] theorem State.modFu_roles (s : State) (f : Fusion → Fusion) : (s.modFu f).roles = s.roles := rfl
@[simp] theorem State.modFu_pp (s : State) (f : Fusion → Fusion) : (s.modFu f).pp = s.pp := rfl
@[simp] theorem State.modFu_ext (s : State) (f : Fusion → Fusion) : (s.modFu f).ext = s.ext := rfl
@[simp] theorem State.modFu_tmem (s : State) (f : Fusion → Fusion) : (s.modFu f).tmem = s.tmem := rfl
@[simp] theorem State.modFu_scratch (s : State) (f : Fusion → Fusion) : (s.modFu f).scratch = s.scratch := rfl
@[simp] theorem State.modFu_hostMem (s : State) (f : Fusion → Fusion) : (s.modFu f).hostMem = s.hostMem := rfl
@[simp] theorem State.modFu_mesh (s : State) (f : Fusion → Fusion) : (s.modFu f).mesh = s.mesh := rfl
@[simp] theorem State.modFu_pal (s : State) (f : Fusion → Fusion) : (s.modFu f).pal = s.pal := rfl
@[simp] theorem State.modFu_ei (s : State) (f : Fusion → Fusion) : (s.modFu f).ei = s.ei := rfl
@[simp] theorem State.modFu_tm (s : State) (f : Fusion → Fusion) : (s.modFu f).tm = s.tm := rfl
@[simp] theorem State.modFu_sf (s : State) (f : Fusion → Fusion) : (s.modFu f).sf = s.sf := rfl
@[simp] theorem State.modFu_deParity (s : State) (f : Fusion → Fusion) : (s.modFu f).deParity = s.deParity := rfl
@[simp] theorem State.modFu_xr (s : State) (f : Fusion → Fusion) : (s.modFu f).xr = s.xr := rfl
@[simp] theorem State.modFu_fu (s : State) (f : Fusion → Fusion) : (s.modFu f).fu = f s.fu := rfl
@[simp] theorem State.modFu_rd (s : State) (f : Fusion → Fusion) : (s.modFu f).rd = s.rd := rfl
@[simp] theorem State.modFu_sl (s : State) (f : Fusion → Fusion) : (s.modFu f).sl = s.sl := rfl
@[simp] theorem State.modFu_hi (s : State) (f : Fusion → Fusion) : (s.modFu f).hi = s.hi := rfl
@[simp] theorem State.modFu_lg (s : State) (f : Fusion → Fusion) : (s.modFu f).lg = s.lg := rfl
@[simp] theorem State.modFu_freeCtr (s : State) (f : Fusion → Fusion) : (s.modFu f).freeCtr = s.freeCtr := rfl
@[simp] theorem State.modFu_pending (s : State) (f : Fusion → Fusion) : (s.modFu f).pending = s.pending := rfl
@[simp] theorem State.modRd_part (s : State) (f : Renderer → Renderer) : (s.modRd f).part = s.part := rfl
@[simp] theorem State.modRd_store (s : State) (f : Renderer → Renderer) : (s.modRd f).store = s.store := rfl
@[simp] theorem State.modRd_regs (s : State) (f : Renderer → Renderer) : (s.modRd f).regs = s.regs := rfl
@[simp] theorem State.modRd_pins (s : State) (f : Renderer → Renderer) : (s.modRd f).pins = s.pins := rfl
@[simp] theorem State.modRd_devtime (s : State) (f : Renderer → Renderer) : (s.modRd f).devtime = s.devtime := rfl
@[simp] theorem State.modRd_frac (s : State) (f : Renderer → Renderer) : (s.modRd f).frac = s.frac := rfl
@[simp] theorem State.modRd_timers (s : State) (f : Renderer → Renderer) : (s.modRd f).timers = s.timers := rfl
@[simp] theorem State.modRd_keeper (s : State) (f : Renderer → Renderer) : (s.modRd f).keeper = s.keeper := rfl
@[simp] theorem State.modRd_cv (s : State) (f : Renderer → Renderer) : (s.modRd f).cv = s.cv := rfl
@[simp] theorem State.modRd_roles (s : State) (f : Renderer → Renderer) : (s.modRd f).roles = s.roles := rfl
@[simp] theorem State.modRd_pp (s : State) (f : Renderer → Renderer) : (s.modRd f).pp = s.pp := rfl
@[simp] theorem State.modRd_ext (s : State) (f : Renderer → Renderer) : (s.modRd f).ext = s.ext := rfl
@[simp] theorem State.modRd_tmem (s : State) (f : Renderer → Renderer) : (s.modRd f).tmem = s.tmem := rfl
@[simp] theorem State.modRd_scratch (s : State) (f : Renderer → Renderer) : (s.modRd f).scratch = s.scratch := rfl
@[simp] theorem State.modRd_hostMem (s : State) (f : Renderer → Renderer) : (s.modRd f).hostMem = s.hostMem := rfl
@[simp] theorem State.modRd_mesh (s : State) (f : Renderer → Renderer) : (s.modRd f).mesh = s.mesh := rfl
@[simp] theorem State.modRd_pal (s : State) (f : Renderer → Renderer) : (s.modRd f).pal = s.pal := rfl
@[simp] theorem State.modRd_ei (s : State) (f : Renderer → Renderer) : (s.modRd f).ei = s.ei := rfl
@[simp] theorem State.modRd_tm (s : State) (f : Renderer → Renderer) : (s.modRd f).tm = s.tm := rfl
@[simp] theorem State.modRd_sf (s : State) (f : Renderer → Renderer) : (s.modRd f).sf = s.sf := rfl
@[simp] theorem State.modRd_deParity (s : State) (f : Renderer → Renderer) : (s.modRd f).deParity = s.deParity := rfl
@[simp] theorem State.modRd_xr (s : State) (f : Renderer → Renderer) : (s.modRd f).xr = s.xr := rfl
@[simp] theorem State.modRd_fu (s : State) (f : Renderer → Renderer) : (s.modRd f).fu = s.fu := rfl
@[simp] theorem State.modRd_rd (s : State) (f : Renderer → Renderer) : (s.modRd f).rd = f s.rd := rfl
@[simp] theorem State.modRd_sl (s : State) (f : Renderer → Renderer) : (s.modRd f).sl = s.sl := rfl
@[simp] theorem State.modRd_hi (s : State) (f : Renderer → Renderer) : (s.modRd f).hi = s.hi := rfl
@[simp] theorem State.modRd_lg (s : State) (f : Renderer → Renderer) : (s.modRd f).lg = s.lg := rfl
@[simp] theorem State.modRd_freeCtr (s : State) (f : Renderer → Renderer) : (s.modRd f).freeCtr = s.freeCtr := rfl
@[simp] theorem State.modRd_pending (s : State) (f : Renderer → Renderer) : (s.modRd f).pending = s.pending := rfl
@[simp] theorem State.modSl_part (s : State) (f : Span → Span) : (s.modSl f).part = s.part := rfl
@[simp] theorem State.modSl_store (s : State) (f : Span → Span) : (s.modSl f).store = s.store := rfl
@[simp] theorem State.modSl_regs (s : State) (f : Span → Span) : (s.modSl f).regs = s.regs := rfl
@[simp] theorem State.modSl_pins (s : State) (f : Span → Span) : (s.modSl f).pins = s.pins := rfl
@[simp] theorem State.modSl_devtime (s : State) (f : Span → Span) : (s.modSl f).devtime = s.devtime := rfl
@[simp] theorem State.modSl_frac (s : State) (f : Span → Span) : (s.modSl f).frac = s.frac := rfl
@[simp] theorem State.modSl_timers (s : State) (f : Span → Span) : (s.modSl f).timers = s.timers := rfl
@[simp] theorem State.modSl_keeper (s : State) (f : Span → Span) : (s.modSl f).keeper = s.keeper := rfl
@[simp] theorem State.modSl_cv (s : State) (f : Span → Span) : (s.modSl f).cv = s.cv := rfl
@[simp] theorem State.modSl_roles (s : State) (f : Span → Span) : (s.modSl f).roles = s.roles := rfl
@[simp] theorem State.modSl_pp (s : State) (f : Span → Span) : (s.modSl f).pp = s.pp := rfl
@[simp] theorem State.modSl_ext (s : State) (f : Span → Span) : (s.modSl f).ext = s.ext := rfl
@[simp] theorem State.modSl_tmem (s : State) (f : Span → Span) : (s.modSl f).tmem = s.tmem := rfl
@[simp] theorem State.modSl_scratch (s : State) (f : Span → Span) : (s.modSl f).scratch = s.scratch := rfl
@[simp] theorem State.modSl_hostMem (s : State) (f : Span → Span) : (s.modSl f).hostMem = s.hostMem := rfl
@[simp] theorem State.modSl_mesh (s : State) (f : Span → Span) : (s.modSl f).mesh = s.mesh := rfl
@[simp] theorem State.modSl_pal (s : State) (f : Span → Span) : (s.modSl f).pal = s.pal := rfl
@[simp] theorem State.modSl_ei (s : State) (f : Span → Span) : (s.modSl f).ei = s.ei := rfl
@[simp] theorem State.modSl_tm (s : State) (f : Span → Span) : (s.modSl f).tm = s.tm := rfl
@[simp] theorem State.modSl_sf (s : State) (f : Span → Span) : (s.modSl f).sf = s.sf := rfl
@[simp] theorem State.modSl_deParity (s : State) (f : Span → Span) : (s.modSl f).deParity = s.deParity := rfl
@[simp] theorem State.modSl_xr (s : State) (f : Span → Span) : (s.modSl f).xr = s.xr := rfl
@[simp] theorem State.modSl_fu (s : State) (f : Span → Span) : (s.modSl f).fu = s.fu := rfl
@[simp] theorem State.modSl_rd (s : State) (f : Span → Span) : (s.modSl f).rd = s.rd := rfl
@[simp] theorem State.modSl_sl (s : State) (f : Span → Span) : (s.modSl f).sl = f s.sl := rfl
@[simp] theorem State.modSl_hi (s : State) (f : Span → Span) : (s.modSl f).hi = s.hi := rfl
@[simp] theorem State.modSl_lg (s : State) (f : Span → Span) : (s.modSl f).lg = s.lg := rfl
@[simp] theorem State.modSl_freeCtr (s : State) (f : Span → Span) : (s.modSl f).freeCtr = s.freeCtr := rfl
@[simp] theorem State.modSl_pending (s : State) (f : Span → Span) : (s.modSl f).pending = s.pending := rfl
@[simp] theorem State.modHi_part (s : State) (f : HostIf → HostIf) : (s.modHi f).part = s.part := rfl
@[simp] theorem State.modHi_store (s : State) (f : HostIf → HostIf) : (s.modHi f).store = s.store := rfl
@[simp] theorem State.modHi_regs (s : State) (f : HostIf → HostIf) : (s.modHi f).regs = s.regs := rfl
@[simp] theorem State.modHi_pins (s : State) (f : HostIf → HostIf) : (s.modHi f).pins = s.pins := rfl
@[simp] theorem State.modHi_devtime (s : State) (f : HostIf → HostIf) : (s.modHi f).devtime = s.devtime := rfl
@[simp] theorem State.modHi_frac (s : State) (f : HostIf → HostIf) : (s.modHi f).frac = s.frac := rfl
@[simp] theorem State.modHi_timers (s : State) (f : HostIf → HostIf) : (s.modHi f).timers = s.timers := rfl
@[simp] theorem State.modHi_keeper (s : State) (f : HostIf → HostIf) : (s.modHi f).keeper = s.keeper := rfl
@[simp] theorem State.modHi_cv (s : State) (f : HostIf → HostIf) : (s.modHi f).cv = s.cv := rfl
@[simp] theorem State.modHi_roles (s : State) (f : HostIf → HostIf) : (s.modHi f).roles = s.roles := rfl
@[simp] theorem State.modHi_pp (s : State) (f : HostIf → HostIf) : (s.modHi f).pp = s.pp := rfl
@[simp] theorem State.modHi_ext (s : State) (f : HostIf → HostIf) : (s.modHi f).ext = s.ext := rfl
@[simp] theorem State.modHi_tmem (s : State) (f : HostIf → HostIf) : (s.modHi f).tmem = s.tmem := rfl
@[simp] theorem State.modHi_scratch (s : State) (f : HostIf → HostIf) : (s.modHi f).scratch = s.scratch := rfl
@[simp] theorem State.modHi_hostMem (s : State) (f : HostIf → HostIf) : (s.modHi f).hostMem = s.hostMem := rfl
@[simp] theorem State.modHi_mesh (s : State) (f : HostIf → HostIf) : (s.modHi f).mesh = s.mesh := rfl
@[simp] theorem State.modHi_pal (s : State) (f : HostIf → HostIf) : (s.modHi f).pal = s.pal := rfl
@[simp] theorem State.modHi_ei (s : State) (f : HostIf → HostIf) : (s.modHi f).ei = s.ei := rfl
@[simp] theorem State.modHi_tm (s : State) (f : HostIf → HostIf) : (s.modHi f).tm = s.tm := rfl
@[simp] theorem State.modHi_sf (s : State) (f : HostIf → HostIf) : (s.modHi f).sf = s.sf := rfl
@[simp] theorem State.modHi_deParity (s : State) (f : HostIf → HostIf) : (s.modHi f).deParity = s.deParity := rfl
@[simp] theorem State.modHi_xr (s : State) (f : HostIf → HostIf) : (s.modHi f).xr = s.xr := rfl
@[simp] theorem State.modHi_fu (s : State) (f : HostIf → HostIf) : (s.modHi f).fu = s.fu := rfl
@[simp] theorem State.modHi_rd (s : State) (f : HostIf → HostIf) : (s.modHi f).rd = s.rd := rfl
@[simp] theorem State.modHi_sl (s : State) (f : HostIf → HostIf) : (s.modHi f).sl = s.sl := rfl
@[simp] theorem State.modHi_hi (s : State) (f : HostIf → HostIf) : (s.modHi f).hi = f s.hi := rfl
@[simp] theorem State.modHi_lg (s : State) (f : HostIf → HostIf) : (s.modHi f).lg = s.lg := rfl
@[simp] theorem State.modHi_freeCtr (s : State) (f : HostIf → HostIf) : (s.modHi f).freeCtr = s.freeCtr := rfl
@[simp] theorem State.modHi_pending (s : State) (f : HostIf → HostIf) : (s.modHi f).pending = s.pending := rfl
@[simp] theorem State.modLg_part (s : State) (f : Ledger → Ledger) : (s.modLg f).part = s.part := rfl
@[simp] theorem State.modLg_store (s : State) (f : Ledger → Ledger) : (s.modLg f).store = s.store := rfl
@[simp] theorem State.modLg_regs (s : State) (f : Ledger → Ledger) : (s.modLg f).regs = s.regs := rfl
@[simp] theorem State.modLg_pins (s : State) (f : Ledger → Ledger) : (s.modLg f).pins = s.pins := rfl
@[simp] theorem State.modLg_devtime (s : State) (f : Ledger → Ledger) : (s.modLg f).devtime = s.devtime := rfl
@[simp] theorem State.modLg_frac (s : State) (f : Ledger → Ledger) : (s.modLg f).frac = s.frac := rfl
@[simp] theorem State.modLg_timers (s : State) (f : Ledger → Ledger) : (s.modLg f).timers = s.timers := rfl
@[simp] theorem State.modLg_keeper (s : State) (f : Ledger → Ledger) : (s.modLg f).keeper = s.keeper := rfl
@[simp] theorem State.modLg_cv (s : State) (f : Ledger → Ledger) : (s.modLg f).cv = s.cv := rfl
@[simp] theorem State.modLg_roles (s : State) (f : Ledger → Ledger) : (s.modLg f).roles = s.roles := rfl
@[simp] theorem State.modLg_pp (s : State) (f : Ledger → Ledger) : (s.modLg f).pp = s.pp := rfl
@[simp] theorem State.modLg_ext (s : State) (f : Ledger → Ledger) : (s.modLg f).ext = s.ext := rfl
@[simp] theorem State.modLg_tmem (s : State) (f : Ledger → Ledger) : (s.modLg f).tmem = s.tmem := rfl
@[simp] theorem State.modLg_scratch (s : State) (f : Ledger → Ledger) : (s.modLg f).scratch = s.scratch := rfl
@[simp] theorem State.modLg_hostMem (s : State) (f : Ledger → Ledger) : (s.modLg f).hostMem = s.hostMem := rfl
@[simp] theorem State.modLg_mesh (s : State) (f : Ledger → Ledger) : (s.modLg f).mesh = s.mesh := rfl
@[simp] theorem State.modLg_pal (s : State) (f : Ledger → Ledger) : (s.modLg f).pal = s.pal := rfl
@[simp] theorem State.modLg_ei (s : State) (f : Ledger → Ledger) : (s.modLg f).ei = s.ei := rfl
@[simp] theorem State.modLg_tm (s : State) (f : Ledger → Ledger) : (s.modLg f).tm = s.tm := rfl
@[simp] theorem State.modLg_sf (s : State) (f : Ledger → Ledger) : (s.modLg f).sf = s.sf := rfl
@[simp] theorem State.modLg_deParity (s : State) (f : Ledger → Ledger) : (s.modLg f).deParity = s.deParity := rfl
@[simp] theorem State.modLg_xr (s : State) (f : Ledger → Ledger) : (s.modLg f).xr = s.xr := rfl
@[simp] theorem State.modLg_fu (s : State) (f : Ledger → Ledger) : (s.modLg f).fu = s.fu := rfl
@[simp] theorem State.modLg_rd (s : State) (f : Ledger → Ledger) : (s.modLg f).rd = s.rd := rfl
@[simp] theorem State.modLg_sl (s : State) (f : Ledger → Ledger) : (s.modLg f).sl = s.sl := rfl
@[simp] theorem State.modLg_hi (s : State) (f : Ledger → Ledger) : (s.modLg f).hi = s.hi := rfl
@[simp] theorem State.modLg_lg (s : State) (f : Ledger → Ledger) : (s.modLg f).lg = f s.lg := rfl
@[simp] theorem State.modLg_freeCtr (s : State) (f : Ledger → Ledger) : (s.modLg f).freeCtr = s.freeCtr := rfl
@[simp] theorem State.modLg_pending (s : State) (f : Ledger → Ledger) : (s.modLg f).pending = s.pending := rfl
@[simp] theorem State.modFreeCtr_part (s : State) (f : Nat → Nat) : (s.modFreeCtr f).part = s.part := rfl
@[simp] theorem State.modFreeCtr_store (s : State) (f : Nat → Nat) : (s.modFreeCtr f).store = s.store := rfl
@[simp] theorem State.modFreeCtr_regs (s : State) (f : Nat → Nat) : (s.modFreeCtr f).regs = s.regs := rfl
@[simp] theorem State.modFreeCtr_pins (s : State) (f : Nat → Nat) : (s.modFreeCtr f).pins = s.pins := rfl
@[simp] theorem State.modFreeCtr_devtime (s : State) (f : Nat → Nat) : (s.modFreeCtr f).devtime = s.devtime := rfl
@[simp] theorem State.modFreeCtr_frac (s : State) (f : Nat → Nat) : (s.modFreeCtr f).frac = s.frac := rfl
@[simp] theorem State.modFreeCtr_timers (s : State) (f : Nat → Nat) : (s.modFreeCtr f).timers = s.timers := rfl
@[simp] theorem State.modFreeCtr_keeper (s : State) (f : Nat → Nat) : (s.modFreeCtr f).keeper = s.keeper := rfl
@[simp] theorem State.modFreeCtr_cv (s : State) (f : Nat → Nat) : (s.modFreeCtr f).cv = s.cv := rfl
@[simp] theorem State.modFreeCtr_roles (s : State) (f : Nat → Nat) : (s.modFreeCtr f).roles = s.roles := rfl
@[simp] theorem State.modFreeCtr_pp (s : State) (f : Nat → Nat) : (s.modFreeCtr f).pp = s.pp := rfl
@[simp] theorem State.modFreeCtr_ext (s : State) (f : Nat → Nat) : (s.modFreeCtr f).ext = s.ext := rfl
@[simp] theorem State.modFreeCtr_tmem (s : State) (f : Nat → Nat) : (s.modFreeCtr f).tmem = s.tmem := rfl
@[simp] theorem State.modFreeCtr_scratch (s : State) (f : Nat → Nat) : (s.modFreeCtr f).scratch = s.scratch := rfl
@[simp] theorem State.modFreeCtr_hostMem (s : State) (f : Nat → Nat) : (s.modFreeCtr f).hostMem = s.hostMem := rfl
@[simp] theorem State.modFreeCtr_mesh (s : State) (f : Nat → Nat) : (s.modFreeCtr f).mesh = s.mesh := rfl
@[simp] theorem State.modFreeCtr_pal (s : State) (f : Nat → Nat) : (s.modFreeCtr f).pal = s.pal := rfl
@[simp] theorem State.modFreeCtr_ei (s : State) (f : Nat → Nat) : (s.modFreeCtr f).ei = s.ei := rfl
@[simp] theorem State.modFreeCtr_tm (s : State) (f : Nat → Nat) : (s.modFreeCtr f).tm = s.tm := rfl
@[simp] theorem State.modFreeCtr_sf (s : State) (f : Nat → Nat) : (s.modFreeCtr f).sf = s.sf := rfl
@[simp] theorem State.modFreeCtr_deParity (s : State) (f : Nat → Nat) : (s.modFreeCtr f).deParity = s.deParity := rfl
@[simp] theorem State.modFreeCtr_xr (s : State) (f : Nat → Nat) : (s.modFreeCtr f).xr = s.xr := rfl
@[simp] theorem State.modFreeCtr_fu (s : State) (f : Nat → Nat) : (s.modFreeCtr f).fu = s.fu := rfl
@[simp] theorem State.modFreeCtr_rd (s : State) (f : Nat → Nat) : (s.modFreeCtr f).rd = s.rd := rfl
@[simp] theorem State.modFreeCtr_sl (s : State) (f : Nat → Nat) : (s.modFreeCtr f).sl = s.sl := rfl
@[simp] theorem State.modFreeCtr_hi (s : State) (f : Nat → Nat) : (s.modFreeCtr f).hi = s.hi := rfl
@[simp] theorem State.modFreeCtr_lg (s : State) (f : Nat → Nat) : (s.modFreeCtr f).lg = s.lg := rfl
@[simp] theorem State.modFreeCtr_freeCtr (s : State) (f : Nat → Nat) : (s.modFreeCtr f).freeCtr = f s.freeCtr := rfl
@[simp] theorem State.modFreeCtr_pending (s : State) (f : Nat → Nat) : (s.modFreeCtr f).pending = s.pending := rfl
@[simp] theorem State.modPending_part (s : State) (f : List Instr → List Instr) : (s.modPending f).part = s.part := rfl
@[simp] theorem State.modPending_store (s : State) (f : List Instr → List Instr) : (s.modPending f).store = s.store := rfl
@[simp] theorem State.modPending_regs (s : State) (f : List Instr → List Instr) : (s.modPending f).regs = s.regs := rfl
@[simp] theorem State.modPending_pins (s : State) (f : List Instr → List Instr) : (s.modPending f).pins = s.pins := rfl
@[simp] theorem State.modPending_devtime (s : State) (f : List Instr → List Instr) : (s.modPending f).devtime = s.devtime := rfl
@[simp] theorem State.modPending_frac (s : State) (f : List Instr → List Instr) : (s.modPending f).frac = s.frac := rfl
@[simp] theorem State.modPending_timers (s : State) (f : List Instr → List Instr) : (s.modPending f).timers = s.timers := rfl
@[simp] theorem State.modPending_keeper (s : State) (f : List Instr → List Instr) : (s.modPending f).keeper = s.keeper := rfl
@[simp] theorem State.modPending_cv (s : State) (f : List Instr → List Instr) : (s.modPending f).cv = s.cv := rfl
@[simp] theorem State.modPending_roles (s : State) (f : List Instr → List Instr) : (s.modPending f).roles = s.roles := rfl
@[simp] theorem State.modPending_pp (s : State) (f : List Instr → List Instr) : (s.modPending f).pp = s.pp := rfl
@[simp] theorem State.modPending_ext (s : State) (f : List Instr → List Instr) : (s.modPending f).ext = s.ext := rfl
@[simp] theorem State.modPending_tmem (s : State) (f : List Instr → List Instr) : (s.modPending f).tmem = s.tmem := rfl
@[simp] theorem State.modPending_scratch (s : State) (f : List Instr → List Instr) : (s.modPending f).scratch = s.scratch := rfl
@[simp] theorem State.modPending_hostMem (s : State) (f : List Instr → List Instr) : (s.modPending f).hostMem = s.hostMem := rfl
@[simp] theorem State.modPending_mesh (s : State) (f : List Instr → List Instr) : (s.modPending f).mesh = s.mesh := rfl
@[simp] theorem State.modPending_pal (s : State) (f : List Instr → List Instr) : (s.modPending f).pal = s.pal := rfl
@[simp] theorem State.modPending_ei (s : State) (f : List Instr → List Instr) : (s.modPending f).ei = s.ei := rfl
@[simp] theorem State.modPending_tm (s : State) (f : List Instr → List Instr) : (s.modPending f).tm = s.tm := rfl
@[simp] theorem State.modPending_sf (s : State) (f : List Instr → List Instr) : (s.modPending f).sf = s.sf := rfl
@[simp] theorem State.modPending_deParity (s : State) (f : List Instr → List Instr) : (s.modPending f).deParity = s.deParity := rfl
@[simp] theorem State.modPending_xr (s : State) (f : List Instr → List Instr) : (s.modPending f).xr = s.xr := rfl
@[simp] theorem State.modPending_fu (s : State) (f : List Instr → List Instr) : (s.modPending f).fu = s.fu := rfl
@[simp] theorem State.modPending_rd (s : State) (f : List Instr → List Instr) : (s.modPending f).rd = s.rd := rfl
@[simp] theorem State.modPending_sl (s : State) (f : List Instr → List Instr) : (s.modPending f).sl = s.sl := rfl
@[simp] theorem State.modPending_hi (s : State) (f : List Instr → List Instr) : (s.modPending f).hi = s.hi := rfl
@[simp] theorem State.modPending_lg (s : State) (f : List Instr → List Instr) : (s.modPending f).lg = s.lg := rfl
@[simp] theorem State.modPending_freeCtr (s : State) (f : List Instr → List Instr) : (s.modPending f).freeCtr = s.freeCtr := rfl
@[simp] theorem State.modPending_pending (s : State) (f : List Instr → List Instr) : (s.modPending f).pending = f s.pending := rfl

end Sys2Proof.Machine
end

