-- ==== Sys2Proof/Laws/Registers.lean ====
section
/-! SUPPORT. What a read of the register file answers after each write, and that every write keeps its canonical form. -/
namespace Sys2Proof.Machine

/-! ## The list operations -/

theorem regGet_regIns_self (l : List (Nat × Nat)) (x v d : Nat) (h : ∀ e ∈ l, e.1 ≠ x) : regGet (regIns l x v) x d = v := by
  induction l with
  | nil => simp [regIns, regGet]
  | cons e t ih =>
    obtain ⟨k, w⟩ := e
    have hk : k ≠ x := h (k, w) (by simp)
    have ht : ∀ e ∈ t, e.1 ≠ x := fun e he => h e (by simp [he])
    unfold regIns
    split
    · simp [regGet]
    · simp [regGet, hk, ih ht]

theorem regGet_regIns_ne (l : List (Nat × Nat)) (x y v d : Nat) (h : x ≠ y) : regGet (regIns l x v) y d = regGet l y d := by
  induction l with
  | nil => simp [regIns, regGet, h]
  | cons e t ih =>
    obtain ⟨k, w⟩ := e
    unfold regIns
    split <;> simp [regGet, h, ih]

theorem regDel_ne (l : List (Nat × Nat)) (x : Nat) : ∀ e ∈ regDel l x, e.1 ≠ x := by
  intro e he
  simpa using (List.mem_filter.mp he).2

theorem regGet_none (l : List (Nat × Nat)) (x d : Nat) (h : ∀ e ∈ l, e.1 ≠ x) : regGet l x d = d := by
  induction l with
  | nil => rfl
  | cons e t ih =>
    obtain ⟨k, w⟩ := e
    have hk : k ≠ x := h (k, w) (by simp)
    simp [regGet, hk, ih fun e he => h e (by simp [he])]

theorem regGet_filter (l : List (Nat × Nat)) (p : Nat × Nat → Bool) (y d : Nat) (h : ∀ v, p (y, v) = true) :
    regGet (l.filter p) y d = regGet l y d := by
  induction l with
  | nil => rfl
  | cons e t ih =>
    obtain ⟨k, w⟩ := e
    by_cases hk : k = y
    · subst hk; simp [List.filter, h w, regGet]
    · by_cases hp : p (k, w) = true <;> simp [List.filter, hp, regGet, hk, ih]

theorem regGet_regDel_ne (l : List (Nat × Nat)) (x y d : Nat) (h : x ≠ y) : regGet (regDel l x) y d = regGet l y d :=
  regGet_filter l _ y d fun _ => by simpa using fun e => h e.symm

/-! ## Reads after a write -/

/-- A field reads what was written last, modulo its width. -/
theorem State.reg_setReg_self (s : State) (r : Row) (v i j : Nat) : (s.setReg r v i j).reg r i j = v % 2 ^ r.width := by
  unfold State.setReg State.reg
  dsimp only
  split
  · next h => rw [regGet_none _ _ _ (regDel_ne _ _), h]
  · exact regGet_regIns_self _ _ _ _ (regDel_ne _ _)

/-- A write leaves every field at another bit address alone. -/
theorem State.reg_setReg_ne (s : State) (r r' : Row) (v i j i' j' : Nat) (h : r.key i j ≠ r'.key i' j') :
    (s.setReg r v i j).reg r' i' j' = s.reg r' i' j' := by
  unfold State.setReg State.reg
  dsimp only
  split
  · exact regGet_regDel_ne _ _ _ _ h
  · rw [regGet_regIns_ne _ _ _ _ _ h, regGet_regDel_ne _ _ _ _ h]

/-- What a read answers after a write of any field. -/
theorem State.reg_setReg (s : State) (r r' : Row) (v i j i' j' : Nat) (hw : r.key i j = r'.key i' j' → r' = r ∧ i' = i ∧ j' = j) :
    (s.setReg r v i j).reg r' i' j' = if r.key i j = r'.key i' j' then v % 2 ^ r.width else s.reg r' i' j' := by
  split
  · next h => obtain ⟨rfl, rfl, rfl⟩ := hw h; exact s.reg_setReg_self _ _ _ _
  · next h => exact s.reg_setReg_ne _ _ _ _ _ _ _ h

/-- A range cleared leaves every field outside it alone. -/
theorem State.reg_clearRegs_out (s : State) (lo hi : Nat) (r : Row) (i j : Nat) (h : r.key i j < 8 * lo ∨ 8 * hi ≤ r.key i j) :
    (s.clearRegs lo hi).reg r i j = s.reg r i j := by
  unfold State.clearRegs State.reg
  exact regGet_filter _ _ _ _ fun _ => by simpa using h

/-- A field inside a cleared range reads its reset value. -/
theorem State.reg_clearRegs_in (s : State) (lo hi : Nat) (r : Row) (i j : Nat) (h : 8 * lo ≤ r.key i j) (h' : r.key i j < 8 * hi) :
    (s.clearRegs lo hi).reg r i j = r.resetAt i := by
  unfold State.clearRegs State.reg
  refine regGet_none _ _ _ fun e he hk => ?_
  have h2 := (List.mem_filter.mp he).2
  simp at h2
  omega

/-! ## The canonical form -/

theorem regSorted_iff (l : List (Nat × Nat)) : regSorted l = true ↔ l.Pairwise fun a b => a.1 < b.1 := by
  induction l with
  | nil => simp [regSorted]
  | cons a t ih =>
    cases t with
    | nil => simp [regSorted]
    | cons b t =>
      obtain ⟨k, v⟩ := a
      obtain ⟨k', v'⟩ := b
      simp only [regSorted, Bool.and_eq_true, decide_eq_true_eq, ih, List.pairwise_cons]
      constructor
      · rintro ⟨h, h2⟩
        refine ⟨fun e he => ?_, h2⟩
        rcases List.mem_cons.mp he with rfl | he
        · exact h
        · have := h2.1 e he; omega
      · rintro ⟨h, h2⟩
        exact ⟨h (k', v') (by simp), h2⟩

theorem regSorted_filter (l : List (Nat × Nat)) (p : Nat × Nat → Bool) (h : regSorted l = true) : regSorted (l.filter p) = true := by
  rw [regSorted_iff] at *
  exact h.filter p

theorem mem_regIns (l : List (Nat × Nat)) (x v : Nat) (e : Nat × Nat) : e ∈ regIns l x v ↔ e = (x, v) ∨ e ∈ l := by
  induction l with
  | nil => simp [regIns]
  | cons a t ih =>
    obtain ⟨k, w⟩ := a
    unfold regIns
    split
    · simp
    · simp [ih]; tauto

theorem regSorted_regIns (l : List (Nat × Nat)) (x v : Nat) (h : regSorted l = true) (hx : ∀ e ∈ l, e.1 ≠ x) :
    regSorted (regIns l x v) = true := by
  rw [regSorted_iff] at *
  induction l with
  | nil => simp [regIns]
  | cons a t ih =>
    obtain ⟨k, w⟩ := a
    have h' := List.pairwise_cons.mp h
    have hk : k ≠ x := hx (k, w) (by simp)
    unfold regIns
    split
    · next hlt =>
      refine List.pairwise_cons.mpr ⟨fun e he => ?_, h⟩
      rcases List.mem_cons.mp he with rfl | he
      · exact hlt
      · exact Nat.lt_trans hlt (h'.1 e he)
    · refine List.pairwise_cons.mpr ⟨fun e he => ?_, ih h'.2 fun e he => hx e (by simp [he])⟩
      rcases (mem_regIns _ _ _ _).mp he with rfl | he
      · dsimp only; omega
      · exact h'.1 e he

/-- A write keeps the register file sorted. -/
theorem State.setReg_sorted (s : State) (r : Row) (v i j : Nat) (h : regSorted s.regs = true) :
    regSorted (s.setReg r v i j).regs = true := by
  unfold State.setReg
  dsimp only
  split
  · exact regSorted_filter _ _ h
  · exact regSorted_regIns _ _ _ (regSorted_filter _ _ h) (regDel_ne _ _)

/-- Clearing a range keeps the register file sorted. -/
theorem State.clearRegs_sorted (s : State) (lo hi : Nat) (h : regSorted s.regs = true) : regSorted (s.clearRegs lo hi).regs = true :=
  regSorted_filter _ _ h

/-! ## A register write changes nothing beside the register file -/

@[simp] theorem State.setReg_part (s : State) (r : Row) (v i j : Nat) : (s.setReg r v i j).part = s.part := rfl
@[simp] theorem State.clearRegs_part (s : State) (lo hi : Nat) : (s.clearRegs lo hi).part = s.part := rfl
@[simp] theorem State.setReg_store (s : State) (r : Row) (v i j : Nat) : (s.setReg r v i j).store = s.store := rfl
@[simp] theorem State.clearRegs_store (s : State) (lo hi : Nat) : (s.clearRegs lo hi).store = s.store := rfl
@[simp] theorem State.setReg_pins (s : State) (r : Row) (v i j : Nat) : (s.setReg r v i j).pins = s.pins := rfl
@[simp] theorem State.clearRegs_pins (s : State) (lo hi : Nat) : (s.clearRegs lo hi).pins = s.pins := rfl
@[simp] theorem State.setReg_devtime (s : State) (r : Row) (v i j : Nat) : (s.setReg r v i j).devtime = s.devtime := rfl
@[simp] theorem State.clearRegs_devtime (s : State) (lo hi : Nat) : (s.clearRegs lo hi).devtime = s.devtime := rfl
@[simp] theorem State.setReg_frac (s : State) (r : Row) (v i j : Nat) : (s.setReg r v i j).frac = s.frac := rfl
@[simp] theorem State.clearRegs_frac (s : State) (lo hi : Nat) : (s.clearRegs lo hi).frac = s.frac := rfl
@[simp] theorem State.setReg_timers (s : State) (r : Row) (v i j : Nat) : (s.setReg r v i j).timers = s.timers := rfl
@[simp] theorem State.clearRegs_timers (s : State) (lo hi : Nat) : (s.clearRegs lo hi).timers = s.timers := rfl
@[simp] theorem State.setReg_keeper (s : State) (r : Row) (v i j : Nat) : (s.setReg r v i j).keeper = s.keeper := rfl
@[simp] theorem State.clearRegs_keeper (s : State) (lo hi : Nat) : (s.clearRegs lo hi).keeper = s.keeper := rfl
@[simp] theorem State.setReg_cv (s : State) (r : Row) (v i j : Nat) : (s.setReg r v i j).cv = s.cv := rfl
@[simp] theorem State.clearRegs_cv (s : State) (lo hi : Nat) : (s.clearRegs lo hi).cv = s.cv := rfl
@[simp] theorem State.setReg_roles (s : State) (r : Row) (v i j : Nat) : (s.setReg r v i j).roles = s.roles := rfl
@[simp] theorem State.clearRegs_roles (s : State) (lo hi : Nat) : (s.clearRegs lo hi).roles = s.roles := rfl
@[simp] theorem State.setReg_pp (s : State) (r : Row) (v i j : Nat) : (s.setReg r v i j).pp = s.pp := rfl
@[simp] theorem State.clearRegs_pp (s : State) (lo hi : Nat) : (s.clearRegs lo hi).pp = s.pp := rfl
@[simp] theorem State.setReg_ext (s : State) (r : Row) (v i j : Nat) : (s.setReg r v i j).ext = s.ext := rfl
@[simp] theorem State.clearRegs_ext (s : State) (lo hi : Nat) : (s.clearRegs lo hi).ext = s.ext := rfl
@[simp] theorem State.setReg_tmem (s : State) (r : Row) (v i j : Nat) : (s.setReg r v i j).tmem = s.tmem := rfl
@[simp] theorem State.clearRegs_tmem (s : State) (lo hi : Nat) : (s.clearRegs lo hi).tmem = s.tmem := rfl
@[simp] theorem State.setReg_scratch (s : State) (r : Row) (v i j : Nat) : (s.setReg r v i j).scratch = s.scratch := rfl
@[simp] theorem State.clearRegs_scratch (s : State) (lo hi : Nat) : (s.clearRegs lo hi).scratch = s.scratch := rfl
@[simp] theorem State.setReg_hostMem (s : State) (r : Row) (v i j : Nat) : (s.setReg r v i j).hostMem = s.hostMem := rfl
@[simp] theorem State.clearRegs_hostMem (s : State) (lo hi : Nat) : (s.clearRegs lo hi).hostMem = s.hostMem := rfl
@[simp] theorem State.setReg_mesh (s : State) (r : Row) (v i j : Nat) : (s.setReg r v i j).mesh = s.mesh := rfl
@[simp] theorem State.clearRegs_mesh (s : State) (lo hi : Nat) : (s.clearRegs lo hi).mesh = s.mesh := rfl
@[simp] theorem State.setReg_pal (s : State) (r : Row) (v i j : Nat) : (s.setReg r v i j).pal = s.pal := rfl
@[simp] theorem State.clearRegs_pal (s : State) (lo hi : Nat) : (s.clearRegs lo hi).pal = s.pal := rfl
@[simp] theorem State.setReg_ei (s : State) (r : Row) (v i j : Nat) : (s.setReg r v i j).ei = s.ei := rfl
@[simp] theorem State.clearRegs_ei (s : State) (lo hi : Nat) : (s.clearRegs lo hi).ei = s.ei := rfl
@[simp] theorem State.setReg_tm (s : State) (r : Row) (v i j : Nat) : (s.setReg r v i j).tm = s.tm := rfl
@[simp] theorem State.clearRegs_tm (s : State) (lo hi : Nat) : (s.clearRegs lo hi).tm = s.tm := rfl
@[simp] theorem State.setReg_sf (s : State) (r : Row) (v i j : Nat) : (s.setReg r v i j).sf = s.sf := rfl
@[simp] theorem State.clearRegs_sf (s : State) (lo hi : Nat) : (s.clearRegs lo hi).sf = s.sf := rfl
@[simp] theorem State.setReg_deParity (s : State) (r : Row) (v i j : Nat) : (s.setReg r v i j).deParity = s.deParity := rfl
@[simp] theorem State.clearRegs_deParity (s : State) (lo hi : Nat) : (s.clearRegs lo hi).deParity = s.deParity := rfl
@[simp] theorem State.setReg_xr (s : State) (r : Row) (v i j : Nat) : (s.setReg r v i j).xr = s.xr := rfl
@[simp] theorem State.clearRegs_xr (s : State) (lo hi : Nat) : (s.clearRegs lo hi).xr = s.xr := rfl
@[simp] theorem State.setReg_fu (s : State) (r : Row) (v i j : Nat) : (s.setReg r v i j).fu = s.fu := rfl
@[simp] theorem State.clearRegs_fu (s : State) (lo hi : Nat) : (s.clearRegs lo hi).fu = s.fu := rfl
@[simp] theorem State.setReg_rd (s : State) (r : Row) (v i j : Nat) : (s.setReg r v i j).rd = s.rd := rfl
@[simp] theorem State.clearRegs_rd (s : State) (lo hi : Nat) : (s.clearRegs lo hi).rd = s.rd := rfl
@[simp] theorem State.setReg_sl (s : State) (r : Row) (v i j : Nat) : (s.setReg r v i j).sl = s.sl := rfl
@[simp] theorem State.clearRegs_sl (s : State) (lo hi : Nat) : (s.clearRegs lo hi).sl = s.sl := rfl
@[simp] theorem State.setReg_hi (s : State) (r : Row) (v i j : Nat) : (s.setReg r v i j).hi = s.hi := rfl
@[simp] theorem State.clearRegs_hi (s : State) (lo hi : Nat) : (s.clearRegs lo hi).hi = s.hi := rfl
@[simp] theorem State.setReg_lg (s : State) (r : Row) (v i j : Nat) : (s.setReg r v i j).lg = s.lg := rfl
@[simp] theorem State.clearRegs_lg (s : State) (lo hi : Nat) : (s.clearRegs lo hi).lg = s.lg := rfl
@[simp] theorem State.setReg_freeCtr (s : State) (r : Row) (v i j : Nat) : (s.setReg r v i j).freeCtr = s.freeCtr := rfl
@[simp] theorem State.clearRegs_freeCtr (s : State) (lo hi : Nat) : (s.clearRegs lo hi).freeCtr = s.freeCtr := rfl
@[simp] theorem State.setReg_pending (s : State) (r : Row) (v i j : Nat) : (s.setReg r v i j).pending = s.pending := rfl
@[simp] theorem State.clearRegs_pending (s : State) (lo hi : Nat) : (s.clearRegs lo hi).pending = s.pending := rfl

/-! ## An update of another part leaves every register alone -/

@[simp] theorem State.reg_modPart (s : State) (f : Part → Part) (r : Row) (i j : Nat) : (s.modPart f).reg r i j = s.reg r i j := rfl
@[simp] theorem State.reg_modStore (s : State) (f : Store → Store) (r : Row) (i j : Nat) : (s.modStore f).reg r i j = s.reg r i j := rfl
@[simp] theorem State.reg_modPins (s : State) (f : Pins → Pins) (r : Row) (i j : Nat) : (s.modPins f).reg r i j = s.reg r i j := rfl
@[simp] theorem State.reg_modDevtime (s : State) (f : Nat → Nat) (r : Row) (i j : Nat) : (s.modDevtime f).reg r i j = s.reg r i j := rfl
@[simp] theorem State.reg_modFrac (s : State) (f : Nat → Nat) (r : Row) (i j : Nat) : (s.modFrac f).reg r i j = s.reg r i j := rfl
@[simp] theorem State.reg_modTimers (s : State) (f : List (Timer × Nat) → List (Timer × Nat)) (r : Row) (i j : Nat) : (s.modTimers f).reg r i j = s.reg r i j := rfl
@[simp] theorem State.reg_modKeeper (s : State) (f : Keeper → Keeper) (r : Row) (i j : Nat) : (s.modKeeper f).reg r i j = s.reg r i j := rfl
@[simp] theorem State.reg_modCv (s : State) (f : CanvasState → CanvasState) (r : Row) (i j : Nat) : (s.modCv f).reg r i j = s.reg r i j := rfl
@[simp] theorem State.reg_modRoles (s : State) (f : List Nat → List Nat) (r : Row) (i j : Nat) : (s.modRoles f).reg r i j = s.reg r i j := rfl
@[simp] theorem State.reg_modPp (s : State) (f : PlanProc → PlanProc) (r : Row) (i j : Nat) : (s.modPp f).reg r i j = s.reg r i j := rfl
@[simp] theorem State.reg_modExt (s : State) (f : Mem → Mem) (r : Row) (i j : Nat) : (s.modExt f).reg r i j = s.reg r i j := rfl
@[simp] theorem State.reg_modTmem (s : State) (f : Mem → Mem) (r : Row) (i j : Nat) : (s.modTmem f).reg r i j = s.reg r i j := rfl
@[simp] theorem State.reg_modScratch (s : State) (f : Mem → Mem) (r : Row) (i j : Nat) : (s.modScratch f).reg r i j = s.reg r i j := rfl
@[simp] theorem State.reg_modHostMem (s : State) (f : Mem → Mem) (r : Row) (i j : Nat) : (s.modHostMem f).reg r i j = s.reg r i j := rfl
@[simp] theorem State.reg_modMesh (s : State) (f : Mesh → Mesh) (r : Row) (i j : Nat) : (s.modMesh f).reg r i j = s.reg r i j := rfl
@[simp] theorem State.reg_modPal (s : State) (f : Palette → Palette) (r : Row) (i j : Nat) : (s.modPal f).reg r i j = s.reg r i j := rfl
@[simp] theorem State.reg_modEi (s : State) (f : Ingress → Ingress) (r : Row) (i j : Nat) : (s.modEi f).reg r i j = s.reg r i j := rfl
@[simp] theorem State.reg_modTm (s : State) (f : TimeRef → TimeRef) (r : Row) (i j : Nat) : (s.modTm f).reg r i j = s.reg r i j := rfl
@[simp] theorem State.reg_modSf (s : State) (f : Spiking → Spiking) (r : Row) (i j : Nat) : (s.modSf f).reg r i j = s.reg r i j := rfl
@[simp] theorem State.reg_modDeParity (s : State) (f : List (Nat × Nat) → List (Nat × Nat)) (r : Row) (i j : Nat) : (s.modDeParity f).reg r i j = s.reg r i j := rfl
@[simp] theorem State.reg_modXr (s : State) (f : Experts → Experts) (r : Row) (i j : Nat) : (s.modXr f).reg r i j = s.reg r i j := rfl
@[simp] theorem State.reg_modFu (s : State) (f : Fusion → Fusion) (r : Row) (i j : Nat) : (s.modFu f).reg r i j = s.reg r i j := rfl
@[simp] theorem State.reg_modRd (s : State) (f : Renderer → Renderer) (r : Row) (i j : Nat) : (s.modRd f).reg r i j = s.reg r i j := rfl
@[simp] theorem State.reg_modSl (s : State) (f : Span → Span) (r : Row) (i j : Nat) : (s.modSl f).reg r i j = s.reg r i j := rfl
@[simp] theorem State.reg_modHi (s : State) (f : HostIf → HostIf) (r : Row) (i j : Nat) : (s.modHi f).reg r i j = s.reg r i j := rfl
@[simp] theorem State.reg_modLg (s : State) (f : Ledger → Ledger) (r : Row) (i j : Nat) : (s.modLg f).reg r i j = s.reg r i j := rfl
@[simp] theorem State.reg_modFreeCtr (s : State) (f : Nat → Nat) (r : Row) (i j : Nat) : (s.modFreeCtr f).reg r i j = s.reg r i j := rfl
@[simp] theorem State.reg_modPending (s : State) (f : List Instr → List Instr) (r : Row) (i j : Nat) : (s.modPending f).reg r i j = s.reg r i j := rfl

end Sys2Proof.Machine
end

