-- ==== Sys2Proof/Laws/Memory.lean ====
section
/-! SUPPORT. Byte memories: reads after writes, and that every operation keeps the canonical form. -/
namespace Sys2Proof.Machine

/-! ## Lists of cells -/

theorem cellGet_none (l : List Host.Cell) (a : Nat) (h : ∀ c ∈ l, c.1 ≠ a) : cellGet l a = none := by
  induction l with
  | nil => rfl
  | cons c t ih =>
    obtain ⟨k, v⟩ := c
    have hk : k ≠ a := h (k, v) (by simp)
    simp [cellGet, hk, ih fun c hc => h c (by simp [hc])]

theorem cellGet_cellIns_self (l : List Host.Cell) (a : Nat) (v : Byte) (h : ∀ c ∈ l, c.1 ≠ a) :
    cellGet (cellIns l a v) a = some v := by
  induction l with
  | nil => simp [cellIns, cellGet]
  | cons c t ih =>
    obtain ⟨k, w⟩ := c
    have hk : k ≠ a := h (k, w) (by simp)
    unfold cellIns
    split
    · simp [cellGet]
    · simp [cellGet, hk, ih fun c hc => h c (by simp [hc])]

theorem cellGet_cellIns_ne (l : List Host.Cell) (a b : Nat) (v : Byte) (h : a ≠ b) : cellGet (cellIns l a v) b = cellGet l b := by
  induction l with
  | nil => simp [cellIns, cellGet, h]
  | cons c t ih =>
    obtain ⟨k, w⟩ := c
    unfold cellIns
    split <;> simp [cellGet, h, ih]

theorem cellGet_filter (l : List Host.Cell) (p : Host.Cell → Bool) (b : Nat) (h : ∀ v, p (b, v) = true) :
    cellGet (l.filter p) b = cellGet l b := by
  induction l with
  | nil => rfl
  | cons c t ih =>
    obtain ⟨k, w⟩ := c
    by_cases hk : k = b
    · subst hk; simp [List.filter, h w, cellGet]
    · by_cases hp : p (k, w) = true <;> simp [List.filter, hp, cellGet, hk, ih]

/-! ## Reads after writes -/

/-- A byte written is read back. -/
theorem Mem.read_write_self (m : Mem) (a : Nat) (v : Byte) : (m.write a v).read a = v := by
  have hf : ∀ c ∈ m.cells.filter fun c => decide (c.1 ≠ a), c.1 ≠ a := fun c hc => by
    simpa using (List.mem_filter.mp hc).2
  unfold Mem.write Mem.read
  dsimp only
  split
  · next h =>
    rw [cellGet_none _ _ hf]
    simp [Mem.unlisted, h.1, h.2]
  · rw [cellGet_cellIns_self _ _ _ hf]; rfl

/-- A write leaves every other byte alone. -/
theorem Mem.read_write_ne (m : Mem) (a b : Nat) (v : Byte) (h : a ≠ b) : (m.write a v).read b = m.read b := by
  have hp : ∀ v : Byte, (fun c : Host.Cell => decide (c.1 ≠ a)) (b, v) = true := fun _ => by simpa using fun e => h e.symm
  unfold Mem.write Mem.read
  dsimp only
  have hu : ∀ l : List Host.Cell, ({ m with cells := l } : Mem).unlisted b = m.unlisted b := fun _ => rfl
  rw [hu]
  split
  · rw [cellGet_filter _ _ _ hp]
  · rw [cellGet_cellIns_ne _ _ _ _ h, cellGet_filter _ _ _ hp]

theorem Mem.write_undef (m : Mem) (a : Nat) (v : Byte) : (m.write a v).undef = m.undef := rfl

/-- Writing bytes leaves every byte outside them alone. -/
theorem Mem.read_writeBytes_out (m : Mem) (a b : Nat) (l : List Byte) (h : b < a ∨ a + l.length ≤ b) :
    (m.writeBytes a l).read b = m.read b := by
  induction l generalizing m a with
  | nil => rfl
  | cons v t ih =>
    simp only [List.length_cons] at h
    unfold Mem.writeBytes
    rw [ih _ _ (by omega), m.read_write_ne _ _ _ (by omega)]

/-- Bytes written are read back. -/
theorem Mem.read_writeBytes_in (m : Mem) (a i : Nat) (l : List Byte) (h : i < l.length) :
    (m.writeBytes a l).read (a + i) = l[i] := by
  induction l generalizing m a i with
  | nil => simp at h
  | cons v t ih =>
    unfold Mem.writeBytes
    cases i with
    | zero => rw [Mem.read_writeBytes_out _ _ _ _ (by omega)]; exact m.read_write_self a v
    | succ i =>
      have := ih (m.write a v) (a + 1) i (by simpa using h)
      rw [show a + (i + 1) = a + 1 + i by omega, this]; rfl

/-- What is read where bytes have just been written. -/
theorem Mem.readBytes_writeBytes (m : Mem) (a : Nat) (l : List Byte) : (m.writeBytes a l).readBytes a l.length = l := by
  apply List.ext_getElem
  · simp [Mem.readBytes]
  · intro i h1 h2
    simp [Mem.readBytes, Mem.read_writeBytes_in, h2]

/-- Making a region undefined leaves every byte outside it alone. -/
theorem Mem.undefGen_makeUndef (m : Mem) (b n g a : Nat) (h : a < b ∨ b + n ≤ a) :
    undefGen (m.makeUndef b n g).undef a = undefGen m.undef a := by
  have key : ∀ l : List (Nat × Nat × Nat),
      undefGen (l.filter fun r => !(decide (b ≤ r.1) && decide (r.1 + r.2.1 ≤ b + n))) a = undefGen l a := by
    intro l
    induction l with
    | nil => rfl
    | cons r t ih =>
      obtain ⟨x, k, g'⟩ := r
      by_cases hin : b ≤ x ∧ x + k ≤ b + n
      · have : ¬(x ≤ a ∧ a < x + k) := by omega
        have hp : (!(decide (b ≤ x) && decide (x + k ≤ b + n))) = false := by simp [hin.1, hin.2]
        simp only [List.filter, hp, undefGen, if_neg this, ih]
      · have hp : (!(decide (b ≤ x) && decide (x + k ≤ b + n))) = true := by
          simp only [Bool.not_eq_true', Bool.and_eq_false_iff, decide_eq_false_iff_not]; tauto
        simp only [List.filter, hp, undefGen, ih]
  unfold Mem.makeUndef
  dsimp only
  split
  · rfl
  · have hn : ¬(b ≤ a ∧ a < b + n) := by omega
    simp only [undefGen, if_neg hn, key]

theorem Mem.read_makeUndef_out (m : Mem) (b n g a : Nat) (h : a < b ∨ b + n ≤ a) : (m.makeUndef b n g).read a = m.read a := by
  have hu : (m.makeUndef b n g).unlisted a = m.unlisted a := by
    unfold Mem.unlisted; rw [m.undefGen_makeUndef _ _ _ _ h]
  have hc : cellGet (m.makeUndef b n g).cells a = cellGet m.cells a := by
    refine cellGet_filter _ _ _ fun v => ?_
    simp only [inRange, Bool.not_eq_true', Bool.and_eq_false_iff, decide_eq_false_iff_not]
    omega
  unfold Mem.read; rw [hu, hc]

/-! ## The canonical form -/

theorem cellsSorted_iff (l : List Host.Cell) : cellsSorted l = true ↔ l.Pairwise fun a b => a.1 < b.1 := by
  induction l with
  | nil => simp [cellsSorted]
  | cons a t ih =>
    cases t with
    | nil => simp [cellsSorted]
    | cons b t =>
      obtain ⟨k, v⟩ := a
      obtain ⟨k', v'⟩ := b
      simp only [cellsSorted, Bool.and_eq_true, decide_eq_true_eq, ih, List.pairwise_cons]
      constructor
      · rintro ⟨h, h2⟩
        refine ⟨fun e he => ?_, h2⟩
        rcases List.mem_cons.mp he with rfl | he
        · exact h
        · have := h2.1 e he; omega
      · rintro ⟨h, h2⟩
        exact ⟨h (k', v') (by simp), h2⟩

theorem mem_cellIns (l : List Host.Cell) (a : Nat) (v : Byte) (c : Host.Cell) : c ∈ cellIns l a v ↔ c = (a, v) ∨ c ∈ l := by
  induction l with
  | nil => simp [cellIns]
  | cons e t ih =>
    obtain ⟨k, w⟩ := e
    unfold cellIns
    split
    · simp
    · simp [ih]; tauto

theorem cellsSorted_cellIns (l : List Host.Cell) (a : Nat) (v : Byte) (h : cellsSorted l = true) (hx : ∀ c ∈ l, c.1 ≠ a) :
    cellsSorted (cellIns l a v) = true := by
  rw [cellsSorted_iff] at *
  induction l with
  | nil => simp [cellIns]
  | cons e t ih =>
    obtain ⟨k, w⟩ := e
    have h' := List.pairwise_cons.mp h
    have hk : k ≠ a := hx (k, w) (by simp)
    unfold cellIns
    split
    · next hlt =>
      refine List.pairwise_cons.mpr ⟨fun e he => ?_, h⟩
      rcases List.mem_cons.mp he with rfl | he
      · exact hlt
      · exact Nat.lt_trans hlt (h'.1 e he)
    · refine List.pairwise_cons.mpr ⟨fun e he => ?_, ih h'.2 fun e he => hx e (by simp [he])⟩
      rcases (mem_cellIns _ _ _ _).mp he with rfl | he
      · dsimp only; omega
      · exact h'.1 e he

theorem Mem.wf_iff (m : Mem) :
    m.wf = true ↔ cellsSorted m.cells = true ∧ ∀ c ∈ m.cells, c.2 = 0 → undefGen m.undef c.1 ≠ none := by
  simp only [Mem.wf, Bool.and_eq_true, List.all_eq_true, Bool.not_eq_true', Bool.and_eq_false_iff, decide_eq_false_iff_not]
  refine and_congr_right fun _ => forall₂_congr fun c _ => ?_
  cases undefGen m.undef c.1 <;> simp

/-- A write keeps the canonical form. -/
theorem Mem.write_wf (m : Mem) (a : Nat) (v : Byte) (h : m.wf = true) : (m.write a v).wf = true := by
  rw [Mem.wf_iff] at *
  have hs : cellsSorted (m.cells.filter fun c => decide (c.1 ≠ a)) = true := by
    rw [cellsSorted_iff]; exact ((cellsSorted_iff _).mp h.1).filter _
  have hf : ∀ c ∈ m.cells.filter fun c => decide (c.1 ≠ a), c.1 ≠ a := fun c hc => by
    simpa using (List.mem_filter.mp hc).2
  unfold Mem.write
  dsimp only
  split
  · exact ⟨hs, fun c hc => h.2 c (List.mem_filter.mp hc).1⟩
  · next hn =>
    refine ⟨cellsSorted_cellIns _ _ _ hs hf, fun c hc h0 => ?_⟩
    rcases (mem_cellIns _ _ _ _).mp hc with rfl | hc
    · exact fun hu => hn ⟨hu, h0⟩
    · exact h.2 c (List.mem_filter.mp hc).1 h0

/-- Writing bytes keeps the canonical form. -/
theorem Mem.writeBytes_wf (m : Mem) (a : Nat) (l : List Byte) (h : m.wf = true) : (m.writeBytes a l).wf = true := by
  induction l generalizing m a with
  | nil => exact h
  | cons v t ih => exact ih _ _ (m.write_wf a v h)

/-- Writing a number keeps the canonical form. -/
theorem Mem.writeNat_wf (m : Mem) (a n v : Nat) (h : m.wf = true) : (m.writeNat a n v).wf = true := m.writeBytes_wf _ _ h

/-- Making a region undefined keeps the canonical form. -/
theorem Mem.makeUndef_wf (m : Mem) (b n g : Nat) (h : m.wf = true) : (m.makeUndef b n g).wf = true := by
  rw [Mem.wf_iff] at *
  have hout : ∀ c ∈ (m.makeUndef b n g).cells, c ∈ m.cells ∧ (c.1 < b ∨ b + n ≤ c.1) := fun c hc => by
    have := List.mem_filter.mp hc
    refine ⟨this.1, ?_⟩
    have h2 := this.2
    simp only [inRange, Bool.not_eq_true', Bool.and_eq_false_iff, decide_eq_false_iff_not] at h2
    omega
  refine ⟨?_, fun c hc h0 => ?_⟩
  · rw [cellsSorted_iff]; exact ((cellsSorted_iff _).mp h.1).filter _
  · rw [m.undefGen_makeUndef _ _ _ _ (hout c hc).2]
    exact h.2 c (hout c hc).1 h0

/-- A memory with nothing listed is in canonical form. -/
theorem Mem.empty_wf (u : List (Nat × Nat × Nat)) : ({ undef := u } : Mem).wf = true := rfl

end Sys2Proof.Machine
end

