-- ==== Sys2Proof/Laws/Stable.lean ====
section
/-! SUPPORT. What a shared operation can do, said once for all of them: a property of states that every update of one part keeps is
kept by every operation. -/
namespace Sys2Proof.Machine

/-- The fault stack's entries lie in different slots of its eight, at most one of them in hand (R466, R468). -/
def faultsSound (l : List FaultEntry) : Prop :=
  (l.map (·.slot)).Nodup ∧ (∀ e ∈ l, e.slot < 8) ∧ (l.filter fun e => e.state = 2).length ≤ 1

/-- A property of states that the updates of single parts keep. The updates of registers, memories and the ledger are those that keep
the part's own sound form; the part and the queue of commands are not updated. -/
structure Stable (P : State → Prop) : Prop where
  modStore : ∀ {s : State} {f}, P s → P (s.modStore f)
  modPins : ∀ {s : State} {f}, P s → P (s.modPins f)
  modDevtime : ∀ {s : State} {f}, P s → P (s.modDevtime f)
  modFrac : ∀ {s : State} {f}, P s → P (s.modFrac f)
  modTimers : ∀ {s : State} {f}, P s → P (s.modTimers f)
  modKeeper : ∀ {s : State} {f}, P s → P (s.modKeeper f)
  modCv : ∀ {s : State} {f}, P s → P (s.modCv f)
  modRoles : ∀ {s : State} {f}, P s → P (s.modRoles f)
  modPp : ∀ {s : State} {f}, P s → P (s.modPp f)
  modMesh : ∀ {s : State} {f}, P s → P (s.modMesh f)
  modPal : ∀ {s : State} {f}, P s → P (s.modPal f)
  modEi : ∀ {s : State} {f}, P s → P (s.modEi f)
  modTm : ∀ {s : State} {f}, P s → P (s.modTm f)
  modSf : ∀ {s : State} {f}, P s → P (s.modSf f)
  modDeParity : ∀ {s : State} {f}, P s → P (s.modDeParity f)
  modXr : ∀ {s : State} {f}, P s → P (s.modXr f)
  modFu : ∀ {s : State} {f}, P s → P (s.modFu f)
  modRd : ∀ {s : State} {f}, P s → P (s.modRd f)
  modSl : ∀ {s : State} {f}, P s → P (s.modSl f)
  modHi : ∀ {s : State} {f}, P s → P (s.modHi f)
  modFreeCtr : ∀ {s : State} {f}, P s → P (s.modFreeCtr f)
  putRegs : ∀ {s : State} {l}, (regSorted s.regs = true → regSorted l = true) → P s → P { s with regs := l }
  modExt : ∀ {s : State} {f}, (s.ext.wf = true → (f s.ext).wf = true) → P s → P (s.modExt f)
  modTmem : ∀ {s : State} {f}, (s.tmem.wf = true → (f s.tmem).wf = true) → P s → P (s.modTmem f)
  modScratch : ∀ {s : State} {f}, (s.scratch.wf = true → (f s.scratch).wf = true) → P s → P (s.modScratch f)
  modHostMem : ∀ {s : State} {f}, (s.hostMem.wf = true → (f s.hostMem).wf = true) → P s → P (s.modHostMem f)
  modLg : ∀ {s : State} {f}, (faultsSound s.lg.faults → faultsSound (f s.lg).faults) → P s → P (s.modLg f)
  fullReset : ∀ {s : State} {c}, P s → P (s.fullReset c)

/-- A property of the state that an outcome goes on in. -/
def OutAll (P : State → Prop) : Out → Prop
  | .next t => P t
  | _ => True

/-- A property of the state where there is one. -/
def OptAll (P : State → Prop) : Option State → Prop
  | some t => P t
  | none => True

variable {P : State → Prop}

theorem OptAll.some {t : State} (h : P t) : OptAll P (some t) := h

theorem OptAll.map {α : Type} {f : α → State} (h : ∀ a, P (f a)) {o : Option α} : OptAll P (o.map f) := by
  cases o
  · trivial
  · exact h _

theorem OutAll.next {t : State} (h : P t) : OutAll P (.next t) := h

theorem pairFst {α : Type} {t : State} {b : α} {e : State × α} (he : e = (t, b)) (h : P e.1) : P t := by subst he; exact h

theorem pairSnd {α : Type} {t : State} {b : α} {e : α × State} (he : e = (b, t)) (h : P e.2) : P t := by subst he; exact h

theorem mkFst {α : Type} {t : State} {b : α} (h : P t) : P (t, b).1 := h

theorem mkSnd {α : Type} {t : State} {b : α} (h : P t) : P (b, t).2 := h

/-- A fold keeps what each of its steps keeps. -/
theorem foldlKeeps {α : Type} {f : State → α → State} (hf : ∀ s a, P s → P (f s a)) (l : List α) {s : State} (h : P s) :
    P (l.foldl f s) := by
  induction l generalizing s with
  | nil => exact h
  | cons a t ih => exact ih (hf s a h)

theorem foldlFst {α β : Type} {f : State × β → α → State × β} (hf : ∀ x a, P x.1 → P (f x a).1) (l : List α) {x : State × β}
    (h : P x.1) : P (l.foldl f x).1 := by
  induction l generalizing x with
  | nil => exact h
  | cons a t ih => exact ih (hf x a h)

theorem foldlSnd {α β : Type} {f : β × State → α → β × State} (hf : ∀ x a, P x.2 → P (f x a).2) (l : List α) {x : β × State}
    (h : P x.2) : P (l.foldl f x).2 := by
  induction l generalizing x with
  | nil => exact h
  | cons a t ih => exact ih (hf x a h)

/-- The state that a command of the block leaves (R450). -/
theorem afterKeeps {o : Out} {s : State} (ho : OutAll P o) (h : P s) : P (Out.after o s) := by
  unfold Out.after
  split
  · exact ho
  · exact h

/-! ## The fault stack (R466 to R469) -/

/-- Entries in hand that all lie in one slot are at most one. -/
theorem inHand_le_one {l : List FaultEntry} {k : Nat} (hn : (l.map (·.slot)).Nodup)
    (h : ∀ e ∈ l, e.state = 2 → e.slot = k) : (l.filter fun e => e.state = 2).length ≤ 1 := by
  have hk : ∀ e ∈ l.filter fun e => e.state = 2, e.slot = k := fun e he => by
    obtain ⟨h1, h2⟩ := List.mem_filter.mp he
    exact h e h1 (by simpa using h2)
  have hd : ((l.filter fun e => e.state = 2).map (·.slot)).Nodup := hn.sublist (List.filter_sublist.map _)
  match hx : l.filter fun e => e.state = 2 with
  | [] => simp [hx]
  | [_] => simp [hx]
  | a :: b :: t =>
    rw [hx] at hk hd
    have ha := hk a (by simp)
    have hb := hk b (by simp)
    simp [ha, hb] at hd

/-- The entry in hand is the only one. -/
theorem faultsSound.inHand {l : List FaultEntry} (h : faultsSound l) {a b : FaultEntry} (ha : a ∈ l) (hb : b ∈ l)
    (ha2 : a.state = 2) (hb2 : b.state = 2) : a = b := by
  have h1 : a ∈ l.filter fun e => e.state = 2 := List.mem_filter.mpr ⟨ha, by simpa using ha2⟩
  have h2 : b ∈ l.filter fun e => e.state = 2 := List.mem_filter.mpr ⟨hb, by simpa using hb2⟩
  match hx : l.filter fun e => e.state = 2 with
  | [] => rw [hx] at h1; simp at h1
  | [c] => rw [hx] at h1 h2; simp at h1 h2; rw [h1, h2]
  | _ :: _ :: _ => have := h.2.2; rw [hx] at this; simp at this

theorem setFaultState_map_slot (l : List FaultEntry) (k st : Nat) : (setFaultState l k st).map (·.slot) = l.map (·.slot) := by
  unfold setFaultState
  rw [List.map_map]
  exact List.map_congr_left fun e _ => by simp only [Function.comp]; split <;> rfl

theorem mem_setFaultState {l : List FaultEntry} {k st : Nat} {e : FaultEntry} (h : e ∈ setFaultState l k st) :
    (e.slot = k ∧ e.state = st) ∨ (e ∈ l ∧ e.slot ≠ k) := by
  obtain ⟨x, hx, rfl⟩ := List.mem_map.mp h
  split
  · next hk => exact .inl ⟨hk, rfl⟩
  · next hk => exact .inr ⟨hx, hk⟩

theorem faultsSound.ofSlots {l m : List FaultEntry} (h : faultsSound l) (hs : m.map (·.slot) = l.map (·.slot))
    (hn : (m.filter fun e => e.state = 2).length ≤ 1) : faultsSound m := by
  refine ⟨hs ▸ h.1, fun e he => ?_, hn⟩
  have : e.slot ∈ l.map (·.slot) := hs ▸ List.mem_map_of_mem he
  obtain ⟨x, hx, hxs⟩ := List.mem_map.mp this
  exact hxs ▸ h.2.1 x hx

/-- Keeper takes an entry in hand when it has none. -/
theorem faultsSound.taken {l : List FaultEntry} {k : Nat} (h : faultsSound l) (hn : l.find? (·.state = 2) = none) :
    faultsSound (setFaultState l k 2) := by
  refine h.ofSlots (setFaultState_map_slot _ _ _) (inHand_le_one (k := k) (setFaultState_map_slot l k 2 ▸ h.1) fun e he h2 => ?_)
  rcases mem_setFaultState he with h1 | ⟨h1, -⟩
  · exact h1.1
  · have := List.find?_eq_none.mp hn e h1
    simp [h2] at this

/-- Keeper suspends the entry in hand and takes another. -/
theorem faultsSound.swapped {l : List FaultEntry} {x : FaultEntry} {k : Nat} (h : faultsSound l) (hx : l.find? (·.state = 2) = some x) :
    faultsSound (setFaultState (setFaultState l x.slot 1) k 2) := by
  have hs : (setFaultState (setFaultState l x.slot 1) k 2).map (·.slot) = l.map (·.slot) :=
    (setFaultState_map_slot _ _ _).trans (setFaultState_map_slot _ _ _)
  refine h.ofSlots hs (inHand_le_one (k := k) (hs ▸ h.1) fun e he h2 => ?_)
  rcases mem_setFaultState he with h1 | ⟨h1, -⟩
  · exact h1.1
  · rcases mem_setFaultState h1 with ⟨-, h3⟩ | ⟨h3, h4⟩
    · rw [h2] at h3; exact absurd h3 (by decide)
    · exact absurd (congrArg _ (h.inHand h3 (List.mem_of_find?_eq_some hx) h2 (by simpa using List.find?_some hx))) h4

/-- An entry is held. -/
theorem faultsSound.held {l : List FaultEntry} {k : Nat} (h : faultsSound l) : faultsSound (setFaultState l k 3) := by
  refine h.ofSlots (setFaultState_map_slot _ _ _) (Nat.le_trans ?_ h.2.2)
  clear h
  induction l with
  | nil => simp [setFaultState]
  | cons e t ih =>
    unfold setFaultState at ih ⊢
    simp only [List.map_cons, List.filter_cons]
    by_cases hk : e.slot = k <;> by_cases h2 : e.state = 2 <;> simp [hk, h2] at ih ⊢ <;> omega

/-- An entry retires. -/
theorem faultsSound.retired {l : List FaultEntry} {p : FaultEntry → Bool} (h : faultsSound l) : faultsSound (l.filter p) :=
  ⟨h.1.sublist (List.filter_sublist.map _), fun e he => h.2.1 e (List.mem_of_mem_filter he),
    Nat.le_trans (List.filter_sublist.filter _).length_le h.2.2⟩

theorem faultsSound.nil : faultsSound [] := ⟨by simp, by simp, by simp⟩

/-- A fault raised again counts in its entry. -/
theorem faultsSound.repeated {l : List FaultEntry} {k : Nat} {r : FaultEntry → Nat} (h : faultsSound l) :
    faultsSound (l.map fun x => if x.slot = k then { x with rep := r x } else x) := by
  refine h.ofSlots ?_ (Nat.le_trans ?_ h.2.2)
  · rw [List.map_map]
    exact List.map_congr_left fun e _ => by simp only [Function.comp]; split <;> rfl
  · rw [List.filter_map, List.length_map]
    exact le_of_eq (congrArg _ (List.filter_congr fun e _ => by simp only [Function.comp]; split <;> rfl))

/-- A fault raised first takes a free slot. -/
theorem faultsSound.raised {s : State} {k : Nat} {e : FaultEntry} (h : faultsSound s.lg.faults) (hk : s.freeFaultSlot = some k)
    (he : e.slot = k) (h1 : e.state ≠ 2) : faultsSound (s.lg.faults ++ [e]) := by
  have hf := List.find?_some hk
  have hr : k < 8 := List.mem_range.mp (List.mem_of_find?_eq_some hk)
  refine ⟨?_, ?_, ?_⟩
  · rw [List.map_append, List.nodup_append]
    refine ⟨h.1, by simp, fun a ha b hb => ?_⟩
    obtain ⟨x, hx, rfl⟩ := List.mem_map.mp ha
    simp only [List.map_cons, List.map_nil, List.mem_singleton] at hb
    subst hb
    have := List.all_eq_true.mp hf x hx
    simpa [he] using this
  · intro x hx
    rcases List.mem_append.mp hx with hx | hx
    · exact h.2.1 x hx
    · simp only [List.mem_singleton] at hx; subst hx; exact he ▸ hr
  · rw [List.filter_append]
    simpa [h1] using h.2.2

/-! ## Registers and memories -/

theorem Stable.setReg (hP : Stable P) {s : State} {r : Row} {v i j : Nat} (h : P s) : P (State.setReg s r v i j) :=
  hP.putRegs (fun hs => State.setReg_sorted s r v i j hs) h

theorem Stable.clearRegs (hP : Stable P) {s : State} {lo hi : Nat} (h : P s) : P (State.clearRegs s lo hi) :=
  hP.putRegs (fun hs => State.clearRegs_sorted s lo hi hs) h

end Sys2Proof.Machine
end

