-- ==== Sys2Proof/Laws/StableShared.lean ====
section
/-! SUPPORT. Every shared operation keeps what the updates of single parts keep, part one: the operations that several families use. -/
namespace Sys2Proof.Machine

variable {P : State → Prop}

/-! ## Machine/Ops.lean -/

theorem Stable.disarm (hP : Stable P) {s a2} (hs : P s) : P (State.disarm s a2) := by
  unfold State.disarm
  exact hP.modTimers hs

theorem Stable.camSyncFalls (hP : Stable P) {s} (hs : P s) : P (State.camSyncFalls s) := by
  unfold State.camSyncFalls
  split
  · exact hP.modPins (hP.disarm hs)
  · exact hs

theorem Stable.crystalCycle (hP : Stable P) {s} (hs : P s) : P (State.crystalCycle s) := by
  unfold State.crystalCycle
  split
  · extract_lets +onlyGivenNames -merge s0 s1
    clear_value s0 s1
    exact hP.camSyncFalls (hP.modDevtime (hP.modFrac (hP.modTm hs)))
  · exact hs

theorem Stable.setRegS (hP : Stable P) {s a2 a3 a4 a5} (hs : P s) : P (State.setRegS s a2 a3 a4 a5) := by
  unfold State.setRegS
  exact hP.setReg hs

theorem Stable.setRegs (hP : Stable P) {s a2 a3 a4} (hs : P s) : P (State.setRegs s a2 a3 a4) := by
  unfold State.setRegs
  exact foldlKeeps (fun _ _ x2 => hP.setReg x2) _ hs

theorem Stable.setFlag (hP : Stable P) {s a2 a3 a4 a5} (hs : P s) : P (State.setFlag s a2 a3 a4 a5) := by
  unfold State.setFlag
  exact hP.setReg hs

theorem Stable.create (hP : Stable P) {s a2} (hs : P s) : P (State.create s a2) := by
  unfold State.create
  exact hP.modLg (fun x => x) hs

theorem Stable.arm (hP : Stable P) {s a2 a3} (hs : P s) : P (State.arm s a2 a3) := by
  unfold State.arm
  exact hP.modTimers hs

theorem Stable.setRegBit (hP : Stable P) {s a2 a3 a4 a5 a6} (hs : P s) : P (State.setRegBit s a2 a3 a4 a5 a6) := by
  unfold State.setRegBit
  exact hP.setReg hs

theorem Stable.armAt (hP : Stable P) {s a2 a3} (hs : P s) : P (State.armAt s a2 a3) := by
  unfold State.armAt
  exact hP.modTimers hs

theorem Stable.vector (hP : Stable P) {s a2} (hs : P s) : P (State.vector s a2) := by
  unfold State.vector
  extract_lets +onlyGivenNames -merge s0 s1 s2
  clear_value s0 s1
  have hs2 : P s2 := hP.setRegBit hs
  clear_value s2
  split
  · exact hP.modHi hs2
  · exact hs2

theorem Stable.setCmd (hP : Stable P) {s a2 a3 a4} (hs : P s) : P (State.setCmd s a2 a3 a4) := by
  unfold State.setCmd
  split
  · exact hP.setReg hs
  · exact hs

theorem Stable.tick (hP : Stable P) {s} (hs : P s) : P (State.tick s) := by
  unfold State.tick
  exact hP.modFreeCtr hs

theorem Stable.takeItem (hP : Stable P) {s a2} (hs : P s) : P (State.takeItem s a2) := by
  unfold State.takeItem
  exact hP.modLg (fun x => x) (hP.create hs)

theorem Stable.bumpSat (hP : Stable P) {s a2 a3 a4 a5} (hs : P s) : P (State.bumpSat s a2 a3 a4 a5) := by
  unfold State.bumpSat
  exact hP.setReg hs

theorem Stable.bump (hP : Stable P) {s a2 a3 a4 a5} (hs : P s) : P (State.bump s a2 a3 a4 a5) := by
  unfold State.bump
  exact hP.setReg hs

theorem Stable.setRole (hP : Stable P) {s a2 a3} (hs : P s) : P (State.setRole s a2 a3) := by
  unfold State.setRole
  exact hP.modRoles hs

theorem Stable.tileWrite (hP : Stable P) {s a2 a3 a4} (hs : P s) : P (State.tileWrite s a2 a3 a4) := by
  unfold State.tileWrite
  exact hP.modTmem (Mem.writeBytes_wf _ _ _) hs

theorem Stable.tileWriteNat (hP : Stable P) {s a2 a3 a4 a5} (hs : P s) : P (State.tileWriteNat s a2 a3 a4 a5) := by
  unfold State.tileWriteNat
  exact hP.tileWrite hs

/-! ## Machine/QueueOps.lean -/

theorem Stable.gatherTimer (hP : Stable P) {s} (hs : P s) : P (State.gatherTimer s) := by
  unfold State.gatherTimer
  split
  · exact hP.armAt hs
  · exact hP.disarm hs

theorem Stable.gatherStarts (hP : Stable P) {s a2 a3} (hs : P s) : P (State.gatherStarts s a2 a3) := by
  unfold State.gatherStarts
  extract_lets +onlyGivenNames -merge s0
  clear_value s0
  split
  · extract_lets +onlyGivenNames -merge s1
    clear_value s1
    exact hP.gatherTimer (hP.modFu hs)
  · exact hs

theorem Stable.xoffPins (hP : Stable P) {s} (hs : P s) : P (State.xoffPins s) := by
  unfold State.xoffPins
  exact hP.modPins hs

theorem Stable.refreshXoff (hP : Stable P) {s} (hs : P s) : P (State.refreshXoff s) := by
  unfold State.refreshXoff
  exact hP.xoffPins (hP.setReg hs)

theorem Stable.modQueue (hP : Stable P) {s a2 a3} (hs : P s) : P (State.modQueue s a2 a3) := by
  unfold State.modQueue
  exact hP.modPal hs

theorem Stable.watermark (hP : Stable P) {s a2} (hs : P s) : P (State.watermark s a2) := by
  unfold State.watermark
  extract_lets +onlyGivenNames -merge s0 s1
  clear_value s0 s1
  exact hP.refreshXoff (hP.modQueue hs)

theorem Stable.poolLow (hP : Stable P) {s} (hs : P s) : P (State.poolLow s) := by
  unfold State.poolLow
  split
  · exact hP.setReg hs
  · exact hs

theorem Stable.landCell (hP : Stable P) {s a2 a3 a4 a5 a6} (hs : P s) : P (State.landCell s a2 a3 a4 a5 a6) := by
  unfold State.landCell
  extract_lets +onlyGivenNames -merge s0
  clear_value s0
  exact hP.gatherStarts (hP.watermark (hP.poolLow (hP.tick (hP.modQueue hs))))

theorem Stable.markerVector (hP : Stable P) {s a2} (hs : P s) : P (State.markerVector s a2) := by
  unfold State.markerVector
  split
  · exact hP.vector hs
  · exact hs

theorem Stable.dropPush (hP : Stable P) {s a2} (hs : P s) : P (State.dropPush s a2) := by
  unfold State.dropPush
  extract_lets +onlyGivenNames -merge s0 s1 s2
  clear_value s1 s2
  have hs0 : P s0 := hP.bump hs
  clear_value s0
  split
  · extract_lets +onlyGivenNames -merge s3
    clear_value s3
    exact hP.markerVector (hP.modQueue hs0)
  · split
    · extract_lets +onlyGivenNames -merge s4 s5
      clear_value s4 s5
      exact hP.modQueue hs0
    · extract_lets +onlyGivenNames -merge s6
      clear_value s6
      exact hP.modQueue (hP.bumpSat hs0)

theorem Stable.renameItem (hP : Stable P) {s a2 a3} (hs : P s) : P (State.renameItem s a2 a3) := by
  unfold State.renameItem
  split
  · exact hs
  · exact hP.modPal hs

theorem Stable.relinkMarker (hP : Stable P) {s a2} (hs : P s) : P (State.relinkMarker s a2) := by
  unfold State.relinkMarker
  extract_lets +onlyGivenNames -merge s0
  clear_value s0
  split
  · exact hs
  · extract_lets +onlyGivenNames -merge s1 s2 s3
    clear_value s1 s2 s3
    exact hP.markerVector (hP.modQueue (hP.setReg hs))

theorem Stable.releaseRetired (hP : Stable P) {s a2} (hs : P s) : P (State.releaseRetired s a2) := by
  unfold State.releaseRetired
  split
  · extract_lets +onlyGivenNames -merge s0
    have hs0 : P s0 := hP.modPal hs
    clear_value s0
    exact hP.refreshXoff (foldlKeeps (fun _ _ x3 => hP.setReg x3) _ hs0)
  · exact hs

theorem Stable.deliverHead (hP : Stable P) {s a2 a3 a4} (hs : P s) : P (State.deliverHead s a2 a3 a4) := by
  unfold State.deliverHead
  split
  · exact hs
  · extract_lets +onlyGivenNames -merge s0 s1 s2 s3 s4 s5
    clear_value s0 s2 s4
    have hs1 : P s1 := hP.modQueue hs
    have hs3 : P s3 := hP.modPal (hP.renameItem hs1)
    have hs5 : P s5 := by
      unfold s5
      split
      · exact hP.relinkMarker hs3
      · split
        · exact hP.bump (hP.modPal hs3)
        · exact hs3
    clear_value s1 s3 s5
    exact hP.releaseRetired (hP.watermark hs5)

theorem Stable.toDropper (hP : Stable P) {s a2} (hs : P s) : P (State.toDropper s a2) := by
  unfold State.toDropper
  split
  · exact hs
  · extract_lets +onlyGivenNames -merge s0
    have hs0 : P s0 := hP.deliverHead hs
    clear_value s0
    split
    · exact hP.modPal hs0
    · exact hs0

theorem Stable.handOver (hP : Stable P) {s a2 a3 a4 a5 a6 a7} (hs : P s) : P (State.handOver s a2 a3 a4 a5 a6 a7) := by
  unfold State.handOver
  extract_lets +onlyGivenNames -merge s0
  clear_value s0
  exact hP.deliverHead (hP.tick (hP.modQueue hs))

theorem Stable.push (hP : Stable P) {s a2 a3 a4 a5 a6 a7} (hs : P s) : P (State.push s a2 a3 a4 a5 a6 a7) := by
  unfold State.push
  extract_lets +onlyGivenNames -merge s0
  have hs0 : ∀ a0, P a0 → P (s0 a0) := fun _ x2 => hP.modQueue x2
  clear_value s0
  split
  · exact hP.setReg hs
  · extract_lets +onlyGivenNames -merge s3 s4
    clear_value s3
    have hs4 : P s4 := hP.dropPush (hs0 _ hs)
    clear_value s4
    split
    · exact hP.toDropper hs4
    · exact hs4
  · extract_lets +onlyGivenNames -merge s5
    have hs5 : P s5 := hs0 _ hs
    clear_value s5
    split
    · split
      · exact hP.bump hs5
      · exact hP.toDropper (hP.landCell hs5)
    · split
      · split
        · exact hP.handOver hs5
        · extract_lets +onlyGivenNames -merge s6
          have hs6 : P s6 := hP.landCell hs5
          clear_value s6
          split
          · exact hs6
          · exact hP.deliverHead hs6
      · exact hP.landCell hs5

theorem Stable.epochMark (hP : Stable P) {s a2 a3 a4 a5 a6} (hs : P s) : P (State.epochMark s a2 a3 a4 a5 a6) := by
  unfold State.epochMark
  split
  · exact hs
  · extract_lets +onlyGivenNames -merge s0
    clear_value s0
    exact hP.modPal (hP.push hs)

theorem Stable.pushAll (hP : Stable P) {s a2 a3 a4 a5 a6} (hs : P s) : P (State.pushAll s a2 a3 a4 a5 a6).2 := by
  induction a6 generalizing s a2 a3 a4 a5 with
  | nil =>
    unfold State.pushAll
    exact mkSnd hs
  | cons c0 l0 ih =>
    unfold State.pushAll
    extract_lets +onlyGivenNames -merge s0 s1 s2
    clear_value s0 s1
    have hs2 : P s2.2 := by
      unfold s2
      apply ih
      exact hP.push hs
    clear_value s2
    exact mkSnd hs2

theorem Stable.updateQueue (hP : Stable P) {s a2} (hs : P s) : P (State.updateQueue s a2) := by
  unfold State.updateQueue
  extract_lets +onlyGivenNames -merge s0
  have hs0 : ∀ a0 a1, P a0 → P (s0 a0 a1) := fun _ _ x3 => hP.setReg x3
  clear_value s0
  exact foldlKeeps (fun _ _ x6 => hs0 _ _ x6) _ hs

theorem Stable.clearPalette (hP : Stable P) {s} (hs : P s) : P (State.clearPalette s) := by
  unfold State.clearPalette
  exact hP.refreshXoff (hP.clearRegs (hP.modPal hs))

theorem Stable.retireQueue (hP : Stable P) {s a2} (hs : P s) : P (State.retireQueue s a2) := by
  unfold State.retireQueue
  exact hP.releaseRetired (hP.setReg (hP.setReg hs))

theorem Stable.forgetMarks (hP : Stable P) {s a2} (hs : P s) : P (State.forgetMarks s a2) := by
  unfold State.forgetMarks
  exact hP.modPal hs

theorem Stable.createQueue (hP : Stable P) {s a2 a3} (hs : P s) : P (State.createQueue s a2 a3) := by
  unfold State.createQueue
  extract_lets +onlyGivenNames -merge s0 s1 s2
  have hs0 : P s0 := hP.forgetMarks hs
  have hs1 : P s1 := hP.modPal hs0
  have hs2 : ∀ a0 a1, P a0 → P (s2 a0 a1) := fun _ _ x5 => hP.setReg x5
  clear_value s0 s1 s2
  exact hP.poolLow (foldlKeeps (fun _ _ x8 => hs2 _ _ x8) _ hs1)

theorem Stable.createLedgerQueue (hP : Stable P) {s} (hs : P s) : P (State.createLedgerQueue s) := by
  unfold State.createLedgerQueue
  extract_lets +onlyGivenNames -merge s0
  clear_value s0
  exact hP.tick (hP.createQueue hs)

theorem Stable.serveTakes (hP : Stable P) {s a2} (hs : P s) : P (State.serveTakes s a2) := by
  unfold State.serveTakes
  refine foldlKeeps ?_ _ ?_
  · intro _ _ x2
    split
    · exact hP.deliverHead x2
    · exact x2
  · exact hs

theorem Stable.freeHeld (hP : Stable P) {s a2 a3} (hs : P s) : P (State.freeHeld s a2 a3) := by
  unfold State.freeHeld
  extract_lets +onlyGivenNames -merge s0
  have hs0 : P s0 := hP.modPal hs
  clear_value s0
  exact hP.serveTakes (hP.setReg hs0)

/-! ## Machine/LedgerOps.lean -/

theorem Stable.setFaultN (hP : Stable P) {s a2} (hs : P s) : P (State.setFaultN s a2) := by
  unfold State.setFaultN
  exact hP.setFlag (hP.modPins hs)

theorem Stable.setReady (hP : Stable P) {s a2} (hs : P s) : P (State.setReady s a2) := by
  unfold State.setReady
  exact hP.setFlag (hP.modPins hs)

theorem Stable.markEnded (hP : Stable P) {s a2} (hs : P s) : P (State.markEnded s a2) := by
  unfold State.markEnded
  exact hP.modLg (fun x => x) hs

theorem Stable.report (hP : Stable P) {s a2 a3 a4 a5} (hs : P s) : P (State.report s a2 a3 a4 a5) := by
  unfold State.report
  split
  · extract_lets +onlyGivenNames -merge s0
    have hs0 : P s0 := hP.bump hs
    clear_value s0
    split
    · exact hP.modLg (fun x => x) hs0
    · exact hs0
  · split
    · exact hP.bump hs
    · extract_lets +onlyGivenNames -merge s1 s2
      have hs1 : P s1 := hP.markEnded hs
      have hs2 : P s2 := hP.modLg (fun x => x) hs1
      clear_value s1 s2
      exact hP.arm hs2

theorem Stable.reportAll (hP : Stable P) {s a2 a3 a4 a5} (hs : P s) : P (State.reportAll s a2 a3 a4 a5) := by
  unfold State.reportAll
  exact foldlKeeps (fun _ _ x2 => hP.report x2) _ hs

theorem Stable.copyHistory (hP : Stable P) {s a2 a3} (hs : P s) : P (State.copyHistory s a2 a3) := by
  unfold State.copyHistory
  extract_lets +onlyGivenNames -merge s0 s1 s6
  clear_value s0
  have hs1 : ∀ a0 a1 a2, P a0 → P (s1 a0 a1 a2) := fun _ _ _ x5 => hP.setReg x5
  have hs6 : P s6 := hs1 _ _ _ (hs1 _ _ _ (hs1 _ _ _ (hs1 _ _ _ hs)))
  clear_value s1 s6
  exact hP.bump (hP.setReg hs6)

theorem Stable.pushRecord (hP : Stable P) {s a2 a3 a4 a5 a6} (hs : P s) : P (State.pushRecord s a2 a3 a4 a5 a6) := by
  unfold State.pushRecord
  extract_lets +onlyGivenNames -merge s0 s1 s2 s3 s4 s5 s6 s7 s8 s9 s10 s11
  clear_value s0 s1 s5 s7 s11
  have hs2 : P s2 := hP.copyHistory (hP.bump hs)
  have hs3 : P s3 := by
    unfold s3
    split
    · exact hP.bump hs2
    · exact hs2
  have hs4 : P s4 := by
    unfold s4
    split
    · exact hP.bump hs3
    · exact hs3
  have hs6 : P s6 := hP.push hs4
  have hs8 : P s8 := hP.push hs6
  have hs9 : P s9 := by
    unfold s9
    split
    · split
      · exact hs8
      · exact hP.bump hs8
    · exact hP.bump (hP.push hs4)
  have hs10 : P s10 := by
    unfold s10
    split
    · exact hP.modHi hs9
    · exact hs9
  clear_value s2 s3 s4 s6 s8 s9 s10
  split
  · exact hP.vector hs10
  · exact hs10

theorem Stable.inform (hP : Stable P) {s a2 a3 a4 a5} (hs : P s) : P (State.inform s a2 a3 a4 a5) := by
  unfold State.inform
  exact hP.pushRecord hs

theorem Stable.startSentence (hP : Stable P) {s} (hs : P s) : P (State.startSentence s) := by
  unfold State.startSentence
  split
  · exact hs
  · split
    · exact hs
    · extract_lets +onlyGivenNames -merge s0 s1 s2
      clear_value s0 s1 s2
      exact hP.arm (hP.modHi hs)

theorem Stable.queueSentence (hP : Stable P) {s a2 a3 a4} (hs : P s) : P (State.queueSentence s a2 a3 a4).2 := by
  unfold State.queueSentence
  extract_lets +onlyGivenNames -merge s0
  clear_value s0
  split
  · exact mkSnd hs
  · split
    · exact mkSnd (hP.startSentence (hP.modHi hs))
    · extract_lets +onlyGivenNames -merge s1
      have hs1 : P s1 := hP.bump hs
      clear_value s1
      split
      · exact mkSnd (hP.modHi hs1)
      · exact mkSnd hs1

theorem Stable.alarm (hP : Stable P) {s a2 a3} (hs : P s) : P (State.alarm s a2 a3) := by
  unfold State.alarm
  extract_lets +onlyGivenNames -merge s0 s1
  clear_value s0 s1
  exact hP.queueSentence (hP.setReg hs)

theorem Stable.quiesceReports (hP : Stable P) {s a2 a3} (hs : P s) : P (State.quiesceReports s a2 a3) := by
  unfold State.quiesceReports
  extract_lets +onlyGivenNames -merge s0 s1 s2 s3 s4 s5 s6 s7 s8
  have hs0 : P s0 := hP.reportAll hs
  have hs1 : P s1 := hP.reportAll hs0
  have hs2 : P s2 := hP.reportAll hs1
  have hs3 : P s3 := hP.reportAll hs2
  have hs4 : P s4 := hP.reportAll hs3
  have hs5 : P s5 := hP.reportAll hs4
  have hs6 : P s6 := hP.reportAll hs5
  have hs7 : P s7 := hP.reportAll hs6
  have hs8 : P s8 := hP.reportAll hs7
  clear_value s0 s1 s2 s3 s4 s5 s6 s7 s8
  exact foldlKeeps (fun _ _ x11 => hP.report x11) _ hs8

theorem Stable.emptyQueues (hP : Stable P) {s} (hs : P s) : P (State.emptyQueues s) := by
  unfold State.emptyQueues
  exact hP.refreshXoff (hP.modPal hs)

theorem Stable.stopWork (hP : Stable P) {s} (hs : P s) : P (State.stopWork s) := by
  unfold State.stopWork
  extract_lets +onlyGivenNames -merge s0 s1 s2 s3 s4 s5 s6 s10 s11 s12 s13 s14 s15
  have hs0 : P s0 := hP.emptyQueues hs
  have hs1 : P s1 := hP.modPal hs0
  have hs2 : P s2 := hP.modEi hs1
  have hs3 : P s3 := hP.modPp hs2
  have hs4 : P s4 := hP.modXr hs3
  have hs5 : P s5 := hP.disarm (hP.modFu hs4)
  have hs6 : P s6 := foldlKeeps (fun _ _ x9 => hP.setReg x9) _ hs5
  have hs10 : P s10 := hP.modRd hs6
  have hs11 : P s11 := hP.setReg (hP.setReg hs10)
  have hs12 : P s12 := hP.modSl hs11
  have hs13 : P s13 := hP.modHi hs12
  have hs14 : P s14 := hP.setReg (hP.modMesh hs13)
  have hs15 : P s15 := hP.setReg hs14
  clear_value s0 s1 s2 s3 s4 s5 s6 s10 s11 s12 s13 s14 s15
  exact hP.setReg hs15

theorem Stable.quiesce (hP : Stable P) {s a2 a3 a4} (hs : P s) : P (State.quiesce s a2 a3 a4) := by
  unfold State.quiesce
  split
  · exact hs
  · extract_lets +onlyGivenNames -merge s0 s1 s2 s3
    clear_value s0
    have hs1 : P s1 := hP.setFaultN (hP.setReg (hP.setReg hs))
    have hs2 : P s2 := hP.alarm hs1
    have hs3 : P s3 := hP.quiesceReports hs2
    clear_value s1 s2 s3
    exact hP.arm (hP.stopWork hs3)

theorem Stable.storm (hP : Stable P) {s} (hs : P s) : P (State.storm s) := by
  unfold State.storm
  exact hP.quiesce (hP.bump hs)

theorem Stable.takeFault (hP : Stable P) {s} (hs : P s) : P (State.takeFault s) := by
  unfold State.takeFault
  split
  · exact hs
  · next hn _ => exact hP.modLg (fun h => h.taken hn) hs
  · next hn _ =>
    split
    · exact hP.bump (hP.modLg (fun h => h.swapped hn) hs)
    · exact hs

theorem Stable.raise (hP : Stable P) {s a2 a3 a4 a5} (hs : P s) : P (State.raise s a2 a3 a4 a5) := by
  unfold State.raise
  extract_lets +onlyGivenNames s0 many s1
  have h0 : P s0 := hP.modLg (fun h => h) hs
  have h1 : P s1 := by
    unfold s1
    split
    · exact hP.bump h0
    · exact h0
  clear_value s1
  split
  · extract_lets +onlyGivenNames s2
    have h2 : P s2 := hP.vector (hP.modLg faultsSound.repeated h1)
    split
    · exact hP.storm h2
    · exact h2
  · split
    · exact hP.storm h1
    · split
      · exact hP.storm h1
      · next k hk => exact hP.takeFault (hP.vector (hP.modLg (fun h => h.raised hk rfl (show (1 : Nat) ≠ 2 by decide)) h1))

theorem Stable.retireFault (hP : Stable P) {s a2} (hs : P s) : P (State.retireFault s a2) := by
  unfold State.retireFault
  exact hP.vector (hP.modLg faultsSound.retired hs)

theorem Stable.complete (hP : Stable P) {s a2 a3} (hs : P s) : P (State.complete s a2 a3) := by
  unfold State.complete
  split
  · exact hP.bump hs
  · extract_lets +onlyGivenNames -merge s0 s1
    clear_value s1
    have hs0 : P s0 := hP.markEnded hs
    clear_value s0
    split
    · exact hP.inform hs0
    · exact hs0

theorem Stable.pushHeld (hP : Stable P) {s} (hs : P s) : P (State.pushHeld s) := by
  unfold State.pushHeld
  refine foldlKeeps ?_ _ ?_
  · intro _ _ x2
    split
    · exact hP.pushRecord (hP.disarm (hP.modLg (fun x => x) x2))
    · exact x2
  · exact hs

/-! ## Machine/SpanOps.lean -/

theorem Stable.modSpan (hP : Stable P) {s a2 a3} (hs : P s) : P (State.modSpan s a2 a3) := by
  unfold State.modSpan
  exact hP.modSl hs

theorem Stable.queueEntry (hP : Stable P) {s a2 a3} (hs : P s) : P (State.queueEntry s a2 a3) := by
  unfold State.queueEntry
  split
  · exact hP.modSpan hs
  · exact hs

theorem Stable.returnCredit (hP : Stable P) {s} (hs : P s) : P (State.returnCredit s) := by
  unfold State.returnCredit
  extract_lets +onlyGivenNames -merge s0
  clear_value s0
  refine foldlKeeps ?_ _ ?_
  · intro _ _ x3
    extract_lets +onlyGivenNames -merge s4 s5
    clear_value s4
    have hs5 : P s5 := hP.modSl x3
    clear_value s5
    exact foldlKeeps (fun _ _ x8 => hP.queueEntry x8) _ hs5
  · exact hs

theorem Stable.ackTimer (hP : Stable P) {s a2} (hs : P s) : P (State.ackTimer s a2) := by
  unfold State.ackTimer
  split
  · exact hP.disarm hs
  · exact hP.armAt hs

theorem Stable.sendFrame (hP : Stable P) {s a2 a3} (hs : P s) : P (State.sendFrame s a2 a3) := by
  unfold State.sendFrame
  extract_lets +onlyGivenNames -merge s0 s1 s2
  clear_value s0 s1
  have hs2 : P s2 := hP.modSpan hs
  clear_value s2
  exact hP.ackTimer (hP.disarm (hP.bump hs2))

theorem Stable.pumpSide (hP : Stable P) {s a2 a3} (hs : P s) : P (State.pumpSide s a2 a3) := by
  induction a3 generalizing s a2 with
  | zero =>
    unfold State.pumpSide
    exact hs
  | succ k0 ih =>
    unfold State.pumpSide
    split
    · exact hs
    · extract_lets +onlyGivenNames -merge s0
      clear_value s0
      split
      · split
        · apply ih
          exact hP.sendFrame (hP.modSpan hs)
        · split
          · exact hs
          · extract_lets +onlyGivenNames -merge s1 s2
            clear_value s1 s2
            apply ih
            exact hP.sendFrame (hP.modSpan hs)
      · extract_lets +onlyGivenNames -merge s3 s4 s5
        clear_value s3 s4 s5
        apply ih
        exact hP.sendFrame (hP.modSpan hs)
      · exact hs

theorem Stable.pump (hP : Stable P) {s} (hs : P s) : P (State.pump s) := by
  unfold State.pump
  extract_lets +onlyGivenNames -merge s0 s1
  clear_value s1
  have hs0 : P s0 := hP.returnCredit hs
  clear_value s0
  exact hP.pumpSide (hP.pumpSide hs0)

theorem Stable.sendGrants (hP : Stable P) {s} (hs : P s) : P (State.sendGrants s) := by
  unfold State.sendGrants
  split
  · exact hs
  · extract_lets +onlyGivenNames -merge s0
    clear_value s0
    exact hP.pump (foldlKeeps (fun _ _ x3 => foldlKeeps (fun _ _ x6 => hP.queueEntry x6) _ x3) _ hs)

theorem Stable.refreshReach (hP : Stable P) {s} (hs : P s) : P (State.refreshReach s) := by
  unfold State.refreshReach
  extract_lets +onlyGivenNames -merge s0 s1 s2 s3
  clear_value s0 s1 s2
  have hs3 : P s3 := hP.setReg (hP.setReg hs)
  clear_value s3
  exact foldlKeeps (fun _ _ x6 => hP.raise x6) _ hs3

theorem Stable.train (hP : Stable P) {s a2} (hs : P s) : P (State.train s a2) := by
  unfold State.train
  extract_lets +onlyGivenNames -merge s0
  have hs0 : P s0 := hP.modSpan (hP.setReg hs)
  clear_value s0
  exact hP.refreshReach (hP.arm (hP.disarm hs0))

theorem Stable.removeBindings (hP : Stable P) {s pre} (hs : P s) : P (State.removeBindings s pre) := by
  unfold State.removeBindings
  extract_lets +onlyGivenNames -merge s0 s1 s2 s3 s4 s5 s6 s7
  clear_value s0 s1 s2 s3 s4 s5 s6 s7
  exact hP.modSl hs

/-! ## Machine/Registers.lean -/

theorem Stable.writeField (hP : Stable P) {s a2 a3 a4 a5} (hs : P s) : P (State.writeField s a2 a3 a4 a5) := by
  unfold State.writeField
  split
  · exact hs
  · split
    · exact hs
    · exact hP.setReg hs
    · exact hP.setReg hs
    · exact hP.setReg hs
    · exact hP.setReg hs
    · split
      · exact hP.setReg hs
      · exact hs
    · split
      · exact hP.setReg hs
      · exact hs

theorem Stable.writeHot (hP : Stable P) {s a2 a3} (hs : P s) : P (State.writeHot s a2 a3) := by
  unfold State.writeHot
  split
  · exact hs
  · extract_lets +onlyGivenNames -merge s0
    clear_value s0
    exact hP.modEi hs

theorem Stable.writeWord (hP : Stable P) {s a2 a3} (hs : P s) : P (State.writeWord s a2 a3) := by
  unfold State.writeWord
  extract_lets +onlyGivenNames -merge s0 s4 s5 s6
  have hs0 : P s0 := by
    unfold s0
    refine foldlKeeps ?_ _ ?_
    · intro _ _ x3
      split
      · exact hP.writeField x3
      · assumption
    · exact hs
  have hs4 : P s4 := by
    unfold s4
    split
    · exact hP.setReg hs0
    · exact hs0
  have hs5 : P s5 := by
    unfold s5
    split
    · exact hP.forgetMarks hs4
    · exact hs4
  have hs6 : P s6 := by
    unfold s6
    split
    · exact hP.writeHot hs5
    · exact hs5
  clear_value s0 s4 s5 s6
  exact hP.refreshXoff hs6

theorem Stable.execWindowsRead (hP : Stable P) {s} (hs : P s) : OutAll P (Machine.execWindowsRead s) := by
  unfold Machine.execWindowsRead
  exact OutAll.next (hP.setReg hs)

theorem Stable.execDevtimeRead (hP : Stable P) {s} (hs : P s) : OutAll P (Machine.execDevtimeRead s) := by
  unfold Machine.execDevtimeRead
  exact OutAll.next (hP.setReg hs)

/-! ## Machine/Responses.lean -/

theorem Stable.ringWrite (hP : Stable P) {s a2 a3 a4 a5 a6} (hs : P s) : P (State.ringWrite s a2 a3 a4 a5 a6) := by
  unfold State.ringWrite
  extract_lets +onlyGivenNames -merge s0 s1 s2
  clear_value s0 s1
  have hs2 : P s2 := hP.modHostMem (Mem.writeBytes_wf _ _ _) hs
  clear_value s2
  split
  · exact hP.modHi hs2
  · exact hs2

theorem Stable.writeResponse (hP : Stable P) {s a2} (hs : P s) : P (State.writeResponse s a2) := by
  unfold State.writeResponse
  extract_lets +onlyGivenNames -merge s0 s1 s2 s3
  clear_value s0 s1
  have hs2 : P s2 := hP.ringWrite hs
  have hs3 : P s3 := hP.bump (hP.setReg hs2)
  clear_value s2 s3
  refine hP.vector ?_
  split
  · exact hP.complete hs3
  · exact hs3

theorem Stable.flushResponses (hP : Stable P) {s a2} (hs : P s) : P (State.flushResponses s a2) := by
  induction a2 generalizing s with
  | zero =>
    unfold State.flushResponses
    exact hs
  | succ k0 ih =>
    unfold State.flushResponses
    split
    · exact hs
    · split
      · apply ih
        exact hP.writeResponse (hP.modHi hs)
      · exact hs

theorem Stable.flushSpi (hP : Stable P) {s a2} (hs : P s) : P (State.flushSpi s a2) := by
  induction a2 generalizing s with
  | zero =>
    unfold State.flushSpi
    exact hs
  | succ k0 ih =>
    unfold State.flushSpi
    split
    · exact hs
    · split
      · extract_lets +onlyGivenNames -merge s0 s1
        clear_value s0
        have hs1 : P s1 := hP.bump (hP.tick (hP.modHi hs))
        clear_value s1
        apply ih
        split
        · exact hP.complete hs1
        · exact hs1
      · exact hs

theorem Stable.respond (hP : Stable P) {s a2 a3 a4} (hs : P s) : P (State.respond s a2 a3 a4) := by
  unfold State.respond
  extract_lets +onlyGivenNames -merge s0
  clear_value s0
  split
  · extract_lets +onlyGivenNames -merge s1
    have hs1 : P s1 := hP.modHi hs
    clear_value s1
    exact hP.flushSpi hs1
  · split
    · extract_lets +onlyGivenNames -merge s2
      have hs2 : P s2 := hP.modHi hs
      clear_value s2
      exact hP.flushResponses hs2
    · exact hP.bump hs

theorem Stable.answer (hP : Stable P) {s a2 a3 a4} (hs : P s) : P (State.answer s a2 a3 a4) := by
  unfold State.answer
  extract_lets +onlyGivenNames -merge s0 s1 s2 s3 s4
  clear_value s0 s1 s3
  have hs2 : P s2 := hP.modHi hs
  have hs4 : P s4 := hP.modHi hs2
  clear_value s2 s4
  exact foldlKeeps (fun _ _ x7 => hP.respond x7) _ (hP.respond hs4)

/-! ## Machine/Power.lean -/

theorem Stable.hbToggle (hP : Stable P) {s} (hs : P s) : P (State.hbToggle s) := by
  unfold State.hbToggle
  exact hP.modPins hs

theorem Stable.hbCodeEdge (hP : Stable P) {s} (hs : P s) : P (State.hbCodeEdge s) := by
  unfold State.hbCodeEdge
  split
  · extract_lets +onlyGivenNames -merge s0 s1 s2
    clear_value s0 s1
    have hs2 : P s2 := hP.modKeeper (hP.hbToggle hs)
    clear_value s2
    exact hP.arm hs2
  · exact hP.arm (hP.hbToggle hs)

theorem Stable.domRefuse (hP : Stable P) {s a2 a3} (hs : P s) : P (State.domRefuse s a2 a3) := by
  unfold State.domRefuse
  exact hP.setReg (hP.setReg (hP.setReg hs))

theorem Stable.losePort (hP : Stable P) {s a2} (hs : P s) : P (State.losePort s a2) := by
  unfold State.losePort
  exact hP.modEi (hP.clearRegs hs)

theorem Stable.loseAer (hP : Stable P) {s} (hs : P s) : P (State.loseAer s) := by
  unfold State.loseAer
  exact hP.disarm (hP.disarm (hP.modEi (hP.clearRegs hs)))

theorem Stable.loseThermal (hP : Stable P) {s a2} (hs : P s) : P (State.loseThermal s a2) := by
  unfold State.loseThermal
  exact hP.modEi (hP.clearRegs hs)

theorem Stable.loseFusion (hP : Stable P) {s} (hs : P s) : P (State.loseFusion s) := by
  unfold State.loseFusion
  extract_lets +onlyGivenNames -merge s0
  have hs0 : P s0 := hP.modFu hs
  clear_value s0
  refine foldlKeeps ?_ _ ?_
  · intro _ _ x3
    split
    · exact x3
    · exact foldlKeeps (fun _ _ x6 => foldlKeeps (fun _ _ x9 => hP.setReg x9) _ x6) _ x3
  · exact hs0

theorem Stable.loseLinks (hP : Stable P) {s} (hs : P s) : P (State.loseLinks s) := by
  unfold State.loseLinks
  extract_lets +onlyGivenNames -merge s0 s1 s2 s3 s7
  clear_value s0 s2
  have hs1 : P s1 := hP.setReg (hP.setReg hs)
  have hs3 : P s3 := foldlKeeps (fun _ _ x6 => hP.setReg (hP.setReg x6)) _ hs1
  have hs7 : P s7 := foldlKeeps (fun _ _ x10 => hP.disarm (hP.disarm (hP.disarm (hP.disarm x10)))) _ hs3
  clear_value s1 s3 s7
  exact hP.modSl hs7

theorem Stable.loseTile (hP : Stable P) {s a2} (hs : P s) : P (State.loseTile s a2) := by
  unfold State.loseTile
  exact hP.tick (hP.modTmem (Mem.makeUndef_wf _ _ _ _) hs)

theorem Stable.domLost (hP : Stable P) {s a2} (hs : P s) : P (State.domLost s a2) := by
  unfold State.domLost
  split
  · exact hP.modPins (hP.modHi (hP.clearRegs hs))
  · split
    · exact hP.losePort (hP.losePort hs)
    · split
      · exact hP.loseAer (hP.loseThermal (hP.loseThermal (hP.losePort (hP.losePort hs))))
      · split
        · exact hP.clearPalette hs
        · split
          · exact hP.tick (hP.modScratch (Mem.makeUndef_wf _ _ _ _) (hP.modXr (hP.modPp (hP.clearRegs hs))))
          · split
            · exact hP.loseFusion hs
            · split
              · exact hP.modPins (hP.modRd (hP.clearRegs hs))
              · split
                · exact hP.modPins (hP.loseLinks hs)
                · split
                  · exact foldlKeeps (fun _ _ x2 => hP.loseTile x2) _ hs
                  · exact hs

theorem Stable.showDom (hP : Stable P) {s a2 a3} (hs : P s) : P (State.showDom s a2 a3) := by
  unfold State.showDom
  exact hP.setRegBit hs

theorem Stable.domOff (hP : Stable P) {s a2} (hs : P s) : P (State.domOff s a2) := by
  unfold State.domOff
  extract_lets +onlyGivenNames -merge s0
  have hs0 : P s0 := hP.modKeeper hs
  clear_value s0
  exact hP.domLost (hP.showDom (hP.disarm hs0))

theorem Stable.domSleep (hP : Stable P) {s a2} (hs : P s) : P (State.domSleep s a2) := by
  unfold State.domSleep
  extract_lets +onlyGivenNames -merge s0 s1
  clear_value s0
  have hs1 : P s1 := by
    unfold s1
    split
    · exact hP.refreshReach (hP.setReg (hP.setReg hs))
    · exact hs
  clear_value s1
  exact hP.arm (hP.modKeeper (hP.domOff hs1))

theorem Stable.domHeld (hP : Stable P) {s a2} (hs : P s) : P (State.domHeld s a2) := by
  unfold State.domHeld
  extract_lets +onlyGivenNames -merge s0
  clear_value s0
  split
  · exact hP.setRegBit (hP.domRefuse hs)
  · split
    · exact hP.domSleep hs
    · exact hs

theorem Stable.domWake (hP : Stable P) {s a2} (hs : P s) : P (State.domWake s a2) := by
  unfold State.domWake
  extract_lets +onlyGivenNames -merge s0
  clear_value s0
  exact hP.arm (hP.modKeeper hs)

theorem Stable.domNext (hP : Stable P) {s a2} (hs : P s) : P (State.domNext s a2) := by
  induction a2 generalizing s with
  | nil =>
    unfold State.domNext
    exact hP.modKeeper hs
  | cons c0 l0 ih =>
    unfold State.domNext
    split
    · apply ih
      exact hs
    · split
      · exact hP.domWake (hP.modKeeper hs)
      · apply ih
        exact hP.setRegBit (hP.domRefuse hs)

theorem Stable.domApply (hP : Stable P) {s} (hs : P s) : P (State.domApply s) := by
  unfold State.domApply
  extract_lets +onlyGivenNames -merge s0 s1 s2 s6
  clear_value s0 s1
  have hs2 : P s2 := foldlKeeps (fun _ _ x5 => hP.domHeld x5) _ hs
  have hs6 : P s6 := foldlKeeps (fun _ _ x9 => hP.domHeld x9) _ hs2
  clear_value s2 s6
  exact hP.domNext hs6

theorem Stable.domReady (hP : Stable P) {s a2} (hs : P s) : P (State.domReady s a2) := by
  unfold State.domReady
  extract_lets +onlyGivenNames -merge s0 s1 s2
  have hs0 : P s0 := hP.modKeeper hs
  have hs1 : P s1 := by
    unfold s1
    split
    · exact hP.domLost hs0
    · exact hs0
  have hs2 : P s2 := hP.showDom (hP.disarm hs1)
  clear_value s0 s1 s2
  split
  · exact hP.createLedgerQueue hs2
  · split
    · exact hP.modPins hs2
    · split
      · exact hP.modPins hs2
      · split
        · extract_lets +onlyGivenNames -merge s3
          have hs3 : P s3 := hP.modPins hs2
          clear_value s3
          refine foldlKeeps ?_ _ ?_
          · intro _ _ x6
            split
            · exact hP.train x6
            · exact x6
          · exact hs3
        · exact hs2

theorem Stable.domAdmit (hP : Stable P) {s a2 a3} (hs : P s) : P (State.domAdmit s a2 a3).2 := by
  unfold State.domAdmit
  split
  · exact mkSnd (hP.domRefuse hs)
  · extract_lets +onlyGivenNames -merge s0 s1 s2
    clear_value s0 s1
    have hs2 : P s2 := hP.setReg hs
    clear_value s2
    split
    · exact mkSnd (hP.domNext (foldlKeeps (fun _ _ x5 => hP.domSleep x5) _ hs2))
    · exact mkSnd hs2

theorem Stable.domDrain (hP : Stable P) {s a2} (hs : P s) : P (State.domDrain s a2) := by
  induction a2 generalizing s with
  | nil =>
    unfold State.domDrain
    exact hP.modKeeper hs
  | cons c0 l0 ih =>
    unfold State.domDrain
    extract_lets +onlyGivenNames -merge s0
    have hs0 : P s0 := hP.domAdmit hs
    clear_value s0
    split
    · exact hP.modKeeper hs0
    · apply ih
      exact hs0

theorem Stable.domServed (hP : Stable P) {s a2} (hs : P s) : P (State.domServed s a2) := by
  unfold State.domServed
  split
  · extract_lets +onlyGivenNames -merge s0
    have hs0 : P s0 := hP.domNext hs
    clear_value s0
    split
    · exact hs0
    · exact hP.domDrain hs0
  · exact hs

theorem Stable.hbRunEdge (hP : Stable P) {s} (hs : P s) : P (State.hbRunEdge s) := by
  unfold State.hbRunEdge
  split
  · extract_lets +onlyGivenNames -merge s0
    have hs0 : P s0 := hP.setReg (hP.hbToggle hs)
    clear_value s0
    exact hP.arm hs0
  · exact hP.arm (hP.setReg hs)

theorem Stable.execHeartbeatEdge (hP : Stable P) {s} (hs : P s) : OutAll P (Machine.execHeartbeatEdge s) := by
  unfold Machine.execHeartbeatEdge
  refine OutAll.next ?_
  split
  · exact hs
  · split
    · exact hP.hbCodeEdge hs
    · split
      · exact hP.hbRunEdge hs
      · exact hs

theorem Stable.tripPins (hP : Stable P) {s} (hs : P s) : P (State.tripPins s) := by
  unfold State.tripPins
  exact hP.xoffPins (hP.modKeeper (hP.modPins hs))

theorem Stable.execPowerPeakClr (hP : Stable P) {s} (hs : P s) : OutAll P (Machine.execPowerPeakClr s) := by
  unfold Machine.execPowerPeakClr
  exact OutAll.next (hP.setReg (hP.setCmd hs))

theorem Stable.execPerstN (hP : Stable P) {a1 s} (hs : P s) : OutAll P (Machine.execPerstN a1 s) := by
  unfold Machine.execPerstN
  extract_lets +onlyGivenNames -merge s0
  have hs0 : P s0 := hP.modPins hs
  clear_value s0
  refine OutAll.next ?_
  split
  · exact hP.setReg (hP.setReg (hP.setReg hs0))
  · exact hs0

theorem Stable.domOnNow (hP : Stable P) {s a2} (hs : P s) : P (State.domOnNow s a2) := by
  unfold State.domOnNow
  split
  · exact hs
  · exact hP.domReady hs

theorem Stable.domRequest (hP : Stable P) {s a2 a3} (hs : P s) : P (State.domRequest s a2 a3) := by
  unfold State.domRequest
  split
  · exact hP.modKeeper hs
  · exact hP.domAdmit hs

theorem Stable.clearCanvas (hP : Stable P) {s} (hs : P s) : P (State.clearCanvas s) := by
  unfold State.clearCanvas
  extract_lets +onlyGivenNames -merge s0 s1 s2 s6
  clear_value s1
  have hs0 : P s0 := hP.modRoles (hP.modCv hs)
  have hs2 : P s2 := foldlKeeps (fun _ _ x5 => hP.setReg x5) _ hs0
  have hs6 : P s6 := hP.setRegs (hP.setRegs hs2)
  clear_value s0 s2 s6
  exact hP.modPp (hP.modMesh hs6)

theorem Stable.startCode (hP : Stable P) {s} (hs : P s) : P (State.startCode s) := by
  unfold State.startCode
  extract_lets +onlyGivenNames -merge s0
  have hs0 : P s0 := hP.modKeeper hs
  clear_value s0
  exact hP.arm (hP.setReg (hP.modPins hs0))

theorem Stable.enterGesso (hP : Stable P) {s a2} (hs : P s) : P (State.enterGesso s a2) := by
  unfold State.enterGesso
  extract_lets +onlyGivenNames -merge s0 s1 s5 s6 s7 s8 s9 s10 s11 s12
  clear_value s0 s7
  have hs1 : P s1 := by
    unfold s1
    refine foldlKeeps ?_ _ ?_
    · intro _ _ x4
      split
      · exact hP.domOff x4
      · assumption
    · exact hs
  have hs5 : P s5 := hP.domOnNow (hP.domOnNow (hP.domOnNow hs1))
  have hs6 : P s6 := hP.clearCanvas hs5
  have hs8 : P s8 := hP.domDrain (hP.modKeeper hs6)
  have hs9 : P s9 := hP.setReg (hP.setReg hs8)
  have hs10 : P s10 := hP.setFaultN (hP.setReady hs9)
  have hs11 : P s11 := hP.modPins hs10
  have hs12 : P s12 := hP.vector (hP.refreshXoff (hP.startCode hs11))
  clear_value s1 s5 s6 s8 s9 s10 s11 s12
  split
  · exact hs12
  · exact hP.arm hs12

theorem Stable.execDomainRequest (hP : Stable P) {a1 a2 s} (hs : P s) : OutAll P (Machine.execDomainRequest a1 a2 s) := by
  unfold Machine.execDomainRequest
  refine OutAll.next ?_
  split
  · exact hP.domRequest hs
  · exact hs

theorem Stable.clearCore (hP : Stable P) {s} (hs : P s) : P (State.clearCore s) := by
  unfold State.clearCore
  exact hP.clearRegs (hP.clearRegs hs)

theorem Stable.domBoot (hP : Stable P) {s a2} (hs : P s) : P (State.domBoot s a2) := by
  unfold State.domBoot
  split
  · exact hs
  · split
    · exact hP.domReady hs
    · exact hP.setRegBit (hP.domRefuse hs)

theorem Stable.dropCore (hP : Stable P) {s} (hs : P s) : P (State.dropCore s) := by
  unfold State.dropCore
  extract_lets +onlyGivenNames -merge s0
  have hs0 : P s0 := hP.modFu (hP.modXr (hP.modSf (hP.modEi hs)))
  clear_value s0
  exact hP.modDeParity (hP.modSl (hP.modRd hs0))

theorem Stable.corePins (hP : Stable P) {s} (hs : P s) : P (State.corePins s) := by
  unfold State.corePins
  exact hP.xoffPins (hP.setReady (hP.modPins hs))

theorem Stable.coreReset (hP : Stable P) {s} (hs : P s) : P (State.coreReset s) := by
  unfold State.coreReset
  extract_lets +onlyGivenNames -merge s0 s4 s5 s6 s7 s8 s9
  have hs0 : P s0 := by
    unfold s0
    refine foldlKeeps ?_ _ ?_
    · intro _ _ x3
      split
      · exact hP.domOff x3
      · assumption
    · exact hs
  have hs4 : P s4 := hP.clearPalette (hP.clearCanvas (hP.dropCore (hP.clearCore hs0)))
  have hs5 : P s5 := hP.modTimers hs4
  have hs6 : P s6 := hP.modLg (fun x => x) hs5
  have hs7 : P s7 := hP.setReg (hP.setReg (hP.setReg hs6))
  have hs8 : P s8 := hP.modKeeper hs7
  have hs9 : P s9 := hP.setReg hs8
  clear_value s0 s4 s5 s6 s7 s8 s9
  exact hP.corePins (hP.setReg (hP.setReg hs9))

theorem Stable.execResetNAssert (hP : Stable P) {s} (hs : P s) : OutAll P (Machine.execResetNAssert s) := by
  unfold Machine.execResetNAssert
  split
  · exact OutAll.next (hP.modPins hs)
  · exact OutAll.next (hP.modPins (hP.fullReset hs))

theorem Stable.execPowerSample (hP : Stable P) {a1 s} (hs : P s) : OutAll P (Machine.execPowerSample a1 s) := by
  unfold Machine.execPowerSample
  split
  · exact OutAll.next hs
  · extract_lets +onlyGivenNames -merge s0 s1 s2 s3
    clear_value s0 s1
    have hs2 : P s2 := hP.setReg (hP.modKeeper hs)
    have hs3 : P s3 := by
      unfold s3
      split
      · exact hP.setReg hs2
      · exact hs2
    clear_value s2 s3
    refine OutAll.next ?_
    split
    · exact hP.raise (hP.setReg hs3)
    · exact hs3

theorem Stable.execDomainSwitchFail (hP : Stable P) {a1 s} (hs : P s) : OutAll P (Machine.execDomainSwitchFail a1 s) := by
  unfold Machine.execDomainSwitchFail
  refine OutAll.next ?_
  split
  · extract_lets +onlyGivenNames -merge s0
    have hs0 : P s0 := hP.modKeeper hs
    clear_value s0
    exact hP.domServed (hP.raise (hP.setRegBit (hP.disarm hs0)))
  · exact hs

theorem Stable.setCause (hP : Stable P) {s a2} (hs : P s) : P (State.setCause s a2) := by
  unfold State.setCause
  exact hP.setReg (foldlKeeps (fun _ _ x2 => hP.setReg x2) _ hs)

theorem Stable.execThermalCooled (hP : Stable P) {a1 s} (hs : P s) : OutAll P (Machine.execThermalCooled a1 s) := by
  unfold Machine.execThermalCooled
  refine OutAll.next ?_
  split
  · exact hP.enterGesso (hP.setFlag (hP.setReg hs))
  · exact hs

theorem Stable.execTempSample (hP : Stable P) {a1 s} (hs : P s) : OutAll P (Machine.execTempSample a1 s) := by
  unfold Machine.execTempSample
  split
  · exact OutAll.next hs
  · extract_lets +onlyGivenNames -merge s0 s1 s2
    clear_value s0
    have hs1 : P s1 := hP.setFlag (hP.setReg hs)
    have hs2 : P s2 := by
      unfold s2
      split
      · exact hP.raise (hP.setReg hs1)
      · exact hs1
    clear_value s1 s2
    refine OutAll.next ?_
    split
    · exact hP.setFaultN (hP.tripPins (hP.setCause (hP.coreReset hs2)))
    · exact hs2

/-! ## Machine/Images.lean -/

theorem Stable.noteSig (hP : Stable P) {s a2 a3 a4} (hs : P s) : P (State.noteSig s a2 a3 a4) := by
  unfold State.noteSig
  extract_lets +onlyGivenNames -merge s0
  have hs0 : P s0 := hP.setReg (hP.setReg (hP.setReg hs))
  clear_value s0
  split
  · exact hP.setReg hs0
  · exact hs0

/-! ## Machine/Consume.lean -/

theorem Stable.unmark (hP : Stable P) {s a2} (hs : P s) : P (State.unmark s a2) := by
  unfold State.unmark
  exact hP.modPal hs

theorem Stable.endTaken (hP : Stable P) {s a2 a3 a4} (hs : P s) : P (State.endTaken s a2 a3 a4) := by
  unfold State.endTaken
  split
  · exact hP.unmark hs
  · split
    · exact hP.report (hP.unmark hs)
    · exact hP.complete hs

theorem Stable.dropCell (hP : Stable P) {s a2 a3} (hs : P s) : P (State.dropCell s a2 a3) := by
  unfold State.dropCell
  extract_lets +onlyGivenNames -merge s0 s1
  clear_value s0
  have hs1 : P s1 := by
    unfold s1
    split
    · exact hP.modQueue (hP.tick hs)
    · exact hs
  clear_value s1
  exact hP.modQueue hs1

theorem Stable.markPoisoned (hP : Stable P) {s a2} (hs : P s) : P (State.markPoisoned s a2) := by
  unfold State.markPoisoned
  split
  · exact hs
  · exact hP.modPal hs

theorem Stable.sever (hP : Stable P) {s a2} (hs : P s) : P (State.sever s a2) := by
  unfold State.sever
  split
  · exact hs
  · extract_lets +onlyGivenNames -merge s0
    have hs0 : P s0 := hP.modQueue hs
    clear_value s0
    exact hP.arm (hP.setReg hs0)

theorem Stable.markDropped (hP : Stable P) {s a2} (hs : P s) : P (State.markDropped s a2) := by
  unfold State.markDropped
  split
  · exact hs
  · exact hP.modPal hs

theorem Stable.pushItem (hP : Stable P) {s a2 a3 a4 a5 a6 a7 a8 a9} (hs : P s) : P (State.pushItem s a2 a3 a4 a5 a6 a7 a8 a9) := by
  unfold State.pushItem
  extract_lets +onlyGivenNames -merge s0 s1 s2
  clear_value s0
  have hs1 : P s1 := hP.push hs
  have hs2 : P s2 := by
    unfold s2
    split
    · exact hP.markDropped hs1
    · exact hs1
  clear_value s1 s2
  split
  · exact hP.report (hP.unmark hs2)
  · exact hs2

theorem Stable.accept (hP : Stable P) {s a2 a3} (hs : P s) : P (State.accept s a2 a3).2 := by
  unfold State.accept
  split
  · refine mkSnd ?_
    split
    · exact hP.modQueue hs
    · exact hs
  · split
    · refine mkSnd ?_
      split
      · exact hP.report (hP.modQueue hs)
      · exact hs
    · split
      · exact mkSnd (hP.markPoisoned hs)
      · exact mkSnd hs

theorem Stable.quarantine (hP : Stable P) {s a2} (hs : P s) : P (State.quarantine s a2) := by
  unfold State.quarantine
  extract_lets +onlyGivenNames -merge s0 s2 s3
  have hs0 : P s0 := by
    unfold s0
    split
    · extract_lets +onlyGivenNames -merge s1
      clear_value s1
      exact hP.setReg (hP.modPal hs)
    · assumption
  have hs2 : P s2 := hP.modPal hs0
  have hs3 : P s3 := hP.poolLow (hP.setReg hs2)
  split
  · exact hP.raise hs3
  · exact hs3

theorem Stable.checkCell (hP : Stable P) {s a2 a3} (hs : P s) : P (State.checkCell s a2 a3) := by
  unfold State.checkCell
  extract_lets +onlyGivenNames -merge s0
  have hs0 : P s0 := by
    unfold s0
    split
    · exact hs
    · exact hP.sever (hP.dropCell (hP.quarantine hs))
  clear_value s0
  split
  · exact hs0
  · exact hP.sever hs0

theorem Stable.upsetTail (hP : Stable P) {s a2 a3} (hs : P s) : P (State.upsetTail s a2 a3) := by
  unfold State.upsetTail
  split
  · exact hs
  · exact hP.sever hs

theorem Stable.upsetHead (hP : Stable P) {s a2 a3} (hs : P s) : P (State.upsetHead s a2 a3) := by
  unfold State.upsetHead
  split
  · exact hs
  · split
    · exact hs
    · exact hP.checkCell (hP.modQueue hs)

theorem Stable.pushItemAll (hP : Stable P) {s a2 a3 a4 a5 a6 a7} (hs : P s) : P (State.pushItemAll s a2 a3 a4 a5 a6 a7) := by
  induction a7 generalizing s a2 a3 a4 a5 a6 with
  | nil =>
    unfold State.pushItemAll
    exact hs
  | cons c0 l0 ih =>
    unfold State.pushItemAll
    apply ih
    exact hP.pushItem hs

theorem Stable.popFor (hP : Stable P) {s a2 a3 a4 a5 a6} (hs : P s) : P (State.popFor s a2 a3 a4 a5 a6).2 := by
  unfold State.popFor
  split
  · exact mkSnd (hP.setReg hs)
  · extract_lets +onlyGivenNames -merge s0
    have hs0 : P s0 := hP.upsetHead hs
    clear_value s0
    split
    · exact mkSnd hs0
    · extract_lets +onlyGivenNames -merge s1
      have hs1 : P s1 := hP.deliverHead hs0
      clear_value s1
      split
      · exact mkSnd hs1
      · extract_lets +onlyGivenNames -merge s2
        have hs2 : P s2.2 := hP.accept hs1
        clear_value s2
        exact mkSnd hs2

/-! ## Machine/SpikeOps.lean -/

theorem Stable.modPop (hP : Stable P) {s a2 a3} (hs : P s) : P (State.modPop s a2 a3) := by
  unfold State.modPop
  exact hP.modSf hs

theorem Stable.countSpike (hP : Stable P) {s a2 a3 a4} (hs : P s) : P (State.countSpike s a2 a3 a4) := by
  unfold State.countSpike
  split
  · exact hs
  · extract_lets +onlyGivenNames -merge s0 s1
    clear_value s0 s1
    exact hP.modPop hs

theorem Stable.inject (hP : Stable P) {s a2} (hs : P s) : P (State.inject s a2) := by
  unfold State.inject
  exact hP.modMesh hs

theorem Stable.emitSpike (hP : Stable P) {s a2 a3 a4 a5 a6 a7} (hs : P s) : P (State.emitSpike s a2 a3 a4 a5 a6 a7) := by
  unfold State.emitSpike
  extract_lets +onlyGivenNames -merge s0 s1
  clear_value s0
  have hs1 : P s1 := by
    unfold s1
    split
    · exact hs
    · exact hP.countSpike (hP.bump hs)
  clear_value s1
  split
  · exact hP.tick (hP.inject hs1)
  · exact hs1

theorem Stable.spikeParity (hP : Stable P) {s a2 a3} (hs : P s) : P (State.spikeParity s a2 a3) := by
  unfold State.spikeParity
  extract_lets +onlyGivenNames -merge s0 s1 s2 s3
  clear_value s0 s2
  have hs1 : P s1 := hP.modSf hs
  have hs3 : P s3 := hP.modPop (hP.bump hs1)
  clear_value s1 s3
  exact hP.raise hs3

theorem Stable.putNeuron (hP : Stable P) {s a2 a3 a4} (hs : P s) : P (State.putNeuron s a2 a3 a4) := by
  unfold State.putNeuron
  exact hP.tileWrite hs

theorem Stable.testSpike (hP : Stable P) {s a2 a3 a4 a5 a6 a7} (hs : P s) : P (State.testSpike s a2 a3 a4 a5 a6 a7).2 := by
  unfold State.testSpike
  extract_lets +onlyGivenNames -merge s0
  clear_value s0
  split
  · exact mkSnd (hP.emitSpike hs)
  · exact mkSnd hs

theorem Stable.neuronInput (hP : Stable P) {s a2 a3 a4 a5 a6 a7 a8 a9} (hs : P s) : P
    (State.neuronInput s a2 a3 a4 a5 a6 a7 a8 a9) := by
  unfold State.neuronInput
  extract_lets +onlyGivenNames -merge s0 s1
  clear_value s1
  have hs0 : P s0 := hP.bump hs
  clear_value s0
  split
  · extract_lets +onlyGivenNames -merge s2
    clear_value s2
    exact hP.spikeParity (hP.putNeuron hs0)
  · extract_lets +onlyGivenNames -merge s3
    clear_value s3
    split
    · split
      · exact hP.bump hs0
      · exact hP.putNeuron hs0
    · extract_lets +onlyGivenNames -merge s4 s5
      clear_value s4
      have hs5 : P s5 := by
        unfold s5
        split
        · exact hP.bump hs0
        · exact hs0
      clear_value s5
      split
      · exact hP.bump (hP.putNeuron hs5)
      · extract_lets +onlyGivenNames -merge s6 s7
        clear_value s6
        have hs7 : P s7.2 := hP.testSpike hs5
        clear_value s7
        exact hP.putNeuron hs7

theorem Stable.tileUndef (hP : Stable P) {s a2 a3 a4} (hs : P s) : P (State.tileUndef s a2 a3 a4) := by
  unfold State.tileUndef
  extract_lets +onlyGivenNames -merge s0
  clear_value s0
  exact hP.tick (hP.modTmem (Mem.makeUndef_wf _ _ _ _) hs)

theorem Stable.wakeTile (hP : Stable P) {s a2} (hs : P s) : P (State.wakeTile s a2) := by
  unfold State.wakeTile
  extract_lets +onlyGivenNames -merge s0
  have hs0 : P s0 := by
    unfold s0
    split
    · exact hs
    · exact hP.bump (hP.setReg hs)
  clear_value s0
  exact hP.arm hs0

theorem Stable.inputTargets (hP : Stable P) {s a2 a3 a4 a5 a6 a7 a8} (hs : P s) : P
    (State.inputTargets s a2 a3 a4 a5 a6 a7 a8).2 := by
  induction a8 generalizing s a2 a3 a4 a5 a6 a7 with
  | nil =>
    unfold State.inputTargets
    exact mkSnd hs
  | cons c0 l0 ih =>
    unfold State.inputTargets
    extract_lets +onlyGivenNames -merge s0 s1
    clear_value s0 s1
    split
    · apply ih
      exact hs
    · extract_lets +onlyGivenNames -merge s2
      have hs2 : P s2.2 := foldlSnd (fun _ _ x5 => mkSnd (hP.neuronInput x5)) _ (mkSnd hs)
      clear_value s2
      apply ih
      exact hs2

theorem Stable.endStretch (hP : Stable P) {s a2} (hs : P s) : P (State.endStretch s a2) := by
  unfold State.endStretch
  split
  · exact hs
  · exact hP.modPop (hP.inform hs)

theorem Stable.closeNeuron (hP : Stable P) {s a2 a3 a4 a5 a6 a7} (hs : P s) : P (State.closeNeuron s a2 a3 a4 a5 a6 a7) := by
  unfold State.closeNeuron
  split
  · exact hP.spikeParity (hP.putNeuron hs)
  · extract_lets +onlyGivenNames -merge s0 s1 s2 s3
    clear_value s0 s1 s3
    have hs2 : P s2.2 := by
      unfold s2
      split
      · exact hP.testSpike hs
      · exact mkSnd hs
    clear_value s2
    exact hP.putNeuron hs2

theorem Stable.stepClosed (hP : Stable P) {s a2 a3} (hs : P s) : P (State.stepClosed s a2 a3) := by
  unfold State.stepClosed
  extract_lets +onlyGivenNames -merge s0 s1 s2 s3 s4 s5
  clear_value s0 s1 s2 s4
  have hs3 : P s3 := hP.bump (hP.setReg hs)
  have hs5 : P s5 := hP.modPop hs3
  clear_value s3 s5
  split
  · exact hP.modPop (hP.bump hs5)
  · exact hP.endStretch hs5

theorem Stable.closeStep (hP : Stable P) {s a2 a3 a4 a5} (hs : P s) : P (State.closeStep s a2 a3 a4 a5) := by
  unfold State.closeStep
  extract_lets +onlyGivenNames -merge s0 s1 s2 s6 s7
  clear_value s0 s1
  have hs2 : P s2.2 := foldlSnd (fun _ _ x5 => mkSnd (hP.closeNeuron x5)) _ (mkSnd hs)
  have hs6 : P s6 := hP.modSf hs2
  have hs7 : P s7 := by
    unfold s7
    split
    · exact hP.modPop hs6
    · exact hs6
  clear_value s2 s6 s7
  split
  · exact hP.stepClosed hs7
  · exact hs7

theorem Stable.closeChangedSteps (hP : Stable P) {s a2} (hs : P s) : P (State.closeChangedSteps s a2) := by
  unfold State.closeChangedSteps
  exact foldlKeeps (fun _ _ x2 => foldlKeeps (fun _ _ x5 => hP.closeStep x5) _ x2) _ hs

theorem Stable.startPaced (hP : Stable P) {s a2} (hs : P s) : P (State.startPaced s a2) := by
  unfold State.startPaced
  refine foldlKeeps ?_ _ ?_
  · intro _ _ x2
    extract_lets +onlyGivenNames -merge s3 s4 s5 s6 s7
    clear_value s3 s4 s5 s6
    have hs7 : P s7 := hP.modPop x2
    clear_value s7
    refine foldlKeeps ?_ _ ?_
    · intro _ _ x10
      split
      · exact x10
      · exact hP.modSf x10
    · exact hs7
  · exact hs

/-! ## Machine/Canvas.lean -/

theorem Stable.hangQueues (hP : Stable P) {s a2} (hs : P s) : P (State.hangQueues s a2) := by
  unfold State.hangQueues
  extract_lets +onlyGivenNames -merge s0 s1 s2
  clear_value s0 s1
  have hs2 : P s2 := foldlKeeps (fun _ _ x5 => hP.retireQueue x5) _ hs
  clear_value s2
  refine hP.refreshXoff ?_
  refine foldlKeeps ?_ _ ?_
  · intro _ _ x8
    split
    · exact hP.updateQueue x8
    · exact hP.createQueue x8
  · exact hs2

theorem Stable.copyInits (hP : Stable P) {s a2} (hs : P s) : P (State.copyInits s a2) := by
  unfold State.copyInits
  split
  · exact hs
  · extract_lets +onlyGivenNames -merge s0
    clear_value s0
    exact hP.modCv (hP.setReg (hP.modExt (Mem.writeBytes_wf _ _ _) hs))

theorem Stable.closeWindows (hP : Stable P) {s} (hs : P s) : P (State.closeWindows s) := by
  unfold State.closeWindows
  exact hP.modRd (foldlKeeps (fun _ _ x2 => hP.setReg x2) _ hs)

theorem Stable.freeInit (hP : Stable P) {s} (hs : P s) : P (State.freeInit s) := by
  unfold State.freeInit
  exact hP.modCv (hP.setReg hs)

theorem Stable.finishDrain (hP : Stable P) {s} (hs : P s) : P (State.finishDrain s) := by
  unfold State.finishDrain
  split
  · extract_lets +onlyGivenNames -merge s0
    have hs0 : P s0 := hP.modCv (hP.freeInit (hP.setReg hs))
    clear_value s0
    refine foldlKeeps ?_ _ ?_
    · intro _ _ x3
      split
      · exact hP.domOff x3
      · exact x3
    · exact hs0
  · exact hs

theorem Stable.startPlan (hP : Stable P) {s a2 a3 a4} (hs : P s) : P (State.startPlan s a2 a3 a4) := by
  unfold State.startPlan
  extract_lets +onlyGivenNames -merge s0 s1 s2 s3 s4 s5 s6 s7
  clear_value s1
  have hs0 : P s0 := by
    unfold s0
    split
    · exact hP.answer hs
    · exact hs
  have hs3 : P s3 := hP.modPp (hP.modScratch (fun _ => Mem.writeBytes_wf _ _ _ rfl) hs0)
  have hs4 : P s4 := hP.modFu (hP.modTm hs3)
  have hs5 : P s5 := by
    unfold s5
    split
    · exact hs4
    · exact hP.setReg (hP.modRd hs4)
  have hs6 : P s6 := hP.setReg (hP.setReg (hP.setReg hs5))
  have hs7 : P s7 := hP.setReg (hP.setReg (hP.setReg hs6))
  clear_value s0 s3 s4 s5 s6 s7
  exact hP.setReg hs7

theorem Stable.quadsOff (hP : Stable P) {s a2} (hs : P s) : P (State.quadsOff s a2) := by
  unfold State.quadsOff
  refine foldlKeeps ?_ _ ?_
  · intro _ _ x2
    split
    · exact hP.domOff x2
    · exact x2
  · exact hs

theorem Stable.discardEasel (hP : Stable P) {s} (hs : P s) : P (State.discardEasel s) := by
  unfold State.discardEasel
  split
  · exact hs
  · extract_lets +onlyGivenNames -merge s0 s1
    have hs0 : P s0 := hP.quadsOff (hP.modCv hs)
    have hs1 : P s1 := foldlKeeps (fun _ _ x4 => hP.setReg x4) _ (hP.freeInit hs0)
    clear_value s0 s1
    exact hP.setRegs hs1

theorem Stable.execUnstage (hP : Stable P) {s} (hs : P s) : OutAll P (Machine.execUnstage s) := by
  unfold Machine.execUnstage
  extract_lets +onlyGivenNames -merge s0
  have hs0 : P s0 := hP.setCmd hs
  clear_value s0
  refine OutAll.next ?_
  split
  · exact hP.modCv hs0
  · exact hP.discardEasel hs0

theorem Stable.abortRetired (hP : Stable P) {s a2} (hs : P s) : P (State.abortRetired s a2) := by
  unfold State.abortRetired
  split
  · extract_lets +onlyGivenNames -merge s0 s1
    clear_value s0
    have hs1 : P s1 := hP.reportAll hs
    clear_value s1
    exact hP.releaseRetired (hP.modQueue hs1)
  · exact hs

theorem Stable.writeInits (hP : Stable P) {s a2 a3 a4} (hs : P s) : P (State.writeInits s a2 a3 a4) := by
  unfold State.writeInits
  refine foldlKeeps ?_ _ ?_
  · intro _ _ x2
    split
    · exact hP.tileWrite x2
    · exact x2
  · exact hs

theorem Stable.endDrain (hP : Stable P) {s} (hs : P s) : P (State.endDrain s) := by
  unfold State.endDrain
  extract_lets +onlyGivenNames -merge s0 s1 s2 s3 s7
  clear_value s0
  have hs1 : P s1 := hP.disarm (hP.setReg hs)
  have hs2 : P s2 := hP.modCv hs1
  have hs3 : P s3 := foldlKeeps (fun _ _ x6 => hP.abortRetired x6) _ hs2
  have hs7 : P s7 := by
    unfold s7
    split
    · exact foldlKeeps (fun _ _ x10 => hP.writeInits x10) _ hs3
    · exact hs3
  clear_value s1 s2 s3 s7
  exact hP.finishDrain hs7

theorem Stable.execEpochDrainEnd (hP : Stable P) {s} (hs : P s) : OutAll P (Machine.execEpochDrainEnd s) := by
  unfold Machine.execEpochDrainEnd
  refine OutAll.next ?_
  split
  · exact hP.endDrain (hP.setReg hs)
  · exact hs

theorem Stable.showReject (hP : Stable P) {s a2 a3} (hs : P s) : P (State.showReject s a2 a3) := by
  unfold State.showReject
  exact hP.setReg (hP.setReg (hP.setReg hs))

theorem Stable.rejectLoad (hP : Stable P) {s a2 a3 a4 a5} (hs : P s) : P (State.rejectLoad s a2 a3 a4 a5) := by
  unfold State.rejectLoad
  exact hP.report (hP.showReject hs)

theorem Stable.reserveMarkers (hP : Stable P) {s a2 a3} (hs : P s) : P (State.reserveMarkers s a2 a3) := by
  induction a3 generalizing s a2 with
  | nil =>
    unfold State.reserveMarkers
    exact hP.modCv hs
  | cons c0 l0 ih =>
    unfold State.reserveMarkers
    extract_lets +onlyGivenNames -merge s0
    have hs0 : P s0 := hP.modCv hs
    clear_value s0
    apply ih
    exact hP.tick hs0

theorem Stable.beginLoad (hP : Stable P) {s a2} (hs : P s) : P (State.beginLoad s a2) := by
  unfold State.beginLoad
  extract_lets +onlyGivenNames -merge s0 s1 s2 s3 s4 s5 s6 s7
  clear_value s1 s3
  have hs0 : P s0 := hP.discardEasel hs
  have hs4 : P s4 := hP.noteSig hs0
  have hs5 : P s5 := by
    unfold s5
    split
    · exact hP.noteSig hs4
    · exact hs4
  have hs6 : P s6 := hP.setReg hs5
  have hs7 : P s7 := by
    unfold s7
    split
    · exact hP.setReg hs6
    · exact hs6
  clear_value s0 s4 s5 s6 s7
  split
  · exact hP.modCv (hP.setReg (hP.rejectLoad hs7))
  · extract_lets +onlyGivenNames -merge s8 s9 s10
    have hs8 : P s8 := hP.setReg hs7
    have hs9 : P s9 := hP.reserveMarkers hs8
    have hs10 : P s10 := foldlKeeps (fun _ _ x13 => hP.domWake x13) _ hs9
    clear_value s8 s9 s10
    exact hP.copyInits hs10

theorem Stable.refreshDrain (hP : Stable P) {s} (hs : P s) : P (State.refreshDrain s) := by
  unfold State.refreshDrain
  extract_lets +onlyGivenNames -merge s0 s1
  clear_value s0 s1
  exact hP.setReg hs

theorem emptyMem_wf (a : Nat) (l : List Byte) : (({} : Mem).writeBytes a l).wf = true := Mem.writeBytes_wf _ _ _ rfl

theorem regSorted_putStaged (l : List (Nat × Nat)) (x : Nat × Nat) (h : regSorted l = true) : regSorted (putStaged l x) = true := by
  unfold putStaged
  split
  · split
    · exact h
    · exact regSorted_regIns _ _ _ (regSorted_filter _ _ h) (regDel_ne _ _)
  · exact h

theorem regSorted_foldl (l : List (Nat × Nat)) (f : List (Nat × Nat) → (Nat × Nat) → List (Nat × Nat))
    (hf : ∀ m x, regSorted m = true → regSorted (f m x) = true) (m : List (Nat × Nat)) (h : regSorted m = true) :
    regSorted (l.foldl f m) = true := by
  induction l generalizing m with
  | nil => exact h
  | cons a t ih => exact ih _ (hf _ _ h)

theorem Stable.applyEasel (hP : Stable P) {s a2} (hs : P s) : P (State.applyEasel s a2) :=
  hP.putRegs (fun h => regSorted_foldl _ _ regSorted_putStaged _ (regSorted_filter _ _ h)) hs

theorem Mem.foldl_wf {α : Type} (l : List α) (f : Mem → α → Mem) (hf : ∀ m a, m.wf = true → (f m a).wf = true) (m : Mem)
    (h : m.wf = true) : (l.foldl f m).wf = true := by
  induction l generalizing m with
  | nil => exact h
  | cons a t ih => exact ih _ (hf _ _ h)

theorem Stable.dropParts (hP : Stable P) {s a2 a3} (hs : P s) : P (State.dropParts s a2 a3) := by
  unfold State.dropParts
  split
  · refine hP.tick (hP.modTmem (fun h => Mem.foldl_wf _ _ (fun m u hm => ?_) _ h) hs)
    split
    · exact hm
    · exact Mem.makeUndef_wf _ _ _ _ hm
  · exact hP.loseTile hs

theorem Stable.clearTileWindow (hP : Stable P) {s a2} (hs : P s) : P (State.clearTileWindow s a2) := by
  unfold State.clearTileWindow
  extract_lets +onlyGivenNames -merge s0
  have hs0 : ∀ a0 a1, P a0 → P (s0 a0 a1) := fun _ _ x3 => foldlKeeps (fun _ _ x6 => hP.setReg x6) _ x3
  clear_value s0
  exact foldlKeeps (fun _ _ x9 => hs0 _ _ x9) _ hs

theorem Stable.takeRole (hP : Stable P) {s a2 a3} (hs : P s) : P (State.takeRole s a2 a3) := by
  unfold State.takeRole
  extract_lets +onlyGivenNames -merge s0 s1
  have hs0 : P s0 := by
    unfold s0
    split
    · exact hP.loseTile hs
    · exact hP.writeInits (hP.dropParts hs)
  have hs1 : P s1 := hP.clearTileWindow (hP.setRole hs0)
  clear_value s0 s1
  split
  · exact hP.setReg hs1
  · exact hs1

theorem Stable.doHang (hP : Stable P) {s a2 a3} (hs : P s) : P (State.doHang s a2 a3) := by
  unfold State.doHang
  extract_lets +onlyGivenNames -merge s0 s1 s2 s3 s4 s5 s6 s7 s8 s9 s10 s11 s12 s13 s14 s21
  clear_value s0 s1 s2 s3 s4 s6 s13
  have hs5 : P s5 := hP.closeChangedSteps (hP.closeWindows hs)
  have hs7 : P s7 := hP.hangQueues hs5
  have hs8 : P s8 := hP.startPaced (hP.removeBindings (hP.applyEasel hs7))
  have hs9 : P s9 := hP.setReg (hP.bump (hP.setReg hs8))
  have hs10 : P s10 := by
    unfold s10
    split
    · exact hP.setReg hs9
    · exact hs9
  have hs11 : P s11 := hP.modKeeper hs10
  have hs12 : P s12 := hP.modCv hs11
  have hs14 : P s14 := by
    unfold s14
    split
    · refine foldlKeeps ?_ _ ?_
      · intro _ _ x17
        split
        · exact hP.setRole x17
        · exact hP.takeRole x17
      · exact hs12
    · exact hP.arm (hP.setReg (foldlKeeps (fun _ _ x20 => hP.dropParts x20) _ hs12))
  have hs21 : P s21 := by
    unfold s21
    split
    · split
      · exact hP.startPlan hs14
      · exact hP.startPlan hs14
    · exact hs14
  clear_value s5 s7 s8 s9 s10 s11 s12 s14 s21
  exact hP.sendGrants (hP.refreshDrain hs21)

theorem Stable.execHangEffect (hP : Stable P) {s} (hs : P s) : OutAll P (Machine.execHangEffect s) := by
  unfold Machine.execHangEffect
  refine OutAll.next ?_
  split
  · split
    · exact hP.doHang hs
    · exact hs
  · exact hs

theorem Stable.moveOver (hP : Stable P) {s a2} (hs : P s) : P (State.moveOver s a2) := by
  unfold State.moveOver
  split
  · exact hs
  · split
    · exact hs
    · exact hP.modPp hs

theorem Stable.execLoadCanvas (hP : Stable P) {s} (hs : P s) : OutAll P (Machine.execLoadCanvas s) := by
  unfold Machine.execLoadCanvas
  extract_lets +onlyGivenNames -merge s0
  have hs0 : P s0 := hP.setCmd hs
  clear_value s0
  split
  · exact OutAll.next hs0
  · extract_lets +onlyGivenNames -merge s1 s2
    clear_value s1
    have hs2 : P s2 := hP.takeItem hs0
    clear_value s2
    refine OutAll.next ?_
    split
    · exact hP.rejectLoad hs2
    · split
      · exact hP.setReg (hP.modCv hs2)
      · exact hP.beginLoad hs2

theorem Stable.execTileRoleTake (hP : Stable P) {a1 s} (hs : P s) : OutAll P (Machine.execTileRoleTake a1 s) := by
  unfold Machine.execTileRoleTake
  refine OutAll.next ?_
  split
  · split
    · exact hP.finishDrain (hP.modCv (hP.takeRole hs))
    · exact hs
  · exact hs

theorem Stable.execEscapeDivert (hP : Stable P) {a1 s} (hs : P s) : OutAll P (Machine.execEscapeDivert a1 s) := by
  unfold Machine.execEscapeDivert
  refine OutAll.next ?_
  split
  · exact hs
  · split
    · exact hs
    · split
      · exact hs
      · split
        · split
          · exact hP.modMesh hs
          · exact hs
        · exact hs

theorem Stable.takeMove (hP : Stable P) {s a2 a3 a4} (hs : P s) : P (State.takeMove s a2 a3 a4) := by
  unfold State.takeMove
  extract_lets +onlyGivenNames -merge s0
  have hs0 : P s0 := hP.tileWrite hs
  clear_value s0
  refine hP.moveOver ?_
  split
  · exact hP.tileUndef hs0
  · exact hs0

theorem Stable.moveOut (hP : Stable P) {s a2 a3} (hs : P s) : P (State.moveOut s a2 a3) := by
  unfold State.moveOut
  split
  · exact hP.modMesh hs
  · exact hP.takeMove hs
  · exact hP.modMesh hs

theorem Stable.abortPacket (hP : Stable P) {s a2} (hs : P s) : P (State.abortPacket s a2) := by
  unfold State.abortPacket
  extract_lets +onlyGivenNames -merge s0
  have hs0 : P s0 := hP.moveOver hs
  clear_value s0
  split
  · exact hP.bumpSat (hP.report hs0)
  · split
    · exact hP.report hs0
    · exact hs0

theorem Stable.execDrainTimeout (hP : Stable P) {s} (hs : P s) : OutAll P (Machine.execDrainTimeout s) := by
  unfold Machine.execDrainTimeout
  refine OutAll.next ?_
  split
  · extract_lets +onlyGivenNames -merge s0 s1 s2
    clear_value s0 s1
    have hs2 : P s2 := hP.modMesh hs
    clear_value s2
    exact hP.endDrain (hP.refreshDrain (foldlKeeps (fun _ _ x5 => hP.abortPacket x5) _ (hP.setReg hs2)))
  · exact hs

theorem Stable.execMeshPacketRoute (hP : Stable P) {a1 s} (hs : P s) : OutAll P (Machine.execMeshPacketRoute a1 s) := by
  unfold Machine.execMeshPacketRoute
  refine OutAll.next ?_
  split
  · exact hs
  · split
    · exact hs
    · split
      · exact hs
      · extract_lets +onlyGivenNames -merge s0
        have hs0 : P s0 := hP.modMesh hs
        clear_value s0
        exact hP.refreshDrain (foldlKeeps (fun _ _ x3 => hP.moveOut x3) _ hs0)

theorem Stable.unstageAfter (hP : Stable P) {s} (hs : P s) : P (State.unstageAfter s) := by
  unfold State.unstageAfter
  split
  · exact hP.discardEasel (hP.modCv hs)
  · exact hs

theorem Stable.execCanvasStaged (hP : Stable P) {a1 s} (hs : P s) : OutAll P (Machine.execCanvasStaged a1 s) := by
  unfold Machine.execCanvasStaged
  refine OutAll.next ?_
  split
  · exact hs
  · split
    · exact hs
    · extract_lets +onlyGivenNames -merge s0
      have hs0 : P s0 := hP.modCv hs
      clear_value s0
      split
      · extract_lets +onlyGivenNames -merge s1
        have hs1 : P s1 := hP.raise (hP.rejectLoad (hP.quadsOff hs0))
        clear_value s1
        exact hP.unstageAfter (hP.freeInit (hP.setReg hs1))
      · extract_lets +onlyGivenNames -merge s2 s3 s4 s5 s6 s7
        clear_value s2
        have hs3 : P s3 := hP.modCv hs0
        have hs4 : P s4 := hP.setReg (hP.setFlag (hP.setReg hs3))
        have hs5 : P s5 := hP.setReg (hP.setReg hs4)
        have hs6 : P s6 := hP.setRegs hs5
        have hs7 : P s7 := by
          unfold s7
          split
          · exact hP.inform hs6
          · exact hs6
        clear_value s3 s4 s5 s6 s7
        exact hP.unstageAfter (hP.complete hs7)

theorem Stable.requestHang (hP : Stable P) {s} (hs : P s) : P (State.requestHang s) := by
  unfold State.requestHang
  split
  · exact hP.setReg hs
  · exact hP.setReg hs

theorem Stable.execHangRequest (hP : Stable P) {s} (hs : P s) : OutAll P (Machine.execHangRequest s) := by
  unfold Machine.execHangRequest
  exact OutAll.next (hP.requestHang (hP.setCmd hs))

theorem Stable.execLoadDeferredStart (hP : Stable P) {s} (hs : P s) : OutAll P (Machine.execLoadDeferredStart s) := by
  unfold Machine.execLoadDeferredStart
  refine OutAll.next ?_
  split
  · split
    · exact hs
    · exact hP.beginLoad (hP.modCv hs)
  · exact hs

/-! ## Machine/Boot.lean -/

theorem Stable.chooseManifest (hP : Stable P) {s a2} (hs : P s) : P (State.chooseManifest s a2) := by
  unfold State.chooseManifest
  split
  · exact hP.setReg hs
  · exact hP.setReg (hP.modKeeper hs)
  · split
    · exact hP.setReg (hP.modKeeper hs)
    · extract_lets +onlyGivenNames -merge s0
      have hs0 : P s0 := hP.setReg hs
      clear_value s0
      split
      · exact hP.raise (hP.setReg hs0)
      · exact hs0

theorem Stable.bootK3 (hP : Stable P) {s} (hs : P s) : P (State.bootK3 s) := by
  unfold State.bootK3
  extract_lets +onlyGivenNames -merge s0
  have hs0 : P s0 := hP.modKeeper hs
  clear_value s0
  refine foldlKeeps ?_ _ ?_
  · intro _ _ x3
    extract_lets +onlyGivenNames -merge s4
    clear_value s4
    split
    · exact x3
    · exact hP.noteSig x3
  · exact hs0

theorem Stable.modBank (hP : Stable P) {s a2 a3} (hs : P s) : P (State.modBank s a2 a3) := by
  unfold State.modBank
  exact hP.modStore hs

theorem Stable.bankFailed (hP : Stable P) {s} (hs : P s) : P (State.bankFailed s) := by
  unfold State.bankFailed
  split
  · exact hP.modBank hs
  · exact hs

theorem Stable.bootAgree (hP : Stable P) {s a2 a3 a4} (hs : P s) : P (State.bootAgree s a2 a3 a4).1 := by
  unfold State.bootAgree
  extract_lets +onlyGivenNames -merge s0 s1 s2 s3 s4
  clear_value s0 s1 s2
  have hs3 : P s3 := hP.setReg (hP.setReg hs)
  have hs4 : P s4 := hP.setRegs hs3
  clear_value s3 s4
  split
  · exact mkFst (hP.setReg (hP.setReg hs4))
  · exact mkFst (hP.setReg (hP.setReg hs4))

theorem Stable.bootHang (hP : Stable P) {s a2 a3 a4 a5} (hs : P s) : P (State.bootHang s a2 a3 a4 a5) := by
  unfold State.bootHang
  extract_lets +onlyGivenNames -merge s0 s1 s5 s9 s10 s11 s12 s13
  clear_value s0 s9 s11
  have hs1 : P s1 := by
    unfold s1
    refine foldlKeeps ?_ _ ?_
    · intro _ _ x4
      split
      · exact hP.domBoot x4
      · exact x4
    · exact hs
  have hs5 : P s5 := by
    unfold s5
    refine foldlKeeps ?_ _ ?_
    · intro _ _ x8
      split
      · exact hP.domOnNow x8
      · exact x8
    · exact hs1
  have hs10 : P s10 := hP.reserveMarkers hs5
  have hs12 : P s12 := hP.modCv hs10
  have hs13 : P s13 := by
    unfold s13
    split
    · exact hP.inform hs12
    · exact hs12
  clear_value s1 s5 s10 s12 s13
  exact hP.complete (hP.setReg (hP.doHang hs13))

theorem Stable.execRailBrownout (hP : Stable P) {a1 s} (hs : P s) : OutAll P (Machine.execRailBrownout a1 s) := by
  unfold Machine.execRailBrownout
  split
  · exact OutAll.next (hP.modPins (hP.fullReset hs))
  · split
    · exact OutAll.next hs
    · extract_lets +onlyGivenNames -merge s0 s1 s2 s3 s4 s5
      clear_value s4
      have hs1 : P s1 := hP.coreReset hs
      have hs2 : P s2 := hP.setRegBit (hP.setRegBit hs1)
      have hs3 : P s3 := hP.setCause hs2
      have hs5 : P s5 := hP.modKeeper hs3
      clear_value s1 s2 s3 s5
      refine OutAll.next ?_
      split
      · exact hP.tripPins hs5
      · split
        · exact hP.enterGesso hs5
        · exact hP.setFaultN (hP.arm (hP.modKeeper hs5))

theorem Stable.bootSig (hP : Stable P) {s a2} (hs : P s) : P (State.bootSig s a2).2 := by
  unfold State.bootSig
  extract_lets +onlyGivenNames -merge s0 s1
  clear_value s0 s1
  exact mkSnd (hP.noteSig hs)

theorem Stable.bootManifest (hP : Stable P) {s a2} (hs : P s) : P (State.bootManifest s a2).1 := by
  unfold State.bootManifest
  split
  · exact mkFst (hP.chooseManifest hs)
  · extract_lets +onlyGivenNames -merge s0
    have hs0 : P s0.2 := hP.bootSig hs
    clear_value s0
    split
    · exact mkFst (hP.chooseManifest hs0)
    · exact mkFst hs0

theorem Stable.fwHeader (hP : Stable P) {s a2 a3} (hs : P s) : P (State.fwHeader s a2 a3) := by
  unfold State.fwHeader
  exact hP.modKeeper (hP.modBank hs)

theorem Stable.fwBody (hP : Stable P) {s a2 a3} (hs : P s) : P (State.fwBody s a2 a3) := by
  unfold State.fwBody
  exact hP.modBank hs

theorem Stable.fwWrite (hP : Stable P) {s a2} (hs : P s) : P (State.fwWrite s a2) := by
  unfold State.fwWrite
  extract_lets +onlyGivenNames -merge s0
  clear_value s0
  exact hP.fwHeader (hP.fwBody hs)

theorem Stable.bootFirmware (hP : Stable P) {s a2} (hs : P s) : P (State.bootFirmware s a2).1 := by
  unfold State.bootFirmware
  split
  · exact mkFst hs
  · extract_lets +onlyGivenNames -merge s0 s1 s2
    clear_value s0 s1
    have hs2 : P s2 := hP.noteSig (hP.takeItem hs)
    clear_value s2
    split
    · exact mkFst (hP.complete (hP.fwWrite hs2))
    · exact mkFst (hP.report hs2)

theorem Stable.bootImages (hP : Stable P) {s} (hs : P s) : P (State.bootImages s).1 := by
  unfold State.bootImages
  split
  · exact mkFst hs
  · split
    · rename_i _ _ _ _ v4 _ v6
      have h7 : P v4 := pairFst v6 (hP.bootManifest hs)
      exact mkFst h7
    · rename_i _ _ _ _ v12 v13
      have h14 : P v12 := pairFst v13 (hP.bootManifest hs)
      split
      · rename_i _ v16 _ v18
        have h19 : P v16 := pairFst v18 (hP.bootFirmware h14)
        exact mkFst h19
      · rename_i _ v21 v22
        have h23 : P v21 := pairFst v22 (hP.bootFirmware h14)
        split
        · extract_lets +onlyGivenNames -merge s24 s25
          have hs24 : P s24.2 := hP.bootSig h23
          have hs25 : P s25.2 := hP.bootSig hs24
          clear_value s24 s25
          split
          · exact mkFst hs24
          · split
            · exact mkFst hs25
            · exact mkFst hs25
        · exact mkFst h23

theorem Stable.bootReject (hP : Stable P) {s a2 a3} (hs : P s) : P (State.bootReject s a2 a3) := by
  unfold State.bootReject
  extract_lets +onlyGivenNames -merge s0
  have hs0 : P s0 := by
    unfold s0
    split
    · exact hs
    · exact hP.rejectLoad (hP.takeItem hs)
  clear_value s0
  exact hP.enterGesso hs0

theorem Stable.startBank (hP : Stable P) {s a2} (hs : P s) : P (State.startBank s a2) := by
  unfold State.startBank
  extract_lets +onlyGivenNames -merge s0
  have hs0 : P s0 := hP.setReg (hP.setReg (hP.setReg hs))
  clear_value s0
  exact hP.setReg (hP.modKeeper hs0)

theorem Stable.bootFrom5 (hP : Stable P) {s a2 a3} (hs : P s) : P (State.bootFrom5 s a2 a3) := by
  unfold State.bootFrom5
  extract_lets +onlyGivenNames -merge s0 s1 s2 s3
  clear_value s0
  have hs1 : P s1 := hP.modKeeper hs
  have hs2 : P s2 := hP.setReg (hP.setReg (hP.disarm (hP.disarm hs1)))
  have hs3 : P s3 := hP.setFaultN (hP.setReg hs2)
  clear_value s1 s2 s3
  split
  · rename_i _ v5 _ v7
    have h8 : P v5 := pairFst v7 (hP.bootImages hs3)
    exact hP.bootReject h8
  · rename_i _ v10 _ v12
    have h13 : P v10 := pairFst v12 (hP.bootImages hs3)
    split
    · rename_i _ v15 _ v17
      have h18 : P v15 := pairFst v17 (hP.bootAgree h13)
      exact hP.bootReject h18
    · rename_i _ v20 _ _ v23
      have h24 : P v20 := pairFst v23 (hP.bootAgree h13)
      extract_lets +onlyGivenNames -merge s25 s26 s27
      clear_value s26 s27
      have hs25 : P s25 := by
        unfold s25
        split
        · exact h24
        · exact hP.startBank h24
      clear_value s25
      split
      · exact hP.bootReject hs25
      · exact hP.bootHang (hP.takeItem hs25)

theorem Stable.coreReboot (hP : Stable P) {s a2} (hs : P s) : P (State.coreReboot s a2) := by
  unfold State.coreReboot
  extract_lets +onlyGivenNames -merge s0
  have hs0 : P s0 := hP.domOnNow (hP.domOnNow (hP.domOnNow hs))
  clear_value s0
  split
  · exact hP.enterGesso hs0
  · exact hP.bootFrom5 hs0

theorem Stable.execBrownoutHoldCheck (hP : Stable P) {a1 a2 s} (hs : P s) : OutAll P (Machine.execBrownoutHoldCheck a1 a2 s) := by
  unfold Machine.execBrownoutHoldCheck
  refine OutAll.next ?_
  split
  · extract_lets +onlyGivenNames -merge s0 s1 s2
    clear_value s0
    have hs2 : P s2 := hP.setReg hs
    clear_value s2
    split
    · exact hs2
    · split
      · exact hP.coreReboot (hP.disarm hs2)
      · split
        · exact hP.enterGesso (hP.disarm hs2)
        · exact hs2
  · exact hs

theorem Stable.writeBankClr (hP : Stable P) {s a2 a3} (hs : P s) : P (State.writeBankClr s a2 a3) := by
  unfold State.writeBankClr
  extract_lets +onlyGivenNames -merge s0 s1
  have hs0 : P s0 := hP.setCmd hs
  have hs1 : P s1 := by
    unfold s1
    split
    · exact hP.modBank hs0
    · exact hs0
  clear_value s0 s1
  split
  · exact hP.modBank hs1
  · exact hs1

theorem Stable.restartPlan (hP : Stable P) {s} (hs : P s) : P (State.restartPlan s) := by
  unfold State.restartPlan
  split
  · extract_lets +onlyGivenNames -merge s0
    have hs0 : P s0 := hP.setReg (hP.setReg (hP.setReg hs))
    clear_value s0
    exact hP.startPlan hs0
  · exact hs

theorem Stable.execDomainWakeDone (hP : Stable P) {a1 s} (hs : P s) : OutAll P (Machine.execDomainWakeDone a1 s) := by
  unfold Machine.execDomainWakeDone
  refine OutAll.next ?_
  split
  · extract_lets +onlyGivenNames -merge s0
    have hs0 : P s0 := hP.domReady hs
    clear_value s0
    refine hP.domServed ?_
    split
    · exact hP.restartPlan hs0
    · exact hs0
  · exact hs

theorem Stable.writeGo (hP : Stable P) {s a2} (hs : P s) : P (State.writeGo s a2) := by
  unfold State.writeGo
  split
  · exact hs
  · extract_lets +onlyGivenNames -merge s0
    have hs0 : P s0 := hP.setCmd hs
    clear_value s0
    split
    · exact hP.setReg hs0
    · exact hP.bootFrom5 hs0
    · extract_lets +onlyGivenNames -merge s1
      clear_value s1
      split
      · split
        · exact hP.bootFrom5 (hP.bootK3 hs0)
        · exact hs0
      · split
        · exact hP.bootFrom5 hs0
        · exact hs0
    · exact hs0

theorem Stable.execPreferB (hP : Stable P) {a1 a2 s} (hs : P s) : OutAll P (Machine.execPreferB a1 a2 s) := by
  unfold Machine.execPreferB
  refine OutAll.next ?_
  split
  · exact hP.modStore hs
  · exact hs

theorem Stable.resetExit (hP : Stable P) {s a2 a3} (hs : P s) : P (State.resetExit s a2 a3) := by
  unfold State.resetExit
  extract_lets +onlyGivenNames -merge s0 s1 s2 s3
  have hs0 : P s0 := hP.setFlag (hP.setReg (hP.setReg hs))
  have hs1 : P s1 := hP.modPins hs0
  have hs2 : P s2 := hP.xoffPins (hP.modKeeper hs1)
  have hs3 : P s3 := hP.domOnNow (hP.domOnNow (hP.domOnNow hs2))
  clear_value s0 s1 s2 s3
  split
  · exact hP.enterGesso hs3
  · extract_lets +onlyGivenNames -merge s4
    have hs4 : P s4 := hP.bootK3 hs3
    clear_value s4
    split
    · exact hP.enterGesso hs4
    · exact hP.arm (hP.setReg hs4)

theorem Stable.execResetNRelease (hP : Stable P) {a1 a2 s} (hs : P s) : OutAll P (Machine.execResetNRelease a1 a2 s) := by
  unfold Machine.execResetNRelease
  refine OutAll.next ?_
  split
  · extract_lets +onlyGivenNames -merge s0
    have hs0 : P s0 := hP.modPins hs
    clear_value s0
    split
    · exact hP.resetExit hs0
    · exact hs0
  · exact hs

theorem Stable.writeAllow (hP : Stable P) {s a2} (hs : P s) : P (State.writeAllow s a2) := by
  unfold State.writeAllow
  split
  · exact hP.setReg hs
  · split
    · exact hP.setReg hs
    · exact hs

theorem Stable.execKeeperWd (hP : Stable P) {a1 a2 s} (hs : P s) : OutAll P (Machine.execKeeperWd a1 a2 s) := by
  unfold Machine.execKeeperWd
  refine OutAll.next ?_
  split
  · extract_lets +onlyGivenNames -merge s0
    have hs0 : P s0 := hP.fullReset (hP.bankFailed hs)
    clear_value s0
    split
    · exact hP.resetExit hs0
    · exact hs0
  · exact hs

theorem Stable.runBegins (hP : Stable P) {s} (hs : P s) : P (State.runBegins s) := by
  unfold State.runBegins
  split
  · exact hs
  · extract_lets +onlyGivenNames -merge s0 s1 s2 s3 s4 s5 s6
    have hs0 : P s0 := hP.modKeeper hs
    have hs1 : P s1 := hP.setReg (hP.setReady hs0)
    have hs2 : P s2 := by
      unfold s2
      split
      · exact hP.modBank hs1
      · exact hs1
    have hs3 : P s3 := by
      unfold s3
      split
      · exact hP.modStore hs2
      · assumption
    have hs4 : P s4 := by
      unfold s4
      split
      · exact hP.modPins hs3
      · assumption
    have hs5 : P s5 := by
      unfold s5
      split
      · exact hP.modPins hs4
      · assumption
    have hs6 : P s6 := by
      unfold s6
      split
      · assumption
      · exact hP.arm hs5
    clear_value s0 s1 s2 s3 s4 s5 s6
    exact hP.setFaultN (hP.domApply hs6)

theorem Stable.execBootGo (hP : Stable P) {a1 s} (hs : P s) : OutAll P (Machine.execBootGo a1 s) := by
  unfold Machine.execBootGo
  refine OutAll.next ?_
  split
  · exact hP.writeGo hs
  · exact hs

theorem Stable.execPowerOnResetRelease (hP : Stable P) {a1 a2 s} (hs : P s) : OutAll P
    (Machine.execPowerOnResetRelease a1 a2 s) := by
  unfold Machine.execPowerOnResetRelease
  refine OutAll.next ?_
  split
  · extract_lets +onlyGivenNames -merge s0
    have hs0 : P s0 := hP.modPins hs
    clear_value s0
    split
    · exact hP.resetExit hs0
    · exact hs0
  · exact hs

theorem Stable.execBootWaitExpire (hP : Stable P) {s} (hs : P s) : OutAll P (Machine.execBootWaitExpire s) := by
  unfold Machine.execBootWaitExpire
  refine OutAll.next ?_
  split
  · exact hP.enterGesso (hP.disarm hs)
  · exact hs

theorem Stable.execBankClr (hP : Stable P) {a1 a2 a3 s} (hs : P s) : OutAll P (Machine.execBankClr a1 a2 a3 s) := by
  unfold Machine.execBankClr
  refine OutAll.next ?_
  split
  · exact hP.writeBankClr hs
  · exact hs

theorem Stable.execAllowUntested (hP : Stable P) {a1 a2 s} (hs : P s) : OutAll P (Machine.execAllowUntested a1 a2 s) := by
  unfold Machine.execAllowUntested
  refine OutAll.next ?_
  split
  · exact hP.writeAllow hs
  · exact hs

/-! ## Machine/Flags.lean -/

theorem Stable.paceStatus (hP : Stable P) {s} (hs : P s) : P (State.paceStatus s) := by
  unfold State.paceStatus
  exact hP.setFlag (hP.setFlag hs)

/-! ## Machine/Pace.lean -/

theorem Stable.takeReading (hP : Stable P) {s a2 a3} (hs : P s) : P (State.takeReading s a2 a3) := by
  unfold State.takeReading
  split
  · exact hP.modKeeper (hP.setReg hs)
  · split
    · extract_lets +onlyGivenNames -merge s0 s1
      clear_value s0
      have hs1 : P s1 := hP.modKeeper hs
      clear_value s1
      split
      · exact hP.setReg hs1
      · exact hs1
    · extract_lets +onlyGivenNames -merge s2
      have hs2 : P s2 := hP.modKeeper (hP.setReg hs)
      clear_value s2
      exact hP.setReg hs2

theorem Stable.raiseBounds (hP : Stable P) {s} (hs : P s) : P (State.raiseBounds s) := by
  unfold State.raiseBounds
  exact hP.modPp hs

theorem Stable.takePace (hP : Stable P) {s} (hs : P s) : P (State.takePace s) := by
  unfold State.takePace
  split
  · exact hs
  · extract_lets +onlyGivenNames -merge s0 s1 s2 s3
    clear_value s0
    have hs1 : P s1 := hP.setReg (hP.setReg hs)
    have hs2 : P s2 := hP.modKeeper hs1
    have hs3 : P s3 := hP.raiseBounds hs2
    clear_value s1 s2 s3
    split
    · exact hP.setReg hs3
    · exact hs3

theorem Stable.paceRecord (hP : Stable P) {s a2 a3} (hs : P s) : P (State.paceRecord s a2 a3) := by
  unfold State.paceRecord
  exact hP.inform hs

theorem Stable.takeReadings (hP : Stable P) {s a2 a3} (hs : P s) : P (State.takeReadings s a2 a3) := by
  induction a3 generalizing s a2 with
  | nil =>
    unfold State.takeReadings
    exact hs
  | cons c0 l0 ih =>
    unfold State.takeReadings
    split
    · apply ih
      exact hP.takeReading hs
    · exact hs

theorem Stable.execPaceMonitorInterval (hP : Stable P) {a1 a2 s} (hs : P s) : OutAll P
    (Machine.execPaceMonitorInterval a1 a2 s) := by
  unfold Machine.execPaceMonitorInterval
  refine OutAll.next ?_
  split
  · extract_lets +onlyGivenNames -merge s0
    have hs0 : P s0 := hP.modKeeper hs
    clear_value s0
    exact hP.paceStatus (hP.setReg (hP.takePace (hP.takeReadings hs0)))
  · exact hs

theorem Stable.execGuardEnClear (hP : Stable P) {s} (hs : P s) : OutAll P (Machine.execGuardEnClear s) := by
  unfold Machine.execGuardEnClear
  refine OutAll.next ?_
  split
  · extract_lets +onlyGivenNames -merge s0
    have hs0 : P s0 := hP.setReg hs
    clear_value s0
    split
    · exact hP.paceRecord hs0
    · exact hs0
  · exact hs

theorem Stable.execPeakClr (hP : Stable P) {s} (hs : P s) : OutAll P (Machine.execPeakClr s) := by
  unfold Machine.execPeakClr
  exact OutAll.next (hP.setReg (hP.setCmd hs))

theorem Stable.execMonitorFailed (hP : Stable P) {a1 s} (hs : P s) : OutAll P (Machine.execMonitorFailed a1 s) := by
  unfold Machine.execMonitorFailed
  refine OutAll.next ?_
  split
  · extract_lets +onlyGivenNames -merge s0 s1 s2
    clear_value s1
    have hs0 : P s0 := hP.setReg (hP.modKeeper hs)
    have hs2 : P s2 := by
      unfold s2
      split
      · exact hP.modKeeper hs0
      · exact hs0
    clear_value s0 s2
    exact hP.raise hs2
  · exact hs

/-! ## Machine/TimeOps.lean -/

theorem Stable.announceTo (hP : Stable P) {s a2 a3} (hs : P s) : P (State.announceTo s a2 a3) := by
  unfold State.announceTo
  extract_lets +onlyGivenNames -merge s0 s1 s2 s3
  clear_value s0 s1
  have hs2 : P s2 := hP.modTm hs
  have hs3 : P s3 := hP.setReg (hP.setReg hs2)
  clear_value s2 s3
  exact hP.arm (hP.disarm (hP.disarm hs3))

theorem Stable.noteApplied (hP : Stable P) {s} (hs : P s) : P (State.noteApplied s) := by
  unfold State.noteApplied
  split
  · exact hs
  · extract_lets +onlyGivenNames -merge s0 s1
    clear_value s0 s1
    exact hP.modTm hs

theorem Stable.setPhase (hP : Stable P) {s a2} (hs : P s) : P (State.setPhase s a2) := by
  unfold State.setPhase
  extract_lets +onlyGivenNames -merge s0 s1 s2
  clear_value s0 s1 s2
  exact hP.modTm hs

theorem Stable.setFreq (hP : Stable P) {s a2} (hs : P s) : P (State.setFreq s a2) := by
  unfold State.setFreq
  extract_lets +onlyGivenNames -merge s0 s1 s2
  clear_value s0 s1 s2
  exact hP.modTm hs

theorem Stable.reverseSwitch (hP : Stable P) {s} (hs : P s) : P (State.reverseSwitch s) := by
  unfold State.reverseSwitch
  extract_lets +onlyGivenNames -merge s0
  have hs0 : P s0 := hP.noteApplied hs
  clear_value s0
  split
  · exact hs0
  · extract_lets +onlyGivenNames -merge s1
    have hs1 : P s1 := hP.setReg (hP.setPhase (hP.setFreq hs0))
    clear_value s1
    exact hP.arm (hP.disarm (hP.disarm hs1))

theorem Stable.countCancel (hP : Stable P) {s} (hs : P s) : P (State.countCancel s) := by
  unfold State.countCancel
  exact hP.raise (hP.bump hs)

theorem Stable.reviewSources (hP : Stable P) {s} (hs : P s) : P (State.reviewSources s) := by
  unfold State.reviewSources
  split
  · split
    · exact hs
    · exact hP.announceTo hs
  · split
    · exact hs
    · split
      · split
        · exact hP.reverseSwitch hs
        · split
          · exact hs
          · exact hP.announceTo (hP.countCancel hs)
      · split
        · exact hP.announceTo (hP.countCancel hs)
        · split
          · exact hs
          · exact hP.reverseSwitch hs

theorem Stable.refLost (hP : Stable P) {s} (hs : P s) : P (State.refLost s) := by
  unfold State.refLost
  extract_lets +onlyGivenNames -merge s0
  have hs0 : P s0 := hP.modTm hs
  clear_value s0
  split
  · exact hP.reviewSources (hP.raise (hP.setReg hs0))
  · exact hs0

theorem Stable.ppsLost (hP : Stable P) {s} (hs : P s) : P (State.ppsLost s) := by
  unfold State.ppsLost
  extract_lets +onlyGivenNames -merge s0
  have hs0 : P s0 := hP.modTm hs
  clear_value s0
  split
  · exact hP.reviewSources (hP.raise (hP.setReg hs0))
  · exact hs0

theorem Stable.makeActive (hP : Stable P) {s a2} (hs : P s) : P (State.makeActive s a2) := by
  unfold State.makeActive
  extract_lets +onlyGivenNames -merge s0 s1 s2 s3 s4
  clear_value s0 s1
  have hs2 : P s2 := hP.modTm hs
  have hs3 : P s3 := hP.setReg (hP.setReg hs2)
  have hs4 : P s4 := hP.disarm (hP.disarm (hP.disarm hs3))
  clear_value s2 s3 s4
  split
  · exact hs4
  · extract_lets +onlyGivenNames -merge s5
    have hs5 : P s5 := hP.setReg hs4
    clear_value s5
    split
    · exact hP.arm hs5
    · exact hP.disarm hs5

theorem Stable.slewWith (hP : Stable P) {s a2} (hs : P s) : P (State.slewWith s a2) := by
  unfold State.slewWith
  split
  · exact hs
  · extract_lets +onlyGivenNames -merge s0 s1 s2
    clear_value s1 s2
    have hs0 : P s0 := by
      unfold s0
      split
      · exact hP.setPhase hs
      · exact hP.modTm hs
    clear_value s0
    exact hP.arm hs0

theorem Stable.stepDevtime (hP : Stable P) {s a2} (hs : P s) : P (State.stepDevtime s a2) := by
  unfold State.stepDevtime
  extract_lets +onlyGivenNames -merge s0
  have hs0 : P s0 := hP.modTimers hs
  clear_value s0
  exact hP.modDevtime (hP.modTm hs0)

theorem Stable.followSource (hP : Stable P) {s} (hs : P s) : P (State.followSource s) := by
  unfold State.followSource
  extract_lets +onlyGivenNames -merge s0
  clear_value s0
  split
  · extract_lets +onlyGivenNames -merge s1
    clear_value s1
    exact hP.modTm (hP.setFreq hs)
  · exact hs

/-! ## Machine/HostOps.lean -/

theorem Stable.postSummary (hP : Stable P) {s a2 a3 a4 a5} (hs : P s) : P (State.postSummary s a2 a3 a4 a5) := by
  unfold State.postSummary
  extract_lets +onlyGivenNames -merge s0 s1
  clear_value s0 s1
  split
  · extract_lets +onlyGivenNames -merge s2
    have hs2 : P s2 := hP.ringWrite hs
    clear_value s2
    exact hP.vector (hP.setReg hs2)
  · exact hP.bump hs

theorem Stable.afterWrite (hP : Stable P) {s a2 a3} (hs : P s) : P (State.afterWrite s a2 a3) := by
  unfold State.afterWrite
  extract_lets +onlyGivenNames -merge s0 s1
  have hs0 : P s0 := hP.flushResponses hs
  have hs1 : P s1 := by
    unfold s1
    split
    · exact hP.modRd hs0
    · exact hs0
  clear_value s0 s1
  split
  · exact hP.reviewSources hs1
  · exact hs1

theorem Stable.execRegisterWrite (hP : Stable P) {a1 a2 a3 s} (hs : P s) : OutAll P (Machine.execRegisterWrite a1 a2 a3 s) := by
  unfold Machine.execRegisterWrite
  refine OutAll.next ?_
  split
  · exact hP.afterWrite (hP.writeWord hs)
  · exact hs

/-! ## Machine/PlanOps.lean -/

theorem Stable.setSreg (hP : Stable P) {s a2 a3} (hs : P s) : P (State.setSreg s a2 a3) := by
  unfold State.setSreg
  split
  · exact hs
  · exact hP.modPp hs

theorem Stable.traceRetire (hP : Stable P) {s a2} (hs : P s) : P (State.traceRetire s a2) := by
  unfold State.traceRetire
  extract_lets +onlyGivenNames -merge s0 s1 s2
  clear_value s0 s1 s2
  split
  · exact hP.modHi hs
  · exact hs

theorem Stable.countLate (hP : Stable P) {s a2} (hs : P s) : P (State.countLate s a2) := by
  unfold State.countLate
  exact hP.raise (hP.setReg (hP.bump hs))

theorem Stable.closeBundles (hP : Stable P) {s} (hs : P s) : P (State.closeBundles s) := by
  unfold State.closeBundles
  extract_lets +onlyGivenNames -merge s0 s1 s2 s6
  clear_value s0 s1
  have hs2 : P s2 := foldlKeeps (fun _ _ x5 => hP.traceRetire x5) _ hs
  have hs6 : P s6 := hP.modPp hs2
  clear_value s2 s6
  exact foldlKeeps (fun _ _ x9 => hP.countLate x9) _ hs6

theorem Stable.guardEval (hP : Stable P) {s a2 a3} (hs : P s) : P (State.guardEval s a2 a3) := by
  unfold State.guardEval
  split
  · exact hs
  · extract_lets +onlyGivenNames -merge s0 s1 s2 s3 s4 s5 s6 s7 s8 s9 s10
    clear_value s1 s2 s3 s4 s5 s6 s7
    have hs0 : P s0 := hP.paceStatus hs
    have hs8 : P s8 := hP.modCv (hP.modKeeper hs0)
    have hs9 : P s9 := hP.setReg (hP.setReg hs8)
    have hs10 : P s10 := hP.setReg hs9
    clear_value s0 s8 s9 s10
    split
    · exact hs10
    · exact hP.paceRecord (hP.bump hs10)

theorem Stable.startOp (hP : Stable P) {s a2 a3 a4} (hs : P s) : P (State.startOp s a2 a3 a4) := by
  unfold State.startOp
  extract_lets +onlyGivenNames -merge s0
  clear_value s0
  split
  · exact hs
  · extract_lets +onlyGivenNames -merge s1 s2 s3 s4 s5 s6
    clear_value s1 s2 s3 s4 s5
    have hs6 : P s6 := by
      unfold s6
      split
      · exact hP.create hs
      · exact hs
    clear_value s6
    exact hP.modPp hs6

theorem Stable.refreshFences (hP : Stable P) {s} (hs : P s) : P (State.refreshFences s) := by
  unfold State.refreshFences
  exact hP.setReg hs

theorem Stable.issueBundle (hP : Stable P) {s a2 a3 a4} (hs : P s) : P (State.issueBundle s a2 a3 a4) := by
  unfold State.issueBundle
  extract_lets +onlyGivenNames -merge s0 s1 s2 s3 s4 s5 s6 s10
  clear_value s0 s1 s2 s3 s5
  have hs4 : P s4 := hP.modPp hs
  have hs6 : P s6 := foldlKeeps (fun _ _ x9 => hP.startOp x9) _ hs4
  have hs10 : P s10 := hP.setReg (hP.modPp hs6)
  clear_value s4 s6 s10
  exact hP.refreshFences hs10

theorem Stable.xrSeam (hP : Stable P) {s} (hs : P s) : P (State.xrSeam s) := by
  unfold State.xrSeam
  extract_lets +onlyGivenNames -merge s0 s1 s5
  clear_value s0 s5
  have hs1 : P s1 := foldlKeeps (fun _ _ x4 => hP.setReg x4) _ hs
  clear_value s1
  exact hP.modXr (hP.setReg hs1)

theorem Stable.beginStep (hP : Stable P) {s} (hs : P s) : P (State.beginStep s) := by
  unfold State.beginStep
  extract_lets +onlyGivenNames -merge s0 s1 s2 s3 s4
  clear_value s0
  have hs1 : P s1 := by
    unfold s1
    split
    · exact hP.setReg (hP.setReg hs)
    · exact hs
  have hs2 : P s2 := by
    unfold s2
    split
    · exact hs1
    · exact hP.bump hs1
  have hs3 : P s3 := hP.modPp hs2
  have hs4 : P s4 := hP.xrSeam (hP.closeWindows hs3)
  clear_value s1 s2 s3 s4
  split
  · exact hs4
  · exact hP.runBegins hs4

theorem Stable.modOp (hP : Stable P) {s a2 a3} (hs : P s) : P (State.modOp s a2 a3) := by
  unfold State.modOp
  exact hP.modPp hs

theorem Stable.finishOp (hP : Stable P) {s a2} (hs : P s) : P (State.finishOp s a2) := by
  unfold State.finishOp
  exact hP.modOp hs

theorem Stable.endHostStep (hP : Stable P) {s a2 a3} (hs : P s) : P (State.endHostStep s a2 a3) := by
  unfold State.endHostStep
  extract_lets +onlyGivenNames -merge s0
  have hs0 : P s0 := by
    unfold s0
    split
    · exact hP.finishOp hs
    · exact hs
  clear_value s0
  exact hP.modPp (hP.disarm hs0)

theorem Stable.haltPlan (hP : Stable P) {s a2 a3} (hs : P s) : P (State.haltPlan s a2 a3) := by
  unfold State.haltPlan
  extract_lets +onlyGivenNames -merge s0
  have hs0 : P s0 := hP.setReg (hP.setReg (hP.setReg hs))
  clear_value s0
  exact hP.raise (hP.setReg hs0)

theorem Stable.applyGo (hP : Stable P) {s a2} (hs : P s) : P (State.applyGo s a2) := by
  unfold State.applyGo
  extract_lets +onlyGivenNames -merge s0 s1
  have hs0 : P s0 := by
    unfold s0
    split
    · exact hP.setReg hs
    · exact hs
  have hs1 : P s1 := by
    unfold s1
    split
    · exact hP.requestHang hs0
    · exact hs0
  clear_value s0 s1
  exact hP.modPp hs1

end Sys2Proof.Machine
end

