-- ==== Sys2Proof/Laws/StableCommands.lean ====
section
/-! SUPPORT. Every operation and every command keeps what the updates of single parts keep, part two: the families. -/
namespace Sys2Proof.Machine

variable {P : State → Prop}

/-! ## Machine/Plan.lean -/

theorem Stable.scalarDone (hP : Stable P) {s} (hs : P s) : P (State.scalarDone s) := by
  unfold State.scalarDone
  exact hP.closeBundles (hP.modPp hs)

theorem Stable.execScalarNop (hP : Stable P) {s} (hs : P s) : OutAll P (Machine.execScalarNop s) := by
  unfold Machine.execScalarNop
  refine OutAll.next ?_
  split
  · exact hP.scalarDone hs
  · exact hs

theorem Stable.setD (hP : Stable P) {s a2 a3} (hs : P s) : P (State.setD s a2 a3) := by
  unfold State.setD
  exact hP.setSreg hs

theorem Stable.execBundleOverrun (hP : Stable P) {s} (hs : P s) : OutAll P (Machine.execBundleOverrun s) := by
  unfold Machine.execBundleOverrun
  refine OutAll.next ?_
  split
  · exact hP.countLate (hP.modPp hs)
  · exact hs

theorem Stable.execIntegerOp (hP : Stable P) {s} (hs : P s) : OutAll P (Machine.execIntegerOp s) := by
  unfold Machine.execIntegerOp
  refine OutAll.next ?_
  split
  · exact hP.scalarDone (hP.setD hs)
  · exact hs

theorem Stable.execSlotOpComplete (hP : Stable P) {a1 s} (hs : P s) : OutAll P (Machine.execSlotOpComplete a1 s) := by
  unfold Machine.execSlotOpComplete
  refine OutAll.next ?_
  split
  · split
    · exact hs
    · extract_lets +onlyGivenNames -merge s0 s1
      have hs0 : P s0 := hP.modPp hs
      have hs1 : P s1 := by
        unfold s1
        split
        · exact hs0
        · split
          · exact hP.report (hP.unmark hs0)
          · exact hP.endTaken hs0
      clear_value s0 s1
      exact hP.closeBundles (hP.refreshFences hs1)
  · exact hs

theorem Stable.execStepGraceExpire (hP : Stable P) {s} (hs : P s) : OutAll P (Machine.execStepGraceExpire s) := by
  unfold Machine.execStepGraceExpire
  refine OutAll.next ?_
  split
  · split
    · split
      · extract_lets +onlyGivenNames -merge s0 s1
        clear_value s0
        have hs1 : P s1 := hP.inform (hP.bump hs)
        clear_value s1
        exact hP.endHostStep (hP.applyGo hs1)
      · exact hs
    · exact hs
  · exact hs

theorem Stable.loopFalls (hP : Stable P) {s a2} (hs : P s) : P (State.loopFalls s a2) := by
  unfold State.loopFalls
  exact hP.modPp hs

theorem Stable.execFenceMarkerAtHead (hP : Stable P) {a1 s} (hs : P s) : OutAll P (Machine.execFenceMarkerAtHead a1 s) := by
  unfold Machine.execFenceMarkerAtHead
  refine OutAll.next ?_
  split
  · split
    · exact hP.finishOp hs
    · exact hs
  · exact hs

theorem Stable.execHostStep (hP : Stable P) {a1 s} (hs : P s) : OutAll P (Machine.execHostStep a1 s) := by
  unfold Machine.execHostStep
  refine OutAll.next ?_
  split
  · split
    · exact hs
    · extract_lets +onlyGivenNames -merge s0 s1
      have hs0 : P s0 := hP.postSummary hs
      have hs1 : P s1 := hP.modOp hs0
      clear_value s0 s1
      split
      · extract_lets +onlyGivenNames -merge s2
        have hs2 : P s2 := hP.applyGo (hP.modPp hs1)
        clear_value s2
        exact hP.answer (hP.endHostStep hs2)
      · exact hP.modPp (hP.arm hs1)
  · exact hs

theorem Stable.execFenceQueueDepth (hP : Stable P) {a1 s} (hs : P s) : OutAll P (Machine.execFenceQueueDepth a1 s) := by
  unfold Machine.execFenceQueueDepth
  refine OutAll.next ?_
  split
  · split
    · exact hP.finishOp hs
    · exact hs
  · exact hs

theorem Stable.runBundle (hP : Stable P) {s a2 a3 a4} (hs : P s) : P (State.runBundle s a2 a3 a4) := by
  unfold State.runBundle
  extract_lets +onlyGivenNames -merge s0 s1
  clear_value s0 s1
  split
  · exact hP.haltPlan hs
  · extract_lets +onlyGivenNames -merge s2 s3 s4
    have hs2 : P s2 := by
      unfold s2
      split
      · exact hP.beginStep hs
      · exact hs
    have hs3 : P s3 := by
      unfold s3
      split
      · exact hP.setReg hs2
      · exact hs2
    have hs4 : P s4 := by
      unfold s4
      split
      · exact hP.guardEval hs3
      · exact hs3
    clear_value s2 s3 s4
    split
    · exact hP.haltPlan hs4
    · exact hP.issueBundle hs4

theorem Stable.execFenceSlotStart (hP : Stable P) {a1 s} (hs : P s) : OutAll P (Machine.execFenceSlotStart a1 s) := by
  unfold Machine.execFenceSlotStart
  refine OutAll.next ?_
  split
  · split
    · exact hP.finishOp hs
    · exact hs
  · exact hs

theorem Stable.execLoopOp (hP : Stable P) {s} (hs : P s) : OutAll P (Machine.execLoopOp s) := by
  unfold Machine.execLoopOp
  refine OutAll.next ?_
  split
  · extract_lets +onlyGivenNames -merge s0 s1
    clear_value s1
    have hs0 : P s0 := hP.setSreg hs
    clear_value s0
    split
    · exact hP.scalarDone (hP.loopFalls hs0)
    · split
      · exact hP.scalarDone (hP.raise (hP.setReg (hP.loopFalls hs0)))
      · exact hP.scalarDone (hP.setReg (hP.modPp hs0))
  · exact hs

theorem Stable.execBundleIssue (hP : Stable P) {s} (hs : P s) : OutAll P (Machine.execBundleIssue s) := by
  unfold Machine.execBundleIssue
  refine OutAll.next ?_
  split
  · split
    · exact hP.runBundle hs
    · exact hs
  · exact hs

theorem Stable.execStatusRead (hP : Stable P) {s} (hs : P s) : OutAll P (Machine.execStatusRead s) := by
  unfold Machine.execStatusRead
  refine OutAll.next ?_
  split
  · exact hP.scalarDone (hP.setD hs)
  · exact hs

theorem Stable.execRenderWindowOpen (hP : Stable P) {a1 s} (hs : P s) : OutAll P (Machine.execRenderWindowOpen a1 s) := by
  unfold Machine.execRenderWindowOpen
  refine OutAll.next ?_
  split
  · split
    · exact hs
    · extract_lets +onlyGivenNames -merge s0 s1 s2
      clear_value s0 s1
      have hs2 : P s2 := foldlKeeps (fun _ _ x5 => hP.setReg x5) _ hs
      clear_value s2
      exact hP.finishOp (hP.modRd hs2)
  · exact hs

theorem Stable.execStepSlotStart (hP : Stable P) {s} (hs : P s) : OutAll P (Machine.execStepSlotStart s) := by
  unfold Machine.execStepSlotStart
  refine OutAll.next ?_
  split
  · exact hP.modPp hs
  · exact hs

theorem Stable.execConditionalBranch (hP : Stable P) {s} (hs : P s) : OutAll P (Machine.execConditionalBranch s) := by
  unfold Machine.execConditionalBranch
  refine OutAll.next ?_
  split
  · refine hP.scalarDone ?_
    split
    · exact hP.setReg hs
    · exact hs
  · exact hs

theorem Stable.execRenderWindowClose (hP : Stable P) {a1 s} (hs : P s) : OutAll P (Machine.execRenderWindowClose a1 s) := by
  unfold Machine.execRenderWindowClose
  refine OutAll.next ?_
  split
  · extract_lets +onlyGivenNames -merge s0
    clear_value s0
    split
    · exact hs
    · split
      · exact hP.modOp hs
      · extract_lets +onlyGivenNames -merge s1 s2
        clear_value s1
        have hs2 : P s2 := foldlKeeps (fun _ _ x5 => hP.setReg x5) _ hs
        clear_value s2
        exact hP.finishOp (hP.modRd hs2)
  · exact hs

theorem Stable.execMemoryLoadStore (hP : Stable P) {s} (hs : P s) : OutAll P (Machine.execMemoryLoadStore s) := by
  unfold Machine.execMemoryLoadStore
  refine OutAll.next ?_
  split
  · extract_lets +onlyGivenNames -merge s0 s1
    clear_value s0 s1
    split
    · exact hP.scalarDone (hP.setD hs)
    · split
      · exact hP.scalarDone (hP.setD hs)
      · exact hP.scalarDone (hP.modExt (Mem.writeBytes_wf _ _ _) hs)
  · exact hs

theorem Stable.execScratchAccess (hP : Stable P) {a1 s} (hs : P s) : OutAll P (Machine.execScratchAccess a1 s) := by
  unfold Machine.execScratchAccess
  refine OutAll.next ?_
  split
  · extract_lets +onlyGivenNames -merge s0 s1
    clear_value s0 s1
    split
    · exact hP.scalarDone (hP.modScratch (Mem.writeBytes_wf _ _ _) hs)
    · split
      · exact hP.haltPlan (hP.scalarDone (hP.tick (hP.setD hs)))
      · exact hP.scalarDone (hP.setD hs)
  · exact hs

/-! ## Machine/Host.lean -/

theorem Stable.acceptCommand (hP : Stable P) {s a2} (hs : P s) : P (State.acceptCommand s a2) := by
  unfold State.acceptCommand
  extract_lets +onlyGivenNames -merge s0 s1 s2 s3
  clear_value s0 s1
  have hs2 : P s2 := hP.modHi hs
  have hs3 : P s3 := by
    unfold s3
    split
    · exact hP.setReg (hP.setReg (hP.modHi hs2))
    · exact hP.setReg (hP.setReg (hP.modHi hs2))
  clear_value s2 s3
  exact hP.create hs3

theorem Stable.admitCommand (hP : Stable P) {s a2 a3} (hs : P s) : P (State.admitCommand s a2 a3) := by
  unfold State.admitCommand
  extract_lets +onlyGivenNames -merge s0 s1
  clear_value s0
  have hs1 : P s1 := hP.bump hs
  clear_value s1
  split
  · exact hP.respond (hP.bump hs1)
  · extract_lets +onlyGivenNames -merge s2
    clear_value s2
    split
    · exact hP.acceptCommand hs1
    · exact hP.respond (hP.inform (hP.bump hs1))
    · extract_lets +onlyGivenNames -merge s3
      have hs3 : P s3 := hP.inform (hP.bump hs1)
      clear_value s3
      split
      · exact hP.respond hs3
      · exact hP.modHi hs3

theorem Stable.domCommand (hP : Stable P) {s a2} (hs : P s) : P (State.domCommand s a2).2 := by
  unfold State.domCommand
  extract_lets +onlyGivenNames -merge s0 s1 s2
  clear_value s0
  have hs1 : P s1 := hP.modLg (fun x => x) hs
  have hs2 : P s2.2 := hP.domAdmit hs1
  clear_value s1 s2
  refine mkSnd ?_
  split
  · exact hP.modLg (fun x => x) hs2
  · exact hs2

theorem Stable.fetch (hP : Stable P) {s a2} (hs : P s) : P (State.fetch s a2) := by
  induction a2 generalizing s with
  | zero =>
    unfold State.fetch
    exact hs
  | succ k0 ih =>
    unfold State.fetch
    extract_lets +onlyGivenNames -merge s0 s1
    clear_value s0 s1
    split
    · extract_lets +onlyGivenNames -merge s2 s3
      clear_value s2 s3
      split
      · exact hs
      · apply ih
        exact hP.admitCommand (hP.setReg hs)
    · exact hs

theorem Stable.fetchAll (hP : Stable P) {s} (hs : P s) : P (State.fetchAll s) := by
  unfold State.fetchAll
  exact hP.fetch hs

theorem Stable.writePi (hP : Stable P) {s a2} (hs : P s) : P (State.writePi s a2) := by
  unfold State.writePi
  exact hP.fetchAll (hP.setReg hs)

theorem Stable.popCommand (hP : Stable P) {s} (hs : P s) : P (State.popCommand s) := by
  unfold State.popCommand
  exact hP.modHi hs

theorem Stable.startTransfer (hP : Stable P) {s a2} (hs : P s) : P (State.startTransfer s a2) := by
  unfold State.startTransfer
  split
  · exact hs
  · split
    · exact hP.modHi hs
    · exact hs

theorem Stable.execBadOp (hP : Stable P) {s} (hs : P s) : OutAll P (Machine.execBadOp s) := by
  unfold Machine.execBadOp
  refine OutAll.next ?_
  split
  · split
    · exact hs
    · exact hP.fetchAll (hP.answer (hP.popCommand hs))
  · exact hs

theorem Stable.endTransfer (hP : Stable P) {s a2 a3 a4 a5} (hs : P s) : P (State.endTransfer s a2 a3 a4 a5) := by
  unfold State.endTransfer
  extract_lets +onlyGivenNames -merge s0
  have hs0 : P s0 := hP.modHi hs
  clear_value s0
  exact hP.fetchAll (hP.startTransfer (hP.answer hs0))

theorem Stable.serve (hP : Stable P) {s a2 a3 a4} (hs : P s) (ha4 : ∀ b0 b1, P b1 → P (a4 b0 b1)) : P (State.serve s a2 a3 a4) := by
  unfold State.serve
  split
  · refine hP.fetchAll ?_
    split
    · exact ha4 _ _ (hP.popCommand hs)
    · exact hP.answer (hP.popCommand hs)
  · exact hs

theorem Stable.execDomainCmd (hP : Stable P) {s} (hs : P s) : OutAll P (Machine.execDomainCmd s) := by
  unfold Machine.execDomainCmd
  refine OutAll.next ?_
  split
  · exact hs
  · refine hP.serve hs ?_
    intro _ _ x2
    split
    · rename_i _ _ _ v6 v7
      have h8 : P v6 := pairSnd v7 (hP.domCommand x2)
      exact hP.answer h8
    · rename_i _ _ v11 v12
      have h13 : P v11 := pairSnd v12 (hP.domCommand x2)
      exact hP.answer h13

theorem Stable.execAlarmSend (hP : Stable P) {s} (hs : P s) : OutAll P (Machine.execAlarmSend s) := by
  unfold Machine.execAlarmSend
  refine OutAll.next ?_
  split
  · exact hs
  · refine hP.serve hs ?_
    intro _ _ x2
    split
    · rename_i _ _ v5 v6
      have h7 : P v5 := pairSnd v6 (hP.queueSentence x2)
      exact h7
    · rename_i _ _ v10 v11
      have h12 : P v10 := pairSnd v11 (hP.queueSentence x2)
      exact hP.answer h12

theorem Stable.fwBegin (hP : Stable P) {s} (hs : P s) : P (State.fwBegin s) := by
  unfold State.fwBegin
  split
  · exact hs
  · split
    · exact hs
    · extract_lets +onlyGivenNames -merge s0 s1 s2 s3 s4 s5
      clear_value s0 s1 s2 s3
      have hs4 : P s4 := hP.modHi hs
      have hs5 : P s5 := hP.noteSig hs4
      clear_value s4 s5
      split
      · exact hP.fwBody hs5
      · exact hs5

theorem Stable.execFwStage (hP : Stable P) {s} (hs : P s) : OutAll P (Machine.execFwStage s) := by
  unfold Machine.execFwStage
  refine OutAll.next ?_
  split
  · exact hs
  · refine hP.serve hs ?_
    intro _ _ x2
    extract_lets +onlyGivenNames -merge s3
    clear_value s3
    exact hP.fwBegin (hP.modHi (hP.takeItem x2))

theorem Stable.execPcieLinkUp (hP : Stable P) {a1 a2 s} (hs : P s) : OutAll P (Machine.execPcieLinkUp a1 a2 s) := by
  unfold Machine.execPcieLinkUp
  refine OutAll.next ?_
  split
  · extract_lets +onlyGivenNames -merge s0
    have hs0 : P s0 := hP.setReg (hP.setReg (hP.setReg hs))
    clear_value s0
    exact hP.fetchAll (hP.flushResponses hs0)
  · exact hs

theorem Stable.writeRings (hP : Stable P) {s a2} (hs : P s) : P (State.writeRings s a2) := by
  unfold State.writeRings
  extract_lets +onlyGivenNames -merge s0
  have hs0 : P s0 := hP.setFlag hs
  clear_value s0
  exact hP.fetchAll (hP.flushResponses hs0)

theorem Stable.execDmaError (hP : Stable P) {s} (hs : P s) : OutAll P (Machine.execDmaError s) := by
  unfold Machine.execDmaError
  refine OutAll.next ?_
  split
  · extract_lets +onlyGivenNames -merge s0 s1 s2
    clear_value s0
    have hs1 : P s1 := hP.setReg (hP.setReg hs)
    have hs2 : P s2 := hP.bump (hP.modHi hs1)
    clear_value s1 s2
    exact hP.raise hs2
  · exact hs

theorem Stable.execRingsEn (hP : Stable P) {a1 s} (hs : P s) : OutAll P (Machine.execRingsEn a1 s) := by
  unfold Machine.execRingsEn
  refine OutAll.next ?_
  split
  · exact hP.writeRings hs
  · exact hs

theorem Stable.execI2cXferDone (hP : Stable P) {a1 a2 a3 s} (hs : P s) : OutAll P (Machine.execI2cXferDone a1 a2 a3 s) := by
  unfold Machine.execI2cXferDone
  extract_lets +onlyGivenNames -merge s0
  have hs0 : P s0 := hP.startTransfer hs
  clear_value s0
  refine OutAll.next ?_
  split
  · exact hs0
  · split
    · exact hP.endTransfer (hP.bump hs0)
    · split
      · exact hP.endTransfer hs0
      · exact hs0

theorem Stable.execNopCmd (hP : Stable P) {s} (hs : P s) : OutAll P (Machine.execNopCmd s) := by
  unfold Machine.execNopCmd
  exact OutAll.next (hP.serve hs ((fun _ _ x2 => hP.answer x2)))

theorem Stable.execResetCore (hP : Stable P) {a1 s} (hs : P s) : OutAll P (Machine.execResetCore a1 s) := by
  unfold Machine.execResetCore
  exact OutAll.next (hP.serve hs ((fun _ _ x2 => hP.coreReboot (hP.setCause (hP.coreReset (hP.answer x2))))))

theorem Stable.hostStore (hP : Stable P) {s a2 a3} (hs : P s) : P (State.hostStore s a2 a3) := by
  unfold State.hostStore
  split
  · exact hs
  · split
    · exact hP.bump hs
    · split
      · exact hP.bump hs
      · exact hP.modExt (Mem.writeBytes_wf _ _ _) hs

theorem Stable.execBar2Access (hP : Stable P) {a1 a2 a3 s} (hs : P s) : OutAll P (Machine.execBar2Access a1 a2 a3 s) := by
  unfold Machine.execBar2Access
  split
  · exact OutAll.next hs
  · extract_lets +onlyGivenNames -merge s0 s1
    clear_value s0 s1
    refine OutAll.next ?_
    split
    · exact hP.modHi hs
    · split
      · exact hP.hostStore (hP.modHi hs)
      · exact hP.modHi hs

theorem Stable.execI2cStretchTimeout (hP : Stable P) {a1 s} (hs : P s) : OutAll P (Machine.execI2cStretchTimeout a1 s) := by
  unfold Machine.execI2cStretchTimeout
  refine OutAll.next ?_
  split
  · exact hs
  · exact hP.endTransfer (hP.bump hs)

theorem Stable.writeSlots (hP : Stable P) {s a2} (hs : P s) : P (State.writeSlots s a2) := by
  unfold State.writeSlots
  extract_lets +onlyGivenNames -merge s0 s1 s2
  clear_value s0 s1 s2
  exact foldlKeeps (fun _ _ x5 => hP.modHostMem (Mem.writeBytes_wf _ _ _) x5) _ hs

theorem Stable.execCmdDoorbell (hP : Stable P) {a1 a2 s} (hs : P s) : OutAll P (Machine.execCmdDoorbell a1 a2 s) := by
  unfold Machine.execCmdDoorbell
  refine OutAll.next ?_
  split
  · exact hP.writePi (hP.writeSlots hs)
  · exact hs

theorem Stable.execI2cXfer (hP : Stable P) {s} (hs : P s) : OutAll P (Machine.execI2cXfer s) := by
  unfold Machine.execI2cXfer
  refine OutAll.next ?_
  split
  · exact hs
  · refine hP.serve hs ?_
    intro _ _ x2
    extract_lets +onlyGivenNames -merge s3
    clear_value s3
    exact hP.startTransfer (hP.modHi x2)

theorem Stable.clearForResume (hP : Stable P) {s} (hs : P s) : P (State.clearForResume s) := by
  unfold State.clearForResume
  extract_lets +onlyGivenNames -merge s0 s1
  clear_value s0
  have hs1 : P s1 := hP.modLg (fun _ => faultsSound.nil) hs
  clear_value s1
  exact hP.vector (hP.bump (hP.emptyQueues (hP.setReg (hP.setReg hs1))))

theorem Stable.execResume (hP : Stable P) {s} (hs : P s) : OutAll P (Machine.execResume s) := by
  unfold Machine.execResume
  refine OutAll.next ?_
  refine hP.serve hs ?_
  intro _ _ x2
  split
  · exact hP.answer x2
  · exact hP.answer (hP.bootFrom5 (hP.clearForResume x2))

theorem Stable.execReadoutPop (hP : Stable P) {a1 a2 s} (hs : P s) : OutAll P (Machine.execReadoutPop a1 a2 s) := by
  unfold Machine.execReadoutPop
  extract_lets +onlyGivenNames -merge s0 s1 s2
  clear_value s0 s1 s2
  split
  · refine OutAll.next ?_
    split
    · rename_i _ _ v5 v6
      have h7 : P v5 := pairSnd v6 (hP.popFor hs)
      exact h7
    · rename_i _ _ _ _ v12 v13
      have h14 : P v12 := pairSnd v13 (hP.popFor hs)
      extract_lets +onlyGivenNames -merge s15 s16 s17
      clear_value s15
      have hs16 : P s16 := hP.ringWrite h14
      have hs17 : P s17 := hP.setReg hs16
      clear_value s16 s17
      split
      · exact hs17
      · extract_lets +onlyGivenNames -merge s18
        have hs18 : P s18 := hP.vector hs17
        clear_value s18
        split
        · exact hs18
        · split
          · exact hP.endTaken hs18
          · split
            · exact hP.endTaken hs18
            · exact hs18
  · exact OutAll.next hs

theorem Stable.execPcieLinkDown (hP : Stable P) {s} (hs : P s) : OutAll P (Machine.execPcieLinkDown s) := by
  unfold Machine.execPcieLinkDown
  exact OutAll.next (hP.setReg (hP.setReg (hP.setReg hs)))

theorem Stable.takeGo (hP : Stable P) {s a2} (hs : P s) : P (State.takeGo s a2) := by
  unfold State.takeGo
  extract_lets +onlyGivenNames -merge s0
  clear_value s0
  split
  · exact hP.answer hs
  · split
    · exact hP.answer (hP.endHostStep (hP.applyGo hs))
    · split
      · exact hP.answer (hP.report (hP.bump hs))
      · exact hP.answer hs
      · split
        · exact hP.answer hs
        · split
          · exact hP.answer hs
          · exact hP.modPp hs

theorem Stable.execGoCmd (hP : Stable P) {s} (hs : P s) : OutAll P (Machine.execGoCmd s) := by
  unfold Machine.execGoCmd
  exact OutAll.next (hP.serve hs ((fun _ _ x2 => hP.takeGo x2)))

theorem Stable.execFwStageDone (hP : Stable P) {s} (hs : P s) : OutAll P (Machine.execFwStageDone s) := by
  unfold Machine.execFwStageDone
  refine OutAll.next ?_
  split
  · exact hs
  · extract_lets +onlyGivenNames -merge s0 s1
    have hs0 : P s0 := hP.modHi hs
    have hs1 : P s1 := by
      unfold s1
      split
      · exact hP.complete (hP.fwHeader hs0)
      · exact hP.report hs0
    clear_value s0 s1
    exact hP.fetchAll (hP.fwBegin (hP.answer hs1))

/-! ## Machine/Alarm.lean -/

theorem Stable.execAlarmSentenceSent (hP : Stable P) {s} (hs : P s) : OutAll P (Machine.execAlarmSentenceSent s) := by
  unfold Machine.execAlarmSentenceSent
  refine OutAll.next ?_
  split
  · exact hs
  · split
    · extract_lets +onlyGivenNames -merge s0
      have hs0 : P s0 := hP.startSentence (hP.modHi (hP.disarm hs))
      clear_value s0
      split
      · exact hP.fetchAll (hP.answer hs0)
      · exact hs0
    · exact hs

theorem Stable.execAlarmStatusTimer (hP : Stable P) {s} (hs : P s) : OutAll P (Machine.execAlarmStatusTimer s) := by
  unfold Machine.execAlarmStatusTimer
  refine OutAll.next ?_
  split
  · extract_lets +onlyGivenNames -merge s0 s1
    clear_value s0
    have hs1 : P s1 := hP.modTimers hs
    clear_value s1
    exact hP.queueSentence hs1
  · exact hs

/-! ## Machine/Palette.lean -/

theorem Stable.scrubHeld (hP : Stable P) {s a2 a3} (hs : P s) : P (State.scrubHeld s a2 a3) := by
  unfold State.scrubHeld
  extract_lets +onlyGivenNames -merge s0 s1
  have hs0 : P s0 := hP.modPal hs
  have hs1 : P s1 := by
    unfold s1
    split
    · split
      · exact hP.bump hs0
      · assumption
    · assumption
  clear_value s0 s1
  split
  · exact hP.quarantine hs1
  · exact hs1

theorem Stable.stall (hP : Stable P) {s a2 a3 a4} (hs : P s) : P (State.stall s a2 a3 a4) := by
  unfold State.stall
  exact hP.modQueue hs

theorem Stable.popOne (hP : Stable P) {s a2 a3 a4 a5} (hs : P s) : P (State.popOne s a2 a3 a4 a5) := by
  unfold State.popOne
  split
  · exact hP.setReg hs
  · extract_lets +onlyGivenNames -merge s0
    have hs0 : P s0 := hP.upsetHead hs
    clear_value s0
    split
    · exact hP.stall hs0
    · exact hP.deliverHead hs0

theorem Stable.badFree (hP : Stable P) {s a2 a3 a4 a5} (hs : P s) : P (State.badFree s a2 a3 a4 a5) := by
  unfold State.badFree
  extract_lets +onlyGivenNames -merge s0 s1
  have hs0 : P s0 := hP.inform hs
  have hs1 : P s1 := hP.setReg (hP.setReg (hP.setReg hs0))
  clear_value s0 s1
  exact hP.raise (hP.setFlag hs1)

theorem Stable.execFreeCell (hP : Stable P) {a1 a2 a3 s} (hs : P s) : OutAll P (Machine.execFreeCell a1 a2 a3 s) := by
  unfold Machine.execFreeCell
  refine OutAll.next ?_
  split
  · exact hs
  · split
    · exact hP.freeHeld hs
    · exact hP.badFree hs
    · exact hP.badFree hs

theorem Stable.scrubFree (hP : Stable P) {s a2 a3} (hs : P s) : P (State.scrubFree s a2 a3) := by
  unfold State.scrubFree
  extract_lets +onlyGivenNames -merge s0
  have hs0 : P s0 := by
    unfold s0
    split
    · exact hP.quarantine hs
    · exact hs
  clear_value s0
  split
  · exact hP.raise (hP.arm (hP.poolLow (hP.setReg hs0)))
  · exact hs0

theorem Stable.boundsFail (hP : Stable P) {s a2} (hs : P s) : P (State.boundsFail s a2) := by
  unfold State.boundsFail
  split
  · exact hP.finishOp (hP.haltPlan (hP.setReg hs))
  · exact hs

theorem Stable.withQueueOp (hP : Stable P) {s a2 a3 a4 a5} (hs : P s) (ha5 : ∀ b0 b1 b2 b3 b4, P b4 → P (a5 b0 b1 b2 b3 b4)) : P
    (State.withQueueOp s a2 a3 a4 a5) := by
  unfold State.withQueueOp
  split
  · split
    · exact hs
    · extract_lets +onlyGivenNames -merge s0
      clear_value s0
      split
      · exact hP.boundsFail hs
      · split
        · exact hP.boundsFail hs
        · split
          · exact hs
          · exact ha5 _ _ _ _ _ hs
  · exact hs

theorem Stable.popEnds (hP : Stable P) {s a2 a3} (hs : P s) : P (State.popEnds s a2 a3) := by
  unfold State.popEnds
  extract_lets +onlyGivenNames -merge s0 s1 s2
  clear_value s0 s1 s2
  split
  · split
    · exact hs
    · split
      · exact hP.endTaken hs
      · split
        · exact hP.modXr hs
        · exact hs
  · split
    · exact hP.endTaken hs
    · exact hs

theorem Stable.writePopped (hP : Stable P) {s a2 a3 a4 a5 a6} (hs : P s) : P (State.writePopped s a2 a3 a4 a5 a6) := by
  unfold State.writePopped
  extract_lets +onlyGivenNames -merge s0 s1
  clear_value s1
  have hs0 : P s0 := hP.tileWriteNat hs
  clear_value s0
  exact hP.tileWriteNat hs0

theorem Stable.popCells (hP : Stable P) {s a2 a3 a4 a5 a6 a7 a8 a9} (hs : P s) : P (State.popCells s a2 a3 a4 a5 a6 a7 a8 a9) := by
  induction a9 generalizing s a2 a3 a4 a5 a6 a7 a8 with
  | zero =>
    unfold State.popCells
    exact hs
  | succ k0 ih =>
    unfold State.popCells
    extract_lets +onlyGivenNames -merge s0
    clear_value s0
    split
    · rename_i _ v2 v3
      have h4 : P v2 := pairSnd v3 (hP.popFor hs)
      exact h4
    · rename_i _ _ _ v8 v9
      have h10 : P v8 := pairSnd v9 (hP.popFor hs)
      extract_lets +onlyGivenNames -merge s11 s12
      have hs11 : P s11 := hP.popEnds (hP.writePopped h10)
      have hs12 : P s12 := hP.modOp hs11
      clear_value s11 s12
      split
      · exact hP.finishOp hs12
      · apply ih
        exact hs12

theorem Stable.execQueuePopToTile (hP : Stable P) {a1 a2 s} (hs : P s) : OutAll P (Machine.execQueuePopToTile a1 a2 s) := by
  unfold Machine.execQueuePopToTile
  refine OutAll.next ?_
  refine hP.withQueueOp hs ?_
  intro _ _ _ _ _ x5
  extract_lets +onlyGivenNames -merge s6
  clear_value s6
  split
  · exact hP.finishOp (hP.setReg x5)
  · exact hP.popCells x5

theorem Stable.execTakeCell (hP : Stable P) {a1 a2 a3 s} (hs : P s) : OutAll P (Machine.execTakeCell a1 a2 a3 s) := by
  unfold Machine.execTakeCell
  exact OutAll.next (hP.popOne hs)

theorem Stable.writeDropped (hP : Stable P) {s a2 a3 a4 a5 a6} (hs : P s) : P (State.writeDropped s a2 a3 a4 a5 a6) := by
  unfold State.writeDropped
  split
  · extract_lets +onlyGivenNames -merge s0
    have hs0 : P s0 := by
      unfold s0
      split
      · exact hP.writePopped hs
      · exact hs
    clear_value s0
    exact hP.modOp hs0
  · exact hs

theorem Stable.dropCells (hP : Stable P) {s a2 a3 a4 a5 a6 a7 a8} (hs : P s) : P (State.dropCells s a2 a3 a4 a5 a6 a7 a8) := by
  induction a8 generalizing s a2 a3 a4 a5 a6 a7 with
  | zero =>
    unfold State.dropCells
    exact hP.modQueue hs
  | succ k0 ih =>
    unfold State.dropCells
    split
    · exact hP.modQueue hs
    · extract_lets +onlyGivenNames -merge s0
      have hs0 : P s0 := hP.deliverHead hs
      clear_value s0
      split
      · exact hs0
      · extract_lets +onlyGivenNames -merge s1
        have hs1 : P s1 := hP.accept hs0
        clear_value s1
        split
        · exact hP.finishOp (hP.popEnds (hP.writeDropped hs1))
        · apply ih
          split
          · exact hP.writeDropped hs1
          · exact hP.bump hs1

theorem Stable.scrubQueued (hP : Stable P) {s a2 a3 a4} (hs : P s) : P (State.scrubQueued s a2 a3 a4) := by
  unfold State.scrubQueued
  extract_lets +onlyGivenNames -merge s0
  have hs0 : P s0 := hP.modQueue hs
  clear_value s0
  split
  · refine hP.checkCell ?_
    split
    · exact hP.bump hs0
    · exact hs0
  · exact hs0

theorem Stable.scrubMarker (hP : Stable P) {s a2 a3 a4} (hs : P s) : P (State.scrubMarker s a2 a3 a4) := by
  unfold State.scrubMarker
  extract_lets +onlyGivenNames -merge s0 s1
  have hs0 : P s0 := hP.modQueue hs
  have hs1 : P s1 := by
    unfold s1
    split
    · exact hP.bump hs0
    · exact hs0
  clear_value s0 s1
  exact hP.checkCell hs1

theorem Stable.scrubStaged (hP : Stable P) {s a2 a3} (hs : P s) : P (State.scrubStaged s a2 a3) := by
  unfold State.scrubStaged
  split
  · exact hs
  · extract_lets +onlyGivenNames -merge s0 s1 s2
    clear_value s1 s2
    have hs0 : P s0 := hP.quarantine hs
    clear_value s0
    exact hP.modCv (hP.tick hs0)

theorem Stable.scrubCell (hP : Stable P) {s a2 a3} (hs : P s) : P (State.scrubCell s a2 a3) := by
  unfold State.scrubCell
  split
  · exact hP.scrubQueued hs
  · exact hP.scrubMarker hs
  · split
    · exact hP.scrubHeld hs
    · split
      · exact hP.scrubStaged hs
      · split
        · exact hs
        · exact hP.scrubFree hs

theorem Stable.execScrubVisit (hP : Stable P) {a1 s} (hs : P s) : OutAll P (Machine.execScrubVisit a1 s) := by
  unfold Machine.execScrubVisit
  refine OutAll.next ?_
  split
  · exact hs
  · extract_lets +onlyGivenNames -merge s0
    clear_value s0
    exact hP.setReg (hP.scrubCell hs)

theorem Stable.resultPushed (hP : Stable P) {s a2} (hs : P s) : P (State.resultPushed s a2) := by
  unfold State.resultPushed
  split
  · exact hs
  · split
    · exact hs
    · extract_lets +onlyGivenNames -merge s0
      have hs0 : P s0 := hP.modXr hs
      clear_value s0
      split
      · exact hs0
      · exact hP.complete hs0

theorem Stable.execPopCell (hP : Stable P) {a1 a2 a3 s} (hs : P s) : OutAll P (Machine.execPopCell a1 a2 a3 s) := by
  unfold Machine.execPopCell
  exact OutAll.next (hP.popOne hs)

theorem Stable.dropDelivered (hP : Stable P) {s a2 a3 a4 a5 a6} (hs : P s) : P (State.dropDelivered s a2 a3 a4 a5 a6) := by
  unfold State.dropDelivered
  extract_lets +onlyGivenNames -merge s0 s1 s2
  clear_value s0
  have hs1 : P s1 := hP.modPal hs
  have hs2 : P s2 := foldlKeeps (fun _ _ x5 => hP.popEnds (hP.writeDropped (hP.accept x5))) _ hs1
  clear_value s1 s2
  split
  · exact hP.finishOp hs2
  · exact hs2

theorem Stable.execQueuePush (hP : Stable P) {a1 s} (hs : P s) : OutAll P (Machine.execQueuePush a1 s) := by
  unfold Machine.execQueuePush
  refine OutAll.next ?_
  refine hP.withQueueOp hs ?_
  intro _ _ _ _ _ x5
  extract_lets +onlyGivenNames -merge s6 s7
  clear_value s6
  have hs7 : P s7 := by
    unfold s7
    refine foldlKeeps ?_ _ ?_
    · intro _ _ x10
      extract_lets +onlyGivenNames -merge s11
      clear_value s11
      exact hP.pushItem x10
    · exact x5
  clear_value s7
  refine hP.finishOp ?_
  split
  · exact hP.resultPushed hs7
  · exact hs7

theorem Stable.execDropRemainder (hP : Stable P) {a1 s} (hs : P s) : OutAll P (Machine.execDropRemainder a1 s) := by
  unfold Machine.execDropRemainder
  refine OutAll.next ?_
  refine hP.withQueueOp hs ?_
  intro _ _ _ _ _ x5
  extract_lets +onlyGivenNames -merge s6
  clear_value s6
  split
  · exact hP.finishOp (hP.setReg x5)
  · split
    · exact x5
    · split
      · exact hP.dropDelivered x5
      · exact hP.dropCells x5

theorem Stable.execPoolLowClr (hP : Stable P) {s} (hs : P s) : OutAll P (Machine.execPoolLowClr s) := by
  unfold Machine.execPoolLowClr
  exact OutAll.next (hP.setReg (hP.setCmd hs))

theorem Stable.severDone (hP : Stable P) {s a2} (hs : P s) : P (State.severDone s a2) := by
  unfold State.severDone
  extract_lets +onlyGivenNames -merge s0 s1 s2 s3 s7 s8 s9 s10
  clear_value s0 s1 s2
  have hs3 : P s3 := by
    unfold s3
    split
    · exact hP.bump hs
    · exact foldlKeeps (fun _ _ x6 => hP.report x6) _ hs
  have hs7 : P s7 := by
    unfold s7
    split
    · exact hP.raise (hP.setReg hs3)
    · exact hs3
  have hs8 : P s8 := hP.modQueue hs7
  have hs9 : P s9 := hP.raise (hP.bump (hP.disarm hs8))
  have hs10 : P s10 := hP.markerVector (hP.watermark hs9)
  clear_value s3 s7 s8 s9 s10
  split
  · split
    · exact hs10
    · exact hP.deliverHead hs10
  · exact hs10

theorem Stable.execWatermarkQuery (hP : Stable P) {a1 s} (hs : P s) : OutAll P (Machine.execWatermarkQuery a1 s) := by
  unfold Machine.execWatermarkQuery
  refine OutAll.next ?_
  refine hP.withQueueOp hs ?_
  intro _ _ _ _ _ x5
  extract_lets +onlyGivenNames -merge s6 s7
  clear_value s6 s7
  exact hP.finishOp (hP.tileWriteNat x5)

theorem Stable.execSeverComplete (hP : Stable P) {a1 s} (hs : P s) : OutAll P (Machine.execSeverComplete a1 s) := by
  unfold Machine.execSeverComplete
  refine OutAll.next ?_
  split
  · exact hP.severDone hs
  · exact hs

theorem Stable.execFreeListRebuildDone (hP : Stable P) {s} (hs : P s) : OutAll P (Machine.execFreeListRebuildDone s) := by
  unfold Machine.execFreeListRebuildDone
  refine OutAll.next ?_
  split
  · exact hP.disarm (hP.setReg hs)
  · exact hs

theorem Stable.execPushCell (hP : Stable P) {a1 a2 a3 a4 a5 a6 s} (hs : P s) : OutAll P
    (Machine.execPushCell a1 a2 a3 a4 a5 a6 s) := by
  unfold Machine.execPushCell
  extract_lets +onlyGivenNames -merge s0
  have hs0 : P s0 := by
    unfold s0
    split
    · exact hs
    · exact hP.upsetTail hs
  clear_value s0
  exact OutAll.next (hP.pushItem hs0)

/-! ## Machine/Dense.lean -/

theorem Stable.modSide (hP : Stable P) {s a2 a3} (hs : P s) : P (State.modSide s a2 a3) := by
  unfold State.modSide
  exact hP.modRd hs

theorem Stable.streamed (hP : Stable P) {s a2 a3} (hs : P s) : P (State.streamed s a2 a3) := by
  unfold State.streamed
  split
  · exact hP.modOp hs
  · exact hs

theorem Stable.setElem (hP : Stable P) {s a2 a3 a4 a5 a6} (hs : P s) : P (State.setElem s a2 a3 a4 a5 a6) := by
  unfold State.setElem
  split
  · extract_lets +onlyGivenNames -merge s0
    clear_value s0
    exact hP.tileWriteNat hs
  · split
    · exact hP.tileWriteNat hs
    · exact hP.tileWriteNat hs

theorem Stable.sliceSet (hP : Stable P) {s a2 a3 a4 a5 a6} (hs : P s) : P (State.sliceSet s a2 a3 a4 a5 a6) := by
  unfold State.sliceSet
  exact hP.setElem hs

theorem Stable.putElem (hP : Stable P) {s pre a3 a4 a5 a6 a7 a8 a9 a10} (hs : P s) : P
    (State.putElem s pre a3 a4 a5 a6 a7 a8 a9 a10).1 := by
  unfold State.putElem
  extract_lets +onlyGivenNames -merge s0
  clear_value s0
  exact mkFst (hP.sliceSet hs)

theorem Stable.writeShare (hP : Stable P) {s a2 a3 a4 a5} (hs : P s) : P (State.writeShare s a2 a3 a4 a5).1 := by
  unfold State.writeShare
  extract_lets +onlyGivenNames -merge s0 s1 s2
  clear_value s0 s1 s2
  refine foldlFst ?_ _ ?_
  · intro _ _ x5
    extract_lets +onlyGivenNames -merge s6
    have hs6 : P s6.1 := hP.putElem x5
    clear_value s6
    exact mkFst hs6
  · exact mkFst hs

theorem Stable.countOp (hP : Stable P) {s a2 a3 a4} (hs : P s) : P (State.countOp s a2 a3 a4) := by
  unfold State.countOp
  extract_lets +onlyGivenNames -merge s0
  clear_value s0
  exact hP.bump (hP.bump (hP.bump (hP.tick hs)))

theorem Stable.readoutTile (hP : Stable P) {s a2 a3 a4 a5 a6} (hs : P s) : P (State.readoutTile s a2 a3 a4 a5 a6) := by
  unfold State.readoutTile
  extract_lets +onlyGivenNames -merge s0 s1 s10
  clear_value s0
  have hs1 : P s1 := by
    unfold s1
    refine foldlKeeps ?_ _ ?_
    · intro _ _ x4
      extract_lets +onlyGivenNames -merge s5
      have hs5 : ∀ a0 a1 a2, P a0 → P (s5 a0 a1 a2) := fun _ _ _ x9 => hP.tileWriteNat x9
      clear_value s5
      exact hs5 _ _ _ (hs5 _ _ _ (hs5 _ _ _ (hs5 _ _ _ x4)))
    · exact hs
  have hs10 : P s10 := by
    unfold s10
    split
    · exact foldlKeeps (fun _ _ x13 => hP.tileWriteNat (hP.tileWriteNat x13)) _ hs1
    · exact hs1
  clear_value s1 s10
  exact hP.countOp hs10

theorem Stable.denseParity (hP : Stable P) {s a2 a3} (hs : P s) : P (State.denseParity s a2 a3) := by
  unfold State.denseParity
  extract_lets +onlyGivenNames -merge s0 s1 s2
  clear_value s0
  have hs1 : P s1 := hP.modDeParity hs
  have hs2 : P s2 := hP.markPoisoned (hP.setReg (hP.bump hs1))
  clear_value s1 s2
  exact hP.raise hs2

theorem Stable.runReadout (hP : Stable P) {s a2 a3 a4} (hs : P s) : P (State.runReadout s a2 a3 a4) := by
  unfold State.runReadout
  split
  · exact hs
  · split
    · exact hs
    · extract_lets +onlyGivenNames -merge s0
      clear_value s0
      split
      · exact hP.boundsFail hs
      · extract_lets +onlyGivenNames -merge s1 s5
        have hs1 : P s1 := foldlKeeps (fun _ _ x4 => hP.readoutTile x4) _ hs
        have hs5 : P s5 := by
          unfold s5
          split
          · exact hP.denseParity (hP.tileUndef hs1)
          · assumption
        clear_value s1 s5
        exact hP.finishOp hs5

theorem Stable.execSurfaceCountReadout (hP : Stable P) {a1 a2 s} (hs : P s) : OutAll P
    (Machine.execSurfaceCountReadout a1 a2 s) := by
  unfold Machine.execSurfaceCountReadout
  exact OutAll.next (hP.runReadout hs)

theorem Stable.clampCount (hP : Stable P) {s a2 a3} (hs : P s) : P (State.clampCount s a2 a3).2 := by
  unfold State.clampCount
  split
  · exact mkSnd (hP.raise (hP.setReg hs))
  · exact mkSnd hs

theorem Stable.surfaceHit (hP : Stable P) {s a2 a3 a4 a5 a6 a7 a8} (hs : P s) : P (State.surfaceHit s a2 a3 a4 a5 a6 a7 a8) := by
  unfold State.surfaceHit
  extract_lets +onlyGivenNames -merge s0 s1 s2
  clear_value s0
  have hs1 : P s1 := hP.tileWriteNat hs
  have hs2 : P s2 := hP.tileWriteNat hs1
  clear_value s1 s2
  exact hP.tileWriteNat hs2

theorem Stable.contest (hP : Stable P) {s a2} (hs : P s) : P (State.contest s a2) := by
  unfold State.contest
  split
  · exact hs
  · extract_lets +onlyGivenNames -merge s0
    clear_value s0
    split
    · exact hs
    · extract_lets +onlyGivenNames -merge s1 s2
      clear_value s1
      have hs2 : P s2 := hP.streamed (hP.modSide hs)
      clear_value s2
      exact hP.bump (hP.bump hs2)

theorem Stable.runShare (hP : Stable P) {s a2 a3 a4 a5} (hs : P s) : P (State.runShare s a2 a3 a4 a5) := by
  unfold State.runShare
  extract_lets +onlyGivenNames -merge s0
  have hs0 : P s0.1 := hP.writeShare hs
  clear_value s0
  exact hP.countOp hs0

theorem Stable.runDense (hP : Stable P) {s a2 a3 a4} (hs : P s) : P (State.runDense s a2 a3 a4) := by
  unfold State.runDense
  split
  · exact hs
  · extract_lets +onlyGivenNames -merge s0
    clear_value s0
    split
    · exact hP.boundsFail hs
    · extract_lets +onlyGivenNames -merge s1 s5 s9 s10
      clear_value s9
      have hs1 : P s1 := foldlKeeps (fun _ _ x4 => hP.contest x4) _ hs
      have hs5 : P s5 := foldlKeeps (fun _ _ x8 => hP.runShare x8) _ hs1
      have hs10 : P s10 := by
        unfold s10
        split
        · exact hP.denseParity (hP.tileUndef hs5)
        · assumption
      clear_value s1 s5 s10
      exact hP.finishOp hs10

theorem Stable.execEltwise (hP : Stable P) {a1 a2 s} (hs : P s) : OutAll P (Machine.execEltwise a1 a2 s) := by
  unfold Machine.execEltwise
  exact OutAll.next (hP.runDense hs)

theorem Stable.execPool (hP : Stable P) {a1 a2 s} (hs : P s) : OutAll P (Machine.execPool a1 a2 s) := by
  unfold Machine.execPool
  exact OutAll.next (hP.runDense hs)

theorem Stable.batchClamp (hP : Stable P) {s a2 a3 a4} (hs : P s) : P (State.batchClamp s a2 a3 a4) := by
  unfold State.batchClamp
  split
  · exact hs
  · exact hP.raise (hP.markPoisoned (hP.bump (hP.setReg hs)))

theorem Stable.runBatch (hP : Stable P) {s a2 a3 a4} (hs : P s) : P (State.runBatch s a2 a3 a4) := by
  unfold State.runBatch
  extract_lets +onlyGivenNames -merge s0
  have hs0 : P s0.1 := by
    unfold s0
    refine foldlFst ?_ _ ?_
    · intro _ _ x3
      extract_lets +onlyGivenNames -merge s4
      have hs4 : P s4.1 := hP.writeShare (hP.batchClamp x3)
      clear_value s4
      exact mkFst hs4
    · exact mkFst hs
  clear_value s0
  exact hP.countOp hs0

theorem Stable.execGemmBatch (hP : Stable P) {a1 a2 s} (hs : P s) : OutAll P (Machine.execGemmBatch a1 a2 s) := by
  unfold Machine.execGemmBatch
  refine OutAll.next ?_
  split
  · exact hs
  · split
    · rename_i _ _ _ _ _ _ _ v7 v8
      have h9 : P v7 := pairSnd v8 (hP.clampCount hs)
      split
      · exact hP.boundsFail h9
      · extract_lets +onlyGivenNames -merge s10
        clear_value s10
        split
        · exact hP.boundsFail h9
        · extract_lets +onlyGivenNames -merge s11 s12 s16 s20
          clear_value s11
          have hs12 : P s12 := foldlKeeps (fun _ _ x15 => hP.contest x15) _ h9
          have hs16 : P s16 := foldlKeeps (fun _ _ x19 => hP.runBatch x19) _ hs12
          have hs20 : P s20 := by
            unfold s20
            split
            · split
              · refine hP.denseParity ?_
                refine foldlKeeps ?_ _ ?_
                · intro _ _ x23
                  split
                  · exact hP.tileUndef x23
                  · exact x23
                · exact hs16
              · exact hs16
            · exact hs16
          clear_value s12 s16 s20
          exact hP.finishOp hs20

theorem Stable.execGemm (hP : Stable P) {a1 a2 s} (hs : P s) : OutAll P (Machine.execGemm a1 a2 s) := by
  unfold Machine.execGemm
  exact OutAll.next (hP.runDense hs)

theorem Stable.surfaceCell (hP : Stable P) {s a2 a3 a4 a5 a6} (hs : P s) : P (State.surfaceCell s a2 a3 a4 a5 a6) := by
  unfold State.surfaceCell
  extract_lets +onlyGivenNames -merge s0 s1
  clear_value s0 s1
  split
  · exact hP.bump (hP.tileWriteNat hs)
  · split
    · exact hP.bump hs
    · split
      · exact hP.setReg (hP.setReg hs)
      · split
        · exact hP.endTaken hs
        · split
          · extract_lets +onlyGivenNames -merge s2 s3 s4 s5
            clear_value s2 s3 s4 s5
            split
            · exact hP.bump hs
            · exact hP.surfaceHit hs
          · exact hs

theorem Stable.surfaceCells (hP : Stable P) {s a2 a3 a4 a5 a6 a7} (hs : P s) : P (State.surfaceCells s a2 a3 a4 a5 a6 a7) := by
  induction a6 generalizing s a2 a3 a4 a5 a7 with
  | zero =>
    unfold State.surfaceCells
    exact hs
  | succ k0 ih =>
    unfold State.surfaceCells
    extract_lets +onlyGivenNames -merge s0
    clear_value s0
    apply ih
    exact hP.surfaceCell hs

theorem Stable.execSurfaceAccumulate (hP : Stable P) {a1 a2 s} (hs : P s) : OutAll P (Machine.execSurfaceAccumulate a1 a2 s) := by
  unfold Machine.execSurfaceAccumulate
  refine OutAll.next ?_
  split
  · exact hs
  · split
    · exact hs
    · split
      · rename_i _ _ _ _ _ _ _ _ v8 v9
        have h10 : P v8 := pairSnd v9 (hP.clampCount hs)
        extract_lets +onlyGivenNames -merge s11
        clear_value s11
        split
        · exact hP.boundsFail h10
        · extract_lets +onlyGivenNames -merge s12 s16
          have hs12 : P s12 := foldlKeeps (fun _ _ x15 => hP.countOp (hP.surfaceCells x15)) _ h10
          have hs16 : P s16 := by
            unfold s16
            split
            · exact hP.denseParity (hP.tileUndef hs12)
            · assumption
          clear_value s12 s16
          exact hP.finishOp hs16

theorem Stable.execConv (hP : Stable P) {a1 a2 s} (hs : P s) : OutAll P (Machine.execConv a1 a2 s) := by
  unfold Machine.execConv
  exact OutAll.next (hP.runDense hs)

theorem Stable.execSurfaceTimeReadout (hP : Stable P) {a1 a2 s} (hs : P s) : OutAll P (Machine.execSurfaceTimeReadout a1 a2 s) := by
  unfold Machine.execSurfaceTimeReadout
  exact OutAll.next (hP.runReadout hs)

theorem Stable.execGconv (hP : Stable P) {a1 a2 s} (hs : P s) : OutAll P (Machine.execGconv a1 a2 s) := by
  unfold Machine.execGconv
  exact OutAll.next (hP.runDense hs)

/-! ## Machine/Moves.lean -/

theorem Stable.putBlock (hP : Stable P) {s a2 a3 a4 a5 a6} (hs : P s) : P (State.putBlock s a2 a3 a4 a5 a6) := by
  unfold State.putBlock
  refine foldlKeeps ?_ _ ?_
  · intro _ _ x2
    extract_lets +onlyGivenNames -merge s3 s4
    clear_value s3 s4
    split
    · exact hP.setElem x2
    · exact x2
  · exact hs

theorem Stable.sendMove (hP : Stable P) {s a2 a3 a4 a5 a6} (hs : P s) : P (State.sendMove s a2 a3 a4 a5 a6) := by
  unfold State.sendMove
  extract_lets +onlyGivenNames -merge s0
  have hs0 : P s0 := hP.inject hs
  clear_value s0
  split
  · exact hP.denseParity hs0
  · exact hs0

theorem Stable.readMap (hP : Stable P) {s a2 a3 a4} (hs : P s) : P (State.readMap s a2 a3 a4) := by
  unfold State.readMap
  refine foldlKeeps ?_ _ ?_
  · intro _ _ x2
    extract_lets +onlyGivenNames -merge s3 s4
    clear_value s3
    have hs4 : P s4 := by
      unfold s4
      split
      · exact hP.bump x2
      · exact x2
    clear_value s4
    exact hP.putBlock hs4
  · exact hs

theorem Stable.countKib (hP : Stable P) {s a2 a3} (hs : P s) : P (State.countKib s a2 a3) := by
  unfold State.countKib
  extract_lets +onlyGivenNames -merge s0
  clear_value s0
  exact hP.bump (hP.tick hs)

theorem Stable.execReshard (hP : Stable P) {a1 a2 s} (hs : P s) : OutAll P (Machine.execReshard a1 a2 s) := by
  unfold Machine.execReshard
  refine OutAll.next ?_
  split
  · split
    · exact hs
    · extract_lets +onlyGivenNames -merge s0 s1 s2
      clear_value s0 s1 s2
      split
      · exact hP.boundsFail hs
      · split
        · exact hP.boundsFail hs
        · split
          · exact hs
          · extract_lets +onlyGivenNames -merge s3
            have hs3 : P s3 := foldlKeeps (fun _ _ x6 => hP.sendMove x6) _ hs
            clear_value s3
            split
            · exact hP.finishOp hs3
            · exact hP.modOp hs3
  · exact hs

theorem Stable.execMoveTileToMemory (hP : Stable P) {a1 a2 s} (hs : P s) : OutAll P (Machine.execMoveTileToMemory a1 a2 s) := by
  unfold Machine.execMoveTileToMemory
  refine OutAll.next ?_
  split
  · split
    · exact hs
    · extract_lets +onlyGivenNames -merge s0
      clear_value s0
      split
      · exact hP.boundsFail hs
      · split
        · exact hs
        · extract_lets +onlyGivenNames -merge s1 s2 s3 s4
          clear_value s1 s3
          have hs2 : P s2 := hP.modExt (Mem.writeBytes_wf _ _ _) hs
          have hs4 : P s4 := by
            unfold s4
            split
            · exact hP.denseParity (hP.tick (hP.modExt (Mem.makeUndef_wf _ _ _ _) hs2))
            · exact hs2
          clear_value s2 s4
          exact hP.finishOp (hP.countKib (hP.countKib hs4))
  · exact hs

theorem Stable.execMoveMemoryToTile (hP : Stable P) {a1 s} (hs : P s) : OutAll P (Machine.execMoveMemoryToTile a1 s) := by
  unfold Machine.execMoveMemoryToTile
  refine OutAll.next ?_
  split
  · split
    · exact hs
    · extract_lets +onlyGivenNames -merge s0
      clear_value s0
      split
      · exact hP.boundsFail hs
      · split
        · exact hs
        · extract_lets +onlyGivenNames -merge s1
          have hs1 : P s1 := by
            unfold s1
            split
            · exact hP.readMap hs
            · exact hP.tileWrite hs
          clear_value s1
          exact hP.finishOp (hP.countKib (hP.countKib hs1))
  · exact hs

theorem Stable.execMoveTileToTile (hP : Stable P) {a1 a2 s} (hs : P s) : OutAll P (Machine.execMoveTileToTile a1 a2 s) := by
  unfold Machine.execMoveTileToTile
  refine OutAll.next ?_
  split
  · split
    · exact hs
    · extract_lets +onlyGivenNames -merge s0
      clear_value s0
      split
      · exact hP.boundsFail hs
      · split
        · exact hs
        · exact hP.modOp (hP.sendMove hs)
  · exact hs

/-! ## Machine/Pixel.lean -/

theorem Stable.execTex (hP : Stable P) {a1 a2 s} (hs : P s) : OutAll P (Machine.execTex a1 a2 s) := by
  unfold Machine.execTex
  refine OutAll.next ?_
  split
  · exact hs
  · extract_lets +onlyGivenNames -merge s0 s1
    clear_value s0
    have hs1 : P s1 := hP.modRd hs
    clear_value s1
    split
    · exact hP.bump hs1
    · exact hs1

theorem Stable.pixelOp (hP : Stable P) {s a2} (hs : P s) : P (State.pixelOp s a2) := by
  unfold State.pixelOp
  split
  · exact hs
  · exact hP.modRd hs

theorem Stable.execKill (hP : Stable P) {a1 s} (hs : P s) : OutAll P (Machine.execKill a1 s) := by
  unfold Machine.execKill
  exact OutAll.next (hP.pixelOp hs)

theorem Stable.execMinOp (hP : Stable P) {a1 a2 a3 s} (hs : P s) : OutAll P (Machine.execMinOp a1 a2 a3 s) := by
  unfold Machine.execMinOp
  exact OutAll.next (hP.pixelOp hs)

theorem Stable.execSwz (hP : Stable P) {a1 a2 a3 s} (hs : P s) : OutAll P (Machine.execSwz a1 a2 a3 s) := by
  unfold Machine.execSwz
  exact OutAll.next (hP.pixelOp hs)

theorem Stable.execAddOp (hP : Stable P) {a1 a2 a3 s} (hs : P s) : OutAll P (Machine.execAddOp a1 a2 a3 s) := by
  unfold Machine.execAddOp
  exact OutAll.next (hP.pixelOp hs)

theorem Stable.execEndOp (hP : Stable P) {s} (hs : P s) : OutAll P (Machine.execEndOp s) := by
  unfold Machine.execEndOp
  exact OutAll.next (hP.pixelOp hs)

theorem Stable.execConstOp (hP : Stable P) {a1 a2 s} (hs : P s) : OutAll P (Machine.execConstOp a1 a2 s) := by
  unfold Machine.execConstOp
  exact OutAll.next (hP.pixelOp hs)

theorem Stable.execMaxOp (hP : Stable P) {a1 a2 a3 s} (hs : P s) : OutAll P (Machine.execMaxOp a1 a2 a3 s) := by
  unfold Machine.execMaxOp
  exact OutAll.next (hP.pixelOp hs)

theorem Stable.execRcp (hP : Stable P) {a1 a2 s} (hs : P s) : OutAll P (Machine.execRcp a1 a2 s) := by
  unfold Machine.execRcp
  exact OutAll.next (hP.pixelOp hs)

theorem Stable.execMov (hP : Stable P) {a1 a2 s} (hs : P s) : OutAll P (Machine.execMov a1 a2 s) := by
  unfold Machine.execMov
  exact OutAll.next (hP.pixelOp hs)

theorem Stable.execMulOp (hP : Stable P) {a1 a2 a3 s} (hs : P s) : OutAll P (Machine.execMulOp a1 a2 a3 s) := by
  unfold Machine.execMulOp
  exact OutAll.next (hP.pixelOp hs)

theorem Stable.execMad (hP : Stable P) {a1 a2 a3 s} (hs : P s) : OutAll P (Machine.execMad a1 a2 a3 s) := by
  unfold Machine.execMad
  exact OutAll.next (hP.pixelOp hs)

theorem Stable.execSat (hP : Stable P) {a1 a2 s} (hs : P s) : OutAll P (Machine.execSat a1 a2 s) := by
  unfold Machine.execSat
  exact OutAll.next (hP.pixelOp hs)

/-! ## Machine/ExpertOps.lean -/

theorem Stable.modEntry (hP : Stable P) {s a2 a3} (hs : P s) : P (State.modEntry s a2 a3) := by
  unfold State.modEntry
  split
  · exact hP.modXr hs
  · exact hs

theorem Stable.setHazard (hP : Stable P) {s a2 a3} (hs : P s) : P (State.setHazard s a2 a3) := by
  unfold State.setHazard
  extract_lets +onlyGivenNames -merge s0 s1
  clear_value s0
  have hs1 : P s1 := by
    unfold s1
    split
    · exact hs
    · exact hP.bump hs
  clear_value s1
  exact hP.modEntry (hP.modXr hs1)

theorem Stable.tokenLost (hP : Stable P) {s a2} (hs : P s) : P (State.tokenLost s a2) := by
  unfold State.tokenLost
  split
  · exact hs
  · split
    · exact hs
    · extract_lets +onlyGivenNames -merge s0 s1
      have hs0 : P s0 := hP.disarm hs
      have hs1 : P s1 := hP.modXr hs0
      clear_value s0 s1
      split
      · exact hP.setHazard hs1
      · exact hs1

/-! ## Machine/Renderer.lean -/

theorem Stable.showBin (hP : Stable P) {s} (hs : P s) : P (State.showBin s) := by
  unfold State.showBin
  extract_lets +onlyGivenNames -merge s0 s1
  clear_value s0
  have hs1 : P s1 := hP.setReg hs
  clear_value s1
  split
  · exact hP.setReg hs1
  · exact hs1

theorem Stable.clearSealed (hP : Stable P) {s} (hs : P s) : P (State.clearSealed s) := by
  unfold State.clearSealed
  exact hP.showBin (hP.setReg (hP.modRd hs))

theorem Stable.endFrame (hP : Stable P) {s a2 a3 a4 a5} (hs : P s) : P (State.endFrame s a2 a3 a4 a5) := by
  unfold State.endFrame
  extract_lets +onlyGivenNames -merge s0
  have hs0 : P s0 := by
    unfold s0
    split
    · exact hP.report hs
    · exact hs
  clear_value s0
  refine foldlKeeps ?_ _ ?_
  · intro _ _ x3
    split
    · assumption
    · split
      · exact hP.report x3
      · exact hP.report x3
  · exact hs0

theorem Stable.dropOpen (hP : Stable P) {s a2 a3} (hs : P s) : P (State.dropOpen s a2 a3) := by
  unfold State.dropOpen
  extract_lets +onlyGivenNames -merge s0 s1 s2
  clear_value s0
  have hs1 : P s1 := hP.endFrame hs
  have hs2 : P s2 := hP.modRd hs1
  clear_value s1 s2
  exact hP.showBin hs2

theorem Stable.binParity (hP : Stable P) {s a2} (hs : P s) : P (State.binParity s a2) := by
  unfold State.binParity
  extract_lets +onlyGivenNames -merge s0 s1
  have hs0 : P s0 := hP.raise (hP.setReg hs)
  have hs1 : P s1 := by
    unfold s1
    split
    · split
      · exact hP.bump (hP.clearSealed (hP.endFrame hs0))
      · exact hs0
    · exact hs0
  clear_value s0 s1
  split
  · exact hP.dropOpen hs1
  · assumption

theorem Stable.modOpen (hP : Stable P) {s a2} (hs : P s) : P (State.modOpen s a2) := by
  unfold State.modOpen
  exact hP.modRd hs

theorem Stable.modDraw (hP : Stable P) {s a2 a3} (hs : P s) : P (State.modDraw s a2 a3) := by
  unfold State.modDraw
  exact hP.modOpen hs

theorem Stable.poisonDraw (hP : Stable P) {s} (hs : P s) : P (State.poisonDraw s) := by
  unfold State.poisonDraw
  split
  · exact hs
  · split
    · split
      · exact hs
      · exact hP.modDraw (hP.report hs)
    · exact hs

theorem Stable.supersede (hP : Stable P) {s} (hs : P s) : P (State.supersede s) := by
  unfold State.supersede
  split
  · exact hs
  · exact hP.bump (hP.clearSealed (hP.endFrame hs))

theorem Stable.completeDraws (hP : Stable P) {s a2} (hs : P s) : P (State.completeDraws s a2).2 := by
  unfold State.completeDraws
  extract_lets +onlyGivenNames -merge s0 s1
  clear_value s0 s1
  exact mkSnd (foldlKeeps (fun _ _ x4 => hP.complete x4) _ hs)

theorem Stable.seal (hP : Stable P) {s} (hs : P s) : P (State.seal s) := by
  unfold State.seal
  extract_lets +onlyGivenNames -merge s0 s1 s2
  clear_value s0 s1
  have hs2 : ∀ a0, P a0 → P (s2 a0) := fun _ x4 => hP.showBin (hP.setReg (hP.modRd x4))
  clear_value s2
  split
  · exact hs2 _ (hP.bump hs)
  · extract_lets +onlyGivenNames -merge s5
    have hs5 : P s5 := hP.supersede hs
    clear_value s5
    split
    · extract_lets +onlyGivenNames -merge s6 s7
      clear_value s6 s7
      split
      · rename_i _ _ _ _ _ _ _ v15 v16
        have h17 : P v15 := pairSnd v16 (hP.completeDraws hs5)
        exact hs2 _ (hP.bump (hP.setReg (hP.modRd h17)))

theorem Stable.modList (hP : Stable P) {s a2} (hs : P s) : P (State.modList s a2) := by
  unfold State.modList
  exact hP.modRd hs

theorem Stable.breakList (hP : Stable P) {s a2} (hs : P s) : P (State.breakList s a2) := by
  unfold State.breakList
  exact hP.modList (hP.poisonDraw (hP.markPoisoned (hP.bump hs)))

theorem Stable.newDraw (hP : Stable P) {s a2 a3} (hs : P s) : P (State.newDraw s a2 a3).2 := by
  unfold State.newDraw
  extract_lets +onlyGivenNames -merge s0 s1 s2
  clear_value s0
  have hs1 : P s1 := hP.bump (hP.takeItem hs)
  have hs2 : P s2 := by
    unfold s2
    split
    · exact hP.dropOpen hs1
    · exact hs1
  clear_value s1 s2
  split
  · exact mkSnd (hP.report hs2)
  · exact mkSnd (hP.modOpen hs2)

theorem Stable.takeH0 (hP : Stable P) {s a2} (hs : P s) : P (State.takeH0 s a2) := by
  unfold State.takeH0
  extract_lets +onlyGivenNames -merge s0
  clear_value s0
  split
  · exact hP.modList hs
  · split
    · exact hP.breakList hs
    · extract_lets +onlyGivenNames -merge s1
      have hs1 : P s1 := hP.modList hs
      clear_value s1
      split
      · exact hs1
      · extract_lets +onlyGivenNames -merge s2 s3
        clear_value s2
        have hs3 : P s3.2 := hP.newDraw hs1
        clear_value s3
        exact hP.modList hs3

theorem Stable.withGroup (hP : Stable P) {s a2 a3} (hs : P s) (ha3 : ∀ b0 b1 b2 b3, P b3 → P (a3 b0 b1 b2 b3)) : P
    (State.withGroup s a2 a3) := by
  unfold State.withGroup
  split
  · exact hs
  · split
    · exact hs
    · split
      · exact hs
      · extract_lets +onlyGivenNames -merge s0
        have hs0 : P s0 := by
          unfold s0
          split
          · exact hP.poisonDraw hs
          · exact ha3 _ _ _ _ hs
        clear_value s0
        exact hP.modList hs0

theorem Stable.setTexture (hP : Stable P) {s a2} (hs : P s) : P (State.setTexture s a2) := by
  unfold State.setTexture
  extract_lets +onlyGivenNames -merge s0 s1
  clear_value s0 s1
  exact hP.modRd hs

theorem Stable.execTextureSlot (hP : Stable P) {s} (hs : P s) : OutAll P (Machine.execTextureSlot s) := by
  unfold Machine.execTextureSlot
  refine OutAll.next ?_
  split
  · exact hP.withGroup hs ((fun _ _ _ _ x4 => hP.setTexture x4))
  · exact hs

theorem Stable.setTransform (hP : Stable P) {s a2 a3} (hs : P s) : P (State.setTransform s a2 a3) := by
  unfold State.setTransform
  extract_lets +onlyGivenNames -merge s0
  clear_value s0
  exact hP.modRd hs

theorem Stable.execTransform (hP : Stable P) {s} (hs : P s) : OutAll P (Machine.execTransform s) := by
  unfold Machine.execTransform
  refine OutAll.next ?_
  split
  · exact hP.withGroup hs ((fun _ _ _ _ x4 => hP.setTransform x4))
  · exact hs

theorem Stable.addEntry (hP : Stable P) {s a2 a3 a4} (hs : P s) : P (State.addEntry s a2 a3 a4) := by
  unfold State.addEntry
  split
  · exact hs
  · extract_lets +onlyGivenNames -merge s0 s1
    clear_value s0
    have hs1 : P s1 := by
      unfold s1
      split
      · exact hs
      · split
        · exact hP.dropOpen hs
        · exact hP.showBin (hP.modOpen hs)
    clear_value s1
    split
    · exact hs1
    · exact hP.modOpen hs1

theorem Stable.binPrim (hP : Stable P) {s a2 a3} (hs : P s) : P (State.binPrim s a2 a3) := by
  unfold State.binPrim
  split
  · exact hs
  · split
    · exact hP.dropOpen hs
    · extract_lets +onlyGivenNames -merge s0 s1
      clear_value s0
      have hs1 : P s1 := hP.modOpen (hP.modDraw hs)
      clear_value s1
      exact foldlKeeps (fun _ _ x4 => hP.addEntry x4) _ (hP.showBin hs1)

theorem Stable.binAll (hP : Stable P) {s a2 a3 a4} (hs : P s) : P (State.binAll s a2 a3 a4) := by
  unfold State.binAll
  refine foldlKeeps ?_ _ ?_
  · intro _ _ x2
    extract_lets +onlyGivenNames -merge s3
    have hs3 : P s3 := hP.bump x2
    clear_value s3
    split
    · exact hP.bump hs3
    · split
      · exact hs3
      · exact hP.binPrim hs3
  · exact hs

theorem Stable.binGroup (hP : Stable P) {s a2 a3 a4} (hs : P s) : P (State.binGroup s a2 a3 a4) := by
  unfold State.binGroup
  split
  · exact hs
  · split
    · exact hP.bump hs
    · extract_lets +onlyGivenNames -merge s0 s1
      clear_value s0
      have hs1 : P s1 := hP.modDraw hs
      clear_value s1
      exact hP.binAll hs1

theorem Stable.anyGroup (hP : Stable P) {s} (hs : P s) : P (State.anyGroup s) := by
  unfold State.anyGroup
  split
  · exact hs
  · refine hP.withGroup hs ?_
    intro _ _ _ _ x4
    split
    · exact hP.setTransform x4
    · split
      · exact hP.setTexture x4
      · exact hP.binGroup x4

theorem Stable.execScreenTileTake (hP : Stable P) {a1 s} (hs : P s) : OutAll P (Machine.execScreenTileTake a1 s) := by
  unfold Machine.execScreenTileTake
  refine OutAll.next ?_
  split
  · split
    · exact hs
    · split
      · exact hs
      · extract_lets +onlyGivenNames -merge s0 s1 s2
        clear_value s0 s1
        have hs2 : P s2 := by
          unfold s2
          split
          · exact hP.modSide hs
          · exact hs
        clear_value s2
        split
        · extract_lets +onlyGivenNames -merge s3
          have hs3 : P s3 := hP.modRd (hP.modSide hs2)
          clear_value s3
          split
          · exact hP.bump hs3
          · exact hs3
        · exact hP.streamed (hP.bump hs2)
  · exact hs

theorem Stable.cursor (hP : Stable P) {s} (hs : P s) : P (State.cursor s) := by
  unfold State.cursor
  split
  · exact hs
  · extract_lets +onlyGivenNames -merge s0
    have hs0 : P s0.2 := hP.newDraw hs
    clear_value s0
    split
    · exact hP.binAll hs0
    · exact hs0

theorem Stable.writeTile (hP : Stable P) {s a2 a3 a4 a5} (hs : P s) : P (State.writeTile s a2 a3 a4 a5) := by
  unfold State.writeTile
  extract_lets +onlyGivenNames -merge s0 s1 s2
  clear_value s0 s1
  have hs2 : P s2 := by
    unfold s2
    split
    · exact hP.tileWrite hs
    · assumption
  clear_value s2
  refine foldlKeeps ?_ _ ?_
  · intro _ _ x5
    extract_lets +onlyGivenNames -merge s6 s7
    clear_value s6 s7
    split
    · exact hP.modExt (Mem.writeBytes_wf _ _ _) x5
    · exact x5
  · exact hs2

theorem Stable.frameReady (hP : Stable P) {s a2} (hs : P s) : P (State.frameReady s a2) := by
  unfold State.frameReady
  extract_lets +onlyGivenNames -merge s0 s1
  have hs0 : P s0 := by
    unfold s0
    split
    · exact hP.complete hs
    · exact hs
  have hs1 : P s1 := by
    unfold s1
    split
    · exact hP.bump hs0
    · assumption
  clear_value s0 s1
  exact hP.setReg (hP.modRd (hP.clearSealed hs1))

theorem Stable.tileFinished (hP : Stable P) {s a2 a3} (hs : P s) : P (State.tileFinished s a2 a3) := by
  unfold State.tileFinished
  extract_lets +onlyGivenNames -merge s0 s1
  clear_value s0 s1
  split
  · rename_i _ _ v4 v5
    have h6 : P v4 := pairSnd v5 (hP.completeDraws hs)
    extract_lets +onlyGivenNames -merge s7
    have hs7 : P s7 := hP.showBin (hP.modRd h6)
    clear_value s7
    split
    · exact hP.frameReady hs7
    · exact hs7

theorem Stable.drawTile (hP : Stable P) {s a2 a3 a4} (hs : P s) : P (State.drawTile s a2 a3 a4) := by
  unfold State.drawTile
  extract_lets +onlyGivenNames -merge s0 s1 s2 s3 s4
  clear_value s0 s3
  have hs1 : P s1 := hP.modRd (hP.tick (hP.writeTile hs))
  have hs2 : P s2 := hP.bump (hP.bump hs1)
  have hs4 : P s4 := by
    unfold s4
    split
    · exact hP.raise hs2
    · exact hs2
  clear_value s1 s2 s4
  exact hP.tileFinished hs4

theorem Stable.execScreenTileDone (hP : Stable P) {a1 a2 s} (hs : P s) : OutAll P (Machine.execScreenTileDone a1 a2 s) := by
  unfold Machine.execScreenTileDone
  split
  · split
    · exact OutAll.next hs
    · extract_lets +onlyGivenNames -merge s0
      have hs0 : P s0 := hP.modSide (hP.contest hs)
      clear_value s0
      split
      · exact OutAll.next (hP.binParity hs0)
      · split
        · exact trivial
        · exact OutAll.next (hP.drawTile hs0)
  · exact OutAll.next (hP.modSide hs)
  · exact OutAll.next hs

theorem Stable.execTriangleList (hP : Stable P) {s} (hs : P s) : OutAll P (Machine.execTriangleList s) := by
  unfold Machine.execTriangleList
  refine OutAll.next ?_
  split
  · exact hP.withGroup hs ((fun _ _ _ _ x4 => hP.binGroup x4))
  · exact hs

theorem Stable.execUnderpaint (hP : Stable P) {a1 s} (hs : P s) : OutAll P (Machine.execUnderpaint a1 s) := by
  unfold Machine.execUnderpaint
  refine OutAll.next ?_
  split
  · exact hs
  · extract_lets +onlyGivenNames -merge s0 s1 s2 s3
    clear_value s0
    have hs1 : P s1 := hP.takeItem hs
    have hs2 : P s2 := by
      unfold s2
      split
      · exact hP.complete hs1
      · exact hs1
    have hs3 : P s3 := by
      unfold s3
      split
      · exact hP.report hs1
      · exact hP.modOpen hs2
    clear_value s1 s2 s3
    exact hP.finishOp hs3

theorem Stable.execTriangleStrip (hP : Stable P) {s} (hs : P s) : OutAll P (Machine.execTriangleStrip s) := by
  unfold Machine.execTriangleStrip
  refine OutAll.next ?_
  split
  · exact hP.withGroup hs ((fun _ _ _ _ x4 => hP.binGroup x4))
  · exact hs

theorem Stable.wanted (hP : Stable P) {s a2} (hs : P s) : P (State.wanted s a2) := by
  unfold State.wanted
  exact hP.modRd hs

theorem Stable.endList (hP : Stable P) {s a2} (hs : P s) : P (State.endList s a2) := by
  unfold State.endList
  extract_lets +onlyGivenNames -merge s0 s1
  clear_value s0
  have hs1 : P s1 := by
    unfold s1
    split
    · exact hP.breakList hs
    · assumption
  clear_value s1
  exact hP.endTaken (hP.modRd hs1)

theorem Stable.listCell (hP : Stable P) {s a2 a3 a4} (hs : P s) : P (State.listCell s a2 a3 a4) := by
  unfold State.listCell
  split
  · split
    · exact hP.modRd hs
    · exact hs
  · split
    · exact hs
    · extract_lets +onlyGivenNames -merge s0
      have hs0 : P s0 := by
        unfold s0
        split
        · exact hP.modRd hs
        · exact hs
      clear_value s0
      split
      · exact hs0
      · split
        · exact hP.endList hs0
        · split
          · exact hs0
          · split
            · exact hP.takeH0 hs0
            · exact hP.modList hs0

theorem Stable.takeDraw (hP : Stable P) {s a2} (hs : P s) : P (State.takeDraw s a2) := by
  unfold State.takeDraw
  split
  · exact hs
  · split
    · rename_i _ _ _ _ v4 v5
      have h6 : P v4 := pairSnd v5 (hP.popFor hs)
      exact h6
    · rename_i _ _ _ _ _ _ v13 v14
      have h15 : P v13 := pairSnd v14 (hP.popFor hs)
      exact hP.listCell (hP.wanted h15)

theorem Stable.drainDraws (hP : Stable P) {s a2} (hs : P s) : P (State.drainDraws s a2) := by
  induction a2 generalizing s with
  | zero =>
    unfold State.drainDraws
    exact hs
  | succ k0 ih =>
    unfold State.drainDraws
    split
    · apply ih
      exact hP.anyGroup hs
    · split
      · exact hs
      · split
        · exact hs
        · apply ih
          exact hP.takeDraw hs

theorem Stable.beginClose (hP : Stable P) {s a2} (hs : P s) : P (State.beginClose s a2) := by
  unfold State.beginClose
  exact hP.modRd (hP.modOp hs)

theorem Stable.execCloseFrame (hP : Stable P) {a1 s} (hs : P s) : OutAll P (Machine.execCloseFrame a1 s) := by
  unfold Machine.execCloseFrame
  refine OutAll.next ?_
  split
  · extract_lets +onlyGivenNames -merge s0 s1
    have hs0 : P s0 := by
      unfold s0
      split
      · exact hs
      · exact hP.beginClose hs
    have hs1 : P s1 := hP.drainDraws hs0
    clear_value s0 s1
    split
    · exact hs1
    · exact hP.finishOp (hP.seal (hP.cursor hs1))
  · exact hs

theorem Stable.execDrawListTake (hP : Stable P) {a1 s} (hs : P s) : OutAll P (Machine.execDrawListTake a1 s) := by
  unfold Machine.execDrawListTake
  refine OutAll.next ?_
  split
  · exact hs
  · exact hP.takeDraw hs

theorem Stable.execLineList (hP : Stable P) {s} (hs : P s) : OutAll P (Machine.execLineList s) := by
  unfold Machine.execLineList
  refine OutAll.next ?_
  split
  · exact hP.withGroup hs ((fun _ _ _ _ x4 => hP.binGroup x4))
  · exact hs

theorem Stable.execGlyphQuads (hP : Stable P) {s} (hs : P s) : OutAll P (Machine.execGlyphQuads s) := by
  unfold Machine.execGlyphQuads
  refine OutAll.next ?_
  split
  · exact hP.withGroup hs ((fun _ _ _ _ x4 => hP.binGroup x4))
  · exact hs

/-! ## Machine/Display.lean -/

theorem Stable.flip (hP : Stable P) {s} (hs : P s) : P (State.flip s) := by
  unfold State.flip
  split
  · extract_lets +onlyGivenNames -merge s0
    have hs0 : P s0 := hP.modRd hs
    clear_value s0
    exact hP.bump (hP.setReg (hP.setReg hs0))
  · split
    · exact hP.bump hs
    · exact hs

theorem Stable.execFrameStart (hP : Stable P) {s} (hs : P s) : OutAll P (Machine.execFrameStart s) := by
  unfold Machine.execFrameStart
  refine OutAll.next ?_
  split
  · exact hs
  · extract_lets +onlyGivenNames -merge s0
    have hs0 : P s0 := hP.arm (hP.arm hs)
    clear_value s0
    exact hP.flip (hP.modRd hs0)

theorem Stable.dcsWrite (hP : Stable P) {s a2 a3 a4} (hs : P s) : P (State.dcsWrite s a2 a3 a4) := by
  unfold State.dcsWrite
  split
  · exact hs
  · exact hP.modRd (hP.setCmd hs)

theorem Stable.execDcsShortWrite (hP : Stable P) {s} (hs : P s) : OutAll P (Machine.execDcsShortWrite s) := by
  unfold Machine.execDcsShortWrite
  exact OutAll.next (hP.dcsWrite hs)

theorem Stable.execDcsLongWrite (hP : Stable P) {s} (hs : P s) : OutAll P (Machine.execDcsLongWrite s) := by
  unfold Machine.execDcsLongWrite
  extract_lets +onlyGivenNames -merge s0 s1 s2
  clear_value s0 s1 s2
  exact OutAll.next (hP.tick (hP.dcsWrite hs))

theorem Stable.execDcsShortWriteParam (hP : Stable P) {s} (hs : P s) : OutAll P (Machine.execDcsShortWriteParam s) := by
  unfold Machine.execDcsShortWriteParam
  exact OutAll.next (hP.dcsWrite hs)

theorem Stable.execVideo (hP : Stable P) {a1 s} (hs : P s) : OutAll P (Machine.execVideo a1 s) := by
  unfold Machine.execVideo
  refine OutAll.next ?_
  split
  · exact hs
  · split
    · exact hP.modRd (hP.disarm (hP.disarm (hP.setReg (hP.setReg hs))))
    · split
      · exact hs
      · split
        · exact hP.arm (hP.setReg (hP.setReg hs))
        · exact hP.setReg hs

theorem Stable.underran (hP : Stable P) {s} (hs : P s) : P (State.underran s) := by
  unfold State.underran
  extract_lets +onlyGivenNames -merge s0 s1 s2
  clear_value s0 s1
  have hs2 : P s2 := hP.modRd (hP.bump (hP.setReg hs))
  clear_value s2
  split
  · exact hP.raise hs2
  · exact hs2

theorem Stable.execDsiLine (hP : Stable P) {a1 s} (hs : P s) : OutAll P (Machine.execDsiLine a1 s) := by
  unfold Machine.execDsiLine
  refine OutAll.next ?_
  split
  · exact hs
  · extract_lets +onlyGivenNames -merge s0 s1 s2 s3 s4 s5 s6 s7
    clear_value s0 s1 s2 s3 s4 s5
    have hs6 : P s6 := hP.modRd (hP.tick hs)
    have hs7 : P s7 := by
      unfold s7
      split
      · exact hP.underran hs6
      · exact hs6
    clear_value s6 s7
    split
    · exact hP.arm hs7
    · exact hP.disarm hs7

/-! ## Machine/Experts.lean -/

theorem Stable.moveBias (hP : Stable P) {s a2 a3 a4} (hs : P s) : P (State.moveBias s a2 a3 a4) := by
  unfold State.moveBias
  extract_lets +onlyGivenNames -merge s0
  clear_value s0
  split
  · extract_lets +onlyGivenNames -merge s1 s2 s3
    clear_value s1 s2 s3
    exact hP.setRegS hs
  · exact hs

theorem Stable.takeResult (hP : Stable P) {s a2 a3 a4} (hs : P s) : P (State.takeResult s a2 a3 a4) := by
  unfold State.takeResult
  split
  · exact hs
  · extract_lets +onlyGivenNames -merge s0
    clear_value s0
    split
    · exact hP.bump hs
    · split
      · exact hP.bump hs
      · split
        · exact hP.bump (hP.inform hs)
        · split
          · exact hP.tokenLost (hP.report hs)
          · extract_lets +onlyGivenNames -merge s1
            clear_value s1
            exact hP.disarm (hP.modXr hs)

theorem Stable.dropToken (hP : Stable P) {s a2} (hs : P s) : P (State.dropToken s a2) := by
  unfold State.dropToken
  extract_lets +onlyGivenNames -merge s0 s1
  have hs0 : P s0 := hP.modXr hs
  have hs1 : P s1 := hP.bump (hP.bump hs0)
  clear_value s0 s1
  exact hP.tokenLost (hP.report hs1)

theorem Stable.makeToken (hP : Stable P) {s a2 a3 a4 a5 a6} (hs : P s) : P (State.makeToken s a2 a3 a4 a5 a6) := by
  unfold State.makeToken
  extract_lets +onlyGivenNames -merge s0 s1 s2 s3
  clear_value s0 s1 s2
  have hs3 : P s3 := hP.bump (hP.takeItem hs)
  clear_value s3
  exact hP.modXr hs3

theorem Stable.selectExperts (hP : Stable P) {s a2 a3 a4 a5} (hs : P s) : P (State.selectExperts s a2 a3 a4 a5) := by
  unfold State.selectExperts
  extract_lets +onlyGivenNames -merge s0 s1
  clear_value s0 s1
  split
  · exact hP.setHazard hs
  · split
    · exact hP.bump (hP.setHazard hs)
    · split
      · extract_lets +onlyGivenNames -merge s2
        clear_value s2
        exact hP.makeToken (hP.makeToken hs)
      · exact hP.makeToken hs
      · exact hP.setHazard hs

theorem Stable.takeCandidate (hP : Stable P) {s a2 a3 a4 a5 a6} (hs : P s) : P (State.takeCandidate s a2 a3 a4 a5 a6) := by
  unfold State.takeCandidate
  extract_lets +onlyGivenNames -merge s0 s1
  clear_value s0
  have hs1 : ∀ a0 a1, P a0 → P (s1 a0 a1) := fun _ _ x4 => hP.modXr x4
  clear_value s1
  split
  · exact hP.setHazard (hs1 _ _ hs)
  · extract_lets +onlyGivenNames -merge s5 s6 s7
    clear_value s6 s7
    have hs5 : P s5 := by
      unfold s5
      split
      · exact hP.modEntry hs
      · exact hs
    clear_value s5
    split
    · exact hP.bump (hP.modEntry (hs1 _ _ hs5))
    · exact hP.selectExperts (hP.modEntry (hs1 _ _ hs5))

theorem Stable.compactList (hP : Stable P) {s a2 a3 a4 a5 a6} (hs : P s) : P (State.compactList s a2 a3 a4 a5 a6) := by
  unfold State.compactList
  split
  · extract_lets +onlyGivenNames -merge s0 s1 s2
    clear_value s0 s1 s2
    exact hP.tileWrite hs
  · exact hs

theorem Stable.verdict (hP : Stable P) {s a2 a3} (hs : P s) : P (State.verdict s a2 a3).2 := by
  unfold State.verdict
  extract_lets +onlyGivenNames -merge s0 s1 s2 s3
  clear_value s0 s1 s2 s3
  split
  · extract_lets +onlyGivenNames -merge s4
    clear_value s4
    exact mkSnd hs
  · split
    · extract_lets +onlyGivenNames -merge s5
      clear_value s5
      exact mkSnd (hP.tick hs)
    · split
      · extract_lets +onlyGivenNames -merge s6 s7
        clear_value s6
        have hs7 : P s7 := hP.modEntry (hP.tick hs)
        clear_value s7
        exact mkSnd hs7

theorem Stable.takeLocal (hP : Stable P) {s a2 a3 a4 a5 a6} (hs : P s) : P (State.takeLocal s a2 a3 a4 a5 a6) := by
  unfold State.takeLocal
  split
  · exact hP.tokenLost hs
  · split
    · exact hP.tokenLost (hP.report (hP.unmark hs))
    · split
      · exact hP.tokenLost (hP.report hs)
      · extract_lets +onlyGivenNames -merge s0
        clear_value s0
        exact hP.modXr hs

theorem Stable.verdicts (hP : Stable P) {s a2 a3} (hs : P s) : P (State.verdicts s a2 a3).2 := by
  induction a3 generalizing s a2 with
  | nil =>
    unfold State.verdicts
    exact mkSnd hs
  | cons c0 l0 ih =>
    unfold State.verdicts
    extract_lets +onlyGivenNames -merge s0 s1
    have hs0 : P s0.2 := hP.verdict hs
    have hs1 : P s1.2 := by
      unfold s1
      apply ih
      exact hs0
    clear_value s0 s1
    exact mkSnd hs1

theorem Stable.writeBias (hP : Stable P) {s a2 a3} (hs : P s) : P (State.writeBias s a2 a3) := by
  unfold State.writeBias
  exact hP.modXr hs

theorem Stable.execBiasWrite (hP : Stable P) {a1 a2 s} (hs : P s) : OutAll P (Machine.execBiasWrite a1 a2 s) := by
  unfold Machine.execBiasWrite
  refine OutAll.next ?_
  split
  · exact hP.writeBias hs
  · exact hs

theorem Stable.applyCapacity (hP : Stable P) {s a2 a3 a4} (hs : P s) : P (State.applyCapacity s a2 a3 a4) := by
  unfold State.applyCapacity
  extract_lets +onlyGivenNames -merge s0 s1 s2
  clear_value s0 s1 s2
  refine foldlKeeps ?_ _ ?_
  · intro _ _ x5
    extract_lets +onlyGivenNames -merge s6 s7
    clear_value s6 s7
    exact foldlKeeps (fun _ _ x10 => hP.dropToken x10) _ x5
  · exact hs

theorem Stable.writeRouting (hP : Stable P) {s a2 a3 a4 a5 a6} (hs : P s) : P (State.writeRouting s a2 a3 a4 a5 a6) := by
  unfold State.writeRouting
  split
  · extract_lets +onlyGivenNames -merge s0 s1
    clear_value s0 s1
    exact hP.tick (hP.modTmem (Mem.makeUndef_wf _ _ _ _) hs)
  · exact hs

theorem Stable.execExitOp (hP : Stable P) {a1 s} (hs : P s) : OutAll P (Machine.execExitOp a1 s) := by
  unfold Machine.execExitOp
  refine OutAll.next ?_
  split
  · exact hs
  · split
    · extract_lets +onlyGivenNames -merge s0 s1 s2 s3 s8 s9 s10
      clear_value s0 s1 s2 s9
      have hs3 : P s3 := by
        unfold s3
        refine foldlKeeps ?_ _ ?_
        · intro _ _ x6
          extract_lets +onlyGivenNames -merge s7
          clear_value s7
          exact hP.modXr (hP.bump x6)
        · exact hs
      have hs8 : P s8 := hP.modScratch (Mem.writeBytes_wf _ _ _) hs3
      have hs10 : P s10 := hP.writeRouting hs8
      clear_value s3 s8 s10
      exact hP.finishOp (hP.compactList hs10)
    · exact hP.boundsFail hs

theorem Stable.takeReturns (hP : Stable P) {s a2 a3 a4 a5} (hs : P s) : P (State.takeReturns s a2 a3 a4 a5) := by
  induction a4 generalizing s a2 a3 a5 with
  | zero =>
    unfold State.takeReturns
    exact hs
  | succ k0 ih =>
    unfold State.takeReturns
    split
    · exact hs
    · split
      · rename_i _ _ v2 v3
        have h4 : P v2 := pairSnd v3 (hP.popFor hs)
        exact h4
      · rename_i _ _ _ _ v9 v10
        have h11 : P v9 := pairSnd v10 (hP.popFor hs)
        extract_lets +onlyGivenNames -merge s12
        clear_value s12
        split
        · apply ih
          exact h11
        · split
          · split
            · apply ih
              exact h11
            · extract_lets +onlyGivenNames -merge s13 s14
              clear_value s13
              have hs14 : P s14 := by
                unfold s14
                split
                · exact h11
                · exact hP.takeResult h11
              clear_value s14
              apply ih
              exact hP.endTaken hs14
          · apply ih
            exact h11

theorem Stable.pushToken (hP : Stable P) {s a2 a3 a4 a5} (hs : P s) : P (State.pushToken s a2 a3 a4 a5) := by
  unfold State.pushToken
  extract_lets +onlyGivenNames -merge s0 s1
  clear_value s0
  have hs1 : P s1 := hP.pushItemAll hs
  clear_value s1
  split
  · exact hP.tokenLost hs1
  · extract_lets +onlyGivenNames -merge s2
    have hs2 : P s2 := hP.modXr hs1
    clear_value s2
    split
    · exact hP.arm hs2
    · exact hs2

theorem Stable.writeKept (hP : Stable P) {s a2 a3} (hs : P s) : P (State.writeKept s a2 a3) := by
  unfold State.writeKept
  extract_lets +onlyGivenNames -merge s0
  clear_value s0
  exact hP.modScratch (Mem.writeBytes_wf _ _ _) hs

theorem Stable.execDispatch (hP : Stable P) {a1 a2 s} (hs : P s) : OutAll P (Machine.execDispatch a1 a2 s) := by
  unfold Machine.execDispatch
  refine OutAll.next ?_
  split
  · exact hs
  · split
    · exact hs
    · split
      · extract_lets +onlyGivenNames -merge s0 s1 s2 s3 s4
        clear_value s0 s1 s2 s3 s4
        split
        · exact hP.boundsFail hs
        · extract_lets +onlyGivenNames -merge s5 s6 s7 s11 s15 s16 s17 s18 s22
          clear_value s6 s17
          have hs5 : P s5 := hP.modXr hs
          have hs7 : P s7 := foldlKeeps (fun _ _ x10 => hP.takeCandidate x10) _ hs5
          have hs11 : P s11 := foldlKeeps (fun _ _ x14 => hP.setHazard (hP.modXr x14)) _ hs7
          have hs15 : P s15 := by
            unfold s15
            split
            · exact hP.raise (hP.setReg hs11)
            · exact hs11
          have hs16 : P s16 := hP.applyCapacity hs15
          have hs18 : P s18 := by
            unfold s18
            refine foldlKeeps ?_ _ ?_
            · intro _ _ x21
              split
              · exact hP.pushToken x21
              · exact x21
            · exact hs16
          have hs22 : P s22 := hP.writeKept hs18
          clear_value s5 s7 s11 s15 s16 s18 s22
          exact hP.finishOp (hP.writeRouting hs22)
      · exact hP.boundsFail hs

theorem Stable.execBiasUpdate (hP : Stable P) {s} (hs : P s) : OutAll P (Machine.execBiasUpdate s) := by
  unfold Machine.execBiasUpdate
  refine OutAll.next ?_
  split
  · exact hs
  · extract_lets +onlyGivenNames -merge s0 s1 s2 s3 s4 s8 s9
    clear_value s0 s1 s2 s3 s8
    have hs4 : P s4 := foldlKeeps (fun _ _ x7 => hP.moveBias x7) _ hs
    have hs9 : P s9 := by
      unfold s9
      split
      · exact foldlKeeps (fun _ _ x12 => hP.setReg (hP.setReg x12)) _ hs4
      · exact hs
    clear_value s4 s9
    exact hP.modXr hs9

theorem Stable.execCombine (hP : Stable P) {a1 a2 s} (hs : P s) : OutAll P (Machine.execCombine a1 a2 s) := by
  unfold Machine.execCombine
  refine OutAll.next ?_
  split
  · exact hs
  · split
    · extract_lets +onlyGivenNames -merge s0 s5 s6 s10
      clear_value s5 s10
      have hs0 : P s0 := by
        unfold s0
        refine foldlKeeps ?_ _ ?_
        · intro _ _ x3
          extract_lets +onlyGivenNames -merge s4
          clear_value s4
          split
          · exact hP.takeReturns x3
          · exact x3
        · exact hs
      have hs6 : P s6 := foldlKeeps (fun _ _ x9 => hP.tokenLost x9) _ hs0
      clear_value s0 s6
      split
      · exact hs6
      · extract_lets +onlyGivenNames -merge s11 s15 s16 s17 s21
        clear_value s16
        have hs11 : P s11 := foldlKeeps (fun _ _ x14 => hP.takeLocal x14) _ hs6
        have hs15 : P s15.2 := hP.verdicts hs11
        have hs17 : P s17 := by
          unfold s17
          refine foldlKeeps ?_ _ ?_
          · intro _ _ x20
            split
            · exact x20
            · exact hP.complete x20
          · exact hs15
        have hs21 : P s21 := hP.pushItemAll hs17
        clear_value s11 s15 s17 s21
        exact hP.finishOp (hP.modXr hs21)
    · exact hP.boundsFail hs

theorem Stable.execRemoteTmo (hP : Stable P) {a1 s} (hs : P s) : OutAll P (Machine.execRemoteTmo a1 s) := by
  unfold Machine.execRemoteTmo
  refine OutAll.next ?_
  split
  · exact hP.tokenLost (hP.report (hP.disarm hs))
  · exact hs

/-! ## Machine/Observe.lean -/

theorem Stable.modSrc (hP : Stable P) {s a2 a3} (hs : P s) : P (State.modSrc s a2 a3) := by
  unfold State.modSrc
  exact hP.modFu hs

theorem Stable.seeEvent (hP : Stable P) {s a2 a3 a4 a5 a6 a7} (hs : P s) : P (State.seeEvent s a2 a3 a4 a5 a6 a7) := by
  unfold State.seeEvent
  split
  · exact hs
  · extract_lets +onlyGivenNames -merge s0
    have hs0 : P s0 := hP.modSrc hs
    clear_value s0
    split
    · exact hP.modFu hs0
    · exact hs0

theorem Stable.sourceAlive (hP : Stable P) {s a2} (hs : P s) : P (State.sourceAlive s a2) := by
  unfold State.sourceAlive
  extract_lets +onlyGivenNames -merge s0
  clear_value s0
  exact hP.modSrc hs

theorem Stable.setFront (hP : Stable P) {s a2 a3} (hs : P s) : P (State.setFront s a2 a3) := by
  unfold State.setFront
  split
  · exact hP.sourceAlive (hP.setReg (hP.modFu hs))
  · exact hs

theorem Stable.portFront (hP : Stable P) {s a2 a3} (hs : P s) : P (State.portFront s a2 a3) := by
  unfold State.portFront
  split
  · refine foldlKeeps ?_ _ ?_
    · intro _ _ x2
      split
      · exact hP.setFront x2
      · exact x2
    · exact hs
  · exact hs

/-! ## Machine/Ingress.lean -/

theorem Stable.modPort (hP : Stable P) {s a2 a3} (hs : P s) : P (State.modPort s a2 a3) := by
  unfold State.modPort
  exact hP.modEi hs

theorem Stable.portError (hP : Stable P) {s a2 a3} (hs : P s) : P (State.portError s a2 a3) := by
  unfold State.portError
  extract_lets +onlyGivenNames -merge s0 s1
  clear_value s0
  have hs1 : P s1 := hP.modPort hs
  clear_value s1
  split
  · exact hP.raise hs1
  · exact hs1

theorem Stable.modThermal (hP : Stable P) {s a2 a3} (hs : P s) : P (State.modThermal s a2 a3) := by
  unfold State.modThermal
  exact hP.modEi hs

theorem Stable.thermalPush (hP : Stable P) {s a2 a3 a4 a5} (hs : P s) : P (State.thermalPush s a2 a3 a4 a5) := by
  unfold State.thermalPush
  extract_lets +onlyGivenNames -merge s0 s1
  clear_value s1
  have hs0 : P s0 := hP.epochMark hs
  clear_value s0
  exact hP.modThermal (hP.push hs0)

theorem Stable.portMark (hP : Stable P) {s a2 a3} (hs : P s) : P (State.portMark s a2 a3) := by
  unfold State.portMark
  exact hP.epochMark hs

theorem Stable.portFirst (hP : Stable P) {s a2} (hs : P s) : P (State.portFirst s a2) := by
  unfold State.portFirst
  split
  · exact hP.portMark hs
  · exact hs

theorem Stable.countThermal (hP : Stable P) {s a2 a3 a4} (hs : P s) : P (State.countThermal s a2 a3 a4) := by
  unfold State.countThermal
  exact hP.bump hs

theorem Stable.execCntClr (hP : Stable P) {a1 s} (hs : P s) : OutAll P (Machine.execCntClr a1 s) := by
  unfold Machine.execCntClr
  refine OutAll.next ?_
  split
  · exact hs
  · exact foldlKeeps (fun _ _ x2 => hP.setReg x2) _ (hP.setCmd hs)

theorem Stable.fillLines (hP : Stable P) {s a2 a3} (hs : P s) : P (State.fillLines s a2 a3) := by
  induction a3 generalizing s a2 with
  | zero =>
    unfold State.fillLines
    exact hs
  | succ k0 ih =>
    unfold State.fillLines
    split
    · extract_lets +onlyGivenNames -merge s0
      have hs0 : P s0 := foldlKeeps (fun _ _ x3 => hP.thermalPush x3) _ hs
      clear_value s0
      apply ih
      exact hP.modThermal hs0
    · exact hs

theorem Stable.applyCopy (hP : Stable P) {s a2} (hs : P s) : P (State.applyCopy s a2) := by
  unfold State.applyCopy
  extract_lets +onlyGivenNames -merge s0 s1 s2 s3 s4 s5 s6
  clear_value s0 s1 s2
  have hs3 : P s3 := hP.modPort hs
  have hs4 : P s4 := by
    unfold s4
    split
    · exact hs3
    · exact hP.modPort hs3
  have hs5 : P s5 := by
    unfold s5
    split
    · exact hs4
    · exact hP.modPort hs4
  have hs6 : P s6 := hP.setReg hs5
  clear_value s3 s4 s5 s6
  split
  · exact hP.disarm hs6
  · split
    · exact hs6
    · exact hP.arm (hP.modPort hs6)

theorem Stable.execCommitApply (hP : Stable P) {a1 s} (hs : P s) : OutAll P (Machine.execCommitApply a1 s) := by
  unfold Machine.execCommitApply
  refine OutAll.next ?_
  split
  · exact hs
  · split
    · exact hP.setReg (hP.setReg hs)
    · exact hP.applyCopy hs

theorem Stable.execCommit (hP : Stable P) {a1 s} (hs : P s) : OutAll P (Machine.execCommit a1 s) := by
  unfold Machine.execCommit
  refine OutAll.next ?_
  split
  · exact hs
  · extract_lets +onlyGivenNames -merge s0
    have hs0 : P s0 := hP.setCmd hs
    clear_value s0
    exact hP.setReg hs0

theorem Stable.execPortEn (hP : Stable P) {a1 a2 s} (hs : P s) : OutAll P (Machine.execPortEn a1 a2 s) := by
  unfold Machine.execPortEn
  refine OutAll.next ?_
  split
  · exact hs
  · split
    · extract_lets +onlyGivenNames -merge s0
      have hs0 : P s0 := by
        unfold s0
        split
        · exact hs
        · exact hP.forgetMarks hs
      clear_value s0
      exact hP.modTm (hP.setReg hs0)
    · exact hP.setReg hs

theorem Stable.portItem (hP : Stable P) {s a2} (hs : P s) : P (State.portItem s a2).2 := by
  unfold State.portItem
  exact mkSnd (hP.takeItem hs)

theorem Stable.countPort (hP : Stable P) {s a2 a3 a4} (hs : P s) : P (State.countPort s a2 a3 a4) := by
  unfold State.countPort
  exact hP.bump hs

theorem Stable.portGap (hP : Stable P) {s a2 a3} (hs : P s) : P (State.portGap s a2 a3) := by
  unfold State.portGap
  extract_lets +onlyGivenNames -merge s0 s1 s2
  clear_value s0 s1 s2
  split
  · assumption
  · exact foldlKeeps (fun _ _ x5 => hP.push x5) _ (hP.portFirst hs)

theorem Stable.damaged (hP : Stable P) {s a2 a3 a4 a5 a6} (hs : P s) : P (State.damaged s a2 a3 a4 a5 a6) := by
  unfold State.damaged
  extract_lets +onlyGivenNames -merge s0 s1
  have hs0 : P s0 := hP.report (hP.countPort hs)
  have hs1 : P s1 := by
    unfold s1
    split
    · exact hP.portError hs0
    · exact hs0
  clear_value s0 s1
  exact hP.portGap hs1

theorem Stable.execEventPacketReceive (hP : Stable P) {a1 a2 a3 a4 a5 a6 s} (hs : P s) : OutAll P
    (Machine.execEventPacketReceive a1 a2 a3 a4 a5 a6 s) := by
  unfold Machine.execEventPacketReceive
  refine OutAll.next ?_
  split
  · exact hs
  · split
    · split
      · rename_i _ _ _ _ v4 v5
        have h6 : P v4 := pairSnd v5 (hP.portItem hs)
        exact hP.damaged h6
    · split
      · exact hs
      · split
        · exact hP.countPort hs
        · split
          · rename_i _ _ _ _ _ _ v13 v14
            have h15 : P v13 := pairSnd v14 (hP.portItem hs)
            extract_lets +onlyGivenNames -merge s16
            have hs16 : P s16 := hP.countPort h15
            clear_value s16
            split
            · exact hP.damaged hs16
            · split
              · exact hP.damaged hs16
              · split
                · exact hP.damaged hs16
                · exact hP.refreshXoff (hP.modPort hs16)

theorem Stable.aerClose (hP : Stable P) {s} (hs : P s) : P (State.aerClose s) := by
  unfold State.aerClose
  split
  · exact hP.refreshXoff (hP.disarm (hP.modPort (hP.modEi hs)))
  · exact hs

theorem Stable.refractPut (hP : Stable P) {s a2 a3} (hs : P s) : P (State.refractPut s a2 a3) := by
  unfold State.refractPut
  extract_lets +onlyGivenNames -merge s0
  clear_value s0
  exact hP.modPort hs

theorem Stable.thermalError (hP : Stable P) {s a2} (hs : P s) : P (State.thermalError s a2) := by
  unfold State.thermalError
  extract_lets +onlyGivenNames -merge s0 s1
  clear_value s0
  have hs1 : P s1 := hP.modEi hs
  clear_value s1
  split
  · exact hP.raise hs1
  · exact hs1

theorem Stable.execThermalLine (hP : Stable P) {a1 a2 a3 a4 a5 a6 a7 s} (hs : P s) : OutAll P
    (Machine.execThermalLine a1 a2 a3 a4 a5 a6 a7 s) := by
  unfold Machine.execThermalLine
  refine OutAll.next ?_
  split
  · exact hs
  · split
    · exact hP.thermalError (hP.countThermal hs)
    · split
      · exact hs
      · split
        · exact hP.countThermal hs
        · split
          · split
            · exact hs
            · extract_lets +onlyGivenNames -merge s0 s1 s2 s3
              clear_value s1
              have hs0 : P s0 := hP.fillLines hs
              have hs2 : P s2 := by
                unfold s2
                split
                · exact hs0
                · exact hP.countThermal hs0
              have hs3 : P s3 := foldlKeeps (fun _ _ x6 => hP.thermalPush x6) _ hs2
              clear_value s0 s2 s3
              exact hP.modThermal hs3
          · exact hs

theorem Stable.glintCount (hP : Stable P) {s a2 a3} (hs : P s) : P (State.glintCount s a2 a3).2 := by
  unfold State.glintCount
  extract_lets +onlyGivenNames -merge s0 s1 s2 s3
  clear_value s0 s1 s2 s3
  exact mkSnd (hP.modPort hs)

theorem Stable.glintFilter (hP : Stable P) {s a2 a3} (hs : P s) : P (State.glintFilter s a2 a3).2 := by
  unfold State.glintFilter
  extract_lets +onlyGivenNames -merge s0
  clear_value s0
  split
  · exact mkSnd hs
  · split
    · rename_i _ _ _ v4 v5
      have h6 : P v4 := pairSnd v5 (hP.glintCount hs)
      split
      · exact mkSnd h6
      · split
        · exact mkSnd h6
        · exact mkSnd (hP.countPort h6)

theorem Stable.filterEvent (hP : Stable P) {s a2 a3} (hs : P s) : P (State.filterEvent s a2 a3).2 := by
  unfold State.filterEvent
  extract_lets +onlyGivenNames -merge s0
  clear_value s0
  split
  · exact mkSnd (hP.countPort hs)
  · extract_lets +onlyGivenNames -merge s1 s2
    clear_value s1 s2
    split
    · exact mkSnd (hP.countPort hs)
    · extract_lets +onlyGivenNames -merge s3
      have hs3 : P s3 := by
        unfold s3
        split
        · exact hs
        · exact hP.refractPut hs
      clear_value s3
      split
      · exact mkSnd (hP.countPort hs3)
      · split
        · rename_i _ _ _ _ _ _ _ _ _ _ v14 v15
          have h16 : P v14 := pairSnd v15 (hP.glintFilter hs3)
          exact mkSnd h16
        · rename_i _ _ _ _ _ _ _ _ _ _ _ v28 v29
          have h30 : P v28 := pairSnd v29 (hP.glintFilter hs3)
          exact mkSnd h30

theorem Stable.execPseudoPacketTimeout (hP : Stable P) {s} (hs : P s) : OutAll P (Machine.execPseudoPacketTimeout s) := by
  unfold Machine.execPseudoPacketTimeout
  refine OutAll.next ?_
  split
  · exact hP.aerClose hs
  · exact hs

theorem Stable.endThermal (hP : Stable P) {s a2} (hs : P s) : P (State.endThermal s a2) := by
  unfold State.endThermal
  split
  · extract_lets +onlyGivenNames -merge s0
    have hs0 : P s0 := hP.fillLines hs
    clear_value s0
    split
    · extract_lets +onlyGivenNames -merge s1 s2 s3 s4 s5
      clear_value s1 s3
      have hs2 : P s2 := hP.thermalPush hs0
      have hs4 : P s4 := hP.countThermal (hP.countThermal (hP.countThermal hs2))
      have hs5 : P s5 := by
        unfold s5
        split
        · exact hP.report hs4
        · exact hs4
      clear_value s2 s4 s5
      exact hP.modThermal hs5
    · exact hs0
  · exact hs

theorem Stable.execThermalFrameStart (hP : Stable P) {a1 a2 a3 s} (hs : P s) : OutAll P
    (Machine.execThermalFrameStart a1 a2 a3 s) := by
  unfold Machine.execThermalFrameStart
  refine OutAll.next ?_
  split
  · exact hs
  · split
    · exact hP.endThermal hs
    · extract_lets +onlyGivenNames -merge s0 s1 s2
      clear_value s1
      have hs0 : P s0 := hP.endThermal hs
      have hs2 : P s2 := hP.takeItem hs0
      clear_value s0 s2
      split
      · exact hP.thermalError (hP.report (hP.countThermal hs2))
      · extract_lets +onlyGivenNames -merge s3 s4 s5
        clear_value s3 s5
        have hs4 : P s4 := hP.modThermal hs2
        clear_value s4
        exact hP.thermalPush hs4

theorem Stable.aerSample (hP : Stable P) {s a2} (hs : P s) : P (State.aerSample s a2) := by
  unfold State.aerSample
  extract_lets +onlyGivenNames -merge s0 s1
  clear_value s0
  have hs1 : P s1 := hP.modPins hs
  clear_value s1
  split
  · exact hP.countPort hs1
  · extract_lets +onlyGivenNames -merge s2 s3 s13
    clear_value s2
    have hs3 : P s3 := by
      unfold s3
      split
      · exact hs1
      · split
        · rename_i _ _ _ _ _ v9 v10
          have h11 : P v9 := pairSnd v10 (hP.portItem hs1)
          extract_lets +onlyGivenNames -merge s12
          clear_value s12
          exact hP.arm (hP.modEi (hP.countPort h11))
    have hs13 : P s13 := hP.modEi hs3
    clear_value s3 s13
    split
    · split
      · exact hP.aerClose hs13
      · exact hs13
    · exact hs13

theorem Stable.execAerRequest (hP : Stable P) {a1 s} (hs : P s) : OutAll P (Machine.execAerRequest a1 s) := by
  unfold Machine.execAerRequest
  refine OutAll.next ?_
  split
  · exact hs
  · split
    · exact hP.aerSample hs
    · exact hP.arm (hP.modEi hs)

theorem Stable.writeEvent (hP : Stable P) {s a2 a3 a4 a5 a6 a7} (hs : P s) : P (State.writeEvent s a2 a3 a4 a5 a6 a7).2 := by
  unfold State.writeEvent
  split
  · exact mkSnd (hP.countPort hs)
  · split
    · rename_i _ _ v2 v3
      have h4 : P v2 := pairSnd v3 (hP.filterEvent hs)
      exact mkSnd h4
    · rename_i _ _ _ v8 v9
      have h10 : P v8 := pairSnd v9 (hP.filterEvent hs)
      extract_lets +onlyGivenNames -merge s11 s12 s13 s14 s15 s16 s17
      clear_value s11 s12 s13 s14 s16
      have hs15 : P s15 := hP.portMark h10
      have hs17 : P s17 := hP.push hs15
      clear_value s15 s17
      exact mkSnd (hP.seeEvent hs17)

theorem Stable.writeEvents (hP : Stable P) {s a2 a3 a4 a5 a6} (hs : P s) : P (State.writeEvents s a2 a3 a4 a5 a6).2 := by
  induction a6 generalizing s a2 a3 a4 a5 with
  | nil =>
    unfold State.writeEvents
    exact mkSnd hs
  | cons c0 l0 ih =>
    unfold State.writeEvents
    extract_lets +onlyGivenNames -merge s0
    have hs0 : P s0.2 := hP.writeEvent hs
    clear_value s0
    apply ih
    exact hs0

theorem Stable.endPacket (hP : Stable P) {s a2 a3 a4 a5 a6} (hs : P s) : P (State.endPacket s a2 a3 a4 a5 a6) := by
  unfold State.endPacket
  extract_lets +onlyGivenNames -merge s0 s1 s2 s3 s4 s5 s6
  clear_value s1 s2 s4
  have hs0 : P s0 := hP.portFirst hs
  have hs3 : P s3 := hP.push hs0
  have hs5 : P s5 := by
    unfold s5
    split
    · exact hP.countPort hs3
    · exact hs3
  have hs6 : P s6 := by
    unfold s6
    split
    · exact hP.report hs5
    · exact hs5
  clear_value s0 s3 s5 s6
  exact foldlKeeps (fun _ _ x9 => hP.portGap x9) _ (hP.countPort hs6)

theorem Stable.writePacket (hP : Stable P) {s a2 a3} (hs : P s) : P (State.writePacket s a2 a3) := by
  unfold State.writePacket
  extract_lets +onlyGivenNames -merge s0
  have hs0 : P s0 := hP.modPort hs
  clear_value s0
  split
  · extract_lets +onlyGivenNames -merge s1 s2
    have hs1 : P s1 := hP.countPort hs0
    have hs2 : P s2.2 := hP.writeEvents hs1
    clear_value s1 s2
    exact hP.endPacket hs2
  · extract_lets +onlyGivenNames -merge s3 s4 s5 s6
    clear_value s3 s4
    have hs5 : P s5 := hP.countPort (hP.modPort hs0)
    have hs6 : P s6.2 := hP.writeEvents hs5
    clear_value s5 s6
    exact hP.portFront (hP.endPacket hs6)

theorem Stable.aerRetry (hP : Stable P) {s} (hs : P s) : P (State.aerRetry s) := by
  unfold State.aerRetry
  split
  · split
    · exact hP.aerSample (hP.disarm (hP.modEi hs))
    · exact hs
  · exact hs

theorem Stable.execEventPacketWrite (hP : Stable P) {a1 s} (hs : P s) : OutAll P (Machine.execEventPacketWrite a1 s) := by
  unfold Machine.execEventPacketWrite
  refine OutAll.next ?_
  split
  · split
    · exact hs
    · extract_lets +onlyGivenNames -merge s0
      have hs0 : P s0 := hP.refreshXoff (hP.writePacket hs)
      clear_value s0
      split
      · exact hP.aerRetry hs0
      · exact hs0
  · exact hs

theorem Stable.execGlintHoldExpire (hP : Stable P) {a1 s} (hs : P s) : OutAll P (Machine.execGlintHoldExpire a1 s) := by
  unfold Machine.execGlintHoldExpire
  exact OutAll.next (hP.modPort hs)

theorem Stable.execAerReqFall (hP : Stable P) {s} (hs : P s) : OutAll P (Machine.execAerReqFall s) := by
  unfold Machine.execAerReqFall
  refine OutAll.next ?_
  split
  · exact hP.modPins hs
  · exact hs

theorem Stable.execHotClr (hP : Stable P) {a1 s} (hs : P s) : OutAll P (Machine.execHotClr a1 s) := by
  unfold Machine.execHotClr
  refine OutAll.next ?_
  refine hP.modPort ?_
  split
  · exact hs
  · exact hP.setCmd hs

theorem Stable.execLinkError (hP : Stable P) {a1 a2 s} (hs : P s) : OutAll P (Machine.execLinkError a1 a2 s) := by
  unfold Machine.execLinkError
  refine OutAll.next ?_
  split
  · exact hs
  · split
    · rename_i _ _ _ v3 v4
      have h5 : P v3 := pairSnd v4 (hP.portItem hs)
      extract_lets +onlyGivenNames -merge s6 s7
      have hs6 : P s6 := hP.countPort h5
      have hs7 : P s7 := by
        unfold s7
        split
        · exact hP.setReg hs6
        · exact hs6
      clear_value s6 s7
      exact hP.damaged hs7

theorem Stable.execRefractSweep (hP : Stable P) {a1 s} (hs : P s) : OutAll P (Machine.execRefractSweep a1 s) := by
  unfold Machine.execRefractSweep
  refine OutAll.next ?_
  extract_lets +onlyGivenNames -merge s0
  clear_value s0
  exact hP.modPort hs

theorem Stable.execGlintWindowEnd (hP : Stable P) {a1 s} (hs : P s) : OutAll P (Machine.execGlintWindowEnd a1 s) := by
  unfold Machine.execGlintWindowEnd
  refine OutAll.next ?_
  split
  · extract_lets +onlyGivenNames -merge s0 s1 s2
    clear_value s0 s1
    have hs2 : P s2 := hP.modPort hs
    clear_value s2
    exact hP.arm hs2
  · exact hs

theorem Stable.execAerHoldExpire (hP : Stable P) {s} (hs : P s) : OutAll P (Machine.execAerHoldExpire s) := by
  unfold Machine.execAerHoldExpire
  refine OutAll.next ?_
  split
  · exact hP.modPins (hP.disarm (hP.modEi hs))
  · exact hs

theorem Stable.execThermalFrameEnd (hP : Stable P) {a1 a2 s} (hs : P s) : OutAll P (Machine.execThermalFrameEnd a1 a2 s) := by
  unfold Machine.execThermalFrameEnd
  refine OutAll.next ?_
  split
  · exact hP.endThermal hs
  · exact hs

/-! ## Machine/FusionOps.lean -/

theorem Stable.setLadder (hP : Stable P) {s a2 a3} (hs : P s) : P (State.setLadder s a2 a3) := by
  unfold State.setLadder
  extract_lets +onlyGivenNames -merge s0
  have hs0 : P s0 := hP.bump (hP.setReg hs)
  clear_value s0
  split
  · split
    · exact hP.raise hs0
    · split
      · exact hP.raise hs0
      · exact hs0
  · exact hs0

theorem Stable.runLadder (hP : Stable P) {s} (hs : P s) : P (State.runLadder s) := by
  unfold State.runLadder
  extract_lets +onlyGivenNames -merge s0 s1 s2 s3 s4
  clear_value s0 s3 s4
  have hs1 : P s1 := hP.setReg hs
  have hs2 : P s2 := hP.modFu hs1
  clear_value s1 s2
  split
  · exact hP.setLadder (hP.modFu hs2)
  · split
    · extract_lets +onlyGivenNames -merge s5 s6
      clear_value s5 s6
      split
      · extract_lets +onlyGivenNames -merge s7
        have hs7 : P s7 := hP.modFu hs2
        clear_value s7
        exact hP.setLadder hs7
      · exact hP.modFu hs2
    · exact hP.modFu hs2

theorem Stable.countTracks (hP : Stable P) {s} (hs : P s) : P (State.countTracks s) := by
  unfold State.countTracks
  extract_lets +onlyGivenNames -merge s0
  clear_value s0
  exact hP.setReg (hP.setReg hs)

theorem Stable.commandDone (hP : Stable P) {s a2 a3} (hs : P s) : P (State.commandDone s a2 a3) := by
  unfold State.commandDone
  exact hP.pushItem hs

theorem Stable.quarItem (hP : Stable P) {s a2 a3} (hs : P s) : P (State.quarItem s a2 a3) := by
  unfold State.quarItem
  exact hP.report (hP.bump (hP.unmark hs))

theorem Stable.mapTracks (hP : Stable P) {s a2} (hs : P s) : P (State.mapTracks s a2) := by
  unfold State.mapTracks
  exact hP.modFu hs

theorem Stable.takeCommand (hP : Stable P) {s} (hs : P s) : P (State.takeCommand s).2 := by
  unfold State.takeCommand
  split
  · exact mkSnd hs
  · exact hP.popFor hs

theorem Stable.refuseCommand (hP : Stable P) {s a2} (hs : P s) : P (State.refuseCommand s a2) := by
  unfold State.refuseCommand
  exact hP.commandDone (hP.raise (hP.setReg hs))

theorem Stable.serveCommand (hP : Stable P) {s a2 a3} (hs : P s) (hf : ∀ c s, P s → OptAll P (a3 c s)) :
    P (State.serveCommand s a2 a3) := by
  unfold State.serveCommand
  split
  · exact hs
  split
  · exact hs
  split
  · next t he => exact pairSnd he (hP.takeCommand hs)
  next d ok t he =>
  have ht : P t := pairSnd he (hP.takeCommand hs)
  split
  · exact hP.bump ht
  split
  · exact ht
  split
  · exact hP.pushItem (hP.modFu ht)
  split
  · exact hP.refuseCommand ht
  split
  · next u hr => exact hP.commandDone (show OptAll P (some u) from hr ▸ hf _ _ ht)
  · exact hP.refuseCommand ht

theorem Stable.moveAttitude (hP : Stable P) {s} (hs : P s) : P (State.moveAttitude s) := by
  unfold State.moveAttitude
  extract_lets +onlyGivenNames -merge s0 s1 s2 s3 s4 s5 s6
  clear_value s0 s1 s2 s3 s4 s5
  have hs6 : P s6 := hP.setFlag (hP.modFu (hP.tick hs))
  clear_value s6
  exact hP.setRegS (hP.setRegS hs6)

theorem Stable.trackParity (hP : Stable P) {s a2} (hs : P s) : P (State.trackParity s a2) := by
  unfold State.trackParity
  refine foldlKeeps ?_ _ ?_
  · intro _ _ x2
    extract_lets +onlyGivenNames -merge s3 s4 s5
    clear_value s3
    have hs4 : P s4 := hP.modFu x2
    have hs5 : P s5 := hP.mapTracks hs4
    clear_value s4 s5
    exact hP.raise (hP.bump (hP.setReg hs5))
  · exact hs

theorem Stable.solveMotion (hP : Stable P) {s} (hs : P s) : P (State.solveMotion s) := by
  unfold State.solveMotion
  extract_lets +onlyGivenNames -merge s0 s1
  clear_value s0 s1
  split
  · extract_lets +onlyGivenNames -merge s2 s3 s4 s5 s6 s7 s8
    clear_value s2 s3 s4 s5
    have hs6 : P s6 := hP.modFu (hP.tick hs)
    have hs7 : P s7 := hP.setFlag (hP.setFlag hs6)
    have hs8 : P s8 := hP.setRegS (hP.setRegS (hP.setRegS hs7))
    clear_value s6 s7 s8
    exact hP.setReg hs8

/-! ## Machine/Fusion.lean -/

theorem Stable.thermFront (hP : Stable P) {s a2 a3} (hs : P s) : P (State.thermFront s a2 a3) := by
  unfold State.thermFront
  split
  · exact hP.setFront hs
  · exact hP.setReg (hP.modFu hs)

theorem Stable.frameTaken (hP : Stable P) {s a2 a3 a4} (hs : P s) : P (State.frameTaken s a2 a3 a4) := by
  unfold State.frameTaken
  split
  · exact hs
  · extract_lets +onlyGivenNames -merge s0 s1
    clear_value s0 s1
    split
    · exact hs
    · extract_lets +onlyGivenNames -merge s2 s3 s4 s5 s6 s7
      clear_value s2 s3 s4 s5
      have hs6 : P s6 := hP.modSrc hs
      have hs7 : P s7 := by
        unfold s7
        split
        · exact hs6
        · exact hP.modFu hs6
      clear_value s6 s7
      exact hP.thermFront hs7

theorem Stable.inputEnded (hP : Stable P) {s a2 a3 a4 a5 a6} (hs : P s) : P (State.inputEnded s a2 a3 a4 a5 a6) := by
  unfold State.inputEnded
  extract_lets +onlyGivenNames -merge s0 s1
  clear_value s0
  have hs1 : P s1 := hP.modFu hs
  clear_value s1
  split
  · extract_lets +onlyGivenNames -merge s2
    have hs2 : P s2 := by
      unfold s2
      split
      · exact hP.modFu hs1
      · exact hs1
    clear_value s2
    exact hP.endTaken (hP.bump hs2)
  · extract_lets +onlyGivenNames -merge s3 s4
    have hs3 : P s3 := by
      unfold s3
      split
      · exact hP.frameTaken hs1
      · exact hs1
    have hs4 : P s4 := hP.sourceAlive hs3
    clear_value s3 s4
    split
    · exact hP.endTaken hs4
    · split
      · exact hP.quarItem hs4
      · split
        · exact hP.endTaken hs4
        · exact hP.modFu hs4

theorem Stable.birth (hP : Stable P) {s a2 a3 a4 a5} (hs : P s) : P (State.birth s a2 a3 a4 a5).2 := by
  unfold State.birth
  split
  · exact mkSnd (hP.bump hs)
  · extract_lets +onlyGivenNames -merge s0 s1
    clear_value s0 s1
    exact mkSnd (hP.bump (hP.modFu hs))

theorem Stable.births (hP : Stable P) {s a2} (hs : P s) : P (State.births s a2).2 := by
  induction a2 generalizing s with
  | nil => exact hs
  | cons m t ih =>
    rw [State.births]
    refine mkSnd (ih ?_)
    split
    · split
      · exact mkSnd (hP.birth hs)
      · exact mkSnd hs
    · exact mkSnd hs

theorem Stable.quarantineSource (hP : Stable P) {s a2} (hs : P s) : P (State.quarantineSource s a2) := by
  unfold State.quarantineSource
  extract_lets +onlyGivenNames -merge s0 s1 s2
  clear_value s0
  have hs1 : P s1 := hP.modSrc (hP.setRegBit hs)
  have hs2 : P s2 := hP.modFu hs1
  clear_value s1 s2
  exact hP.raise (foldlKeeps (fun _ _ x5 => hP.quarItem x5) _ hs2)

theorem Stable.releaseSource (hP : Stable P) {s a2} (hs : P s) : P (State.releaseSource s a2) := by
  unfold State.releaseSource
  split
  · exact hP.modSrc (hP.setRegBit hs)
  · exact hs

theorem Stable.judge (hP : Stable P) {s a2 a3} (hs : P s) : P (State.judge s a2 a3) := by
  unfold State.judge
  extract_lets +onlyGivenNames -merge s0
  have hs0 : P s0 := hP.setRegBit hs
  clear_value s0
  split
  · extract_lets +onlyGivenNames -merge s1
    have hs1 : P s1 := hP.modSrc hs0
    clear_value s1
    split
    · exact hP.quarantineSource hs1
    · exact hs1
  · extract_lets +onlyGivenNames -merge s2
    have hs2 : P s2 := hP.modSrc hs0
    clear_value s2
    split
    · exact hP.releaseSource hs2
    · exact hs2

theorem Stable.writeEarly (hP : Stable P) {s a2 a3 a4 a5 a6} (hs : P s) : P (State.writeEarly s a2 a3 a4 a5 a6) := by
  unfold State.writeEarly
  extract_lets +onlyGivenNames -merge s0
  clear_value s0
  split
  · exact hP.tileWrite hs
  · extract_lets +onlyGivenNames -merge s1 s2 s3 s4
    clear_value s1 s2 s3 s4
    exact hP.modFreeCtr (hP.modFu (hP.tileWrite hs))

theorem Stable.execEarly (hP : Stable P) {s} (hs : P s) : OutAll P (Machine.execEarly s) := by
  unfold Machine.execEarly
  refine OutAll.next ?_
  refine hP.serveCommand hs ?_
  intro _ _ x2
  extract_lets +onlyGivenNames -merge s3 s4 s5
  clear_value s3 s4 s5
  split
  · exact trivial
  · exact OptAll.map ((fun _ => hP.writeEarly x2))

theorem Stable.latentBirths (hP : Stable P) {s} (hs : P s) : P (State.latentBirths s) := by
  unfold State.latentBirths
  extract_lets +onlyGivenNames -merge s0
  clear_value s0
  exact foldlKeeps (fun _ _ x3 => hP.tick (hP.birth x3)) _ (hP.modFu hs)

theorem Stable.noteHits (hP : Stable P) {s} (hs : P s) : P (State.noteHits s) := by
  unfold State.noteHits
  refine foldlKeeps ?_ _ ?_
  · intro _ _ x2
    split
    · exact hP.modSrc x2
    · exact x2
  · exact hs

theorem Stable.writeEntries (hP : Stable P) {s a2 a3 a4} (hs : P s) : P (State.writeEntries s a2 a3 a4) := by
  unfold State.writeEntries
  exact foldlKeeps (fun _ _ x2 => hP.tileWriteNat x2) _ hs

theorem Stable.endDet (hP : Stable P) {s a2 a3} (hs : P s) : P (State.endDet s a2 a3) := by
  unfold State.endDet
  extract_lets +onlyGivenNames -merge s0
  have hs0 : P s0 := by
    unfold s0
    refine foldlKeeps ?_ _ ?_
    · intro _ _ x3
      split
      · exact hP.report x3
      · exact hP.complete x3
    · exact hs
  clear_value s0
  split
  · exact hs0
  · exact hP.raise hs0

theorem Stable.doAssoc (hP : Stable P) {s a2 a3} (hs : P s) : P (State.doAssoc s a2 a3) := by
  unfold State.doAssoc
  extract_lets +onlyGivenNames -merge s0 s1 s2 s3 s4 s5 s6 s7 s8 s9 s10 s11 s12 s13 s14 s15 s16 s17
  clear_value s0 s1 s2 s3 s4 s5 s6 s7 s8 s9 s10 s11 s16
  have hs12 : P s12 := hP.bump (hP.tick (hP.mapTracks hs))
  have hs13 : P s13.2 := hP.births hs12
  have hs14 : P s14 := hP.latentBirths hs13
  have hs15 : P s15 := hP.modFu hs14
  have hs17 : P s17 := hP.noteHits (hP.writeEntries (hP.writeEntries hs15))
  clear_value s12 s13 s14 s15 s17
  exact hP.countTracks (hP.endDet (hP.bump hs17))

theorem Stable.execAssoc (hP : Stable P) {a1 s} (hs : P s) : OutAll P (Machine.execAssoc a1 s) := by
  unfold Machine.execAssoc
  refine OutAll.next ?_
  refine hP.serveCommand hs ?_
  intro _ _ x2
  extract_lets +onlyGivenNames -merge s3 s4
  clear_value s3 s4
  exact OptAll.map ((fun _ => hP.doAssoc (hP.trackParity x2)))

theorem Stable.newWindow (hP : Stable P) {s} (hs : P s) : P (State.newWindow s) := by
  unfold State.newWindow
  extract_lets +onlyGivenNames -merge s0 s1
  clear_value s0 s1
  exact hP.modFu hs

theorem Stable.execTestWindowEnd (hP : Stable P) {s} (hs : P s) : OutAll P (Machine.execTestWindowEnd s) := by
  unfold Machine.execTestWindowEnd
  refine OutAll.next ?_
  split
  · extract_lets +onlyGivenNames -merge s0
    clear_value s0
    exact hP.newWindow (foldlKeeps (fun _ _ x3 => hP.judge x3) _ hs)
  · exact hs

theorem Stable.afterPost (hP : Stable P) {s a2} (hs : P s) : P (State.afterPost s a2) := by
  unfold State.afterPost
  extract_lets +onlyGivenNames -merge s0 s1
  have hs0 : P s0 := by
    unfold s0
    split
    · exact hP.inform (hP.setReg hs)
    · exact hs
  have hs1 : P s1 := hP.runBegins hs0
  clear_value s0 s1
  split
  · extract_lets +onlyGivenNames -merge s2 s3
    clear_value s2
    have hs3 : P s3 := hP.modKeeper hs1
    clear_value s3
    split
    · exact hP.hbRunEdge hs3
    · exact hs3
  · exact hs1

theorem Stable.postChannel (hP : Stable P) {s a2} (hs : P s) : P (State.postChannel s a2) := by
  unfold State.postChannel
  extract_lets +onlyGivenNames -merge s0 s1 s2 s3 s4 s5 s6
  clear_value s0 s1 s2 s3 s5
  have hs4 : P s4 := hP.takeItem hs
  have hs6 : P s6 := hP.modFreeCtr (hP.pushItemAll hs4)
  clear_value s4 s6
  exact hP.modPp hs6

theorem Stable.endCycle (hP : Stable P) {s} (hs : P s) : P (State.endCycle s) := by
  unfold State.endCycle
  exact hP.modFu hs

theorem Stable.execPost (hP : Stable P) {s} (hs : P s) : OutAll P (Machine.execPost s) := by
  unfold Machine.execPost
  refine OutAll.next ?_
  refine hP.serveCommand hs ?_
  intro _ _ x2
  extract_lets +onlyGivenNames -merge s3 s4
  clear_value s3
  have hs4 : P s4 := by
    unfold s4
    split
    · exact x2
    · extract_lets +onlyGivenNames -merge s5
      clear_value s5
      exact hP.afterPost (foldlKeeps (fun _ _ x8 => hP.postChannel x8) _ x2)
  clear_value s4
  exact OptAll.some (hP.endCycle hs4)

theorem Stable.execQuarClr (hP : Stable P) {a1 s} (hs : P s) : OutAll P (Machine.execQuarClr a1 s) := by
  unfold Machine.execQuarClr
  refine OutAll.next ?_
  split
  · exact foldlKeeps (fun _ _ x2 => hP.releaseSource x2) _ (hP.setCmd hs)
  · exact hs

theorem Stable.takeFlow (hP : Stable P) {s a2 a3} (hs : P s) : P (State.takeFlow s a2 a3) := by
  unfold State.takeFlow
  extract_lets +onlyGivenNames -merge s0 s1 s2 s3 s4 s5 s6
  clear_value s0 s1 s2 s3 s4 s5
  have hs6 : P s6 := by
    unfold s6
    split
    · exact hs
    · exact hP.modFu hs
  clear_value s6
  exact hP.setFront hs6

theorem Stable.inputCell (hP : Stable P) {s a2 a3 a4 a5} (hs : P s) : P (State.inputCell s a2 a3 a4 a5) := by
  unfold State.inputCell
  extract_lets +onlyGivenNames -merge s0
  clear_value s0
  split
  · extract_lets +onlyGivenNames -merge s1
    have hs1 : P s1 := hP.bump hs
    clear_value s1
    split
    · exact hP.modFu hs1
    · exact hs1
  · split
    · exact hs
    · split
      · split
        · exact hP.modFu hs
        · exact hs
      · extract_lets +onlyGivenNames -merge s2
        clear_value s2
        split
        · exact hP.inputEnded hs
        · extract_lets +onlyGivenNames -merge s3 s4 s5
          clear_value s3 s4
          have hs5 : P s5 := hP.modFu hs
          clear_value s5
          split
          · exact hP.takeFlow hs5
          · exact hs5

theorem Stable.execFusionInputTake (hP : Stable P) {a1 a2 s} (hs : P s) : OutAll P (Machine.execFusionInputTake a1 a2 s) := by
  unfold Machine.execFusionInputTake
  refine OutAll.next ?_
  extract_lets +onlyGivenNames -merge s0
  clear_value s0
  split
  · exact hs
  · split
    · rename_i _ _ v3 v4
      have h5 : P v3 := pairSnd v4 (hP.popFor hs)
      exact h5
    · rename_i _ _ _ _ v10 v11
      have h12 : P v10 := pairSnd v11 (hP.popFor hs)
      exact hP.inputCell h12

theorem Stable.applyLatent (hP : Stable P) {s a2} (hs : P s) : P (State.applyLatent s a2) := by
  unfold State.applyLatent
  extract_lets +onlyGivenNames -merge s0 s1 s2 s3 s4 s5
  clear_value s0 s1 s2 s3 s4
  have hs5 : P s5 := by
    unfold s5
    split
    · exact hP.modFu hs
    · exact hs
  clear_value s5
  split
  · exact hP.modFu hs5
  · exact hs5

theorem Stable.startCycle (hP : Stable P) {s} (hs : P s) : P (State.startCycle s) := by
  unfold State.startCycle
  extract_lets +onlyGivenNames -merge s0 s1 s2 s3 s4 s5 s6
  clear_value s1 s2 s3 s4
  have hs0 : P s0 := by
    unfold s0
    split
    · exact hs
    · exact hP.newWindow hs
  have hs5 : P s5 := hP.modFu hs0
  have hs6 : P s6 := hP.gatherTimer (hP.bump (hP.bump hs5))
  clear_value s0 s5 s6
  exact hP.moveAttitude (hP.runLadder (hP.solveMotion hs6))

theorem Stable.changeStates (hP : Stable P) {s} (hs : P s) : P (State.changeStates s) := by
  unfold State.changeStates
  extract_lets +onlyGivenNames -merge s0 s1 s2 s3 s4
  clear_value s0 s1 s2 s3 s4
  exact hP.bump (hP.bump (hP.modFu hs))

theorem Stable.applyVerdict (hP : Stable P) {s a2} (hs : P s) : P (State.applyVerdict s a2) := by
  unfold State.applyVerdict
  extract_lets +onlyGivenNames -merge s0 s1 s2 s3
  clear_value s0 s1 s2 s3
  split
  · split
    · exact hP.mapTracks hs
    · exact hP.bump hs
  · exact hP.modFu hs

theorem Stable.execUpdate (hP : Stable P) {a1 s} (hs : P s) : OutAll P (Machine.execUpdate a1 s) := by
  unfold Machine.execUpdate
  refine OutAll.next ?_
  refine hP.serveCommand hs ?_
  intro _ _ x2
  extract_lets +onlyGivenNames -merge s3 s4 s5 s9 s13
  clear_value s4
  have hs3 : P s3 := hP.trackParity x2
  have hs5 : P s5 := foldlKeeps (fun _ _ x8 => hP.applyVerdict x8) _ hs3
  have hs9 : P s9 := foldlKeeps (fun _ _ x12 => hP.applyLatent x12) _ hs5
  have hs13 : P s13 := hP.modFu (hP.changeStates hs9)
  clear_value s3 s5 s9 s13
  exact OptAll.some (hP.countTracks (foldlKeeps (fun _ _ x16 => hP.complete x16) _ hs13))

theorem Stable.writeMid (hP : Stable P) {s a2 a3 a4 a5} (hs : P s) : P (State.writeMid s a2 a3 a4 a5) := by
  unfold State.writeMid
  exact foldlKeeps (fun _ _ x2 => foldlKeeps (fun _ _ x5 => hP.setElem x5) _ x2) _ hs

theorem Stable.execMid (hP : Stable P) {s} (hs : P s) : OutAll P (Machine.execMid s) := by
  unfold Machine.execMid
  refine OutAll.next ?_
  refine hP.serveCommand hs ?_
  intro _ _ x2
  extract_lets +onlyGivenNames -merge s3 s4 s5 s6
  clear_value s3 s4 s5 s6
  split
  · exact trivial
  · exact OptAll.map ((fun _ => hP.writeMid x2))

theorem Stable.execCycleStart (hP : Stable P) {s} (hs : P s) : OutAll P (Machine.execCycleStart s) := by
  unfold Machine.execCycleStart
  refine OutAll.next ?_
  split
  · exact hP.startCycle hs
  · exact hs

theorem Stable.execGatherTimeout (hP : Stable P) {s} (hs : P s) : OutAll P (Machine.execGatherTimeout s) := by
  unfold Machine.execGatherTimeout
  refine OutAll.next ?_
  split
  · split
    · extract_lets +onlyGivenNames -merge s0
      clear_value s0
      exact hP.gatherTimer (hP.modFu hs)
    · exact hP.disarm hs
  · exact hs

/-! ## Machine/Jtag.lean -/

theorem Stable.selectTap (hP : Stable P) {s a2 a3} (hs : P s) : P (State.selectTap s a2 a3) := by
  unfold State.selectTap
  exact hP.modHi hs

theorem Stable.execIdcode (hP : Stable P) {s} (hs : P s) : OutAll P (Machine.execIdcode s) := by
  unfold Machine.execIdcode
  exact OutAll.next (hP.selectTap hs)

theorem Stable.execBypass (hP : Stable P) {s} (hs : P s) : OutAll P (Machine.execBypass s) := by
  unfold Machine.execBypass
  exact OutAll.next (hP.selectTap hs)

theorem Stable.execSamplePreload (hP : Stable P) {a1 s} (hs : P s) : OutAll P (Machine.execSamplePreload a1 s) := by
  unfold Machine.execSamplePreload
  extract_lets +onlyGivenNames -merge s0
  clear_value s0
  exact OutAll.next (hP.tick (hP.modHi (hP.selectTap hs)))

theorem Stable.execClamp (hP : Stable P) {s} (hs : P s) : OutAll P (Machine.execClamp s) := by
  unfold Machine.execClamp
  exact OutAll.next (hP.selectTap hs)

theorem Stable.execTestLogicReset (hP : Stable P) {s} (hs : P s) : OutAll P (Machine.execTestLogicReset s) := by
  unfold Machine.execTestLogicReset
  exact OutAll.next (hP.selectTap hs)

theorem Stable.execHighz (hP : Stable P) {s} (hs : P s) : OutAll P (Machine.execHighz s) := by
  unfold Machine.execHighz
  exact OutAll.next (hP.selectTap hs)

theorem Stable.execExtest (hP : Stable P) {s} (hs : P s) : OutAll P (Machine.execExtest s) := by
  unfold Machine.execExtest
  extract_lets +onlyGivenNames -merge s0
  have hs0 : P s0 := hP.selectTap hs
  clear_value s0
  refine OutAll.next ?_
  split
  · exact hP.tick (hP.modHi hs0)
  · exact hs0

/-! ## Machine/Ledger.lean -/

theorem Stable.ackFaults (hP : Stable P) {s a2} (hs : P s) : P (State.ackFaults s a2) := by
  unfold State.ackFaults
  extract_lets +onlyGivenNames -merge s0 s1
  clear_value s0
  have hs1 : P s1 := foldlKeeps (fun _ _ x4 => hP.retireFault x4) _ hs
  clear_value s1
  split
  · exact hs1
  · exact hP.setFaultN hs1

theorem Stable.execLgFaultAck (hP : Stable P) {a1 s} (hs : P s) : OutAll P (Machine.execLgFaultAck a1 s) := by
  unfold Machine.execLgFaultAck
  refine OutAll.next ?_
  split
  · exact hP.ackFaults (hP.setCmd hs)
  · exact hs

theorem Stable.execQuiesceDone (hP : Stable P) {s} (hs : P s) : OutAll P (Machine.execQuiesceDone s) := by
  unfold Machine.execQuiesceDone
  refine OutAll.next ?_
  split
  · exact hs
  · extract_lets +onlyGivenNames -merge s0
    clear_value s0
    split
    · exact hP.setReg (hP.disarm hs)
    · split
      · exact hP.fetchAll (hP.enterGesso (hP.setReg (hP.disarm hs)))
      · exact hs

theorem Stable.execFaultRaise (hP : Stable P) {a1 a2 a3 a4 s} (hs : P s) : OutAll P (Machine.execFaultRaise a1 a2 a3 a4 s) := by
  unfold Machine.execFaultRaise
  refine OutAll.next ?_
  split
  · exact hP.raise hs
  · exact hs

theorem Stable.faultHandled (hP : Stable P) {s a2} (hs : P s) : P (State.faultHandled s a2) := by
  unfold State.faultHandled
  extract_lets +onlyGivenNames -merge s0
  have hs0 : P s0 := hP.bump hs
  clear_value s0
  split
  · exact hP.takeFault (hP.retireFault hs0)
  · extract_lets +onlyGivenNames -merge s1 s2 s3
    have hs1 : P s1 := hP.vector (hP.modLg faultsSound.held hs0)
    have hs2 : P s2 := hP.alarm (hP.setFaultN hs1)
    have hs3 : P s3 := by
      unfold s3
      split
      · exact hP.quiesce hs2
      · exact hs2
    clear_value s1 s2 s3
    exact hP.takeFault hs3

theorem Stable.execFaultHandle (hP : Stable P) {s} (hs : P s) : OutAll P (Machine.execFaultHandle s) := by
  unfold Machine.execFaultHandle
  refine OutAll.next ?_
  split
  · exact hP.faultHandled hs
  · exact hs

theorem Stable.execCompletionNotice (hP : Stable P) {a1 a2 s} (hs : P s) : OutAll P (Machine.execCompletionNotice a1 a2 s) := by
  unfold Machine.execCompletionNotice
  refine OutAll.next ?_
  split
  · exact hP.complete hs
  · exact hs

theorem Stable.execTerminalReport (hP : Stable P) {a1 a2 a3 a4 s} (hs : P s) : OutAll P
    (Machine.execTerminalReport a1 a2 a3 a4 s) := by
  unfold Machine.execTerminalReport
  refine OutAll.next ?_
  split
  · exact hs
  · split
    · exact hP.report hs
    · split
      · exact hP.inform hs
      · exact hs

theorem Stable.execWatchdog (hP : Stable P) {s} (hs : P s) : OutAll P (Machine.execWatchdog s) := by
  unfold Machine.execWatchdog
  refine OutAll.next ?_
  split
  · split
    · extract_lets +onlyGivenNames -merge s0 s1
      clear_value s0
      have hs1 : P s1 := hP.bump (hP.setReg hs)
      clear_value s1
      exact hP.raise (hP.quiesce hs1)
    · exact hs
  · exact hs

theorem Stable.execCoalesceExpire (hP : Stable P) {s} (hs : P s) : OutAll P (Machine.execCoalesceExpire s) := by
  unfold Machine.execCoalesceExpire
  exact OutAll.next (hP.pushHeld hs)

/-! ## Machine/Span.lean -/

theorem Stable.duplicateFrame (hP : Stable P) {s a2 a3} (hs : P s) : P (State.duplicateFrame s a2 a3) := by
  unfold State.duplicateFrame
  extract_lets +onlyGivenNames -merge s0
  have hs0 : P s0 := hP.bump hs
  clear_value s0
  split
  · exact hs0
  · exact hP.inform (hP.modSpan hs0)

theorem Stable.pushRx (hP : Stable P) {s a2 a3 a4 a5 a6} (hs : P s) : P (State.pushRx s a2 a3 a4 a5 a6).2 := by
  induction a6 generalizing s a2 a3 a4 a5 with
  | nil =>
    unfold State.pushRx
    exact mkSnd hs
  | cons c0 l0 ih =>
    unfold State.pushRx
    extract_lets +onlyGivenNames -merge s0 s1 s2 s3
    clear_value s0 s1
    have hs3 : P s3.2 := by
      unfold s3
      apply ih
      exact hP.pushItem hs
    clear_value s3
    exact mkSnd hs3

theorem Stable.modRx (hP : Stable P) {s a2 a3} (hs : P s) : P (State.modRx s a2 a3) := by
  unfold State.modRx
  exact hP.modSl hs

theorem Stable.receiveData (hP : Stable P) {s a2 a3} (hs : P s) : P (State.receiveData s a2 a3) := by
  unfold State.receiveData
  extract_lets +onlyGivenNames -merge s0 s1 s2 s3 s4
  clear_value s0 s1 s2 s3 s4
  split
  · exact hP.bump hs
  · split
    · split
      · exact hP.duplicateFrame hs
      · split
        · exact hs
        · extract_lets +onlyGivenNames -merge s5 s6 s7 s8 s9 s10
          clear_value s7
          have hs5 : P s5 := by
            unfold s5
            split
            · exact hP.create hs
            · exact hs
          have hs6 : P s6 := hP.modSpan hs5
          have hs8 : P s8.2 := hP.pushRx hs6
          have hs9 : P s9 := hP.modSl hs8
          have hs10 : P s10 := hP.modRx hs9
          clear_value s5 s6 s8 s9 s10
          split
          · extract_lets +onlyGivenNames -merge s11
            have hs11 : P s11 := hP.modRx hs10
            clear_value s11
            split
            · exact hP.queueEntry hs11
            · exact hs11
          · exact hs10
    · split
      · exact hP.duplicateFrame hs
      · split
        · exact hs
        · extract_lets +onlyGivenNames -merge s12 s13 s14 s15 s16 s17
          clear_value s14
          have hs12 : P s12 := by
            unfold s12
            split
            · exact hP.create hs
            · exact hs
          have hs13 : P s13 := hP.modSpan hs12
          have hs15 : P s15.2 := hP.pushRx hs13
          have hs16 : P s16 := hP.modSl hs15
          have hs17 : P s17 := hP.modRx hs16
          clear_value s12 s13 s15 s16 s17
          split
          · extract_lets +onlyGivenNames -merge s18
            have hs18 : P s18 := hP.modRx hs17
            clear_value s18
            split
            · exact hP.queueEntry hs18
            · exact hs18
          · exact hs17

theorem Stable.clearWire (hP : Stable P) {s} (hs : P s) : P (State.clearWire s) := by
  unfold State.clearWire
  exact hP.modSl hs

theorem Stable.modBinding (hP : Stable P) {s a2 a3} (hs : P s) : P (State.modBinding s a2 a3) := by
  unfold State.modBinding
  extract_lets +onlyGivenNames -merge s0
  clear_value s0
  exact hP.modSl hs

theorem Stable.sendData (hP : Stable P) {s a2 a3 a4 a5} (hs : P s) : P (State.sendData s a2 a3 a4 a5) := by
  unfold State.sendData
  split
  · exact hs
  · extract_lets +onlyGivenNames -merge s0 s1 s2 s3 s4 s5 s6 s7 s8 s9 s10 s11 s12
    clear_value s0 s1 s2 s3 s4 s5 s6 s10 s11
    have hs7 : P s7 := hP.modSl hs
    have hs8 : P s8 := hP.modBinding hs7
    have hs9 : P s9 := by
      unfold s9
      split
      · exact hs
      · split
        · exact hs8
        · exact hP.arm hs8
    have hs12 : P s12 := hP.modBinding hs9
    clear_value s7 s8 s9 s12
    refine hP.sendFrame ?_
    refine hP.modSpan ?_
    split
    · exact hP.bump hs12
    · exact hs12

theorem Stable.replayFrames (hP : Stable P) {s a2} (hs : P s) : P (State.replayFrames s a2) := by
  unfold State.replayFrames
  extract_lets +onlyGivenNames -merge s0 s1 s2
  clear_value s0 s1
  have hs2 : P s2 := hP.modSpan hs
  clear_value s2
  exact hP.ackTimer (hP.disarm (hP.bump hs2))

theorem Stable.linkWord (hP : Stable P) {s a2 a3 a4 a5} (hs : P s) : P (State.linkWord s a2 a3 a4 a5) := by
  unfold State.linkWord
  extract_lets +onlyGivenNames -merge s0 s1
  have hs0 : P s0 := hP.setFlag hs
  have hs1 : P s1 := by
    unfold s1
    split
    · extract_lets +onlyGivenNames -merge s2 s3
      clear_value s2
      have hs3 : P s3 := hP.setReg hs0
      clear_value s3
      exact hP.ackTimer (hP.modSpan hs3)
    · assumption
  clear_value s0 s1
  split
  · exact hs1
  · extract_lets +onlyGivenNames -merge s4
    have hs4 : P s4 := hP.bump hs1
    clear_value s4
    split
    · split
      · exact hP.replayFrames hs4
      · exact hs4
    · exact hs4

theorem Stable.oweAck (hP : Stable P) {s a2 a3} (hs : P s) : P (State.oweAck s a2 a3) := by
  unfold State.oweAck
  extract_lets +onlyGivenNames -merge s0
  have hs0 : P s0 := hP.modSpan hs
  clear_value s0
  split
  · exact hs0
  · exact hP.arm hs0

theorem Stable.abortRx (hP : Stable P) {s a2 a3 a4} (hs : P s) : P (State.abortRx s a2 a3 a4) := by
  unfold State.abortRx
  extract_lets +onlyGivenNames -merge s0
  clear_value s0
  refine foldlKeeps ?_ _ ?_
  · intro _ _ x3
    extract_lets +onlyGivenNames -merge s4 s5 s6 s7 s8
    clear_value s4 s5
    have hs7 : P s7 := hP.push x3
    have hs8 : P s8 := by
      unfold s8
      split
      · exact hP.modSl hs7
      · exact hs7
    clear_value s7 s8
    exact hP.modRx (hP.report hs8)
  · exact hs

theorem Stable.linkFalls (hP : Stable P) {s a2 a3} (hs : P s) : P (State.linkFalls s a2 a3) := by
  unfold State.linkFalls
  extract_lets +onlyGivenNames -merge s0 s1 s2 s3
  clear_value s0
  have hs1 : P s1 := hP.modSpan hs
  have hs2 : P s2 := hP.modSl hs1
  have hs3 : P s3 := hP.abortRx (hP.disarm (hP.disarm hs2))
  clear_value s1 s2 s3
  exact hP.setReg hs3

theorem Stable.execShortFrameReceive (hP : Stable P) {a1 a2 a3 s} (hs : P s) : OutAll P
    (Machine.execShortFrameReceive a1 a2 a3 s) := by
  unfold Machine.execShortFrameReceive
  refine OutAll.next ?_
  split
  · exact hs
  · extract_lets +onlyGivenNames -merge s0
    have hs0 : P s0 := hP.modSpan (hP.clearWire hs)
    clear_value s0
    split
    · exact hP.pump (hP.bump hs0)
    · exact hP.pump (hP.linkWord hs0)

theorem Stable.popFrame (hP : Stable P) {s a2 a3 a4 a5} (hs : P s) : P (State.popFrame s a2 a3 a4 a5).2 := by
  induction a5 generalizing s a2 a3 a4 with
  | zero =>
    unfold State.popFrame
    exact mkSnd hs
  | succ k0 ih =>
    unfold State.popFrame
    split
    · rename_i _ v1 v2
      have h3 : P v1 := pairSnd v2 (hP.popFor hs)
      exact mkSnd h3
    · rename_i _ _ _ v7 v8
      have h9 : P v7 := pairSnd v8 (hP.popFor hs)
      extract_lets +onlyGivenNames -merge s10 s11
      clear_value s10
      have hs11 : P s11.2 := by
        unfold s11
        apply ih
        exact h9
      clear_value s11
      exact mkSnd hs11

theorem Stable.takeEntry (hP : Stable P) {s a2} (hs : P s) : P (State.takeEntry s a2).2 := by
  unfold State.takeEntry
  split
  · exact mkSnd hs
  · split
    · exact mkSnd (hP.modSl hs)
    · exact mkSnd hs

theorem Stable.execGrant (hP : Stable P) {s} (hs : P s) : OutAll P (Machine.execGrant s) := by
  unfold Machine.execGrant
  refine OutAll.next ?_
  split
  · rename_i _ v1 v2
    have h3 : P v1 := pairSnd v2 (hP.takeEntry hs)
    exact h3
  · rename_i _ _ _ _ v8 v9
    have h10 : P v8 := pairSnd v9 (hP.takeEntry hs)
    extract_lets +onlyGivenNames -merge s11 s12
    clear_value s11
    have hs12 : P s12 := hP.refreshReach (hP.modSl h10)
    clear_value s12
    split
    · exact hs12
    · exact hP.modBinding hs12

theorem Stable.acceptFrame (hP : Stable P) {s a2 a3} (hs : P s) : P (State.acceptFrame s a2 a3) := by
  unfold State.acceptFrame
  split
  · exact hs
  · split
    · extract_lets +onlyGivenNames -merge s0
      have hs0 : P s0 := hP.bump hs
      clear_value s0
      split
      · exact hP.modSpan hs0
      · exact hs0
    · split
      · exact hP.receiveData hs
      · extract_lets +onlyGivenNames -merge s1
        clear_value s1
        exact hP.modSl hs

theorem Stable.execLongFrameReceive (hP : Stable P) {a1 a2 a3 s} (hs : P s) : OutAll P
    (Machine.execLongFrameReceive a1 a2 a3 s) := by
  unfold Machine.execLongFrameReceive
  refine OutAll.next ?_
  split
  · exact hs
  · extract_lets +onlyGivenNames -merge s0
    have hs0 : P s0 := hP.modSpan (hP.clearWire hs)
    clear_value s0
    split
    · exact hP.pump (hP.oweAck (hP.bump hs0))
    · extract_lets +onlyGivenNames -merge s1 s2 s3
      clear_value s2 s3
      have hs1 : P s1 := hP.linkWord hs0
      clear_value s1
      split
      · extract_lets +onlyGivenNames -merge s4
        have hs4 : P s4 := hP.modSpan (hP.bump hs1)
        clear_value s4
        exact hP.pump (hP.acceptFrame (hP.oweAck hs4))
      · split
        · extract_lets +onlyGivenNames -merge s5
          have hs5 : P s5 := hP.oweAck hs1
          clear_value s5
          refine hP.pump ?_
          split
          · exact hP.receiveData hs5
          · exact hs5
        · exact hP.pump (hP.oweAck hs1)

theorem Stable.linkComesUp (hP : Stable P) {s a2 a3 a4} (hs : P s) : P (State.linkComesUp s a2 a3 a4) := by
  unfold State.linkComesUp
  extract_lets +onlyGivenNames -merge s0 s1 s2 s3
  clear_value s0
  have hs1 : P s1 := hP.setReg (hP.setReg (hP.setReg hs))
  have hs2 : P s2 := hP.modSpan (hP.setReg hs1)
  have hs3 : P s3 := hP.modSl hs2
  clear_value s1 s2 s3
  exact hP.sendGrants (hP.refreshReach (hP.disarm (hP.disarm hs3)))

theorem Stable.exhaust (hP : Stable P) {s a2 a3 a4} (hs : P s) : P (State.exhaust s a2 a3 a4) := by
  unfold State.exhaust
  refine foldlKeeps ?_ _ ?_
  · intro _ _ x2
    extract_lets +onlyGivenNames -merge s3 s4
    clear_value s4
    have hs3 : P s3 := hP.tokenLost (hP.disarm (hP.report x2))
    clear_value s3
    exact hP.modSl hs3
  · exact hs

theorem Stable.execNotice (hP : Stable P) {s} (hs : P s) : OutAll P (Machine.execNotice s) := by
  unfold Machine.execNotice
  refine OutAll.next ?_
  split
  · rename_i _ v1 v2
    have h3 : P v1 := pairSnd v2 (hP.takeEntry hs)
    exact h3
  · rename_i _ _ _ _ v8 v9
    have h10 : P v8 := pairSnd v9 (hP.takeEntry hs)
    extract_lets +onlyGivenNames -merge s11 s12 s13 s14 s15
    clear_value s11 s12 s13
    have hs14 : P s14 := hP.modSl h10
    have hs15 : P s15 := hP.exhaust hs14
    clear_value s14 s15
    exact hP.refreshReach (hP.abortRx hs15)

theorem Stable.execCredit (hP : Stable P) {s} (hs : P s) : OutAll P (Machine.execCredit s) := by
  unfold Machine.execCredit
  refine OutAll.next ?_
  split
  · rename_i _ v1 v2
    have h3 : P v1 := pairSnd v2 (hP.takeEntry hs)
    exact h3
  · rename_i _ _ _ _ v8 v9
    have h10 : P v8 := pairSnd v9 (hP.takeEntry hs)
    split
    · exact h10
    · extract_lets +onlyGivenNames -merge s11
      clear_value s11
      exact hP.modBinding h10

theorem Stable.partnerTrains (hP : Stable P) {s a2} (hs : P s) : P (State.partnerTrains s a2) := by
  unfold State.partnerTrains
  extract_lets +onlyGivenNames -merge s0 s1
  clear_value s0 s1
  exact hP.bump (hP.train (hP.linkFalls (hP.exhaust hs)))

theorem Stable.execTrainPairReceive (hP : Stable P) {a1 a2 a3 a4 a5 s} (hs : P s) : OutAll P
    (Machine.execTrainPairReceive a1 a2 a3 a4 a5 s) := by
  unfold Machine.execTrainPairReceive
  refine OutAll.next ?_
  split
  · exact hs
  · extract_lets +onlyGivenNames -merge s0 s1 s2
    clear_value s1 s2
    have hs0 : P s0 := hP.clearWire hs
    clear_value s0
    split
    · exact hP.modSpan hs0
    · split
      · exact hP.linkComesUp hs0
      · exact hP.partnerTrains hs0

theorem Stable.execSpanTransmit (hP : Stable P) {a1 a2 s} (hs : P s) : OutAll P (Machine.execSpanTransmit a1 a2 s) := by
  unfold Machine.execSpanTransmit
  refine OutAll.next ?_
  split
  · exact hs
  · extract_lets +onlyGivenNames -merge s0 s1 s2 s3
    clear_value s1 s2 s3
    have hs0 : P s0 := hP.pump (hP.clearWire hs)
    clear_value s0
    split
    · exact hs0
    · split
      · extract_lets +onlyGivenNames -merge s4
        have hs4 : P s4.2 := hP.popFrame hs0
        clear_value s4
        split
        · exact hP.modBinding hs4
        · exact hs4
      · split
        · exact hs0
        · extract_lets +onlyGivenNames -merge s5
          clear_value s5
          split
          · exact hs0
          · extract_lets +onlyGivenNames -merge s6
            clear_value s6
            split
            · exact hP.bump hs0
            · split
              · exact hs0
              · extract_lets +onlyGivenNames -merge s7
                have hs7 : P s7.2 := hP.popFrame hs0
                clear_value s7
                exact hP.sendData hs7

theorem Stable.execTrainingRetry (hP : Stable P) {a1 s} (hs : P s) : OutAll P (Machine.execTrainingRetry a1 s) := by
  unfold Machine.execTrainingRetry
  refine OutAll.next ?_
  split
  · exact hP.bump (hP.train hs)
  · exact hs

theorem Stable.execRetrain (hP : Stable P) {a1 s} (hs : P s) : OutAll P (Machine.execRetrain a1 s) := by
  unfold Machine.execRetrain
  extract_lets +onlyGivenNames -merge s0
  have hs0 : P s0 := by
    unfold s0
    split
    · exact hP.setCmd hs
    · exact hs
  clear_value s0
  refine OutAll.next ?_
  split
  · exact hP.bump (hP.train hs0)
  · exact hs0

theorem Stable.execShortFrameSend (hP : Stable P) {a1 s} (hs : P s) : OutAll P (Machine.execShortFrameSend a1 s) := by
  unfold Machine.execShortFrameSend
  refine OutAll.next ?_
  split
  · exact hs
  · extract_lets +onlyGivenNames -merge s0
    have hs0 : P s0 := hP.pump (hP.clearWire hs)
    clear_value s0
    split
    · exact hs0
    · extract_lets +onlyGivenNames -merge s1
      clear_value s1
      exact hP.disarm (hP.modSpan hs0)

theorem Stable.loseLink (hP : Stable P) {s a2} (hs : P s) : P (State.loseLink s a2) := by
  unfold State.loseLink
  extract_lets +onlyGivenNames -merge s0
  have hs0 : P s0 := hP.raise (hP.disarm (hP.setReg hs))
  clear_value s0
  refine hP.refreshReach ?_
  split
  · exact hP.disarm hs0
  · exact hP.arm hs0

theorem Stable.giveUp (hP : Stable P) {s a2} (hs : P s) : P (State.giveUp s a2) := by
  unfold State.giveUp
  extract_lets +onlyGivenNames -merge s0 s1 s2 s3 s4 s5 s6
  clear_value s0 s1 s2 s6
  have hs3 : P s3 := hP.modSpan (hP.bump hs)
  have hs4 : P s4 := hP.linkFalls (hP.exhaust hs3)
  have hs5 : P s5 := by
    unfold s5
    split
    · exact hP.loseLink (hP.raise (hP.modSpan hs4))
    · exact hP.bump (hP.train hs4)
  clear_value s3 s4 s5
  exact foldlKeeps (fun _ _ x9 => hP.queueEntry x9) _ hs5

theorem Stable.execAckTimeout (hP : Stable P) {a1 s} (hs : P s) : OutAll P (Machine.execAckTimeout a1 s) := by
  unfold Machine.execAckTimeout
  refine OutAll.next ?_
  split
  · exact hs
  · extract_lets +onlyGivenNames -merge s0
    have hs0 : P s0 := hP.clearWire hs
    clear_value s0
    split
    · exact hP.disarm hs0
    · refine hP.pump ?_
      split
      · exact hP.giveUp hs0
      · exact hP.replayFrames hs0

theorem Stable.execSpanLinkEnable (hP : Stable P) {a1 a2 s} (hs : P s) : OutAll P (Machine.execSpanLinkEnable a1 a2 s) := by
  unfold Machine.execSpanLinkEnable
  refine OutAll.next ?_
  split
  · exact hs
  · extract_lets +onlyGivenNames -merge s0
    have hs0 : P s0 := hP.clearWire (hP.setFlag hs)
    clear_value s0
    split
    · split
      · exact hP.train hs0
      · exact hs0
    · split
      · exact hs0
      · extract_lets +onlyGivenNames -merge s1
        have hs1 : P s1 := by
          unfold s1
          split
          · exact hP.linkFalls hs0
          · exact hs0
        clear_value s1
        exact hP.refreshReach (hP.disarm (hP.disarm (hP.setReg hs1)))

theorem Stable.execDelivered (hP : Stable P) {s} (hs : P s) : OutAll P (Machine.execDelivered s) := by
  unfold Machine.execDelivered
  refine OutAll.next ?_
  split
  · rename_i _ v1 v2
    have h3 : P v1 := pairSnd v2 (hP.takeEntry hs)
    exact h3
  · rename_i _ _ _ _ v8 v9
    have h10 : P v8 := pairSnd v9 (hP.takeEntry hs)
    split
    · exact hP.bump h10
    · extract_lets +onlyGivenNames -merge s11
      have hs11 : P s11 := hP.disarm (hP.modSl h10)
      clear_value s11
      split
      · exact hs11
      · exact hP.endTaken hs11

theorem Stable.execTrainingTimeout (hP : Stable P) {a1 s} (hs : P s) : OutAll P (Machine.execTrainingTimeout a1 s) := by
  unfold Machine.execTrainingTimeout
  refine OutAll.next ?_
  split
  · exact hP.loseLink hs
  · exact hs

theorem Stable.execDelivTmo (hP : Stable P) {a1 s} (hs : P s) : OutAll P (Machine.execDelivTmo a1 s) := by
  unfold Machine.execDelivTmo
  refine OutAll.next ?_
  split
  · exact hs
  · extract_lets +onlyGivenNames -merge s0
    have hs0 : P s0 := hP.disarm (hP.modSl hs)
    clear_value s0
    exact hP.report hs0

/-! ## Machine/Time.lean -/

theorem Stable.modCam (hP : Stable P) {s a2 a3} (hs : P s) : P (State.modCam s a2 a3) := by
  unfold State.modCam
  exact hP.modTm hs

theorem Stable.writeCamMode (hP : Stable P) {s a2 a3} (hs : P s) : P (State.writeCamMode s a2 a3) := by
  unfold State.writeCamMode
  split
  · exact hs
  · extract_lets +onlyGivenNames -merge s0
    clear_value s0
    exact hP.modCam (hP.disarm (hP.setReg hs))

theorem Stable.acceptSample (hP : Stable P) {s a2 a3 a4} (hs : P s) : P (State.acceptSample s a2 a3 a4) := by
  unfold State.acceptSample
  extract_lets +onlyGivenNames -merge s0 s1 s2 s3 s4
  clear_value s0 s1 s3
  have hs2 : P s2 := hP.modCam hs
  have hs4 : P s4 := hP.setReg (hP.setReg (hP.setReg hs2))
  clear_value s2 s4
  split
  · exact hP.setRegS hs4
  · exact hs4

theorem Stable.execRefWindow (hP : Stable P) {a1 s} (hs : P s) : OutAll P (Machine.execRefWindow a1 s) := by
  unfold Machine.execRefWindow
  refine OutAll.next ?_
  split
  · exact hs
  · split
    · exact hP.refLost hs
    · extract_lets +onlyGivenNames -merge s0 s1 s2
      clear_value s0
      have hs1 : P s1 := hP.modTm hs
      have hs2 : P s2 := by
        unfold s2
        split
        · exact hP.reviewSources (hP.modTm (hP.setReg hs1))
        · exact hs1
      clear_value s1 s2
      split
      · exact hP.followSource hs2
      · exact hs2

theorem Stable.execCamLatchTimeout (hP : Stable P) {a1 a2 s} (hs : P s) : OutAll P (Machine.execCamLatchTimeout a1 a2 s) := by
  unfold Machine.execCamLatchTimeout
  refine OutAll.next ?_
  extract_lets +onlyGivenNames -merge s0
  clear_value s0
  split
  · extract_lets +onlyGivenNames -merge s1 s2
    have hs1 : P s1 := hP.modCam (hP.disarm hs)
    have hs2 : P s2 := hP.bump hs1
    clear_value s1 s2
    split
    · exact hP.setReg hs2
    · exact hs2
  · exact hs

theorem Stable.execCamLatchReadDone (hP : Stable P) {a1 a2 s} (hs : P s) : OutAll P (Machine.execCamLatchReadDone a1 a2 s) := by
  unfold Machine.execCamLatchReadDone
  refine OutAll.next ?_
  extract_lets +onlyGivenNames -merge s0
  clear_value s0
  split
  · extract_lets +onlyGivenNames -merge s1 s2 s3 s4 s5
    clear_value s1 s2 s4 s5
    have hs3 : P s3 := hP.modCam (hP.disarm hs)
    clear_value s3
    split
    · exact hP.acceptSample hs3
    · extract_lets +onlyGivenNames -merge s6 s7 s8
      clear_value s6 s7
      have hs8 : P s8 := hP.bump hs3
      clear_value s8
      split
      · exact hP.acceptSample hs8
      · exact hP.modCam hs8
  · exact hs

theorem Stable.execRefEdgeLoss (hP : Stable P) {s} (hs : P s) : OutAll P (Machine.execRefEdgeLoss s) := by
  unfold Machine.execRefEdgeLoss
  refine OutAll.next ?_
  split
  · exact hP.refLost hs
  · exact hs

theorem Stable.execReversingEnd (hP : Stable P) {s} (hs : P s) : OutAll P (Machine.execReversingEnd s) := by
  unfold Machine.execReversingEnd
  refine OutAll.next ?_
  split
  · split
    · exact hP.disarm hs
    · extract_lets +onlyGivenNames -merge s0
      have hs0 : P s0 := hP.countCancel hs
      clear_value s0
      split
      · exact hP.makeActive hs0
      · exact hP.reviewSources (hP.makeActive hs0)
  · exact hs

theorem Stable.execHoldAged (hP : Stable P) {s} (hs : P s) : OutAll P (Machine.execHoldAged s) := by
  unfold Machine.execHoldAged
  refine OutAll.next ?_
  split
  · exact hP.setReg (hP.disarm hs)
  · exact hs

theorem Stable.execAnnounceEnd (hP : Stable P) {s} (hs : P s) : OutAll P (Machine.execAnnounceEnd s) := by
  unfold Machine.execAnnounceEnd
  refine OutAll.next ?_
  split
  · split
    · exact hP.disarm hs
    · extract_lets +onlyGivenNames -merge s0 s1
      have hs0 : P s0 := hP.noteApplied (hP.disarm hs)
      have hs1 : P s1 := hP.setReg (hP.modTm hs0)
      clear_value s0 s1
      exact hP.slewWith (hP.setFreq hs1)
  · exact hs

theorem Stable.execUpwardHoldExpire (hP : Stable P) {s} (hs : P s) : OutAll P (Machine.execUpwardHoldExpire s) := by
  unfold Machine.execUpwardHoldExpire
  refine OutAll.next ?_
  split
  · split
    · exact hP.announceTo hs
    · exact hs
  · exact hs

theorem Stable.ppsQualifies (hP : Stable P) {s a2} (hs : P s) : P (State.ppsQualifies s a2) := by
  unfold State.ppsQualifies
  extract_lets +onlyGivenNames -merge s0 s1 s2
  clear_value s0 s1
  have hs2 : P s2 := by
    unfold s2
    split
    · exact hP.modTm (hP.setReg (hP.stepDevtime hs))
    · exact hs
  clear_value s2
  exact hP.reviewSources (hP.modTm (hP.setReg hs2))

theorem Stable.ppsPhase (hP : Stable P) {s a2} (hs : P s) : P (State.ppsPhase s a2) := by
  unfold State.ppsPhase
  split
  · split
    · exact hP.setPhase hs
    · exact hs
  · split
    · exact hP.slewWith (hP.noteApplied hs)
    · exact hs

theorem Stable.execPpsEdge (hP : Stable P) {a1 s} (hs : P s) : OutAll P (Machine.execPpsEdge a1 s) := by
  unfold Machine.execPpsEdge
  refine OutAll.next ?_
  split
  · exact hs
  · extract_lets +onlyGivenNames -merge s0 s1 s2 s3 s4 s5 s6 s7 s8 s9 s10 s11 s12 s13 s14
    clear_value s0 s1 s3 s4 s5 s6 s7 s9 s11
    have hs2 : P s2 := hP.setRegS (hP.setReg (hP.setReg hs))
    have hs8 : P s8 := by
      unfold s8
      split
      · exact hP.ppsLost hs2
      · exact hs2
    have hs10 : P s10 := hP.modTm hs8
    have hs12 : P s12 := by
      unfold s12
      split
      · exact hP.ppsQualifies hs10
      · exact hs10
    have hs13 : P s13 := hP.arm hs12
    have hs14 : P s14 := by
      unfold s14
      split
      · exact hP.followSource hs13
      · exact hs13
    clear_value s2 s8 s10 s12 s13 s14
    exact hP.ppsPhase hs14

theorem Stable.execXtalFail (hP : Stable P) {s} (hs : P s) : OutAll P (Machine.execXtalFail s) := by
  unfold Machine.execXtalFail
  refine OutAll.next ?_
  split
  · exact hP.setReg (hP.raise hs)
  · exact hs

theorem Stable.execCamModeWrite (hP : Stable P) {a1 a2 s} (hs : P s) : OutAll P (Machine.execCamModeWrite a1 a2 s) := by
  unfold Machine.execCamModeWrite
  refine OutAll.next ?_
  split
  · exact hP.writeCamMode hs
  · exact hs

theorem Stable.execSlewEnd (hP : Stable P) {s} (hs : P s) : OutAll P (Machine.execSlewEnd s) := by
  unfold Machine.execSlewEnd
  refine OutAll.next ?_
  split
  · split
    · exact hP.disarm hs
    · exact hP.raise (hP.bump (hP.makeActive hs))
  · exact hs

theorem Stable.execPpsTimeout (hP : Stable P) {s} (hs : P s) : OutAll P (Machine.execPpsTimeout s) := by
  unfold Machine.execPpsTimeout
  refine OutAll.next ?_
  split
  · exact hP.ppsLost (hP.modTm (hP.disarm hs))
  · exact hs

theorem Stable.execCamSyncPulse (hP : Stable P) {s} (hs : P s) : OutAll P (Machine.execCamSyncPulse s) := by
  unfold Machine.execCamSyncPulse
  refine OutAll.next ?_
  extract_lets +onlyGivenNames -merge s0
  clear_value s0
  split
  · extract_lets +onlyGivenNames -merge s1 s2
    have hs1 : P s1 := hP.modTm (hP.modPins hs)
    have hs2 : P s2 := hP.arm hs1
    clear_value s1 s2
    exact foldlKeeps (fun _ _ x5 => hP.arm (hP.modCam x5)) _ hs2
  · exact hs

/-! ## Machine/Spi.lean -/

theorem Stable.ownMiddle (hP : Stable P) {s a2 a3} (hs : P s) : P (State.ownMiddle s a2 a3) := by
  unfold State.ownMiddle
  split
  · exact afterKeeps (hP.execPortEn hs) hs
  · split
    · extract_lets +onlyGivenNames -merge s0 s1 s2
      clear_value s0
      have hs1 : P s1 := by
        unfold s1
        split
        · exact afterKeeps (hP.execHotClr hs) hs
        · exact hs
      have hs2 : P s2 := by
        unfold s2
        split
        · exact afterKeeps (hP.execCntClr hs1) hs1
        · exact hs1
      clear_value s1 s2
      split
      · exact afterKeeps (hP.execCommit hs2) hs2
      · exact hs2
    · split
      · exact hP.writeCamMode hs
      · split
        · split
          · exact afterKeeps (hP.execPoolLowClr hs) hs
          · exact hs
        · split
          · extract_lets +onlyGivenNames -merge s3 s4
            have hs3 : P s3 := by
              unfold s3
              split
              · exact afterKeeps (hP.execLoadCanvas hs) hs
              · exact hs
            have hs4 : P s4 := by
              unfold s4
              split
              · exact afterKeeps (hP.execHangRequest hs3) hs3
              · exact hs3
            clear_value s3 s4
            split
            · exact afterKeeps (hP.execUnstage hs4) hs4
            · exact hs4
          · exact hs

theorem Stable.execSpiMwrite (hP : Stable P) {a1 a2 s} (hs : P s) : OutAll P (Machine.execSpiMwrite a1 a2 s) := by
  unfold Machine.execSpiMwrite
  refine OutAll.next ?_
  split
  · exact hs
  · split
    · exact hs
    · split
      · exact hs
      · exact hP.modExt (Mem.writeBytes_wf _ _ _) hs

theorem Stable.spiSend (hP : Stable P) {s a2} (hs : P s) : P (State.spiSend s a2) := by
  unfold State.spiSend
  exact hP.modHi hs

theorem Stable.ownHost (hP : Stable P) {s a2 a3} (hs : P s) : P (State.ownHost s a2 a3) := by
  unfold State.ownHost
  split
  · exact afterKeeps (hP.execLgFaultAck hs) hs
  · split
    · exact hP.writeRings hs
    · split
      · exact hP.writePi hs
      · exact hs

theorem Stable.latchRead (hP : Stable P) {s a2} (hs : P s) : P (State.latchRead s a2) := by
  unfold State.latchRead
  split
  · exact afterKeeps (hP.execDevtimeRead hs) hs
  · split
    · exact afterKeeps (hP.execWindowsRead hs) hs
    · exact hs

theorem Stable.spiReadWord (hP : Stable P) {s a2} (hs : P s) : P (State.spiReadWord s a2).2 := by
  unfold State.spiReadWord
  split
  · extract_lets +onlyGivenNames -merge s0
    have hs0 : P s0 := hP.latchRead hs
    clear_value s0
    exact mkSnd hs0
  · exact mkSnd hs

theorem Stable.execSpiCmd (hP : Stable P) {a1 a2 s} (hs : P s) : OutAll P (Machine.execSpiCmd a1 a2 s) := by
  unfold Machine.execSpiCmd
  refine OutAll.next ?_
  split
  · exact hs
  · split
    · exact hP.bump (hP.modHi hs)
    · extract_lets +onlyGivenNames -merge s0
      have hs0 : P s0 := hP.modHi hs
      clear_value s0
      split
      · exact hs0
      · exact hP.admitCommand hs0

theorem Stable.execSpiResp (hP : Stable P) {a1 s} (hs : P s) : OutAll P (Machine.execSpiResp a1 s) := by
  unfold Machine.execSpiResp
  refine OutAll.next ?_
  split
  · exact hs
  · split
    · exact hP.tick (hP.spiSend hs)
    · extract_lets +onlyGivenNames -merge s0 s1
      clear_value s0
      have hs1 : P s1 := hP.spiSend hs
      clear_value s1
      split
      · extract_lets +onlyGivenNames -merge s2
        have hs2 : P s2 := hP.modHi hs1
        clear_value s2
        exact hP.flushSpi hs2
      · exact hs1

theorem Stable.ownUpper (hP : Stable P) {s a2 a3} (hs : P s) : P (State.ownUpper s a2 a3) := by
  unfold State.ownUpper
  split
  · exact hP.writeBias hs
  · split
    · exact afterKeeps (hP.execQuarClr hs) hs
    · split
      · exact afterKeeps (hP.execVideo hs) hs
      · split
        · split
          · extract_lets +onlyGivenNames -merge s0
            clear_value s0
            split
            · exact afterKeeps (hP.execDcsShortWrite hs) hs
            · split
              · exact afterKeeps (hP.execDcsShortWriteParam hs) hs
              · split
                · exact afterKeeps (hP.execDcsLongWrite hs) hs
                · exact hs
          · exact hs
        · split
          · extract_lets +onlyGivenNames -merge s1 s2
            clear_value s1
            have hs2 : P s2 := afterKeeps (hP.execSpanLinkEnable hs) hs
            clear_value s2
            split
            · exact afterKeeps (hP.execRetrain hs2) hs2
            · exact hs2
          · exact hs

theorem Stable.execSpiStatus (hP : Stable P) {s} (hs : P s) : OutAll P (Machine.execSpiStatus s) := by
  unfold Machine.execSpiStatus
  refine OutAll.next ?_
  split
  · exact hP.spiSend hs
  · exact hs

theorem Stable.ownKeeper (hP : Stable P) {s a2 a3} (hs : P s) : P (State.ownKeeper s a2 a3) := by
  unfold State.ownKeeper
  split
  · split
    · exact hP.writeGo hs
    · exact hs
  · split
    · split
      · exact hP.writeBankClr (hP.modStore (hP.writeAllow hs))
      · exact hs
    · split
      · extract_lets +onlyGivenNames -merge s0
        have hs0 : P s0 := by
          unfold s0
          split
          · exact hs
          · exact afterKeeps (hP.execGuardEnClear hs) hs
        clear_value s0
        split
        · exact afterKeeps (hP.execPeakClr hs0) hs0
        · exact hs0
      · split
        · exact hP.domRequest hs
        · split
          · split
            · exact afterKeeps (hP.execPowerPeakClr hs) hs
            · exact hs
          · exact hs

theorem Stable.spiWord (hP : Stable P) {s a2 a3} (hs : P s) : P (State.spiWord s a2 a3) := by
  unfold State.spiWord
  split
  · exact hs
  · extract_lets +onlyGivenNames -merge s0
    have hs0 : P s0 := hP.afterWrite (hP.writeWord hs)
    clear_value s0
    split
    · exact hP.ownKeeper hs0
    · split
      · exact hP.ownMiddle hs0
      · split
        · exact hP.ownUpper hs0
        · exact hP.ownHost hs0

theorem Stable.execSpiWrite (hP : Stable P) {a1 a2 s} (hs : P s) : OutAll P (Machine.execSpiWrite a1 a2 s) := by
  unfold Machine.execSpiWrite
  exact OutAll.next (foldlKeeps (fun _ _ x2 => hP.spiWord x2) _ hs)

theorem Stable.execSpiRead (hP : Stable P) {a1 a2 s} (hs : P s) : OutAll P (Machine.execSpiRead a1 a2 s) := by
  unfold Machine.execSpiRead
  refine OutAll.next ?_
  split
  · exact hs
  · extract_lets +onlyGivenNames -merge s0
    have hs0 : P s0.2 := by
      unfold s0
      refine foldlSnd ?_ _ ?_
      · intro _ _ x3
        extract_lets +onlyGivenNames -merge s4
        have hs4 : P s4.2 := hP.spiReadWord x3
        clear_value s4
        exact mkSnd hs4
      · exact mkSnd hs
    clear_value s0
    exact hP.spiSend hs0

theorem Stable.execSpiMread (hP : Stable P) {a1 a2 s} (hs : P s) : OutAll P (Machine.execSpiMread a1 a2 s) := by
  unfold Machine.execSpiMread
  refine OutAll.next ?_
  split
  · exact hs
  · split
    · exact hP.spiSend hs
    · exact hP.tick (hP.spiSend hs)

/-! ## Machine/Spiking.lean -/

theorem Stable.popMark (hP : Stable P) {s a2 a3 a4} (hs : P s) : P (State.popMark s a2 a3 a4) := by
  unfold State.popMark
  exact hP.epochMark hs

theorem Stable.exportCell (hP : Stable P) {s a2 a3 a4 a5} (hs : P s) : P (State.exportCell s a2 a3 a4 a5) := by
  unfold State.exportCell
  extract_lets +onlyGivenNames -merge s0 s1 s2 s3
  clear_value s1 s2
  have hs0 : P s0 := hP.popMark hs
  have hs3 : P s3 := hP.pushItem hs0
  clear_value s0 s3
  exact hP.modPop hs3

theorem Stable.integrate (hP : Stable P) {s a2 a3 a4} (hs : P s) : P (State.integrate s a2 a3 a4).2 := by
  unfold State.integrate
  split
  · exact mkSnd (hP.bump hs)
  · extract_lets +onlyGivenNames -merge s0 s1
    clear_value s0 s1
    split
    · extract_lets +onlyGivenNames -merge s2
      have hs2 : P s2.2 := by
        unfold s2
        refine foldlSnd ?_ _ ?_
        · intro _ _ x5
          extract_lets +onlyGivenNames -merge s6 s7 s8 s9
          clear_value s6 s8
          have hs7 : P s7 := x5
          have hs9 : P s9 := by
            unfold s9
            split
            · exact hP.bump hs7
            · exact hs7
          clear_value s7 s9
          exact hP.inputTargets hs9
        · exact mkSnd hs
      clear_value s2
      exact mkSnd hs2

theorem Stable.controlCell (hP : Stable P) {s a2 a3} (hs : P s) : P (State.controlCell s a2 a3) := by
  unfold State.controlCell
  split
  · exact hP.bump hs
  · split
    · extract_lets +onlyGivenNames -merge s0
      clear_value s0
      exact hP.modSf hs
    · split
      · exact hP.bump hs
      · exact hs

theorem Stable.takeInput (hP : Stable P) {s a2 a3 a4} (hs : P s) : P (State.takeInput s a2 a3 a4).2 := by
  unfold State.takeInput
  extract_lets +onlyGivenNames -merge s0
  clear_value s0
  split
  · refine mkSnd ?_
    split
    · exact hP.modPop hs
    · exact hs
  · extract_lets +onlyGivenNames -merge s1 s2 s3
    clear_value s1 s3
    have hs2 : P s2 := by
      unfold s2
      split
      · exact hP.exportCell hs
      · exact hs
    clear_value s2
    split
    · exact hP.integrate hs2
    · exact mkSnd (hP.controlCell hs2)

theorem Stable.execCutMarkersCollected (hP : Stable P) {a1 s} (hs : P s) : OutAll P (Machine.execCutMarkersCollected a1 s) := by
  unfold Machine.execCutMarkersCollected
  refine OutAll.next ?_
  split
  · extract_lets +onlyGivenNames -merge s0 s1 s2 s3 s4 s5 s6 s7
    clear_value s0 s1 s2
    have hs3 : P s3 := hP.popMark hs
    have hs4 : P s4 := by
      unfold s4
      split
      · exact hP.markPoisoned (hP.pushItem hs3)
      · exact hs3
    have hs5 : P s5 := hP.pushItem hs4
    have hs6 : P s6 := hP.modPop hs5
    have hs7 : P s7 := hP.setReg hs6
    clear_value s3 s4 s5 s6 s7
    split
    · exact hP.finishOp hs7
    · exact hs7
  · exact hs

theorem Stable.execKeyedEopAccepted (hP : Stable P) {a1 s} (hs : P s) : OutAll P (Machine.execKeyedEopAccepted a1 s) := by
  unfold Machine.execKeyedEopAccepted
  refine OutAll.next ?_
  split
  · exact hs
  · split
    · exact hs
    · exact hP.endTaken (hP.modQueue hs)

theorem Stable.execNeuronSweep (hP : Stable P) {a1 s} (hs : P s) : OutAll P (Machine.execNeuronSweep a1 s) := by
  unfold Machine.execNeuronSweep
  refine OutAll.next ?_
  split
  · refine foldlKeeps ?_ _ ?_
    · intro _ _ x2
      refine foldlKeeps ?_ _ ?_
      · intro _ _ x5
        split
        · exact hP.putNeuron x5
        · exact x5
      · exact x2
    · exact hs
  · exact hs

theorem Stable.execPacedStepClose (hP : Stable P) {a1 a2 a3 s} (hs : P s) : OutAll P (Machine.execPacedStepClose a1 a2 a3 s) := by
  unfold Machine.execPacedStepClose
  refine OutAll.next ?_
  split
  · extract_lets +onlyGivenNames -merge s0
    clear_value s0
    split
    · exact hs
    · exact hP.closeStep (hP.wakeTile hs)
  · exact hs

theorem Stable.execKeyedPop (hP : Stable P) {a1 a2 s} (hs : P s) : OutAll P (Machine.execKeyedPop a1 a2 s) := by
  unfold Machine.execKeyedPop
  refine OutAll.next ?_
  extract_lets +onlyGivenNames -merge s0 s1
  clear_value s0 s1
  split
  · assumption
  · split
    · rename_i _ _ v4 v5
      have h6 : P v4 := pairSnd v5 (hP.popFor hs)
      assumption
    · rename_i _ _ _ _ v11 v12
      have h13 : P v11 := pairSnd v12 (hP.popFor hs)
      split
      · assumption
      · extract_lets +onlyGivenNames -merge s14 s15
        clear_value s14
        have hs15 : P s15 := hP.inject h13
        clear_value s15
        split
        · exact hP.modQueue hs15
        · assumption

theorem Stable.execTileSleep (hP : Stable P) {a1 s} (hs : P s) : OutAll P (Machine.execTileSleep a1 s) := by
  unfold Machine.execTileSleep
  refine OutAll.next ?_
  extract_lets +onlyGivenNames -merge s0 s1
  clear_value s0 s1
  split
  · exact hP.setReg (hP.disarm hs)
  · exact hs

theorem Stable.execResetPop (hP : Stable P) {a1 s} (hs : P s) : OutAll P (Machine.execResetPop a1 s) := by
  unfold Machine.execResetPop
  refine OutAll.next ?_
  split
  · exact hs
  · extract_lets +onlyGivenNames -merge s0
    clear_value s0
    exact hP.finishOp (foldlKeeps (fun _ _ x3 => foldlKeeps (fun _ _ x6 => hP.putNeuron x6) _ x3) _ hs)

theorem Stable.execSpikeCountWindow (hP : Stable P) {a1 s} (hs : P s) : OutAll P (Machine.execSpikeCountWindow a1 s) := by
  unfold Machine.execSpikeCountWindow
  refine OutAll.next ?_
  extract_lets +onlyGivenNames -merge s0
  clear_value s0
  split
  · exact hs
  · extract_lets +onlyGivenNames -merge s1 s2 s3
    clear_value s1
    have hs2 : P s2 := hP.setReg (hP.setReg hs)
    have hs3 : P s3 := foldlKeeps (fun _ _ x6 => hP.setReg x6) _ hs2
    clear_value s2 s3
    exact hP.modPop hs3

theorem Stable.execCut (hP : Stable P) {a1 s} (hs : P s) : OutAll P (Machine.execCut a1 s) := by
  unfold Machine.execCut
  refine OutAll.next ?_
  split
  · exact hs
  · split
    · exact hs
    · extract_lets +onlyGivenNames -merge s0 s1 s2
      clear_value s0
      have hs1 : P s1 := hP.modOp hs
      have hs2 : P s2 := hP.modPop hs1
      clear_value s1 s2
      exact foldlKeeps (fun _ _ x5 => hP.inject x5) _ hs2

theorem Stable.execSpikeTileInput (hP : Stable P) {a1 a2 s} (hs : P s) : OutAll P (Machine.execSpikeTileInput a1 a2 s) := by
  unfold Machine.execSpikeTileInput
  refine OutAll.next ?_
  split
  · exact hs
  · split
    · exact hs
    · split
      · exact hs
      · extract_lets +onlyGivenNames -merge s0
        have hs0 : P s0.2 := hP.takeInput (hP.wakeTile hs)
        clear_value s0
        exact hP.refreshDrain (hP.modMesh hs0)

/-! ## Machine/Trace.lean -/

theorem Stable.drainTrace (hP : Stable P) {s} (hs : P s) : P (State.drainTrace s) := by
  unfold State.drainTrace
  extract_lets +onlyGivenNames -merge s0 s1
  clear_value s0 s1
  exact hP.modHi hs

theorem Stable.putTrace (hP : Stable P) {s a2 a3} (hs : P s) : P (State.putTrace s a2 a3) := by
  unfold State.putTrace
  extract_lets +onlyGivenNames -merge s0 s1 s2
  clear_value s1 s2
  have hs0 : P s0 := hP.drainTrace hs
  clear_value s0
  split
  · exact hP.modHi hs0
  · exact hP.bump (hP.modHi hs0)

theorem Stable.execTraceTime (hP : Stable P) {s} (hs : P s) : OutAll P (Machine.execTraceTime s) := by
  unfold Machine.execTraceTime
  extract_lets +onlyGivenNames -merge s0
  clear_value s0
  refine OutAll.next ?_
  split
  · exact hP.putTrace (hP.modHi hs)
  · exact hs

theorem Stable.execTracePacket (hP : Stable P) {s} (hs : P s) : OutAll P (Machine.execTracePacket s) := by
  unfold Machine.execTracePacket
  refine OutAll.next ?_
  split
  · exact hs
  · split
    · exact hP.putTrace (hP.modHi hs)
    · exact hs

end Sys2Proof.Machine
end

