-- ==== Sys2Proof/Laws/StableExec.lean ====
section
/-! SUPPORT. Every command and every step keeps what the updates of single parts keep. -/
namespace Sys2Proof.Machine

variable {P : State → Prop}

/-- Whatever a command does, it keeps a stable property (all rows of the command table). -/
theorem exec_stable (hP : Stable P) {c : Instr} {s : State} (hs : P s) : OutAll P (exec c s) := by
  unfold exec
  split
  · exact hP.execRegisterWrite hs
  · exact hP.execPaceMonitorInterval hs
  · exact hP.execMonitorFailed hs
  · exact hP.execGuardEnClear hs
  · exact hP.execPeakClr hs
  · exact hP.execResetNAssert hs
  · exact hP.execResetNRelease hs
  · exact hP.execPowerOnResetRelease hs
  · exact hP.execRailBrownout hs
  · exact hP.execBrownoutHoldCheck hs
  · exact hP.execKeeperWd hs
  · exact hP.execTempSample hs
  · exact hP.execThermalCooled hs
  · exact hP.execDomainRequest hs
  · exact hP.execDomainWakeDone hs
  · exact hP.execDomainSwitchFail hs
  · exact hP.execPowerSample hs
  · exact hP.execPowerPeakClr hs
  · exact hP.execHeartbeatEdge hs
  · exact hP.execPerstN hs
  · exact hP.execBootGo hs
  · exact hP.execBootWaitExpire hs
  · exact hP.execAllowUntested hs
  · exact hP.execBankClr hs
  · exact hP.execPreferB hs
  · exact hP.execLoadCanvas hs
  · exact hP.execCanvasStaged hs
  · exact hP.execLoadDeferredStart hs
  · exact hP.execHangRequest hs
  · exact hP.execHangEffect hs
  · exact hP.execUnstage hs
  · exact hP.execEpochDrainEnd hs
  · exact hP.execDrainTimeout hs
  · exact hP.execTileRoleTake hs
  · exact hP.execMeshPacketRoute hs
  · exact hP.execEscapeDivert hs
  · exact hP.execStepSlotStart hs
  · exact hP.execBundleIssue hs
  · exact hP.execScalarNop hs
  · exact hP.execIntegerOp hs
  · exact hP.execScratchAccess hs
  · exact hP.execMemoryLoadStore hs
  · exact hP.execStatusRead hs
  · exact hP.execConditionalBranch hs
  · exact hP.execLoopOp hs
  · exact hP.execBundleOverrun hs
  · exact hP.execSlotOpComplete hs
  · exact hP.execMoveTileToTile hs
  · exact hP.execMoveTileToMemory hs
  · exact hP.execMoveMemoryToTile hs
  · exact hP.execReshard hs
  · exact hP.execQueuePush hs
  · exact hP.execQueuePopToTile hs
  · exact hP.execDropRemainder hs
  · exact hP.execWatermarkQuery hs
  · exact hP.execFenceSlotStart hs
  · exact hP.execFenceQueueDepth hs
  · exact hP.execFenceMarkerAtHead hs
  · exact hP.execHostStep hs
  · exact hP.execStepGraceExpire hs
  · exact hP.execRenderWindowOpen hs
  · exact hP.execRenderWindowClose hs
  · exact hP.execEventPacketReceive hs
  · exact hP.execEventPacketWrite hs
  · exact hP.execLinkError hs
  · exact hP.execThermalFrameStart hs
  · exact hP.execThermalLine hs
  · exact hP.execThermalFrameEnd hs
  · exact hP.execAerRequest hs
  · exact hP.execAerReqFall hs
  · exact hP.execAerHoldExpire hs
  · exact hP.execPseudoPacketTimeout hs
  · exact hP.execGlintWindowEnd hs
  · exact hP.execGlintHoldExpire hs
  · exact hP.execRefractSweep hs
  · exact hP.execCommit hs
  · exact hP.execCommitApply hs
  · exact hP.execCntClr hs
  · exact hP.execHotClr hs
  · exact hP.execPortEn hs
  · exact hP.execRefWindow hs
  · exact hP.execRefEdgeLoss hs
  · exact hP.execPpsEdge hs
  · exact hP.execPpsTimeout hs
  · exact hP.execUpwardHoldExpire hs
  · exact hP.execAnnounceEnd hs
  · exact hP.execSlewEnd hs
  · exact hP.execHoldAged hs
  · exact hP.execCamSyncPulse hs
  · exact hP.execCamLatchReadDone hs
  · exact hP.execCamLatchTimeout hs
  · exact hP.execCamModeWrite hs
  · exact hP.execXtalFail hs
  · exact hP.execDevtimeRead hs
  · exact hP.execWindowsRead hs
  · exact hP.execPushCell hs
  · exact hP.execPopCell hs
  · exact hP.execTakeCell hs
  · exact hP.execFreeCell hs
  · exact hP.execKeyedPop hs
  · exact hP.execKeyedEopAccepted hs
  · exact hP.execScrubVisit hs
  · exact hP.execSeverComplete hs
  · exact hP.execFreeListRebuildDone hs
  · exact hP.execPoolLowClr hs
  · exact hP.execSpikeTileInput hs
  · exact hP.execPacedStepClose hs
  · exact hP.execNeuronSweep hs
  · exact hP.execCut hs
  · exact hP.execCutMarkersCollected hs
  · exact hP.execResetPop hs
  · exact hP.execSpikeCountWindow hs
  · exact hP.execTileSleep hs
  · exact hP.execGemm hs
  · exact hP.execConv hs
  · exact hP.execGconv hs
  · exact hP.execPool hs
  · exact hP.execEltwise hs
  · exact hP.execSurfaceAccumulate hs
  · exact hP.execSurfaceTimeReadout hs
  · exact hP.execSurfaceCountReadout hs
  · exact hP.execGemmBatch hs
  · exact hP.execDispatch hs
  · exact hP.execCombine hs
  · exact hP.execExitOp hs
  · exact hP.execBiasUpdate hs
  · exact hP.execBiasWrite hs
  · exact hP.execRemoteTmo hs
  · exact hP.execFusionInputTake hs
  · exact hP.execGatherTimeout hs
  · exact hP.execCycleStart hs
  · exact hP.execEarly hs
  · exact hP.execAssoc hs
  · exact hP.execMid hs
  · exact hP.execUpdate hs
  · exact hP.execPost hs
  · exact hP.execTestWindowEnd hs
  · exact hP.execQuarClr hs
  · exact hP.execDrawListTake hs
  · exact hP.execTriangleList hs
  · exact hP.execTriangleStrip hs
  · exact hP.execLineList hs
  · exact hP.execGlyphQuads hs
  · exact hP.execTransform hs
  · exact hP.execTextureSlot hs
  · exact hP.execUnderpaint hs
  · exact hP.execCloseFrame hs
  · exact hP.execScreenTileTake hs
  · exact hP.execScreenTileDone hs
  · exact hP.execEndOp hs
  · exact hP.execMov hs
  · exact hP.execAddOp hs
  · exact hP.execMulOp hs
  · exact hP.execMad hs
  · exact hP.execMinOp hs
  · exact hP.execMaxOp hs
  · exact hP.execSat hs
  · exact hP.execSwz hs
  · exact hP.execConstOp hs
  · exact hP.execTex hs
  · exact hP.execKill hs
  · exact hP.execRcp hs
  · exact hP.execFrameStart hs
  · exact hP.execDsiLine hs
  · exact hP.execVideo hs
  · exact hP.execDcsShortWrite hs
  · exact hP.execDcsShortWriteParam hs
  · exact hP.execDcsLongWrite hs
  · exact hP.execTrainPairReceive hs
  · exact hP.execTrainingTimeout hs
  · exact hP.execTrainingRetry hs
  · exact hP.execSpanTransmit hs
  · exact hP.execLongFrameReceive hs
  · exact hP.execShortFrameReceive hs
  · exact hP.execShortFrameSend hs
  · exact hP.execCredit hs
  · exact hP.execGrant hs
  · exact hP.execDelivered hs
  · exact hP.execNotice hs
  · exact hP.execAckTimeout hs
  · exact hP.execDelivTmo hs
  · exact hP.execRetrain hs
  · exact hP.execCmdDoorbell hs
  · exact hP.execNopCmd hs
  · exact hP.execGoCmd hs
  · exact hP.execDomainCmd hs
  · exact hP.execResetCore hs
  · exact hP.execFwStage hs
  · exact hP.execFwStageDone hs
  · exact hP.execI2cXfer hs
  · exact hP.execI2cXferDone hs
  · exact hP.execI2cStretchTimeout hs
  · exact hP.execAlarmSend hs
  · exact hP.execResume hs
  · exact hP.execBadOp hs
  · exact hP.execRingsEn hs
  · exact hP.execReadoutPop hs
  · exact hP.execDmaError hs
  · exact hP.execPcieLinkDown hs
  · exact hP.execBar2Access hs
  · exact hP.execSpiStatus hs
  · exact hP.execSpiRead hs
  · exact hP.execSpiWrite hs
  · exact hP.execSpiMread hs
  · exact hP.execSpiMwrite hs
  · exact hP.execSpiCmd hs
  · exact hP.execSpiResp hs
  · exact hP.execAlarmStatusTimer hs
  · exact hP.execAlarmSentenceSent hs
  · exact hP.execTestLogicReset hs
  · exact hP.execBypass hs
  · exact hP.execIdcode hs
  · exact hP.execSamplePreload hs
  · exact hP.execExtest hs
  · exact hP.execClamp hs
  · exact hP.execHighz hs
  · exact hP.execTracePacket hs
  · exact hP.execTraceTime hs
  · exact hP.execCompletionNotice hs
  · exact hP.execTerminalReport hs
  · exact hP.execCoalesceExpire hs
  · exact hP.execFaultRaise hs
  · exact hP.execFaultHandle hs
  · exact hP.execLgFaultAck hs
  · exact hP.execWatchdog hs
  · exact hP.execQuiesceDone hs
  · exact hP.execReversingEnd hs
  · exact hP.execPcieLinkUp hs
  · exact hP.execSpanLinkEnable hs

theorem OutAll.of_eq {o : Out} {t : State} (h : OutAll P o) (ho : o = .next t) : P t := by subst ho; exact h

/-- The state after a command. -/
theorem exec_next_stable (hP : Stable P) {c : Instr} {s t : State} (hs : P s) (h : exec c s = .next t) : P t :=
  (exec_stable hP hs).of_eq h

/-- The state after a step, for a property that the queue's rest keeps, too. -/
theorem step_next_stable (hP : Stable P) (hq : ∀ {s : State} {f}, P s → P (s.modPending f)) {s t : State} (hs : P s)
    (h : step s = .next t) : P t := by
  unfold step at h
  split at h
  · exact OutAll.of_eq (o := .next s.crystalCycle) (hP.crystalCycle hs) h
  · exact exec_next_stable hP (hq hs) h

end Sys2Proof.Machine
end

