-- ==== Sys2Proof/Tests/Slice0.lean ====
section
/-! SUPPORT. Tests of the model: the checks of WellFormed, small single steps with results from the spec, and for every statement with
hypotheses a state and operands that meet all of them. -/
set_option Elab.async false
set_option linter.unusedVariables false
namespace Sys2Proof.Tests
open Sys2Proof Sys2Proof.Machine

/-- A Q64 in run at 5 s of DEVTIME, every domain on and the PCIe link up. -/
def run : State :=
  { State.reset with regs := [(R.pwDomStateOn.key 0 0, 0x3FFFFFF), (R.pwResetCausePor.key 0 0, 1), (R.hiStatusLinkUp.key 0 0, 1)], devtime := 5000000000,
                     keeper := { mode := .run }, pins := { resetN := true, porReleased := true } }
/-- The same with a queue: producer and consumer endpoint, quota 8, one cell of data in it where `l` says so. -/
def queued (q prod cons : Nat) (l : List Cell) : State :=
  run |>.setReg R.qmQCfgPresent 1 q |>.setReg R.qmQEpProd prod q |>.setReg R.qmQEpCons cons q |>.setReg R.qmQCfgQuota 8 q
    |>.modQueue q fun x => { x with cells := l }
/-- Tile 0 with one partition of a kind, and one slot operation whose group 0 is tile 0; its descriptors lie at 0x2000. -/
def tiled (kind : Nat) (o : SlotOp) (l : List Host.Cell) : State :=
  run |>.modRoles (fun r => r.set 0 1) |>.modCv (fun x => { x with active := some { tiles := [{ parts := 1 }], mems := [⟨0, 8, kind, false, 0⟩] } })
    |>.modPp (fun x => { x with plan := some {}, ops := [o] }) |>.modExt fun _ => { cells := (0x1000, 1) :: l }
/-- A slot operation of a class. -/
def slotOp (cls word : Nat) : SlotOp :=
  { bundle := 0, cls := cls, word := word, item := 0, step := 0, groups := 0x1000, data := 0x2000, dataLen := 4096 }
/-- Fusion in a cycle with one command cell in its queue; group 0 of the plan is tile 0, whose partition 0 takes all of its memory. -/
def fused (command : Cell64) : State :=
  queued 5 0x10 0x62 [{ idx := 7, data := command, dp := parity 64 command.toNat }] |>.setReg R.fuCtrlEn 1 |>.setReg R.fuCtrlCmdQid 5
    |>.modFu (fun x => { x with cycleOpen := true, cycleStep := some 0 }) |>.modPp (fun x => { x with plan := some {} })
    |>.modCv (fun x => { x with active := some { tiles := [{ parts := 1 }], mems := [⟨0, 256, 5, false, 0⟩] } })
    |>.modExt fun _ => { cells := [(0, 1)] }

/-! ## Well-formed commands -/

theorem test_wf_ports : ∀ i ∈ ([.eventPacketReceive 4 0 0x30 .ok true [], .eventPacketWrite 4, .linkError 4 true, .glintWindowEnd 4,
    .glintHoldExpire 4, .refractSweep 4, .commit 4, .commitApply 4, .cntClr 4, .hotClr 4, .portEn 4 true, .thermalFrameStart 2 0 .ok,
    .thermalLine 2 0 0 0x2D .ok true [], .thermalFrameEnd 2 0, .camLatchReadDone 4 0, .camLatchTimeout 4 true, .camModeWrite 4 0] :
    List Instr), i.wellFormed = false := by decide

theorem test_wf_numbers : ∀ i ∈ ([.paceMonitorInterval [] 0, .monitorFailed 20, .domainWakeDone 26, .domainSwitchFail 26, .tileRoleTake 64,
    .spikeTileInput 64 [], .pacedStepClose 64 0 [], .pacedStepClose 0 64 [], .neuronSweep 64, .cutMarkersCollected 64,
    .spikeCountWindow 64, .tileSleep 64, .biasWrite 64 0, .fusionInputTake 16 .none, .screenTileTake 64, .screenTileDone 64 []] :
    List Instr), i.wellFormed = false := by decide

theorem test_wf_queues : ∀ i ∈ ([.pushCell 256 0 0 0 {} false, .pushCell 0 512 0 0 {} false, .popCell 256 0 .none, .popCell 0 512 .none,
    .takeCell 256 0 .none, .takeCell 0 512 .none, .freeCell 256 0 0, .freeCell 0 1048576 0, .keyedPop 512 .none, .keyedEopAccepted 512,
    .severComplete 512, .readoutPop 16 .none] : List Instr), i.wellFormed = false := by decide

theorem test_wf_offsets : ∀ i ∈ ([.registerWrite 2 0 .pcie, .registerWrite 0x1000000 0 .pcie, .bar2Access 0x10000000 4 none,
    .spiRead 0x1000000 1, .spiWrite 0x1000000 [], .spiMread 0x100000000 4, .spiMwrite 0x100000000 [], .spiCmd (List.replicate 65 0) 0,
    .faultRaise 2 0 0 0, .faultRaise 0 32 0 0, .faultRaise 0 0 4 0, .faultRaise 0 0 0 16] : List Instr),
    i.wellFormed = false := by decide

theorem test_wf_links : ∀ i ∈ ([.pcieLinkUp 0 1, .pcieLinkUp 1 0, .pcieLinkUp 1 3, .i2cXferDone 2 none [], .i2cStretchTimeout 2,
    .trainPairReceive 2 0 0 true true, .trainingTimeout 2, .trainingRetry 2, .longFrameReceive 2 (List.replicate 74 0) 0,
    .shortFrameReceive 2 0 0, .shortFrameSend 2, .ackTimeout 2, .retrain 2, .spanLinkEnable 2 true] : List Instr),
    i.wellFormed = false := by decide

theorem test_wf_frames : (∀ k ∈ [0, 73, 75, 80], (Instr.longFrameReceive 0 (List.replicate k 0) 0).wellFormed = false) ∧
    (Instr.longFrameReceive 0 (List.replicate 74 0) 0).wellFormed = true := by decide

/-! ## Single steps: the expected values are read or reckoned from the spec -/

/-- What a command leaves answers a question with yes. -/
def after (o : Out) (p : State → Bool) : Bool :=
  match o with
  | .next t => p t
  | _ => false

/-- R222: 5 s of DEVTIME are 0x1_2A05F200 ns; a read of the low word latches the high one. -/
theorem test_devtime_read : after (exec .devtimeRead run) (fun t => t.reg R.tmDevtimeHiNs == 1) = true := by decide

/-- R74, R79: 105.0 °C is 840 eighths and shows HOT. -/
theorem test_temp_hot : after (exec (.tempSample 840) run) (fun t => t.reg R.pwTempTj == 840 && t.reg R.pwTempHot == 1) = true := by decide

/-- R74: below zero. -/
theorem test_temp_cold : after (exec (.tempSample (-8)) run) (fun t => t.reg R.pwTempTj == 0xFF8 && t.reg R.pwTempHot == 0) = true := by
  decide

/-- R478 and the access codes of the spec's scope: a write-one-to-clear field keeps the bits written as zeros. -/
theorem test_write_one_to_clear :
    after (exec (.registerWrite 0xFC0068 0x0F .pcie) (run.setReg R.hiIrqStatusVec 0xFF)) (fun t => t.reg R.hiIrqStatusVec == 0xF0) = true := by
  decide

/-- The access codes of the spec's scope: a read-only field ignores a write. -/
theorem test_read_only : after (exec (.registerWrite 0x600000 7 .pcie) run) (fun t => t.reg R.qmPoolFree == 1048576) = true := by decide

/-- R233, R234: a push takes one cell from the free list and raises the queue's depth. -/
theorem test_push : after (exec (.pushCell 3 5 0x1234 0x3000007 {} false) (queued 5 3 0x70 []))
    (fun t => t.depth 5 == 1 && t.freeCells + 1 == (queued 5 3 0x70 []).freeCells) = true := by decide

/-- R233: a producer that the queue does not name pushes nothing. -/
theorem test_push_wrong : after (exec (.pushCell 4 5 0x1234 0x3000007 {} false) (queued 5 3 0x70 []))
    (fun t => t.depth 5 == 0 && t.freeCells == (queued 5 3 0x70 []).freeCells) = true := by decide

set_option maxRecDepth 20000 in
/-- CRC-16 of R437's polynomial 0x1021 from 0xFFFF: the published check value of "123456789". -/
theorem test_crc16 : crc16 [0x31, 0x32, 0x33, 0x34, 0x35, 0x36, 0x37, 0x38, 0x39] = 0x29B1 := by decide

set_option maxRecDepth 20000 in
/-- CRC-32 of IEEE 802.3 (R118, R402): the published check value of "123456789". -/
theorem test_crc32 : crc32 [0x31, 0x32, 0x33, 0x34, 0x35, 0x36, 0x37, 0x38, 0x39] = 0xCBF43926 := by decide

set_option maxRecDepth 20000 in
/-- SHA-256 (R99): the digest of "abc" that FIPS 180-4 publishes. -/
theorem test_sha256 : sha256 [0x61, 0x62, 0x63] = [0xBA, 0x78, 0x16, 0xBF, 0x8F, 0x01, 0xCF, 0xEA, 0x41, 0x41, 0x40, 0xDE, 0x5D, 0xAE,
    0x22, 0x23, 0xB0, 0x03, 0x61, 0xA3, 0x96, 0x17, 0x7A, 0x9C, 0xB4, 0x10, 0xFF, 0x61, 0xF2, 0x00, 0x15, 0xAD] := by decide +kernel

set_option maxRecDepth 20000 in
/-- P-256 (R98): the base point lies on the curve. -/
theorem test_p256_base : onCurve p256Base.1 p256Base.2 = true := by decide +kernel

/-- R378: 1 + 1 = 2 and 3 × 2 = 6. -/
theorem test_half : halfAdd 0x3C00 0x3C00 = 0x4000 ∧ halfMul 0x4200 0x4000 = 0x4600 := by decide

/-- R445: outside reset and GESSO, EXTEST selects BYPASS. -/
theorem test_extest_bypass : after (exec .extest run) (fun t => t.pins == run.pins) = true := by decide

/-- A step takes the command at the front of the queue. -/
theorem test_front_command : after (step (run.withCommand .poolLowClr)) (fun t => t.pending == []) = true := by decide

/-- R203: one cycle of the 38.4 MHz crystal adds 26 ns, and the fraction 0x0AAAAAAB / 2^32 (CORR is 0). -/
theorem test_crystal_cycle : after (step run) (fun t => t.devtime == 5000000026 && t.frac == 0x0AAAAAAB) = true := by decide

/-! ## Witnesses: every hypothesis of every statement is met somewhere -/

theorem witness_StepRunsTheFrontCommand : ∃ (c : Instr) (rest : List Instr) (s : State),
      s.pending = c :: rest :=
  ⟨.nopCmd, [], (run.withCommand .nopCmd), by decide⟩

theorem witness_EmptyQueueStepIsACrystalCycle :
    (∃ (s : State),
      s.pending = [] ∧
      s.clockRuns = false) ∧
    (∃ (s : State),
      s.pending = [] ∧
      s.clockRuns = true ∧
      s.devtime < 2 ^ 64 ∧
      s.frac < 2 ^ 32) ∧
    (∃ (s : State),
      s.corr = 0) :=
  ⟨⟨(run |>.modKeeper (fun k => { k with mode := .reset })), by decide⟩,
  ⟨(run), by decide⟩,
  ⟨(run), by decide⟩⟩

theorem witness_ResetState : ∃ (r : Row) (i : Nat) (j : Nat),
      r.key i j ≠ R.pwResetCausePor.key 0 0 :=
  ⟨R.kpBootGo, 0, 0, by decide⟩

theorem witness_EveryStepKeepsTheCanonicalForm : ∃ (s : State) (t : State),
      s.canonical = true ∧
      step s = .next t :=
  by refine ⟨(run), _, ?_, rfl⟩ <;> decide

theorem witness_EveryStepKeepsTheFaultStackSound : ∃ (s : State) (t : State),
      s.stackSound = true ∧
      step s = .next t :=
  by refine ⟨(run), _, ?_, rfl⟩ <;> decide

theorem witness_CommandsLeaveQueueAndPartAlone :
    (∃ (c : Instr) (s : State),
      (∀ (tl : Nat) (bl : List Nat) (f : RFrame), c = Instr.screenTileDone tl bl → s.rd.sealed = some f → s.fbInstalled f.buffer = true)) ∧
    (∃ (c : Instr) (s : State) (t : State),
      exec c s = .next t) :=
  ⟨⟨.nopCmd, (run), (by first | decide | (intros; simp_all))⟩,
  ⟨.nopCmd, (run), _, rfl⟩⟩

theorem witness_DevtimeReadLatchesTheUpperWord : ∃ (s : State),
      s.devtime < 2 ^ 64 :=
  ⟨(run), by decide⟩

theorem witness_WindowsReadsAndClears :
    (∃ (s : State),
      s.flag R.pcCtrlGuardEn = false) ∧
    (∃ (s : State),
      (s.openGroups.all fun g => decide (g < 64)) = true) ∧
    (∃ (s : State),
      s.freeCells < 2 ^ 21 ∧
      s.alive = true) ∧
    (∃ (s : State),
      s.flag R.pcCtrlGuardEn = true ∧
      s.flag R.ppStatusRun = false) ∧
    (∃ (s : State),
      s.flag R.pcCtrlGuardEn = true ∧
      s.flag R.ppStatusRun = true) :=
  ⟨⟨(run |>.setReg R.pcCtrlGuardEn 0), by decide⟩,
  ⟨(run), by decide⟩,
  ⟨(run), by decide⟩,
  ⟨(run |>.setReg R.pcCtrlGuardEn 1 |>.setReg R.ppStatusRun 0), by decide⟩,
  ⟨(run |>.setReg R.pcCtrlGuardEn 1 |>.setReg R.ppStatusRun 1), by decide⟩⟩

theorem witness_RegisterWritesFollowTheAccessCodes :
    (∃ (off : Nat) (v : Word) (via : Iface) (s : State),
      s.writeReaches off via = false) ∧
    (∃ (v : Word) (via : Iface) (s : State),
      s.writeReaches 6291472 via = true ∧
      s.hi.rspWait = []) ∧
    (∃ (v : Word) (via : Iface) (s : State),
      s.writeReaches 2097172 via = true ∧
      s.hi.rspWait = []) ∧
    (∃ (off : Nat) (v : Word) (via : Iface) (s : State),
      (off = 1048596 ∨ off = 3145728) ∧
      s.writeReaches off via = true ∧
      s.hi.rspWait = []) ∧
    (∃ (off : Nat) (v : Word) (via : Iface) (s : State) (r : Row) (i : Nat) (j : Nat),
      s.writeReaches off via = true ∧
      s.hi.rspWait = [] ∧
      off ≠ 5242888 ∧
      (r.key i j < 8 * off ∨ 8 * off + 32 ≤ r.key i j) ∧
      r.key i j ≠ R.eiXoffState.key 0 0) :=
  ⟨⟨2, 0, .pcie, (run), by decide⟩,
  ⟨0, .pcie, (run |>.modHi (fun x => { x with rspWait := [] })), by decide⟩,
  ⟨0, .pcie, (run |>.modHi (fun x => { x with rspWait := [] })), by decide⟩,
  ⟨0x100014, 0, .pcie, (run |>.modHi (fun x => { x with rspWait := [] })), by decide⟩,
  ⟨0x100014, 0, .pcie, (run |>.modHi (fun x => { x with rspWait := [] })), R.kpBootGo, 0, 0, by decide⟩⟩

theorem witness_PaceAndMonitors :
    (∃ (readings : List (BitVec 16)) (vsense : BitVec 12) (s : State),
      readings.length = 20 ∧
      (readings.all fun v => decide (2048 ≤ v.toNat) && decide (v.toNat ≤ 12288)) = true ∧
      s.paceDue = true ∧
      (List.range 20).all s.monOn = true ∧
      s.keeper.monOut = []) ∧
    (∃ (readings : List (Option (BitVec 16))) (vsense : BitVec 12) (s : State),
      s.paceDue = true) ∧
    (∃ (readings : List (Option (BitVec 16))) (vsense : BitVec 12) (s : State),
      s.paceDue = false) ∧
    (∃ (n : Nat) (s : State),
      s.monOn n = true ∧
      (4 ≤ s.keeper.monMiss.getD n 0 ∨ s.reg R.pcMonState n = 2) ∧
      (¬n ∈ s.keeper.monOut) ∧
      s.keeper.monOut = [] ∧
      n < 16) ∧
    (∃ (n : Nat) (s : State),
      s.monOn n = true ∧
      (4 ≤ s.keeper.monMiss.getD n 0 ∨ s.reg R.pcMonState n = 2) ∧
      (¬n ∈ s.keeper.monOut) ∧
      (s.keeper.monOut ≠ [] ∨ 16 ≤ n)) ∧
    (∃ (n : Nat) (s : State),
      (s.monOn n = false ∨ n ∈ s.keeper.monOut)) :=
  ⟨⟨List.replicate 20 0x1000, 0, (run |>.modKeeper (fun x => { x with monOut := [] })), by decide⟩,
  ⟨[], 0, (run), by decide⟩,
  ⟨[], 0, ((run |>.modKeeper fun k => { k with mode := .reset })), by decide⟩,
  ⟨0, (run |>.modKeeper (fun x => { x with monOut := [] }) |>.modKeeper (fun k => { k with monMiss := [4] })), by decide⟩,
  ⟨16, (run |>.setReg R.pcMonState 2 16), by decide⟩,
  ⟨0, (run |>.modKeeper (fun k => { k with monOut := [0] })), by decide⟩⟩

theorem witness_DomainSwitches :
    (∃ (v : Word) (via : Iface) (s : State),
      s.writeReaches 2097164 via = true ∧
      s.domServing = false ∧
      s.inRun = true ∧
      s.domFault (bits (BitVec.toNat v) 9 1) via = none) ∧
    (∃ (v : Word) (via : Iface) (s : State),
      s.writeReaches 2097164 via = false) ∧
    (∃ (v : Word) (via : Iface) (d : Nat) (c : Nat) (s : State),
      s.writeReaches 2097164 via = true ∧
      s.domServing = false ∧
      s.domFault (bits (BitVec.toNat v) 9 1) via = some (d, c)) ∧
    (∃ (v : Word) (via : Iface) (s : State),
      s.writeReaches 2097164 via = true ∧
      s.domServing = true) ∧
    (∃ (v : Word) (via : Iface) (s : State),
      s.writeReaches 2097164 via = true ∧
      s.domServing = false ∧
      s.inRun = false ∧
      s.domFault (bits (BitVec.toNat v) 9 1) via = none) ∧
    (∃ (v : Word) (via : Iface) (d : Nat) (s : State),
      s.writeReaches 2097164 via = true ∧
      s.domServing = false ∧
      s.inRun = true ∧
      1 ≤ d ∧
      d ≤ 9 ∧
      bitAt (BitVec.toNat v) d ≠ s.domUp d ∧
      (∀ (e : Nat), 1 ≤ e → e ≤ 9 → e ≠ d → bitAt (BitVec.toNat v) e = s.domUp e) ∧
      s.domRefusal (bits (BitVec.toNat v) 9 1) d via = 0 ∧
      bitAt (BitVec.toNat v) d = true ∧
      (domNeeds d).all s.domOn = true) ∧
    (∃ (v : Word) (via : Iface) (d : Nat) (s : State),
      s.writeReaches 2097164 via = true ∧
      s.domServing = false ∧
      s.inRun = true ∧
      1 ≤ d ∧
      d ≤ 9 ∧
      bitAt (BitVec.toNat v) d ≠ s.domUp d ∧
      (∀ (e : Nat), 1 ≤ e → e ≤ 9 → e ≠ d → bitAt (BitVec.toNat v) e = s.domUp e) ∧
      s.domRefusal (bits (BitVec.toNat v) 9 1) d via = 0 ∧
      bitAt (BitVec.toNat v) d = false ∧
      d ≠ 9) ∧
    (∃ (d : Nat) (s : State),
      s.waking d = true ∧
      (d = 0 ∨ 5 < d) ∧
      d < 26 ∧
      d ≠ 6 ∧
      d ≠ 8 ∧
      d ≠ 9 ∧
      s.keeper.domWork.head? ≠ some d) ∧
    (∃ (d : Nat) (s : State),
      s.waking d = true ∧
      d < 26 ∧
      s.keeper.domWork = [d] ∧
      s.keeper.domWaits = []) ∧
    (∃ (s : State),
      s.waking 5 = true ∧
      s.inRun = false ∧
      s.keeper.domWork.head? ≠ some 5) ∧
    (∃ (s : State),
      s.waking 6 = true ∧
      s.keeper.domWork.head? ≠ some 6) ∧
    (∃ (s : State),
      s.waking 1 = true ∧
      s.keeper.domWork.head? ≠ some 1) ∧
    (∃ (s : State),
      s.waking 4 = true ∧
      s.keeper.domWork.head? ≠ some 4) ∧
    (∃ (s : State),
      s.waking 8 = true ∧
      s.keeper.domWork.head? ≠ some 8) ∧
    (∃ (s : State),
      s.waking 9 = true ∧
      s.keeper.domWork.head? ≠ some 9 ∧
      s.inRun = true ∧
      s.flag R.slSCtrlEn = false ∧
      s.flag R.slSCtrlEn 1 = false) ∧
    (∃ (d : Nat) (s : State),
      s.switches d = true ∧
      s.due (Timer.domain d) = true ∧
      d < 26 ∧
      s.keeper.domWork.head? ≠ some d) ∧
    (∃ (d : Nat) (s : State),
      s.waking d = false) ∧
    (∃ (d : Nat) (s : State),
      s.switches d = false) :=
  ⟨⟨0x3FE, .spi, (run), by decide⟩,
  ⟨0, .spi, (run |>.modKeeper (fun k => { k with mode := .reset })), by decide⟩,
  ⟨0x3FC, .pcie, 1, 3, (run), by decide⟩,
  ⟨0x3FE, .spi, ((run |>.modKeeper (fun k => { k with domWork := [9] }))), by decide⟩,
  ⟨0x3FE, .spi, ((run |>.modKeeper (fun k => { k with mode := .gesso }))), by decide⟩,
  by refine ⟨0x3FE, .spi, 9, ((run |>.setReg R.pwDomStateOn 0x3FFFDFF)), ?_, ?_, ?_, ?_, ?_, ?_, (by intro e a b; rcases (by omega : e = 1 ∨ e = 2 ∨ e = 3 ∨ e = 4 ∨ e = 5 ∨ e = 6 ∨ e = 7 ∨ e = 8 ∨ e = 9) with h | h | h | h | h | h | h | h | h <;> subst h <;> decide), ?_⟩ <;> decide,
  by refine ⟨0x2FE, .spi, 8, (run), ?_, ?_, ?_, ?_, ?_, ?_, (by intro e a b; rcases (by omega : e = 1 ∨ e = 2 ∨ e = 3 ∨ e = 4 ∨ e = 5 ∨ e = 6 ∨ e = 7 ∨ e = 8 ∨ e = 9) with h | h | h | h | h | h | h | h | h <;> subst h <;> decide), ?_⟩ <;> decide,
  ⟨25, ((run |>.modKeeper (fun k => { k with switching := [(25, true)] }))), by decide⟩,
  ⟨25, ((run |>.modKeeper (fun k => { k with switching := [(25, true)], domWork := [25] }))), by decide⟩,
  ⟨((run |>.modKeeper (fun k => { k with switching := [(5, true)], mode := .gesso }))), by decide⟩,
  ⟨((run |>.modKeeper (fun k => { k with switching := [(6, true)] }))), by decide⟩,
  ⟨((run |>.modKeeper (fun k => { k with switching := [(1, true)] }))), by decide⟩,
  ⟨(run |>.modKeeper (fun k => { k with switching := [(4, true)] })), by decide⟩,
  ⟨(run |>.modKeeper (fun k => { k with switching := [(8, true)] })), by decide⟩,
  ⟨((run |>.modKeeper (fun k => { k with switching := [(9, true)] }))), by decide⟩,
  ⟨25, (run |>.armAt (.domain 25) 0 |>.modKeeper (fun k => { k with switching := [(25, true)] })), by decide⟩,
  ⟨0, (run), by decide⟩,
  ⟨0, (run), by decide⟩⟩

theorem witness_EventPortsStartFromReset :
    (∃ (s : State),
      s.waking 2 = true ∧
      s.keeper.domWork.head? ≠ some 2) ∧
    (∃ (s : State),
      s.waking 3 = true ∧
      s.keeper.domWork.head? ≠ some 3) :=
  ⟨⟨((run |>.modKeeper (fun k => { k with switching := [(2, true)] }))), by decide⟩,
  ⟨((run |>.modKeeper (fun k => { k with switching := [(3, true)] }))), by decide⟩⟩

theorem witness_KeepersSensors :
    (∃ (mw : BitVec 16) (s : State),
      s.alive = true ∧
      meanOf (List.take 100 (mw.toNat :: s.keeper.powerHist)) < 2 ^ 16 ∧
      (meanOf (List.take 100 (mw.toNat :: s.keeper.powerHist)) ≤ s.member.maxMw ∨ s.flag R.pwPowerOver = true)) ∧
    (∃ (mw : BitVec 16) (s : State),
      s.alive = true ∧
      s.flag R.pwPowerOver = false ∧
      s.member.maxMw < meanOf (List.take 100 (mw.toNat :: s.keeper.powerHist))) ∧
    (∃ (tj : BitVec 12) (s : State),
      s.alive = true ∧
      (tj.toInt < 864 ∨ tj.toInt < 920 ∧ s.flag R.pwTempWarn = true)) ∧
    (∃ (tj : BitVec 12) (s : State),
      s.alive = true ∧
      864 ≤ tj.toInt ∧
      tj.toInt < 920 ∧
      s.flag R.pwTempWarn = false) ∧
    (∃ (tj : BitVec 12) (s : State),
      s.alive = true ∧
      920 ≤ tj.toInt ∧
      s.keeper.mode ≠ Mode.tripped ∧
      s.flag R.pwTempWarn = true) ∧
    (∃ (tj : BitVec 12) (s : State),
      s.keeper.mode = Mode.tripped ∧
      tj.toInt < 760) ∧
    (∃ (tj : BitVec 12) (s : State),
      s.alive = false) :=
  ⟨⟨0, (run), by decide⟩,
  ⟨0xFFFF, (run |>.setReg R.pwPowerOver 0), by decide⟩,
  ⟨0, (run), by decide⟩,
  ⟨864, (run |>.setReg R.pwTempWarn 0), by decide⟩,
  ⟨920, (run |>.setReg R.pwTempWarn 1), by decide⟩,
  ⟨0, (run |>.modKeeper (fun x => { x with mode := Mode.tripped })), by decide⟩,
  ⟨0, (run |>.modKeeper (fun k => { k with mode := .reset })), by decide⟩⟩

theorem witness_ResetsAndHeartbeat :
    (∃ (s : State),
      s.keeper.mode ≠ Mode.reset) ∧
    (∃ (s : State),
      s.keeper.mode = Mode.reset) ∧
    (∃ (s : State),
      s.due Timer.heartbeat = true ∧
      s.clockRuns = true ∧
      s.healthy = true ∧
      s.flag R.lgStatusQuiescing = false) ∧
    (∃ (s : State),
      s.due Timer.heartbeat = true ∧
      s.clockRuns = true ∧
      s.inRun = true ∧
      s.healthy = false ∧
      s.flag R.lgStatusQuiescing = false) ∧
    (∃ (s : State),
      s.due Timer.heartbeat = false) :=
  ⟨⟨(run), by decide⟩,
  ⟨(run |>.modKeeper (fun x => { x with mode := Mode.reset })), by decide⟩,
  ⟨(run |>.armAt (.heartbeat) 0 |>.setReg R.lgStatusQuiescing 0 |>.setReg R.cvStatusActive 1 |>.modKeeper (fun k => { k with lastResult := some 4900000000 })), by decide⟩,
  ⟨(run |>.armAt (.heartbeat) 0 |>.setReg R.lgStatusQuiescing 0), by decide⟩,
  ⟨(run), by decide⟩⟩

theorem witness_ResetExit :
    (∃ (b : BitVec 2) (s : State),
      s.keeper.mode = Mode.reset ∧
      s.pins.resetN = false ∧
      s.pins.porReleased = true ∧
      b.toNat < 2) ∧
    (∃ (b : BitVec 2) (s : State),
      s.keeper.mode = Mode.reset ∧
      s.pins.porReleased = false ∧
      s.pins.resetN = true ∧
      b.toNat < 2) ∧
    (∃ (b : BitVec 2) (s : State),
      s.keeper.mode = Mode.reset ∧
      s.pins.resetN = false ∧
      s.pins.porReleased = true ∧
      2 ≤ b.toNat) ∧
    (∃ (b : BitVec 2) (m : Bool) (s : State),
      s.keeper.mode = Mode.reset ∧
      s.pins.resetN = false ∧
      s.pins.porReleased = false) :=
  ⟨⟨0, (run |>.modKeeper (fun x => { x with mode := Mode.reset }) |>.modPins (fun x => { x with resetN := false }) |>.modPins (fun x => { x with porReleased := true })), by decide⟩,
  ⟨0, (run |>.modKeeper (fun x => { x with mode := Mode.reset }) |>.modPins (fun x => { x with porReleased := false }) |>.modPins (fun x => { x with resetN := true })), by decide⟩,
  ⟨2, (run |>.modKeeper (fun x => { x with mode := Mode.reset }) |>.modPins (fun x => { x with resetN := false }) |>.modPins (fun x => { x with porReleased := true })), by decide⟩,
  ⟨0, false, (run |>.modKeeper (fun x => { x with mode := Mode.reset }) |>.modPins (fun x => { x with resetN := false }) |>.modPins (fun x => { x with porReleased := false })), by decide⟩⟩

theorem witness_BrownOutsAndKeepersWatchdog :
    (∃ (r : Rail) (s : State),
      r ≠ Rail.aon ∧
      s.alive = true ∧
      s.keeper.mode ≠ Mode.tripped ∧
      (List.filter (fun t => decide (s.devtime < t + 10000000000)) s.keeper.brownouts).length < 2) ∧
    (∃ (r : Rail) (s : State),
      r ≠ Rail.aon ∧
      s.alive = true ∧
      s.keeper.mode ≠ Mode.tripped ∧
      (2 ≤ (List.filter (fun t => decide (s.devtime < t + 10000000000)) s.keeper.brownouts).length)) ∧
    (∃ (r : Rail) (s : State),
      r ≠ Rail.aon ∧
      s.keeper.mode = Mode.tripped) ∧
    (∃ (v : BitVec 6) (m : Bool) (s : State),
      s.alive = true ∧
      s.keeper.mode ≠ Mode.stopped) ∧
    (∃ (v : BitVec 6) (m : Bool) (s : State),
      s.keeper.mode = Mode.stopped ∧
      s.due Timer.brownHold = true ∧
      v.toNat ≠ 63) ∧
    (∃ (m : Bool) (s : State),
      s.keeper.mode = Mode.stopped ∧
      s.armed Timer.brownHold = true) ∧
    (∃ (b : BitVec 2) (s : State),
      s.alive = true ∧
      s.pins.resetN = true ∧
      s.pins.porReleased = true ∧
      b.toNat < 2 ∧
      s.keeper.k8Boot = false) :=
  ⟨⟨.core, (run), by decide⟩,
  ⟨.core, (run |>.modKeeper (fun k => { k with brownouts := [4000000000, 4000000001] })), by decide⟩,
  ⟨.core, (run |>.modKeeper (fun x => { x with mode := Mode.tripped })), by decide⟩,
  ⟨0, false, (run), by decide⟩,
  ⟨0, false, (run |>.modKeeper (fun x => { x with mode := Mode.stopped }) |>.armAt (.brownHold) 0), by decide⟩,
  ⟨false, ((run |>.modKeeper (fun k => { k with mode := .stopped }) |>.armAt .brownHold 0)), by decide⟩,
  ⟨0, (run |>.modPins (fun x => { x with resetN := true }) |>.modPins (fun x => { x with porReleased := true }) |>.modKeeper (fun x => { x with k8Boot := false })), by decide⟩⟩

theorem witness_GoAndKeeperControl :
    (∃ (via : Iface) (s : State),
      s.writeReaches 16 via = true ∧
      s.bootIface via = true ∧
      (s.keeper.mode = Mode.waitGo ∨ s.keeper.mode = Mode.gesso ∧ s.reg R.pwHbCode ∈ [1, 2, 3, 5])) ∧
    (∃ (via : Iface) (s : State),
      s.writeReaches 16 via = true ∧
      s.bootIface via = true ∧
      (s.keeper.mode ∈ [Mode.run, Mode.stopped, Mode.tripped] ∨ s.keeper.mode = Mode.gesso ∧ ¬s.reg R.pwHbCode ∈ [1, 2, 3, 4, 5])) ∧
    (∃ (via : Iface) (s : State),
      (s.writeReaches 16 via = false ∨ s.bootIface via = false)) ∧
    (∃ (via : Iface) (s : State),
      s.writeReaches 16 via = true ∧
      s.bootIface via = true ∧
      s.keeper.mode = Mode.booting) ∧
    (∃ (via : Iface) (s : State),
      s.writeReaches 16 via = true ∧
      s.bootIface via = true ∧
      s.keeper.mode = Mode.waitGo ∧
      bootDir s.ext = none) ∧
    (∃ (s : State),
      s.keeper.mode = Mode.waitGo ∧
      s.due Timer.bootWait = true) ∧
    (∃ (via : Iface) (s : State),
      s.writeReaches 20 via = true ∧
      s.bootIface via = true ∧
      (s.inGesso = true ∨ s.keeper.mode = Mode.waitGo) ∧
      s.part.untestedLock = false) ∧
    (∃ (via : Iface) (s : State),
      s.writeReaches 20 via = true ∧
      s.bootIface via = true ∧
      (s.inGesso = false ∧ s.keeper.mode ≠ Mode.waitGo ∨ s.part.untestedLock = true)) ∧
    (∃ (via : Iface) (s : State) (a : Bool) (b : Bool),
      s.writeReaches 20 via = true ∧
      s.bootIface via = true) ∧
    (∃ (via : Iface) (s : State) (on : Bool),
      s.writeReaches 20 via = true ∧
      s.bootIface via = true) :=
  ⟨⟨.spi, (run |>.modKeeper (fun x => { x with mode := Mode.waitGo })), by decide⟩,
  ⟨.spi, (run), by decide⟩,
  ⟨.pcie, (run), by decide⟩,
  ⟨.spi, (run |>.modKeeper (fun x => { x with mode := Mode.booting })), by decide⟩,
  ⟨.spi, (run |>.modKeeper (fun x => { x with mode := Mode.waitGo })), by decide⟩,
  ⟨(run |>.modKeeper (fun x => { x with mode := Mode.waitGo }) |>.armAt (.bootWait) 0), by decide⟩,
  ⟨.spi, (run |>.modKeeper (fun k => { k with mode := .gesso })), by decide⟩,
  ⟨.spi, (run), by decide⟩,
  ⟨.spi, (run), false, false, by decide⟩,
  ⟨.spi, (run), false, by decide⟩⟩

theorem witness_LoaderCommands :
    (∃ (s : State),
      s.inRun = false ∧
      s.alive = true) ∧
    (∃ (s : State),
      s.inRun = true ∧
      (s.flag R.cvStatusHangPend = true ∨ s.flag R.cvStatusLoadBusy = true)) ∧
    (∃ (s : State),
      s.inRun = true ∧
      s.flag R.cvStatusHangPend = false ∧
      s.flag R.cvStatusLoadBusy = false ∧
      s.flag R.cvStatusDraining = true) ∧
    (∃ (s : State),
      s.inRun = true ∧
      s.flag R.cvStatusHangPend = false ∧
      s.flag R.cvStatusLoadBusy = false ∧
      s.flag R.cvStatusDraining = false) ∧
    (∃ (i : ItemId) (s : State),
      s.cv.loadWaits = some i ∧
      s.flag R.cvStatusDraining = false) ∧
    (∃ (s : State),
      (s.cv.loadWaits = none ∨ s.flag R.cvStatusDraining = true)) ∧
    (∃ (s : State),
      s.flag R.cvStatusStaged = true) ∧
    (∃ (s : State),
      s.flag R.cvStatusStaged = false) ∧
    (∃ (s : State),
      s.flag R.cvStatusLoadBusy = true) ∧
    (∃ (e : Easel) (s : State),
      s.flag R.cvStatusLoadBusy = false ∧
      s.cv.easel = some e ∧
      e.quadsOn = []) :=
  ⟨⟨(run |>.modKeeper (fun k => { k with mode := .gesso })), by decide⟩,
  ⟨(run |>.setReg R.cvStatusHangPend 1), by decide⟩,
  ⟨(run |>.setReg R.cvStatusHangPend 0 |>.setReg R.cvStatusLoadBusy 0 |>.setReg R.cvStatusDraining 1), by decide⟩,
  ⟨(run |>.setReg R.cvStatusHangPend 0 |>.setReg R.cvStatusLoadBusy 0 |>.setReg R.cvStatusDraining 0), by decide⟩,
  ⟨0, (run |>.modCv (fun x => { x with loadWaits := some 0 }) |>.setReg R.cvStatusDraining 0), by decide⟩,
  ⟨(run |>.modCv (fun x => { x with loadWaits := none })), by decide⟩,
  ⟨(run |>.setReg R.cvStatusStaged 1), by decide⟩,
  ⟨(run |>.setReg R.cvStatusStaged 0), by decide⟩,
  ⟨(run |>.setReg R.cvStatusLoadBusy 1), by decide⟩,
  ⟨{ canvas := {}, plan := none, regs := [], untested := false, item := 0, markers := [], quadsOn := [] }, (run |>.setReg R.cvStatusLoadBusy 0 |>.modCv (fun x => { x with easel := some ({ canvas := {}, plan := none, regs := [], untested := false, item := 0, markers := [], quadsOn := [] }) })), by decide⟩⟩

theorem witness_StagingAndHang :
    (∃ (e : Easel) (bad : Option Nat) (s : State),
      s.cv.loading = some e ∧
      (e.quadsOn.all fun q => s.domOn (10 + q)) = true) ∧
    (∃ (e : Easel) (s : State),
      s.cv.loading = some e ∧
      (e.quadsOn.all fun q => s.domOn (10 + q)) = true ∧
      e.untested = false ∧
      s.cv.unstageWaits = false) ∧
    (∃ (e : Easel) (r : Nat) (s : State),
      s.cv.loading = some e ∧
      e.quadsOn = [] ∧
      s.cv.unstageWaits = false) ∧
    (∃ (e : Easel) (s : State),
      s.atStepSeam = true ∧
      s.hangReady = true ∧
      s.cv.easel = some e) ∧
    (∃ (s : State),
      (s.atStepSeam = false ∨ s.hangReady = false)) :=
  ⟨⟨{ canvas := {}, plan := none, regs := [], untested := false, item := 0, markers := [], quadsOn := [] }, none, (run |>.modCv (fun x => { x with loading := some ({ canvas := {}, plan := none, regs := [], untested := false, item := 0, markers := [], quadsOn := [] }) })), by decide⟩,
  ⟨{ canvas := {}, plan := none, regs := [], untested := false, item := 0, markers := [], quadsOn := [] }, (run |>.modCv (fun x => { x with loading := some ({ canvas := {}, plan := none, regs := [], untested := false, item := 0, markers := [], quadsOn := [] }) }) |>.modCv (fun x => { x with unstageWaits := false })), by decide⟩,
  ⟨{ canvas := {}, plan := none, regs := [], untested := false, item := 0, markers := [], quadsOn := [] }, 0, (run |>.modCv (fun x => { x with loading := some ({ canvas := {}, plan := none, regs := [], untested := false, item := 0, markers := [], quadsOn := [] }) }) |>.modCv (fun x => { x with unstageWaits := false })), by decide⟩,
  ⟨{ canvas := {}, plan := none, regs := [], untested := false, item := 0, markers := [], quadsOn := [] }, ((run |>.setReg R.ppStatusRun 1 |>.modPp (fun x => { x with plan := some {}, slotBegun := true }) |>.modExt (fun _ => { cells := [(4, 0x10)] }) |>.setReg R.cvStatusHangPend 1 |>.setReg R.cvStatusStaged 1 |>.modCv (fun x => { x with easel := some { canvas := {}, plan := none, regs := [], untested := false, item := 0, markers := [], quadsOn := [] } }))), by decide +kernel⟩,
  ⟨(run), by decide⟩⟩

theorem witness_DrainAndRoles :
    (∃ (s : State),
      s.flag R.cvStatusDraining = true ∧
      s.cv.drained = false ∧
      s.reg R.cvEpochDrainCount = 0) ∧
    (∃ (s : State),
      (s.flag R.cvStatusDraining = false ∨ s.cv.drained = true ∨ s.reg R.cvEpochDrainCount ≠ 0)) ∧
    (∃ (s : State),
      s.flag R.cvStatusDraining = true ∧
      s.cv.drained = false ∧
      s.due Timer.drain = true) ∧
    (∃ (c : Canvas) (t : Nat) (s : State),
      s.cv.active = some c ∧
      s.cv.drained = true ∧
      t ∈ s.cv.takers ∧
      t < 64 ∧
      s.roles.length = 64) ∧
    (∃ (t : Nat) (s : State),
      (s.cv.active = none ∨ s.cv.drained = false ∨ ¬t ∈ s.cv.takers)) :=
  ⟨⟨(run |>.setReg R.cvStatusDraining 1 |>.modCv (fun x => { x with drained := false }) |>.setReg R.cvEpochDrainCount 0), by decide⟩,
  ⟨(run |>.setReg R.cvStatusDraining 0), by decide⟩,
  ⟨(run |>.setReg R.cvStatusDraining 1 |>.modCv (fun x => { x with drained := false }) |>.armAt (.drain) 0), by decide⟩,
  ⟨{}, 63, (run |>.modCv (fun x => { x with active := some {} }) |>.modCv (fun x => { x with drained := true }) |>.modCv (fun x => { x with takers := [63] })), by decide⟩,
  ⟨0, (run |>.modCv (fun x => { x with active := none })), by decide⟩⟩

theorem witness_MeshRouting :
    (∃ (k : Nat) (p : Packet) (s : State),
      s.mesh.packets[k]? = some p ∧
      s.behind k p = false ∧
      p.vc = 0 ∧
      s.domOn (10 + s.quadOf p.tile) = true ∧
      p.load = none ∧
      s.neighbour p.tile ((s.xyPort p.tile p.dest).getD 4) = none) ∧
    (∃ (k : Nat) (p : Packet) (l : MoveLoad) (s : State),
      s.mesh.packets[k]? = some p ∧
      s.behind k p = false ∧
      s.routePorts p = some [4] ∧
      s.domOn (10 + s.quadOf p.tile) = true ∧
      p.load = some l) ∧
    (∃ (k : Nat) (p : Packet) (c : Canvas) (e : RouteRec) (s : State),
      s.mesh.packets[k]? = some p ∧
      s.behind k p = false ∧
      s.domOn (10 + s.quadOf p.tile) = true ∧
      p.load = none ∧
      p.vc ≠ 0 ∧
      s.bankOf p.epoch = some c ∧
      c.lookup p.tile p.key p.vc = some e) ∧
    (∃ (k : Nat) (p : Packet) (s : State),
      s.mesh.packets[k]? = some p ∧
      (s.behind k p = true ∨ s.routePorts p = none ∨ s.domOn (10 + s.quadOf p.tile) = false)) ∧
    (∃ (k : Nat) (p : Packet) (c : Canvas) (e : RouteRec) (d : DepRec) (s : State),
      s.mesh.packets[k]? = some p ∧
      (p.vc = 2 ∨ p.vc = 3) ∧
      s.bankOf p.epoch = some c ∧
      c.lookup p.tile p.key p.vc = some e ∧
      (List.find? (fun d => d.tile == p.tile && bitAt e.out d.port && d.vc == p.vc) c.deps = some d) ∧
      p.since + s.scaled (100 * d.wait) ≤ s.devtime) ∧
    (∃ (k : Nat) (p : Packet) (c : Canvas) (e : RouteRec) (d : DepRec) (s : State),
      s.mesh.packets[k]? = some p ∧
      (p.vc = 2 ∨ p.vc = 3) ∧
      s.bankOf p.epoch = some c ∧
      c.lookup p.tile p.key p.vc = some e ∧
      (List.find? (fun d => d.tile == p.tile && bitAt e.out d.port && d.vc == p.vc) c.deps = some d) ∧
      s.devtime < p.since + s.scaled (100 * d.wait)) :=
  ⟨⟨0, { item := 0, key := 0, vc := 0, epoch := 0, dest := 0, tile := 0, cells := [] }, (run |>.modMesh (fun x => { x with packets := [{ item := 0, key := 0, vc := 0, epoch := 0, dest := 0, tile := 0, cells := [] }] })), by decide⟩,
  ⟨0, { item := 0, key := 0, vc := 0, epoch := 0, dest := 0, tile := 0, cells := [], load := some { op := 0, addr := 0, data := [] } }, { op := 0, addr := 0, data := [] }, ((run |>.modMesh fun x => { x with packets := [{ item := 0, key := 0, vc := 0, epoch := 0, dest := 0, tile := 0, cells := [], load := some { op := 0, addr := 0, data := [] } }] })), by decide +kernel⟩,
  ⟨0, { item := 0, key := 0, vc := 1, epoch := 0, dest := 0, tile := 0, cells := [] }, { tiles := [{ routes := 1 }], routes := [{ key := 0, mask := 0, out := 1, vc := 1, dest := 0 }] }, { key := 0, mask := 0, out := 1, vc := 1, dest := 0 }, (run |>.modMesh (fun x => { x with packets := [{ item := 0, key := 0, vc := 1, epoch := 0, dest := 0, tile := 0, cells := [] }] }) |>.modCv (fun x => { x with active := some { tiles := [{ routes := 1 }], routes := [{ key := 0, mask := 0, out := 1, vc := 1, dest := 0 }] } })), by decide⟩,
  ⟨0, { item := 0, key := 0, vc := 1, epoch := 0, dest := 0, tile := 0, cells := [] }, (run |>.modMesh (fun x => { x with packets := [{ item := 0, key := 0, vc := 1, epoch := 0, dest := 0, tile := 0, cells := [] }] })), by decide⟩,
  ⟨0, { item := 0, key := 0, vc := 2, epoch := 0, dest := 0, tile := 0, cells := [] }, { tiles := [{ routes := 1 }], routes := [{ key := 0, mask := 0, out := 1, vc := 2, dest := 0 }], deps := [{ tile := 0, port := 0, vc := 2, wait := 0 }] }, { key := 0, mask := 0, out := 1, vc := 2, dest := 0 }, { tile := 0, port := 0, vc := 2, wait := 0 }, ((run |>.modMesh (fun x => { x with packets := [{ item := 0, key := 0, vc := 2, epoch := 0, dest := 0, tile := 0, cells := [] }] }) |>.modCv (fun x => { x with active := some { tiles := [{ routes := 1 }], routes := [{ key := 0, mask := 0, out := 1, vc := 2, dest := 0 }], deps := [{ tile := 0, port := 0, vc := 2, wait := 0 }] } }))), by decide +kernel⟩,
  ⟨0, { item := 0, key := 0, vc := 2, epoch := 0, dest := 0, tile := 0, cells := [] }, { tiles := [{ routes := 1 }], routes := [{ key := 0, mask := 0, out := 1, vc := 2, dest := 0 }], deps := [{ tile := 0, port := 0, vc := 2, wait := 10000000000 }] }, { key := 0, mask := 0, out := 1, vc := 2, dest := 0 }, { tile := 0, port := 0, vc := 2, wait := 10000000000 }, ((run |>.modMesh (fun x => { x with packets := [{ item := 0, key := 0, vc := 2, epoch := 0, dest := 0, tile := 0, cells := [] }] }) |>.modCv (fun x => { x with active := some { tiles := [{ routes := 1 }], routes := [{ key := 0, mask := 0, out := 1, vc := 2, dest := 0 }], deps := [{ tile := 0, port := 0, vc := 2, wait := 10000000000 }] } }))), by decide +kernel⟩⟩

theorem witness_ScalarOperations :
    (∃ (n : Nat) (i : Nat) (sc : Nat) (s : State),
      s.pp.scalar = some (n, i, sc) ∧
      s.pp.sregs.length = 32 ∧
      (s.pp.issued.all fun e => !s.isLate e) = true ∧
      bits sc 7 0 = 0) ∧
    (∃ (n : Nat) (i : Nat) (sc : Nat) (s : State),
      s.pp.scalar = some (n, i, sc) ∧
      s.pp.sregs.length = 32 ∧
      (s.pp.issued.all fun e => !s.isLate e) = true ∧
      1 ≤ bits sc 7 0 ∧
      bits sc 7 0 ≤ 31) ∧
    (∃ (n : Nat) (i : Nat) (sc : Nat) (s : State),
      s.pp.scalar = some (n, i, sc) ∧
      s.pp.sregs.length = 32 ∧
      (s.pp.issued.all fun e => !s.isLate e) = true ∧
      56 ≤ bits sc 7 0 ∧
      bits sc 7 0 ≤ 63) ∧
    (∃ (n : Nat) (i : Nat) (sc : Nat) (s : State),
      s.pp.scalar = some (n, i, sc) ∧
      s.pp.sregs.length = 32 ∧
      (s.pp.issued.all fun e => !s.isLate e) = true ∧
      32 ≤ bits sc 7 0 ∧
      bits sc 7 0 ≤ 47) ∧
    (∃ (n : Nat) (i : Nat) (sc : Nat) (s : State) (p : Plan),
      s.pp.scalar = some (n, i, sc) ∧
      s.pp.sregs.length = 32 ∧
      (s.pp.issued.all fun e => !s.isLate e) = true ∧
      48 ≤ bits sc 7 0 ∧
      bits sc 7 0 ≤ 55 ∧
      s.pp.plan = some p) ∧
    (∃ (n : Nat) (i : Nat) (sc : Nat) (s : State) (pf : Bool),
      s.pp.scalar = some (n, i, sc) ∧
      s.pp.sregs.length = 32 ∧
      (s.pp.issued.all fun e => !s.isLate e) = true ∧
      32 ≤ bits sc 7 0 ∧
      bits sc 7 0 ≤ 47) ∧
    (∃ (n : Nat) (i : Nat) (sc : Nat) (s : State) (p : Plan),
      s.pp.scalar = some (n, i, sc) ∧
      s.pp.sregs.length = 32 ∧
      (s.pp.issued.all fun e => !s.isLate e) = true ∧
      48 ≤ bits sc 7 0 ∧
      bits sc 7 0 ≤ 55 ∧
      s.pp.plan = some p) ∧
    (∃ (n : Nat) (i : Nat) (sc : Nat) (s : State),
      s.pp.scalar = some (n, i, sc) ∧
      s.pp.sregs.length = 32 ∧
      (s.pp.issued.all fun e => !s.isLate e) = true ∧
      64 ≤ bits sc 7 0 ∧
      bits sc 7 0 ≤ 71) ∧
    (∃ (n : Nat) (i : Nat) (sc : Nat) (s : State),
      s.pp.scalar = some (n, i, sc) ∧
      s.pp.sregs.length = 32 ∧
      (s.pp.issued.all fun e => !s.isLate e) = true ∧
      bits sc 7 0 = 72 ∧
      bits sc 17 13 ≠ 0 ∧
      s.scA sc ≠ 1 ∧
      (alGet s.pp.loops i).getD 0 < bits sc 63 52) ∧
    (∃ (n : Nat) (i : Nat) (sc : Nat) (s : State),
      s.pp.scalar = some (n, i, sc) ∧
      s.pp.sregs.length = 32 ∧
      (s.pp.issued.all fun e => !s.isLate e) = true ∧
      bits sc 7 0 = 72 ∧
      bits sc 17 13 = 0) ∧
    (∃ (n : Nat) (i : Nat) (sc : Nat) (s : State),
      s.pp.scalar = some (n, i, sc) ∧
      s.pp.sregs.length = 32 ∧
      (s.pp.issued.all fun e => !s.isLate e) = true ∧
      bits sc 7 0 = 72 ∧
      bits sc 17 13 ≠ 0 ∧
      s.scA sc = 1) ∧
    (∃ (n : Nat) (i : Nat) (sc : Nat) (s : State),
      s.pp.scalar = some (n, i, sc) ∧
      s.pp.sregs.length = 32 ∧
      (s.pp.issued.all fun e => !s.isLate e) = true ∧
      bits sc 7 0 = 72 ∧
      bits sc 17 13 ≠ 0 ∧
      s.scA sc ≠ 1 ∧
      bits sc 63 52 ≤ (alGet s.pp.loops i).getD 0) :=
  ⟨⟨0, 0, 0, (run |>.modPp (fun x => { x with scalar := some (0, 0, 0) })), by decide⟩,
  ⟨0, 0, 0x1F, (run |>.modPp (fun x => { x with scalar := some (0, 0, 0x1F) })), by decide⟩,
  ⟨0, 0, 0x3F, (run |>.modPp (fun x => { x with scalar := some (0, 0, 0x3F) })), by decide⟩,
  ⟨0, 0, 0x2F, (run |>.modPp (fun x => { x with scalar := some (0, 0, 0x2F) })), by decide⟩,
  ⟨0, 0, 0x37, (run |>.modPp (fun x => { x with scalar := some (0, 0, 0x37) }) |>.modPp (fun x => { x with plan := some {} })), {}, by decide⟩,
  ⟨0, 0, 0x2F, (run |>.modPp (fun x => { x with scalar := some (0, 0, 0x2F) })), false, by decide⟩,
  ⟨0, 0, 0x37, (run |>.modPp (fun x => { x with scalar := some (0, 0, 0x37) }) |>.modPp (fun x => { x with plan := some {} })), {}, by decide⟩,
  ⟨0, 0, 0x47, (run |>.modPp (fun x => { x with scalar := some (0, 0, 0x47) })), by decide⟩,
  ⟨0, 0, 0x48 + 2 ^ 13 + 2 ^ 52, (run |>.modPp (fun x => { x with scalar := some (0, 0, (0x48 + 2 ^ 13 + 2 ^ 52)) })), by decide⟩,
  ⟨0, 0, 0x48, (run |>.modPp (fun x => { x with scalar := some (0, 0, 0x48) })), by decide⟩,
  ⟨0, 0, 0x48 + 2 ^ 13, (run |>.modPp (fun x => { x with scalar := some (0, 0, (0x48 + 2 ^ 13)) }) |>.modPp (fun x => { x with sregs := List.replicate 32 1 })), by decide⟩,
  ⟨0, 0, 0x48 + 2 ^ 13, (run |>.modPp (fun x => { x with scalar := some (0, 0, (0x48 + 2 ^ 13)) })), by decide⟩⟩

theorem witness_BundleIssue :
    (∃ (p : Plan) (b : Nat) (s : State),
      s.pp.plan = some p ∧
      s.nextBundle = some b ∧
      s.mayIssue b = false) ∧
    (∃ (p : Plan) (b : Nat) (s : State),
      s.pp.plan = some p ∧
      s.nextBundle = some b ∧
      s.mayIssue b = true ∧
      bitAt b 36 = false ∧
      bitAt b 37 = false ∧
      s.haltBefore p (s.reg R.ppBundleIndex) b (s.reg R.pcLevelLevel) = none) ∧
    (∃ (p : Plan) (b : Nat) (c : Nat) (s : State),
      s.pp.plan = some p ∧
      s.nextBundle = some b ∧
      s.mayIssue b = true ∧
      bitAt b 36 = false ∧
      bitAt b 37 = false ∧
      s.haltBefore p (s.reg R.ppBundleIndex) b (s.reg R.pcLevelLevel) = some c) ∧
    (∃ (s : State),
      s.flag R.ppStatusRun = true ∧
      s.pp.slotBegun = false ∧
      s.pp.startSeam = false ∧
      s.nextSlot ≤ s.devtime) ∧
    (∃ (s : State),
      (s.flag R.ppStatusRun = false ∨ s.pp.slotBegun = true ∨ s.devtime < s.nextSlot)) :=
  ⟨⟨{}, 0, (run |>.modPp (fun x => { x with plan := some {} })), by decide +kernel⟩,
  ⟨{ bundles := 1 }, 0, ((run |>.setReg R.ppStatusRun 1 |>.modPp (fun x => { x with plan := some {}, slotBegun := true }) |>.modExt (fun _ => { cells := [] }) |>.modPp (fun x => { x with plan := some { bundles := 1 } }))), by decide +kernel⟩,
  ⟨{}, 0, 1, ((run |>.setReg R.ppStatusRun 1 |>.modPp (fun x => { x with plan := some {}, slotBegun := true }) |>.modExt (fun _ => { cells := [] }))), by decide +kernel⟩,
  ⟨(run |>.setReg R.ppStatusRun 1 |>.modPp (fun x => { x with slotBegun := false }) |>.modPp (fun x => { x with startSeam := false })), by decide⟩,
  ⟨(run), by decide⟩⟩

theorem witness_SlotOperationEnd :
    (∃ (k : Nat) (o : SlotOp) (s : State),
      s.pp.ops[k]? = some o ∧
      o.done = true ∧
      slotFinal o.word = false ∧
      (s.pp.issued.all fun e => !s.isLate e) = true) ∧
    (∃ (k : Nat) (o : SlotOp) (s : State),
      s.pp.ops[k]? = some o ∧
      o.done = true ∧
      slotFinal o.word = true ∧
      (¬o.item ∈ s.pal.dropped) ∧
      (¬o.item ∈ s.pal.poisoned)) ∧
    (∃ (k : Nat) (o : SlotOp) (s : State),
      s.pp.ops[k]? = some o ∧
      o.done = false) ∧
    (∃ (e : Issued) (s : State),
      List.find? s.isLate s.pp.issued = some e) ∧
    (∃ (s : State),
      List.find? s.isLate s.pp.issued = none) :=
  ⟨⟨0, { bundle := 0, cls := 1, word := 0, item := 0, step := 0, groups := 0, data := 0, dataLen := 0, done := true }, (run |>.modPp (fun x => { x with ops := [{ bundle := 0, cls := 1, word := 0, item := 0, step := 0, groups := 0, data := 0, dataLen := 0, done := true }] })), by decide⟩,
  ⟨0, { bundle := 0, cls := 1, word := 2 ^ 22, item := 0, step := 0, groups := 0, data := 0, dataLen := 0, done := true }, (run |>.modPp (fun x => { x with ops := [{ bundle := 0, cls := 1, word := 2 ^ 22, item := 0, step := 0, groups := 0, data := 0, dataLen := 0, done := true }] })), by decide⟩,
  ⟨0, { bundle := 0, cls := 1, word := 0, item := 0, step := 0, groups := 0, data := 0, dataLen := 0 }, (run |>.modPp (fun x => { x with ops := [{ bundle := 0, cls := 1, word := 0, item := 0, step := 0, groups := 0, data := 0, dataLen := 0 }] })), by decide⟩,
  ⟨{ serial := 0, index := 0, at_ := 0, bound := 0, pace := 0 }, ((run |>.modPp fun x => { x with issued := [{ serial := 0, index := 0, at_ := 0, bound := 0, pace := 0 }] })), by decide +kernel⟩,
  ⟨(run), by decide⟩⟩

theorem witness_FencesAndWindows :
    (∃ (k : Nat) (o : SlotOp) (s : State),
      s.opAt k 4 = some o) ∧
    (∃ (k : Nat) (o : SlotOp) (s : State),
      s.opAt k 8 = some o ∧
      o.opnd 24 24 = 0) ∧
    (∃ (k : Nat) (o : SlotOp) (s : State),
      s.opAt k 8 = some o ∧
      o.opnd 24 24 = 1 ∧
      (s.rd.sides.any fun x => x.group == o.opnd 30 25 && x.screen.isSome) = false ∧
      (s.rd.sides.all fun x => decide (x.tile < 64)) = true) :=
  ⟨⟨0, { bundle := 0, cls := 4, word := 0, item := 0, step := 0, groups := 0, data := 0, dataLen := 0 }, (run |>.modPp (fun x => { x with ops := [{ bundle := 0, cls := 4, word := 0, item := 0, step := 0, groups := 0, data := 0, dataLen := 0 }] })), by decide⟩,
  ⟨0, { bundle := 0, cls := 8, word := 0, item := 0, step := 0, groups := 0, data := 0, dataLen := 0 }, (run |>.modPp (fun x => { x with ops := [{ bundle := 0, cls := 8, word := 0, item := 0, step := 0, groups := 0, data := 0, dataLen := 0 }] })), by decide⟩,
  ⟨0, { bundle := 0, cls := 8, word := 2 ^ 24, item := 0, step := 0, groups := 0, data := 0, dataLen := 0 }, (run |>.modPp (fun x => { x with ops := [{ bundle := 0, cls := 8, word := 2 ^ 24, item := 0, step := 0, groups := 0, data := 0, dataLen := 0 }] })), by decide⟩⟩

theorem witness_HostStep :
    (∃ (k : Nat) (o : SlotOp) (s : State),
      s.opAt k 7 = some o ∧
      o.begun = false ∧
      s.pp.heldGo = none) ∧
    (∃ (k : Nat) (o : SlotOp) (g : GoArgs) (i : ItemId) (s : State),
      s.opAt k 7 = some o ∧
      o.begun = false ∧
      s.pp.heldGo = some (g, i)) ∧
    (∃ (k : Nat) (step : Nat) (o : SlotOp) (s : State),
      s.pp.hostWait = some step ∧
      s.waitingHost = some k ∧
      s.pp.ops[k]? = some o ∧
      s.due Timer.grace = true) ∧
    (∃ (s : State),
      s.due Timer.grace = false) :=
  ⟨⟨0, { bundle := 0, cls := 7, word := 0, item := 0, step := 0, groups := 0, data := 0, dataLen := 0 }, (run |>.modPp (fun x => { x with heldGo := none }) |>.modPp (fun x => { x with ops := [{ bundle := 0, cls := 7, word := 0, item := 0, step := 0, groups := 0, data := 0, dataLen := 0 }] })), by decide⟩,
  ⟨0, { bundle := 0, cls := 7, word := 0, item := 0, step := 0, groups := 0, data := 0, dataLen := 0 }, {}, 0, (run |>.modPp (fun x => { x with heldGo := some ({}, 0) }) |>.modPp (fun x => { x with ops := [{ bundle := 0, cls := 7, word := 0, item := 0, step := 0, groups := 0, data := 0, dataLen := 0 }] })), by decide⟩,
  ⟨0, 0, { bundle := 0, cls := 7, word := 0, item := 0, step := 0, groups := 0, data := 0, dataLen := 0, begun := true }, ((run |>.armAt .grace 0 |>.modPp (fun x => { x with hostWait := some 0, ops := [{ bundle := 0, cls := 7, word := 0, item := 0, step := 0, groups := 0, data := 0, dataLen := 0, begun := true }] }))), by decide⟩,
  ⟨(run), by decide⟩⟩

theorem witness_Push :
    (∃ (ep : Nat) (q : Nat) (data : Cell64) (item : ItemId) (last : Bool) (epm : Bool) (s : State),
      s.pushRes ep q last epm = PushRes.landed ∧
      (s.queue q).dropPend = false ∧
      (s.queue q).stalled = none ∧
      (¬item ∈ s.pal.dropped) ∧
      q ≠ s.reg R.fuCtrlCmdQid) ∧
    (∃ (ep : Nat) (q : Nat) (data : Cell64) (item : ItemId) (epm : Bool) (s : State),
      s.pushRes ep q false epm = PushRes.dropped ∧
      (s.queue q).severing = false ∧
      (s.queue q).dropPend = false ∧
      (s.queue q).markerIn = false ∧
      q ≠ 511 ∧
      (¬item ∈ s.pal.dropped)) ∧
    (∃ (ep : Nat) (q : Nat) (data : Cell64) (item : ItemId) (epm : Bool) (link : Bool) (s : State),
      s.pushRes ep q false epm = PushRes.refused) ∧
    (∃ (ep : Nat) (q : Nat) (e : Nat) (data : Cell64) (item : ItemId) (last : Bool) (epm : Bool) (s : State),
      s.pushRes ep q last epm = PushRes.landed ∧
      (s.queue q).dropPend = false ∧
      (s.queue q).stalled = some (e, false) ∧
      (s.queue q).cells = [] ∧
      s.flag R.qmQCfgRetired q = false ∧
      (¬item ∈ s.pal.dropped)) ∧
    (∃ (ep : Nat) (q : Nat) (data : Cell64) (item : ItemId) (s : State),
      s.domOn 4 = true ∧
      s.hasQueue q = true ∧
      ep = s.reg R.qmQEpProd q ∧
      (s.queue q).severing = false ∧
      (s.queue q).dropPend = true ∧
      (¬item ∈ s.pal.dropped) ∧
      s.freeCells ≠ 0 ∧
      s.dropWaits q = true ∧
      (s.queue q).cells = [] ∧
      s.flag R.qmQCfgRetired q = false) ∧
    (∃ (ep : Nat) (q : Nat) (data : Cell64) (item : ItemId) (epm : Bool) (s : State),
      s.pushRes ep q false epm ≠ PushRes.refused ∧
      (s.queue q).severing = false ∧
      (s.queue q).cells ≠ [] ∧
      (¬item ∈ s.pal.dropped)) :=
  ⟨⟨3, 511, 0, 0, false, false, ((queued 511 3 0x70 [])), by decide⟩,
  ⟨3, 510, 0, 0, false, ((queued 510 3 0x70 [] |>.setReg R.qmQCfgQuota 0 510)), by decide⟩,
  ⟨0, 0, 0, 0, false, false, (run), by decide⟩,
  ⟨3, 511, 0x70, 0, 0, false, false, ((queued 511 3 0x70 [] |>.modQueue 511 fun x => { x with stalled := some (0x70, false) })), by decide⟩,
  ⟨3, 5, 0, 0, ((queued 5 3 0x10 [] |>.modPp (fun x => { x with ops := [{ bundle := 0, cls := 3, word := 2 ^ 25 + 5 * 2 ^ 28, item := 0, step := 0, groups := 0, data := 0, dataLen := 0 }] }) |>.modQueue 5 fun x => { x with dropPend := true })), by decide +kernel⟩,
  ⟨3, 510, 0, 0, false, ((queued 510 3 0x70 [{ idx := 7, data := 0, dp := false }])), by decide⟩⟩

theorem witness_PopAndTake :
    (∃ (ep : Nat) (q : Nat) (c : Cell) (rest : List Cell) (s : State),
      s.popAllowed ep q = true ∧
      (s.queue q).severing = false ∧
      (s.queue q).cells = c :: rest ∧
      c.marker = false ∧
      s.flag R.qmQCfgRetired q = false ∧
      s.reg R.qmHoldHeld ep < s.reg R.qmHoldLimit ep ∧
      s.reg R.qmHoldLimit ep < 2 ^ 16) ∧
    (∃ (ep : Nat) (q : Nat) (c : Cell) (rest : List Cell) (s : State),
      s.popAllowed ep q = true ∧
      (s.queue q).severing = false ∧
      (s.queue q).cells = c :: rest ∧
      c.marker = true ∧
      s.reg R.qmQGapCount q = 0 ∧
      s.flag R.qmQCfgRetired q = false) ∧
    (∃ (ep : Nat) (q : Nat) (s : State),
      s.popAllowed ep q = true ∧
      (s.queue q).cells = [] ∧
      (s.queue q).stalled = none) ∧
    (∃ (ep : Nat) (q : Nat) (u : Upset) (s : State),
      s.popAllowed ep q = false) :=
  ⟨⟨0x70, 511, { idx := 7, data := 0, dp := false }, [], ((queued 511 3 0x70 [{ idx := 7, data := 0, dp := false }] |>.setReg R.qmHoldLimit 1 0x70)), by decide⟩,
  ⟨0x70, 0, { idx := 7, data := 0, dp := false, marker := true }, [], ((queued 0 3 0x70 [{ idx := 7, data := 0, dp := false, marker := true }])), by decide⟩,
  ⟨0x70, 0, ((queued 0 3 0x70 [])), by decide⟩,
  ⟨0, 0, .none, (run), by decide⟩⟩

theorem witness_FreeScrubAndSever :
    (∃ (ep : Nat) (cell : Nat) (item : ItemId) (s : State),
      s.domOn 4 = true ∧
      s.freeRes ep cell = FreeRes.ok ∧
      (s.pal.queues.all fun e => e.snd.stalled.isNone) = true ∧
      s.reg R.qmHoldHeld ep < 2 ^ 16) ∧
    (∃ (ep : Nat) (cell : Nat) (item : ItemId) (s : State),
      s.domOn 4 = true ∧
      s.freeRes ep cell ≠ FreeRes.ok) ∧
    (∃ (s : State),
      s.domOn 4 = true ∧
      s.reg R.qmScrubPos < s.member.cells ∧
      (s.pal.queues.all fun e => !e.snd.markerBad && e.snd.cells.all fun c => parity 64 (BitVec.toNat c.data) == c.dp && c.lpOk && c.opOk) = true ∧
      (s.pal.held.all fun h => parity 64 (BitVec.toNat h.data) == h.dp) = true) ∧
    (∃ (s : State),
      s.flag R.qmStatusRebuild = true) ∧
    (∃ (q : Nat) (s : State),
      q ≠ 511 ∧
      (s.queue q).severing = true ∧
      ((s.queue q).cells.all fun c => c.marker || !c.eop) = true ∧
      (s.queue q).stalled = none ∧
      s.lg.faults = [] ∧
      s.lg.raises = []) ∧
    (∃ (q : Nat) (s : State),
      (s.queue q).severing = false) :=
  ⟨⟨0x70, 7, 0, ((queued 0 3 0x70 [] |>.modPal (fun x => { x with held := [{ idx := 7, qid := 0, data := 0, dp := false }] }))), by decide⟩,
  ⟨0, 0, 0, (run), by decide⟩,
  ⟨(run), by decide⟩,
  ⟨(run |>.setReg R.qmStatusRebuild 1), by decide⟩,
  ⟨0, (run |>.modQueue 0 (fun x => { x with severing := true }) |>.modQueue 0 (fun x => { x with stalled := none }) |>.modLg (fun x => { x with faults := [] }) |>.modLg (fun x => { x with raises := [] })), by decide⟩,
  ⟨0, (run |>.modQueue 0 (fun x => { x with severing := false })), by decide⟩⟩

theorem witness_QueueOperations :
    (∃ (k : Nat) (tl : Nat) (a : Nat) (n : Nat) (o : SlotOp) (s : State),
      s.opAt k 3 = some o ∧
      o.sub = 1 ∧
      (s.queueDesc o).offset % 8 = 0 ∧
      (s.queueDesc o).count ≠ 0 ∧
      (s.queueDesc o).take = false ∧
      n + o.moved = (s.queueDesc o).count ∧
      0 < n ∧
      s.queueRegion o (s.queueDesc o) (8 * (s.queueDesc o).count + tagBytes (s.queueDesc o).count) = some (tl, a) ∧
      s.tileWaits tl = false ∧
      s.popAllowed (opEp (s.reg R.qmQEpCons o.qid) tl) o.qid = true ∧
      (s.queue o.qid).severing = false ∧
      (s.queue o.qid).discard = false ∧
      s.flag R.qmQCfgRetired o.qid = false ∧
      n ≤ (s.queue o.qid).cells.length ∧
      (∀ (c : Cell), c ∈ List.take n (s.queue o.qid).cells → c.marker = false ∧ c.eop = false ∧ parity 64 (BitVec.toNat c.data) = c.dp)) ∧
    (∃ (k : Nat) (tl : Nat) (a : Nat) (o : SlotOp) (s : State),
      s.opAt k 3 = some o ∧
      o.sub = 0 ∧
      (s.queueDesc o).offset % 8 = 0 ∧
      (s.queueDesc o).count ≠ 0 ∧
      s.queueRegion o (s.queueDesc o) (8 * (s.queueDesc o).count) = some (tl, a) ∧
      s.tileWaits tl = false) ∧
    (∃ (k : Nat) (tl : Nat) (a : Nat) (o : SlotOp) (c : Cell) (rest : List Cell) (s : State),
      s.opAt k 3 = some o ∧
      o.sub = 1 ∧
      o.moved = 0 ∧
      (s.queueDesc o).offset % 8 = 0 ∧
      (s.queueDesc o).count = 1 ∧
      (s.queueDesc o).take = false ∧
      s.queueRegion o (s.queueDesc o) 9 = some (tl, a) ∧
      a + 9 ≤ 2 ^ 20 ∧
      s.tileWaits tl = false ∧
      s.popAllowed (opEp (s.reg R.qmQEpCons o.qid) tl) o.qid = true ∧
      (s.queue o.qid).severing = false ∧
      (s.queue o.qid).discard = false ∧
      (s.queue o.qid).cells = c :: rest ∧
      c.marker = false ∧
      c.eop = false ∧
      parity 64 (BitVec.toNat c.data) = c.dp ∧
      s.flag R.qmQCfgRetired o.qid = false) ∧
    (∃ (k : Nat) (tl : Nat) (a : Nat) (o : SlotOp) (s : State),
      s.opAt k 3 = some o ∧
      o.sub = 2 ∧
      (s.queueDesc o).offset % 8 = 0 ∧
      (s.queueDesc o).count ≠ 0 ∧
      s.queueRegion o (s.queueDesc o) (8 * (s.queueDesc o).count + tagBytes (s.queueDesc o).count) = some (tl, a) ∧
      s.tileWaits tl = false ∧
      s.popAllowed (opEp (s.reg R.qmQEpCons o.qid) tl) o.qid = true ∧
      (s.queue o.qid).severing = false ∧
      (s.queue o.qid).dropPend = false ∧
      (s.pal.dropOut.any fun x => decide (x.qid = o.qid)) = false ∧
      (s.queue o.qid).cells = []) ∧
    (∃ (k : Nat) (tl : Nat) (a : Nat) (o : SlotOp) (s : State) (c : Cell) (rest : List Cell),
      s.opAt k 3 = some o ∧
      o.sub = 2 ∧
      (s.queueDesc o).offset % 8 = 0 ∧
      (s.queueDesc o).count ≠ 0 ∧
      s.queueRegion o (s.queueDesc o) (8 * (s.queueDesc o).count + tagBytes (s.queueDesc o).count) = some (tl, a) ∧
      s.tileWaits tl = false ∧
      s.popAllowed (opEp (s.reg R.qmQEpCons o.qid) tl) o.qid = true ∧
      (s.queue o.qid).severing = false ∧
      (s.queue o.qid).dropPend = false ∧
      (s.pal.dropOut.any fun x => decide (x.qid = o.qid)) = false ∧
      (s.queue o.qid).cells = c :: rest ∧
      c.eop = true ∧
      c.marker = false ∧
      parity 64 (BitVec.toNat c.data) = c.dp ∧
      (s.queue o.qid).discard = false ∧
      s.flag R.qmQCfgRetired o.qid = false ∧
      o.moved = 0 ∧
      a + 8 * (s.queueDesc o).count + tagBytes (s.queueDesc o).count ≤ 2 ^ 20) ∧
    (∃ (k : Nat) (tl : Nat) (a : Nat) (o : SlotOp) (s : State),
      s.opAt k 3 = some o ∧
      o.sub = 3 ∧
      (s.queueDesc o).offset % 8 = 0 ∧
      s.queueRegion o (s.queueDesc o) 8 = some (tl, a) ∧
      s.tileWaits tl = false ∧
      s.reg R.qmQGapCount o.qid < 2 ^ 32) ∧
    (∃ (k : Nat) (o : SlotOp) (s : State),
      s.opAt k 3 = some o ∧
      o.sub = 0 ∧
      ((s.queueDesc o).offset % 8 ≠ 0 ∨ (s.queueDesc o).count = 0 ∨ s.queueRegion o (s.queueDesc o) (8 * (s.queueDesc o).count) = none)) :=
  ⟨⟨0, 0, 0, 1, (slotOp 3 (2 ^ 24 + 5 * 2 ^ 28)), ((tiled 3 (slotOp 3 (2 ^ 24 + 5 * 2 ^ 28)) [(0x2002, 1)] |>.setReg R.qmQCfgPresent 1 5 |>.setReg R.qmQEpCons 0x10 5 |>.modQueue 5 (fun x => { x with cells := [{ idx := 7, data := 0, dp := false }] }))), by decide +kernel⟩,
  ⟨0, 0, 0, (slotOp 3 (0)), ((tiled 3 (slotOp 3 (0)) [(0x2002, 1)])), by decide +kernel⟩,
  ⟨0, 0, 0, (slotOp 3 (2 ^ 24 + 5 * 2 ^ 28)), { idx := 7, data := 0, dp := false }, [], ((tiled 3 (slotOp 3 (2 ^ 24 + 5 * 2 ^ 28)) [(0x2002, 1)] |>.setReg R.qmQCfgPresent 1 5 |>.setReg R.qmQEpCons 0x10 5 |>.modQueue 5 (fun x => { x with cells := [{ idx := 7, data := 0, dp := false }] }))), by decide +kernel⟩,
  ⟨0, 0, 0, (slotOp 3 (2 ^ 25 + 5 * 2 ^ 28)), ((tiled 3 (slotOp 3 (2 ^ 25 + 5 * 2 ^ 28)) [(0x2002, 1)] |>.setReg R.qmQCfgPresent 1 5 |>.setReg R.qmQEpCons 0x10 5)), by decide +kernel⟩,
  ⟨0, 0, 0, (slotOp 3 (2 ^ 25 + 5 * 2 ^ 28)), ((tiled 3 (slotOp 3 (2 ^ 25 + 5 * 2 ^ 28)) [(0x2002, 1)] |>.setReg R.qmQCfgPresent 1 5 |>.setReg R.qmQEpCons 0x10 5 |>.modQueue 5 (fun x => { x with cells := [{ idx := 7, data := 0, dp := false, eop := true }] }))), { idx := 7, data := 0, dp := false, eop := true }, [], by decide +kernel⟩,
  ⟨0, 0, 0, (slotOp 3 (3 * 2 ^ 24 + 5 * 2 ^ 28)), ((tiled 3 (slotOp 3 (3 * 2 ^ 24 + 5 * 2 ^ 28)) [] |>.setReg R.qmQCfgPresent 1 5 |>.setReg R.qmQEpCons 0x10 5)), by decide +kernel⟩,
  ⟨0, (slotOp 3 (0)), ((tiled 3 (slotOp 3 (0)) [])), by decide +kernel⟩⟩

theorem witness_Moves :
    (∃ (k : Nat) (a : Nat × Nat) (b : Nat × Nat) (o : SlotOp) (s : State),
      s.opAt k 2 = some o ∧
      o.sub = 0 ∧
      o.begun = false ∧
      s.tileEnds o (s.moveDesc o) = some (a, b) ∧
      s.tileWaits a.fst = false ∧
      s.tileWaits b.fst = false) ∧
    (∃ (k : Nat) (p : Packet) (l : MoveLoad) (s : State),
      s.mesh.packets[k]? = some p ∧
      s.behind k p = false ∧
      s.routePorts p = some [4] ∧
      s.domOn (10 + s.quadOf p.tile) = true ∧
      p.load = some l ∧
      l.bad = false ∧
      ((s.mesh.packets.eraseIdx k).any fun x => Option.map (fun x => x.op) x.load == some l.op) = false) ∧
    (∃ (k : Nat) (tl : Nat) (a : Nat) (o : SlotOp) (s : State),
      s.opAt k 2 = some o ∧
      o.sub = 1 ∧
      (s.moveDesc o).map = false ∧
      s.movePlace o (s.moveDesc o).srcGroup (s.moveDesc o).srcPos (s.moveDesc o).srcPart (s.moveDesc o).srcOff (s.moveDesc o).bytes = some (tl, a) ∧
      s.tileWaits tl = false) ∧
    (∃ (k : Nat) (tl : Nat) (a : Nat) (o : SlotOp) (s : State),
      s.opAt k 2 = some o ∧
      o.sub = 2 ∧
      (s.moveDesc o).map = false ∧
      s.movePlace o (s.moveDesc o).dstGroup (s.moveDesc o).dstPos (s.moveDesc o).dstPart (s.moveDesc o).dstOff (s.moveDesc o).bytes = some (tl, a) ∧
      s.tileWaits tl = false) ∧
    (∃ (k : Nat) (a : Nat × Nat) (b : Nat × Nat) (d : MoveDesc) (o : SlotOp) (s : State),
      s.opAt k 2 = some o ∧
      o.sub = 3 ∧
      o.begun = false ∧
      (s.moveDesc o).entries = 1 ∧
      d = MoveDesc.ofBytes (s.opData o (16 * (s.moveDesc o).list) 32) ∧
      16 * (s.moveDesc o).list + 32 ≤ o.dataLen ∧
      s.tileEnds o d = some (a, b) ∧
      s.tileWaits a.fst = false ∧
      s.tileWaits b.fst = false) :=
  ⟨⟨0, (0, 0), (0, 0), (slotOp 2 (0)), ((tiled 1 (slotOp 2 (0)) [])), by decide +kernel⟩,
  ⟨0, { item := 0, key := 0, vc := 0, epoch := 0, dest := 0, tile := 0, cells := [], load := some { op := 0, addr := 0, data := [] } }, { op := 0, addr := 0, data := [] }, ((run |>.modMesh fun x => { x with packets := [{ item := 0, key := 0, vc := 0, epoch := 0, dest := 0, tile := 0, cells := [], load := some { op := 0, addr := 0, data := [] } }] })), by decide +kernel⟩,
  ⟨0, 0, 0, (slotOp 2 (2 ^ 24)), ((tiled 1 (slotOp 2 (2 ^ 24)) [])), by decide +kernel⟩,
  ⟨0, 0, 0, (slotOp 2 (2 ^ 25)), ((tiled 1 (slotOp 2 (2 ^ 25)) [])), by decide +kernel⟩,
  by refine ⟨0, (0, 0), (0, 0), _, (slotOp 2 (3 * 2 ^ 24)), ((tiled 1 (slotOp 2 (3 * 2 ^ 24)) [(0x2000, 1), (0x2004, 2)])), ?_, ?_, ?_, ?_, rfl, ?_⟩ <;> decide +kernel⟩

theorem witness_EventPackets :
    (∃ (n : Nat) (vc : BitVec 2) (dt : BitVec 8) (crc : Bool) (l : List Byte) (s : State),
      s.portOpen n false = true ∧
      (s.port n).errTimes = [] ∧
      s.ei.ports.length = 4) ∧
    (∃ (n : Nat) (vc : BitVec 2) (ecc : Ecc) (l : List Byte) (s : State),
      s.portOpen n false = true ∧
      s.ei.ports.length = 4 ∧
      ecc ≠ Ecc.uncorrectable ∧
      vc.toNat = s.reg R.eiPCfgVc n ∧
      (s.port n).bufs.length < 2 ∧
      packetOk l = true) ∧
    (∃ (n : Nat) (vc : BitVec 2) (ecc : Ecc) (l : List Byte) (s : State),
      s.portOpen n false = true ∧
      ecc ≠ Ecc.uncorrectable ∧
      vc.toNat = s.reg R.eiPCfgVc n ∧
      (s.port n).bufs.length < 2 ∧
      packetOk l = false) ∧
    (∃ (n : Nat) (vc : BitVec 2) (ecc : Ecc) (crc : Bool) (l : List Byte) (s : State),
      s.portOpen n false = true ∧
      ecc ≠ Ecc.uncorrectable ∧
      vc.toNat = s.reg R.eiPCfgVc n ∧
      2 ≤ (s.port n).bufs.length) ∧
    (∃ (n : Nat) (vc : BitVec 2) (dt : BitVec 8) (ecc : Ecc) (crc : Bool) (l : List Byte) (s : State),
      s.portOpen n false = true ∧
      ecc ≠ Ecc.uncorrectable ∧
      vc.toNat = s.reg R.eiPCfgVc n ∧
      dt ≠ 48) ∧
    (∃ (n : Nat) (vc : BitVec 2) (dt : BitVec 8) (ecc : Ecc) (crc : Bool) (l : List Byte) (s : State),
      (s.portOpen n false = false ∨ ecc ≠ Ecc.uncorrectable ∧ vc.toNat ≠ s.reg R.eiPCfgVc n)) ∧
    (∃ (n : Nat) (s : State),
      s.portOpen n false = true ∧
      (s.port n).errTimes = [] ∧
      s.ei.ports.length = 4) ∧
    (∃ (n : Nat) (b : RxPacket) (rest : List RxPacket) (s : State),
      (s.port n).bufs = b :: rest ∧
      (n < 3 ∨ n = 3 ∧ s.ei.aerWait = none) ∧
      s.ei.ports.length = 4 ∧
      s.domOn (s.epDomain (1 + n)) = true ∧
      s.quiesced = false) ∧
    (∃ (n : Nat) (s : State),
      ((s.port n).bufs = [] ∨ s.domOn (s.epDomain (1 + n)) = false ∨ s.quiesced = true)) :=
  ⟨⟨0, 0, 0, false, [], (run |>.setReg R.eiPCfgEn 1), by decide⟩,
  ⟨0, 0, .ok, [0, 0, 0, 0x20, 0, 0, 0, 0x40], (run |>.setReg R.eiPCfgEn 1), by decide⟩,
  ⟨0, 0, .ok, [], (run |>.setReg R.eiPCfgEn 1), by decide⟩,
  ⟨0, 0, .ok, false, [], (run |>.setReg R.eiPCfgEn 1 |>.modPort 0 (fun p => { p with bufs := [{ item := 0 }, { item := 1 }] })), by decide⟩,
  ⟨0, 0, 0, .ok, false, [], (run |>.setReg R.eiPCfgEn 1), by decide⟩,
  ⟨0, 0, 0, .ok, false, [], (run), by decide⟩,
  ⟨0, (run |>.setReg R.eiPCfgEn 1), by decide⟩,
  ⟨2, { item := 1 }, [], (run |>.modPort 2 (fun p => { p with bufs := [{ item := 1 }] })), by decide⟩,
  ⟨0, (run), by decide⟩⟩

theorem witness_AerAndPortCommands :
    (∃ (w : BitVec 28) (p : RxPacket) (s : State),
      s.portOpen 3 true = true ∧
      s.pins.aerAck ≠ Level.high ∧
      s.ei.aerWait = none ∧
      bits w.toNat 27 25 = 0 ∧
      s.ei.aerPkt = some p ∧
      p.events.length + 1 < max 1 (s.reg R.eiAerPktEv)) ∧
    (∃ (w : BitVec 28) (s : State),
      s.portOpen 3 true = true ∧
      s.pins.aerAck ≠ Level.high ∧
      s.ei.aerWait = none ∧
      bits w.toNat 27 25 = 0 ∧
      s.ei.aerPkt = none ∧
      (s.port 3).bufs.length < 2 ∧
      1 < s.reg R.eiAerPktEv) ∧
    (∃ (w : BitVec 28) (s : State),
      s.portOpen 3 true = true ∧
      s.pins.aerAck ≠ Level.high ∧
      s.ei.aerWait = none ∧
      bits w.toNat 27 25 ≠ 0) ∧
    (∃ (w : BitVec 28) (s : State),
      s.portOpen 3 true = true ∧
      s.pins.aerAck ≠ Level.high ∧
      s.ei.aerWait = none ∧
      bits w.toNat 27 25 = 0 ∧
      s.aerSpace = false) ∧
    (∃ (s : State),
      s.ei.aerWait.isSome = true ∧
      s.due Timer.aerHold = true) ∧
    (∃ (s : State),
      s.pins.aerAck = Level.high) ∧
    (∃ (p : RxPacket) (s : State),
      s.due Timer.pktUs = true ∧
      s.ei.aerPkt = some p ∧
      s.ei.ports.length = 4) ∧
    (∃ (s : State),
      s.due Timer.pktUs = false) ∧
    (∃ (n : Nat) (s : State),
      n < s.member.ports ∧
      s.copyBad n = false) ∧
    (∃ (n : Nat) (s : State),
      n < s.member.ports ∧
      s.copyBad n = true) ∧
    (∃ (n : Nat) (s : State),
      s.flag R.eiPStatusCommitPend n = true ∧
      s.copyBad n = false ∧
      n < s.ei.ports.length) ∧
    (∃ (n : Nat) (on : Bool) (s : State),
      n < s.member.ports) ∧
    (∃ (n : Nat) (now : Nat) (s : State),
      n < s.ei.ports.length ∧
      (now = if s.flag R.eiPCfgMode n = true then s.us else (s.port n).latestRow)) ∧
    (∃ (n : Nat) (s : State),
      n < s.ei.ports.length ∧
      s.due (Timer.glintWin n) = true) ∧
    (∃ (thresh : Nat) (bal : Nat) (til : Nat) (g : GlintCell),
      g.glinting = false) :=
  ⟨⟨0, { item := 0 }, (run |>.modEi (fun x => { x with aerWait := none }) |>.modEi (fun x => { x with aerPkt := some ({ item := 0 }) }) |>.setReg R.eiPCfgEn 1 3 |>.setReg R.eiPCfgMode 1 3 |>.modEi (fun x => { x with aerPkt := some { item := 0 } })), by decide⟩,
  ⟨0, (run |>.modEi (fun x => { x with aerWait := none }) |>.modEi (fun x => { x with aerPkt := none }) |>.setReg R.eiPCfgEn 1 3 |>.setReg R.eiPCfgMode 1 3), by decide⟩,
  ⟨2 ^ 25, (run |>.modEi (fun x => { x with aerWait := none }) |>.setReg R.eiPCfgEn 1 3 |>.setReg R.eiPCfgMode 1 3), by decide⟩,
  ⟨0, (run |>.modEi (fun x => { x with aerWait := none }) |>.setReg R.eiPCfgEn 1 3 |>.setReg R.eiPCfgMode 1 3 |>.modPort 3 (fun p => { p with bufs := [{ item := 0 }, { item := 1 }] })), by decide⟩,
  ⟨(run |>.armAt (.aerHold) 0 |>.modEi (fun x => { x with aerWait := some 0 })), by decide⟩,
  ⟨(run |>.modPins (fun x => { x with aerAck := Level.high })), by decide⟩,
  ⟨{ item := 0 }, (run |>.armAt (.pktUs) 0 |>.modEi (fun x => { x with aerPkt := some ({ item := 0 }) })), by decide⟩,
  ⟨(run), by decide⟩,
  ⟨3, (run |>.setReg R.eiPSizeWM1 1023 3 |>.setReg R.eiPSizeHM1 1023 3), by decide⟩,
  ⟨0, (run), by decide⟩,
  ⟨3, ((run |>.setReg R.eiPStatusCommitPend 1 3 |>.setReg R.eiPSizeWM1 1023 3 |>.setReg R.eiPSizeHM1 1023 3)), by decide⟩,
  ⟨0, false, (run), by decide⟩,
  by refine ⟨0, _, (run), ?_, rfl⟩ <;> decide,
  ⟨0, (run |>.armAt (.glintWin 0) 0), by decide⟩,
  ⟨0, 0, 0, { cx := 0, cy := 0 }, by decide⟩⟩

theorem witness_ThermalFrames :
    (∃ (m : Nat) (vc : BitVec 2) (ecc : Ecc) (s : State),
      s.thermalTakes m vc = true ∧
      s.flag R.eiTCfgEn m = true ∧
      s.ei.thermal.length = 2 ∧
      s.ei.thermal.getD m none = none ∧
      ecc ≠ Ecc.uncorrectable) ∧
    (∃ (m : Nat) (vc : BitVec 2) (s : State),
      s.thermalOpen m = true ∧
      s.flag R.eiTCfgEn m = true ∧
      s.ei.thermal.getD m none = none) ∧
    (∃ (m : Nat) (line : Nat) (vc : BitVec 2) (dt : BitVec 8) (ecc : Ecc) (crc : Bool) (px : List (BitVec 14)) (s : State),
      s.thermalOpen m = true ∧
      ecc ≠ Ecc.uncorrectable ∧
      s.thermalTakes m vc = true ∧
      dt ≠ 45) ∧
    (∃ (m : Nat) (line : Nat) (vc : BitVec 2) (ecc : Ecc) (crc : Bool) (px : List (BitVec 14)) (f : ThermalFrame) (s : State),
      s.ei.thermal.getD m none = some f ∧
      s.ei.thermal.length = 2 ∧
      s.thermalTakes m vc = true ∧
      ecc ≠ Ecc.uncorrectable ∧
      line = f.nextLine ∧
      line < f.h) ∧
    (∃ (m : Nat) (vc : BitVec 2) (f : ThermalFrame) (s : State),
      s.thermalTakes m vc = true ∧
      s.ei.thermal.length = 2 ∧
      s.ei.thermal.getD m none = some f) ∧
    (∃ (w : Nat) (i : Nat) (px : List (BitVec 14)),
      w % 4 = 0 ∧
      i < w / 4) ∧
    (∃ (m : Nat) (line : Nat) (vc : BitVec 2) (dt : BitVec 8) (ecc : Ecc) (crc : Bool) (px : List (BitVec 14)) (s : State),
      s.thermalOpen m = false) :=
  ⟨⟨0, 0, .ok, (run |>.setReg R.eiTCfgEn 1 0 |>.setReg R.eiTCfgEn 1), by decide⟩,
  ⟨0, 0, (run |>.setReg R.eiTCfgEn 1 0), by decide⟩,
  ⟨0, 0, 0, 0, .ok, false, [], (run |>.setReg R.eiTCfgEn 1), by decide⟩,
  by refine ⟨0, _, 0, .ok, false, [], { item := 0, w := 640, h := 512, qid := 0, epoch := 0 }, (run |>.setReg R.eiTCfgEn 1 |>.modEi (fun x => { x with thermal := [some { item := 0, w := 640, h := 512, qid := 0, epoch := 0 }, none] })), ?_, ?_, ?_, ?_, rfl, ?_⟩ <;> decide,
  ⟨0, 0, { item := 0, w := 640, h := 512, qid := 0, epoch := 0 }, (run |>.setReg R.eiTCfgEn 1 |>.modEi (fun x => { x with thermal := [some { item := 0, w := 640, h := 512, qid := 0, epoch := 0 }, none] })), by decide⟩,
  ⟨4, 0, [], by decide⟩,
  ⟨0, 0, 0, 0, .ok, false, [], (run), by decide⟩⟩

theorem witness_TimeReferencesAndSwitches :
    (∃ (ppb : Int) (s : State),
      s.clockRuns = true ∧
      ppb.natAbs ≤ 100000 ∧
      100 ≤ s.tm.refWindows + 1) ∧
    (∃ (ppb : Int) (s : State),
      s.clockRuns = true ∧
      ppb.natAbs ≤ 100000 ∧
      (s.tm.refWindows < 99 ∨ s.flag R.tmStatusRefQ = true) ∧
      s.reg R.tmStatusSource ≠ 2 ∧
      s.reg R.tmStatusSource ≠ 4) ∧
    (∃ (ppb : Int) (s : State),
      s.clockRuns = true ∧
      ppb.natAbs ≤ 100000 ∧
      99 ≤ s.tm.refWindows ∧
      s.flag R.tmStatusRefQ = false ∧
      s.reg R.tmStatusSource = 0 ∧
      s.tm.sw = none) ∧
    (∃ (ppb : Int) (s : State),
      s.clockRuns = true ∧
      100000 < ppb.natAbs ∧
      s.flag R.tmStatusRefQ = true) ∧
    (∃ (ppb : Int) (s : State),
      s.clockRuns = true ∧
      100000 < ppb.natAbs ∧
      s.flag R.tmStatusRefQ = false) ∧
    (∃ (highOk : Bool) (s : State),
      s.clockRuns = true ∧
      s.tm.ppsLast = none ∧
      s.tm.sw = none ∧
      s.reg R.tmStatusSource < 3) ∧
    (∃ (l : Nat) (s : State),
      s.clockRuns = true ∧
      s.tm.ppsLast = some l ∧
      2 ≤ s.tm.ppsGood ∧
      s.flag R.tmStatusPpsQ = false ∧
      l + 999900000 ≤ s.devtime ∧
      s.devtime ≤ l + 1000100000 ∧
      s.tm.sw = none ∧
      s.reg R.tmStatusSource = 0 ∧
      (s.tm.ppsEverQual = true ∨ s.tm.noStep = true)) ∧
    (∃ (l : Nat) (s : State),
      s.clockRuns = true ∧
      s.tm.ppsLast = some l ∧
      2 ≤ s.tm.ppsGood ∧
      s.flag R.tmStatusPpsQ = false ∧
      l + 999900000 ≤ s.devtime ∧
      s.devtime ≤ l + 1000100000 ∧
      s.tm.sw = none ∧
      s.reg R.tmStatusSource = 0 ∧
      s.tm.ppsEverQual = false ∧
      s.tm.noStep = false ∧
      s.devtime + 1000000000 < 2 ^ 64) ∧
    (∃ (s : State),
      s.due Timer.ppsLost = true ∧
      s.flag R.tmStatusPpsQ = true) ∧
    (∃ (s : State),
      s.due Timer.ppsLost = false) ∧
    (∃ (ppb : Int) (highOk : Bool) (s : State),
      s.clockRuns = false) ∧
    (∃ (q : Nat) (s : State),
      s.clockRuns = true ∧
      s.tm.sw = none ∧
      2 ≤ q ∧
      q ≤ 4 ∧
      s.reg R.tmStatusSource < q ∧
      s.sourceOk q = true ∧
      s.sourceSince q + 10000000000 ≤ s.devtime ∧
      s.devtime < 2 ^ 64 ∧
      (∀ (p : Nat), q < p → p ≤ 4 → s.sourceOk p = false ∨ s.devtime < s.sourceSince p + 10000000000)) ∧
    (∃ (s : State),
      s.tm.sw.isSome = true) ∧
    (∃ (w : Switch) (s : State),
      s.due Timer.announce = true ∧
      s.tm.sw = some w) ∧
    (∃ (w : Switch) (s : State),
      s.due Timer.slew = true ∧
      s.tm.sw = some w ∧
      w.target ≤ 4 ∧
      s.reg R.tmStatusSource ≠ w.target) ∧
    (∃ (w : Switch) (s : State) (u : State),
      s.due Timer.reverse = true ∧
      s.tm.sw = some w ∧
      u = (s.bump R.tmSwitchesCancels).raise 5242912 16 0 4 ∧
      (w.down = true ∨ u.sourceOk (u.reg R.tmStatusSource) = true ∧ u.reg R.tmStatusSource ≤ 4)) ∧
    (∃ (s : State),
      s.due Timer.holdAge = true) ∧
    (∃ (s : State),
      s.clockRuns = true) ∧
    (∃ (s : State),
      s.due Timer.announce = false) ∧
    (∃ (s : State),
      s.due Timer.slew = false) ∧
    (∃ (s : State),
      s.due Timer.reverse = false) ∧
    (∃ (s : State),
      s.due Timer.holdAge = false) :=
  ⟨⟨0, (run |>.modTm (fun t => { t with refWindows := 99 })), by decide⟩,
  ⟨0, (run), by decide⟩,
  ⟨-100000, (run |>.setReg R.tmStatusRefQ 0 |>.setReg R.tmStatusSource 0 |>.modTm (fun x => { x with sw := none }) |>.modTm (fun t => { t with refWindows := 99 })), by decide⟩,
  ⟨100001, (run |>.setReg R.tmStatusRefQ 1), by decide⟩,
  ⟨100001, (run |>.setReg R.tmStatusRefQ 0), by decide⟩,
  ⟨false, (run |>.modTm (fun x => { x with ppsLast := none }) |>.modTm (fun x => { x with sw := none })), by decide⟩,
  ⟨4000100000, (run |>.modTm (fun x => { x with ppsLast := some 4000100000 }) |>.setReg R.tmStatusPpsQ 0 |>.modTm (fun x => { x with sw := none }) |>.setReg R.tmStatusSource 0 |>.modTm (fun x => { x with ppsEverQual := true }) |>.modTm (fun t => { t with ppsGood := 2 })), by decide⟩,
  ⟨3999900000, (run |>.modTm (fun x => { x with ppsLast := some 3999900000 }) |>.setReg R.tmStatusPpsQ 0 |>.modTm (fun x => { x with sw := none }) |>.setReg R.tmStatusSource 0 |>.modTm (fun x => { x with ppsEverQual := false }) |>.modTm (fun x => { x with noStep := false }) |>.modTm (fun t => { t with ppsGood := 2 })), by decide⟩,
  ⟨(run |>.armAt (.ppsLost) 0 |>.setReg R.tmStatusPpsQ 1), by decide⟩,
  ⟨(run), by decide⟩,
  ⟨0, false, (run |>.modKeeper (fun k => { k with mode := .reset })), by decide⟩,
  by refine ⟨2, (run |>.modTm (fun x => { x with sw := none }) |>.setReg R.tmStatusRefQ 1 |>.setReg R.tmCtrlRefEn 1 |>.modDevtime (fun _ => 10000000000)), ?_, ?_, ?_, ?_, ?_, ?_, ?_, ?_, (by intro p a b; rcases (by omega : p = 3 ∨ p = 4) with h | h <;> subst h <;> decide)⟩ <;> decide,
  ⟨(run |>.modTm (fun t => { t with sw := some { down := true, target := 0, corr0 := 0 } })), by decide⟩,
  ⟨{ down := true, target := 0, corr0 := 0 }, (run |>.armAt (.announce) 0 |>.modTm (fun x => { x with sw := some ({ down := true, target := 0, corr0 := 0 }) })), by decide⟩,
  ⟨{ down := true, target := 4, corr0 := 0 }, (run |>.armAt (.slew) 0 |>.modTm (fun x => { x with sw := some ({ down := true, target := 4, corr0 := 0 }) })), by decide⟩,
  by refine ⟨{ down := true, target := 0, corr0 := 0 }, (run |>.armAt (.reverse) 0 |>.modTm (fun x => { x with sw := some ({ down := true, target := 0, corr0 := 0 }) })), _, ?_, ?_, rfl, ?_⟩ <;> decide +kernel,
  ⟨(run |>.armAt (.holdAge) 0), by decide⟩,
  ⟨(run), by decide⟩,
  ⟨(run), by decide⟩,
  ⟨(run), by decide⟩,
  ⟨(run), by decide⟩,
  ⟨(run), by decide⟩⟩

theorem witness_CameraOffsets :
    (∃ (n : Nat) (latch : BitVec 48) (s : State),
      s.clockRuns = true ∧
      (s.cam n).waiting = true ∧
      s.reg R.tmCamCfgMode n = 1 ∧
      s.due (Timer.camLatch n) = false ∧
      n < s.tm.cams.length) ∧
    (∃ (s : State),
      s.clockRuns = true ∧
      s.inRun = true ∧
      s.flag R.tmCtrlSyncEn = true ∧
      s.devtime % 1000000000 < 10000 ∧
      s.tm.lastPulse ≠ some (s.devtime / 1000000000) ∧
      s.tm.cams.length = 4) ∧
    (∃ (s : State),
      (s.inRun = false ∨ s.flag R.tmCtrlSyncEn = false ∨ 10000 ≤ s.devtime % 1000000000 ∨ s.tm.lastPulse = some (s.devtime / 1000000000))) ∧
    (∃ (n : Nat) (latch : BitVec 48) (v : Int) (p : Int) (s : State),
      s.clockRuns = true ∧
      (s.cam n).waiting = true ∧
      s.reg R.tmCamCfgMode n = 1 ∧
      s.due (Timer.camLatch n) = false ∧
      n < s.tm.cams.length ∧
      n < 4 ∧
      (s.cam n).pulse < 2 ^ 33 ∧
      v = (((s.cam n).pulse * 1000000000 : Nat) : Int) - ((latch.toNat % 2 ^ 41 * 1000 : Nat) : Int) + s.regS R.tmPinDlyNs ∧
      p = s.camBase n + openDiv 214 (s.regS R.tmCamDriftPpb n * ((((s.cam n).pulse * 1000000000 : Nat) : Int) - (((s.cam n).lastAt : Nat) : Int))) 1000000000 ∧
      ((s.cam n).fresh < 2 ∨ (v - p).natAbs ≤ 1000 * s.reg R.tmCtrlOfsTol)) ∧
    (∃ (n : Nat) (latch : BitVec 48) (v : Int) (p : Int) (s : State),
      s.clockRuns = true ∧
      (s.cam n).waiting = true ∧
      s.reg R.tmCamCfgMode n = 1 ∧
      s.due (Timer.camLatch n) = false ∧
      n < s.tm.cams.length ∧
      n < 4 ∧
      (s.cam n).pulse < 2 ^ 33 ∧
      v = (((s.cam n).pulse * 1000000000 : Nat) : Int) - ((latch.toNat % 2 ^ 41 * 1000 : Nat) : Int) + s.regS R.tmPinDlyNs ∧
      p = s.camBase n + openDiv 214 (s.regS R.tmCamDriftPpb n * ((((s.cam n).pulse * 1000000000 : Nat) : Int) - (((s.cam n).lastAt : Nat) : Int))) 1000000000 ∧
      2 ≤ (s.cam n).fresh ∧
      ((1000 * s.reg R.tmCtrlOfsTol : Nat) : Int) < (((v - p).natAbs : Nat) : Int) ∧
      (s.cam n).cands.length < 2) ∧
    (∃ (n : Nat) (latch : BitVec 48) (v : Int) (p : Int) (s : State) (a : Int) (b : Int),
      s.clockRuns = true ∧
      (s.cam n).waiting = true ∧
      s.reg R.tmCamCfgMode n = 1 ∧
      s.due (Timer.camLatch n) = false ∧
      n < s.tm.cams.length ∧
      n < 4 ∧
      (s.cam n).pulse < 2 ^ 33 ∧
      v = (((s.cam n).pulse * 1000000000 : Nat) : Int) - ((latch.toNat % 2 ^ 41 * 1000 : Nat) : Int) + s.regS R.tmPinDlyNs ∧
      p = s.camBase n + openDiv 214 (s.regS R.tmCamDriftPpb n * ((((s.cam n).pulse * 1000000000 : Nat) : Int) - (((s.cam n).lastAt : Nat) : Int))) 1000000000 ∧
      2 ≤ (s.cam n).fresh ∧
      ((1000 * s.reg R.tmCtrlOfsTol : Nat) : Int) < (((v - p).natAbs : Nat) : Int) ∧
      (s.cam n).cands = [a, b] ∧
      (a - b).natAbs ≤ 1000 * s.reg R.tmCtrlOfsTol ∧
      (a - v).natAbs ≤ 1000 * s.reg R.tmCtrlOfsTol ∧
      (b - v).natAbs ≤ 1000 * s.reg R.tmCtrlOfsTol) ∧
    (∃ (n : Nat) (latch : BitVec 48) (s : State),
      ((s.cam n).waiting = false ∨ s.reg R.tmCamCfgMode n ≠ 1)) ∧
    (∃ (n : Nat) (nack : Bool) (s : State),
      s.clockRuns = true ∧
      (s.cam n).waiting = true ∧
      (nack = true ∨ s.due (Timer.camLatch n) = true) ∧
      n < s.tm.cams.length) ∧
    (∃ (n : Nat) (mode : BitVec 2) (s : State),
      s.alive = true ∧
      n < s.member.ports ∧
      n < s.tm.cams.length) :=
  ⟨⟨0, 0, (run |>.setReg R.tmCamCfgMode 1 0 |>.modTm (fun t => { t with cams := [{ waiting := true }, {}, {}, {}] })), by decide +kernel⟩,
  ⟨(run |>.setReg R.tmCtrlSyncEn 1), by decide⟩,
  ⟨(run |>.modKeeper (fun k => { k with mode := .gesso })), by decide⟩,
  by refine ⟨0, 0, _, _, (run |>.setReg R.tmCamCfgMode 1 0 |>.modTm (fun t => { t with cams := [{ waiting := true }, {}, {}, {}] })), ?_, ?_, ?_, ?_, ?_, ?_, ?_, rfl, rfl, ?_⟩ <;> decide +kernel,
  by refine ⟨0, 0, _, _, (run |>.setReg R.tmCamCfgMode 1 0 |>.modTm (fun t => { t with cams := [{ waiting := true, pulse := 1, fresh := 2 }, {}, {}, {}] })), ?_, ?_, ?_, ?_, ?_, ?_, ?_, rfl, rfl, ?_⟩ <;> decide +kernel,
  by refine ⟨0, 0, _, _, (run |>.setReg R.tmCamCfgMode 1 0 |>.modTm (fun t => { t with cams := [{ waiting := true, pulse := 1, fresh := 2, cands := [1000000000, 1000000000] }, {}, {}, {}] })), 1000000000, 1000000000, ?_, ?_, ?_, ?_, ?_, ?_, ?_, rfl, rfl, ?_⟩ <;> decide +kernel,
  ⟨0, 0, (run), by decide⟩,
  ⟨0, true, (run |>.modTm (fun t => { t with cams := [{ waiting := true }, {}, {}, {}] })), by decide⟩,
  ⟨0, 0, (run), by decide⟩⟩

theorem witness_KeyedStreamAndNeurons :
    (∃ (q : Nat) (c : Cell) (rest : List Cell) (s : State),
      s.popAllowed 127 q = true ∧
      (s.queue q).severing = false ∧
      (s.queue q).cells = c :: rest ∧
      c.eop = true ∧
      c.marker = false ∧
      s.keyedOut q = false ∧
      (s.queue q).discard = false ∧
      s.flag R.qmQCfgRetired q = false ∧
      q < 511) ∧
    (∃ (q : Nat) (c : Cell) (rest : List Cell) (s : State),
      s.popAllowed 127 q = true ∧
      (s.queue q).severing = false ∧
      (s.queue q).cells = c :: rest ∧
      c.eop = false ∧
      c.marker = false ∧
      parity 64 (BitVec.toNat c.data) = c.dp ∧
      (s.queue q).discard = false ∧
      s.flag R.qmQCfgRetired q = false ∧
      q < 511) ∧
    (∃ (q : Nat) (c : Cell) (rest : List Cell) (u : Upset) (s : State),
      (s.queue q).cells = c :: rest ∧
      c.eop = true ∧
      s.keyedOut q = true) ∧
    (∃ (q : Nat) (u : Upset) (s : State),
      s.keyedOut q = false ∧
      s.popAllowed 127 q = false) ∧
    (∃ (q : Nat) (item : ItemId) (lossy : Bool) (rest : List (ItemId × Bool)) (s : State),
      (s.queue q).eopOut = (item, lossy) :: rest ∧
      ((s.mesh.packets ++ s.mesh.atLocal).any fun p => p.qid == q && p.eop) = false) ∧
    (∃ (q : Nat) (s : State),
      ((s.queue q).eopOut = [] ∨ ((s.mesh.packets ++ s.mesh.atLocal).any fun p => p.qid == q && p.eop) = true)) ∧
    (∃ (t : Nat) (i : Nat) (fails : List Nat) (p : Packet) (s : State),
      s.role t = 1 ∧
      s.domOn (10 + s.quadOf t) = true ∧
      t < 64 ∧
      s.nextInput t s.mesh.atLocal 0 [] [] = some i ∧
      s.mesh.atLocal[i]? = some p ∧
      p.isCut = true ∧
      s.reg R.sfPopCfgExportTile (bits p.key 30 24) = t) ∧
    (∃ (t : Nat) (i : Nat) (fails : List Nat) (p : Packet) (s : State),
      s.role t = 1 ∧
      s.domOn (10 + s.quadOf t) = true ∧
      t < 64 ∧
      s.nextInput t s.mesh.atLocal 0 [] [] = some i ∧
      s.mesh.atLocal[i]? = some p ∧
      p.isData = true ∧
      s.exportDue t p = true) ∧
    (∃ (t : Nat) (i : Nat) (fails : List Nat) (p : Packet) (s : State),
      s.role t = 1 ∧
      s.domOn (10 + s.quadOf t) = true ∧
      t < 64 ∧
      s.nextInput t s.mesh.atLocal 0 [] [] = some i ∧
      s.mesh.atLocal[i]? = some p ∧
      p.isData = true ∧
      s.exportDue t p = false ∧
      s.inputPops t p = none) ∧
    (∃ (t : Nat) (fails : List Nat) (s : State),
      (s.role t ≠ 1 ∨ s.domOn (10 + s.quadOf t) = false ∨ s.nextInput t s.mesh.atLocal 0 [] [] = none)) ∧
    (∃ (p : Nat) (t : Nat) (i : Nat) (a : Nat) (us : Nat) (d : Nat) (w : Int) (v : Int) (n : Neuron) (m : Neuron) (pol : Bool) (s : State),
      p < 64 ∧
      s.paced p = false ∧
      a % 2 ^ 20 + 16 ≤ 2 ^ 20 ∧
      n = s.neuronAt t a ∧
      elapsed us n.last = (d, false) ∧
      m = s.decayNeuron t p d n ∧
      v = s.floorV p (m.v + w * 2 ^ s.reg R.sfPopPar2WShift p) ∧
      n.left ≤ d ∧
      v < ((s.reg R.sfPopPar0Theta0 p : Nat) : Int) + ((m.a : Nat) : Int)) ∧
    (∃ (p : Nat) (t : Nat) (i : Nat) (a : Nat) (us : Nat) (d : Nat) (w : Int) (v : Int) (n : Neuron) (m : Neuron) (pol : Bool) (s : State),
      p < 64 ∧
      s.paced p = false ∧
      a % 2 ^ 20 + 16 ≤ 2 ^ 20 ∧
      n = s.neuronAt t a ∧
      elapsed us n.last = (d, false) ∧
      m = s.decayNeuron t p d n ∧
      v = s.floorV p (m.v + w * 2 ^ s.reg R.sfPopPar2WShift p) ∧
      n.left ≤ d ∧
      ((s.reg R.sfPopPar0Theta0 p + m.a : Nat) : Int) ≤ v ∧
      s.reg R.sfPopPar1TRef p < 2 ^ 16) ∧
    (∃ (p : Nat) (t : Nat) (i : Nat) (a : Nat) (us : Nat) (d : Nat) (w : Int) (v : Int) (n : Neuron) (m : Neuron) (pol : Bool) (s : State),
      p < 64 ∧
      s.paced p = false ∧
      a % 2 ^ 20 + 16 ≤ 2 ^ 20 ∧
      n = s.neuronAt t a ∧
      elapsed us n.last = (d, false) ∧
      m = s.decayNeuron t p d n ∧
      v = s.floorV p (m.v + w * 2 ^ s.reg R.sfPopPar2WShift p) ∧
      d < n.left) ∧
    (∃ (p : Nat) (t : Nat) (i : Nat) (a : Nat) (us : Nat) (d : Nat) (w : Int) (v : Int) (n : Neuron) (m : Neuron) (pol : Bool) (s : State) (x : Nat),
      p < 64 ∧
      s.paced p = false ∧
      a % 2 ^ 20 + 16 ≤ 2 ^ 20 ∧
      n = s.neuronAt t a ∧
      elapsed us n.last = (d, false) ∧
      m = s.decayNeuron t p d n ∧
      v = s.floorV p (m.v + w * 2 ^ s.reg R.sfPopPar2WShift p) ∧
      (x < tileAddr t a ∨ tileAddr t a + 16 ≤ x)) :=
  ⟨⟨510, { idx := 7, data := 0, dp := false, eop := true }, [], ((queued 510 3 0x7F [{ idx := 7, data := 0, dp := false, eop := true }])), by decide⟩,
  ⟨510, { idx := 7, data := 0, dp := false }, [], ((queued 510 3 0x7F [{ idx := 7, data := 0, dp := false }])), by decide⟩,
  ⟨0, { idx := 7, data := 0, dp := false, eop := true }, [], .none, ((queued 0 3 0x7F [{ idx := 7, data := 0, dp := false, eop := true }] |>.modMesh (fun x => { x with packets := [{ item := 0, key := 0, vc := 1, epoch := 0, dest := 0, tile := 0, cells := [(0, 0)], qid := 0 }] }))), by decide⟩,
  ⟨0, .none, (run), by decide⟩,
  ⟨0, 0, false, [], (run |>.modQueue 0 (fun x => { x with eopOut := (0, false) :: [] })), by decide⟩,
  ⟨0, (run), by decide⟩,
  ⟨0, 0, [], { item := 0, key := 0x80FFFFFF, vc := 1, epoch := 0, dest := 0, tile := 0, cells := [(0, 0)], qid := 512 }, ((run |>.modRoles (fun r => r.set 0 1) |>.modMesh (fun x => { x with atLocal := [{ item := 0, key := 0x80FFFFFF, vc := 1, epoch := 0, dest := 0, tile := 0, cells := [(0, 0)], qid := 512 }] }))), by decide +kernel⟩,
  ⟨0, 0, [], { item := 1, key := 0x80000000, vc := 1, epoch := 0, dest := 0, tile := 0, cells := [(0, 0)] }, ((run |>.modRoles (fun r => r.set 0 1) |>.modMesh (fun x => { x with atLocal := [{ item := 1, key := 0x80000000, vc := 1, epoch := 0, dest := 0, tile := 0, cells := [(0, 0)] }] }) |>.setReg R.sfPopCfgExport 1)), by decide +kernel⟩,
  ⟨0, 0, [], { item := 0, key := 7, vc := 1, epoch := 0, dest := 0, tile := 0, cells := [(0, 0)], qid := 512 }, (((List.range 16).foldl (fun (s : State) k => s.setReg R.sfTMapMaskMask 1 0 k) (run |>.modRoles (fun r => r.set 0 1) |>.modMesh (fun x => { x with atLocal := [{ item := 0, key := 7, vc := 1, epoch := 0, dest := 0, tile := 0, cells := [(0, 0)], qid := 512 }] })))), by decide +kernel⟩,
  ⟨0, [], (run), by decide⟩,
  by refine ⟨0, 0, 0, 0, 0, 0, 0, 0, _, _, false, (run |>.setReg R.sfPopPar0Theta0 100), ?_, ?_, ?_, rfl, ?_, rfl, ?_⟩ <;> decide +kernel,
  by refine ⟨0, 0, 0, 0, 0, 0, 0, 0, _, _, false, (run), ?_, ?_, ?_, rfl, ?_, rfl, ?_⟩ <;> decide,
  by refine ⟨0, 0, 0, 0, 0, 0, 0, 0, _, _, false, (run |>.modTmem (fun _ => { cells := [(8, 5)] })), ?_, ?_, ?_, rfl, ?_, rfl, ?_⟩ <;> decide +kernel,
  by refine ⟨0, 0, 0, 0, 0, 0, 0, 0, _, _, false, (run), 16, ?_, ?_, ?_, rfl, ?_, rfl, ?_⟩ <;> decide +kernel⟩

theorem witness_SpikingStepsAndItems :
    (∃ (p : Nat) (t : Nat) (fails : List Nat) (s : State),
      s.role t = 1 ∧
      s.domOn (10 + s.quadOf t) = true ∧
      s.paced p = true ∧
      s.holdsPop t p = true ∧
      s.nominalClose p t = true ∧
      (s.inputPending p t = false ∨ s.hardClose p t = true)) ∧
    (∃ (p : Nat) (t : Nat) (fails : List Nat) (s : State),
      (s.role t ≠ 1 ∨ s.paced p = false ∨ s.nominalClose p t = false ∨ s.inputPending p t = true ∧ s.hardClose p t = false)) ∧
    (∃ (t : Nat) (s : State),
      s.role t = 1 ∧
      s.domOn (10 + s.quadOf t) = true) ∧
    (∃ (k : Nat) (p : Nat) (o : SlotOp) (s : State),
      s.spikeOp k 0 = some (o, p) ∧
      (s.pop p).cut = none) ∧
    (∃ (k : Nat) (s : State),
      s.spikeOp k 0 = none) ∧
    (∃ (p : Nat) (item : ItemId) (s : State),
      (s.pop p).cut = some (item, []) ∧
      (s.pop p).poison = false ∧
      (s.markOf (32 + s.reg R.sfPopCfgExportTile p) (s.reg R.sfPopCfgOutQid p)).isSome = true) ∧
    (∃ (p : Nat) (s : State),
      (∀ (item : ItemId), (s.pop p).cut ≠ some (item, []))) ∧
    (∃ (k : Nat) (p : Nat) (o : SlotOp) (s : State),
      s.spikeOp k 1 = some (o, p)) ∧
    (∃ (p : Nat) (w : Nat) (l : List Nat) (s : State),
      p < 64 ∧
      s.clockRuns = true ∧
      w = s.us / s.reg R.sfPopWinWinUs p ∧
      w ≠ (s.pop p).win ∧
      (l = List.map (fun x => x.snd) (List.filter (fun e => e.fst + 1 == w) (s.pop p).spikes))) ∧
    (∃ (t : Nat) (s : State),
      s.due (Timer.tileSleep t) = true ∧
      (s.mesh.atLocal.any fun p => p.tile == t && p.vc == 1) = false ∧
      ((s.tilePops t).any fun p => s.paced p && s.nominalClose p t || (s.popNeurons t p).any fun e => s.neuronOld t e.snd) = false) ∧
    (∃ (t : Nat) (s : State),
      s.due (Timer.tileSleep t) = false) :=
  ⟨⟨0, 0, [], ((run |>.modRoles (fun r => r.set 0 1) |>.setReg R.sfPopCfgEn 1 |>.setReg R.sfPopCfgMode 1 |>.setReg R.sfTSegEn 1)), by decide +kernel⟩,
  ⟨0, 0, [], (run), by decide⟩,
  ⟨0, (run |>.modRoles (fun r => r.set 0 1)), by decide⟩,
  ⟨0, 0, (slotOp 1 (0)), ((tiled 1 (slotOp 1 (0)) [(0x1008, 1)])), by decide +kernel⟩,
  ⟨0, (run), by decide⟩,
  ⟨0, 0, ((run |>.modSf (fun x => { x with pops := [(0, { cut := some (0, []) })] }) |>.modPal fun x => { x with marks := [((32, 0), 0)] })), by decide +kernel⟩,
  ⟨0, (run), (fun _ h => nomatch h)⟩,
  ⟨0, 0, (slotOp 1 (2 ^ 30)), ((tiled 1 (slotOp 1 (2 ^ 30)) [(0x1008, 1)])), by decide +kernel⟩,
  by refine ⟨0, _, _, (run), ?_, ?_, rfl, ?_, rfl⟩ <;> decide,
  ⟨0, (run |>.armAt (.tileSleep 0) 0), by decide⟩,
  ⟨0, (run), by decide⟩⟩

theorem witness_DenseOperations :
    (∃ (k : Nat) (kind : Nat) (f : Nat → Option Nat → Instr) (s : State) (pt : Option Nat),
      (kind, f) ∈ [(0, Instr.gemm), (1, Instr.conv), (2, Instr.gconv), (3, Instr.pool), (4, Instr.eltwise)] ∧
      s.denseOp k kind = none) ∧
    (∃ (k : Nat) (kind : Nat) (f : Nat → Option Nat → Instr) (s : State) (o : SlotOp) (d : DenseDesc) (tiles : List Nat) (pt : Option Nat),
      (kind, f) ∈ [(0, Instr.gemm), (1, Instr.conv), (2, Instr.gconv), (3, Instr.pool), (4, Instr.eltwise)] ∧
      s.denseOp k kind = some (o, d, tiles) ∧
      allOf (List.map (s.placesOf kind d) (shares kind d tiles)) = none) ∧
    (∃ (k : Nat) (kind : Nat) (f : Nat → Option Nat → Instr) (s : State) (o : SlotOp) (d : DenseDesc) (tiles : List Nat) (ps : List Places) (wOut : Nat) (fmt : Nat),
      (kind, f) ∈ [(0, Instr.gemm), (1, Instr.conv), (2, Instr.gconv), (3, Instr.pool), (4, Instr.eltwise)] ∧
      s.denseOp k kind = some (o, d, tiles) ∧
      allOf (List.map (s.placesOf kind d) (shares kind d tiles)) = some ps ∧
      (wOut = if kind = 0 ∨ kind = 4 then d.w else outSize d.pad d.kw d.dil d.stride d.w) ∧
      (fmt = if kind = 3 then d.fmtIn else d.fmtOut) ∧
      (∀ (e : Share × Places), e ∈ (shares kind d tiles).zip ps → e.snd.out + mapBytes fmt wOut e.fst.rows e.fst.chans ≤ 2 ^ 20) ∧
      (∀ (x : RenderSide), x ∈ s.rd.sides → x.screen = none)) ∧
    (∃ (k : Nat) (kind : Nat) (f : Nat → Option Nat → Instr) (s : State) (o : SlotOp) (d : DenseDesc) (tl : Nat) (sh : Share) (p : Places) (wOut : Nat) (fmt : Nat),
      (kind, f) ∈ [(0, Instr.gemm), (1, Instr.conv), (2, Instr.gconv), (3, Instr.pool), (4, Instr.eltwise)] ∧
      s.denseOp k kind = some (o, d, [tl]) ∧
      shares kind d [tl] = [sh] ∧
      s.placesOf kind d sh = some p ∧
      (wOut = if kind = 0 ∨ kind = 4 then d.w else outSize d.pad d.kw d.dil d.stride d.w) ∧
      (fmt = if kind = 3 then d.fmtIn else d.fmtOut)) :=
  ⟨by refine ⟨0, 0, Instr.gemm, (run), none, (by simp), ?_⟩ <;> decide,
  by refine ⟨0, 0, Instr.gemm, ((tiled 1 (slotOp 1 (0)) [(0x1008, 2)])), (slotOp 1 (0)), DenseDesc.ofBytes [], [0], none, (by simp), ?_⟩ <;> decide +kernel,
  by refine ⟨0, 0, Instr.gemm, ((tiled 8 (slotOp 1 (0)) [(0x1008, 2)])), (slotOp 1 (0)), DenseDesc.ofBytes [], [0], [{ inp := 0, in2 := 0, wts := 0, tab := 0, out := 0 }], _, _, (by simp), ?_, ?_, rfl, rfl, ?_, (by first | decide | (intros; simp_all))⟩ <;> decide +kernel,
  by refine ⟨0, 3, Instr.pool, ((tiled 8 (slotOp 1 (3 * 2 ^ 30)) [(0x1008, 2), (0x2002, 1)] |>.modCv (fun x => { x with active := some { tiles := [{ parts := 2 }], mems := [⟨0, 8, 8, false, 0⟩, ⟨8, 8, 6, false, 1⟩] } }))), (slotOp 1 (3 * 2 ^ 30)), DenseDesc.ofBytes [0, 0, 1], 0, { tile := 0, r0 := 0, rows := 1, c0 := 0, chans := 1, in0 := 0, inRows := 1 }, { inp := 0, in2 := 0, wts := 0, tab := 0, out := 0 }, _, _, (by simp), ?_, ?_, ?_, rfl, rfl⟩ <;> decide +kernel⟩

theorem witness_BatchesAndSurfaces :
    (∃ (k : Nat) (o : SlotOp) (d : DenseDesc) (tiles : List Nat) (pt : Option Nat) (s : State),
      s.denseOp k 6 = some (o, d, tiles)) ∧
    (∃ (n : Nat) (k : Nat) (f : Instr) (o : SlotOp) (d : DenseDesc) (tiles : List Nat) (pt : Option Nat) (s : State),
      (n, f) ∈ [(0, Instr.surfaceAccumulate k pt), (1, Instr.surfaceTimeReadout k pt), (2, Instr.surfaceCountReadout k pt)] ∧
      s.denseOp k 5 = some (o, d, tiles) ∧
      d.sub = n) ∧
    (∃ (k : Nat) (tl : Nat) (list : Nat) (o : SlotOp) (d : DenseDesc) (b : DenseDesc) (e : Nat × Nat × Nat × Nat) (p : Places) (s : State),
      s.denseOp k 6 = some (o, d, [tl]) ∧
      o.count = 1 ∧
      1 ≤ d.maxCount ∧
      s.placeIn tl d.in2Part d.in2Off 16 [5, 8] = some list ∧
      e = batchEntry (s.tileNat tl list 16) ∧
      e.fst ≤ 32 ∧
      b = batchDesc d e ∧
      s.placesOf 0 b (batchShare b 1 0 tl) = some p) ∧
    (∃ (k : Nat) (tl : Nat) (o : SlotOp) (d : DenseDesc) (s : State),
      s.denseOp k 6 = some (o, d, [tl]) ∧
      o.count = 0) ∧
    (∃ (k : Nat) (tl : Nat) (o : SlotOp) (d : DenseDesc) (s : State),
      s.denseOp k 6 = some (o, d, [tl]) ∧
      d.maxCount = 0 ∧
      0 < o.count) ∧
    (∃ (k : Nat) (tl : Nat) (a : Nat) (b : Nat) (x : Nat) (y : Nat) (e : Nat) (time : Nat) (o : SlotOp) (d : DenseDesc) (cell : Nat) (s : State),
      s.denseOp k 5 = some (o, d, [tl]) ∧
      d.sub = 0 ∧
      o.count = 1 ∧
      1 ≤ d.maxCount ∧
      tl < 64 ∧
      s.placeIn tl d.inPart d.inOff (8 * d.maxCount + tagBytes d.maxCount) [5, 8] = some a ∧
      s.placeIn tl d.outPart d.outOff (surfaceBytes d) [5, 8] = some b ∧
      b + surfaceBytes d ≤ 2 ^ 20 ∧
      cell = s.tileNat tl a 8 ∧
      s.tileNat tl (a + 8 * d.maxCount) 1 % 4 = 0 ∧
      bits cell 11 8 ≤ 1 ∧
      s.flag R.deTEpochValid tl (bits cell 39 38) = true ∧
      d.x0 ≤ bits cell 23 12 ∧
      d.y0 ≤ bits cell 35 24 ∧
      x = (bits cell 23 12 - d.x0) / 2 ^ d.bs ∧
      y = (bits cell 35 24 - d.y0) / 2 ^ d.bs ∧
      x < d.w ∧
      y < d.h ∧
      e = surfaceEntry d b x y (bits cell 37 37) ∧
      time = (s.reg R.deTEpochEpoch tl (bits cell 39 38) * 2 ^ 24 + bits cell 63 40) % 2 ^ 32) ∧
    (∃ (k : Nat) (tl : Nat) (a : Nat) (q : Nat) (b : Nat) (o : SlotOp) (d : DenseDesc) (s : State),
      s.denseOp k 5 = some (o, d, [tl]) ∧
      d.sub = 1 ∧
      tl < 64 ∧
      s.placeIn tl d.inPart d.inOff (surfaceBytes d) [5, 8] = some a ∧
      s.placeIn tl d.wPart d.qOff 512 [4, 8] = some q ∧
      s.placeIn tl d.outPart d.outOff (4 * d.w * d.h) [5, 8] = some b ∧
      b + 4 * d.w * d.h ≤ 2 ^ 20) ∧
    (∃ (k : Nat) (tl : Nat) (a : Nat) (b : Nat) (o : SlotOp) (d : DenseDesc) (s : State),
      s.denseOp k 5 = some (o, d, [tl]) ∧
      d.sub = 2 ∧
      tl < 64 ∧
      s.placeIn tl d.inPart d.inOff (surfaceBytes d) [5, 8] = some a ∧
      s.placeIn tl d.outPart d.outOff (4 * d.w * d.h) [5, 8] = some b ∧
      b + 4 * d.w * d.h ≤ 2 ^ 20 ∧
      a + surfaceBytes d ≤ 2 ^ 20 ∧
      (a + surfaceBytes d ≤ b ∨ b + 4 * d.w * d.h ≤ a)) ∧
    (∃ (k : Nat) (pt : Option Nat) (s : State),
      s.denseOp k 5 = none) :=
  ⟨⟨0, { slotOp 1 (6 * 2 ^ 30) with count := 1 }, DenseDesc.ofBytes [0, 0, 0, 0, 0, 0, 0, 0, 0, 0, 0, 0, 0, 0, 0, 0, 0, 0, 0, 0, 0, 0, 0, 0, 0, 0, 0, 0, 0, 0, 0, 0, 0, 0, 1], [0], none, ((tiled 8 { slotOp 1 (6 * 2 ^ 30) with count := 1 } [(0x1008, 2), (0x2022, 1)])), by decide +kernel⟩,
  by refine ⟨1, 0, .surfaceTimeReadout 0 none, { slotOp 1 (5 * 2 ^ 30) with count := 0 }, DenseDesc.ofBytes [0, 0, 0, 0, 0, 0, 0, 0, 0, 0, 0, 0, 0, 0, 0, 0, 0, 0, 0, 0, 0, 0, 0, 0, 0, 0, 0, 0, 0, 0, 0, 0, 0, 64], [0], none, ((tiled 8 { slotOp 1 (5 * 2 ^ 30) with count := 0 } [(0x1008, 2), (0x2021, 64)])), (by simp), ?_⟩ <;> decide +kernel,
  by refine ⟨0, 0, 0, { slotOp 1 (6 * 2 ^ 30) with count := 1 }, DenseDesc.ofBytes [0, 0, 0, 0, 0, 0, 0, 0, 0, 0, 0, 0, 0, 0, 0, 0, 0, 0, 0, 0, 0, 0, 0, 0, 0, 0, 0, 0, 0, 0, 0, 0, 0, 0, 1], _, _, _, ((tiled 8 { slotOp 1 (6 * 2 ^ 30) with count := 1 } [(0x1008, 2), (0x2022, 1)])), ?_, ?_, ?_, ?_, rfl, ?_, rfl, rfl⟩ <;> decide +kernel,
  ⟨0, 0, { slotOp 1 (6 * 2 ^ 30) with count := 0 }, DenseDesc.ofBytes [], ((tiled 8 { slotOp 1 (6 * 2 ^ 30) with count := 0 } [(0x1008, 2)])), by decide +kernel⟩,
  ⟨0, 0, { slotOp 1 (6 * 2 ^ 30) with count := 1 }, DenseDesc.ofBytes [], ((tiled 8 { slotOp 1 (6 * 2 ^ 30) with count := 1 } [(0x1008, 2)])), by decide +kernel⟩,
  by refine ⟨0, 0, 0, 0, _, _, _, _, { slotOp 1 (5 * 2 ^ 30) with count := 1 }, DenseDesc.ofBytes [0, 0, 0, 0, 0, 0, 0, 0, 0, 0, 0, 0, 0, 0, 0, 0, 0, 0, 0, 0, 0, 0, 0, 0, 0, 0, 0, 0, 0, 0, 0, 0, 0, 0, 1], _, (((tiled 8 { slotOp 1 (5 * 2 ^ 30) with count := 1 } [(0x1008, 2), (0x2022, 1)]) |>.setReg R.deTEpochValid 1)), ?_, ?_, ?_, ?_, ?_, ?_, ?_, ?_, rfl, ?_, ?_, ?_, ?_, ?_, rfl, rfl, ?_, ?_, rfl, rfl⟩ <;> decide +kernel,
  ⟨0, 0, 0, 0, 0, { slotOp 1 (5 * 2 ^ 30) with count := 0 }, DenseDesc.ofBytes [0, 0, 0, 0, 0, 0, 0, 0, 0, 0, 0, 0, 0, 0, 0, 0, 0, 0, 0, 0, 0, 0, 0, 0, 0, 0, 0, 0, 0, 0, 0, 0, 0, 64], ((tiled 8 { slotOp 1 (5 * 2 ^ 30) with count := 0 } [(0x1008, 2), (0x2021, 64)])), by decide +kernel⟩,
  ⟨0, 0, 0, 4096, { slotOp 1 (5 * 2 ^ 30) with count := 0 }, DenseDesc.ofBytes [0, 0, 0, 0, 0, 0, 0, 0, 0, 0, 0, 0, 0, 16, 0, 0, 0, 0, 0, 0, 0, 0, 0, 0, 0, 0, 0, 0, 0, 0, 0, 0, 0, 128], ((tiled 8 { slotOp 1 (5 * 2 ^ 30) with count := 0 } [(0x1008, 2), (0x200D, 16), (0x2021, 128)])), by decide +kernel⟩,
  ⟨0, none, (run), by decide⟩⟩

theorem witness_DispatchAndBiases :
    (∃ (k : Nat) (tl : Nat) (o : SlotOp) (d : ExpertDesc) (bad : List Nat) (s : State),
      s.expertOp k 0 = some (o, d, tl) ∧
      s.xr.biasDue = false) ∧
    (∃ (s : State),
      s.xr.biasDue = true ∧
      s.flag R.xrCtrlLoopEn = false) ∧
    (∃ (k : Nat) (bad : List Nat) (s : State),
      (s.expertOp k 0 = none ∨ s.xr.biasDue = true)) ∧
    (∃ (k : Nat) (tl : Nat) (base : Nat) (size : Nat) (a : Nat) (tbl : Nat) (o : SlotOp) (d : ExpertDesc) (s : State),
      s.expertOp k 0 = some (o, d, tl) ∧
      s.xr.biasDue = false ∧
      s.partOf tl d.part = some (base, size) ∧
      s.region tl d.part d.inOff 16 = some a ∧
      s.region tl d.part d.outOff 0 = some tbl ∧
      s.tileNat tl a 2 = 0) ∧
    (∃ (g : GoArgs) (tl : Nat) (tbl : Nat) (c : Candidate) (s : State),
      c.obj < 4096 ∧
      c.fresh = false ∧
      (s.xrEntry c.obj).hazard = false ∧
      (¬c.obj ∈ g.force) ∧
      s.reg R.xrSkipStableN ≤ (s.xrEntry c.obj).stable ∧
      s.reg R.xrSkipSkipConf ≤ (s.xrEntry c.obj).conf ∧
      (s.xrEntry c.obj).skip < s.reg R.xrSkipSkipMax) ∧
    (∃ (g : GoArgs) (tl : Nat) (tbl : Nat) (j : Nat) (c : Candidate) (s : State),
      s.enabledExperts g = [j] ∧
      s.unreachable j = false) ∧
    (∃ (s : State),
      s.xr.biasDue = false) ∧
    (∃ (sum : Nat) (eact : Nat) (on : List Nat) (s : State),
      s.xr.biasDue = true ∧
      s.flag R.xrCtrlLoopEn = true ∧
      s.reg R.xrBiasctlBmax < 2 ^ 15 ∧
      (on = List.filter (fun j => s.flag R.xrExpCfgEn j) (List.range 64)) ∧
      eact = on.length ∧
      (sum = List.foldl (fun x1 x2 => x1 + x2) 0 (List.map (fun j => (alGet s.xr.routed j).getD 0) on))) ∧
    (∃ (j : Nat) (v : Word) (s : State),
      s.alive = true ∧
      j < 64) ∧
    (∃ (item : ItemId) (s : State),
      s.due (Timer.remote item) = true ∧
      s.resultWaits item = false) ∧
    (∃ (item : ItemId) (s : State),
      (s.due (Timer.remote item) = false ∨ s.resultWaits item = true)) :=
  ⟨⟨0, 0, slotOp 5 0, ExpertDesc.ofBytes [], [], ((tiled 8 (slotOp 5 0) [(0x2000, 0)])), by decide +kernel⟩,
  ⟨(run |>.modXr (fun x => { x with biasDue := true }) |>.setReg R.xrCtrlLoopEn 0), by decide⟩,
  ⟨0, [], (run), by decide⟩,
  ⟨0, 0, 0, 32768, 0, 0, slotOp 5 0, ExpertDesc.ofBytes [], ((tiled 8 (slotOp 5 0) [(0x2000, 0)])), by decide +kernel⟩,
  ⟨{}, 0, 0, { idx := 0, obj := 4095, fresh := false, feat := 0, logit := 0 }, (run |>.setReg R.xrSkipSkipMax 1 |>.setReg R.xrSkipStableN 0 |>.setReg R.xrSkipSkipConf 0), by decide +kernel⟩,
  ⟨{}, 0, 0, 63, { idx := 0, obj := 0, fresh := true, feat := 0, logit := 0 }, (run |>.setReg R.xrExpCfgEn 1 63), by decide +kernel⟩,
  ⟨(run |>.modXr (fun x => { x with biasDue := false })), by decide⟩,
  by refine ⟨_, _, _, (run |>.modXr (fun x => { x with biasDue := true }) |>.setReg R.xrCtrlLoopEn 1), ?_, ?_, ?_, rfl, rfl, rfl⟩ <;> decide,
  ⟨0, 0, (run), by decide⟩,
  ⟨0, (run |>.armAt (.remote 0) 0), by decide⟩,
  ⟨0, (run), by decide⟩⟩

theorem witness_CombineAndExit :
    (∃ (k : Nat) (tl : Nat) (o : SlotOp) (d : ExpertDesc) (bad : List Nat) (s : State),
      s.expertOp k 1 = some (o, d, tl) ∧
      (∀ (x : Token), x ∈ s.xr.tokens → x.remote = true → x.result.isSome = true ∨ x.lost = true ∨ x.kept = false)) ∧
    (∃ (k : Nat) (tl : Nat) (o : SlotOp) (d : ExpertDesc) (s : State),
      s.expertOp k 2 = some (o, d, tl)) ∧
    (∃ (k : Nat) (tl : Nat) (tbl : Nat) (a : Nat) (o : SlotOp) (d : ExpertDesc) (x : XrObject) (e : XrEntry) (s : State),
      s.expertOp k 1 = some (o, d, tl) ∧
      s.region tl d.part d.inOff 0 = some tbl ∧
      s.region tl d.part d.outOff 0 = some a ∧
      s.flag R.xrCtrlMode = false ∧
      (List.filter (fun x => decide (x.tbl = tbl)) s.xr.objects = [x]) ∧
      x.skipped = true ∧
      (∀ (y : Token), y ∈ s.xr.tokens → y.tbl ≠ tbl) ∧
      e = s.xrEntry x.obj) ∧
    (∃ (k : Nat) (tl : Nat) (tbl : Nat) (a : Nat) (c : Nat) (hi : Int) (lo : Int) (o : SlotOp) (d : ExpertDesc) (x : XrObject) (y : Token) (s : State),
      s.expertOp k 1 = some (o, d, tl) ∧
      s.region tl d.part d.inOff 0 = some tbl ∧
      s.region tl d.part d.outOff 0 = some a ∧
      s.flag R.xrCtrlMode = false ∧
      (List.filter (fun x => decide (x.tbl = tbl)) s.xr.objects = [x]) ∧
      x.skipped = false ∧
      x.hazard = false ∧
      (List.filter (fun y => decide (y.tbl = tbl)) s.xr.tokens = [y]) ∧
      y.obj = x.obj ∧
      y.kept = true ∧
      y.lost = false ∧
      y.remote = false ∧
      y.result = none ∧
      x.obj < 4096 ∧
      s.hasEnded y.item = false ∧
      (¬y.item ∈ s.pal.poisoned) ∧
      (bestClass (List.map (fun c => ((y.weight : Nat) : Int) * toSigned 8 (BitVec.toNat ((s.tileRead tl (a + y.index * resultStride d.nclass) d.nclass).getD c 0))) (List.range d.nclass)) = (c, hi, some lo))) ∧
    (∃ (k : Nat) (tl : Nat) (tbl : Nat) (a : Nat) (live : List Token) (out : List Token) (o : SlotOp) (d : ExpertDesc) (s : State),
      s.expertOp k 2 = some (o, d, tl) ∧
      s.region tl d.part d.inOff 0 = some tbl ∧
      s.region tl d.part d.outOff 0 = some a ∧
      (List.map (fun x => x.item) s.xr.tokens).Nodup ∧
      (live = List.filter (fun x => x.tbl == tbl && x.kept && !x.lost && !x.exited && x.expert == d.expert) s.xr.tokens) ∧
      (out = List.filter (fun x => decide (d.exitConf ≤ s.tileNat tl (a + x.index * resultStride d.nclass + d.nclass) 1)) live)) ∧
    (∃ (k : Nat) (bad : List Nat) (s : State),
      s.expertOp k 1 = none) ∧
    (∃ (k : Nat) (bad : List Nat) (s : State),
      s.expertOp k 2 = none) :=
  ⟨⟨0, 0, slotOp 5 0, ExpertDesc.ofBytes [1], [], ((tiled 8 (slotOp 5 0) [(0x2000, 1)])), by decide +kernel⟩,
  ⟨0, 0, slotOp 5 0, ExpertDesc.ofBytes [2], ((tiled 8 (slotOp 5 0) [(0x2000, 2)])), by decide +kernel⟩,
  by refine ⟨0, 0, 0, 0, slotOp 5 0, ExpertDesc.ofBytes [1], { tbl := 0, obj := 0, skipped := true }, _, ((tiled 8 (slotOp 5 0) [(0x2000, 1)] |>.modXr (fun x => { x with objects := [{ tbl := 0, obj := 0, skipped := true }] }))), ?_, ?_, ?_, ?_, ?_, ?_, (by first | decide | (intros; simp_all)), rfl⟩ <;> decide +kernel,
  ⟨0, 0, 0, 0, 0, 0, 0, slotOp 5 0, ExpertDesc.ofBytes [1, 0, 0, 0, 0, 0, 0, 0, 0, 0, 0, 0, 0, 0, 0, 1], { tbl := 0, obj := 0 }, { tbl := 0, item := 0, obj := 0, rank := 0, expert := 0, weight := 0, score := 0, remote := false, index := 0 }, ((tiled 8 (slotOp 5 0) [(0x2000, 1), (0x200F, 1)] |>.modXr (fun x => { x with objects := [{ tbl := 0, obj := 0 }], tokens := [{ tbl := 0, item := 0, obj := 0, rank := 0, expert := 0, weight := 0, score := 0, remote := false, index := 0 }] }))), by decide +kernel⟩,
  by refine ⟨0, 0, 0, 0, _, _, slotOp 5 0, ExpertDesc.ofBytes [2], ((tiled 8 (slotOp 5 0) [(0x2000, 2)])), ?_, ?_, ?_, ?_, rfl, rfl⟩ <;> decide +kernel,
  ⟨0, [], (run), by decide⟩,
  ⟨0, [], (run), by decide⟩⟩

theorem witness_FusionInputsAndTests :
    (∃ (s : State),
      s.domOn 7 = true ∧
      0 < s.reg R.fuTestTestWin ∧
      s.reg R.fuTestTestWin ≤ s.fu.winCycles) ∧
    (∃ (ch : Nat) (q : Nat) (c : Cell) (rest : List Cell) (s : State),
      s.fuRuns = true ∧
      s.flag R.fuInCfgEn ch = true ∧
      s.reg R.fuInCfgKind ch = 3 ∧
      q = s.reg R.fuInCfgQid ch ∧
      q < 511 ∧
      s.popAllowed 98 q = true ∧
      (s.queue q).severing = false ∧
      (s.queue q).cells = c :: rest ∧
      c.marker = false ∧
      c.epm = false ∧
      parity 64 (BitVec.toNat c.data) = c.dp ∧
      (s.queue q).discard = false ∧
      s.flag R.qmQCfgRetired q = false ∧
      c.eop = false ∧
      cellType c.data = 13) ∧
    (∃ (ch : Nat) (q : Nat) (c : Cell) (rest : List Cell) (s : State) (p : FuPartial) (n : Nat),
      s.fuRuns = true ∧
      s.flag R.fuInCfgEn ch = true ∧
      s.reg R.fuInCfgKind ch = 3 ∧
      q = s.reg R.fuInCfgQid ch ∧
      q < 511 ∧
      s.popAllowed 98 q = true ∧
      (s.queue q).severing = false ∧
      (s.queue q).cells = c :: rest ∧
      c.marker = false ∧
      c.epm = false ∧
      parity 64 (BitVec.toNat c.data) = c.dp ∧
      (s.queue q).discard = false ∧
      s.flag R.qmQCfgRetired q = false ∧
      c.eop = true ∧
      alGet s.fu.partials ch = some p ∧
      lossyCell c.data = false ∧
      n = bits (BitVec.toNat c.data) 15 13 ∧
      s.quarantined n = false ∧
      (¬cellItem c.data ∈ s.pal.poisoned) ∧
      c.item = cellItem c.data ∧
      n < s.fu.srcs.length) ∧
    (∃ (ch : Nat) (u : Upset) (s : State),
      (s.fuRuns = false ∨ s.flag R.fuInCfgEn ch = false ∨ s.reg R.fuInCfgKind ch = 0)) ∧
    (∃ (s : State) (w : Nat × Nat),
      s.due Timer.gather = true ∧
      (List.find? (fun w => !s.fu.expired.any fun x => x.step == w.fst) s.fu.waits = some w)) ∧
    (∃ (s : State),
      s.due Timer.gather = true ∧
      s.fu.waits = []) ∧
    (∃ (s : State),
      s.due Timer.gather = false) ∧
    (∃ (s : State),
      s.fuRuns = true ∧
      s.fuHead.isSome = true ∧
      s.cycleDue = true ∧
      (s.unsatisfied s.cycleNext = [] ∨ s.timedOut = true) ∧
      (s.fu.waits = [] ∨ ∃ a, s.fu.waits = [(s.cycleNext, a)])) ∧
    (∃ (s : State),
      s.fuRuns = true ∧
      s.fuHead.isSome = true ∧
      s.cycleDue = true ∧
      (s.unsatisfied s.cycleNext = [] ∨ s.timedOut = true) ∧
      s.fu.flow = [] ∧
      0 < s.reg R.fuMotMinSpikes) ∧
    (∃ (s : State),
      (s.fuRuns = false ∨ s.fuHead = none ∨ s.cycleDue = false ∨ s.unsatisfied s.cycleNext ≠ [] ∧ s.timedOut = false)) ∧
    (∃ (n : Nat) (b : Nat) (s : State),
      s.domOn 7 = true ∧
      0 < s.reg R.fuTestTestWin ∧
      s.reg R.fuTestTestWin ≤ s.fu.winCycles ∧
      s.fuSources = [n] ∧
      s.fu.srcs.length = 6 ∧
      b = s.testBits n ∧
      b = 0 ∧
      s.quarantined n = false) ∧
    (∃ (n : Nat) (b : Nat) (s : State),
      s.domOn 7 = true ∧
      0 < s.reg R.fuTestTestWin ∧
      s.reg R.fuTestTestWin ≤ s.fu.winCycles ∧
      s.fuSources = [n] ∧
      s.fu.srcs.length = 6 ∧
      b = s.testBits n ∧
      b ≠ 0 ∧
      (s.quarantined n = true ∨ (s.srcTest n).fails + 1 < s.reg R.fuTestQuarN)) ∧
    (∃ (n : Nat) (b : Nat) (s : State),
      s.domOn 7 = true ∧
      0 < s.reg R.fuTestTestWin ∧
      s.reg R.fuTestTestWin ≤ s.fu.winCycles ∧
      s.fuSources = [n] ∧
      s.fu.srcs.length = 6 ∧
      b = s.testBits n ∧
      b ≠ 0 ∧
      s.quarantined n = false ∧
      s.reg R.fuTestQuarN ≤ (s.srcTest n).fails + 1) ∧
    (∃ (s : State),
      (s.domOn 7 = false ∨ s.reg R.fuTestTestWin = 0 ∨ s.fu.winCycles < s.reg R.fuTestTestWin)) ∧
    (∃ (m : BitVec 6) (s : State),
      s.domOn 7 = true ∧
      s.reg R.fuSrcstateQuar < 64 ∧
      s.alive = true) ∧
    (∃ (m : BitVec 6) (s : State),
      s.domOn 7 = false) :=
  ⟨⟨((run |>.setReg R.fuInCfgEn 1 |>.modFu (fun x => { x with winCycles := 120, winStart := 5000000000 }) |>.setReg R.fuSrcRateRateLo 1)), by decide +kernel⟩,
  by refine ⟨0, _, { idx := 7, data := 0xD00, dp := true }, [], ((queued 0 3 0x62 [{ idx := 7, data := 0xD00, dp := true }] |>.setReg R.fuCtrlEn 1 |>.setReg R.fuInCfgEn 1 |>.setReg R.fuInCfgKind 3)), ?_, ?_, ?_, rfl, ?_⟩ <;> decide,
  by refine ⟨0, _, { idx := 7, data := 0xD00, dp := true, eop := true }, [], ((queued 0 3 0x62 [{ idx := 7, data := 0xD00, dp := true, eop := true }] |>.setReg R.fuCtrlEn 1 |>.setReg R.fuInCfgEn 1 |>.setReg R.fuInCfgKind 3 |>.modFu (fun x => { x with partials := [(0, { item := 0 })] }))), { item := 0 }, _, ?_, ?_, ?_, rfl, ?_, ?_, ?_, ?_, ?_, ?_, ?_, ?_, ?_, ?_, ?_, ?_, rfl, ?_⟩ <;> decide,
  ⟨0, .none, (run), by decide⟩,
  ⟨((run |>.armAt .gather 0 |>.modFu fun x => { x with waits := [(0, 0)] })), (0, 0), by decide⟩,
  ⟨(run |>.armAt (.gather) 0 |>.modFu (fun x => { x with waits := [] })), by decide⟩,
  ⟨(run), by decide⟩,
  by refine ⟨((fused 0 |>.modFu (fun x => { x with cycleOpen := false, cycleStep := none }))), ?_, ?_, ?_, ?_, (Or.inl (by decide +kernel))⟩ <;> decide +kernel,
  ⟨((fused 0 |>.modFu (fun x => { x with cycleOpen := false, cycleStep := none }))), by decide +kernel⟩,
  ⟨(run), by decide⟩,
  by refine ⟨0, _, ((run |>.setReg R.fuInCfgEn 1 |>.modFu (fun x => { x with winCycles := 120, winStart := 5000000000 }) |>.setReg R.fuSrcRateRateLo 1)), ?_, ?_, ?_, ?_, ?_, rfl, rfl, ?_⟩ <;> decide +kernel,
  by refine ⟨0, _, ((run |>.setReg R.fuInCfgEn 1 |>.modFu (fun x => { x with winCycles := 120, winStart := 0 }) |>.setReg R.fuSrcRateRateLo 1)), ?_, ?_, ?_, ?_, ?_, rfl, ?_⟩ <;> decide +kernel,
  by refine ⟨0, _, ((run |>.setReg R.fuInCfgEn 1 |>.modFu (fun x => { x with winCycles := 120, winStart := 0 }) |>.setReg R.fuSrcRateRateLo 1 |>.setReg R.fuTestQuarN 1)), ?_, ?_, ?_, ?_, ?_, rfl, ?_⟩ <;> decide +kernel,
  ⟨(run |>.setReg R.pwDomStateOn 0), by decide⟩,
  ⟨0, (run), by decide⟩,
  ⟨0, (run |>.setReg R.pwDomStateOn 0), by decide⟩⟩

theorem witness_FusionCommands :
    (∃ (n : Nat) (f : Instr) (bad : List Nat) (h : Cell64) (d : Delivery) (s : State) (u : State),
      (n, f) ∈ [(0, Instr.early), (1, Instr.assoc bad), (2, Instr.mid), (3, Instr.update bad), (4, Instr.post)] ∧
      s.fuHead = some h ∧
      d.data = h ∧
      s.takeCommand = (some (d, Taken.use), u) ∧
      bits (BitVec.toNat h) 3 0 = n) ∧
    (∃ (n : Nat) (f : Instr) (s : State),
      (n, f) ∈ [(0, Instr.early), (1, Instr.assoc []), (2, Instr.mid), (3, Instr.update []), (4, Instr.post)] ∧
      (s.fuHead = none ∨ (∃ h, s.fuHead = some h ∧ bits (BitVec.toNat h) 3 0 ≠ n ∧ bits (BitVec.toNat h) 3 0 < 5) ∨ s.fuRuns = false ∨ s.cycleDue = true)) ∧
    (∃ (n : Nat) (f : Instr) (h : Cell64) (d : Delivery) (s : State) (u : State),
      (n, f) ∈ [(0, Instr.early), (1, Instr.assoc []), (2, Instr.mid), (3, Instr.update []), (4, Instr.post)] ∧
      s.fuHead = some h ∧
      d.data = h ∧
      s.takeCommand = (some (d, Taken.use), u) ∧
      5 ≤ bits (BitVec.toNat h) 3 0) ∧
    (∃ (h : Cell64) (d : Delivery) (cam : Nat) (w : Nat) (hh : Nat) (tl : Nat) (a : Nat) (s : State) (u : State),
      s.fuHead = some h ∧
      d.data = h ∧
      s.takeCommand = (some (d, Taken.use), u) ∧
      bits (BitVec.toNat h) 3 0 = 0 ∧
      cam = bits (BitVec.toNat h) 21 20 ∧
      w = u.reg R.fuEarlyCfg2WM1 cam + 1 ∧
      hh = u.reg R.fuEarlyCfg3HM1 cam + 1 ∧
      u.flag R.fuEarlyCfgEn cam = true ∧
      u.fuTarget h (u.reg R.fuEarlyOffOff cam) (4 * w * hh) = some (tl, a) ∧
      a + 4 * w * hh ≤ 2 ^ 20 ∧
      u.srcUsable (4 + u.reg R.fuEarlyCfgTherm cam) = false) ∧
    (∃ (h : Cell64) (d : Delivery) (e : Nat × Nat) (s : State) (u : State),
      s.fuHead = some h ∧
      d.data = h ∧
      s.takeCommand = (some (d, Taken.use), u) ∧
      bits (BitVec.toNat h) 3 0 = 1 ∧
      (∀ (i : FuItem), i ∈ u.fu.items → i.kind ≠ 3) ∧
      u.fu.latBirths = [] ∧
      u.fuTarget h (u.reg R.fuAssocOffOff) 0 = some e) ∧
    (∃ (h : Cell64) (d : Delivery) (maps : List MidMap) (c : Nat) (tl : Nat) (a : Nat) (on : List Nat) (s : State) (u : State),
      s.fuHead = some h ∧
      d.data = h ∧
      s.takeCommand = (some (d, Taken.use), u) ∧
      bits (BitVec.toNat h) 3 0 = 2 ∧
      (on = List.filter (fun n => u.flag R.fuMidLocEn n) (List.range 6)) ∧
      (c = (Option.map (fun n => u.reg R.fuMidShapeCM1 n + 1) on.head?).getD 0) ∧
      maps = List.filterMap u.midMap (List.filter u.srcUsable on) ∧
      maps.length = (List.filter u.srcUsable on).length ∧
      u.fuTarget h (u.reg R.fuMidOutOffOff) (512 * 512 * padTo 4 (c + 1)) = some (tl, a) ∧
      a + 512 * 512 * padTo 4 (c + 1) ≤ 2 ^ 20) ∧
    (∃ (h : Cell64) (d : Delivery) (s : State) (u : State),
      s.fuHead = some h ∧
      d.data = h ∧
      s.takeCommand = (some (d, Taken.use), u) ∧
      bits (BitVec.toNat h) 3 0 = 3 ∧
      (∀ (i : FuItem), i ∈ u.fu.items → i.kind < 4)) ∧
    (∃ (h : Cell64) (d : Delivery) (s : State) (u : State),
      s.fuHead = some h ∧
      d.data = h ∧
      s.takeCommand = (some (d, Taken.use), u) ∧
      bits (BitVec.toNat h) 3 0 = 4 ∧
      (List.filter (fun c => u.flag R.fuOutCfgEn c) (List.range 16) = []) ∧
      (u.queue (u.reg R.fuCtrlCmdQid)).cells = []) ∧
    (∃ (h : Cell64) (d : Delivery) (c : Nat) (item : ItemId) (st : Bool) (s : State) (u : State),
      s.fuHead = some h ∧
      d.data = h ∧
      s.takeCommand = (some (d, Taken.use), u) ∧
      bits (BitVec.toNat h) 3 0 = 4 ∧
      (List.filter (fun c => u.flag R.fuOutCfgEn c) (List.range 16) = [c]) ∧
      u.outRecs (u.reg R.fuOutCfgContent c) = [] ∧
      item = u.nextItem (96 + c) ∧
      st = u.flag R.fuOutCfgStamped c) :=
  ⟨by refine ⟨4, .post, [], 4, _, ((fused 4)), _, (by simp), ?_, ?_, rfl, ?_⟩ <;> decide +kernel,
  ⟨0, .early, (run), (by simp), (Or.inl (by decide))⟩,
  by refine ⟨0, .early, 5, _, ((fused 5)), _, (by simp), ?_, ?_, rfl, ?_⟩ <;> decide +kernel,
  by refine ⟨0x300000, _, _, _, _, 0, 0, ((fused 0x300000 |>.setReg R.fuEarlyCfgEn 1 3)), _, ?_, ?_, rfl, ?_, rfl, rfl, rfl, ?_⟩ <;> decide +kernel,
  by refine ⟨1, _, (0, 0), ((fused 1)), _, ?_, ?_, rfl, ?_, (by first | decide | (intros; simp_all)), ?_⟩ <;> decide +kernel,
  by refine ⟨2, _, _, _, 0, 0, _, ((fused 2)), _, ?_, ?_, rfl, ?_, rfl, rfl, rfl, ?_⟩ <;> decide +kernel,
  by refine ⟨3, _, ((fused 3)), _, ?_, ?_, rfl, ?_, (by first | decide | (intros; simp_all))⟩ <;> decide +kernel,
  by refine ⟨4, _, ((fused 4)), _, ?_, ?_, rfl, ?_⟩ <;> decide +kernel,
  by refine ⟨4, _, 15, _, _, ((fused 4 |>.setReg R.fuOutCfgEn 1 15)), _, ?_, ?_, rfl, ?_, ?_, ?_, rfl, rfl⟩ <;> decide +kernel⟩

theorem witness_TrackRules :
    (∃ (gate : Nat) (k : Nat) (i : Nat) (j : Nat) (ms : List Measure) (ts : List Track) (m : Measure) (m' : Measure),
      (∀ (x : Measure), x ∈ ms → x.paired = none) ∧
      (pairUp ms (pairsOf gate ms ts))[i]? = some m ∧
      (pairUp ms (pairsOf gate ms ts))[j]? = some m' ∧
      m.paired = some k ∧
      m'.paired = some k ∧
      m.src = m'.src) ∧
    (∃ (x : Int) (y : Int) (src : Nat) (oldest : Nat) (k : Nat) (s : State),
      s.freeSlot = some k) ∧
    (∃ (t : Track) (hits : Nat) (limit : Nat) (s : State),
      t.state ≠ TrackState.deleted ∧
      (hits = (List.filter (fun b => decide (b = true)) (List.drop (t.hist.length - s.reg R.fuTrackN) t.hist)).length) ∧
      (limit = if t.hazard = true then s.reg R.fuTrackHazCoast else s.reg R.fuTrackCoastMax) ∧
      t.state = TrackState.tentative ∧
      hits < s.reg R.fuTrackM ∧
      s.reg R.fuTrackN ≤ t.counted) ∧
    (∃ (t : Track) (hits : Nat) (limit : Nat) (s : State),
      t.state ≠ TrackState.deleted ∧
      (hits = (List.filter (fun b => decide (b = true)) (List.drop (t.hist.length - s.reg R.fuTrackN) t.hist)).length) ∧
      (limit = if t.hazard = true then s.reg R.fuTrackHazCoast else s.reg R.fuTrackCoastMax) ∧
      t.state ≠ TrackState.tentative ∧
      t.missNow = true ∧
      limit ≤ t.misses) ∧
    (∃ (t : Track) (hits : Nat) (limit : Nat) (s : State),
      t.state ≠ TrackState.deleted ∧
      (hits = (List.filter (fun b => decide (b = true)) (List.drop (t.hist.length - s.reg R.fuTrackN) t.hist)).length) ∧
      (limit = if t.hazard = true then s.reg R.fuTrackHazCoast else s.reg R.fuTrackCoastMax) ∧
      t.state ≠ TrackState.tentative ∧
      t.missNow = false ∧
      t.off = true) ∧
    (∃ (t : Track) (hits : Nat) (limit : Nat) (s : State),
      t.state ≠ TrackState.deleted ∧
      (hits = (List.filter (fun b => decide (b = true)) (List.drop (t.hist.length - s.reg R.fuTrackN) t.hist)).length) ∧
      (limit = if t.hazard = true then s.reg R.fuTrackHazCoast else s.reg R.fuTrackCoastMax) ∧
      t.state = TrackState.tentative ∧
      s.reg R.fuTrackM ≤ hits ∧
      t.missNow = false ∧
      t.off = false) ∧
    (∃ (t : Track) (hits : Nat) (limit : Nat) (s : State),
      t.state ≠ TrackState.deleted ∧
      (hits = (List.filter (fun b => decide (b = true)) (List.drop (t.hist.length - s.reg R.fuTrackN) t.hist)).length) ∧
      (limit = if t.hazard = true then s.reg R.fuTrackHazCoast else s.reg R.fuTrackCoastMax) ∧
      t.state = TrackState.confirmed ∧
      t.missNow = true ∧
      t.misses < limit ∧
      t.off = false) ∧
    (∃ (t : Track) (hits : Nat) (limit : Nat) (s : State),
      t.state ≠ TrackState.deleted ∧
      (hits = (List.filter (fun b => decide (b = true)) (List.drop (t.hist.length - s.reg R.fuTrackN) t.hist)).length) ∧
      (limit = if t.hazard = true then s.reg R.fuTrackHazCoast else s.reg R.fuTrackCoastMax) ∧
      t.state = TrackState.coasting ∧
      t.missNow = false ∧
      t.hitNow = true ∧
      t.off = false) ∧
    (∃ (w : Cell64) (k : Nat) (s : State),
      k = bits (BitVec.toNat w) 63 51 ∧
      k < 4096 ∧
      (s.fu.tracks.any fun t => t.live && t.slot == k) = true) :=
  ⟨by refine ⟨100, 0, 0, 0, [{ src := 0, cand := 0, score := 0, px := 0, py := 0, place := some (0, 0) }], [{ slot := 0, gen := 0, x := 0, y := 0, at_ := 0, oldest := 0, validUs := 0 }], { src := 0, cand := 0, score := 0, px := 0, py := 0, place := some (0, 0), paired := some 0 }, { src := 0, cand := 0, score := 0, px := 0, py := 0, place := some (0, 0), paired := some 0 }, (by first | decide | (intros; simp_all)), ?_⟩ <;> decide +kernel,
  ⟨0, 0, 0, 0, 0, (run), by decide +kernel⟩,
  by refine ⟨{ slot := 0, gen := 0, x := 0, y := 0, at_ := 0, oldest := 0, validUs := 0, hist := [], counted := 15 }, _, _, (run), ?_, rfl, rfl, ?_⟩ <;> decide +kernel,
  by refine ⟨{ slot := 0, gen := 0, x := 0, y := 0, at_ := 0, oldest := 0, validUs := 0, state := .coasting, missNow := true, misses := 1000 }, _, _, (run), ?_, rfl, rfl, ?_⟩ <;> decide +kernel,
  by refine ⟨{ slot := 0, gen := 0, x := 0, y := 0, at_ := 0, oldest := 0, validUs := 0, state := .confirmed, off := true }, _, _, (run), ?_, rfl, rfl, ?_⟩ <;> decide +kernel,
  by refine ⟨{ slot := 0, gen := 0, x := 0, y := 0, at_ := 0, oldest := 0, validUs := 0, hist := List.replicate 16 true, counted := 16 }, _, _, (run), ?_, rfl, rfl, ?_⟩ <;> decide +kernel,
  by refine ⟨{ slot := 0, gen := 0, x := 0, y := 0, at_ := 0, oldest := 0, validUs := 0, state := .confirmed, missNow := true, misses := 0 }, _, _, (run), ?_, rfl, rfl, ?_⟩ <;> decide +kernel,
  by refine ⟨{ slot := 0, gen := 0, x := 0, y := 0, at_ := 0, oldest := 0, validUs := 0, state := .coasting }, _, _, (run), ?_, rfl, rfl, ?_⟩ <;> decide +kernel,
  ⟨4095 * 2 ^ 51, 4095, (run |>.modFu (fun x => { x with tracks := [{ slot := 4095, gen := 0, x := 0, y := 0, at_ := 0, oldest := 0, validUs := 0 }] })), by decide +kernel⟩⟩

theorem witness_DrawLists :
    (∃ (u : Upset) (s : State),
      (s.rdRuns = false ∨ s.groupReady = true ∨ s.drawQueue = none)) ∧
    (∃ (q : Nat) (c : Cell) (rest : List Cell) (s : State),
      s.rdRuns = true ∧
      s.groupReady = false ∧
      s.drawQueue = some q ∧
      q < 511 ∧
      s.popAllowed 99 q = true ∧
      (s.queue q).severing = false ∧
      (s.queue q).cells = c :: rest ∧
      c.marker = false ∧
      parity 64 (BitVec.toNat c.data) = c.dp ∧
      (s.queue q).discard = false ∧
      s.flag R.qmQCfgRetired q = false ∧
      s.rd.list = none ∧
      c.eop = false ∧
      h0Ok c.data = true ∧
      h0Prim c.data < 4 ∧
      s.rd.openF.dropped = false ∧
      s.rd.openF.draws.length < 4096) ∧
    (∃ (q : Nat) (c : Cell) (rest : List Cell) (s : State) (l : DrawList),
      s.rdRuns = true ∧
      s.groupReady = false ∧
      s.drawQueue = some q ∧
      q < 511 ∧
      s.popAllowed 99 q = true ∧
      (s.queue q).severing = false ∧
      (s.queue q).cells = c :: rest ∧
      c.marker = false ∧
      parity 64 (BitVec.toNat c.data) = c.dp ∧
      (s.queue q).discard = false ∧
      s.flag R.qmQCfgRetired q = false ∧
      s.rd.list = some l ∧
      l.skip = false ∧
      l.cells ≠ [] ∧
      c.eop = false) ∧
    (∃ (q : Nat) (c : Cell) (rest : List Cell) (s : State) (l : DrawList),
      s.rdRuns = true ∧
      s.groupReady = false ∧
      s.drawQueue = some q ∧
      q < 511 ∧
      s.popAllowed 99 q = true ∧
      (s.queue q).severing = false ∧
      (s.queue q).cells = c :: rest ∧
      c.marker = false ∧
      parity 64 (BitVec.toNat c.data) = c.dp ∧
      (s.queue q).discard = false ∧
      s.flag R.qmQCfgRetired q = false ∧
      s.rd.list = some l ∧
      l.cells = [] ∧
      c.eop = true) ∧
    (∃ (p : Nat) (f : Instr) (l : DrawList) (h : Cell64) (h1 : Cell64) (r : List (Cell64 × Bool)) (s : State) (i : Nat),
      (p, f) ∈ [(0, Instr.triangleList), (1, Instr.triangleStrip), (2, Instr.lineList), (3, Instr.glyphQuads)] ∧
      s.rdRuns = true ∧
      s.rd.list = some l ∧
      l.cells = (h, false) :: (h1, false) :: r ∧
      l.full = true ∧
      h0Prim h = p ∧
      (r.any fun x => x.snd) = false ∧
      l.draw = some i ∧
      bitAt (s.reg R.rdLayerEn) (bits (BitVec.toNat h) 6 4) = false) ∧
    (∃ (p : Nat) (f : Instr) (l : DrawList) (h : Cell64) (h1 : Cell64) (r : List (Cell64 × Bool)) (s : State) (i : Nat),
      (p, f) ∈ [(0, Instr.triangleList), (1, Instr.triangleStrip), (2, Instr.lineList), (3, Instr.glyphQuads)] ∧
      s.rdRuns = true ∧
      s.rd.list = some l ∧
      l.cells = (h, false) :: (h1, false) :: r ∧
      l.full = true ∧
      h0Prim h = p ∧
      (r.any fun x => x.snd) = false ∧
      l.draw = some i ∧
      bitAt (s.reg R.rdLayerEn) (bits (BitVec.toNat h) 6 4) = true) ∧
    (∃ (p : Nat) (f : Instr) (s : State),
      (p, f) ∈ [(0, Instr.triangleList), (1, Instr.triangleStrip), (2, Instr.lineList), (3, Instr.glyphQuads), (4, Instr.transform), (5, Instr.textureSlot)] ∧
      (s.rdRuns = false ∨ s.groupReady = false ∨ ∃ l h r, s.rd.list = some l ∧ l.cells = h :: r ∧ h0Prim h.fst ≠ p)) ∧
    (∃ (i : Nat) (b : Nat) (n : Nat) (k : Nat) (p : Prim) (s : State),
      s.rd.openF.dropped = false ∧
      s.freeBlock = some b ∧
      s.touched p = [n] ∧
      (k = (Option.map (fun x => x.prims.length) s.rd.openF.draws[i]?).getD 0) ∧
      (List.filter (fun e => decide (e.fst = n)) s.rd.openF.bins).length % 15 ≠ 0) ∧
    (∃ (l : DrawList) (h : Cell64) (r : List (Cell64 × Bool)) (s : State),
      s.rdRuns = true ∧
      s.rd.list = some l ∧
      l.cells = (h, false) :: r ∧
      l.full = true ∧
      (r.any fun x => x.snd) = false ∧
      h0Prim h = 4) ∧
    (∃ (l : DrawList) (h : Cell64) (r : List (Cell64 × Bool)) (s : State),
      s.rdRuns = true ∧
      s.rd.list = some l ∧
      l.cells = (h, false) :: r ∧
      l.full = true ∧
      (r.any fun x => x.snd) = false ∧
      h0Prim h = 5) :=
  ⟨⟨.none, (run), by decide⟩,
  ⟨0, { idx := 7, data := 0, dp := parity 64 (0) }, [], ((queued 0 0x10 0x63 [{ idx := 7, data := 0, dp := parity 64 (0) }] |>.setReg R.rdDrawqEn 1)), by decide +kernel⟩,
  ⟨0, { idx := 7, data := 0, dp := parity 64 (0) }, [], ((queued 0 0x10 0x63 [{ idx := 7, data := 0, dp := parity 64 (0) }] |>.setReg R.rdDrawqEn 1 |>.modRd (fun x => { x with list := some { queue := 0, cells := [(0, false)] } }))), { queue := 0, cells := [(0, false)] }, by decide +kernel⟩,
  ⟨0, { idx := 7, data := 0, dp := parity 64 (0), eop := true }, [], ((queued 0 0x10 0x63 [{ idx := 7, data := 0, dp := parity 64 (0), eop := true }] |>.setReg R.rdDrawqEn 1 |>.modRd (fun x => { x with list := some { queue := 0 } }))), { queue := 0 }, by decide +kernel⟩,
  by refine ⟨0, .triangleList, { queue := 0, cells := [(0, false), (0, false), (0, false), (0, false), (0, false)], draw := some 0 }, 0, 0, [(0, false), (0, false), (0, false)], ((run |>.setReg R.rdLayerEn 0 |>.modRd (fun x => { x with list := some { queue := 0, cells := [(0, false), (0, false), (0, false), (0, false), (0, false)], draw := some 0 } }))), 0, (by simp), ?_⟩ <;> decide +kernel,
  by refine ⟨0, .triangleList, { queue := 0, cells := [(0, false), (0, false), (0, false), (0, false), (0, false)], draw := some 0 }, 0, 0, [(0, false), (0, false), (0, false)], ((run |>.setReg R.rdLayerEn 31 |>.modRd (fun x => { x with list := some { queue := 0, cells := [(0, false), (0, false), (0, false), (0, false), (0, false)], draw := some 0 } }))), 0, (by simp), ?_⟩ <;> decide +kernel,
  ⟨0, .triangleList, (run), (by simp), (Or.inr (Or.inl (by decide)))⟩,
  by refine ⟨0, 0, 0, _, .line { x := 0, y := 0, u := 0, v := 0 } { x := 160, y := 0, u := 0, v := 0 } 0, ((run |>.modRd fun x => { x with openF := { bins := [(0, 0, 0)] } })), ?_, ?_, ?_, rfl, ?_⟩ <;> decide +kernel,
  ⟨{ queue := 0, cells := (4, false) :: List.replicate 6 (0, false) }, 4, List.replicate 6 (0, false), ((run |>.modRd (fun x => { x with list := some { queue := 0, cells := (4, false) :: List.replicate 6 (0, false) } }))), by decide +kernel⟩,
  ⟨{ queue := 0, cells := (5, false) :: List.replicate 6 (0, false) }, 5, List.replicate 6 (0, false), ((run |>.modRd (fun x => { x with list := some { queue := 0, cells := (5, false) :: List.replicate 6 (0, false) } }))), by decide +kernel⟩⟩

theorem witness_FramesAndScreenTiles :
    (∃ (k : Nat) (v : Nat) (s : State),
      s.renderOp k 0 = some v) ∧
    (∃ (k : Nat) (v : Nat) (s : State),
      s.renderOp k 1 = some v ∧
      s.rd.list = none ∧
      (∀ (i : Nat), i < 4 → s.flag R.rdDrawqEn i = true → (s.queue (s.reg R.rdDrawqQid i)).cells = [])) ∧
    (∃ (k : Nat) (v : Nat) (o : SlotOp) (s : State),
      s.opAt k 6 = some o ∧
      s.renderOp k 0 = some v ∧
      s.rd.openF.dropped = false ∧
      s.rd.openF.under = none) ∧
    (∃ (k : Nat) (s : State),
      s.renderOp k 0 = none) ∧
    (∃ (k : Nat) (s : State),
      s.renderOp k 1 = none) ∧
    (∃ (k : Nat) (v : Nat) (o : SlotOp) (s : State),
      s.opAt k 6 = some o ∧
      s.renderOp k 1 = some v ∧
      s.rd.list = none ∧
      (∀ (i : Nat), i < 4 → s.flag R.rdDrawqEn i = true → (s.queue (s.reg R.rdDrawqQid i)).cells = []) ∧
      s.flag R.rdCursorEn = false ∧
      s.rd.openF.dropped = false ∧
      s.rd.sealed = none ∧
      s.rd.openF.draws = []) ∧
    (∃ (k : Nat) (v : Nat) (o : SlotOp) (s : State),
      s.opAt k 6 = some o ∧
      s.renderOp k 1 = some v ∧
      s.rd.list = none ∧
      (∀ (i : Nat), i < 4 → s.flag R.rdDrawqEn i = true → (s.queue (s.reg R.rdDrawqQid i)).cells = []) ∧
      s.flag R.rdCursorEn = false ∧
      s.rd.openF.dropped = true) ∧
    (∃ (k : Nat) (v : Nat) (o : SlotOp) (l : DrawList) (s : State),
      s.opAt k 6 = some o ∧
      s.renderOp k 1 = some v ∧
      s.rd.list = some l ∧
      s.groupReady = false ∧
      (s.queue l.queue).cells = [] ∧
      o.begun = true) ∧
    (∃ (k : Nat) (v : Nat) (o : SlotOp) (l : DrawList) (s : State),
      s.opAt k 6 = some o ∧
      s.renderOp k 1 = some v ∧
      s.rd.list = some l ∧
      s.groupReady = false ∧
      (s.queue l.queue).cells = [] ∧
      o.begun = false) ∧
    (∃ (tl : Nat) (n : Nat) (rest : List Nat) (x : RenderSide) (f : RFrame) (s : State),
      tl < 64 ∧
      (List.find? (fun x => decide (x.tile = tl)) s.rd.sides = some x) ∧
      s.rd.sealed = some f ∧
      f.todo = n :: rest ∧
      x.screen = none ∧
      s.windowCloses x.group = false ∧
      s.rdRuns = true ∧
      s.role tl = 2 ∧
      s.tileWaits tl = false ∧
      s.computeWaits tl = false) ∧
    (∃ (tl : Nat) (n : Nat) (rest : List Nat) (x : RenderSide) (f : RFrame) (s : State),
      tl < 64 ∧
      (List.find? (fun x => decide (x.tile = tl)) s.rd.sides = some x) ∧
      s.rd.sealed = some f ∧
      f.todo = n :: rest ∧
      x.screen = none ∧
      s.windowCloses x.group = false ∧
      s.rdRuns = true ∧
      s.role tl = 2 ∧
      s.tileWaits tl = false ∧
      s.computeWaits tl = true ∧
      x.decisions % 8 < (alGet s.rd.prios x.group).getD 0) ∧
    (∃ (tl : Nat) (n : Nat) (rest : List Nat) (x : RenderSide) (f : RFrame) (s : State),
      tl < 64 ∧
      (List.find? (fun x => decide (x.tile = tl)) s.rd.sides = some x) ∧
      s.rd.sealed = some f ∧
      f.todo = n :: rest ∧
      x.screen = none ∧
      s.windowCloses x.group = false ∧
      s.rdRuns = true ∧
      s.role tl = 2 ∧
      s.tileWaits tl = false ∧
      s.computeWaits tl = true ∧
      (alGet s.rd.prios x.group).getD 0 ≤ x.decisions % 8) ∧
    (∃ (tl : Nat) (s : State),
      (s.rdRuns = false ∨ s.rd.sealed = none ∨ List.find? (fun x => decide (x.tile = tl)) s.rd.sides = none ∨ s.role tl ≠ 2 ∨ s.tileWaits tl = true)) ∧
    (∃ (tl : Nat) (n : Nat) (x : RenderSide) (f : RFrame) (u : State) (s : State),
      (List.find? (fun x => decide (x.tile = tl)) s.rd.sides = some x) ∧
      s.rd.sealed = some f ∧
      x.screen = some n ∧
      (u = (s.contest tl).modSide tl fun x => { tile := x.tile, group := x.group, decisions := x.decisions }) ∧
      s.fbInstalled f.buffer = false) ∧
    (∃ (tl : Nat) (n : Nat) (x : RenderSide) (f : RFrame) (u : State) (s : State),
      (List.find? (fun x => decide (x.tile = tl)) s.rd.sides = some x) ∧
      s.rd.sealed = some f ∧
      x.screen = some n ∧
      (u = (s.contest tl).modSide tl fun x => { tile := x.tile, group := x.group, decisions := x.decisions }) ∧
      s.fbInstalled f.buffer = true) ∧
    (∃ (tl : Nat) (n : Nat) (x : RenderSide) (f : RFrame) (u : State) (s : State) (bl : List Nat),
      (List.find? (fun x => decide (x.tile = tl)) s.rd.sides = some x) ∧
      s.rd.sealed = some f ∧
      x.screen = some n ∧
      (u = (s.contest tl).modSide tl fun x => { tile := x.tile, group := x.group, decisions := x.decisions }) ∧
      f.blocks.any bl.contains = true) ∧
    (∃ (tl : Nat) (bl : List Nat) (s : State),
      (List.find? (fun x => decide (x.tile = tl)) s.rd.sides = none)) :=
  ⟨⟨0, 0, ((run |>.modPp (fun x => { x with plan := some {}, ops := [slotOp 6 0] }) |>.modExt (fun _ => { cells := [] }))), by decide +kernel⟩,
  by refine ⟨0, 1, ((run |>.modPp (fun x => { x with plan := some {}, ops := [slotOp 6 0] }) |>.modExt (fun _ => { cells := [(0x2000, 1)] }) |>.modRd (fun x => { x with openF := { dropped := true } }))), ?_, ?_, (by first | decide | (intros; simp_all))⟩ <;> decide +kernel,
  ⟨0, 0, slotOp 6 0, ((run |>.modPp (fun x => { x with plan := some {}, ops := [slotOp 6 0] }) |>.modExt (fun _ => { cells := [] }))), by decide +kernel⟩,
  ⟨0, (run), by decide⟩,
  ⟨0, (run), by decide⟩,
  by refine ⟨0, 1, slotOp 6 0, ((run |>.modPp (fun x => { x with plan := some {}, ops := [slotOp 6 0] }) |>.modExt (fun _ => { cells := [(0x2000, 1)] }))), ?_, ?_, ?_, (by first | decide | (intros; simp_all)), ?_⟩ <;> decide +kernel,
  by refine ⟨0, 1, slotOp 6 0, ((run |>.modPp (fun x => { x with plan := some {}, ops := [slotOp 6 0] }) |>.modExt (fun _ => { cells := [(0x2000, 1)] }) |>.modRd (fun x => { x with openF := { dropped := true } }))), ?_, ?_, ?_, (by first | decide | (intros; simp_all)), ?_⟩ <;> decide +kernel,
  ⟨0, 1, { slotOp 6 0 with begun := true }, { queue := 0 }, ((run |>.modPp (fun x => { x with plan := some {}, ops := [{ slotOp 6 0 with begun := true }] }) |>.modExt (fun _ => { cells := [(0x2000, 1)] }) |>.modRd (fun x => { x with list := some { queue := 0 } }))), by decide +kernel⟩,
  ⟨0, 1, slotOp 6 0, { queue := 0 }, ((run |>.modPp (fun x => { x with plan := some {}, ops := [slotOp 6 0] }) |>.modExt (fun _ => { cells := [(0x2000, 1)] }) |>.modRd (fun x => { x with list := some { queue := 0 } }))), by decide +kernel⟩,
  ⟨0, 0, [], { tile := 0, group := 0 }, { todo := [0] }, ((run |>.modRd (fun x => { x with sides := [{ tile := 0, group := 0 }], sealed := some { todo := [0] }, prios := [] }) |>.modRoles (fun r => r.set 0 2))), by decide +kernel⟩,
  ⟨0, 0, [], { tile := 0, group := 0 }, { todo := [0] }, ((run |>.modRd (fun x => { x with sides := [{ tile := 0, group := 0 }], sealed := some { todo := [0] }, prios := [(0, 8)] }) |>.modRoles (fun r => r.set 0 2) |>.modPp (fun x => { x with ops := [slotOp 1 0] }) |>.modExt fun _ => { cells := [(0x1000, 1)] })), by decide +kernel⟩,
  ⟨0, 0, [], { tile := 0, group := 0 }, { todo := [0] }, ((run |>.modRd (fun x => { x with sides := [{ tile := 0, group := 0 }], sealed := some { todo := [0] }, prios := [] }) |>.modRoles (fun r => r.set 0 2) |>.modPp (fun x => { x with ops := [slotOp 1 0] }) |>.modExt fun _ => { cells := [(0x1000, 1)] })), by decide +kernel⟩,
  ⟨0, (run), by decide⟩,
  by refine ⟨0, 0, { tile := 0, group := 0, screen := some 0 }, { todo := [0] }, _, ((run |>.modRd (fun x => { x with sides := [{ tile := 0, group := 0, screen := some 0 }], sealed := some { todo := [0] }, prios := [] }) |>.setReg R.rdFbAddr 0xFFFFFF)), ?_, ?_, ?_, rfl, ?_⟩ <;> decide +kernel,
  by refine ⟨0, 0, { tile := 0, group := 0, screen := some 0 }, { todo := [0] }, _, ((run |>.modRd (fun x => { x with sides := [{ tile := 0, group := 0, screen := some 0 }], sealed := some { todo := [0] }, prios := [] }))), ?_, ?_, ?_, rfl, ?_⟩ <;> decide +kernel,
  by refine ⟨0, 0, { tile := 0, group := 0, screen := some 0 }, { todo := [0], recs := [(5, 0, 0)] }, _, ((run |>.modRd (fun x => { x with sides := [{ tile := 0, group := 0, screen := some 0 }], sealed := some { todo := [0], recs := [(5, 0, 0)] }, prios := [] }))), [5], ?_, ?_, ?_, rfl, ?_⟩ <;> decide +kernel,
  ⟨0, [], (run), by decide⟩⟩

theorem witness_PixelInstructions :
    (∃ (c : Instr) (d : BitVec 3) (a : BitVec 3) (b : BitVec 3) (imm : BitVec 15) (f : Nat → BitVec 16) (s : State),
      s.rd.px.ended = false ∧
      s.rd.px.regs.length = 8 ∧
      (c, f) ∈ [(Instr.mov d a, fun i => s.rd.px.lane a.toNat i), (Instr.addOp d a b, fun i => halfAdd (s.rd.px.lane a.toNat i) (s.rd.px.lane b.toNat i)), (Instr.mulOp d a b, fun i => halfMul (s.rd.px.lane a.toNat i) (s.rd.px.lane b.toNat i)), (Instr.mad d a b, fun i => halfMad (s.rd.px.lane d.toNat i) (s.rd.px.lane a.toNat i) (s.rd.px.lane b.toNat i)), (Instr.minOp d a b, fun i => halfMin (s.rd.px.lane a.toNat i) (s.rd.px.lane b.toNat i)), (Instr.maxOp d a b, fun i => halfMax (s.rd.px.lane a.toNat i) (s.rd.px.lane b.toNat i)), (Instr.sat d a, fun i => halfSat (s.rd.px.lane a.toNat i)), (Instr.swz d a imm, fun i => s.rd.px.lane a.toNat (imm.toNat / 4 ^ i % 4)), (Instr.constOp d imm, fun x => halfOfQuot (((imm.toNat : Nat) : Int)) 32767), (Instr.rcp d a, fun i => halfRcp (s.rd.px.lane a.toNat i))]) ∧
    (∃ (s : State),
      s.rd.px.ended = false) ∧
    (∃ (a : BitVec 3) (s : State),
      s.rd.px.ended = false) ∧
    (∃ (d : BitVec 3) (a : BitVec 3) (e : TexSlot) (c : List Nat) (s : State),
      s.rd.px.ended = false ∧
      s.rd.px.regs.length = 8 ∧
      alGet s.rd.tex s.rd.px.tex = some e ∧
      s.texel s.rd.px.tile s.rd.px.tex (texCoord (s.rd.px.lane a.toNat 0) e.log2w) (texCoord (s.rd.px.lane a.toNat 1) e.log2h) = some c) ∧
    (∃ (d : BitVec 3) (a : BitVec 3) (s : State),
      s.rd.px.ended = false ∧
      s.rd.px.regs.length = 8 ∧
      alGet s.rd.tex s.rd.px.tex = none) ∧
    (∃ (c : Instr) (d : BitVec 3) (a : BitVec 3) (b : BitVec 3) (imm : BitVec 15) (s : State),
      s.rd.px.ended = true ∧
      c ∈ [Instr.endOp, Instr.mov d a, Instr.addOp d a b, Instr.mulOp d a b, Instr.mad d a b, Instr.minOp d a b, Instr.maxOp d a b, Instr.sat d a, Instr.swz d a imm, Instr.constOp d imm, Instr.tex d a, Instr.kill a, Instr.rcp d a]) :=
  ⟨by refine ⟨.mov 0 0, 0, 0, 0, 0, fun i => run.rd.px.lane 0 i, (run), ?_, ?_, (by simp)⟩ <;> decide,
  ⟨(run), by decide⟩,
  ⟨0, (run), by decide⟩,
  by refine ⟨0, 0, { fmt := 1, log2w := 2, log2h := 2, part := 0, off := 0 }, [0, 0, 0, 0], ((tiled 7 (slotOp 1 0) [] |>.modRd fun x => { x with tex := [(0, { fmt := 1, log2w := 2, log2h := 2, part := 0, off := 0 })] })), ?_, ?_, ?_, rfl⟩ <;> decide +kernel,
  ⟨0, 0, (run), by decide⟩,
  by refine ⟨.endOp, 0, 0, 0, 0, ((run |>.modRd fun x => { x with px := { x.px with ended := true } })), ?_, (by simp)⟩ <;> decide⟩

theorem witness_DisplayPort :
    (∃ (s : State),
      s.scanning = true ∧
      s.due Timer.frame = true ∧
      s.rd.readyF = none) ∧
    (∃ (n : Nat) (y : Nat) (s : State),
      s.scanning = true ∧
      s.due Timer.line = true ∧
      n = s.rd.line ∧
      y = s.reg R.rdDsiVVsa + s.reg R.rdDsiVVbp) ∧
    (∃ (n : Nat) (y : Nat) (b : Nat) (s : State),
      s.scanning = true ∧
      s.due Timer.line = true ∧
      n = s.rd.line ∧
      y = s.reg R.rdDsiVVsa + s.reg R.rdDsiVVbp ∧
      y ≤ n ∧
      n < y + s.reg R.rdScreenHM1 + 1 ∧
      s.rd.frontBuf = some b ∧
      s.rd.underruns = []) ∧
    (∃ (u : Bool) (s : State),
      s.scanning = false) ∧
    (∃ (s : State),
      s.domOn 8 = true ∧
      s.flag R.rdStatusVideoOn = false ∧
      s.videoOk = true) ∧
    (∃ (s : State),
      s.domOn 8 = true ∧
      s.flag R.rdStatusVideoOn = false ∧
      s.videoOk = false) ∧
    (∃ (on : Bool) (s : State),
      s.domOn 8 = false) ∧
    (∃ (s : State),
      s.domOn 8 = true ∧
      s.inRun = true ∧
      s.flag R.rdCtrlVideo = false ∧
      s.reg R.rdDcsHdrDt = 5) ∧
    (∃ (s : State),
      s.domOn 8 = true ∧
      s.inRun = true ∧
      s.flag R.rdCtrlVideo = false ∧
      s.reg R.rdDcsHdrDt = 21) ∧
    (∃ (s : State),
      s.domOn 8 = true ∧
      s.inRun = true ∧
      s.flag R.rdCtrlVideo = false ∧
      s.reg R.rdDcsHdrDt = 57 ∧
      s.reg R.rdDcsHdrWc ≤ s.rd.fifo.length) ∧
    (∃ (s : State),
      (s.inRun = false ∨ s.flag R.rdCtrlVideo = true)) :=
  ⟨⟨(run |>.armAt (.frame) 0 |>.modRd (fun x => { x with readyF := none }) |>.setReg R.rdStatusVideoOn 1), by decide⟩,
  by refine ⟨_, _, (run |>.armAt (.line) 0 |>.setReg R.rdStatusVideoOn 1), ?_, ?_, rfl, rfl⟩ <;> decide,
  by refine ⟨_, _, 0, (run |>.armAt (.line) 0 |>.modRd (fun x => { x with frontBuf := some 0 }) |>.modRd (fun x => { x with underruns := [] }) |>.setReg R.rdStatusVideoOn 1 |>.setReg R.rdDsiVVsa 0 |>.setReg R.rdDsiVVbp 0), ?_, ?_, rfl, rfl, ?_⟩ <;> decide +kernel,
  ⟨false, (run), by decide⟩,
  ⟨(run |>.setReg R.rdStatusVideoOn 0), by decide⟩,
  ⟨(run |>.setReg R.rdStatusVideoOn 0 |>.setReg R.rdDsiCfgLanes 0), by decide⟩,
  ⟨false, (run |>.setReg R.pwDomStateOn 0), by decide⟩,
  ⟨(run |>.setReg R.rdCtrlVideo 0 |>.setReg R.rdDcsHdrDt 5), by decide⟩,
  ⟨(run |>.setReg R.rdCtrlVideo 0 |>.setReg R.rdDcsHdrDt 21), by decide⟩,
  ⟨(run |>.setReg R.rdCtrlVideo 0 |>.setReg R.rdDcsHdrDt 57), by decide⟩,
  ⟨(run |>.modKeeper (fun k => { k with mode := .gesso })), by decide⟩⟩

theorem witness_SpanTraining :
    (∃ (n : Nat) (ring : BitVec 16) (chip : BitVec 2) (ps : Bool) (good : Bool) (k : Nat) (s : State),
      s.sideOn n = true ∧
      (s.linkState n = 1 ∨ s.linkState n = 2) ∧
      s.sl.sides.length = 2 ∧
      (k = if good = true ∧ ring.toNat = s.reg R.slRingRingId ∧ s.ringNeighbour n = some (chip.toNat, ofFlag ps) then (s.spanSide n).trainGood + 1 else 0) ∧
      k < 64) ∧
    (∃ (n : Nat) (ring : BitVec 16) (chip : BitVec 2) (ps : Bool) (good : Bool) (k : Nat) (s : State),
      s.sideOn n = true ∧
      (s.linkState n = 1 ∨ s.linkState n = 2) ∧
      s.sl.sides.length = 2 ∧
      (k = if good = true ∧ ring.toNat = s.reg R.slRingRingId ∧ s.ringNeighbour n = some (chip.toNat, ofFlag ps) then (s.spanSide n).trainGood + 1 else 0) ∧
      64 ≤ k ∧
      s.linkState n = 2) ∧
    (∃ (n : Nat) (ring : BitVec 16) (chip : BitVec 2) (ps : Bool) (good : Bool) (k : Nat) (s : State),
      s.sideOn n = true ∧
      (s.linkState n = 1 ∨ s.linkState n = 2) ∧
      s.sl.sides.length = 2 ∧
      (k = if good = true ∧ ring.toNat = s.reg R.slRingRingId ∧ s.ringNeighbour n = some (chip.toNat, ofFlag ps) then (s.spanSide n).trainGood + 1 else 0) ∧
      64 ≤ k ∧
      s.linkState n = 1) ∧
    (∃ (n : Nat) (ring : BitVec 16) (chip : BitVec 2) (ps : Bool) (good : Bool) (s : State),
      (s.sideOn n = false ∨ s.linkState n = 0 ∨ s.linkState n = 3)) ∧
    (∃ (n : Nat) (s : State),
      s.sideOn n = true ∧
      s.linkState n = 1 ∧
      s.due (Timer.trainLimit n) = true) ∧
    (∃ (n : Nat) (f : Instr) (s : State) (v : State),
      s.sideOn n = true ∧
      s.linkState n = 3 ∧
      s.sl.sides.length = 2 ∧
      (f = Instr.trainingRetry n ∧ v = s ∧ s.due (Timer.trainRetry n) = true ∧ (s.spanSide n).heldLost = false ∨ f = Instr.retrain n ∧ v = s.setCmd R.slSCtrlRetrain n ∧ s.flag R.slSCtrlEn n = true)) ∧
    (∃ (n : Nat) (s : State),
      (s.sideOn n = false ∨ s.due (Timer.trainLimit n) = false)) ∧
    (∃ (n : Nat) (s : State),
      (s.sideOn n = false ∨ s.due (Timer.trainRetry n) = false ∨ (s.spanSide n).heldLost = true)) ∧
    (∃ (n : Nat) (s : State),
      s.sideOn n = false) ∧
    (∃ (n : Nat) (s : State),
      s.sideOn n = true ∧
      (s.linkState n ≠ 3 ∨ s.flag R.slSCtrlEn n = false)) ∧
    (∃ (n : Nat) (on : Bool) (s : State),
      s.sideOn n = false) ∧
    (∃ (n : Nat) (s : State),
      s.sideOn n = true ∧
      s.linkState n = 0 ∧
      s.sl.sides.length = 2) ∧
    (∃ (n : Nat) (s : State),
      s.sideOn n = true ∧
      (s.linkState n = 1 ∨ s.linkState n = 3)) ∧
    (∃ (n : Nat) (s : State),
      s.sideOn n = true ∧
      s.linkState n = 2 ∧
      s.sl.sides.length = 2) :=
  ⟨by refine ⟨0, 0, 0, false, false, _, (run |>.setReg R.slSStatusState 1), ?_, ?_, ?_, rfl, ?_⟩ <;> decide,
  by refine ⟨0, 0, 3, true, true, _, ((run |>.setReg R.slSStatusState 2 |>.setReg R.slRingTopo 2 |>.setReg R.slRingNM1 3 |>.modSpan 0 (fun x => { x with trainGood := 63 }))), ?_, ?_, ?_, rfl, ?_⟩ <;> decide +kernel,
  by refine ⟨0, 0, 3, true, true, _, ((run |>.setReg R.slSStatusState 1 |>.setReg R.slRingTopo 2 |>.setReg R.slRingNM1 3 |>.modSpan 0 (fun x => { x with trainGood := 63 }))), ?_, ?_, ?_, rfl, ?_⟩ <;> decide +kernel,
  ⟨0, 0, 0, false, false, (run), by decide⟩,
  ⟨0, (run |>.armAt (.trainLimit 0) 0 |>.setReg R.slSStatusState 1), by decide⟩,
  by refine ⟨0, .trainingRetry 0, ((run |>.setReg R.slSStatusState 3 |>.armAt (.trainRetry 0) 0)), (run |>.setReg R.slSStatusState 3 |>.armAt (.trainRetry 0) 0), ?_, ?_, ?_, (Or.inl ⟨rfl, rfl, by decide +kernel, by decide +kernel⟩)⟩ <;> decide +kernel,
  ⟨0, (run), by decide⟩,
  ⟨0, (run), by decide⟩,
  ⟨2, (run), by decide⟩,
  ⟨0, (run |>.setReg R.slSStatusState 1), by decide⟩,
  ⟨2, false, (run), by decide⟩,
  ⟨0, (run), by decide⟩,
  ⟨0, (run |>.setReg R.slSStatusState 1), by decide⟩,
  ⟨0, (run |>.setReg R.slSStatusState 2), by decide⟩⟩

theorem witness_SpanFrames :
    (∃ (n : Nat) (l : List Byte) (c : Word) (s : State),
      s.linkUp n = true ∧
      n < 2 ∧
      frameOf l c = none) ∧
    (∃ (n : Nat) (l : Word) (c : Word) (s : State),
      s.linkUp n = true ∧
      n < 2 ∧
      shortOf l c = none) ∧
    (∃ (n : Nat) (s : State),
      s.linkUp n = true ∧
      n < 2 ∧
      s.due (Timer.ackIdle n) = true ∧
      (s.spanSide n).ackOwed = true) ∧
    (∃ (n : Nat) (s : State),
      s.linkUp n = true ∧
      n < 2 ∧
      s.due (Timer.ack n) = true) ∧
    (∃ (f : LongFrame) (l : List Byte) (c : Word),
      l = List.take 74 (frameBytes f) ∧
      BitVec.toNat c = leNat (List.drop 74 (frameBytes f)) ∧
      f.lseq < 4096 ∧
      f.ack < 4096 ∧
      f.type < 4 ∧
      f.src < 4 ∧
      f.dst < 4 ∧
      f.qid < 512 ∧
      f.frag < 2048 ∧
      f.iseq < 65536 ∧
      1 ≤ f.cells.length ∧
      f.cells.length ≤ 8) ∧
    (∃ (n : Nat) (l : List Byte) (w : Word) (c : Word) (s : State),
      s.linkUp n = false) ∧
    (∃ (n : Nat) (l : List Byte) (c : Word) (s : State),
      s.linkUp n = true ∧
      s.spanQuiet ∧
      frameOf l c = none) ∧
    (∃ (n : Nat) (d : Nat) (l : List Byte) (c : Word) (f : LongFrame) (s : State),
      s.linkUp n = true ∧
      s.spanQuiet ∧
      frameOf l c = some f ∧
      f.nak = false ∧
      (∀ (e : SentFrame), e ∈ (s.spanSide n).replay → e.frame.lseq ≠ f.ack) ∧
      d = (f.lseq + 4096 - (s.spanSide n).rxNext) % 4096 ∧
      0 < d ∧
      d < 2048) ∧
    (∃ (n : Nat) (d : Nat) (l : List Byte) (c : Word) (f : LongFrame) (s : State),
      s.linkUp n = true ∧
      s.spanQuiet ∧
      frameOf l c = some f ∧
      f.nak = false ∧
      (∀ (e : SentFrame), e ∈ (s.spanSide n).replay → e.frame.lseq ≠ f.ack) ∧
      d = (f.lseq + 4096 - (s.spanSide n).rxNext) % 4096 ∧
      d = 0 ∧
      f.type = 2 ∧
      f.dst = s.chip) ∧
    (∃ (n : Nat) (i : Nat) (w : Nat) (l : Word) (c : Word) (e : SentFrame) (s : State),
      s.linkUp n = true ∧
      s.spanQuiet ∧
      shortOf l c = some w ∧
      bitAt w 24 = false ∧
      (List.findIdx? (fun e => e.frame.lseq == bits w 23 12) (s.spanSide n).replay = some i) ∧
      (s.spanSide n).replay[i]? = some e) ∧
    (∃ (n : Nat) (l : Word) (c : Word) (s : State),
      s.linkUp n = true ∧
      s.spanQuiet ∧
      shortOf l c = none) ∧
    (∃ (n : Nat) (s : State),
      s.linkUp n = true ∧
      s.spanQuiet ∧
      s.due (Timer.ackIdle n) = true ∧
      (s.spanSide n).ackOwed = true) ∧
    (∃ (n : Nat) (e : SentFrame) (r : List SentFrame) (s : State),
      s.linkUp n = true ∧
      s.spanQuiet ∧
      s.due (Timer.ack n) = true ∧
      (s.spanSide n).replay = e :: r ∧
      e.retries < 4) ∧
    (∃ (n : Nat) (e : SentFrame) (r : List SentFrame) (s : State),
      s.linkUp n = true ∧
      s.spanQuiet ∧
      s.due (Timer.ack n) = true ∧
      (s.spanSide n).replay = e :: r ∧
      4 ≤ e.retries) ∧
    (∃ (n : Nat) (s : State),
      s.due (Timer.ackIdle n) = false) ∧
    (∃ (n : Nat) (s : State),
      s.due (Timer.ack n) = false) ∧
    (∃ (k : Nat) (u : Upset) (s : State),
      (s.txOn k = false ∨ s.domOn 9 = false ∨ s.quiesced = true ∨ s.reg R.qmQEpCons (s.txQid k) ≠ 104 ∧ s.reg R.qmQEpCons (s.txQid k) ≠ 105)) ∧
    (∃ (k : Nat) (q : Nat) (n : Nat) (c : Cell) (s : State),
      s.txOn k = true ∧
      s.domOn 9 = true ∧
      s.quiesced = false ∧
      s.spanQuiet ∧
      q = s.txQid k ∧
      (s.reg R.qmQEpCons q = 104 ∨ s.reg R.qmQEpCons q = 105) ∧
      q < 511 ∧
      (s.queue q).cells = [c] ∧
      c.marker = false ∧
      c.eop = true ∧
      (s.binding k).skip = false ∧
      (s.binding k).frag = 0 ∧
      s.txSide k = some n ∧
      s.roomToSend n = true ∧
      s.flag R.slSStatusStopIn n = false ∧
      (s.binding k).general < 1) ∧
    (∃ (k : Nat) (q : Nat) (n : Nat) (c : Cell) (s : State),
      s.txOn k = true ∧
      s.domOn 9 = true ∧
      s.quiesced = false ∧
      s.spanQuiet ∧
      q = s.txQid k ∧
      (s.reg R.qmQEpCons q = 104 ∨ s.reg R.qmQEpCons q = 105) ∧
      q < 511 ∧
      (s.queue q).cells = [c] ∧
      c.marker = false ∧
      c.eop = true ∧
      (s.binding k).skip = false ∧
      (s.binding k).frag = 0 ∧
      s.txSide k = some n ∧
      s.roomToSend n = true ∧
      s.flag R.slSStatusStopIn n = false ∧
      1 ≤ (s.binding k).general ∧
      s.inTurn n k = true ∧
      s.popAllowed (s.reg R.qmQEpCons q) q = true ∧
      (s.queue q).severing = false ∧
      (s.queue q).discard = false ∧
      s.flag R.qmQCfgRetired q = false ∧
      parity 64 (BitVec.toNat c.data) = c.dp ∧
      c.item = cellItem c.data ∧
      s.txToken k = false) :=
  ⟨⟨0, [], 0, (run |>.setReg R.slSStatusState 2), by decide +kernel⟩,
  ⟨0, 0, 0, (run |>.setReg R.slSStatusState 2), by decide +kernel⟩,
  ⟨0, (run |>.armAt (.ackIdle 0) 0 |>.setReg R.slSStatusState 2 |>.modSpan 0 (fun x => { x with ackOwed := true })), by decide +kernel⟩,
  ⟨0, (run |>.armAt (.ack 0) 0 |>.setReg R.slSStatusState 2), by decide +kernel⟩,
  ⟨{ lseq := 4095, ack := 0, nak := false, stop := false, type := 3, src := 0, dst := 0, token := false, last := false, esc := false, qid := 0, frag := 0, iseq := 0, cells := List.replicate 8 0 }, (frameBytes ({ lseq := 4095, ack := 0, nak := false, stop := false, type := 3, src := 0, dst := 0, token := false, last := false, esc := false, qid := 0, frag := 0, iseq := 0, cells := List.replicate 8 0 })).take 74, BitVec.ofNat 32 (leNat ((frameBytes ({ lseq := 4095, ack := 0, nak := false, stop := false, type := 3, src := 0, dst := 0, token := false, last := false, esc := false, qid := 0, frag := 0, iseq := 0, cells := List.replicate 8 0 })).drop 74)), by decide +kernel⟩,
  ⟨0, [], 0, 0, (run), by decide⟩,
  by refine ⟨0, [], 0, (run |>.setReg R.slSStatusState 2), ?_, ⟨by decide, by decide, by intro n; rcases n with _ | _ | n <;> exact ⟨rfl, rfl⟩⟩, ?_⟩ <;> decide,
  by refine ⟨0, 2047, (frameBytes ({ lseq := 2047, ack := 0, nak := false, stop := false, type := 0, src := 0, dst := 0, token := false, last := false, esc := false, qid := 0, frag := 0, iseq := 0, cells := [0] })).take 74, BitVec.ofNat 32 (leNat ((frameBytes ({ lseq := 2047, ack := 0, nak := false, stop := false, type := 0, src := 0, dst := 0, token := false, last := false, esc := false, qid := 0, frag := 0, iseq := 0, cells := [0] })).drop 74)), { lseq := 2047, ack := 0, nak := false, stop := false, type := 0, src := 0, dst := 0, token := false, last := false, esc := false, qid := 0, frag := 0, iseq := 0, cells := [0] }, (run |>.setReg R.slSStatusState 2), ?_, ⟨by decide, by decide, by intro n; rcases n with _ | _ | n <;> exact ⟨rfl, rfl⟩⟩, ?_, ?_, (by first | decide | (intros; simp_all)), ?_⟩ <;> decide +kernel,
  by refine ⟨0, 0, (frameBytes ({ lseq := 0, ack := 0, nak := false, stop := false, type := 2, src := 0, dst := 0, token := false, last := false, esc := false, qid := 0, frag := 0, iseq := 0, cells := [0] })).take 74, BitVec.ofNat 32 (leNat ((frameBytes ({ lseq := 0, ack := 0, nak := false, stop := false, type := 2, src := 0, dst := 0, token := false, last := false, esc := false, qid := 0, frag := 0, iseq := 0, cells := [0] })).drop 74)), { lseq := 0, ack := 0, nak := false, stop := false, type := 2, src := 0, dst := 0, token := false, last := false, esc := false, qid := 0, frag := 0, iseq := 0, cells := [0] }, (run |>.setReg R.slSStatusState 2), ?_, ⟨by decide, by decide, by intro n; rcases n with _ | _ | n <;> exact ⟨rfl, rfl⟩⟩, ?_, ?_, (by first | decide | (intros; simp_all)), ?_⟩ <;> decide +kernel,
  by refine ⟨0, 0, 0, 0, BitVec.ofNat 32 (crc32 [0, 0, 0, 0]), { frame := { lseq := 0, ack := 0, nak := false, stop := false, type := 0, src := 0, dst := 0, token := false, last := false, esc := false, qid := 0, frag := 0, iseq := 0, cells := [] }, retries := 0, at_ := 0 }, (run |>.setReg R.slSStatusState 2 |>.modSpan 0 (fun x => { x with replay := [{ frame := { lseq := 0, ack := 0, nak := false, stop := false, type := 0, src := 0, dst := 0, token := false, last := false, esc := false, qid := 0, frag := 0, iseq := 0, cells := [] }, retries := 0, at_ := 0 }] })), ?_, ⟨by decide, by decide, by intro n; rcases n with _ | _ | n <;> exact ⟨rfl, rfl⟩⟩, ?_⟩ <;> decide +kernel,
  by refine ⟨0, 0, 0, (run |>.setReg R.slSStatusState 2), ?_, ⟨by decide, by decide, by intro n; rcases n with _ | _ | n <;> exact ⟨rfl, rfl⟩⟩, ?_⟩ <;> decide,
  by refine ⟨0, (run |>.armAt (.ackIdle 0) 0 |>.setReg R.slSStatusState 2 |>.modSpan 0 (fun x => { x with ackOwed := true })), ?_, ⟨by decide, by decide, by intro n; rcases n with _ | _ | n <;> exact ⟨rfl, rfl⟩⟩, ?_⟩ <;> decide,
  by refine ⟨0, { frame := { lseq := 0, ack := 0, nak := false, stop := false, type := 0, src := 0, dst := 0, token := false, last := false, esc := false, qid := 0, frag := 0, iseq := 0, cells := [] }, retries := 3, at_ := 0 }, [], (run |>.armAt (.ack 0) 0 |>.setReg R.slSStatusState 2 |>.modSpan 0 (fun x => { x with replay := [{ frame := { lseq := 0, ack := 0, nak := false, stop := false, type := 0, src := 0, dst := 0, token := false, last := false, esc := false, qid := 0, frag := 0, iseq := 0, cells := [] }, retries := 3, at_ := 0 }] })), ?_, ⟨by decide, by decide, by intro n; rcases n with _ | _ | n <;> exact ⟨rfl, rfl⟩⟩, ?_⟩ <;> decide,
  by refine ⟨0, { frame := { lseq := 0, ack := 0, nak := false, stop := false, type := 0, src := 0, dst := 0, token := false, last := false, esc := false, qid := 0, frag := 0, iseq := 0, cells := [] }, retries := 4, at_ := 0 }, [], (run |>.armAt (.ack 0) 0 |>.setReg R.slSStatusState 2 |>.modSpan 0 (fun x => { x with replay := [{ frame := { lseq := 0, ack := 0, nak := false, stop := false, type := 0, src := 0, dst := 0, token := false, last := false, esc := false, qid := 0, frag := 0, iseq := 0, cells := [] }, retries := 4, at_ := 0 }] })), ?_, ⟨by decide, by decide, by intro n; rcases n with _ | _ | n <;> exact ⟨rfl, rfl⟩⟩, ?_⟩ <;> decide,
  ⟨0, (run), by decide⟩,
  ⟨0, (run), by decide⟩,
  ⟨0, .none, (run), by decide⟩,
  by refine ⟨0, 0, 0, { idx := 7, data := 0, dp := false, eop := true }, ((queued 0 0x10 0x68 [{ idx := 7, data := 0, dp := false, eop := true }] |>.setReg R.slTxEn 1 |>.setReg R.slTxDst 3 |>.setReg R.slSStatusState 2 |>.setReg R.slRingTopo 2 |>.setReg R.slRingNM1 3)), ?_, ?_, ?_, ⟨by decide, by decide, by intro n; rcases n with _ | _ | n <;> exact ⟨rfl, rfl⟩⟩, ?_⟩ <;> decide +kernel,
  by refine ⟨0, 0, 0, { idx := 7, data := 0, dp := false, eop := true }, ((queued 0 0x10 0x68 [{ idx := 7, data := 0, dp := false, eop := true }] |>.setReg R.slTxEn 1 |>.setReg R.slTxDst 3 |>.setReg R.slSStatusState 2 |>.setReg R.slRingTopo 2 |>.setReg R.slRingNM1 3 |>.modBinding 0 (fun b => { b with general := 1 }))), ?_, ?_, ?_, ⟨by decide, by decide, by intro n; rcases n with _ | _ | n <;> exact ⟨rfl, rfl⟩⟩, ?_⟩ <;> decide +kernel⟩

theorem witness_SpanControl :
    (∃ (n : Nat) (f : Instr) (s : State),
      (n, f) ∈ [(1, Instr.credit), (2, Instr.grant), (3, Instr.delivered), (4, Instr.notice)] ∧
      (∀ (e : Nat × Nat × Cell64), s.sl.ctrlIn.head? = some e → bits (BitVec.toNat e.snd.snd) 3 0 ≠ n)) ∧
    (∃ (side : Nat) (src : Nat) (v : Nat) (k : Nat) (c : Cell64) (r : List (Nat × Nat × Cell64)) (s : State),
      s.sl.ctrlIn = (side, src, c) :: r ∧
      v = BitVec.toNat c ∧
      bits v 3 0 = 1 ∧
      s.bindingTo src (bits v 12 4) = some k) ∧
    (∃ (side : Nat) (src : Nat) (v : Nat) (c : Cell64) (r : List (Nat × Nat × Cell64)) (s : State),
      s.sl.ctrlIn = (side, src, c) :: r ∧
      v = BitVec.toNat c ∧
      bits v 3 0 = 1 ∧
      s.bindingTo src (bits v 12 4) = none) ∧
    (∃ (side : Nat) (src : Nat) (v : Nat) (k : Nat) (c : Cell64) (r : List (Nat × Nat × Cell64)) (s : State),
      s.sl.ctrlIn = (side, src, c) :: r ∧
      v = BitVec.toNat c ∧
      bits v 3 0 = 2 ∧
      s.bindingTo src (bits v 12 4) = some k ∧
      (∀ (d : RenderSide), d ∈ s.rd.sides → d.tile < 64)) ∧
    (∃ (side : Nat) (src : Nat) (v : Nat) (x : SpanItem) (c : Cell64) (r : List (Nat × Nat × Cell64)) (s : State),
      s.sl.ctrlIn = (side, src, c) :: r ∧
      v = BitVec.toNat c ∧
      bits v 3 0 = 3 ∧
      (List.find? (fun x => x.dst == src && x.token == bitAt v 4 && x.iseq == bits v 28 5) s.sl.items = some x)) ∧
    (∃ (side : Nat) (src : Nat) (v : Nat) (c : Cell64) (r : List (Nat × Nat × Cell64)) (s : State),
      s.sl.ctrlIn = (side, src, c) :: r ∧
      v = BitVec.toNat c ∧
      bits v 3 0 = 3 ∧
      (List.find? (fun x => x.dst == src && x.token == bitAt v 4 && x.iseq == bits v 28 5) s.sl.items = none)) ∧
    (∃ (side : Nat) (src : Nat) (v : Nat) (link : Nat) (c : Cell64) (r : List (Nat × Nat × Cell64)) (s : State),
      s.sl.ctrlIn = (side, src, c) :: r ∧
      v = BitVec.toNat c ∧
      bits v 3 0 = 4 ∧
      link = s.ringLink (bits v 5 4) (bits v 6 6) ∧
      s.sl.rx = [] ∧
      (∀ (x : SpanItem), x ∈ s.sl.items → ¬link ∈ x.links)) ∧
    (∃ (item : ItemId) (s : State),
      s.due (Timer.deliv item) = true) ∧
    (∃ (item : ItemId) (s : State),
      s.due (Timer.deliv item) = false) :=
  ⟨⟨1, .credit, (run), (by simp), (by first | decide | (intros; simp_all))⟩,
  by refine ⟨0, 0, _, 0, 1, [], (run |>.modSl (fun x => { x with ctrlIn := (0, 0, 1) :: [] }) |>.modSl (fun x => { x with ctrlIn := [(0, 0, 1)] }) |>.setReg R.slTxEn 1), ?_, rfl, ?_⟩ <;> decide,
  by refine ⟨0, 0, _, 1, [], (run |>.modSl (fun x => { x with ctrlIn := (0, 0, 1) :: [] }) |>.modSl (fun x => { x with ctrlIn := [(0, 0, 1)] })), ?_, rfl, ?_⟩ <;> decide,
  by refine ⟨0, 0, _, 0, 2, [], (run |>.modSl (fun x => { x with ctrlIn := (0, 0, 2) :: [] }) |>.modSl (fun x => { x with ctrlIn := [(0, 0, 2)] }) |>.setReg R.slTxEn 1), ?_, rfl, ?_, ?_, (by first | decide | (intros; simp_all))⟩ <;> decide,
  by refine ⟨0, 0, _, { item := 0, dst := 0, token := false, iseq := 0, side := 0, links := [] }, 3, [], ((run |>.modSl (fun x => { x with ctrlIn := [(0, 0, 3)], items := [{ item := 0, dst := 0, token := false, iseq := 0, side := 0, links := [] }] }))), ?_, rfl, ?_⟩ <;> decide,
  by refine ⟨0, 0, _, 3, [], (run |>.modSl (fun x => { x with ctrlIn := (0, 0, 3) :: [] }) |>.modSl (fun x => { x with ctrlIn := [(0, 0, 3)] })), ?_, rfl, ?_⟩ <;> decide,
  by refine ⟨0, 0, _, _, 4, [], (run |>.modSl (fun x => { x with ctrlIn := (0, 0, 4) :: [] }) |>.modSl (fun x => { x with rx := [] }) |>.modSl (fun x => { x with ctrlIn := [(0, 0, 4)] })), ?_, rfl, ?_, rfl, ?_, (by first | decide | (intros; simp_all))⟩ <;> decide,
  ⟨0, (run |>.armAt (.deliv 0) 0), by decide⟩,
  ⟨0, (run), by decide⟩⟩

theorem witness_HostCommands :
    (∃ (c : Fetched) (r : List Fetched) (s : State) (u : State),
      s.hi.fetched = c :: r ∧
      c.op = 1 ∧
      c.zero 5 3 = true ∧
      c.zero 8 56 = true ∧
      u = { s with hi := { s.hi with fetched := r } }) ∧
    (∃ (n : Nat) (f : Instr) (s : State),
      (n, f) ∈ [(1, Instr.nopCmd), (2, Instr.goCmd), (3, Instr.domainCmd), (4, Instr.resetCore true), (4, Instr.resetCore false), (5, Instr.fwStage), (6, Instr.i2cXfer), (7, Instr.alarmSend), (8, Instr.resume)] ∧
      (∀ (c : Fetched), s.hi.fetched.head? = some c → c.op ≠ n)) ∧
    (∃ (n : Nat) (f : Instr) (c : Fetched) (r : List Fetched) (s : State) (u : State),
      (n, f) ∈ [(1, Instr.nopCmd), (2, Instr.goCmd), (3, Instr.domainCmd), (4, Instr.resetCore true), (4, Instr.resetCore false), (8, Instr.resume)] ∧
      s.hi.fetched = c :: r ∧
      c.op = n ∧
      c.zero 5 3 = false ∧
      (n = 3 → s.domServing = false) ∧
      u = { s with hi := { s.hi with fetched := r } }) ∧
    (∃ (c : Fetched) (r : List Fetched) (s : State) (u : State),
      s.hi.fetched = c :: r ∧
      u = { s with hi := { s.hi with fetched := r } } ∧
      (c.op = 0 ∨ 8 < c.op)) ∧
    (∃ (c : Fetched) (r : List Fetched) (s : State) (u : State),
      s.hi.fetched = c :: r ∧
      u = { s with hi := { s.hi with fetched := r } } ∧
      1 ≤ c.op ∧
      c.op ≤ 8) ∧
    (∃ (s : State),
      s.hi.fetched = []) ∧
    (∃ (c : Fetched) (r : List Fetched) (w : Nat) (l : Nat) (s : State),
      s.hi.fetched = c :: r ∧
      c.op = 1 ∧
      c.zero 5 3 = true ∧
      c.zero 8 56 = true ∧
      c.stream = 8 ∧
      streamOf c.item = 8 ∧
      s.ringsUp = true ∧
      w = s.reg R.hiRspWpIndex ∧
      l = s.reg R.hiRspSizeLog2 ∧
      l ≤ 12 ∧
      ringFree (s.reg R.hiRspRpIndex) w l = true ∧
      s.hi.rspWait = [] ∧
      s.hi.dups = [] ∧
      s.reg R.hiCmdCiIndex % 2 ^ s.reg R.hiCmdSizeLog2 = s.reg R.hiCmdPiIndex % 2 ^ s.reg R.hiCmdSizeLog2 ∧
      s.hasEnded c.item = false ∧
      bitAt (s.reg R.lgLogOkStreams) 8 = false) ∧
    (∃ (c : Fetched) (r : List Fetched) (g : GoArgs) (s : State) (u : State),
      s.hi.fetched = c :: r ∧
      c.op = 2 ∧
      c.zero 5 3 = true ∧
      goArgsOk c = true ∧
      g = GoArgs.ofBytes (List.drop 8 c.args) ∧
      u = { s with hi := { s.hi with fetched := r } } ∧
      s.flag R.ppStatusRun = false) ∧
    (∃ (c : Fetched) (r : List Fetched) (g : GoArgs) (s : State) (u : State),
      s.hi.fetched = c :: r ∧
      c.op = 2 ∧
      c.zero 5 3 = true ∧
      goArgsOk c = true ∧
      g = GoArgs.ofBytes (List.drop 8 c.args) ∧
      u = { s with hi := { s.hi with fetched := r } } ∧
      s.flag R.ppStatusRun = true ∧
      s.pp.hostWait = some g.step) ∧
    (∃ (c : Fetched) (r : List Fetched) (g : GoArgs) (s : State) (u : State),
      s.hi.fetched = c :: r ∧
      c.op = 2 ∧
      c.zero 5 3 = true ∧
      goArgsOk c = true ∧
      g = GoArgs.ofBytes (List.drop 8 c.args) ∧
      u = { s with hi := { s.hi with fetched := r } } ∧
      s.flag R.ppStatusRun = true ∧
      s.pp.hostWait ≠ some g.step ∧
      alGet s.pp.hostEnds g.step = some HostEnd.defaults) ∧
    (∃ (c : Fetched) (r : List Fetched) (g : GoArgs) (s : State) (u : State),
      s.hi.fetched = c :: r ∧
      c.op = 2 ∧
      c.zero 5 3 = true ∧
      goArgsOk c = true ∧
      g = GoArgs.ofBytes (List.drop 8 c.args) ∧
      u = { s with hi := { s.hi with fetched := r } } ∧
      s.flag R.ppStatusRun = true ∧
      s.pp.hostWait ≠ some g.step ∧
      alGet s.pp.hostEnds g.step = some HostEnd.go) ∧
    (∃ (c : Fetched) (r : List Fetched) (g : GoArgs) (s : State) (u : State),
      s.hi.fetched = c :: r ∧
      c.op = 2 ∧
      c.zero 5 3 = true ∧
      goArgsOk c = true ∧
      g = GoArgs.ofBytes (List.drop 8 c.args) ∧
      u = { s with hi := { s.hi with fetched := r } } ∧
      s.flag R.ppStatusRun = true ∧
      s.pp.hostWait ≠ some g.step ∧
      alGet s.pp.hostEnds g.step = none ∧
      g.step ≠ s.nextHostStep) ∧
    (∃ (c : Fetched) (r : List Fetched) (g : GoArgs) (s : State) (u : State),
      s.hi.fetched = c :: r ∧
      c.op = 2 ∧
      c.zero 5 3 = true ∧
      goArgsOk c = true ∧
      g = GoArgs.ofBytes (List.drop 8 c.args) ∧
      u = { s with hi := { s.hi with fetched := r } } ∧
      s.flag R.ppStatusRun = true ∧
      s.pp.hostWait ≠ some g.step ∧
      alGet s.pp.hostEnds g.step = none ∧
      g.step = s.nextHostStep ∧
      s.pp.heldGo.isSome = true) ∧
    (∃ (c : Fetched) (r : List Fetched) (g : GoArgs) (s : State) (u : State),
      s.hi.fetched = c :: r ∧
      c.op = 2 ∧
      c.zero 5 3 = true ∧
      goArgsOk c = true ∧
      g = GoArgs.ofBytes (List.drop 8 c.args) ∧
      u = { s with hi := { s.hi with fetched := r } } ∧
      s.flag R.ppStatusRun = true ∧
      s.pp.hostWait ≠ some g.step ∧
      alGet s.pp.hostEnds g.step = none ∧
      g.step = s.nextHostStep ∧
      s.pp.heldGo = none) ∧
    (∃ (c : Fetched) (r : List Fetched) (k : Option Nat) (s : State) (u : State) (v : State),
      s.hi.fetched = c :: r ∧
      c.op = 3 ∧
      c.zero 5 3 = true ∧
      bits (c.num 8 4) 31 10 = 0 ∧
      bits (c.num 8 4) 0 0 = 0 ∧
      c.zero 12 52 = true ∧
      u = { s with hi := { s.hi with fetched := r } } ∧
      s.domServing = false ∧
      u.domCommand c = (k, v)) ∧
    (∃ (s : State),
      s.domServing = true) ∧
    (∃ (m : Bool) (c : Fetched) (r : List Fetched) (s : State) (u : State),
      s.hi.fetched = c :: r ∧
      c.op = 4 ∧
      c.zero 5 3 = true ∧
      c.zero 8 56 = true ∧
      u = { s with hi := { s.hi with fetched := r } }) ∧
    (∃ (c : Fetched) (r : List Fetched) (s : State) (u : State) (k : Nat),
      s.hi.fetched = c :: r ∧
      c.op = 8 ∧
      c.zero 5 3 = true ∧
      c.zero 8 56 = true ∧
      u = { s with hi := { s.hi with fetched := r } } ∧
      s.resumeRefusal = some k) ∧
    (∃ (c : Fetched) (r : List Fetched) (s : State) (u : State),
      s.hi.fetched = c :: r ∧
      c.op = 8 ∧
      c.zero 5 3 = true ∧
      c.zero 8 56 = true ∧
      u = { s with hi := { s.hi with fetched := r } } ∧
      s.resumeRefusal = none) :=
  ⟨by refine ⟨{ stream := 8, item := 0x8000000, op := 1, args := [] }, [], (run |>.modHi (fun x => { x with fetched := ({ stream := 8, item := 0x8000000, op := 1, args := [] }) :: [] })), _, ?_, ?_, ?_, ?_, rfl⟩ <;> decide +kernel,
  ⟨1, .nopCmd, (run), (by simp), (by first | decide | (intros; simp_all))⟩,
  by refine ⟨1, .nopCmd, { stream := 8, item := 0x8000000, op := 1, args := [0, 0, 0, 0, 0, 1] }, [], ((run |>.modHi fun x => { x with fetched := [{ stream := 8, item := 0x8000000, op := 1, args := [0, 0, 0, 0, 0, 1] }] })), _, (by simp), ?_, ?_, ?_, ?_, rfl⟩ <;> decide +kernel,
  by refine ⟨{ stream := 8, item := 0x8000000, op := 255, args := [] }, [], (run |>.modHi (fun x => { x with fetched := ({ stream := 8, item := 0x8000000, op := 255, args := [] }) :: [] })), _, ?_, rfl, ?_⟩ <;> decide,
  by refine ⟨{ stream := 8, item := 0x8000000, op := 1, args := [] }, [], (run |>.modHi (fun x => { x with fetched := ({ stream := 8, item := 0x8000000, op := 1, args := [] }) :: [] })), _, ?_, rfl, ?_⟩ <;> decide,
  ⟨(run |>.modHi (fun x => { x with fetched := [] })), by decide⟩,
  by refine ⟨{ stream := 8, item := 0x8000000, op := 1, args := [] }, [], _, _, (run |>.modHi (fun x => { x with fetched := ({ stream := 8, item := 0x8000000, op := 1, args := [] }) :: [] }) |>.setReg R.hiStatusLinkUp 1 |>.setReg R.hiCtrlRingsEn 1 |>.modHi (fun x => { x with rspWait := [] }) |>.modHi (fun x => { x with dups := [] }) |>.setReg R.hiCtrlRingsEn 1 |>.setReg R.hiRspSizeLog2 12), ?_, ?_, ?_, ?_, ?_, ?_, ?_, rfl, rfl, ?_⟩ <;> decide +kernel,
  by refine ⟨{ stream := 8, item := 0x8000000, op := 2, args := [] }, [], _, ((run |>.modHi (fun x => { x with fetched := [{ stream := 8, item := 0x8000000, op := 2, args := [] }] }))), _, ?_, ?_, ?_, ?_, rfl, rfl, ?_⟩ <;> decide +kernel,
  by refine ⟨{ stream := 8, item := 0x8000000, op := 2, args := [] }, [], _, ((run |>.modHi (fun x => { x with fetched := [{ stream := 8, item := 0x8000000, op := 2, args := [] }] }) |>.setReg R.ppStatusRun 1 |>.modPp (fun x => { x with hostWait := some 0 }))), _, ?_, ?_, ?_, ?_, rfl, rfl, ?_⟩ <;> decide +kernel,
  by refine ⟨{ stream := 8, item := 0x8000000, op := 2, args := [] }, [], _, ((run |>.modHi (fun x => { x with fetched := [{ stream := 8, item := 0x8000000, op := 2, args := [] }] }) |>.setReg R.ppStatusRun 1 |>.modPp (fun x => { x with hostEnds := [(0, .defaults)] }))), _, ?_, ?_, ?_, ?_, rfl, rfl, ?_⟩ <;> decide +kernel,
  by refine ⟨{ stream := 8, item := 0x8000000, op := 2, args := [] }, [], _, ((run |>.modHi (fun x => { x with fetched := [{ stream := 8, item := 0x8000000, op := 2, args := [] }] }) |>.setReg R.ppStatusRun 1 |>.modPp (fun x => { x with hostEnds := [(0, .go)] }))), _, ?_, ?_, ?_, ?_, rfl, rfl, ?_⟩ <;> decide +kernel,
  by refine ⟨{ stream := 8, item := 0x8000000, op := 2, args := [0, 0, 0, 0, 0, 0, 0, 0, 1] }, [], _, ((run |>.modHi (fun x => { x with fetched := [{ stream := 8, item := 0x8000000, op := 2, args := [0, 0, 0, 0, 0, 0, 0, 0, 1] }] }) |>.setReg R.ppStatusRun 1)), _, ?_, ?_, ?_, ?_, rfl, rfl, ?_⟩ <;> decide +kernel,
  by refine ⟨{ stream := 8, item := 0x8000000, op := 2, args := [] }, [], _, ((run |>.modHi (fun x => { x with fetched := [{ stream := 8, item := 0x8000000, op := 2, args := [] }] }) |>.setReg R.ppStatusRun 1 |>.modPp (fun x => { x with heldGo := some ({}, 0) }))), _, ?_, ?_, ?_, ?_, rfl, rfl, ?_⟩ <;> decide +kernel,
  by refine ⟨{ stream := 8, item := 0x8000000, op := 2, args := [] }, [], _, ((run |>.modHi (fun x => { x with fetched := [{ stream := 8, item := 0x8000000, op := 2, args := [] }] }) |>.setReg R.ppStatusRun 1)), _, ?_, ?_, ?_, ?_, rfl, rfl, ?_⟩ <;> decide +kernel,
  by refine ⟨{ stream := 8, item := 0x8000000, op := 3, args := [] }, [], _, ((run |>.modHi fun x => { x with fetched := [{ stream := 8, item := 0x8000000, op := 3, args := [] }] })), _, _, ?_, ?_, ?_, ?_, ?_, ?_, rfl, ?_, ((Prod.eta _).symm)⟩ <;> decide +kernel,
  ⟨((run |>.modKeeper (fun k => { k with domWork := [9] }))), by decide⟩,
  by refine ⟨false, { stream := 8, item := 0x8000000, op := 4, args := [] }, [], (run |>.modHi (fun x => { x with fetched := ({ stream := 8, item := 0x8000000, op := 4, args := [] }) :: [] })), _, ?_, ?_, ?_, ?_, rfl⟩ <;> decide +kernel,
  by refine ⟨{ stream := 8, item := 0x8000000, op := 8, args := [] }, [], (run |>.modHi (fun x => { x with fetched := ({ stream := 8, item := 0x8000000, op := 8, args := [] }) :: [] })), _, 0, ?_, ?_, ?_, ?_, rfl, ?_⟩ <;> decide +kernel,
  by refine ⟨{ stream := 8, item := 0x8000000, op := 8, args := [] }, [], (run |>.modHi (fun x => { x with fetched := ({ stream := 8, item := 0x8000000, op := 8, args := [] }) :: [] }) |>.modKeeper (fun k => { k with mode := .gesso }) |>.setReg R.pwHbCode 6), _, ?_, ?_, ?_, ?_, rfl, ?_⟩ <;> decide +kernel⟩

theorem witness_BackgroundCommands :
    (∃ (s : State),
      8 ≤ s.background) ∧
    (∃ (c : Fetched) (r : List Fetched) (item : ItemId) (s : State),
      s.background < 8 ∧
      s.hi.fetched = c :: r ∧
      c.op = 5 ∧
      c.zero 5 3 = true ∧
      c.zero 20 44 = true ∧
      0 < c.num 16 4 ∧
      s.extOk (c.num 8 8) (c.num 16 4) = true ∧
      item = s.nextItem 0) ∧
    (∃ (c : Fetched) (r : List Fetched) (s : State) (u : State),
      s.background < 8 ∧
      s.hi.fetched = c :: r ∧
      c.op = 5 ∧
      c.zero 5 3 = true ∧
      u = { s with hi := { s.hi with fetched := r } } ∧
      (c.zero 20 44 = false ∨ c.num 16 4 = 0 ∨ s.extOk (c.num 8 8) (c.num 16 4) = false)) ∧
    (∃ (s : State),
      s.hi.fwLoads = []) ∧
    (∃ (l : FwLoad) (r : List FwLoad) (i : Nat) (img : List Byte) (s : State),
      s.hi.fwLoads = l :: r ∧
      l.begun = false ∧
      img = s.image (l.cmd.num 8 8) (l.cmd.num 16 4) ∧
      i = s.fwTarget) ∧
    (∃ (l : FwLoad) (r : List FwLoad) (i : Nat) (img : List Byte) (s : State) (k : Nat),
      s.hi.fwLoads = l :: r ∧
      l.begun = false ∧
      img = s.image (l.cmd.num 8 8) (l.cmd.num 16 4) ∧
      i = s.fwTarget ∧
      s.fwCheck img (hasTrailer img) = some k) ∧
    (∃ (l : FwLoad) (r : List FwLoad) (s : State) (u : State),
      s.hi.fwLoads = l :: r ∧
      u = { s with hi := { s.hi with fwLoads := r } } ∧
      l.check = none) ∧
    (∃ (l : FwLoad) (r : List FwLoad) (s : State) (u : State) (k : Nat),
      s.hi.fwLoads = l :: r ∧
      u = { s with hi := { s.hi with fwLoads := r } } ∧
      l.check = some k) ∧
    (∃ (c : Fetched) (r : List Fetched) (bus : Nat) (s : State),
      s.background < 8 ∧
      s.hi.fetched = c :: r ∧
      c.op = 6 ∧
      c.zero 5 3 = true ∧
      i2cArgsOk c = true ∧
      bus = bits (c.num 8 4) 0 0 ∧
      (∀ (t : Transfer), t ∈ s.hi.transfers → t.bus ≠ bus)) ∧
    (∃ (c : Fetched) (r : List Fetched) (s : State) (u : State),
      s.background < 8 ∧
      s.hi.fetched = c :: r ∧
      c.op = 6 ∧
      c.zero 5 3 = true ∧
      u = { s with hi := { s.hi with fetched := r } } ∧
      i2cArgsOk c = false) ∧
    (∃ (bus : Nat) (nack : Option Nat) (data : List Byte) (s : State),
      (∀ (t : Transfer), t ∈ s.hi.transfers → t.bus ≠ bus)) ∧
    (∃ (bus : Nat) (p : List Transfer) (r : List Transfer) (x : Transfer) (s : State) (u : State) (n : Nat) (data : List Byte),
      s.hi.transfers = p ++ x :: r ∧
      (∀ (y : Transfer), y ∈ p → y.bus ≠ bus) ∧
      x.bus = bus ∧
      x.started = true ∧
      u = { s with hi := { s.hi with transfers := p ++ r } }) ∧
    (∃ (bus : Nat) (p : List Transfer) (r : List Transfer) (x : Transfer) (s : State) (u : State) (data : List Byte),
      s.hi.transfers = p ++ x :: r ∧
      (∀ (y : Transfer), y ∈ p → y.bus ≠ bus) ∧
      x.bus = bus ∧
      x.started = true ∧
      u = { s with hi := { s.hi with transfers := p ++ r } } ∧
      data.length = bits (x.cmd.num 8 4) 19 16) ∧
    (∃ (bus : Nat) (p : List Transfer) (r : List Transfer) (x : Transfer) (s : State) (u : State) (data : List Byte),
      s.hi.transfers = p ++ x :: r ∧
      (∀ (y : Transfer), y ∈ p → y.bus ≠ bus) ∧
      x.bus = bus ∧
      x.started = true ∧
      u = { s with hi := { s.hi with transfers := p ++ r } } ∧
      data.length ≠ bits (x.cmd.num 8 4) 19 16) ∧
    (∃ (c : Fetched) (r : List Fetched) (n : Nat) (s : State) (u : State),
      s.background < 8 ∧
      s.hi.fetched = c :: r ∧
      c.op = 7 ∧
      c.zero 5 3 = true ∧
      u = { s with hi := { s.hi with fetched := r } } ∧
      n = c.num 8 1 ∧
      (c.zero 9 3 = false ∨ n = 0 ∨ 52 < n ∨ (bytesAt c.args 12 n).all sentenceChar = false)) ∧
    (∃ (c : Fetched) (r : List Fetched) (n : Nat) (s : State) (u : State),
      s.background < 8 ∧
      s.hi.fetched = c :: r ∧
      c.op = 7 ∧
      c.zero 5 3 = true ∧
      u = { s with hi := { s.hi with fetched := r } } ∧
      n = c.num 8 1 ∧
      c.zero 9 3 = true ∧
      1 ≤ n ∧
      n ≤ 52 ∧
      (bytesAt c.args 12 n).all sentenceChar = true ∧
      s.flag R.hiAlarmEn = false) ∧
    (∃ (c : Fetched) (r : List Fetched) (n : Nat) (s : State) (u : State),
      s.background < 8 ∧
      s.hi.fetched = c :: r ∧
      c.op = 7 ∧
      c.zero 5 3 = true ∧
      u = { s with hi := { s.hi with fetched := r } } ∧
      n = c.num 8 1 ∧
      c.zero 9 3 = true ∧
      1 ≤ n ∧
      n ≤ 52 ∧
      (bytesAt c.args 12 n).all sentenceChar = true ∧
      s.flag R.hiAlarmEn = true ∧
      16 ≤ s.hi.alarms.length) ∧
    (∃ (c : Fetched) (r : List Fetched) (n : Nat) (s : State) (u : State),
      s.background < 8 ∧
      s.hi.fetched = c :: r ∧
      c.op = 7 ∧
      c.zero 5 3 = true ∧
      u = { s with hi := { s.hi with fetched := r } } ∧
      n = c.num 8 1 ∧
      c.zero 9 3 = true ∧
      1 ≤ n ∧
      n ≤ 52 ∧
      (bytesAt c.args 12 n).all sentenceChar = true ∧
      s.flag R.hiAlarmEn = true ∧
      s.hi.alarms.length < 16) :=
  ⟨⟨(run |>.modHi (fun x => { x with transfers := List.replicate 8 { cmd := { stream := 8, item := 0x8000000, op := 6, args := [] }, bus := 0, started := true } })), by decide⟩,
  by refine ⟨{ stream := 8, item := 0x8000000, op := 5, args := [0, 0, 0, 0, 0, 0, 0, 0, 0, 0, 0, 0, 0, 0, 0, 0, 1] }, [], _, (run |>.modHi (fun x => { x with fetched := ({ stream := 8, item := 0x8000000, op := 5, args := [0, 0, 0, 0, 0, 0, 0, 0, 0, 0, 0, 0, 0, 0, 0, 0, 1] }) :: [] })), ?_, ?_, ?_, ?_, ?_, ?_, ?_, rfl⟩ <;> decide +kernel,
  by refine ⟨{ stream := 8, item := 0x8000000, op := 5, args := [] }, [], (run |>.modHi (fun x => { x with fetched := ({ stream := 8, item := 0x8000000, op := 5, args := [] }) :: [] })), _, ?_, ?_, ?_, ?_, rfl, ?_⟩ <;> decide +kernel,
  ⟨(run |>.modHi (fun x => { x with fwLoads := [] })), by decide⟩,
  by refine ⟨{ cmd := { stream := 8, item := 0x8000000, op := 5, args := [0, 0, 0, 0, 0, 0, 0, 0, 0, 0, 0, 0, 0, 0, 0, 0, 1] }, item := 0 }, [], _, _, ((({ run with part := { run.part with sbEn := true } } : State) |>.modHi (fun x => { x with fwLoads := [{ cmd := { stream := 8, item := 0x8000000, op := 5, args := [0, 0, 0, 0, 0, 0, 0, 0, 0, 0, 0, 0, 0, 0, 0, 0, 1] }, item := 0 }] }))), ?_, ?_, rfl, rfl⟩ <;> decide +kernel,
  by refine ⟨{ cmd := { stream := 8, item := 0x8000000, op := 5, args := [0, 0, 0, 0, 0, 0, 0, 0, 0, 0, 0, 0, 0, 0, 0, 0, 1] }, item := 0 }, [], _, _, ((({ run with part := { run.part with sbEn := true } } : State) |>.modHi (fun x => { x with fwLoads := [{ cmd := { stream := 8, item := 0x8000000, op := 5, args := [0, 0, 0, 0, 0, 0, 0, 0, 0, 0, 0, 0, 0, 0, 0, 0, 1] }, item := 0 }] }))), 4, ?_, ?_, rfl, rfl, ?_⟩ <;> decide +kernel,
  by refine ⟨{ cmd := { stream := 8, item := 0x8000000, op := 5, args := [0, 0, 0, 0, 0, 0, 0, 0, 0, 0, 0, 0, 0, 0, 0, 0, 1] }, item := 0 }, [], ((run |>.modHi (fun x => { x with fwLoads := [{ cmd := { stream := 8, item := 0x8000000, op := 5, args := [0, 0, 0, 0, 0, 0, 0, 0, 0, 0, 0, 0, 0, 0, 0, 0, 1] }, item := 0 }] }))), _, ?_, rfl, ?_⟩ <;> decide +kernel,
  by refine ⟨{ cmd := { stream := 8, item := 0x8000000, op := 5, args := [0, 0, 0, 0, 0, 0, 0, 0, 0, 0, 0, 0, 0, 0, 0, 0, 1] }, item := 0, check := some 4 }, [], ((run |>.modHi (fun x => { x with fwLoads := [{ cmd := { stream := 8, item := 0x8000000, op := 5, args := [0, 0, 0, 0, 0, 0, 0, 0, 0, 0, 0, 0, 0, 0, 0, 0, 1] }, item := 0, check := some 4 }] }))), _, 4, ?_, rfl, ?_⟩ <;> decide +kernel,
  by refine ⟨{ stream := 8, item := 0x8000000, op := 6, args := [] }, [], _, (run |>.modHi (fun x => { x with fetched := ({ stream := 8, item := 0x8000000, op := 6, args := [] }) :: [] })), ?_, ?_, ?_, ?_, ?_, rfl, (by first | decide | (intros; simp_all))⟩ <;> decide +kernel,
  by refine ⟨{ stream := 8, item := 0x8000000, op := 6, args := [0, 0, 0, 0, 0, 0, 0, 0, 0, 41] }, [], (run |>.modHi (fun x => { x with fetched := ({ stream := 8, item := 0x8000000, op := 6, args := [0, 0, 0, 0, 0, 0, 0, 0, 0, 41] }) :: [] })), _, ?_, ?_, ?_, ?_, rfl, ?_⟩ <;> decide +kernel,
  ⟨0, none, [], (run), (by first | decide | (intros; simp_all))⟩,
  by refine ⟨1, [], [], { cmd := { stream := 8, item := 0x8000000, op := 6, args := [0, 0, 0, 0, 0, 0, 0, 0, 0, 0, 8] }, bus := 1, started := true }, ((run |>.modHi (fun y => { y with transfers := [{ cmd := { stream := 8, item := 0x8000000, op := 6, args := [0, 0, 0, 0, 0, 0, 0, 0, 0, 0, 8] }, bus := 1, started := true }] }))), _, 0, [], ?_, (by first | decide | (intros; simp_all)), ?_, ?_, rfl⟩ <;> decide +kernel,
  by refine ⟨1, [], [], { cmd := { stream := 8, item := 0x8000000, op := 6, args := [0, 0, 0, 0, 0, 0, 0, 0, 0, 0, 8] }, bus := 1, started := true }, ((run |>.modHi (fun y => { y with transfers := [{ cmd := { stream := 8, item := 0x8000000, op := 6, args := [0, 0, 0, 0, 0, 0, 0, 0, 0, 0, 8] }, bus := 1, started := true }] }))), _, List.replicate 8 0, ?_, (by first | decide | (intros; simp_all)), ?_, ?_, rfl, ?_⟩ <;> decide +kernel,
  by refine ⟨1, [], [], { cmd := { stream := 8, item := 0x8000000, op := 6, args := [] }, bus := 1, started := true }, ((run |>.modHi (fun y => { y with transfers := [{ cmd := { stream := 8, item := 0x8000000, op := 6, args := [] }, bus := 1, started := true }] }))), _, List.replicate 8 0, ?_, (by first | decide | (intros; simp_all)), ?_, ?_, rfl, ?_⟩ <;> decide +kernel,
  by refine ⟨{ stream := 8, item := 0x8000000, op := 7, args := [0, 0, 0, 0, 0, 0, 0, 0, 53] }, [], _, ((run |>.modHi (fun x => { x with fetched := [{ stream := 8, item := 0x8000000, op := 7, args := [0, 0, 0, 0, 0, 0, 0, 0, 53] }] }))), _, ?_, ?_, ?_, ?_, rfl, rfl, ?_⟩ <;> decide +kernel,
  by refine ⟨{ stream := 8, item := 0x8000000, op := 7, args := [0, 0, 0, 0, 0, 0, 0, 0, 52, 0, 0, 0, 65, 65, 65, 65, 65, 65, 65, 65, 65, 65, 65, 65, 65, 65, 65, 65, 65, 65, 65, 65, 65, 65, 65, 65, 65, 65, 65, 65, 65, 65, 65, 65, 65, 65, 65, 65, 65, 65, 65, 65, 65, 65, 65, 65, 65, 65, 65, 65, 65, 65, 65, 65] }, [], _, ((run |>.modHi (fun x => { x with fetched := [{ stream := 8, item := 0x8000000, op := 7, args := [0, 0, 0, 0, 0, 0, 0, 0, 52, 0, 0, 0, 65, 65, 65, 65, 65, 65, 65, 65, 65, 65, 65, 65, 65, 65, 65, 65, 65, 65, 65, 65, 65, 65, 65, 65, 65, 65, 65, 65, 65, 65, 65, 65, 65, 65, 65, 65, 65, 65, 65, 65, 65, 65, 65, 65, 65, 65, 65, 65, 65, 65, 65, 65] }] }) |>.setReg R.hiAlarmEn 0)), _, ?_, ?_, ?_, ?_, rfl, rfl, ?_⟩ <;> decide +kernel,
  by refine ⟨{ stream := 8, item := 0x8000000, op := 7, args := [0, 0, 0, 0, 0, 0, 0, 0, 52, 0, 0, 0, 65, 65, 65, 65, 65, 65, 65, 65, 65, 65, 65, 65, 65, 65, 65, 65, 65, 65, 65, 65, 65, 65, 65, 65, 65, 65, 65, 65, 65, 65, 65, 65, 65, 65, 65, 65, 65, 65, 65, 65, 65, 65, 65, 65, 65, 65, 65, 65, 65, 65, 65, 65] }, [], _, ((run |>.modHi (fun x => { x with fetched := [{ stream := 8, item := 0x8000000, op := 7, args := [0, 0, 0, 0, 0, 0, 0, 0, 52, 0, 0, 0, 65, 65, 65, 65, 65, 65, 65, 65, 65, 65, 65, 65, 65, 65, 65, 65, 65, 65, 65, 65, 65, 65, 65, 65, 65, 65, 65, 65, 65, 65, 65, 65, 65, 65, 65, 65, 65, 65, 65, 65, 65, 65, 65, 65, 65, 65, 65, 65, 65, 65, 65, 65] }], alarms := List.replicate 16 { kind := 0, text := [] } }) |>.setReg R.hiAlarmEn 1)), _, ?_, ?_, ?_, ?_, rfl, rfl, ?_⟩ <;> decide +kernel,
  by refine ⟨{ stream := 8, item := 0x8000000, op := 7, args := [0, 0, 0, 0, 0, 0, 0, 0, 52, 0, 0, 0, 65, 65, 65, 65, 65, 65, 65, 65, 65, 65, 65, 65, 65, 65, 65, 65, 65, 65, 65, 65, 65, 65, 65, 65, 65, 65, 65, 65, 65, 65, 65, 65, 65, 65, 65, 65, 65, 65, 65, 65, 65, 65, 65, 65, 65, 65, 65, 65, 65, 65, 65, 65] }, [], _, ((run |>.modHi (fun x => { x with fetched := [{ stream := 8, item := 0x8000000, op := 7, args := [0, 0, 0, 0, 0, 0, 0, 0, 52, 0, 0, 0, 65, 65, 65, 65, 65, 65, 65, 65, 65, 65, 65, 65, 65, 65, 65, 65, 65, 65, 65, 65, 65, 65, 65, 65, 65, 65, 65, 65, 65, 65, 65, 65, 65, 65, 65, 65, 65, 65, 65, 65, 65, 65, 65, 65, 65, 65, 65, 65, 65, 65, 65, 65] }] }) |>.setReg R.hiAlarmEn 1)), _, ?_, ?_, ?_, ?_, rfl, rfl, ?_⟩ <;> decide +kernel⟩

theorem witness_RingsReadoutsAndLink :
    (∃ (pi : Word) (slots : List (List Byte)) (on : Bool) (s : State),
      s.pcieUp = false) ∧
    (∃ (c : Fetched) (e : List Byte) (l : Nat) (ci : Nat) (s : State),
      s.ringsUp = true ∧
      s.flag R.lgStatusQuiescing = false ∧
      l = s.reg R.hiCmdSizeLog2 ∧
      1 ≤ l ∧
      l ≤ 12 ∧
      ci = s.reg R.hiCmdCiIndex ∧
      ci = s.reg R.hiCmdPiIndex ∧
      ci < 2 ^ l ∧
      e.length = 64 ∧
      c = { stream := 8, item := BitVec.ofNat 32 (fieldAt e 0 4), op := fieldAt e 4 1, args := e } ∧
      isBackground c.op = false ∧
      streamOf c.item = 8 ∧
      s.hi.win8.classify (seqOf c.item) = SeqClass.fresh) ∧
    (∃ (s : State),
      s.pcieUp = true ∧
      s.hi.rspWait = []) ∧
    (∃ (k : Nat) (u : Upset) (s : State),
      (s.ringsUp = false ∨ s.flag R.hiRdCfgEn k = false ∨ 16 ≤ k ∨ ringFree (s.reg R.hiRdRpIndex k) (s.reg R.hiRdWpIndex k) (s.reg R.hiRdCfgLog2 k) = false)) ∧
    (∃ (k : Nat) (w : Nat) (l : Nat) (q : Nat) (c : Cell) (rest : List Cell) (s : State),
      s.ringsUp = true ∧
      s.flag R.hiRdCfgEn k = true ∧
      k < 16 ∧
      w = s.reg R.hiRdWpIndex k ∧
      l = s.reg R.hiRdCfgLog2 k ∧
      l ≤ 16 ∧
      q = s.reg R.hiRdCfgQid k ∧
      ringFree (s.reg R.hiRdRpIndex k) w l = true ∧
      s.popAllowed 112 q = true ∧
      (s.queue q).severing = false ∧
      (s.queue q).discard = false ∧
      (s.queue q).cells = c :: rest ∧
      c.marker = false ∧
      s.flag R.qmQCfgRetired q = false ∧
      parity 64 (BitVec.toNat c.data) = c.dp) ∧
    (∃ (s : State),
      s.ringsUp = false) ∧
    (∃ (s : State),
      s.ringsUp = true) ∧
    (∃ (g : BitVec 2) (w : BitVec 2) (s : State),
      (s.domOn 1 = false ∨ s.pins.perstN = false ∨ g = 0 ∨ w = 0 ∨ w = 3)) ∧
    (∃ (g : BitVec 2) (w : BitVec 2) (s : State),
      s.domOn 1 = true ∧
      s.pins.perstN = true ∧
      g ≠ 0 ∧
      (w = 1 ∨ w = 2)) ∧
    (∃ (off : Nat) (len : Nat) (w : Option (List Byte)) (s : State),
      s.pcieUp = false) ∧
    (∃ (off : Nat) (len : Nat) (n : Nat) (w : Option (List Byte)) (s : State),
      s.pcieUp = true ∧
      (n = match w with | some d => d.length | none => len) ∧
      (s.domOn 6 = false ∨ s.extOk (s.reg R.hiBar2Base * 268435456 + off) n = false ∨ 268435456 < off + n)) ∧
    (∃ (off : Nat) (len : Nat) (a : Nat) (s : State),
      s.pcieUp = true ∧
      s.domOn 6 = true ∧
      a = s.reg R.hiBar2Base * 268435456 + off ∧
      off + len ≤ 268435456 ∧
      s.extOk a len = true) ∧
    (∃ (off : Nat) (len : Nat) (a : Nat) (d : List Byte) (s : State),
      s.pcieUp = true ∧
      s.domOn 6 = true ∧
      a = s.reg R.hiBar2Base * 268435456 + off ∧
      off + d.length ≤ 268435456 ∧
      s.extOk a d.length = true ∧
      a < 67108864 ∧
      (s.bootIface Iface.pcie = false ∨ s.keeper.mode = Mode.booting)) ∧
    (∃ (off : Nat) (len : Nat) (a : Nat) (d : List Byte) (s : State),
      s.pcieUp = true ∧
      s.domOn 6 = true ∧
      a = s.reg R.hiBar2Base * 268435456 + off ∧
      off + d.length ≤ 268435456 ∧
      s.extOk a d.length = true ∧
      (67108864 ≤ a ∨ s.bootIface Iface.pcie = true ∧ s.keeper.mode ≠ Mode.booting) ∧
      s.hitsInit a d.length = true) ∧
    (∃ (off : Nat) (len : Nat) (a : Nat) (d : List Byte) (s : State),
      s.pcieUp = true ∧
      s.domOn 6 = true ∧
      a = s.reg R.hiBar2Base * 268435456 + off ∧
      off + d.length ≤ 268435456 ∧
      s.extOk a d.length = true ∧
      (67108864 ≤ a ∨ s.bootIface Iface.pcie = true ∧ s.keeper.mode ≠ Mode.booting) ∧
      s.hitsInit a d.length = false ∧
      s.hitsPlan a d.length = true) ∧
    (∃ (off : Nat) (len : Nat) (a : Nat) (d : List Byte) (s : State),
      s.pcieUp = true ∧
      s.domOn 6 = true ∧
      a = s.reg R.hiBar2Base * 268435456 + off ∧
      off + d.length ≤ 268435456 ∧
      s.extOk a d.length = true ∧
      (67108864 ≤ a ∨ s.bootIface Iface.pcie = true ∧ s.keeper.mode ≠ Mode.booting) ∧
      s.hitsInit a d.length = false ∧
      s.hitsPlan a d.length = false) :=
  ⟨⟨0, [], false, (run |>.setReg R.hiStatusLinkUp 0), by decide⟩,
  by refine ⟨_, List.replicate 3 0 ++ 8 :: List.replicate 60 0, _, _, (run |>.setReg R.hiStatusLinkUp 1 |>.setReg R.hiCtrlRingsEn 1 |>.setReg R.lgStatusQuiescing 0 |>.setReg R.hiCtrlRingsEn 1 |>.setReg R.hiCmdSizeLog2 12), ?_, ?_, rfl, ?_, ?_, rfl, rfl, ?_, ?_, rfl, ?_⟩ <;> decide +kernel,
  ⟨(run |>.setReg R.hiStatusLinkUp 1 |>.setReg R.hiCtrlRingsEn 1 |>.modHi (fun x => { x with rspWait := [] })), by decide⟩,
  ⟨0, .none, (run |>.setReg R.hiStatusLinkUp 0), by decide⟩,
  by refine ⟨15, _, _, _, { idx := 7, data := 0, dp := parity 64 (0) }, [], ((queued 0 0x10 0x70 [{ idx := 7, data := 0, dp := parity 64 (0) }] |>.setReg R.hiCtrlRingsEn 1 |>.setReg R.hiRdCfgEn 1 15 |>.setReg R.hiRdCfgLog2 16 15)), ?_, ?_, ?_, rfl, rfl, ?_, rfl, ?_⟩ <;> decide +kernel,
  ⟨(run |>.setReg R.hiStatusLinkUp 0), by decide⟩,
  ⟨(run |>.setReg R.hiStatusLinkUp 1 |>.setReg R.hiCtrlRingsEn 1), by decide⟩,
  ⟨0, 0, (run |>.setReg R.pwDomStateOn 0), by decide⟩,
  ⟨1, 2, (run |>.modPins (fun x => { x with perstN := true })), by decide⟩,
  ⟨0, 0, none, (run |>.setReg R.hiStatusLinkUp 0), by decide⟩,
  by refine ⟨0x10000000, 1, _, none, (run), ?_, rfl, ?_⟩ <;> decide,
  by refine ⟨0, 0, _, (run |>.setReg R.hiStatusLinkUp 1 |>.setReg R.hiCtrlRingsEn 1), ?_, ?_, rfl, ?_⟩ <;> decide,
  by refine ⟨0, 0, _, [], (run |>.setReg R.hiStatusLinkUp 1 |>.setReg R.hiCtrlRingsEn 1), ?_, ?_, rfl, ?_⟩ <;> decide,
  by refine ⟨0x4000000, 0, _, [0], (run |>.setReg R.hiStatusLinkUp 1 |>.setReg R.hiCtrlRingsEn 1 |>.setReg R.cvStatusInitHeld 1 |>.modCv (fun x => { x with initAt := some 0x4000000, inits := [{ tile := 0, part := 0, off := 0, data := [0] }] })), ?_, ?_, rfl, ?_⟩ <;> decide +kernel,
  by refine ⟨0x4000000, 0, _, [0], (run |>.setReg R.hiStatusLinkUp 1 |>.setReg R.hiCtrlRingsEn 1 |>.modPp (fun x => { x with plan := some { addr := 0x4000000, len := 1 } })), ?_, ?_, rfl, ?_⟩ <;> decide +kernel,
  by refine ⟨0x4000000, 0, _, [0], (run |>.setReg R.hiStatusLinkUp 1 |>.setReg R.hiCtrlRingsEn 1), ?_, ?_, rfl, ?_⟩ <;> decide +kernel⟩

theorem witness_SpiTarget :
    (∃ (s : State),
      s.alive = true ∧
      s.reg R.pwHbFault < 2) ∧
    (∃ (s : State) (off : Nat) (n : Nat) (w : List Word),
      s.alive = false) ∧
    (∃ (s : State) (a : Nat) (n : Nat) (d : List Byte) (e : List Byte) (crc : BitVec 16),
      (s.alive = false ∨ s.domOn 1 = false)) ∧
    (∃ (off : Nat) (n : Nat) (s : State),
      s.alive = true ∧
      off + 4 * n ≤ 2 ^ 24 ∧
      (∀ (i : Nat), i < n → off + 4 * i ≠ 5242880 ∧ off + 4 * i ≠ 9437228)) ∧
    (∃ (s : State),
      s.alive = true ∧
      s.devtime < 2 ^ 64) ∧
    (∃ (off : Nat) (w : Word) (s : State),
      off < 2 ^ 24 ∧
      (s.spiServes off = false ∨ off % 4 ≠ 0)) ∧
    (∃ (off : Nat) (v : Nat) (f : Instr) (s : State) (t : State),
      (off, v, f) ∈ [(8388612, 1, Instr.loadCanvas), (8388612, 2, Instr.hangRequest), (8388612, 4, Instr.unstage), (6291460, 2147483648, Instr.poolLowClr), (2097184, 2147483648, Instr.powerPeakClr), (14680064, 1, Instr.video true), (14680064, 0, Instr.video false), (15732736, 1, Instr.spanLinkEnable 0 true), (15736832, 0, Instr.spanLinkEnable 1 false), (4194304, 1, Instr.portEn 0 true), (4198408, 1, Instr.commit 1), (4202504, 2, Instr.cntClr 2), (16252940, 5, Instr.lgFaultAck 5)] ∧
      s.spiServes off = true ∧
      exec (Instr.registerWrite off (BitVec.ofNat 32 v) Iface.spi) s = .next t) ∧
    (∃ (off : Nat) (w : Word) (s : State),
      (off = 6291472 ∨ off = 2097172 ∨ off = 7340032)) ∧
    (∃ (a : Nat) (n : Nat) (s : State),
      s.alive = true ∧
      s.domOn 1 = true ∧
      s.domOn 6 = true ∧
      s.extOk a n = true ∧
      a + n ≤ 2 ^ 32) ∧
    (∃ (a : Nat) (n : Nat) (s : State),
      s.alive = true ∧
      s.domOn 1 = true ∧
      (s.domOn 6 = false ∨ s.extOk a n = false ∨ 2 ^ 32 < a + n)) ∧
    (∃ (a : Nat) (d : List Byte) (s : State),
      s.alive = true ∧
      s.domOn 1 = true ∧
      (d.length % 4 ≠ 0 ∨ s.domOn 6 = false ∨ s.extOk a d.length = false ∨ 2 ^ 32 < a + d.length ∨ a < 67108864 ∧ (s.bootIface Iface.spi = false ∨ s.keeper.mode = Mode.booting))) ∧
    (∃ (a : Nat) (d : List Byte) (s : State),
      s.alive = true ∧
      s.domOn 1 = true ∧
      d.length % 4 = 0 ∧
      s.domOn 6 = true ∧
      s.extOk a d.length = true ∧
      a + d.length ≤ 2 ^ 32 ∧
      (67108864 ≤ a ∨ s.bootIface Iface.spi = true ∧ s.keeper.mode ≠ Mode.booting)) ∧
    (∃ (e : List Byte) (crc : BitVec 16) (s : State),
      s.alive = true ∧
      s.domOn 1 = true ∧
      (e.length ≠ 64 ∨ crc16 e ≠ crc.toNat)) ∧
    (∃ (e : List Byte) (crc : BitVec 16) (s : State),
      s.alive = true ∧
      s.domOn 1 = true ∧
      e.length = 64 ∧
      crc16 e = crc.toNat ∧
      (s.spiQueueFull = true ∨ s.flag R.lgStatusQuiescing = true)) ∧
    (∃ (e : List Byte) (crc : BitVec 16) (s : State) (c : Fetched),
      s.alive = true ∧
      s.domOn 1 = true ∧
      e.length = 64 ∧
      crc16 e = crc.toNat ∧
      s.spiQueueFull = false ∧
      s.flag R.lgStatusQuiescing = false ∧
      c = { stream := 9, item := BitVec.ofNat 32 (fieldAt e 0 4), op := fieldAt e 4 1, args := e } ∧
      streamOf c.item = 9 ∧
      s.hi.win9.classify (seqOf c.item) = SeqClass.fresh) ∧
    (∃ (n : Nat) (c : Nat) (r : List Byte) (l : List (List Byte)) (s : State),
      s.alive = true ∧
      s.domOn 1 = true ∧
      s.hi.spiResp = r :: l ∧
      s.hi.spiWait = [] ∧
      c = crc16 r ∧
      n < 18) ∧
    (∃ (n : Nat) (c : Nat) (r : List Byte) (l : List (List Byte)) (s : State),
      s.alive = true ∧
      s.domOn 1 = true ∧
      s.hi.spiResp = r :: l ∧
      s.hi.spiWait = [] ∧
      c = crc16 r ∧
      18 ≤ n) ∧
    (∃ (n : Nat) (s : State),
      s.alive = true ∧
      s.domOn 1 = true ∧
      s.hi.spiResp = []) :=
  ⟨⟨(run), by decide⟩,
  ⟨(run |>.modKeeper (fun k => { k with mode := .reset })), 0, 0, [], by decide⟩,
  ⟨(run |>.modKeeper (fun k => { k with mode := .reset })), 0, 0, [], [], 0, by decide⟩,
  by refine ⟨0, 0, (run), ?_, ?_, (by first | decide | (intros; simp_all))⟩ <;> decide,
  ⟨(run), by decide⟩,
  ⟨2, 0, (run), by decide⟩,
  by refine ⟨8388612, 1, .loadCanvas, (run), _, (by simp), ?_, rfl⟩ <;> decide,
  ⟨7340032, 0, (run), by decide⟩,
  ⟨0, 0, (run), by decide⟩,
  ⟨2 ^ 32, 1, (run), by decide⟩,
  ⟨0, [0], (run), by decide⟩,
  ⟨0, [], (run), by decide⟩,
  ⟨[], 0, (run), by decide⟩,
  ⟨List.replicate 64 0, BitVec.ofNat 16 (crc16 (List.replicate 64 0)), (run |>.setReg R.lgStatusQuiescing 1), by decide +kernel⟩,
  by refine ⟨List.replicate 3 0 ++ 9 :: List.replicate 60 0, BitVec.ofNat 16 (crc16 (List.replicate 3 0 ++ 9 :: List.replicate 60 0)), (run |>.setReg R.lgStatusQuiescing 0), _, ?_, ?_, ?_, ?_, ?_, ?_, rfl, ?_⟩ <;> decide +kernel,
  by refine ⟨0, _, [], [], (run |>.modHi (fun x => { x with spiResp := [] :: [] }) |>.modHi (fun x => { x with spiWait := [] })), ?_, ?_, ?_, ?_, rfl, ?_⟩ <;> decide,
  by refine ⟨18, _, [], [], (run |>.modHi (fun x => { x with spiResp := [] :: [] }) |>.modHi (fun x => { x with spiWait := [] })), ?_, ?_, ?_, ?_, rfl, ?_⟩ <;> decide +kernel,
  ⟨0, (run |>.modHi (fun x => { x with spiResp := [] })), by decide⟩⟩

theorem witness_AlarmTapAndTrace :
    (∃ (s : State),
      (s.due Timer.alarm = false ∨ s.inRun = false ∧ s.inGesso = false)) ∧
    (∃ (d : Nat) (s : State),
      s.due Timer.alarm = true ∧
      (s.inRun = true ∨ s.inGesso = true) ∧
      alGet s.timers Timer.alarm = some d ∧
      s.flag R.hiAlarmEn = false) ∧
    (∃ (d : Nat) (s : State),
      s.due Timer.alarm = true ∧
      (s.inRun = true ∨ s.inGesso = true) ∧
      alGet s.timers Timer.alarm = some d ∧
      s.flag R.hiAlarmEn = true ∧
      s.hi.alarms = [] ∧
      s.hi.sending = none) ∧
    (∃ (s : State),
      (s.hi.sending = none ∨ s.due Timer.alarmSent = false)) ∧
    (∃ (x : Sentence) (s : State),
      s.hi.sending = some x ∧
      s.due Timer.alarmSent = true) ∧
    (∃ (s : State),
      s.member = Member.q64) ∧
    (∃ (s : State) (f : Instr) (t : State),
      s.pins.resetN = true ∧
      s.inGesso = false ∧
      f ∈ [Instr.extest, Instr.clamp, Instr.highz] ∧
      exec f s = .next t) ∧
    (∃ (s : State) (t : State),
      (s.pins.resetN = false ∨ s.inGesso = true) ∧
      exec Instr.highz s = .next t) ∧
    (∃ (s : State),
      (s.hi.traceDue = [] ∨ s.traceOn = false)) ∧
    (∃ (s : State),
      (s.traceOn = false ∨ s.clockRuns = false ∨ s.devtime < 1000000000 ∨ s.devtime / 1000000000 = s.hi.traceSec ∨ 10000 ≤ s.devtime % 1000000000)) ∧
    (∃ (n : Nat) (ty : Nat) (p : List Byte) (owed : List Byte) (r : List (Nat × List Byte)) (s : State) (b : List Byte),
      s.traceOn = true ∧
      n = min s.hi.trace.length ((s.devtime - s.hi.traceAt) / 8) ∧
      (owed = if s.hi.traceLost = 0 then [] else traceBytes 3 (leBytes 4 s.hi.traceLost)) ∧
      b = List.drop n s.hi.trace ++ (owed ++ traceBytes ty p) ∧
      b.length ≤ 4096 ∧
      s.hi.traceDue = (ty, p) :: r) ∧
    (∃ (n : Nat) (ty : Nat) (p : List Byte) (owed : List Byte) (r : List (Nat × List Byte)) (s : State),
      s.traceOn = true ∧
      n = min s.hi.trace.length ((s.devtime - s.hi.traceAt) / 8) ∧
      (owed = if s.hi.traceLost = 0 then [] else traceBytes 3 (leBytes 4 s.hi.traceLost)) ∧
      4096 < (List.drop n s.hi.trace ++ (owed ++ traceBytes ty p)).length ∧
      s.hi.traceDue = (ty, p) :: r) ∧
    (∃ (n : Nat) (k : Nat) (s : State),
      s.traceOn = true ∧
      s.clockRuns = true ∧
      k = s.devtime / 1000000000 ∧
      0 < k ∧
      k ≠ s.hi.traceSec ∧
      s.devtime % 1000000000 < 10000 ∧
      n = min s.hi.trace.length ((s.devtime - s.hi.traceAt) / 8) ∧
      s.hi.traceLost = 0 ∧
      (List.drop n s.hi.trace).length + 12 ≤ 4096) :=
  ⟨⟨(run), by decide⟩,
  ⟨0, (run |>.armAt (.alarm) 0 |>.setReg R.hiAlarmEn 0), by decide⟩,
  ⟨0, (run |>.armAt (.alarm) 0 |>.setReg R.hiAlarmEn 1 |>.modHi (fun x => { x with alarms := [] }) |>.modHi (fun x => { x with sending := none })), by decide⟩,
  ⟨(run |>.modHi (fun x => { x with sending := none })), by decide⟩,
  ⟨{ kind := 0, text := [] }, ((run |>.modHi (fun x => { x with sending := some { kind := 0, text := [] } }) |>.armAt .alarmSent 0)), by decide⟩,
  ⟨(run), by decide⟩,
  by refine ⟨(run |>.modPins (fun x => { x with resetN := true })), .highz, _, ?_, ?_, (by simp), rfl⟩ <;> decide,
  by refine ⟨(run |>.modPins (fun x => { x with resetN := false })), _, ?_, rfl⟩ <;> decide,
  ⟨(run |>.modHi (fun x => { x with traceDue := [] })), by decide⟩,
  ⟨(run), by decide⟩,
  by refine ⟨_, 0, [], _, [], (run |>.modHi (fun x => { x with traceDue := (0, []) :: [] }) |>.setReg R.hiTraceEn 1), _, ?_, rfl, rfl, rfl, ?_⟩ <;> decide,
  by refine ⟨_, 0, List.replicate 4095 0, _, [], (run |>.modHi (fun x => { x with traceDue := (0, (List.replicate 4095 0)) :: [] }) |>.setReg R.hiTraceEn 1), ?_, rfl, rfl, ?_, rfl⟩ <;> decide +kernel,
  by refine ⟨_, _, (run |>.modHi (fun x => { x with traceLost := 0 }) |>.setReg R.hiTraceEn 1), ?_, ?_, rfl, ?_, ?_, ?_, rfl, ?_⟩ <;> decide⟩

theorem witness_LedgerRecords :
    (∃ (item : ItemId) (b : BitVec 8) (r : BitVec 8) (st : BitVec 8) (f : BitVec 16) (s : State),
      s.alive = false) ∧
    (∃ (item : ItemId) (b : BitVec 8) (r : BitVec 8) (st : BitVec 8) (f : BitVec 16) (s : State),
      s.alive = true ∧
      item ∈ s.lg.ended ∧
      (∀ (h : HeldRecord), h ∈ s.lg.held → h.item ≠ item) ∧
      r ∈ [1, 2, 3, 4, 5, 6, 13, 14, 15, 17, 18, 19, 20]) ∧
    (∃ (item : ItemId) (b : BitVec 8) (s : State),
      s.alive = true ∧
      (¬item ∈ s.lg.ended)) ∧
    (∃ (item : ItemId) (r : BitVec 8) (st : BitVec 8) (f : BitVec 16) (s : State),
      s.alive = true ∧
      (¬item ∈ s.lg.ended) ∧
      (∀ (h : HeldRecord), h ∈ s.lg.held → h.item ≠ item) ∧
      r ∈ [1, 2, 3, 4, 5, 6, 13, 14, 15, 17, 18, 19, 20]) ∧
    (∃ (p : List HeldRecord) (l : List HeldRecord) (h : HeldRecord) (r : BitVec 8) (st : BitVec 8) (f : BitVec 16) (s : State),
      s.alive = true ∧
      s.lg.held = p ++ h :: l ∧
      (∀ (x : HeldRecord), x ∈ p ++ l → x.item ≠ h.item) ∧
      r ∈ [1, 2, 3, 4, 5, 6, 13, 14, 15, 17, 18, 19, 20]) ∧
    (∃ (item : ItemId) (r : BitVec 8) (st : BitVec 8) (f : BitVec 16) (n : Nat) (s : State),
      s.alive = true ∧
      r ∈ [7, 8, 9, 10, 11, 12, 16] ∧
      n = s.reg R.lgHistPosNext ∧
      n < 64 ∧
      s.devtime < 2 ^ 64 ∧
      s.domOn 4 = true ∧
      s.hasQueue 511 = true ∧
      s.reg R.qmQEpProd 511 = 14 ∧
      s.flag R.qmQCfgRetired 511 = false ∧
      s.epServed (s.reg R.qmQEpCons 511) = true ∧
      s.depth 511 + 2 ≤ s.reg R.qmQCfgQuota 511 ∧
      3 ≤ s.freeCells ∧
      (s.queue 511).severing = false ∧
      (s.queue 511).dropPend = false ∧
      (s.queue 511).stalled = none ∧
      s.reg R.fuCtrlCmdQid ≠ 511) ∧
    (∃ (item : ItemId) (r : BitVec 8) (st : BitVec 8) (f : BitVec 16) (s : State),
      (¬r ∈ [1, 2, 3, 4, 5, 6, 13, 14, 15, 17, 18, 19, 20, 7, 8, 9, 10, 11, 12, 16])) ∧
    (∃ (s : State),
      s.clockRuns = true ∧
      (∀ (h : HeldRecord), h ∈ s.lg.held → s.due (Timer.coalesce h.item) = false)) ∧
    (∃ (h : HeldRecord) (s : State),
      s.lg.held = [h] ∧
      (s.due (Timer.coalesce h.item) = true ∨ s.clockRuns = false)) :=
  ⟨⟨0, 0, 0, 0, 0, (run |>.modKeeper (fun k => { k with mode := .reset })), by decide⟩,
  by refine ⟨1, 0, 1, 0, 0, (run |>.modLg (fun l => { l with ended := [1] })), ?_, ?_, (by first | decide | (intros; simp_all)), ?_⟩ <;> decide,
  ⟨0, 0, (run), by decide⟩,
  by refine ⟨0, 20, 0, 0, (run), ?_, ?_, (by first | decide | (intros; simp_all)), ?_⟩ <;> decide,
  by refine ⟨[], [], { item := 5, reason := 1, stage := 0, flags := 0, time := 0 }, 20, 0, 0, ((run |>.modLg (fun l => { l with held := [{ item := 5, reason := 1, stage := 0, flags := 0, time := 0 }] }))), ?_, ?_, (by first | decide | (intros; simp_all)), ?_⟩ <;> decide,
  by refine ⟨0, 16, 0, 0, _, ((queued 511 14 0x70 [])), ?_, ?_, rfl, ?_⟩ <;> decide +kernel,
  ⟨0, 0, 0, 0, (run), by decide⟩,
  by refine ⟨(run), ?_, (by first | decide | (intros; simp_all))⟩ <;> decide,
  ⟨{ item := 5, reason := 1, stage := 0, flags := 0, time := 0 }, ((run |>.modLg (fun l => { l with held := [{ item := 5, reason := 1, stage := 0, flags := 0, time := 0 }] }) |>.armAt (.coalesce 5) 0)), by decide⟩⟩

theorem witness_FaultsAndQuiesce :
    (∃ (e : FaultEntry) (s : State),
      e ∈ s.lg.faults ∧
      e.state = 2) ∧
    (∃ (off : Nat) (bit : Nat) (sev : Nat) (block : Nat) (s : State),
      s.alive = false) ∧
    (∃ (off : Nat) (bit : Nat) (sev : Nat) (block : Nat) (s : State),
      s.alive = true ∧
      s.recentRaises.length < 64 ∧
      s.lg.faults = []) ∧
    (∃ (off : Nat) (bit : Nat) (sev : Nat) (block : Nat) (s : State),
      s.alive = true ∧
      s.recentRaises.length < 64 ∧
      s.lg.faults.length = 8 ∧
      s.stackSound = true ∧
      (∀ (e : FaultEntry), e ∈ s.lg.faults → e.off ≠ off ∨ e.bit ≠ bit)) ∧
    (∃ (off : Nat) (bit : Nat) (sev : Nat) (block : Nat) (s : State),
      s.alive = true ∧
      s.recentRaises.length = 64 ∧
      s.quiesced = false ∧
      s.lg.faults = []) ∧
    (∃ (off : Nat) (bit : Nat) (sev : Nat) (block : Nat) (s : State),
      s.alive = true ∧
      s.recentRaises.length = 64 ∧
      s.quiesced = true ∧
      s.lg.faults = []) ∧
    (∃ (cause : Nat) (reason : Nat) (flags : Nat) (s : State),
      s.quiesced = true) ∧
    (∃ (s : State),
      (∀ (e : FaultEntry), e ∈ s.lg.faults → e.state ≠ 2)) ∧
    (∃ (e : FaultEntry) (s : State),
      s.lg.faults = [e] ∧
      e.state = 2 ∧
      e.sev < 2) ∧
    (∃ (e : FaultEntry) (s : State),
      s.lg.faults = [e] ∧
      e.state = 2 ∧
      2 ≤ e.sev ∧
      s.inRun = true ∧
      e.sev = 2) ∧
    (∃ (e : FaultEntry) (s : State),
      s.lg.faults = [e] ∧
      e.state = 2 ∧
      2 ≤ e.sev ∧
      s.inRun = true ∧
      e.sev = 3) ∧
    (∃ (s : State),
      (s.inRun = false ∨ s.flag R.lgWdEn = false ∨ s.quiesced = true ∨ ∀ (e : ItemId × Nat), e ∈ s.lg.items → s.wdCovers (streamOf e.fst) = true → s.devtime ≤ e.snd + s.scaled (1000000 * s.reg R.lgWdLimitMs))) ∧
    (∃ (p : List (ItemId × Nat)) (l : List (ItemId × Nat)) (e : ItemId × Nat) (s : State),
      s.inRun = true ∧
      s.flag R.lgWdEn = true ∧
      s.quiesced = false ∧
      s.lg.items = p ++ e :: l ∧
      (∀ (x : ItemId × Nat), x ∈ p → s.wdCovers (streamOf x.fst) = false) ∧
      s.wdCovers (streamOf e.fst) = true ∧
      e.snd + s.scaled (1000000 * s.reg R.lgWdLimitMs) < s.devtime) ∧
    (∃ (s : State),
      (s.flag R.lgStatusQuiescing = false ∨ s.reg R.lgStatusCause ≠ 3 ∧ s.due Timer.quiesce = false)) ∧
    (∃ (s : State),
      s.flag R.lgStatusQuiescing = true ∧
      s.reg R.lgStatusCause = 3) ∧
    (∃ (s : State),
      s.flag R.lgStatusQuiescing = true ∧
      s.reg R.lgStatusCause ≠ 3 ∧
      s.due Timer.quiesce = true) :=
  ⟨⟨{ slot := 0, time := 0, off := 0, bit := 0, sev := 1, state := 2, block := 0, rep := 0, order := 0 }, ((run |>.modLg (fun l => { l with faults := [{ slot := 0, time := 0, off := 0, bit := 0, sev := 1, state := 2, block := 0, rep := 0, order := 0 }] }))), by decide⟩,
  ⟨0, 0, 0, 0, (run |>.modKeeper (fun k => { k with mode := .reset })), by decide⟩,
  ⟨0, 0, 0, 0, (run |>.modLg (fun x => { x with faults := [] })), by decide⟩,
  by refine ⟨1, 0, 0, 0, ((run |>.modLg (fun l => { l with faults := (List.range 8).map fun i => { slot := i, time := 0, off := 0, bit := 0, sev := 0, state := 1, block := 0, rep := 0, order := 0 } }))), ?_, ?_, ?_, ?_, (by first | decide | (intros; simp_all))⟩ <;> decide +kernel,
  ⟨0, 0, 0, 0, ((run |>.modLg (fun l => { l with raises := List.replicate 64 5000000000 }))), by decide +kernel⟩,
  ⟨0, 0, 0, 0, ((run |>.setReg R.lgStatusCause 1 |>.modLg (fun l => { l with raises := List.replicate 64 5000000000 }))), by decide +kernel⟩,
  ⟨0, 0, 0, (run |>.setReg R.lgStatusCause 1), by decide⟩,
  ⟨(run), (by first | decide | (intros; simp_all))⟩,
  ⟨{ slot := 0, time := 0, off := 0, bit := 0, sev := 1, state := 2, block := 0, rep := 0, order := 0 }, ((run |>.modLg (fun l => { l with faults := [{ slot := 0, time := 0, off := 0, bit := 0, sev := 1, state := 2, block := 0, rep := 0, order := 0 }] }))), by decide⟩,
  ⟨{ slot := 0, time := 0, off := 0, bit := 0, sev := 2, state := 2, block := 0, rep := 0, order := 0 }, ((run |>.modLg (fun l => { l with faults := [{ slot := 0, time := 0, off := 0, bit := 0, sev := 2, state := 2, block := 0, rep := 0, order := 0 }] }))), by decide⟩,
  ⟨{ slot := 0, time := 0, off := 0, bit := 0, sev := 3, state := 2, block := 0, rep := 0, order := 0 }, ((run |>.modLg (fun l => { l with faults := [{ slot := 0, time := 0, off := 0, bit := 0, sev := 3, state := 2, block := 0, rep := 0, order := 0 }] }))), by decide⟩,
  ⟨(run |>.modKeeper (fun k => { k with mode := .gesso })), by decide⟩,
  by refine ⟨[], [], (0x8000000, 0), ((run |>.setReg R.lgWdEn 1 |>.setReg R.lgWdLimitMs 100 |>.setReg R.lgWdMaskStreams 0x100 |>.modLg (fun l => { l with items := [(0x8000000, 0)] }))), ?_, ?_, ?_, ?_, (by first | decide | (intros; simp_all)), ?_⟩ <;> decide,
  ⟨(run |>.setReg R.lgStatusQuiescing 0), by decide⟩,
  ⟨(run |>.setReg R.lgStatusQuiescing 1 |>.setReg R.lgStatusCause 3), by decide⟩,
  ⟨(run |>.setReg R.lgStatusQuiescing 1 |>.armAt (.quiesce) 0), by decide⟩⟩

theorem witness_AcknowledgementMeetsRepeat :
    (∃ (e : FaultEntry) (sev : Nat) (block : Nat) (mask : BitVec 8) (s : State),
      s.alive = true ∧
      s.stackSound = true ∧
      s.recentRaises.length < 64 ∧
      e ∈ s.lg.faults ∧
      (∀ (x : FaultEntry), x ∈ s.lg.faults → x.off = e.off → x.bit = e.bit → x = e) ∧
      e.state = 3 ∧
      e.sev = 2 ∧
      bitAt mask.toNat e.slot = true) ∧
    (∃ (e : FaultEntry) (mask : BitVec 8) (s : State),
      s.alive = true ∧
      s.stackSound = true ∧
      e ∈ s.lg.faults ∧
      e.state ≠ 3) ∧
    (∃ (mask : BitVec 8) (s : State),
      (∀ (e : FaultEntry), e ∈ s.lg.faults → bitAt mask.toNat e.slot = true → e.state ≠ 3)) :=
  ⟨by refine ⟨{ slot := 7, time := 0, off := 0, bit := 0, sev := 2, state := 3, block := 0, rep := 0, order := 0 }, 0, 0, 0x80, ((run |>.modLg (fun l => { l with faults := [{ slot := 7, time := 0, off := 0, bit := 0, sev := 2, state := 3, block := 0, rep := 0, order := 0 }] }))), ?_, ?_, ?_, ?_, (by first | decide | (intros; simp_all)), ?_⟩ <;> decide,
  ⟨{ slot := 0, time := 0, off := 0, bit := 0, sev := 0, state := 1, block := 0, rep := 0, order := 0 }, 0, ((run |>.modLg (fun l => { l with faults := [{ slot := 0, time := 0, off := 0, bit := 0, sev := 0, state := 1, block := 0, rep := 0, order := 0 }] }))), by decide⟩,
  ⟨0, (run), (by first | decide | (intros; simp_all))⟩⟩

end Sys2Proof.Tests
end

section
/-! The canonical form of the register file and of the byte memories is kept by every step. -/
namespace Sys2Proof.Machine

theorem State.canonical_iff (s : State) : s.canonical = true ↔
    regSorted s.regs = true ∧ s.ext.wf = true ∧ s.tmem.wf = true ∧ s.scratch.wf = true ∧ s.hostMem.wf = true := by
  simp only [State.canonical, Bool.and_eq_true, and_assoc]

/-- A full reset empties tile memory and scratch, leaves one register listed and makes external memory undefined (R69, R86). -/
theorem State.fullReset_canonical {s : State} {cause : Row} (h : s.canonical = true) : (s.fullReset cause).canonical = true := by
  obtain ⟨-, he, -, -, hh⟩ := s.canonical_iff.mp h
  exact (State.canonical_iff _).mpr ⟨rfl, Mem.makeUndef_wf _ _ _ _ he, Mem.empty_wf [], Mem.empty_wf [], hh⟩

/-- The canonical form is a stable property: only the updates of the register file and of the memories touch it, and those keep it. -/
theorem stable_canonical : Stable fun s => s.canonical = true where
  modStore h := h
  modPins h := h
  modDevtime h := h
  modFrac h := h
  modTimers h := h
  modKeeper h := h
  modCv h := h
  modRoles h := h
  modPp h := h
  modMesh h := h
  modPal h := h
  modEi h := h
  modTm h := h
  modSf h := h
  modDeParity h := h
  modXr h := h
  modFu h := h
  modRd h := h
  modSl h := h
  modHi h := h
  modFreeCtr h := h
  modLg _ h := h
  putRegs hl h := by
    obtain ⟨hr, he, ht, hc, hh⟩ := (State.canonical_iff _).mp h
    exact (State.canonical_iff _).mpr ⟨hl hr, he, ht, hc, hh⟩
  modExt hf h := by
    obtain ⟨hr, he, ht, hc, hh⟩ := (State.canonical_iff _).mp h
    exact (State.canonical_iff _).mpr ⟨hr, hf he, ht, hc, hh⟩
  modTmem hf h := by
    obtain ⟨hr, he, ht, hc, hh⟩ := (State.canonical_iff _).mp h
    exact (State.canonical_iff _).mpr ⟨hr, he, hf ht, hc, hh⟩
  modScratch hf h := by
    obtain ⟨hr, he, ht, hc, hh⟩ := (State.canonical_iff _).mp h
    exact (State.canonical_iff _).mpr ⟨hr, he, ht, hf hc, hh⟩
  modHostMem hf h := by
    obtain ⟨hr, he, ht, hc, hh⟩ := (State.canonical_iff _).mp h
    exact (State.canonical_iff _).mpr ⟨hr, he, ht, hc, hf hh⟩
  fullReset h := State.fullReset_canonical h

/-- Settles O4: the canonical form is stable, and the queue's rest does not touch it. -/
theorem everyStepKeepsTheCanonicalForm : Obligations.EveryStepKeepsTheCanonicalForm :=
  fun _ _ hs h => step_next_stable stable_canonical (fun hq => hq) hs h

end Sys2Proof.Machine
end

section
/-! What a host write of one BAR0 word changes: the fields that lie in the word, each by its access code (R7, R8, R425). -/
namespace Sys2Proof.Machine

/-! ## Elements of a row in a word -/

/-- The element that `find` names lies at the offset. -/
theorem Row.find_eq_some {r : Row} {o i j : Nat} (h : r.find o = some (i, j)) :
    i < r.n1 ∧ j < r.n2 ∧ o = r.off + r.s1 * i + r.s2 * j := by
  by_cases hlt : o < r.off
  · simp [Row.find, hlt] at h
  · rw [Row.find, if_neg hlt] at h
    extract_lets d i' e j' at h
    split at h
    · next hc =>
      simp only [Option.some.injEq, Prod.mk.injEq] at h
      obtain ⟨rfl, rfl⟩ := h
      exact ⟨hc.1, hc.2.1, by omega⟩
    · simp at h

/-- The bit address of the element of a row in a word. -/
theorem Row.key_of_find {r : Row} {o i j : Nat} (h : r.find o = some (i, j)) : r.key i j = 8 * o + r.lo := by
  obtain ⟨-, -, ho⟩ := Row.find_eq_some h
  unfold Row.key
  omega

/-! ## No two fields of a block share a bit address -/

/-- The largest offset of a row within the slot of one first index. -/
def Row.slotEnd (r : Row) : Nat := r.off % r.s1 + r.s2 * (r.n2 - 1)

/-- A check that no word holds an element of both rows: one array lies below the other, or inside every slot of their common first
stride, or they differ modulo a second stride that divides every stride. -/
def Row.apart (a b : Row) : Bool :=
  decide (a.off + a.s1 * (a.n1 - 1) + a.s2 * (a.n2 - 1) < b.off) ||
  decide (a.s1 = b.s1 ∧ a.slotEnd < b.off % b.s1 ∧ b.slotEnd < b.s1) ||
  decide (a.s1 % a.s2 = 0 ∧ b.s1 % a.s2 = 0 ∧ b.s2 % a.s2 = 0 ∧ a.off % a.s2 ≠ b.off % a.s2)

/-- Within a slot of its first stride an element lies where its second index puts it. -/
theorem slot_mod {o b s1 m i x : Nat} (ho : o = b + s1 * i + x) (hs : s1 = m) (h : b % m + x < m) : o % m = b % m + x := by
  subst hs
  rw [ho, Nat.add_right_comm, Nat.add_mul_mod_self_left, ← Nat.mod_add_mod, Nat.mod_eq_of_lt h]

theorem Row.not_apart_of_find {a b : Row} {o : Nat} {p q : Nat × Nat} (ha : a.find o = some p) (hb : b.find o = some q) :
    a.apart b = false := by
  obtain ⟨i, j⟩ := p
  obtain ⟨k, l⟩ := q
  obtain ⟨hi, hj, hao⟩ := Row.find_eq_some ha
  obtain ⟨hk, hl, hbo⟩ := Row.find_eq_some hb
  have mul_le_last {s n x : Nat} (hx : x < n) : s * x ≤ s * (n - 1) := Nat.mul_le_mul_left s (by omega)
  have hi' := mul_le_last (s := a.s1) hi
  have hj' := mul_le_last (s := a.s2) hj
  have hl' := mul_le_last (s := b.s2) hl
  simp only [Row.apart, Bool.or_eq_false_iff, decide_eq_false_iff_not, not_and]
  refine ⟨⟨by omega, fun hs h1 h2 => ?_⟩, fun h1 h2 h3 h4 => h4 ?_⟩
  · unfold Row.slotEnd at h1 h2
    have ha1 : o % b.s1 = a.off % b.s1 + a.s2 * j := slot_mod hao hs (by rw [hs] at h1; omega)
    have hb1 : o % b.s1 = b.off % b.s1 + b.s2 * l := slot_mod hbo rfl (by omega)
    rw [hs] at h1
    omega
  · have hra : o % a.s2 = a.off % a.s2 := by
      rw [hao, Nat.add_mul_mod_self_left, Nat.add_mod, Nat.mul_mod, h1]; simp
    have hrb : o % a.s2 = b.off % a.s2 := by
      rw [hbo, Nat.add_mod, Nat.mul_mod, h3, Nat.add_mod b.off, Nat.mul_mod, h2]; simp
    rw [← hra, hrb]

/-- Every two rows of the list lie at different lowest bits, or no word holds both. -/
def lanesApart : List Row → Bool
  | [] => true
  | a :: t => (t.all fun b => decide (a.lo ≠ b.lo) || a.apart b || b.apart a) && lanesApart t

/-- The rows of every block (R478). -/
def blocks : List (List Row) :=
  [[], R.kpRows, R.pcRows, R.pwRows, R.eiRows, R.tmRows, R.qmRows, R.cvRows, R.ppRows, R.sfRows, R.deRows, R.xrRows, R.fuRows,
   R.rdRows, R.slRows, R.lgRows, R.hiRows]

theorem blockRows_mem_blocks (o : Nat) : blockRows o ∈ blocks := by
  unfold blockRows
  repeat' apply iteInduction (motive := (· ∈ blocks)) <;> intro _
  all_goals decide +kernel

theorem blocks_lanesApart : ∀ l ∈ blocks, lanesApart l = true := by decide +kernel

theorem blocks_lo_lt : ∀ l ∈ blocks, ∀ r ∈ l, r.lo < 32 := by decide +kernel

theorem blockRows_lo_lt {o : Nat} {r : Row} (h : r ∈ blockRows o) : r.lo < 32 := blocks_lo_lt _ (blockRows_mem_blocks o) r h

/-- Two rows of a checked list that both have an element in a word lie at different lowest bits of it. -/
theorem lo_ne_of_lanesApart {a b : Row} {t : List Row} {o : Nat} {p q : Nat × Nat} (h : lanesApart (a :: t) = true) (hb : b ∈ t)
    (hao : a.find o = some p) (hbo : b.find o = some q) : a.lo ≠ b.lo := by
  have hab := List.all_eq_true.mp (Bool.and_eq_true_iff.mp h).1 b hb
  simpa [Row.not_apart_of_find hao hbo, Row.not_apart_of_find hbo hao] using hab

theorem lanesApart_tail {a : Row} {t : List Row} (h : lanesApart (a :: t) = true) : lanesApart t = true :=
  (Bool.and_eq_true_iff.mp h).2

/-- One bit address of a block's word belongs to one row. -/
theorem eq_of_lanesApart {l : List Row} {a b : Row} {o : Nat} {p q : Nat × Nat} (h : lanesApart l = true) (ha : a ∈ l)
    (hb : b ∈ l) (hao : a.find o = some p) (hbo : b.find o = some q) (hlo : a.lo = b.lo) : a = b := by
  induction l with
  | nil => simp at ha
  | cons c t ih =>
    rcases List.mem_cons.mp ha with rfl | ha' <;> rcases List.mem_cons.mp hb with rfl | hb'
    · rfl
    · exact absurd hlo (lo_ne_of_lanesApart h hb' hao hbo)
    · exact absurd hlo.symm (lo_ne_of_lanesApart h ha' hbo hao)
    · exact ih (lanesApart_tail h) ha' hb'

/-! ## States that differ in registers alone -/

theorem State.onlyRegs_refl (s : State) (ks : List Nat) : s.onlyRegs s ks := ⟨rfl, fun _ _ _ _ => rfl⟩

theorem State.onlyRegs.trans {s t u : State} {ks : List Nat} (h : s.onlyRegs t ks) (h' : t.onlyRegs u ks) : s.onlyRegs u ks :=
  ⟨by rw [h'.1, h.1], fun r i j hk => (h'.2 r i j hk).trans (h.2 r i j hk)⟩

theorem State.onlyRegs_setReg {s : State} {r : Row} {v i j : Nat} {ks : List Nat} (h : r.key i j ∈ ks) :
    s.onlyRegs (s.setReg r v i j) ks :=
  ⟨rfl, fun _ _ _ hk => s.reg_setReg_ne _ _ _ _ _ _ _ fun he => hk (he ▸ h)⟩

theorem State.onlyRegs_foldl {α : Type} {f : State → α → State} {l : List α} {ks : List Nat}
    (hf : ∀ a ∈ l, ∀ s : State, s.onlyRegs (f s a) ks) (s : State) : s.onlyRegs (l.foldl f s) ks := by
  induction l generalizing s with
  | nil => exact s.onlyRegs_refl ks
  | cons a t ih => exact (hf a (by simp) s).trans (ih (fun b hb => hf b (by simp [hb])) _)

/-! ## One field -/

theorem State.writeField_onlyRegs {s : State} {r : Row} {i j x : Nat} {ks : List Nat}
    (h : r.own = false → r.acc ≠ .ro → r.key i j ∈ ks) : s.onlyRegs (s.writeField r i j x) ks := by
  unfold State.writeField
  split
  · exact s.onlyRegs_refl ks
  · next hn =>
    have hown : r.own = false := by simp at hn; exact hn.1
    split
    · exact s.onlyRegs_refl ks
    · next ha => exact State.onlyRegs_setReg (h hown (by simp [ha]))
    · next ha => exact State.onlyRegs_setReg (h hown (by simp [ha]))
    · next ha => exact State.onlyRegs_setReg (h hown (by simp [ha]))
    · next ha => exact State.onlyRegs_setReg (h hown (by simp [ha]))
    · next ha =>
      split
      · exact State.onlyRegs_setReg (h hown (by simp [ha]))
      · exact s.onlyRegs_refl ks
    · next ha =>
      split
      · exact State.onlyRegs_setReg (h hown (by simp [ha]))
      · exact s.onlyRegs_refl ks

theorem State.writeField_of_not_live {s : State} {r : Row} {i j x : Nat} (h : s.unitLive r.unit i = false) :
    s.writeField r i j x = s := by simp [State.writeField, h]

theorem State.writeField_of_ro {s : State} {r : Row} {i j x : Nat} (h : r.acc = .ro) : s.writeField r i j x = s := by
  simp [State.writeField, h]

section
variable {s : State} {r : Row} {i j x : Nat} (hown : r.own = false) (hlive : s.unitLive r.unit i = true)
include hown hlive

theorem State.reg_writeField_rw (h : r.acc = .rw ∨ r.acc = .wo) : (s.writeField r i j x).reg r i j = x % 2 ^ r.width := by
  rcases h with h | h <;> simp [State.writeField, hown, hlive, h, State.reg_setReg_self]

theorem State.reg_writeField_w1s (h : r.acc = .w1s) :
    (s.writeField r i j x).reg r i j = (s.reg r i j ||| x) % 2 ^ r.width := by
  simp [State.writeField, hown, hlive, h, State.reg_setReg_self]

theorem State.reg_writeField_w1c (h : r.acc = .w1c) :
    (s.writeField r i j x).reg r i j = (s.reg r i j &&& (2 ^ r.width - 1 - x)) % 2 ^ r.width := by
  simp [State.writeField, hown, hlive, h, State.reg_setReg_self]

end

/-! ## Every field of a word -/

/-- The bits of a written word go to the element of one row, where the word holds one. -/
def State.writeRow (o v : Nat) (s : State) (r : Row) : State :=
  match r.find o with
  | some (i, j) => s.writeField r i j (v / 2 ^ r.lo % 2 ^ r.width)
  | none => s

/-- The bits of a written word go to the fields of its block. -/
def State.writeFields (s : State) (o v : Nat) : State := (blockRows o).foldl (State.writeRow o v) s

theorem State.writeRow_of_find {s : State} {r : Row} {o v i j : Nat} (h : r.find o = some (i, j)) :
    s.writeRow o v r = s.writeField r i j (v / 2 ^ r.lo % 2 ^ r.width) := by simp [State.writeRow, h]

theorem State.writeRow_onlyRegs {s : State} {r : Row} {o v : Nat} {ks : List Nat}
    (h : (r.find o).isSome = true → r.own = false → r.acc ≠ .ro → 8 * o + r.lo ∈ ks) : s.onlyRegs (s.writeRow o v r) ks := by
  match hf : r.find o with
  | none => simpa [State.writeRow, hf] using s.onlyRegs_refl ks
  | some (i, j) =>
    rw [State.writeRow_of_find hf]
    exact State.writeField_onlyRegs fun h1 h2 => Row.key_of_find hf ▸ h (by simp [hf]) h1 h2

theorem State.writeFields_onlyRegs {s : State} {o v : Nat} {ks : List Nat}
    (h : ∀ r ∈ blockRows o, (r.find o).isSome = true → r.own = false → r.acc ≠ .ro → 8 * o + r.lo ∈ ks) :
    s.onlyRegs (s.writeFields o v) ks :=
  State.onlyRegs_foldl (fun r hr _ => State.writeRow_onlyRegs (h r hr)) s

theorem State.reg_writeRow_of_lo_ne {s : State} {r b : Row} {o v i j : Nat} (hr : r.find o = some (i, j))
    (h : ∀ p, b.find o = some p → b.lo ≠ r.lo) : (s.writeRow o v b).reg r i j = s.reg r i j := by
  match hf : b.find o with
  | none => simp [State.writeRow, hf]
  | some p =>
    have hks := State.writeRow_onlyRegs (s := s) (r := b) (o := o) (v := v) (ks := [8 * o + b.lo]) (by simp)
    refine hks.2 r i j ?_
    have hlo := h p hf
    rw [Row.key_of_find hr, List.mem_singleton]
    omega

theorem State.reg_writeRows_of_lo_ne {s : State} {r : Row} {o v i j : Nat} {l : List Row} (hr : r.find o = some (i, j))
    (h : ∀ b ∈ l, ∀ p, b.find o = some p → b.lo ≠ r.lo) : (l.foldl (State.writeRow o v) s).reg r i j = s.reg r i j := by
  induction l generalizing s with
  | nil => rfl
  | cons b t ih => exact (ih fun c hc => h c (by simp [hc])).trans (State.reg_writeRow_of_lo_ne hr (h b (by simp)))

/-- A field of a word sees its own write and no other: what it reads after the whole word is what that write leaves, begun where the
field reads as before. -/
theorem State.reg_writeRows {l : List Row} (hl : lanesApart l = true) {r : Row} {o v i j : Nat} (hmem : r ∈ l)
    (hr : r.find o = some (i, j)) (s : State) : ∃ g : List (Nat × Nat), ({ s with regs := g } : State).reg r i j = s.reg r i j ∧
      (l.foldl (State.writeRow o v) s).reg r i j =
        (({ s with regs := g } : State).writeField r i j (v / 2 ^ r.lo % 2 ^ r.width)).reg r i j := by
  induction l generalizing s with
  | nil => simp at hmem
  | cons a t ih =>
    rcases List.mem_cons.mp hmem with rfl | ht
    · refine ⟨s.regs, rfl, (State.reg_writeRows_of_lo_ne hr fun b hb p hp => (lo_ne_of_lanesApart hl hb hr hp).symm).trans ?_⟩
      exact congrArg (State.reg · r i j) (State.writeRow_of_find hr)
    · have hs := (State.writeRow_onlyRegs (s := s) (r := a) (o := o) (v := v) (ks := [8 * o + a.lo]) (by simp)).1
      have ha : (s.writeRow o v a).reg r i j = s.reg r i j := State.reg_writeRow_of_lo_ne hr fun p hp => lo_ne_of_lanesApart hl ht hp hr
      obtain ⟨g, hg, he⟩ := ih (lanesApart_tail hl) ht (s.writeRow o v a)
      rw [hs] at hg he
      refine ⟨g, hg.trans (hs ▸ ha), ?_⟩
      rw [List.foldl_cons, hs]
      exact he

end Sys2Proof.Machine
end

section
/-! A look at the time sources (R208, R210) leaves TM_CTRL alone: the fields it writes, and those that its fault report can write, lie
in other words. -/
namespace Sys2Proof.Machine

/-- A bit address of the word TM_CTRL (R225). -/
def inTmCtrl (k : Nat) : Prop := 8 * 0x500008 ≤ k ∧ k < 8 * 0x50000C

/-- Every field of TM_CTRL reads in t as in s. -/
def State.tmCtrlKept (s t : State) : Prop := ∀ (r : Row) (i j : Nat), inTmCtrl (r.key i j) → t.reg r i j = s.reg r i j

variable {s t : State}

theorem State.tmCtrlKept_refl (s : State) : s.tmCtrlKept s := fun _ _ _ _ => rfl

theorem State.tmCtrlKept.of_regs {t' : State} (h : s.tmCtrlKept t) (he : t'.regs = t.regs) : s.tmCtrlKept t' := fun r i j hk =>
  (show t'.reg r i j = t.reg r i j by unfold State.reg; rw [he]).trans (h r i j hk)

/-- A write above TM_CTRL, or of a field below it, leaves it alone. -/
theorem State.tmCtrlKept.setReg (h : s.tmCtrlKept t) {r : Row} {v i j : Nat}
    (hr : 0x50000C ≤ r.off ∨ r.key i j < 8 * 0x500008) : s.tmCtrlKept (t.setReg r v i j) := fun r' i' j' hk => by
  refine (t.reg_setReg_ne _ _ _ _ _ _ _ fun he => ?_).trans (h r' i' j' hk)
  have hk' := he ▸ hk
  rcases hr with hr | hr
  · have := hk'.2
    simp only [Row.key] at this
    omega
  · exact absurd hk'.1 (by omega)

theorem State.tmCtrlKept.vector (h : s.tmCtrlKept t) {v : Nat} : s.tmCtrlKept (t.vector v) := by
  have hb : s.tmCtrlKept (t.setRegBit R.hiIrqStatusVec v true) := h.setReg (.inl (by decide))
  unfold State.vector
  dsimp only
  split
  · exact hb.of_regs rfl
  · exact hb

theorem State.tmCtrlKept.report (h : s.tmCtrlKept t) {item : ItemId} {a b c : Nat} : s.tmCtrlKept (t.report item a b c) := by
  unfold State.report
  split
  · have hb : s.tmCtrlKept (t.bump R.lgCntCount 3) := h.setReg (.inl (by decide))
    dsimp only
    split
    · exact hb.of_regs rfl
    · exact hb
  · split
    · exact h.setReg (.inl (by decide))
    · exact h.of_regs rfl

theorem State.tmCtrlKept.reportAll (h : s.tmCtrlKept t) {l : List ItemId} {a b c : Nat} :
    s.tmCtrlKept (t.reportAll l a b c) := foldlKeeps (fun _ _ hs => hs.report) l h

theorem State.tmCtrlKept.quiesceReports (h : s.tmCtrlKept t) {a b : Nat} : s.tmCtrlKept (t.quiesceReports a b) := by
  unfold State.quiesceReports
  exact foldlKeeps (fun _ _ hs => hs.report) _
    h.reportAll.reportAll.reportAll.reportAll.reportAll.reportAll.reportAll.reportAll.reportAll

theorem State.tmCtrlKept.startSentence (h : s.tmCtrlKept t) : s.tmCtrlKept t.startSentence := by
  unfold State.startSentence
  split
  · exact h
  · split
    · exact h
    · exact h.of_regs rfl

theorem State.tmCtrlKept.queueSentence (h : s.tmCtrlKept t) {k : Nat} {b : List Byte} {c : Option Fetched} :
    s.tmCtrlKept (t.queueSentence k b c).2 := by
  have hb : s.tmCtrlKept (t.bump R.hiCntCount 10) := h.setReg (.inl (by decide))
  unfold State.queueSentence
  dsimp only
  split
  · exact h
  · split
    · exact (h.of_regs rfl : s.tmCtrlKept (t.modHi _)).startSentence
    · split
      · exact hb.of_regs rfl
      · exact hb

theorem State.tmCtrlKept.alarm (h : s.tmCtrlKept t) {k : String} {v : Nat} : s.tmCtrlKept (t.alarm k v) :=
  (h.setReg (.inl (by decide))).queueSentence

theorem State.tmCtrlKept.setFaultN (h : s.tmCtrlKept t) {b : Bool} : s.tmCtrlKept (t.setFaultN b) :=
  (h.of_regs rfl : s.tmCtrlKept (t.modPins _)).setReg (.inr (by decide))

theorem State.tmCtrlKept.refreshXoff (h : s.tmCtrlKept t) : s.tmCtrlKept t.refreshXoff :=
  (h.setReg (.inr (by decide)) : s.tmCtrlKept (t.setReg R.eiXoffState _)).of_regs rfl

theorem State.tmCtrlKept.stopWork (h : s.tmCtrlKept t) : s.tmCtrlKept t.stopWork := by
  unfold State.stopWork
  extract_lets +onlyGivenNames -merge s1 s2 s3 s4 s5 s6 s7 s8 s9 s10 s11 s12 s13
  have h1 : s.tmCtrlKept s1 := (h.of_regs rfl : s.tmCtrlKept (t.modPal _)).refreshXoff
  have h6 : s.tmCtrlKept s6 := by
    refine h1.of_regs ?_
    simp only [s6, s5, s4, s3, s2, State.modFu_regs, State.modXr_regs, State.modPp_regs, State.modEi_regs, State.modPal_regs,
      State.disarm, State.modTimers_regs]
  have h7 : s.tmCtrlKept s7 := foldlKeeps (fun _ _ hs => hs.setReg (.inl (by decide))) _ h6
  have h8 : s.tmCtrlKept s8 := h7.of_regs rfl
  have h9 : s.tmCtrlKept s9 := (h8.setReg (.inl (by decide))).setReg (.inl (by decide))
  have h11 : s.tmCtrlKept s11 := h9.of_regs rfl
  have h12 : s.tmCtrlKept s12 := (h11.of_regs rfl : s.tmCtrlKept (s11.modMesh _)).setReg (.inl (by decide))
  have h13 : s.tmCtrlKept s13 := h12.setReg (.inl (by decide))
  exact h13.setReg (.inl (by decide))

theorem State.tmCtrlKept.quiesce (h : s.tmCtrlKept t) {a b c : Nat} : s.tmCtrlKept (t.quiesce a b c) := by
  unfold State.quiesce
  split
  · exact h
  · have hq : s.tmCtrlKept ((t.setReg R.lgStatusCause a).setReg R.lgStatusQuiescing 1) :=
      (h.setReg (.inl (by decide))).setReg (.inl (by decide))
    exact (hq.setFaultN.alarm.quiesceReports.stopWork).of_regs (State.modTimers_regs _ _)

theorem State.tmCtrlKept.storm (h : s.tmCtrlKept t) : s.tmCtrlKept t.storm :=
  (h.setReg (.inl (by decide)) : s.tmCtrlKept (t.bump R.lgCntCount 6)).quiesce

theorem State.tmCtrlKept.takeFault (h : s.tmCtrlKept t) : s.tmCtrlKept t.takeFault := by
  unfold State.takeFault
  split
  · exact h
  · exact h.of_regs rfl
  · split
    · exact (h.of_regs rfl : s.tmCtrlKept (t.modLg _)).setReg (.inl (by decide))
    · exact h

theorem State.tmCtrlKept.raise (h : s.tmCtrlKept t) {a b c d : Nat} : s.tmCtrlKept (t.raise a b c d) := by
  unfold State.raise
  extract_lets +onlyGivenNames -merge s1 many s2
  have h1 : s.tmCtrlKept s1 := h.of_regs rfl
  have h2 : s.tmCtrlKept s2 := by
    unfold s2
    split
    · exact h1.setReg (.inl (by decide))
    · exact h1
  clear_value s1 many s2
  split
  · extract_lets +onlyGivenNames -merge s3
    have h3 : s.tmCtrlKept s3 := (h2.of_regs rfl : s.tmCtrlKept (s2.modLg _)).vector
    split
    · exact h3.storm
    · exact h3
  · split
    · exact h2.storm
    · split
      · exact h2.storm
      · exact ((h2.of_regs rfl : s.tmCtrlKept (s2.modLg _)).vector).takeFault

/-! ## The switches of the time sources -/

theorem State.tmCtrlKept.announceTo (h : s.tmCtrlKept t) {b : Bool} {k : Nat} : s.tmCtrlKept (t.announceTo b k) := by
  unfold State.announceTo
  exact (((h.of_regs rfl : s.tmCtrlKept (t.modTm _)).setReg (r := R.tmStatusSwitch) (.inl (by decide))).setReg
    (r := R.tmStatusTarget) (.inl (by decide))).of_regs rfl

theorem State.noteApplied_regs (s : State) : s.noteApplied.regs = s.regs := by
  unfold State.noteApplied
  split <;> rfl

theorem State.tmCtrlKept.reverseSwitch (h : s.tmCtrlKept t) : s.tmCtrlKept t.reverseSwitch := by
  have ha := h.of_regs t.noteApplied_regs
  unfold State.reverseSwitch
  dsimp only
  split
  · exact ha
  · next w _ =>
    have hp : s.tmCtrlKept ((t.noteApplied.setFreq w.corr0).setPhase w.applied) := ha.of_regs rfl
    exact (hp.setReg (r := R.tmStatusSwitch) (v := 3) (i := 0) (j := 0) (.inl (by decide))).of_regs rfl

theorem State.tmCtrlKept.countCancel (h : s.tmCtrlKept t) : s.tmCtrlKept t.countCancel :=
  (h.setReg (.inl (by decide)) : s.tmCtrlKept (t.bump R.tmSwitchesCancels)).raise

theorem State.tmCtrlKept.reviewSources (h : s.tmCtrlKept t) : s.tmCtrlKept t.reviewSources := by
  unfold State.reviewSources
  split
  · split
    · exact h
    · exact h.announceTo
  · split
    · exact h
    · split
      · split
        · exact h.reverseSwitch
        · split
          · exact h
          · exact h.countCancel.announceTo
      · split
        · exact h.countCancel.announceTo
        · split
          · exact h
          · exact h.reverseSwitch

end Sys2Proof.Machine
end

section
/-! REGISTER_WRITE (R7, R8, R425, R438). -/
namespace Sys2Proof.Machine

/-! ## The whole word and what follows it -/

theorem State.reg_refreshXoff_ne {s : State} {r : Row} {i j : Nat} (h : r.key i j ≠ R.eiXoffState.key 0 0) :
    s.refreshXoff.reg r i j = s.reg r i j := s.reg_setReg_ne _ _ _ _ _ _ _ fun he => h he.symm

/-- The parts of a word's write: the fields, GUARD_EN, the marks of an enable that goes off, HOT_DATA and the XOFF levels. -/
theorem State.writeWord_eq (s : State) (o v : Nat) : s.writeWord o v =
    (let a := s.writeFields o v
     let b := if o = 0x100008 ∧ v % 2 = 1 then a.setReg R.pcCtrlGuardEn 1 else a
     let c := if (o = 0x404000 ∨ o = 0x405000) ∧ v % 2 = 0 then b.forgetMarks fun k => k.1 == 5 + o / 0x1000 % 2 else b
     let d := if 0x400000 ≤ o ∧ o < 0x404000 ∧ o % 0x1000 = 0x54 then c.writeHot (o / 0x1000 % 4) v else c
     d.refreshXoff) := rfl

theorem State.writeHot_frame (s : State) (n v : Nat) : s.writeHot n v = { s with ei := (s.writeHot n v).ei } := by
  unfold State.writeHot
  split <;> rfl

theorem State.writeFields_frame (s : State) (o v : Nat) : s.writeFields o v = { s with regs := (s.writeFields o v).regs } :=
  (State.writeFields_onlyRegs (ks := (blockRows o).map fun r => 8 * o + r.lo)
    fun _ hr _ _ _ => List.mem_map_of_mem hr).1

theorem State.writeWord_frame (s : State) (o v : Nat) : s.writeWord o v = { s with
    regs := (s.writeWord o v).regs, ei := (s.writeWord o v).ei, pal := (s.writeWord o v).pal,
    pins := { s.pins with xoff := (s.writeWord o v).pins.xoff } } := by
  rw [State.writeWord_eq]
  extract_lets a b c d
  have ha : a = { s with regs := a.regs } := s.writeFields_frame o v
  have hb : b = { s with regs := b.regs } := by
    unfold b
    split
    · rw [ha]; rfl
    · exact ha
  have hc : c = { s with regs := c.regs, pal := c.pal } := by
    unfold c
    split
    · rw [hb]; rfl
    · rw [hb]
  have hd : d = { s with regs := d.regs, pal := d.pal, ei := d.ei } := by
    unfold d
    split
    · rw [hc, State.writeHot_frame]
    · rw [hc]
  rw [hd]
  rfl

theorem State.reg_writeHot (s : State) (n v : Nat) (r : Row) (i j : Nat) : (s.writeHot n v).reg r i j = s.reg r i j := by
  rw [State.writeHot_frame]
  rfl

/-- Beside the fields of the word a write changes GUARD_EN in PC_CTRL, and EI_XOFF.STATE. -/
theorem State.reg_writeWord_of_ne {s : State} {o v : Nat} {r : Row} {i j : Nat} (hx : r.key i j ≠ R.eiXoffState.key 0 0)
    (hg : o = 0x100008 → r.key i j ≠ R.pcCtrlGuardEn.key 0 0) :
    (s.writeWord o v).reg r i j = (s.writeFields o v).reg r i j := by
  rw [State.writeWord_eq]
  extract_lets a b c d
  have hb : b.reg r i j = a.reg r i j := by
    unfold b
    split
    · next h => exact a.reg_setReg_ne _ _ _ _ _ _ _ fun he => hg h.1 he.symm
    · rfl
  have hc : c.reg r i j = b.reg r i j := by
    unfold c
    split <;> rfl
  have hd : d.reg r i j = c.reg r i j := by
    unfold d
    split
    · exact c.reg_writeHot _ _ _ _ _
    · rfl
  rw [State.reg_refreshXoff_ne hx, hd, hc, hb]

/-- A write of a word that sets nothing else going writes the fields and takes the XOFF levels. -/
theorem State.writeWord_plain {s : State} {o v : Nat} (h1 : o ≠ 0x100008) (h2 : o < 0x400000 ∨ 0x406000 ≤ o) :
    s.writeWord o v = (s.writeFields o v).refreshXoff := by
  rw [State.writeWord_eq]
  simp only [h1, false_and, if_false, show ¬((o = 0x404000 ∨ o = 0x405000) ∧ v % 2 = 0) by omega,
    show ¬(0x400000 ≤ o ∧ o < 0x404000 ∧ o % 0x1000 = 0x54) by omega]

theorem State.flushResponses_of_nil {s : State} {n : Nat} (h : s.hi.rspWait = []) : s.flushResponses n = s := by
  cases n with
  | zero => rfl
  | succ n => simp [State.flushResponses, h]

theorem State.afterWrite_of_nil {s : State} {o v : Nat} (h : s.hi.rspWait = []) : s.afterWrite o v =
    (let a := if o = 0xE00064 && s.domOn 8 then s.modRd fun r => { r with fifo := (r.fifo ++ leBytes 4 v).take 64 } else s
     if o = 0x500008 && a.clockRuns then a.reviewSources else a) := by
  unfold State.afterWrite
  rw [State.flushResponses_of_nil h]

theorem State.afterWrite_frame {s : State} {o v : Nat} (h : s.hi.rspWait = []) (ho : o ≠ 0x500008) :
    s.afterWrite o v = { s with rd := { s.rd with fifo := (s.afterWrite o v).rd.fifo } } := by
  rw [State.afterWrite_of_nil h]
  simp only [ho, decide_false, Bool.false_and, Bool.false_eq_true, if_false]
  split <;> rfl

/-- What a write sets going leaves the registers alone, but for the sources of TM_CTRL, which leave TM_CTRL alone. -/
theorem State.reg_afterWrite {s : State} {o v : Nat} {r : Row} {i j : Nat} (h : s.hi.rspWait = [])
    (ho : o = 0x500008 → inTmCtrl (r.key i j)) : (s.afterWrite o v).reg r i j = s.reg r i j := by
  rw [State.afterWrite_of_nil h]
  extract_lets a
  have ha : a.reg r i j = s.reg r i j := by
    unfold a
    split <;> rfl
  split
  · next hc =>
    have hc' : o = 0x500008 := of_decide_eq_true (Bool.and_eq_true_iff.mp hc).1
    exact ((State.tmCtrlKept_refl a).reviewSources r i j (ho hc')).trans ha
  · exact ha

/-! ## The command -/

/-- A register write as a command, where it reaches its register. -/
theorem exec_registerWrite_reaches {s : State} {o : Nat} {v : Word} {via : Iface} (h : s.writeReaches o via = true) :
    exec (.registerWrite o v via) s = .next ((s.writeWord o v.toNat).afterWrite o v.toNat) := by
  show execRegisterWrite o v via s = _
  simp [execRegisterWrite, h]

theorem exec_registerWrite_misses {s : State} {o : Nat} {v : Word} {via : Iface} (h : s.writeReaches o via = false) :
    exec (.registerWrite o v via) s = .next s := by
  show execRegisterWrite o v via s = _
  simp [execRegisterWrite, h]

section
variable {s : State} {o v : Nat} (hq : s.hi.rspWait = [])
include hq

theorem State.writeWord_rspWait : (s.writeWord o v).hi.rspWait = [] := by rw [State.writeWord_frame]; exact hq

omit hq in
/-- A row of a block that has the bit address of another row's element in its word is that row. -/
theorem eq_of_key_eq {r r' : Row} {i j : Nat} (hal : o % 4 = 0) (hmem : r ∈ blockRows o) (hr : r.find o = some (i, j))
    {p : Nat} (hp : p % 4 = 0) (hmem' : r' ∈ blockRows p) (hr' : r'.find p = some (0, 0)) (he : r.key i j = r'.key 0 0) :
    r = r' := by
  rw [Row.key_of_find hr, Row.key_of_find hr'] at he
  have hlo := blockRows_lo_lt hmem
  have hlo' := blockRows_lo_lt hmem'
  obtain rfl : o = p := by omega
  exact eq_of_lanesApart (blocks_lanesApart _ (blockRows_mem_blocks o)) hmem hmem' hr hr' (by omega)

/-- A field of the word after the command is what its own write leaves. -/
theorem State.reg_registerWrite {r : Row} {i j : Nat} (hal : o % 4 = 0) (hmem : r ∈ blockRows o) (hr : r.find o = some (i, j))
    (hown : r.own = false) (hx : r ≠ R.eiXoffState) : ∃ g : List (Nat × Nat),
      ({ s with regs := g } : State).reg r i j = s.reg r i j ∧ ((s.writeWord o v).afterWrite o v).reg r i j =
        (({ s with regs := g } : State).writeField r i j (v / 2 ^ r.lo % 2 ^ r.width)).reg r i j := by
  have hne : r.key i j ≠ R.eiXoffState.key 0 0 := fun he =>
    hx (eq_of_key_eq hal hmem hr (p := 0x408000) rfl (by decide) (by decide) he)
  have hg : r.key i j ≠ R.pcCtrlGuardEn.key 0 0 := fun he => by
    rw [eq_of_key_eq hal hmem hr (p := 0x100008) rfl (by decide) (by decide) he] at hown
    exact absurd hown (by decide)
  have hctrl : o = 0x500008 → inTmCtrl (r.key i j) := fun ho => by
    have hlo := blockRows_lo_lt hmem
    rw [Row.key_of_find hr, ho]
    exact ⟨by omega, by omega⟩
  obtain ⟨g, hg1, hg2⟩ := State.reg_writeRows (v := v) (blocks_lanesApart _ (blockRows_mem_blocks o)) hmem hr s
  exact ⟨g, hg1, ((State.reg_afterWrite (State.writeWord_rspWait hq) hctrl).trans
    (State.reg_writeWord_of_ne hne fun _ => hg)).trans hg2⟩

/-- A field outside the word keeps its value, but EI_XOFF.STATE and what the sources of TM_CTRL set going. -/
theorem State.reg_registerWrite_out {r : Row} {i j : Nat} (ho : o ≠ 0x500008)
    (hk : r.key i j < 8 * o ∨ 8 * o + 32 ≤ r.key i j) (hx : r.key i j ≠ R.eiXoffState.key 0 0) :
    ((s.writeWord o v).afterWrite o v).reg r i j = s.reg r i j := by
  have hg : o = 0x100008 → r.key i j ≠ R.pcCtrlGuardEn.key 0 0 := fun ho he => by
    have : R.pcCtrlGuardEn.key 0 0 = 8 * 0x100008 := rfl
    omega
  have hw := (State.writeFields_onlyRegs (s := s) (v := v) (ks := (blockRows o).map fun r => 8 * o + r.lo)
    fun _ hr _ _ _ => List.mem_map_of_mem hr).2 r i j fun hmem => by
      obtain ⟨r', hr', he⟩ := List.mem_map.mp hmem
      have := blockRows_lo_lt hr'
      omega
  exact ((State.reg_afterWrite (State.writeWord_rspWait hq) fun h => absurd h ho).trans (State.reg_writeWord_of_ne hx hg)).trans hw

/-- Beside registers a write can change event ports, the marks of queues, the payload FIFO and the XOFF balls. -/
theorem State.registerWrite_frame (ho : o ≠ 0x500008) : (s.writeWord o v).afterWrite o v = { s with
    regs := ((s.writeWord o v).afterWrite o v).regs, ei := ((s.writeWord o v).afterWrite o v).ei,
    pal := ((s.writeWord o v).afterWrite o v).pal,
    rd := { s.rd with fifo := ((s.writeWord o v).afterWrite o v).rd.fifo },
    pins := { s.pins with xoff := ((s.writeWord o v).afterWrite o v).pins.xoff } } := by
  rw [State.afterWrite_frame (State.writeWord_rspWait hq) ho, State.writeWord_frame]

/-- A write of a word that sets nothing else going changes the writable fields of the word and the XOFF levels. -/
theorem State.registerWrite_plain (h1 : o ≠ 0x100008) (h2 : o < 0x400000 ∨ 0x600000 ≤ o) (h3 : o ≠ 0xE00064) {ks : List Nat}
    (hks : ∀ r ∈ blockRows o, (r.find o).isSome = true → r.own = false → r.acc ≠ .ro → 8 * o + r.lo ∈ ks) :
    (s.writeWord o v).afterWrite o v = { s with
      regs := ((s.writeWord o v).afterWrite o v).regs,
      pins := { s.pins with xoff := ((s.writeWord o v).afterWrite o v).pins.xoff } } ∧
    s.regsBut ((s.writeWord o v).afterWrite o v) (ks ++ [R.eiXoffState.key 0 0]) := by
  have he : (s.writeWord o v).afterWrite o v = (s.writeFields o v).refreshXoff := by
    rw [State.afterWrite_of_nil (State.writeWord_rspWait hq), State.writeWord_plain h1 (by omega)]
    simp [h3, show o ≠ 0x500008 by omega]
  rw [he]
  refine ⟨?_, fun r i j hk => ?_⟩
  · rw [State.writeFields_frame]
    rfl
  · simp only [List.mem_append, List.mem_singleton, not_or] at hk
    exact (State.reg_refreshXoff_ne hk.2).trans ((State.writeFields_onlyRegs hks).2 r i j hk.1)

end

theorem State.writeReaches_aligned {s : State} {o : Nat} {via : Iface} (h : s.writeReaches o via = true) : o % 4 = 0 := by
  simp only [State.writeReaches, Bool.and_eq_true, beq_iff_eq] at h
  exact h.1.1

/-- Settles O9: every field of the word sees its own write alone; nothing else set going writes a field of the word. -/
theorem registerWritesFollowTheAccessCodes : Obligations.RegisterWritesFollowTheAccessCodes := by
  refine ⟨fun o v via s h => exec_registerWrite_misses h, fun v via s h hq => ?_, fun v via s h hq => ?_,
    fun o v via s ho h hq => ?_, fun o v via s h hq => ?_⟩
  · obtain ⟨hframe, hregs⟩ := State.registerWrite_plain (o := 0x600010) (v := v.toNat) hq (by decide) (by decide) (by decide)
      (ks := [R.qmScrubPeriod.key 0 0]) (by decide)
    obtain ⟨g, -, hr⟩ := State.reg_registerWrite (v := v.toNat) hq (r := R.qmScrubPeriod) (o := 0x600010) (i := 0) (j := 0)
      rfl (by decide) (by decide) rfl (by decide)
    refine ⟨_, exec_registerWrite_reaches h, ?_, hframe, hregs⟩
    rw [hr, State.reg_writeField_rw rfl rfl (.inl rfl), Nat.mod_mod]
    rfl
  · obtain ⟨hframe, hregs⟩ := State.registerWrite_plain (o := 0x200014) (v := v.toNat) hq (by decide) (by decide) (by decide)
      (ks := [R.pwRailBrown.key 0 0]) (by decide)
    obtain ⟨g, hg, hr⟩ := State.reg_registerWrite (v := v.toNat) hq (r := R.pwRailBrown) (o := 0x200014) (i := 0) (j := 0)
      rfl (by decide) (by decide) rfl (by decide)
    refine ⟨_, exec_registerWrite_reaches h, ?_, hframe, hregs⟩
    rw [hr, State.reg_writeField_w1c rfl rfl rfl, hg]
    rfl
  · refine ⟨_, exec_registerWrite_reaches h, ?_⟩
    rcases ho with rfl | rfl
    · exact State.registerWrite_plain hq (by decide) (by decide) (by decide) (ks := []) (by decide)
    · exact State.registerWrite_plain hq (by decide) (by decide) (by decide) (ks := []) (by decide)
  · refine ⟨_, exec_registerWrite_reaches h, fun r i j hmem hfind hown hx => ?_,
      fun ho => ⟨fun r i j hk hx => State.reg_registerWrite_out hq ho hk hx, State.registerWrite_frame hq ho⟩⟩
    obtain ⟨g, hg, hr⟩ := State.reg_registerWrite (v := v.toNat) hq (State.writeReaches_aligned h) hmem hfind hown hx
    have hunit : ({ s with regs := g } : State).unitLive r.unit i = s.unitLive r.unit i := rfl
    rw [hr, ← hunit]
    refine ⟨fun hlive => ⟨fun ha => ?_, fun ha => ?_, fun ha => ?_⟩, fun ha => ?_⟩
    · rw [State.reg_writeField_rw hown hlive ha, Nat.mod_mod]
    · rw [State.reg_writeField_w1s hown hlive ha, hg]
    · rw [State.reg_writeField_w1c hown hlive ha, hg]
    · rcases ha with ha | ha
      · rw [State.writeField_of_ro ha, hg]
      · rw [State.writeField_of_not_live ha, hg]

end Sys2Proof.Machine
end

section
/-! SCREEN_TILE_DONE names the frame buffer after the contested decisions of the tile have been counted (R384, R385). RD_FB_ADDR has
three elements; the bit address of an element 26 would be that of RD_CNT[10], which counts those decisions. So a frame that claims
buffer 26 is not written at the address that the state before the command gives. -/
namespace Sys2Proof.Machine

/-- What SCREEN_TILE_DONE does with the screen tile in hand: all of it happens in the state behind the contested decisions. -/
theorem exec_screenTileDone {s : State} {tl n : Nat} {bl : List Nat} {x : RenderSide} {f : RFrame}
    (hx : s.rd.sides.find? (fun x => decide (x.tile = tl)) = some x) (hf : s.rd.sealed = some f) (hn : x.screen = some n) :
    exec (.screenTileDone tl bl) s =
      (let u := (s.contest tl).modSide tl fun x => { x with screen := none, entries := 0 }
       if f.blocks.any bl.contains then .next (u.binParity bl)
       else if !(u.fbInstalled f.buffer) then .fault (.absentExternal (u.fbAddr f.buffer 0 0))
       else .next (u.drawTile tl f n)) := by
  show execScreenTileDone tl bl s = _
  simp only [execScreenTileDone, hx, hf, hn]

/-- The render side of tile 0 with one entry of screen tile 0 to do. -/
def contestedSide : RenderSide := { tile := 0, group := 0, screen := some 0, entries := 1 }

/-- A frame that claims frame buffer 26. -/
def buffer26Frame : RFrame := { buffer := 26 }

/-- Tile 0 draws a screen tile of that frame while a class-1 operation has one block to stream on it; RD_CNT[10] is 0xFFFFFF. -/
def buffer26State : State :=
  { State.reset with
    regs := [(R.rdCntCount.key 10 0, 0xFFFFFF)]
    ext := { cells := [(0x1000, 1)] }
    pp := { ops := [{ bundle := 0, cls := 1, word := 0, item := 0, step := 0, groups := 0x1000, data := 0x2000, dataLen := 4096 }] }
    rd := { sides := [contestedSide], sealed := some buffer26Frame } }

/-- The state behind its contested decision: RD_CNT[10] is one more. -/
def buffer26Contested : State :=
  (buffer26State.contest 0).modSide 0 fun x => { x with screen := none, entries := 0 }

theorem buffer26State_not_installed : buffer26State.fbInstalled 26 = false := by decide +kernel

theorem buffer26Contested_not_installed : buffer26Contested.fbInstalled 26 = false := by decide +kernel

/-- The contested decision moves the buffer's address by one unit of RD_FB_ADDR. -/
theorem buffer26_fbAddr_ne : buffer26Contested.fbAddr 26 0 0 ≠ buffer26State.fbAddr 26 0 0 := by decide +kernel

/-- The command stops at the address that the state behind the contested decision gives. -/
theorem exec_screenTileDone_buffer26 :
    exec (.screenTileDone 0 []) buffer26State = .fault (.absentExternal (buffer26Contested.fbAddr 26 0 0)) := by
  have hrun := exec_screenTileDone (s := buffer26State) (tl := 0) (bl := []) (x := contestedSide) (f := buffer26Frame) rfl rfl rfl
  have hno := buffer26Contested_not_installed
  unfold buffer26Contested at hno ⊢
  rw [hrun]
  simp [buffer26Frame, RFrame.blocks, hno]

/-- Refutes O47: its clause on an absent frame buffer does not bound the buffer's number. With buffer 26, which no run reaches, the
contested decision that SCREEN_TILE_DONE counts first (R384) changes the address that the fault names. -/
theorem not_framesAndScreenTiles : ¬ Obligations.FramesAndScreenTiles := by
  unfold Obligations.FramesAndScreenTiles
  rintro ⟨-, -, -, -, -, -, -, -, hdone, -⟩
  obtain ⟨hfault, -⟩ := hdone 0 0 contestedSide buffer26Frame buffer26Contested buffer26State rfl rfl rfl rfl
  have heq := hfault buffer26State_not_installed
  rw [exec_screenTileDone_buffer26] at heq
  injection heq with hreason
  injection hreason with haddr
  exact buffer26_fbAddr_ne haddr

end Sys2Proof.Machine
end

section
/-! SCRUB_VISIT writes the queue back whose cell it reads, and the list of queues is then in another order. So a visit that finds no
upset changes more of the state than POS, where the cell's queue is not the last one. -/
namespace Sys2Proof.Machine

/-- Two queues with their marker cells and nothing queued, PD04 on, and the scrubber at the marker cell of the first. -/
def twoQueueState : State where
  regs := [(R.pwDomStateOn.key 0 0, 0x11)]
  pal := { queues := [(0, { markerIdx := 0 }), (1, { markerIdx := 1 })] }

/-- The visit puts queue 0 behind queue 1. -/
theorem scrubVisit_twoQueueState : ∃ t, exec (.scrubVisit .none) twoQueueState = .next t ∧
    t.pal.queues = [(1, { markerIdx := 1 }), (0, { markerIdx := 0 })] :=
  ⟨_, rfl, by decide +kernel⟩

/-- Refutes O29: its clause on a visit without an upset says that only a register changes; the list of queues does, too. -/
theorem not_freeScrubAndSever : ¬ Obligations.FreeScrubAndSever := by
  unfold Obligations.FreeScrubAndSever
  rintro ⟨⟨-, -, hscrub, -⟩, -⟩
  obtain ⟨t, ht, -, hframe, -⟩ := hscrub twoQueueState (by decide) (by decide) (by decide) (by decide)
  obtain ⟨u, hu, hqueues⟩ := scrubVisit_twoQueueState
  obtain rfl : t = u := Host.Outcome.next.inj (ht.symm.trans hu)
  have hkept : t.pal.queues = twoQueueState.pal.queues := congrArg (·.pal.queues) hframe
  exact absurd (hqueues.symm.trans hkept) (by decide)

end Sys2Proof.Machine
end

section
/-! The end of the drain releases retired queues after it has written CV_LAST_DRAIN.US (R138, R140). The descriptor of a queue 64513,
above the 512 of the array, would have its PROD field at the bit address of US. So a state whose palette holds such a queue, which no
run reaches, shows 0 there. -/
namespace Sys2Proof.Machine

/-- A drain of 1 µs with queue 64513 retired and empty, and a role still to be taken. -/
def farQueueState : State where
  regs := [(R.cvStatusDraining.key 0 0, 1), (R.qmQCfgRetired.key 64513 0, 1)]
  devtime := 1000
  cv := { drained := false, takers := [0] }
  pal := { queues := [(64513, {})] }

theorem epochDrainEnd_farQueueState :
    ∃ t, exec .epochDrainEnd farQueueState = .next t ∧ t.reg R.cvLastDrainUs = 0 :=
  ⟨_, rfl, by decide +kernel⟩

/-- Refutes O20: its clause on the end of the drain does not bound the numbers of the queues. With the retired queue 64513 the drain of
1 µs leaves 0 in CV_LAST_DRAIN.US. -/
theorem not_drainAndRoles : ¬ Obligations.DrainAndRoles := by
  unfold Obligations.DrainAndRoles
  rintro ⟨hend, -⟩
  obtain ⟨t, ht, -, -, -, -, hus, -⟩ := hend farQueueState (by decide) rfl (by decide)
  obtain ⟨u, hu, hzero⟩ := epochDrainEnd_farQueueState
  obtain rfl : t = u := Host.Outcome.next.inj (ht.symm.trans hu)
  rw [hzero] at hus
  exact absurd hus (by decide)

end Sys2Proof.Machine
end

section
/-! Moves (R300, R306, R310): the packet of a tile-to-tile move, its arrival, and raw moves to and from external memory. -/
namespace Sys2Proof.Machine

/-! ## Slot operations -/

theorem State.opAt_eq_some {s : State} {k cls : Nat} {o : SlotOp} :
    s.opAt k cls = some o ↔ s.pp.ops[k]? = some o ∧ o.cls = cls ∧ o.done = false := by
  unfold State.opAt
  cases s.pp.ops[k]? with
  | none => simp
  | some x =>
    simp only [Option.ite_none_right_eq_some, Option.some.injEq]
    constructor
    · rintro ⟨hx, rfl⟩
      exact ⟨rfl, hx⟩
    · rintro ⟨rfl, hx⟩
      exact ⟨hx, rfl⟩

theorem State.opAt_modOp {s : State} {k cls : Nat} {o : SlotOp} {f : SlotOp → SlotOp} (h : s.opAt k cls = some o)
    (hcls : (f o).cls = o.cls) (hdone : (f o).done = o.done) : (s.modOp k f).opAt k cls = some (f o) := by
  obtain ⟨hk, hc, hd⟩ := State.opAt_eq_some.mp h
  exact State.opAt_eq_some.mpr ⟨by simp [State.modOp, hk], hcls.trans hc, hdone.trans hd⟩

/-- A finished operation is in progress no more. -/
theorem State.opAt_finishOp (s : State) (k cls : Nat) : (s.finishOp k).opAt k cls = none := by
  refine Option.eq_none_iff_forall_ne_some.mpr fun o ho => ?_
  obtain ⟨hk, -, hd⟩ := State.opAt_eq_some.mp ho
  simp only [State.finishOp, State.modOp, State.modPp_pp, List.getElem?_modify_eq, Option.map_eq_map, Option.map_eq_some_iff] at hk
  obtain ⟨x, -, rfl⟩ := hk
  exact absurd hd (by simp)

/-! ## Packets of moves -/

/-- The packet that carries n bytes of a move from a place to another (R20, R300). -/
def State.movePacket (s : State) (o : SlotOp) (a b : Nat × Nat) (n : Nat) : Packet :=
  { item := o.item, key := Config.moveKey a.1 b.1 % 2 ^ 32, vc := 2, epoch := s.reg R.cvStatusEpoch, dest := 0, tile := a.1, cells := [],
    origin := a.1, load := some { op := o.id, addr := b.2, data := s.tileRead a.1 a.2 n }, since := s.devtime }

/-- The packet of a move is on its way and its operation has begun. -/
theorem State.moveSent {s : State} {k : Nat} {o : SlotOp} {a b : Nat × Nat} {n : Nat} (hop : s.opAt k 2 = some o) {t : State}
    (ht : t = (s.sendMove o a b n false).modOp k fun o => { o with begun := true }) :
    t.mesh = { s.mesh with packets := s.mesh.packets ++ [s.movePacket o a b n] } ∧
      t.opAt k 2 = some { o with begun := true } ∧ t = { s with pp := t.pp, mesh := t.mesh } := by
  subst ht
  have hop' : (s.sendMove o a b n false).opAt k 2 = some o := hop
  exact ⟨rfl, State.opAt_modOp hop' rfl rfl, rfl⟩

theorem exec_moveTileToTile {s : State} {k : Nat} {a b : Nat × Nat} {o : SlotOp} (hop : s.opAt k 2 = some o) (hsub : o.sub = 0)
    (hbegun : o.begun = false) (hends : s.tileEnds o (s.moveDesc o) = some (a, b)) (ha : s.tileWaits a.1 = false)
    (hb : s.tileWaits b.1 = false) : exec (.moveTileToTile k false) s =
      .next ((s.sendMove o a b (s.moveDesc o).tileBytes false).modOp k fun o => { o with begun := true }) := by
  show execMoveTileToTile k false s = _
  simp [execMoveTileToTile, hop, hsub, hbegun, hends, ha, hb]

/-- A reshard of one entry sends the packet of that entry. -/
theorem exec_reshard_one {s : State} {k : Nat} {a b : Nat × Nat} {o : SlotOp} (hop : s.opAt k 2 = some o) (hsub : o.sub = 3)
    (hbegun : o.begun = false) (hone : (s.moveDesc o).entries = 1) {d : MoveDesc}
    (hd : d = MoveDesc.ofBytes (s.opData o (16 * (s.moveDesc o).list) 32)) (hin : 16 * (s.moveDesc o).list + 32 ≤ o.dataLen)
    (hends : s.tileEnds o d = some (a, b)) (ha : s.tileWaits a.1 = false) (hb : s.tileWaits b.1 = false) :
    exec (.reshard k none) s = .next ((s.sendMove o a b d.tileBytes false).modOp k fun o => { o with begun := true }) := by
  show execReshard k none s = _
  simp [execReshard, hop, hsub, hbegun, hone, ← hd, hin, hends, allOf, ha, hb]

/-! ## A packet of a move arrives -/

theorem State.neighbour_local (s : State) (t : Nat) : s.neighbour t 4 = none := by simp [State.neighbour]

theorem exec_meshPacketRoute_local {s : State} {k : Nat} {p : Packet} {l : MoveLoad} (hp : s.mesh.packets[k]? = some p)
    (hfirst : s.behind k p = false) (hports : s.routePorts p = some [4]) (hon : s.domOn (10 + s.quadOf p.tile) = true)
    (hl : p.load = some l) : exec (.meshPacketRoute k) s =
      .next (((s.modMesh fun m => { m with packets := m.packets.eraseIdx k }).takeMove p.tile p l).refreshDrain) := by
  show execMeshPacketRoute k s = _
  simp [execMeshPacketRoute, hp, hfirst, hports, hon, State.moveOut, State.neighbour_local, hl]

/-- The end of a move's packet changes the list of slot operations at most. -/
theorem State.moveOver_frame (s : State) (p : Packet) : s.moveOver p = { s with pp := (s.moveOver p).pp } := by
  unfold State.moveOver
  split
  · rfl
  · split <;> rfl

/-- With the last packet of a move its operation is finished. -/
theorem State.moveOver_ops {s : State} {p : Packet} {l : MoveLoad} (hl : p.load = some l)
    (hlast : (s.mesh.packets.any fun x => (x.load.map (·.op)) == some l.op) = false) : (s.moveOver p).pp.ops =
      s.pp.ops.map fun o => if o.id = l.op ∧ o.cls = 2 then { o with done := true } else o := by
  simp [State.moveOver, hl, hlast]

theorem State.takeMove_of_good {s : State} {t : Nat} {p : Packet} {l : MoveLoad} (h : l.bad = false) :
    s.takeMove t p l = (s.tileWrite t l.addr l.data).moveOver p := by simp [State.takeMove, h]

theorem State.refreshDrain_onlyRegs (s : State) : s.onlyRegs s.refreshDrain [R.cvEpochDrainCount.key 0 0] :=
  State.onlyRegs_setReg (by simp)

/-! ## Raw moves to and from external memory -/

theorem State.tileRead_length (s : State) (t a n : Nat) : (s.tileRead t a n).length = n := by
  simp [State.tileRead, Mem.readBytes]

theorem Mem.readBytes_length (m : Mem) (a n : Nat) : (m.readBytes a n).length = n := by simp [Mem.readBytes]

/-- The traffic counter of a move (R311) takes its amount; a free value decides the rounding. -/
theorem State.countKib_onlyRegs (s : State) (r : Row) (n : Nat) : s.tick.onlyRegs (s.countKib r n) [r.key 0 0] :=
  State.onlyRegs_setReg (by simp)

/-- The traffic counters of a raw move, and the end of its operation. -/
def State.endRawMove (s : State) (r : Row) (k n : Nat) : State := ((s.countKib r n).countKib R.deMemExtKib n).finishOp k

theorem State.opAt_endRawMove (s : State) (r : Row) (k n cls : Nat) : (s.endRawMove r k n).opAt k cls = none :=
  State.opAt_finishOp _ _ _

theorem State.endRawMove_frame {s t : State} {r : Row} {k n : Nat} (ht : t = s.endRawMove r k n) :
    t = { s with regs := t.regs, pp := t.pp, freeCtr := t.freeCtr } ∧ s.regsBut t [r.key 0 0, R.deMemExtKib.key 0 0] := by
  unfold State.endRawMove at ht
  obtain ⟨hu, huregs⟩ := s.countKib_onlyRegs r n
  generalize s.countKib r n = u at *
  obtain ⟨hv, hvregs⟩ := u.countKib_onlyRegs R.deMemExtKib n
  generalize u.countKib R.deMemExtKib n = v at *
  subst ht
  refine ⟨by rw [hv, hu]; rfl, fun r' i j hk => ?_⟩
  simp only [List.mem_cons, List.not_mem_nil, or_false, not_or] at hk
  exact (hvregs r' i j (by simpa using hk.2)).trans (huregs r' i j (by simpa using hk.1))

theorem exec_moveTileToMemory {s : State} {k tl a : Nat} {o : SlotOp} (hop : s.opAt k 2 = some o) (hsub : o.sub = 1)
    (hraw : (s.moveDesc o).map = false) (hplace : s.movePlace o (s.moveDesc o).srcGroup (s.moveDesc o).srcPos (s.moveDesc o).srcPart
      (s.moveDesc o).srcOff (s.moveDesc o).bytes = some (tl, a)) (hw : s.tileWaits tl = false) :
    exec (.moveTileToMemory k false) s = .next ((s.modExt fun m => m.writeBytes (s.moveDesc o).mem
      (s.tileRead tl a (s.moveDesc o).bytes)).endRawMove R.deMemOutKib k (s.moveDesc o).bytes) := by
  show execMoveTileToMemory k false s = _
  simp [execMoveTileToMemory, hop, hsub, MoveDesc.tileBytes, MoveDesc.extBytes, hraw, hplace, hw, State.endRawMove]

theorem exec_moveMemoryToTile {s : State} {k tl a : Nat} {o : SlotOp} (hop : s.opAt k 2 = some o) (hsub : o.sub = 2)
    (hraw : (s.moveDesc o).map = false) (hplace : s.movePlace o (s.moveDesc o).dstGroup (s.moveDesc o).dstPos (s.moveDesc o).dstPart
      (s.moveDesc o).dstOff (s.moveDesc o).bytes = some (tl, a)) (hw : s.tileWaits tl = false) :
    exec (.moveMemoryToTile k) s = .next ((s.tileWrite tl a (s.ext.readBytes (s.moveDesc o).mem
      (s.moveDesc o).bytes)).endRawMove R.deMemInKib k (s.moveDesc o).bytes) := by
  show execMoveMemoryToTile k s = _
  simp [execMoveMemoryToTile, hop, hsub, MoveDesc.tileBytes, MoveDesc.extBytes, hraw, hplace, hw, State.endRawMove]

/-- Bytes that were read n at a time are read back where they have been written, and every other byte stays. -/
theorem Mem.writeBytes_spec {m m' : Mem} {a n : Nat} {l : List Byte} (hl : l.length = n) (hm : m' = m.writeBytes a l) :
    m'.readBytes a n = l ∧ ∀ b, b < a ∨ a + n ≤ b → m'.read b = m.read b := by
  subst hl hm
  exact ⟨m.readBytes_writeBytes a l, fun b hb => m.read_writeBytes_out a b l hb⟩

/-- Settles O31: a move's packet carries the bytes of its source, its arrival writes them, and a raw move writes them at once. -/
theorem moves : Obligations.Moves := by
  refine ⟨fun k a b o s hop hsub hbegun hends ha hb => ⟨_, exec_moveTileToTile hop hsub hbegun hends ha hb, State.moveSent hop rfl⟩,
    fun k p l s hp hfirst hports hon hl hgood => ?_, fun k tl a o s hop hsub hraw hplace hw => ?_,
    fun k tl a o s hop hsub hraw hplace hw => ?_, fun k a b d o s hop hsub hbegun hone hd hin hends ha hb =>
      ⟨_, exec_reshard_one hop hsub hbegun hone hd hin hends ha hb, State.moveSent hop rfl⟩⟩
  · refine ⟨_, exec_meshPacketRoute_local hp hfirst hports hon hl, ?_⟩
    rw [State.takeMove_of_good hgood]
    generalize hu : (s.modMesh fun m => { m with packets := m.packets.eraseIdx k }).tileWrite p.tile l.addr l.data = u
    have hframe := u.moveOver_frame p
    have htmem : (u.moveOver p).refreshDrain.tmem = s.tmem.writeBytes (tileAddr p.tile l.addr) l.data := by
      rw [hframe, ← hu]; rfl
    obtain ⟨hread, hout⟩ := Mem.writeBytes_spec rfl htmem
    refine ⟨hread, hout, by rw [hframe, ← hu]; rfl, fun hlast => ?_, by rw [hframe, ← hu]; rfl, fun r i j hk => ?_⟩
    · subst hu
      exact State.moveOver_ops hl hlast
    · refine ((u.moveOver p).refreshDrain_onlyRegs.2 r i j hk).trans ?_
      rw [hframe, ← hu]
      rfl
  · refine ⟨_, exec_moveTileToMemory hop hsub hraw hplace hw, ?_⟩
    generalize hu : (s.modExt fun m => m.writeBytes (s.moveDesc o).mem (s.tileRead tl a (s.moveDesc o).bytes)) = u
    have hdone := u.opAt_endRawMove R.deMemOutKib k (s.moveDesc o).bytes 2
    generalize ht : u.endRawMove R.deMemOutKib k (s.moveDesc o).bytes = t at hdone ⊢
    obtain ⟨hframe, hregs⟩ := State.endRawMove_frame ht.symm
    subst hu
    obtain ⟨hread, hout⟩ := Mem.writeBytes_spec (s.tileRead_length tl a (s.moveDesc o).bytes) (congrArg State.ext hframe)
    exact ⟨hread, hout, hdone, by rw [hframe]; rfl, hregs⟩
  · refine ⟨_, exec_moveMemoryToTile hop hsub hraw hplace hw, ?_⟩
    generalize hu : s.tileWrite tl a (s.ext.readBytes (s.moveDesc o).mem (s.moveDesc o).bytes) = u
    have hdone := u.opAt_endRawMove R.deMemInKib k (s.moveDesc o).bytes 2
    generalize ht : u.endRawMove R.deMemInKib k (s.moveDesc o).bytes = t at hdone ⊢
    obtain ⟨hframe, hregs⟩ := State.endRawMove_frame ht.symm
    subst hu
    obtain ⟨hread, hout⟩ := Mem.writeBytes_spec (s.ext.readBytes_length (s.moveDesc o).mem (s.moveDesc o).bytes)
      (congrArg State.tmem hframe)
    exact ⟨hread, hout, hdone, by rw [hframe]; rfl, hregs⟩

end Sys2Proof.Machine
end

section
/-! What a command writes outside a set of register fields, and the fields that the handling of faults and a quiesce write
(R436, R460, R469, R471). -/
namespace Sys2Proof.Machine

/-- Every field whose bit address lies outside a set reads in t as in s. -/
def State.regsOutside (s : State) (W : Nat → Prop) (t : State) : Prop :=
  ∀ (r : Row) (i j : Nat), ¬ W (r.key i j) → t.reg r i j = s.reg r i j

section
variable {s t : State} {W : Nat → Prop}

theorem State.regsOutside_refl (s : State) (W : Nat → Prop) : s.regsOutside W s := fun _ _ _ _ => rfl

theorem State.regsOutside.of_regs {t' : State} (h : s.regsOutside W t) (he : t'.regs = t.regs) : s.regsOutside W t' :=
  fun r i j hk => (show t'.reg r i j = t.reg r i j by unfold State.reg; rw [he]).trans (h r i j hk)

theorem State.regsOutside.setReg (h : s.regsOutside W t) {r : Row} {v i j : Nat} (hr : W (r.key i j)) :
    s.regsOutside W (t.setReg r v i j) := fun r' i' j' hk =>
  (t.reg_setReg_ne _ _ _ _ _ _ _ fun he => hk (he ▸ hr)).trans (h r' i' j' hk)

theorem State.regsOutside.modLg (h : s.regsOutside W t) {f : Ledger → Ledger} : s.regsOutside W (t.modLg f) := h.of_regs rfl

theorem State.regsOutside.setReg_all (h : s.regsOutside W t) {α : Type} {r : Row} {v : Nat} {f : α → Nat} (l : List α)
    (hr : ∀ n, W (r.key n 0)) : s.regsOutside W (l.foldl (fun (t : State) a => t.setReg r v (f a)) t) :=
  foldlKeeps (P := s.regsOutside W) (fun _ _ hs => hs.setReg (hr _)) l h

end

/-! ## Interrupt vectors (R436) -/

theorem State.vector_frame (s : State) (v : Nat) : s.vector v = { s with regs := (s.vector v).regs, hi := (s.vector v).hi } := by
  unfold State.vector
  dsimp only
  split <;> rfl

theorem State.reg_vector (s : State) (v : Nat) (r : Row) (i j : Nat) :
    (s.vector v).reg r i j = (s.setRegBit R.hiIrqStatusVec v true).reg r i j := by
  unfold State.vector
  dsimp only
  split <;> rfl

theorem State.vector_regsBut (s : State) (v : Nat) : s.regsBut (s.vector v) [R.hiIrqStatusVec.key 0 0] := fun r i j hk =>
  (s.reg_vector v r i j).trans (s.reg_setReg_ne _ _ _ _ _ _ _ fun he => hk (by simp [he]))

theorem bitAt_putBits_true (v b : Nat) : bitAt (putBits v b b (ofFlag true)) b = true := by
  have hb : b + 1 - b = 1 := by omega
  have hv : v - v / 2 ^ b % 2 * 2 ^ b + 2 ^ b = (v / 2 ^ b / 2 * 2 + 1) * 2 ^ b + v % 2 ^ b := by
    have h1 := Nat.div_add_mod v (2 ^ b)
    have h2 := Nat.div_add_mod (v / 2 ^ b) 2
    generalize v / 2 ^ b = x at *
    generalize v % 2 ^ b = y at *
    generalize x / 2 = z at *
    generalize x % 2 = w at *
    subst h2
    rw [← h1]
    have : (2 * z + w) * 2 ^ b = 2 * z * 2 ^ b + w * 2 ^ b := Nat.add_mul _ _ _
    rw [Nat.mul_comm (2 ^ b), this, Nat.mul_comm z 2, Nat.add_mul]
    omega
  simp only [bitAt, putBits, bits, ofFlag, hb, if_true, pow_one, Nat.one_mod, Nat.one_mul, hv]
  rw [Nat.mul_comm, Nat.testBit_two_pow_mul_add _ (Nat.mod_lt _ (by positivity))]
  simp

/-- A vector that has been raised stands in HI_IRQ_STATUS. -/
theorem State.bitAt_vector {v : Nat} (hv : v < 8) (s : State) : bitAt ((s.vector v).reg R.hiIrqStatusVec) v = true := by
  rw [State.reg_vector]
  unfold State.setRegBit
  rw [State.reg_setReg_self]
  show Nat.testBit (_ % 2 ^ 8) v = true
  rw [Nat.testBit_mod_two_pow]
  simpa [hv, bitAt] using bitAt_putBits_true (s.reg R.hiIrqStatusVec) v

/-! ## The fault stack's fields -/

/-- The fields at fixed places that are written where a fault is raised, taken in hand or handled, or where a quiesce reports and
stops the work: all but CAUSE of LG_STATUS and the count of handled entries. -/
def faultKeys : List Nat :=
  [R.hiIrqStatusVec.key 0 0, R.lgCntCount.key 3 0, R.lgCntCount.key 4 0, R.lgCntCount.key 6 0, R.lgCntCount.key 8 0,
   R.lgStatusQuiescing.key 0 0, R.pwHbFault.key 0 0, R.hiAlarmNn.key 0 0, R.hiCntCount.key 10 0, R.eiXoffState.key 0 0,
   R.rdStatusSealed.key 0 0, R.rdBinUsed.key 0 0, R.cvEpochDrainCount.key 0 0, R.ppStatusRun.key 0 0, R.ppFencePending.key 0 0]

/-- The bit addresses of these fields, and of the WINDOW bits of the tiles (R471). -/
def faultKey (k : Nat) : Prop := k ∈ faultKeys ∨ ∃ n, k = R.deTStatWindow.key n 0

theorem not_faultKey {k : Nat} (h1 : k ∉ faultKeys) (h2 : k % 8 ≠ 5) : ¬ faultKey k := by
  rintro (h | ⟨n, rfl⟩)
  · exact h1 h
  · refine h2 ?_
    show (8 * (0xB10000 + 0x1000 * n + 0 * 0) + 5) % 8 = 5
    omega

section
variable {s t : State}

theorem State.regsOutside.faultReg (h : s.regsOutside faultKey t) {r : Row} {v i j : Nat} (hr : r.key i j ∈ faultKeys) :
    s.regsOutside faultKey (t.setReg r v i j) := h.setReg (.inl hr)

theorem State.regsOutside.vector (h : s.regsOutside faultKey t) {v : Nat} : s.regsOutside faultKey (t.vector v) :=
  fun r i j hk => (t.vector_regsBut v r i j fun hm => hk (.inl (List.mem_singleton.mp hm ▸ by decide))).trans (h r i j hk)

theorem State.regsOutside.report (h : s.regsOutside faultKey t) {item : ItemId} {a b c : Nat} :
    s.regsOutside faultKey (t.report item a b c) := by
  unfold State.report
  split
  · have hb : s.regsOutside faultKey (t.bump R.lgCntCount 3) := h.faultReg (by decide)
    dsimp only
    split
    · exact hb.of_regs rfl
    · exact hb
  · split
    · exact h.faultReg (by decide)
    · exact h.of_regs rfl

theorem State.regsOutside.reportAll (h : s.regsOutside faultKey t) {l : List ItemId} {a b c : Nat} :
    s.regsOutside faultKey (t.reportAll l a b c) := foldlKeeps (P := s.regsOutside faultKey) (fun _ _ hs => hs.report) l h

theorem State.regsOutside.quiesceReports (h : s.regsOutside faultKey t) {a b : Nat} :
    s.regsOutside faultKey (t.quiesceReports a b) := by
  unfold State.quiesceReports
  exact foldlKeeps (P := s.regsOutside faultKey) (fun _ _ hs => hs.report) _
    h.reportAll.reportAll.reportAll.reportAll.reportAll.reportAll.reportAll.reportAll.reportAll

theorem State.startSentence_regs (s : State) : s.startSentence.regs = s.regs := by
  unfold State.startSentence
  split
  · rfl
  · split <;> rfl

theorem State.regsOutside.alarm (h : s.regsOutside faultKey t) {k : String} {v : Nat} :
    s.regsOutside faultKey (t.alarm k v) := by
  have hn : s.regsOutside faultKey (t.setReg R.hiAlarmNn ((t.reg R.hiAlarmNn + 1) % 100)) := h.faultReg (by decide)
  unfold State.alarm State.queueSentence
  dsimp only
  split
  · exact hn
  · split
    · exact hn.of_regs (State.startSentence_regs _)
    · have hb := hn.faultReg (r := R.hiCntCount) (v := (t.setReg R.hiAlarmNn ((t.reg R.hiAlarmNn + 1) % 100)).reg R.hiCntCount 10 + 1)
        (i := 10) (j := 0) (by decide)
      split
      · exact hb.of_regs rfl
      · exact hb

theorem State.regsOutside.setFaultN (h : s.regsOutside faultKey t) {b : Bool} : s.regsOutside faultKey (t.setFaultN b) :=
  (h.of_regs rfl : s.regsOutside faultKey (t.modPins _)).faultReg (by decide)

theorem State.regsOutside.stopWork (h : s.regsOutside faultKey t) : s.regsOutside faultKey t.stopWork := by
  unfold State.stopWork
  extract_lets +onlyGivenNames -merge s1 s2 s3 s4 s5 s6 s7 s8 s9 s10 s11 s12 s13
  have h1 : s.regsOutside faultKey s1 :=
    ((h.of_regs rfl : s.regsOutside faultKey (t.modPal _)).faultReg (r := R.eiXoffState) (by decide)).of_regs rfl
  have h6 : s.regsOutside faultKey s6 := h1.of_regs rfl
  have h7 : s.regsOutside faultKey s7 := h6.setReg_all _ fun n => .inr ⟨n, rfl⟩
  have h9 : s.regsOutside faultKey s9 := ((h7.of_regs rfl : s.regsOutside faultKey s8).faultReg (by decide)).faultReg (by decide)
  have h12 : s.regsOutside faultKey s12 :=
    ((h9.of_regs rfl : s.regsOutside faultKey s11).of_regs rfl : s.regsOutside faultKey (s11.modMesh _)).faultReg (by decide)
  exact (h12.faultReg (by decide) : s.regsOutside faultKey s13).faultReg (by decide)

theorem State.regsOutside.takeFault (h : s.regsOutside faultKey t) : s.regsOutside faultKey t.takeFault := by
  unfold State.takeFault
  split
  · exact h
  · exact h.of_regs rfl
  · split
    · exact (h.of_regs rfl : s.regsOutside faultKey (t.modLg _)).faultReg (by decide)
    · exact h

/-- A quiesce sets CAUSE, and writes fields of the fault stack's beside it. -/
theorem State.quiesce_regsOutside {s : State} {c a b : Nat} (hq : s.quiesced = false) :
    (s.setReg R.lgStatusCause c).regsOutside faultKey (s.quiesce c a b) := by
  have h : (s.setReg R.lgStatusCause c).regsOutside faultKey ((s.setReg R.lgStatusCause c).setReg R.lgStatusQuiescing 1) :=
    ((s.setReg R.lgStatusCause c).regsOutside_refl faultKey).faultReg (by decide)
  unfold State.quiesce
  rw [if_neg (by simp [hq])]
  exact h.setFaultN.alarm.quiesceReports.stopWork.of_regs (State.modTimers_regs _ _)

end

/-! ## The quiesce (R471, R472) -/

theorem State.quiesce_of_quiesced {s : State} {c a b : Nat} (h : s.quiesced = true) : s.quiesce c a b = s := by
  simp [State.quiesce, h]

theorem State.quiesced_quiesce (s : State) {c a b : Nat} (hc : c % 4 ≠ 0) : (s.quiesce c a b).quiesced = true := by
  by_cases hq : s.quiesced = true
  · rwa [State.quiesce_of_quiesced hq]
  · have h := State.quiesce_regsOutside (c := c) (a := a) (b := b) (by simpa using hq) R.lgStatusCause 0 0
      (not_faultKey (by decide) (by decide))
    have hcause : (s.quiesce c a b).reg R.lgStatusCause = c % 4 := h.trans (s.reg_setReg_self _ _ _ _)
    simpa [State.quiesced, hcause] using hc

theorem State.quiesced_storm (s : State) : s.storm.quiesced = true := State.quiesced_quiesce _ (by decide)

/-- A quiesce leaves the count of handled entries alone. -/
theorem State.reg_quiesce_handled (s : State) {c a b : Nat} : (s.quiesce c a b).reg R.lgCntCount 5 = s.reg R.lgCntCount 5 := by
  by_cases hq : s.quiesced = true
  · rw [State.quiesce_of_quiesced hq]
  · exact (State.quiesce_regsOutside (by simpa using hq) R.lgCntCount 5 0 (not_faultKey (by decide) (by decide))).trans
      (s.reg_setReg_ne _ _ _ _ _ _ _ (by decide))

/-! ## The fault stack (R466 to R469) -/

/-- The stack holds an entry of a field. -/
def faultsHold (l : List FaultEntry) (off bit : Nat) : Prop := ∃ e ∈ l, e.off = off ∧ e.bit = bit

theorem faultsHold_setFaultState {l : List FaultEntry} {k st off bit : Nat} (h : faultsHold l off bit) :
    faultsHold (setFaultState l k st) off bit := by
  obtain ⟨e, he, h1, h2⟩ := h
  refine ⟨_, List.mem_map_of_mem he, ?_⟩
  split <;> exact ⟨h1, h2⟩

/-- Taking entries in hand keeps them in the stack. -/
theorem State.takeFault_holds {s : State} {off bit : Nat} (h : faultsHold s.lg.faults off bit) :
    faultsHold s.takeFault.lg.faults off bit := by
  unfold State.takeFault
  split
  · exact h
  · exact faultsHold_setFaultState h
  · split
    · exact faultsHold_setFaultState (faultsHold_setFaultState h)
    · exact h

theorem State.takeFault_of_none {s : State} (h : nextFault s.lg.faults = none) : s.takeFault = s := by
  unfold State.takeFault
  rw [h]

/-- The entry that Keeper has in hand is the one that it handles next. -/
theorem State.takeFault_of_pending {s : State} {e : FaultEntry} (h : s.lg.faults = [e]) (he : e.state = 1) :
    s.takeFault = s.modLg fun l => { l with faults := [{ e with state := 2 }] } := by
  have htake : s.takeFault = s.modLg fun l => { l with faults := setFaultState l.faults e.slot 2 } := by
    simp [State.takeFault, h, he, nextFault]
  have hset : setFaultState s.lg.faults e.slot 2 = [{ e with state := 2 }] := by simp [h, setFaultState]
  rw [htake]
  show ({ s with lg := { s.lg with faults := setFaultState s.lg.faults e.slot 2 } } : State) = _
  rw [hset]
  rfl

/-- The raises of the last second with the one of now; the 65th counts also in a quiesce (R469). -/
def State.countRaise (s : State) : State :=
  let u := s.modLg fun l => { l with raises := s.recentRaises ++ [s.devtime] }
  if s.quiesced && s.recentRaises.length == 64 then u.bump R.lgCntCount 6 else u

theorem State.countRaise_of_calm {s : State} (h : s.recentRaises.length ≠ 64 ∨ s.quiesced = false) :
    s.countRaise = s.modLg fun l => { l with raises := s.recentRaises ++ [s.devtime] } := by
  unfold State.countRaise
  dsimp only
  rw [if_neg]
  rcases h with h | h <;> simp [h]

theorem State.countRaise_of_storm {s : State} (h : s.recentRaises.length = 64) (hq : s.quiesced = true) :
    s.countRaise = (s.modLg fun l => { l with raises := s.recentRaises ++ [s.devtime] }).bump R.lgCntCount 6 := by
  simp [State.countRaise, h, hq]

/-- A raise that begins a storm by its number (R469). -/
def State.manyRaises (s : State) : Bool := decide (64 ≤ s.recentRaises.length) && !s.quiesced

theorem State.manyRaises_of_few {s : State} (h : s.recentRaises.length < 64) : s.manyRaises = false := by
  simp [State.manyRaises, h]

/-- The entry that a raise writes into a slot (R466). -/
def State.newFault (s : State) (k off bit sev block : Nat) : FaultEntry :=
  { slot := k, time := s.devtime, off := off, bit := bit, sev := sev, state := 1, block := block, rep := 0, order := s.lg.order }

/-- An entry is added to the stack. -/
def State.addFault (s : State) (e : FaultEntry) : State :=
  s.modLg fun l => { l with faults := l.faults ++ [e], order := l.order + 1 }

/-- REPEAT of the entry in a slot counts once more. -/
def State.repeatFault (s : State) (slot : Nat) : State := s.modLg fun l => { l with faults := l.faults.map fun x =>
  if x.slot = slot then { x with rep := satTo 255 (x.rep + 1) } else x }

theorem State.countRaise_kept (s : State) : s.countRaise.lg.faults = s.lg.faults ∧ s.countRaise.lg.order = s.lg.order ∧
    s.countRaise.devtime = s.devtime := by
  unfold State.countRaise
  dsimp only
  split <;> exact ⟨rfl, rfl, rfl⟩

/-- What a raise can do (R466, R469): count a repeat, begin a storm by its number or by a full stack, or enter the fault. -/
theorem State.raise_spec (s : State) (off bit sev block : Nat) :
    (∀ e, s.lg.faults.find? (fun e => e.off == off && e.bit == bit) = some e → s.raise off bit sev block =
      if s.manyRaises then ((s.countRaise.repeatFault e.slot).vector 3).storm else (s.countRaise.repeatFault e.slot).vector 3) ∧
    (s.lg.faults.find? (fun e => e.off == off && e.bit == bit) = none →
      (s.manyRaises = true → s.raise off bit sev block = s.countRaise.storm) ∧
      (s.manyRaises = false →
        (s.freeFaultSlot = none → s.raise off bit sev block = s.countRaise.storm) ∧
        (∀ k, s.freeFaultSlot = some k → s.raise off bit sev block =
          ((s.countRaise.addFault (s.newFault k off bit sev block)).vector 3).takeFault))) := by
  have hmany : (decide (65 ≤ (s.recentRaises ++ [s.devtime]).length) && !s.quiesced) = s.manyRaises := by
    simp [State.manyRaises]
  have hcount : (if s.quiesced && (s.recentRaises ++ [s.devtime]).length == 65 then
      (s.modLg fun l => { l with raises := s.recentRaises ++ [s.devtime] }).bump R.lgCntCount 6
      else s.modLg fun l => { l with raises := s.recentRaises ++ [s.devtime] }) = s.countRaise := by
    simp [State.countRaise]
  obtain ⟨hfaults, horder, htime⟩ := s.countRaise_kept
  have hslot : s.countRaise.freeFaultSlot = s.freeFaultSlot := by
    unfold State.freeFaultSlot
    rw [hfaults]
  unfold State.raise
  extract_lets s1 many s2
  have hs2 : s2 = s.countRaise := hcount
  have hm : many = s.manyRaises := hmany
  rw [hs2, hm, hfaults, hslot, horder, htime]
  refine ⟨fun e he => by rw [he]; rfl, fun hnone => ⟨fun h => by simp [hnone, h], fun h => ⟨fun hk => by simp [hnone, h, hk],
    fun k hk => ?_⟩⟩⟩
  simp only [hnone, h, Bool.false_eq_true, if_false, hk]
  rfl

/-- After a raise the stack holds the fault, or a quiesce is on. -/
theorem State.raise_holds_or_quiesced (s : State) (off bit sev block : Nat) :
    faultsHold (s.raise off bit sev block).lg.faults off bit ∨ (s.raise off bit sev block).quiesced = true := by
  obtain ⟨hrepeat, hnone⟩ := s.raise_spec off bit sev block
  cases hfind : s.lg.faults.find? fun e => e.off == off && e.bit == bit with
  | some e =>
    rw [hrepeat e hfind]
    split
    · exact .inr (State.quiesced_storm _)
    · left
      have hname := List.find?_some hfind
      simp only [Bool.and_eq_true, beq_iff_eq] at hname
      rw [State.vector_frame]
      refine ⟨_, List.mem_map_of_mem (s.countRaise_kept.1 ▸ List.mem_of_find?_eq_some hfind), ?_⟩
      split <;> exact hname
  | none =>
    obtain ⟨hmany, hfew⟩ := hnone hfind
    cases hm : s.manyRaises with
    | true =>
      rw [hmany hm]
      exact .inr (State.quiesced_storm _)
    | false =>
      obtain ⟨hfull, hnew⟩ := hfew hm
      cases hk : s.freeFaultSlot with
      | none =>
        rw [hfull hk]
        exact .inr (State.quiesced_storm _)
      | some k =>
        rw [hnew k hk]
        refine .inl (State.takeFault_holds ?_)
        rw [State.vector_frame]
        exact ⟨s.newFault k off bit sev block, by simp [State.addFault], rfl, rfl⟩

/-- The first fault of an empty stack takes slot 0, and Keeper takes it in hand (R466, R468). -/
theorem State.raise_first {s : State} {off bit sev block : Nat} (h : s.lg.faults = []) (hm : s.manyRaises = false) :
    s.raise off bit sev block = ((s.countRaise.addFault (s.newFault 0 off bit sev block)).vector 3).modLg fun l =>
      { l with faults := [{ s.newFault 0 off bit sev block with state := 2 }] } := by
  have hslot : s.freeFaultSlot = some 0 := by
    unfold State.freeFaultSlot
    rw [h]
    rfl
  obtain ⟨-, hnew⟩ := ((s.raise_spec off bit sev block).2 (by rw [h]; rfl)).2 hm
  rw [hnew 0 hslot]
  refine State.takeFault_of_pending ?_ rfl
  rw [State.vector_frame]
  show s.countRaise.lg.faults ++ _ = _
  rw [s.countRaise_kept.1, h]
  rfl

/-- A sound stack of eight entries has no free slot. -/
theorem State.freeFaultSlot_of_full {s : State} (h : s.stackSound = true) (h8 : s.lg.faults.length = 8) :
    s.freeFaultSlot = none := by
  simp only [State.stackSound, Bool.and_eq_true, decide_eq_true_eq, List.all_eq_true] at h
  obtain ⟨⟨hnodup, hlt⟩, -⟩ := h
  have hsub : (s.lg.faults.map (·.slot)).toFinset ⊆ Finset.range 8 := fun k hk => by
    obtain ⟨e, he, rfl⟩ := List.mem_map.mp (List.mem_toFinset.mp hk)
    exact Finset.mem_range.mpr (hlt e he)
  have hall := Finset.eq_of_subset_of_card_le hsub (by rw [List.toFinset_card_of_nodup hnodup]; simp [h8])
  refine List.find?_eq_none.mpr fun k hk => ?_
  obtain ⟨e, he, hek⟩ := List.mem_map.mp (List.mem_toFinset.mp (hall ▸ Finset.mem_range.mpr (List.mem_range.mp hk)))
  simp only [List.all_eq_true, decide_eq_true_eq, not_forall]
  exact ⟨e, he, by simp [hek]⟩

end Sys2Proof.Machine
end

section
/-! Faults, their handling by Keeper, the watchdog and the end of a quiesce (R466 to R472). -/
namespace Sys2Proof.Machine

/-! ## Raises -/

theorem exec_faultRaise_alive {s : State} {off bit sev block : Nat} (h : s.alive = true) :
    exec (.faultRaise off bit sev block) s = .next (s.raise off bit sev block) := by
  show execFaultRaise off bit sev block s = _
  simp [execFaultRaise, h]

theorem exec_faultRaise_dead {s : State} {off bit sev block : Nat} (h : s.alive = false) :
    exec (.faultRaise off bit sev block) s = .next s := by
  show execFaultRaise off bit sev block s = _
  simp [execFaultRaise, h]

theorem find?_fault_eq_none {l : List FaultEntry} {off bit : Nat} (h : ∀ e ∈ l, e.off ≠ off ∨ e.bit ≠ bit) :
    (l.find? fun e => e.off == off && e.bit == bit) = none := List.find?_eq_none.mpr fun e he => by
  rcases h e he with h | h <;> simp [h]

/-- The first fault of an empty stack, raised when no storm begins: its entry and its vector. -/
theorem State.raise_first_calm {s t : State} {off bit sev block : Nat} (h : s.lg.faults = []) (hfew : s.recentRaises.length < 64)
    (ht : t = s.raise off bit sev block) :
    t.lg.faults = [{ slot := 0, time := s.devtime, off := off, bit := bit, sev := sev, state := 2, block := block, rep := 0,
                     order := s.lg.order }] ∧
    t.lg.raises = s.recentRaises ++ [s.devtime] ∧ bitAt (t.reg R.hiIrqStatusVec) 3 = true ∧
    t = { s with regs := t.regs, hi := t.hi, lg := { s.lg with faults := t.lg.faults, raises := t.lg.raises, order := s.lg.order + 1 } } ∧
    s.regsBut t [R.hiIrqStatusVec.key 0 0] := by
  rw [State.raise_first h (State.manyRaises_of_few hfew), State.countRaise_of_calm (.inl (by omega))] at ht
  generalize hu : (s.modLg fun l => { l with raises := s.recentRaises ++ [s.devtime] }).addFault
    (s.newFault 0 off bit sev block) = u at ht
  have hbit := u.bitAt_vector (v := 3) (by decide)
  have hregs := u.vector_regsBut 3
  have hframe := u.vector_frame 3
  generalize u.vector 3 = v at *
  subst ht
  refine ⟨rfl, ?_, hbit, ?_, ?_⟩
  · rw [hframe, ← hu]
    rfl
  · rw [hframe, ← hu]
    rfl
  · rw [← hu] at hregs
    exact hregs

/-- The same as the 65th raise of a second in a quiesce: the storm is counted, too. -/
theorem State.raise_first_quiesced {s t : State} {off bit sev block : Nat} (h : s.lg.faults = []) (h64 : s.recentRaises.length = 64)
    (hq : s.quiesced = true) (ht : t = s.raise off bit sev block) :
    t.reg R.lgCntCount 6 = (s.reg R.lgCntCount 6 + 1) % 2 ^ 32 ∧
    t.lg.faults.map (fun e => (e.slot, e.off, e.bit, e.sev, e.state)) = [(0, off, bit, sev, 2)] ∧ t.quiesced = true := by
  rw [State.raise_first h (by simp [State.manyRaises, hq]), State.countRaise_of_storm h64 hq] at ht
  generalize hu : (((s.modLg fun l => { l with raises := s.recentRaises ++ [s.devtime] }).bump R.lgCntCount 6).addFault
    (s.newFault 0 off bit sev block)) = u at ht
  have hregs := u.vector_regsBut 3
  generalize u.vector 3 = v at *
  subst ht hu
  refine ⟨(hregs R.lgCntCount 6 0 (by decide)).trans (s.reg_setReg_self _ _ _ _), rfl, ?_⟩
  have hcause : v.reg R.lgStatusCause = s.reg R.lgStatusCause :=
    (hregs R.lgStatusCause 0 0 (by decide)).trans (s.reg_setReg_ne _ _ _ _ _ _ _ (by decide))
  show decide (v.reg R.lgStatusCause ≠ 0) = true
  rw [hcause]
  exact hq

/-! ## Handling (R467, R468) -/

theorem exec_faultHandle_none {s : State} (h : ∀ e ∈ s.lg.faults, e.state ≠ 2) : exec .faultHandle s = .next s := by
  have hnone : s.lg.faults.find? (·.state = 2) = none := List.find?_eq_none.mpr fun e he => by simpa using h e he
  show execFaultHandle s = _
  simp [execFaultHandle, hnone]

theorem exec_faultHandle_some {s : State} {e : FaultEntry} (h : s.lg.faults.find? (·.state = 2) = some e) :
    exec .faultHandle s = .next (s.faultHandled e) := by
  show execFaultHandle s = _
  simp [execFaultHandle, h]

theorem State.faultHandled_light {s : State} {e : FaultEntry} (h : e.sev < 2) :
    s.faultHandled e = ((s.bump R.lgCntCount 5).retireFault e.slot).takeFault := by
  simp [State.faultHandled, h]

/-- An entry of severity 2 or above is held, with vector 3 and FAULT_N as the stack and the mode have it. -/
def State.holdFault (s : State) (e : FaultEntry) : State :=
  let u := ((s.bump R.lgCntCount 5).modLg fun l => { l with faults := setFaultState l.faults e.slot 3 }).vector 3
  u.setFaultN u.faultNShould

theorem State.faultHandled_heavy {s : State} {e : FaultEntry} (h : 2 ≤ e.sev) : s.faultHandled e =
    (if e.sev = 3 then ((s.holdFault e).alarm "FLT" e.sev).quiesce 3 0x14 0x100 else (s.holdFault e).alarm "FLT" e.sev).takeFault := by
  have hn : ¬ e.sev < 2 := by omega
  unfold State.faultHandled
  dsimp only
  rw [if_neg hn]
  rfl

/-- Every handling counts once. -/
theorem State.reg_faultHandled (s : State) (e : FaultEntry) :
    (s.faultHandled e).reg R.lgCntCount 5 = (s.reg R.lgCntCount 5 + 1) % 2 ^ 32 := by
  have hkey : ¬ faultKey (R.lgCntCount.key 5 0) := not_faultKey (by decide) (by decide)
  have hbump : (s.bump R.lgCntCount 5).reg R.lgCntCount 5 = (s.reg R.lgCntCount 5 + 1) % 2 ^ 32 := s.reg_setReg_self _ _ _ _
  have hrefl := (s.bump R.lgCntCount 5).regsOutside_refl faultKey
  by_cases hsev : e.sev < 2
  · rw [State.faultHandled_light hsev, ← hbump]
    unfold State.retireFault
    exact hrefl.modLg.vector.takeFault R.lgCntCount 5 0 hkey
  · rw [State.faultHandled_heavy (by omega), ← hbump]
    have hheld : (s.bump R.lgCntCount 5).regsOutside faultKey (s.holdFault e) := by
      unfold State.holdFault
      exact hrefl.modLg.vector.setFaultN
    have hlast {t : State} (ht : t.reg R.lgCntCount 5 = (s.bump R.lgCntCount 5).reg R.lgCntCount 5) :
        t.takeFault.reg R.lgCntCount 5 = (s.bump R.lgCntCount 5).reg R.lgCntCount 5 :=
      ((t.regsOutside_refl faultKey).takeFault R.lgCntCount 5 0 hkey).trans ht
    have halarm := hheld.alarm (k := "FLT") (v := e.sev) R.lgCntCount 5 0 hkey
    split
    · exact hlast ((State.reg_quiesce_handled _).trans halarm)
    · exact hlast halarm

theorem State.alarm_lg (s : State) (k : String) (v : Nat) : (s.alarm k v).lg = s.lg := by
  have hstart (t : State) : t.startSentence.lg = t.lg := by
    unfold State.startSentence
    split
    · rfl
    · split <;> rfl
  unfold State.alarm State.queueSentence
  dsimp only
  split
  · rfl
  · split
    · exact hstart _
    · split <;> rfl

/-- The only entry of the stack retires: nothing is left to take in hand. -/
theorem State.faultHandled_light_only {s t : State} {e : FaultEntry} (h : s.lg.faults = [e]) (hsev : e.sev < 2)
    (ht : t = s.faultHandled e) : t.lg = { s.lg with faults := [] } ∧ bitAt (t.reg R.hiIrqStatusVec) 3 = true ∧
      t = { s with regs := t.regs, hi := t.hi, lg := t.lg } ∧ s.regsBut t [R.lgCntCount.key 5 0, R.hiIrqStatusVec.key 0 0] := by
  have hnil : s.lg.faults.filter (·.slot ≠ e.slot) = [] := by simp [h]
  rw [State.faultHandled_light hsev] at ht
  unfold State.retireFault at ht
  generalize hu : ((s.bump R.lgCntCount 5).modLg fun l => { l with faults := l.faults.filter (·.slot ≠ e.slot) }) = u at ht
  have hlg : u.lg = { s.lg with faults := [] } := by
    rw [← hnil, ← hu]
    rfl
  have hregs : s.regsBut u [R.lgCntCount.key 5 0] := fun r i j hk => by
    rw [← hu]
    exact s.reg_setReg_ne _ _ _ _ _ _ _ fun he => hk (by simp [he])
  have hframe : u = { s with regs := u.regs, lg := u.lg } := by
    rw [← hu]
    rfl
  have hbit := u.bitAt_vector (v := 3) (by decide)
  have hvregs := u.vector_regsBut 3
  have hvframe := u.vector_frame 3
  generalize u.vector 3 = v at *
  have hvlg : v.lg = { s.lg with faults := [] } := by rw [hvframe]; exact hlg
  rw [State.takeFault_of_none (by rw [hvlg]; rfl)] at ht
  subst ht
  refine ⟨hvlg, hbit, by rw [hvframe, hframe], fun r i j hk => ?_⟩
  simp only [List.mem_cons, List.not_mem_nil, or_false, not_or] at hk
  exact (hvregs r i j (by simpa using hk.2)).trans (hregs r i j (by simpa using hk.1))

/-- The only entry of the stack is held: FAULT_N is asserted, and nothing else is pending. -/
theorem State.holdFault_only {s u : State} {e : FaultEntry} (h : s.lg.faults = [e]) (hsev : 2 ≤ e.sev) (hrun : s.inRun = true)
    (hu : u = s.holdFault e) : u.lg = { s.lg with faults := [{ e with state := 3 }] } ∧ u.pins = { s.pins with faultN := .low } ∧
      u.reg R.pwHbFault = 1 ∧ u.reg R.lgCntCount 5 = (s.reg R.lgCntCount 5 + 1) % 2 ^ 32 ∧
      bitAt (u.reg R.hiIrqStatusVec) 3 = true ∧ u = { s with regs := u.regs, hi := u.hi, lg := u.lg, pins := u.pins } ∧
      s.regsBut u [R.lgCntCount.key 5 0, R.hiIrqStatusVec.key 0 0, R.pwHbFault.key 0 0] := by
  have hset : setFaultState s.lg.faults e.slot 3 = [{ e with state := 3 }] := by simp [h, setFaultState]
  unfold State.holdFault at hu
  generalize hw : ((s.bump R.lgCntCount 5).modLg fun l => { l with faults := setFaultState l.faults e.slot 3 }) = w at hu
  have hwlg : w.lg = { s.lg with faults := [{ e with state := 3 }] } := by
    rw [← hset, ← hw]
    rfl
  have hwregs : s.regsBut w [R.lgCntCount.key 5 0] := fun r i j hk => by
    rw [← hw]
    exact s.reg_setReg_ne _ _ _ _ _ _ _ fun he => hk (by simp [he])
  have hwcount : w.reg R.lgCntCount 5 = (s.reg R.lgCntCount 5 + 1) % 2 ^ 32 := by
    rw [← hw]
    exact s.reg_setReg_self _ _ _ _
  have hwframe : w = { s with regs := w.regs, lg := w.lg } := by
    rw [← hw]
    rfl
  have hbit := w.bitAt_vector (v := 3) (by decide)
  have hvregs := w.vector_regsBut 3
  have hvframe := w.vector_frame 3
  generalize w.vector 3 = v at *
  have hshould : v.faultNShould = true := by
    have hmode : v.keeper.mode = .run := by
      rw [hvframe, hwframe]
      simpa [State.inRun] using hrun
    have hbad : v.badFault = true := by
      unfold State.badFault
      rw [hvframe]
      show (w.lg.faults.any fun e => decide (2 ≤ e.sev)) = true
      simp [hwlg, hsev]
    simp [State.faultNShould, hmode, hbad]
  dsimp only at hu
  rw [hshould] at hu
  have huregs (r : Row) (i j : Nat) (hk : R.pwHbFault.key 0 0 ≠ r.key i j) : u.reg r i j = v.reg r i j := by
    rw [hu]
    exact State.reg_setReg_ne _ _ _ _ _ _ _ _ hk
  have huframe : u = { v with regs := u.regs, pins := { v.pins with faultN := .low } } := by
    rw [hu]
    rfl
  refine ⟨by rw [huframe, hvframe]; exact hwlg, by rw [huframe, hvframe, hwframe], ?_, ?_, ?_, by rw [huframe, hvframe, hwframe],
    fun r i j hk => ?_⟩
  · rw [hu]
    exact State.reg_setReg_self _ _ _ _ _
  · exact ((huregs _ _ _ (by decide)).trans (hvregs _ _ _ (by decide))).trans hwcount
  · rw [huregs _ _ _ (by decide)]
    exact hbit
  · simp only [List.mem_cons, List.not_mem_nil, or_false, not_or] at hk
    exact ((huregs r i j fun he => hk.2.2 he.symm).trans (hvregs r i j (by simpa using hk.2.1))).trans
      (hwregs r i j (by simpa using hk.1))

/-- Where the only entry has been held nothing is taken in hand after its alarm. -/
theorem State.faultHandled_heavy_only {s u : State} {e : FaultEntry} (h : s.lg.faults = [e]) (hsev : 2 ≤ e.sev) (hrun : s.inRun = true)
    (hu : u = s.holdFault e) : (e.sev = 2 → s.faultHandled e = u.alarm "FLT" 2) ∧
      (e.sev = 3 → s.faultHandled e = ((u.alarm "FLT" 3).quiesce 3 0x14 0x100).takeFault) := by
  obtain ⟨hlg, -⟩ := State.holdFault_only h hsev hrun hu
  refine ⟨fun h2 => ?_, fun h3 => ?_⟩
  · rw [State.faultHandled_heavy hsev, if_neg (by omega), h2, ← hu]
    exact State.takeFault_of_none (by rw [State.alarm_lg, hlg]; rfl)
  · rw [State.faultHandled_heavy hsev, if_pos h3, h3, ← hu]

/-! ## The watchdog (R470) -/

theorem exec_watchdog_off {s : State} (h : s.inRun = false ∨ s.flag R.lgWdEn = false ∨ s.quiesced = true) :
    exec .watchdog s = .next s := by
  show execWatchdog s = _
  rcases h with h | h | h <;> simp [execWatchdog, h]

theorem exec_watchdog_on {s : State} (hrun : s.inRun = true) (hen : s.flag R.lgWdEn = true) (hq : s.quiesced = false) :
    (s.tooOld = none → exec .watchdog s = .next s) ∧
    (∀ i, s.tooOld = some i → exec .watchdog s = .next ((((s.setReg R.lgWdStream (streamOf i)).bump R.lgCntCount 7).quiesce 2 0x14
      (streamOf i)).raise 0xF80008 16 2 0x0E)) := by
  refine ⟨fun h => ?_, fun i h => ?_⟩
  · show execWatchdog s = _
    simp [execWatchdog, hrun, hen, hq, h]
  · show execWatchdog s = _
    simp [execWatchdog, hrun, hen, hq, h]

theorem State.tooOld_eq_none {s : State} (h : ∀ e ∈ s.lg.items, s.wdCovers (streamOf e.1) = true →
    s.devtime ≤ e.2 + s.scaled (1000000 * s.reg R.lgWdLimitMs)) : s.tooOld = none := by
  unfold State.tooOld
  rw [Option.map_eq_none_iff, List.find?_eq_none]
  intro e he hold
  simp only [Bool.and_eq_true, decide_eq_true_eq] at hold
  have := h e he hold.1
  omega

theorem State.tooOld_eq_some {s : State} {p l : List (ItemId × Nat)} {e : ItemId × Nat} (hitems : s.lg.items = p ++ e :: l)
    (hp : ∀ x ∈ p, s.wdCovers (streamOf x.1) = false) (hcov : s.wdCovers (streamOf e.1) = true)
    (hold : e.2 + s.scaled (1000000 * s.reg R.lgWdLimitMs) < s.devtime) : s.tooOld = some e.1 := by
  have hlt : s.scaled (1000000 * s.reg R.lgWdLimitMs) < s.devtime - e.2 := by omega
  have hnone : (p.find? fun e => s.wdCovers (streamOf e.1) && decide (s.scaled (1000000 * s.reg R.lgWdLimitMs) < s.devtime - e.2)) = none :=
    List.find?_eq_none.mpr fun x hx => by simp [hp x hx]
  simp [State.tooOld, hitems, hnone, hcov, hlt]

theorem streamOf_lt (i : ItemId) : streamOf i < 2 ^ 8 := Nat.mod_lt _ (by decide)

/-! ## The end of a quiesce (R108, R471) -/

theorem exec_quiesceDone_waits {s : State} (h : s.flag R.lgStatusQuiescing = false ∨ (s.reg R.lgStatusCause ≠ 3 ∧ s.due .quiesce = false)) :
    exec .quiesceDone s = .next s := by
  show execQuiesceDone s = _
  rcases h with h | ⟨hc, hd⟩
  · simp [execQuiesceDone, h]
  · simp [execQuiesceDone, hc, hd]

theorem exec_quiesceDone_ends {s : State} (h : s.flag R.lgStatusQuiescing = true) :
    (s.reg R.lgStatusCause = 3 → exec .quiesceDone s = .next ((s.disarm .quiesce).setReg R.lgStatusQuiescing 0)) ∧
    (s.reg R.lgStatusCause ≠ 3 → s.due .quiesce = true → exec .quiesceDone s = .next ((((s.disarm .quiesce).setReg R.lgStatusQuiescing
      0).enterGesso (if s.reg R.lgStatusCause = 1 then 6 else 7)).fetchAll)) := by
  refine ⟨fun hc => ?_, fun hc hd => ?_⟩
  · show execQuiesceDone s = _
    simp [execQuiesceDone, h, hc]
  · show execQuiesceDone s = _
    simp [execQuiesceDone, h, hc, hd]

theorem alGet_alDel {α β : Type} [DecidableEq α] (l : List (α × β)) (x : α) : alGet (alDel l x) x = none := by
  induction l with
  | nil => rfl
  | cons e t ih =>
    obtain ⟨k, v⟩ := e
    by_cases hk : k = x
    · simpa [alDel, hk] using ih
    · simpa [alDel, hk, alGet] using ih

theorem State.armed_disarm (s : State) (t : Timer) : (s.disarm t).armed t = false := by
  simp [State.armed, State.disarm, alGet_alDel]

/-- Settles O59: what a raise can do, what handling an entry leaves, and the conditions of the watchdog and of the quiesce's end. -/
theorem faultsAndQuiesce : Obligations.FaultsAndQuiesce := by
  refine ⟨fun off bit sev block s h => ⟨_, exec_faultRaise_alive h, s.raise_holds_or_quiesced off bit sev block⟩,
    fun e s he h2 => ?_, fun off bit sev block s h => exec_faultRaise_dead h,
    fun off bit sev block s h hfew hnil => ⟨_, exec_faultRaise_alive h, State.raise_first_calm hnil hfew rfl⟩,
    fun off bit sev block s h hfew h8 hsound hne => ?_, fun off bit sev block s h h64 hq hnil => ?_,
    fun off bit sev block s h h64 hq hnil => ⟨_, exec_faultRaise_alive h, State.raise_first_quiesced hnil h64 hq rfl⟩,
    fun _ _ _ s h => State.quiesce_of_quiesced h, fun s h => exec_faultHandle_none h, fun e s he h2 => ?_, fun s h => ?_,
    fun p l e s hrun hen hq hitems hp hcov hold => ?_, fun s h => exec_quiesceDone_waits h, fun s h => ?_⟩
  · cases hfind : s.lg.faults.find? (·.state = 2) with
    | none => simpa [h2] using List.find?_eq_none.mp hfind e he
    | some e' => exact ⟨_, exec_faultHandle_some hfind, s.reg_faultHandled e'⟩
  · obtain ⟨hfull, -⟩ := ((s.raise_spec off bit sev block).2 (find?_fault_eq_none hne)).2 (State.manyRaises_of_few hfew)
    refine ⟨_, _, exec_faultRaise_alive h, rfl, ?_⟩
    rw [hfull (State.freeFaultSlot_of_full hsound h8), State.countRaise_of_calm (.inl (by omega))]
    rfl
  · obtain ⟨hmany, -⟩ := (s.raise_spec off bit sev block).2 (by rw [hnil]; rfl)
    refine ⟨_, _, exec_faultRaise_alive h, rfl, ?_⟩
    rw [hmany (by simp [State.manyRaises, h64, hq]), State.countRaise_of_calm (.inr hq)]
    rfl
  · have hexec := exec_faultHandle_some (s := s) (e := e) (by simp [he, h2])
    refine ⟨fun hsev => ?_, fun hsev hrun => ?_⟩
    · obtain ⟨hlg, hbit, hframe, hregs⟩ := State.faultHandled_light_only he hsev rfl
      exact ⟨_, hexec, hlg, s.reg_faultHandled e, hbit, hframe, hregs⟩
    · obtain ⟨hlg, hpins, hfault, hcount, hbit, hframe, hregs⟩ := State.holdFault_only he hsev hrun rfl
      exact ⟨_, _, hexec, hlg, hpins, hfault, hcount, hbit, hframe, hregs, State.faultHandled_heavy_only he hsev hrun rfl⟩
  · rcases h with h | h | h | h
    · exact exec_watchdog_off (.inl h)
    · exact exec_watchdog_off (.inr (.inl h))
    · exact exec_watchdog_off (.inr (.inr h))
    · by_cases hoff : s.inRun = false ∨ s.flag R.lgWdEn = false ∨ s.quiesced = true
      · exact exec_watchdog_off hoff
      · simp only [not_or, Bool.not_eq_false, Bool.not_eq_true] at hoff
        exact (exec_watchdog_on hoff.1 hoff.2.1 hoff.2.2).1 (State.tooOld_eq_none h)
  · refine ⟨_, _, (exec_watchdog_on hrun hen hq).2 _ (State.tooOld_eq_some hitems hp hcov hold), ?_, ?_, ?_, rfl⟩
    · rw [State.bump, State.reg_setReg_ne _ _ _ _ _ _ _ _ (by decide), State.reg_setReg_self]
      exact Nat.mod_eq_of_lt (streamOf_lt _)
    · refine (State.reg_setReg_self _ _ _ _ _).trans ?_
      rw [State.reg_setReg_ne _ _ _ _ _ _ _ _ (by decide)]
      rfl
    · exact (State.onlyRegs_setReg (by simp)).trans (State.onlyRegs_setReg (by simp))
  · obtain ⟨hthree, hother⟩ := exec_quiesceDone_ends h
    refine ⟨_, (s.disarm .quiesce).setReg R.lgStatusQuiescing 0, State.reg_setReg_self _ _ _ _ _, s.armed_disarm .quiesce, rfl,
      fun r i j hk => ?_, hthree, fun hc hd => ⟨hother hc hd, rfl⟩⟩
    exact State.reg_setReg_ne _ _ _ _ _ _ _ _ fun he => hk (by simp [he])

end Sys2Proof.Machine
end

section
/-! What the ledger head's push of a record leaves alone, in any state of queue 0x1FF (R233 to R246, R462). -/
namespace Sys2Proof.Machine

/-! ## Association lists -/

section
variable {α β : Type} [DecidableEq α]

theorem alGet_alDel_ne (l : List (α × β)) {x y : α} (h : y ≠ x) : alGet (alDel l x) y = alGet l y := by
  induction l with
  | nil => rfl
  | cons e t ih =>
    obtain ⟨k, v⟩ := e
    by_cases hk : k = x
    · have hky : k ≠ y := fun he => h (he ▸ hk)
      simpa [alDel, hk, alGet, hk ▸ hky] using ih
    · by_cases hy : k = y
      · simp [alDel, alGet, hy, hy ▸ hk]
      · simpa [alDel, hk, alGet, hy] using ih

theorem alGet_append_of_none {l m : List (α × β)} {x : α} (h : alGet l x = none) : alGet (l ++ m) x = alGet m x := by
  induction l with
  | nil => rfl
  | cons e t ih =>
    obtain ⟨k, v⟩ := e
    by_cases hk : k = x <;> simp [alGet, hk] at h ⊢
    exact ih h

theorem alGet_append_ne (l : List (α × β)) {x y : α} (v : β) (h : y ≠ x) : alGet (l ++ [(x, v)]) y = alGet l y := by
  induction l with
  | nil => simp [alGet, h.symm]
  | cons e t ih =>
    obtain ⟨k, w⟩ := e
    by_cases hk : k = y <;> simp [alGet, hk, ih]

theorem alGet_alPut_self (l : List (α × β)) (x : α) (v : β) : alGet (alPut l x v) x = some v := by
  rw [alPut, alGet_append_of_none (alGet_alDel l x)]
  simp [alGet]

theorem alGet_alPut_ne (l : List (α × β)) {x y : α} (v : β) (h : y ≠ x) : alGet (alPut l x v) y = alGet l y := by
  rw [alPut, alGet_append_ne _ _ h, alGet_alDel_ne _ h]

theorem alDel_alPut (l : List (α × β)) (x : α) (v : β) : alDel (alPut l x v) x = alDel l x := by
  simp [alPut, alDel]

end

/-! ## The ledger and its clocks -/

/-- The ledger, the time, the mode of the clock and every hold of a record are in t as in s. -/
structure State.headKept (s t : State) : Prop where
  lg : t.lg = s.lg
  devtime : t.devtime = s.devtime
  keeper : t.keeper = s.keeper
  xtal : t.reg R.tmStatusXtalFail = s.reg R.tmStatusXtalFail
  holds : ∀ i, alGet t.timers (.coalesce i) = alGet s.timers (.coalesce i)

theorem State.headKept_refl (s : State) : s.headKept s := ⟨rfl, rfl, rfl, rfl, fun _ => rfl⟩

section
variable {s t : State}

theorem State.headKept.clockRuns (h : s.headKept t) : t.clockRuns = s.clockRuns := by
  unfold State.clockRuns State.flag
  rw [h.keeper, h.xtal]

theorem State.due_congr {x : Timer} (hx : alGet t.timers x = alGet s.timers x) (hd : t.devtime = s.devtime) : t.due x = s.due x := by
  unfold State.due
  rw [hx, hd]

theorem State.headKept.due (h : s.headKept t) (i : ItemId) : t.due (.coalesce i) = s.due (.coalesce i) :=
  State.due_congr (h.holds i) h.devtime

theorem State.headKept.same (h : s.headKept t) {t' : State} (hlg : t'.lg = t.lg) (hd : t'.devtime = t.devtime)
    (hk : t'.keeper = t.keeper) (hr : t'.regs = t.regs) (ht : t'.timers = t.timers) : s.headKept t' where
  lg := hlg.trans h.lg
  devtime := hd.trans h.devtime
  keeper := hk.trans h.keeper
  xtal := (show t'.reg R.tmStatusXtalFail = t.reg R.tmStatusXtalFail by unfold State.reg; rw [hr]).trans h.xtal
  holds i := by rw [ht, h.holds]

theorem State.headKept.modPal (h : s.headKept t) {f} : s.headKept (t.modPal f) := h.same rfl rfl rfl rfl rfl
theorem State.headKept.modQueue (h : s.headKept t) {q f} : s.headKept (t.modQueue q f) := h.same rfl rfl rfl rfl rfl
theorem State.headKept.modHi (h : s.headKept t) {f} : s.headKept (t.modHi f) := h.same rfl rfl rfl rfl rfl
theorem State.headKept.modFu (h : s.headKept t) {f} : s.headKept (t.modFu f) := h.same rfl rfl rfl rfl rfl
theorem State.headKept.tick (h : s.headKept t) : s.headKept t.tick := h.same rfl rfl rfl rfl rfl
theorem State.headKept.xoffPins (h : s.headKept t) : s.headKept t.xoffPins := h.same rfl rfl rfl rfl rfl

theorem State.headKept.gather (h : s.headKept t) {l : List (Timer × Nat)}
    (hl : ∀ x, x ≠ .gather → alGet l x = alGet t.timers x) : s.headKept { t with timers := l } where
  lg := h.lg
  devtime := h.devtime
  keeper := h.keeper
  xtal := h.xtal
  holds i := (hl _ (by simp)).trans (h.holds i)

/-- A field that is not TM_STATUS.XTAL_FAIL is written. -/
theorem State.headKept.setReg (h : s.headKept t) {r : Row} {v i j : Nat} (hr : 0x600000 ≤ r.off ∨ r = R.eiXoffState) :
    s.headKept (t.setReg r v i j) where
  lg := h.lg
  devtime := h.devtime
  keeper := h.keeper
  xtal := by
    refine (t.reg_setReg_ne _ _ _ _ _ _ _ fun he => ?_).trans h.xtal
    have hkey : 8 * 0x500000 ≤ R.tmStatusXtalFail.key 0 0 ∧ R.tmStatusXtalFail.key 0 0 < 8 * 0x600000 := by decide
    rcases hr with hr | rfl
    · rw [← he] at hkey
      simp only [Row.key] at hkey
      omega
    · rw [← he] at hkey
      simp only [Row.key, R.eiXoffState] at hkey
      omega
  holds := h.holds

/-! ## The palette's operations -/

theorem State.headKept.above (h : s.headKept t) {r : Row} {v i j : Nat} (hr : 0x600000 ≤ r.off) : s.headKept (t.setReg r v i j) :=
  h.setReg (.inl hr)

theorem State.headKept.vector (h : s.headKept t) {v : Nat} : s.headKept (t.vector v) := by
  have hb : s.headKept (t.setRegBit R.hiIrqStatusVec v true) := h.above (by decide)
  unfold State.vector
  dsimp only
  split
  · exact hb.modHi
  · exact hb

theorem State.headKept.refreshXoff (h : s.headKept t) : s.headKept t.refreshXoff :=
  (h.setReg (.inr rfl) : s.headKept (t.setReg R.eiXoffState _)).xoffPins

theorem State.headKept.poolLow (h : s.headKept t) : s.headKept t.poolLow := by
  unfold State.poolLow
  split
  · exact h.above (by decide)
  · exact h

theorem State.headKept.watermark (h : s.headKept t) {q : Nat} : s.headKept (t.watermark q) := by
  unfold State.watermark
  exact h.modQueue.refreshXoff

theorem State.headKept.markerVector (h : s.headKept t) {q : Nat} : s.headKept (t.markerVector q) := by
  unfold State.markerVector
  split
  · exact h.vector
  · exact h

theorem State.headKept.dropPush (h : s.headKept t) {q : Nat} : s.headKept (t.dropPush q) := by
  have hb : s.headKept (t.bump R.qmQDropsCount q) := h.above (by decide)
  unfold State.dropPush
  dsimp only
  split
  · exact hb.modQueue.markerVector
  · split
    · exact hb.modQueue
    · exact (hb.above (by decide) : s.headKept ((t.bump R.qmQDropsCount q).bumpSat R.qmQGapCount q)).modQueue

theorem State.headKept.gatherTimer (h : s.headKept t) : s.headKept t.gatherTimer := by
  unfold State.gatherTimer
  split
  · exact h.gather fun x hx => alGet_alPut_ne _ _ hx
  · exact h.gather fun x hx => alGet_alDel_ne _ hx

theorem State.headKept.gatherStarts (h : s.headKept t) {q : Nat} {item : ItemId} : s.headKept (t.gatherStarts q item) := by
  unfold State.gatherStarts
  dsimp only
  split
  · exact h.modFu.gatherTimer
  · exact h

theorem State.headKept.landCell (h : s.headKept t) {q : Nat} {data : Cell64} {item : ItemId} {eop epm : Bool} :
    s.headKept (t.landCell q data item eop epm) := h.modQueue.tick.poolLow.watermark.gatherStarts

theorem State.headKept.releaseRetired (h : s.headKept t) {q : Nat} : s.headKept (t.releaseRetired q) := by
  unfold State.releaseRetired
  split
  · refine State.headKept.refreshXoff ?_
    simp only [List.foldl_cons, List.foldl_nil]
    iterate 10 refine State.headKept.above ?_ (by decide)
    exact h.modPal
  · exact h

theorem State.headKept.relinkMarker (h : s.headKept t) {q : Nat} : s.headKept (t.relinkMarker q) := by
  unfold State.relinkMarker
  dsimp only
  split
  · exact h
  · exact (h.above (by decide) : s.headKept (t.setReg R.qmQGapCount 0 q)).modQueue.markerVector

theorem State.headKept.renameItem (h : s.headKept t) {a b : ItemId} : s.headKept (t.renameItem a b) := by
  unfold State.renameItem
  split
  · exact h
  · exact h.modPal

theorem State.headKept.deliverHead (h : s.headKept t) {q ep : Nat} {take : Bool} : s.headKept (t.deliverHead q ep take) := by
  unfold State.deliverHead
  split
  · exact h
  · refine State.headKept.releaseRetired (State.headKept.watermark ?_)
    dsimp only
    split
    · exact (h.modQueue.renameItem.modPal).relinkMarker
    · split
      · exact ((h.modQueue.renameItem.modPal).modPal).above (by decide)
      · exact h.modQueue.renameItem.modPal

theorem State.headKept.toDropper (h : s.headKept t) {q : Nat} : s.headKept (t.toDropper q) := by
  unfold State.toDropper
  split
  · exact h
  · dsimp only
    split
    · exact h.deliverHead.modPal
    · exact h.deliverHead

theorem State.headKept.push (h : s.headKept t) {ep q : Nat} {data : Cell64} {item : ItemId} {eop epm : Bool} :
    s.headKept (t.push ep q data item eop epm) := by
  unfold State.push
  dsimp only
  split
  · exact h.above (by decide)
  · split
    · exact h.modQueue.dropPush.toDropper
    · exact h.modQueue.dropPush
  · split
    · split
      · exact h.modQueue.above (by decide)
      · exact h.modQueue.landCell.toDropper
    · split
      · split
        · exact h.modQueue.modQueue.tick.deliverHead
        · split
          · exact h.modQueue.landCell
          · exact h.modQueue.landCell.deliverHead
      · exact h.modQueue.landCell

/-! ## Records -/

theorem State.headKept.copyHistory (h : s.headKept t) {c0 c1 : Nat} : s.headKept (t.copyHistory c0 c1) :=
  (((((h.above (r := R.lgHistWord) (by decide)).above (r := R.lgHistWord) (by decide)).above (r := R.lgHistWord) (by decide)).above
    (r := R.lgHistWord) (by decide)).above (r := R.lgHistPosNext) (by decide)).above (r := R.lgHistPosTotal) (by decide)

end

theorem State.headKept_ite {s a b : State} {p : Prop} [Decidable p] (ha : s.headKept a) (hb : s.headKept b) :
    s.headKept (if p then a else b) := by
  split
  · exact ha
  · exact hb

/-- A record is counted, and copied to the history (R464, R477). -/
def State.countRecord (s : State) (reason : Nat) (c0 c1 : Cell64) : State :=
  let s := (s.bump R.lgCntCount 0).copyHistory c0.toNat c1.toNat
  let s := if reason = 0 then s.bump R.lgCntCount 1 else s
  if reason ≤ 0x14 then s.bump R.lgReasonCount reason else s

/-- The two cells of a record are pushed, the second one only behind the first (R462). -/
def State.pushCells (s : State) (c0 c1 : Cell64) : State :=
  if s.pushRes 0x0E 511 false false = .landed then
    let s := s.push 0x0E 511 c0 0 false false
    let ok := decide (s.pushRes 0x0E 511 false false = .landed)
    let s := s.push 0x0E 511 c1 0 false false
    if ok then s else s.bump R.lgCntCount 2
  else (s.push 0x0E 511 c0 0 false false).bump R.lgCntCount 2

/-- A record is due as a trace packet (R446), and vector 4 follows the depth (R463). -/
def State.showRecord (s : State) (before : Nat) (c0 c1 : Cell64) : State :=
  let s := if s.domOn 1 && s.flag R.hiTraceEn && s.flag R.hiTraceLedger then
      s.modHi fun h => { h with traceDue := h.traceDue ++ [(1, leBytes 8 c0.toNat ++ leBytes 8 c1.toNat)] } else s
  if before < s.reg R.lgCtrlIrqDepth ∧ s.reg R.lgCtrlIrqDepth ≤ s.depth 511 then s.vector 4 else s

/-- The push of a record: count, cells, trace and vector. -/
theorem State.pushRecord_eq (s : State) (item : ItemId) (reason stage flags time : Nat) : s.pushRecord item reason stage flags time =
    (((s.countRecord reason (recordCell item reason stage flags) (BitVec.ofNat 64 time)).pushCells
      (recordCell item reason stage flags) (BitVec.ofNat 64 time)).showRecord
      ((s.countRecord reason (recordCell item reason stage flags) (BitVec.ofNat 64 time)).depth 511)
      (recordCell item reason stage flags) (BitVec.ofNat 64 time)) := rfl

section
variable {s t : State}

theorem State.headKept.countRecord (h : s.headKept t) {reason : Nat} {c0 c1 : Cell64} :
    s.headKept (t.countRecord reason c0 c1) := by
  unfold State.countRecord
  extract_lets u v
  have hu : s.headKept u := (h.above (by decide) : s.headKept (t.bump R.lgCntCount 0)).copyHistory
  have hv : s.headKept v := State.headKept_ite (hu.above (r := R.lgCntCount) (by decide)) hu
  exact State.headKept_ite (hv.above (r := R.lgReasonCount) (by decide)) hv

theorem State.headKept.pushCells (h : s.headKept t) {c0 c1 : Cell64} : s.headKept (t.pushCells c0 c1) :=
  State.headKept_ite (State.headKept_ite h.push.push (h.push.push.above (r := R.lgCntCount) (by decide)))
    (h.push.above (r := R.lgCntCount) (by decide))

theorem State.headKept.showRecord (h : s.headKept t) {n : Nat} {c0 c1 : Cell64} : s.headKept (t.showRecord n c0 c1) := by
  unfold State.showRecord
  extract_lets u
  have hu : s.headKept u := State.headKept_ite h.modHi h
  exact State.headKept_ite hu.vector hu

end

/-- The push of a record changes neither the ledger nor the times of its holds. -/
theorem State.pushRecord_headKept (s : State) (item : ItemId) (reason stage flags time : Nat) :
    s.headKept (s.pushRecord item reason stage flags time) := by
  rw [State.pushRecord_eq]
  exact s.headKept_refl.countRecord.pushCells.showRecord

/-! ## Held records (R460) -/

/-- One held record is pushed where its hold has ended. -/
def State.pushDue (s : State) (r : HeldRecord) : State :=
  if s.due (.coalesce r.item) || !s.clockRuns then
    ((s.modLg fun l => { l with held := l.held.filter (·.item ≠ r.item) }).disarm (.coalesce r.item)).pushRecord
      r.item r.reason r.stage r.flags r.time
  else s

theorem State.pushHeld_eq (s : State) : s.pushHeld = s.lg.held.foldl State.pushDue s := rfl

theorem State.pushDue_of_open {s : State} {r : HeldRecord} (hc : s.clockRuns = true) (hd : s.due (.coalesce r.item) = false) :
    s.pushDue r = s := by
  simp [State.pushDue, hc, hd]

theorem State.pushDue_of_ended {s : State} {r : HeldRecord} (h : s.due (.coalesce r.item) = true ∨ s.clockRuns = false) :
    s.pushDue r = ((s.modLg fun l => { l with held := l.held.filter (·.item ≠ r.item) }).disarm (.coalesce r.item)).pushRecord
      r.item r.reason r.stage r.flags r.time := by
  unfold State.pushDue
  rw [if_pos (by simpa using h)]

/-- The clock and the holds of the records that are held in t are as in s. -/
structure State.holdsKept (s t : State) : Prop where
  clock : t.clockRuns = s.clockRuns
  due : ∀ h ∈ t.lg.held, t.due (.coalesce h.item) = s.due (.coalesce h.item)

/-- What is left after one held record has been looked at: the records held before, less those of an item whose hold has ended. -/
theorem State.pushDue_spec {s t : State} (h : s.holdsKept t) (r : HeldRecord) :
    s.holdsKept (t.pushDue r) ∧ (∀ x ∈ (t.pushDue r).lg.held, x ∈ t.lg.held) ∧
    (∀ x ∈ (t.pushDue r).lg.held, x.item = r.item → s.clockRuns = true ∧ s.due (.coalesce x.item) = false) := by
  by_cases hend : t.due (.coalesce r.item) = true ∨ t.clockRuns = false
  · rw [State.pushDue_of_ended hend]
    generalize hu : (t.modLg fun l => { l with held := l.held.filter (·.item ≠ r.item) }).disarm (.coalesce r.item) = u
    have hk := u.pushRecord_headKept r.item r.reason r.stage r.flags r.time
    generalize u.pushRecord r.item r.reason r.stage r.flags r.time = v at hk ⊢
    have hmem : ∀ x ∈ v.lg.held, x ∈ t.lg.held ∧ x.item ≠ r.item := fun x hx => by
      rw [hk.lg, ← hu] at hx
      simpa using List.mem_filter.mp hx
    refine ⟨⟨?_, fun x hx => ?_⟩, fun x hx => (hmem x hx).1, fun x hx he => absurd he (hmem x hx).2⟩
    · rw [hk.clockRuns, ← h.clock, ← hu]
      rfl
    · obtain ⟨hin, hne⟩ := hmem x hx
      rw [hk.due, ← h.due x hin, ← hu]
      exact State.due_congr (alGet_alDel_ne _ (by simpa using hne)) rfl
  · simp only [not_or, Bool.not_eq_true, Bool.not_eq_false] at hend
    obtain ⟨hd, hc⟩ := hend
    rw [State.pushDue_of_open hc hd]
    refine ⟨h, fun x hx => hx, fun x hx he => ⟨h.clock ▸ hc, ?_⟩⟩
    rw [← h.due x hx, he]
    exact hd

/-- Of the records that have been looked at those whose hold goes on are left. -/
theorem State.pushDue_foldl {s t : State} (h : s.holdsKept t) (l : List HeldRecord) :
    (∀ x ∈ (l.foldl State.pushDue t).lg.held, x ∈ t.lg.held) ∧
    (∀ x ∈ (l.foldl State.pushDue t).lg.held, (∃ r ∈ l, x.item = r.item) → s.clockRuns = true ∧ s.due (.coalesce x.item) = false) := by
  induction l generalizing t with
  | nil => exact ⟨fun x hx => hx, fun x _ hr => by simp at hr⟩
  | cons r l ih =>
    obtain ⟨hkept, hsub, hopen⟩ := State.pushDue_spec h r
    obtain ⟨hsub', hopen'⟩ := ih hkept
    refine ⟨fun x hx => hsub x (hsub' x hx), fun x hx => ?_⟩
    rintro ⟨y, hy, hxy⟩
    rcases List.mem_cons.mp hy with rfl | hy
    · exact hopen x (hsub' x hx) hxy
    · exact hopen' x hx ⟨y, hy, hxy⟩

theorem State.pushDue_foldl_of_open {s : State} (hc : s.clockRuns = true) (l : List HeldRecord)
    (hd : ∀ r ∈ l, s.due (.coalesce r.item) = false) : l.foldl State.pushDue s = s := by
  induction l with
  | nil => rfl
  | cons r l ih =>
    rw [List.foldl_cons, State.pushDue_of_open hc (hd r (by simp))]
    exact ih fun x hx => hd x (by simp [hx])

end Sys2Proof.Machine
end

section
/-! Queue 0x1FF takes the cells of a record where there is room for them (R233, R462). -/
namespace Sys2Proof.Machine

/-! ## Cells of a queue and beside it -/

theorem State.queue_modQueue_self (s : State) (q : Nat) (f : Queue → Queue) : (s.modQueue q f).queue q = f (s.queue q) := by
  simp [State.queue, State.modQueue, alMod, alGet_alPut_self]

/-- The cells that one entry of the palette's list keeps off the free list: the marker cell and the cells queued. -/
def usedBy (e : Nat × Queue) : List Nat := e.2.markerIdx :: (e.2.cells.filter fun c => !c.marker).map (·.idx)

theorem usedBy_length (e : Nat × Queue) : (usedBy e).length = 1 + e.2.depth := by
  simp [usedBy, Queue.depth, Nat.add_comm]

/-- How many cells are not free, those of queue q aside. -/
def State.usedBeside (s : State) (q : Nat) : Nat :=
  ((alDel s.pal.queues q).flatMap usedBy).length + s.pal.held.length + s.pal.lost.length + s.stagedMarkers.length

theorem State.usedCells_length (s : State) : s.usedCells.length =
    (s.pal.queues.flatMap usedBy).length + s.pal.held.length + s.pal.lost.length + s.stagedMarkers.length := by
  simp only [State.usedCells, List.length_append, List.length_map]
  rfl

theorem State.usedBeside_modQueue (s : State) (q : Nat) (f : Queue → Queue) : (s.modQueue q f).usedBeside q = s.usedBeside q := by
  show ((alDel (alPut s.pal.queues q _) q).flatMap usedBy).length + _ + _ + _ = _
  rw [alDel_alPut]
  rfl

/-- A queue that has been written is listed once. -/
theorem State.usedCells_modQueue (s : State) (q : Nat) (f : Queue → Queue) :
    (s.modQueue q f).usedCells.length = s.usedBeside q + 1 + (s.modQueue q f).depth q := by
  rw [State.usedCells_length, State.depth, State.queue_modQueue_self]
  show ((alDel s.pal.queues q ++ [(q, _)]).flatMap usedBy).length + _ + _ + _ = _
  rw [List.flatMap_append, List.length_append]
  simp only [List.flatMap_cons, List.flatMap_nil, List.append_nil, usedBy_length]
  show _ + (1 + (f (s.queue q)).depth) + s.pal.held.length + s.pal.lost.length + s.stagedMarkers.length = _
  unfold State.usedBeside
  omega

/-- The entry that a list gives for a key is among those that are removed with it. -/
theorem flatMap_alDel_length {l : List (Nat × Queue)} {q : Nat} :
    ((alDel l q).flatMap usedBy).length + ((alGet l q).getD {}).depth ≤ (l.flatMap usedBy).length := by
  induction l with
  | nil => simp [alDel, alGet, Queue.depth]
  | cons e l ih =>
    obtain ⟨k, x⟩ := e
    have hle : ((alDel l q).flatMap usedBy).length ≤ (l.flatMap usedBy).length := by omega
    by_cases hk : k = q
    · subst hk
      have hdel : alDel ((k, x) :: l) k = alDel l k := by simp [alDel]
      simp only [hdel, alGet, if_true, Option.getD_some, List.flatMap_cons, List.length_append, usedBy_length]
      omega
    · have hdel : alDel ((k, x) :: l) q = (k, x) :: alDel l q := by simp [alDel, hk]
      simp only [hdel, alGet, hk, if_false, List.flatMap_cons, List.length_append]
      omega

theorem State.usedBeside_le (s : State) (q : Nat) : s.usedBeside q + s.depth q ≤ s.usedCells.length := by
  rw [State.usedCells_length]
  have := flatMap_alDel_length (l := s.pal.queues) (q := q)
  unfold State.usedBeside State.depth State.queue
  omega

/-! ## Room -/

/-- Queue 0x1FF takes n more cells of the ledger head, one after another. -/
structure State.recordRoom (s : State) (n : Nat) : Prop where
  on : s.domOn 4 = true
  has : s.hasQueue 511 = true
  prod : s.reg R.qmQEpProd 511 = 0x0E
  present : s.flag R.qmQCfgRetired 511 = false
  served : s.epServed (s.reg R.qmQEpCons 511) = true
  quota : s.depth 511 + n ≤ s.reg R.qmQCfgQuota 511
  free : n ≤ s.freeCells
  beside : s.usedBeside 511 + 1 + s.depth 511 + n ≤ s.member.cells
  severing : (s.queue 511).severing = false
  dropPend : (s.queue 511).dropPend = false
  stalled : (s.queue 511).stalled = none

theorem State.recordRoom.pushRes {s : State} {n : Nat} (h : s.recordRoom (n + 1)) : s.pushRes 0x0E 511 false false = .landed := by
  have hfull : s.pushFull 511 = false := by
    have hq := h.quota
    have hf := h.free
    have hfree : (s.freeCells == 0) = false := by
      rw [beq_eq_false_iff_ne]
      omega
    simp only [State.pushFull, h.present, h.served, hfree, Bool.not_true, Bool.false_or, Bool.false_and, Bool.or_false,
      decide_eq_false_iff_not]
    omega
  simp [State.pushRes, h.on, h.has, h.prod, h.severing, h.dropPend, hfull]

/-! ## A cell lands -/

/-- A cell of the ledger head has landed at the tail of queue 0x1FF, and nothing else has changed than what follows a push: free value,
low-water mark, XOFF and the wait of the fusion engine's cycle (R190, R233, R253, R341). -/
structure State.cellLanded (s t : State) (data : Cell64) : Prop where
  queue : ∃ (c : Cell) (b : Bool), c.data = data ∧ c.marker = false ∧ t.queue 511 =
    { s.queue 511 with cells := (s.queue 511).cells ++ [c], markerOpen := false, highState := b, lastEop := false }
  frame : t = { s with regs := t.regs, pal := { s.pal with queues := t.pal.queues }, freeCtr := t.freeCtr, timers := t.timers,
                       fu := t.fu, pins := { s.pins with xoff := t.pins.xoff } }
  regs : s.regsBut t [R.qmPoolLowMin.key 0 0, R.eiXoffState.key 0 0]
  gather : s.reg R.fuCtrlCmdQid ≠ 511 → t.fu = s.fu ∧ t.timers = s.timers
  beside : t.usedBeside 511 = s.usedBeside 511
  used : t.usedCells.length = t.usedBeside 511 + 1 + t.depth 511

theorem State.poolLow_onlyRegs (s : State) : s.onlyRegs s.poolLow [R.qmPoolLowMin.key 0 0] := by
  unfold State.poolLow
  split
  · exact State.onlyRegs_setReg (by simp)
  · exact s.onlyRegs_refl _

theorem State.gatherTimer_frame (s : State) : s.gatherTimer = { s with timers := s.gatherTimer.timers } := by
  unfold State.gatherTimer
  split <;> rfl

theorem State.gatherStarts_frame (s : State) (q : Nat) (item : ItemId) : s.gatherStarts q item =
    { s with fu := (s.gatherStarts q item).fu, timers := (s.gatherStarts q item).timers } := by
  unfold State.gatherStarts
  dsimp only
  split
  · rw [State.gatherTimer_frame]
    rfl
  · rfl

theorem State.gatherStarts_of_ne {s : State} {q : Nat} {item : ItemId} (h : s.reg R.fuCtrlCmdQid ≠ q) : s.gatherStarts q item = s := by
  simp [State.gatherStarts, h.symm]

/-- A push that lands where no reader waits lands at the tail. -/
theorem State.push_of_landed {s : State} {ep q : Nat} {data : Cell64} {item : ItemId} (hres : s.pushRes ep q false false = .landed)
    (hpend : (s.queue q).dropPend = false) (hstall : (s.queue q).stalled = none) : s.push ep q data item false false =
      (s.modQueue q fun x => { x with lastEop := false }).landCell q data item false false := by
  unfold State.push
  simp only [hres, State.queue_modQueue_self, hpend, hstall, Bool.false_eq_true, if_false]

/-- The cell that a push of the ledger head takes for a word. -/
def State.newCell (s : State) (data : Cell64) (item : ItemId) : Cell :=
  { idx := s.pickFree, data := data, dp := parity 64 data.toNat, item := item }

/-- A landed cell before the watermarks follow it. -/
def State.linkCell (s : State) (data : Cell64) (item : ItemId) : State :=
  ((s.modQueue 511 fun x => { x with cells := x.cells ++ [s.newCell data item], markerOpen := false }).tick).poolLow

theorem State.landCell_eq (s : State) (data : Cell64) (item : ItemId) :
    s.landCell 511 data item false false = ((s.linkCell data item).watermark 511).gatherStarts 511 item := by
  unfold State.landCell State.linkCell State.newCell
  rfl

theorem State.linkCell_spec (s : State) (data : Cell64) (item : ItemId) :
    (s.linkCell data item).queue 511 =
      { s.queue 511 with cells := (s.queue 511).cells ++ [s.newCell data item], markerOpen := false } ∧
    (s.linkCell data item).usedBeside 511 = s.usedBeside 511 ∧
    s.linkCell data item = { s with regs := (s.linkCell data item).regs, freeCtr := (s.linkCell data item).freeCtr,
                                    pal := { s.pal with queues := (s.linkCell data item).pal.queues } } ∧
    s.regsBut (s.linkCell data item) [R.qmPoolLowMin.key 0 0] := by
  unfold State.linkCell
  generalize hf : (fun x : Queue => { x with cells := x.cells ++ [s.newCell data item], markerOpen := false }) = f
  have hqueue := s.queue_modQueue_self 511 f
  have hbeside := s.usedBeside_modQueue 511 f
  have hframe : s.modQueue 511 f = { s with pal := { s.pal with queues := (s.modQueue 511 f).pal.queues } } := rfl
  generalize s.modQueue 511 f = u at *
  obtain ⟨hlow, hregs⟩ := u.tick.poolLow_onlyRegs
  generalize u.tick.poolLow = t at *
  refine ⟨?_, ?_, by rw [hlow, hframe]; rfl, fun r i j hk => (hregs r i j hk).trans (by rw [hframe]; rfl)⟩
  · rw [hlow]
    subst hf
    exact hqueue
  · rw [hlow]
    exact hbeside

theorem State.watermark_spec (s : State) (q : Nat) :
    (∃ b, (s.watermark q).queue q = { s.queue q with highState := b }) ∧
    (s.watermark q).usedBeside q = s.usedBeside q ∧
    (s.watermark q).usedCells.length = (s.watermark q).usedBeside q + 1 + (s.watermark q).depth q ∧
    s.watermark q = { s with regs := (s.watermark q).regs, pal := { s.pal with queues := (s.watermark q).pal.queues },
                             pins := { s.pins with xoff := (s.watermark q).pins.xoff } } ∧
    s.regsBut (s.watermark q) [R.eiXoffState.key 0 0] := by
  generalize ht : s.watermark q = t
  obtain ⟨b, hb⟩ : ∃ b : Bool, t = (s.modQueue q fun x => { x with highState := b }).refreshXoff := ⟨_, ht.symm⟩
  clear ht
  have hbeside : t.usedBeside q = s.usedBeside q := hb ▸ s.usedBeside_modQueue q _
  refine ⟨⟨b, hb ▸ s.queue_modQueue_self q _⟩, hbeside, ?_, hb ▸ rfl, fun r i j hk => ?_⟩
  · rw [hbeside, hb]
    exact s.usedCells_modQueue q _
  · rw [hb]
    exact State.reg_refreshXoff_ne (by simpa using hk)

/-- The wait of the fusion engine's cycle is beside what a landed cell changes. -/
theorem State.gatherStarts_cellLanded {s t : State} {data : Cell64} {item : ItemId} (h : s.cellLanded t data)
    (hfu : t.fu = s.fu) (htimers : t.timers = s.timers) : s.cellLanded (t.gatherStarts 511 item) data := by
  have hframe := t.gatherStarts_frame 511 item
  have hne : s.reg R.fuCtrlCmdQid ≠ 511 → t.gatherStarts 511 item = t := fun hq =>
    State.gatherStarts_of_ne (by rwa [h.regs _ _ _ (by decide)])
  generalize t.gatherStarts 511 item = u at *
  refine ⟨?_, by rw [hframe, h.frame], fun r i j hk => ?_, fun hq => hne hq ▸ ⟨hfu, htimers⟩, ?_, ?_⟩
  · rw [hframe]
    exact h.queue
  · rw [hframe]
    exact h.regs r i j hk
  · rw [hframe]
    exact h.beside
  · rw [hframe]
    exact h.used

theorem State.push_cellLanded {s : State} {n : Nat} {data : Cell64} {item : ItemId} (h : s.recordRoom (n + 1)) :
    s.cellLanded (s.push 0x0E 511 data item false false) data := by
  rw [State.push_of_landed h.pushRes h.dropPend h.stalled, State.landCell_eq]
  generalize ha : (s.modQueue 511 fun x => { x with lastEop := false }) = a
  have haqueue : a.queue 511 = { s.queue 511 with lastEop := false } := by rw [← ha, State.queue_modQueue_self]
  have habeside : a.usedBeside 511 = s.usedBeside 511 := by rw [← ha, State.usedBeside_modQueue]
  have haframe : a = { s with pal := { s.pal with queues := a.pal.queues } } := by
    rw [← ha]
    rfl
  clear ha
  obtain ⟨hbqueue, hbbeside, hbframe, hbregs⟩ := a.linkCell_spec data item
  generalize a.linkCell data item = b at *
  obtain ⟨⟨x, htqueue⟩, htbeside, htused, htframe, htregs⟩ := b.watermark_spec 511
  generalize b.watermark 511 = t at *
  have hframe : t = { s with
      regs := t.regs, pal := { s.pal with queues := t.pal.queues }, freeCtr := t.freeCtr, pins := { s.pins with xoff := t.pins.xoff } } := by
    rw [htframe, hbframe, haframe]
  have hfu : t.fu = s.fu := by rw [hframe]
  have htimers : t.timers = s.timers := by rw [hframe]
  refine State.gatherStarts_cellLanded ⟨⟨a.newCell data item, x, rfl, rfl, ?_⟩, ?_, fun r i j hk => ?_, fun _ => ⟨hfu, htimers⟩, ?_,
    htused⟩ hfu htimers
  · rw [htqueue, hbqueue, haqueue]
  · rw [hframe]
  · simp only [List.mem_cons, List.not_mem_nil, or_false, not_or] at hk
    refine ((htregs r i j (by simpa using hk.2)).trans (hbregs r i j (by simpa using hk.1))).trans ?_
    rw [haframe]
    rfl
  · rw [htbeside, hbbeside, habeside]

section
variable {s t : State} {data : Cell64}

theorem State.cellLanded.cells (h : s.cellLanded t data) :
    (t.queue 511).cells.map (·.data) = (s.queue 511).cells.map (·.data) ++ [data] := by
  obtain ⟨c, b, hdata, -, hq⟩ := h.queue
  simp [hq, hdata]

theorem State.cellLanded.depth (h : s.cellLanded t data) : t.depth 511 = s.depth 511 + 1 := by
  obtain ⟨c, b, -, hmarker, hq⟩ := h.queue
  simp [State.depth, hq, Queue.depth, hmarker]

/-- An endpoint's domain is served by the state of the domains alone. -/
theorem State.epServed_congr {ep : Nat} (hpart : t.part = s.part) (hkeeper : t.keeper = s.keeper)
    (hon : t.reg R.pwDomStateOn = s.reg R.pwDomStateOn) : t.epServed ep = s.epServed ep := by
  have hdom : t.epDomain ep = s.epDomain ep := by
    unfold State.epDomain State.quadOf State.tileY State.tileX State.member
    rw [hpart]
  unfold State.epServed State.domOn State.waking
  rw [hdom, hkeeper, hon]

/-- After a landed cell there is room for one cell less. -/
theorem State.recordRoom.landed {n : Nat} (h : s.recordRoom (n + 1)) (hl : s.cellLanded t data) : t.recordRoom n := by
  have hreg (r : Row) (i j : Nat) (hk : r.key i j ∉ [R.qmPoolLowMin.key 0 0, R.eiXoffState.key 0 0]) : t.reg r i j = s.reg r i j :=
    hl.regs r i j hk
  have hpart : t.part = s.part := by rw [hl.frame]
  have hkeeper : t.keeper = s.keeper := by rw [hl.frame]
  have hcells : t.member.cells = s.member.cells := by rw [State.member, hpart, State.member]
  have hdepth := hl.depth
  have hbeside := h.beside
  have hrebuild : s.flag R.qmStatusRebuild = false := by
    have hfree := h.free
    unfold State.freeCells at hfree
    cases hf : s.flag R.qmStatusRebuild with
    | false => rfl
    | true => simp [hf] at hfree
  obtain ⟨c, b, -, -, hq⟩ := hl.queue
  constructor
  case on => simpa [State.domOn, hreg R.pwDomStateOn 0 0 (by decide)] using h.on
  case has =>
    simpa [State.hasQueue, State.flag, hreg R.qmQCfgPresent 511 0 (by decide), hreg R.qmQCfgRetired 511 0 (by decide)] using h.has
  case prod => rw [hreg R.qmQEpProd 511 0 (by decide), h.prod]
  case present => simpa [State.flag, hreg R.qmQCfgRetired 511 0 (by decide)] using h.present
  case served =>
    rw [hreg R.qmQEpCons 511 0 (by decide), State.epServed_congr hpart hkeeper (hreg R.pwDomStateOn 0 0 (by decide))]
    exact h.served
  case quota =>
    have hquota := h.quota
    rw [hreg R.qmQCfgQuota 511 0 (by decide), hdepth]
    omega
  case free =>
    have hrebuild' : t.flag R.qmStatusRebuild = false := by
      simpa [State.flag, hreg R.qmStatusRebuild 0 0 (by decide)] using hrebuild
    unfold State.freeCells
    rw [hrebuild', hl.used, hl.beside, hdepth, hcells]
    simp only [Bool.false_eq_true, if_false]
    omega
  case beside =>
    rw [hl.beside, hdepth, hcells]
    omega
  case severing => rw [hq]; exact h.severing
  case dropPend => rw [hq]; exact h.dropPend
  case stalled => rw [hq]; exact h.stalled

end

/-- Room for one record (R462): with three cells free two can be pushed, also into a queue that is not listed yet. -/
theorem State.recordRoom_two {s : State} (hon : s.domOn 4 = true) (hhas : s.hasQueue 511 = true) (hprod : s.reg R.qmQEpProd 511 = 0x0E)
    (hpresent : s.flag R.qmQCfgRetired 511 = false) (hserved : s.epServed (s.reg R.qmQEpCons 511) = true)
    (hquota : s.depth 511 + 2 ≤ s.reg R.qmQCfgQuota 511) (hfree : 3 ≤ s.freeCells) (hsev : (s.queue 511).severing = false)
    (hpend : (s.queue 511).dropPend = false) (hstall : (s.queue 511).stalled = none) : s.recordRoom 2 := by
  have hused := s.usedBeside_le 511
  have hcells : s.freeCells ≤ s.member.cells - s.usedCells.length := by
    unfold State.freeCells
    split <;> omega
  exact ⟨hon, hhas, hprod, hpresent, hserved, hquota, by omega, by omega, hsev, hpend, hstall⟩

/-- Both cells of a record land where there is room for two. -/
theorem State.pushCells_landed {s : State} {c0 c1 : Cell64} (h : s.recordRoom 2) : ∃ t, s.cellLanded t c0 ∧
    t.cellLanded (s.pushCells c0 c1) c1 := by
  have hfirst : s.cellLanded (s.push 0x0E 511 c0 0 false false) c0 := State.push_cellLanded h
  have hroom := h.landed hfirst
  refine ⟨_, hfirst, ?_⟩
  have hcells : s.pushCells c0 c1 = (s.push 0x0E 511 c0 0 false false).push 0x0E 511 c1 0 false false := by
    unfold State.pushCells
    rw [if_pos h.pushRes, if_pos (decide_eq_true hroom.pushRes)]
  rw [hcells]
  exact State.push_cellLanded hroom

end Sys2Proof.Machine
end

section
/-! Endings of items, held records and informational records (R26, R30, R459 to R465). -/
namespace Sys2Proof.Machine

/-! ## The history and the counts of a record (R464, R477) -/

theorem lgHistWord_key (n j : Nat) : R.lgHistWord.key n j = 8 * (0xF81000 + 16 * n + 4 * j) := rfl

theorem lgHistWord_key_ne {n j k : Nat} (h : k < 8 * 0xF81000) : R.lgHistWord.key n j ≠ k := by
  rw [lgHistWord_key]
  omega

theorem lgHistWord_key_ne_of_ne {n i j : Nat} (h : i ≠ j) : R.lgHistWord.key n i ≠ R.lgHistWord.key n j := by
  rw [lgHistWord_key, lgHistWord_key]
  omega

/-- The keys of a history slot and of its position. -/
def historyKeys (n : Nat) : List Nat :=
  [R.lgHistWord.key n 0, R.lgHistWord.key n 1, R.lgHistWord.key n 2, R.lgHistWord.key n 3, R.lgHistPosNext.key 0 0,
   R.lgHistPosTotal.key 0 0]

theorem State.copyHistory_onlyRegs (s : State) (c0 c1 : Nat) :
    s.onlyRegs (s.copyHistory c0 c1) (historyKeys (s.reg R.lgHistPosNext)) := by
  unfold State.copyHistory
  extract_lets n w u
  have hw (t : State) (j v : Nat) (hj : R.lgHistWord.key n j ∈ historyKeys n) : t.onlyRegs (w t j v) (historyKeys n) :=
    State.onlyRegs_setReg hj
  have hu : s.onlyRegs u (historyKeys n) :=
    (((hw s 0 c0 (by simp [historyKeys])).trans (hw _ 1 _ (by simp [historyKeys]))).trans (hw _ 2 _ (by simp [historyKeys]))).trans
      (hw _ 3 _ (by simp [historyKeys]))
  exact (hu.trans (State.onlyRegs_setReg (by simp [historyKeys]))).trans (State.onlyRegs_setReg (by simp [historyKeys]))

/-- What the history slot reads after the copy. -/
theorem State.reg_copyHistory {s : State} {n c0 c1 : Nat} (hn : n = s.reg R.lgHistPosNext) :
    (s.copyHistory c0 c1).reg R.lgHistWord n 0 = c0 % 2 ^ 32 ∧
    (s.copyHistory c0 c1).reg R.lgHistWord n 1 = c0 / 2 ^ 32 % 2 ^ 32 ∧
    (s.copyHistory c0 c1).reg R.lgHistWord n 2 = c1 % 2 ^ 32 ∧
    (s.copyHistory c0 c1).reg R.lgHistWord n 3 = c1 / 2 ^ 32 % 2 ^ 32 ∧
    (s.copyHistory c0 c1).reg R.lgHistPosNext = (n + 1) % 64 := by
  subst hn
  unfold State.copyHistory
  extract_lets n w u
  have hword {r : Row} {t : State} {v j : Nat} (hr : r.key 0 0 < 8 * 0xF81000) :
      (t.setReg r v).reg R.lgHistWord n j = t.reg R.lgHistWord n j :=
    t.reg_setReg_ne _ _ _ _ _ _ _ (lgHistWord_key_ne hr).symm
  have hother {t : State} {v i j : Nat} (h : i ≠ j) : (t.setReg R.lgHistWord v n i).reg R.lgHistWord n j = t.reg R.lgHistWord n j :=
    t.reg_setReg_ne _ _ _ _ _ _ _ (lgHistWord_key_ne_of_ne h)
  have hlast (j : Nat) : ((u.setReg R.lgHistPosNext (n + 1)).bump R.lgHistPosTotal).reg R.lgHistWord n j = u.reg R.lgHistWord n j :=
    (hword (by decide)).trans (hword (by decide))
  refine ⟨?_, ?_, ?_, ?_, ?_⟩
  · rw [hlast]
    exact ((hother (by decide)).trans ((hother (by decide)).trans (hother (by decide)))).trans (s.reg_setReg_self _ _ _ _)
  · rw [hlast]
    exact ((hother (by decide)).trans (hother (by decide))).trans (State.reg_setReg_self _ _ _ _ _)
  · rw [hlast]
    exact (hother (by decide)).trans (State.reg_setReg_self _ _ _ _ _)
  · rw [hlast]
    exact State.reg_setReg_self _ _ _ _ _
  · exact (State.reg_setReg_ne _ _ _ _ _ _ _ _ (by decide)).trans (State.reg_setReg_self _ _ _ _ _)

/-- A record of an informational code counts in its own counter beside that of all records. -/
theorem State.countRecord_eq {s : State} {reason : Nat} {c0 c1 : Cell64} (h0 : reason ≠ 0) (h20 : reason ≤ 0x14) :
    s.countRecord reason c0 c1 = ((s.bump R.lgCntCount 0).copyHistory c0.toNat c1.toNat).bump R.lgReasonCount reason := by
  simp [State.countRecord, h0, h20]

/-- The fields that the count of a record writes. -/
def countKeys (n reason : Nat) : List Nat := R.lgCntCount.key 0 0 :: R.lgReasonCount.key reason 0 :: historyKeys n

theorem le_of_mem_countKeys {k n reason : Nat} (h : k ∈ countKeys n reason) : 8 * 0xF80010 ≤ k := by
  have hcount : R.lgCntCount.key 0 0 = 8 * 0xF80080 := rfl
  have hreason : R.lgReasonCount.key reason 0 = 8 * (0xF80200 + 4 * reason) := rfl
  have hnext : R.lgHistPosNext.key 0 0 = 8 * 0xF80010 := rfl
  have htotal : R.lgHistPosTotal.key 0 0 = 8 * 0xF80010 + 8 := rfl
  simp only [countKeys, historyKeys, List.mem_cons, List.not_mem_nil, or_false, lgHistWord_key] at h
  omega

theorem State.countRecord_onlyRegs {s : State} {n reason : Nat} {c0 c1 : Cell64} (h0 : reason ≠ 0) (h20 : reason ≤ 0x14)
    (hn : n = s.reg R.lgHistPosNext) : s.onlyRegs (s.countRecord reason c0 c1) (countKeys n reason) := by
  have hpos : (s.bump R.lgCntCount 0).reg R.lgHistPosNext = n := (s.reg_setReg_ne _ _ _ _ _ _ _ (by decide)).trans hn.symm
  have hfirst : s.onlyRegs (s.bump R.lgCntCount 0) (countKeys n reason) := State.onlyRegs_setReg (by simp [countKeys])
  rw [State.countRecord_eq h0 h20]
  refine (hfirst.trans ?_).trans (State.onlyRegs_setReg (by simp [countKeys]))
  obtain ⟨hframe, hregs⟩ := (s.bump R.lgCntCount 0).copyHistory_onlyRegs c0.toNat c1.toNat
  rw [hpos] at hregs
  exact ⟨hframe, fun r i j hk => hregs r i j fun hm => hk (by simp [countKeys, hm])⟩

/-! ## The cells of a record (R455) -/

theorem recordCell_toNat {item : ItemId} {r st : BitVec 8} {f : BitVec 16} : (recordCell item r.toNat st.toNat f.toNat).toNat =
    item.toNat + r.toNat * 2 ^ 32 + st.toNat * 2 ^ 40 + f.toNat * 2 ^ 48 := by
  have hi := item.isLt
  have hr := r.isLt
  have hst := st.isLt
  have hf := f.isLt
  rw [recordCell, BitVec.toNat_ofNat, Nat.mod_eq_of_lt hr, Nat.mod_eq_of_lt hst, Nat.mod_eq_of_lt hf]
  exact Nat.mod_eq_of_lt (by omega)

theorem recordCell_eq (item : ItemId) (r st : BitVec 8) (f : BitVec 16) : recordCell item r.toNat st.toNat f.toNat =
    BitVec.ofNat 64 (item.toNat + r.toNat * 2 ^ 32 + st.toNat * 2 ^ 40 + f.toNat * 2 ^ 48) := by
  rw [← recordCell_toNat]
  simp

/-! ## What follows the cells (R446, R463) -/

theorem State.showRecord_frame (s : State) (n : Nat) (c0 c1 : Cell64) :
    s.showRecord n c0 c1 = { s with regs := (s.showRecord n c0 c1).regs, hi := (s.showRecord n c0 c1).hi } ∧
    s.regsBut (s.showRecord n c0 c1) [R.hiIrqStatusVec.key 0 0] := by
  unfold State.showRecord
  extract_lets u
  have hu : u = { s with hi := u.hi } := by
    unfold u
    split <;> rfl
  clear_value u
  have huregs : s.regsBut u [R.hiIrqStatusVec.key 0 0] := fun r i j _ => by rw [hu]; rfl
  split
  · exact ⟨by rw [State.vector_frame, hu], fun r i j hk => (u.vector_regsBut 4 r i j hk).trans (huregs r i j hk)⟩
  · exact ⟨by rw [hu], huregs⟩

/-! ## Room for the cells does not follow the counts -/

/-- A count of a record leaves queue 0x1FF as it is. -/
theorem State.recordRoom.counted {s t : State} {n m reason : Nat} (h : s.recordRoom n)
    (ht : s.onlyRegs t (countKeys m reason)) : t.recordRoom n := by
  obtain ⟨hframe, hregs⟩ := ht
  have hreg (r : Row) (i : Nat) (hk : r.key i 0 < 8 * 0xF80000) : t.reg r i = s.reg r i :=
    hregs r i 0 fun hm => by
      have := le_of_mem_countKeys hm
      omega
  have hpart : t.part = s.part := by rw [hframe]
  have hqueue : t.queue 511 = s.queue 511 := by rw [hframe]; rfl
  have hdepth : t.depth 511 = s.depth 511 := by rw [hframe]; rfl
  have hbeside : t.usedBeside 511 = s.usedBeside 511 := by rw [hframe]; rfl
  have hcells : t.member.cells = s.member.cells := by rw [hframe]; rfl
  have hused : t.usedCells = s.usedCells := by rw [hframe]; rfl
  constructor
  case on => simpa [State.domOn, hreg R.pwDomStateOn 0 (by decide)] using h.on
  case has =>
    simpa [State.hasQueue, State.flag, hreg R.qmQCfgPresent 511 (by decide), hreg R.qmQCfgRetired 511 (by decide)] using h.has
  case prod => rw [hreg R.qmQEpProd 511 (by decide), h.prod]
  case present => simpa [State.flag, hreg R.qmQCfgRetired 511 (by decide)] using h.present
  case served =>
    rw [hreg R.qmQEpCons 511 (by decide), State.epServed_congr hpart (by rw [hframe]) (hreg R.pwDomStateOn 0 (by decide))]
    exact h.served
  case quota =>
    rw [hreg R.qmQCfgQuota 511 (by decide), hdepth]
    exact h.quota
  case free =>
    have hfree : t.freeCells = s.freeCells := by
      unfold State.freeCells State.flag
      rw [hreg R.qmStatusRebuild 0 (by decide), hused, hcells]
    rw [hfree]
    exact h.free
  case beside =>
    rw [hbeside, hdepth, hcells]
    exact h.beside
  case severing => rw [hqueue]; exact h.severing
  case dropPend => rw [hqueue]; exact h.dropPend
  case stalled => rw [hqueue]; exact h.stalled

/-- What the counters and the history slot read once a record of an informational code has been counted. -/
theorem State.reg_countRecord {s u : State} {n reason : Nat} {c0 c1 : Cell64} (h0 : reason ≠ 0) (h20 : reason ≤ 0x14)
    (hn : n = s.reg R.lgHistPosNext) (hu : u = s.countRecord reason c0 c1) :
    u.reg R.lgHistWord n 0 = c0.toNat % 2 ^ 32 ∧ u.reg R.lgHistWord n 1 = c0.toNat / 2 ^ 32 % 2 ^ 32 ∧
    u.reg R.lgHistWord n 2 = c1.toNat % 2 ^ 32 ∧ u.reg R.lgHistWord n 3 = c1.toNat / 2 ^ 32 % 2 ^ 32 ∧
    u.reg R.lgHistPosNext = (n + 1) % 64 ∧ u.reg R.lgCntCount 0 = (s.reg R.lgCntCount 0 + 1) % 2 ^ 32 ∧
    u.reg R.lgReasonCount reason = (s.reg R.lgReasonCount reason + 1) % 2 ^ 32 := by
  have hpos : (s.bump R.lgCntCount 0).reg R.lgHistPosNext = n := (s.reg_setReg_ne _ _ _ _ _ _ _ (by decide)).trans hn.symm
  obtain ⟨h1, h2, h3, h4, h5⟩ := State.reg_copyHistory (c0 := c0.toNat) (c1 := c1.toNat) hpos.symm
  have hcopy := ((s.bump R.lgCntCount 0).copyHistory_onlyRegs c0.toNat c1.toNat).2
  rw [hpos] at hcopy
  have hreason : R.lgReasonCount.key reason 0 = 8 * (0xF80200 + 4 * reason) := rfl
  have hword (j : Nat) : R.lgReasonCount.key reason 0 ≠ R.lgHistWord.key n j := (lgHistWord_key_ne (by omega)).symm
  have hcount : R.lgCntCount.key 0 0 = 8 * 0xF80080 := rfl
  have hnext : R.lgHistPosNext.key 0 0 = 8 * 0xF80010 := rfl
  have htotal : R.lgHistPosTotal.key 0 0 = 8 * 0xF80010 + 8 := rfl
  have hcopied (r : Row) (i : Nat) (hk : r.key i 0 < 8 * 0xF81000) (hk' : 8 * 0xF80014 ≤ r.key i 0) :
      ((s.bump R.lgCntCount 0).copyHistory c0.toNat c1.toNat).reg r i = (s.bump R.lgCntCount 0).reg r i :=
    hcopy r i 0 fun hm => by
      simp only [historyKeys, List.mem_cons, List.not_mem_nil, or_false, lgHistWord_key] at hm
      omega
  rw [hu, State.countRecord_eq h0 h20]
  refine ⟨?_, ?_, ?_, ?_, ?_, ?_, ?_⟩
  · exact (State.reg_setReg_ne _ _ _ _ _ _ _ _ (hword 0)).trans h1
  · exact (State.reg_setReg_ne _ _ _ _ _ _ _ _ (hword 1)).trans h2
  · exact (State.reg_setReg_ne _ _ _ _ _ _ _ _ (hword 2)).trans h3
  · exact (State.reg_setReg_ne _ _ _ _ _ _ _ _ (hword 3)).trans h4
  · exact (State.reg_setReg_ne _ _ _ _ _ _ _ _ (by omega)).trans h5
  · refine (State.reg_setReg_ne _ _ _ _ _ _ _ _ (by omega)).trans ((hcopied _ _ (by decide) (by decide)).trans ?_)
    exact s.reg_setReg_self _ _ _ _
  · refine (State.reg_setReg_self _ _ _ _ _).trans ?_
    rw [hcopied _ _ (by omega) (by omega), State.bump, State.reg_setReg_ne _ _ _ _ _ _ _ _ (by omega)]
    rfl

/-! ## An informational record (R26, R457, R461) -/

/-- The two cells of an informational record, its copy in the history and its counts, where queue 0x1FF has room. -/
theorem State.inform_spec {s t : State} {item : ItemId} {r st : BitVec 8} {f : BitVec 16} {n : Nat} (hroom : s.recordRoom 2)
    (h0 : r.toNat ≠ 0) (h20 : r.toNat ≤ 0x14) (hn : n = s.reg R.lgHistPosNext) (hn64 : n < 64) (htime : s.devtime < 2 ^ 64)
    (ht : t = s.inform item r.toNat st.toNat f.toNat) :
    (t.queue 511).cells.map (·.data) = (s.queue 511).cells.map (·.data) ++ [BitVec.ofNat 64 (item.toNat + r.toNat * 2 ^ 32 +
      st.toNat * 2 ^ 40 + f.toNat * 2 ^ 48), BitVec.ofNat 64 s.devtime] ∧
    t.reg R.lgHistWord n 0 = item.toNat ∧ t.reg R.lgHistWord n 1 = r.toNat + 2 ^ 8 * st.toNat + 2 ^ 16 * f.toNat ∧
    t.reg R.lgHistWord n 2 = s.devtime % 2 ^ 32 ∧ t.reg R.lgHistWord n 3 = s.devtime / 2 ^ 32 ∧ t.reg R.lgHistPosNext = (n + 1) % 64 ∧
    t.reg R.lgCntCount 0 = (s.reg R.lgCntCount 0 + 1) % 2 ^ 32 ∧
    t.reg R.lgReasonCount r.toNat = (s.reg R.lgReasonCount r.toNat + 1) % 2 ^ 32 ∧
    t = { s with
      regs := t.regs, pal := { s.pal with queues := t.pal.queues }, hi := t.hi, freeCtr := t.freeCtr, timers := t.timers, fu := t.fu,
      pins := { s.pins with xoff := t.pins.xoff } } ∧
    (s.reg R.fuCtrlCmdQid ≠ 511 → t.fu = s.fu ∧ t.timers = s.timers) := by
  rw [State.inform, State.pushRecord_eq] at ht
  have hc0 := recordCell_toNat (item := item) (r := r) (st := st) (f := f)
  have hcell := recordCell_eq item r st f
  generalize recordCell item r.toNat st.toNat f.toNat = c0 at *
  have hc1 : (BitVec.ofNat 64 s.devtime).toNat = s.devtime := by rw [BitVec.toNat_ofNat, Nat.mod_eq_of_lt htime]
  generalize BitVec.ofNat 64 s.devtime = c1 at *
  have honly := State.countRecord_onlyRegs (c0 := c0) (c1 := c1) h0 h20 hn
  obtain ⟨hw0, hw1, hw2, hw3, hnext, hcount, hreason⟩ := State.reg_countRecord (c0 := c0) (c1 := c1) h0 h20 hn rfl
  generalize s.countRecord r.toNat c0 c1 = u at *
  obtain ⟨v, hv, hw⟩ := State.pushCells_landed (c0 := c0) (c1 := c1) (hroom.counted honly)
  generalize u.pushCells c0 c1 = w at *
  obtain ⟨hshow, hshowregs⟩ := w.showRecord_frame (u.depth 511) c0 c1
  rw [← ht] at hshow hshowregs
  have hkept (x : Row) (i j : Nat) (h1 : x.key i j ≠ R.hiIrqStatusVec.key 0 0) (h2 : x.key i j ≠ R.qmPoolLowMin.key 0 0)
      (h3 : x.key i j ≠ R.eiXoffState.key 0 0) : t.reg x i j = u.reg x i j :=
    ((hshowregs x i j (by simpa using h1)).trans (hw.regs x i j (by simp [h2, h3]))).trans (hv.regs x i j (by simp [h2, h3]))
  have hword (j : Nat) (hj : j < 4) : t.reg R.lgHistWord n j = u.reg R.lgHistWord n j := by
    have hirq : R.hiIrqStatusVec.key 0 0 = 8 * 0xFC0068 := rfl
    exact hkept _ _ _ (by rw [lgHistWord_key]; omega) (lgHistWord_key_ne (by decide)) (lgHistWord_key_ne (by decide))
  have hcmd : u.reg R.fuCtrlCmdQid = s.reg R.fuCtrlCmdQid :=
    honly.2 _ _ _ fun hm => absurd (le_of_mem_countKeys hm) (by decide)
  have hitem := item.isLt
  have hrlt := r.isLt
  have hstlt := st.isLt
  have hflt := f.isLt
  refine ⟨?_, ?_, ?_, ?_, ?_, ?_, ?_, ?_, ?_, fun hq => ?_⟩
  · have hqueue : t.queue 511 = w.queue 511 := by rw [hshow]; rfl
    have hbase : u.queue 511 = s.queue 511 := by rw [honly.1]; rfl
    rw [hqueue, hw.cells, hv.cells, hbase, ← hcell]
    simp
  · rw [hword 0 (by decide), hw0, hc0]
    omega
  · rw [hword 1 (by decide), hw1, hc0]
    omega
  · rw [hword 2 (by decide), hw2, hc1]
  · rw [hword 3 (by decide), hw3, hc1]
    omega
  · rw [hkept _ _ _ (by decide) (by decide) (by decide), hnext]
  · rw [hkept _ _ _ (by decide) (by decide) (by decide), hcount]
  · have hkey : R.lgReasonCount.key r.toNat 0 = 8 * (0xF80200 + 4 * r.toNat) := rfl
    have hirq : R.hiIrqStatusVec.key 0 0 = 8 * 0xFC0068 := rfl
    have hlow : R.qmPoolLowMin.key 0 0 < 8 * 0xF80200 := by decide
    have hxoff : R.eiXoffState.key 0 0 < 8 * 0xF80200 := by decide
    rw [hkept _ _ _ (by omega) (by omega) (by omega), hreason]
  · rw [hshow, hw.frame, hv.frame, honly.1]
  · obtain ⟨hvfu, hvtimers⟩ := hv.gather (by rwa [hcmd])
    obtain ⟨hwfu, hwtimers⟩ := hw.gather (by rwa [hv.regs _ _ _ (by decide), hcmd])
    have hfu : u.fu = s.fu := by rw [honly.1]
    have htimers : u.timers = s.timers := by rw [honly.1]
    rw [hshow]
    exact ⟨by rw [hwfu, hvfu, hfu], by rw [hwtimers, hvtimers, htimers]⟩

/-! ## Notices and reports (R30, R459 to R461) -/

/-- The terminal codes that have a rank (R457, R461). -/
def terminalCodes : List (BitVec 8) :=
  [0x01, 0x02, 0x03, 0x04, 0x05, 0x06, 0x0D, 0x0E, 0x0F, 0x11, 0x12, 0x13, 0x14]

/-- The informational codes (R457). -/
def informationalCodes : List (BitVec 8) := [0x07, 0x08, 0x09, 0x0A, 0x0B, 0x0C, 0x10]

theorem reasonRank_lt_of_terminal : ∀ r ∈ terminalCodes, reasonRank r.toNat < 14 := by decide

theorem reasonRank_of_informational : ∀ r ∈ informationalCodes,
    ¬ reasonRank r.toNat < 14 ∧ isInformational r.toNat = true ∧ r.toNat ≠ 0 ∧ r.toNat ≤ 0x14 := by decide

theorem reasonRank_of_other : ∀ r ∉ terminalCodes ++ informationalCodes,
    ¬ reasonRank r.toNat < 14 ∧ isInformational r.toNat = false := by decide

section
variable {s : State} {item : ItemId} {b r st : BitVec 8} {f : BitVec 16}

theorem exec_completionNotice_alive (h : s.alive = true) : exec (.completionNotice item b) s = .next (s.complete item b.toNat) := by
  show execCompletionNotice item b s = _
  simp [execCompletionNotice, h]

theorem exec_completionNotice_dead (h : s.alive = false) : exec (.completionNotice item b) s = .next s := by
  show execCompletionNotice item b s = _
  simp [execCompletionNotice, h]

theorem exec_terminalReport_dead (h : s.alive = false) : exec (.terminalReport item r st f) s = .next s := by
  show execTerminalReport item r st f s = _
  simp [execTerminalReport, h]

theorem exec_terminalReport_terminal (h : s.alive = true) (hr : r ∈ terminalCodes) :
    exec (.terminalReport item r st f) s = .next (s.report item r.toNat st.toNat f.toNat) := by
  show execTerminalReport item r st f s = _
  simp [execTerminalReport, h, reasonRank_lt_of_terminal r hr]

theorem exec_terminalReport_informational (h : s.alive = true) (hr : r ∈ informationalCodes) :
    exec (.terminalReport item r st f) s = .next (s.inform item r.toNat st.toNat f.toNat) := by
  obtain ⟨hrank, hinfo, -⟩ := reasonRank_of_informational r hr
  show execTerminalReport item r st f s = _
  simp [execTerminalReport, h, hrank, hinfo]

theorem exec_coalesceExpire (s : State) : exec .coalesceExpire s = .next s.pushHeld := rfl

theorem exec_terminalReport_other (hr : r ∉ terminalCodes ++ informationalCodes) : exec (.terminalReport item r st f) s = .next s := by
  obtain ⟨hrank, hinfo⟩ := reasonRank_of_other r hr
  show execTerminalReport item r st f s = _
  simp [execTerminalReport, hrank, hinfo]

end

section
variable {s : State} {item : ItemId}

theorem State.hasEnded_iff : s.hasEnded item = true ↔ item ∈ s.lg.ended := by simp [State.hasEnded]

theorem State.complete_of_ended {block : Nat} (h : item ∈ s.lg.ended) : s.complete item block = s.bump R.lgCntCount 4 := by
  simp [State.complete, State.hasEnded_iff.mpr h]

theorem State.complete_of_live {block : Nat} (h : item ∉ s.lg.ended) : s.complete item block =
    if bitAt (s.reg R.lgLogOkStreams (streamOf item / 32)) (streamOf item % 32) then (s.markEnded item).inform item 0 block 0
    else s.markEnded item := by
  have hend : s.hasEnded item = false := by simpa [State.hasEnded] using h
  unfold State.complete
  rw [hend]
  rfl

theorem find?_held_eq_none {l : List HeldRecord} (h : ∀ x ∈ l, x.item ≠ item) : (l.find? (·.item = item)) = none :=
  List.find?_eq_none.mpr fun x hx => by simpa using h x hx

theorem State.report_of_ended {a b c : Nat} (hheld : ∀ x ∈ s.lg.held, x.item ≠ item) (h : item ∈ s.lg.ended) :
    s.report item a b c = s.bump R.lgCntCount 4 := by
  simp [State.report, find?_held_eq_none hheld, State.hasEnded_iff.mpr h]

/-- The record of a first terminal report (R460). -/
def State.newRecord (s : State) (item : ItemId) (reason stage flags : Nat) : HeldRecord :=
  { item := item, reason := reason, stage := stage, flags := flags, time := s.devtime }

theorem State.report_first {a b c : Nat} (hheld : ∀ x ∈ s.lg.held, x.item ≠ item) (h : item ∉ s.lg.ended) :
    s.report item a b c = ((s.markEnded item).modLg fun l => { l with held := l.held ++ [s.newRecord item a b c] }).arm
      (.coalesce item) (s.scaled 2000) := by
  have hend : s.hasEnded item = false := by simpa [State.hasEnded] using h
  unfold State.report
  simp only [find?_held_eq_none hheld, hend, Bool.false_eq_true, if_false]
  rfl

/-- A further report of an item whose record is held (R460, R461): it counts, and the more specific cause stays. -/
theorem State.report_further {p l : List HeldRecord} {h : HeldRecord} {a b c : Nat} (hheld : s.lg.held = p ++ h :: l)
    (hother : ∀ x ∈ p ++ l, x.item ≠ h.item) : s.report h.item a b c = (s.bump R.lgCntCount 3).modLg fun x => { x with
      held := p ++ (if reasonRank a < reasonRank h.reason then s.newRecord h.item a b c else h) :: l } := by
  have hfind : s.lg.held.find? (·.item = h.item) = some h := by
    rw [hheld, List.find?_append, find?_held_eq_none fun x hx => hother x (by simp [hx])]
    simp
  have hkeep {m : List HeldRecord} (hm : ∀ x ∈ m, x.item ≠ h.item) (y : HeldRecord → HeldRecord) :
      (m.map fun r => if r.item = h.item then y r else r) = m :=
    (List.map_congr_left fun x hx => if_neg (hm x hx)).trans (List.map_id m)
  have hmap : (s.lg.held.map fun r => if r.item = h.item then { r with reason := a, stage := b, flags := c, time := s.devtime } else r) =
      p ++ s.newRecord h.item a b c :: l := by
    rw [hheld, List.map_append, List.map_cons, hkeep (fun x hx => hother x (by simp [hx])),
      hkeep (fun x hx => hother x (by simp [hx])), if_pos rfl]
    rfl
  unfold State.report
  rw [hfind]
  dsimp only
  split
  · rw [← hmap]
    rfl
  · rw [← hheld]
    rfl

end

/-- Settles O58: the ledger head's answers to notices and reports, and the records that it pushes. -/
theorem ledgerRecords : Obligations.LedgerRecords := by
  refine ⟨fun s => ⟨_, rfl, fun h hh hin => ?_⟩,
    fun item b r st f s h => ⟨exec_completionNotice_dead h, exec_terminalReport_dead h⟩,
    fun item b r st f s h hend => ?_, fun item b s h hend => ?_, fun item r st f s h hend hheld hr => ?_,
    fun p l h r st f s halive hheld hother hr => ?_,
    fun item r st f n s h hr hn hn64 htime hon hhas hprod hpresent hserved hquota hfree hsev hpend hstall => ?_,
    fun item r st f s hr => exec_terminalReport_other hr, fun s hc hd => ?_, fun h s hheld hend => ?_⟩
  · have hkept : s.holdsKept s := ⟨rfl, fun _ _ => rfl⟩
    exact (State.pushDue_foldl hkept s.lg.held).2 h hh ⟨h, hin, rfl⟩
  · refine ⟨_, (exec_completionNotice_alive h).trans (congrArg _ (State.complete_of_ended hend)), s.reg_setReg_self _ _ _ _,
      State.onlyRegs_setReg (by simp), fun hheld hr => ?_⟩
    exact (exec_terminalReport_terminal h hr).trans (congrArg _ (State.report_of_ended hheld hend))
  · exact ⟨_, s.markEnded item, exec_completionNotice_alive h, rfl, State.complete_of_live hend⟩
  · refine ⟨_, _, (exec_terminalReport_terminal h hr).trans (congrArg _ (State.report_first hheld hend)), rfl, rfl, ?_, rfl⟩
    exact alGet_alPut_self _ _ _
  · refine ⟨_, (exec_terminalReport_terminal halive hr).trans (congrArg _ (State.report_further hheld hother)),
      s.reg_setReg_self _ _ _ _, rfl, rfl, fun r' i j hk => ?_⟩
    exact s.reg_setReg_ne _ _ _ _ _ _ _ fun he => hk (by simp [he])
  · obtain ⟨-, -, h0, h20⟩ := reasonRank_of_informational r hr
    have hroom := State.recordRoom_two hon hhas hprod hpresent hserved hquota hfree hsev hpend hstall
    exact ⟨_, exec_terminalReport_informational h hr, State.inform_spec hroom h0 h20 hn hn64 htime rfl⟩
  · rw [exec_coalesceExpire, State.pushHeld_eq, State.pushDue_foldl_of_open hc s.lg.held hd]
  · have hpush : s.pushHeld = s.pushDue h := by rw [State.pushHeld_eq, hheld]; rfl
    have hnil : s.lg.held.filter (·.item ≠ h.item) = [] := by simp [hheld]
    refine ⟨_, (s.modLg fun l => { l with held := l.held.filter (·.item ≠ h.item) }).disarm (.coalesce h.item),
      by rw [exec_coalesceExpire, hpush, State.pushDue_of_ended hend], State.armed_disarm _ _, ?_, rfl⟩
    rw [← hnil]
    rfl

end Sys2Proof.Machine
end

section
/-! The read of PP_WINDOWS_LO and the clear commands (R52, R59, R60, R90, R175, R253, R483). -/
namespace Sys2Proof.Machine

/-! ## Sets as numbers -/

theorem testBit_foldl_two_pow (l : List Nat) (a g : Nat) :
    (l.foldl (fun a b => a ||| 2 ^ b) a).testBit g = (a.testBit g || l.contains g) := by
  induction l generalizing a with
  | nil => simp
  | cons b l ih =>
    rw [List.foldl_cons, ih, Nat.testBit_or, Nat.testBit_two_pow, List.contains_cons, Bool.or_assoc]
    simp [beq_eq_decide, eq_comm]

theorem bitAt_ofSet (l : List Nat) (g : Nat) : bitAt (ofSet l) g = l.contains g := by
  unfold bitAt ofSet
  rw [testBit_foldl_two_pow]
  simp

/-! ## PP_WINDOWS (R175, R483) -/

/-- The latched word holds the open groups from 32 on. -/
theorem State.bitAt_windowsHi (s : State) {g : Nat} (hg : g < 32) :
    bitAt ((s.setReg R.ppWindowsHiOpen (ofSet (s.openGroups.filter fun g => decide (32 ≤ g)) / 2 ^ 32)).reg R.ppWindowsHiOpen) g =
      s.openGroups.contains (32 + g) := by
  rw [State.reg_setReg_self]
  show Nat.testBit (_ % 2 ^ 32) g = _
  rw [Nat.testBit_mod_two_pow, Nat.testBit_div_two_pow, Nat.add_comm g]
  exact (congrArg₂ _ (decide_eq_true hg) (bitAt_ofSet _ _)).trans (by simp)

/-- The word that is read shows the open groups below 32. -/
theorem State.bitAt_windowsLo (s : State) {g : Nat} (hg : g < 32) :
    bitAt (s.view R.ppWindowsLoOpen 0 0) g = s.openGroups.contains g := by
  have hview : s.view R.ppWindowsLoOpen 0 0 = ofSet (s.openGroups.filter (· < 32)) := rfl
  rw [hview, bitAt_ofSet]
  simp [hg]

/-! ## Clears by a command bit (R7, R60, R90, R253) -/

theorem State.setCmd_onlyRegs (s : State) (r : Row) {ks : List Nat} (h : r.key 0 0 ∈ ks) : s.onlyRegs (s.setCmd r) ks := by
  unfold State.setCmd
  split
  · exact State.onlyRegs_setReg h
  · exact s.onlyRegs_refl _

theorem State.reg_setCmd {s : State} {r : Row} (h : s.alive = true) (hw : r.width = 1) : (s.setCmd r).reg r = 1 := by
  unfold State.setCmd
  rw [if_pos h, State.reg_setReg_self, hw]
  simp

/-- A command bit that clears a field: the field takes its value, the bit reads 1, and nothing else changes. -/
theorem State.clear_spec {s : State} {r c : Row} {v : Nat} (hw : c.width = 1) (hne : r.key 0 0 ≠ c.key 0 0) (hv : v < 2 ^ r.width) :
    ((s.setCmd c).setReg r v).reg r = v ∧ (s.alive = true → ((s.setCmd c).setReg r v).reg c = 1) ∧
    s.onlyRegs ((s.setCmd c).setReg r v) [r.key 0 0, c.key 0 0] := by
  refine ⟨?_, fun h => ?_, (s.setCmd_onlyRegs c (by simp)).trans (State.onlyRegs_setReg (by simp))⟩
  · rw [State.reg_setReg_self, Nat.mod_eq_of_lt hv]
  · rw [State.reg_setReg_ne _ _ _ _ _ _ _ _ hne, State.reg_setCmd h hw]

/-! ## GUARD_EN (R52, R59) -/

theorem exec_guardEnClear_off {s : State} (h : s.flag R.pcCtrlGuardEn = false) : exec .guardEnClear s = .next s := by
  show execGuardEnClear s = _
  simp [execGuardEnClear, h]

/-- Clearing the bit leaves the state of the plan alone. -/
theorem State.flag_run_setReg_guardEn (s : State) : (s.setReg R.pcCtrlGuardEn 0).flag R.ppStatusRun = s.flag R.ppStatusRun := by
  unfold State.flag
  rw [State.reg_setReg_ne _ _ _ _ _ _ _ _ (by decide)]

theorem exec_guardEnClear_idle {s : State} (h : s.flag R.pcCtrlGuardEn = true) (hrun : s.flag R.ppStatusRun = false) :
    exec .guardEnClear s = .next (s.setReg R.pcCtrlGuardEn 0) := by
  show execGuardEnClear s = _
  simp [execGuardEnClear, h, State.flag_run_setReg_guardEn, hrun]

theorem exec_guardEnClear_run {s : State} (h : s.flag R.pcCtrlGuardEn = true) (hrun : s.flag R.ppStatusRun = true) :
    exec .guardEnClear s = .next ((s.setReg R.pcCtrlGuardEn 0).paceRecord false true) := by
  show execGuardEnClear s = _
  simp [execGuardEnClear, h, State.flag_run_setReg_guardEn, hrun]

/-- The PACE_GUARD record of a cleared GUARD_EN, with HOST_REQ and the status bits as before (R59). -/
theorem State.paceRecord_guardEnClear (s : State) : (s.setReg R.pcCtrlGuardEn 0).paceRecord false true =
    (s.setReg R.pcCtrlGuardEn 0).inform (s.setReg R.pcCtrlGuardEn 0).firstResult 0x0C (s.reg R.pcLevelLevel)
      (8 + 2 * s.reg R.pcStatusUnguaranteed + 4 * s.reg R.pcStatusMonFail + 16 * s.reg R.pcStatusCertExceed) := by
  have hkept (r : Row) (hr : R.pcCtrlGuardEn.key 0 0 ≠ r.key 0 0) : (s.setReg R.pcCtrlGuardEn 0).reg r = s.reg r :=
    s.reg_setReg_ne _ _ _ _ _ _ _ hr
  unfold State.paceRecord State.paceFlags
  rw [hkept R.pcLevelLevel (by decide), hkept R.pcStatusUnguaranteed (by decide), hkept R.pcStatusMonFail (by decide),
    hkept R.pcStatusCertExceed (by decide)]
  congr 1
  simp only [ofFlag, if_true, Bool.false_eq_true, if_false]
  omega

/-- Settles O8: the latched words are the two halves of the open groups, each clear writes its field and its command bit, and the
clear of GUARD_EN adds its record while a plan runs. -/
theorem windowsReadsAndClears : Obligations.WindowsReadsAndClears := by
  refine ⟨fun s h => exec_guardEnClear_off h, fun s _ => ⟨_, rfl, fun g hg => s.bitAt_windowsHi hg, fun g hg =>
    State.bitAt_windowsLo _ hg, State.onlyRegs_setReg (by simp)⟩, fun s => ⟨_, rfl, ?_⟩, fun s => ⟨_, rfl, ?_⟩,
    fun s hfree => ⟨_, rfl, ?_⟩, fun s h hrun => ⟨_, exec_guardEnClear_idle h hrun, ?_, State.onlyRegs_setReg (by simp)⟩,
    fun s h hrun => ⟨_, exec_guardEnClear_run h hrun, s.paceRecord_guardEnClear⟩⟩
  · exact State.clear_spec rfl (by decide) (by decide)
  · exact State.clear_spec rfl (by decide) (by decide)
  · exact State.clear_spec rfl (by decide) hfree
  · exact s.reg_setReg_self _ _ _ _

end Sys2Proof.Machine
end

section
/-! The host step: its summary, a GO that is held, and the end of its grace (R40, R166, R432 to R434). -/
namespace Sys2Proof.Machine

/-! ## The summary (R426, R432) -/

theorem State.ringWrite_frame (s : State) (n base wp log2 : Nat) (entry : List Byte) : s.ringWrite n base wp log2 entry =
    { s with hostMem := (s.ringWrite n base wp log2 entry).hostMem, hi := (s.ringWrite n base wp log2 entry).hi } := by
  unfold State.ringWrite
  dsimp only
  split <;> rfl

/-- A summary changes the host's memory, the host interface and registers, not the plan processor. -/
theorem State.postSummary_pp (s : State) (w : Nat) (sreg0 sreg1 : Cell64) (late : Bool) :
    (s.postSummary w sreg0 sreg1 late).pp = s.pp := by
  unfold State.postSummary
  extract_lets wp l u
  split
  · rw [State.vector_frame]
    show u.pp = s.pp
    unfold u
    rw [State.ringWrite_frame]
  · rfl

/-! ## The operation and its wait -/

/-- The host-step operation k has posted its summary (R432). -/
def State.hostBegun (s : State) (k : Nat) (o : SlotOp) : State :=
  (s.postSummary (leNat (s.opData o (16 * o.opnd 43 24) 16)) o.sreg0 o.sreg1 s.latePrev).modOp k fun o => { o with begun := true }

theorem State.heldGo_hostBegun (s : State) (k : Nat) (o : SlotOp) : (s.hostBegun k o).pp.heldGo = s.pp.heldGo := by
  unfold State.hostBegun State.modOp
  rw [State.modPp_pp, State.postSummary_pp]

section
variable {s : State} {k : Nat} {o : SlotOp}

theorem exec_hostStep_waits (hop : s.opAt k 7 = some o) (hbegun : o.begun = false) (hgo : s.pp.heldGo = none) :
    exec (.hostStep k) s = .next (((s.hostBegun k o).arm .grace ((s.hostBegun k o).scaled
      (10 * (s.hostBegun k o).reg R.ppStepGraceGrace))).modPp fun p => { p with hostWait := some o.step }) := by
  have hheld := (s.heldGo_hostBegun k o).trans hgo
  unfold State.hostBegun at hheld ⊢
  show execHostStep k s = _
  simp only [execHostStep, hop, hbegun, hheld, Bool.false_eq_true, if_false]

theorem exec_hostStep_goes {g : GoArgs} {i : ItemId} (hop : s.opAt k 7 = some o) (hbegun : o.begun = false)
    (hgo : s.pp.heldGo = some (g, i)) : exec (.hostStep k) s =
      .next (((((s.hostBegun k o).modPp fun p => { p with heldGo := none }).applyGo g).endHostStep o.step .go).answer
        { stream := streamOf i, item := i, op := 2, args := [] } 0 0) := by
  have hheld := (s.heldGo_hostBegun k o).trans hgo
  unfold State.hostBegun at hheld ⊢
  show execHostStep k s = _
  simp only [execHostStep, hop, hbegun, hheld, Bool.false_eq_true, if_false]

end

theorem State.requestHang_pp (s : State) : s.requestHang.pp = s.pp := by
  unfold State.requestHang
  split <;> rfl

/-- Overrides change registers, and of the plan processor the step's overrides alone (R54, R167, R327). -/
theorem State.applyGo_pp (s : State) (g : GoArgs) : (s.applyGo g).pp = { s.pp with overrides := g } := by
  unfold State.applyGo
  extract_lets u v
  have hu : u.pp = s.pp := by
    unfold u
    split <;> rfl
  have hv : v.pp = s.pp := by
    unfold v
    split
    · rw [State.requestHang_pp, hu]
    · exact hu
  show { v.pp with overrides := g } = _
  rw [hv]

/-- The end of a host step finishes its operation, ends the wait and notes how it ended (R160, R166). -/
theorem State.endHostStep_pp (s : State) (step : Nat) (e : HostEnd) : (s.endHostStep step e).pp =
    { s.pp with ops := (s.endHostStep step e).pp.ops, hostWait := none, hostEnds := (step, e) :: s.pp.hostEnds } := by
  unfold State.endHostStep
  dsimp only
  split <;> rfl

/-- A GO that is held has been applied: its overrides are the step's, and the wait has ended with it. -/
theorem State.goApplied_pp (s : State) (g : GoArgs) (step : Nat) :
    ((s.applyGo g).endHostStep step .go).pp.overrides = g ∧ ((s.applyGo g).endHostStep step .go).pp.heldGo = s.pp.heldGo ∧
    ((s.applyGo g).endHostStep step .go).pp.hostWait = none ∧
    ((s.applyGo g).endHostStep step .go).pp.hostEnds.head? = some (step, .go) := by
  rw [State.endHostStep_pp, State.applyGo_pp]
  exact ⟨rfl, rfl, rfl, rfl⟩

/-! ## The end of the grace (R40, R166, R434) -/

theorem exec_stepGraceExpire_early {s : State} (h : s.due .grace = false) : exec .stepGraceExpire s = .next s := by
  show execStepGraceExpire s = _
  unfold execStepGraceExpire
  split <;> simp [h]

theorem exec_stepGraceExpire_due {s : State} {k step : Nat} {o : SlotOp} (hwait : s.pp.hostWait = some step)
    (hhost : s.waitingHost = some k) (hop : s.pp.ops[k]? = some o) (hdue : s.due .grace = true) :
    exec .stepGraceExpire s = .next ((((s.bump R.ppHostLateCount).inform s.firstResult 0x08 (s.reg R.pcLevelLevel) 0).applyGo {
      minValid := (GoArgs.ofBytes (s.opData o (16 * o.opnd 63 44) 56)).minValid,
      hostMin := (GoArgs.ofBytes (s.opData o (16 * o.opnd 63 44) 56)).hostMin }).endHostStep step .defaults) := by
  show execStepGraceExpire s = _
  simp [execStepGraceExpire, hwait, hhost, hop, hdue]

/-- Settles O26: with and without a held GO the operation posts its summary first, and at the end of the grace its defaults apply. -/
theorem hostStep : Obligations.HostStep := by
  refine ⟨fun k o s hop hbegun hgo => ⟨_, _, exec_hostStep_waits hop hbegun hgo, rfl, rfl, alGet_alPut_self _ _ _, rfl, rfl⟩,
    fun k o g i s hop hbegun hgo => ?_,
    fun k step o s hwait hhost hop hdue => ⟨_, _, exec_stepGraceExpire_due hwait hhost hop hdue, rfl, rfl⟩,
    fun s h => exec_stepGraceExpire_early h⟩
  obtain ⟨hover, hheld, hwait, hends⟩ := ((s.hostBegun k o).modPp fun p => { p with heldGo := none }).goApplied_pp g o.step
  exact ⟨_, _, exec_hostStep_goes hop hbegun hgo, hover, hheld, hwait, hends, rfl⟩

end Sys2Proof.Machine
end

section
/-! An interval of the pace monitors, and a failed monitor (R35 to R37, R50, R51, R53, R57, R60). -/
namespace Sys2Proof.Machine

/-! ## The fields of the monitors -/

/-- The bit address of one of the two fields of a monitor (R60). -/
def monKey (n k : Nat) : Prop := k = R.pcMonPace.key n 0 ∨ k = R.pcMonState.key n 0

theorem monKey_iff {n k : Nat} : monKey n k ↔ k = 8 * (0x100100 + 4 * n) ∨ k = 8 * (0x100100 + 4 * n) + 16 := Iff.rfl

theorem eq_of_monKey {m n k : Nat} (hm : monKey m k) (hn : monKey n k) : m = n := by
  rw [monKey_iff] at hm hn
  omega

theorem monKey_mem_keysOf {n k : Nat} (hn : n < 20) (h : monKey n k) : k ∈ keysOf R.pcMonPace ++ keysOf R.pcMonState := by
  have hkey (r : Row) (h1 : r.n1 = 20) (h2 : r.n2 = 1) : r.key n 0 ∈ keysOf r :=
    List.mem_flatMap.mpr ⟨n, by simp [h1, hn], by simp [h2]⟩
  rcases h with rfl | rfl
  · exact List.mem_append_left _ (hkey _ rfl rfl)
  · exact List.mem_append_right _ (hkey _ rfl rfl)

/-! ## Readings (R35, R36, R57) -/

/-- Monitors of a set have been read: their fields and Keeper's counts of missing readings may differ, and nothing else. -/
structure State.monsRead (s : State) (M : Nat → Prop) (t : State) : Prop where
  frame : t = { s with regs := t.regs, keeper := { s.keeper with monMiss := t.keeper.monMiss } }
  regs : s.regsOutside (fun k => ∃ n, n < 20 ∧ M n ∧ monKey n k) t

section
variable {s t u : State} {M : Nat → Prop}

theorem State.monsRead_refl (s : State) (M : Nat → Prop) : s.monsRead M s := ⟨rfl, s.regsOutside_refl _⟩

theorem State.monsRead.trans (h : s.monsRead M t) (h' : t.monsRead M u) : s.monsRead M u :=
  ⟨by rw [h'.frame, h.frame], fun r i j hk => (h'.regs r i j hk).trans (h.regs r i j hk)⟩

theorem State.monsRead.mono {N : Nat → Prop} (h : s.monsRead M t) (hN : ∀ n, M n → N n) : s.monsRead N t :=
  ⟨h.frame, fun r i j hk => h.regs r i j fun ⟨n, h20, hn, hkey⟩ => hk ⟨n, h20, hN n hn, hkey⟩⟩

theorem State.monsRead.setReg (h : s.monsRead M t) {r : Row} {v n : Nat} (h20 : n < 20) (hn : M n) (hr : monKey n (r.key n 0)) :
    s.monsRead M (t.setReg r v n) := ⟨by rw [h.frame]; rfl, h.regs.setReg ⟨n, h20, hn, hr⟩⟩

theorem State.monsRead.modMiss (h : s.monsRead M t) {f : Keeper → List Nat} :
    s.monsRead M (t.modKeeper fun k => { k with monMiss := f k }) := ⟨by rw [h.frame]; rfl, h.regs.of_regs rfl⟩

/-- The fields of a monitor that is not in the set read as before. -/
theorem State.monsRead.reg_mon (h : s.monsRead M t) {n : Nat} (hn : ¬ M n) :
    t.reg R.pcMonPace n = s.reg R.pcMonPace n ∧ t.reg R.pcMonState n = s.reg R.pcMonState n :=
  ⟨h.regs _ _ _ fun ⟨_, _, hm, hk⟩ => hn (eq_of_monKey hk (.inl rfl) ▸ hm),
    h.regs _ _ _ fun ⟨_, _, hm, hk⟩ => hn (eq_of_monKey hk (.inr rfl) ▸ hm)⟩

/-- A field outside the fields of the twenty monitors reads as before. -/
theorem State.monsRead.reg_other (h : s.monsRead M t) (r : Row) (hr : r.key 0 0 < 8 * 0x100100 ∨ 8 * 0x100150 ≤ r.key 0 0) :
    t.reg r = s.reg r := h.regs _ _ _ fun ⟨n, h20, _, hk⟩ => by
  rw [monKey_iff] at hk
  omega

theorem State.monOn_congr {n : Nat} (hpart : t.part = s.part) (hon : t.reg R.pwDomStateOn = s.reg R.pwDomStateOn) :
    t.monOn n = s.monOn n := by
  unfold State.monOn State.domOn State.member
  rw [hpart, hon]

theorem State.monsRead.monOn (h : s.monsRead M t) (n : Nat) : t.monOn n = s.monOn n :=
  State.monOn_congr (by rw [h.frame]) (h.reg_other _ (by decide))

end

/-- What a monitor's register shows in t after its reading in s. -/
structure State.monShows (s : State) (n : Nat) (r : Option (BitVec 16)) (t : State) : Prop where
  off : s.monOn n = false → t.reg R.pcMonState n = 3 ∧ t.reg R.pcMonPace n = s.reg R.pcMonPace n
  value : ∀ v, r = some v → s.monOn n = true →
    t.reg R.pcMonPace n = v.toNat ∧ t.reg R.pcMonState n = if 0x800 ≤ v.toNat ∧ v.toNat ≤ 0x3000 then 0 else 2

theorem State.takeReading_monsRead (s : State) {n : Nat} (h20 : n < 20) (r : Option (BitVec 16)) :
    s.monsRead (· = n) (s.takeReading n r) := by
  have hrefl := s.monsRead_refl (· = n)
  unfold State.takeReading
  split
  · exact (hrefl.setReg h20 rfl (.inr rfl)).modMiss
  · split
    · extract_lets m u
      split
      · exact hrefl.modMiss.setReg h20 rfl (.inr rfl)
      · exact hrefl.modMiss
    · exact (hrefl.setReg h20 rfl (.inl rfl)).modMiss.setReg h20 rfl (.inr rfl)

theorem badReading_eq (v : Nat) : (if badReading v then 2 else 0) = if 0x800 ≤ v ∧ v ≤ 0x3000 then 0 else 2 := by
  unfold badReading
  simp only [Bool.or_eq_true, decide_eq_true_eq]
  split <;> split <;> omega

theorem State.takeReading_monShows (s : State) (n : Nat) (r : Option (BitVec 16)) : s.monShows n r (s.takeReading n r) := by
  have hne : R.pcMonState.key n 0 ≠ R.pcMonPace.key n 0 := Nat.ne_of_gt (Nat.lt_add_of_pos_right (by decide))
  refine ⟨fun hoff => ?_, fun v hv hon => ?_⟩
  · have hread : s.takeReading n r = (s.setReg R.pcMonState 3 n).modKeeper fun k => { k with monMiss := k.monMiss.set n 0 } := by
      simp [State.takeReading, hoff]
    rw [hread, State.reg_modKeeper, State.reg_modKeeper]
    exact ⟨s.reg_setReg_self _ _ _ _, s.reg_setReg_ne _ _ _ _ _ _ _ hne⟩
  · subst hv
    have hread : s.takeReading n (some v) = ((s.setReg R.pcMonPace v.toNat n).modKeeper fun k =>
        { k with monMiss := k.monMiss.set n 0 }).setReg R.pcMonState (if badReading v.toNat then 2 else 0) n := by
      simp [State.takeReading, hon]
    rw [hread, State.reg_setReg_self, State.reg_setReg_ne _ _ _ _ _ _ _ _ hne, State.reg_modKeeper, State.reg_setReg_self,
      badReading_eq]
    exact ⟨Nat.mod_eq_of_lt v.isLt, by split <;> rfl⟩

/-- Readings before and after that of a monitor do not touch what it shows. -/
theorem State.monShows.of_monsRead {s u v t : State} {n : Nat} {M N : Nat → Prop} {r : Option (BitVec 16)} (h : u.monShows n r v)
    (hbefore : s.monsRead M u) (hM : ¬ M n) (hafter : v.monsRead N t) (hN : ¬ N n) : s.monShows n r t := by
  obtain ⟨hpace, hstate⟩ := hafter.reg_mon hN
  obtain ⟨hfirst, -⟩ := hbefore.reg_mon hM
  have hon := hbefore.monOn n
  constructor
  · rw [hpace, hstate, ← hfirst, ← hon]
    exact h.off
  · rw [hpace, hstate, ← hon]
    exact h.value

/-- Readings from monitor n on. -/
theorem State.takeReadings_monsRead (s : State) (n : Nat) (l : List (Option (BitVec 16))) :
    s.monsRead (n ≤ ·) (s.takeReadings n l) := by
  induction l generalizing s n with
  | nil => exact s.monsRead_refl _
  | cons r l ih =>
    unfold State.takeReadings
    split
    · next h20 =>
      have hfirst := (s.takeReading_monsRead h20 r).mono (N := (n ≤ ·)) fun m hm => Nat.le_of_eq hm.symm
      exact hfirst.trans ((ih _ _).mono fun m hm => Nat.le_of_succ_le hm)
    · exact s.monsRead_refl _

theorem State.takeReadings_monShows (s : State) (n : Nat) {l : List (Option (BitVec 16))} {k : Nat} {r : Option (BitVec 16)}
    (hk : l[k]? = some r) (h20 : n + k < 20) : s.monShows (n + k) r (s.takeReadings n l) := by
  induction l generalizing s n k with
  | nil => simp at hk
  | cons a l ih =>
    have hn : n < 20 := by omega
    unfold State.takeReadings
    rw [if_pos hn]
    cases k with
    | zero =>
      obtain rfl : a = r := by simpa using hk
      exact (s.takeReading_monShows n a).of_monsRead (s.monsRead_refl fun _ => False) id
        ((s.takeReading n a).takeReadings_monsRead (n + 1) l) (by omega)
    | succ k =>
      have hrest := ih (s.takeReading n a) (n + 1) (by simpa using hk) (by omega)
      rw [Nat.add_assoc, Nat.add_comm 1] at hrest
      exact hrest.of_monsRead (s.takeReading_monsRead hn a) (by omega) (State.monsRead_refl _ fun _ => False) id

/-! ## The device pace (R37, R53, R60) -/

theorem State.pguard_congr {s t : State} (hhist : t.keeper.paceHist = s.keeper.paceHist)
    (hpace : t.reg R.pcPacePace = s.reg R.pcPacePace) : t.pguard = s.pguard := by
  unfold State.pguard
  rw [hhist, hpace]

theorem State.pguard_of_ne_nil {s : State} (h : s.keeper.paceHist ≠ []) : s.pguard = s.keeper.paceHist.foldl max 0 := by
  unfold State.pguard
  cases hhist : s.keeper.paceHist with
  | nil => exact absurd hhist h
  | cons p l => simp

/-- The fields that the device pace of an interval is written to. -/
def paceKeys : List Nat := [R.pcPacePace.key 0 0, R.pcPaceMon.key 0 0, R.pcPacePeakPeak.key 0 0]

/-- The largest pace so far follows P_guard (R60). -/
def State.notePeak (s : State) : State := if s.reg R.pcPacePeakPeak < s.pguard then s.setReg R.pcPacePeakPeak s.pguard else s

theorem State.notePeak_onlyRegs (s : State) : s.onlyRegs s.notePeak [R.pcPacePeakPeak.key 0 0] := by
  unfold State.notePeak
  split
  · exact State.onlyRegs_setReg (by simp)
  · exact s.onlyRegs_refl _

/-- The pace of an interval in PC_PACE and in the history of P_guard (R37). -/
def State.putPace (s : State) (p n : Nat) : State :=
  ((s.setReg R.pcPacePace p).setReg R.pcPaceMon n).modKeeper fun k => { k with paceHist := (p :: k.paceHist).take 8 }

theorem State.takePace_of_none {s : State} (h : s.pdev = none) : s.takePace = s := by simp [State.takePace, h]

theorem State.takePace_of_some {s : State} {p n : Nat} (h : s.pdev = some (p, n)) :
    s.takePace = (s.putPace (satTo 0xFFFF p) n).raiseBounds.notePeak := by
  unfold State.takePace
  rw [h]
  rfl

/-- What PC_PACE, the history and the bounds of issued bundles are after an interval that has a device pace. -/
theorem State.takePace_spec {s t : State} {p n : Nat} (h : s.pdev = some (p, n)) (hp : p < 2 ^ 16) (ht : t = s.takePace) :
    t.reg R.pcPacePace = p ∧ t.keeper = { s.keeper with paceHist := (p :: s.keeper.paceHist).take 8 } ∧
    t.pguard = t.keeper.paceHist.foldl max 0 ∧
    t.pp = { s.pp with issued := s.pp.issued.map fun e => { e with pace := max e.pace t.pguard } } := by
  rw [State.takePace_of_some h, satTo, Nat.min_eq_right (by omega)] at ht
  have hpace : (s.putPace p n).reg R.pcPacePace = p := by
    unfold State.putPace
    rw [State.reg_modKeeper, State.reg_setReg_ne _ _ _ _ _ _ _ _ (by decide), State.reg_setReg_self]
    exact Nat.mod_eq_of_lt hp
  obtain ⟨hframe, hregs⟩ := (s.putPace p n).raiseBounds.notePeak_onlyRegs
  rw [← ht] at hframe hregs
  have hkeeper : t.keeper = { s.keeper with paceHist := (p :: s.keeper.paceHist).take 8 } := by rw [hframe]; rfl
  have htpace : t.reg R.pcPacePace = (s.putPace p n).reg R.pcPacePace := hregs _ _ _ (by decide)
  have hguard : t.pguard = (s.putPace p n).pguard := State.pguard_congr (by rw [hkeeper]; rfl) htpace
  refine ⟨htpace.trans hpace, hkeeper, State.pguard_of_ne_nil (by simp [hkeeper]), ?_⟩
  rw [hguard, hframe]
  rfl

/-- The device pace of an interval enters nothing but PC_PACE, its peak, the history and the bounds of issued bundles. -/
theorem State.takePace_frame {s t : State} (ht : t = s.takePace) :
    t = { s with regs := t.regs, pp := { s.pp with issued := t.pp.issued },
                 keeper := { s.keeper with paceHist := t.keeper.paceHist } } ∧ s.regsBut t paceKeys := by
  cases h : s.pdev with
  | none =>
    rw [State.takePace_of_none h] at ht
    subst ht
    exact ⟨rfl, fun _ _ _ _ => rfl⟩
  | some x =>
    rw [State.takePace_of_some h] at ht
    have hput : s.onlyRegs ((s.setReg R.pcPacePace (satTo 0xFFFF x.1)).setReg R.pcPaceMon x.2) paceKeys :=
      (State.onlyRegs_setReg (by simp [paceKeys])).trans (State.onlyRegs_setReg (by simp [paceKeys]))
    obtain ⟨hframe, hregs⟩ := (s.putPace (satTo 0xFFFF x.1) x.2).raiseBounds.notePeak_onlyRegs
    rw [← ht] at hframe hregs
    refine ⟨by rw [hframe]; rfl, fun r i j hk => (hregs r i j ?_).trans (hput.2 r i j hk)⟩
    exact fun hm => hk (by simp [paceKeys, List.mem_singleton.mp hm])

/-! ## VDD_CORE and the status bits (R50, R51, R60) -/

theorem State.flag_setFlag (s : State) {r : Row} (b : Bool) (hw : r.width = 1) : (s.setFlag r b).flag r = b := by
  unfold State.flag State.setFlag
  rw [State.reg_setReg_self, hw]
  cases b <;> rfl

/-- Both status bits read what they are set to, and VDD_CORE stays. -/
theorem State.setPaceFlags (s : State) (b c : Bool) :
    ((s.setFlag R.pcStatusUnguaranteed b).setFlag R.pcStatusCertExceed c).reg R.pcStatusVsense = s.reg R.pcStatusVsense ∧
    ((s.setFlag R.pcStatusUnguaranteed b).setFlag R.pcStatusCertExceed c).flag R.pcStatusUnguaranteed = b ∧
    ((s.setFlag R.pcStatusUnguaranteed b).setFlag R.pcStatusCertExceed c).flag R.pcStatusCertExceed = c := by
  have hkept (t : State) (r : Row) (hr : R.pcStatusCertExceed.key 0 0 ≠ r.key 0 0) :
      (t.setFlag R.pcStatusCertExceed c).reg r = t.reg r := t.reg_setReg_ne _ _ _ _ _ _ _ hr
  refine ⟨?_, ?_, State.flag_setFlag _ _ rfl⟩
  · rw [hkept _ _ (by decide)]
    exact s.reg_setReg_ne _ _ _ _ _ _ _ (by decide)
  · rw [State.flag, hkept _ _ (by decide)]
    exact s.flag_setFlag b rfl

/-- The fields that VDD_CORE and the status bits are written to. -/
def statusKeys : List Nat := [R.pcStatusVsense.key 0 0, R.pcStatusUnguaranteed.key 0 0, R.pcStatusCertExceed.key 0 0]

/-- VDD_CORE is shown, and UNGUARANTEED and CERT_EXCEED follow it and P_guard. -/
theorem State.paceStatus_spec {s t : State} {v : BitVec 12} (ht : t = (s.setReg R.pcStatusVsense v.toNat).paceStatus) :
    t.reg R.pcStatusVsense = v.toNat ∧ t.pguard = s.pguard ∧
    t.flag R.pcStatusUnguaranteed = (decide (v.toNat < 720) || decide (0x19EC < t.pguard)) ∧
    t.flag R.pcStatusCertExceed = (decide (s.reg R.pcCertPCert < t.pguard) && decide (t.pguard ≤ 0x19EC)) ∧
    s.onlyRegs t statusKeys := by
  have hv : (s.setReg R.pcStatusVsense v.toNat).reg R.pcStatusVsense = v.toNat :=
    (s.reg_setReg_self _ _ _ _).trans (Nat.mod_eq_of_lt v.isLt)
  have hcert : (s.setReg R.pcStatusVsense v.toNat).reg R.pcCertPCert = s.reg R.pcCertPCert :=
    s.reg_setReg_ne _ _ _ _ _ _ _ (by decide)
  have honly : s.onlyRegs t statusKeys := by
    rw [ht]
    exact ((State.onlyRegs_setReg (by simp [statusKeys])).trans (State.onlyRegs_setReg (by simp [statusKeys]))).trans
      (State.onlyRegs_setReg (by simp [statusKeys]))
  have hguard : t.pguard = s.pguard := State.pguard_congr (by rw [honly.1]) (honly.2 _ _ _ (by decide))
  have hguard' : (s.setReg R.pcStatusVsense v.toNat).pguard = s.pguard :=
    State.pguard_congr rfl (s.reg_setReg_ne _ _ _ _ _ _ _ (by decide))
  unfold State.paceStatus at ht
  rw [hguard', ← hguard, hv, hcert] at ht
  obtain ⟨hvsense, hunguaranteed, hexceed⟩ := (s.setReg R.pcStatusVsense v.toNat).setPaceFlags
    (unguaranteedOf v.toNat t.pguard) (certExceedOf t.pguard (s.reg R.pcCertPCert))
  rw [← ht] at hvsense hunguaranteed hexceed
  exact ⟨hvsense.trans hv, hguard, hunguaranteed, hexceed, honly⟩

/-! ## The monitor that gives the device pace (R37) -/

theorem State.maxMon_spec (s : State) {l : List Nat} (h : l ≠ []) :
    ∃ n ∈ l, s.maxMon l = some n ∧ ∀ m ∈ l, s.reg R.pcMonPace m ≤ s.reg R.pcMonPace n := by
  induction l with
  | nil => exact absurd rfl h
  | cons a l ih =>
    rcases eq_or_ne l [] with rfl | hl
    · exact ⟨a, by simp, rfl, by simp⟩
    · obtain ⟨n, hn, hmax, hle⟩ := ih hl
      unfold State.maxMon
      rw [hmax]
      dsimp only
      split
      · next hna =>
        refine ⟨a, by simp, rfl, fun m hm => ?_⟩
        rcases List.mem_cons.mp hm with rfl | hm
        · exact Nat.le_refl _
        · exact Nat.le_trans (hle m hm) hna
      · next hna =>
        refine ⟨n, by simp [hn], rfl, fun m hm => ?_⟩
        rcases List.mem_cons.mp hm with rfl | hm
        · omega
        · exact hle m hm

/-- Where every monitor has a valid reading and none is excluded, one of the largest readings is the device pace as it is. -/
theorem State.pdev_of_all_valid {s : State} (hvalid : ∀ n, n < 20 → s.monValid n = true) (hout : s.keeper.monOut = []) :
    ∃ n, n < 20 ∧ s.pdev = some (s.reg R.pcMonPace n, n) ∧ ∀ m, m < 20 → s.reg R.pcMonPace m ≤ s.reg R.pcMonPace n := by
  have hall : (List.range 20).filter s.monValid = List.range 20 :=
    List.filter_eq_self.mpr fun n hn => hvalid n (List.mem_range.mp hn)
  obtain ⟨n, hn, hmax, hle⟩ := s.maxMon_spec (l := List.range 20) (by decide)
  refine ⟨n, List.mem_range.mp hn, ?_, fun m hm => hle m (List.mem_range.mpr hm)⟩
  simp [State.pdev, hall, hmax, hout]

theorem foldl_max_eq_of_greatest {l : List Nat} {x : Nat} (hx : x ∈ l) (hle : ∀ y ∈ l, y ≤ x) : l.foldl max 0 = x := by
  rw [List.foldl_max, List.max?_eq_some_iff.mpr ⟨hx, hle⟩]
  simp

/-! ## The interval (R35 to R37) -/

theorem exec_paceMonitorInterval_early {s : State} {readings : List (Option (BitVec 16))} {vsense : BitVec 12}
    (h : s.paceDue = false) : exec (.paceMonitorInterval readings vsense) s = .next s := by
  show execPaceMonitorInterval readings vsense s = _
  simp [execPaceMonitorInterval, h]

/-- The readings of an interval that is due have been taken. -/
def State.intervalRead (s : State) (readings : List (Option (BitVec 16))) : State :=
  (s.modKeeper fun k => { k with paceAt := k.paceAt + 100000 }).takeReadings 0 readings

theorem exec_paceMonitorInterval_due {s : State} {readings : List (Option (BitVec 16))} {vsense : BitVec 12}
    (h : s.paceDue = true) : exec (.paceMonitorInterval readings vsense) s =
      .next (((s.intervalRead readings).takePace.setReg R.pcStatusVsense vsense.toNat).paceStatus) := by
  show execPaceMonitorInterval readings vsense s = _
  simp [execPaceMonitorInterval, h, State.intervalRead]

/-- The fields of the pace block that an interval writes. -/
def intervalKeys : List Nat := keysOf R.pcMonPace ++ keysOf R.pcMonState ++ (paceKeys ++ statusKeys)

/-- An interval's readings u, its device pace w and its status bits t. -/
structure State.interval (s : State) (readings : List (Option (BitVec 16))) (vsense : BitVec 12) (u w t : State) : Prop where
  read : u = s.intervalRead readings
  pace : w = u.takePace
  status : t = (w.setReg R.pcStatusVsense vsense.toNat).paceStatus

section
variable {s u w t : State} {readings : List (Option (BitVec 16))} {vsense : BitVec 12}

theorem State.exec_interval (h : s.paceDue = true) (readings : List (Option (BitVec 16))) (vsense : BitVec 12) :
    ∃ u w t, exec (.paceMonitorInterval readings vsense) s = .next t ∧ s.interval readings vsense u w t :=
  ⟨_, _, _, exec_paceMonitorInterval_due h, rfl, rfl, rfl⟩

theorem State.interval.monsRead (h : s.interval readings vsense u w t) :
    (s.modKeeper fun k => { k with paceAt := k.paceAt + 100000 }).monsRead (0 ≤ ·) u :=
  h.read ▸ State.takeReadings_monsRead _ 0 readings

/-- What comes after the readings leaves the monitors' fields alone, and writes the six other fields of the pace block only. -/
theorem State.interval.regs_after (h : s.interval readings vsense u w t) :
    u.regsBut t (paceKeys ++ statusKeys) := fun r i j hk => by
  obtain ⟨-, hw⟩ := State.takePace_frame h.pace
  obtain ⟨-, -, -, -, -, ht⟩ := State.paceStatus_spec h.status
  rw [List.mem_append, not_or] at hk
  exact (ht r i j hk.2).trans (hw r i j hk.1)

theorem State.interval.frame (h : s.interval readings vsense u w t) :
    t = { s with regs := t.regs, pp := { s.pp with issued := t.pp.issued },
                 keeper := { s.keeper with paceAt := s.keeper.paceAt + 100000, paceHist := t.keeper.paceHist,
                                           monMiss := t.keeper.monMiss } } := by
  obtain ⟨hw, -⟩ := State.takePace_frame h.pace
  obtain ⟨-, -, -, -, ht, -⟩ := State.paceStatus_spec h.status
  rw [ht, hw, h.monsRead.frame]
  rfl

theorem State.interval.regs (h : s.interval readings vsense u w t) : s.regsBut t intervalKeys := fun r i j hk => by
  rw [intervalKeys, List.mem_append, not_or] at hk
  obtain ⟨hmon, hrest⟩ := hk
  exact (h.regs_after r i j hrest).trans (h.monsRead.regs r i j fun ⟨n, h20, _, hn⟩ => hmon (monKey_mem_keysOf h20 hn))

theorem State.interval.shows (h : s.interval readings vsense u w t) {n : Nat} {r : Option (BitVec 16)} (hn : n < 20)
    (hr : readings[n]? = some r) : s.monShows n r u := by
  have hshows := (s.modKeeper fun k => { k with paceAt := k.paceAt + 100000 }).takeReadings_monShows 0 hr (by omega)
  rw [Nat.zero_add] at hshows
  rw [h.read]
  exact ⟨hshows.off, hshows.value⟩

/-- The monitors' fields after the interval are those after the readings. -/
theorem State.interval.reg_mon (h : s.interval readings vsense u w t) {n : Nat} :
    t.reg R.pcMonPace n = u.reg R.pcMonPace n ∧ t.reg R.pcMonState n = u.reg R.pcMonState n := by
  have hafter (r : Row) (hr : 8 * 0x100100 ≤ r.key n 0) : t.reg r n = u.reg r n := h.regs_after r n 0 fun hm => by
    have hlow : ∀ k ∈ paceKeys ++ statusKeys, k < 8 * 0x100100 := by decide
    exact absurd (hlow _ hm) (by omega)
  have hpace : R.pcMonPace.key n 0 = 8 * (0x100100 + 4 * n) := rfl
  have hstate : R.pcMonState.key n 0 = 8 * (0x100100 + 4 * n) + 16 := rfl
  exact ⟨hafter _ (by omega), hafter _ (by omega)⟩

/-- VSENSE and the two status bits after an interval (R50, R51). -/
theorem State.interval.bits (h : s.interval readings vsense u w t) : t.reg R.pcStatusVsense = vsense.toNat ∧
    t.flag R.pcStatusUnguaranteed = (decide (vsense.toNat < 720) || decide (0x19EC < t.pguard)) ∧
    t.flag R.pcStatusCertExceed = (decide (s.reg R.pcCertPCert < t.pguard) && decide (t.pguard ≤ 0x19EC)) := by
  obtain ⟨hvsense, -, hunguaranteed, hexceed, hstatus⟩ := State.paceStatus_spec h.status
  have hcert : w.reg R.pcCertPCert = s.reg R.pcCertPCert :=
    (hstatus.2 _ _ _ (by decide)).symm.trans (h.regs _ _ _ (by decide))
  rw [hcert] at hexceed
  exact ⟨hvsense, hunguaranteed, hexceed⟩

end

section
variable {s u w t : State} {readings : List (BitVec 16)} {vsense : BitVec 12}
  (h : s.interval (readings.map some) vsense u w t) (hlen : readings.length = 20)
  (hgood : ∀ v ∈ readings, 0x800 ≤ v.toNat ∧ v.toNat ≤ 0x3000) (hon : ∀ n, n < 20 → s.monOn n = true)
include h hlen hgood hon

/-- Twenty good readings with every domain on: each enters its PC_MON valid, and with no monitor excluded all of them count. -/
theorem State.interval.all_read {n : Nat} (hn : n < 20) :
    u.reg R.pcMonPace n = (readings.getD n 0).toNat ∧ u.reg R.pcMonState n = 0 ∧ readings.getD n 0 ∈ readings := by
  have hlt : n < readings.length := by omega
  have hget : readings.getD n 0 = readings[n] := by simp [hlt]
  have hmem : readings[n] ∈ readings := List.getElem_mem hlt
  obtain ⟨hpace, hstate⟩ := (h.shows hn (r := some readings[n]) (by simp [hlt])).value _ rfl (hon n hn)
  rw [if_pos (hgood _ hmem)] at hstate
  exact ⟨by rw [hpace, hget], hstate, hget ▸ hmem⟩

/-- Then the device pace is the largest reading. -/
theorem State.interval.pdev (hout : s.keeper.monOut = []) :
    ∃ n, u.pdev = some ((readings.map (·.toNat)).foldl max 0, n) ∧ (readings.map (·.toNat)).foldl max 0 < 2 ^ 16 := by
  have huout : u.keeper.monOut = [] := by rw [h.monsRead.frame]; exact hout
  have hvalid (n : Nat) (hn : n < 20) : u.monValid n = true := by
    obtain ⟨-, hstate, -⟩ := h.all_read hlen hgood hon hn
    have huon : u.monOn n = true := (h.monsRead.monOn n).trans (hon n hn)
    simp [State.monValid, huon, hstate, huout]
  obtain ⟨n, hn, hdev, hle⟩ := State.pdev_of_all_valid hvalid huout
  obtain ⟨hpace, -, hmem⟩ := h.all_read hlen hgood hon hn
  rw [hpace] at hdev hle
  have hmax : (readings.map (·.toNat)).foldl max 0 = (readings.getD n 0).toNat :=
    foldl_max_eq_of_greatest (List.mem_map_of_mem hmem) fun y hy => by
      obtain ⟨v, hv, rfl⟩ := List.mem_map.mp hy
      obtain ⟨m, hm, rfl⟩ := List.getElem_of_mem hv
      have hm20 : m < 20 := by omega
      obtain ⟨hm', -⟩ := h.all_read hlen hgood hon hm20
      rw [List.getD_eq_getElem _ _ hm] at hm'
      exact hm' ▸ hle m hm20
  rw [hmax]
  exact ⟨n, hdev, BitVec.isLt _⟩

/-- The device pace, the history of P_guard and the bounds of issued bundles after such an interval. -/
theorem State.interval.pace_of_good (hout : s.keeper.monOut = []) :
    t.reg R.pcPacePace = (readings.map (·.toNat)).foldl max 0 ∧
    t.keeper.paceHist = (t.reg R.pcPacePace :: s.keeper.paceHist).take 8 ∧
    t.pguard = t.keeper.paceHist.foldl max 0 ∧
    t.pp = { s.pp with issued := s.pp.issued.map fun e => { e with pace := max e.pace t.pguard } } := by
  obtain ⟨n, hdev, hlt⟩ := h.pdev hlen hgood hon hout
  obtain ⟨hpace, hkeeper, hguard, hpp⟩ := State.takePace_spec hdev hlt h.pace
  obtain ⟨-, htguard, -, -, hstatus⟩ := State.paceStatus_spec h.status
  have htpace : t.reg R.pcPacePace = w.reg R.pcPacePace := hstatus.2 _ _ _ (by decide)
  have htkeeper : t.keeper = w.keeper := by rw [hstatus.1]
  have htpp : t.pp = w.pp := by rw [hstatus.1]
  refine ⟨htpace.trans hpace, ?_, by rw [htguard, hguard, htkeeper], ?_⟩
  · rw [htpace, hpace, htkeeper, hkeeper, h.monsRead.frame]
    rfl
  · rw [htpp, hpp, htguard, h.monsRead.frame]
    rfl

end

/-! ## A failed monitor (R57) -/

/-- A monitor has failed and is excluded: MON_FAIL is set. -/
def State.excludeMon (s : State) (n : Nat) : State :=
  (s.modKeeper fun k => { k with monOut := k.monOut ++ [n] }).setReg R.pcStatusMonFail 1

/-- The fault of a failed monitor, and the guard's hold at the deepest level where the failure is severe. -/
def State.monFault (s : State) (n : Nat) (severe : Bool) : State :=
  (if severe then s.modKeeper fun k => { k with guardDeepest := true } else s).raise (0x100100 + 4 * n) 16 (if severe then 2 else 1) 1

/-- Only Keeper's list and MON_FAIL follow the exclusion. -/
theorem State.excludeMon_spec (s : State) (n : Nat) : (s.excludeMon n).reg R.pcStatusMonFail = 1 ∧
    (s.excludeMon n).keeper = { s.keeper with monOut := s.keeper.monOut ++ [n] } ∧
    s.excludeMon n = { s with regs := (s.excludeMon n).regs, keeper := (s.excludeMon n).keeper } ∧
    s.regsBut (s.excludeMon n) [R.pcStatusMonFail.key 0 0] :=
  ⟨State.reg_setReg_self _ _ _ _ _, rfl, rfl, fun _ _ _ hk => State.reg_setReg_ne _ _ _ _ _ _ _ _ fun he => hk (by simp [he])⟩

section
variable {s : State} {n : Nat}

/-- A monitor fails while its domain is on and it has not been excluded. -/
theorem exec_monitorFailed_fails (hon : s.monOn n = true) (hbad : 4 ≤ s.keeper.monMiss.getD n 0 ∨ s.reg R.pcMonState n = 2)
    (hnew : n ∉ s.keeper.monOut) : exec (.monitorFailed n) s = .next ((s.excludeMon n).monFault n
      (decide (2 ≤ (s.excludeMon n).keeper.monOut.length) || decide (16 ≤ n))) := by
  have hfails : (s.monOn n && (decide (4 ≤ s.keeper.monMiss.getD n 0) || s.reg R.pcMonState n == 2) &&
      !(s.keeper.monOut.contains n)) = true := by simpa [hon, hnew] using hbad
  show execMonitorFailed n s = _
  unfold execMonitorFailed
  rw [if_pos hfails]
  rfl

/-- The failure is not the only one of monitors 0 to 15 where another monitor has failed or the monitor is one of the last four. -/
theorem State.excludeMon_severe : (decide (2 ≤ (s.excludeMon n).keeper.monOut.length) || decide (16 ≤ n)) =
    decide (s.keeper.monOut ≠ [] ∨ 16 ≤ n) := by
  have hlen : 2 ≤ (s.excludeMon n).keeper.monOut.length ↔ s.keeper.monOut ≠ [] := by
    rw [(s.excludeMon_spec n).2.1, ← List.length_pos_iff]
    simp [Nat.succ_le_iff]
  rw [Bool.decide_or, decide_eq_decide.mpr hlen]

theorem exec_monitorFailed_idle (h : s.monOn n = false ∨ n ∈ s.keeper.monOut) : exec (.monitorFailed n) s = .next s := by
  show execMonitorFailed n s = _
  rcases h with h | h <;> simp [execMonitorFailed, h]

end

/-- Settles O10: the readings show in their monitors' fields, the device pace follows them, the status bits follow P_guard, and a failed
monitor is excluded with its fault. -/
theorem paceAndMonitors : Obligations.PaceAndMonitors := by
  refine ⟨fun readings vsense s hlen hgood hdue hon hout => ?_, fun readings vsense s hdue => ?_,
    fun readings vsense s h => exec_paceMonitorInterval_early h,
    fun n s hon hbad hnew hfirst h16 => ?_, fun n s hon hbad hnew hmore => ?_,
    fun n s h => exec_monitorFailed_idle h⟩
  · have hgood' : ∀ v ∈ readings, 0x800 ≤ v.toNat ∧ v.toNat ≤ 0x3000 := by simpa using hgood
    have hon' : ∀ n, n < 20 → s.monOn n = true := by simpa using hon
    obtain ⟨u, w, t, hexec, h⟩ := State.exec_interval hdue (readings.map some) vsense
    obtain ⟨hpace, hhist, hguard, hpp⟩ := h.pace_of_good hlen hgood' hon' hout
    obtain ⟨hvsense, hunguaranteed, hexceed⟩ := h.bits
    refine ⟨t, hexec, fun n hn => ?_, hpace, hhist, hguard, hvsense, hunguaranteed, hexceed, hpp, ?_, h.regs⟩
    · obtain ⟨hread, hstate, -⟩ := h.all_read hlen hgood' hon' hn
      exact ⟨h.reg_mon.1.trans hread, h.reg_mon.2.trans hstate⟩
    · rw [h.frame]
  · obtain ⟨u, w, t, hexec, h⟩ := State.exec_interval hdue readings vsense
    obtain ⟨hvsense, hunguaranteed, hexceed⟩ := h.bits
    refine ⟨t, hexec, hvsense, by rw [h.frame], hunguaranteed, hexceed, fun n hn hlt hoff => ?_, fun n v hn hv hon => ?_,
      by rw [h.frame]⟩
    · rw [h.reg_mon.1, h.reg_mon.2]
      exact (h.shows hn (List.getElem?_eq_getElem hlt)).off hoff
    · rw [h.reg_mon.1, h.reg_mon.2]
      exact (h.shows hn hv).value v rfl hon
  · obtain ⟨hfail, hkeeper, hframe, hregs⟩ := s.excludeMon_spec n
    refine ⟨_, s.excludeMon n, exec_monitorFailed_fails hon hbad hnew, hfail, ?_, hframe, hregs, ?_⟩
    · rw [hkeeper, hfirst]
      rfl
    · rw [State.excludeMon_severe, decide_eq_false (by simp [hfirst, h16])]
      rfl
  · obtain ⟨hfail, hkeeper, hframe, hregs⟩ := s.excludeMon_spec n
    refine ⟨_, (s.excludeMon n).modKeeper fun k => { k with guardDeepest := true }, exec_monitorFailed_fails hon hbad hnew, hfail,
      rfl, rfl, hregs, ?_⟩
    rw [State.excludeMon_severe, decide_eq_true hmore]
    rfl

end Sys2Proof.Machine
end

section
/-! The samples of power (R74): an average that does not fit PW_POWER. -/
namespace Sys2Proof.Machine

/-- A running device whose list of power samples holds a sample of 131,072 mW, which no run reaches. -/
def wideHistState : State :=
  (({ keeper := { mode := .run, powerHist := [131072] } } : State).setReg R.pwPowerPeakMw 5).setReg R.pwPowerOver 1

theorem meanOf_wideHist : meanOf [0, 131072] = 65536 := by
  have h : openDiv 74 131072 2 = 65536 := by simp [openDiv]
  exact congrArg Int.toNat h

/-- With OVER set, a power sample with a larger average than any before writes that average to both of its fields. -/
theorem exec_powerSample_over {s : State} {mw : BitVec 16} (h : s.alive = true) (hover : s.flag R.pwPowerOver = true)
    (hpeak : s.reg R.pwPowerPeakMw < meanOf ((mw.toNat :: s.keeper.powerHist).take 100)) :
    exec (.powerSample mw) s = .next (((s.modKeeper fun k => { k with powerHist := (mw.toNat :: s.keeper.powerHist).take 100 }).setReg
      R.pwPowerMw (meanOf ((mw.toNat :: s.keeper.powerHist).take 100))).setReg
      R.pwPowerPeakMw (meanOf ((mw.toNat :: s.keeper.powerHist).take 100))) := by
  show execPowerSample mw s = _
  unfold execPowerSample
  rw [if_neg (by simp [h])]
  extract_lets l avg u v
  have hv : v = u.setReg R.pwPowerPeakMw avg := if_pos (by
    rwa [State.reg_setReg_ne _ _ _ _ _ _ _ _ (by decide)])
  have hflag : v.flag R.pwPowerOver = true := by
    rw [hv]
    unfold State.flag
    rw [State.reg_setReg_ne _ _ _ _ _ _ _ _ (by decide), State.reg_setReg_ne _ _ _ _ _ _ _ _ (by decide)]
    exact hover
  rw [hflag, Bool.not_true, Bool.and_false, hv]
  rfl

/-- Refutes O13: its clause on every power sample does not bound the samples that Keeper has kept. With a sample of 131,072 mW, which
no run reaches, the average of 65,536 mW shows as a peak of 0, below the peak of before. -/
theorem not_keepersSensors : ¬ Obligations.KeepersSensors := by
  unfold Obligations.KeepersSensors
  rintro ⟨-, -, -, -, -, -, hsample, -⟩
  have hpeak : wideHistState.reg R.pwPowerPeakMw = 5 := by decide
  have hmean : meanOf (((0 : BitVec 16).toNat :: wideHistState.keeper.powerHist).take 100) = 65536 := meanOf_wideHist
  have hexec := exec_powerSample_over (s := wideHistState) (mw := 0) (by decide) (by decide) (by rw [hmean]; decide)
  obtain ⟨t, ht, -, hle⟩ := hsample 0 wideHistState (by decide)
  rw [hexec, Host.Outcome.next.injEq] at ht
  rw [hpeak, ← ht, State.reg_setReg_self, hmean] at hle
  exact absurd hle (by decide)

end Sys2Proof.Machine
end

section
/-! RESET_N, PERST_N and the edges of HEARTBEAT in run (R68, R69, R75, R76, R86). -/
namespace Sys2Proof.Machine

/-- After a full reset every field but the cause reads its reset value (R69). -/
theorem State.reg_fullReset_ne (s : State) {cause r : Row} {i j : Nat} (h : r.key i j ≠ cause.key 0 0) :
    (s.fullReset cause).reg r i j = r.resetAt i := by
  simp [State.reg, State.fullReset, regGet, h.symm]

/-- After a full reset the cause reads 1 (R69, R90). -/
theorem State.reg_fullReset_cause (s : State) (cause : Row) : (s.fullReset cause).reg cause = 1 := by
  simp [State.reg, State.fullReset, regGet]

variable {s : State}

theorem exec_resetNAssert (h : s.keeper.mode ≠ .reset) :
    exec .resetNAssert s = .next ((s.fullReset R.pwResetCausePin).modPins fun p => { p with resetN := false }) := if_neg h

theorem exec_resetNAssert_in_reset (h : s.keeper.mode = .reset) :
    exec .resetNAssert s = .next { s with pins := { s.pins with resetN := false } } := if_pos h

theorem State.regsBut_refl (s : State) (ks : List Nat) : s.regsBut s ks := fun _ _ _ _ => rfl

theorem State.regsBut.setReg {s t : State} {r : Row} {v i j : Nat} {ks : List Nat} (h : s.regsBut t ks) (hr : r.key i j ∈ ks) :
    s.regsBut (t.setReg r v i j) ks := fun r' i' j' hk =>
  (t.reg_setReg_ne _ _ _ _ _ _ _ fun he => hk (he ▸ hr)).trans (h r' i' j' hk)

/-- A scheduled edge in run is the run edge (R76). -/
theorem exec_heartbeatEdge_run (hdue : s.due .heartbeat = true) (hclock : s.clockRuns = true) (hrun : s.inRun = true)
    (hq : s.flag R.lgStatusQuiescing = false) : exec .heartbeatEdge s = .next s.hbRunEdge := by
  have hmode : s.keeper.mode = .run := by simpa [State.inRun] using hrun
  show execHeartbeatEdge s = _
  simp [execHeartbeatEdge, State.inGesso, hdue, hclock, hrun, hmode, hq]

theorem exec_heartbeatEdge_early (h : s.due .heartbeat = false) : exec .heartbeatEdge s = .next s := by
  show execHeartbeatEdge s = _
  simp [execHeartbeatEdge, h]

theorem State.inRun_of_healthy (h : s.healthy = true) : s.inRun = true := by
  simp only [State.healthy, Bool.and_eq_true] at h
  obtain ⟨⟨⟨⟨hrun, -⟩, -⟩, -⟩, -⟩ := h
  exact hrun

theorem State.hbRunEdge_of_healthy (h : s.healthy = true) : ∃ n, s.hbRunEdge =
    ((s.hbToggle).setReg R.pwHbMode (if s.flag R.kpAgreeUntestedLatch then 2 else 1)).arm .heartbeat n :=
  ⟨_, if_pos h⟩

theorem State.hbRunEdge_of_unhealthy (h : s.healthy = false) :
    s.hbRunEdge = (s.setReg R.pwHbMode 0).arm .heartbeat 62500000 := if_neg (by simp [h])

/-- Settles O14: a full reset has its cause alone in the register file, PERST_N writes the fields of the link, and an edge in run is
made where the device is healthy. -/
theorem resetsAndHeartbeat : Obligations.ResetsAndHeartbeat := by
  refine ⟨fun s h => ⟨_, exec_resetNAssert h, fun r i j hk => s.reg_fullReset_ne hk, s.reg_fullReset_cause _, rfl, rfl, rfl, rfl, rfl,
      rfl, rfl, rfl, rfl, rfl, rfl, rfl, rfl, rfl⟩,
    fun s h => exec_resetNAssert_in_reset h, fun s => ?_, fun s => ⟨_, rfl, rfl, ?_, rfl, ?_⟩, fun s => rfl,
    fun s hdue hclock hhealthy hq => ?_, fun s hdue hclock hrun hhealthy hq => ?_, fun s h => exec_heartbeatEdge_early h⟩
  · by_cases h : s.keeper.mode = .reset
    · exact ⟨_, exec_resetNAssert_in_reset h, h, rfl⟩
    · exact ⟨_, exec_resetNAssert h, rfl, rfl⟩
  · rw [if_pos rfl, State.reg_setReg_ne _ _ _ _ _ _ _ _ (by decide), State.reg_setReg_ne _ _ _ _ _ _ _ _ (by decide)]
    exact State.reg_setReg_self _ _ _ _ _
  · exact (((s.regsBut_refl _).setReg (by simp)).setReg (by simp)).setReg (by simp)
  · obtain ⟨n, hedge⟩ := State.hbRunEdge_of_healthy hhealthy
    have hexec := exec_heartbeatEdge_run hdue hclock (State.inRun_of_healthy hhealthy) hq
    rw [hedge] at hexec
    refine ⟨_, hexec, rfl, ?_, rfl, (s.regsBut_refl _).setReg (by simp)⟩
    refine (State.reg_setReg_self s.hbToggle R.pwHbMode _ 0 0).trans ?_
    split <;> rfl
  · have hexec := exec_heartbeatEdge_run hdue hclock hrun hq
    rw [State.hbRunEdge_of_unhealthy hhealthy] at hexec
    have honly : s.onlyRegs (s.setReg R.pwHbMode 0) [R.pwHbMode.key 0 0] := State.onlyRegs_setReg (by simp)
    exact ⟨_, hexec, rfl, s.reg_setReg_self R.pwHbMode 0 0 0, rfl, honly.2⟩

end Sys2Proof.Machine
end

section
/-! What the switching of domains, a core reset and the way to GESSO leave alone (R69, R70, R83, R108). -/
namespace Sys2Proof.Machine

/-! ## One bit of a field -/

/-- A number with one bit replaced: what lies above it, the bit, and what lies below it. -/
theorem putBits_one (v b : Nat) (x : Bool) : putBits v b b (ofFlag x) = 2 ^ b * Nat.bit x (v / 2 ^ (b + 1)) + v % 2 ^ b := by
  have hb : b + 1 - b = 1 := by omega
  have hx : 2 ^ b * Nat.bit x (v / 2 ^ (b + 1)) = 2 ^ b * (2 * (v / 2 ^ (b + 1))) + ofFlag x % 2 * 2 ^ b := by
    cases x <;> simp [Nat.bit, ofFlag, Nat.mul_add]
  have hv : v = 2 ^ b * (2 * (v / 2 ^ (b + 1))) + v / 2 ^ b % 2 * 2 ^ b + v % 2 ^ b := by
    rw [pow_succ, ← Nat.div_div_eq_div_mul, Nat.mul_comm _ (2 ^ b), ← Nat.mul_add, Nat.div_add_mod, Nat.div_add_mod]
  simp only [putBits, bits, hb, pow_one, hx]
  omega

theorem bitAt_putBits (v b c : Nat) (x : Bool) : bitAt (putBits v b b (ofFlag x)) c = if c = b then x else bitAt v c := by
  rw [putBits_one]
  unfold bitAt
  rw [Nat.testBit_two_pow_mul_add _ (Nat.mod_lt _ (by positivity))]
  rcases Nat.lt_trichotomy c b with hc | rfl | hc
  · rw [if_pos hc, if_neg (by omega), Nat.testBit_mod_two_pow]
    simp [hc]
  · simp
  · obtain ⟨k, rfl⟩ := Nat.exists_eq_add_of_lt hc
    rw [if_neg (by omega), if_neg (by omega), show b + k + 1 - b = k + 1 by omega, Nat.testBit_bit_succ, Nat.testBit_div_two_pow]
    congr 1
    omega

/-- After the write of one bit of a field the others read as before. -/
theorem State.bitAt_setRegBit (s : State) {r : Row} {b c : Nat} (x : Bool) (hc : c < r.width) :
    bitAt ((s.setRegBit r b x).reg r) c = if c = b then x else bitAt (s.reg r) c := by
  have hmod (v : Nat) : bitAt (v % 2 ^ r.width) c = bitAt v c := by simp [bitAt, hc]
  rw [State.setRegBit, State.reg_setReg_self, hmod, bitAt_putBits]

/-! ## What is Keeper's own -/

/-- What Keeper has for itself beside its registers: the store, the time, the ledger, its mode, the brown-outs that it remembers, its
pins, the inputs of reset, and the wait of K4. -/
structure KeeperOwn where
  store : Store
  devtime : Nat
  lg : Ledger
  mode : Mode
  brownouts : List Nat
  ready : Level
  heartbeat : Level
  resetN : Bool
  porReleased : Bool
  bootWait : Option Nat

/-- What Keeper has for itself in a state. -/
def State.own (s : State) : KeeperOwn where
  store := s.store
  devtime := s.devtime
  lg := s.lg
  mode := s.keeper.mode
  brownouts := s.keeper.brownouts
  ready := s.pins.ready
  heartbeat := s.pins.heartbeat
  resetN := s.pins.resetN
  porReleased := s.pins.porReleased
  bootWait := alGet s.timers .bootWait

/-- Keeper has in t what it has in s, and every field outside W reads as before. -/
structure State.stays (s : State) (W : Nat → Prop) (t : State) : Prop where
  own : t.own = s.own
  regs : s.regsOutside W t

/-- Bit addresses of the blocks behind Keeper, but the CANVAS block: what PD01 to PD25 hold (R70, R478). -/
abbrev coreKey (k : Nat) : Prop := (8 * 0x400000 ≤ k ∧ k < 8 * 0x800000) ∨ 8 * 0x900000 ≤ k

/-- Bit addresses of what the switching of domains and of the CANVAS writes: the fields of domains of PW (R90), and the blocks behind
Keeper but CV_REJECT. -/
abbrev switchKey (k : Nat) : Prop :=
  (8 * 0x200000 ≤ k ∧ k < 8 * 0x200014) ∨ (8 * 0x400000 ≤ k ∧ k < 8 * 0x800030) ∨ 8 * 0x800034 ≤ k

/-- Bit addresses of what the switching of the CANVAS alone writes: of the fields of domains the word of QUAD_REQ (R90). -/
abbrev canvasKey (k : Nat) : Prop :=
  (8 * 0x20000C ≤ k ∧ k < 8 * 0x200010) ∨ (8 * 0x400000 ≤ k ∧ k < 8 * 0x800030) ∨ 8 * 0x800034 ≤ k

theorem switchKey_of_coreKey (k : Nat) (h : coreKey k) : switchKey k := by omega

theorem switchKey_of_canvasKey (k : Nat) (h : canvasKey k) : switchKey k := by omega

theorem canvasKey_of_coreKey (k : Nat) (h : coreKey k) : canvasKey k := by omega

theorem State.regsOutside.mono {s t : State} {V W : Nat → Prop} (h : s.regsOutside V t) (hVW : ∀ k, V k → W k) :
    s.regsOutside W t := fun r i j hk => h r i j fun hv => hk (hVW _ hv)

section
variable {s t u : State} {V W : Nat → Prop}

theorem State.stays_refl (s : State) (W : Nat → Prop) : s.stays W s := ⟨rfl, s.regsOutside_refl W⟩

theorem State.stays.mono (h : s.stays V t) (hVW : ∀ k, V k → W k) : s.stays W t := ⟨h.own, h.regs.mono hVW⟩

theorem State.stays.trans (h : s.stays W t) (h' : t.stays W u) : s.stays W u :=
  ⟨h'.own.trans h.own, fun r i j hk => (h'.regs r i j hk).trans (h.regs r i j hk)⟩

/-- An update of what is neither Keeper's own nor a register. -/
theorem State.stays.same (h : s.stays W t) (hown : u.own = t.own) (hregs : u.regs = t.regs) : s.stays W u :=
  ⟨hown.trans h.own, h.regs.of_regs hregs⟩

theorem State.stays.setReg (h : s.stays W t) {r : Row} {v i j : Nat} (hr : W (r.key i j)) : s.stays W (t.setReg r v i j) :=
  ⟨h.own, h.regs.setReg hr⟩

theorem State.stays.clearRegs (h : s.stays W t) {lo hi : Nat} (hr : ∀ k, 8 * lo ≤ k → k < 8 * hi → W k) :
    s.stays W (t.clearRegs lo hi) :=
  ⟨h.own, fun r i j hk => (t.reg_clearRegs_out lo hi r i j (by
    by_contra hc
    exact hk (hr _ (by omega) (by omega)))).trans (h.regs r i j hk)⟩

theorem State.stays.modCv (h : s.stays W t) {f} : s.stays W (t.modCv f) := h.same rfl rfl
theorem State.stays.modRoles (h : s.stays W t) {f} : s.stays W (t.modRoles f) := h.same rfl rfl
theorem State.stays.modPp (h : s.stays W t) {f} : s.stays W (t.modPp f) := h.same rfl rfl
theorem State.stays.modTmem (h : s.stays W t) {f} : s.stays W (t.modTmem f) := h.same rfl rfl
theorem State.stays.modScratch (h : s.stays W t) {f} : s.stays W (t.modScratch f) := h.same rfl rfl
theorem State.stays.modMesh (h : s.stays W t) {f} : s.stays W (t.modMesh f) := h.same rfl rfl
theorem State.stays.modPal (h : s.stays W t) {f} : s.stays W (t.modPal f) := h.same rfl rfl
theorem State.stays.modEi (h : s.stays W t) {f} : s.stays W (t.modEi f) := h.same rfl rfl
theorem State.stays.modSf (h : s.stays W t) {f} : s.stays W (t.modSf f) := h.same rfl rfl
theorem State.stays.modDeParity (h : s.stays W t) {f} : s.stays W (t.modDeParity f) := h.same rfl rfl
theorem State.stays.modXr (h : s.stays W t) {f} : s.stays W (t.modXr f) := h.same rfl rfl
theorem State.stays.modFu (h : s.stays W t) {f} : s.stays W (t.modFu f) := h.same rfl rfl
theorem State.stays.modRd (h : s.stays W t) {f} : s.stays W (t.modRd f) := h.same rfl rfl
theorem State.stays.modSl (h : s.stays W t) {f} : s.stays W (t.modSl f) := h.same rfl rfl
theorem State.stays.modHi (h : s.stays W t) {f} : s.stays W (t.modHi f) := h.same rfl rfl
theorem State.stays.tick (h : s.stays W t) : s.stays W t.tick := h.same rfl rfl

theorem State.stays.modPins (h : s.stays W t) {f : Pins → Pins} (hf : ∀ p, (f p).ready = p.ready ∧ (f p).heartbeat = p.heartbeat ∧
    (f p).resetN = p.resetN ∧ (f p).porReleased = p.porReleased) : s.stays W (t.modPins f) := by
  obtain ⟨hready, hbeat, hreset, hpor⟩ := hf t.pins
  refine h.same ?_ rfl
  unfold State.own
  simp [hready, hbeat, hreset, hpor]

theorem State.stays.modKeeper (h : s.stays W t) {f : Keeper → Keeper}
    (hf : ∀ k, (f k).mode = k.mode ∧ (f k).brownouts = k.brownouts) : s.stays W (t.modKeeper f) := by
  obtain ⟨hmode, hbrown⟩ := hf t.keeper
  refine h.same ?_ rfl
  unfold State.own
  simp [hmode, hbrown]

theorem State.stays.disarm (h : s.stays W t) {x : Timer} (hx : x ≠ .bootWait) : s.stays W (t.disarm x) := by
  refine h.same ?_ rfl
  have hget : alGet (t.disarm x).timers .bootWait = alGet t.timers .bootWait := alGet_alDel_ne _ hx.symm
  unfold State.own
  rw [hget]
  rfl

theorem State.stays.arm (h : s.stays W t) {x : Timer} {n : Nat} (hx : x ≠ .bootWait) : s.stays W (t.arm x n) := by
  refine h.same ?_ rfl
  have hget : alGet (t.arm x n).timers .bootWait = alGet t.timers .bootWait := alGet_alPut_ne _ _ hx.symm
  unfold State.own
  rw [hget]
  rfl

theorem State.stays_ite {a b : State} {p : Prop} [Decidable p] (ha : s.stays W a) (hb : s.stays W b) :
    s.stays W (if p then a else b) := by
  split
  · exact ha
  · exact hb

theorem State.stays.devtime (h : s.stays W t) : t.devtime = s.devtime := congrArg KeeperOwn.devtime h.own

theorem State.stays.lg (h : s.stays W t) : t.lg = s.lg := congrArg KeeperOwn.lg h.own

theorem State.stays.mode (h : s.stays W t) : t.keeper.mode = s.keeper.mode := congrArg KeeperOwn.mode h.own

theorem State.stays.brownouts (h : s.stays W t) : t.keeper.brownouts = s.keeper.brownouts := congrArg KeeperOwn.brownouts h.own

theorem State.stays.reg (h : s.stays W t) (r : Row) (i j : Nat) (hr : ¬ W (r.key i j)) : t.reg r i j = s.reg r i j := h.regs r i j hr

/-- A write of several elements of a row whose fields all lie in W. -/
theorem State.stays.setReg_all (h : s.stays W t) {α : Type} {f : α → Row} {v : α → Nat} {i j : α → Nat} (l : List α)
    (hr : ∀ a ∈ l, W ((f a).key (i a) (j a))) : s.stays W (l.foldl (fun (t : State) a => t.setReg (f a) (v a) (i a) (j a)) t) := by
  induction l generalizing t with
  | nil => exact h
  | cons a l ih => exact ih (h.setReg (hr a (by simp))) fun b hb => hr b (by simp [hb])

/-! ## The palette and what a domain loses (R70) -/

theorem State.stays.xoffPins (h : s.stays W t) : s.stays W t.xoffPins := h.modPins fun _ => ⟨rfl, rfl, rfl, rfl⟩

theorem State.stays.refreshXoff (h : s.stays coreKey t) : s.stays coreKey t.refreshXoff :=
  (h.setReg (r := R.eiXoffState) (by decide)).xoffPins

theorem State.stays.clearPalette (h : s.stays coreKey t) : s.stays coreKey t.clearPalette :=
  (h.modPal.clearRegs fun k h1 h2 => by omega).refreshXoff

theorem State.stays.poolLow (h : s.stays coreKey t) : s.stays coreKey t.poolLow :=
  State.stays_ite (h.setReg (by decide)) h

/-- PD04 comes on with queue 0x1FF (R463). -/
theorem State.stays.createLedgerQueue (h : s.stays coreKey t) : s.stays coreKey t.createLedgerQueue := by
  unfold State.createLedgerQueue State.createQueue
  extract_lets m v w put
  have hw : s.stays coreKey w := h.modPal.modPal
  have hput (l : List (Row × Nat)) (hl : ∀ x ∈ l, coreKey (x.1.key 511 0)) : s.stays coreKey (l.foldl put w) :=
    hw.setReg_all (f := Prod.fst) (v := Prod.snd) (i := fun _ => 511) (j := fun _ => 0) l hl
  clear_value put w
  exact (hput _ (by decide)).poolLow.tick

theorem State.stays.loseLinks (h : s.stays coreKey t) : s.stays coreKey t.loseLinks := by
  unfold State.loseLinks
  extract_lets ring u rows v w
  have hu : s.stays coreKey u := (h.setReg (by decide)).setReg (by decide)
  have hrows : ∀ r ∈ rows, coreKey (r.key 0 0) ∧ coreKey (r.key 1 0) := by decide
  have hv : s.stays coreKey v := List.foldlRecOn rows _ hu fun x hx r hr => (hx.setReg (hrows r hr).1).setReg (hrows r hr).2
  have hw : s.stays coreKey w :=
    foldlKeeps (P := s.stays coreKey) (fun _ _ hs => (((hs.disarm (by simp)).disarm (by simp)).disarm (by simp)).disarm (by simp)) _ hv
  exact hw.modSl

/-- The fields of the fusion block lie behind Keeper's. -/
theorem coreKey_of_fuRows : ∀ r ∈ R.fuRows, 0x900000 ≤ r.off := by decide +kernel

theorem State.stays.loseFusion (h : s.stays coreKey t) : s.stays coreKey t.loseFusion := by
  unfold State.loseFusion
  extract_lets u
  have hu : s.stays coreKey u := h.same rfl rfl
  clear_value u
  have hrow : ∀ r ∈ R.fuRows, ∀ i j, coreKey (r.key i j) := fun r hr i j => by
    have := coreKey_of_fuRows r hr
    unfold Row.key
    omega
  exact List.foldlRecOn R.fuRows _ hu fun x hx r hr => State.stays_ite hx (foldlKeeps (P := s.stays coreKey)
    (fun _ _ hs => foldlKeeps (P := s.stays coreKey) (fun _ _ hs' => hs'.setReg (hrow r hr _ _)) _ hs) _ hx)

theorem State.stays.loseTile (h : s.stays W t) {n : Nat} : s.stays W (t.loseTile n) := h.modTmem.tick

theorem State.stays.losePort (h : s.stays coreKey t) {n : Nat} (hn : n < 4) : s.stays coreKey (t.losePort n) :=
  (h.clearRegs fun k h1 h2 => by omega).modEi

theorem State.stays.loseThermal (h : s.stays coreKey t) {n : Nat} (hn : n < 2) : s.stays coreKey (t.loseThermal n) :=
  (h.clearRegs fun k h1 h2 => by omega).modEi

theorem State.stays.loseAer (h : s.stays coreKey t) : s.stays coreKey t.loseAer := by
  have hr : s.stays coreKey (t.clearRegs 0x408004 0x408008) := h.clearRegs fun k h1 h2 => by omega
  exact (hr.modEi.disarm (by simp)).disarm (by simp)

/-- What a domain loses is none of Keeper's (R70). -/
theorem State.stays.domLost (h : s.stays coreKey t) (d : Nat) : s.stays coreKey (t.domLost d) := by
  have hblock {lo hi : Nat} (hlo : 0x900000 ≤ lo) : s.stays coreKey (t.clearRegs lo hi) := h.clearRegs fun k h1 h2 => by omega
  unfold State.domLost
  split
  · exact (hblock (by decide)).modHi.modPins fun _ => ⟨rfl, rfl, rfl, rfl⟩
  split
  · exact (h.losePort (by decide)).losePort (by decide)
  split
  · exact ((((h.losePort (by decide)).losePort (by decide)).loseThermal (by decide)).loseThermal (by decide)).loseAer
  split
  · exact h.clearPalette
  split
  · exact (hblock (by decide)).modPp.modXr.modScratch.tick
  split
  · exact h.loseFusion
  split
  · exact (hblock (by decide)).modRd.modPins fun _ => ⟨rfl, rfl, rfl, rfl⟩
  split
  · exact h.loseLinks.modPins fun _ => ⟨rfl, rfl, rfl, rfl⟩
  split
  · exact foldlKeeps (P := s.stays coreKey) (fun _ _ hs => hs.loseTile) _ h
  · exact h

/-! ## Domains on and off -/

theorem State.domOn_congr (h : s.stays coreKey t) (d : Nat) : t.domOn d = s.domOn d := by
  unfold State.domOn
  rw [h.reg R.pwDomStateOn 0 0 (by decide)]

theorem State.domOn_showDom {d e : Nat} (on : Bool) (he : e < 26) : (s.showDom d on).domOn e = if e = d then on else s.domOn e :=
  s.bitAt_setRegBit on he

theorem State.stays.showDom (h : s.stays switchKey t) {d : Nat} {on : Bool} : s.stays switchKey (t.showDom d on) :=
  h.setReg (by decide)

theorem State.stays.core (h : s.stays switchKey t) (h' : t.stays coreKey u) : s.stays switchKey u :=
  h.trans (h'.mono switchKey_of_coreKey)

theorem State.stays.domOff (h : s.stays switchKey t) (d : Nat) : s.stays switchKey (t.domOff d) := by
  have hk : s.stays switchKey (t.modKeeper fun k => { k with switching := k.switching.filter (·.1 ≠ d) }) :=
    h.modKeeper fun _ => ⟨rfl, rfl⟩
  exact (hk.disarm (by simp)).showDom.core ((State.stays_refl _ _).domLost d)

/-- A domain switched off is off, and every other one is as before. -/
theorem State.domOn_domOff (s : State) {d e : Nat} (he : e < 26) : (s.domOff d).domOn e = if e = d then false else s.domOn e := by
  unfold State.domOff
  dsimp only
  rw [State.domOn_congr ((State.stays_refl _ _).domLost d), State.domOn_showDom _ he]
  rfl

theorem State.inRun_congr (h : s.stays W t) : t.inRun = s.inRun := by
  unfold State.inRun
  rw [h.mode]

/-- A domain comes on: its contents start from reset, it shows as on, and then it has its queue or its pin. Span links train where PD09
comes on in run. -/
theorem State.domReady_stays (s : State) {d : Nat} (hd : s.inRun = false ∨ d ≠ 9) : ∃ u, s.stays coreKey u ∧
    (u.showDom d true).stays coreKey (s.domReady d) := by
  have hk : s.stays coreKey (s.modKeeper fun k => { k with switching := k.switching.filter (·.1 ≠ d) }) :=
    (s.stays_refl _).modKeeper fun _ => ⟨rfl, rfl⟩
  unfold State.domReady
  extract_lets v w x y
  have hw : s.stays coreKey w := State.stays_ite (hk.domLost d) hk
  have hx : (w.disarm (.domain d)).showDom d true = x := rfl
  have hu : s.stays coreKey (w.disarm (.domain d)) := hw.disarm (by simp)
  have hxx := x.stays_refl coreKey
  refine ⟨_, hu, ?_⟩
  rw [hx]
  split
  · exact hxx.createLedgerQueue
  split
  · exact hxx.modPins fun _ => ⟨rfl, rfl, rfl, rfl⟩
  split
  · exact hxx.modPins fun _ => ⟨rfl, rfl, rfl, rfl⟩
  split
  · next hlinks =>
    have hrun : x.inRun = s.inRun := State.inRun_congr (((s.stays_refl switchKey).core hu).showDom : s.stays switchKey x)
    rw [hrun] at hlinks
    rcases hd with hd | hd <;> simp [hd] at hlinks
  · exact hxx

theorem State.stays.domReady (h : s.stays switchKey t) {d : Nat} (hd : t.inRun = false ∨ d ≠ 9) : s.stays switchKey (t.domReady d) := by
  obtain ⟨u, hu, hready⟩ := t.domReady_stays hd
  exact (h.core hu).showDom.core hready

theorem State.stays.domOnNow (h : s.stays switchKey t) {d : Nat} (hd : t.inRun = false ∨ d ≠ 9) : s.stays switchKey (t.domOnNow d) :=
  State.stays_ite h (h.domReady hd)

/-- The domains of every member that a boot and GESSO need: PD01, PD04 and PD06 (R91, R108). -/
theorem Member.hasDomain_basic (m : Member) {d : Nat} (hd : d ∈ [1, 4, 6]) : m.hasDomain d = true := by
  fin_cases hd <;> rfl

/-- PD01, PD04 and PD06 come on at once, and every other domain is as before. -/
theorem State.domOn_domOnNow (s : State) {d e : Nat} (hd : d ∈ [1, 4, 6]) (he : e < 26) :
    (s.domOnNow d).domOn e = if e = d then true else s.domOn e := by
  obtain ⟨u, hu, hready⟩ := s.domReady_stays (d := d) (.inr (by rintro rfl; simp at hd))
  unfold State.domOnNow
  rw [s.member.hasDomain_basic hd, Bool.not_true, Bool.or_false]
  by_cases hon : s.domOn d = true
  · rw [if_pos hon]
    split
    · next hed => rw [hed, hon]
    · rfl
  · rw [if_neg hon, State.domOn_congr hready, State.domOn_showDom _ he, State.domOn_congr hu]

/-! ## The CANVAS is gone, and requests wait no more (R71, R83) -/

theorem State.stays.clearCanvas (h : s.stays canvasKey t) : s.stays canvasKey t.clearCanvas := by
  unfold State.clearCanvas
  extract_lets u z v w
  have hz : ∀ r ∈ z, canvasKey (r.key 0 0) := by decide
  have hv : s.stays canvasKey v := List.foldlRecOn z _ h.modCv.modRoles fun x hx r hr => hx.setReg (hz r hr)
  have hroles (r : Row) (hr : ∀ n ∈ List.range 4, canvasKey (r.key n 0)) {x : State} (hx : s.stays canvasKey x) :
      s.stays canvasKey (x.setRegs r 4 fun _ => 0) := List.foldlRecOn _ _ hx fun x hx n hn => hx.setReg (hr n hn)
  exact (hroles R.cvRoleERole (by decide) (hroles R.cvRoleARole (by decide) hv)).modMesh.modPp

theorem State.stays.domRefuse (h : s.stays switchKey t) {d c : Nat} : s.stays switchKey (t.domRefuse d c) :=
  ((h.setReg (by decide)).setReg (by decide)).setReg (by decide)

/-- Outside run a request is refused, or waits in ON_REQ (R87, R108). -/
theorem State.stays.domAdmit (h : s.stays switchKey t) (hrun : t.inRun = false) {n : Nat} {via : Iface} :
    s.stays switchKey (t.domAdmit n via).2 := by
  unfold State.domAdmit
  split
  · exact h.domRefuse
  · have hreq : s.stays switchKey (t.setReg R.pwDomReqOnReq n) := h.setReg (by decide)
    have hrun' : (t.setReg R.pwDomReqOnReq n).inRun = false := hrun
    extract_lets ons offs u
    rw [if_neg (by rw [hrun']; decide)]
    exact hreq

theorem State.stays.domDrain (h : s.stays switchKey t) (hrun : t.inRun = false) (l : List DomRequest) :
    s.stays switchKey (t.domDrain l) := by
  induction l generalizing t with
  | nil => exact h.modKeeper fun _ => ⟨rfl, rfl⟩
  | cons r l ih =>
    have hadmit : s.stays switchKey (t.domAdmit r.onReq r.via).2 := h.domAdmit hrun
    have hrun' : (t.domAdmit r.onReq r.via).2.inRun = false := by
      rw [State.inRun_congr hadmit, ← State.inRun_congr h, hrun]
    unfold State.domDrain
    dsimp only
    split
    · exact hadmit.modKeeper fun _ => ⟨rfl, rfl⟩
    · exact ih hadmit hrun'

theorem State.stays.vector (h : s.stays W t) {v : Nat} (hv : W (R.hiIrqStatusVec.key 0 0)) : s.stays W (t.vector v) := by
  have hbit : s.stays W (t.setRegBit R.hiIrqStatusVec v true) := h.setReg hv
  exact State.stays_ite hbit.modHi hbit

end

/-! ## GESSO (R78, R108) -/

/-- Bit addresses of the view of Keeper's pins (R90), and of what PD01 to PD25 hold. -/
abbrev pinKey (k : Nat) : Prop := coreKey k ∨ k ∈ [R.pwHbReady.key 0 0, R.pwHbFault.key 0 0, R.pwHbMode.key 0 0]

/-- Bit addresses of what the way to GESSO writes: what the switching of domains writes, STEP, CODE and the view of the pins. -/
abbrev gessoKey (k : Nat) : Prop := switchKey k ∨ pinKey k ∨ k ∈ [R.kpBootStep.key 0 0, R.pwHbCode.key 0 0]

/-- The pins of GESSO: READY low, FAULT_N by the code, HEARTBEAT at the start of the code pattern, and vector 6 (R75, R79, R80). -/
def State.gessoPins (s : State) (code : Nat) : State :=
  let s := (s.setReady false).setFaultN (code ≠ 1)
  let s := s.modPins fun p => { p with camSync := .low, aerAck := .low, dsi := .z, spanTx := .z }
  let s := ((s.startCode).refreshXoff).vector 6
  if s.armed .alarm then s else s.arm .alarm (1000000000 * s.reg R.hiAlarmPeriod)

/-- Keeper's own in a mode in which READY and HEARTBEAT are low. -/
def KeeperOwn.low (o : KeeperOwn) (m : Mode) : KeeperOwn := { o with mode := m, ready := .low, heartbeat := .low }

/-- HEARTBEAT goes low, and its timer is none of Keeper's own. -/
theorem State.startCode_stays (s : State) : (((s.modKeeper fun k => { k with hbPulse := 0 }).modPins fun p =>
    { p with heartbeat := .low }).setReg R.pwHbMode 3).stays coreKey s.startCode := (State.stays_refl _ _).arm (by decide)

theorem State.gessoPins_spec (s : State) (code : Nat) : (s.gessoPins code).own = s.own.low s.keeper.mode ∧
    s.regsOutside pinKey (s.gessoPins code) := by
  unfold State.gessoPins
  extract_lets u v w
  have hv : s.regsOutside pinKey v.startCode := by
    have hu : s.regsOutside pinKey u :=
      (((s.regsOutside_refl _).setReg (by decide) : s.regsOutside pinKey (s.setReady false)).setReg (by decide))
    have hmode : s.regsOutside pinKey (u.setReg R.pwHbMode 3) := hu.setReg (by decide)
    exact hmode.of_regs rfl
  have hw : v.startCode.stays coreKey w := (State.stays_refl _ _).refreshXoff.vector (by decide)
  have hend : v.startCode.stays coreKey (if w.armed .alarm then w else w.arm .alarm (1000000000 * w.reg R.hiAlarmPeriod)) :=
    State.stays_ite hw (hw.arm (by decide))
  refine ⟨?_, fun r i j hk => (hend.regs r i j fun hc => hk (.inl hc)).trans (hv r i j hk)⟩
  rw [hend.own, v.startCode_stays.own]
  rfl

/-- In GESSO Keeper has what it had, but its mode, READY low and HEARTBEAT low at the start of the code pattern. -/
theorem State.enterGesso_spec (s : State) (code : Nat) : (s.enterGesso code).own = s.own.low .gesso ∧
    (s.enterGesso code).reg R.pwHbCode = code % 16 ∧ s.regsOutside gessoKey (s.enterGesso code) := by
  unfold State.enterGesso
  extract_lets off u v w waits x y
  have hu : s.stays switchKey u := foldlKeeps (P := s.stays switchKey) (fun _ d h => State.stays_ite (h.domOff d) h) _ (s.stays_refl _)
  have hw : s.stays switchKey w :=
    (((hu.domOnNow (.inr (by decide))).domOnNow (.inr (by decide))).domOnNow (.inr (by decide))).trans
      ((v.stays_refl _).clearCanvas.mono switchKey_of_canvasKey)
  have hx : (w.modKeeper fun k => { k with mode := .gesso, lastResult := none, domWork := [] }).stays switchKey x :=
    (State.stays_refl _ _).domDrain rfl _
  have hy : y = (x.setReg R.kpBootStep 15).setReg R.pwHbCode code := rfl
  obtain ⟨hown, hregs⟩ := y.gessoPins_spec code
  change (y.gessoPins code).own = _ ∧ (y.gessoPins code).reg R.pwHbCode = code % 16 ∧ s.regsOutside gessoKey (y.gessoPins code)
  clear_value y x w
  subst hy
  refine ⟨?_, ?_, fun r i j hk => ?_⟩
  · have hlow : ((x.setReg R.kpBootStep 15).setReg R.pwHbCode code).own.low x.keeper.mode = x.own.low x.own.mode := rfl
    rw [← hw.own]
    exact hown.trans (hlow.trans (by rw [hx.own]; rfl))
  · exact (hregs R.pwHbCode 0 0 (by decide)).trans (State.reg_setReg_self _ _ _ _ _)
  · obtain ⟨hswitch, hk⟩ := not_or.mp hk
    obtain ⟨hpin, hk⟩ := not_or.mp hk
    simp only [List.mem_cons, List.not_mem_nil, or_false, not_or] at hk
    rw [hregs r i j hpin, State.reg_setReg_ne _ _ _ _ _ _ _ _ (Ne.symm hk.2), State.reg_setReg_ne _ _ _ _ _ _ _ _ (Ne.symm hk.1),
      hx.regs r i j hswitch]
    exact hw.regs r i j hswitch

/-- Keeper enters GESSO with its code. -/
theorem State.enterGesso_mode (s : State) (code : Nat) (hc : code < 16) :
    (s.enterGesso code).keeper.mode = .gesso ∧ (s.enterGesso code).reg R.pwHbCode = code := by
  obtain ⟨hown, hcode, -⟩ := s.enterGesso_spec code
  exact ⟨congrArg KeeperOwn.mode hown, hcode.trans (Nat.mod_eq_of_lt hc)⟩

end Sys2Proof.Machine
end

section
/-! Reset exit (R67, R68, R91, R94). -/
namespace Sys2Proof.Machine

variable {s t u : State}

/-- Bit addresses of KP_SIG (R117). -/
abbrev sigKey (k : Nat) : Prop := 8 * 0x30 ≤ k ∧ k < 8 * 0x34

theorem State.stays.noteSig (h : s.stays sigKey t) {kind slot : Nat} {r : SigRes} : s.stays sigKey (t.noteSig kind slot r) := by
  have hsig : s.stays sigKey (((t.setReg R.kpSigKind kind).setReg R.kpSigResult r.code).setReg R.kpSigSlot slot) :=
    ((h.setReg (by decide)).setReg (by decide)).setReg (by decide)
  exact State.stays_ite (hsig.setReg (by decide)) hsig

/-- K3 shows the outcomes of its checks in KP_SIG, and Keeper forgets which banks it wrote (R94, R100). -/
theorem State.stays.bootK3 (h : s.stays sigKey t) : s.stays sigKey t.bootK3 := by
  have hk : s.stays sigKey (t.modKeeper fun k => { k with written := [] }) := h.modKeeper fun _ => ⟨rfl, rfl⟩
  unfold State.bootK3
  refine foldlKeeps (P := s.stays sigKey) (fun x i hx => ?_) [0, 1] hk
  dsimp only
  split
  · exact hx
  · exact hx.noteSig

/-- The device has left reset: the straps are sampled, Keeper's pins are driven, and PD01, PD04 and PD06 are on (R68, R91). -/
def State.leftReset (s : State) (bootSel : Nat) : State :=
  let s := ((s.setReg R.pwHbBootSel bootSel).setReg R.kpBootSource bootSel).setFlag R.kpBootStrapBad (bootSel = 3)
  let s := s.modPins fun p => { p with heartbeat := .low, ready := .low, camSync := .low, faultN := .z }
  let s := (s.modKeeper fun k => { k with mode := .waitGo }).xoffPins
  ((s.domOnNow 1).domOnNow 4).domOnNow 6

/-- What reset exit leads to: GESSO code 9 without external memory, GESSO code 1 where the straps name no interface, and else the
wait of K4 (R91, R94). -/
theorem State.resetExit_eq (s : State) (bootSel : Nat) (memOk : Bool) : s.resetExit bootSel memOk =
    if memOk = false then (s.leftReset bootSel).enterGesso 9
    else if 2 ≤ bootSel then (s.leftReset bootSel).bootK3.enterGesso 1
    else ((s.leftReset bootSel).bootK3.setReg R.kpBootStep 4).arm .bootWait 5000000000 := by
  cases memOk <;> rfl

/-- Bit addresses of the straps (R90, R117). -/
abbrev strapKey (k : Nat) : Prop := k ∈ [R.pwHbBootSel.key 0 0, R.kpBootSource.key 0 0, R.kpBootStrapBad.key 0 0]

theorem State.leftReset_spec (s : State) {b : Nat} (hb : b < 4) : (s.leftReset b).own = s.own.low .waitGo ∧
    (s.leftReset b).reg R.pwHbBootSel = b ∧
    (s.leftReset b).reg R.kpBootSource = b ∧ (∀ d ∈ [1, 4, 6], (s.leftReset b).domOn d = true) ∧
    s.regsOutside (fun k => switchKey k ∨ strapKey k) (s.leftReset b) := by
  unfold State.leftReset
  extract_lets u v w
  have hw : w.stays switchKey (((w.domOnNow 1).domOnNow 4).domOnNow 6) :=
    (((w.stays_refl _).domOnNow (.inr (by decide))).domOnNow (.inr (by decide))).domOnNow (.inr (by decide))
  have hu : s.regsOutside strapKey u := (((s.regsOutside_refl _).setReg (by decide)).setReg (by decide)).setReg (by decide)
  have hreg (r : Row) (hr : ¬ switchKey (r.key 0 0)) : (((w.domOnNow 1).domOnNow 4).domOnNow 6).reg r = u.reg r := hw.reg r 0 0 hr
  refine ⟨hw.own, ?_, ?_, fun d hd => ?_, fun r i j hk => ?_⟩
  · rw [hreg _ (by decide)]
    refine (State.reg_setReg_ne _ _ _ _ _ _ _ _ (by decide)).trans ((State.reg_setReg_ne _ _ _ _ _ _ _ _ (by decide)).trans ?_)
    exact (s.reg_setReg_self _ _ _ _).trans (Nat.mod_eq_of_lt hb)
  · rw [hreg _ (by decide)]
    refine (State.reg_setReg_ne _ _ _ _ _ _ _ _ (by decide)).trans ?_
    exact (State.reg_setReg_self _ _ _ _ _).trans (Nat.mod_eq_of_lt hb)
  · have hd26 : d < 26 := by fin_cases hd <;> decide
    simp only [State.domOn_domOnNow, hd26, List.mem_cons, true_or, or_true]
    fin_cases hd <;> simp
  · obtain ⟨hswitch, hstrap⟩ := not_or.mp hk
    exact (hw.regs r i j hswitch).trans (hu r i j hstrap)

/-- Bit addresses of what reset exit writes. -/
abbrev exitKey (k : Nat) : Prop := (switchKey k ∨ strapKey k) ∨ sigKey k ∨ k = R.kpBootStep.key 0 0

/-- The wait of K4 (R94): Keeper's own but for the mode, its pins and the wait; the straps, STEP and the domains that are on. -/
theorem State.resetExit_waits (s : State) {b : Nat} (hb : b < 2) :
    (s.resetExit b true).own = { s.own.low .waitGo with bootWait := some (s.devtime + 5000000000) } ∧
    (s.resetExit b true).reg R.pwHbBootSel = b ∧ (s.resetExit b true).reg R.kpBootSource = b ∧
    (s.resetExit b true).reg R.kpBootStep = 4 ∧ (∀ d ∈ [1, 4, 6], (s.resetExit b true).domOn d = true) ∧
    s.regsOutside exitKey (s.resetExit b true) := by
  obtain ⟨hown, hsel, hsource, hdom, hregs⟩ := s.leftReset_spec (b := b) (by omega)
  have hk3 : (s.leftReset b).stays sigKey (s.leftReset b).bootK3 := (State.stays_refl _ _).bootK3
  rw [State.resetExit_eq, if_neg (by decide), if_neg (by omega)]
  generalize (s.leftReset b).bootK3 = u at hk3
  have hreg (r : Row) (i j : Nat) (hr : ¬ sigKey (r.key i j)) (hr' : R.kpBootStep.key 0 0 ≠ r.key i j) :
      ((u.setReg R.kpBootStep 4).arm .bootWait 5000000000).reg r i j = (s.leftReset b).reg r i j :=
    (u.reg_setReg_ne R.kpBootStep r 4 0 0 i j hr').trans (hk3.reg r i j hr)
  refine ⟨?_, (hreg _ 0 0 (by decide) (by decide)).trans hsel, (hreg _ 0 0 (by decide) (by decide)).trans hsource,
    u.reg_setReg_self R.kpBootStep 4 0 0, fun d hd => ?_, fun r i j hk => ?_⟩
  · have harm : ((u.setReg R.kpBootStep 4).arm .bootWait 5000000000).own =
        { u.own with bootWait := some (u.own.devtime + 5000000000) } := by
      unfold State.own State.arm
      simp [alGet_alPut_self]
    rw [harm, hk3.own, hown]
    rfl
  · have hstate := hreg R.pwDomStateOn 0 0 (by decide) (by decide)
    unfold State.domOn at hdom ⊢
    rw [hstate]
    exact hdom d hd
  · obtain ⟨hleft, hk⟩ := not_or.mp hk
    obtain ⟨hsig, hstep⟩ := not_or.mp hk
    exact (hreg r i j hsig (Ne.symm hstep)).trans (hregs r i j hleft)

theorem exec_resetNRelease {b : BitVec 2} {m : Bool} (hmode : s.keeper.mode = .reset) (hreset : s.pins.resetN = false)
    (hpor : s.pins.porReleased = true) : exec (.resetNRelease b m) s =
      .next ((s.modPins fun p => { p with resetN := true }).resetExit b.toNat m) := by
  show execResetNRelease b m s = _
  simp [execResetNRelease, hmode, hreset, hpor]

theorem exec_powerOnResetRelease {b : BitVec 2} {m : Bool} (hmode : s.keeper.mode = .reset) (hpor : s.pins.porReleased = false)
    (hreset : s.pins.resetN = true) : exec (.powerOnResetRelease b m) s =
      .next ((s.modPins fun p => { p with porReleased := true }).resetExit b.toNat m) := by
  show execPowerOnResetRelease b m s = _
  simp [execPowerOnResetRelease, hmode, hreset, hpor]

/-- Settles O15: the three ends of reset exit, for either release of the two. -/
theorem resetExit : Obligations.ResetExit := by
  refine ⟨fun b s hmode hreset hpor hb => ⟨_, exec_resetNRelease hmode hreset hpor, ?_⟩,
    fun b s hmode hpor hreset hb => ⟨_, exec_powerOnResetRelease hmode hpor hreset, ?_⟩,
    fun b s hmode hreset hpor hb => ⟨_, exec_resetNRelease hmode hreset hpor, ?_⟩,
    fun b s hmode hreset hpor => ⟨_, exec_resetNRelease hmode hreset hpor, ?_⟩,
    fun b m s hmode hreset hpor => ⟨?_, ?_⟩⟩
  · obtain ⟨hown, hsel, hsource, hstep, hdom, -⟩ := (s.modPins fun p => { p with resetN := true }).resetExit_waits hb
    exact ⟨congrArg KeeperOwn.mode hown, congrArg KeeperOwn.resetN hown, hstep, hsource, hsel, congrArg KeeperOwn.ready hown,
      congrArg KeeperOwn.heartbeat hown, congrArg KeeperOwn.bootWait hown, hdom 1 (by simp), hdom 4 (by simp), hdom 6 (by simp)⟩
  · obtain ⟨hown, -, hsource, hstep, -, -⟩ := (s.modPins fun p => { p with porReleased := true }).resetExit_waits hb
    exact ⟨congrArg KeeperOwn.mode hown, congrArg KeeperOwn.porReleased hown, hstep, hsource, congrArg KeeperOwn.bootWait hown⟩
  · rw [State.resetExit_eq, if_neg (by decide), if_pos hb]
    exact State.enterGesso_mode _ _ (by decide)
  · rw [State.resetExit_eq, if_pos rfl]
    exact State.enterGesso_mode _ _ (by decide)
  · show execResetNRelease b m s = _
    simp [execResetNRelease, hmode, hreset, hpor, State.modPins]
  · show execPowerOnResetRelease b m s = _
    simp [execPowerOnResetRelease, hmode, hreset, hpor, State.modPins]

end Sys2Proof.Machine
end

section
/-! Brown-outs of the rails and Keeper's watchdog (R69, R82, R89, R90, R115). -/
namespace Sys2Proof.Machine

variable {s t u : State}

/-! ## The core reset (R69) -/

theorem State.stays.clearCore (h : s.stays canvasKey t) : s.stays canvasKey t.clearCore :=
  (h.clearRegs fun k h1 h2 => by omega).clearRegs fun k h1 h2 => by omega

theorem State.stays.dropCore {W : Nat → Prop} (h : s.stays W t) : s.stays W t.dropCore := by
  unfold State.dropCore
  exact h.modEi.modSf.modXr.modFu.modRd.modSl.modDeParity

/-- Every domain behind PD00 that is on or waking is switched off. -/
def State.coreOff (s : State) : State := ((List.range 26).drop 1).foldl (fun s d => if s.domUp d then s.domOff d else s) s

theorem State.coreOff_stays (s : State) : s.stays switchKey s.coreOff :=
  foldlKeeps (P := s.stays switchKey) (fun _ d h => State.stays_ite (h.domOff d) h) _ (s.stays_refl _)

theorem State.domOn_offIfUp (s : State) {d e : Nat} (he : e < 26) :
    (if s.domUp d then s.domOff d else s).domOn e = if e = d then false else s.domOn e := by
  split
  · exact s.domOn_domOff he
  · next hup =>
    split
    · next hed =>
      rw [hed]
      simp only [State.domUp, Bool.or_eq_true, not_or, Bool.not_eq_true] at hup
      exact hup.1
    · rfl

theorem State.domOn_coreOff (s : State) : s.coreOff.domOn 1 = false := by
  have hlist : (List.range 26).drop 1 = 1 :: (List.range 26).drop 2 := by decide
  have hfirst : (if s.domUp 1 then s.domOff 1 else s).domOn 1 = false := by rw [s.domOn_offIfUp (by decide), if_pos rfl]
  unfold State.coreOff
  rw [hlist, List.foldl_cons]
  refine foldlKeeps (P := fun t => t.domOn 1 = false) (fun x d hx => ?_) _ hfirst
  rw [x.domOn_offIfUp (by decide), hx, ite_self]

/-- The core blocks, the CANVAS and the palette are gone. -/
def State.coreGone (s : State) : State := (((s.clearCore).dropCore).clearCanvas).clearPalette

theorem State.coreGone_stays (s : State) : s.stays canvasKey s.coreGone := by
  exact (s.stays_refl _).clearCore.dropCore.clearCanvas.trans (((State.stays_refl _ _).clearPalette).mono canvasKey_of_coreKey)

/-- What a core reset does to Keeper's side: timers, items and pins go, and the views of them read 0. -/
def State.coreLeft (s : State) : State :=
  let s := s.modTimers fun l => l.filter (·.1.keeps)
  let s := s.modLg fun l => { l with items := [], ended := [], seqs := l.seqs.filter (·.1 = 0) }
  let s := ((s.setReg R.lgStatusQuiescing 0).setReg R.pwHbMode 0).setReg R.kpBootStep 1
  let s := s.modKeeper fun k => { k with switching := [], domWork := [], domWaits := [], lastResult := none, hbPulse := 0,
                                         guardDeepest := false, guardSeams := 0 }
  let s := s.setReg R.pcLevelLevel 0
  ((s.setReg R.pcLevelGuardLvl 0).setReg R.pwHbCode 0).corePins

theorem State.coreReset_eq (s : State) : s.coreReset = s.coreOff.coreGone.coreLeft := by
  unfold State.coreReset State.coreLeft State.coreGone State.coreOff
  rfl

theorem State.coreLeft_kept (s : State) : s.coreLeft.devtime = s.devtime ∧ s.coreLeft.lg.faults = s.lg.faults ∧
    s.coreLeft.keeper.brownouts = s.keeper.brownouts ∧ s.coreLeft.reg R.pwDomStateOn = s.reg R.pwDomStateOn := by
  unfold State.coreLeft
  extract_lets v w x y z
  have hz : z.devtime = s.devtime ∧ z.lg.faults = s.lg.faults ∧ z.keeper.brownouts = s.keeper.brownouts := ⟨rfl, rfl, rfl⟩
  have hx : s.regsOutside (· ≠ R.pwDomStateOn.key 0 0) x :=
    (((s.regsOutside_refl _).of_regs rfl : s.regsOutside _ w).setReg (by decide) |>.setReg (by decide)).setReg (by decide)
  have hregs : s.regsOutside (· ≠ R.pwDomStateOn.key 0 0) z := (hx.of_regs rfl : s.regsOutside _ y).setReg (by decide)
  clear_value z
  obtain ⟨htime, hfaults, hbrown⟩ := hz
  have hview : s.regsOutside (· ≠ R.pwDomStateOn.key 0 0) (((z.setReg R.pcLevelGuardLvl 0).setReg R.pwHbCode 0).setReg R.pwHbReady 0) :=
    ((hregs.setReg (by decide)).setReg (by decide)).setReg (by decide)
  unfold State.corePins State.setReady State.setFlag State.xoffPins
  exact ⟨htime, hfaults, hbrown, hview R.pwDomStateOn 0 0 (by simp)⟩

/-- A core reset keeps DEVTIME, the fault stack and the memory of brown-outs, and PD01 is off after it (R69). -/
theorem State.coreReset_spec (s : State) : s.coreReset.devtime = s.devtime ∧ s.coreReset.lg.faults = s.lg.faults ∧
    s.coreReset.keeper.brownouts = s.keeper.brownouts ∧ s.coreReset.domOn 1 = false := by
  have hstays := s.coreOff_stays.trans (s.coreOff.coreGone_stays.mono switchKey_of_canvasKey)
  have hdom : s.coreOff.coreGone.reg R.pwDomStateOn = s.coreOff.reg R.pwDomStateOn := s.coreOff.coreGone_stays.reg _ _ _ (by decide)
  obtain ⟨htime, hfaults, hbrown, hstate⟩ := s.coreOff.coreGone.coreLeft_kept
  rw [State.coreReset_eq]
  refine ⟨htime.trans hstays.devtime, by rw [hfaults, hstays.lg], hbrown.trans hstays.brownouts, ?_⟩
  unfold State.domOn
  rw [hstate, hdom]
  exact s.domOn_coreOff

/-! ## The cause of a reset, and brown-outs (R69, R89, R90) -/

/-- Bit addresses of PW_RESET_CAUSE (R90). -/
abbrev causeKey (k : Nat) : Prop := 8 * 0x200024 ≤ k ∧ k < 8 * 0x200028

theorem State.setCause_stays (s : State) {c : Row} (hc : causeKey (c.key 0 0)) : s.stays causeKey (s.setCause c) := by
  have hrows : ∀ r ∈ [R.pwResetCausePor, R.pwResetCausePin, R.pwResetCauseBrownout, R.pwResetCauseHost, R.pwResetCauseKeeperWd,
      R.pwResetCauseThermal], causeKey (r.key 0 0) := by decide
  exact State.stays.setReg (List.foldlRecOn _ _ (s.stays_refl _) fun x hx r hr => hx.setReg (hrows r hr)) hc

theorem State.reg_setCause (s : State) {c : Row} (hw : c.width = 1) : (s.setCause c).reg c = 1 := by
  refine (State.reg_setReg_self _ _ _ _ _).trans ?_
  rw [hw]
  rfl

/-- The brown-outs of the last 10 s (R89). -/
def State.recentBrownouts (s : State) : List Nat := s.keeper.brownouts.filter fun t => decide (s.devtime < t + 10000000000)

theorem State.recentBrownouts_congr (ht : t.devtime = s.devtime) (hb : t.keeper.brownouts = s.keeper.brownouts) :
    t.recentBrownouts = s.recentBrownouts := by
  unfold State.recentBrownouts
  rw [ht, hb]

theorem railBit_lt (rail : Rail) : railBit rail < 6 := by cases rail <;> decide

/-- PW_RAIL shows a rail that is out (R90). -/
def State.showBrown (s : State) (rail : Rail) : State :=
  (s.setRegBit R.pwRailOk (railBit rail) false).setRegBit R.pwRailBrown (railBit rail) true

/-- Bit addresses of PW_RAIL (R90). -/
abbrev railKey (k : Nat) : Prop := 8 * 0x200014 ≤ k ∧ k < 8 * 0x200018

theorem State.showBrown_stays (s : State) (rail : Rail) : s.stays railKey (s.showBrown rail) :=
  ((s.stays_refl _).setReg (by decide)).setReg (by decide)

theorem State.bitAt_showBrown (s : State) (rail : Rail) : bitAt ((s.showBrown rail).reg R.pwRailOk) (railBit rail) = false ∧
    bitAt ((s.showBrown rail).reg R.pwRailBrown) (railBit rail) = true := by
  refine ⟨?_, ?_⟩
  · rw [State.showBrown, State.setRegBit, State.reg_setReg_ne _ _ _ _ _ _ _ _ (by decide),
      State.bitAt_setRegBit _ _ (railBit_lt rail), if_pos rfl]
  · rw [State.showBrown, State.bitAt_setRegBit _ _ (railBit_lt rail), if_pos rfl]

/-- Keeper remembers the time of a brown-out (R89). -/
def State.noteBrownout (s : State) : State := s.modKeeper fun k => { k with brownouts := s.devtime :: s.recentBrownouts }

theorem State.noteBrownout_kept (s : State) : s.noteBrownout.devtime = s.devtime ∧ s.noteBrownout.lg = s.lg ∧
    s.noteBrownout.keeper.brownouts = s.devtime :: s.recentBrownouts ∧ s.noteBrownout.regs = s.regs := by
  unfold State.noteBrownout
  generalize s.devtime :: s.recentBrownouts = l
  exact ⟨rfl, rfl, rfl, rfl⟩

/-- After the core reset of a brown-out the rail shows in PW_RAIL, BROWNOUT is the cause, and Keeper remembers the time (R89, R90). -/
def State.brownedOut (s : State) (rail : Rail) : State :=
  ((s.coreReset.showBrown rail).setCause R.pwResetCauseBrownout).noteBrownout

theorem State.brownedOut_spec (s : State) (rail : Rail) : (s.brownedOut rail).devtime = s.devtime ∧
    (s.brownedOut rail).lg.faults = s.lg.faults ∧ (s.brownedOut rail).keeper.brownouts = s.devtime :: s.recentBrownouts ∧
    (s.brownedOut rail).domOn 1 = false ∧ (s.brownedOut rail).reg R.pwResetCauseBrownout = 1 ∧
    bitAt ((s.brownedOut rail).reg R.pwRailOk) (railBit rail) = false ∧
    bitAt ((s.brownedOut rail).reg R.pwRailBrown) (railBit rail) = true := by
  obtain ⟨htime, hfaults, hbrown, hdom⟩ := s.coreReset_spec
  have hu := s.coreReset.showBrown_stays rail
  obtain ⟨hok, hout⟩ := s.coreReset.bitAt_showBrown rail
  unfold State.brownedOut
  generalize s.coreReset.showBrown rail = u at *
  have hv : u.stays causeKey (u.setCause R.pwResetCauseBrownout) := u.setCause_stays (by decide)
  have hcause : (u.setCause R.pwResetCauseBrownout).reg R.pwResetCauseBrownout = 1 := u.reg_setCause rfl
  generalize u.setCause R.pwResetCauseBrownout = v at *
  obtain ⟨hwtime, hwlg, hwbrown, hwregs⟩ := v.noteBrownout_kept
  generalize v.noteBrownout = w at *
  have hreg (r : Row) (hr : ¬ causeKey (r.key 0 0)) : w.reg r = u.reg r :=
    ((v.regsOutside_refl _).of_regs hwregs r 0 0 hr).trans (hv.reg r 0 0 hr)
  have hvtime : v.devtime = s.devtime := by rw [hv.devtime, hu.devtime, htime]
  refine ⟨by rw [hwtime, hvtime], by rw [hwlg, hv.lg, hu.lg, hfaults], ?_, ?_, ?_, ?_, ?_⟩
  · rw [hwbrown, hvtime, State.recentBrownouts_congr hvtime (by rw [hv.brownouts, hu.brownouts, hbrown])]
  · rw [State.domOn, hreg _ (by decide), hu.reg _ _ _ (by decide)]
    exact hdom
  · unfold State.reg at hcause ⊢
    rw [hwregs, hcause]
  · rw [hreg _ (by decide), hok]
  · rw [hreg _ (by decide), hout]

/-- A core stopped by a brown-out waits for its rails (R89). -/
def State.holdStopped (s : State) : State := ((s.modKeeper fun k => { k with mode := .stopped }).arm .brownHold 100000000).setFaultN false

/-- A brown-out of a rail other than VDD_AON: after a thermal trip the device stays tripped, the third one in 10 s leads to GESSO code 8,
and any other one stops the core (R82, R87, R89). -/
theorem exec_railBrownout {r : Rail} (hr : r ≠ .aon) (h : s.alive = true) : exec (.railBrownout r) s =
    .next (if s.keeper.mode = .tripped then (s.brownedOut r).tripPins
      else if 2 ≤ s.recentBrownouts.length then (s.brownedOut r).enterGesso 8 else (s.brownedOut r).holdStopped) := by
  obtain ⟨-, -, hbrown, -⟩ := s.brownedOut_spec r
  have hlen : 3 ≤ (s.brownedOut r).keeper.brownouts.length ↔ 2 ≤ s.recentBrownouts.length := by
    rw [hbrown, List.length_cons]
    omega
  show execRailBrownout r s = _
  unfold execRailBrownout
  rw [if_neg hr, if_neg (by simp [h])]
  simp only [← hlen]
  by_cases htrip : s.keeper.mode = .tripped
  · simp only [htrip]
    rfl
  · simp only [htrip]
    rfl

theorem State.holdStopped_spec (s : State) : s.holdStopped.keeper.mode = .stopped ∧ s.holdStopped.devtime = s.devtime ∧
    s.holdStopped.lg = s.lg ∧ alGet s.holdStopped.timers .brownHold = some (s.devtime + 100000000) ∧
    s.regsBut s.holdStopped [R.pwHbFault.key 0 0] :=
  ⟨rfl, rfl, rfl, alGet_alPut_self _ _ _, (s.regsBut_refl _).setReg (by simp)⟩

theorem State.tripPins_spec (s : State) : s.tripPins.keeper.mode = .tripped ∧ s.tripPins.regs = s.regs := ⟨rfl, rfl⟩

/-! ## The check of the rails, and Keeper's watchdog (R89, R96, R115) -/

/-- Keeper sees its rails while nothing is held (R90). -/
theorem exec_brownoutHoldCheck_idle {v : BitVec 6} {m : Bool} (h : s.alive = true) (hmode : s.keeper.mode ≠ .stopped) :
    exec (.brownoutHoldCheck v m) s = .next (s.setReg R.pwRailOk v.toNat) := by
  show execBrownoutHoldCheck v m s = _
  simp [execBrownoutHoldCheck, h, hmode]

/-- While the core is held, rails in range reboot it, and a rail that is out when the hold ends leads to GESSO code 8 (R89, R96). -/
theorem exec_brownoutHoldCheck_held {v : BitVec 6} {m : Bool} (hmode : s.keeper.mode = .stopped) (harmed : s.armed .brownHold = true) :
    exec (.brownoutHoldCheck v m) s = .next (
      if v.toNat = 63 then ((s.setReg R.pwRailOk v.toNat).disarm .brownHold).coreReboot m
      else if s.due .brownHold then ((s.setReg R.pwRailOk v.toNat).disarm .brownHold).enterGesso 8
      else s.setReg R.pwRailOk v.toNat) := by
  have halive : s.alive = true := by simp [State.alive, hmode]
  show execBrownoutHoldCheck v m s = _
  simp [execBrownoutHoldCheck, halive, hmode, harmed]

theorem State.armed_of_due {x : Timer} (h : s.due x = true) : s.armed x = true := by
  unfold State.due at h
  unfold State.armed
  split at h
  · next hd => rw [hd]; rfl
  · simp at h

/-- Keeper's watchdog resets the device in full, and it leaves reset at once (R69). -/
theorem exec_keeperWd {b : BitVec 2} {m : Bool} (h : s.alive = true) (hreset : s.pins.resetN = true)
    (hpor : s.pins.porReleased = true) :
    exec (.keeperWd b m) s = .next ((s.bankFailed.fullReset R.pwResetCauseKeeperWd).resetExit b.toNat m) := by
  have hpins : s.bankFailed.pins = s.pins := by
    unfold State.bankFailed
    split <;> rfl
  have hboth : ((s.bankFailed.fullReset R.pwResetCauseKeeperWd).pins.resetN &&
      (s.bankFailed.fullReset R.pwResetCauseKeeperWd).pins.porReleased) = true := by
    show (s.bankFailed.pins.resetN && s.bankFailed.pins.porReleased) = true
    rw [hpins, hreset, hpor]
    rfl
  show execKeeperWd b m s = _
  unfold execKeeperWd
  rw [if_pos h]
  dsimp only
  rw [if_pos hboth]

theorem State.setReg_railOk (s : State) (v : BitVec 6) : (s.setReg R.pwRailOk v.toNat).reg R.pwRailOk = v.toNat :=
  (s.reg_setReg_self _ _ _ _).trans (Nat.mod_eq_of_lt v.isLt)

/-- Settles O16: what is left of a core reset and of a full one, and where Keeper goes from there. -/
theorem brownOutsAndKeepersWatchdog : Obligations.BrownOutsAndKeepersWatchdog := by
  refine ⟨fun s => ⟨_, rfl, s.reg_fullReset_cause _, rfl, rfl, rfl, rfl, rfl, rfl⟩, fun r s hr halive hmode hfew => ?_,
    fun r s hr halive hmode hmany => ?_, fun r s hr hmode => ?_,
    fun v m s halive hmode => ⟨_, exec_brownoutHoldCheck_idle halive hmode, s.setReg_railOk v, State.onlyRegs_setReg (by simp)⟩,
    fun v m s hmode hdue hv => ?_, fun m s hmode harmed => ?_, fun b s halive hreset hpor hb => ?_⟩
  · obtain ⟨htime, hfaults, -, -, hcause, hok, hout⟩ := s.brownedOut_spec r
    have hexec := exec_railBrownout hr halive
    rw [if_neg hmode, if_neg (show ¬ 2 ≤ s.recentBrownouts.length from Nat.not_le.mpr hfew)] at hexec
    obtain ⟨hstopped, hstime, hslg, htimer, hregs⟩ := (s.brownedOut r).holdStopped_spec
    refine ⟨_, hexec, hstopped, ?_, ?_, ?_, ?_, ?_, ?_⟩
    · rw [hregs _ _ _ (by decide), hcause]
    · rw [hregs _ _ _ (by decide), hok]
    · rw [hregs _ _ _ (by decide), hout]
    · rw [htimer, htime]
    · rw [hstime, htime]
    · rw [hslg, hfaults]
  · have hexec := exec_railBrownout hr halive
    rw [if_neg hmode, if_pos (show 2 ≤ s.recentBrownouts.length from hmany)] at hexec
    exact ⟨_, hexec, State.enterGesso_mode _ _ (by decide)⟩
  · obtain ⟨-, -, -, hdom, hcause, hok, -⟩ := s.brownedOut_spec r
    have hexec := exec_railBrownout hr (show s.alive = true by simp [State.alive, hmode])
    rw [if_pos hmode] at hexec
    obtain ⟨htripped, hregs⟩ := (s.brownedOut r).tripPins_spec
    unfold State.domOn at hdom ⊢
    unfold State.reg at hcause hok hdom ⊢
    exact ⟨_, hexec, htripped, by rw [hregs, hcause], by rw [hregs, hok], by rw [hregs, hdom]⟩
  · have hexec := exec_brownoutHoldCheck_held (v := v) (m := m) hmode (State.armed_of_due hdue)
    rw [if_neg hv, if_pos hdue] at hexec
    obtain ⟨hown, hcode, hregs⟩ := ((s.setReg R.pwRailOk v.toNat).disarm .brownHold).enterGesso_spec 8
    refine ⟨_, hexec, congrArg KeeperOwn.mode hown, hcode, ?_⟩
    rw [hregs _ _ _ (by decide)]
    exact s.setReg_railOk v
  · have hexec := exec_brownoutHoldCheck_held (v := 63) (m := m) hmode harmed
    rw [if_pos (by decide)] at hexec
    have honly : s.onlyRegs (s.setReg R.pwRailOk (63 : BitVec 6).toNat) [R.pwRailOk.key 0 0] := State.onlyRegs_setReg (by simp)
    exact ⟨_, (s.setReg R.pwRailOk (63 : BitVec 6).toNat).disarm .brownHold, hexec, s.setReg_railOk 63, State.armed_disarm _ _, rfl,
      honly.2, rfl⟩
  · obtain ⟨hown, -, -, hstep, -, hregs⟩ := (s.bankFailed.fullReset R.pwResetCauseKeeperWd).resetExit_waits hb
    refine ⟨_, exec_keeperWd halive hreset hpor, ?_, congrArg KeeperOwn.devtime hown, congrArg KeeperOwn.mode hown, hstep,
      congrArg KeeperOwn.lg hown, fun hk8 => (congrArg KeeperOwn.store hown).trans ?_⟩
    · rw [hregs _ _ _ (by decide)]
      exact State.reg_fullReset_cause _ _
    · show s.bankFailed.store = s.store
      simp [State.bankFailed, hk8]

end Sys2Proof.Machine
end

section
/-! What a boot leaves of Keeper's mode: whatever it does before its end, Keeper stays in the mode that it was in (R94, R95, R108). -/
namespace Sys2Proof.Machine

/-- Keeper is in mode m. -/
def inMode (m : Mode) (s : State) : Prop := s.keeper.mode = m

variable {m : Mode} {s t : State}

/-- What leaves Keeper's state alone leaves its mode. -/
theorem inMode.same (h : inMode m s) (hk : t.keeper = s.keeper) : inMode m t := (congrArg Keeper.mode hk).trans h

theorem inMode.stays {W : Nat → Prop} (h : inMode m s) (hst : s.stays W t) : inMode m t := hst.mode.trans h

theorem inMode.head (h : inMode m s) (hk : s.headKept t) : inMode m t := h.same hk.keeper

theorem inMode.ite {a b : State} {p : Prop} [Decidable p] (ha : inMode m a) (hb : inMode m b) : inMode m (if p then a else b) := by
  split
  · exact ha
  · exact hb

/-! ## Fields, timers and pins -/

theorem inMode.setReg (h : inMode m s) {r : Row} {v i j : Nat} : inMode m (s.setReg r v i j) := h.same rfl
theorem inMode.bump (h : inMode m s) {r : Row} {i j n : Nat} : inMode m (s.bump r i j n) := h.same rfl
theorem inMode.modCv (h : inMode m s) {f} : inMode m (s.modCv f) := h.same rfl
theorem inMode.modRoles (h : inMode m s) {f} : inMode m (s.modRoles f) := h.same rfl
theorem inMode.modPal (h : inMode m s) {f} : inMode m (s.modPal f) := h.same rfl
theorem inMode.modEi (h : inMode m s) {f} : inMode m (s.modEi f) := h.same rfl
theorem inMode.modPp (h : inMode m s) {f} : inMode m (s.modPp f) := h.same rfl
theorem inMode.modXr (h : inMode m s) {f} : inMode m (s.modXr f) := h.same rfl
theorem inMode.modFu (h : inMode m s) {f} : inMode m (s.modFu f) := h.same rfl
theorem inMode.modSf (h : inMode m s) {f} : inMode m (s.modSf f) := h.same rfl
theorem inMode.modRd (h : inMode m s) {f} : inMode m (s.modRd f) := h.same rfl
theorem inMode.modSl (h : inMode m s) {f} : inMode m (s.modSl f) := h.same rfl
theorem inMode.modHi (h : inMode m s) {f} : inMode m (s.modHi f) := h.same rfl
theorem inMode.modLg (h : inMode m s) {f} : inMode m (s.modLg f) := h.same rfl
theorem inMode.modTmem (h : inMode m s) {f} : inMode m (s.modTmem f) := h.same rfl
theorem inMode.modMesh (h : inMode m s) {f} : inMode m (s.modMesh f) := h.same rfl
theorem inMode.tick (h : inMode m s) : inMode m s.tick := h.same rfl
theorem inMode.arm (h : inMode m s) {x : Timer} {n : Nat} : inMode m (s.arm x n) := h.same rfl
theorem inMode.armAt (h : inMode m s) {x : Timer} {n : Nat} : inMode m (s.armAt x n) := h.same rfl
theorem inMode.disarm (h : inMode m s) {x : Timer} : inMode m (s.disarm x) := h.same rfl
theorem inMode.setFaultN (h : inMode m s) {b : Bool} : inMode m (s.setFaultN b) := h.same rfl
theorem inMode.modPop (h : inMode m s) {p f} : inMode m (s.modPop p f) := h.same rfl
theorem inMode.modSpan (h : inMode m s) {n f} : inMode m (s.modSpan n f) := h.same rfl

theorem inMode.modKeeper (h : inMode m s) {f : Keeper → Keeper} (hf : (f s.keeper).mode = s.keeper.mode) : inMode m (s.modKeeper f) :=
  hf.trans h

theorem inMode.vector (h : inMode m s) {v : Nat} : inMode m (s.vector v) := h.head s.headKept_refl.vector

/-- A write of several elements. -/
theorem inMode.setReg_all {α : Type} {f : State → α → Row} {v i j : State → α → Nat} (h : inMode m s) (l : List α) :
    inMode m (l.foldl (fun (x : State) a => x.setReg (f x a) (v x a) (i x a) (j x a)) s) :=
  foldlKeeps (P := inMode m) (fun _ _ hx => hx.setReg) l h

theorem inMode.setRegs (h : inMode m s) {r : Row} {n : Nat} {f : Nat → Nat} : inMode m (s.setRegs r n f) := h.setReg_all _

/-! ## The ledger: items, records and faults -/

theorem inMode.inform (h : inMode m s) {item : ItemId} {a b c : Nat} : inMode m (s.inform item a b c) :=
  h.head (s.pushRecord_headKept item a b c s.devtime)

theorem inMode.complete (h : inMode m s) {item : ItemId} {block : Nat} : inMode m (s.complete item block) := by
  have hended : inMode m (s.markEnded item) := h.modLg
  exact h.bump.ite (hended.inform.ite hended)

theorem inMode.report (h : inMode m s) {item : ItemId} {a b c : Nat} : inMode m (s.report item a b c) := by
  unfold State.report
  split
  · exact h.bump.modLg.ite h.bump
  · have hended : inMode m (s.markEnded item) := h.modLg
    exact h.bump.ite hended.modLg.arm

theorem inMode.takeItem (h : inMode m s) {n : Nat} : inMode m (s.takeItem n) := h.same rfl

theorem inMode.startSentence (h : inMode m s) : inMode m s.startSentence := by
  unfold State.startSentence
  refine h.ite ?_
  split
  · exact h
  · exact h.modHi.arm

theorem inMode.queueSentence (h : inMode m s) {kind : Nat} {body : List Byte} {cmd : Option Fetched} :
    inMode m (s.queueSentence kind body cmd).2 := by
  unfold State.queueSentence
  extract_lets e u
  split
  · exact h
  split
  · exact h.modHi.startSentence
  split
  · exact h.bump.modHi
  · exact h.bump

theorem inMode.alarm (h : inMode m s) {k : String} {v : Nat} : inMode m (s.alarm k v) := h.setReg.queueSentence

theorem inMode.reportAll (h : inMode m s) {l : List ItemId} {a b c : Nat} : inMode m (s.reportAll l a b c) :=
  foldlKeeps (P := inMode m) (fun _ _ hx => hx.report) l h

theorem inMode.quiesceReports (h : inMode m s) {a b : Nat} : inMode m (s.quiesceReports a b) :=
  foldlKeeps (P := inMode m) (fun _ _ hx => hx.report) _
    h.reportAll.reportAll.reportAll.reportAll.reportAll.reportAll.reportAll.reportAll.reportAll

/-- The work in hand is dropped, and the windows of the tiles that drew are closed (R472). -/
theorem inMode.stopWork (h : inMode m s) : inMode m s.stopWork := by
  unfold State.stopWork
  extract_lets a b c d e f g
  have ha : inMode m a := h.modPal.head (State.headKept_refl _).refreshXoff
  have hf : inMode m f := ha.modPal.modEi.modPp.modXr.modFu.disarm
  have hg : inMode m g := hf.setReg_all _
  clear_value g
  exact hg.same rfl

theorem inMode.quiesce (h : inMode m s) {a b c : Nat} : inMode m (s.quiesce a b c) :=
  h.ite h.setReg.setReg.setFaultN.alarm.quiesceReports.stopWork.arm

theorem inMode.storm (h : inMode m s) : inMode m s.storm := h.bump.quiesce

theorem inMode.takeFault (h : inMode m s) : inMode m s.takeFault := by
  unfold State.takeFault
  split
  · exact h
  · exact h.modLg
  · exact h.modLg.bump.ite h

theorem inMode.raise (h : inMode m s) {off bit sev block : Nat} : inMode m (s.raise off bit sev block) := by
  unfold State.raise
  extract_lets u many v
  have hv : inMode m v := h.modLg.bump.ite h.modLg
  clear_value v
  split
  · exact hv.modLg.vector.storm.ite hv.modLg.vector
  · refine hv.storm.ite ?_
    split
    · exact hv.storm
    · exact hv.modLg.vector.takeFault

/-! ## The staged images: manifest, signatures, firmware and agreement (R94 to R105) -/

theorem inMode.noteSig (h : inMode m s) {kind slot : Nat} {r : SigRes} : inMode m (s.noteSig kind slot r) :=
  h.stays (s.stays_refl _).noteSig

theorem inMode.bootSig (h : inMode m s) {e : DirEnt} : inMode m (s.bootSig e).2 := h.noteSig

theorem inMode.chooseManifest (h : inMode m s) {new : Option Manifest} : inMode m (s.chooseManifest new) := by
  have hnew (x : Manifest) : inMode m (s.modKeeper fun k => { k with manifestNew := some x }) := h.modKeeper rfl
  unfold State.chooseManifest
  split
  · exact h.setReg
  · exact (hnew _).setReg
  · exact (hnew _).setReg.ite (h.setReg.setReg.raise.ite h.setReg)

theorem inMode.bootManifest (h : inMode m s) {l : List DirEnt} : inMode m (s.bootManifest l).1 := by
  unfold State.bootManifest
  split
  · exact h.chooseManifest
  · dsimp only
    split
    · exact h.bootSig.chooseManifest
    · exact h.bootSig

/-- A firmware image goes to the store, and Keeper remembers the bank that it went to (R93, R110). -/
theorem inMode.fwWrite (h : inMode m s) {img : List Byte} : inMode m (s.fwWrite img) := h

theorem inMode.bootFirmware (h : inMode m s) {l : List DirEnt} : inMode m (s.bootFirmware l).1 := by
  unfold State.bootFirmware
  split
  · exact h
  · extract_lets img item u
    have hu : inMode m u := h.takeItem.noteSig
    split
    · exact hu.fwWrite.complete
    · exact hu.report

theorem inMode.bootImages (h : inMode m s) : inMode m s.bootImages.1 := by
  unfold State.bootImages
  split
  · exact h
  · next l _ =>
    split
    · next u _ hu => exact pairFst (P := inMode m) hu h.bootManifest
    · next u hu =>
      have hman : inMode m u := pairFst hu h.bootManifest
      split
      · next v _ hv => exact pairFst (P := inMode m) hv hman.bootFirmware
      · next v hv =>
        have hfw : inMode m v := pairFst hv hman.bootFirmware
        split
        · dsimp only
          split
          · exact hfw.bootSig
          split
          · exact hfw.bootSig.bootSig
          · exact hfw.bootSig.bootSig
        · exact hfw

theorem inMode.bootAgree (h : inMode m s) {keep : Bool} {cands : List Nat} {b : BootImages} : inMode m (s.bootAgree keep cands b).1 := by
  unfold State.bootAgree
  extract_lets p pair l u v
  have hv : inMode m v := h.setReg.setReg.setRegs
  clear_value v
  split
  · exact hv.setReg.setReg
  · exact hv.setReg.setReg

theorem inMode.startBank (h : inMode m s) {i : Nat} : inMode m (s.startBank i) := h

/-! ## Neurons and their steps (R262 to R264) -/

theorem inMode.putNeuron (h : inMode m s) {t a : Nat} {n : Neuron} : inMode m (s.putNeuron t a n) := h.modTmem

theorem inMode.spikeParity (h : inMode m s) {p t : Nat} : inMode m (s.spikeParity p t) := h.modSf.bump.modPop.raise

theorem inMode.countSpike (h : inMode m s) {p us i : Nat} : inMode m (s.countSpike p us i) := h.ite h.modPop

theorem inMode.emitSpike (h : inMode m s) {p t us i : Nat} {pol : Bool} {above : Int} : inMode m (s.emitSpike p t us i pol above) := by
  unfold State.emitSpike
  extract_lets item u
  have hu : inMode m u := h.ite h.bump.countSpike
  exact inMode.ite hu.modMesh.tick hu

theorem inMode.testSpike (h : inMode m s) {p t us i : Nat} {pol : Bool} {n : Neuron} : inMode m (s.testSpike p t us i pol n).2 := by
  unfold State.testSpike
  dsimp only
  split
  · exact h.emitSpike
  · exact h

theorem inMode.closeNeuron (h : inMode m s) {p t i addr til : Nat} {fail : Bool} : inMode m (s.closeNeuron p t i addr til fail) := by
  unfold State.closeNeuron
  refine inMode.ite h.putNeuron.spikeParity ?_
  extract_lets step n r x
  have hr : inMode m r.2 := by
    unfold r
    split
    · exact h.testSpike
    · exact h
  exact hr.putNeuron

theorem inMode.endStretch (h : inMode m s) {p : Nat} : inMode m (s.endStretch p) := by
  unfold State.endStretch
  split
  · exact h
  · exact h.inform.modPop

theorem inMode.stepClosed (h : inMode m s) {p k : Nat} : inMode m (s.stepClosed p k) := by
  unfold State.stepClosed
  extract_lets step above q u late v
  have hv : inMode m v := h.setReg.bump.modPop
  exact hv.bump.modPop.ite hv.endStretch

theorem inMode.closeStep (h : inMode m s) {p t : Nat} {hard : Bool} {fails : List Nat} : inMode m (s.closeStep p t hard fails) := by
  unfold State.closeStep
  extract_lets k til r u v
  have hr : inMode m r.2 := foldlSnd (P := inMode m) (fun _ _ hx => hx.closeNeuron) _ h
  have hv : inMode m v := inMode.ite (inMode.modSf hr).modPop hr.modSf
  exact hv.stepClosed.ite hv

theorem inMode.closeChangedSteps (h : inMode m s) {l : List (Nat × Nat)} : inMode m (s.closeChangedSteps l) :=
  foldlKeeps (P := inMode m) (fun _ _ hx => foldlKeeps (P := inMode m) (fun _ _ hy => hy.closeStep) _ hx) _ h

theorem inMode.startPaced (h : inMode m s) {was : List (Nat × Nat)} : inMode m (s.startPaced was) :=
  foldlKeeps (P := inMode m) (fun _ _ hx => foldlKeeps (P := inMode m) (fun _ _ hy => hy.ite hy.modSf) _ hx.modPop) _ h

/-! ## Queues and span links -/

theorem inMode.createQueue (h : inMode m s) {r : QueueRec} {marker : Nat} : inMode m (s.createQueue r marker) := by
  unfold State.createQueue
  extract_lets u v put
  have hput (l : List (Row × Nat)) : inMode m (l.foldl put v) := foldlKeeps (P := inMode m) (fun _ _ hx => hx.setReg) l h.modPal.modPal
  exact inMode.head (hput _) (State.headKept_refl _).poolLow

theorem inMode.retireQueue (h : inMode m s) {q : Nat} : inMode m (s.retireQueue q) :=
  inMode.head h.setReg.setReg (State.headKept_refl _).releaseRetired

theorem inMode.updateQueue (h : inMode m s) {r : QueueRec} : inMode m (s.updateQueue r) :=
  foldlKeeps (P := inMode m) (fun _ _ hx => hx.setReg) _ h

theorem inMode.hangQueues (h : inMode m s) {e : Easel} : inMode m (s.hangQueues e) := by
  unfold State.hangQueues
  extract_lets ids old u
  have hu : inMode m u := foldlKeeps (P := inMode m) (fun _ _ hx => hx.retireQueue) old h
  have hnew := List.foldlRecOn e.canvas.queues (motive := inMode m)
    (fun (s : State) q => if s.flag R.qmQCfgPresent q.qid then s.updateQueue q else s.createQueue q ((alGet e.markers q.qid).getD 0)) hu fun x hx q _ => hx.updateQueue.ite hx.createQueue
  exact hnew.head (State.headKept_refl _).refreshXoff

theorem inMode.ackTimer (h : inMode m s) {n : Nat} : inMode m (s.ackTimer n) := by
  unfold State.ackTimer
  split
  · exact h.disarm
  · exact h.armAt

theorem inMode.sendFrame (h : inMode m s) {n : Nat} {f : LongFrame} : inMode m (s.sendFrame n f) := h.modSpan.bump.disarm.ackTimer

theorem inMode.pumpSide (h : inMode m s) {n k : Nat} : inMode m (s.pumpSide n k) := by
  induction k generalizing s with
  | zero => exact h
  | succ k ih =>
    unfold State.pumpSide
    refine h.ite ?_
    dsimp only
    split
    · refine inMode.ite (ih h.modSpan.sendFrame) ?_
      split
      · exact h
      · exact ih h.modSpan.sendFrame
    · exact ih h.modSpan.sendFrame
    · exact h

theorem inMode.queueEntry (h : inMode m s) {dst : Nat} {e : Cell64} : inMode m (s.queueEntry dst e) := by
  unfold State.queueEntry
  split
  · exact h.modSpan
  · exact h

theorem inMode.returnCredit (h : inMode m s) : inMode m s.returnCredit :=
  foldlKeeps (P := inMode m) (fun _ _ hx => foldlKeeps (P := inMode m) (fun _ _ hy => hy.queueEntry) _ hx.modSl) _ h

theorem inMode.sendGrants (h : inMode m s) : inMode m s.sendGrants := by
  have hall (l : List Nat) : inMode m (l.foldl (fun (s : State) c => s.rxQueues.foldl (fun (s : State) q =>
      s.queueEntry c (grantEntry q.1 q.2)) s) s) :=
    foldlKeeps (P := inMode m) (fun _ _ hx => foldlKeeps (P := inMode m) (fun _ _ hy => hy.queueEntry) _ hx) l h
  exact h.ite (hall _).returnCredit.pumpSide.pumpSide

/-! ## Responses to the host, and the start of the plan -/

theorem inMode.writeResponse (h : inMode m s) {r : Response} : inMode m (s.writeResponse r) := by
  have hring {n base wp log2 : Nat} {e : List Byte} : inMode m (s.ringWrite n base wp log2 e) := by
    rw [State.ringWrite_frame]
    exact h
  exact (hring.setReg.bump.complete.ite hring.setReg.bump).vector

theorem inMode.flushResponses (h : inMode m s) {n : Nat} : inMode m (s.flushResponses n) := by
  induction n generalizing s with
  | zero => exact h
  | succ n ih =>
    unfold State.flushResponses
    split
    · exact h
    · exact inMode.ite (ih h.modHi.writeResponse) h

theorem inMode.flushSpi (h : inMode m s) {n : Nat} : inMode m (s.flushSpi n) := by
  induction n generalizing s with
  | zero => exact h
  | succ n ih =>
    unfold State.flushSpi
    split
    · exact h
    · exact inMode.ite (ih (inMode.ite h.modHi.tick.bump.complete h.modHi.tick.bump)) h

theorem inMode.respond (h : inMode m s) {c : Fetched} {status result : Nat} : inMode m (s.respond c status result) :=
  inMode.ite h.modHi.flushSpi (inMode.ite h.modHi.flushResponses h.bump)

theorem inMode.answer (h : inMode m s) {c : Fetched} {status result : Nat} : inMode m (s.answer c status result) :=
  foldlKeeps (P := inMode m) (fun _ _ hx => hx.respond) _ h.modHi.modHi.respond

theorem inMode.startPlan (h : inMode m s) {p : Plan} {t0 : Nat} {atSeam : Bool} : inMode m (s.startPlan p t0 atSeam) := by
  unfold State.startPlan
  extract_lets u img scr v w x y z
  have hu : inMode m u := by
    unfold u
    split
    · exact h.answer
    · exact h
  have hw : inMode m w := hu.same rfl
  have hx : inMode m x := hw.ite hw.modRd.setReg
  exact hx.same rfl

/-! ## The boot HANG (R133, R136, R139) -/

theorem inMode.loseTile (h : inMode m s) {t : Nat} : inMode m (s.loseTile t) := h.modTmem.tick

theorem inMode.dropParts (h : inMode m s) {c : Canvas} {t : Nat} : inMode m (s.dropParts c t) := h.modTmem.tick.ite h.loseTile

theorem inMode.writeInits (h : inMode m s) {c : Canvas} {l : List InitRec} {t : Nat} : inMode m (s.writeInits c l t) := by
  unfold State.writeInits
  refine foldlKeeps (P := inMode m) (fun x a hx => ?_) _ h
  split
  · exact hx.modTmem
  · exact hx

theorem inMode.clearTileWindow (h : inMode m s) {t : Nat} : inMode m (s.clearTileWindow t) := by
  unfold State.clearTileWindow
  extract_lets z
  exact foldlKeeps (P := inMode m) (fun _ _ hx => hx.setReg_all _) _ h

theorem inMode.takeRole (h : inMode m s) {c : Canvas} {t : Nat} : inMode m (s.takeRole c t) := by
  have hdata : inMode m (if c.role t = 0 then s.loseTile t else (s.dropParts c t).writeInits c s.cv.inits t) :=
    h.loseTile.ite h.dropParts.writeInits
  have hrole := (hdata.modRoles (f := (·.set t (c.role t)))).clearTileWindow (t := t)
  exact hrole.setReg.ite hrole

theorem inMode.doHang (h : inMode m s) {e : Easel} {boot : Bool} : inMode m (s.doHang e boot) := by
  unfold State.doHang
  extract_lets +onlyGivenNames -merge c slot cost changes old w was x y z a b d same taken
  have hw : inMode m w := inMode.closeChangedSteps (h.setReg_all _).modRd
  have hx : inMode m x := hw.hangQueues
  have happlied : inMode m ((x.applyEasel e).removeBindings x) := hx.same rfl
  have hy : inMode m y := happlied.startPaced
  have ha : inMode m a := hy.setReg.bump.setReg.setReg.ite hy.setReg.bump.setReg
  have hd : inMode m d := (ha.modKeeper rfl).modCv
  have hboot := List.foldlRecOn (List.range d.member.tiles) (motive := inMode m)
    (fun (s : State) t => if c.role t = 0 then s.setRole t 0 else s.takeRole c t) hd fun u hu t _ => hu.modRoles.ite hu.takeRole
  have hdropped : inMode m (same.foldl (fun s t => s.dropParts c t) d) := foldlKeeps (P := inMode m) (fun _ _ hu => hu.dropParts) same hd
  have htaken : inMode m taken := hboot.ite hdropped.setReg.arm
  clear_value taken
  split
  · exact inMode.sendGrants (inMode.setReg (htaken.startPlan.ite htaken.startPlan))
  · exact inMode.sendGrants htaken.setReg

/-! ## K8 and K9 (R94, R145) -/

theorem inMode.reserveMarkers (h : inMode m s) {e : Easel} {l : List Nat} : inMode m (s.reserveMarkers e l) := by
  induction l generalizing s e with
  | nil => exact h.modCv
  | cons q l ih => exact ih h.modCv.tick

/-- No span link trains while Keeper boots, and so a domain that comes on leaves the mode. -/
theorem inMode.domReady (h : inMode .booting s) {d : Nat} : inMode .booting (s.domReady d) := by
  have hrun : s.inRun = false := by
    unfold State.inRun
    rw [show s.keeper.mode = .booting from h]
    rfl
  exact h.stays ((s.stays_refl _).domReady (.inl hrun))

theorem inMode.domBoot (h : inMode .booting s) {d : Nat} : inMode .booting (s.domBoot d) :=
  h.ite (h.domReady.ite (h.stays (s.stays_refl _).domRefuse).setReg)

theorem inMode.domOnNow (h : inMode .booting s) {d : Nat} : inMode .booting (s.domOnNow d) := h.ite h.domReady

/-- K9 leaves Keeper booting: run begins on its own (R95). -/
theorem inMode.bootHang (h : inMode .booting s) {item : ItemId} {c : Canvas} {p : Plan} {untested : Bool} :
    inMode .booting (s.bootHang item c p untested) := by
  unfold State.bootHang
  extract_lets want u v e x e' y z
  have hu : inMode .booting u := foldlKeeps (P := inMode .booting) (fun _ _ hx => hx.domBoot.ite hx) _ h
  have hv : inMode .booting v := foldlKeeps (P := inMode .booting) (fun _ _ hx => hx.domOnNow.ite hx) _ hu
  have hx : inMode .booting x := hv.reserveMarkers
  have hz : inMode .booting z := hx.modCv.inform.ite hx.modCv
  exact inMode.complete (inMode.setReg hz.doHang)

/-! ## A boot that fails (R78, R96, R108, R109) -/

theorem State.enterGesso_inMode (s : State) (code : Nat) : inMode .gesso (s.enterGesso code) :=
  congrArg KeeperOwn.mode (s.enterGesso_spec code).1

/-- A boot that fails ends in GESSO, whatever its code. -/
theorem State.bootReject_inMode (s : State) (reboot : Bool) (r : Reject) : inMode .gesso (s.bootReject reboot r) :=
  State.enterGesso_inMode _ _

/-- K5 begins: Keeper boots, and no wait or edge is due (R94). -/
def State.bootBegun (s : State) : State :=
  let s := s.modKeeper fun k => { k with mode := .booting, lastResult := none }
  let s := (((s.disarm .bootWait).disarm .heartbeat).setReg R.pwHbCode 0).setReg R.pwHbMode 0
  (s.setReg R.kpBootStep 5).setFaultN false

/-- A boot ends in GESSO where it fails, and else with Keeper booting. -/
theorem State.bootFrom5_mode (s : State) (keep reboot : Bool) : inMode .booting (s.bootFrom5 keep reboot) ∨
    inMode .gesso (s.bootFrom5 keep reboot) := by
  have hbegun : inMode .booting s.bootBegun := rfl
  unfold State.bootFrom5
  extract_lets cands u v w
  have hw : w = s.bootBegun := rfl
  clear_value w
  subst hw
  split
  · exact .inr (State.bootReject_inMode _ _ _)
  · next x b hx =>
    have himages : inMode .booting x := pairFst hx hbegun.bootImages
    split
    · exact .inr (State.bootReject_inMode _ _ _)
    · next y i untested hy =>
      have hagree : inMode .booting y := pairFst hy himages.bootAgree
      extract_lets z c p
      have hz : inMode .booting z := hagree.ite hagree.startBank
      clear_value z
      split
      · exact .inr (State.bootReject_inMode _ _ _)
      · exact .inl hz.takeItem.bootHang

/-- Without a boot set K5 fails with GESSO code 5, and the check is noted in CV_REJECT. -/
theorem State.bootFrom5_of_no_bootDir {s : State} (keep : Bool) (h : bootDir s.ext = none) :
    s.bootFrom5 keep false = s.bootBegun.bootReject false { code := 5, kind := 2, check := 6 } := by
  have himages : s.bootBegun.bootImages = (s.bootBegun, .inl { code := 5, kind := 2, check := 6 }) := by
    unfold State.bootImages
    rw [show bootDir s.bootBegun.ext = none from h]
  unfold State.bootFrom5
  extract_lets cands u v w
  have hw : w = s.bootBegun := rfl
  clear_value w
  subst hw
  rw [himages]

end Sys2Proof.Machine
end

section
/-! GO and the controls of KP_CTRL (R92, R94, R106, R109, R113, R115). -/
namespace Sys2Proof.Machine

variable {s : State} {via : Iface}

/-! ## GO -/

theorem exec_bootGo (hreach : s.writeReaches 0x10 via = true) : exec (.bootGo via) s = .next (s.writeGo via) := by
  change execBootGo via s = _
  rw [execBootGo, if_pos hreach]

theorem exec_bootGo_excluded (h : s.writeReaches 0x10 via = false ∨ s.bootIface via = false) : exec (.bootGo via) s = .next s := by
  cases hreach : s.writeReaches 0x10 via with
  | false =>
    change execBootGo via s = _
    rw [execBootGo, hreach, if_neg Bool.false_ne_true]
  | true =>
    have hiface : s.bootIface via = false := h.resolve_left (by simp [hreach])
    rw [exec_bootGo hreach]
    unfold State.writeGo
    rw [hiface]
    rfl

/-- The write of GO sets its bit alone, and leaves the mode and CODE (R7, R113). -/
theorem State.setCmd_go (s : State) : (s.setCmd R.kpBootGo).keeper = s.keeper ∧ (s.setCmd R.kpBootGo).ext = s.ext ∧
    (s.setCmd R.kpBootGo).reg R.pwHbCode = s.reg R.pwHbCode := by
  obtain ⟨hframe, hregs⟩ := s.setCmd_onlyRegs R.kpBootGo (List.mem_singleton_self _)
  refine ⟨?_, ?_, hregs _ 0 0 (by decide)⟩
  · rw [hframe]
  · rw [hframe]

section
variable (hiface : s.bootIface via = true)
include hiface

theorem State.writeGo_of_booting (h : s.keeper.mode = .booting) :
    s.writeGo via = (s.setCmd R.kpBootGo).setReg R.kpBootGoIgnored 1 := by
  have hmode : (s.setCmd R.kpBootGo).keeper.mode = .booting := by rw [s.setCmd_go.1, h]
  unfold State.writeGo
  simp only [hiface, hmode, Bool.not_true, Bool.false_eq_true, if_false]

theorem State.writeGo_of_waitGo (h : s.keeper.mode = .waitGo) : s.writeGo via = (s.setCmd R.kpBootGo).bootFrom5 false false := by
  have hmode : (s.setCmd R.kpBootGo).keeper.mode = .waitGo := by rw [s.setCmd_go.1, h]
  unfold State.writeGo
  simp only [hiface, hmode, Bool.not_true, Bool.false_eq_true, if_false]

/-- GESSO codes 1, 2, 3 and 5 take a GO as the wait of K4 does (R109). -/
theorem State.writeGo_of_gesso (h : s.keeper.mode = .gesso) (hcode : s.reg R.pwHbCode ∈ [1, 2, 3, 5]) :
    s.writeGo via = (s.setCmd R.kpBootGo).bootFrom5 false false := by
  obtain ⟨hkeeper, -, hreg⟩ := s.setCmd_go
  have hmode : (s.setCmd R.kpBootGo).keeper.mode = .gesso := by rw [hkeeper, h]
  have h4 : s.reg R.pwHbCode ≠ 4 := by
    intro h4
    rw [h4] at hcode
    exact absurd hcode (by decide)
  have hor : s.reg R.pwHbCode = 1 ∨ s.reg R.pwHbCode = 2 ∨ s.reg R.pwHbCode = 3 ∨ s.reg R.pwHbCode = 5 := by simpa using hcode
  unfold State.writeGo
  simp only [hiface, hmode, hreg, Bool.not_true, Bool.false_eq_true, if_false, if_neg h4, if_pos hor]

/-- A GO that nothing waits for sets its bit alone (R113). -/
theorem State.writeGo_of_deaf (h : s.keeper.mode ∈ [Mode.run, .stopped, .tripped] ∨
    (s.keeper.mode = .gesso ∧ s.reg R.pwHbCode ∉ [1, 2, 3, 4, 5])) : s.writeGo via = s.setCmd R.kpBootGo := by
  obtain ⟨hkeeper, -, hreg⟩ := s.setCmd_go
  unfold State.writeGo
  simp only [hiface, hkeeper, hreg, Bool.not_true, Bool.false_eq_true, if_false]
  rcases h with h | ⟨hmode, hcode⟩
  · simp only [List.mem_cons, List.not_mem_nil, or_false] at h
    rcases h with h | h | h <;> rw [h]
  · simp only [List.mem_cons, List.not_mem_nil, or_false, not_or] at hcode
    obtain ⟨h1, h2, h3, h4, h5⟩ := hcode
    simp only [hmode, h1, h2, h3, h4, h5, if_false, or_self]

end

/-! ## A boot without a boot set (R94, R96, R109) -/

/-- CV_REJECT shows the check that refused a load (R145). -/
theorem State.rejectLoad_shows (s : State) (item : ItemId) (stage check index : Nat) :
    (s.rejectLoad item stage check index).reg R.cvRejectValid = 1 ∧
    (s.rejectLoad item stage check index).reg R.cvRejectCheck = check % 2 ^ R.cvRejectCheck.width := by
  have hreport : (s.showReject check index).regsOutside faultKey (s.rejectLoad item stage check index) :=
    ((s.showReject check index).regsOutside_refl _).report
  constructor
  · rw [hreport R.cvRejectValid 0 0 (not_faultKey (by decide) (by decide))]
    exact State.reg_setReg_self _ _ _ _ _
  · rw [hreport R.cvRejectCheck 0 0 (not_faultKey (by decide) (by decide)), State.showReject,
      State.reg_setReg_ne _ _ _ _ _ _ _ _ (by decide), State.reg_setReg_ne _ _ _ _ _ _ _ _ (by decide), State.reg_setReg_self]

/-- A boot that fails for another cause than a firmware image shows its check and is in GESSO with its code. -/
theorem State.bootReject_shows (s : State) {r : Reject} (hkind : r.kind ≠ 4) (hcode : r.code < 16) :
    (s.bootReject false r).keeper.mode = .gesso ∧ (s.bootReject false r).reg R.pwHbCode = r.code ∧
    (s.bootReject false r).reg R.cvRejectValid = 1 ∧
    (s.bootReject false r).reg R.cvRejectCheck = r.check % 2 ^ R.cvRejectCheck.width := by
  obtain ⟨hvalid, hcheck⟩ := (s.takeItem 0).rejectLoad_shows (s.nextItem 0) r.kind r.check r.index
  have hreject : s.bootReject false r = ((s.takeItem 0).rejectLoad (s.nextItem 0) r.kind r.check r.index).enterGesso r.code := by
    simp [State.bootReject, hkind]
  rw [hreject]
  generalize (s.takeItem 0).rejectLoad (s.nextItem 0) r.kind r.check r.index = u at hvalid hcheck
  obtain ⟨hmode, hreg⟩ := u.enterGesso_mode r.code hcode
  obtain ⟨-, -, hregs⟩ := u.enterGesso_spec r.code
  exact ⟨hmode, hreg, (hregs _ 0 0 (by decide)).trans hvalid, (hregs _ 0 0 (by decide)).trans hcheck⟩

/-! ## No GO for 5 s (R94, R108) -/

/-- The wait of K4 that has run out is over in GESSO. -/
theorem State.armed_bootWait_enterGesso (s : State) {code : Nat} : ((s.disarm .bootWait).enterGesso code).armed .bootWait = false := by
  have hwait : alGet ((s.disarm .bootWait).enterGesso code).timers .bootWait = alGet (s.disarm .bootWait).timers .bootWait :=
    congrArg KeeperOwn.bootWait ((s.disarm .bootWait).enterGesso_spec code).1
  have harmed := s.armed_disarm .bootWait
  unfold State.armed at harmed ⊢
  rw [hwait, harmed]

theorem exec_bootWaitExpire (hmode : s.keeper.mode = .waitGo) (hdue : s.due .bootWait = true) :
    exec .bootWaitExpire s = .next ((s.disarm .bootWait).enterGesso 1) := by
  change execBootWaitExpire s = _
  rw [execBootWaitExpire, if_pos ⟨hmode, hdue⟩]

/-! ## KP_CTRL (R106, R115, R117) -/

/-- Clears the exclusion of a bank, where it is asked for (R115). -/
def Bank.cleared (b : Bank) (clear : Bool) : Bank := { b with excluded := b.excluded && !clear }

/-- BANK_CLR sets its bits, and changes no more than the exclusions in the store. -/
theorem State.writeBankClr_eq (s : State) (a b : Bool) : s.writeBankClr a b =
    (s.setCmd R.kpCtrlBankClr 0 (a.toNat + 2 * b.toNat)).modStore fun t =>
      { t with bankA := t.bankA.cleared a, bankB := t.bankB.cleared b } := by
  unfold State.writeBankClr
  generalize s.setCmd R.kpCtrlBankClr 0 (a.toNat + 2 * b.toNat) = u
  cases a <;> cases b <;> simp [State.modBank, State.modStore, Bank.cleared]

/-- A command written with several bits sets no other field. -/
theorem State.setCmd_bits_onlyRegs (s : State) (r : Row) (v : Nat) : s.onlyRegs (s.setCmd r 0 v) [r.key 0 0] := by
  unfold State.setCmd
  split
  · exact State.onlyRegs_setReg (List.mem_singleton_self _)
  · exact s.onlyRegs_refl _

theorem State.writeBankClr_frame (s : State) (a b : Bool) :
    s.writeBankClr a b = { s with regs := (s.writeBankClr a b).regs, store := { s.store with
      bankA := s.store.bankA.cleared a, bankB := s.store.bankB.cleared b } } ∧
    s.regsBut (s.writeBankClr a b) [R.kpCtrlBankClr.key 0 0] := by
  obtain ⟨hframe, hregs⟩ := s.setCmd_bits_onlyRegs R.kpCtrlBankClr (a.toNat + 2 * b.toNat)
  rw [State.writeBankClr_eq]
  generalize s.setCmd R.kpCtrlBankClr 0 (a.toNat + 2 * b.toNat) = u at hframe hregs
  refine ⟨?_, hregs⟩
  rw [hframe]
  rfl

theorem exec_kpCtrl (hreach : s.writeReaches 0x14 via = true) (hiface : s.bootIface via = true) :
    (∀ on, exec (.allowUntested on via) s = .next (s.writeAllow on)) ∧
    (∀ a b, exec (.bankClr a b via) s = .next (s.writeBankClr a b)) ∧
    (∀ on, exec (.preferB on via) s = .next (s.modStore fun t => { t with preferB := on })) := by
  have hon : (s.writeReaches 0x14 via && s.bootIface via) = true := by rw [hreach, hiface, Bool.and_self]
  refine ⟨fun on => ?_, fun a b => ?_, fun on => ?_⟩
  · change execAllowUntested on via s = _
    rw [execAllowUntested, if_pos hon]
  · change execBankClr a b via s = _
    rw [execBankClr, if_pos hon]
  · change execPreferB on via s = _
    rw [execPreferB, if_pos hon]

/-- ALLOW_UNTESTED is set in GESSO and in the wait of K4, with its fuse clear (R106). -/
theorem State.writeAllow_true_of_open (h : s.inGesso = true ∨ s.keeper.mode = .waitGo) (hlock : s.part.untestedLock = false) :
    s.writeAllow true = s.setReg R.kpCtrlAllowUntested 1 := by
  simp only [State.writeAllow, Bool.not_true, Bool.false_eq_true, if_false, if_pos (And.intro h hlock)]

theorem State.writeAllow_true_of_shut (h : (s.inGesso = false ∧ s.keeper.mode ≠ .waitGo) ∨ s.part.untestedLock = true) :
    s.writeAllow true = s := by
  have hshut : ¬ ((s.inGesso = true ∨ s.keeper.mode = .waitGo) ∧ s.part.untestedLock = false) := by
    rintro ⟨hopen, hlock⟩
    rcases h with ⟨hgesso, hwait⟩ | hlocked
    · rcases hopen with ho | ho
      · rw [hgesso] at ho; exact Bool.false_ne_true ho
      · exact hwait ho
    · rw [hlocked] at hlock; exact Bool.false_ne_true hlock.symm
  simp only [State.writeAllow, Bool.not_true, Bool.false_eq_true, if_false, if_neg hshut]

/-- Settles O17: a GO is deaf, noted or begins K5 by Keeper's mode; K5 to K9 keep Keeper booting unless a check fails. -/
theorem goAndKeeperControl : Obligations.GoAndKeeperControl := by
  unfold Obligations.GoAndKeeperControl
  refine ⟨fun via s hreach hiface => ⟨fun h => ?_, fun h => ?_⟩, fun via s h => exec_bootGo_excluded h,
    fun via s hreach hiface hmode => ?_, fun via s hreach hiface hmode hdir => ?_, fun s hmode hdue => ?_, fun via s hreach hiface => ?_⟩
  · have hboot : s.writeGo via = (s.setCmd R.kpBootGo).bootFrom5 false false := by
      rcases h with hmode | ⟨hmode, hcode⟩
      · exact State.writeGo_of_waitGo hiface hmode
      · exact State.writeGo_of_gesso hiface hmode hcode
    exact ⟨_, exec_bootGo hreach, hboot ▸ (s.setCmd R.kpBootGo).bootFrom5_mode false false⟩
  · rw [exec_bootGo hreach, State.writeGo_of_deaf hiface h]
  · refine ⟨_, exec_bootGo hreach, ?_⟩
    rw [State.writeGo_of_booting hiface hmode]
    exact ⟨State.reg_setReg_self _ _ _ _ _, (s.setCmd_onlyRegs R.kpBootGo (by simp)).trans (State.onlyRegs_setReg (by simp))⟩
  · have hboot : s.writeGo via = (s.setCmd R.kpBootGo).bootBegun.bootReject false { code := 5, kind := 2, check := 6 } :=
      (State.writeGo_of_waitGo hiface hmode).trans (State.bootFrom5_of_no_bootDir false (s.setCmd_go.2.1.symm ▸ hdir))
    exact ⟨_, exec_bootGo hreach, hboot ▸ State.bootReject_shows _ (by decide) (by decide)⟩
  · obtain ⟨hgesso, hcode⟩ := (s.disarm .bootWait).enterGesso_mode 1 (by decide)
    exact ⟨_, exec_bootWaitExpire hmode hdue, hgesso, hcode, s.armed_bootWait_enterGesso⟩
  · obtain ⟨hallow, hclr, hprefer⟩ := exec_kpCtrl hreach hiface
    refine ⟨⟨_, hallow false, State.reg_setReg_self _ _ _ _ _, State.onlyRegs_setReg (by simp)⟩, fun hopen hlock => ?_,
      fun hshut => ?_, fun a b => ?_, fun on => hprefer on⟩
    · refine ⟨_, hallow true, ?_⟩
      rw [State.writeAllow_true_of_open hopen hlock]
      exact ⟨State.reg_setReg_self _ _ _ _ _, State.onlyRegs_setReg (by simp)⟩
    · rw [hallow, State.writeAllow_true_of_shut hshut]
    · exact ⟨_, hclr a b, s.writeBankClr_frame a b⟩

end Sys2Proof.Machine
end

section
/-! A command that stops though its frame buffer lies in installed memory (R99, R384, R385). The end of a screen tile counts the
contested decisions of the tile before it asks where the frame buffer lies; the bit address of RD_FB_ADDR[26], which no CANVAS has, is
that of RD_CNT[10], which counts them. -/
namespace Sys2Proof.Machine

/-- `buffer26State` with RD_CNT[10] at the last unit of RD_FB_ADDR inside the 16 GiB of a Q64. -/
def buffer26LastState : State :=
  { buffer26State with regs := [(R.rdCntCount.key 10 0, 0x3FFFFF)] }

/-- The state behind its contested decision: RD_CNT[10] is one more. -/
def buffer26LastContested : State :=
  (buffer26LastState.contest 0).modSide 0 fun x => { x with screen := none, entries := 0 }

theorem buffer26LastState_installed : buffer26LastState.fbInstalled 26 = true := by decide +kernel

theorem buffer26LastContested_not_installed : buffer26LastContested.fbInstalled 26 = false := by decide +kernel

/-- The frame buffer lies in installed memory before the command, and above it behind the contested decision: the command stops. -/
theorem exec_screenTileDone_buffer26Last :
    exec (.screenTileDone 0 []) buffer26LastState = .fault (.absentExternal (buffer26LastContested.fbAddr 26 0 0)) := by
  have hrun := exec_screenTileDone (s := buffer26LastState) (tl := 0) (bl := []) (x := contestedSide) (f := buffer26Frame) rfl rfl rfl
  have hno := buffer26LastContested_not_installed
  unfold buffer26LastContested at hno ⊢
  rw [hrun]
  simp [buffer26Frame, RFrame.blocks, hno]

/-- Refutes O6: its condition on the frame buffer does not bound the buffer's number, and speaks of the state before the command. With
buffer 26, which no run reaches, the contested decision that SCREEN_TILE_DONE counts first (R384) moves the buffer out of the installed
memory, and the command has no next state. -/
theorem not_commandsLeaveQueueAndPartAlone : ¬ Obligations.CommandsLeaveQueueAndPartAlone := by
  unfold Obligations.CommandsLeaveQueueAndPartAlone
  rintro ⟨hnext, -⟩
  obtain ⟨t, ht⟩ := hnext (.screenTileDone 0 []) buffer26LastState fun _ _ f _ hf => by
    obtain rfl : buffer26Frame = f := Option.some.inj hf
    exact buffer26LastState_installed
  rw [exec_screenTileDone_buffer26Last] at ht
  injection ht

end Sys2Proof.Machine
end

section
/-! The SPI target (R91, R92, R222, R428, R429, R437, R438, R450). -/
namespace Sys2Proof.Machine

variable {s t : State}

/-! ## Bits of a sum of flags, and bytes of a word -/

theorem ofFlag_le_one (b : Bool) : ofFlag b ≤ 1 := by cases b <;> decide

theorem decide_ofFlag (b : Bool) : decide (ofFlag b = 1) = b := by cases b <;> rfl

/-- A bit reads a flag where the quotient by its weight has the flag's parity. -/
theorem bitAt_eq_flag {v k : Nat} {b : Bool} (h : v / 2 ^ k % 2 = ofFlag b) : bitAt v k = b := by
  rw [bitAt, Nat.testBit_eq_decide_div_mod_eq, h, decide_ofFlag]

theorem leBytes_append (m n v : Nat) : leBytes (m + n) v = leBytes m v ++ leBytes n (v / 256 ^ m) := by
  induction m generalizing v with
  | zero => simp [leBytes]
  | succ m ih =>
    rw [Nat.succ_add, leBytes, leBytes, ih, List.cons_append, Nat.div_div_eq_div_mul, Nat.pow_succ']

theorem leBytes_mod (m v : Nat) : leBytes m (v % 256 ^ m) = leBytes m v := by
  induction m generalizing v with
  | zero => rfl
  | succ m ih =>
    have hbyte : BitVec.ofNat 8 (v % 256 ^ (m + 1)) = BitVec.ofNat 8 v := by
      apply BitVec.eq_of_toNat_eq
      rw [BitVec.toNat_ofNat, BitVec.toNat_ofNat, Nat.pow_succ']
      exact Nat.mod_mul_right_mod _ _ _
    rw [leBytes, leBytes, hbyte, Nat.pow_succ', Nat.mod_mul_right_div_self, ih]

theorem leBytes_four_mod (v : Nat) : leBytes 4 (v % 2 ^ 32) = leBytes 4 v := leBytes_mod 4 v

/-! ## Words read -/

/-- A fold passes over what its step leaves alone. -/
theorem foldl_filter_of_idle {α β : Type} {f : β → α → β} {p : α → Bool} (h : ∀ v a, p a = false → f v a = v) (l : List α) (v : β) :
    (l.filter p).foldl f v = l.foldl f v := by
  rw [List.foldl_filter]
  congr 1
  funext v a
  cases ha : p a
  · simp [h v a ha]
  · simp

/-- A word of which one row alone has an element reads as that element. -/
theorem State.readWord_of_unique {o i j : Nat} {r : Row} (hrow : ((blockRows o).filter fun r => (r.find o).isSome) = [r])
    (hfind : r.find o = some (i, j)) (hacc : r.acc ≠ .wo) (hlive : s.unitLive r.unit i = true) :
    s.readWord o = s.view r i j % 2 ^ r.width * 2 ^ r.lo := by
  unfold State.readWord
  rw [← foldl_filter_of_idle (p := fun r => (r.find o).isSome) ?_, hrow]
  · simp [hfind, hacc, hlive]
  · intro v a ha
    have hnone : a.find o = none := by simpa using ha
    rw [hnone]

theorem State.latchRead_of_ne {o : Nat} (hlo : o ≠ 0x500000) (hwin : o ≠ 0x90002C) : s.latchRead o = s := by
  simp [State.latchRead, hlo, hwin]

/-- A word that latches none: its bytes where the target serves it, and else zeros (R438). -/
theorem State.spiReadWord_of_ne {o : Nat} (hlo : o ≠ 0x500000) (hwin : o ≠ 0x90002C) : s.spiReadWord o =
    (if s.spiServes o && o % 4 == 0 then leBytes 4 (s.readWord o) else [0, 0, 0, 0], s) := by
  unfold State.spiReadWord
  rw [State.latchRead_of_ne hlo hwin]
  split <;> rfl

/-- The words of a READ that leaves the state alone follow one another. -/
theorem foldl_spiReadWord {g : Nat → List Byte} {a : Nat → Nat} (l : List Nat) (out : List Byte)
    (h : ∀ i ∈ l, s.spiReadWord (a i) = (g i, s)) :
    l.foldl (fun (x : List Byte × State) i => (x.1 ++ (x.2.spiReadWord (a i)).1, (x.2.spiReadWord (a i)).2)) (out, s) =
      (out ++ l.flatMap g, s) := by
  induction l generalizing out with
  | nil => simp
  | cons i l ih =>
    rw [List.foldl_cons, h i (by simp), ih _ fun k hk => h k (by simp [hk]), List.flatMap_cons, List.append_assoc]

/-- The bytes of n words from an offset on: zeros where the target does not serve a word (R438). -/
def State.spiReadBytes (s : State) (off n : Nat) : List Byte := (List.range n).flatMap fun i =>
  if s.spiServes (off + 4 * i) && off % 4 == 0 then leBytes 4 (s.readWord (off + 4 * i)) else [0, 0, 0, 0]

theorem exec_spiRead_plain {off n : Nat} (halive : s.alive = true) (hend : off + 4 * n ≤ 2 ^ 24)
    (hplain : ∀ i, i < n → off + 4 * i ≠ 0x500000 ∧ off + 4 * i ≠ 0x90002C) :
    exec (.spiRead off n) s = .next (s.spiSend (s.spiReadBytes off n)) := by
  have hword : ∀ i ∈ List.range n, s.spiReadWord ((off + 4 * i) % 2 ^ 24) =
      (if s.spiServes (off + 4 * i) && off % 4 == 0 then leBytes 4 (s.readWord (off + 4 * i)) else [0, 0, 0, 0], s) := by
    intro i hi
    have hlt : i < n := List.mem_range.mp hi
    obtain ⟨hlo, hwin⟩ := hplain i hlt
    rw [Nat.mod_eq_of_lt (by omega), State.spiReadWord_of_ne hlo hwin, show (off + 4 * i) % 4 = off % 4 by omega]
  change execSpiRead off n s = _
  unfold execSpiRead
  rw [halive, foldl_spiReadWord _ _ hword]
  rfl

/-! ## DEVTIME read in two words (R222) -/

/-- The state behind the read of TM_DEVTIME_LO: its upper word is latched. -/
def State.devtimeLatched (s : State) : State := s.setReg R.tmDevtimeHiNs (s.devtime / 2 ^ 32)

theorem State.readWord_devtimeLo : s.readWord 0x500000 = s.devtime % 2 ^ 32 := by
  have hview : s.view R.tmDevtimeLoNs 0 0 = s.devtime % 2 ^ 32 := rfl
  rw [State.readWord_of_unique (r := R.tmDevtimeLoNs) (i := 0) (j := 0) (by decide +kernel) rfl (by decide) rfl, hview]
  simp [R.tmDevtimeLoNs]

theorem State.readWord_devtimeHi : s.readWord 0x500004 = s.reg R.tmDevtimeHiNs % 2 ^ 32 := by
  have hview : s.view R.tmDevtimeHiNs 0 0 = s.reg R.tmDevtimeHiNs := rfl
  rw [State.readWord_of_unique (r := R.tmDevtimeHiNs) (i := 0) (j := 0) (by decide +kernel) rfl (by decide) rfl, hview]
  simp [R.tmDevtimeHiNs]

/-- The time block is served with PD01 off (R438). -/
theorem State.spiServes_aon {o : Nat} (halive : s.alive = true) (ho : aonOffset o = true) : s.spiServes o = true := by
  rw [State.spiServes, halive, ho, Bool.or_true]
  rfl

theorem exec_spiRead_devtime (halive : s.alive = true) :
    exec (.spiRead 0x500000 2) s = .next (s.devtimeLatched.spiSend (leBytes 8 s.devtime)) := by
  have halive' : s.devtimeLatched.alive = true := halive
  have hlo : s.spiReadWord 0x500000 = (leBytes 4 s.devtime, s.devtimeLatched) := by
    have hlatch : s.latchRead 0x500000 = s.devtimeLatched := rfl
    have hdev : s.devtimeLatched.devtime = s.devtime := rfl
    unfold State.spiReadWord
    rw [State.spiServes_aon halive (by decide), hlatch]
    change (leBytes 4 (s.devtimeLatched.readWord 0x500000), s.devtimeLatched) = _
    rw [State.readWord_devtimeLo, hdev, leBytes_four_mod]
  have hhi : s.devtimeLatched.spiReadWord 0x500004 = (leBytes 4 (s.devtime / 2 ^ 32), s.devtimeLatched) := by
    have hreg : s.devtimeLatched.reg R.tmDevtimeHiNs = s.devtime / 2 ^ 32 % 2 ^ 32 := State.reg_setReg_self _ _ _ _ _
    rw [State.spiReadWord_of_ne (by decide) (by decide), State.spiServes_aon halive' (by decide), State.readWord_devtimeHi, hreg,
      Nat.mod_mod, leBytes_four_mod]
    rfl
  change execSpiRead 0x500000 2 s = _
  unfold execSpiRead
  rw [halive]
  simp [List.range_succ, hlo, hhi, leBytes_append 4 4 s.devtime]

/-! ## Words written -/

theorem exec_spiWrite_one (s : State) (off : Nat) (w : Word) :
    exec (.spiWrite off [w]) s = .next (s.spiWord (off % 2 ^ 24) w.toNat) := rfl

/-- A WRITE of several words is a WRITE of each. -/
theorem exec_spiWrite_cons (s : State) (off : Nat) (w : Word) (ws : List Word) :
    exec (.spiWrite off (w :: ws)) s = exec (.spiWrite (off + 4) ws) (s.spiWord (off % 2 ^ 24) w.toNat) := by
  change execSpiWrite off (w :: ws) s = execSpiWrite (off + 4) ws _
  unfold execSpiWrite
  rw [List.zipIdx_cons', List.foldl_cons, List.foldl_map]
  simp only [Nat.mul_zero, Nat.add_zero, Prod.map_fst, Prod.map_snd, id_eq, Nat.mul_add, Nat.mul_one]
  simp only [show ∀ k, off + (4 * k + 4) = off + 4 + 4 * k by omega]

/-- A word of the SPI target reaches a register where the target serves its offset, which is a multiple of 4 (R437). -/
theorem State.writeReaches_spi {o : Nat} (ho : o < 2 ^ 24) : s.writeReaches o .spi = (o % 4 == 0 && s.spiServes o) := by
  have hlt : decide (o < 0x1000000) = true := decide_eq_true ho
  rw [State.writeReaches, hlt, Bool.and_true]

/-- What a written word sets going beside its plain fields: the commands of its other fields. -/
def State.spiOwn (s : State) (o v : Nat) : State :=
  if o < 0x400000 then s.ownKeeper o v
  else if o < 0xC00000 then s.ownMiddle o v
  else if o < 0xF80000 then s.ownUpper o v
  else s.ownHost o v

theorem State.spiWord_of_misses {o v : Nat} (h : s.writeReaches o .spi = false) : s.spiWord o v = s := by
  rw [State.spiWord, h]
  rfl

theorem State.spiWord_of_reaches {o v : Nat} (h : s.writeReaches o .spi = true) :
    s.spiWord o v = ((s.writeWord o v).afterWrite o v).spiOwn o v := by
  rw [State.spiWord, h]
  rfl

theorem exec_spiWrite_dead (off : Nat) (ws : List Word) (h : s.alive = false) : exec (.spiWrite off ws) s = .next s := by
  induction ws generalizing off with
  | nil => rfl
  | cons w ws ih =>
    have hmiss : s.writeReaches (off % 2 ^ 24) .spi = false := by
      rw [State.writeReaches_spi (Nat.mod_lt _ (by decide)), State.spiServes, h, Bool.false_and, Bool.and_false]
    rw [exec_spiWrite_cons, State.spiWord_of_misses hmiss, ih]

theorem exec_spiWrite_misses {off : Nat} {w : Word} (hoff : off < 2 ^ 24) (h : s.spiServes off = false ∨ off % 4 ≠ 0) :
    exec (.spiWrite off [w]) s = .next s := by
  have hmiss : s.writeReaches off .spi = false := by
    rw [State.writeReaches_spi hoff]
    rcases h with h | h
    · rw [h, Bool.and_false]
    · rw [beq_eq_false_iff_ne.mpr h, Bool.false_and]
  rw [exec_spiWrite_one, Nat.mod_eq_of_lt hoff, State.spiWord_of_misses hmiss]

/-- A word without a field of a command of its own is a plain register write. -/
theorem exec_spiWrite_plain {off : Nat} {w : Word} (hoff : off < 2 ^ 24) (hown : ∀ t : State, t.spiOwn off w.toNat = t) :
    exec (.spiWrite off [w]) s = exec (.registerWrite off w .spi) s := by
  rw [exec_spiWrite_one, Nat.mod_eq_of_lt hoff]
  cases hreach : s.writeReaches off .spi
  · rw [State.spiWord_of_misses hreach, exec_registerWrite_misses hreach]
  · rw [State.spiWord_of_reaches hreach, exec_registerWrite_reaches hreach, hown]

theorem execLoadCanvas_completes (s : State) : ∃ u, execLoadCanvas s = .next u := by
  unfold execLoadCanvas
  extract_lets
  split <;> exact ⟨_, rfl⟩

/-- Words with one field of a command of its own, and that command (R148, R253, R90, R386, R423, R202, R473). -/
def spiCommands : List (Nat × Nat × Instr) :=
  [(0x800004, 1, .loadCanvas), (0x800004, 2, .hangRequest), (0x800004, 4, .unstage), (0x600004, 0x80000000, .poolLowClr),
    (0x200020, 0x80000000, .powerPeakClr), (0xE00000, 1, .video true), (0xE00000, 0, .video false), (0xF01000, 1, .spanLinkEnable 0 true),
    (0xF02000, 0, .spanLinkEnable 1 false), (0x400000, 1, .portEn 0 true), (0x401008, 1, .commit 1), (0x402008, 2, .cntClr 2),
    (0xF8000C, 5, .lgFaultAck 5)]

theorem spiCommands_bounds : ∀ x ∈ spiCommands, x.1 % 4 = 0 ∧ x.1 < 2 ^ 24 ∧ x.2.1 < 2 ^ 32 := by decide

/-- The field of each of those words sets its command going, and nothing else. -/
theorem spiOwn_of_spiCommands (t : State) : ∀ x ∈ spiCommands, exec x.2.2 t = .next (t.spiOwn x.1 x.2.1) := by
  have hload : exec .loadCanvas t = .next (t.spiOwn 0x800004 1) := by
    obtain ⟨u, hu⟩ := execLoadCanvas_completes t
    change execLoadCanvas t = .next ((execLoadCanvas t).after t)
    rw [hu]
    rfl
  simp only [spiCommands, List.forall_mem_cons, List.not_mem_nil, false_implies, implies_true, and_true]
  exact ⟨hload, rfl, rfl, rfl, rfl, rfl, rfl, rfl, rfl, rfl, rfl, rfl, rfl⟩

theorem exec_spiWrite_command {off v : Nat} {f : Instr} (hmem : (off, v, f) ∈ spiCommands) (hserves : s.spiServes off = true)
    (hwrite : exec (.registerWrite off (BitVec.ofNat 32 v) .spi) s = .next t) :
    ∃ u, exec f t = .next u ∧ exec (.spiWrite off [BitVec.ofNat 32 v]) s = .next u := by
  obtain ⟨halign, hoff, hv⟩ := spiCommands_bounds _ hmem
  have hreach : s.writeReaches off .spi = true := by
    rw [State.writeReaches_spi hoff, hserves, show off % 4 = 0 from halign]
    rfl
  have hval : (BitVec.ofNat 32 v).toNat = v := (BitVec.toNat_ofNat _ _).trans (Nat.mod_eq_of_lt hv)
  rw [exec_registerWrite_reaches hreach, hval] at hwrite
  obtain rfl := Host.Outcome.next.inj hwrite
  refine ⟨_, spiOwn_of_spiCommands _ _ hmem, ?_⟩
  rw [exec_spiWrite_one, Nat.mod_eq_of_lt hoff, State.spiWord_of_reaches hreach, hval]

/-! ## STATUS -/

/-- The bits of the STATUS byte (R437): CMD_FULL, RSP_READY, GESSO, FAULT, CRC_ERR and the state of PD01. -/
theorem State.spiStatusByte_bits (s : State) : bitAt s.spiStatusByte 1 = !s.hi.spiResp.isEmpty ∧
    bitAt s.spiStatusByte 0 = s.spiQueueFull ∧
    (s.reg R.pwHbFault < 2 → bitAt s.spiStatusByte 2 = s.inGesso ∧ bitAt s.spiStatusByte 3 = s.flag R.pwHbFault ∧
      bitAt s.spiStatusByte 4 = s.hi.spiCrc ∧ bitAt s.spiStatusByte 5 = s.domOn 1) := by
  have hfull := ofFlag_le_one s.spiQueueFull
  have hready := ofFlag_le_one (!s.hi.spiResp.isEmpty)
  have hgesso := ofFlag_le_one s.inGesso
  have hcrc := ofFlag_le_one s.hi.spiCrc
  have hon := ofFlag_le_one (s.domOn 1)
  refine ⟨bitAt_eq_flag ?_, bitAt_eq_flag ?_, fun hfault => ?_⟩
  · unfold State.spiStatusByte; omega
  · unfold State.spiStatusByte; omega
  · have hflag : ofFlag (s.flag R.pwHbFault) = s.reg R.pwHbFault := by
      unfold State.flag ofFlag
      interval_cases s.reg R.pwHbFault <;> rfl
    refine ⟨bitAt_eq_flag ?_, bitAt_eq_flag ?_, bitAt_eq_flag ?_, bitAt_eq_flag ?_⟩
    · unfold State.spiStatusByte; omega
    · unfold State.spiStatusByte; omega
    · unfold State.spiStatusByte; omega
    · unfold State.spiStatusByte; omega

/-! ## Frames that PD01 serves -/

theorem State.spiFull_of_on (halive : s.alive = true) (hon : s.domOn 1 = true) : s.spiFull = true := by
  rw [State.spiFull, halive, hon]
  rfl

theorem State.spiFull_of_off (h : s.alive = false ∨ s.domOn 1 = false) : s.spiFull = false := by
  rcases h with h | h <;> simp [State.spiFull, h]

theorem exec_spi_of_not_full (hfull : s.spiFull = false) (a n : Nat) (d e : List Byte) (crc : BitVec 16) :
    exec (.spiMread a n) s = .next s ∧ exec (.spiMwrite a d) s = .next s ∧ exec (.spiCmd e crc) s = .next s ∧
    exec (.spiResp n) s = .next s := by
  refine ⟨?_, ?_, ?_, ?_⟩
  · change execSpiMread a n s = _
    rw [execSpiMread, hfull]
    rfl
  · change execSpiMwrite a d s = _
    rw [execSpiMwrite, hfull]
    rfl
  · change execSpiCmd e crc s = _
    rw [execSpiCmd, hfull]
    rfl
  · change execSpiResp n s = _
    rw [execSpiResp, hfull]
    rfl

theorem State.spiMem_iff {a n : Nat} : s.spiMem a n = true ↔ s.domOn 6 = true ∧ s.extOk a n = true ∧ a + n ≤ 2 ^ 32 := by
  simp only [State.spiMem, Bool.and_eq_true, decide_eq_true_eq, and_assoc]

theorem State.spiMem_of_absent {a n : Nat} (h : s.domOn 6 = false ∨ s.extOk a n = false ∨ 2 ^ 32 < a + n) : s.spiMem a n = false := by
  rw [Bool.eq_false_iff, Ne, State.spiMem_iff]
  rintro ⟨hon, hext, hle⟩
  rcases h with h | h | h
  · rw [h] at hon; exact Bool.false_ne_true hon
  · rw [h] at hext; exact Bool.false_ne_true hext
  · omega

/-! ## Commands admitted (R428, R429) -/

/-- CRC_ERR shows whether the last CMD frame failed. -/
def State.showCrc (s : State) (bad : Bool) : State := s.modHi fun h => { h with spiCrc := bad }

/-- A fresh command of the SPI stream is queued: it is counted, its sequence is noted in the window and in HI_SEQ_SPI, and its item
is live. -/
def State.spiQueued (s : State) (c : Fetched) : State :=
  let w := s.hi.win9.accept (seqOf c.item)
  let s := (s.bump R.hiCntCount 0).modHi fun h => { h with fetched := h.fetched ++ [c], win9 := w }
  ((s.setReg R.hiSeqSpiHigh (w.high.getD 0)).setReg R.hiSeqSpiValid 1).create c.item

theorem State.admitCommand_fresh {e : List Byte} {c : Fetched}
    (hc : c = { stream := 9, item := BitVec.ofNat 32 (fieldAt e 0 4), op := fieldAt e 4 1, args := e })
    (hstream : streamOf c.item = 9) (hfresh : s.hi.win9.classify (seqOf c.item) = .fresh) : s.admitCommand 9 e = s.spiQueued c := by
  subst hc
  unfold State.admitCommand
  extract_lets c u w
  have hne : ¬ streamOf c.item ≠ 9 := not_not.mpr hstream
  have hw : w.classify (seqOf c.item) = .fresh := hfresh
  rw [if_neg hne, hw]
  rfl

theorem State.spiQueued_spec (s : State) (c : Fetched) :
    (s.spiQueued c).hi = { s.hi with fetched := s.hi.fetched ++ [c], win9 := s.hi.win9.accept (seqOf c.item) } ∧
    (s.spiQueued c).reg R.hiSeqSpiHigh = (s.hi.win9.accept (seqOf c.item)).high.getD 0 % 2 ^ 24 ∧
    (s.spiQueued c).reg R.hiSeqSpiValid = 1 ∧ (s.spiQueued c).lg = { s.lg with items := alPut s.lg.items c.item s.devtime } ∧
    s.spiQueued c = { s with regs := (s.spiQueued c).regs, hi := (s.spiQueued c).hi, lg := (s.spiQueued c).lg } ∧
    s.regsBut (s.spiQueued c) [R.hiSeqSpiHigh.key 0 0, R.hiSeqSpiValid.key 0 0, R.hiCntCount.key 0 0] := by
  have hregs (r : Row) (i j : Nat) : (s.spiQueued c).reg r i j = (((s.bump R.hiCntCount 0).setReg R.hiSeqSpiHigh
      ((s.hi.win9.accept (seqOf c.item)).high.getD 0)).setReg R.hiSeqSpiValid 1).reg r i j := rfl
  refine ⟨rfl, ?_, (hregs _ _ _).trans (State.reg_setReg_self _ _ _ _ _), rfl, rfl, fun r i j hk => ?_⟩
  · rw [hregs, State.reg_setReg_ne _ _ _ _ _ _ _ _ (by decide), State.reg_setReg_self]
    rfl
  · simp only [List.mem_cons, List.not_mem_nil, or_false, not_or] at hk
    obtain ⟨hhigh, hvalid, hcount⟩ := hk
    rw [hregs, State.reg_setReg_ne _ _ _ _ _ _ _ _ (Ne.symm hvalid), State.reg_setReg_ne _ _ _ _ _ _ _ _ (Ne.symm hhigh)]
    exact State.reg_setReg_ne _ _ _ _ _ _ _ _ (Ne.symm hcount)

section
variable (hfull : s.spiFull = true)
include hfull

/-! ## MREAD and MWRITE -/

theorem exec_spiMread_answered {a n : Nat} (h : s.spiMem a n = true) : exec (.spiMread a n) s = .next (s.spiSend (s.ext.readBytes a n)) := by
  change execSpiMread a n s = _
  rw [execSpiMread, hfull, h]
  rfl

theorem exec_spiMread_absent {a n : Nat} (h : s.spiMem a n = false) : exec (.spiMread a n) s =
    .next (s.spiSend ((List.range n).map fun i => Config.freeByte s.freeCtr (a + i))).tick := by
  change execSpiMread a n s = _
  rw [execSpiMread, hfull, h]
  rfl

/-- A write below the end of staging that the boot interface refuses, one that is no multiple of 4 bytes, or one that no memory
answers, writes nothing (R91, R92). -/
theorem exec_spiMwrite_refused {a : Nat} {d : List Byte} (h : d.length % 4 ≠ 0 ∨ s.spiMem a d.length = false ∨
    (a < 0x4000000 ∧ (s.bootIface .spi = false ∨ s.keeper.mode = .booting))) : exec (.spiMwrite a d) s = .next s := by
  change execSpiMwrite a d s = _
  rw [execSpiMwrite, hfull]
  rcases h with h | h | ⟨hlow, h⟩
  · simp [h]
  · simp [h]
  · rcases h with h | h <;> simp [h, hlow]

theorem exec_spiMwrite_taken {a : Nat} {d : List Byte} (hlen : d.length % 4 = 0) (hmem : s.spiMem a d.length = true)
    (hstage : 0x4000000 ≤ a ∨ (s.bootIface .spi = true ∧ s.keeper.mode ≠ .booting)) :
    exec (.spiMwrite a d) s = .next { s with ext := s.ext.writeBytes a d } := by
  have hopen : (decide (a < 0x4000000) && (!(s.bootIface .spi) || s.keeper.mode == .booting)) = false := by
    rcases hstage with h | ⟨hiface, hmode⟩
    · simp [show ¬ a < 0x4000000 by omega]
    · simp [hiface, hmode]
  change execSpiMwrite a d s = _
  rw [execSpiMwrite, hfull, hlen, hmem, hopen]
  rfl

/-! ## CMD -/

theorem exec_spiCmd_bad {e : List Byte} {crc : BitVec 16} (h : e.length ≠ 64 ∨ crc16 e ≠ crc.toNat) :
    exec (.spiCmd e crc) s = .next ((s.showCrc true).bump R.hiCntCount 7) := by
  change execSpiCmd e crc s = _
  rw [execSpiCmd, hfull, if_pos h]
  rfl

theorem exec_spiCmd_good {e : List Byte} {crc : BitVec 16} (hlen : e.length = 64) (hcrc : crc16 e = crc.toNat) :
    exec (.spiCmd e crc) s = .next (if s.spiQueueFull || s.flag R.lgStatusQuiescing then s.showCrc false
      else (s.showCrc false).admitCommand 9 e) := by
  have hgood : ¬ (e.length ≠ 64 ∨ crc16 e ≠ crc.toNat) := by simp [hlen, hcrc]
  change execSpiCmd e crc s = _
  rw [execSpiCmd, hfull, if_neg hgood]
  rfl

theorem exec_spiCmd_shut {e : List Byte} {crc : BitVec 16} (hlen : e.length = 64) (hcrc : crc16 e = crc.toNat)
    (h : s.spiQueueFull = true ∨ s.flag R.lgStatusQuiescing = true) : exec (.spiCmd e crc) s = .next (s.showCrc false) := by
  rw [exec_spiCmd_good hfull hlen hcrc, if_pos (by simpa using h)]

theorem exec_spiCmd_fresh {e : List Byte} {crc : BitVec 16} {c : Fetched} (hlen : e.length = 64) (hcrc : crc16 e = crc.toNat)
    (hroom : s.spiQueueFull = false) (hcalm : s.flag R.lgStatusQuiescing = false)
    (hc : c = { stream := 9, item := BitVec.ofNat 32 (fieldAt e 0 4), op := fieldAt e 4 1, args := e })
    (hstream : streamOf c.item = 9) (hfresh : s.hi.win9.classify (seqOf c.item) = .fresh) :
    exec (.spiCmd e crc) s = .next ((s.showCrc false).spiQueued c) := by
  have hopen : ¬ (s.spiQueueFull || s.flag R.lgStatusQuiescing) = true := by simp [hroom, hcalm]
  rw [exec_spiCmd_good hfull hlen hcrc, if_neg hopen, State.admitCommand_fresh (s := s.showCrc false) hc hstream hfresh]

/-! ## RESP (R431) -/

theorem exec_spiResp_none {n : Nat} (h : s.hi.spiResp = []) : exec (.spiResp n) s =
    .next (s.spiSend ((List.range (min n 18)).map fun i => Config.freeByte s.freeCtr i)).tick := by
  change execSpiResp n s = _
  rw [execSpiResp, hfull, h]
  rfl

theorem exec_spiResp_some {n : Nat} {r : List Byte} {l : List (List Byte)} (h : s.hi.spiResp = r :: l) (hwait : s.hi.spiWait = []) :
    exec (.spiResp n) s = .next (let u := s.spiSend ((r ++ [BitVec.ofNat 8 (crc16 r / 256), BitVec.ofNat 8 (crc16 r)]).take n)
      if 18 ≤ n then u.modHi fun x => { x with spiResp := l } else u) := by
  have hflush (u : State) (hu : u.hi.spiWait = []) : u.flushSpi u.hi.spiWait.length = u := by
    rw [hu]
    rfl
  change execSpiResp n s = _
  rw [execSpiResp, hfull, h]
  by_cases hn : 18 ≤ n
  · simp only [hn, if_true, Bool.not_true, Bool.false_eq_true, if_false]
    rw [hflush]
    exact hwait
  · simp [hn]

end

/-- Settles O56: a word of the target is served by its offset, written fields with a command of their own run it, and the frames of
PD01 follow the memory, the queue and the responses. -/
theorem spiTarget : Obligations.SpiTarget := by
  unfold Obligations.SpiTarget
  refine ⟨fun s halive => ?_, fun s off n w hdead => ?_, fun s a n d e crc h => exec_spi_of_not_full (State.spiFull_of_off h) a n d e crc,
    fun off n s halive hend hplain => ⟨_, exec_spiRead_plain halive hend hplain, rfl⟩, fun s halive _ => ?_, fun _ _ => rfl,
    fun off w ws s => ⟨_, exec_spiWrite_one s off w, exec_spiWrite_cons s off w ws⟩, fun off w s hoff h => exec_spiWrite_misses hoff h,
    fun off v f s t hmem hserves hwrite => exec_spiWrite_command hmem hserves hwrite, fun off w s hoff => ?_,
    fun a n s halive hon => ?_, fun a d s halive hon => ?_, fun e crc s halive hon => ?_, fun n c r l s halive hon hresp hwait hc => ?_,
    fun n s halive hon hresp => ?_⟩
  · refine ⟨_, s.spiStatusByte, ?_, rfl, s.spiStatusByte_bits⟩
    change execSpiStatus s = _
    rw [execSpiStatus, if_pos halive]
    rfl
  · refine ⟨?_, ?_, exec_spiWrite_dead off w hdead⟩
    · change execSpiStatus s = _
      rw [execSpiStatus, hdead]
      rfl
    · change execSpiRead off n s = _
      rw [execSpiRead, hdead]
      rfl
  · exact ⟨_, exec_spiRead_devtime halive, rfl, rfl, (State.onlyRegs_setReg (List.mem_singleton_self _)).2⟩
  · rcases hoff with rfl | rfl | rfl
    · exact exec_spiWrite_plain (by decide) fun _ => rfl
    · exact exec_spiWrite_plain (by decide) fun _ => rfl
    · exact exec_spiWrite_plain (by decide) fun _ => rfl
  · have hfull := State.spiFull_of_on halive hon
    refine ⟨fun h6 hext hle => exec_spiMread_answered hfull (State.spiMem_iff.mpr ⟨h6, hext, hle⟩), fun h => ?_⟩
    exact ⟨_, exec_spiMread_absent hfull (State.spiMem_of_absent h), by simp [State.spiSend, State.tick], rfl⟩
  · have hfull := State.spiFull_of_on halive hon
    refine ⟨fun h => exec_spiMwrite_refused hfull ?_, fun hlen h6 hext hle hstage =>
      exec_spiMwrite_taken hfull hlen (State.spiMem_iff.mpr ⟨h6, hext, hle⟩) hstage⟩
    rcases h with h | h | h | h | h
    · exact .inl h
    · exact .inr (.inl (State.spiMem_of_absent (.inl h)))
    · exact .inr (.inl (State.spiMem_of_absent (.inr (.inl h))))
    · exact .inr (.inl (State.spiMem_of_absent (.inr (.inr h))))
    · exact .inr (.inr h)
  · have hfull := State.spiFull_of_on halive hon
    refine ⟨fun h => ?_, fun hlen hcrc h => ?_, fun c hlen hcrc hroom hcalm hc hstream hfresh => ?_⟩
    · exact ⟨_, exec_spiCmd_bad hfull h, State.reg_setReg_self _ _ _ _ _, rfl, (State.onlyRegs_setReg (List.mem_singleton_self _)).2⟩
    · exact exec_spiCmd_shut hfull hlen hcrc h
    · exact ⟨_, exec_spiCmd_fresh hfull hlen hcrc hroom hcalm hc hstream hfresh, (s.showCrc false).spiQueued_spec c⟩
  · have hfull := State.spiFull_of_on halive hon
    rw [exec_spiResp_some hfull hresp hwait, ← hc]
    refine ⟨fun hn => ?_, fun hn => ?_⟩
    · rw [if_neg (by omega)]
      rfl
    · rw [if_pos hn]
      rfl
  · have hfull := State.spiFull_of_on halive hon
    exact ⟨_, exec_spiResp_none hfull hresp, by simp [State.spiSend, State.tick], rfl⟩

end Sys2Proof.Machine
end

section
/-! What staging and the HANG need of the shared operations: the records, the faults, the quads that are switched off, the neurons, the
queues, the responses and the span links leave the loader's state, external memory, DEVTIME and four bits of CV_STATUS alone
(R131 to R147). -/
namespace Sys2Proof.Machine

/-- The bit addresses of HANG_PEND, DRAINING, LOAD_BUSY and ACTIVE in CV_STATUS (R148). -/
def hangKeys : List Nat :=
  [R.cvStatusHangPend.key 0 0, R.cvStatusDraining.key 0 0, R.cvStatusLoadBusy.key 0 0, R.cvStatusActive.key 0 0]

/-- The loader's state, external memory, DEVTIME and those four bits are in t as in s. -/
structure State.hangKept (s t : State) : Prop where
  cv : t.cv = s.cv
  ext : t.ext = s.ext
  devtime : t.devtime = s.devtime
  bits : ∀ (r : Row) (i j : Nat), r.key i j ∈ hangKeys → t.reg r i j = s.reg r i j

/-- A row whose elements lie above CV_STATUS, one of a single element below it, or one whose elements lie in whole words at another
lowest bit than those four. -/
abbrev Row.offHang (r : Row) : Prop :=
  0x800004 ≤ r.off ∨ (r.off < 0x7FFFFC ∧ r.s1 = 0 ∧ r.s2 = 0 ∧ r.lo < 32) ∨
    (r.off % 4 = 0 ∧ r.s1 % 4 = 0 ∧ r.s2 % 4 = 0 ∧ r.lo < 32 ∧ r.lo ∉ [2, 3, 4, 6])

theorem Row.offHang.key_not_mem {r : Row} (h : r.offHang) (i j : Nat) : r.key i j ∉ hangKeys := by
  have hkeys : hangKeys = [32 * 0x200000 + 2, 32 * 0x200000 + 3, 32 * 0x200000 + 4, 32 * 0x200000 + 6] := rfl
  rw [hkeys]
  rcases h with h | ⟨hoff, hs1, hs2, hlt⟩ | ⟨hoff, hs1, hs2, hlt, hlo⟩
  · simp only [Row.key, List.mem_cons, List.not_mem_nil, or_false]
    omega
  · simp only [Row.key, hs1, hs2, List.mem_cons, List.not_mem_nil, or_false]
    omega
  · obtain ⟨a, ha⟩ := Nat.dvd_of_mod_eq_zero hoff
    obtain ⟨b, hb⟩ := Nat.dvd_of_mod_eq_zero hs1
    obtain ⟨c, hc⟩ := Nat.dvd_of_mod_eq_zero hs2
    simp only [Row.key, ha, hb, hc, Nat.mul_assoc, List.mem_cons, List.not_mem_nil, or_false] at hlo ⊢
    omega

section
variable {s t u : State}

theorem State.hangKept_refl (s : State) : s.hangKept s := ⟨rfl, rfl, rfl, fun _ _ _ _ => rfl⟩

theorem State.hangKept.same (h : s.hangKept t) (hcv : u.cv = t.cv) (hext : u.ext = t.ext) (hdev : u.devtime = t.devtime)
    (hregs : u.regs = t.regs) : s.hangKept u where
  cv := hcv.trans h.cv
  ext := hext.trans h.ext
  devtime := hdev.trans h.devtime
  bits r i j hk := (show u.reg r i j = t.reg r i j by unfold State.reg; rw [hregs]).trans (h.bits r i j hk)

theorem State.hangKept.ite {a b : State} {p : Prop} [Decidable p] (ha : s.hangKept a) (hb : s.hangKept b) :
    s.hangKept (if p then a else b) := by
  split
  · exact ha
  · exact hb

/-! ## Fields, timers and parts -/

theorem State.hangKept.setReg (h : s.hangKept t) {r : Row} {v i j : Nat} (hr : r.offHang) :
    s.hangKept (t.setReg r v i j) where
  cv := h.cv
  ext := h.ext
  devtime := h.devtime
  bits r' i' j' hk := (State.reg_setReg_ne _ _ _ _ _ _ _ _ fun he => hr.key_not_mem i j (by rw [he]; exact hk)).trans (h.bits r' i' j' hk)

theorem State.hangKept.bump (h : s.hangKept t) {r : Row} {i j n : Nat} (hr : r.offHang) : s.hangKept (t.bump r i j n) :=
  h.setReg hr

/-- A write of several elements. -/
theorem State.hangKept.setReg_all {α : Type} {f : State → α → Row} {v i j : State → α → Nat} (h : s.hangKept t) (l : List α)
    (hr : ∀ x, ∀ a ∈ l, (f x a).offHang) : s.hangKept (l.foldl (fun (x : State) a => x.setReg (f x a) (v x a) (i x a) (j x a)) t) :=
  List.foldlRecOn l _ h fun x hx a ha => hx.setReg (hr x a ha)

theorem State.hangKept.modKeeper (h : s.hangKept t) {f} : s.hangKept (t.modKeeper f) := h.same rfl rfl rfl rfl
theorem State.hangKept.modPal (h : s.hangKept t) {f} : s.hangKept (t.modPal f) := h.same rfl rfl rfl rfl
theorem State.hangKept.modQueue (h : s.hangKept t) {q f} : s.hangKept (t.modQueue q f) := h.same rfl rfl rfl rfl
theorem State.hangKept.modEi (h : s.hangKept t) {f} : s.hangKept (t.modEi f) := h.same rfl rfl rfl rfl
theorem State.hangKept.modPp (h : s.hangKept t) {f} : s.hangKept (t.modPp f) := h.same rfl rfl rfl rfl
theorem State.hangKept.modXr (h : s.hangKept t) {f} : s.hangKept (t.modXr f) := h.same rfl rfl rfl rfl
theorem State.hangKept.modFu (h : s.hangKept t) {f} : s.hangKept (t.modFu f) := h.same rfl rfl rfl rfl
theorem State.hangKept.modSf (h : s.hangKept t) {f} : s.hangKept (t.modSf f) := h.same rfl rfl rfl rfl
theorem State.hangKept.modPop (h : s.hangKept t) {p f} : s.hangKept (t.modPop p f) := h.same rfl rfl rfl rfl
theorem State.hangKept.modRd (h : s.hangKept t) {f} : s.hangKept (t.modRd f) := h.same rfl rfl rfl rfl
theorem State.hangKept.modSl (h : s.hangKept t) {f} : s.hangKept (t.modSl f) := h.same rfl rfl rfl rfl
theorem State.hangKept.modSpan (h : s.hangKept t) {n f} : s.hangKept (t.modSpan n f) := h.same rfl rfl rfl rfl
theorem State.hangKept.modHi (h : s.hangKept t) {f} : s.hangKept (t.modHi f) := h.same rfl rfl rfl rfl
theorem State.hangKept.modLg (h : s.hangKept t) {f} : s.hangKept (t.modLg f) := h.same rfl rfl rfl rfl
theorem State.hangKept.modTmem (h : s.hangKept t) {f} : s.hangKept (t.modTmem f) := h.same rfl rfl rfl rfl
theorem State.hangKept.modScratch (h : s.hangKept t) {f} : s.hangKept (t.modScratch f) := h.same rfl rfl rfl rfl
theorem State.hangKept.modTm (h : s.hangKept t) {f} : s.hangKept (t.modTm f) := h.same rfl rfl rfl rfl
theorem State.hangKept.modMesh (h : s.hangKept t) {f} : s.hangKept (t.modMesh f) := h.same rfl rfl rfl rfl
theorem State.hangKept.modTimers (h : s.hangKept t) {f} : s.hangKept (t.modTimers f) := h.same rfl rfl rfl rfl
theorem State.hangKept.tick (h : s.hangKept t) : s.hangKept t.tick := h.same rfl rfl rfl rfl
theorem State.hangKept.xoffPins (h : s.hangKept t) : s.hangKept t.xoffPins := h.same rfl rfl rfl rfl
theorem State.hangKept.arm (h : s.hangKept t) {x : Timer} {n : Nat} : s.hangKept (t.arm x n) := h.modTimers
theorem State.hangKept.armAt (h : s.hangKept t) {x : Timer} {n : Nat} : s.hangKept (t.armAt x n) := h.modTimers
theorem State.hangKept.disarm (h : s.hangKept t) {x : Timer} : s.hangKept (t.disarm x) := h.modTimers

theorem State.hangKept.vector (h : s.hangKept t) {v : Nat} : s.hangKept (t.vector v) := by
  have hbit : s.hangKept (t.setRegBit R.hiIrqStatusVec v true) := h.setReg (by decide)
  exact State.hangKept.ite hbit.modHi hbit

theorem State.hangKept.setFaultN (h : s.hangKept t) {b : Bool} : s.hangKept (t.setFaultN b) := by
  have hpin : s.hangKept (t.modPins fun p => { p with faultN := if b then .low else .z }) := h.same rfl rfl rfl rfl
  exact hpin.setReg (by decide)

/-! ## The palette (R232 to R241) -/

theorem State.hangKept.refreshXoff (h : s.hangKept t) : s.hangKept t.refreshXoff := by
  have hreg (v : Nat) : s.hangKept (t.setReg R.eiXoffState v) := h.setReg (by decide)
  exact (hreg _).xoffPins

theorem State.hangKept.poolLow (h : s.hangKept t) : s.hangKept t.poolLow := State.hangKept.ite (h.setReg (by decide)) h

theorem State.hangKept.watermark (h : s.hangKept t) {q : Nat} : s.hangKept (t.watermark q) := h.modQueue.refreshXoff

theorem State.hangKept.markerVector (h : s.hangKept t) {q : Nat} : s.hangKept (t.markerVector q) := State.hangKept.ite h.vector h

theorem State.hangKept.dropPush (h : s.hangKept t) {q : Nat} : s.hangKept (t.dropPush q) := by
  have hcount : s.hangKept (t.bump R.qmQDropsCount q) := h.bump (by decide)
  have hgap : s.hangKept ((t.bump R.qmQDropsCount q).bumpSat R.qmQGapCount q) := hcount.setReg (by decide)
  exact State.hangKept.ite hcount.modQueue.markerVector (State.hangKept.ite hcount.modQueue hgap.modQueue)

theorem State.hangKept.gatherTimer (h : s.hangKept t) : s.hangKept t.gatherTimer := by
  unfold State.gatherTimer
  split
  · exact h.armAt
  · exact h.disarm

theorem State.hangKept.gatherStarts (h : s.hangKept t) {q : Nat} {item : ItemId} : s.hangKept (t.gatherStarts q item) :=
  State.hangKept.ite h.modFu.gatherTimer h

theorem State.hangKept.landCell (h : s.hangKept t) {q : Nat} {data : Cell64} {item : ItemId} {eop epm : Bool} :
    s.hangKept (t.landCell q data item eop epm) := h.modQueue.tick.poolLow.watermark.gatherStarts

theorem State.hangKept.releaseRetired (h : s.hangKept t) {q : Nat} : s.hangKept (t.releaseRetired q) :=
  State.hangKept.ite (State.hangKept.refreshXoff (h.modPal.setReg_all (f := fun _ r => r) _ fun _ => by decide)) h

theorem State.hangKept.relinkMarker (h : s.hangKept t) {q : Nat} : s.hangKept (t.relinkMarker q) := by
  have hgap : s.hangKept (t.setReg R.qmQGapCount 0 q) := h.setReg (by decide)
  exact State.hangKept.ite h hgap.modQueue.markerVector

theorem State.hangKept.renameItem (h : s.hangKept t) {a b : ItemId} : s.hangKept (t.renameItem a b) := State.hangKept.ite h h.modPal

theorem State.hangKept.deliverHead (h : s.hangKept t) {q ep : Nat} {take : Bool} : s.hangKept (t.deliverHead q ep take) := by
  unfold State.deliverHead
  split
  · exact h
  · extract_lets tag u dl v held w
    have hv : s.hangKept v := h.modQueue.renameItem.modPal
    have hw : s.hangKept w := hv.relinkMarker.ite ((hv.modPal.bump (by decide)).ite hv)
    exact hw.watermark.releaseRetired

theorem State.hangKept.toDropper (h : s.hangKept t) {q : Nat} : s.hangKept (t.toDropper q) := by
  refine h.ite ?_
  dsimp only
  split
  · exact h.deliverHead.modPal
  · exact h.deliverHead

theorem State.hangKept.push (h : s.hangKept t) {ep q : Nat} {data : Cell64} {item : ItemId} {eop epm : Bool} :
    s.hangKept (t.push ep q data item eop epm) := by
  unfold State.push
  extract_lets note
  have hnote : s.hangKept (note t) := h.modQueue
  clear_value note
  split
  · exact h.setReg (by decide)
  · exact hnote.dropPush.toDropper.ite hnote.dropPush
  · refine ((hnote.bump (by decide)).ite hnote.landCell.toDropper).ite ?_
    split
    · exact hnote.modQueue.tick.deliverHead.ite (hnote.landCell.ite hnote.landCell.deliverHead)
    · exact hnote.landCell

theorem State.hangKept.createQueue (h : s.hangKept t) {r : QueueRec} {marker : Nat} : s.hangKept (t.createQueue r marker) := by
  have hrows : ∀ x ∈ [(R.qmQCfgQuota, r.quota), (R.qmQCfgClass, r.cls), (R.qmQCfgXoff, r.xoff), (R.qmQCfgPresent, 1),
      (R.qmQCfgRetired, 0), (R.qmQHighHigh, r.high), (R.qmQLowLow, r.low), (R.qmQEpProd, r.prod),
      (R.qmQEpCons, r.cons), (R.qmQGapCount, 0)], x.1.offHang := by
    simp only [List.forall_mem_cons, List.not_mem_nil, false_implies, implies_true, and_true]
    and_intros <;> decide
  exact State.hangKept.poolLow (h.modPal.modPal.setReg_all (f := fun _ (x : Row × Nat) => x.1) _ fun _ => hrows)

theorem State.hangKept.retireQueue (h : s.hangKept t) {q : Nat} : s.hangKept (t.retireQueue q) := by
  have hmarks : s.hangKept ((t.setReg R.qmQCfgPresent 0 q).setReg R.qmQCfgRetired 1 q) :=
    (h.setReg (by decide)).setReg (by decide)
  exact hmarks.releaseRetired

theorem State.hangKept.updateQueue (h : s.hangKept t) {r : QueueRec} : s.hangKept (t.updateQueue r) := by
  have hrows : ∀ x ∈ [(R.qmQCfgQuota, r.quota), (R.qmQCfgClass, r.cls), (R.qmQCfgXoff, r.xoff), (R.qmQCfgPresent, 1),
      (R.qmQHighHigh, r.high), (R.qmQLowLow, r.low)], x.1.offHang := by
    simp only [List.forall_mem_cons, List.not_mem_nil, false_implies, implies_true, and_true]
    and_intros <;> decide
  exact h.setReg_all (f := fun _ (x : Row × Nat) => x.1) _ fun _ => hrows

/-- The queues of a HANG (R140). -/
theorem State.hangKept.hangQueues (h : s.hangKept t) {e : Easel} : s.hangKept (t.hangQueues e) := by
  unfold State.hangQueues
  extract_lets ids old u
  have hu : s.hangKept u := foldlKeeps (P := s.hangKept) (fun _ _ hx => hx.retireQueue) old h
  have hnew := foldlKeeps (P := s.hangKept) (f := fun (s : State) q =>
    if s.flag R.qmQCfgPresent q.qid then s.updateQueue q else s.createQueue q ((alGet e.markers q.qid).getD 0))
    (fun _ _ hx => hx.updateQueue.ite hx.createQueue) e.canvas.queues hu
  exact hnew.refreshXoff

/-! ## Records and items (R457 to R464) -/

theorem State.hangKept.copyHistory (h : s.hangKept t) {c0 c1 : Nat} : s.hangKept (t.copyHistory c0 c1) := by
  have hword {u : State} (hu : s.hangKept u) (v n j : Nat) : s.hangKept (u.setReg R.lgHistWord v n j) := hu.setReg (by decide)
  unfold State.copyHistory
  extract_lets n w u
  have hu : s.hangKept u := hword (hword (hword (hword h _ _ _) _ _ _) _ _ _) _ _ _
  exact (hu.setReg (by decide)).bump (by decide)

theorem State.hangKept.countRecord (h : s.hangKept t) {reason : Nat} {c0 c1 : Cell64} : s.hangKept (t.countRecord reason c0 c1) := by
  unfold State.countRecord
  extract_lets u v
  have hu : s.hangKept u := (h.bump (by decide)).copyHistory
  have hv : s.hangKept v := (hu.bump (by decide)).ite hu
  exact (hv.bump (by decide)).ite hv

theorem State.hangKept.pushCells (h : s.hangKept t) {c0 c1 : Cell64} : s.hangKept (t.pushCells c0 c1) :=
  State.hangKept.ite (h.push.push.ite (h.push.push.bump (by decide))) (h.push.bump (by decide))

theorem State.hangKept.showRecord (h : s.hangKept t) {n : Nat} {c0 c1 : Cell64} : s.hangKept (t.showRecord n c0 c1) := by
  unfold State.showRecord
  extract_lets u
  have hu : s.hangKept u := h.modHi.ite h
  exact hu.vector.ite hu

theorem State.hangKept.inform (h : s.hangKept t) {item : ItemId} {a b c : Nat} : s.hangKept (t.inform item a b c) := by
  rw [State.inform, State.pushRecord_eq]
  exact h.countRecord.pushCells.showRecord

theorem State.hangKept.complete (h : s.hangKept t) {item : ItemId} {block : Nat} : s.hangKept (t.complete item block) := by
  have hended : s.hangKept (t.markEnded item) := h.modLg
  exact (h.bump (by decide)).ite (hended.inform.ite hended)

theorem State.hangKept.report (h : s.hangKept t) {item : ItemId} {a b c : Nat} : s.hangKept (t.report item a b c) := by
  unfold State.report
  split
  · have hcount : s.hangKept (t.bump R.lgCntCount 3) := h.bump (by decide)
    exact hcount.modLg.ite hcount
  · have hended : s.hangKept (t.markEnded item) := h.modLg
    exact (h.bump (by decide)).ite hended.modLg.arm

theorem State.hangKept.reportAll (h : s.hangKept t) {l : List ItemId} {a b c : Nat} : s.hangKept (t.reportAll l a b c) :=
  foldlKeeps (P := s.hangKept) (fun _ _ hx => hx.report) l h

/-! ## Sentences, the quiesce and the fault stack (R442, R466 to R472) -/

theorem State.hangKept.startSentence (h : s.hangKept t) : s.hangKept t.startSentence := by
  refine h.ite ?_
  split
  · exact h
  · exact h.modHi.arm

theorem State.hangKept.queueSentence (h : s.hangKept t) {kind : Nat} {body : List Byte} {cmd : Option Fetched} :
    s.hangKept (t.queueSentence kind body cmd).2 := by
  unfold State.queueSentence
  extract_lets e u
  split
  · exact h
  split
  · exact h.modHi.startSentence
  have hu : s.hangKept u := h.bump (by decide)
  split
  · exact mkSnd (P := s.hangKept) hu.modHi
  · exact hu

theorem State.hangKept.alarm (h : s.hangKept t) {k : String} {v : Nat} : s.hangKept (t.alarm k v) := by
  have hcount (n : Nat) : s.hangKept (t.setReg R.hiAlarmNn n) := h.setReg (by decide)
  exact (hcount _).queueSentence

theorem State.hangKept.quiesceReports (h : s.hangKept t) {a b : Nat} : s.hangKept (t.quiesceReports a b) :=
  foldlKeeps (P := s.hangKept) (fun _ _ hx => hx.report) _
    h.reportAll.reportAll.reportAll.reportAll.reportAll.reportAll.reportAll.reportAll.reportAll

theorem State.hangKept.stopWork (h : s.hangKept t) : s.hangKept t.stopWork := by
  unfold State.stopWork
  extract_lets a b c d e f g k l m n o p
  have ha : s.hangKept a := h.modPal.refreshXoff
  have hf : s.hangKept f := ha.modPal.modEi.modPp.modXr.modFu.disarm
  have hg : s.hangKept g := hf.setReg_all _ fun _ _ _ => by decide
  have hl : s.hangKept l := (hg.modRd.setReg (by decide)).setReg (by decide)
  have ho : s.hangKept o := hl.modSl.modHi.modMesh.setReg (by decide)
  have hp : s.hangKept p := ho.setReg (by decide)
  exact hp.setReg (by decide)

theorem State.hangKept.quiesce (h : s.hangKept t) {a b c : Nat} : s.hangKept (t.quiesce a b c) := by
  have hcause (n : Nat) : s.hangKept ((t.setReg R.lgStatusCause n).setReg R.lgStatusQuiescing 1) :=
    (h.setReg (by decide)).setReg (by decide)
  exact h.ite (hcause _).setFaultN.alarm.quiesceReports.stopWork.arm

theorem State.hangKept.storm (h : s.hangKept t) : s.hangKept t.storm := by
  have hcount : s.hangKept (t.bump R.lgCntCount 6) := h.bump (by decide)
  exact hcount.quiesce

theorem State.hangKept.takeFault (h : s.hangKept t) : s.hangKept t.takeFault := by
  unfold State.takeFault
  split
  · exact h
  · exact h.modLg
  · exact (h.modLg.bump (by decide)).ite h

theorem State.hangKept.raise (h : s.hangKept t) {off bit sev block : Nat} : s.hangKept (t.raise off bit sev block) := by
  unfold State.raise
  extract_lets u many v
  have hv : s.hangKept v := (h.modLg.bump (by decide)).ite h.modLg
  clear_value v
  split
  · exact hv.modLg.vector.storm.ite hv.modLg.vector
  · refine hv.storm.ite ?_
    split
    · exact hv.storm
    · exact hv.modLg.vector.takeFault

/-! ## Quads and tiles (R32, R70, R127, R143) -/

theorem State.hangKept.loseTile (h : s.hangKept t) {n : Nat} : s.hangKept (t.loseTile n) := h.modTmem.tick

theorem State.hangKept.dropParts (h : s.hangKept t) {c : Canvas} {n : Nat} : s.hangKept (t.dropParts c n) := h.modTmem.tick.ite h.loseTile

/-- A quad that is switched off loses its tiles' memory alone. -/
theorem State.domLost_quad (s : State) (q : Nat) : s.domLost (10 + q) = (s.quadTiles q).foldl State.loseTile s := by
  have hne : 10 + q ≠ 1 ∧ 10 + q ≠ 2 ∧ 10 + q ≠ 3 ∧ 10 + q ≠ 4 ∧ 10 + q ≠ 5 ∧ 10 + q ≠ 7 ∧ 10 + q ≠ 8 ∧
      10 + q ≠ 9 := by omega
  unfold State.domLost
  simp [hne]

theorem State.hangKept.quadOff (h : s.hangKept t) {q : Nat} : s.hangKept (t.domOff (10 + q)) := by
  unfold State.domOff
  extract_lets u
  have hshow : s.hangKept ((u.disarm (.domain (10 + q))).showDom (10 + q) false) := by
    have hu : s.hangKept (u.disarm (.domain (10 + q))) := h.modKeeper.disarm
    exact hu.setReg (by decide)
  rw [State.domLost_quad]
  exact foldlKeeps (P := s.hangKept) (fun _ _ hx => hx.loseTile) _ hshow

theorem State.hangKept.quadsOff (h : s.hangKept t) {l : List Nat} : s.hangKept (t.quadsOff l) :=
  foldlKeeps (P := s.hangKept) (fun _ _ hx => hx.quadOff.ite hx) l h

/-! ## Neurons and their steps (R262 to R264, R281) -/

theorem State.hangKept.putNeuron (h : s.hangKept t) {n a : Nat} {x : Neuron} : s.hangKept (t.putNeuron n a x) := h.same rfl rfl rfl rfl

theorem State.hangKept.spikeParity (h : s.hangKept t) {p n : Nat} : s.hangKept (t.spikeParity p n) :=
  (h.modSf.bump (by decide)).modPop.raise

theorem State.hangKept.countSpike (h : s.hangKept t) {p us i : Nat} : s.hangKept (t.countSpike p us i) := h.ite h.modPop

theorem State.hangKept.emitSpike (h : s.hangKept t) {p n us i : Nat} {pol : Bool} {above : Int} :
    s.hangKept (t.emitSpike p n us i pol above) := by
  unfold State.emitSpike
  extract_lets item u
  have hu : s.hangKept u := h.ite (h.bump (by decide)).countSpike
  exact hu.modMesh.tick.ite hu

theorem State.hangKept.testSpike (h : s.hangKept t) {p n us i : Nat} {pol : Bool} {x : Neuron} :
    s.hangKept (t.testSpike p n us i pol x).2 := by
  unfold State.testSpike
  dsimp only
  split
  · exact h.emitSpike
  · exact h

theorem State.hangKept.closeNeuron (h : s.hangKept t) {p n i addr til : Nat} {fail : Bool} :
    s.hangKept (t.closeNeuron p n i addr til fail) := by
  refine h.putNeuron.spikeParity.ite ?_
  extract_lets step x r y
  have hr : s.hangKept r.2 := by
    unfold r
    split
    · exact h.testSpike
    · exact h
  exact hr.putNeuron

theorem State.hangKept.endStretch (h : s.hangKept t) {p : Nat} : s.hangKept (t.endStretch p) := by
  unfold State.endStretch
  split
  · exact h
  · exact h.inform.modPop

theorem State.hangKept.stepClosed (h : s.hangKept t) {p k : Nat} : s.hangKept (t.stepClosed p k) := by
  unfold State.stepClosed
  extract_lets step above q u late v
  have hu : s.hangKept u := (h.setReg (by decide)).bump (by decide)
  have hv : s.hangKept v := hu.modPop
  exact (hv.bump (by decide)).modPop.ite hv.endStretch

theorem State.hangKept.closeStep (h : s.hangKept t) {p n : Nat} {hard : Bool} {fails : List Nat} :
    s.hangKept (t.closeStep p n hard fails) := by
  unfold State.closeStep
  extract_lets k til r u v
  have hr : s.hangKept r.2 := foldlSnd (P := s.hangKept) (fun _ _ hx => hx.closeNeuron) _ h
  have hu : s.hangKept u := hr.modSf
  have hv : s.hangKept v := hu.modPop.ite hu
  exact hv.stepClosed.ite hv

theorem State.hangKept.closeChangedSteps (h : s.hangKept t) {l : List (Nat × Nat)} : s.hangKept (t.closeChangedSteps l) :=
  foldlKeeps (P := s.hangKept) (fun _ _ hx => foldlKeeps (P := s.hangKept) (fun _ _ hy => hy.closeStep) _ hx) _ h

theorem State.hangKept.startPaced (h : s.hangKept t) {was : List (Nat × Nat)} : s.hangKept (t.startPaced was) :=
  foldlKeeps (P := s.hangKept) (fun _ _ hx => foldlKeeps (P := s.hangKept) (fun _ _ hy => hy.ite hy.modSf) _ hx.modPop) _ h

/-! ## Responses to the host (R430, R431) -/

theorem State.hangKept.writeResponse (h : s.hangKept t) {r : Response} : s.hangKept (t.writeResponse r) := by
  have hring {n base wp log2 : Nat} {e : List Byte} : s.hangKept (t.ringWrite n base wp log2 e) := by
    rw [State.ringWrite_frame]
    exact h.same rfl rfl rfl rfl
  have hcount {u : State} (hu : s.hangKept u) (v : Nat) : s.hangKept ((u.setReg R.hiRspWpIndex v).bump R.hiCntCount 1) :=
    (hu.setReg (by decide)).bump (by decide)
  exact ((hcount hring _).complete.ite (hcount hring _)).vector

theorem State.hangKept.flushResponses (h : s.hangKept t) {n : Nat} : s.hangKept (t.flushResponses n) := by
  induction n generalizing t with
  | zero => exact h
  | succ n ih =>
    unfold State.flushResponses
    split
    · exact h
    · exact State.hangKept.ite (ih h.modHi.writeResponse) h

theorem State.hangKept.flushSpi (h : s.hangKept t) {n : Nat} : s.hangKept (t.flushSpi n) := by
  induction n generalizing t with
  | zero => exact h
  | succ n ih =>
    unfold State.flushSpi
    split
    · exact h
    · have hcount {u : State} (hu : s.hangKept u) : s.hangKept (u.bump R.hiCntCount 1) := hu.bump (by decide)
      exact State.hangKept.ite (ih ((hcount h.modHi.tick).complete.ite (hcount h.modHi.tick))) h

theorem State.hangKept.respond (h : s.hangKept t) {c : Fetched} {status result : Nat} : s.hangKept (t.respond c status result) :=
  State.hangKept.ite h.modHi.flushSpi (h.modHi.flushResponses.ite (h.bump (by decide)))

theorem State.hangKept.answer (h : s.hangKept t) {c : Fetched} {status result : Nat} : s.hangKept (t.answer c status result) :=
  foldlKeeps (P := s.hangKept) (fun _ _ hx => hx.respond) _ h.modHi.modHi.respond

/-! ## Span links (R402, R415) -/

theorem State.hangKept.ackTimer (h : s.hangKept t) {n : Nat} : s.hangKept (t.ackTimer n) := by
  unfold State.ackTimer
  split
  · exact h.disarm
  · exact h.armAt

theorem State.hangKept.sendFrame (h : s.hangKept t) {n : Nat} {f : LongFrame} : s.hangKept (t.sendFrame n f) :=
  (h.modSpan.bump (by decide)).disarm.ackTimer

theorem State.hangKept.pumpSide (h : s.hangKept t) {n k : Nat} : s.hangKept (t.pumpSide n k) := by
  induction k generalizing t with
  | zero => exact h
  | succ k ih =>
    refine h.ite ?_
    dsimp only
    split
    · refine State.hangKept.ite (ih h.modSpan.sendFrame) ?_
      split
      · exact h
      · exact ih h.modSpan.sendFrame
    · exact ih h.modSpan.sendFrame
    · exact h

theorem State.hangKept.queueEntry (h : s.hangKept t) {dst : Nat} {e : Cell64} : s.hangKept (t.queueEntry dst e) := by
  unfold State.queueEntry
  split
  · exact h.modSpan
  · exact h

theorem State.hangKept.returnCredit (h : s.hangKept t) : s.hangKept t.returnCredit :=
  foldlKeeps (P := s.hangKept) (fun _ _ hx => foldlKeeps (P := s.hangKept) (fun _ _ hy => hy.queueEntry) _ hx.modSl) _ h

theorem State.hangKept.sendGrants (h : s.hangKept t) : s.hangKept t.sendGrants := by
  have hall (l : List Nat) : s.hangKept (l.foldl (fun (s : State) c => s.rxQueues.foldl (fun (s : State) q =>
      s.queueEntry c (grantEntry q.1 q.2)) s) t) :=
    foldlKeeps (P := s.hangKept) (fun _ _ hx => foldlKeeps (P := s.hangKept) (fun _ _ hy => hy.queueEntry) _ hx) l h
  exact h.ite (hall _).returnCredit.pumpSide.pumpSide

/-! ## The windows, the plan and the drain (R137, R149, R161, R168, R172) -/

theorem State.hangKept.closeWindows (h : s.hangKept t) : s.hangKept t.closeWindows :=
  State.hangKept.modRd (h.setReg_all _ fun _ _ _ => by decide)

theorem State.hangKept.startPlan (h : s.hangKept t) {p : Plan} {t0 : Nat} {atSeam : Bool} : s.hangKept (t.startPlan p t0 atSeam) := by
  unfold State.startPlan
  extract_lets u img scr v w x y z
  have hu : s.hangKept u := by
    unfold u
    split
    · exact h.answer
    · exact h
  have hw : s.hangKept w := hu.modScratch.modPp.modTm.modFu
  have hx : s.hangKept x := hw.ite (hw.modRd.setReg (by decide))
  have hy : s.hangKept y := ((hx.setReg (by decide)).setReg (by decide)).setReg (by decide)
  have hz : s.hangKept z := ((hy.setReg (by decide)).setReg (by decide)).setReg (by decide)
  exact hz.setReg (by decide)

theorem State.hangKept.refreshDrain (h : s.hangKept t) : s.hangKept t.refreshDrain := h.setReg (by decide)

end

end Sys2Proof.Machine
end

section
/-! CANVAS_STAGED and HANG_EFFECT (R107, R133, R136, R147). -/
namespace Sys2Proof.Machine

variable {s t : State} {e : Easel}

/-! ## Staging -/

/-- The state behind a load that is over. -/
def State.loadOver (s : State) : State := s.modCv fun c => { c with loading := none }

/-- CV_STATUS, CV_STAGED_ID and CV_HANG_COST show the CANVAS in EASEL (R148). -/
def State.showStaged (s : State) (e : Easel) : State :=
  let s := ((s.setReg R.cvStatusStaged 1).setFlag R.cvStatusPlanStaged e.plan.isSome).setReg R.cvStatusLoadBusy 0
  (s.setReg R.cvStagedIdId e.canvas.id).setReg R.cvHangCostUs (s.hangCost e.canvas)

/-- A loaded CANVAS is in EASEL, and the registers show it and its roles (R131, R148). -/
def State.stageEasel (s : State) (e : Easel) : State :=
  ((s.modCv fun v => { v with easel := some e }).showStaged e).setRegs R.cvRoleERole 4 e.canvas.roleWord

/-- The field of an untested pair is reported with the load (R107). -/
def State.noteUntested (s : State) (e : Easel) : State :=
  if e.untested then s.inform e.item 0x10 2 (staged e.regs R.kpAgreeMismatch) else s

section
variable (hload : s.cv.loading = some e) (hon : (e.quadsOn.all fun q => s.domOn (10 + q)) = true)
include hload hon

theorem exec_canvasStaged_good : exec (.canvasStaged none) s =
    .next (((s.loadOver.stageEasel e).noteUntested e).complete e.item 6).unstageAfter := by
  change execCanvasStaged none s = _
  simp only [execCanvasStaged, hload, hon, Bool.not_true, Bool.false_eq_true, if_false]
  rfl

/-- A router that failed: the load's quads go off, the load is refused with check 0x06, and a fault is raised (R133, R147). -/
theorem exec_canvasStaged_bad (r : Nat) : exec (.canvasStaged (some r)) s =
    .next ((((s.loadOver.quadsOff e.quadsOn).rejectLoad e.item 2 6 r).raise 0x800030 8 2 6).setReg
      R.cvStatusLoadBusy 0).freeInit.unstageAfter := by
  change execCanvasStaged (some r) s = _
  simp only [execCanvasStaged, hload, hon, Bool.not_true, Bool.false_eq_true, if_false]
  rfl

end

theorem State.hangKept.rejectLoad (h : s.hangKept t) {item : ItemId} {a b c : Nat} : s.hangKept (t.rejectLoad item a b c) := by
  have hshow : s.hangKept (t.showReject b c) :=
    ((h.setReg (by decide)).setReg (by decide)).setReg (by decide)
  exact hshow.report

theorem State.hangKept.noteUntested (h : s.hangKept t) : s.hangKept (t.noteUntested e) := h.inform.ite h

theorem State.regsOutside.setRegs_roleE {W : Nat → Prop} (h : s.regsOutside W t) {f : Nat → Nat}
    (hW : ∀ n, W (R.cvRoleERole.key n 0)) :
    s.regsOutside W (t.setRegs R.cvRoleERole 4 f) := foldlKeeps (P := s.regsOutside W) (fun _ _ hs => hs.setReg (hW _)) _ h

theorem roleE_key_ne {k : Nat} (hk : k < 8 * 0x800050) (n : Nat) : R.cvRoleERole.key n 0 ≠ k := by
  have hkey : R.cvRoleERole.key n 0 = 8 * (0x800050 + 4 * n) := rfl
  omega

/-- No load begins or ends where EASEL is emptied. -/
theorem State.discardEasel_load (s : State) : s.discardEasel.cv.loading = s.cv.loading ∧
    s.discardEasel.reg R.cvStatusLoadBusy = s.reg R.cvStatusLoadBusy := by
  unfold State.discardEasel
  split
  · exact ⟨rfl, rfl⟩
  · next e _ =>
    extract_lets u v
    have hu : (s.modCv fun c => { c with easel := none }).hangKept u := (State.hangKept_refl _).quadsOff
    have hv : u.regsOutside (· ≠ R.cvStatusLoadBusy.key 0 0) v := by
      have hfree : u.regsOutside (· ≠ R.cvStatusLoadBusy.key 0 0) u.freeInit :=
        ((u.regsOutside_refl _).setReg (r := R.cvStatusInitHeld) (v := 0) (i := 0) (j := 0) (by decide)).of_regs rfl
      exact List.foldlRecOn (motive := u.regsOutside (· ≠ R.cvStatusLoadBusy.key 0 0)) _ _ hfree fun x hx r hr => hx.setReg (by
        revert r
        decide)
    have hend := hv.setRegs_roleE (f := fun _ => 0) (roleE_key_ne (by decide))
    exact ⟨congrArg (·.loading) hu.cv, (hend R.cvStatusLoadBusy 0 0 (not_not.mpr rfl)).trans (hu.bits _ _ _ (by decide))⟩

theorem State.unstageAfter_load (s : State) : s.unstageAfter.cv.loading = s.cv.loading ∧
    s.unstageAfter.reg R.cvStatusLoadBusy = s.reg R.cvStatusLoadBusy := by
  unfold State.unstageAfter
  split
  · exact State.discardEasel_load _
  · exact ⟨rfl, rfl⟩

theorem State.unstageAfter_of_not_waiting (h : s.cv.unstageWaits = false) : s.unstageAfter = s := by
  rw [State.unstageAfter, if_neg (by rw [h]; decide)]

theorem State.freeInit_load (s : State) : s.freeInit.cv.loading = s.cv.loading ∧
    s.freeInit.reg R.cvStatusLoadBusy = s.reg R.cvStatusLoadBusy :=
  ⟨rfl, s.reg_setReg_ne R.cvStatusInitHeld R.cvStatusLoadBusy 0 0 0 0 0 (by decide)⟩

/-- The bit addresses of what staging writes: CV_STATUS, CV_STAGED_ID, CV_HANG_COST and the staged roles. -/
def stageKeys : List Nat :=
  [R.cvStatusStaged.key 0 0, R.cvStatusPlanStaged.key 0 0, R.cvStatusLoadBusy.key 0 0, R.cvStagedIdId.key 0 0, R.cvHangCostUs.key 0 0] ++
    keysOf R.cvRoleERole

theorem roleE_mem_stageKeys {n : Nat} (hn : n < 4) : R.cvRoleERole.key n 0 ∈ stageKeys := by
  interval_cases n <;> decide

theorem State.showStaged_spec (s : State) (e : Easel) : s.onlyRegs (s.showStaged e) stageKeys ∧
    (s.showStaged e).reg R.cvStatusStaged = 1 ∧ (s.showStaged e).reg R.cvStatusLoadBusy = 0 ∧
    (s.showStaged e).reg R.cvStatusPlanStaged = ofFlag e.plan.isSome ∧
    (s.showStaged e).reg R.cvStagedIdId = e.canvas.id % 2 ^ R.cvStagedIdId.width := by
  unfold State.showStaged State.setFlag
  extract_lets w
  generalize w.hangCost e.canvas = cost
  have hw : s.onlyRegs w stageKeys :=
    ((State.onlyRegs_setReg (by decide)).trans (State.onlyRegs_setReg (by decide))).trans (State.onlyRegs_setReg (by decide))
  refine ⟨(hw.trans (State.onlyRegs_setReg (by decide))).trans (State.onlyRegs_setReg (by decide)), ?_, ?_, ?_, ?_⟩
  · iterate 4 rw [State.reg_setReg_ne _ _ _ _ _ _ _ _ (by decide)]
    exact State.reg_setReg_self _ _ _ _ _
  · iterate 2 rw [State.reg_setReg_ne _ _ _ _ _ _ _ _ (by decide)]
    exact State.reg_setReg_self _ _ _ _ _
  · iterate 3 rw [State.reg_setReg_ne _ _ _ _ _ _ _ _ (by decide)]
    refine (State.reg_setReg_self _ _ _ _ _).trans ?_
    cases e.plan.isSome <;> rfl
  · rw [State.reg_setReg_ne _ _ _ _ _ _ _ _ (by decide)]
    exact State.reg_setReg_self _ _ _ _ _

/-- EASEL with the new CANVAS, and what the registers of the loader show of it. -/
theorem State.stageEasel_spec (s : State) (e : Easel) : (s.stageEasel e).cv = { s.cv with easel := some e } ∧
    (s.stageEasel e).reg R.cvStatusStaged = 1 ∧ (s.stageEasel e).reg R.cvStatusLoadBusy = 0 ∧
    (s.stageEasel e).reg R.cvStatusPlanStaged = ofFlag e.plan.isSome ∧
    (s.stageEasel e).reg R.cvStagedIdId = e.canvas.id % 2 ^ R.cvStagedIdId.width ∧
    s.stageEasel e = { s with regs := (s.stageEasel e).regs, cv := (s.stageEasel e).cv } ∧ s.regsBut (s.stageEasel e) stageKeys := by
  unfold State.stageEasel
  generalize hv : (s.modCv fun v => { v with easel := some e }) = v
  obtain ⟨hshown, hstaged, hbusy, hplan, hid⟩ := v.showStaged_spec e
  generalize v.showStaged e = x at hshown hstaged hbusy hplan hid ⊢
  have hroles : x.onlyRegs (x.setRegs R.cvRoleERole 4 e.canvas.roleWord) stageKeys := State.onlyRegs_foldl (fun n hn u =>
    State.onlyRegs_setReg (roleE_mem_stageKeys (List.mem_range.mp hn))) x
  have hreg (r : Row) (hr : r.key 0 0 < 8 * 0x800050) : (x.setRegs R.cvRoleERole 4 e.canvas.roleWord).reg r = x.reg r :=
    (x.regsOutside_refl (· ≠ r.key 0 0)).setRegs_roleE (roleE_key_ne hr) r 0 0 (not_not.mpr rfl)
  have hend := hshown.trans hroles
  generalize x.setRegs R.cvRoleERole 4 e.canvas.roleWord = t at hreg hend ⊢
  have hcv : t.cv = v.cv := by rw [hend.1]
  subst hv
  refine ⟨hcv, (hreg _ (by decide)).trans hstaged, (hreg _ (by decide)).trans hbusy, (hreg _ (by decide)).trans hplan,
    (hreg _ (by decide)).trans hid, ?_, hend.2⟩
  rw [hcv]
  exact hend.1

/-- Every load that comes to its end is over, and LOAD_BUSY is clear (R147). -/
theorem exec_canvasStaged_ends (bad : Option Nat) (hload : s.cv.loading = some e)
    (hon : (e.quadsOn.all fun q => s.domOn (10 + q)) = true) :
    ∃ t, exec (.canvasStaged bad) s = .next t ∧ t.cv.loading = none ∧ t.reg R.cvStatusLoadBusy = 0 := by
  cases bad with
  | none =>
    refine ⟨_, exec_canvasStaged_good hload hon, ?_⟩
    obtain ⟨hcv, -, hbusy, -⟩ := s.loadOver.stageEasel_spec e
    have hkept : (s.loadOver.stageEasel e).hangKept (((s.loadOver.stageEasel e).noteUntested e).complete e.item 6) :=
      (State.hangKept_refl _).noteUntested.complete
    obtain ⟨hloading, hreg⟩ := State.unstageAfter_load (((s.loadOver.stageEasel e).noteUntested e).complete e.item 6)
    rw [hloading, hreg, hkept.cv, hkept.bits _ _ _ (by decide), hcv]
    exact ⟨rfl, hbusy⟩
  | some r =>
    refine ⟨_, exec_canvasStaged_bad hload hon r, ?_⟩
    have hkept : s.loadOver.hangKept (((s.loadOver.quadsOff e.quadsOn).rejectLoad e.item 2 6 r).raise 0x800030 8 2 6) :=
      (State.hangKept_refl _).quadsOff.rejectLoad.raise
    generalize ((s.loadOver.quadsOff e.quadsOn).rejectLoad e.item 2 6 r).raise 0x800030 8 2 6 = u at hkept ⊢
    obtain ⟨hloading, hreg⟩ := State.unstageAfter_load (u.setReg R.cvStatusLoadBusy 0).freeInit
    obtain ⟨hloading', hreg'⟩ := State.freeInit_load (u.setReg R.cvStatusLoadBusy 0)
    rw [hloading, hreg, hloading', hreg', State.setReg_cv, hkept.cv]
    exact ⟨rfl, State.reg_setReg_self _ _ _ _ _⟩

/-! ## The HANG -/

/-- What a HANG in run from s to the CANVAS of EASEL e leaves in t, the drain aside (R136 to R139). -/
structure State.hung (s : State) (e : Easel) (t : State) : Prop where
  active : t.cv.active = some e.canvas
  easel : t.cv.easel = none
  draining : t.cv.draining = s.cv.active
  takers : t.cv.takers = s.roleChanges e.canvas
  hangPend : t.reg R.cvStatusHangPend = 0
  activeBit : t.reg R.cvStatusActive = 1
  ext : t.ext = s.ext
  devtime : t.devtime = s.devtime

theorem State.hung.kept {u : State} (h : s.hung e t) (hk : t.hangKept u) : s.hung e u where
  active := (congrArg (·.active) hk.cv).trans h.active
  easel := (congrArg (·.easel) hk.cv).trans h.easel
  draining := (congrArg (·.draining) hk.cv).trans h.draining
  takers := (congrArg (·.takers) hk.cv).trans h.takers
  hangPend := (hk.bits _ _ _ (by decide)).trans h.hangPend
  activeBit := (hk.bits _ _ _ (by decide)).trans h.activeBit
  ext := hk.ext.trans h.ext
  devtime := hk.devtime.trans h.devtime

/-- The drain begins (R138). -/
theorem State.hung.drain (h : s.hung e t) (ns : Nat) : s.hung e ((t.setReg R.cvStatusDraining 1).arm .drain ns) ∧
    ((t.setReg R.cvStatusDraining 1).arm .drain ns).reg R.cvStatusDraining = 1 := by
  have hother (r : Row) (hne : R.cvStatusDraining.key 0 0 ≠ r.key 0 0) :
      ((t.setReg R.cvStatusDraining 1).arm .drain ns).reg r = t.reg r := State.reg_setReg_ne t R.cvStatusDraining r 1 0 0 0 0 hne
  refine ⟨?_, State.reg_setReg_self t R.cvStatusDraining 1 0 0⟩
  exact { h with
    hangPend := (hother _ (by decide)).trans h.hangPend
    activeBit := (hother _ (by decide)).trans h.activeBit }

/-- The HANG in run: the staged CANVAS is active in one action, EASEL is empty, and the old CANVAS drains. -/
theorem State.doHang_spec (s : State) (e : Easel) : s.hung e (s.doHang e false) ∧ (s.doHang e false).reg R.cvStatusDraining = 1 := by
  unfold State.doHang
  extract_lets +onlyGivenNames -merge c slot cost changes old w was x y z a b d same taken
  have hx : s.hangKept x := (State.hangKept_refl s).closeWindows.closeChangedSteps.hangQueues
  have hy : ((x.applyEasel e).removeBindings x).hangKept y := (State.hangKept_refl _).startPaced
  have hext : y.ext = s.ext := hy.ext.trans hx.ext
  have hdev : y.devtime = s.devtime := hy.devtime.trans hx.devtime
  clear_value y x w
  have hpend : z.reg R.cvStatusHangPend = 0 := State.reg_setReg_self _ _ _ _ _
  have hactive : z.reg R.cvStatusActive = 1 :=
    ((State.reg_setReg_ne _ R.cvStatusHangPend _ _ 0 0 _ _ (by decide)).trans
      (State.reg_setReg_ne _ R.cvHangsCount _ _ 0 0 _ _ (by decide))).trans (State.reg_setReg_self _ _ _ _ _)
  have ha : z.hangKept a := ((State.hangKept_refl z).setReg (by decide)).ite (State.hangKept_refl z)
  have hd : s.hung e d :=
    { active := rfl, easel := rfl, draining := rfl, takers := rfl
      hangPend := (ha.bits _ _ _ (by decide)).trans hpend
      activeBit := (ha.bits _ _ _ (by decide)).trans hactive
      ext := ha.ext.trans hext
      devtime := ha.devtime.trans hdev }
  have hdrop : d.hangKept (same.foldl (fun s t => s.dropParts c t) d) :=
    foldlKeeps (P := d.hangKept) (fun _ _ hu => hu.dropParts) same (State.hangKept_refl d)
  have htaken : s.hung e taken ∧ taken.reg R.cvStatusDraining = 1 := (hd.kept hdrop).drain (d.scaled 200000)
  clear_value taken
  have hend {t : State} (ht : taken.hangKept t) : s.hung e t ∧ t.reg R.cvStatusDraining = 1 :=
    ⟨htaken.1.kept ht, (ht.bits _ _ _ (by decide)).trans htaken.2⟩
  have hkept := State.hangKept_refl taken
  split
  · exact hend (hkept.startPlan.ite hkept.startPlan).refreshDrain.sendGrants
  · exact hend hkept.refreshDrain.sendGrants

/-- Settles O19: a load that ends leaves EASEL and the loader's registers, and what follows it leaves them alone; a HANG at a seam takes
EASEL in one action. -/
theorem stagingAndHang : Obligations.StagingAndHang := by
  unfold Obligations.StagingAndHang
  refine ⟨fun e bad s hload hon => exec_canvasStaged_ends bad hload hon, fun e s hload hon huntested hstay => ?_,
    fun e r s hload hquads hstay => ?_, fun e s hseam hready heasel => ?_, fun s h => ?_⟩
  · obtain ⟨hcv, hstaged, hbusy, hplan, hid, hframe, hregs⟩ := s.loadOver.stageEasel_spec e
    refine ⟨_, _, exec_canvasStaged_good hload hon, hcv, hstaged, hbusy, hplan, hid, hframe, hregs, ?_⟩
    have hkept := (State.hangKept_refl (s.loadOver.stageEasel e)).complete (item := e.item) (block := 6)
    rw [State.noteUntested, if_neg (by rw [huntested]; decide), State.unstageAfter_of_not_waiting]
    rw [hkept.cv, hcv]
    exact hstay
  · have hon : (e.quadsOn.all fun q => s.domOn (10 + q)) = true := by rw [hquads]; rfl
    have hoff : s.loadOver.quadsOff e.quadsOn = s.loadOver := by rw [hquads]; rfl
    refine ⟨_, _, exec_canvasStaged_bad hload hon r, rfl, ?_⟩
    have hkept := ((State.hangKept_refl s.loadOver).rejectLoad (item := e.item) (a := 2) (b := 6) (c := r)).raise (off := 0x800030)
      (bit := 8) (sev := 2) (block := 6)
    rw [hoff, State.unstageAfter_of_not_waiting]
    · rfl
    · exact (congrArg (·.unstageWaits) hkept.cv).trans hstay
  · obtain ⟨h, hdraining⟩ := s.doHang_spec e
    refine ⟨_, ?_, h.active, h.easel, h.draining, h.hangPend, h.activeBit, hdraining, h.takers, h.ext, h.devtime⟩
    change execHangEffect s = _
    rw [execHangEffect, hseam, hready, heasel]
    rfl
  · change execHangEffect s = _
    rcases h with h | h <;> simp [execHangEffect, h]

end Sys2Proof.Machine
end

section
/-! LOAD, LOAD_DEFERRED_START, HANG and UNSTAGE by CV_CMD (R133, R135, R142, R143, R145). -/
namespace Sys2Proof.Machine

variable {s : State}

/-! ## The command bit and the item of a LOAD -/

/-- A command bit is one register field: what is no field stays. -/
theorem State.setCmd_frame (s : State) (c : Row) : s.setCmd c = { s with regs := (s.setCmd c).regs } :=
  (s.setCmd_onlyRegs c (List.mem_singleton_self _)).1

theorem State.reg_setCmd_ne (s : State) {c r : Row} (h : r.key 0 0 ≠ c.key 0 0) : (s.setCmd c).reg r = s.reg r :=
  (s.setCmd_onlyRegs c (List.mem_singleton_self _)).2 r 0 0 (List.mem_singleton.not.mpr h)

theorem State.flag_setCmd_ne (s : State) {c r : Row} (h : r.key 0 0 ≠ c.key 0 0) : (s.setCmd c).flag r = s.flag r := by
  rw [State.flag, State.flag, s.reg_setCmd_ne h]

theorem State.cv_setCmd (s : State) (c : Row) : (s.setCmd c).cv = s.cv := by rw [s.setCmd_frame c]

theorem State.inRun_setCmd (s : State) (c : Row) : (s.setCmd c).inRun = s.inRun := by rw [s.setCmd_frame c]; rfl

theorem State.nextItem_setCmd (s : State) (c : Row) (stream : Nat) : (s.setCmd c).nextItem stream = s.nextItem stream := by
  rw [s.setCmd_frame c]
  rfl

/-- An item that is taken is live (R25, R26). -/
theorem State.live_takeItem (s : State) (stream : Nat) : (s.takeItem stream).live (s.nextItem stream) = true :=
  congrArg Option.isSome (alGet_alPut_self s.lg.items (s.nextItem stream) s.devtime)

/-- A LOAD in run: its command bit is set and its item is live. -/
def State.loadTaken (s : State) : State := (s.setCmd R.cvCmdLoad).takeItem 0

theorem State.live_loadTaken (s : State) : s.loadTaken.live (s.nextItem 0) = true := by
  rw [← s.nextItem_setCmd R.cvCmdLoad]
  exact State.live_takeItem _ _

theorem State.flag_loadTaken (s : State) {r : Row} (h : r.key 0 0 ≠ R.cvCmdLoad.key 0 0) : s.loadTaken.flag r = s.flag r :=
  s.flag_setCmd_ne h

theorem State.loadTaken_frame (s : State) : s.loadTaken = { s with regs := s.loadTaken.regs, lg := s.loadTaken.lg } := by
  rw [State.loadTaken, s.setCmd_frame R.cvCmdLoad]
  rfl

theorem State.regsBut_loadTaken (s : State) {ks : List Nat} (h : R.cvCmdLoad.key 0 0 ∈ ks) : s.regsBut s.loadTaken ks :=
  (s.setCmd_onlyRegs _ h).2

/-! ## LOAD -/

theorem exec_loadCanvas_outside_run (h : s.inRun = false) : exec .loadCanvas s = .next (s.setCmd R.cvCmdLoad) := by
  change execLoadCanvas s = _
  simp [execLoadCanvas, State.inRun_setCmd, h]

/-- In run a LOAD takes its item, and HANG_PEND, LOAD_BUSY and DRAINING choose what becomes of it (R142, R145). -/
theorem exec_loadCanvas_in_run (h : s.inRun = true) : exec .loadCanvas s = .next (
    if s.flag R.cvStatusHangPend || s.flag R.cvStatusLoadBusy then s.loadTaken.rejectLoad (s.nextItem 0) 2 0x0F 0
    else if s.flag R.cvStatusDraining then
      (s.loadTaken.modCv fun c => { c with loadWaits := some (s.nextItem 0) }).setReg R.cvStatusLoadBusy 1
    else s.loadTaken.beginLoad (s.nextItem 0)) := by
  change execLoadCanvas s = _
  have hpend : s.loadTaken.flag R.cvStatusHangPend = s.flag R.cvStatusHangPend := s.flag_loadTaken (by decide)
  have hbusy : s.loadTaken.flag R.cvStatusLoadBusy = s.flag R.cvStatusLoadBusy := s.flag_loadTaken (by decide)
  have hdrain : s.loadTaken.flag R.cvStatusDraining = s.flag R.cvStatusDraining := s.flag_loadTaken (by decide)
  rw [← hpend, ← hbusy, ← hdrain, ← s.nextItem_setCmd R.cvCmdLoad]
  simp only [execLoadCanvas, State.inRun_setCmd, h, Bool.not_true, Bool.false_eq_true, if_false]
  rfl

theorem exec_loadCanvas_refused (hrun : s.inRun = true) (h : s.flag R.cvStatusHangPend = true ∨ s.flag R.cvStatusLoadBusy = true) :
    exec .loadCanvas s = .next (s.loadTaken.rejectLoad (s.nextItem 0) 2 0x0F 0) := by
  rw [exec_loadCanvas_in_run hrun, if_pos (Bool.or_eq_true _ _ ▸ h)]

section
variable (hrun : s.inRun = true) (hpend : s.flag R.cvStatusHangPend = false) (hbusy : s.flag R.cvStatusLoadBusy = false)
include hrun hpend hbusy

theorem exec_loadCanvas_waits (hdrain : s.flag R.cvStatusDraining = true) : exec .loadCanvas s =
    .next ((s.loadTaken.modCv fun c => { c with loadWaits := some (s.nextItem 0) }).setReg R.cvStatusLoadBusy 1) := by
  rw [exec_loadCanvas_in_run hrun, hpend, hbusy, hdrain]
  rfl

theorem exec_loadCanvas_begins (hdrain : s.flag R.cvStatusDraining = false) :
    exec .loadCanvas s = .next (s.loadTaken.beginLoad (s.nextItem 0)) := by
  rw [exec_loadCanvas_in_run hrun, hpend, hbusy, hdrain]
  rfl

end

/-! ## A LOAD that waited (R142) -/

theorem exec_loadDeferredStart_begins {i : ItemId} (hwaits : s.cv.loadWaits = some i) (hdrain : s.flag R.cvStatusDraining = false) :
    exec .loadDeferredStart s = .next ((s.modCv fun c => { c with loadWaits := none }).beginLoad i) := by
  change execLoadDeferredStart s = _
  simp [execLoadDeferredStart, hwaits, hdrain]

theorem exec_loadDeferredStart_idle (h : s.cv.loadWaits = none ∨ s.flag R.cvStatusDraining = true) :
    exec .loadDeferredStart s = .next s := by
  change execLoadDeferredStart s = _
  rcases h with h | h
  · rw [execLoadDeferredStart, h]
  · rw [execLoadDeferredStart, h]
    cases s.cv.loadWaits <;> rfl

/-! ## HANG (R135) -/

theorem exec_hangRequest_staged (h : s.flag R.cvStatusStaged = true) :
    exec .hangRequest s = .next ((s.setCmd R.cvCmdHang).setReg R.cvStatusHangPend 1) :=
  congrArg _ (if_pos ((s.flag_setCmd_ne (by decide)).trans h))

theorem exec_hangRequest_empty (h : s.flag R.cvStatusStaged = false) :
    exec .hangRequest s = .next ((s.setCmd R.cvCmdHang).setReg R.cvStatusHangNone 1) :=
  congrArg _ (if_neg (Bool.eq_false_iff.mp ((s.flag_setCmd_ne (by decide)).trans h)))

/-! ## UNSTAGE (R142, R143) -/

theorem exec_unstage_waits (h : s.flag R.cvStatusLoadBusy = true) :
    exec .unstage s = .next ((s.setCmd R.cvCmdUnstage).modCv fun c => { c with unstageWaits := true }) :=
  congrArg _ (if_pos ((s.flag_setCmd_ne (by decide)).trans h))

theorem exec_unstage_empties (h : s.flag R.cvStatusLoadBusy = false) :
    exec .unstage s = .next (s.setCmd R.cvCmdUnstage).discardEasel :=
  congrArg _ (if_neg (Bool.eq_false_iff.mp ((s.flag_setCmd_ne (by decide)).trans h)))

/-- The bit addresses of what UNSTAGE writes: the bits of EASEL in CV_STATUS, CV_STAGED_ID, CV_HANG_COST, its command bit and the
staged roles. -/
def unstageKeys : List Nat :=
  [R.cvStatusStaged.key 0 0, R.cvStatusPlanStaged.key 0 0, R.cvStatusHangPend.key 0 0, R.cvStatusInitHeld.key 0 0,
    R.cvStagedIdId.key 0 0, R.cvHangCostUs.key 0 0, R.cvCmdUnstage.key 0 0] ++ keysOf R.cvRoleERole

theorem roleE_mem_unstageKeys {n : Nat} (hn : n < 4) : R.cvRoleERole.key n 0 ∈ unstageKeys := by
  interval_cases n <;> decide

/-- CV_STATUS, CV_STAGED_ID and CV_HANG_COST show an empty EASEL (R142, R148). -/
def State.hideStaged (s : State) : State :=
  [R.cvStatusStaged, R.cvStatusPlanStaged, R.cvStatusHangPend, R.cvStagedIdId, R.cvHangCostUs].foldl (fun s r => s.setReg r 0) s

theorem State.hideStaged_spec (s : State) : s.onlyRegs s.hideStaged unstageKeys ∧ s.hideStaged.reg R.cvStatusStaged = 0 ∧
    s.hideStaged.reg R.cvStatusHangPend = 0 ∧ s.hideStaged.reg R.cvStagedIdId = 0 := by
  refine ⟨State.onlyRegs_foldl (fun r hr u => State.onlyRegs_setReg ?_) s, ?_, ?_, ?_⟩
  · revert r
    decide
  all_goals
    simp (disch := decide) only [State.hideStaged, List.foldl_cons, List.foldl_nil, State.reg_setReg_ne, State.reg_setReg_self]
    rfl

/-- The staged roles lie above CV_STATUS and CV_STAGED_ID. -/
theorem State.reg_setRegs_roleE (s : State) (f : Nat → Nat) {r : Row} (hr : r.key 0 0 < 8 * 0x800050) :
    (s.setRegs R.cvRoleERole 4 f).reg r = s.reg r :=
  (s.regsOutside_refl (· ≠ r.key 0 0)).setRegs_roleE (roleE_key_ne hr) r 0 0 (not_not.mpr rfl)

/-- An EASEL for which no quad went on is emptied in the loader's state and registers alone. -/
theorem State.discardEasel_spec {e : Easel} (heasel : s.cv.easel = some e) (hquads : e.quadsOn = []) :
    s.discardEasel.cv = { s.cv with easel := none, initAt := none } ∧ s.discardEasel.reg R.cvStatusStaged = 0 ∧
    s.discardEasel.reg R.cvStatusHangPend = 0 ∧ s.discardEasel.reg R.cvStagedIdId = 0 ∧
    s.discardEasel = { s with regs := s.discardEasel.regs, cv := s.discardEasel.cv } ∧ s.regsBut s.discardEasel unstageKeys := by
  have heq : s.discardEasel =
      (s.modCv fun c => { c with easel := none }).freeInit.hideStaged.setRegs R.cvRoleERole 4 fun _ => 0 := by
    rw [State.discardEasel, heasel]
    dsimp only
    rw [hquads]
    rfl
  rw [heq]
  generalize hv : (s.modCv fun c => { c with easel := none }).freeInit = v
  obtain ⟨hhidden, hstaged, hpend, hid⟩ := v.hideStaged_spec
  have hroles : v.hideStaged.onlyRegs (v.hideStaged.setRegs R.cvRoleERole 4 fun _ => 0) unstageKeys :=
    State.onlyRegs_foldl (fun n hn u => State.onlyRegs_setReg (roleE_mem_unstageKeys (List.mem_range.mp hn))) _
  obtain ⟨hframe, hregs⟩ := hhidden.trans hroles
  have hfree : s.regsBut v unstageKeys :=
    hv ▸ (s.regsBut_refl _).setReg (r := R.cvStatusInitHeld) (v := 0) (i := 0) (j := 0) (by decide)
  refine ⟨?_, (State.reg_setRegs_roleE _ _ (by decide)).trans hstaged, (State.reg_setRegs_roleE _ _ (by decide)).trans hpend,
    (State.reg_setRegs_roleE _ _ (by decide)).trans hid, ?_, fun r i j hk => (hregs r i j hk).trans (hfree r i j hk)⟩
  · rw [hframe, ← hv]
    rfl
  · rw [hframe, ← hv]
    rfl

/-- Settles O18: each command by the branch that the flags of CV_STATUS choose, and the frames of the branches. -/
theorem loaderCommands : Obligations.LoaderCommands := by
  unfold Obligations.LoaderCommands
  refine ⟨fun s hrun => ?_, fun s hrun h => ?_, fun s hrun hpend hbusy hdrain => ?_,
    fun s hrun hpend hbusy hdrain => exec_loadCanvas_begins hrun hpend hbusy hdrain,
    fun i s hwaits hdrain => exec_loadDeferredStart_begins hwaits hdrain, fun s h => exec_loadDeferredStart_idle h,
    fun s hstaged => ?_, fun s hempty => ?_, fun s hbusy => ?_, fun e s hbusy heasel hquads => ?_⟩
  · exact ⟨_, exec_loadCanvas_outside_run hrun, fun halive => State.reg_setCmd halive rfl,
      s.setCmd_onlyRegs _ (List.mem_singleton_self _)⟩
  · exact ⟨_, _, exec_loadCanvas_refused hrun h, rfl, s.live_loadTaken, rfl⟩
  · refine ⟨_, exec_loadCanvas_waits hrun hpend hbusy hdrain, ?_, State.reg_setReg_self _ _ _ _ _, s.live_loadTaken, ?_, ?_⟩
    · rw [s.loadTaken_frame]
      rfl
    · rw [s.loadTaken_frame]
      rfl
    · have htaken : s.regsBut s.loadTaken [R.cvStatusLoadBusy.key 0 0, R.cvCmdLoad.key 0 0] := s.regsBut_loadTaken (by simp)
      exact State.regsBut.setReg (t := s.loadTaken.modCv _) htaken (by simp)
  · exact ⟨_, exec_hangRequest_staged hstaged, State.reg_setReg_self _ _ _ _ _,
      (s.setCmd_onlyRegs _ (by simp)).trans (State.onlyRegs_setReg (by simp))⟩
  · exact ⟨_, exec_hangRequest_empty hempty, State.reg_setReg_self _ _ _ _ _,
      (s.setCmd_onlyRegs _ (by simp)).trans (State.onlyRegs_setReg (by simp))⟩
  · obtain ⟨hframe, hregs⟩ := s.setCmd_onlyRegs R.cvCmdUnstage (List.mem_singleton_self _)
    refine ⟨_, exec_unstage_waits hbusy, ?_, hregs⟩
    rw [hframe]
    rfl
  · have hcmd := s.cv_setCmd R.cvCmdUnstage
    obtain ⟨hcv, hstaged, hpend, hid, hframe, hregs⟩ :=
      State.discardEasel_spec (s := s.setCmd R.cvCmdUnstage) ((congrArg (·.easel) hcmd).trans heasel) hquads
    refine ⟨_, exec_unstage_empties hbusy, hcv.trans (by rw [hcmd]), hstaged, hpend, hid, ?_, fun r i j hk => ?_⟩
    · rw [hframe, s.setCmd_frame R.cvCmdUnstage]
    · exact (hregs r i j hk).trans ((s.setCmd_onlyRegs R.cvCmdUnstage (by decide)).2 r i j hk)

end Sys2Proof.Machine
end

section
/-! What the plan's commands share: a bundle that completes, and the scalar registers (R149, R160, R173, R446). -/
namespace Sys2Proof.Machine

section
variable {s : State}

/-! ## A bundle that completes (R160, R173, R446) -/

/-- Whether a bundle is late depends on DEVTIME alone. -/
theorem State.isLate_congr {t : State} (h : t.devtime = s.devtime) : t.isLate = s.isLate := by
  funext e
  simp [State.isLate, h]

theorem State.traceRetire_frame (s : State) (index : Nat) :
    s.traceRetire index = { s with hi := { s.hi with traceDue := (s.traceRetire index).hi.traceDue } } := by
  unfold State.traceRetire
  dsimp only
  split <;> split <;> rfl

theorem State.traceRetires_frame (s : State) (l : List Issued) :
    ∃ d, l.foldl (fun s e => s.traceRetire e.index) s = { s with hi := { s.hi with traceDue := d } } := by
  refine foldlKeeps (P := fun t => ∃ d, t = { s with hi := { s.hi with traceDue := d } }) (fun t e ht => ?_) l ⟨_, rfl⟩
  obtain ⟨d, rfl⟩ := ht
  exact ⟨_, State.traceRetire_frame _ e.index⟩

/-- While no bundle is late, completion takes bundles from the list and may owe trace packets, and does nothing else. -/
theorem State.closeBundles_frame (h : (s.pp.issued.all fun e => !s.isLate e) = true) :
    ∃ l d, s.closeBundles = { s with pp := { s.pp with issued := l }, hi := { s.hi with traceDue := d } } := by
  unfold State.closeBundles
  dsimp only
  generalize hfin : List.filter _ s.pp.issued = fin
  obtain ⟨d, hd⟩ := s.traceRetires_frame fin
  have hlate : ∀ t : State, t.devtime = s.devtime → fin.filter t.isLate = [] := fun t ht => by
    rw [State.isLate_congr ht, List.filter_eq_nil_iff]
    subst hfin
    exact fun e he => by simpa using List.all_eq_true.mp h e (List.mem_of_mem_filter he)
  rw [hd, hlate]
  · exact ⟨_, _, rfl⟩
  · rfl

/-- A scalar operation that ends while no bundle is late. -/
theorem State.scalarDone_frame (h : (s.pp.issued.all fun e => !s.isLate e) = true) :
    ∃ l d, s.scalarDone = { s with pp := { s.pp with scalar := none, issued := l }, hi := { s.hi with traceDue := d } } :=
  State.closeBundles_frame (s := s.modPp fun p => { p with scalar := none }) h

/-! ## Scalar registers (R149) -/

theorem bits_lt (v hi lo : Nat) : bits v hi lo < 2 ^ (hi + 1 - lo) := Nat.mod_lt _ (Nat.two_pow_pos _)

/-- A scalar register reads what was written last; S0 reads 0. -/
theorem State.sreg_setSreg (hlen : s.pp.sregs.length = 32) {d : Nat} (hd : d < 32) (v : Cell64) (m : Nat) :
    (s.setSreg d v).sreg m = if m = d ∧ m ≠ 0 then v else s.sreg m := by
  unfold State.setSreg State.sreg
  by_cases hd0 : d = 0
  · have : ¬(m = d ∧ m ≠ 0) := by omega
    rw [if_pos hd0, if_neg this]
  · rw [if_neg hd0]
    by_cases hm : m = d
    · subst hm
      simp [hd0, hlen, hd]
    · have hne : d ≠ m := fun e => hm e.symm
      simp [hm, List.getD_eq_getElem?_getD, List.getElem?_set_ne hne]

theorem State.setSreg_frame (s : State) (d : Nat) (v : Cell64) :
    s.setSreg d v = { s with pp := { s.pp with sregs := (s.setSreg d v).pp.sregs } } := by
  unfold State.setSreg
  split <;> rfl

end

end Sys2Proof.Machine
end

section
/-! The scalar operations (R149, R150, R156, R169, R173). -/
namespace Sys2Proof.Machine

section
variable {s : State} {n i sc : Nat}

/-! ## What each operation does before it ends -/

theorem State.scalarIn_eq (h : s.pp.scalar = some (n, i, sc)) {lo hi : Nat} (hlo : lo ≤ bits sc 7 0) (hhi : bits sc 7 0 ≤ hi) :
    s.scalarIn lo hi = some (i, sc) := by
  simp [State.scalarIn, h, hlo, hhi]

theorem exec_scalarNop (h : s.pp.scalar = some (n, i, sc)) (hop : bits sc 7 0 = 0) : exec .scalarNop s = .next s.scalarDone := by
  show execScalarNop s = _
  rw [execScalarNop, State.scalarIn_eq h (by omega) (by omega)]

theorem exec_integerOp (h : s.pp.scalar = some (n, i, sc)) (hlo : 1 ≤ bits sc 7 0) (hhi : bits sc 7 0 ≤ 0x1F) :
    exec .integerOp s = .next (s.setD sc (Config.intOp (scOp sc) (s.scA sc) (s.scB sc) (scImm sc))).scalarDone := by
  show execIntegerOp s = _
  rw [execIntegerOp, State.scalarIn_eq h hlo hhi]

theorem exec_statusRead (h : s.pp.scalar = some (n, i, sc)) (hlo : 0x38 ≤ bits sc 7 0) (hhi : bits sc 7 0 ≤ 0x3F) :
    exec .statusRead s = .next (s.setD sc (s.statusWord (Config.statusSelect (scOp sc) (scImm sc)))).scalarDone := by
  show execStatusRead s = _
  rw [execStatusRead, State.scalarIn_eq h hlo hhi]

theorem exec_scratchAccess (h : s.pp.scalar = some (n, i, sc)) (hlo : 0x20 ≤ bits sc 7 0) (hhi : bits sc 7 0 ≤ 0x2F) (pf : Bool) :
    exec (.scratchAccess pf) s = .next (
      if Config.scratchStores (scOp sc) then
        (s.modScratch fun m => m.writeNat (s.scalarAddr sc) (scratchBytes (bits sc 7 0)) (s.scB sc).toNat).scalarDone
      else if pf then (((s.setD sc (Config.freeWord s.freeCtr)).tick).scalarDone).haltPlan 3 i
      else (s.setD sc (scratchValue (scOp sc) (scratchBytes (bits sc 7 0))
        (s.scratch.readNat (s.scalarAddr sc) (scratchBytes (bits sc 7 0))))).scalarDone) := by
  show execScratchAccess pf s = _
  rw [execScratchAccess, State.scalarIn_eq h hlo hhi]

theorem exec_memoryLoad (h : s.pp.scalar = some (n, i, sc)) {p : Plan} (hp : s.pp.plan = some p) (hlo : 0x30 ≤ bits sc 7 0)
    (hhi : bits sc 7 0 ≤ 0x37) (hkind : Config.memKind (scOp sc) % 3 < 2) :
    exec .memoryLoadStore s = .next (s.setD sc (BitVec.ofNat 64 (s.ext.readNat
      (s.scalarAddr sc + if Config.memKind (scOp sc) % 3 = 0 then p.addr + p.dataOff else 0) 8))).scalarDone := by
  show execMemoryLoadStore s = _
  rw [execMemoryLoadStore, State.scalarIn_eq h hlo hhi, hp]
  by_cases h0 : Config.memKind (scOp sc) % 3 = 0
  · simp only [h0, if_true, Nat.add_comm]
  · have h1 : Config.memKind (scOp sc) % 3 = 1 := by omega
    simp [h1]

theorem exec_memoryStore (h : s.pp.scalar = some (n, i, sc)) {p : Plan} (hp : s.pp.plan = some p) (hlo : 0x30 ≤ bits sc 7 0)
    (hhi : bits sc 7 0 ≤ 0x37) (hkind : Config.memKind (scOp sc) % 3 = 2) :
    exec .memoryLoadStore s = .next (s.modExt fun m => m.writeNat (s.scalarAddr sc) 8 (s.scB sc).toNat).scalarDone := by
  show execMemoryLoadStore s = _
  rw [execMemoryLoadStore, State.scalarIn_eq h hlo hhi, hp]
  simp [hkind]

theorem exec_conditionalBranch (h : s.pp.scalar = some (n, i, sc)) (hlo : 0x40 ≤ bits sc 7 0) (hhi : bits sc 7 0 ≤ 0x47) :
    exec .conditionalBranch s = .next (if Config.branchTaken (scOp sc) (s.scA sc) (s.scB sc) then
      s.setReg R.ppBundleIndex (branchTarget sc) else s).scalarDone := by
  show execConditionalBranch s = _
  rw [execConditionalBranch, State.scalarIn_eq h hlo hhi]

/-- LOOP has decremented its register A (R169). -/
def State.loopCounted (s : State) (sc : Nat) : State := s.setSreg (bits sc 17 13) (s.scA sc - 1)

theorem State.loops_loopCounted (s : State) (sc : Nat) : (s.loopCounted sc).pp.loops = s.pp.loops := by
  unfold State.loopCounted State.setSreg
  split <;> rfl

theorem exec_loopOp_zero (h : s.pp.scalar = some (n, i, sc)) (hop : bits sc 7 0 = 0x48) (hzero : (s.loopCounted sc).scA sc = 0) :
    exec .loopOp s = .next ((s.loopCounted sc).loopFalls i).scalarDone := by
  unfold State.loopCounted at hzero ⊢
  show execLoopOp s = _
  simp only [execLoopOp, State.scalarIn_eq h hop.ge hop.le, hzero, if_true]

theorem exec_loopOp_atCap (h : s.pp.scalar = some (n, i, sc)) (hop : bits sc 7 0 = 0x48) (hgo : (s.loopCounted sc).scA sc ≠ 0)
    (hcap : bits sc 63 52 ≤ (alGet s.pp.loops i).getD 0) : exec .loopOp s =
      .next ((((s.loopCounted sc).loopFalls i).setReg R.ppStatusClamp 1).raise 0x900000 2 1 7).scalarDone := by
  rw [← s.loops_loopCounted sc] at hcap
  unfold State.loopCounted at hgo hcap ⊢
  show execLoopOp s = _
  simp only [execLoopOp, State.scalarIn_eq h hop.ge hop.le, hgo, hcap, if_true, if_false]

theorem exec_loopOp_belowCap (h : s.pp.scalar = some (n, i, sc)) (hop : bits sc 7 0 = 0x48) (hgo : (s.loopCounted sc).scA sc ≠ 0)
    (hcap : (alGet s.pp.loops i).getD 0 < bits sc 63 52) : exec .loopOp s =
      .next (((s.loopCounted sc).modPp fun p => { p with loops := alPut p.loops i ((alGet s.pp.loops i).getD 0 + 1) }).setReg
        R.ppBundleIndex (branchTarget sc)).scalarDone := by
  rw [← s.loops_loopCounted sc] at hcap ⊢
  unfold State.loopCounted at hgo hcap ⊢
  show execLoopOp s = _
  simp only [execLoopOp, State.scalarIn_eq h hop.ge hop.le, hgo, Nat.not_le.mpr hcap, if_false]

end

/-! ## Results -/

section
variable {s : State} (hlen : s.pp.sregs.length = 32) (hlate : (s.pp.issued.all fun e => !s.isLate e) = true)

theorem State.setD_frame (s : State) (sc : Nat) (v : Cell64) :
    s.setD sc v = { s with pp := { s.pp with sregs := (s.setD sc v).pp.sregs } } := s.setSreg_frame _ v

include hlen in
theorem State.sreg_setD (sc : Nat) (v : Cell64) (m : Nat) :
    (s.setD sc v).sreg m = if m = bits sc 12 8 ∧ m ≠ 0 then v else s.sreg m :=
  State.sreg_setSreg hlen (bits_lt sc 12 8) v m

include hlen hlate in
/-- An operation that gives D a value and ends. -/
theorem State.setD_scalarDone (sc : Nat) (v : Cell64) {t : State} (ht : t = (s.setD sc v).scalarDone) : t.pp.scalar = none ∧
    (∀ m, t.sreg m = if m = bits sc 12 8 ∧ m ≠ 0 then v else s.sreg m) ∧
    t = { s with pp := t.pp, hi := { s.hi with traceDue := t.hi.traceDue } } := by
  have hregs := State.sreg_setD hlen sc v
  rw [s.setD_frame sc v] at ht hregs
  obtain ⟨l, d, hend⟩ := State.scalarDone_frame (s := { s with pp := { s.pp with sregs := (s.setD sc v).pp.sregs } }) hlate
  obtain rfl := ht.trans hend
  exact ⟨rfl, hregs, rfl⟩

theorem leBytes_length (n v : Nat) : (leBytes n v).length = n := by
  induction n generalizing v with
  | zero => rfl
  | succ n ih => simp [leBytes, ih]

/-- A number written is read back as its bytes, and every other byte stays. -/
theorem Mem.writeNat_spec (m : Mem) (a n v : Nat) : (m.writeNat a n v).readBytes a n = leBytes n v ∧
    ∀ b, b < a ∨ a + n ≤ b → (m.writeNat a n v).read b = m.read b :=
  Mem.writeBytes_spec (leBytes_length n v) rfl

include hlen in
theorem State.scA_loopCounted {sc : Nat} (ha : bits sc 17 13 ≠ 0) : (s.loopCounted sc).scA sc = s.scA sc - 1 := by
  unfold State.loopCounted State.scA
  rw [State.sreg_setSreg hlen (bits_lt sc 17 13)]
  exact if_pos ⟨rfl, ha⟩

theorem State.loopCounted_zero {sc : Nat} (ha : bits sc 17 13 = 0) : s.loopCounted sc = s := by
  simp [State.loopCounted, State.setSreg, ha]

theorem State.loopCounted_frame (s : State) (sc : Nat) :
    s.loopCounted sc = { s with pp := { s.pp with sregs := (s.loopCounted sc).pp.sregs } } := s.setSreg_frame _ _

end

/-! ## The commands whose end does not follow from a value of D -/

section
variable {s : State} {n i sc : Nat} (hsc : s.pp.scalar = some (n, i, sc)) (hlen : s.pp.sregs.length = 32)
  (hlate : (s.pp.issued.all fun e => !s.isLate e) = true)

include hlen hlate in
/-- A load whose parity fails gives D a free value; the plan halts behind it (R173). -/
theorem State.freeValue_scalarDone (sc : Nat) {u : State}
    (hu : u = ((s.setD sc (Config.freeWord s.freeCtr)).tick).scalarDone) : u.pp.scalar = none ∧
    (∀ m, u.sreg m = if m = bits sc 12 8 ∧ m ≠ 0 then Config.freeWord s.freeCtr else s.sreg m) ∧
    u.scratch = s.scratch ∧ u.ext = s.ext ∧ u.regs = s.regs := by
  have hregs := State.sreg_setD hlen sc (Config.freeWord s.freeCtr)
  generalize hv : s.setD sc (Config.freeWord s.freeCtr) = v at hu hregs
  have hframe : v = { s with pp := { s.pp with sregs := v.pp.sregs } } := hv ▸ s.setD_frame sc _
  obtain ⟨l, d, hend⟩ := State.scalarDone_frame (s := v.tick) (by rw [hframe]; exact hlate)
  obtain rfl := hu.trans hend
  refine ⟨rfl, hregs, ?_, ?_, ?_⟩ <;> rw [hframe] <;> rfl

include hsc hlate in
theorem exec_conditionalBranch_spec (hlo : 0x40 ≤ bits sc 7 0) (hhi : bits sc 7 0 ≤ 0x47) :
    ∃ t, exec .conditionalBranch s = .next t ∧ t.pp.scalar = none ∧
      t.reg R.ppBundleIndex = (if Config.branchTaken (scOp sc) (s.scA sc) (s.scB sc) then branchTarget sc
        else s.reg R.ppBundleIndex) ∧ t.pp.sregs = s.pp.sregs ∧
      t = { s with regs := t.regs, pp := t.pp, hi := { s.hi with traceDue := t.hi.traceDue } } ∧
      s.regsBut t [R.ppBundleIndex.key 0 0] := by
  refine ⟨_, exec_conditionalBranch hsc hlo hhi, ?_⟩
  split
  · obtain ⟨l, d, hend⟩ := State.scalarDone_frame (s := s.setReg R.ppBundleIndex (branchTarget sc)) hlate
    rw [hend]
    exact ⟨rfl, (s.reg_setReg_self _ _ 0 0).trans (Nat.mod_eq_of_lt (bits_lt sc 51 32)), rfl, rfl,
      (s.regsBut_refl _).setReg (List.mem_singleton_self _)⟩
  · obtain ⟨l, d, hend⟩ := State.scalarDone_frame hlate
    rw [hend]
    exact ⟨rfl, rfl, rfl, rfl, s.regsBut_refl _⟩

include hsc hlate in
/-- A LOOP whose A is 0 after the decrement, or is S0, falls through (R169). -/
theorem exec_loopOp_falls (hop : bits sc 7 0 = 0x48) (hzero : (s.loopCounted sc).scA sc = 0) :
    ∃ t, exec .loopOp s = .next t ∧ t.pp.scalar = none ∧ t.pp.sregs = (s.loopCounted sc).pp.sregs ∧
      alGet t.pp.loops i = none ∧ t = { s with pp := t.pp, hi := { s.hi with traceDue := t.hi.traceDue } } := by
  refine ⟨_, exec_loopOp_zero hsc hop hzero, ?_⟩
  rw [s.loopCounted_frame sc]
  obtain ⟨l, d, hend⟩ := State.scalarDone_frame
    (s := { s with pp := { s.pp with sregs := (s.loopCounted sc).pp.sregs } }.loopFalls i) hlate
  rw [hend]
  exact ⟨rfl, rfl, alGet_alDel _ _, rfl⟩

include hlen in
theorem State.scA_loopCounted_ne {sc : Nat} (ha : bits sc 17 13 ≠ 0) (hne : s.scA sc ≠ 1) : (s.loopCounted sc).scA sc ≠ 0 := by
  rw [State.scA_loopCounted hlen ha]
  exact sub_ne_zero.mpr hne

include hsc hlen hlate in
/-- A LOOP branches while its A is not 0 after the decrement and its count is below the cap (R169). -/
theorem exec_loopOp_branches (hop : bits sc 7 0 = 0x48) (ha : bits sc 17 13 ≠ 0) (hne : s.scA sc ≠ 1)
    (hcap : (alGet s.pp.loops i).getD 0 < bits sc 63 52) : ∃ t, exec .loopOp s = .next t ∧ t.pp.scalar = none ∧
      t.scA sc = s.scA sc - 1 ∧ alGet t.pp.loops i = some ((alGet s.pp.loops i).getD 0 + 1) ∧
      t.reg R.ppBundleIndex = branchTarget sc ∧
      t = { s with regs := t.regs, pp := t.pp, hi := { s.hi with traceDue := t.hi.traceDue } } ∧
      s.regsBut t [R.ppBundleIndex.key 0 0] := by
  have hA := State.scA_loopCounted hlen ha
  refine ⟨_, exec_loopOp_belowCap hsc hop (State.scA_loopCounted_ne hlen ha hne) hcap, ?_⟩
  rw [s.loopCounted_frame sc] at hA ⊢
  obtain ⟨l, d, hend⟩ := State.scalarDone_frame (s := ({ s with pp := { s.pp with sregs := (s.loopCounted sc).pp.sregs } }.modPp
    fun p => { p with loops := alPut p.loops i ((alGet s.pp.loops i).getD 0 + 1) }).setReg R.ppBundleIndex (branchTarget sc)) hlate
  rw [hend]
  exact ⟨rfl, hA, alGet_alPut_self _ _ _, (State.reg_setReg_self _ _ _ 0 0).trans (Nat.mod_eq_of_lt (bits_lt sc 51 32)), rfl,
    (s.regsBut_refl _).setReg (r := R.ppBundleIndex) (v := branchTarget sc) (i := 0) (j := 0) (List.mem_singleton_self _)⟩

include hsc hlen in
/-- A LOOP at its cap falls through, sets CLAMP and raises severity 1 (R169, R173). -/
theorem exec_loopOp_clamps (hop : bits sc 7 0 = 0x48) (ha : bits sc 17 13 ≠ 0) (hne : s.scA sc ≠ 1)
    (hcap : bits sc 63 52 ≤ (alGet s.pp.loops i).getD 0) : ∃ t u : State, exec .loopOp s = .next t ∧
      alGet u.pp.loops i = none ∧ u.scA sc = s.scA sc - 1 ∧ u.reg R.ppStatusClamp = 1 ∧
      u = { s with regs := u.regs, pp := u.pp } ∧ s.regsBut u [R.ppStatusClamp.key 0 0] ∧
      t = (u.raise 0x900000 2 1 7).scalarDone := by
  have hA := State.scA_loopCounted hlen ha
  have hrun := exec_loopOp_atCap hsc hop (State.scA_loopCounted_ne hlen ha hne) hcap
  generalize hu : ((s.loopCounted sc).loopFalls i).setReg R.ppStatusClamp 1 = u at hrun
  rw [s.loopCounted_frame sc] at hA hu
  refine ⟨_, u, hrun, ?_, ?_, ?_, ?_, ?_, rfl⟩ <;> subst hu
  · exact alGet_alDel _ _
  · exact hA
  · exact State.reg_setReg_self _ _ _ 0 0
  · rfl
  · exact (s.regsBut_refl _).setReg (r := R.ppStatusClamp) (v := 1) (i := 0) (j := 0) (List.mem_singleton_self _)

end

/-- Settles O22: each operation by the value it gives D, the bytes it stores or the bundle it names next, and by what its end leaves. -/
theorem scalarOperations : Obligations.ScalarOperations := by
  unfold Obligations.ScalarOperations
  refine ⟨⟨fun n i sc s hsc hlen hlate => ⟨fun hop => ?_, fun hlo hhi => ?_, fun hlo hhi => ?_, fun hlo hhi hload => ?_,
      fun p hlo hhi hp hload => ?_⟩,
    fun n i sc s hsc hlen hlate => ⟨fun pf hlo hhi hstore => ?_, fun p hlo hhi hp hstore => ?_, fun hlo hhi hload => ?_⟩⟩,
    fun n i sc s hsc hlen hlate => ⟨fun hlo hhi => exec_conditionalBranch_spec hsc hlate hlo hhi,
      fun hop ha hne hcap => exec_loopOp_branches hsc hlen hlate hop ha hne hcap, fun hop ha => ?_, fun hop ha hone => ?_,
      fun hop ha hne hcap => exec_loopOp_clamps hsc hlen hop ha hne hcap⟩,
    fun n i sc s hsc hop => ⟨_, _, exec_scalarNop hsc hop, rfl, rfl⟩⟩
  · obtain ⟨l, d, hend⟩ := State.scalarDone_frame hlate
    exact ⟨_, exec_scalarNop hsc hop, by rw [hend], by rw [hend], by rw [hend]⟩
  · exact ⟨_, exec_integerOp hsc hlo hhi, State.setD_scalarDone hlen hlate sc _ rfl⟩
  · exact ⟨_, exec_statusRead hsc hlo hhi, State.setD_scalarDone hlen hlate sc _ rfl⟩
  · refine ⟨_, exec_scratchAccess hsc hlo hhi false, ?_⟩
    simp only [hload, Bool.false_eq_true, if_false]
    exact State.setD_scalarDone hlen hlate sc _ rfl
  · exact ⟨_, exec_memoryLoad hsc hp hlo hhi hload, State.setD_scalarDone hlen hlate sc _ rfl⟩
  · refine ⟨_, exec_scratchAccess hsc hlo hhi pf, ?_⟩
    rw [if_pos hstore]
    obtain ⟨l, d, hend⟩ := State.scalarDone_frame (s := s.modScratch fun m =>
      m.writeNat (s.scalarAddr sc) (scratchBytes (bits sc 7 0)) (s.scB sc).toNat) hlate
    rw [hend]
    obtain ⟨hread, hout⟩ := s.scratch.writeNat_spec (s.scalarAddr sc) (scratchBytes (bits sc 7 0)) (s.scB sc).toNat
    exact ⟨rfl, rfl, hread, hout, rfl⟩
  · refine ⟨_, exec_memoryStore hsc hp hlo hhi hstore, ?_⟩
    obtain ⟨l, d, hend⟩ := State.scalarDone_frame (s := s.modExt fun m => m.writeNat (s.scalarAddr sc) 8 (s.scB sc).toNat) hlate
    rw [hend]
    obtain ⟨hread, hout⟩ := s.ext.writeNat_spec (s.scalarAddr sc) 8 (s.scB sc).toNat
    exact ⟨rfl, rfl, hread, hout, rfl⟩
  · have hrun := exec_scratchAccess hsc hlo hhi true
    simp only [hload, Bool.false_eq_true, if_false, if_true] at hrun
    obtain ⟨hscalar, hregs, hscratch, hext, hfile⟩ := State.freeValue_scalarDone hlen hlate sc rfl
    exact ⟨_, _, hrun, hscalar, hregs, hscratch, hext, hfile, rfl⟩
  · have hzero : (s.loopCounted sc).scA sc = 0 := by
      unfold State.scA State.sreg
      exact if_pos ha
    have hfalls := exec_loopOp_falls hsc hlate hop hzero
    rwa [State.loopCounted_zero ha] at hfalls
  · have hzero : (s.loopCounted sc).scA sc = 0 := by
      rw [State.scA_loopCounted hlen ha, hone]
      rfl
    obtain ⟨t, hrun, hscalar, hsregs, hloops, hframe⟩ := exec_loopOp_falls hsc hlate hop hzero
    refine ⟨t, hrun, hscalar, ?_, hloops, hframe⟩
    rw [State.scA, State.sreg, hsregs]
    exact hzero

end Sys2Proof.Machine
end

section
/-! The issue of a bundle, and the slot of the next step (R155 to R158, R161, R163, R173). -/
namespace Sys2Proof.Machine

section
variable {s : State} {p : Plan} {b c : Nat}

/-! ## Slot operations that start -/

/-- Slot operations have started behind those in progress, one for each word, in order (R158). -/
def State.opsStarted (s : State) (l : List Nat) (t : State) : Prop :=
  ∃ ops k lg, t = { s with pp := { s.pp with ops := ops, opCount := k }, lg := lg } ∧
    ops.map (·.word) = s.pp.ops.map (·.word) ++ l

/-- A word of class 0 starts nothing; any other one starts one operation (R157). -/
theorem State.startOp_opsStarted (s : State) (p : Plan) (n w : Nat) :
    s.opsStarted ([w].filter fun w => slotClass w ≠ 0) (s.startOp p n w) := by
  unfold State.startOp
  dsimp only
  by_cases h0 : slotClass w = 0
  · rw [if_pos h0]
    exact ⟨_, _, _, rfl, by simp [h0]⟩
  · rw [if_neg h0]
    split
    · exact ⟨_, _, _, rfl, by simp [h0, State.create]⟩
    · exact ⟨_, _, _, rfl, by simp [h0]⟩

theorem State.opsStarted.trans {t u : State} {l m : List Nat} (h : s.opsStarted l t) (h' : t.opsStarted m u) :
    s.opsStarted (l ++ m) u := by
  obtain ⟨ops, k, lg, rfl, hops⟩ := h
  obtain ⟨ops', k', lg', rfl, hops'⟩ := h'
  exact ⟨ops', k', lg', rfl, by rw [hops', hops, List.append_assoc]⟩

theorem State.startOps_opsStarted (s : State) (p : Plan) (n : Nat) (l : List Nat) :
    s.opsStarted (l.filter fun w => slotClass w ≠ 0) (l.foldl (fun s w => s.startOp p n w) s) := by
  induction l generalizing s with
  | nil => exact ⟨_, _, _, rfl, by simp⟩
  | cons w t ih =>
    have h := (s.startOp_opsStarted p n w).trans (ih (s.startOp p n w))
    rwa [← List.filter_append] at h

/-! ## The issue -/

theorem exec_bundleIssue (hp : s.pp.plan = some p) (hb : s.nextBundle = some b) : exec .bundleIssue s =
    .next (if s.mayIssue b then s.runBundle p (s.reg R.ppBundleIndex) b else s) := by
  show execBundleIssue s = _
  simp only [execBundleIssue, hp, hb]

/-- A bundle that is no seam halts the plan for the first reason there is (R173). -/
theorem State.runBundle_halts (hstep : bitAt b 36 = false) (hphase : bitAt b 37 = false) {index : Nat}
    (h : s.haltBefore p index b (s.reg R.pcLevelLevel) = some c) : s.runBundle p index b = s.haltPlan c index := by
  by_cases hbad : p.bundles ≤ index ∨ s.bundleOk index b = false
  · have hone : c = 1 := by
      rw [State.haltBefore, if_pos hbad] at h
      exact (Option.some.inj h).symm
    have hbad' : (decide (p.bundles ≤ index) || !(s.bundleOk index b)) = true := by simpa using hbad
    simp only [State.runBundle, hbad', if_true, hone]
  · have hgood : (decide (p.bundles ≤ index) || !(s.bundleOk index b)) = false := by simpa using hbad
    simp only [State.runBundle, hgood, hstep, hphase, Bool.or_self, Bool.false_eq_true, if_false, h]

/-- A bundle that is no seam and has no reason to halt issues. -/
theorem State.runBundle_issues (hstep : bitAt b 36 = false) (hphase : bitAt b 37 = false) {index : Nat}
    (h : s.haltBefore p index b (s.reg R.pcLevelLevel) = none) : s.runBundle p index b = s.issueBundle p index b := by
  have hnot : ¬(p.bundles ≤ index ∨ s.bundleOk index b = false) := fun hbad => by simp [State.haltBefore, hbad] at h
  have hgood : (decide (p.bundles ≤ index) || !(s.bundleOk index b)) = false := by simpa using hnot
  simp only [State.runBundle, hgood, hstep, hphase, Bool.or_self, Bool.false_eq_true, if_false, h]

theorem State.issueBundle_spec (s : State) (p : Plan) (index b : Nat) {t : State} (ht : t = s.issueBundle p index b) :
    t.pp.scalar = some (s.pp.serial, index, bits b 191 128) ∧ t.pp.serial = s.pp.serial + 1 ∧
      t.pp.issued = s.pp.issued ++ [{
        serial := s.pp.serial, index := index, at_ := s.devtime, pace := s.pguard,
        bound := boundIn p (s.image p.addr p.len) index }] ∧
      t.reg R.ppBundleIndex = (index + 1) % 2 ^ 20 ∧
      (t.pp.ops.map (·.word)) = s.pp.ops.map (·.word) ++
        (if bitAt b (32 + s.reg R.pcLevelLevel) then ((List.range 12).map (slotWord b)).filter (fun w => slotClass w ≠ 0) else []) ∧
      t = { s with regs := t.regs, pp := t.pp, lg := t.lg } ∧
      s.regsBut t [R.ppBundleIndex.key 0 0, R.ppFencePending.key 0 0] := by
  unfold State.issueBundle at ht
  dsimp only at ht
  generalize hslots : (if bitAt b (32 + s.reg R.pcLevelLevel) = true then (List.range 12).map (slotWord b) else []) = slots at ht
  generalize hu : (s.modPp _) = u at ht
  obtain ⟨ops, k, lg, hframe, hops⟩ := u.startOps_opsStarted p s.pp.serial slots
  rw [hframe] at ht
  subst ht hu
  refine ⟨rfl, rfl, rfl, ?_, ?_, rfl, ?_⟩
  · exact (State.reg_setReg_ne _ _ _ _ _ _ _ _ (by decide)).trans (State.reg_setReg_self _ _ _ 0 0)
  · refine hops.trans ?_
    rw [← hslots]
    split <;> rfl
  · exact ((s.regsBut_refl _).setReg (r := R.ppBundleIndex) (i := 0) (j := 0) (by simp)).setReg (by simp)

/-! ## The slot of a step -/

theorem exec_stepSlotStart_waits (h : s.flag R.ppStatusRun = false ∨ s.pp.slotBegun = true ∨ s.devtime < s.nextSlot) :
    exec .stepSlotStart s = .next s := by
  have hno : (s.flag R.ppStatusRun && !s.pp.slotBegun && !s.pp.startSeam && decide (s.nextSlot ≤ s.devtime)) = false := by
    rcases h with h | h | h
    · simp [h]
    · simp [h]
    · simp [Nat.not_le.mpr h]
  show execStepSlotStart s = _
  simp only [execStepSlotStart, hno, Bool.false_eq_true, if_false]

theorem exec_stepSlotStart_begins (hrun : s.flag R.ppStatusRun = true) (hslot : s.pp.slotBegun = false)
    (hseam : s.pp.startSeam = false) (htime : s.nextSlot ≤ s.devtime) :
    exec .stepSlotStart s = .next { s with pp := { s.pp with slotBegun := true } } := by
  show execStepSlotStart s = _
  simp [execStepSlotStart, hrun, hslot, hseam, htime, State.modPp]

end

/-- Settles O23: a bundle that may issue and is no seam runs by the reason to halt that it meets, or issues. -/
theorem bundleIssue : Obligations.BundleIssue := by
  unfold Obligations.BundleIssue
  refine ⟨fun p b s hp hb hmay => ?_, fun p b s hp hb hmay hstep hphase hgood => ?_, fun p b c s hp hb hmay hstep hphase hhalt => ?_,
    fun s hrun hslot hseam htime => exec_stepSlotStart_begins hrun hslot hseam htime, fun s h => exec_stepSlotStart_waits h⟩
  · simp [exec_bundleIssue hp hb, hmay]
  · refine ⟨_, exec_bundleIssue hp hb, ?_⟩
    rw [if_pos hmay, State.runBundle_issues hstep hphase hgood]
    exact s.issueBundle_spec p _ b rfl
  · refine ⟨_, exec_bundleIssue hp hb, ?_⟩
    rw [if_pos hmay, State.runBundle_halts hstep hphase hhalt]

end Sys2Proof.Machine
end

section
/-! The end of a slot operation, and a bundle past its bound (R159, R160, R163, R173). -/
namespace Sys2Proof.Machine

section
variable {s : State} {k : Nat} {o : SlotOp} (ho : s.pp.ops[k]? = some o)

/-! ## The acknowledgement of a slot operation -/

/-- Operation k is in progress no more. -/
def State.takeOp (s : State) (k : Nat) : State := { s with pp := { s.pp with ops := s.pp.ops.eraseIdx k } }

include ho in
theorem exec_slotOpComplete_busy (hdone : o.done = false) : exec (.slotOpComplete k) s = .next s := by
  show execSlotOpComplete k s = _
  simp only [execSlotOpComplete, ho, hdone, Bool.not_false, if_true]

include ho in
theorem exec_slotOpComplete_not_final (hdone : o.done = true) (hfinal : slotFinal o.word = false) :
    exec (.slotOpComplete k) s = .next ((s.takeOp k).refreshFences).closeBundles := by
  show execSlotOpComplete k s = _
  simp only [execSlotOpComplete, ho, hdone, hfinal, Bool.not_true, Bool.not_false, Bool.false_eq_true, if_true, if_false]
  rfl

include ho in
/-- The final operation of an item that lost and poisoned nothing completes it (R27, R239). -/
theorem exec_slotOpComplete_final (hdone : o.done = true) (hfinal : slotFinal o.word = true) (hdrop : o.item ∉ s.pal.dropped)
    (hpoison : o.item ∉ s.pal.poisoned) : exec (.slotOpComplete k) s =
      .next (((s.takeOp k).complete o.item (opBlock o.cls)).refreshFences).closeBundles := by
  have hend : (s.takeOp k).endTaken (opBlock o.cls) o.item false = (s.takeOp k).complete o.item (opBlock o.cls) := by
    simp [State.endTaken, State.takeOp, hpoison]
  rw [← hend]
  show execSlotOpComplete k s = _
  simp only [execSlotOpComplete, ho, hdone, hfinal, Bool.not_true, Bool.false_eq_true, if_false, State.modPp_pal,
    List.contains_iff_mem, hdrop]
  rfl

theorem State.refreshFences_onlyRegs (s : State) : s.onlyRegs s.refreshFences [R.ppFencePending.key 0 0] :=
  State.onlyRegs_setReg (List.mem_singleton_self _)

theorem State.reg_refreshFences (s : State) : s.refreshFences.reg R.ppFencePending =
    ofSet ((s.pp.ops.filter fun o => slotFen o.word).map fun o => slotFence o.word) % 2 ^ 32 := State.reg_setReg_self _ _ _ 0 0

/-! ## Overruns -/

/-- The bundle with a serial number has been counted as late (R173). -/
def State.noteLate (s : State) (n : Nat) : State :=
  { s with pp := { s.pp with issued := s.pp.issued.map fun x => if x.serial = n then { x with late := true } else x } }

/-- PP_OVERRUNS counts a late bundle and names it (R173). -/
def State.showLate (s : State) (e : Issued) : State := (s.bump R.ppOverrunsCount).setReg R.ppOverrunsHiLast e.index

theorem exec_bundleOverrun_late {e : Issued} (h : s.pp.issued.find? s.isLate = some e) :
    exec .bundleOverrun s = .next (((s.noteLate e.serial).showLate e).raise 0x900024 0 1 7) := by
  show execBundleOverrun s = _
  rw [execBundleOverrun, h]
  rfl

theorem exec_bundleOverrun_none (h : s.pp.issued.find? s.isLate = none) : exec .bundleOverrun s = .next s := by
  show execBundleOverrun s = _
  rw [execBundleOverrun, h]

theorem State.showLate_spec (s : State) (e : Issued) :
    (s.showLate e).reg R.ppOverrunsCount = (s.reg R.ppOverrunsCount + 1) % 2 ^ 32 ∧
    (s.showLate e).reg R.ppOverrunsHiLast = e.index % 2 ^ R.ppOverrunsHiLast.width ∧
    s.onlyRegs (s.showLate e) [R.ppOverrunsCount.key 0 0, R.ppOverrunsHiLast.key 0 0] :=
  ⟨(State.reg_setReg_ne _ _ _ _ _ _ _ _ (by decide)).trans (State.reg_setReg_self _ _ _ 0 0), State.reg_setReg_self _ _ _ 0 0,
    (State.onlyRegs_setReg (by simp)).trans (State.onlyRegs_setReg (by simp))⟩

end

/-- Settles O24: what an acknowledged operation leaves of the fences and of its item, and what the first late bundle counts. -/
theorem slotOperationEnd : Obligations.SlotOperationEnd := by
  unfold Obligations.SlotOperationEnd
  refine ⟨fun k o s ho hdone hfinal hlate => ?_, fun k o s ho hdone hfinal hdrop hpoison =>
      ⟨_, _, exec_slotOpComplete_final ho hdone hfinal hdrop hpoison, rfl, rfl⟩,
    fun k o s ho hdone => exec_slotOpComplete_busy ho hdone, fun e s h => ?_, fun s h => exec_bundleOverrun_none h⟩
  · refine ⟨_, exec_slotOpComplete_not_final ho hdone hfinal, ?_⟩
    obtain ⟨l, d, hclose⟩ := State.closeBundles_frame (s := (s.takeOp k).refreshFences) hlate
    rw [hclose]
    exact ⟨rfl, (s.takeOp k).reg_refreshFences, rfl, (s.takeOp k).refreshFences_onlyRegs.2⟩
  · obtain ⟨hcount, hlast, hframe, hregs⟩ := (s.noteLate e.serial).showLate_spec e
    exact ⟨_, _, exec_bundleOverrun_late h, hcount, hlast, hframe, hregs, rfl⟩

end Sys2Proof.Machine
end

section
/-! Fence sources and render windows (R157, R161, R168). -/
namespace Sys2Proof.Machine

section
variable {s : State} {k : Nat} {o : SlotOp}

/-! ## Fence sources -/

theorem exec_fenceSlotStart (hop : s.opAt k 4 = some o) : exec (.fenceSlotStart k) s =
    .next (if o.sub = 0 ∧ s.nextSlot ≤ s.devtime then s.finishOp k else s) := by
  show execFenceSlotStart k s = _
  simp only [execFenceSlotStart, hop]

theorem exec_fenceQueueDepth (hop : s.opAt k 4 = some o) : exec (.fenceQueueDepth k) s =
    .next (if o.sub = 1 ∧ o.opnd 56 37 ≤ s.depth o.qid then s.finishOp k else s) := by
  show execFenceQueueDepth k s = _
  simp only [execFenceQueueDepth, hop]

theorem exec_fenceMarkerAtHead (hop : s.opAt k 4 = some o) : exec (.fenceMarkerAtHead k) s =
    .next (if o.sub = 2 ∧ (((s.queue o.qid).cells.head?).map (·.marker)) = some true then s.finishOp k else s) := by
  show execFenceMarkerAtHead k s = _
  simp only [execFenceMarkerAtHead, hop]

/-- An operation that finishes is marked done, and nothing else changes. -/
theorem State.finishOp_eq {cls : Nat} (hop : s.opAt k cls = some o) :
    s.finishOp k = { s with pp := { s.pp with ops := s.pp.ops.set k { o with done := true } } } := by
  obtain ⟨hk, -, -⟩ := State.opAt_eq_some.mp hop
  have hops : s.pp.ops.modify k (fun o => { o with done := true }) = s.pp.ops.set k { o with done := true } := by
    refine List.ext_getElem? fun j => ?_
    rw [List.getElem?_modify, List.getElem?_set']
    by_cases hj : k = j
    · subst hj
      simp [hk]
    · simp [hj]
  rw [← hops]
  rfl

/-! ## WINDOW of the tiles' status words (R175) -/

theorem Member.tiles_le (m : Member) : m.tiles ≤ 64 := by cases m <;> decide

theorem window_mem_keysOf {n : Nat} (hn : n < 64) : R.deTStatWindow.key n 0 ∈ keysOf R.deTStatWindow :=
  List.mem_flatMap.mpr ⟨n, List.mem_range.mpr hn, List.mem_map.mpr ⟨0, by decide, rfl⟩⟩

theorem window_key_inj {m n : Nat} (h : R.deTStatWindow.key m 0 = R.deTStatWindow.key n 0) : m = n := by
  simp only [Row.key, R.deTStatWindow] at h
  omega

/-- The WINDOW bits of a list of tiles take a value. -/
def State.setWindows (s : State) (v : Nat) (l : List Nat) : State := l.foldl (fun s t => s.setReg R.deTStatWindow v t) s

theorem State.setWindows_onlyRegs (s : State) (v : Nat) {l : List Nat} (hl : ∀ n ∈ l, n < 64) :
    s.onlyRegs (s.setWindows v l) (keysOf R.deTStatWindow) :=
  State.onlyRegs_foldl (fun n hn _ => State.onlyRegs_setReg (window_mem_keysOf (hl n hn))) s

theorem State.reg_setWindows (s : State) (v : Nat) (l : List Nat) (n : Nat) :
    (s.setWindows v l).reg R.deTStatWindow n = if n ∈ l then v % 2 else s.reg R.deTStatWindow n := by
  induction l generalizing s with
  | nil => rfl
  | cons m t ih =>
    refine (ih _).trans ?_
    by_cases ht : n ∈ t
    · simp [ht]
    · by_cases hm : n = m
      · subst hm
        rw [if_neg ht, if_pos (List.mem_cons_self ..)]
        exact s.reg_setReg_self R.deTStatWindow v n 0
      · simpa [ht, hm] using s.reg_setReg_ne R.deTStatWindow _ v m 0 n 0 fun he => hm (window_key_inj he).symm

/-! ## Windows -/

/-- The tiles of a group whose role is DENSE, or is to become so (R168, R172). -/
def State.windowTiles (s : State) (o : SlotOp) (g : Nat) : List Nat :=
  (s.opTiles o g).filter fun t => (if s.tileWaits t then s.newRole t else s.role t) = 2

theorem State.lt_of_mem_opTiles {g n : Nat} (h : n ∈ s.opTiles o g) : n < 64 :=
  Nat.lt_of_lt_of_le (List.mem_range.mp (List.mem_of_mem_filter h)) s.member.tiles_le

/-- The renderer with a window open on tiles of a group. -/
def Renderer.openWindow (r : Renderer) (g prio : Nat) (tiles : List Nat) : Renderer :=
  { r with prios := alPut r.prios g prio,
           sides := (r.sides.filter fun x => !(tiles.contains x.tile)) ++ tiles.map fun t => { tile := t, group := g } }

/-- The renderer with the window of a group closed. -/
def Renderer.closeWindow (r : Renderer) (g : Nat) : Renderer :=
  { r with prios := alDel r.prios g, sides := r.sides.filter (·.group ≠ g) }

theorem exec_renderWindowOpen (hop : s.opAt k 8 = some o) (hopen : o.opnd 24 24 = 0) : exec (.renderWindowOpen k) s =
    .next (((s.setWindows 1 ((s.windowTiles o (o.opnd 30 25)).filter fun t => !(s.tileWaits t))).modRd fun r =>
      r.openWindow (o.opnd 30 25) (o.opnd 33 31) (s.windowTiles o (o.opnd 30 25))).finishOp k) := by
  show execRenderWindowOpen k s = _
  simp only [execRenderWindowOpen, hop, hopen, ne_eq, not_true_eq_false, if_false]
  rfl

theorem exec_renderWindowClose (hop : s.opAt k 8 = some o) (hclose : o.opnd 24 24 = 1)
    (hidle : (s.rd.sides.any fun x => x.group == o.opnd 30 25 && x.screen.isSome) = false) : exec (.renderWindowClose k) s =
    .next (((s.setWindows 0 ((s.rd.sides.filter (·.group = o.opnd 30 25)).map (·.tile))).modRd fun r =>
      r.closeWindow (o.opnd 30 25)).finishOp k) := by
  show execRenderWindowClose k s = _
  simp only [execRenderWindowClose, hop, hclose, hidle, ne_eq, not_true_eq_false, Bool.false_eq_true, if_false]
  rfl

/-- What the change of windows leaves: the WINDOW bits, the renderer and the operation's end alone. -/
theorem State.windowsChanged {v : Nat} {l : List Nat} (hl : ∀ n ∈ l, n < 64) {f : Renderer → Renderer} {t : State}
    (ht : t = ((s.setWindows v l).modRd f).finishOp k) : t.rd = f s.rd ∧
    (∀ n ∈ l, t.reg R.deTStatWindow n = v % 2) ∧
    t = { s with regs := t.regs, pp := t.pp, rd := t.rd } ∧ s.regsBut t (keysOf R.deTStatWindow) := by
  obtain ⟨hframe, hregs⟩ := s.setWindows_onlyRegs v hl
  have hbits := s.reg_setWindows v l
  generalize s.setWindows v l = u at ht hframe hregs hbits
  subst ht
  refine ⟨?_, fun n hn => (hbits n).trans (if_pos hn), ?_, hregs⟩ <;> rw [hframe] <;> rfl

theorem exec_renderWindowOpen_spec (hop : s.opAt k 8 = some o) (hopen : o.opnd 24 24 = 0) :
    ∃ t, exec (.renderWindowOpen k) s = .next t ∧
    alGet t.rd.prios (o.opnd 30 25) = some (o.opnd 33 31) ∧ t.opAt k 8 = none ∧
    (∀ n, n ∈ s.opTiles o (o.opnd 30 25) → (if s.tileWaits n then s.newRole n else s.role n) = 2 →
      (s.tileWaits n = false → t.reg R.deTStatWindow n = 1) ∧ { tile := n, group := o.opnd 30 25 } ∈ t.rd.sides) ∧
    t = { s with regs := t.regs, pp := t.pp, rd := t.rd } ∧ s.regsBut t (keysOf R.deTStatWindow) := by
  refine ⟨_, exec_renderWindowOpen hop hopen, ?_⟩
  have hlt : ∀ n ∈ (s.windowTiles o (o.opnd 30 25)).filter fun t => !(s.tileWaits t), n < 64 := fun n hn =>
    State.lt_of_mem_opTiles (List.mem_of_mem_filter (List.mem_of_mem_filter hn))
  obtain ⟨hrd, hbits, hframe, hregs⟩ := State.windowsChanged (k := k) (v := 1)
    (f := fun r => r.openWindow (o.opnd 30 25) (o.opnd 33 31) (s.windowTiles o (o.opnd 30 25))) hlt rfl
  refine ⟨?_, State.opAt_finishOp _ k 8, fun n hn hrole => ⟨fun hw => hbits n ?_, ?_⟩, hframe, hregs⟩
  · rw [hrd]
    exact alGet_alPut_self _ _ _
  · simpa [State.windowTiles, hn, hw] using hrole
  · rw [hrd]
    exact List.mem_append_right _ (List.mem_map.mpr ⟨n, List.mem_filter.mpr ⟨hn, by simpa using hrole⟩, rfl⟩)

theorem exec_renderWindowClose_spec (hop : s.opAt k 8 = some o) (hclose : o.opnd 24 24 = 1)
    (hidle : (s.rd.sides.any fun x => x.group == o.opnd 30 25 && x.screen.isSome) = false)
    (htiles : (s.rd.sides.all fun x => decide (x.tile < 64)) = true) :
    ∃ t, exec (.renderWindowClose k) s = .next t ∧ alGet t.rd.prios (o.opnd 30 25) = none ∧ t.opAt k 8 = none ∧
      t.rd.sides = s.rd.sides.filter (fun x => decide (x.group ≠ o.opnd 30 25)) ∧
      t = { s with regs := t.regs, pp := t.pp, rd := t.rd } ∧ s.regsBut t (keysOf R.deTStatWindow) := by
  refine ⟨_, exec_renderWindowClose hop hclose hidle, ?_⟩
  have hlt : ∀ n ∈ (s.rd.sides.filter (·.group = o.opnd 30 25)).map (·.tile), n < 64 := fun n hn => by
    obtain ⟨x, hx, rfl⟩ := List.mem_map.mp hn
    simpa using List.all_eq_true.mp htiles x (List.mem_of_mem_filter hx)
  obtain ⟨hrd, -, hframe, hregs⟩ := State.windowsChanged (k := k) (v := 0) (f := fun r => r.closeWindow (o.opnd 30 25)) hlt rfl
  refine ⟨?_, State.opAt_finishOp _ k 8, ?_, hframe, hregs⟩
  · rw [hrd]
    exact alGet_alDel _ _
  · rw [hrd]
    rfl

end

/-- Settles O25: each fence source by its condition, and windows by the tiles whose render side comes or goes. -/
theorem fencesAndWindows : Obligations.FencesAndWindows :=
  ⟨fun _ _ _ hop => ⟨exec_fenceSlotStart hop, exec_fenceQueueDepth hop, exec_fenceMarkerAtHead hop⟩,
    fun k _ s hop => ⟨s.opAt_finishOp k 4, State.finishOp_eq hop⟩,
    fun _ _ _ hop hopen => exec_renderWindowOpen_spec hop hopen,
    fun _ _ _ hop hclose hidle htiles => exec_renderWindowClose_spec hop hclose hidle htiles⟩

end Sys2Proof.Machine
end

section
/-! A FINAL drop-remainder on queue 0x1FF. The EOP cell that it delivers completes its item (R27, R239), and where LG_LOG_OK names the
item's stream the record of that completion goes into queue 0x1FF itself (R459, R465). So the cells behind the EOP cell are not all that
the queue then holds. -/
namespace Sys2Proof.Machine

/-- A FINAL drop-remainder (class 3, SUB 2) on queue 511 whose descriptor lies at 0x2000 and whose group 0 at 0x1000. -/
def ledgerDropOp : SlotOp :=
  { bundle := 0, cls := 3, word := 2 ^ 22 + 2 * 2 ^ 24 + 511 * 2 ^ 28, item := 0, step := 0, groups := 0x1000,
    data := 0x2000, dataLen := 4096 }

/-- The last cell of item 0. -/
def ledgerEopCell : Cell := { idx := 7, data := 0, dp := false, eop := true }

/-- Queue 511 holds that cell; PD04 is on, and completions of stream 0 are recorded. The queue's consumer is the plan processor, not the
endpoint 0x70 that Keeper gives it (R463), which the statement does not exclude. The descriptor has COUNT 1 and names partition 0 of
tile 0. -/
def ledgerDropState : State where
  regs := [(R.pwDomStateOn.key 0 0, 0x11), (R.qmQCfgPresent.key 511 0, 1), (R.qmQEpProd.key 511 0, 0x0E), (R.qmQEpCons.key 511 0, 0x10),
    (R.lgLogOkStreams.key 0 0, 1)]
  cv := { active := some { tiles := [{ parts := 1 }], mems := [⟨0, 8, 3, false, 0⟩] } }
  pp := { ops := [ledgerDropOp] }
  ext := { cells := [(0x1000, 1), (0x2002, 1)] }
  pal := { queues := [(511, { cells := [ledgerEopCell] })] }

/-- With no room in the queue, the record leaves its gap marker there. -/
theorem dropRemainder_ledgerDropState :
    ∃ t, exec (.dropRemainder 0) ledgerDropState = .next t ∧ (t.queue 511).cells.length = 1 :=
  ⟨_, rfl, by decide +kernel⟩

/-- Refutes O30: its clause on a drop-remainder at an end of packet does not leave out queue 0x1FF. There the completion of the dropped
item is recorded, and the queue is not empty behind its only cell. -/
theorem not_queueOperations : ¬ Obligations.QueueOperations := by
  unfold Obligations.QueueOperations
  rintro ⟨-, -, -, hdrop, -⟩
  obtain ⟨-, heop⟩ := hdrop 0 0 0 ledgerDropOp ledgerDropState (by decide) (by decide) (by decide +kernel) (by decide +kernel)
    (by decide +kernel) (by decide) (by decide +kernel) (by decide +kernel) (by decide +kernel) (by decide)
  obtain ⟨t, ht, hcells, -⟩ := heop ledgerEopCell [] (by decide +kernel) rfl rfl (by decide) (by decide +kernel) (by decide +kernel) rfl
    (by decide +kernel)
  obtain ⟨u, hu, hlen⟩ := dropRemainder_ledgerDropState
  obtain rfl : t = u := Host.Outcome.next.inj (ht.symm.trans hu)
  have hqid : ledgerDropOp.qid = 511 := by decide
  rw [hqid] at hcells
  rw [hcells] at hlen
  exact absurd hlen (by decide)

end Sys2Proof.Machine
end

section
/-! What a push, an epoch marker and a report can change, whatever the queue (R200, R217, R233 to R246, R336, R460): register fields, balls,
timers, the palette, fusion's waits and frontiers, interrupts, the ledger and the counter of free values. So the ports, the frames in
progress, DEVTIME and the byte memories stay. -/
namespace Sys2Proof.Machine

/-- The states differ at most in the parts that pushes, reports and what fusion sees of them write. -/
def State.onlyPushed (s t : State) : Prop :=
  t = { s with regs := t.regs, pins := t.pins, timers := t.timers, pal := t.pal, fu := t.fu, hi := t.hi, lg := t.lg, freeCtr := t.freeCtr }

section
variable {s t u : State}

theorem State.onlyPushed_refl (s : State) : s.onlyPushed s := rfl

theorem State.onlyPushed.trans (h : s.onlyPushed t) (h' : t.onlyPushed u) : s.onlyPushed u := by
  unfold State.onlyPushed at *
  rw [h', h]

theorem State.onlyPushed.ite {a b : State} {p : Prop} [Decidable p] (ha : s.onlyPushed a) (hb : s.onlyPushed b) :
    s.onlyPushed (if p then a else b) := by
  split
  · exact ha
  · exact hb

theorem State.onlyPushed.ei (h : s.onlyPushed t) : t.ei = s.ei := by
  rw [State.onlyPushed] at h
  rw [h]

theorem State.onlyPushed.devtime (h : s.onlyPushed t) : t.devtime = s.devtime := by
  rw [State.onlyPushed] at h
  rw [h]

theorem State.onlyPushed.port (h : s.onlyPushed t) (n : Nat) : t.port n = s.port n := by
  unfold State.port
  rw [h.ei]

/-! ## The parts -/

theorem State.onlyPushed.setReg (h : s.onlyPushed t) {r : Row} {v i j : Nat} : s.onlyPushed (t.setReg r v i j) := h.trans rfl
theorem State.onlyPushed.bump (h : s.onlyPushed t) {r : Row} {i j n : Nat} : s.onlyPushed (t.bump r i j n) := h.setReg
theorem State.onlyPushed.modPins (h : s.onlyPushed t) {f} : s.onlyPushed (t.modPins f) := h.trans rfl
theorem State.onlyPushed.modTimers (h : s.onlyPushed t) {f} : s.onlyPushed (t.modTimers f) := h.trans rfl
theorem State.onlyPushed.modPal (h : s.onlyPushed t) {f} : s.onlyPushed (t.modPal f) := h.trans rfl
theorem State.onlyPushed.modQueue (h : s.onlyPushed t) {q f} : s.onlyPushed (t.modQueue q f) := h.modPal
theorem State.onlyPushed.modFu (h : s.onlyPushed t) {f} : s.onlyPushed (t.modFu f) := h.trans rfl
theorem State.onlyPushed.modHi (h : s.onlyPushed t) {f} : s.onlyPushed (t.modHi f) := h.trans rfl
theorem State.onlyPushed.modLg (h : s.onlyPushed t) {f} : s.onlyPushed (t.modLg f) := h.trans rfl
theorem State.onlyPushed.tick (h : s.onlyPushed t) : s.onlyPushed t.tick := h.trans rfl

/-! ## The palette (R232 to R246) -/

theorem State.onlyPushed.vector (h : s.onlyPushed t) {v : Nat} : s.onlyPushed (t.vector v) :=
  h.trans (t.vector_frame v ▸ rfl)

theorem State.onlyPushed.refreshXoff (h : s.onlyPushed t) : s.onlyPushed t.refreshXoff := h.trans rfl

theorem State.onlyPushed.poolLow (h : s.onlyPushed t) : s.onlyPushed t.poolLow := State.onlyPushed.ite h.setReg h

theorem State.onlyPushed.watermark (h : s.onlyPushed t) {q : Nat} : s.onlyPushed (t.watermark q) := h.modQueue.refreshXoff

theorem State.onlyPushed.markerVector (h : s.onlyPushed t) {q : Nat} : s.onlyPushed (t.markerVector q) :=
  State.onlyPushed.ite h.vector h

theorem State.onlyPushed.dropPush (h : s.onlyPushed t) {q : Nat} : s.onlyPushed (t.dropPush q) :=
  State.onlyPushed.ite h.bump.modQueue.markerVector (State.onlyPushed.ite h.bump.modQueue h.bump.setReg.modQueue)

theorem State.onlyPushed.gatherTimer (h : s.onlyPushed t) : s.onlyPushed t.gatherTimer := by
  unfold State.gatherTimer
  split
  · exact h.modTimers
  · exact h.modTimers

theorem State.onlyPushed.gatherStarts (h : s.onlyPushed t) {q : Nat} {item : ItemId} : s.onlyPushed (t.gatherStarts q item) :=
  State.onlyPushed.ite h.modFu.gatherTimer h

theorem State.onlyPushed.landCell (h : s.onlyPushed t) {q : Nat} {data : Cell64} {item : ItemId} {eop epm : Bool} :
    s.onlyPushed (t.landCell q data item eop epm) := h.modQueue.tick.poolLow.watermark.gatherStarts

theorem State.onlyPushed.releaseRetired (h : s.onlyPushed t) {q : Nat} : s.onlyPushed (t.releaseRetired q) :=
  State.onlyPushed.ite (State.onlyPushed.refreshXoff (foldlKeeps (P := s.onlyPushed) (fun _ _ hx => hx.setReg) _ h.modPal)) h

theorem State.onlyPushed.relinkMarker (h : s.onlyPushed t) {q : Nat} : s.onlyPushed (t.relinkMarker q) :=
  State.onlyPushed.ite h h.setReg.modQueue.markerVector

theorem State.onlyPushed.renameItem (h : s.onlyPushed t) {a b : ItemId} : s.onlyPushed (t.renameItem a b) :=
  State.onlyPushed.ite h h.modPal

theorem State.onlyPushed.deliverHead (h : s.onlyPushed t) {q ep : Nat} {take : Bool} : s.onlyPushed (t.deliverHead q ep take) := by
  unfold State.deliverHead
  split
  · exact h
  · extract_lets tag u dl v held w
    have hv : s.onlyPushed v := h.modQueue.renameItem.modPal
    have hw : s.onlyPushed w := hv.relinkMarker.ite (hv.modPal.bump.ite hv)
    exact hw.watermark.releaseRetired

theorem State.onlyPushed.toDropper (h : s.onlyPushed t) {q : Nat} : s.onlyPushed (t.toDropper q) := by
  refine h.ite ?_
  dsimp only
  split
  · exact h.deliverHead.modPal
  · exact h.deliverHead

theorem State.onlyPushed.push (h : s.onlyPushed t) {ep q : Nat} {data : Cell64} {item : ItemId} {eop epm : Bool} :
    s.onlyPushed (t.push ep q data item eop epm) := by
  unfold State.push
  extract_lets note
  have hnote : s.onlyPushed (note t) := h.modQueue
  clear_value note
  split
  · exact h.setReg
  · exact hnote.dropPush.toDropper.ite hnote.dropPush
  · refine (hnote.bump.ite hnote.landCell.toDropper).ite ?_
    split
    · exact hnote.modQueue.tick.deliverHead.ite (hnote.landCell.ite hnote.landCell.deliverHead)
    · exact hnote.landCell

theorem State.onlyPushed.epochMark (h : s.onlyPushed t) {ep q port epoch : Nat} {item : ItemId} :
    s.onlyPushed (t.epochMark ep q port epoch item) := h.ite h.push.modPal

/-! ## Items and reports (R25, R460) -/

theorem State.onlyPushed.takeItem (h : s.onlyPushed t) {stream : Nat} : s.onlyPushed (t.takeItem stream) := h.modLg.modLg

theorem State.onlyPushed.report (h : s.onlyPushed t) {item : ItemId} {reason stage flags : Nat} :
    s.onlyPushed (t.report item reason stage flags) := by
  unfold State.report
  split
  · exact h.bump.modLg.ite h.bump
  · have hended : s.onlyPushed (t.markEnded item) := h.modLg
    exact h.bump.ite hended.modLg.modTimers

/-! ## What fusion sees (R336, R345, R360) -/

theorem State.onlyPushed.sourceAlive (h : s.onlyPushed t) {n : Nat} : s.onlyPushed (t.sourceAlive n) := h.trans rfl

theorem State.onlyPushed.setFront (h : s.onlyPushed t) {c us : Nat} : s.onlyPushed (t.setFront c us) :=
  State.onlyPushed.ite h.modFu.setReg.sourceAlive h

theorem State.onlyPushed.portFront (h : s.onlyPushed t) {n us : Nat} : s.onlyPushed (t.portFront n us) :=
  State.onlyPushed.ite (foldlKeeps (P := s.onlyPushed) (fun _ _ hx => hx.setFront.ite hx) _ h) h

theorem State.onlyPushed.seeEvent (h : s.onlyPushed t) {n us x y tags w : Nat} : s.onlyPushed (t.seeEvent n us x y tags w) :=
  State.onlyPushed.ite h (State.onlyPushed.ite h.modFu.modFu h.modFu)

/-! ## What a port writes into its queue (R189, R200, R217, R236) -/

theorem State.onlyPushed.countPort (h : s.onlyPushed t) {n i k : Nat} : s.onlyPushed (t.countPort n i k) := h.bump

theorem State.onlyPushed.portMark (h : s.onlyPushed t) {n epoch : Nat} : s.onlyPushed (t.portMark n epoch) := h.epochMark

theorem State.onlyPushed.portFirst (h : s.onlyPushed t) {n : Nat} : s.onlyPushed (t.portFirst n) := State.onlyPushed.ite h.portMark h

theorem State.onlyPushed.portGap (h : s.onlyPushed t) {n count : Nat} : s.onlyPushed (t.portGap n count) :=
  h.ite (foldlKeeps (P := s.onlyPushed) (fun _ _ hx => hx.push) _ h.portFirst)

end

/-- No gap marker is written where no events were lost. -/
theorem State.portGap_zero (s : State) (n : Nat) : s.portGap n 0 = s := rfl

end Sys2Proof.Machine
end

section
/-! Event packets: reception, errors, and the write of the packet in hand (R176 to R190, R197 to R200). -/
namespace Sys2Proof.Machine

/-! ## Ports -/

theorem Member.ports_le (m : Member) : m.ports ≤ 4 := by cases m <;> decide

section
variable {s : State} {n : Nat} {f : PortState → PortState}

theorem State.lt_four_of_portOpen (h : s.portOpen n false = true) : n < 4 := by
  have hport : n < s.member.ports := by
    simp only [State.portOpen, State.portLinked, Bool.and_eq_true, Bool.false_eq_true, if_false, decide_eq_true_eq] at h
    exact h.2.1.1.1
  exact hport.trans_le s.member.ports_le

theorem State.port_modPort_self (h : n < s.ei.ports.length) : (s.modPort n f).port n = f (s.port n) := by
  simp [State.port, State.modPort, State.modEi, List.getD_eq_getElem?_getD, h]

theorem State.port_modPort_ne {m : Nat} (h : m ≠ n) : (s.modPort n f).port m = s.port m := by
  simp [State.port, State.modPort, State.modEi, List.getD_eq_getElem?_getD, h.symm]

/-- A change of a port that leaves one part of it alone. -/
theorem State.port_modPort_part {α : Type} (g : PortState → α) (hf : g (f (s.port n)) = g (s.port n)) :
    g ((s.modPort n f).port n) = g (s.port n) := by
  by_cases h : n < s.ei.ports.length
  · rw [State.port_modPort_self h, hf]
  · simp [State.port, State.modPort, State.modEi, List.getD_eq_getElem?_getD, Nat.le_of_not_lt h]

theorem State.reg_countPort (s : State) (n i k : Nat) :
    (s.countPort n i k).reg R.eiPCntCount n i = (s.reg R.eiPCntCount n i + k) % 2 ^ 32 := s.reg_setReg_self _ _ _ _

theorem State.countPort_onlyRegs (s : State) (n i k : Nat) : s.onlyRegs (s.countPort n i k) [R.eiPCntCount.key n i] :=
  State.onlyRegs_setReg (List.mem_singleton_self _)

theorem State.regsBut.refreshXoff {s t : State} {ks : List Nat} (h : s.regsBut t ks) (hk : R.eiXoffState.key 0 0 ∈ ks) :
    s.regsBut t.refreshXoff ks := fun r i j hr => (State.reg_refreshXoff_ne fun he => hr (he ▸ hk)).trans (h r i j hr)

theorem State.refreshXoff_frame (s : State) : s.refreshXoff =
    { s with regs := s.refreshXoff.regs, pins := { s.pins with xoff := s.refreshXoff.pins.xoff } } := rfl

/-! ## Damaged items (R200) -/

theorem State.portError_first {i : Nat} (h : (s.port n).errTimes = []) :
    s.portError n i = s.modPort n fun p => { p with errTimes := [s.devtime] } := by
  simp [State.portError, h]

/-- An item that ends without a fault to count: flag, counter and gap markers. -/
theorem State.damaged_eq {item : ItemId} {b c e : Nat} (h : ¬ (c = 10 ∨ c = 14)) :
    s.damaged n item b c e = ((s.countPort n c).report item 0x01 n (2 ^ b)).portGap n e := by
  simp only [State.damaged, if_neg h]

/-- The first HDR or LINK item of a port notes its time and raises nothing. -/
theorem State.damaged_first {item : ItemId} {b c : Nat} (h : c = 10 ∨ c = 14) (herr : (s.port n).errTimes = []) :
    s.damaged n item b c 0 = ((s.countPort n c).report item 0x01 n (2 ^ b)).modPort n fun p => { p with errTimes := [s.devtime] } := by
  have hkept : s.onlyPushed ((s.countPort n c).report item 0x01 n (2 ^ b)) := s.onlyPushed_refl.countPort.report
  simp only [State.damaged, if_pos h, State.portGap_zero]
  rw [State.portError_first (by rw [hkept.port, herr]), hkept.devtime]

end

/-! ## Reception (R176, R178, R179, R199) -/

/-- The packet becomes the next item of the port's stream, and is counted. -/
def State.takePacket (s : State) (n : Nat) : State := (s.takeItem (1 + n)).countPort n 0

theorem State.reg_takePacket (s : State) (n : Nat) :
    (s.takePacket n).reg R.eiPCntCount n 0 = (s.reg R.eiPCntCount n 0 + 1) % 2 ^ 32 := (s.takeItem (1 + n)).reg_countPort n 0 1

theorem State.regsBut_takePacket (s : State) (n : Nat) {ks : List Nat} (h : R.eiPCntCount.key n 0 ∈ ks) : s.regsBut (s.takePacket n) ks :=
  (State.onlyRegs_setReg (s := s.takeItem (1 + n)) h).2

section
variable {s : State} {n : Nat} {vc : BitVec 2} {dt : BitVec 8} {ecc : Ecc} {crc : Bool} {l : List Byte}

theorem exec_eventPacketReceive_closed (h : s.portOpen n false = false) : exec (.eventPacketReceive n vc dt ecc crc l) s = .next s := by
  show execEventPacketReceive n vc dt ecc crc l s = _
  simp [execEventPacketReceive, h]

theorem exec_eventPacketReceive_unreadable (h : s.portOpen n false = true) : exec (.eventPacketReceive n vc dt .uncorrectable crc l) s =
    .next ((s.takeItem (1 + n)).damaged n (s.nextItem (1 + n)) 3 10 0) := by
  show execEventPacketReceive n vc dt .uncorrectable crc l s = _
  simp [execEventPacketReceive, h, State.portItem]

/-- The first packet of a port whose header cannot be read notes its time. -/
theorem exec_eventPacketReceive_firstHeader (h : s.portOpen n false = true) (herr : (s.port n).errTimes = [])
    (hlen : s.ei.ports.length = 4) :
    ∃ t, exec (.eventPacketReceive n vc dt .uncorrectable crc l) s = .next t ∧ (t.port n).errTimes = [s.devtime] := by
  have hn : n < 4 := State.lt_four_of_portOpen h
  have herr' : ((s.takeItem (1 + n)).port n).errTimes = [] := herr
  have hkept : s.onlyPushed (((s.takeItem (1 + n)).countPort n 10).report (s.nextItem (1 + n)) 0x01 n (2 ^ 3)) :=
    s.onlyPushed_refl.takeItem.countPort.report
  refine ⟨_, exec_eventPacketReceive_unreadable h, ?_⟩
  rw [State.damaged_first (.inl rfl) herr', State.port_modPort_self (by rw [hkept.ei, hlen]; exact hn)]
  rfl

theorem exec_eventPacketReceive_channel (hecc : ecc ≠ .uncorrectable) (hvc : vc.toNat ≠ s.reg R.eiPCfgVc n) :
    exec (.eventPacketReceive n vc dt ecc crc l) s = .next s := by
  show execEventPacketReceive n vc dt ecc crc l s = _
  simp [execEventPacketReceive, hecc, hvc]

theorem exec_eventPacketReceive_other (h : s.portOpen n false = true) (hecc : ecc ≠ .uncorrectable)
    (hvc : vc.toNat = s.reg R.eiPCfgVc n) (hdt : dt ≠ 0x30) : exec (.eventPacketReceive n vc dt ecc crc l) s =
    .next (s.countPort n 12) := by
  show execEventPacketReceive n vc dt ecc crc l s = _
  simp only [execEventPacketReceive, h, hecc, hvc, hdt, Bool.not_true, Bool.false_eq_true, ne_eq, not_true_eq_false, not_false_eq_true,
    if_true, if_false]

/-- A packet of events: buffers, CRC and form decide in this order (R178, R179, R200). -/
theorem exec_eventPacketReceive_events (h : s.portOpen n false = true) (hecc : ecc ≠ .uncorrectable)
    (hvc : vc.toNat = s.reg R.eiPCfgVc n) : exec (.eventPacketReceive n vc 0x30 ecc crc l) s = .next (
    if 2 ≤ (s.port n).bufs.length then (s.takePacket n).damaged n (s.nextItem (1 + n)) 1 8 (maskEvents l)
    else if crc = false then (s.takePacket n).damaged n (s.nextItem (1 + n)) 2 9 (maskEvents l)
    else if packetOk l = false then (s.takePacket n).damaged n (s.nextItem (1 + n)) 4 11 0
    else ((s.takePacket n).modPort n fun p =>
      { p with bufs := p.bufs ++ [{ item := s.nextItem (1 + n), words := payloadWords l }] }).refreshXoff) := by
  have hport : (((s.takeItem (1 + n)).countPort n 0).port n) = s.port n := rfl
  show execEventPacketReceive n vc 0x30 ecc crc l s = _
  simp only [execEventPacketReceive, State.portItem, h, hecc, hvc, hport, Bool.not_true, Bool.false_eq_true, ne_eq, not_true_eq_false,
    if_false, Bool.not_eq_true', State.takePacket]

theorem exec_eventPacketReceive_full (h : s.portOpen n false = true) (hecc : ecc ≠ .uncorrectable)
    (hvc : vc.toNat = s.reg R.eiPCfgVc n) (hfull : 2 ≤ (s.port n).bufs.length) : exec (.eventPacketReceive n vc 0x30 ecc crc l) s =
    .next ((((s.takePacket n).countPort n 8).report (s.nextItem (1 + n)) 0x01 n 2).portGap n (maskEvents l)) := by
  rw [exec_eventPacketReceive_events h hecc hvc, if_pos hfull, State.damaged_eq (by decide)]
  rfl

theorem exec_eventPacketReceive_badCrc (h : s.portOpen n false = true) (hecc : ecc ≠ .uncorrectable)
    (hvc : vc.toNat = s.reg R.eiPCfgVc n) (hfree : (s.port n).bufs.length < 2) :
    exec (.eventPacketReceive n vc 0x30 ecc false l) s =
    .next ((((s.takePacket n).countPort n 9).report (s.nextItem (1 + n)) 0x01 n 4).portGap n (maskEvents l)) := by
  rw [exec_eventPacketReceive_events h hecc hvc, if_neg (Nat.not_le.mpr hfree), if_pos rfl, State.damaged_eq (by decide)]
  rfl

theorem exec_eventPacketReceive_badForm (h : s.portOpen n false = true) (hecc : ecc ≠ .uncorrectable)
    (hvc : vc.toNat = s.reg R.eiPCfgVc n) (hfree : (s.port n).bufs.length < 2) (hbad : packetOk l = false) :
    exec (.eventPacketReceive n vc 0x30 ecc true l) s =
    .next (((s.takePacket n).countPort n 11).report (s.nextItem (1 + n)) 0x01 n 16) := by
  rw [exec_eventPacketReceive_events h hecc hvc, if_neg (Nat.not_le.mpr hfree), if_neg (by decide), if_pos hbad,
    State.damaged_eq (by decide), State.portGap_zero]
  rfl

/-- A well-formed packet waits in a buffer of its port, and XOFF follows. -/
theorem exec_eventPacketReceive_good (h : s.portOpen n false = true) (hlen : s.ei.ports.length = 4) (hecc : ecc ≠ .uncorrectable)
    (hvc : vc.toNat = s.reg R.eiPCfgVc n) (hfree : (s.port n).bufs.length < 2) (hok : packetOk l = true) :
    ∃ t, exec (.eventPacketReceive n vc 0x30 ecc true l) s = .next t ∧
      (t.port n).bufs = (s.port n).bufs ++ [{ item := s.nextItem (1 + n), words := payloadWords l }] ∧
      t.live (s.nextItem (1 + n)) = true ∧ t.reg R.eiPCntCount n 0 = (s.reg R.eiPCntCount n 0 + 1) % 2 ^ 32 ∧
      (∀ m, m ≠ n → t.port m = s.port m) ∧
      t = { s with regs := t.regs, ei := { s.ei with ports := t.ei.ports }, lg := t.lg, pins := { s.pins with xoff := t.pins.xoff } } ∧
      s.regsBut t [R.eiPCntCount.key n 0, R.eiXoffState.key 0 0] := by
  have hn : n < 4 := State.lt_four_of_portOpen h
  have hexec := exec_eventPacketReceive_events (crc := true) (l := l) h hecc hvc
  rw [if_neg (Nat.not_le.mpr hfree), if_neg (by decide), if_neg (by rw [hok]; decide)] at hexec
  generalize hu : (s.takePacket n).modPort n (fun p =>
    { p with bufs := p.bufs ++ [{ item := s.nextItem (1 + n), words := payloadWords l }] }) = u at hexec
  have hxoff : u.onlyPushed u.refreshXoff := u.onlyPushed_refl.refreshXoff
  refine ⟨_, hexec, ?_, ?_, ?_, fun m hm => ?_, ?_, ?_⟩
  · rw [hxoff.port, ← hu, State.port_modPort_self (by rw [show (s.takePacket n).ei = s.ei from rfl, hlen]; exact hn)]
    rfl
  · subst hu
    exact State.live_takeItem s (1 + n)
  · have hkey : R.eiPCntCount.key n 0 ≠ R.eiXoffState.key 0 0 := by
      simp only [Row.key, R.eiXoffState, R.eiPCntCount]
      omega
    rw [State.reg_refreshXoff_ne hkey, ← hu, State.modPort, State.reg_modEi, State.reg_takePacket]
  · rw [hxoff.port, ← hu, State.port_modPort_ne hm]
    rfl
  · have hframe : u = { s with regs := u.regs, ei := { s.ei with ports := u.ei.ports }, lg := u.lg } := by
      rw [← hu]
      rfl
    have hshown := u.refreshXoff_frame
    generalize u.refreshXoff = t at hshown ⊢
    rw [hshown, hframe]
  · have hcount : s.regsBut u [R.eiPCntCount.key n 0, R.eiXoffState.key 0 0] := hu ▸ s.regsBut_takePacket n (List.mem_cons_self ..)
    exact hcount.refreshXoff (List.mem_cons_of_mem _ (List.mem_cons_self ..))

/-- A link error ends the item of the packet in reception (R199, R200). -/
theorem exec_linkError_first (h : s.portOpen n false = true) (herr : (s.port n).errTimes = []) : exec (.linkError n false) s = .next (
    (((s.takePacket n).countPort n 14).report (s.nextItem (1 + n)) 0x01 n 64).modPort n fun p =>
      { p with errTimes := [s.devtime] }) := by
  have herr' : ((s.takePacket n).port n).errTimes = [] := herr
  show execLinkError n false s = _
  simp only [execLinkError, State.portItem, h, Bool.not_true, Bool.false_eq_true, if_false]
  exact congrArg Host.Outcome.next (State.damaged_first (.inr rfl) herr')

theorem exec_linkError_spec (h : s.portOpen n false = true) (herr : (s.port n).errTimes = []) (hlen : s.ei.ports.length = 4) :
    ∃ t u : State, exec (.linkError n false) s = .next t ∧
      u = (((s.takeItem (1 + n)).countPort n 0).countPort n 14).report (s.nextItem (1 + n)) 0x01 n 64 ∧
      (t.port n).errTimes = [s.devtime] ∧ t = { u with ei := { u.ei with ports := t.ei.ports } } ∧ (∀ m, m ≠ n → t.port m = u.port m) := by
  have hn : n < 4 := State.lt_four_of_portOpen h
  have hkept : s.onlyPushed (((s.takePacket n).countPort n 14).report (s.nextItem (1 + n)) 0x01 n 64) :=
    s.onlyPushed_refl.takeItem.countPort.countPort.report
  refine ⟨_, _, exec_linkError_first h herr, rfl, ?_, rfl, fun m hm => State.port_modPort_ne hm⟩
  rw [State.port_modPort_self (by rw [hkept.ei, hlen]; exact hn)]

end

/-! ## Unpacking (R177, R178) -/

/-- A pair's port by itself: beside what the unpacking has read, the buffers are compared alone. -/
theorem bufs_fst {p q : PortState} {u : Unpacked} (h : p.bufs = q.bufs) : (p, u).1.bufs = q.bufs := h

theorem unpackWord_bufs (tol : Nat) (a : PortState × Unpacked) (w : Nat) : (unpackWord tol a w).1.bufs = a.1.bufs := by
  fun_cases unpackWord
  case case6 => rfl
  all_goals exact bufs_fst rfl

theorem unpackWords_bufs (tol : Nat) (l : List Nat) (a : PortState × Unpacked) : (l.foldl (unpackWord tol) a).1.bufs = a.1.bufs :=
  List.foldlRecOn l _ (motive := fun x => x.1.bufs = a.1.bufs) rfl fun x hx w _ => (unpackWord_bufs tol x w).trans hx

/-! ## The write of a packet (R180 to R190) -/

/-- Of the ports and of what pushes do not write t has what s has, and port n holds the packets in its buffers that it holds in s. -/
structure State.packetKept (n : Nat) (s t : State) : Prop where
  frame : t = { s with regs := t.regs, pins := t.pins, timers := t.timers, pal := t.pal, ei := { s.ei with ports := t.ei.ports },
                       fu := t.fu, hi := t.hi, lg := t.lg, freeCtr := t.freeCtr }
  bufs : (t.port n).bufs = (s.port n).bufs

section
variable {s t u : State} {n : Nat}

theorem State.packetKept_refl (n : Nat) (s : State) : State.packetKept n s s := ⟨rfl, rfl⟩

theorem State.packetKept.pushed (h : State.packetKept n s t) (h' : t.onlyPushed u) : State.packetKept n s u where
  frame := by
    unfold State.onlyPushed at h'
    rw [h', h.frame]
  bufs := by rw [h'.port, h.bufs]

theorem State.packetKept.modPort (h : State.packetKept n s t) {f : PortState → PortState}
    (hf : (f (t.port n)).bufs = (t.port n).bufs) : State.packetKept n s (t.modPort n f) where
  frame := by
    unfold State.modPort State.modEi
    rw [h.frame]
  bufs := (State.port_modPort_part (·.bufs) hf).trans h.bufs

theorem State.packetKept.ite {a b : State} {p : Prop} [Decidable p] (ha : State.packetKept n s a) (hb : State.packetKept n s b) :
    State.packetKept n s (if p then a else b) := by
  split
  · exact ha
  · exact hb

theorem State.packetKept.countPort (h : State.packetKept n s t) {m i k : Nat} : State.packetKept n s (t.countPort m i k) :=
  h.pushed t.onlyPushed_refl.countPort

theorem State.packetKept.refractPut (h : State.packetKept n s t) {e : Event} : State.packetKept n s (t.refractPut n e) := h.modPort rfl

theorem State.packetKept.glintFilter (h : State.packetKept n s t) {e : Event} : State.packetKept n s (t.glintFilter n e).2 := by
  have hcount : State.packetKept n s (t.glintCount n e).2 := h.modPort rfl
  unfold State.glintFilter
  dsimp only
  split
  · exact h
  split
  · exact hcount
  split
  · exact hcount
  · exact hcount.countPort

theorem State.packetKept.filterEvent (h : State.packetKept n s t) {e : Event} : State.packetKept n s (t.filterEvent n e).2 := by
  unfold State.filterEvent
  extract_lets hot rm hit u
  have hu : State.packetKept n s u := h.ite h.refractPut
  have hglint : State.packetKept n s (u.glintFilter n e).2 := hu.glintFilter
  clear_value u
  split
  · exact h.countPort
  split
  · exact h.countPort
  split
  · exact hu.countPort
  split
  · next he => exact pairSnd (P := State.packetKept n s) he hglint
  · next he => exact pairSnd (P := State.packetKept n s) he hglint

theorem State.packetKept.writeEvent (h : State.packetKept n s t) {item : ItemId} {offset : Option Int} {w : Nat × Bool} {e : Event}
    {regress : Bool} : State.packetKept n s (t.writeEvent n item offset w e regress).2 := by
  unfold State.writeEvent
  split
  · exact h.countPort
  split
  · next he => exact pairSnd (P := State.packetKept n s) he h.filterEvent
  · next _ v he =>
    have hv : State.packetKept n s v := pairSnd (P := State.packetKept n s) he h.filterEvent
    exact hv.pushed v.onlyPushed_refl.portMark.push.seeEvent

theorem State.packetKept.writeEvents (h : State.packetKept n s t) {item : ItemId} {offset : Option Int} {w : Nat × Bool}
    {l : List (Event × Bool)} : State.packetKept n s (t.writeEvents n item offset w l).2 := by
  induction l generalizing t w with
  | nil => exact h
  | cons e l ih => exact ih h.writeEvent

theorem State.onlyPushed.endPacket (h : s.onlyPushed t) {item : ItemId} {w : Nat × Bool} {lost : List Nat} {above : Nat} :
    s.onlyPushed (t.endPacket n item w lost above) := by
  unfold State.endPacket
  extract_lets u lossy ok v full x y
  have hv : s.onlyPushed v := h.portFirst.push
  have hx : s.onlyPushed x := hv.countPort.ite hv
  have hy : s.onlyPushed y := hx.report.ite hx
  exact foldlKeeps (P := s.onlyPushed) (fun _ _ hz => hz.portGap) _ hy.countPort

/-- The write of a packet takes it out of its buffer; the packets behind it stay. -/
theorem State.packetKept_writePacket (s : State) (n : Nat) (b : RxPacket) :
    State.packetKept n (s.modPort n fun p => { p with bufs := p.bufs.tail }) (s.writePacket n b) := by
  unfold State.writePacket
  extract_lets u v r offset a w x
  have hu : State.packetKept n u u := State.packetKept_refl n u
  refine State.packetKept.ite ?_ ?_
  · have hr : State.packetKept n u r.2 := hu.countPort.writeEvents
    exact hr.pushed r.2.onlyPushed_refl.endPacket
  · have hw : State.packetKept n u w := (hu.modPort (unpackWords_bufs _ _ _)).countPort
    have hx : State.packetKept n u x.2 := hw.writeEvents
    exact hx.pushed x.2.onlyPushed_refl.endPacket.portFront

end

section
variable {s : State} {n : Nat} {b : RxPacket} {rest : List RxPacket}

theorem State.aerRetry_of_none (h : s.ei.aerWait = none) : s.aerRetry = s := by
  simp [State.aerRetry, h]

/-- The ports and what pushes write aside, the write of a packet leaves the state as it is. -/
theorem State.writePacket_frame (s : State) (n : Nat) (b : RxPacket) (t : State) (h : t = (s.writePacket n b).refreshXoff) :
    t = { s with regs := t.regs, pins := t.pins, timers := t.timers, pal := t.pal, ei := { s.ei with ports := t.ei.ports },
                 fu := t.fu, hi := t.hi, lg := t.lg, freeCtr := t.freeCtr } := by
  subst h
  exact ((s.packetKept_writePacket n b).pushed (State.onlyPushed_refl _).refreshXoff).frame

theorem State.bufs_writePacket (hbufs : (s.port n).bufs = b :: rest) (hn : n < s.ei.ports.length) :
    ((s.writePacket n b).refreshXoff.port n).bufs = rest := by
  rw [((s.packetKept_writePacket n b).pushed (State.onlyPushed_refl _).refreshXoff).bufs, State.port_modPort_self hn, hbufs]
  rfl

theorem exec_eventPacketWrite_head (hbufs : (s.port n).bufs = b :: rest) (hon : s.domOn (s.epDomain (1 + n)) = true)
    (hq : s.quiesced = false) (hwait : n = 3 → s.ei.aerWait = none) :
    exec (.eventPacketWrite n) s = .next (s.writePacket n b).refreshXoff := by
  show execEventPacketWrite n s = _
  simp only [execEventPacketWrite, hbufs, hon, hq, Bool.not_true, Bool.or_false, Bool.false_eq_true, if_false]
  split
  · next hn =>
    have hframe := s.writePacket_frame n b _ rfl
    have hnone : (s.writePacket n b).refreshXoff.ei.aerWait = none := by
      rw [hframe]
      exact hwait hn
    rw [State.aerRetry_of_none hnone]
  · rfl

theorem exec_eventPacketWrite_none (h : (s.port n).bufs = [] ∨ s.domOn (s.epDomain (1 + n)) = false ∨ s.quiesced = true) :
    exec (.eventPacketWrite n) s = .next s := by
  show execEventPacketWrite n s = _
  unfold execEventPacketWrite
  split
  · next hbufs =>
    have hoff : (!s.domOn (s.epDomain (1 + n)) || s.quiesced) = true := by simpa [hbufs] using h
    rw [if_pos hoff]
  · rfl

/-- The packet at the head is written; DEVTIME and every byte of memory stay. -/
theorem exec_eventPacketWrite_spec (hbufs : (s.port n).bufs = b :: rest) (hport : n < 3 ∨ (n = 3 ∧ s.ei.aerWait = none))
    (hlen : s.ei.ports.length = 4) (hon : s.domOn (s.epDomain (1 + n)) = true) (hq : s.quiesced = false) :
    ∃ t, exec (.eventPacketWrite n) s = .next t ∧ t = (s.writePacket n b).refreshXoff ∧ (t.port n).bufs = rest ∧
      t.devtime = s.devtime ∧ s.sameBytes t := by
  have hn : n < s.ei.ports.length := by omega
  have hwait : n = 3 → s.ei.aerWait = none := fun h3 => hport.elim (fun hlt => absurd h3 hlt.ne) fun h => h.2
  have hframe := s.writePacket_frame n b _ rfl
  refine ⟨_, exec_eventPacketWrite_head hbufs hon hq hwait, rfl, State.bufs_writePacket hbufs hn, ?_, fun a => ?_⟩
  · rw [hframe]
  · rw [hframe]
    exact ⟨rfl, rfl, rfl, rfl⟩

end

/-- Settles O32: reception by data type, buffers, CRC and form in this order; the write of a packet changes the ports and what its pushes
write. -/
theorem eventPackets : Obligations.EventPackets :=
  ⟨fun _ _ _ _ _ _ hopen herr hlen => exec_eventPacketReceive_firstHeader hopen herr hlen,
    ⟨fun _ _ _ _ _ hopen hlen hecc hvc hfree hok => exec_eventPacketReceive_good hopen hlen hecc hvc hfree hok,
      fun _ _ _ _ _ hopen hecc hvc hfree => ⟨exec_eventPacketReceive_badCrc hopen hecc hvc hfree,
        exec_eventPacketReceive_badForm hopen hecc hvc hfree⟩,
      fun _ _ _ _ _ _ hopen hecc hvc hfull => exec_eventPacketReceive_full hopen hecc hvc hfull,
      fun n _ _ _ _ _ s hopen hecc hvc hdt => ⟨_, exec_eventPacketReceive_other hopen hecc hvc hdt, s.reg_countPort n 12 1,
        s.countPort_onlyRegs n 12 1⟩,
      fun _ _ _ _ _ _ _ h => h.elim exec_eventPacketReceive_closed fun hc => exec_eventPacketReceive_channel hc.1 hc.2,
      fun _ _ hopen herr hlen => exec_linkError_spec hopen herr hlen⟩,
    fun _ _ _ _ hbufs hport hlen hon hq => exec_eventPacketWrite_spec hbufs hport hlen hon hq,
    fun _ _ h => exec_eventPacketWrite_none h⟩

end Sys2Proof.Machine
end

section
/-! Thermal frames: start, lines, end (R176, R194, R199, R200). -/
namespace Sys2Proof.Machine

theorem Member.thermals_le (m : Member) : m.thermals ≤ 2 := by cases m <;> decide

section
variable {s t : State} {m : Nat} {vc : BitVec 2} {ecc : Ecc}

theorem State.thermalTakes_iff : s.thermalTakes m vc = true ↔ s.thermalOpen m = true ∧ vc.toNat = s.reg R.eiTCfgVc m := by
  simp [State.thermalTakes]

theorem State.lt_two_of_thermalOpen (h : s.thermalOpen m = true) : m < 2 := by
  have hport : m < s.member.thermals := by
    simp only [State.thermalOpen, Bool.and_eq_true, decide_eq_true_eq] at h
    exact h.1.1.1
  exact hport.trans_le s.member.thermals_le

theorem State.thermal_modThermal {f : Option ThermalFrame → Option ThermalFrame} (h : m < s.ei.thermal.length) :
    (s.modThermal m f).ei.thermal.getD m none = f (s.ei.thermal.getD m none) := by
  simp [State.modThermal, State.modEi, List.getD_eq_getElem?_getD, h]

theorem State.thermal_modThermal_none : (s.modThermal m fun _ => none).ei.thermal.getD m none = none := by
  by_cases h : m < s.ei.thermal.length
  · exact State.thermal_modThermal h
  · simp [State.modThermal, State.modEi, List.getD_eq_getElem?_getD, Nat.le_of_not_lt h]

theorem State.reg_countThermal (s : State) (m i k : Nat) :
    (s.countThermal m i k).reg R.eiTCntCount m i = (s.reg R.eiTCntCount m i + k) % 2 ^ 32 := s.reg_setReg_self _ _ _ _

theorem State.countThermal_onlyRegs (s : State) (m i k : Nat) : s.onlyRegs (s.countThermal m i k) [R.eiTCntCount.key m i] :=
  State.onlyRegs_setReg (List.mem_singleton_self _)

/-! ## Start (R194) -/

/-- The frame that a Frame Start opens, with the size and the queue of its port. -/
def State.startedFrame (s : State) (m : Nat) : ThermalFrame :=
  { item := s.nextItem (5 + m), w := s.reg R.eiTSizeW m, h := s.reg R.eiTSizeH m, qid := s.reg R.eiTCfgQid m, epoch := epochOf s.us }

/-- The type 6 header of a frame: time, port, height and width. -/
def State.headerCell (s : State) (m : Nat) (f : ThermalFrame) : Cell64 :=
  BitVec.ofNat 64 (s.us % 2 ^ 24 * 2 ^ 40 + m % 4 * 2 ^ 38 + f.h % 4096 * 2 ^ 24 + f.w % 4096 * 2 ^ 12 + 6 * 2 ^ 8)

theorem State.headerCell_fields (s : State) (f : ThermalFrame) (hm : m < 4) :
    cellType (s.headerCell m f) = 6 ∧ bits (s.headerCell m f).toNat 63 40 = s.us % 2 ^ 24 ∧
    bits (s.headerCell m f).toNat 39 38 = m ∧ bits (s.headerCell m f).toNat 35 24 = f.h % 2 ^ 12 ∧
    bits (s.headerCell m f).toNat 23 12 = f.w % 2 ^ 12 := by
  simp only [cellType, bits, State.headerCell, BitVec.toNat_ofNat]
  omega

/-- With no frame in progress there is none to end. -/
theorem State.endThermal_of_none (h : s.ei.thermal.getD m none = none) : s.endThermal m = s := by
  simp only [State.endThermal, h]

theorem exec_thermalFrameStart_opens (htakes : s.thermalTakes m vc = true) (hen : s.flag R.eiTCfgEn m = true)
    (hnone : s.ei.thermal.getD m none = none) (hecc : ecc ≠ .uncorrectable) : exec (.thermalFrameStart m vc ecc) s = .next (
    ((s.takeItem (5 + m)).modThermal m fun _ => some (s.startedFrame m)).thermalPush m (s.startedFrame m)
      (s.headerCell m (s.startedFrame m)) false) := by
  obtain ⟨hopen, hvc⟩ := State.thermalTakes_iff.mp htakes
  show execThermalFrameStart m vc ecc s = _
  simp only [execThermalFrameStart, hopen, hvc, hen, hecc, State.endThermal_of_none hnone, Bool.not_true, bne_self_eq_false, Bool.and_false,
    Bool.or_false, Bool.false_eq_true, if_false]
  rfl

theorem exec_thermalFrameStart_unreadable (hopen : s.thermalOpen m = true) (hen : s.flag R.eiTCfgEn m = true)
    (hnone : s.ei.thermal.getD m none = none) : exec (.thermalFrameStart m vc .uncorrectable) s = .next (
    (((s.takeItem (5 + m)).countThermal m 4).report (s.nextItem (5 + m)) 0x01 (4 + m) 8).thermalError m) := by
  show execThermalFrameStart m vc .uncorrectable s = _
  simp only [execThermalFrameStart, hopen, hen, State.endThermal_of_none hnone, Bool.not_true, bne_self_eq_false, Bool.false_and,
    Bool.or_false, Bool.false_eq_true, if_false, if_true]

/-! ## Lines (R194) -/

/-- The frame of port m is f, whether or not one of its cells was dropped. -/
def State.inFrame (m : Nat) (f : ThermalFrame) (s : State) : Prop :=
  m < s.ei.thermal.length ∧ ∃ b, s.ei.thermal.getD m none = some { f with dropped := b }

/-- A cell that is pushed leaves the frame in progress, and notes whether it was dropped. -/
theorem State.inFrame.thermalPush {f g : ThermalFrame} {c : Cell64} {last : Bool} (h : State.inFrame m f s) :
    State.inFrame m f (s.thermalPush m g c last) := by
  obtain ⟨hm, b, hb⟩ := h
  unfold State.thermalPush
  extract_lets u ok
  have hei : (u.push (5 + m) g.qid c g.item last false).ei = s.ei := s.onlyPushed_refl.epochMark.push.ei
  refine ⟨by simpa [State.modThermal, hei] using hm, b || !ok, ?_⟩
  rw [State.thermal_modThermal (by rw [hei]; exact hm), hei, hb]
  rfl

/-- One line of a frame is written. -/
def State.writeLine (s : State) (m : Nat) (f : ThermalFrame) (px : List (BitVec 14)) (bad : Bool) : State :=
  ((lineCells f.w px bad).foldl (fun (x : State) c => x.thermalPush m f c false) s).modThermal m fun o => o.map fun x =>
    { x with nextLine := x.nextLine + 1, invalid := x.invalid + ofFlag bad }

theorem State.thermal_writeLine {f g : ThermalFrame} {px : List (BitVec 14)} {bad : Bool} (h : State.inFrame m f s) :
    ∃ b, (s.writeLine m g px bad).ei.thermal.getD m none =
      some { f with dropped := b, nextLine := f.nextLine + 1, invalid := f.invalid + ofFlag bad } := by
  obtain ⟨hm, b, hb⟩ := foldlKeeps (P := State.inFrame m f) (f := fun x c => x.thermalPush m g c false) (fun _ _ hx => hx.thermalPush)
    (lineCells g.w px bad) h
  refine ⟨b, ?_⟩
  unfold State.writeLine
  rw [State.thermal_modThermal hm, hb]
  rfl

section
variable {line : Nat} {dt : BitVec 8} {crc : Bool} {px : List (BitVec 14)}

theorem exec_thermalLine_unreadable (hopen : s.thermalOpen m = true) :
    exec (.thermalLine m line vc dt .uncorrectable crc px) s = .next ((s.countThermal m 4).thermalError m) := by
  show execThermalLine m line vc dt .uncorrectable crc px s = _
  simp only [execThermalLine, hopen, Bool.not_true, Bool.false_eq_true, if_false, if_true]

theorem exec_thermalLine_other (htakes : s.thermalTakes m vc = true) (hecc : ecc ≠ .uncorrectable) (hdt : dt ≠ 0x2D) :
    exec (.thermalLine m line vc dt ecc crc px) s = .next (s.countThermal m 5) := by
  obtain ⟨hopen, hvc⟩ := State.thermalTakes_iff.mp htakes
  show execThermalLine m line vc dt ecc crc px s = _
  simp only [execThermalLine, hopen, hvc, hecc, hdt, Bool.not_true, Bool.false_eq_true, ne_eq, not_true_eq_false, not_false_eq_true,
    if_true, if_false]

/-- The next line of a frame: no line is missing before it. -/
theorem exec_thermalLine_next {f : ThermalFrame} (hf : s.ei.thermal.getD m none = some f) (htakes : s.thermalTakes m vc = true)
    (hecc : ecc ≠ .uncorrectable) (hline : f.nextLine < f.h) : exec (.thermalLine m f.nextLine vc 0x2D ecc crc px) s =
    .next ((if crc then s else s.countThermal m 3).writeLine m f px (!crc || px.length != f.w)) := by
  obtain ⟨hopen, hvc⟩ := State.thermalTakes_iff.mp htakes
  have hin : ¬ (f.nextLine < f.nextLine ∨ f.h ≤ f.nextLine) := by omega
  show execThermalLine m f.nextLine vc 0x2D ecc crc px s = _
  simp only [execThermalLine, hopen, hvc, hecc, hf, if_neg hin, Nat.sub_self, State.fillLines, Bool.not_true, Bool.false_eq_true, ne_eq,
    not_true_eq_false, if_false]
  rfl

/-- Four pixels of an invalid line of full cells. -/
theorem lineCells_invalid {w i : Nat} (hw : w % 4 = 0) (hi : i < w / 4) :
    (lineCells w px true)[i]? = some (BitVec.ofNat 64 0x8000800080008000) := by
  have hlen : i < ceilDiv w 4 := by
    unfold ceilDiv
    omega
  have hfirst : ¬ w ≤ 4 * i := by omega
  have hpix (k : Nat) (hk : k < 4) : ¬ w ≤ 4 * i + k := by omega
  rw [lineCells, List.getElem?_map, List.getElem?_range hlen, Option.map_some]
  simp [List.range_succ, hfirst, hpix]

/-! ## End (R194) -/

/-- Where a frame is in progress or not, none is when it has ended. -/
theorem State.thermal_endThermal (s : State) (m : Nat) : (s.endThermal m).ei.thermal.getD m none = none := by
  unfold State.endThermal
  split
  · dsimp only
    split
    · exact State.thermal_modThermal_none
    · next hnone => exact hnone
  · next hnone => exact hnone

theorem exec_thermalFrameEnd_takes (htakes : s.thermalTakes m vc = true) : exec (.thermalFrameEnd m vc) s = .next (s.endThermal m) := by
  show execThermalFrameEnd m vc s = _
  simp only [execThermalFrameEnd, htakes, if_true]

theorem exec_thermal_closed (h : s.thermalOpen m = false) : exec (.thermalFrameStart m vc ecc) s = .next s ∧
    exec (.thermalLine m line vc dt ecc crc px) s = .next s ∧ exec (.thermalFrameEnd m vc) s = .next s := by
  refine ⟨?_, ?_, ?_⟩
  · show execThermalFrameStart m vc ecc s = _
    simp [execThermalFrameStart, h]
  · show execThermalLine m line vc dt ecc crc px s = _
    simp [execThermalLine, h]
  · show execThermalFrameEnd m vc s = _
    simp [execThermalFrameEnd, State.thermalTakes, h]

end

end

/-- Settles O34: a Frame Start opens a frame and pushes its header, pushes leave the frame in progress, a line counts in it, and its end
takes it away. -/
theorem thermalFrames : Obligations.ThermalFrames := by
  refine ⟨fun m vc ecc s htakes hen hlen hnone hecc => ?_,
    fun m vc s hopen hen hnone => exec_thermalFrameStart_unreadable hopen hen hnone,
    fun m line vc dt ecc crc px s hopen => ⟨exec_thermalLine_unreadable hopen, fun hecc htakes hdt =>
      ⟨_, exec_thermalLine_other htakes hecc hdt, s.reg_countThermal m 5 1, s.countThermal_onlyRegs m 5 1⟩⟩,
    fun m line vc ecc crc px f s hf hlen htakes hecc hnext hline => ?_,
    fun m vc f s htakes _ _ => ⟨_, exec_thermalFrameEnd_takes htakes, s.thermal_endThermal m⟩,
    fun w i px hw hi => lineCells_invalid hw hi,
    fun m line vc dt ecc crc px s h => exec_thermal_closed h⟩
  · have hm : m < 2 := State.lt_two_of_thermalOpen (State.thermalTakes_iff.mp htakes).1
    exact ⟨_, _, _, _, exec_thermalFrameStart_opens htakes hen hnone hecc, rfl, rfl, rfl, s.headerCell_fields _ (by omega)⟩
  · subst hnext
    have hm : m < 2 := State.lt_two_of_thermalOpen (State.thermalTakes_iff.mp htakes).1
    have hin : State.inFrame m f (if crc then s else s.countThermal m 3) := by
      have hframe : State.inFrame m f s := ⟨by omega, f.dropped, hf⟩
      cases crc
      · exact hframe
      · exact hframe
    obtain ⟨b, hb⟩ := State.thermal_writeLine (g := f) (px := px) (bad := !crc || px.length != f.w) hin
    exact ⟨_, _, exec_thermalLine_next hf htakes hecc hline, rfl, ⟨_, hb, rfl, rfl, rfl⟩, rfl⟩

end Sys2Proof.Machine
end

section
/-! The AER handshake (R191 to R193, R199). -/
namespace Sys2Proof.Machine

section
variable {s : State} {w : BitVec 28}

/-! ## A word is sampled (R191, R192) -/

/-- The event of an AER word, at its arrival. -/
def State.aerEvent (s : State) (w : BitVec 28) : Event :=
  { time := s.devtime, x := bits w.toNat 11 0, y := bits w.toNat 23 12, pol := bitAt w.toNat 24 }

/-- AER_ACK rises. -/
def State.aerAcked (s : State) : State := s.modPins fun p => { p with aerAck := .high }

/-- An empty pseudo-packet: the next item of stream 0x04, which tells of the events lost before it. -/
def State.pseudoPacket (s : State) : RxPacket := { item := s.nextItem 4, arrival := true, lost := s.ei.aerLost }

/-- A pseudo-packet opens, to close after PKT_US. -/
def State.openPseudo (s : State) : State :=
  ((s.takePacket 3).modEi fun x => { x with aerPkt := some s.pseudoPacket, aerLost := 0 }).arm .pktUs (1000 * s.reg R.eiAerPktUs)

theorem State.reg_openPseudo (s : State) : s.openPseudo.reg R.eiAerPktEv = s.reg R.eiAerPktEv :=
  State.reg_setReg_ne _ R.eiPCntCount _ _ _ _ _ _ (by decide)

/-- The event joins the pseudo-packet, which closes with PKT_EV events. -/
def State.aerJoin (s : State) (e : Event) : State :=
  let s := s.modEi fun x => { x with aerPkt := x.aerPkt.map fun p => { p with events := p.events ++ [e] } }
  match s.ei.aerPkt with
  | some p => if max 1 (s.reg R.eiAerPktEv) ≤ p.events.length then s.aerClose else s
  | none => s

theorem State.aerJoin_of_room {p : RxPacket} {e : Event} (hp : s.ei.aerPkt = some p)
    (hroom : p.events.length + 1 < max 1 (s.reg R.eiAerPktEv)) :
    s.aerJoin e = { s with ei := { s.ei with aerPkt := some { p with events := p.events ++ [e] } } } := by
  have hlen : ¬ max 1 (s.reg R.eiAerPktEv) ≤ (p.events ++ [e]).length := by
    rw [List.length_append, List.length_singleton]
    omega
  simp only [State.aerJoin, State.modEi_ei, hp, Option.map_some, State.reg_modEi]
  simp only [State.modEi, hp, Option.map_some]
  exact if_neg hlen

theorem State.aerSample_badFormat (hbits : bits w.toNat 27 25 ≠ 0) :
    s.aerSample w = s.aerAcked.countPort 3 11 := by
  simp only [State.aerSample, if_pos hbits, State.aerAcked]

theorem State.aerSample_open {p : RxPacket} (hbits : bits w.toNat 27 25 = 0) (hp : s.ei.aerPkt = some p) :
    s.aerSample w = s.aerAcked.aerJoin (s.aerEvent w) := by
  have hformat : ¬ bits w.toNat 27 25 ≠ 0 := not_not_intro hbits
  simp only [State.aerSample, if_neg hformat, State.modPins_ei, hp]
  rfl

theorem State.aerSample_none (hbits : bits w.toNat 27 25 = 0) (hp : s.ei.aerPkt = none) :
    s.aerSample w = s.aerAcked.openPseudo.aerJoin (s.aerEvent w) := by
  have hformat : ¬ bits w.toNat 27 25 ≠ 0 := not_not_intro hbits
  simp only [State.aerSample, if_neg hformat, State.modPins_ei, hp]
  rfl

/-! ## AER_REQ (R192, R193) -/

theorem exec_aerRequest_sampled (hopen : s.portOpen 3 true = true) (hack : s.pins.aerAck ≠ .high) (hwait : s.ei.aerWait = none)
    (h : s.aerSpace = true ∨ bits w.toNat 27 25 ≠ 0) : exec (.aerRequest w) s = .next (s.aerSample w) := by
  have hsample : (s.aerSpace || bits w.toNat 27 25 != 0) = true := by simpa using h
  show execAerRequest w s = _
  simp [execAerRequest, hopen, hack, hwait, hsample]

theorem exec_aerRequest_joins {p : RxPacket} (hopen : s.portOpen 3 true = true) (hack : s.pins.aerAck ≠ .high)
    (hwait : s.ei.aerWait = none) (hbits : bits w.toNat 27 25 = 0) (hp : s.ei.aerPkt = some p)
    (hroom : p.events.length + 1 < max 1 (s.reg R.eiAerPktEv)) : exec (.aerRequest w) s =
    .next { s with pins := { s.pins with aerAck := .high },
                   ei := { s.ei with aerPkt := some { p with events := p.events ++ [s.aerEvent w] } } } := by
  have hspace : s.aerSpace = true := by simp [State.aerSpace, hp]
  rw [exec_aerRequest_sampled hopen hack hwait (.inl hspace), State.aerSample_open hbits hp]
  exact congrArg Host.Outcome.next (State.aerJoin_of_room (s := s.aerAcked) hp hroom)

/-- With no pseudo-packet open and a buffer free the word opens one, and its event is the first. -/
theorem exec_aerRequest_opens (hopen : s.portOpen 3 true = true) (hack : s.pins.aerAck ≠ .high) (hwait : s.ei.aerWait = none)
    (hbits : bits w.toNat 27 25 = 0) (hp : s.ei.aerPkt = none) (hfree : (s.port 3).bufs.length < 2) (hroom : 1 < s.reg R.eiAerPktEv) :
    ∃ t p, exec (.aerRequest w) s = .next t ∧ t.ei.aerPkt = some p ∧ p.item = s.nextItem 4 ∧ p.arrival = true ∧ p.lost = s.ei.aerLost ∧
      p.events = [s.aerEvent w] ∧ t.pins = { s.pins with aerAck := .high } ∧ t.live (s.nextItem 4) = true ∧
      alGet t.timers .pktUs = some (s.devtime + 1000 * s.reg R.eiAerPktUs) ∧ s.regsBut t [R.eiPCntCount.key 3 0] ∧ s.sameBytes t := by
  have hspace : s.aerSpace = true := by simp [State.aerSpace, hfree]
  have hroom' : s.aerAcked.pseudoPacket.events.length + 1 < max 1 (s.aerAcked.openPseudo.reg R.eiAerPktEv) := by
    rw [State.reg_openPseudo]
    exact hroom.trans_le (Nat.le_max_right ..)
  refine ⟨_, { s.aerAcked.pseudoPacket with events := [s.aerEvent w] }, exec_aerRequest_sampled hopen hack hwait (.inl hspace), ?_⟩
  rw [State.aerSample_none hbits hp, State.aerJoin_of_room (s := s.aerAcked.openPseudo) rfl hroom']
  exact ⟨rfl, rfl, rfl, rfl, rfl, rfl, s.live_takeItem 4, alGet_alPut_self _ _ _,
    s.aerAcked.regsBut_takePacket 3 (List.mem_singleton_self _), fun _ => ⟨rfl, rfl, rfl, rfl⟩⟩

theorem exec_aerRequest_withheld (hopen : s.portOpen 3 true = true) (hack : s.pins.aerAck ≠ .high) (hwait : s.ei.aerWait = none)
    (hbits : bits w.toNat 27 25 = 0) (hspace : s.aerSpace = false) : exec (.aerRequest w) s =
    .next ((s.modEi fun e => { e with aerWait := some w }).arm .aerHold (s.reg R.eiAerHoldNs)) := by
  show execAerRequest w s = _
  simp [execAerRequest, hopen, hack, hwait, hbits, hspace]

theorem exec_aerHoldExpire_due (hwait : s.ei.aerWait.isSome = true) (hdue : s.due .aerHold = true) : exec .aerHoldExpire s =
    .next (((s.modEi fun e => { e with aerWait := none, aerLost := e.aerLost + 1 }).disarm .aerHold).modPins fun p =>
      { p with aerAck := .high }) := by
  show execAerHoldExpire s = _
  simp only [execAerHoldExpire, hwait, hdue, Bool.and_self, if_true]

theorem exec_aerReqFall_high (hack : s.pins.aerAck = .high) :
    exec .aerReqFall s = .next { s with pins := { s.pins with aerAck := .low } } := by
  show execAerReqFall s = _
  simp only [execAerReqFall, if_pos hack]
  rfl

/-! ## PKT_US (R191) -/

theorem exec_pseudoPacketTimeout_notDue (hdue : s.due .pktUs = false) : exec .pseudoPacketTimeout s = .next s := by
  show execPseudoPacketTimeout s = _
  simp [execPseudoPacketTimeout, hdue]

/-- The open pseudo-packet goes behind the packets in the buffers of P3, and XOFF follows. -/
theorem State.aerClose_spec {p : RxPacket} (hp : s.ei.aerPkt = some p) (hlen : s.ei.ports.length = 4) :
    s.aerClose.ei.aerPkt = none ∧ (s.aerClose.port 3).bufs = (s.port 3).bufs ++ [p] ∧
    (∀ m, m ≠ 3 → s.aerClose.port m = s.port m) ∧ s.aerClose.armed .pktUs = false ∧
    s.aerClose = { s with regs := s.aerClose.regs, ei := s.aerClose.ei, timers := s.aerClose.timers,
                          pins := { s.pins with xoff := s.aerClose.pins.xoff } } ∧
    s.regsBut s.aerClose [R.eiXoffState.key 0 0] := by
  generalize hu : (s.modEi fun e => { e with aerPkt := none }).modPort 3 (fun q => { q with bufs := q.bufs ++ [p] }) = u
  have hclose : s.aerClose = (u.disarm .pktUs).refreshXoff := by
    simp only [State.aerClose, hp, hu]
  have hport (n : Nat) : ((u.disarm .pktUs).refreshXoff).port n = u.port n := rfl
  rw [hclose]
  refine ⟨?_, ?_, fun m hm => ?_, u.armed_disarm .pktUs, ?_, ?_⟩
  · subst hu
    rfl
  · rw [hport, ← hu, State.port_modPort_self (by rw [show (s.modEi _).ei.ports = s.ei.ports from rfl, hlen]; decide)]
    rfl
  · rw [hport, ← hu, State.port_modPort_ne hm]
    rfl
  · subst hu
    rfl
  · have hsame : s.regsBut (u.disarm .pktUs) [R.eiXoffState.key 0 0] := hu ▸ s.regsBut_refl _
    exact hsame.refreshXoff (List.mem_singleton_self _)

theorem exec_pseudoPacketTimeout_due (hdue : s.due .pktUs = true) : exec .pseudoPacketTimeout s = .next s.aerClose := by
  show execPseudoPacketTimeout s = _
  simp only [execPseudoPacketTimeout, hdue, if_true]

end

end Sys2Proof.Machine
end

section
/-! The commands of an event port: settings, counters, lists and windows (R185, R187, R197, R199, R202). -/
namespace Sys2Proof.Machine

section
variable {s t : State} {n : Nat}

theorem State.setCmd_elem_onlyRegs (s : State) (r : Row) (i : Nat) {ks : List Nat} (h : r.key i 0 ∈ ks) :
    s.onlyRegs (s.setCmd r i) ks := by
  unfold State.setCmd
  split
  · exact State.onlyRegs_setReg h
  · exact s.onlyRegs_refl _

/-! ## COMMIT (R185, R187, R197) -/

/-- What a pending copy asks of the stores lies in five fields. -/
theorem State.copyBad_congr (h : ∀ r ∈ [R.eiPSizeWM1, R.eiPSizeHM1, R.eiPFiltBin, R.eiPGlintCell, R.eiPFiltGlint],
    t.reg r n = s.reg r n) : t.copyBad n = s.copyBad n := by
  simp only [List.forall_mem_cons, List.not_mem_nil, false_implies, implies_true, and_true] at h
  obtain ⟨hw, hh, hbin, hcell, hglint⟩ := h
  simp only [State.copyBad, hw, hh, hbin, hcell, hglint]

theorem State.copyBad_setCmd (s : State) (n : Nat) : (s.setCmd R.eiPCtrlCommit n).copyBad n = s.copyBad n := by
  refine State.copyBad_congr fun r hr => (s.setCmd_elem_onlyRegs R.eiPCtrlCommit n (List.mem_singleton_self _)).2 r n 0 ?_
  simp only [List.mem_cons, List.not_mem_nil, or_false] at hr ⊢
  rcases hr with rfl | rfl | rfl | rfl | rfl
  all_goals
    simp only [Row.key, R.eiPCtrlCommit, R.eiPSizeWM1, R.eiPSizeHM1, R.eiPFiltBin, R.eiPGlintCell, R.eiPFiltGlint]
    omega

theorem exec_commit_eq (hn : n < s.member.ports) : exec (.commit n) s = .next ((s.setCmd R.eiPCtrlCommit n).setReg
    (if s.copyBad n then R.eiPStatusCfgErr else R.eiPStatusCommitPend) 1 n) := by
  show execCommit n s = _
  simp only [execCommit, if_neg (Nat.not_le.mpr hn), State.copyBad_setCmd]

/-- A COMMIT writes its command bit and the bit of STATUS that answers it. -/
theorem exec_commit_spec {r : Row} (hn : n < s.member.ports)
    (hr : (if s.copyBad n then R.eiPStatusCfgErr else R.eiPStatusCommitPend) = r) (hw : r.width = 1) :
    ∃ t, exec (.commit n) s = .next t ∧ t.reg r n = 1 ∧ s.onlyRegs t [r.key n 0, R.eiPCtrlCommit.key n 0] := by
  refine ⟨_, exec_commit_eq hn, ?_, ?_⟩
  · rw [hr, State.reg_setReg_self, hw]
    rfl
  · rw [hr]
    exact (s.setCmd_elem_onlyRegs R.eiPCtrlCommit n (by simp)).trans (State.onlyRegs_setReg (by simp))

/-! ## The application of a copy (R185, R187, R197) -/

/-- Beside its tables and windows port n has in t what it has in s, and nothing else changes but COMMIT_PEND and timers. -/
structure State.copyKept (n : Nat) (s t : State) : Prop where
  frame : t = { s with regs := t.regs, ei := { s.ei with ports := t.ei.ports }, timers := t.timers }
  applied : (t.port n).applied = (s.port n).applied
  hot : (t.port n).hot = (s.port n).hot
  bufs : (t.port n).bufs = (s.port n).bufs
  others : ∀ m, m ≠ n → t.port m = s.port m
  regs : s.regsBut t [R.eiPStatusCommitPend.key n 0]

theorem State.copyKept_refl (n : Nat) (s : State) : State.copyKept n s s := ⟨rfl, rfl, rfl, rfl, fun _ _ => rfl, s.regsBut_refl _⟩

/-- The tables of a port are not among what a copy sets. -/
theorem State.copyKept.modPort (h : State.copyKept n s t) {f : PortState → PortState} (happlied : ∀ p, (f p).applied = p.applied)
    (hhot : ∀ p, (f p).hot = p.hot) (hbufs : ∀ p, (f p).bufs = p.bufs) : State.copyKept n s (t.modPort n f) where
  frame := by
    unfold State.modPort State.modEi
    rw [h.frame]
  applied := (State.port_modPort_part (·.applied) (happlied _)).trans h.applied
  hot := (State.port_modPort_part (·.hot) (hhot _)).trans h.hot
  bufs := (State.port_modPort_part (·.bufs) (hbufs _)).trans h.bufs
  others m hm := (State.port_modPort_ne hm).trans (h.others m hm)
  regs := h.regs

theorem State.copyKept.modTimers (h : State.copyKept n s t) {f : List (Timer × Nat) → List (Timer × Nat)} :
    State.copyKept n s (t.modTimers f) where
  frame := by
    unfold State.modTimers
    rw [h.frame]
  applied := h.applied
  hot := h.hot
  bufs := h.bufs
  others := h.others
  regs := h.regs

theorem State.copyKept.setPend (h : State.copyKept n s t) {v : Nat} : State.copyKept n s (t.setReg R.eiPStatusCommitPend v n) where
  frame := by
    unfold State.setReg
    rw [h.frame]
  applied := h.applied
  hot := h.hot
  bufs := h.bufs
  others := h.others
  regs := h.regs.setReg (List.mem_singleton_self _)

theorem State.copyKept.ite {a b : State} {p : Prop} [Decidable p] (ha : State.copyKept n s a) (hb : State.copyKept n s b) :
    State.copyKept n s (if p then a else b) := by
  split
  · exact ha
  · exact hb

/-- The pending copy and hot list of port n are the ones in force. -/
def State.copySet (s : State) (n : Nat) : State :=
  s.modPort n fun p => { p with
    applied := s.pendingCopy n
    hot := (p.hotPend.filter fun h => bitAt h.2 31).map fun h => (bits h.2 11 0, bits h.2 27 16) }

theorem State.copySet_port (hn : n < s.ei.ports.length) : (s.copySet n).port n = { s.port n with
    applied := s.pendingCopy n
    hot := ((s.port n).hotPend.filter fun h => bitAt h.2 31).map fun h => (bits h.2 11 0, bits h.2 27 16) } := State.port_modPort_self hn

theorem State.copySet_frame (s : State) (n : Nat) :
    s.copySet n = { s with ei := { s.ei with ports := (s.copySet n).ei.ports } } := rfl

/-- Beside the settings an application writes tables, COMMIT_PEND and the timer of the glint windows. -/
theorem State.copyKept_applyCopy (s : State) (n : Nat) : State.copyKept n (s.copySet n) (s.applyCopy n) := by
  unfold State.applyCopy
  extract_lets old run copy u v w x
  have hu : State.copyKept n u u := State.copyKept_refl n u
  have hv : State.copyKept n u v := hu.ite (hu.modPort (fun _ => rfl) (fun _ => rfl) fun _ => rfl)
  have hw : State.copyKept n u w := hv.ite (hv.modPort (fun _ => rfl) (fun _ => rfl) fun _ => rfl)
  have hx : State.copyKept n u x := hw.setPend
  have hglint : State.copyKept n u (x.modPort n fun p => { p with glint := p.glint.map fun g => { g with on := 0, off := 0 } }) :=
    hx.modPort (fun _ => rfl) (fun _ => rfl) fun _ => rfl
  exact hx.modTimers.ite (hx.ite hglint.modTimers)

theorem State.reg_applyCopy (s : State) (n : Nat) : (s.applyCopy n).reg R.eiPStatusCommitPend n = 0 := by
  unfold State.applyCopy
  extract_lets old run copy u v w x
  have hx : x.reg R.eiPStatusCommitPend n = 0 := w.reg_setReg_self R.eiPStatusCommitPend 0 n 0
  clear_value x
  split
  · exact hx
  split
  · exact hx
  · exact hx

/-- The settings of the pending copy are in force, COMMIT_PEND reads 0, and the packets in the buffers stay. -/
theorem State.applyCopy_spec (hn : n < s.ei.ports.length) :
    ((s.applyCopy n).port n).applied = s.pendingCopy n ∧ (s.applyCopy n).reg R.eiPStatusCommitPend n = 0 ∧
    ((s.applyCopy n).port n).hot = ((s.port n).hotPend.filter fun h => bitAt h.2 31).map (fun h => (bits h.2 11 0, bits h.2 27 16)) ∧
    ((s.applyCopy n).port n).bufs = (s.port n).bufs ∧ (∀ m, m ≠ n → (s.applyCopy n).port m = s.port m) ∧
    s.applyCopy n = { s with regs := (s.applyCopy n).regs, ei := { s.ei with ports := (s.applyCopy n).ei.ports },
                             timers := (s.applyCopy n).timers } ∧
    s.regsBut (s.applyCopy n) [R.eiPStatusCommitPend.key n 0] := by
  obtain ⟨happly, happlied, hhot, hbufs, hothers, hregs⟩ := s.copyKept_applyCopy n
  have hport := State.copySet_port hn
  refine ⟨?_, s.reg_applyCopy n, ?_, ?_, fun m hm => (hothers m hm).trans (State.port_modPort_ne hm), ?_, hregs⟩
  · rw [happlied, hport]
  · rw [hhot, hport]
  · rw [hbufs, hport]
  · have hset := s.copySet_frame n
    generalize s.applyCopy n = t at happly ⊢
    generalize s.copySet n = u at hset happly
    rw [happly, hset]

theorem exec_commitApply_good (hpend : s.flag R.eiPStatusCommitPend n = true) (hok : s.copyBad n = false) :
    exec (.commitApply n) s = .next (s.applyCopy n) := by
  show execCommitApply n s = _
  simp [execCommitApply, hpend, hok]

/-! ## CNT_CLR and HOT_CLR (R202) -/

theorem countKey_inj {i j : Nat} (h : R.eiPCntCount.key n i = R.eiPCntCount.key n j) : i = j := by
  simp only [Row.key, R.eiPCntCount] at h
  omega

/-- The counters of a list are 0. -/
theorem State.reg_clearCounts (s : State) (n : Nat) (l : List Nat) (i : Nat) :
    (l.foldl (fun (s : State) i => s.setReg R.eiPCntCount 0 n i) s).reg R.eiPCntCount n i =
      if i ∈ l then 0 else s.reg R.eiPCntCount n i := by
  induction l generalizing s with
  | nil => rfl
  | cons j l ih =>
    refine (ih _).trans ?_
    by_cases hl : i ∈ l
    · simp [hl]
    · by_cases hj : i = j
      · subst hj
        rw [if_neg hl, if_pos (List.mem_cons_self ..)]
        exact s.reg_setReg_self R.eiPCntCount 0 n i
      · simpa [hl, hj] using s.reg_setReg_ne R.eiPCntCount _ 0 n j n i fun he => hj (countKey_inj he).symm

theorem exec_cntClr_eq (hn : n < s.member.ports) : exec (.cntClr n) s = .next ((List.range 15).foldl
    (fun (s : State) i => s.setReg R.eiPCntCount 0 n i) (s.setCmd R.eiPCtrlCntClr n)) := by
  show execCntClr n s = _
  simp only [execCntClr, if_neg (Nat.not_le.mpr hn)]

theorem exec_cntClr_spec (hn : n < s.member.ports) : ∃ t, exec (.cntClr n) s = .next t ∧
    (∀ i, i < 15 → t.reg R.eiPCntCount n i = 0) ∧
    s.onlyRegs t (R.eiPCtrlCntClr.key n 0 :: (List.range 15).map fun i => R.eiPCntCount.key n i) := by
  refine ⟨_, exec_cntClr_eq hn, fun i hi => ?_, ?_⟩
  · rw [State.reg_clearCounts, if_pos (List.mem_range.mpr hi)]
  · have hcount (i : Nat) (hi : i ∈ List.range 15) :
        R.eiPCntCount.key n i ∈ R.eiPCtrlCntClr.key n 0 :: (List.range 15).map fun i => R.eiPCntCount.key n i :=
      List.mem_cons_of_mem _ (List.mem_map_of_mem hi)
    refine (s.setCmd_elem_onlyRegs R.eiPCtrlCntClr n (List.mem_cons_self ..)).trans ?_
    exact State.onlyRegs_foldl (fun i hi _ => State.onlyRegs_setReg (hcount i hi)) _

theorem exec_hotClr_spec (hn : n < s.ei.ports.length) : ∃ t, exec (.hotClr n) s = .next t ∧
    t.port n = { s.port n with hotPend := [] } ∧ (∀ m, m ≠ n → t.port m = s.port m) ∧
    t = { s with regs := t.regs, ei := { s.ei with ports := t.ei.ports } } ∧ s.regsBut t [R.eiPCtrlHotClr.key n 0] := by
  generalize hu : (if s.member.ports ≤ n then s else s.setCmd R.eiPCtrlHotClr n) = u
  have hregs : s.onlyRegs u [R.eiPCtrlHotClr.key n 0] := by
    rw [← hu]
    split
    · exact s.onlyRegs_refl _
    · exact s.setCmd_elem_onlyRegs _ _ (List.mem_singleton_self _)
  obtain ⟨hframe, hbut⟩ := hregs
  have hei : u.ei = s.ei := by rw [hframe]
  have hport (m : Nat) : u.port m = s.port m := by
    unfold State.port
    rw [hei]
  refine ⟨u.modPort n fun p => { p with hotPend := [] }, hu ▸ rfl, ?_, fun m hm => ?_, ?_, hbut⟩
  · rw [State.port_modPort_self (by rw [hei]; exact hn), hport]
  · rw [State.port_modPort_ne hm, hport]
  · unfold State.modPort State.modEi
    rw [hframe]

/-! ## PORT_EN (R199, R207) -/

theorem exec_portEn_on (hn : n < s.member.ports) : exec (.portEn n true) s = .next
    (((if s.flag R.eiPCfgEn n then s else s.forgetMarks fun k => k.1 == 1 + n).setReg R.eiPCfgEn 1 n).modTm fun t =>
      { t with noStep := true }) := by
  show execPortEn n true s = _
  simp only [execPortEn, if_neg (Nat.not_le.mpr hn), if_true]

theorem exec_portEn_off (hn : n < s.member.ports) : exec (.portEn n false) s = .next (s.setReg R.eiPCfgEn 0 n) := by
  show execPortEn n false s = _
  simp only [execPortEn, if_neg (Nat.not_le.mpr hn), Bool.false_eq_true, if_false]

theorem exec_portEn_spec {on : Bool} (hn : n < s.member.ports) : ∃ t, exec (.portEn n on) s = .next t ∧ t.flag R.eiPCfgEn n = on ∧
    t = { s with regs := t.regs, pal := { s.pal with marks := t.pal.marks }, tm := t.tm } ∧
    t.tm = (if on then { s.tm with noStep := true } else s.tm) ∧ s.regsBut t [R.eiPCfgEn.key n 0] := by
  cases on with
  | false =>
    refine ⟨_, exec_portEn_off hn, ?_, rfl, rfl, (s.regsBut_refl _).setReg (List.mem_singleton_self _)⟩
    simp [State.flag, State.reg_setReg_self]
  | true =>
    generalize hu : (if s.flag R.eiPCfgEn n then s else s.forgetMarks fun k => k.1 == 1 + n) = u
    have hframe : u = { s with pal := { s.pal with marks := u.pal.marks } } := by
      rw [← hu]
      split <;> rfl
    have hregs : s.regsBut u [R.eiPCfgEn.key n 0] := fun r i j _ => by
      rw [hframe]
      rfl
    refine ⟨(u.setReg R.eiPCfgEn 1 n).modTm fun t => { t with noStep := true }, hu ▸ exec_portEn_on hn, ?_, ?_, ?_,
      hregs.setReg (List.mem_singleton_self _)⟩
    · exact decide_eq_true (u.reg_setReg_self R.eiPCfgEn 1 n 0)
    · unfold State.modTm State.setReg
      rw [hframe]
    · show { u.tm with noStep := true } = _
      rw [hframe]
      rfl

/-! ## Sweeps and windows (R185, R187) -/

/-- A change of the tables of port n alone. -/
theorem State.modPort_spec {f : PortState → PortState} (hn : n < s.ei.ports.length) : (s.modPort n f).port n = f (s.port n) ∧
    (∀ m, m ≠ n → (s.modPort n f).port m = s.port m) ∧
    s.modPort n f = { s with ei := { s.ei with ports := (s.modPort n f).ei.ports } } :=
  ⟨State.port_modPort_self hn, fun _ hm => State.port_modPort_ne hm, rfl⟩

theorem exec_glintWindowEnd_due (hdue : s.due (.glintWin n) = true) : exec (.glintWindowEnd n) s = .next
    ((s.modPort n fun p => { p with glint := (s.glintCells n).map (glintNext (s.setting n R.eiPGlintThresh) (s.setting n R.eiPGlint2Bal)
      (s.devtime + 1000 * s.setting n R.eiPGlint2Hold)) }).arm (.glintWin n) (1000 * max 1 (s.setting n R.eiPGlintWin))) := by
  have hset : (s.modPort n fun p => { p with glint := (s.glintCells n).map (glintNext (s.setting n R.eiPGlintThresh)
      (s.setting n R.eiPGlint2Bal) (s.devtime + 1000 * s.setting n R.eiPGlint2Hold)) }).setting n R.eiPGlintWin =
      s.setting n R.eiPGlintWin := by
    unfold State.setting
    rw [State.port_modPort_part (·.applied) rfl]
  show execGlintWindowEnd n s = _
  simp only [execGlintWindowEnd, hdue, if_true, hset]

theorem exec_glintWindowEnd_spec (hn : n < s.ei.ports.length) (hdue : s.due (.glintWin n) = true) :
    ∃ t, exec (.glintWindowEnd n) s = .next t ∧
    (t.port n).glint = (s.glintCells n).map (glintNext (s.setting n R.eiPGlintThresh) (s.setting n R.eiPGlint2Bal)
      (s.devtime + 1000 * s.setting n R.eiPGlint2Hold)) ∧
    alGet t.timers (.glintWin n) = some (s.devtime + 1000 * max 1 (s.setting n R.eiPGlintWin)) ∧
    (∀ m, m ≠ n → t.port m = s.port m) ∧ t = { s with ei := { s.ei with ports := t.ei.ports }, timers := t.timers } :=
  ⟨_, exec_glintWindowEnd_due hdue, congrArg PortState.glint (State.port_modPort_self hn), alGet_alPut_self _ _ _,
    fun _ hm => State.port_modPort_ne hm, rfl⟩

/-- A cell whose HOLD has passed glints no more. -/
theorem exec_glintHoldExpire_spec (hn : n < s.ei.ports.length) : ∃ t, exec (.glintHoldExpire n) s = .next t ∧
    (∀ g ∈ (t.port n).glint, g.glinting = true → s.devtime < g.until_) ∧
    (t.port n).glint.length = (s.port n).glint.length ∧ (∀ m, m ≠ n → t.port m = s.port m) ∧
    t = { s with ei := { s.ei with ports := t.ei.ports } } := by
  refine ⟨_, rfl, fun g hg hglint => ?_, ?_, fun m hm => State.port_modPort_ne hm, rfl⟩
  · rw [State.port_modPort_self hn] at hg
    obtain ⟨x, -, rfl⟩ := List.mem_map.mp hg
    split at hglint
    · exact absurd hglint Bool.false_ne_true
    · next hx =>
      rw [if_neg hx]
      exact Nat.lt_of_not_le fun hle => hx ⟨hglint, hle⟩
  · rw [State.port_modPort_self hn, List.length_map]

/-- A cell begins to glint where its events are many and their polarities balanced. -/
theorem glinting_glintNext {thresh bal til : Nat} {g : GlintCell} (h : g.glinting = false) :
    (glintNext thresh bal til g).glinting = true ↔
      thresh ≤ g.on + g.off ∧ 256 * (max g.on g.off - min g.on g.off) ≤ bal * (g.on + g.off) := by
  simp [glintNext, h]

end

/-- Settles O33: an AER word is sampled, withheld or lost, and each command of a port writes the part of the port that it names. -/
theorem aerAndPortCommands : Obligations.AerAndPortCommands := by
  refine ⟨⟨fun w p s hopen hack hwait hbits hp hroom => exec_aerRequest_joins hopen hack hwait hbits hp hroom,
      fun w s hopen hack hwait hbits hp hfree hroom => exec_aerRequest_opens hopen hack hwait hbits hp hfree hroom,
      fun w s hopen hack hwait hbits => ?_, fun w s hopen hack hwait hbits hspace => ?_, fun s hwait hdue => ?_,
      fun s hack => exec_aerReqFall_high hack,
      fun p s hdue hp hlen => ⟨_, exec_pseudoPacketTimeout_due hdue, State.aerClose_spec hp hlen⟩,
      fun s hdue => exec_pseudoPacketTimeout_notDue hdue⟩,
    fun n s hn hok => exec_commit_spec hn (by rw [hok]; rfl) rfl, fun n s hn hbad => exec_commit_spec hn (by rw [hbad]; rfl) rfl,
    fun n s hpend hok hn => ⟨_, exec_commitApply_good hpend hok, State.applyCopy_spec hn⟩, fun n s hn => exec_cntClr_spec hn,
    fun n s hn => exec_hotClr_spec hn, fun n on s hn => exec_portEn_spec hn, fun n now s hn hnow => ?_,
    fun n s hn hdue => exec_glintWindowEnd_spec hn hdue, fun n s hn => exec_glintHoldExpire_spec hn,
    fun thresh bal til g h => glinting_glintNext h⟩
  · refine ⟨_, exec_aerRequest_sampled hopen hack hwait (.inr hbits), ?_⟩
    rw [State.aerSample_badFormat hbits]
    exact ⟨rfl, s.aerAcked.reg_countPort 3 11 1, rfl, (s.aerAcked.countPort_onlyRegs 3 11 1).2⟩
  · exact ⟨_, exec_aerRequest_withheld hopen hack hwait hbits hspace, rfl, alGet_alPut_self _ _ _⟩
  · exact ⟨_, exec_aerHoldExpire_due hwait hdue, rfl, rfl, s.armed_disarm .aerHold, rfl⟩
  · subst hnow
    exact ⟨_, rfl, State.modPort_spec hn⟩

end Sys2Proof.Machine
end

section
/-! A step on an empty queue, and the read of DEVTIME (R203, R222). -/
namespace Sys2Proof.Machine

section
variable {s : State}

/-- Beside the fall of CAM_SYNC, which stops its timer, nothing follows a crystal cycle (R213). -/
theorem State.camSyncFalls_frame (s : State) :
    s.camSyncFalls = { s with timers := s.camSyncFalls.timers, pins := s.camSyncFalls.pins } := by
  unfold State.camSyncFalls
  split <;> rfl

theorem step_of_empty (h : s.pending = []) : step s = .next s.crystalCycle := by
  unfold step
  rw [h]

theorem State.crystalCycle_of_stopped (h : s.clockRuns = false) : s.crystalCycle = s := by
  simp [State.crystalCycle, h]

theorem State.crystalCycle_frame (h : s.clockRuns = true) : s.crystalCycle = { s with
    devtime := (s.devtime + (s.frac + s.increment) / 2 ^ 32) % 2 ^ 64, frac := (s.frac + s.increment) % 2 ^ 32,
    timers := s.crystalCycle.timers, pins := s.crystalCycle.pins,
    tm := { s.tm with corrSum := s.tm.corrSum + s.corr, corrN := s.tm.corrN + 1 } } := by
  unfold State.crystalCycle
  rw [if_pos h]
  exact State.camSyncFalls_frame _

/-- DEVTIME and its fraction are one number in units of 2^-32 ns, which grows modulo 2^96. -/
theorem devtime_add (d f n : Nat) :
    (d + (f + n) / 2 ^ 32) % 2 ^ 64 * 2 ^ 32 + (f + n) % 2 ^ 32 = (d * 2 ^ 32 + f + n) % 2 ^ 96 := by
  omega

/-- With CORR 0 the increment is INC, which is a whole number of units of 2^-32 ns. -/
theorem State.increment_of_corr_zero (h : s.corr = 0) : s.increment = 26 * 2 ^ 32 + 0x0AAAAAAB := by
  unfold State.increment
  rw [h]
  simp

/-- The read of TM_DEVTIME_LO latches the upper word. -/
theorem exec_devtimeRead (s : State) : exec .devtimeRead s = .next s.devtimeLatched := rfl

theorem State.reg_devtimeLatched (h : s.devtime < 2 ^ 64) : s.devtimeLatched.reg R.tmDevtimeHiNs = s.devtime / 2 ^ 32 := by
  refine (State.reg_setReg_self _ _ _ _ _).trans (Nat.mod_eq_of_lt ?_)
  show s.devtime / 2 ^ 32 < 2 ^ 32
  omega

end

/-- Settles O2: with the clock running the step is one addition to DEVTIME with its fraction; without it the step is none. -/
theorem emptyQueueStepIsACrystalCycle : Obligations.EmptyQueueStepIsACrystalCycle := by
  refine ⟨fun s hq hclock => ?_, fun s hq hclock _ _ => ⟨_, step_of_empty hq, ?_⟩, fun s h => State.increment_of_corr_zero h⟩
  · rw [step_of_empty hq, State.crystalCycle_of_stopped hclock]
  · rw [State.crystalCycle_frame hclock]
    exact ⟨rfl, Nat.mod_lt _ (by decide), devtime_add _ _ _⟩

/-- Settles O7: the views of the two words are the low half of DEVTIME and its latched upper half. -/
theorem devtimeReadLatchesTheUpperWord : Obligations.DevtimeReadLatchesTheUpperWord := by
  intro s h
  refine ⟨_, exec_devtimeRead s, State.reg_devtimeLatched h, ?_, State.onlyRegs_setReg (List.mem_singleton_self _)⟩
  have hlo : s.devtimeLatched.view R.tmDevtimeLoNs 0 0 = s.devtime % 2 ^ 32 := rfl
  have hhi : s.devtimeLatched.view R.tmDevtimeHiNs 0 0 = s.devtime / 2 ^ 32 := State.reg_devtimeLatched h
  rw [hlo, hhi]
  exact Nat.mod_add_div _ _

end Sys2Proof.Machine
end

section
/-! What a raise leaves alone (R466 to R472): the parts of the state that no quiesce stops, and every field beside CAUSE and those of the
fault stack. -/
namespace Sys2Proof.Machine

/-- The states differ at most in the parts that a raise and the quiesce behind it write. -/
def State.onlyFaulted (s t : State) : Prop :=
  t = { s with regs := t.regs, pins := t.pins, timers := t.timers, pp := t.pp, mesh := t.mesh, pal := t.pal, ei := t.ei, xr := t.xr,
               fu := t.fu, rd := t.rd, sl := t.sl, hi := t.hi, lg := t.lg, freeCtr := t.freeCtr }

section
variable {s t u : State}

theorem State.onlyFaulted.trans (h : s.onlyFaulted t) (h' : t.onlyFaulted u) : s.onlyFaulted u := by
  unfold State.onlyFaulted at *
  rw [h', h]

theorem State.onlyPushed.faulted (h : s.onlyPushed t) : s.onlyFaulted t := by
  unfold State.onlyPushed at h
  rw [h]
  rfl

theorem State.onlyPushed.reportAll (h : s.onlyPushed t) {l : List ItemId} {a b c : Nat} : s.onlyPushed (t.reportAll l a b c) :=
  foldlKeeps (P := s.onlyPushed) (fun _ _ hx => hx.report) l h

theorem State.onlyPushed.quiesceReports (h : s.onlyPushed t) {a b : Nat} : s.onlyPushed (t.quiesceReports a b) :=
  foldlKeeps (P := s.onlyPushed) (fun _ _ hx => hx.report) _
    h.reportAll.reportAll.reportAll.reportAll.reportAll.reportAll.reportAll.reportAll.reportAll

theorem State.onlyPushed.startSentence (h : s.onlyPushed t) : s.onlyPushed t.startSentence := by
  refine h.ite ?_
  split
  · exact h
  · exact h.modHi.modTimers

theorem State.onlyPushed.queueSentence (h : s.onlyPushed t) {kind : Nat} {body : List Byte} {cmd : Option Fetched} :
    s.onlyPushed (t.queueSentence kind body cmd).2 := by
  unfold State.queueSentence
  extract_lets e u
  split
  · exact h
  split
  · exact h.modHi.startSentence
  have hu : s.onlyPushed u := h.bump
  split
  · exact mkSnd (P := s.onlyPushed) hu.modHi
  · exact hu

theorem State.onlyPushed.takeFault (h : s.onlyPushed t) : s.onlyPushed t.takeFault := by
  unfold State.takeFault
  split
  · exact h
  · exact h.modLg
  · exact State.onlyPushed.ite h.modLg.bump h

theorem State.onlyPushed.alarm (h : s.onlyPushed t) {k : String} {v : Nat} : s.onlyPushed (t.alarm k v) := by
  have hcount (n : Nat) : s.onlyPushed (t.setReg R.hiAlarmNn n) := h.setReg
  exact (hcount _).queueSentence

theorem State.onlyPushed.setFaultN (h : s.onlyPushed t) {b : Bool} : s.onlyPushed (t.setFaultN b) :=
  State.onlyPushed.setReg h.modPins

/-! ## The quiesce (R471) -/

theorem State.onlyFaulted.setReg (h : s.onlyFaulted t) {r : Row} {v i j : Nat} : s.onlyFaulted (t.setReg r v i j) := h.trans rfl
theorem State.onlyFaulted.modTimers (h : s.onlyFaulted t) {f} : s.onlyFaulted (t.modTimers f) := h.trans rfl
theorem State.onlyFaulted.modPal (h : s.onlyFaulted t) {f} : s.onlyFaulted (t.modPal f) := h.trans rfl
theorem State.onlyFaulted.modEi (h : s.onlyFaulted t) {f} : s.onlyFaulted (t.modEi f) := h.trans rfl
theorem State.onlyFaulted.modPp (h : s.onlyFaulted t) {f} : s.onlyFaulted (t.modPp f) := h.trans rfl
theorem State.onlyFaulted.modXr (h : s.onlyFaulted t) {f} : s.onlyFaulted (t.modXr f) := h.trans rfl
theorem State.onlyFaulted.modFu (h : s.onlyFaulted t) {f} : s.onlyFaulted (t.modFu f) := h.trans rfl
theorem State.onlyFaulted.modRd (h : s.onlyFaulted t) {f} : s.onlyFaulted (t.modRd f) := h.trans rfl
theorem State.onlyFaulted.modSl (h : s.onlyFaulted t) {f} : s.onlyFaulted (t.modSl f) := h.trans rfl
theorem State.onlyFaulted.modHi (h : s.onlyFaulted t) {f} : s.onlyFaulted (t.modHi f) := h.trans rfl
theorem State.onlyFaulted.modMesh (h : s.onlyFaulted t) {f} : s.onlyFaulted (t.modMesh f) := h.trans rfl

theorem State.onlyFaulted.stopWork (h : s.onlyFaulted t) : s.onlyFaulted t.stopWork := by
  unfold State.stopWork
  extract_lets a b c d e f g k l m n o p
  have ha : s.onlyFaulted a := h.trans (t.onlyPushed_refl.modPal.refreshXoff.faulted)
  have hf : s.onlyFaulted f := ha.modPal.modEi.modPp.modXr.modFu.modTimers
  have hg : s.onlyFaulted g := foldlKeeps (P := s.onlyFaulted) (fun _ _ hx => hx.setReg) _ hf
  have hl : s.onlyFaulted l := hg.modRd.setReg.setReg
  have ho : s.onlyFaulted o := hl.modSl.modHi.modMesh.setReg
  have hp : s.onlyFaulted p := ho.setReg
  exact hp.setReg

theorem State.onlyFaulted_quiesce (s : State) (c a b : Nat) : s.onlyFaulted (s.quiesce c a b) := by
  unfold State.quiesce
  split
  · exact s.onlyPushed_refl.faulted
  · have hcause : s.onlyPushed ((s.setReg R.lgStatusCause c).setReg R.lgStatusQuiescing 1) := s.onlyPushed_refl.setReg.setReg
    exact hcause.setFaultN.alarm.quiesceReports.faulted.stopWork.modTimers

/-! ## A raise (R466, R469) -/

theorem State.onlyPushed_countRaise (s : State) : s.onlyPushed s.countRaise :=
  State.onlyPushed.ite s.onlyPushed_refl.modLg.bump s.onlyPushed_refl.modLg

theorem State.regsOutside_countRaise (s : State) : s.regsOutside faultKey s.countRaise := by
  unfold State.countRaise
  dsimp only
  split
  · exact ((s.regsOutside_refl faultKey).modLg).faultReg (by decide)
  · exact (s.regsOutside_refl faultKey).modLg

/-- The one thing that a raise does beside the fault stack is to begin a storm. -/
theorem State.raise_pushed_or_storm (s : State) (off bit sev block : Nat) :
    ∃ u, s.onlyPushed u ∧ s.regsOutside faultKey u ∧ (s.raise off bit sev block = u ∨ s.raise off bit sev block = u.storm) := by
  have hp : s.onlyPushed s.countRaise := s.onlyPushed_countRaise
  have hr : s.regsOutside faultKey s.countRaise := s.regsOutside_countRaise
  obtain ⟨hrepeat, hnone⟩ := s.raise_spec off bit sev block
  cases hfind : s.lg.faults.find? fun e => e.off == off && e.bit == bit with
  | some e =>
    refine ⟨(s.countRaise.repeatFault e.slot).vector 3, hp.modLg.vector, hr.modLg.vector, ?_⟩
    rw [hrepeat e hfind]
    split
    · exact .inr rfl
    · exact .inl rfl
  | none =>
    obtain ⟨hmany, hfew⟩ := hnone hfind
    cases hm : s.manyRaises with
    | true => exact ⟨s.countRaise, hp, hr, .inr (hmany hm)⟩
    | false =>
      obtain ⟨hfull, hnew⟩ := hfew hm
      cases hk : s.freeFaultSlot with
      | none => exact ⟨s.countRaise, hp, hr, .inr (hfull hk)⟩
      | some k => exact ⟨_, hp.modLg.vector.takeFault, hr.modLg.vector.takeFault, .inl (hnew k hk)⟩

theorem State.onlyFaulted_raise (s : State) (off bit sev block : Nat) : s.onlyFaulted (s.raise off bit sev block) := by
  obtain ⟨u, hu, -, heq | heq⟩ := s.raise_pushed_or_storm off bit sev block
  · exact heq ▸ hu.faulted
  · have hcount : s.onlyPushed (u.bump R.lgCntCount 6) := hu.bump
    exact heq ▸ hcount.faulted.trans (State.onlyFaulted_quiesce _ _ _ _)

/-- The fields that a raise and the quiesce behind it write: those of the fault stack, and CAUSE. -/
def raiseKey (k : Nat) : Prop := k = R.lgStatusCause.key 0 0 ∨ faultKey k

theorem State.regsOutside_quiesce (s : State) (c a b : Nat) : s.regsOutside raiseKey (s.quiesce c a b) := fun r i j hk => by
  cases hq : s.quiesced with
  | true => rw [State.quiesce_of_quiesced hq]
  | false =>
    exact (State.quiesce_regsOutside hq r i j fun h => hk (.inr h)).trans
      (s.reg_setReg_ne _ _ _ _ _ _ _ fun he => hk (.inl he.symm))

theorem State.regsOutside_raise (s : State) (off bit sev block : Nat) : s.regsOutside raiseKey (s.raise off bit sev block) := by
  obtain ⟨u, -, hu, heq | heq⟩ := s.raise_pushed_or_storm off bit sev block
  · exact heq ▸ hu.mono fun _ hk => .inr hk
  · have hcount : s.regsOutside faultKey (u.bump R.lgCntCount 6) := hu.faultReg (by decide)
    exact heq ▸ fun r i j hk => (State.regsOutside_quiesce _ _ _ _ r i j hk).trans (hcount r i j fun h => hk (.inr h))

end

end Sys2Proof.Machine
end

section
/-! What the handling of the time references leaves alone (R204 to R211, R220, R221): beside a few fields of TM_STATUS, the counts of
switches and what a raise writes, no field changes; and the measurement of REF_IN stays. -/
namespace Sys2Proof.Machine

/-- The fields that a qualification, a loss, a switch or its end can write beside what a raise writes. -/
def sourceKeys : List Nat :=
  [R.tmStatusSwitch.key 0 0, R.tmStatusTarget.key 0 0, R.tmStatusPpsQ.key 0 0, R.tmStatusAligned.key 0 0, R.tmSwitchesCancels.key 0 0]

def sourceKey (k : Nat) : Prop := k ∈ sourceKeys ∨ raiseKey k

theorem not_sourceKey {k : Nat} (h : k ∉ sourceKeys) (hcause : k ≠ R.lgStatusCause.key 0 0) (hfault : k ∉ faultKeys) (h5 : k % 8 ≠ 5) :
    ¬ sourceKey k := fun hk => hk.elim h fun hk => hk.elim hcause (not_faultKey hfault h5)

/-- In t every field but these, the measurement of REF_IN and the timer of PPS_IN stand as in s. -/
structure State.sourcesKept (s t : State) : Prop where
  regs : s.regsOutside sourceKey t
  refWindows : t.tm.refWindows = s.tm.refWindows
  refPpb : t.tm.refPpb = s.tm.refPpb

section
variable {s t : State}

theorem State.sourcesKept_refl (s : State) : s.sourcesKept s := ⟨s.regsOutside_refl _, rfl, rfl⟩

theorem State.sourcesKept.reg (h : s.sourcesKept t) (r : Row) (i j : Nat) (h1 : r.key i j ∉ sourceKeys)
    (h2 : r.key i j ≠ R.lgStatusCause.key 0 0) (h3 : r.key i j ∉ faultKeys) (h4 : r.key i j % 8 ≠ 5) : t.reg r i j = s.reg r i j :=
  h.regs r i j (not_sourceKey h1 h2 h3 h4)

theorem State.sourcesKept.same {u : State} (h : s.sourcesKept t) (hregs : u.regs = t.regs)
    (hw : u.tm.refWindows = t.tm.refWindows) (hp : u.tm.refPpb = t.tm.refPpb) : s.sourcesKept u :=
  ⟨h.regs.of_regs hregs, hw.trans h.refWindows, hp.trans h.refPpb⟩

theorem State.sourcesKept.modTimers (h : s.sourcesKept t) {f} : s.sourcesKept (t.modTimers f) := h.same rfl rfl rfl

theorem State.sourcesKept.setReg (h : s.sourcesKept t) {r : Row} {v i j : Nat} (hr : r.key i j ∈ sourceKeys) :
    s.sourcesKept (t.setReg r v i j) := ⟨h.regs.setReg (.inl hr), h.refWindows, h.refPpb⟩

theorem State.sourcesKept.ite {a b : State} {p : Prop} [Decidable p] (ha : s.sourcesKept a) (hb : s.sourcesKept b) :
    s.sourcesKept (if p then a else b) := by
  split
  · exact ha
  · exact hb

theorem State.sourcesKept.raise (h : s.sourcesKept t) {off bit sev block : Nat} : s.sourcesKept (t.raise off bit sev block) := by
  have htm : (t.raise off bit sev block).tm = t.tm := by
    have hframe := t.onlyFaulted_raise off bit sev block
    unfold State.onlyFaulted at hframe
    rw [hframe]
  exact ⟨fun r i j hk => (t.regsOutside_raise off bit sev block r i j fun hr => hk (.inr hr)).trans (h.regs r i j hk),
    htm ▸ h.refWindows, htm ▸ h.refPpb⟩

/-! ## CORR (R203, R206) -/

theorem State.sourcesKept.setFreq (h : s.sourcesKept t) {ppb : Int} : s.sourcesKept (t.setFreq ppb) := h.same rfl rfl rfl

theorem State.sourcesKept.setPhase (h : s.sourcesKept t) {err : Int} : s.sourcesKept (t.setPhase err) := h.same rfl rfl rfl

theorem State.sourcesKept.followSource (h : s.sourcesKept t) : s.sourcesKept t.followSource :=
  State.sourcesKept.ite (h.same rfl rfl rfl) h

/-! ## Switches (R208 to R210, R220, R221) -/

theorem State.sourcesKept.announceTo (h : s.sourcesKept t) {down : Bool} {q : Nat} : s.sourcesKept (t.announceTo down q) := by
  unfold State.announceTo
  extract_lets f p u v
  have hu : s.sourcesKept u := h.same rfl rfl rfl
  have hv : s.sourcesKept v := State.sourcesKept.setReg (hu.setReg (by decide)) (by decide)
  exact hv.modTimers.modTimers.modTimers

theorem State.sourcesKept.noteApplied (h : s.sourcesKept t) : s.sourcesKept t.noteApplied := by
  unfold State.noteApplied
  split
  · exact h
  · exact h.same rfl rfl rfl

theorem State.sourcesKept.slewWith (h : s.sourcesKept t) {err : Int} : s.sourcesKept (t.slewWith err) := by
  unfold State.slewWith
  split
  · exact h
  · extract_lets u
    have hu : s.sourcesKept u := State.sourcesKept.ite h.setPhase (h.same rfl rfl rfl)
    exact hu.modTimers

theorem State.sourcesKept.reverseSwitch (h : s.sourcesKept t) : s.sourcesKept t.reverseSwitch := by
  unfold State.reverseSwitch
  dsimp only
  split
  · exact h.noteApplied
  · next w _ =>
    have hslew : s.sourcesKept (((t.noteApplied.setFreq w.corr0).setPhase w.applied).setReg R.tmStatusSwitch 3) :=
      h.noteApplied.setFreq.setPhase.setReg (by decide)
    exact hslew.modTimers.modTimers.modTimers

theorem State.sourcesKept.countCancel (h : s.sourcesKept t) : s.sourcesKept t.countCancel :=
  State.sourcesKept.raise (h.setReg (by decide))

theorem State.sourcesKept.reviewSources (h : s.sourcesKept t) : s.sourcesKept t.reviewSources := by
  unfold State.reviewSources
  split
  · exact State.sourcesKept.ite h h.announceTo
  · exact h.ite (State.sourcesKept.ite (h.reverseSwitch.ite (h.ite h.countCancel.announceTo))
      (h.countCancel.announceTo.ite (h.ite h.reverseSwitch)))

/-! ## PPS_IN (R205 to R207, R220) -/

theorem State.sourcesKept.ppsLost (h : s.sourcesKept t) : s.sourcesKept t.ppsLost := by
  have hfresh : s.sourcesKept (t.modTm fun x => { x with ppsGood := 0, ppsRates := [] }) := h.same rfl rfl rfl
  exact State.sourcesKept.ite (State.sourcesKept.setReg hfresh (by decide)).raise.reviewSources hfresh

theorem State.sourcesKept.stepDevtime (h : s.sourcesKept t) {n : Nat} : s.sourcesKept (t.stepDevtime n) :=
  h.same rfl rfl rfl

theorem State.sourcesKept.ppsQualifies (h : s.sourcesKept t) {err : Int} : s.sourcesKept (t.ppsQualifies err) := by
  unfold State.ppsQualifies
  extract_lets step n u
  have hstep : s.sourcesKept ((t.stepDevtime n).setReg R.tmStatusAligned 1) := h.stepDevtime.setReg (by decide)
  have hu : s.sourcesKept u := State.sourcesKept.ite (hstep.same rfl rfl rfl) h
  have hqual : s.sourcesKept (u.setReg R.tmStatusPpsQ 1) := hu.setReg (by decide)
  exact State.sourcesKept.reviewSources (hqual.same rfl rfl rfl)

theorem State.sourcesKept.ppsPhase (h : s.sourcesKept t) {err : Int} : s.sourcesKept (t.ppsPhase err) := by
  unfold State.ppsPhase
  split
  · exact h.setPhase.ite h
  · exact h.noteApplied.slewWith.ite h

end
end Sys2Proof.Machine
end

section
/-! REF_IN and PPS_IN: windows, edges, qualification and loss (R204 to R207, R220, R224). -/
namespace Sys2Proof.Machine

section
variable {s : State} {ppb : Int} {highOk : Bool}

theorem State.regsBut.of_regs {s t u : State} {ks : List Nat} (h : s.regsBut t ks) (he : u.regs = t.regs) : s.regsBut u ks :=
  fun r i j hk => (show u.reg r i j = t.reg r i j by unfold State.reg; rw [he]).trans (h r i j hk)

/-- Outside a switch a source that stays qualified stays active (R208). -/
theorem State.reviewSources_of_ok (hsw : s.tm.sw = none) (hok : s.sourceOk (s.reg R.tmStatusSource) = true) : s.reviewSources = s := by
  unfold State.reviewSources
  rw [hsw]
  exact if_pos hok

/-- Outside a switch a review in FREE changes nothing. -/
theorem State.reviewSources_of_free (hsw : s.tm.sw = none) (hfree : s.reg R.tmStatusSource = 0) : s.reviewSources = s :=
  State.reviewSources_of_ok hsw (by rw [hfree]; rfl)

/-! ## REF_IN (R205) -/

/-- A good window counts, and its measurement is kept. -/
def State.windowCounted (s : State) (ppb : Int) : State :=
  s.modTm fun t => { t with refWindows := min (s.tm.refWindows + 1) 100, refPpb := ppb }

/-- The hundredth good window in a row has been counted. -/
def State.refQualified (s : State) (ppb : Int) : State :=
  ((s.windowCounted ppb).setReg R.tmStatusRefQ 1).modTm fun t => { t with refQualAt := s.devtime }

theorem State.reg_refQualified (s : State) (ppb : Int) : (s.refQualified ppb).reg R.tmStatusRefQ = 1 :=
  (s.windowCounted ppb).reg_setReg_self R.tmStatusRefQ 1 0 0

theorem State.regsBut_refQualified (s : State) (ppb : Int) : s.regsBut (s.refQualified ppb) [R.tmStatusRefQ.key 0 0] :=
  ((s.regsBut_refl _).setReg (r := R.tmStatusRefQ) (v := 1) (List.mem_singleton_self _)).of_regs rfl

/-- What a good window leaves before the active source follows it. -/
def State.windowTaken (s : State) (ppb : Int) : State :=
  if 100 ≤ s.tm.refWindows + 1 ∧ s.flag R.tmStatusRefQ = false then (s.refQualified ppb).reviewSources else s.windowCounted ppb

theorem exec_refWindow_good (hclock : s.clockRuns = true) (hppb : ppb.natAbs ≤ 100000) : exec (.refWindow ppb) s = .next
    (if (s.windowTaken ppb).reg R.tmStatusSource = 2 ∨ (s.windowTaken ppb).reg R.tmStatusSource = 4 then (s.windowTaken ppb).followSource
     else s.windowTaken ppb) := by
  show execRefWindow ppb s = _
  unfold execRefWindow
  rw [hclock, if_neg (by simp), if_neg (by omega)]
  rfl

theorem exec_refWindow_bad (hclock : s.clockRuns = true) (hppb : 100000 < ppb.natAbs) : exec (.refWindow ppb) s = .next s.refLost := by
  show execRefWindow ppb s = _
  unfold execRefWindow
  rw [hclock, if_neg (by simp), if_pos hppb]

theorem exec_refEdgeLoss (hclock : s.clockRuns = true) : exec .refEdgeLoss s = .next s.refLost := by
  show execRefEdgeLoss s = _
  unfold execRefEdgeLoss
  rw [if_pos hclock]

theorem State.windowTaken_of_counting (h : s.tm.refWindows < 99 ∨ s.flag R.tmStatusRefQ = true) :
    s.windowTaken ppb = s.windowCounted ppb := by
  refine if_neg ?_
  rcases h with h | h
  · omega
  · simp [h]

theorem State.windowTaken_of_hundredth (h : 99 ≤ s.tm.refWindows) (hq : s.flag R.tmStatusRefQ = false) :
    s.windowTaken ppb = (s.refQualified ppb).reviewSources := if_pos ⟨by omega, hq⟩

theorem exec_refWindow_spec (hclock : s.clockRuns = true) (hppb : ppb.natAbs ≤ 100000) : ∃ t, exec (.refWindow ppb) s = .next t ∧
    t.tm.refPpb = ppb ∧ t.tm.refWindows = min (s.tm.refWindows + 1) 100 ∧ (100 ≤ s.tm.refWindows + 1 → t.reg R.tmStatusRefQ = 1) := by
  have hfollow (u : State) (h : u.sourcesKept (s.windowTaken ppb)) : u.sourcesKept
      (if (s.windowTaken ppb).reg R.tmStatusSource = 2 ∨ (s.windowTaken ppb).reg R.tmStatusSource = 4 then (s.windowTaken ppb).followSource
       else s.windowTaken ppb) := h.followSource.ite h
  refine ⟨_, exec_refWindow_good hclock hppb, ?_⟩
  by_cases hq : 99 ≤ s.tm.refWindows ∧ s.flag R.tmStatusRefQ = false
  · have hkept := hfollow (s.refQualified ppb)
      (State.windowTaken_of_hundredth (ppb := ppb) hq.1 hq.2 ▸ (State.sourcesKept_refl _).reviewSources)
    refine ⟨hkept.refPpb, hkept.refWindows, fun _ => (hkept.reg R.tmStatusRefQ 0 0 ?_ ?_ ?_ ?_).trans (s.reg_refQualified ppb)⟩ <;>
      decide
  · have hcounting : s.tm.refWindows < 99 ∨ s.flag R.tmStatusRefQ = true := by
      rcases Nat.lt_or_ge s.tm.refWindows 99 with h | h
      · exact .inl h
      · exact .inr (by simpa [h] using hq)
    have hkept := hfollow (s.windowCounted ppb) (State.windowTaken_of_counting (ppb := ppb) hcounting ▸ State.sourcesKept_refl _)
    refine ⟨hkept.refPpb, hkept.refWindows, fun h => (hkept.reg R.tmStatusRefQ 0 0 ?_ ?_ ?_ ?_).trans ?_⟩
    · decide
    · decide
    · decide
    · decide
    · have hset : s.flag R.tmStatusRefQ = true := hcounting.resolve_left (by omega)
      exact of_decide_eq_true hset

theorem exec_refWindow_counts (hclock : s.clockRuns = true) (hppb : ppb.natAbs ≤ 100000)
    (h : s.tm.refWindows < 99 ∨ s.flag R.tmStatusRefQ = true) (h2 : s.reg R.tmStatusSource ≠ 2) (h4 : s.reg R.tmStatusSource ≠ 4) :
    exec (.refWindow ppb) s = .next (s.windowCounted ppb) := by
  rw [exec_refWindow_good hclock hppb, State.windowTaken_of_counting h]
  exact congrArg _ (if_neg (not_or.mpr ⟨h2, h4⟩))

theorem exec_refWindow_qualifies (hclock : s.clockRuns = true) (hppb : ppb.natAbs ≤ 100000) (h : 99 ≤ s.tm.refWindows)
    (hq : s.flag R.tmStatusRefQ = false) (hfree : s.reg R.tmStatusSource = 0) (hsw : s.tm.sw = none) :
    exec (.refWindow ppb) s = .next (s.refQualified ppb) := by
  have hsource : (s.refQualified ppb).reg R.tmStatusSource = 0 := (s.regsBut_refQualified ppb _ _ _ (by decide)).trans hfree
  have htaken : s.windowTaken ppb = s.refQualified ppb :=
    (State.windowTaken_of_hundredth h hq).trans (State.reviewSources_of_free hsw hsource)
  rw [exec_refWindow_good hclock hppb, htaken, hsource]
  rfl

/-- REF_IN that is not qualified loses its count alone. -/
theorem State.refLost_of_unqualified (h : s.flag R.tmStatusRefQ = false) :
    s.refLost = { s with tm := { s.tm with refWindows := 0 } } := by
  show (if s.flag R.tmStatusRefQ = true then _ else _) = _
  rw [h]
  rfl

theorem State.refLost_of_qualified (h : s.flag R.tmStatusRefQ = true) : s.refLost =
    ((((s.modTm fun t => { t with refWindows := 0 }).setReg R.tmStatusRefQ 0).raise 0x50000C 12 0 4).reviewSources) := if_pos h

end
end Sys2Proof.Machine
end

section
/-! Signed fields, and the edges of PPS_IN (R205 to R207, R220). -/
namespace Sys2Proof.Machine

/-! ## Signed fields -/

theorem toSigned_ofSigned {w : Nat} {v : Int} (hw : 0 < w) (hlo : -(2 ^ (w - 1) : Nat) ≤ v) (hhi : v < (2 ^ (w - 1) : Nat)) :
    toSigned w (ofSigned w v) = v := by
  have hpow : 2 ^ w = 2 * 2 ^ (w - 1) := by
    obtain ⟨k, rfl⟩ := Nat.exists_eq_succ_of_ne_zero hw.ne'
    rw [Nat.succ_sub_one, Nat.pow_succ, Nat.mul_comm]
  unfold toSigned ofSigned
  rw [hpow]
  generalize 2 ^ (w - 1) = p at *
  have hmod : v % ((2 * p : Nat) : Int) = if 0 ≤ v then v else v + (2 * p : Nat) := by
    split
    · exact Int.emod_eq_of_lt (by omega) (by omega)
    · rw [← Int.add_emod_right]
      exact Int.emod_eq_of_lt (by omega) (by omega)
  have hnat : (v % ((2 * p : Nat) : Int)).toNat % (2 * p) = (v % ((2 * p : Nat) : Int)).toNat :=
    Nat.mod_eq_of_lt (by split at hmod <;> omega)
  simp only [hnat]
  split at hmod <;> split <;> omega

theorem toSigned_mod (w v : Nat) : toSigned w (v % 2 ^ w) = toSigned w v := by
  unfold toSigned
  rw [Nat.mod_mod]

theorem State.regS_setRegS_self (s : State) {r : Row} {v : Int} (i j : Nat) (hw : 0 < r.width) (hlo : -(2 ^ (r.width - 1) : Nat) ≤ v)
    (hhi : v < (2 ^ (r.width - 1) : Nat)) : (s.setRegS r v i j).regS r i j = v := by
  unfold State.regS State.setRegS
  rw [State.reg_setReg_self, toSigned_mod, toSigned_ofSigned hw hlo hhi]

theorem phaseError_bounds (n : Nat) : -500000000 < phaseError n ∧ phaseError n ≤ 500000000 := by
  unfold phaseError
  dsimp only
  split <;> omega

section
variable {s : State} {highOk : Bool}

/-! ## An edge of PPS_IN (R205 to R207, R220) -/

/-- The edge is captured with its phase error (R206). -/
def State.edgeCaptured (s : State) : State :=
  ((s.setReg R.tmPpsCapLoNs s.devtime).setReg R.tmPpsCapHiNs (s.devtime / 2 ^ 32)).setRegS R.tmPhaseErr (phaseError s.devtime)

def captureKeys : List Nat := [R.tmPpsCapLoNs.key 0 0, R.tmPpsCapHiNs.key 0 0, R.tmPhaseErr.key 0 0]

theorem State.edgeCaptured_onlyRegs (s : State) : s.onlyRegs s.edgeCaptured captureKeys :=
  ⟨rfl, (((s.regsBut_refl _).setReg (by decide)).setReg (by decide)).setReg (by decide)⟩

theorem State.edgeCaptured_spec (s : State) : s.edgeCaptured.reg R.tmPpsCapLoNs = s.devtime % 2 ^ 32 ∧
    s.edgeCaptured.reg R.tmPpsCapHiNs = s.devtime / 2 ^ 32 % 2 ^ 32 ∧ s.edgeCaptured.regS R.tmPhaseErr = phaseError s.devtime := by
  obtain ⟨hlo, hhi⟩ := phaseError_bounds s.devtime
  refine ⟨?_, ?_, State.regS_setRegS_self _ _ _ (by decide) (le_of_lt (lt_trans (by decide) hlo)) (lt_of_le_of_lt hhi (by decide))⟩
  · exact (State.reg_setReg_ne _ _ _ _ _ _ _ _ (by decide)).trans
      ((State.reg_setReg_ne _ _ _ _ _ _ _ _ (by decide)).trans (s.reg_setReg_self _ _ _ _))
  · exact (State.reg_setReg_ne _ _ _ _ _ _ _ _ (by decide)).trans (State.reg_setReg_self _ _ _ _ _)

/-- The edge counts for qualification, with the rates of the intervals up to it. -/
def State.edgeCounted (s : State) (run : Nat) (rates : List Int) : State :=
  s.edgeCaptured.modTm fun t => { t with ppsLast := some s.devtime, ppsGood := run, corrSum := 0, corrN := 0, ppsRates := rates }

/-- What follows the qualification: the next pulse is due, and the active source uses the edge. -/
def State.edgeUsed (s : State) : State :=
  let u := s.arm .ppsLost 1100000000
  let v := if u.reg R.tmStatusSource = 3 then u.followSource else u
  v.ppsPhase (phaseError v.devtime)

theorem exec_ppsEdge_kept (hclock : s.clockRuns = true) :
    ∃ u, s.edgeCaptured.sourcesKept u ∧ exec (.ppsEdge highOk) s = .next u.edgeUsed := by
  show ∃ u, _ ∧ execPpsEdge highOk s = _
  unfold execPpsEdge
  rw [hclock, if_neg (by simp)]
  extract_lets now err a d good acted rate lost b run c first e f g
  refine ⟨e, ?_, rfl⟩
  have hb : s.edgeCaptured.sourcesKept b := (State.sourcesKept_refl s.edgeCaptured).ppsLost.ite (State.sourcesKept_refl _)
  have hc : s.edgeCaptured.sourcesKept c := hb.same rfl rfl rfl
  exact hc.ppsQualifies.ite hc

theorem exec_ppsEdge_first (hclock : s.clockRuns = true) (hlast : s.tm.ppsLast = none) : exec (.ppsEdge highOk) s =
    .next (s.edgeCounted (if highOk then 1 else 0) s.tm.ppsRates).edgeUsed := by
  show execPpsEdge highOk s = _
  unfold execPpsEdge
  rw [hclock, if_neg (by simp)]
  extract_lets now err a d good acted rate lost b run c first e f g
  have hd : d = 0 := by
    unfold d
    rw [show a.tm.ppsLast = none from hlast]
  have hgood : good = false := by
    unfold good
    rw [hd]
    rfl
  have hb : b = s.edgeCaptured := if_neg (by simp [lost, show a.tm.ppsLast = none from hlast])
  have hrun : run = if highOk then 1 else 0 := by
    unfold run
    rw [hgood]
    cases highOk <;> rfl
  have hc : c = s.edgeCounted (if highOk then 1 else 0) s.tm.ppsRates := by
    unfold c
    rw [hrun, hgood, hb]
    rfl
  have he : e = c := if_neg (by
    unfold first
    rw [hrun]
    cases highOk <;> simp)
  show Host.Outcome.next e.edgeUsed = _
  rw [he, hc]

theorem exec_ppsEdge_third {l : Nat} (hclock : s.clockRuns = true) (hlast : s.tm.ppsLast = some l) (hrun : 2 ≤ s.tm.ppsGood)
    (hq : s.flag R.tmStatusPpsQ = false) (hlo : l + 999900000 ≤ s.devtime) (hhi : s.devtime ≤ l + 1000100000) :
    ∃ rates, exec (.ppsEdge true) s = .next ((s.edgeCounted 3 rates).ppsQualifies (phaseError s.devtime)).edgeUsed := by
  show ∃ rates, execPpsEdge true s = _
  unfold execPpsEdge
  rw [hclock, if_neg (by simp)]
  extract_lets now err a d good acted rate lost b run c first e f g
  have hd : d = (s.devtime : Int) - l := by
    unfold d
    rw [show a.tm.ppsLast = some l from hlast]
  have hgood : good = true := by
    unfold good
    rw [hd, Bool.and_eq_true, decide_eq_true_eq, decide_eq_true_eq]
    omega
  have hb : b = s.edgeCaptured := if_neg (by simp [lost, hgood])
  have hthree : run = 3 := by
    unfold run
    rw [hgood, hb]
    show min 3 (s.tm.ppsGood + 1) = 3
    omega
  have hc : c = s.edgeCounted 3 c.tm.ppsRates := by
    unfold c
    rw [hthree, hb]
    rfl
  have hq' : c.flag R.tmStatusPpsQ = false := by
    rw [hc]
    exact (congrArg (decide <| · = 1) (s.edgeCaptured_onlyRegs.2 R.tmStatusPpsQ 0 0 (by decide))).trans hq
  have he : e = c.ppsQualifies err := if_pos (by simp [first, hthree, hq'])
  refine ⟨c.tm.ppsRates, ?_⟩
  show Host.Outcome.next e.edgeUsed = _
  rw [he, ← hc]

end
end Sys2Proof.Machine
end

section
/-! PPS_IN: what an edge leaves behind, the timeout, and the time block without a clock (R205 to R207, R220, R223). -/
namespace Sys2Proof.Machine

section
variable {s : State} {highOk : Bool}

/-- The states differ at most in DEVTIME, the registers, the time references and the timers. -/
def State.onlyTimed (s t : State) : Prop := t = { s with devtime := t.devtime, regs := t.regs, tm := t.tm, timers := t.timers }

theorem State.onlyTimed.trans {t u : State} (h : s.onlyTimed t) (h' : t.onlyTimed u) : s.onlyTimed u := by
  unfold State.onlyTimed at *
  rw [h', h]

theorem State.onlyTimed_refl (s : State) : s.onlyTimed s := rfl

theorem State.onlyTimed.setReg {t : State} (h : s.onlyTimed t) {r : Row} {v i j : Nat} : s.onlyTimed (t.setReg r v i j) := h.trans rfl
theorem State.onlyTimed.modTm {t : State} (h : s.onlyTimed t) {f} : s.onlyTimed (t.modTm f) := h.trans rfl
theorem State.onlyTimed.modTimers {t : State} (h : s.onlyTimed t) {f} : s.onlyTimed (t.modTimers f) := h.trans rfl
theorem State.onlyTimed.modDevtime {t : State} (h : s.onlyTimed t) {f} : s.onlyTimed (t.modDevtime f) := h.trans rfl

theorem State.onlyTimed.frame {t : State} (h : s.onlyTimed t) (hdev : t.devtime = s.devtime) :
    t = { s with regs := t.regs, tm := t.tm, timers := t.timers } := by
  unfold State.onlyTimed at h
  rwa [hdev] at h

theorem State.onlyTimed_edgeCounted (s : State) (run : Nat) (rates : List Int) : s.onlyTimed (s.edgeCounted run rates) :=
  s.onlyTimed_refl.setReg.setReg.setReg.modTm

theorem State.slewWith_ppsLost (s : State) (err : Int) : alGet (s.slewWith err).timers .ppsLost = alGet s.timers .ppsLost := by
  unfold State.slewWith
  split
  · rfl
  · extract_lets u minimum phase
    have hu : u.timers = s.timers := by
      unfold u
      split <;> rfl
    exact (alGet_alPut_ne _ _ (by decide)).trans (congrArg (alGet · _) hu)

theorem State.noteApplied_timers (s : State) : s.noteApplied.timers = s.timers := by
  unfold State.noteApplied
  split <;> rfl

theorem State.ppsPhase_ppsLost (s : State) (err : Int) : alGet (s.ppsPhase err).timers .ppsLost = alGet s.timers .ppsLost := by
  unfold State.ppsPhase
  split
  · split <;> rfl
  · split
    · rw [State.slewWith_ppsLost, State.noteApplied_timers]
    · rfl

theorem State.followSource_timers (s : State) : s.followSource.timers = s.timers := by
  unfold State.followSource
  dsimp only
  split <;> rfl

theorem State.edgeUsed_ppsLost (s : State) : alGet s.edgeUsed.timers .ppsLost = some (s.devtime + 1100000000) := by
  unfold State.edgeUsed
  rw [State.ppsPhase_ppsLost]
  split
  · rw [State.followSource_timers]
    exact alGet_alPut_self _ _ _
  · exact alGet_alPut_self _ _ _

theorem State.sourcesKept.edgeUsed {t : State} (h : s.sourcesKept t) : s.sourcesKept t.edgeUsed := by
  have harm : s.sourcesKept (t.arm .ppsLost 1100000000) := h.modTimers
  exact State.sourcesKept.ppsPhase (harm.followSource.ite harm)

/-- Outside a switch a source without a phase uses no edge. -/
theorem State.edgeUsed_of_phaseless (hsw : s.tm.sw = none) (h : s.reg R.tmStatusSource < 3) :
    s.edgeUsed = s.arm .ppsLost 1100000000 := by
  have hfollow : (s.arm .ppsLost 1100000000).reg R.tmStatusSource ≠ 3 := Nat.ne_of_lt h
  unfold State.edgeUsed
  dsimp only
  rw [if_neg hfollow]
  unfold State.ppsPhase
  rw [show (s.arm .ppsLost 1100000000).tm.sw = none from hsw]
  refine if_neg ?_
  have hphase : hasPhase ((s.arm .ppsLost 1100000000).reg R.tmStatusSource) = false := decide_eq_false (Nat.not_le_of_lt h)
  rw [hphase]
  simp

theorem exec_ppsEdge_spec (hclock : s.clockRuns = true) : ∃ t, exec (.ppsEdge highOk) s = .next t ∧
    t.reg R.tmPpsCapLoNs = s.devtime % 2 ^ 32 ∧ t.reg R.tmPpsCapHiNs = s.devtime / 2 ^ 32 % 2 ^ 32 ∧ t.armed .ppsLost = true := by
  obtain ⟨u, hu, hexec⟩ := exec_ppsEdge_kept (highOk := highOk) hclock
  obtain ⟨hlo, hhi, -⟩ := s.edgeCaptured_spec
  refine ⟨_, hexec, (hu.edgeUsed.reg R.tmPpsCapLoNs 0 0 ?_ ?_ ?_ ?_).trans hlo,
    (hu.edgeUsed.reg R.tmPpsCapHiNs 0 0 ?_ ?_ ?_ ?_).trans hhi, ?_⟩
  case refine_9 => rw [State.armed, State.edgeUsed_ppsLost, Option.isSome_some]
  all_goals decide

/-- An edge after none, with a source that has no phase. -/
theorem exec_ppsEdge_first_spec (hclock : s.clockRuns = true) (hlast : s.tm.ppsLast = none) (hsw : s.tm.sw = none)
    (hsource : s.reg R.tmStatusSource < 3) : ∃ t, exec (.ppsEdge highOk) s = .next t ∧
      t.reg R.tmPpsCapLoNs = s.devtime % 2 ^ 32 ∧ t.reg R.tmPpsCapHiNs = s.devtime / 2 ^ 32 % 2 ^ 32 ∧
      t.regS R.tmPhaseErr = phaseError s.devtime ∧
      t.tm = { s.tm with ppsLast := some s.devtime, ppsGood := if highOk then 1 else 0, corrSum := 0, corrN := 0 } ∧
      alGet t.timers .ppsLost = some (s.devtime + 1100000000) ∧ t = { s with regs := t.regs, tm := t.tm, timers := t.timers } ∧
      s.regsBut t [R.tmPpsCapLoNs.key 0 0, R.tmPpsCapHiNs.key 0 0, R.tmPhaseErr.key 0 0] := by
  obtain ⟨hlo, hhi, herr⟩ := s.edgeCaptured_spec
  have hregs : s.regsBut s.edgeCaptured captureKeys := s.edgeCaptured_onlyRegs.2
  have hsource' : s.edgeCaptured.reg R.tmStatusSource < 3 := (hregs _ 0 0 (by decide)).trans_lt hsource
  have hexec := exec_ppsEdge_first (highOk := highOk) hclock hlast
  rw [State.edgeUsed_of_phaseless (s := s.edgeCounted _ _) hsw hsource'] at hexec
  have hframe := s.onlyTimed_edgeCounted (if highOk then 1 else 0) s.tm.ppsRates
  exact ⟨_, hexec, hlo, hhi, herr, rfl, alGet_alPut_self _ _ _, hframe.modTimers.frame rfl, hregs.of_regs rfl⟩

/-! ## The third good edge (R205, R207) -/

/-- What DEVTIME is advanced by (R207). -/
def alignStep (err : Int) : Nat := ((1000000000 - err) % 1000000000).toNat

theorem alignStep_lt (err : Int) : alignStep err < 1000000000 := by
  unfold alignStep
  omega

theorem add_alignStep_mod (n : Nat) : (n + alignStep (phaseError n)) % 1000000000 = 0 := by
  unfold alignStep phaseError
  dsimp only
  split <;> omega

/-- The one step of DEVTIME (R207). -/
def State.aligned (s : State) (err : Int) : State :=
  ((s.stepDevtime (alignStep err)).setReg R.tmStatusAligned 1).modTm fun t => { t with ppsLast := t.ppsLast.map (· + alignStep err) }

def State.ppsQualified (s : State) : State :=
  (s.setReg R.tmStatusPpsQ 1).modTm fun t => { t with ppsEverQual := true, ppsQualAt := s.devtime }

theorem State.regsBut_ppsQualified (s : State) : s.regsBut s.ppsQualified [R.tmStatusPpsQ.key 0 0] :=
  ((s.regsBut_refl _).setReg (r := R.tmStatusPpsQ) (v := 1) (List.mem_singleton_self _)).of_regs rfl

theorem State.regsBut_aligned (s : State) (err : Int) : s.regsBut (s.aligned err) [R.tmStatusAligned.key 0 0] :=
  (State.regsBut.setReg (t := s.stepDevtime (alignStep err)) ((s.regsBut_refl _).of_regs rfl) (r := R.tmStatusAligned) (v := 1)
    (List.mem_singleton_self _)).of_regs rfl

theorem State.reg_ppsQualified (s : State) : s.ppsQualified.reg R.tmStatusPpsQ = 1 := s.reg_setReg_self R.tmStatusPpsQ 1 0 0

theorem State.reg_aligned (s : State) (err : Int) : (s.aligned err).reg R.tmStatusAligned = 1 :=
  (s.stepDevtime (alignStep err)).reg_setReg_self R.tmStatusAligned 1 0 0

theorem State.devtime_aligned (s : State) (err : Int) : (s.aligned err).devtime = (s.devtime + alignStep err) % 2 ^ 64 := rfl

theorem State.onlyTimed_aligned (s : State) (err : Int) : s.onlyTimed (s.aligned err) :=
  s.onlyTimed_refl.modTimers.modTm.modDevtime.setReg.modTm

theorem State.onlyTimed_ppsQualified (s : State) : s.onlyTimed (s.ppsQualified.arm .ppsLost 1100000000) :=
  s.onlyTimed_refl.setReg.modTm.modTimers

theorem State.edgeUsed_ppsQualified (hsw : s.tm.sw = none) (hfree : s.reg R.tmStatusSource = 0) :
    s.ppsQualified.reviewSources.edgeUsed = s.ppsQualified.arm .ppsLost 1100000000 := by
  have hfree' : s.ppsQualified.reg R.tmStatusSource = 0 := (s.regsBut_ppsQualified _ 0 0 (by decide)).trans hfree
  rw [State.reviewSources_of_free (s := s.ppsQualified) hsw hfree', State.edgeUsed_of_phaseless (s := s.ppsQualified) hsw (by omega)]

theorem State.ppsQualifies_later {err : Int} (h : s.tm.ppsEverQual = true ∨ s.tm.noStep = true) :
    s.ppsQualifies err = s.ppsQualified.reviewSources := by
  have hstep : (!s.tm.ppsEverQual && !s.tm.noStep) = false := by rcases h with h | h <;> simp [h]
  unfold State.ppsQualifies
  rw [hstep]
  rfl

theorem State.ppsQualifies_first {err : Int} (h : s.tm.ppsEverQual = false) (hstep : s.tm.noStep = false) :
    s.ppsQualifies err = (s.aligned err).ppsQualified.reviewSources := by
  unfold State.ppsQualifies
  rw [h, hstep]
  rfl

/-- A later qualification leaves DEVTIME alone. -/
theorem exec_ppsEdge_requalifies {l : Nat} (hclock : s.clockRuns = true) (hlast : s.tm.ppsLast = some l) (hrun : 2 ≤ s.tm.ppsGood)
    (hq : s.flag R.tmStatusPpsQ = false) (hlo : l + 999900000 ≤ s.devtime) (hhi : s.devtime ≤ l + 1000100000) (hsw : s.tm.sw = none)
    (hfree : s.reg R.tmStatusSource = 0) (h : s.tm.ppsEverQual = true ∨ s.tm.noStep = true) :
    ∃ t, exec (.ppsEdge true) s = .next t ∧ t.reg R.tmStatusPpsQ = 1 ∧
      t.tm.ppsGood = 3 ∧ t.tm.ppsQualAt = s.devtime ∧ t = { s with regs := t.regs, tm := t.tm, timers := t.timers } ∧
      s.regsBut t [R.tmPpsCapLoNs.key 0 0, R.tmPpsCapHiNs.key 0 0, R.tmPhaseErr.key 0 0, R.tmStatusPpsQ.key 0 0] := by
  obtain ⟨rates, hexec⟩ := exec_ppsEdge_third hclock hlast hrun hq hlo hhi
  have hframe : s.onlyTimed (s.edgeCounted 3 rates) := s.onlyTimed_edgeCounted 3 rates
  have hdev : (s.edgeCounted 3 rates).devtime = s.devtime := rfl
  have hgood : (s.edgeCounted 3 rates).tm.ppsGood = 3 := rfl
  have hregs : s.regsBut (s.edgeCounted 3 rates) captureKeys := s.edgeCaptured_onlyRegs.2.of_regs rfl
  have hfree' : (s.edgeCounted 3 rates).reg R.tmStatusSource = 0 := (hregs _ 0 0 (by decide)).trans hfree
  have hsw' : (s.edgeCounted 3 rates).tm.sw = none := hsw
  rw [State.ppsQualifies_later (s := s.edgeCounted 3 rates) h, State.edgeUsed_ppsQualified hsw' hfree'] at hexec
  generalize s.edgeCounted 3 rates = u at *
  refine ⟨_, hexec, u.reg_ppsQualified, hgood, hdev, (hframe.trans u.onlyTimed_ppsQualified).frame hdev, fun r i j hk => ?_⟩
  simp only [List.mem_cons, List.not_mem_nil, or_false, not_or] at hk
  obtain ⟨h1, h2, h3, h4⟩ := hk
  exact (u.regsBut_ppsQualified r i j (by simpa using h4)).trans (hregs r i j (by simp [captureKeys, h1, h2, h3]))

/-- The first qualification steps DEVTIME to a whole second. -/
theorem exec_ppsEdge_aligns {l : Nat} (hclock : s.clockRuns = true) (hlast : s.tm.ppsLast = some l) (hrun : 2 ≤ s.tm.ppsGood)
    (hq : s.flag R.tmStatusPpsQ = false) (hlo : l + 999900000 ≤ s.devtime) (hhi : s.devtime ≤ l + 1000100000) (hsw : s.tm.sw = none)
    (hfree : s.reg R.tmStatusSource = 0) (h : s.tm.ppsEverQual = false) (hstep : s.tm.noStep = false)
    (hfit : s.devtime + 1000000000 < 2 ^ 64) : ∃ t, exec (.ppsEdge true) s = .next t ∧
      t.reg R.tmStatusPpsQ = 1 ∧ t.reg R.tmStatusAligned = 1 ∧ t.devtime % 1000000000 = 0 ∧ s.devtime ≤ t.devtime ∧
      t.devtime < s.devtime + 1000000000 ∧ t = { s with devtime := t.devtime, regs := t.regs, tm := t.tm, timers := t.timers } := by
  obtain ⟨rates, hexec⟩ := exec_ppsEdge_third hclock hlast hrun hq hlo hhi
  have hframe : s.onlyTimed (s.edgeCounted 3 rates) := s.onlyTimed_edgeCounted 3 rates
  have hdev : (s.edgeCounted 3 rates).devtime = s.devtime := rfl
  have hfree' : (s.edgeCounted 3 rates).reg R.tmStatusSource = 0 := (s.edgeCaptured_onlyRegs.2 _ 0 0 (by decide)).trans hfree
  have hsw' : (s.edgeCounted 3 rates).tm.sw = none := hsw
  rw [State.ppsQualifies_first (s := s.edgeCounted 3 rates) h hstep] at hexec
  generalize s.edgeCounted 3 rates = u at *
  have hfree'' : (u.aligned (phaseError s.devtime)).reg R.tmStatusSource = 0 := (u.regsBut_aligned _ _ 0 0 (by decide)).trans hfree'
  have hsw'' : (u.aligned (phaseError s.devtime)).tm.sw = none := congrArg (Option.map _) hsw'
  have hlt := alignStep_lt (phaseError s.devtime)
  have hdev' : (u.aligned (phaseError s.devtime)).devtime = s.devtime + alignStep (phaseError s.devtime) := by
    rw [State.devtime_aligned, hdev]
    exact Nat.mod_eq_of_lt (by omega)
  rw [State.edgeUsed_ppsQualified hsw'' hfree''] at hexec
  exact ⟨_, hexec, State.reg_ppsQualified _, (State.regsBut_ppsQualified _ _ 0 0 (by decide)).trans (u.reg_aligned _),
    hdev' ▸ add_alignStep_mod _, hdev' ▸ Nat.le_add_right _ _, hdev' ▸ Nat.add_lt_add_left hlt _,
    (hframe.trans (u.onlyTimed_aligned _)).trans (State.onlyTimed_ppsQualified _)⟩

/-! ## No pulse for 1.1 s (R205) -/

/-- PPS_IN is no longer qualified, and qualification starts afresh. -/
def State.ppsGone (s : State) : State :=
  ((s.disarm .ppsLost).modTm fun t => { t with ppsLast := none, ppsGood := 0, ppsRates := [] }).setReg R.tmStatusPpsQ 0

theorem exec_ppsTimeout_lost (hdue : s.due .ppsLost = true) (hq : s.flag R.tmStatusPpsQ = true) :
    exec .ppsTimeout s = .next (s.ppsGone.raise 0x50000C 13 0 4).reviewSources := by
  show execPpsTimeout s = _
  unfold execPpsTimeout
  rw [if_pos hdue]
  exact congrArg _ (if_pos hq)

theorem exec_ppsTimeout_early (hdue : s.due .ppsLost = false) : exec .ppsTimeout s = .next s := by
  show execPpsTimeout s = _
  unfold execPpsTimeout
  rw [hdue]
  rfl

theorem exec_time_stopped {ppb : Int} (hclock : s.clockRuns = false) : exec (.refWindow ppb) s = .next s ∧
    exec .refEdgeLoss s = .next s ∧ exec (.ppsEdge highOk) s = .next s ∧ exec .upwardHoldExpire s = .next s ∧
    exec .camSyncPulse s = .next s ∧ exec .xtalFail s = .next s := by
  refine ⟨?_, ?_, ?_, ?_, ?_, ?_⟩
  · show execRefWindow ppb s = _
    simp [execRefWindow, hclock]
  · show execRefEdgeLoss s = _
    simp [execRefEdgeLoss, hclock]
  · show execPpsEdge highOk s = _
    simp [execPpsEdge, hclock]
  · show execUpwardHoldExpire s = _
    simp [execUpwardHoldExpire, hclock]
  · show execCamSyncPulse s = _
    simp [execCamSyncPulse, hclock]
  · show execXtalFail s = _
    simp [execXtalFail, hclock]

end
end Sys2Proof.Machine
end

section
/-! Switches of the time source: ANNOUNCE, SLEW, COMMIT, a reversal that ends, HOLDOVER and the failed crystal (R203, R208 to R211, R223,
R224). -/
namespace Sys2Proof.Machine

section
variable {s : State} {w : Switch} {q : Nat}

/-! ## CORR (R203, R206) -/

theorem openDiv_zero (rule : Nat) (den : Int) : openDiv rule 0 den = 0 := by simp [openDiv]

/-- A frequency that goes nowhere stands. -/
theorem State.freqPart_of_held (h : s.tm.fFrom = s.tm.fTo) : s.freqPart = s.tm.fTo := by
  unfold State.freqPart
  dsimp only
  rw [h, if_pos le_rfl]
  exact min_eq_left (by omega)

/-- CORR goes on from where it is. -/
theorem State.freqPart_setFreq (s : State) (ppb : Int) : (s.setFreq ppb).freqPart = s.freqPart := by
  have hzero : (((s.setFreq ppb).tm.fRate * (s.devtime - s.devtime) : Nat) : Int) = 0 := by simp
  show (let m : Nat := (openDiv 206 (((s.setFreq ppb).tm.fRate * (s.devtime - s.devtime) : Nat) : Int) 1000000000).toNat
    if s.freqPart ≤ (s.setFreq ppb).tm.fTo then min (s.setFreq ppb).tm.fTo (s.freqPart + m)
    else max (s.setFreq ppb).tm.fTo (s.freqPart - m)) = _
  rw [hzero, openDiv_zero]
  dsimp only
  split <;> omega

/-! ## ANNOUNCE (R208, R209) -/

/-- CORR is held while a switch is announced. -/
theorem State.corr_announceTo (s : State) (down : Bool) (q : Nat) (h : s.devtime < 2 ^ 64) : (s.announceTo down q).corr = s.corr := by
  have hfreq : (s.announceTo down q).freqPart = s.freqPart := State.freqPart_of_held rfl
  have hphase : (s.announceTo down q).phasePart = s.phasePart := if_pos h
  unfold State.corr
  rw [hfreq, hphase]

theorem State.announceTo_regs (s : State) (down : Bool) (q : Nat) :
    (s.announceTo down q).regs = ((s.setReg R.tmStatusSwitch 1).setReg R.tmStatusTarget q).regs := rfl

theorem State.onlyTimed_announceTo (s : State) (down : Bool) (q : Nat) : s.onlyTimed (s.announceTo down q) := by
  unfold State.announceTo
  extract_lets f p u v
  have hv : s.onlyTimed v := s.onlyTimed_refl.modTm.setReg.setReg
  exact hv.modTimers.modTimers.modTimers

theorem State.announceTo_spec (s : State) (down : Bool) (hq : q ≤ 4) (h : s.devtime < 2 ^ 64) :
    (s.announceTo down q).reg R.tmStatusSwitch = 1 ∧ (s.announceTo down q).reg R.tmStatusTarget = q ∧
    (s.announceTo down q).tm.sw = some { down := down, target := q, corr0 := s.freqPart, mark := s.devtime } ∧
    alGet (s.announceTo down q).timers .announce =
      some (s.devtime + (openDiv 209 ((384000 * s.increment : Nat) : Int) (2 ^ 32)).toNat) ∧
    s.announceTo down q = { s with
      regs := (s.announceTo down q).regs, tm := (s.announceTo down q).tm, timers := (s.announceTo down q).timers } ∧
    s.regsBut (s.announceTo down q) [R.tmStatusSwitch.key 0 0, R.tmStatusTarget.key 0 0] := by
  have hinc : (s.announceTo down q).increment = s.increment := by
    unfold State.increment
    rw [State.corr_announceTo s down q h]
  have hframe : s.onlyTimed (s.announceTo down q) := s.onlyTimed_announceTo down q
  refine ⟨?_, ?_, rfl, ?_, hframe.frame rfl, ?_⟩
  · exact (State.reg_setReg_ne _ _ _ _ _ _ _ _ (by decide)).trans (s.reg_setReg_self R.tmStatusSwitch 1 0 0)
  · exact (State.reg_setReg_self _ R.tmStatusTarget q 0 0).trans (Nat.mod_eq_of_lt (hq.trans_lt (by decide)))
  · rw [← hinc]
    exact alGet_alPut_self _ _ _
  · exact (((s.regsBut_refl _).setReg (by simp)).setReg (by simp)).of_regs (s.announceTo_regs down q)

/-- The source that is announced is better than the active one, qualified and enabled for 10 s. -/
def State.announceable (s : State) (q : Nat) : Bool :=
  decide (s.reg R.tmStatusSource < q) && s.sourceOk q && decide (s.sourceSince q + 10000000000 ≤ s.devtime)

theorem State.find_announceable (h2 : 2 ≤ q) (h4 : q ≤ 4) (hq : s.announceable q = true)
    (hbest : ∀ p, q < p → p ≤ 4 → s.announceable p = false) : [4, 3, 2].find? s.announceable = some q := by
  rcases show q = 2 ∨ q = 3 ∨ q = 4 by omega with rfl | rfl | rfl
  · simp [List.find?, hq, hbest 3 (by omega) (by omega), hbest 4 (by omega) (by omega)]
  · simp [List.find?, hq, hbest 4 (by omega) (by omega)]
  · simp [List.find?, hq]

theorem exec_upwardHoldExpire_announces (hclock : s.clockRuns = true) (hsw : s.tm.sw = none)
    (hfind : [4, 3, 2].find? s.announceable = some q) : exec .upwardHoldExpire s = .next (s.announceTo false q) := by
  show execUpwardHoldExpire s = _
  unfold execUpwardHoldExpire
  rw [if_pos (by simp [hclock, hsw])]
  change Host.Outcome.next (match [4, 3, 2].find? s.announceable with | some q => s.announceTo false q | none => s) = _
  rw [hfind]

theorem exec_upwardHoldExpire_switching (h : s.tm.sw.isSome = true) : exec .upwardHoldExpire s = .next s := by
  obtain ⟨w, hw⟩ := Option.isSome_iff_exists.mp h
  show execUpwardHoldExpire s = _
  simp [execUpwardHoldExpire, hw]

/-! ## SLEW (R209, R220) -/

/-- ANNOUNCE has ended: the phase applied so far is noted, and SLEW begins now. -/
def State.slewOpened (s : State) : State :=
  let u := (s.disarm .announce).noteApplied
  (u.modTm fun t => { t with sw := t.sw.map fun w => { w with began := u.devtime } }).setReg R.tmStatusSwitch 2

theorem State.slewOpened_spec (hsw : s.tm.sw = some w) : ∃ w' : Switch, w'.target = w.target ∧ w'.began = s.devtime ∧
    s.slewOpened = { s with
      regs := (s.setReg R.tmStatusSwitch 2).regs, timers := alDel s.timers .announce, tm := { s.tm with sw := some w' } } := by
  unfold State.slewOpened State.noteApplied
  rw [show (s.disarm .announce).tm.sw = some w from hsw]
  exact ⟨{ w with applied := _, began := s.devtime, mark := s.devtime }, rfl, rfl, rfl⟩

/-- The phase part of CORR in SLEW. -/
def State.slewPhased (s : State) (target : Nat) (err : Int) : State :=
  if hasPhase target then s.setPhase err else s.modTm fun t => { t with phRate := 0, phUntil := 0 }

theorem State.slewPhased_spec (s : State) (target : Nat) (err : Int) :
    s.slewPhased target err = { s with tm := (s.slewPhased target err).tm } ∧ (s.slewPhased target err).tm.fTo = s.tm.fTo ∧
    (s.slewPhased target err).tm.fFrom = s.tm.fFrom ∧ (s.slewPhased target err).freqPart = s.freqPart := by
  unfold State.slewPhased
  split <;> exact ⟨rfl, rfl, rfl, rfl⟩

/-- SLEW lasts for the longest of its three times. -/
theorem State.slewWith_eq {err : Int} (hsw : s.tm.sw = some w) (hbegan : w.began = s.devtime) : s.slewWith err =
    (s.slewPhased w.target err).arm .slew (max 100000000 (max (if hasPhase w.target then s.phaseTime err else 0)
      (s.rampTime (s.tm.fTo - s.freqPart)))) := by
  obtain ⟨hframe, hto, -, hfreq⟩ := s.slewPhased_spec w.target err
  have hdev : (s.slewPhased w.target err).devtime = s.devtime := by rw [hframe]
  have hregs : (s.slewPhased w.target err).regs = s.regs := by rw [hframe]
  have hreg (r : Row) : (s.slewPhased w.target err).reg r = s.reg r := by
    unfold State.reg
    rw [hregs]
  unfold State.slewWith
  rw [hsw]
  change (s.slewPhased w.target err).arm .slew (max (w.began + 100000000 - (s.slewPhased w.target err).devtime)
    (max (if hasPhase w.target then (s.slewPhased w.target err).phaseTime err else 0)
      ((s.slewPhased w.target err).rampTime ((s.slewPhased w.target err).tm.fTo - (s.slewPhased w.target err).freqPart)))) = _
  unfold State.phaseTime State.rampTime
  rw [hdev, hbegan, Nat.add_sub_cancel_left, hto, hfreq, hreg, hreg]

theorem exec_announceEnd_due (hdue : s.due .announce = true) (hsw : s.tm.sw = some w) : exec .announceEnd s =
    .next ((s.slewOpened.setFreq (s.slewOpened.sourceFreq w.target)).slewWith (s.slewOpened.regS R.tmPhaseErr)) := by
  show execAnnounceEnd s = _
  unfold execAnnounceEnd
  rw [if_pos hdue, hsw]
  rfl

end
end Sys2Proof.Machine
end

section
/-! The end of ANNOUNCE, and a source made active (R203, R209, R210). -/
namespace Sys2Proof.Machine

section
variable {s : State} {w : Switch} {q : Nat}

theorem State.regsBut_setReg (s : State) (r : Row) (v i j : Nat) : s.regsBut (s.setReg r v i j) [r.key i j] :=
  (s.regsBut_refl _).setReg (List.mem_singleton_self _)

theorem State.reg_congr {t : State} (h : t.regs = s.regs) (r : Row) (i j : Nat) : t.reg r i j = s.reg r i j := by
  unfold State.reg
  rw [h]

/-- The switch of a state that is in SLEW, with CORR on its way from here to the frequency of the target. -/
theorem State.slewOpened_setFreq_spec (hsw : s.tm.sw = some w) (ppb : Int) : ∃ (u : State) (w' : Switch),
    u = s.slewOpened.setFreq ppb ∧ u.tm.sw = some w' ∧ w'.target = w.target ∧ w'.began = u.devtime ∧
    u.devtime = s.devtime ∧ u.regs = (s.setReg R.tmStatusSwitch 2).regs ∧ u.timers = alDel s.timers .announce ∧
    u.tm.fTo = max (-200000) (min 200000 ppb) ∧ u.tm.fFrom = s.freqPart ∧ u.freqPart = s.freqPart ∧
    u = { s with regs := u.regs, tm := u.tm, timers := u.timers } := by
  obtain ⟨w', htarget, hbegan, hframe⟩ := State.slewOpened_spec hsw
  have hfreq : s.slewOpened.freqPart = s.freqPart := by
    rw [hframe]
    rfl
  have hfreq' := (s.slewOpened.freqPart_setFreq ppb).trans hfreq
  have hfrom : (s.slewOpened.setFreq ppb).tm.fFrom = s.freqPart := hfreq
  have hdev : (s.slewOpened.setFreq ppb).devtime = s.devtime := congrArg (·.devtime) hframe
  have hsw' : (s.slewOpened.setFreq ppb).tm.sw = some w' := congrArg (·.tm.sw) hframe
  refine ⟨_, w', rfl, hsw', htarget, hbegan.trans hdev.symm, hdev, congrArg (·.regs) hframe, congrArg (·.timers) hframe, rfl, hfrom,
    hfreq', ?_⟩
  unfold State.setFreq
  rw [hframe]
  rfl

/-- In SLEW CORR goes from where it is to the frequency of the target. -/
theorem exec_announceEnd_spec (hdue : s.due .announce = true) (hsw : s.tm.sw = some w) : ∃ t, exec .announceEnd s = .next t ∧
    t.reg R.tmStatusSwitch = 2 ∧ t.tm.fTo = max (-200000) (min 200000 (s.sourceFreq w.target)) ∧ t.tm.fFrom = s.freqPart ∧
    alGet t.timers .slew = some (s.devtime + max 100000000 (max (if hasPhase w.target then s.phaseTime (s.regS R.tmPhaseErr) else 0)
      (s.rampTime (t.tm.fTo - s.freqPart)))) ∧ t.armed .announce = false ∧
    t = { s with regs := t.regs, tm := t.tm, timers := t.timers } ∧ s.regsBut t [R.tmStatusSwitch.key 0 0] := by
  obtain ⟨w', -, -, hopened⟩ := State.slewOpened_spec hsw
  have hsource : s.slewOpened.sourceFreq w.target = s.sourceFreq w.target := by
    rw [hopened]
    rfl
  have hexec := exec_announceEnd_due hdue hsw
  rw [hsource] at hexec
  obtain ⟨u, w', hu, hsw', htarget, hbegan, hdev, hregs, htimers, hto, hfrom, hfreq, hframe⟩ :=
    State.slewOpened_setFreq_spec hsw (s.sourceFreq w.target)
  have hbut : s.regsBut u [R.tmStatusSwitch.key 0 0] := (s.regsBut_setReg R.tmStatusSwitch 2 0 0).of_regs hregs
  have herr : s.slewOpened.regS R.tmPhaseErr = s.regS R.tmPhaseErr :=
    congrArg (toSigned _) ((State.reg_congr (congrArg (·.regs) hu).symm _ 0 0).trans (hbut _ 0 0 (by decide)))
  have hphase (err : Int) : u.phaseTime err = s.phaseTime err := by
    unfold State.phaseTime
    rw [hbut _ 0 0 (by decide)]
  have hramp (d : Int) : u.rampTime d = s.rampTime d := by
    unfold State.rampTime
    rw [hbut _ 0 0 (by decide)]
  rw [← hu, State.slewWith_eq hsw' hbegan, herr, htarget, hfreq, hphase, hramp] at hexec
  obtain ⟨hkept, hto', hfrom', -⟩ := u.slewPhased_spec w.target (s.regS R.tmPhaseErr)
  generalize u.slewPhased w.target (s.regS R.tmPhaseErr) = v at *
  have hvregs : v.regs = u.regs := congrArg (·.regs) hkept
  refine ⟨_, hexec, ?_, hto'.trans hto, hfrom'.trans hfrom, ?_, ?_, ?_, hbut.of_regs hvregs⟩
  · exact (State.reg_congr (hvregs.trans hregs) _ 0 0).trans (s.reg_setReg_self R.tmStatusSwitch 2 0 0)
  · have hvdev : v.devtime = s.devtime := (congrArg (·.devtime) hkept).trans hdev
    rw [← hto', ← hvdev]
    exact alGet_alPut_self _ _ _
  · have hgone : alGet v.timers .announce = none := by
      rw [show v.timers = alDel s.timers .announce from (congrArg (·.timers) hkept).trans htimers]
      exact alGet_alDel _ _
    exact congrArg Option.isSome ((alGet_alPut_ne _ _ (by decide)).trans hgone)
  · rw [hkept, hframe]
    rfl

/-! ## A source becomes active (R209 to R211) -/

/-- The switch is over, and the source shows. -/
def State.sourceShown (s : State) (q : Nat) : State :=
  let u := s.modTm fun t => { t with
    sw := none, learned := if 2 ≤ q then some s.tm.fTo else t.learned,
    phRate := if hasPhase q then t.phRate else 0, phUntil := if hasPhase q then t.phUntil else 0 }
  let v := (u.setReg R.tmStatusSource q).setReg R.tmStatusSwitch 0
  ((v.disarm .announce).disarm .slew).disarm .reverse

theorem State.makeActive_of_same (h : s.reg R.tmStatusSource = q) : s.makeActive q = s.sourceShown q :=
  if_pos (decide_eq_true h)

theorem State.makeActive_of_other (h : s.reg R.tmStatusSource ≠ q) : s.makeActive q =
    if q = 1 then ((s.sourceShown q).setReg R.tmStatusHoldAged 0).arm .holdAge 600000000000
    else ((s.sourceShown q).setReg R.tmStatusHoldAged 0).disarm .holdAge :=
  if_neg (by rw [decide_eq_false h]; simp)

theorem State.reg_sourceShown (s : State) (hq : q ≤ 4) :
    (s.sourceShown q).reg R.tmStatusSource = q ∧ (s.sourceShown q).reg R.tmStatusSwitch = 0 := by
  refine ⟨?_, State.reg_setReg_self _ R.tmStatusSwitch 0 0 0⟩
  have hset (u : State) : ((u.setReg R.tmStatusSource q).setReg R.tmStatusSwitch 0).reg R.tmStatusSource = q :=
    (State.reg_setReg_ne _ _ _ _ _ _ _ _ (by decide)).trans
      ((u.reg_setReg_self R.tmStatusSource q 0 0).trans (Nat.mod_eq_of_lt (hq.trans_lt (by decide))))
  exact hset _

theorem State.onlyTimed_sourceShown (s : State) (q : Nat) : s.onlyTimed (s.sourceShown q) :=
  s.onlyTimed_refl.modTm.setReg.setReg.modTimers.modTimers.modTimers

theorem State.regsBut_sourceShown (s : State) (q : Nat) :
    s.regsBut (s.sourceShown q) [R.tmStatusSource.key 0 0, R.tmStatusSwitch.key 0 0] := by
  have hset : s.regsBut ((s.setReg R.tmStatusSource q).setReg R.tmStatusSwitch 0) [R.tmStatusSource.key 0 0, R.tmStatusSwitch.key 0 0] :=
    ((s.regsBut_refl _).setReg (by simp)).setReg (by simp)
  exact hset.of_regs rfl

/-- HOLDOVER begins afresh where the active source changes. -/
theorem State.makeActive_other_spec (h : s.reg R.tmStatusSource ≠ q) : ∃ f : List (Timer × Nat) → List (Timer × Nat),
    s.makeActive q = ((s.sourceShown q).setReg R.tmStatusHoldAged 0).modTimers f ∧
    (alGet (f (s.sourceShown q).timers) .holdAge).isSome = decide (q = 1) ∧
    ∀ x, x ≠ .holdAge → alGet (f (s.sourceShown q).timers) x = alGet (s.sourceShown q).timers x := by
  rw [State.makeActive_of_other h]
  split
  · next hq => exact ⟨_, rfl, by rw [alGet_alPut_self, hq]; rfl, fun x hx => alGet_alPut_ne _ _ hx⟩
  · next hq => exact ⟨_, rfl, by rw [alGet_alDel, decide_eq_false hq]; rfl, fun x hx => alGet_alDel_ne _ hx⟩

/-- What a source that becomes active leaves, whether another one was active or itself. -/
theorem State.makeActive_spec (s : State) (hq : q ≤ 4) :
    (s.makeActive q).reg R.tmStatusSource = q ∧ (s.makeActive q).reg R.tmStatusSwitch = 0 ∧
    (s.makeActive q).tm = (s.sourceShown q).tm ∧ (s.makeActive q).armed .reverse = false ∧
    s.makeActive q = { s with regs := (s.makeActive q).regs, tm := (s.makeActive q).tm, timers := (s.makeActive q).timers } ∧
    s.regsBut (s.makeActive q) [R.tmStatusSource.key 0 0, R.tmStatusSwitch.key 0 0, R.tmStatusHoldAged.key 0 0] := by
  obtain ⟨hsource, hswitch⟩ := s.reg_sourceShown hq
  have hframe := s.onlyTimed_sourceShown q
  have hdev : (s.sourceShown q).devtime = s.devtime := rfl
  have hregs : s.regsBut (s.sourceShown q) [R.tmStatusSource.key 0 0, R.tmStatusSwitch.key 0 0, R.tmStatusHoldAged.key 0 0] :=
    fun r i j hk => s.regsBut_sourceShown q r i j fun h => hk (List.mem_append_left [_] h)
  have hgone : alGet (s.sourceShown q).timers .reverse = none := alGet_alDel _ _
  by_cases h : s.reg R.tmStatusSource = q
  · rw [State.makeActive_of_same h]
    exact ⟨hsource, hswitch, rfl, congrArg Option.isSome hgone, hframe.frame hdev, hregs⟩
  · obtain ⟨f, heq, -, hf⟩ := State.makeActive_other_spec h
    have haged := hregs.setReg (r := R.tmStatusHoldAged) (v := 0) (i := 0) (j := 0) (by simp)
    rw [heq]
    generalize s.sourceShown q = u at *
    refine ⟨?_, ?_, rfl, congrArg Option.isSome ((hf _ (by decide)).trans hgone), (hframe.setReg.modTimers).frame hdev,
      haged.of_regs rfl⟩
    · exact (u.reg_setReg_ne R.tmStatusHoldAged R.tmStatusSource 0 0 0 0 0 (by decide)).trans hsource
    · exact (u.reg_setReg_ne R.tmStatusHoldAged R.tmStatusSwitch 0 0 0 0 0 (by decide)).trans hswitch

end
end Sys2Proof.Machine
end

section
/-! COMMIT, the end of a reversal, HOLD_AGED and the failed crystal; the time references as a whole (R209 to R211, R223, R224). -/
namespace Sys2Proof.Machine

section
variable {s : State} {w : Switch} {q : Nat}

/-! ## COMMIT (R209, R224) -/

/-- The target is active, and the commit counts. -/
def State.committed (s : State) (q : Nat) : State := (s.makeActive q).bump R.tmSwitchesCommits

theorem exec_slewEnd_due (hdue : s.due .slew = true) (hsw : s.tm.sw = some w) :
    exec .slewEnd s = .next ((s.committed w.target).raise 0x500020 0 0 4) := by
  show execSlewEnd s = _
  unfold execSlewEnd
  rw [if_pos hdue, hsw]
  rfl

theorem State.committed_spec (hq : q ≤ 4) (h : s.reg R.tmStatusSource ≠ q) :
    (s.committed q).reg R.tmStatusSource = q ∧ (s.committed q).reg R.tmStatusSwitch = 0 ∧ (s.committed q).reg R.tmStatusHoldAged = 0 ∧
    (s.committed q).tm.sw = none ∧
    (s.committed q).reg R.tmSwitchesCommits = (s.reg R.tmSwitchesCommits + 1) % 2 ^ R.tmSwitchesCommits.width ∧
    (s.committed q).armed .holdAge = decide (q = 1) ∧
    s.committed q = { s with regs := (s.committed q).regs, tm := (s.committed q).tm, timers := (s.committed q).timers } ∧
    s.regsBut (s.committed q)
      [R.tmStatusSource.key 0 0, R.tmStatusSwitch.key 0 0, R.tmStatusHoldAged.key 0 0, R.tmSwitchesCommits.key 0 0] := by
  obtain ⟨hsource, hswitch, htm, -, hframe, hregs⟩ := s.makeActive_spec hq
  obtain ⟨f, heq, hhold, -⟩ := State.makeActive_other_spec h
  have haged : (s.makeActive q).reg R.tmStatusHoldAged = 0 := by
    rw [heq]
    exact (s.sourceShown q).reg_setReg_self R.tmStatusHoldAged 0 0 0
  have htimers : (alGet (s.makeActive q).timers .holdAge).isSome = decide (q = 1) := by
    rw [heq]
    exact hhold
  have hsw : (s.makeActive q).tm.sw = none := by
    rw [htm]
    rfl
  unfold State.committed
  generalize s.makeActive q = u at *
  refine ⟨?_, ?_, ?_, hsw, ?_, htimers, ?_, fun r i j hk => ?_⟩
  · exact (u.reg_setReg_ne R.tmSwitchesCommits R.tmStatusSource _ 0 0 0 0 (by decide)).trans hsource
  · exact (u.reg_setReg_ne R.tmSwitchesCommits R.tmStatusSwitch _ 0 0 0 0 (by decide)).trans hswitch
  · exact (u.reg_setReg_ne R.tmSwitchesCommits R.tmStatusHoldAged _ 0 0 0 0 (by decide)).trans haged
  · rw [← hregs R.tmSwitchesCommits 0 0 (by decide)]
    exact u.reg_setReg_self R.tmSwitchesCommits _ 0 0
  · have hu : s.onlyTimed u := hframe ▸ (rfl : s.onlyTimed { s with regs := u.regs, tm := u.tm, timers := u.timers })
    exact (hu.setReg (r := R.tmSwitchesCommits)).frame (congrArg (·.devtime) hframe)
  · refine (u.regsBut_setReg R.tmSwitchesCommits _ 0 0 r i j fun h => hk ?_).trans (hregs r i j fun h => hk ?_)
    · exact List.mem_append_right [R.tmStatusSource.key 0 0, R.tmStatusSwitch.key 0 0, R.tmStatusHoldAged.key 0 0] h
    · exact List.mem_append_left [R.tmSwitchesCommits.key 0 0] h

/-! ## A reversal ends (R210, R224) -/

theorem exec_reversingEnd_due (hdue : s.due .reverse = true) (hsw : s.tm.sw = some w) : exec .reversingEnd s =
    .next (if w.down then s.countCancel.makeActive s.countCancel.bestSource
      else (s.countCancel.makeActive (s.countCancel.reg R.tmStatusSource)).reviewSources) := by
  show execReversingEnd s = _
  unfold execReversingEnd
  rw [if_pos hdue, hsw]

theorem State.bestSource_le (s : State) : s.bestSource ≤ 4 := by
  unfold State.bestSource
  split
  · decide
  split
  · decide
  split
  · decide
  split <;> decide

/-- A source that becomes active stays qualified, as it was. -/
theorem State.sourceOk_makeActive (hq : q ≤ 4) (hok : s.sourceOk q = true) : (s.makeActive q).sourceOk q = true := by
  obtain ⟨-, -, htm, -, -, hregs⟩ := s.makeActive_spec hq
  have hflag (r : Row) (h : r.key 0 0 ∉ [R.tmStatusSource.key 0 0, R.tmStatusSwitch.key 0 0, R.tmStatusHoldAged.key 0 0]) :
      (s.makeActive q).flag r = s.flag r := congrArg (decide <| · = 1) (hregs r 0 0 h)
  have hlearned : q = 1 → (s.makeActive q).tm.learned = s.tm.learned := by
    rintro rfl
    rw [htm]
    rfl
  unfold State.sourceOk at *
  rw [hflag _ (by decide), hflag _ (by decide), hflag _ (by decide), hflag _ (by decide)]
  rcases show q = 0 ∨ q = 1 ∨ q = 2 ∨ q = 3 ∨ q = 4 by omega with rfl | rfl | rfl | rfl | rfl
  · rfl
  · exact (congrArg Option.isSome (hlearned rfl)).trans hok
  · exact hok
  · exact hok
  · exact hok

/-- After a cancelled upward switch the active source stays where it is still qualified. -/
theorem State.reviewSources_makeActive (hq : q ≤ 4) (hok : s.sourceOk q = true) : (s.makeActive q).reviewSources = s.makeActive q := by
  obtain ⟨hsource, -, htm, -, -, -⟩ := s.makeActive_spec hq
  refine State.reviewSources_of_ok ?_ ?_
  · rw [htm]
    rfl
  · rw [hsource]
    exact State.sourceOk_makeActive hq hok

theorem exec_reversingEnd_spec {u : State} (hdue : s.due .reverse = true) (hsw : s.tm.sw = some w) (hu : u = s.countCancel)
    (h : w.down = true ∨ (u.sourceOk (u.reg R.tmStatusSource) = true ∧ u.reg R.tmStatusSource ≤ 4)) :
    exec .reversingEnd s = .next (u.makeActive (if w.down then u.bestSource else u.reg R.tmStatusSource)) ∧
    (if w.down then u.bestSource else u.reg R.tmStatusSource) ≤ 4 := by
  rw [exec_reversingEnd_due hdue hsw, ← hu]
  cases hdown : w.down with
  | true => exact ⟨rfl, u.bestSource_le⟩
  | false =>
    obtain ⟨hok, hle⟩ := h.resolve_left (by simp [hdown])
    exact ⟨congrArg _ (State.reviewSources_makeActive hle hok), hle⟩

/-! ## HOLDOVER, the failed crystal, and timers that are not due (R211, R223) -/

theorem exec_holdAged_due (hdue : s.due .holdAge = true) :
    exec .holdAged s = .next ((s.disarm .holdAge).setReg R.tmStatusHoldAged 1) := by
  show execHoldAged s = _
  unfold execHoldAged
  rw [if_pos hdue]

theorem exec_xtalFail_running (hclock : s.clockRuns = true) :
    exec .xtalFail s = .next ((s.raise 0x50000C 15 3 4).setReg R.tmStatusXtalFail 1) := by
  show execXtalFail s = _
  unfold execXtalFail
  rw [if_pos hclock]

/-- With XTAL_FAIL set the clock stands. -/
theorem State.clockRuns_xtalFail (s : State) : (s.setReg R.tmStatusXtalFail 1).clockRuns = false := by
  have hflag : (s.setReg R.tmStatusXtalFail 1).flag R.tmStatusXtalFail = true :=
    decide_eq_true (s.reg_setReg_self R.tmStatusXtalFail 1 0 0)
  unfold State.clockRuns
  rw [hflag, Bool.not_true, Bool.and_false]

theorem exec_switch_early (s : State) : (s.due .announce = false → exec .announceEnd s = .next s) ∧
    (s.due .slew = false → exec .slewEnd s = .next s) ∧ (s.due .reverse = false → exec .reversingEnd s = .next s) ∧
    (s.due .holdAge = false → exec .holdAged s = .next s) := by
  refine ⟨fun h => ?_, fun h => ?_, fun h => ?_, fun h => ?_⟩
  · show execAnnounceEnd s = _
    simp [execAnnounceEnd, h]
  · show execSlewEnd s = _
    simp [execSlewEnd, h]
  · show execReversingEnd s = _
    simp [execReversingEnd, h]
  · show execHoldAged s = _
    simp [execHoldAged, h]

end

/-- Settles O35: each command of the references by what it leaves where its condition holds, and each phase of a switch by the fields,
the switch and the timers that it writes. -/
theorem timeReferencesAndSwitches : Obligations.TimeReferencesAndSwitches := by
  refine ⟨fun ppb s hclock hppb => exec_refWindow_spec hclock hppb, fun highOk s hclock => exec_ppsEdge_spec hclock,
    ⟨fun ppb s hclock hppb h h2 h4 => exec_refWindow_counts hclock hppb h h2 h4, fun ppb s hclock hppb h hq hfree hsw => ?_,
      fun ppb s hclock hppb hq => ?_, fun ppb s hclock hppb hq => ?_,
      fun highOk s hclock hlast hsw hsource => exec_ppsEdge_first_spec hclock hlast hsw hsource,
      fun l s hclock hlast hrun hq hlo hhi hsw hfree =>
        ⟨fun h => exec_ppsEdge_requalifies hclock hlast hrun hq hlo hhi hsw hfree h,
          fun h hstep hfit => exec_ppsEdge_aligns hclock hlast hrun hq hlo hhi hsw hfree h hstep hfit⟩,
      fun s hdue hq => ?_, fun s hdue => exec_ppsTimeout_early hdue, fun ppb highOk s hclock => exec_time_stopped hclock⟩,
    ⟨fun q s hclock hsw h2 h4 hbetter hok hsince hdev hbest => ?_, fun s hsw => exec_upwardHoldExpire_switching hsw,
      fun w s hdue hsw => exec_announceEnd_spec hdue hsw, fun w s hdue hsw hle hne => ?_, fun w s u hdue hsw hu h => ?_,
      fun s hdue => ?_, fun s hclock => ⟨_, exec_xtalFail_running hclock, rfl, State.clockRuns_xtalFail _⟩,
      fun s => exec_switch_early s⟩⟩
  · have hcount : s.tm.refWindows + 1 ≥ 100 := by omega
    refine ⟨_, exec_refWindow_qualifies hclock hppb h hq hfree hsw, s.reg_refQualified ppb, ?_, rfl, s.regsBut_refQualified ppb⟩
    show { s.tm with refWindows := min (s.tm.refWindows + 1) 100, refPpb := ppb, refQualAt := s.devtime } = _
    rw [Nat.min_eq_right hcount]
  · have hgone : s.regsBut ((s.modTm fun t => { t with refWindows := 0 }).setReg R.tmStatusRefQ 0) [R.tmStatusRefQ.key 0 0] :=
      (s.regsBut_setReg R.tmStatusRefQ 0 0 0).of_regs rfl
    refine ⟨_, (s.modTm fun t => { t with refWindows := 0 }).setReg R.tmStatusRefQ 0, exec_refWindow_bad hclock hppb,
      exec_refEdgeLoss hclock, State.reg_setReg_self _ R.tmStatusRefQ 0 0 0, rfl, hgone, State.refLost_of_qualified hq⟩
  · rw [exec_refWindow_bad hclock hppb, exec_refEdgeLoss hclock, State.refLost_of_unqualified hq]
    exact ⟨rfl, rfl⟩
  · refine ⟨_, s.ppsGone, exec_ppsTimeout_lost hdue hq, State.reg_setReg_self _ R.tmStatusPpsQ 0 0 0, s.armed_disarm .ppsLost, rfl,
      (s.onlyTimed_refl.modTimers.modTm.setReg : s.onlyTimed s.ppsGone).frame rfl, ?_, rfl⟩
    exact (s.regsBut_setReg R.tmStatusPpsQ 0 0 0).of_regs rfl
  · have hq : s.announceable q = true := by
      simp [State.announceable, hbetter, hok, hsince]
    have hfind := State.find_announceable h2 h4 hq fun p hp hp4 => by
      rcases hbest p hp hp4 with h | h
      · simp [State.announceable, h]
      · simp [State.announceable, Nat.not_le_of_lt h]
    obtain ⟨hswitch, htarget, hsw', htimer, hframe, hregs⟩ := s.announceTo_spec false h4 hdev
    exact ⟨_, exec_upwardHoldExpire_announces hclock hsw hfind, hswitch, htarget, s.corr_announceTo false q hdev, hsw', htimer, hframe,
      hregs⟩
  · obtain ⟨hsource, hswitch, haged, hsw', hcommits, hhold, hframe, hregs⟩ := State.committed_spec hle hne
    exact ⟨_, s.committed w.target, exec_slewEnd_due hdue hsw, hsource, hswitch, haged, hsw', hcommits, hhold, hframe, hregs, rfl⟩
  · obtain ⟨hexec, hle⟩ := exec_reversingEnd_spec hdue hsw hu h
    obtain ⟨hsource, hswitch, htm, hrev, hframe, hregs⟩ := u.makeActive_spec hle
    exact ⟨_, hexec, hsource, hswitch, by rw [htm]; rfl, hrev, hframe, hregs⟩
  · exact ⟨_, exec_holdAged_due hdue, State.reg_setReg_self _ R.tmStatusHoldAged 1 0 0, s.armed_disarm .holdAge, rfl,
      (s.regsBut_setReg R.tmStatusHoldAged 1 0 0).of_regs rfl⟩

end Sys2Proof.Machine
end

section
/-! The learning of the cameras' offsets: pulses, latch reads, samples and misses (R213 to R216). -/
namespace Sys2Proof.Machine

section
variable {s t : State} {n m k a : Nat} {v p : Int} {latch : BitVec 48} {nack : Bool}

/-! ## One camera -/

theorem State.cam_modCam_self (h : n < s.tm.cams.length) (f : CamState → CamState) : (s.modCam n f).cam n = f (s.cam n) := by
  simp [State.cam, State.modCam, List.getD_eq_getElem?_getD, h]

theorem State.cam_modCam_ne (h : m ≠ n) (f : CamState → CamState) : (s.modCam n f).cam m = s.cam m := by
  simp [State.cam, State.modCam, List.getD_eq_getElem?_getD, h.symm]

theorem State.length_modCam (s : State) (n : Nat) (f : CamState → CamState) : (s.modCam n f).tm.cams.length = s.tm.cams.length :=
  List.length_modify ..

theorem State.onlyTimed.modCam (h : s.onlyTimed t) {f : CamState → CamState} : s.onlyTimed (t.modCam n f) := h.modTm

/-! ## A pulse (R213, R214) -/

/-- The latch read of a port after the pulse at second k. -/
def State.readDue (k : Nat) (s : State) (n : Nat) : State :=
  (s.modCam n fun c => { c with pulse := k, waiting := true }).arm (.camLatch n) 500000000

theorem State.readsDue_frame (k : Nat) (l : List Nat) (s : State) :
    l.foldl (State.readDue k) s = { s with tm := (l.foldl (State.readDue k) s).tm, timers := (l.foldl (State.readDue k) s).timers } := by
  induction l generalizing s with
  | nil => rfl
  | cons x l ih => exact (ih (s.readDue k x)).trans rfl

theorem State.readsDue_lastPulse (k : Nat) (l : List Nat) (s : State) :
    (l.foldl (State.readDue k) s).tm.lastPulse = s.tm.lastPulse := by
  induction l generalizing s with
  | nil => rfl
  | cons x l ih => exact ih (s.readDue k x)

theorem State.cam_readDue (hn : n < s.tm.cams.length) : (s.readDue k m).cam n =
    if n = m then { s.cam n with pulse := k, waiting := true } else s.cam n := by
  split
  · next h =>
    subst h
    exact State.cam_modCam_self hn _
  · next h => exact State.cam_modCam_ne h _

theorem State.cam_readsDue {l : List Nat} (hn : n < s.tm.cams.length) : (l.foldl (State.readDue k) s).cam n =
    if n ∈ l then { s.cam n with pulse := k, waiting := true } else s.cam n := by
  induction l generalizing s with
  | nil => rfl
  | cons x l ih =>
    have hn' : n < (s.readDue k x).tm.cams.length := hn.trans_eq (s.length_modCam x _).symm
    rw [List.foldl_cons, ih hn', State.cam_readDue hn]
    by_cases hx : n = x <;> by_cases hl : n ∈ l <;> simp [hx, hl]

theorem State.camLatch_readsDue {l : List Nat} (h : n ∈ l ∨ alGet s.timers (.camLatch n) = some (s.devtime + 500000000)) :
    alGet (l.foldl (State.readDue k) s).timers (.camLatch n) = some (s.devtime + 500000000) := by
  induction l generalizing s with
  | nil => exact h.resolve_left List.not_mem_nil
  | cons x l ih =>
    refine ih (s := s.readDue k x) ?_
    by_cases hx : n = x
    · exact .inr (hx ▸ alGet_alPut_self _ _ _)
    · refine h.imp (fun h => (List.mem_cons.mp h).resolve_left hx) fun h => ?_
      exact (alGet_alPut_ne _ _ (by simpa using hx)).trans h

theorem State.camSync_readsDue (l : List Nat) (s : State) :
    alGet (l.foldl (State.readDue k) s).timers .camSync = alGet s.timers .camSync := by
  induction l generalizing s with
  | nil => rfl
  | cons x l ih => exact (ih (s.readDue k x)).trans (alGet_alPut_ne _ _ (by simp))

/-- CAM_SYNC has risen for the pulse at second k. -/
def State.camSyncRaised (s : State) (k : Nat) : State :=
  ((s.modPins fun p => { p with camSync := .high }).modTm fun t => { t with lastPulse := some k }).arm .camSync
    (10000 - s.devtime % 1000000000)

theorem exec_camSyncPulse_due (hclock : s.clockRuns = true) (hrun : s.inRun = true) (hen : s.flag R.tmCtrlSyncEn = true)
    (hearly : s.devtime % 1000000000 < 10000) (hlast : s.tm.lastPulse ≠ some (s.devtime / 1000000000)) : exec .camSyncPulse s =
      .next (s.learnPorts.foldl (State.readDue (s.devtime / 1000000000)) (s.camSyncRaised (s.devtime / 1000000000))) := by
  show execCamSyncPulse s = _
  unfold execCamSyncPulse
  rw [if_pos (by simp [hclock, hrun, hen, hearly, hlast])]
  rfl

theorem exec_camSyncPulse_idle (h : s.inRun = false ∨ s.flag R.tmCtrlSyncEn = false ∨ 10000 ≤ s.devtime % 1000000000 ∨
    s.tm.lastPulse = some (s.devtime / 1000000000)) : exec .camSyncPulse s = .next s := by
  show execCamSyncPulse s = _
  unfold execCamSyncPulse
  rw [if_neg]
  rcases h with h | h | h | h <;> simp [h]

theorem State.mem_learnPorts (hn : n < s.member.ports) : n ∈ s.learnPorts ↔ s.reg R.tmCamCfgMode n = 1 := by
  simp [State.learnPorts, hn]

theorem exec_camSyncPulse_spec (hclock : s.clockRuns = true) (hrun : s.inRun = true) (hen : s.flag R.tmCtrlSyncEn = true)
    (hearly : s.devtime % 1000000000 < 10000) (hlast : s.tm.lastPulse ≠ some (s.devtime / 1000000000))
    (hlen : s.tm.cams.length = 4) : ∃ t, exec .camSyncPulse s = .next t ∧
      t.pins = { s.pins with camSync := .high } ∧ t.tm.lastPulse = some (s.devtime / 1000000000) ∧
      alGet t.timers .camSync = some (s.devtime / 1000000000 * 1000000000 + 10000) ∧
      (∀ n, n < s.member.ports → t.cam n = if s.reg R.tmCamCfgMode n = 1 then
        { s.cam n with pulse := s.devtime / 1000000000, waiting := true } else s.cam n) ∧
      (∀ n, n < s.member.ports → s.reg R.tmCamCfgMode n = 1 → alGet t.timers (.camLatch n) = some (s.devtime + 500000000)) ∧
      t = { s with pins := t.pins, tm := t.tm, timers := t.timers } := by
  have hframe := State.readsDue_frame (s.devtime / 1000000000) s.learnPorts (s.camSyncRaised (s.devtime / 1000000000))
  refine ⟨_, exec_camSyncPulse_due hclock hrun hen hearly hlast, congrArg State.pins hframe,
    State.readsDue_lastPulse _ _ _, (State.camSync_readsDue _ _).trans ((alGet_alPut_self _ _ _).trans ?_),
    fun n hn => ?_, fun n hn hmode => ?_, ?_⟩
  · show some (s.devtime + (10000 - s.devtime % 1000000000)) = _
    congr 1
    omega
  · have hcam := State.cam_readsDue (s := s.camSyncRaised (s.devtime / 1000000000)) (k := s.devtime / 1000000000) (l := s.learnPorts)
      ((hn.trans_le s.member.ports_le).trans_eq hlen.symm)
    rwa [if_congr (State.mem_learnPorts hn) rfl rfl] at hcam
  · exact State.camLatch_readsDue (s := s.camSyncRaised _) (.inl ((State.mem_learnPorts hn).mpr hmode))
  · rw [hframe]
    rfl

/-! ## An accepted sample (R214, R215) -/

/-- The fields that an accepted sample of camera n writes. -/
def sampleKeys (n : Nat) : List Nat :=
  [R.tmCamOfsLoOffset.key n 0, R.tmCamOfsHiOffset.key n 0, R.tmCamStatLost.key n 0, R.tmCamDriftPpb.key n 0]

/-- The sample is OFFSET and the last of the camera's samples, before DRIFT follows it. -/
def State.sampleKept (s : State) (n a : Nat) (v : Int) : State :=
  let l := (s.cam n).samples ++ [(a, v)]
  let u := s.modCam n fun c => { c with fresh := min 2 (c.fresh + 1), lastAt := a, samples := l.drop (l.length - 16), cands := [] }
  ((u.setReg R.tmCamOfsLoOffset (ofSigned 64 v) n).setReg R.tmCamOfsHiOffset (ofSigned 64 v / 2 ^ 32) n).setReg R.tmCamStatLost 0 n

theorem State.acceptSample_eq (s : State) (n a : Nat) (v : Int) : s.acceptSample n a v = s.sampleKept n a v ∨
    ∃ d, s.acceptSample n a v = (s.sampleKept n a v).setRegS R.tmCamDriftPpb d n := by
  unfold State.acceptSample
  extract_lets l l' u o w
  split
  · next d _ => exact .inr ⟨d, rfl⟩
  · exact .inl rfl

theorem State.regsBut_sampleKept (s : State) (n a : Nat) (v : Int) : s.regsBut (s.sampleKept n a v) (sampleKeys n) := by
  have hset : s.regsBut (((s.setReg R.tmCamOfsLoOffset (ofSigned 64 v) n).setReg R.tmCamOfsHiOffset (ofSigned 64 v / 2 ^ 32) n).setReg
      R.tmCamStatLost 0 n) (sampleKeys n) :=
    (((s.regsBut_refl _).setReg (by simp [sampleKeys])).setReg (by simp [sampleKeys])).setReg (by simp [sampleKeys])
  exact hset.of_regs rfl

theorem State.reg_acceptSample (s : State) (n a : Nat) (v : Int) {r : Row} {i : Nat} (h : R.tmCamDriftPpb.key n 0 ≠ r.key i 0) :
    (s.acceptSample n a v).reg r i = (s.sampleKept n a v).reg r i := by
  rcases s.acceptSample_eq n a v with he | ⟨d, he⟩
  · rw [he]
  · rw [he]
    exact State.reg_setReg_ne _ _ _ _ _ _ _ _ h

theorem State.regsBut_acceptSample (s : State) (n a : Nat) (v : Int) : s.regsBut (s.acceptSample n a v) (sampleKeys n) := by
  have hkept := s.regsBut_sampleKept n a v
  rcases s.acceptSample_eq n a v with he | ⟨d, he⟩
  · rwa [he]
  · rw [he]
    exact hkept.setReg (by simp [sampleKeys])

/-- Beside its registers a sample changes only its camera. -/
theorem State.acceptSample_tm (s : State) (n a : Nat) (v : Int) : ∃ l,
    (s.acceptSample n a v).tm = (s.modCam n fun c => { c with fresh := min 2 (c.fresh + 1), lastAt := a, samples := l, cands := [] }).tm ∧
    (s.acceptSample n a v).timers = s.timers ∧ (s.acceptSample n a v).devtime = s.devtime ∧ s.onlyTimed (s.acceptSample n a v) := by
  have hkept : s.onlyTimed (s.sampleKept n a v) := s.onlyTimed_refl.modCam.setReg.setReg.setReg
  rcases s.acceptSample_eq n a v with he | ⟨d, he⟩
  · rw [he]
    exact ⟨_, rfl, rfl, rfl, hkept⟩
  · rw [he]
    exact ⟨_, rfl, rfl, rfl, hkept.setReg⟩

theorem State.cam_acceptSample (hn : n < s.tm.cams.length) : ∃ l, (s.acceptSample n a v).cam n =
    { s.cam n with fresh := min 2 ((s.cam n).fresh + 1), lastAt := a, samples := l, cands := [] } := by
  obtain ⟨l, htm, -⟩ := s.acceptSample_tm n a v
  exact ⟨l, (congrArg (·.cams.getD n {}) htm).trans (State.cam_modCam_self hn _)⟩

theorem State.cam_acceptSample_ne (h : m ≠ n) : (s.acceptSample n a v).cam m = s.cam m := by
  obtain ⟨l, htm, -⟩ := s.acceptSample_tm n a v
  exact (congrArg (·.cams.getD m {}) htm).trans (State.cam_modCam_ne h _)

theorem ofSigned_lt (w : Nat) (v : Int) : ofSigned w v < 2 ^ w := by
  have h : (0 : Int) < (2 ^ w : Nat) := by exact_mod_cast Nat.two_pow_pos w
  have hlt := Int.emod_lt_of_pos v h
  have hnonneg := Int.emod_nonneg v h.ne'
  unfold ofSigned
  omega

/-- The two words of OFFSET hold a sample of 64 bits. -/
theorem State.camBase_acceptSample (hlo : -(2 ^ 63 : Nat) ≤ v) (hhi : v < (2 ^ 63 : Nat)) : (s.acceptSample n a v).camBase n = v := by
  have hlow : (s.acceptSample n a v).reg R.tmCamOfsLoOffset n = ofSigned 64 v % 2 ^ 32 := by
    rw [State.reg_acceptSample _ _ _ _ (by simp [Row.key, R.tmCamDriftPpb, R.tmCamOfsLoOffset])]
    unfold State.sampleKept
    rw [State.reg_setReg_ne _ _ _ _ _ _ _ _ (by simp only [Row.key, R.tmCamStatLost, R.tmCamOfsLoOffset]; omega),
      State.reg_setReg_ne _ _ _ _ _ _ _ _ (by simp [Row.key, R.tmCamOfsHiOffset, R.tmCamOfsLoOffset]), State.reg_setReg_self]
    rfl
  have hhigh : (s.acceptSample n a v).reg R.tmCamOfsHiOffset n = ofSigned 64 v / 2 ^ 32 % 2 ^ 32 := by
    rw [State.reg_acceptSample _ _ _ _ (by simp [Row.key, R.tmCamDriftPpb, R.tmCamOfsHiOffset])]
    unfold State.sampleKept
    rw [State.reg_setReg_ne _ _ _ _ _ _ _ _ (by simp only [Row.key, R.tmCamStatLost, R.tmCamOfsHiOffset]; omega), State.reg_setReg_self]
    rfl
  have hjoin : ofSigned 64 v % 2 ^ 32 + 2 ^ 32 * (ofSigned 64 v / 2 ^ 32 % 2 ^ 32) = ofSigned 64 v := by
    have h := ofSigned_lt 64 v
    omega
  unfold State.camBase
  rw [hlow, hhigh, hjoin]
  exact toSigned_ofSigned (by decide) hlo hhi

theorem State.lost_acceptSample (s : State) (n a : Nat) (v : Int) : (s.acceptSample n a v).reg R.tmCamStatLost n = 0 := by
  rw [State.reg_acceptSample _ _ _ _ (by simp only [Row.key, R.tmCamStatLost, R.tmCamDriftPpb]; omega)]
  exact State.reg_setReg_self _ _ _ _ _

/-- No key of a sample is that of the camera's JUMPS. -/
theorem jumps_not_mem_sampleKeys (hn : n < 4) : R.tmCamStatJumps.key n 0 ∉ sampleKeys n := by
  simp only [sampleKeys, Row.key, R.tmCamStatJumps, R.tmCamOfsLoOffset, R.tmCamOfsHiOffset, R.tmCamStatLost, R.tmCamDriftPpb,
    List.mem_cons, List.not_mem_nil, or_false]
  omega

/-! ## A latch read (R214, R215) -/

/-- The latch read of camera n has ended without a miss. -/
def State.latchFinished (s : State) (n : Nat) : State :=
  (s.disarm (.camLatch n)).modCam n fun c => { c with waiting := false, missRun := 0 }

/-- A jump of the sample v of camera n at the pulse at a: it counts, and is the third of three that agree or waits for more. -/
def State.jumped (s : State) (n a : Nat) (v : Int) : State :=
  let l := (s.cam n).cands ++ [v]
  let l := l.drop (l.length - 3)
  let u := (s.latchFinished n).bump R.tmCamStatJumps n
  if closeRun (1000 * s.reg R.tmCtrlOfsTol) l then u.acceptSample n a v else u.modCam n fun c => { c with cands := l }

theorem exec_camLatchReadDone_read (hclock : s.clockRuns = true) (hwait : (s.cam n).waiting = true)
    (hmode : s.reg R.tmCamCfgMode n = 1) (hdue : s.due (.camLatch n) = false)
    (hv : v = ((s.cam n).pulse * 1000000000 : Nat) - (latch.toNat % 2 ^ 41 * 1000 : Nat) + s.regS R.tmPinDlyNs)
    (hp : p = s.camBase n + openDiv 214 (s.regS R.tmCamDriftPpb n * (((s.cam n).pulse * 1000000000 : Nat) - ((s.cam n).lastAt : Int)))
      1000000000) : exec (.camLatchReadDone n latch) s =
    .next (if (s.cam n).fresh < 2 ∨ (v - p).natAbs ≤ 1000 * s.reg R.tmCtrlOfsTol
      then (s.latchFinished n).acceptSample n ((s.cam n).pulse * 1000000000) v else s.jumped n ((s.cam n).pulse * 1000000000) v) := by
  show execCamLatchReadDone n latch s = _
  unfold execCamLatchReadDone
  extract_lets c a v' u q tol l l' w
  rw [if_pos (by simp [c, hclock, hwait, hmode, hdue])]
  obtain rfl : v = v' := by
    rw [hv]
    unfold v' a
    push_cast
    rfl
  have hq : q = p := hp.symm
  rw [hq]
  refine congrArg Host.Outcome.next (if_congr (or_congr Iff.rfl ?_) rfl rfl)
  show ((v' - p).natAbs : Int) ≤ 1000 * (s.reg R.tmCtrlOfsTol : Int) ↔ _
  norm_cast

theorem exec_camLatchReadDone_idle (h : (s.cam n).waiting = false ∨ s.reg R.tmCamCfgMode n ≠ 1) :
    exec (.camLatchReadDone n latch) s = .next s := by
  show execCamLatchReadDone n latch s = _
  unfold execCamLatchReadDone
  dsimp only
  rw [if_neg]
  rcases h with h | h <;> simp [h]

/-- No latch read of camera n is under way, and its last one was no miss. -/
def State.latchQuiet (s : State) (n : Nat) : Prop :=
  (s.cam n).waiting = false ∧ (s.cam n).missRun = 0 ∧ s.armed (.camLatch n) = false

theorem State.cam_latchFinished (hn : n < s.tm.cams.length) :
    (s.latchFinished n).cam n = { s.cam n with waiting := false, missRun := 0 } :=
  State.cam_modCam_self (s := s.disarm (.camLatch n)) hn _

theorem State.cam_latchFinished_ne (h : m ≠ n) : (s.latchFinished n).cam m = s.cam m :=
  State.cam_modCam_ne (s := s.disarm (.camLatch n)) h _

theorem State.length_latchFinished (s : State) (n : Nat) : (s.latchFinished n).tm.cams.length = s.tm.cams.length :=
  State.length_modCam (s.disarm (.camLatch n)) n _

theorem State.onlyTimed_latchFinished (s : State) (n : Nat) : s.onlyTimed (s.latchFinished n) := s.onlyTimed_refl.modTimers.modCam

theorem State.latchQuiet_latchFinished (hn : n < s.tm.cams.length) : (s.latchFinished n).latchQuiet n := by
  unfold State.latchQuiet
  rw [State.cam_latchFinished hn]
  exact ⟨rfl, rfl, s.armed_disarm _⟩

theorem State.latchQuiet.acceptSample (h : s.latchQuiet n) (hn : n < s.tm.cams.length) : (s.acceptSample n a v).latchQuiet n := by
  obtain ⟨hwait, hmiss, harmed⟩ := h
  obtain ⟨l, hcam⟩ := State.cam_acceptSample (a := a) (v := v) hn
  obtain ⟨-, -, htimers, -⟩ := s.acceptSample_tm n a v
  unfold State.latchQuiet
  rw [hcam]
  refine ⟨hwait, hmiss, ?_⟩
  rwa [State.armed, htimers]

/-- A jump that waits for more. -/
theorem State.cam_jump_waits (hn : n < s.tm.cams.length) (l : List Int) :
    (((s.latchFinished n).bump R.tmCamStatJumps n).modCam n fun c => { c with cands := l }).cam n =
      { s.cam n with waiting := false, missRun := 0, cands := l } := by
  have hcam : ((s.latchFinished n).bump R.tmCamStatJumps n).cam n = _ := State.cam_latchFinished hn
  rw [State.cam_modCam_self (s := (s.latchFinished n).bump R.tmCamStatJumps n) (hn.trans_eq (s.length_latchFinished n).symm), hcam]

theorem State.latchQuiet_jumped (hn : n < s.tm.cams.length) : (s.jumped n a v).latchQuiet n := by
  have hread := State.latchQuiet_latchFinished hn
  unfold State.jumped
  dsimp only
  split
  · exact State.latchQuiet.acceptSample (s := (s.latchFinished n).bump R.tmCamStatJumps n) hread
      (hn.trans_eq (s.length_latchFinished n).symm)
  · unfold State.latchQuiet
    rw [State.cam_jump_waits hn]
    exact ⟨rfl, rfl, s.armed_disarm _⟩

theorem exec_camLatchReadDone_finishes (hclock : s.clockRuns = true) (hwait : (s.cam n).waiting = true)
    (hmode : s.reg R.tmCamCfgMode n = 1) (hdue : s.due (.camLatch n) = false) (hn : n < s.tm.cams.length) :
    ∃ t, exec (.camLatchReadDone n latch) s = .next t ∧
      (t.cam n).waiting = false ∧ (t.cam n).missRun = 0 ∧ t.armed (.camLatch n) = false := by
  refine ⟨_, exec_camLatchReadDone_read hclock hwait hmode hdue rfl rfl, ?_⟩
  split
  · exact (State.latchQuiet_latchFinished hn).acceptSample (hn.trans_eq (s.length_latchFinished n).symm)
  · exact State.latchQuiet_jumped hn

theorem toSigned_bounds (w b : Nat) : -(2 ^ (w - 1) : Nat) ≤ toSigned w b ∧ toSigned w b < (2 ^ (w - 1) : Nat) := by
  have hlt := Nat.mod_lt b (Nat.two_pow_pos w)
  have hpow : 2 ^ w ≤ 2 * 2 ^ (w - 1) := by
    rw [← Nat.pow_succ']
    exact Nat.pow_le_pow_right (by decide) (by omega)
  unfold toSigned
  dsimp only
  split <;> omega

/-- Up to the pulse of second 2^33 a sample has 64 bits. -/
theorem State.sample_bounds (hpulse : (s.cam n).pulse < 2 ^ 33)
    (hv : v = ((s.cam n).pulse * 1000000000 : Nat) - (latch.toNat % 2 ^ 41 * 1000 : Nat) + s.regS R.tmPinDlyNs) :
    -(2 ^ 63 : Nat) ≤ v ∧ v < (2 ^ 63 : Nat) := by
  have hdly : -(2 ^ 15 : Nat) ≤ s.regS R.tmPinDlyNs ∧ s.regS R.tmPinDlyNs < (2 ^ 15 : Nat) := toSigned_bounds 16 _
  have hlatch := Nat.mod_lt latch.toNat (Nat.two_pow_pos 41)
  omega

section
variable (hclock : s.clockRuns = true) (hwait : (s.cam n).waiting = true) (hmode : s.reg R.tmCamCfgMode n = 1)
  (hdue : s.due (.camLatch n) = false)
  (hv : v = ((s.cam n).pulse * 1000000000 : Nat) - (latch.toNat % 2 ^ 41 * 1000 : Nat) + s.regS R.tmPinDlyNs)
  (hp : p = s.camBase n + openDiv 214 (s.regS R.tmCamDriftPpb n * (((s.cam n).pulse * 1000000000 : Nat) - ((s.cam n).lastAt : Int)))
    1000000000)
include hclock hwait hmode hdue hv hp

/-- A sample that fits becomes OFFSET. -/
theorem exec_camLatchReadDone_accepts (hn : n < s.tm.cams.length) (hpulse : (s.cam n).pulse < 2 ^ 33)
    (h : (s.cam n).fresh < 2 ∨ (v - p).natAbs ≤ 1000 * s.reg R.tmCtrlOfsTol) : ∃ t, exec (.camLatchReadDone n latch) s = .next t ∧
      t.camBase n = v ∧ t.reg R.tmCamStatLost n = 0 ∧ (t.cam n).waiting = false ∧ (t.cam n).cands = [] ∧
      (t.cam n).lastAt = (s.cam n).pulse * 1000000000 ∧ (∀ m, m ≠ n → t.cam m = s.cam m) ∧
      t = { s with regs := t.regs, tm := t.tm, timers := t.timers } ∧ s.regsBut t (sampleKeys n) := by
  have hexec := exec_camLatchReadDone_read hclock hwait hmode hdue hv hp
  rw [if_pos h] at hexec
  obtain ⟨hlo, hhi⟩ := State.sample_bounds hpulse hv
  have hlen : n < (s.latchFinished n).tm.cams.length := hn.trans_eq (s.length_latchFinished n).symm
  obtain ⟨hquiet, -⟩ := (State.latchQuiet_latchFinished hn).acceptSample (a := (s.cam n).pulse * 1000000000) (v := v) hlen
  obtain ⟨l, hcam⟩ := State.cam_acceptSample (a := (s.cam n).pulse * 1000000000) (v := v) hlen
  obtain ⟨-, -, -, hdev, htimed⟩ := (s.latchFinished n).acceptSample_tm n ((s.cam n).pulse * 1000000000) v
  exact ⟨_, hexec, State.camBase_acceptSample hlo hhi, State.lost_acceptSample _ _ _ _, hquiet, congrArg (·.cands) hcam,
    congrArg (·.lastAt) hcam, fun m hm => (State.cam_acceptSample_ne hm).trans (State.cam_latchFinished_ne hm),
    ((s.onlyTimed_latchFinished n).trans htimed).frame hdev, (s.latchFinished n).regsBut_acceptSample _ _ _⟩

theorem exec_camLatchReadDone_jumps (hfresh : 2 ≤ (s.cam n).fresh)
    (hfar : ((1000 * s.reg R.tmCtrlOfsTol : Nat) : Int) < (v - p).natAbs) :
    exec (.camLatchReadDone n latch) s = .next (s.jumped n ((s.cam n).pulse * 1000000000) v) := by
  have hexec := exec_camLatchReadDone_read hclock hwait hmode hdue hv hp
  rwa [if_neg (by omega)] at hexec

end

theorem State.reg_jumps (s : State) (n : Nat) : ((s.latchFinished n).bump R.tmCamStatJumps n).reg R.tmCamStatJumps n =
    (s.reg R.tmCamStatJumps n + 1) % 2 ^ R.tmCamStatJumps.width := State.reg_setReg_self _ _ _ _ _

/-- The first and the second jump of a run wait for a third. -/
theorem State.jumped_waits (h : (s.cam n).cands.length < 2) : s.jumped n a v =
    ((s.latchFinished n).bump R.tmCamStatJumps n).modCam n fun c => { c with cands := (s.cam n).cands ++ [v] } := by
  unfold State.jumped
  dsimp only
  have hall : ((s.cam n).cands ++ [v]).length - 3 = 0 := by
    rw [List.length_append, List.length_singleton]
    omega
  rw [hall, List.drop_zero, if_neg]
  match (s.cam n).cands, h with
  | [], _ => simp [closeRun]
  | [_], _ => simp [closeRun]

/-- The third of three jumps that agree is a sample. -/
theorem State.jumped_agrees {b c : Int} (hcands : (s.cam n).cands = [b, c]) (hbc : (b - c).natAbs ≤ 1000 * s.reg R.tmCtrlOfsTol)
    (hbv : (b - v).natAbs ≤ 1000 * s.reg R.tmCtrlOfsTol) (hcv : (c - v).natAbs ≤ 1000 * s.reg R.tmCtrlOfsTol) :
    s.jumped n a v = ((s.latchFinished n).bump R.tmCamStatJumps n).acceptSample n a v := by
  unfold State.jumped
  dsimp only
  rw [hcands]
  refine if_pos ?_
  show (decide (((b - c).natAbs : Int) ≤ 1000 * (s.reg R.tmCtrlOfsTol : Int)) &&
    decide (((b - v).natAbs : Int) ≤ 1000 * (s.reg R.tmCtrlOfsTol : Int)) &&
    decide (((c - v).natAbs : Int) ≤ 1000 * (s.reg R.tmCtrlOfsTol : Int))) = true
  simp only [Bool.and_eq_true, decide_eq_true_eq]
  omega

/-! ## A miss, and a write of MODE (R214 to R216) -/

/-- The latch read of camera n has missed. -/
def State.latchMissed (s : State) (n : Nat) : State :=
  ((s.disarm (.camLatch n)).modCam n fun c => { c with waiting := false, missRun := c.missRun + 1 }).bump R.tmCamStatMisses n

theorem State.cam_latchMissed (hn : n < s.tm.cams.length) :
    (s.latchMissed n).cam n = { s.cam n with waiting := false, missRun := (s.cam n).missRun + 1 } :=
  State.cam_modCam_self (s := s.disarm (.camLatch n)) hn _

theorem State.cam_latchMissed_ne (h : m ≠ n) : (s.latchMissed n).cam m = s.cam m :=
  State.cam_modCam_ne (s := s.disarm (.camLatch n)) h _

theorem exec_camLatchTimeout_misses (hclock : s.clockRuns = true) (hwait : (s.cam n).waiting = true)
    (h : nack = true ∨ s.due (.camLatch n) = true) (hn : n < s.tm.cams.length) : exec (.camLatchTimeout n nack) s =
      .next (if 2 ≤ (s.cam n).missRun then (s.latchMissed n).setReg R.tmCamStatLost 1 n else s.latchMissed n) := by
  show execCamLatchTimeout n nack s = _
  unfold execCamLatchTimeout
  extract_lets c u w
  rw [if_pos (by rcases h with h | h <;> simp [c, hclock, hwait, h])]
  have hw : w = s.latchMissed n := rfl
  rw [hw, State.cam_latchMissed hn]
  exact congrArg Host.Outcome.next (if_congr Nat.succ_le_succ_iff rfl rfl)

theorem exec_camLatchTimeout_spec (hclock : s.clockRuns = true) (hwait : (s.cam n).waiting = true)
    (h : nack = true ∨ s.due (.camLatch n) = true) (hn : n < s.tm.cams.length) : ∃ t, exec (.camLatchTimeout n nack) s = .next t ∧
      t.cam n = { s.cam n with waiting := false, missRun := (s.cam n).missRun + 1 } ∧ (∀ m, m ≠ n → t.cam m = s.cam m) ∧
      t.reg R.tmCamStatMisses n = (s.reg R.tmCamStatMisses n + 1) % 2 ^ R.tmCamStatMisses.width ∧
      t.reg R.tmCamStatLost n = (if 2 ≤ (s.cam n).missRun then 1 else s.reg R.tmCamStatLost n) ∧
      t = { s with regs := t.regs, tm := t.tm, timers := t.timers } ∧
      s.regsBut t [R.tmCamStatMisses.key n 0, R.tmCamStatLost.key n 0] := by
  have hne : R.tmCamStatLost.key n 0 ≠ R.tmCamStatMisses.key n 0 := by simp [Row.key, R.tmCamStatLost, R.tmCamStatMisses]
  have hmisses : (s.latchMissed n).reg R.tmCamStatMisses n = (s.reg R.tmCamStatMisses n + 1) % 2 ^ R.tmCamStatMisses.width :=
    State.reg_setReg_self _ _ _ _ _
  have hlost : (s.latchMissed n).reg R.tmCamStatLost n = s.reg R.tmCamStatLost n := State.reg_setReg_ne _ _ _ _ _ _ _ _ hne.symm
  have hregs : s.regsBut (s.latchMissed n) [R.tmCamStatMisses.key n 0, R.tmCamStatLost.key n 0] :=
    ((s.regsBut_refl _).setReg (by simp)).of_regs (t := s.setReg R.tmCamStatMisses (s.reg R.tmCamStatMisses n + 1) n) rfl
  have htimed : s.onlyTimed (s.latchMissed n) := s.onlyTimed_refl.modTimers.modCam.setReg
  refine ⟨_, exec_camLatchTimeout_misses hclock hwait h hn, ?_⟩
  split
  · exact ⟨State.cam_latchMissed hn, fun m hm => State.cam_latchMissed_ne hm, (State.reg_setReg_ne _ _ _ _ _ _ _ _ hne).trans hmisses,
      State.reg_setReg_self _ _ _ _ _, htimed.setReg.frame rfl, hregs.setReg (by simp)⟩
  · exact ⟨State.cam_latchMissed hn, fun m hm => State.cam_latchMissed_ne hm, hmisses, hlost, htimed.frame rfl, hregs⟩

theorem exec_camModeWrite_spec {mode : BitVec 2} (halive : s.alive = true) (hport : n < s.member.ports) (hn : n < s.tm.cams.length) :
    ∃ t, exec (.camModeWrite n mode) s = .next t ∧ t.reg R.tmCamCfgMode n = mode.toNat ∧ t.cam n = { lastAt := s.devtime } ∧
      (∀ m, m ≠ n → t.cam m = s.cam m) ∧ t.armed (.camLatch n) = false ∧
      t = { s with regs := t.regs, tm := t.tm, timers := t.timers } ∧ s.regsBut t [R.tmCamCfgMode.key n 0] := by
  have hexec : exec (.camModeWrite n mode) s = .next (((s.setReg R.tmCamCfgMode mode.toNat n).disarm (.camLatch n)).modCam n
      fun _ => { lastAt := s.devtime }) := by
    show execCamModeWrite n mode s = _
    unfold execCamModeWrite State.writeCamMode
    rw [if_pos halive, if_neg (Nat.not_le_of_lt hport)]
  have htimed : s.onlyTimed (((s.setReg R.tmCamCfgMode mode.toNat n).disarm (.camLatch n)).modCam n fun _ => { lastAt := s.devtime }) :=
    s.onlyTimed_refl.setReg.modTimers.modCam
  refine ⟨_, hexec, ?_, State.cam_modCam_self hn _, fun m hm => State.cam_modCam_ne hm _, State.armed_disarm _ _, htimed.frame rfl,
    (s.regsBut_setReg R.tmCamCfgMode mode.toNat n 0).of_regs rfl⟩
  exact (s.reg_setReg_self R.tmCamCfgMode mode.toNat n 0).trans (Nat.mod_eq_of_lt mode.isLt)

end

/-- Settles O36: a pulse, each fate of a latch read, a miss and a write of MODE, by what each leaves of the camera's learning. -/
theorem cameraOffsets : Obligations.CameraOffsets := by
  refine ⟨fun n latch s hclock hwait hmode hdue hn => exec_camLatchReadDone_finishes hclock hwait hmode hdue hn,
    fun s hclock hrun hen hearly hlast hlen => exec_camSyncPulse_spec hclock hrun hen hearly hlast hlen,
    fun s h => exec_camSyncPulse_idle h, fun n latch v p s hclock hwait hmode hdue hn h4 hpulse hv hp =>
      ⟨fun h => exec_camLatchReadDone_accepts hclock hwait hmode hdue hv hp hn hpulse h, fun hfresh hfar hfew => ?_,
        fun b c hfresh hfar hcands hbc hbv hcv => ?_⟩,
    fun n latch s h => exec_camLatchReadDone_idle h, fun n nack s hclock hwait h hn => exec_camLatchTimeout_spec hclock hwait h hn,
    fun n mode s halive hport hn => exec_camModeWrite_spec halive hport hn⟩
  · have hexec := exec_camLatchReadDone_jumps hclock hwait hmode hdue hv hp hfresh hfar
    rw [State.jumped_waits hfew] at hexec
    have hregs := (s.regsBut_setReg R.tmCamStatJumps (s.reg R.tmCamStatJumps n + 1) n 0)
    exact ⟨_, hexec, State.cam_jump_waits hn _, s.reg_jumps n, (s.onlyTimed_latchFinished n).setReg.modCam.frame rfl, hregs.of_regs rfl⟩
  · have hexec := exec_camLatchReadDone_jumps hclock hwait hmode hdue hv hp hfresh hfar
    rw [State.jumped_agrees hcands hbc hbv hcv] at hexec
    obtain ⟨hlo, hhi⟩ := State.sample_bounds hpulse hv
    obtain ⟨l, hcam⟩ := State.cam_acceptSample (s := (s.latchFinished n).bump R.tmCamStatJumps n) (a := (s.cam n).pulse * 1000000000)
      (v := v) (hn.trans_eq (s.length_latchFinished n).symm)
    have hjumps := State.regsBut_acceptSample ((s.latchFinished n).bump R.tmCamStatJumps n) n ((s.cam n).pulse * 1000000000) v
      R.tmCamStatJumps n 0 (jumps_not_mem_sampleKeys h4)
    exact ⟨_, hexec, State.camBase_acceptSample hlo hhi, congrArg (·.cands) hcam, hjumps.trans (s.reg_jumps n)⟩

end Sys2Proof.Machine
end

section
/-! QUAR_CLR is a field of six bits, but nothing in a state bounds what it reads; its clause among the tests of a source bounds QUAR alone
(R359). -/
namespace Sys2Proof.Machine

/-- Keeper in RUN, PD07 on, and QUAR_CLR reading 64, one above its largest value. -/
def wideQuarClrState : State where
  keeper := { mode := .run }
  regs := [(R.pwDomStateOn.key 0 0, 0x80), (R.fuSrcstateQuarClr.key 0 0, 64)]

/-- A QUAR_CLR that releases no source writes back the low six bits of what the field reads. -/
theorem exec_quarClr_wideQuarClrState : ∃ t, exec (.quarClr 0) wideQuarClrState = .next t ∧ t.reg R.fuSrcstateQuarClr = 0 :=
  ⟨_, rfl, by decide +kernel⟩

/-- Refutes O43: its clause on QUAR_CLR does not bound what the field reads. From 64, which no run reaches, a write of no bit leaves 0. -/
theorem not_fusionInputsAndTests : ¬ Obligations.FusionInputsAndTests := by
  rintro ⟨-, -, -, -, -, -, -, -, -, -, hquar, -⟩
  obtain ⟨t, hexec, -, hclr, -⟩ := hquar 0 wideQuarClrState (by decide +kernel) (by decide +kernel)
  obtain ⟨u, hexec', hzero⟩ := exec_quarClr_wideQuarClrState
  obtain rfl : t = u := by injection hexec.symm.trans hexec'
  have hwide : wideQuarClrState.reg R.fuSrcstateQuarClr = 64 := by decide +kernel
  have hread := hclr (by decide +kernel)
  rw [hzero, hwide] at hread
  exact absurd hread (by decide)

end Sys2Proof.Machine
end

section
/-! The head cell of a queue is delivered: popped or taken (R231, R232, R235, R237 to R239, R250). -/
namespace Sys2Proof.Machine

section
variable {s t u : State} {q n ep : Nat} {c : Cell} {rest : List Cell} {l : List HeldCell} {ks : List Nat}

/-! ## One queue of several -/

theorem State.queue_modQueue_ne (h : n ≠ q) (f : Queue → Queue) : (s.modQueue q f).queue n = s.queue n := by
  simp [State.queue, State.modQueue, alMod, alGet_alPut_ne _ _ h]

theorem State.queue_congr (h : t.pal.queues = s.pal.queues) (n : Nat) : t.queue n = s.queue n := by
  unfold State.queue
  rw [h]

theorem State.queue_watermark_ne (h : n ≠ q) : (s.watermark q).queue n = s.queue n := State.queue_modQueue_ne h _

theorem State.flag_of_regsBut (h : s.regsBut t ks) {r : Row} {i j : Nat} (hk : r.key i j ∉ ks) : t.flag r i j = s.flag r i j := by
  unfold State.flag
  rw [h r i j hk]

theorem State.flag_eq_true_iff {r : Row} {i j : Nat} : s.flag r i j = true ↔ s.reg r i j = 1 := decide_eq_true_iff

/-- The registers above the event ports' do not share EI_XOFF's bit address. -/
theorem Row.key_ne_xoff {r : Row} (h : 0x408001 ≤ r.off) (i j : Nat) : r.key i j ≠ R.eiXoffState.key 0 0 := by
  simp only [Row.key, R.eiXoffState]
  omega

/-! ## The delivery of a cell (R228, R237, R239) -/

/-- The tag of a cell that is delivered (R228). -/
def Cell.tag (c : Cell) : Nat := if parity 64 c.data.toNat != c.dp then 1 else if c.marker then 2 else 0

theorem Cell.tag_of_data (h : c.marker = false) : c.tag = if parity 64 c.data.toNat = c.dp then 0 else 1 := by
  by_cases hp : parity 64 c.data.toNat = c.dp <;> simp [Cell.tag, h, hp]

theorem Cell.tag_of_marker (h : c.marker = true) : c.tag = if parity 64 c.data.toNat = c.dp then 2 else 1 := by
  by_cases hp : parity 64 c.data.toNat = c.dp <;> simp [Cell.tag, h, hp]

theorem Cell.tag_of_good (h : c.marker = false) (hp : parity 64 c.data.toNat = c.dp) : c.tag = 0 := by
  rw [Cell.tag_of_data h, if_pos hp]

/-- What endpoint ep is given of the head cell of queue q. -/
def Cell.delivery (c : Cell) (q ep : Nat) : Delivery :=
  { ep := ep, qid := q, data := c.data, tag := c.tag, eop := c.eop, epm := c.epm,
    item := if q = 0x1FF then c.item else c.itemSeen c.tag, idx := c.idx }

theorem Cell.delivery_tag (c : Cell) (q ep : Nat) : (c.delivery q ep).tag = c.tag := by rw [Cell.delivery]

/-- What a TAKE holds of the head cell of queue q. -/
def Cell.hold (c : Cell) (q ep : Nat) : HeldCell :=
  { idx := c.idx, qid := q, data := c.data, dp := c.dp, item := (c.delivery q ep).item, eop := c.eop, epm := c.epm, lpOk := c.lpOk }

/-- A queue whose head cell has gone to its reader. -/
def Queue.behindHead (x : Queue) (c : Cell) (rest : List Cell) : Queue :=
  { x with cells := rest, stalled := none, markerOpen := x.markerOpen && !c.marker,
           dropPend := x.dropPend && !c.eop && !c.marker, markerBad := if c.marker then c.tag == 1 else x.markerBad }

/-- The head cell is delivered, before the marker, the held cells and the watermarks follow. -/
def State.headOut (s : State) (q ep : Nat) (c : Cell) (rest : List Cell) : State :=
  ((s.modQueue q fun x => x.behindHead c rest).renameItem c.item (c.delivery q ep).item).modPal fun p =>
    { p with delivered := some (c.delivery q ep) }

theorem State.deliverHead_eq (hc : (s.queue q).cells = c :: rest) (take : Bool) : s.deliverHead q ep take =
    ((if c.marker then (s.headOut q ep c rest).relinkMarker q
      else if take then ((s.headOut q ep c rest).modPal fun p => { p with held := p.held ++ [c.hold q ep] }).bump R.qmHoldHeld ep
      else s.headOut q ep c rest).watermark q).releaseRetired q := by
  unfold State.deliverHead
  rw [hc]
  rfl

/-- In t the head cell c of queue q has been delivered to ep and `rest` is left: the held cells are as named, and beside the palette,
the XOFF balls and the fields at `ks` nothing has changed. -/
structure State.headGone (s : State) (q ep : Nat) (c : Cell) (rest : List Cell) (held : List HeldCell) (ks : List Nat)
    (t : State) : Prop where
  queue : ∃ b, t.queue q = { (s.queue q).behindHead c rest with highState := b }
  others : ∀ n, n ≠ q → t.queue n = s.queue n
  frame : t = { s with
    regs := t.regs, pins := { s.pins with xoff := t.pins.xoff },
    pal := { s.pal with queues := t.pal.queues, poisoned := t.pal.poisoned, held := held, delivered := some (c.delivery q ep) } }
  regs : s.regsBut t ks

theorem State.headGone_headOut (s : State) (q ep : Nat) (c : Cell) (rest : List Cell) (ks : List Nat) :
    s.headGone q ep c rest s.pal.held ks (s.headOut q ep c rest) := by
  have hframe : s.headOut q ep c rest = { s with pal := { s.pal with
      queues := (s.modQueue q fun x => x.behindHead c rest).pal.queues, poisoned := (s.headOut q ep c rest).pal.poisoned,
      delivered := some (c.delivery q ep) } } := by
    unfold State.headOut State.renameItem
    split <;> rfl
  have hqueues : (s.headOut q ep c rest).pal.queues = (s.modQueue q fun x => x.behindHead c rest).pal.queues := by rw [hframe]
  refine ⟨⟨(s.queue q).highState, ?_⟩, fun n hn => ?_, ?_, (s.regsBut_refl ks).of_regs (by rw [hframe])⟩
  · rw [State.queue_congr hqueues, State.queue_modQueue_self]
    rfl
  · rw [State.queue_congr hqueues, State.queue_modQueue_ne hn]
  · rw [hframe]

theorem State.reg_headOut (s : State) (q ep : Nat) (c : Cell) (rest : List Cell) (r : Row) (i j : Nat) :
    (s.headOut q ep c rest).reg r i j = s.reg r i j := (s.headGone_headOut q ep c rest []).regs r i j List.not_mem_nil

theorem State.headGone.cells (h : s.headGone q ep c rest l ks t) : (t.queue q).cells = rest := by
  obtain ⟨b, hq⟩ := h.queue
  rw [hq]
  rfl

theorem State.headGone.delivered (h : s.headGone q ep c rest l ks t) : t.pal.delivered = some (c.delivery q ep) := by rw [h.frame]

theorem State.headGone.held (h : s.headGone q ep c rest l ks t) : t.pal.held = l := by rw [h.frame]

theorem State.headGone.discard (h : s.headGone q ep c rest l ks t) : (t.queue q).discard = (s.queue q).discard := by
  obtain ⟨b, hq⟩ := h.queue
  rw [hq]
  rfl

theorem State.headGone.hold (h : s.headGone q ep c rest l ks t) {e : HeldCell} (hk : R.qmHoldHeld.key ep 0 ∈ ks) :
    s.headGone q ep c rest (l ++ [e]) ks ((t.modPal fun p => { p with held := p.held ++ [e] }).bump R.qmHoldHeld ep) where
  queue := h.queue
  others := h.others
  frame := by
    rw [h.frame]
    rfl
  regs := (h.regs.of_regs (u := t.modPal _) rfl).setReg hk

theorem State.headGone.watermark (h : s.headGone q ep c rest l ks t) (hk : R.eiXoffState.key 0 0 ∈ ks) :
    s.headGone q ep c rest l ks (t.watermark q) := by
  obtain ⟨⟨b, hq⟩, -, -, hframe, hregs⟩ := t.watermark_spec q
  refine ⟨⟨b, ?_⟩, fun n hn => (State.queue_watermark_ne hn).trans (h.others n hn), ?_, fun r i j hr => ?_⟩
  · obtain ⟨b', hq'⟩ := h.queue
    rw [hq, hq']
  · rw [hframe, h.frame]
  · exact (hregs r i j (by simpa using fun he : r.key i j = _ => hr (he ▸ hk))).trans (h.regs r i j hr)

/-- A queue that is not retired releases nothing. -/
theorem State.releaseRetired_of_present (h : s.flag R.qmQCfgRetired q = false) : s.releaseRetired q = s := by
  simp [State.releaseRetired, h]

theorem State.relinkMarker_of_zero (h : s.reg R.qmQGapCount q = 0) : s.relinkMarker q = s := by
  simp [State.relinkMarker, h]

theorem State.headGone.releaseRetired (h : s.headGone q ep c rest l ks t) (hret : s.flag R.qmQCfgRetired q = false)
    (hk : R.qmQCfgRetired.key q 0 ∉ ks) : s.headGone q ep c rest l ks (t.releaseRetired q) := by
  rwa [State.releaseRetired_of_present (by rw [State.flag_of_regsBut h.regs hk, hret])]

/-- A pop of the head cell: a data cell, or a marker behind which no drop has been counted. -/
theorem State.headGone_pop (hc : (s.queue q).cells = c :: rest) (hgap : c.marker = true → s.reg R.qmQGapCount q = 0)
    (hret : s.flag R.qmQCfgRetired q = false) :
    s.headGone q ep c rest s.pal.held [R.eiXoffState.key 0 0] (s.deliverHead q ep false) := by
  have hout := s.headGone_headOut q ep c rest [R.eiXoffState.key 0 0]
  have hkey {r : Row} (hr : 0x408001 ≤ r.off) : r.key q 0 ∉ [R.eiXoffState.key 0 0] := by simpa using r.key_ne_xoff hr q 0
  have hlink : c.marker = true → (s.headOut q ep c rest).relinkMarker q = s.headOut q ep c rest := fun hm =>
    State.relinkMarker_of_zero ((hout.regs _ _ _ (hkey (by decide))).trans (hgap hm))
  rw [State.deliverHead_eq hc]
  refine State.headGone.releaseRetired (State.headGone.watermark ?_ (by simp)) hret (hkey (by decide))
  split
  · next hm => rwa [hlink hm]
  · exact hout

/-- A TAKE of the head cell, which is held. -/
theorem State.headGone_take (hc : (s.queue q).cells = c :: rest) (hm : c.marker = false) (hret : s.flag R.qmQCfgRetired q = false) :
    s.headGone q ep c rest (s.pal.held ++ [c.hold q ep]) [R.eiXoffState.key 0 0, R.qmHoldHeld.key ep 0] (s.deliverHead q ep true) ∧
    (s.deliverHead q ep true).reg R.qmHoldHeld ep = (s.reg R.qmHoldHeld ep + 1) % 2 ^ 16 := by
  have hret' : R.qmQCfgRetired.key q 0 ∉ [R.eiXoffState.key 0 0, R.qmHoldHeld.key ep 0] := by
    simp only [Row.key, R.qmQCfgRetired, R.eiXoffState, R.qmHoldHeld, List.mem_cons, List.not_mem_nil, or_false]
    omega
  have hgone := ((s.headGone_headOut q ep c rest _).hold (e := c.hold q ep) (List.mem_cons_of_mem _ (List.mem_singleton_self _)))
    |>.watermark (List.mem_cons_self)
  have hval := ((((s.headOut q ep c rest).modPal fun p => { p with held := p.held ++ [c.hold q ep] }).bump R.qmHoldHeld ep).watermark_spec
    q).2.2.2.2 R.qmHoldHeld ep 0 (by simpa using R.qmHoldHeld.key_ne_xoff (by decide) ep 0)
  rw [State.deliverHead_eq hc, hm]
  simp only [Bool.false_eq_true, if_false, if_true]
  rw [State.releaseRetired_of_present (by rw [State.flag_of_regsBut hgone.regs hret', hret])]
  refine ⟨hgone, hval.trans ((State.reg_setReg_self _ _ _ _ _).trans ?_)⟩
  rw [State.reg_modPal, State.reg_headOut]
  rfl

/-! ## POP and TAKE (R231, R237, R238) -/

theorem State.upsetHead_none (s : State) (q : Nat) : s.upsetHead q .none = s := if_pos rfl

theorem State.popOne_refused (h : s.popAllowed ep q = false) (take : Bool) (u : Upset) :
    s.popOne ep q take u = s.setReg R.qmStatusWrongEp 1 := by
  simp [State.popOne, h]

theorem State.popOne_delivers {take : Bool} (h : s.popAllowed ep q = true) (hw : s.popWaits ep q take = false) :
    s.popOne ep q take .none = s.deliverHead q ep take := by
  simp [State.popOne, h, State.upsetHead_none, hw]

theorem State.popOne_stalls {take : Bool} (h : s.popAllowed ep q = true) (hw : s.popWaits ep q take = true) :
    s.popOne ep q take .none = s.stall ep q take := by
  simp [State.popOne, h, State.upsetHead_none, hw]

theorem State.popWaits_of_head (hsev : (s.queue q).severing = false) (hc : (s.queue q).cells = c :: rest) {take : Bool}
    (hlimit : take = true → s.reg R.qmHoldHeld ep < s.reg R.qmHoldLimit ep) : s.popWaits ep q take = false := by
  cases take with
  | false => simp [State.popWaits, hsev, hc]
  | true => simpa [State.popWaits, hsev, hc] using hlimit rfl

theorem State.popWaits_of_empty (hc : (s.queue q).cells = []) (take : Bool) : s.popWaits ep q take = true := by
  simp [State.popWaits, hc]

/-- A reader that stalls is noted in its queue, and nothing else changes. -/
theorem State.stall_spec (hstall : (s.queue q).stalled = none) (take : Bool) :
    (s.stall ep q take).queue q = { s.queue q with stalled := some (ep, take) } ∧
    (∀ n, n ≠ q → (s.stall ep q take).queue n = s.queue n) ∧
    s.stall ep q take = { s with pal := { s.pal with queues := (s.stall ep q take).pal.queues } } := by
  refine ⟨?_, fun n hn => State.queue_modQueue_ne hn _, rfl⟩
  rw [State.stall, State.queue_modQueue_self, hstall]
  rfl

end

theorem exec_popCell (ep q : Nat) (u : Upset) (s : State) : exec (.popCell ep q u) s = .next (s.popOne ep q false u) := rfl

theorem exec_takeCell (ep q : Nat) (u : Upset) (s : State) : exec (.takeCell ep q u) s = .next (s.popOne ep q true u) := rfl

/-- Settles O28: the head cell goes to its reader by the two forms of its delivery, and a pop that waits or is refused delivers nothing. -/
theorem popAndTake : Obligations.PopAndTake := by
  refine ⟨fun ep q c rest s hallowed hsev hc hm hret => ?_, fun ep q c rest s hallowed hsev hc hm hret hlt hlimit => ?_,
    fun ep q c rest s hallowed hsev hc hm hgap hret => ?_, fun ep q s hallowed hc hstall => ?_, fun ep q u s hallowed => ?_⟩
  · have hgone := State.headGone_pop (ep := ep) hc (by simp [hm]) hret
    rw [exec_popCell, State.popOne_delivers hallowed (State.popWaits_of_head hsev hc (by simp))]
    refine ⟨_, rfl, hgone.cells, ?_, hgone.held, hgone.others, by rw [hgone.frame], hgone.regs⟩
    rw [hgone.delivered, Cell.delivery, Cell.tag_of_data hm]
  · obtain ⟨hgone, hheld⟩ := State.headGone_take (ep := ep) hc hm hret
    rw [exec_takeCell, State.popOne_delivers hallowed (State.popWaits_of_head hsev hc fun _ => hlt)]
    refine ⟨_, rfl, hgone.cells, hheld.trans (Nat.mod_eq_of_lt (by omega)), ?_, hgone.others, by rw [hgone.frame], hgone.regs⟩
    simp [hgone.held, Cell.hold]
  · have hgone := State.headGone_pop (ep := ep) hc (fun _ => hgap) hret
    rw [exec_popCell, State.popOne_delivers hallowed (State.popWaits_of_head hsev hc (by simp))]
    exact ⟨_, _, rfl, hgone.cells, hgone.delivered, rfl, (c.delivery_tag q ep).trans (Cell.tag_of_marker hm),
      by rw [State.depth, Queue.depth, hgone.cells], hgone.regs⟩
  · rw [exec_popCell, exec_takeCell, State.popOne_stalls hallowed (State.popWaits_of_empty hc _),
      State.popOne_stalls hallowed (State.popWaits_of_empty hc _)]
    exact ⟨⟨_, rfl, State.stall_spec hstall false⟩, ⟨_, rfl, State.stall_spec hstall true⟩⟩
  · rw [exec_popCell, exec_takeCell, State.popOne_refused hallowed, State.popOne_refused hallowed]
    exact ⟨rfl, rfl⟩

end Sys2Proof.Machine
end

section
/-! A push of one cell: it lands, is dropped, or is refused (R231, R233 to R237, R240, R243, R246, R250). -/
namespace Sys2Proof.Machine

section
variable {s t u : State} {ep q n e : Nat} {data : Cell64} {item : ItemId} {last eop epm : Bool} {c : Cell}

theorem State.queue_bump (s : State) (r : Row) (i j k n : Nat) : (s.bump r i j k).queue n = s.queue n := rfl

theorem State.queue_bumpSat (s : State) (r : Row) (i j k n : Nat) : (s.bumpSat r i j k).queue n = s.queue n := rfl

theorem State.flag_congr (h : t.regs = s.regs) (r : Row) (i j : Nat) : t.flag r i j = s.flag r i j := by
  unfold State.flag
  rw [State.reg_congr h]

/-! ## A cell lands at the tail of any queue (R233) -/

/-- The cell that a push takes for its word, with its marks. -/
def State.markedCell (s : State) (data : Cell64) (item : ItemId) (eop epm : Bool) : Cell :=
  { idx := s.pickFree, data := data, dp := parity 64 data.toNat, item := item, eop := eop, epm := epm }

theorem State.markedCell_fields (s : State) (data : Cell64) (item : ItemId) (eop epm : Bool) :
    (s.markedCell data item eop epm).data = data ∧ (s.markedCell data item eop epm).dp = parity 64 data.toNat ∧
    (s.markedCell data item eop epm).item = item ∧ (s.markedCell data item eop epm).eop = eop ∧
    (s.markedCell data item eop epm).epm = epm ∧ (s.markedCell data item eop epm).marker = false := by
  simp only [State.markedCell, and_self]

/-- Cell c has landed at the tail of queue q, and nothing else has changed than what follows a push: free value, low-water mark, XOFF
and the wait of the fusion engine's cycle (R190, R233, R253, R341). -/
structure State.tailLanded (s : State) (q : Nat) (c : Cell) (t : State) : Prop where
  queue : ∃ b, t.queue q = { s.queue q with cells := (s.queue q).cells ++ [c], markerOpen := false, highState := b }
  others : ∀ n, n ≠ q → t.queue n = s.queue n
  freeCtr : t.freeCtr = s.freeCtr + 1
  frame : t = { s with
    regs := t.regs, pal := { s.pal with queues := t.pal.queues }, freeCtr := t.freeCtr, timers := t.timers, fu := t.fu,
    pins := { s.pins with xoff := t.pins.xoff } }
  regs : s.regsBut t [R.qmPoolLowMin.key 0 0, R.eiXoffState.key 0 0]
  gather : s.reg R.fuCtrlCmdQid ≠ q → t.fu = s.fu ∧ t.timers = s.timers

theorem State.tailLanded_link (s : State) (q : Nat) (c : Cell) :
    s.tailLanded q c ((s.modQueue q fun x => { x with cells := x.cells ++ [c], markerOpen := false }).tick).poolLow := by
  generalize hu : (s.modQueue q fun x => { x with cells := x.cells ++ [c], markerOpen := false }).tick = u
  obtain ⟨hlow, hregs⟩ := u.poolLow_onlyRegs
  have hqueues : u.poolLow.pal.queues = u.pal.queues := by rw [hlow]
  refine ⟨⟨(s.queue q).highState, ?_⟩, fun n hn => ?_, ?_, ?_, fun r i j hk => ?_, fun _ => ?_⟩
  · rw [State.queue_congr hqueues, ← hu]
    exact State.queue_modQueue_self _ _ _
  · rw [State.queue_congr hqueues, ← hu]
    exact State.queue_modQueue_ne hn _
  · rw [hlow, ← hu]
    rfl
  · rw [hlow, ← hu]
    rfl
  · refine (hregs r i j fun hm => hk (List.mem_cons.mpr (.inl (List.mem_singleton.mp hm)))).trans ?_
    rw [← hu]
    rfl
  · rw [hlow, ← hu]
    exact ⟨rfl, rfl⟩

theorem State.tailLanded.watermark (h : s.tailLanded q c t) : s.tailLanded q c (t.watermark q) := by
  obtain ⟨⟨b, hq⟩, -, -, hframe, hregs⟩ := t.watermark_spec q
  refine ⟨⟨b, ?_⟩, fun n hn => (State.queue_watermark_ne hn).trans (h.others n hn), ?_, ?_, fun r i j hk => ?_, fun hg => ?_⟩
  · obtain ⟨b', hq'⟩ := h.queue
    rw [hq, hq']
  · rw [hframe, h.freeCtr]
  · rw [hframe, h.frame]
  · exact (hregs r i j fun hm => hk (List.mem_cons_of_mem _ hm)).trans (h.regs r i j hk)
  · rw [hframe]
    exact h.gather hg

theorem State.tailLanded.gatherStarts (h : s.tailLanded q c t) : s.tailLanded q c (t.gatherStarts q item) := by
  have hframe := t.gatherStarts_frame q item
  have hne (hg : s.reg R.fuCtrlCmdQid ≠ q) : t.gatherStarts q item = t :=
    State.gatherStarts_of_ne (by rwa [h.regs _ _ _ (by decide)])
  generalize t.gatherStarts q item = u at *
  have hqueues : u.pal.queues = t.pal.queues := by rw [hframe]
  refine ⟨?_, fun n hn => (State.queue_congr hqueues n).trans (h.others n hn), ?_, ?_, h.regs.of_regs (by rw [hframe]), fun hg => ?_⟩
  · rw [State.queue_congr hqueues]
    exact h.queue
  · rw [hframe, h.freeCtr]
  · rw [hframe, h.frame]
  · rw [hne hg]
    exact h.gather hg

theorem State.tailLanded_landCell (s : State) (q : Nat) (data : Cell64) (item : ItemId) (eop epm : Bool) :
    s.tailLanded q (s.markedCell data item eop epm) (s.landCell q data item eop epm) := by
  have heq : s.landCell q data item eop epm = (((s.modQueue q fun x =>
      { x with cells := x.cells ++ [s.markedCell data item eop epm], markerOpen := false }).tick.poolLow).watermark q).gatherStarts q
      item := by
    unfold State.landCell State.markedCell
    rfl
  rw [heq]
  exact (s.tailLanded_link q _).watermark.gatherStarts

/-! ## What a push is answered (R231, R233, R250) -/

theorem State.pushRes_refused_iff : s.pushRes ep q eop epm = .refused ↔
    ¬ (s.domOn 4 = true ∧ s.hasQueue q = true ∧ ep = s.reg R.qmQEpProd q) := by
  unfold State.pushRes
  split
  · next h => simpa [or_assoc, imp_iff_not_or] using h
  · next h =>
    have hok : s.domOn 4 = true ∧ s.hasQueue q = true ∧ ep = s.reg R.qmQEpProd q := by simpa [and_assoc] using h
    simp only [hok.1, hok.2.1, hok.2.2, not_true_eq_false, iff_false, and_self]
    repeat' split
    all_goals simp

/-- Every push of a queue that is severing is dropped (R250). -/
theorem State.pushRes_of_severing (h : s.pushRes ep q eop epm ≠ .refused) (hsev : (s.queue q).severing = true) :
    s.pushRes ep q eop epm = .dropped := by
  obtain ⟨hon, hhas, hprod⟩ := not_not.mp (mt State.pushRes_refused_iff.mpr h)
  simp [State.pushRes, hon, hhas, hprod, hsev]

/-- In DROP_PEND a cell that ends nothing lands, and so does one that ends something where a cell is free (R240, R246). -/
theorem State.pushRes_of_dropPend (hon : s.domOn 4 = true) (hhas : s.hasQueue q = true) (hprod : ep = s.reg R.qmQEpProd q)
    (hsev : (s.queue q).severing = false) (hpend : (s.queue q).dropPend = true) (h : (eop || epm) = true → s.freeCells ≠ 0) :
    s.pushRes ep q eop epm = .landed := by
  cases hm : eop || epm with
  | false => simp [State.pushRes, hon, hhas, hprod, hsev, hpend, hm]
  | true => simp [State.pushRes, hon, hhas, hprod, hsev, hpend, hm, h hm]

/-! ## The fates of a push (R233, R237, R240, R243, R246) -/

/-- A queue notes whether the last cell that was pushed ended an item (R250). -/
def State.noteEop (s : State) (q : Nat) (eop : Bool) : State := s.modQueue q fun x => { x with lastEop := eop }

theorem State.queue_noteEop (s : State) (q : Nat) (eop : Bool) : (s.noteEop q eop).queue q = { s.queue q with lastEop := eop } :=
  s.queue_modQueue_self q _

theorem State.push_refused (h : s.pushRes ep q eop epm = .refused) : s.push ep q data item eop epm = s.setReg R.qmStatusWrongEp 1 := by
  simp [State.push, h]

theorem State.push_dropped (h : s.pushRes ep q eop epm = .dropped) (hpend : ((s.queue q).dropPend && !(s.queue q).severing) = false) :
    s.push ep q data item eop epm = (s.noteEop q eop).dropPush q := by
  simp [State.push, h, hpend, State.noteEop]

theorem State.push_tail (h : s.pushRes ep q eop epm = .landed) (hpend : (s.queue q).dropPend = false)
    (hstall : (s.queue q).stalled = none) :
    s.push ep q data item eop epm = (s.noteEop q eop).landCell q data item eop epm := by
  simp only [State.push, h, State.queue_modQueue_self, hpend, hstall, Bool.false_eq_true, if_false, State.noteEop]

/-- A push goes straight to the reader that a POP of the empty queue left. -/
theorem State.push_direct (h : s.pushRes ep q eop epm = .landed) (hpend : (s.queue q).dropPend = false)
    (hstall : (s.queue q).stalled = some (e, false)) (hc : (s.queue q).cells = []) :
    s.push ep q data item eop epm = (s.noteEop q eop).handOver q data item eop epm e := by
  have hdirect : (s.noteEop q eop).direct q = true := by
    simp [State.direct, State.queue_noteEop, hc, hstall]
  unfold State.push
  simp only [h, State.queue_modQueue_self, hpend, hstall, Bool.false_eq_true, if_false]
  exact if_pos hdirect

theorem State.push_freed (h : s.pushRes ep q false false = .landed) (hpend : (s.queue q).dropPend = true) :
    s.push ep q data item false false = (s.noteEop q false).bump R.qmQEvtDropRem q := by
  simp [State.push, h, State.queue_modQueue_self, hpend, State.noteEop]

theorem State.push_toDropper (h : s.pushRes ep q true epm = .landed) (hpend : (s.queue q).dropPend = true) :
    s.push ep q data item true epm = ((s.noteEop q true).landCell q data item true epm).toDropper q := by
  simp [State.push, h, State.queue_modQueue_self, hpend, State.noteEop]

/-! ## The item of a push (R234) -/

theorem State.pushItem_of_kept {stage flags : Nat} (h : s.pushRes ep q last epm ≠ .dropped)
    (hitem : item ∉ (s.push ep q data item last epm).pal.dropped) :
    s.pushItem ep q data item last epm stage flags = s.push ep q data item last epm := by
  simp [State.pushItem, h, hitem]

theorem State.pushItem_of_dropped {stage flags : Nat} (h : s.pushRes ep q false epm = .dropped) :
    s.pushItem ep q data item false epm stage flags = (s.push ep q data item false epm).markDropped item := by
  simp [State.pushItem, h]

theorem State.mem_dropped_markDropped (s : State) (item : ItemId) : item ∈ (s.markDropped item).pal.dropped := by
  by_cases h : item ∈ s.pal.dropped <;> simp [State.markDropped, h, State.modPal]

theorem State.markDropped_frame (s : State) (item : ItemId) :
    s.markDropped item = { s with pal := { s.pal with dropped := (s.markDropped item).pal.dropped } } := by
  unfold State.markDropped
  split <;> rfl

theorem State.queue_markDropped (s : State) (item : ItemId) (n : Nat) : (s.markDropped item).queue n = s.queue n :=
  State.queue_congr (by rw [State.markDropped_frame]) n

theorem State.reg_markDropped (s : State) (item : ItemId) (r : Row) (i j : Nat) : (s.markDropped item).reg r i j = s.reg r i j :=
  State.reg_congr (by rw [State.markDropped_frame]) r i j

theorem exec_pushCell_plain (ep q : Nat) (data : Cell64) (item : ItemId) (last epm : Bool) (s : State) :
    exec (.pushCell ep q data item ⟨last, epm⟩ false) s = .next (s.pushItem ep q data item last epm (epStage ep) 0) := by
  show execPushCell ep q data item ⟨last, epm⟩ false s = _
  simp [execPushCell, State.upsetTail]

theorem exec_pushCell_kept (h : s.pushRes ep q last epm ≠ .dropped) (hitem : item ∉ (s.push ep q data item last epm).pal.dropped) :
    exec (.pushCell ep q data item ⟨last, epm⟩ false) s = .next (s.push ep q data item last epm) := by
  rw [exec_pushCell_plain, State.pushItem_of_kept h hitem]

/-! ## A push that lands -/

theorem exec_pushCell_landed (hres : s.pushRes ep q last epm = .landed) (hpend : (s.queue q).dropPend = false)
    (hstall : (s.queue q).stalled = none) (hitem : item ∉ s.pal.dropped) :
    ∃ t, exec (.pushCell ep q data item ⟨last, epm⟩ false) s = .next t ∧
      (s.noteEop q last).tailLanded q ((s.noteEop q last).markedCell data item last epm) t := by
  have hpush := State.push_tail (data := data) (item := item) hres hpend hstall
  have hland := (s.noteEop q last).tailLanded_landCell q data item last epm
  refine ⟨_, exec_pushCell_kept (by simp [hres]) ?_, hpush ▸ hland⟩
  rw [hpush, hland.frame]
  exact hitem

/-! ## A cell that a reader waits for (R237, R240, R243) -/

/-- The cell that is handed over stands alone in queue q. -/
def State.holdOut (s : State) (q : Nat) (c : Cell) : State := (s.modQueue q fun x => { x with cells := [c] }).tick

theorem State.handOver_eq (s : State) (q ep : Nat) (data : Cell64) (item : ItemId) (eop epm : Bool) :
    s.handOver q data item eop epm ep = (s.holdOut q (s.markedCell data item eop epm)).deliverHead q ep false := by
  unfold State.handOver State.holdOut State.markedCell
  rfl

theorem State.headGone_handOver (hret : s.flag R.qmQCfgRetired q = false) :
    (s.holdOut q (s.markedCell data item eop epm)).headGone q e (s.markedCell data item eop epm) [] s.pal.held
      [R.eiXoffState.key 0 0] (s.handOver q data item eop epm e) := by
  rw [State.handOver_eq]
  generalize hc : s.markedCell data item eop epm = c
  have hm : c.marker = false := by rw [← hc]; rfl
  have hcells : ((s.holdOut q c).queue q).cells = [c] := by
    unfold State.holdOut
    exact congrArg Queue.cells (s.queue_modQueue_self q _)
  exact State.headGone_pop hcells (by simp [hm]) ((State.flag_congr rfl _ _ _).trans hret)

/-- A cell with the parity of its word is no poisoned cell. -/
theorem State.tag_markedCell (s : State) (data : Cell64) (item : ItemId) (eop epm : Bool) : (s.markedCell data item eop epm).tag = 0 := by
  simp [Cell.tag, State.markedCell]

/-- The cell at the head goes to the drop-remainder command that waits. -/
theorem State.toDropper_eq (h : s.dropWaits q = true) {d : Delivery}
    (hd : (s.deliverHead q (s.reg R.qmQEpCons q) false).pal.delivered = some d) :
    s.toDropper q = (s.deliverHead q (s.reg R.qmQEpCons q) false).modPal fun p => { p with dropOut := p.dropOut ++ [d] } := by
  simp [State.toDropper, h, hd]

/-! ## Dropped pushes and severed queues (R234 to R236, R250) -/

/-- The gap marker of one lost cell, linked into its queue at the present time (R235, R236). -/
def State.gapCell (s : State) (q : Nat) : Cell :=
  { idx := (s.queue q).markerIdx, data := gapMarker s.us s.us 0 1, dp := parity 64 (gapMarker s.us s.us 0 1).toNat, marker := true }

/-- The first drop of a queue links its gap marker. -/
theorem State.dropPush_links (hsev : (s.queue q).severing = false) (hin : (s.queue q).markerIn = false) (hq : q ≠ 511) :
    s.dropPush q = (s.bump R.qmQDropsCount q).modQueue q fun x =>
      { x with cells := x.cells ++ [s.gapCell q], markerOpen := true, gapFirst := s.us, markerBad := false } := by
  have hlinks : (!(s.queue q).severing && !(s.queue q).markerIn) = true := by simp [hsev, hin]
  unfold State.dropPush
  simp only [State.queue_bump, hlinks, if_true, State.markerVector, if_neg hq]
  rfl

/-- A drop of a queue that is severing goes to the accumulator. -/
theorem State.dropPush_counts (hsev : (s.queue q).severing = true) : ∃ first, s.dropPush q =
    ((s.bump R.qmQDropsCount q).bumpSat R.qmQGapCount q).modQueue q fun x => { x with accFirst := first, accLast := s.us } := by
  unfold State.dropPush
  simp only [State.queue_bump, hsev, Bool.not_true, Bool.false_and, Bool.false_eq_true, if_false]
  exact ⟨_, rfl⟩

/-- Step 1 of a sever: the queue is marked, SEVER set and its timer started. -/
theorem State.sever_spec (hsev : (s.queue q).severing = false) :
    (∃ src, (s.sever q).queue q = { s.queue q with severing := true, severSrc := src, severAt := s.us }) ∧
    (∀ r i j, (s.sever q).reg r i j = (s.setReg R.qmStatusSever 1).reg r i j) ∧ (s.sever q).armed (.sever q) = true := by
  simp only [State.sever, hsev, Bool.false_eq_true, if_false]
  exact ⟨⟨_, s.queue_modQueue_self q _⟩, fun _ _ _ => rfl, by simp [State.armed, State.arm, alGet_alPut_self]⟩

/-- A field of a queue's descriptor is not QM_STATUS.SEVER. -/
theorem Row.key_ne_sever {r : Row} (h : 0x600009 ≤ r.off) (i j : Nat) : R.qmStatusSever.key 0 0 ≠ r.key i j := by
  simp only [Row.key, R.qmStatusSever]
  omega

/-- A push that is not refused meets a severed queue: it is dropped there. -/
theorem State.pushRes_sever (hsev : (s.queue q).severing = false) (h : s.pushRes ep q eop epm ≠ .refused) :
    (s.sever q).pushRes ep q eop epm = .dropped := by
  obtain ⟨⟨src, hqueue⟩, hregs, -⟩ := State.sever_spec hsev
  have hreg (r : Row) (i j : Nat) (hr : R.qmStatusSever.key 0 0 ≠ r.key i j) : (s.sever q).reg r i j = s.reg r i j :=
    (hregs r i j).trans (s.reg_setReg_ne _ _ _ _ _ _ _ hr)
  have hkey {r : Row} (hr : 0x600009 ≤ r.off) : R.qmStatusSever.key 0 0 ≠ r.key q 0 := r.key_ne_sever hr q 0
  refine State.pushRes_of_severing (mt (fun href => ?_) h) (by rw [hqueue])
  rw [State.pushRes_refused_iff] at href ⊢
  simpa only [State.domOn, State.hasQueue, State.flag, hreg R.pwDomStateOn 0 0 (by decide), hreg _ _ _ (hkey (r := R.qmQCfgPresent) (by decide)),
    hreg _ _ _ (hkey (r := R.qmQCfgRetired) (by decide)), hreg _ _ _ (hkey (r := R.qmQEpProd) (by decide))] using href

theorem exec_pushCell_severs (hres : s.pushRes ep q last epm ≠ .refused) (hc : (s.queue q).cells ≠ []) :
    exec (.pushCell ep q data item ⟨last, epm⟩ true) s = .next ((s.sever q).pushItem ep q data item last epm (epStage ep) 0) := by
  show execPushCell ep q data item ⟨last, epm⟩ true s = _
  simp [execPushCell, State.upsetTail, hres, hc]

/-! ## The six fates of a push -/

theorem exec_pushCell_lands (hres : s.pushRes ep q last epm = .landed) (hpend : (s.queue q).dropPend = false)
    (hstall : (s.queue q).stalled = none) (hitem : item ∉ s.pal.dropped) :
    ∃ t, exec (.pushCell ep q data item ⟨last, epm⟩ false) s = .next t ∧
      (s.noteEop q last).tailLanded q ((s.noteEop q last).markedCell data item last epm) t := by
  have hland := (s.noteEop q last).tailLanded_landCell q data item last epm
  have hpush := State.push_tail (data := data) (item := item) hres hpend hstall
  refine ⟨_, exec_pushCell_kept (by simp [hres]) ?_, hpush ▸ hland⟩
  rw [hpush, hland.frame]
  exact hitem

theorem exec_pushCell_drops_spec (hres : s.pushRes ep q false epm = .dropped) (hsev : (s.queue q).severing = false)
    (hpend : (s.queue q).dropPend = false) (hin : (s.queue q).markerIn = false) (hq : q ≠ 511) :
    ∃ t, exec (.pushCell ep q data item ⟨false, epm⟩ false) s = .next t ∧
      t.queue q = { s.queue q with cells := (s.queue q).cells ++ [s.gapCell q], markerOpen := true, lastEop := false,
                                   gapFirst := s.us, markerBad := false } ∧
      (∀ n, n ≠ q → t.queue n = s.queue n) ∧ t.reg R.qmQDropsCount q = (s.reg R.qmQDropsCount q + 1) % 2 ^ 32 ∧
      item ∈ t.pal.dropped ∧
      t = { s with regs := t.regs, pal := { s.pal with queues := t.pal.queues, dropped := t.pal.dropped } } ∧
      s.regsBut t [R.qmQDropsCount.key q 0] := by
  have hqueue := s.queue_noteEop q false
  have hcell : (s.noteEop q false).gapCell q = s.gapCell q := by
    unfold State.gapCell
    rw [hqueue]
    rfl
  have hlinks := State.dropPush_links (s := s.noteEop q false) (q := q) (by rw [hqueue, hsev]) (by rw [hqueue]; exact hin) hq
  have hexec : exec (.pushCell ep q data item ⟨false, epm⟩ false) s = .next (((s.noteEop q false).dropPush q).markDropped item) := by
    rw [exec_pushCell_plain, State.pushItem_of_dropped hres, State.push_dropped hres (by simp [hpend])]
  rw [hlinks, hcell] at hexec
  refine ⟨_, hexec, ?_, fun n hn => ?_, ?_, State.mem_dropped_markDropped _ _, ?_, fun r i j hk => ?_⟩
  · rw [State.queue_markDropped, State.queue_modQueue_self, State.queue_bump, hqueue]
    rfl
  · rw [State.queue_markDropped, State.queue_modQueue_ne hn]
    exact State.queue_modQueue_ne hn _
  · rw [State.reg_markDropped]
    exact (s.noteEop q false).reg_setReg_self _ _ _ _
  · rw [State.markDropped_frame]
    rfl
  · rw [State.reg_markDropped]
    exact (s.noteEop q false).regsBut_setReg _ _ _ _ r i j hk

theorem exec_pushCell_refused {link : Bool} (hres : s.pushRes ep q false epm = .refused) :
    exec (.pushCell ep q data item ⟨false, epm⟩ link) s = .next (s.setReg R.qmStatusWrongEp 1) := by
  show execPushCell ep q data item ⟨false, epm⟩ link s = _
  simp [execPushCell, hres, State.pushItem, State.push_refused hres]

theorem exec_pushCell_direct (hres : s.pushRes ep q last epm = .landed) (hpend : (s.queue q).dropPend = false)
    (hstall : (s.queue q).stalled = some (e, false)) (hc : (s.queue q).cells = []) (hret : s.flag R.qmQCfgRetired q = false)
    (hitem : item ∉ s.pal.dropped) :
    ∃ t c, exec (.pushCell ep q data item ⟨last, epm⟩ false) s = .next t ∧ c = (s.noteEop q last).markedCell data item last epm ∧
      ((s.noteEop q last).holdOut q c).headGone q e c [] s.pal.held [R.eiXoffState.key 0 0] t := by
  have hpush := State.push_direct (data := data) (item := item) hres hpend hstall hc
  have hgone := State.headGone_handOver (s := s.noteEop q last) (e := e) (data := data) (item := item) (eop := last) (epm := epm)
    ((State.flag_congr rfl _ _ _).trans hret)
  refine ⟨_, _, exec_pushCell_kept (by simp [hres]) ?_, rfl, hpush ▸ hgone⟩
  rw [hpush, hgone.frame]
  exact hitem

theorem exec_pushCell_freed (hres : s.pushRes ep q false false = .landed) (hpend : (s.queue q).dropPend = true)
    (hitem : item ∉ s.pal.dropped) :
    exec (.pushCell ep q data item ⟨false, false⟩ false) s = .next ((s.noteEop q false).bump R.qmQEvtDropRem q) := by
  have hpush := State.push_freed (data := data) (item := item) hres hpend
  rw [exec_pushCell_kept (by simp [hres]) (by rw [hpush]; exact hitem), hpush]

theorem exec_pushCell_toDropper (hres : s.pushRes ep q true epm = .landed) (hpend : (s.queue q).dropPend = true)
    (hwaits : s.dropWaits q = true) (hc : (s.queue q).cells = []) (hret : s.flag R.qmQCfgRetired q = false)
    (hitem : item ∉ s.pal.dropped) :
    ∃ t d, exec (.pushCell ep q data item ⟨true, epm⟩ false) s = .next t ∧ (t.queue q).cells = [] ∧ (t.queue q).dropPend = false ∧
      t.pal.dropOut = s.pal.dropOut ++ [d] ∧ d.data = data ∧ d.eop = true ∧ d.qid = q := by
  have hpush := State.push_toDropper (data := data) (item := item) hres hpend
  have hland := (s.noteEop q true).tailLanded_landCell q data item true epm
  generalize hu : (s.noteEop q true).landCell q data item true epm = u at hpush hland
  generalize hcell : (s.noteEop q true).markedCell data item true epm = c at hland
  have hcells : (u.queue q).cells = [c] := by
    obtain ⟨b, hq⟩ := hland.queue
    rw [hq, State.queue_noteEop, hc]
    rfl
  have hretired : u.flag R.qmQCfgRetired q = false := by
    rw [State.flag_of_regsBut hland.regs ?_, State.flag_congr (s := s) (t := s.noteEop q true) rfl, hret]
    simp only [Row.key, R.qmQCfgRetired, R.qmPoolLowMin, R.eiXoffState, List.mem_cons, List.not_mem_nil, or_false]
    omega
  have hgone := State.headGone_pop (ep := u.reg R.qmQEpCons q) hcells (by simp [← hcell, State.markedCell]) hretired
  have hwaits' : u.dropWaits q = true := by rw [hland.frame]; exact hwaits
  have htaken := hpush.trans (State.toDropper_eq hwaits' hgone.delivered)
  obtain ⟨b, hq⟩ := hgone.queue
  refine ⟨_, c.delivery q (u.reg R.qmQEpCons q), (exec_pushCell_kept (by simp [hres]) ?_).trans (congrArg _ htaken), ?_, ?_, ?_, ?_⟩
  · rw [htaken, hgone.frame, hland.frame]
    exact hitem
  · exact hgone.cells
  · refine (congrArg Queue.dropPend hq).trans ?_
    simp [Queue.behindHead, ← hcell, State.markedCell]
  · rw [hgone.frame, hland.frame]
    rfl
  · rw [← hcell]
    exact ⟨rfl, rfl, rfl⟩

/-- A push that meets a failing link: the queue is severed, and the push is dropped into its accumulator. -/
theorem exec_pushCell_sever_spec (hres : s.pushRes ep q false epm ≠ .refused) (hsev : (s.queue q).severing = false)
    (hc : (s.queue q).cells ≠ []) :
    ∃ t, exec (.pushCell ep q data item ⟨false, epm⟩ true) s = .next t ∧ (t.queue q).severing = true ∧ t.reg R.qmStatusSever = 1 ∧
      t.armed (.sever q) = true ∧ (t.queue q).cells = (s.queue q).cells ∧ item ∈ t.pal.dropped := by
  obtain ⟨⟨src, hqueue⟩, hregs, harmed⟩ := State.sever_spec hsev
  have hdrop := State.pushRes_sever hsev hres
  have hexec := exec_pushCell_severs (data := data) (item := item) hres hc
  have hsever : (s.sever q).reg R.qmStatusSever = 1 := (hregs _ _ _).trans (s.reg_setReg_self _ _ _ _)
  generalize s.sever q = u at *
  have hnote := u.queue_noteEop q false
  obtain ⟨first, hcount⟩ := State.dropPush_counts (s := u.noteEop q false) (q := q) (by rw [hnote, hqueue])
  rw [State.pushItem_of_dropped hdrop, State.push_dropped hdrop (by simp [hqueue]), hcount] at hexec
  refine ⟨_, hexec, ?_, ?_, ?_, ?_, State.mem_dropped_markDropped _ _⟩
  · rw [State.queue_markDropped, State.queue_modQueue_self]
    simp only [State.queue_bump, State.queue_bumpSat, hnote, hqueue]
  · rw [State.reg_markDropped]
    refine (State.reg_setReg_ne _ _ _ _ _ _ _ _ ?_).trans ((State.reg_setReg_ne _ _ _ _ _ _ _ _ ?_).trans hsever)
    · exact (R.qmQGapCount.key_ne_sever (by decide) q 0).symm
    · exact (R.qmQDropsCount.key_ne_sever (by decide) q 0).symm
  · rw [State.markDropped_frame]
    exact harmed
  · rw [State.queue_markDropped, State.queue_modQueue_self]
    simp only [State.queue_bump, State.queue_bumpSat, hnote, hqueue]

end

/-- Settles O27: each fate of a push, by what its cell, its queue and its item come to. -/
theorem push : Obligations.Push := by
  refine ⟨fun ep q data item last epm s hres hpend hstall hitem => ?_,
    fun ep q data item epm s hres hsev hpend hin hq hitem => ?_, fun ep q data item epm link s hres => ?_,
    fun ep q e data item last epm s hres hpend hstall hc hret hitem => ?_,
    fun ep q data item s hon hhas hprod hsev hpend hitem => ⟨?_, fun hfree hwaits hc hret => ?_⟩,
    fun ep q data item epm s hres hsev hc _ => exec_pushCell_sever_spec hres hsev hc⟩
  · obtain ⟨t, hexec, hland⟩ := exec_pushCell_lands hres hpend hstall hitem
    obtain ⟨b, hqueue⟩ := hland.queue
    rw [State.queue_noteEop] at hqueue
    obtain ⟨hdata, hdp, hname, heop, hepm, hm⟩ := (s.noteEop q last).markedCell_fields data item last epm
    refine ⟨t, _, hexec, ?_, congrArg Queue.cells hqueue, hdata, hdp, hname, heop, hepm, hm, congrArg Queue.markerOpen hqueue,
      fun n hn => (hland.others n hn).trans (State.queue_modQueue_ne hn _), hland.freeCtr, hland.frame, fun hq => ?_, hland.regs⟩
    · rw [State.depth, hqueue, State.depth]
      simp [Queue.depth, hm]
    · exact hland.gather hq.symm
  · obtain ⟨t, hexec, hqueue, hothers, hdrops, hdropped, hframe, hregs⟩ := exec_pushCell_drops_spec hres hsev hpend hin hq
    refine ⟨t, hexec, congrArg Queue.cells hqueue, congrArg Queue.markerOpen hqueue, ?_, hdrops, hdropped, hothers, hframe, hregs⟩
    rw [State.depth, hqueue, State.depth]
    simp [Queue.depth, State.gapCell]
  · exact ⟨_, exec_pushCell_refused hres, s.reg_setReg_self _ _ _ _, State.onlyRegs_setReg (by simp)⟩
  · obtain ⟨t, c, hexec, hcell, hgone⟩ := exec_pushCell_direct hres hpend hstall hc hret hitem
    obtain ⟨b, hqueue⟩ := hgone.queue
    obtain ⟨hdata, -, -, heop, hepm, -⟩ := (s.noteEop q last).markedCell_fields data item last epm
    have htag := (s.noteEop q last).tag_markedCell data item last epm
    rw [← hcell] at hdata heop hepm htag
    exact ⟨t, _, hexec, hgone.cells, congrArg Queue.stalled hqueue, hgone.delivered, hdata, rfl, rfl, heop, hepm,
      (c.delivery_tag q e).trans htag, fun n hn => (hgone.others n hn).trans
        ((State.queue_modQueue_ne hn _).trans (State.queue_modQueue_ne hn _)), hgone.regs⟩
  · refine ⟨_, exec_pushCell_freed (State.pushRes_of_dropPend hon hhas hprod hsev hpend (by simp)) hpend hitem, ?_,
      (s.noteEop q false).reg_setReg_self _ _ _ _, (s.noteEop q false).regsBut_setReg _ _ _ _⟩
    rw [State.depth, State.queue_bump, State.queue_noteEop]
    rfl
  · exact exec_pushCell_toDropper (State.pushRes_of_dropPend hon hhas hprod hsev hpend fun _ => hfree) hpend hwaits hc hret hitem

end Sys2Proof.Machine
end

section
/-! The keyed mesh stream: the palette sends the head cell of a keyed queue on VC1, and ends the item of an EOP cell that every tile has
taken (R231, R237, R239, R250, R265 to R267). -/
namespace Sys2Proof.Machine

section
variable {s t u v : State} {q ep block : Nat} {c : Cell} {rest : List Cell} {d : Delivery} {got : Taken} {x : Upset}

/-! ## A consumer pops (R231, R239, R250) -/

theorem State.popFor_refused {take : Bool} (h : s.popAllowed ep q = false) :
    s.popFor block ep q take x = (none, s.setReg R.qmStatusWrongEp 1) := by
  simp [State.popFor, h]

theorem State.popFor_delivers {take : Bool} (h : s.popAllowed ep q = true) (hw : s.popWaits ep q take = false)
    (hd : (s.deliverHead q ep take).pal.delivered = some d) : s.popFor block ep q take .none =
      (some (d, ((s.deliverHead q ep take).accept block d).1), ((s.deliverHead q ep take).accept block d).2) := by
  simp [State.popFor, h, State.upsetHead_none, hw, hd]

theorem State.accept_good (htag : d.tag = 0) (hdis : (s.queue d.qid).discard = false) : s.accept block d = (.use, s) := by
  simp [State.accept, htag, hdis]

theorem State.markPoisoned_frame (s : State) (item : ItemId) :
    s.markPoisoned item = { s with pal := { s.pal with poisoned := (s.markPoisoned item).pal.poisoned } } := by
  unfold State.markPoisoned
  split <;> rfl

/-- A data cell that is not discarded is used or taken as poisoned. -/
theorem State.accept_data (htag : d.tag ≠ 2) (hdis : (s.queue d.qid).discard = false) : (s.accept block d).1 ≠ .discard ∧
    (s.accept block d).2 = { s with pal := { s.pal with poisoned := (s.accept block d).2.pal.poisoned } } := by
  by_cases hp : d.tag = 1
  · have heq : s.accept block d = (.poison, s.markPoisoned d.item) := by simp [State.accept, hdis, hp]
    rw [heq]
    exact ⟨by simp, s.markPoisoned_frame _⟩
  · have heq : s.accept block d = (.use, s) := by simp [State.accept, htag, hdis, hp]
    rw [heq]
    exact ⟨by simp, rfl⟩

/-! ## KEYED_POP (R265, R266) -/

/-- The packet of a delivered cell of a keyed queue, and what its queue notes of an EOP cell. -/
def State.sendKeyed (s : State) (q : Nat) (d : Delivery) : State :=
  let at_ := Config.keyedRouter q % s.member.tiles
  let s := s.inject { item := d.item, key := keyedKey q d.data d.tag, vc := 1, epoch := 0, dest := 0, tile := at_,
                      cells := [(d.data, d.tag)], qid := q, eop := d.eop, origin := at_ }
  if d.eop then s.modQueue q fun x => { x with eopOut := x.eopOut ++ [(d.item, d.tag == 0 && lossyCell d.data)] } else s

/-- The head cell of queue q, where there is one, does not wait for earlier cells of its item. -/
def State.headReady (s : State) (q : Nat) : Prop := ∀ c, (s.queue q).cells.head? = some c → (c.eop && s.keyedOut q) = false

theorem exec_keyedPop_waits (hc : (s.queue q).cells = c :: rest) (heop : c.eop = true) (hout : s.keyedOut q = true) :
    exec (.keyedPop q x) s = .next s := by
  show execKeyedPop q x s = _
  simp [execKeyedPop, hc, heop, hout]

theorem exec_keyedPop_nothing (hready : s.headReady q) (hpop : s.popFor 5 0x7F q false x = (none, v)) :
    exec (.keyedPop q x) s = .next v := by
  show execKeyedPop q x s = _
  cases hh : (s.queue q).cells.head? with
  | none => simp [execKeyedPop, hh, hpop]
  | some c => simp [execKeyedPop, hh, hpop, hready c hh]

theorem exec_keyedPop_sends (hready : s.headReady q) (hpop : s.popFor 5 0x7F q false x = (some (d, got), v)) (hgot : got ≠ .discard) :
    exec (.keyedPop q x) s = .next (v.sendKeyed q d) := by
  show execKeyedPop q x s = _
  cases hh : (s.queue q).cells.head? with
  | none => simp [execKeyedPop, hh, hpop, hgot, State.sendKeyed]
  | some c => simp [execKeyedPop, hh, hpop, hgot, hready c hh, State.sendKeyed]

theorem State.sendKeyed_eop (heop : d.eop = true) : (s.sendKeyed q d).queue q =
      { s.queue q with eopOut := (s.queue q).eopOut ++ [(d.item, d.tag == 0 && lossyCell d.data)] } ∧
    (s.sendKeyed q d).mesh.packets.length = s.mesh.packets.length + 1 := by
  simp only [State.sendKeyed, heop, if_true]
  refine ⟨State.queue_modQueue_self _ q _, ?_⟩
  show (s.mesh.packets ++ [_]).length = _
  simp

/-- An EOP cell leaves its queue, which notes that it is on its way. -/
theorem exec_keyedPop_eop (hallowed : s.popAllowed 0x7F q = true) (hsev : (s.queue q).severing = false)
    (hc : (s.queue q).cells = c :: rest) (heop : c.eop = true) (hm : c.marker = false) (hout : s.keyedOut q = false)
    (hdis : (s.queue q).discard = false) (hret : s.flag R.qmQCfgRetired q = false) :
    ∃ t i b, exec (.keyedPop q .none) s = .next t ∧ (t.queue q).cells = rest ∧
      (t.queue q).eopOut = (s.queue q).eopOut ++ [(i, b)] ∧ t.mesh.packets.length = s.mesh.packets.length + 1 := by
  have hgone := State.headGone_pop (ep := 0x7F) hc (by simp [hm]) hret
  have hpop := State.popFor_delivers (block := 5) hallowed (State.popWaits_of_head hsev hc (by simp)) hgone.delivered
  generalize s.deliverHead q 0x7F false = w at hgone hpop
  have htag : (c.delivery q 0x7F).tag ≠ 2 := by
    rw [Cell.delivery_tag, Cell.tag_of_data hm]
    split <;> decide
  obtain ⟨hgot, hframe⟩ := State.accept_data (block := 5) htag (hgone.discard.trans hdis)
  have hexec := exec_keyedPop_sends (fun _ _ => by simp [hout]) hpop hgot
  generalize (w.accept 5 (c.delivery q 0x7F)).2 = v at hframe hexec
  obtain ⟨hqueue, hlen⟩ := State.sendKeyed_eop (s := v) (q := q) (d := c.delivery q 0x7F) heop
  have hsame : v.queue q = w.queue q := State.queue_congr (by rw [hframe]) q
  obtain ⟨b, hw⟩ := hgone.queue
  rw [hsame, hw] at hqueue
  refine ⟨_, _, _, hexec, congrArg Queue.cells hqueue, congrArg Queue.eopOut hqueue, hlen.trans ?_⟩
  rw [hframe, hgone.frame]

/-- The packet of a good data cell of a keyed queue (R265). -/
def State.keyedPacket (s : State) (q : Nat) (c : Cell) : Packet :=
  { item := c.itemSeen 0, key := keyedKey q c.data 0, vc := 1, epoch := s.reg R.cvStatusEpoch, dest := 0,
    tile := Config.keyedRouter q % s.member.tiles, cells := [(c.data, 0)], qid := q,
    origin := Config.keyedRouter q % s.member.tiles, since := s.devtime }

theorem exec_keyedPop_data (hallowed : s.popAllowed 0x7F q = true) (hsev : (s.queue q).severing = false)
    (hc : (s.queue q).cells = c :: rest) (heop : c.eop = false) (hm : c.marker = false) (hp : parity 64 c.data.toNat = c.dp)
    (hdis : (s.queue q).discard = false) (hret : s.flag R.qmQCfgRetired q = false) (hq : q < 511) :
    ∃ w, s.headGone q 0x7F c rest s.pal.held [R.eiXoffState.key 0 0] w ∧ exec (.keyedPop q .none) s =
      .next { w with mesh := { s.mesh with packets := s.mesh.packets ++ [s.keyedPacket q c] } } := by
  have hgone := State.headGone_pop (ep := 0x7F) hc (by simp [hm]) hret
  have hpop := State.popFor_delivers (block := 5) hallowed (State.popWaits_of_head hsev hc (by simp)) hgone.delivered
  generalize s.deliverHead q 0x7F false = w at hgone hpop
  have htag : (c.delivery q 0x7F).tag = 0 := (c.delivery_tag q _).trans (Cell.tag_of_good hm hp)
  have hitem : (c.delivery q 0x7F).item = c.itemSeen 0 := by
    rw [Cell.delivery, if_neg (by omega), Cell.tag_of_good hm hp]
  rw [State.accept_good htag (hgone.discard.trans hdis)] at hpop
  have hready : s.headReady q := fun y hy => by
    rw [hc] at hy
    obtain rfl : c = y := by simpa using hy
    simp [heop]
  refine ⟨w, hgone, (exec_keyedPop_sends hready hpop (by simp)).trans (congrArg Host.Outcome.next ?_)⟩
  have hmesh : w.mesh = s.mesh := by rw [hgone.frame]
  have hmember : w.member = s.member := by rw [hgone.frame]; rfl
  have hnow : w.devtime = s.devtime := by rw [hgone.frame]
  have hepoch : w.reg R.cvStatusEpoch = s.reg R.cvStatusEpoch := hgone.regs _ _ _ (by decide)
  have hdata : (c.delivery q 0x7F).data = c.data := rfl
  have hnot : (c.delivery q 0x7F).eop = false := heop
  simp only [State.sendKeyed, hnot, State.inject, State.modMesh, hitem, htag, hdata, hmesh, hmember, hnow, hepoch, State.keyedPacket,
    Bool.false_eq_true, if_false]

/-- Where no pop is allowed, WRONG_EP is set. -/
theorem exec_keyedPop_refused (hout : s.keyedOut q = false) (hallowed : s.popAllowed 0x7F q = false) :
    exec (.keyedPop q x) s = .next (s.setReg R.qmStatusWrongEp 1) :=
  exec_keyedPop_nothing (fun _ _ => by simp [hout]) (State.popFor_refused hallowed)

/-! ## KEYED_EOP_ACCEPTED (R266, R267) -/

/-- An EOP cell of queue q has a copy on its way or at a local port. -/
def State.eopAbroad (s : State) (q : Nat) : Bool := (s.mesh.packets ++ s.mesh.atLocal).any fun p => p.qid == q && p.eop

theorem exec_keyedEopAccepted_ends {item : ItemId} {lossy : Bool} {l : List (ItemId × Bool)}
    (hout : (s.queue q).eopOut = (item, lossy) :: l) (habroad : s.eopAbroad q = false) :
    exec (.keyedEopAccepted q) s = .next ((s.modQueue q fun x => { x with eopOut := l }).endTaken 5 item lossy) := by
  show execKeyedEopAccepted q s = _
  unfold execKeyedEopAccepted
  rw [hout]
  exact congrArg Host.Outcome.next (if_neg (ne_true_of_eq_false habroad))

theorem exec_keyedEopAccepted_waits (h : (s.queue q).eopOut = [] ∨ s.eopAbroad q = true) :
    exec (.keyedEopAccepted q) s = .next s := by
  show execKeyedEopAccepted q s = _
  unfold execKeyedEopAccepted
  cases hout : (s.queue q).eopOut with
  | nil => rfl
  | cons e l => exact congrArg Host.Outcome.next (if_pos (h.resolve_left (by simp [hout])))

end
end Sys2Proof.Machine
end

section
/-! SPIKE_TILE_INPUT: a tile takes the next packet of its local port (R267 to R271, R273). -/
namespace Sys2Proof.Machine

section
variable {s u v : State} {t i n : Nat} {p : Packet} {fails : List Nat} {x : Option Packet}

/-! ## The tile wakes (R273) -/

/-- The bit addresses of the fields that a tile's wake writes. -/
def wakeKeys (t : Nat) : List Nat := [R.sfTStatAwake.key t 0, R.sfTCntCount.key t 6]

/-- A tile that wakes: AWAKE stands, and beside it the count of wakes and the tile's timer may have changed. -/
theorem State.wakeTile_spec (s : State) (t : Nat) : (s.wakeTile t).reg R.sfTStatAwake t = 1 ∧
    s.wakeTile t = { s with regs := (s.wakeTile t).regs, timers := (s.wakeTile t).timers } ∧
    s.regsBut (s.wakeTile t) (wakeKeys t) := by
  by_cases h : s.flag R.sfTStatAwake t = true
  · have heq : s.wakeTile t = s.arm (.tileSleep t) (s.scaled 2000) := by simp [State.wakeTile, h]
    rw [heq]
    exact ⟨State.flag_eq_true_iff.mp h, rfl, (s.regsBut_refl _).of_regs rfl⟩
  · obtain ⟨l, heq⟩ : ∃ l, s.wakeTile t = { (s.setReg R.sfTStatAwake 1 t).bump R.sfTCntCount t 6 with timers := l } := by
      simp only [State.wakeTile, h, Bool.false_eq_true, if_false]
      exact ⟨_, rfl⟩
    have hne : R.sfTCntCount.key t 6 ≠ R.sfTStatAwake.key t 0 := by
      simp only [Row.key, R.sfTCntCount, R.sfTStatAwake]
      omega
    rw [heq]
    refine ⟨?_, rfl, ((s.regsBut_refl (wakeKeys t)).setReg (by simp [wakeKeys])).setReg (by simp [wakeKeys])⟩
    exact (State.reg_setReg_ne _ _ _ _ _ _ _ _ hne).trans (s.reg_setReg_self _ _ _ _)

/-- A field of a population lies below the tiles' windows. -/
theorem popKey_not_mem_wakeKeys {r : Row} {q : Nat} (hoff : r.off < 0xA01080) (hs : r.s1 = 0x80) (hlo : r.lo < 32) (hq : q < 128) :
    r.key q 0 ∉ wakeKeys t := by
  simp only [Row.key, hs, wakeKeys, R.sfTCntCount, R.sfTStatAwake, List.mem_cons, List.not_mem_nil, or_false]
  omega

theorem State.reg_wakeTile_map (s : State) (t : Nat) {r : Row} {k : Nat} (hoff : 0xA10100 ≤ r.off) (hs : r.s1 = 0x1000) :
    (s.wakeTile t).reg r t k = s.reg r t k := by
  refine (s.wakeTile_spec t).2.2 r t k ?_
  simp only [Row.key, hs, wakeKeys, R.sfTCntCount, R.sfTStatAwake, List.mem_cons, List.not_mem_nil, or_false]
  omega

/-! ## What a wake leaves of an input -/

theorem State.exportDue_wakeTile (s : State) (t : Nat) (p : Packet) : (s.wakeTile t).exportDue t p = s.exportDue t p := by
  have hq : bits p.key 30 24 < 128 := bits_lt _ _ _
  have hregs := (s.wakeTile_spec t).2.2
  unfold State.exportDue State.flag
  dsimp only
  rw [hregs _ _ _ (popKey_not_mem_wakeKeys (r := R.sfPopCfgExportTile) (by decide) rfl (by decide) hq),
    hregs _ _ _ (popKey_not_mem_wakeKeys (r := R.sfPopCfgExport) (by decide) rfl (by decide) hq)]

theorem State.mapEntry_wakeTile (s : State) (t key : Nat) : (s.wakeTile t).mapEntry t key = s.mapEntry t key := by
  unfold State.mapEntry
  simp only [s.reg_wakeTile_map t (r := R.sfTMapKeyKey) (by decide) rfl, s.reg_wakeTile_map t (r := R.sfTMapMaskMask) (by decide) rfl]

/-- No map entry takes a packet: none matches its key, or a KERNEL entry matches and the cell is no event. -/
theorem State.inputPops_eq_none : s.inputPops t p = none ↔ ∀ k, s.mapEntry t p.key = some k →
    (s.flag R.sfTMapModeMode t k && decide (2 ≤ cellType p.cell)) = true := by
  unfold State.inputPops
  split
  · next h => simp [h]
  · next k h =>
    split
    · next hk => simpa [h] using hk
    · next hk => simpa [h] using hk

theorem State.inputPops_wakeTile (h : s.inputPops t p = none) : (s.wakeTile t).inputPops t p = none := by
  rw [State.inputPops_eq_none] at h ⊢
  intro k hk
  rw [State.mapEntry_wakeTile] at hk
  rw [State.flag, s.reg_wakeTile_map t (r := R.sfTMapModeMode) (by decide) rfl]
  exact h k hk

/-! ## The packet is taken (R267 to R271) -/

/-- What of a packet stays at the local port, and CV_EPOCH_DRAIN follows. -/
def State.leaveAtPort (s : State) (i : Nat) (x : Option Packet) : State :=
  (s.modMesh fun m => { m with atLocal := match x with
    | some y => m.atLocal.set i y
    | none => m.atLocal.eraseIdx i }).refreshDrain

theorem exec_spikeTileInput_takes (hrole : s.role t = 1) (hon : s.domOn (10 + s.quadOf t) = true)
    (hnext : s.nextInput t s.mesh.atLocal 0 [] [] = some i) (hat : s.mesh.atLocal[i]? = some p) :
    exec (.spikeTileInput t fails) s =
      .next (((s.wakeTile t).takeInput t p fails).2.leaveAtPort i ((s.wakeTile t).takeInput t p fails).1) := by
  show execSpikeTileInput t fails s = _
  simp only [execSpikeTileInput, hrole, hon, hnext, hat, ne_eq, not_true_eq_false, decide_false, Bool.not_true, Bool.or_self,
    Bool.false_eq_true, if_false]
  rfl

theorem exec_spikeTileInput_idle (h : s.role t ≠ 1 ∨ s.domOn (10 + s.quadOf t) = false ∨
    s.nextInput t s.mesh.atLocal 0 [] [] = none) : exec (.spikeTileInput t fails) s = .next s := by
  show execSpikeTileInput t fails s = _
  rcases h with h | h | h <;> simp [execSpikeTileInput, h]

theorem Packet.not_cut_of_data (h : p.isData = true) : p.isCut = false := by
  cases hs : p.isSpike with
  | false => simp [Packet.isCut, hs]
  | true => simpa [Packet.isData, hs] using h

/-- A cut marker at the tile that exports it is counted off (R270). -/
theorem State.takeInput_cut (hcut : p.isCut = true) (hexport : s.reg R.sfPopCfgExportTile (bits p.key 30 24) = t) :
    s.takeInput t p fails = (none, s.modPop (bits p.key 30 24) fun x =>
      { x with cut := x.cut.map fun c => (c.1, c.2.filter (fun n => decide (n ≠ p.origin))) }) := by
  simp [State.takeInput, hcut, hexport]

theorem State.takeInput_data (hdata : p.isData = true) (hdue : s.exportDue t p = false) :
    s.takeInput t p fails = s.integrate t p fails := by
  simp [State.takeInput, Packet.not_cut_of_data hdata, hdue, hdata]

/-- A spike at the tile that exports it is pushed into the output queue before it is integrated (R271). -/
theorem State.takeInput_export (hdata : p.isData = true) (hdue : s.exportDue t p = true) :
    s.takeInput t p fails = (s.exportCell (bits p.key 30 24) t p.item p.cell).integrate t { p with served := p.served ++ [64] } fails := by
  have hdata' : ({ p with served := p.served ++ [64] } : Packet).isData = true := hdata
  simp [State.takeInput, Packet.not_cut_of_data hdata, hdue, hdata']

/-- A data packet that no map entry takes counts in UNMATCHED and leaves. -/
theorem State.integrate_unmatched (h : s.inputPops t p = none) : s.integrate t p fails = (none, s.bump R.sfTCntCount t 3) := by
  simp [State.integrate, h]

theorem State.pop_modPop_self (s : State) (n : Nat) (f : PopState → PopState) : (s.modPop n f).pop n = f (s.pop n) := by
  simp [State.pop, State.modPop, alMod, alGet_alPut_self]

theorem State.pop_modPop_ne {m : Nat} (h : m ≠ n) (s : State) (f : PopState → PopState) : (s.modPop n f).pop m = s.pop m := by
  simp [State.pop, State.modPop, alMod, alGet_alPut_ne _ _ h]

theorem State.pop_congr (h : u.sf = s.sf) (n : Nat) : u.pop n = s.pop n := by
  unfold State.pop
  rw [h]

theorem exec_spikeTileInput_cut (hrole : s.role t = 1) (hon : s.domOn (10 + s.quadOf t) = true)
    (hnext : s.nextInput t s.mesh.atLocal 0 [] [] = some i) (hat : s.mesh.atLocal[i]? = some p) (hcut : p.isCut = true)
    (hexport : s.reg R.sfPopCfgExportTile (bits p.key 30 24) = t) :
    ∃ r, exec (.spikeTileInput t fails) s = .next r ∧ r.mesh = { s.mesh with atLocal := s.mesh.atLocal.eraseIdx i } ∧
      r.pop (bits p.key 30 24) = { s.pop (bits p.key 30 24) with
        cut := (s.pop (bits p.key 30 24)).cut.map fun c => (c.1, c.2.filter (fun n => decide (n ≠ p.origin))) } ∧
      (∀ n, n ≠ bits p.key 30 24 → r.pop n = s.pop n) ∧ r = { s with regs := r.regs, mesh := r.mesh, sf := r.sf, timers := r.timers } ∧
      s.regsBut r [R.sfTStatAwake.key t 0, R.sfTCntCount.key t 6, R.cvEpochDrainCount.key 0 0] := by
  obtain ⟨-, hframe, hregs⟩ := s.wakeTile_spec t
  have hq : bits p.key 30 24 < 128 := bits_lt _ _ _
  have hexport' : (s.wakeTile t).reg R.sfPopCfgExportTile (bits p.key 30 24) = t :=
    (hregs _ _ _ (popKey_not_mem_wakeKeys (by decide) rfl (by decide) hq)).trans hexport
  have hexec := exec_spikeTileInput_takes (fails := fails) hrole hon hnext hat
  rw [State.takeInput_cut hcut hexport'] at hexec
  generalize s.wakeTile t = w at *
  have hsf : w.sf = s.sf := by rw [hframe]
  have hmesh : w.mesh = s.mesh := by rw [hframe]
  refine ⟨_, hexec, ?_, ?_, fun n hn => ?_, ?_, fun r i j hk => ?_⟩
  · exact congrArg (fun m : Mesh => { m with atLocal := m.atLocal.eraseIdx i }) hmesh
  · refine (w.pop_modPop_self _ _).trans ?_
    rw [State.pop_congr hsf]
  · exact (State.pop_modPop_ne hn w _).trans (State.pop_congr hsf n)
  · rw [hframe]
    rfl
  · simp only [List.mem_cons, List.not_mem_nil, or_false, not_or] at hk
    exact ((State.refreshDrain_onlyRegs _).2 r i j (by simpa using hk.2.2)).trans (hregs r i j (by simp [wakeKeys, hk.1, hk.2.1]))

end
end Sys2Proof.Machine
end

section
/-! One input for a neuron of a population that is not PACED (R255, R257 to R259). -/
namespace Sys2Proof.Machine

/-! ## Numbers in bytes (R6) -/

theorem leNat_leBytes (n v : Nat) : leNat (leBytes n v) = v % 256 ^ n := by
  induction n generalizing v with
  | zero => simp [leBytes, leNat, Nat.mod_one]
  | succ n ih =>
    rw [leBytes, leNat, ih, BitVec.toNat_ofNat, show 256 ^ (n + 1) = 256 * 256 ^ n from Nat.pow_succ', Nat.mod_mul]

theorem leNat_lt (l : List Byte) : leNat l < 256 ^ l.length := by
  induction l with
  | nil => decide
  | cons b l ih =>
    have hb : b.toNat < 256 := b.isLt
    rw [leNat, List.length_cons, Nat.pow_succ']
    omega

/-- Bytes written in a row are read back part by part. -/
theorem Mem.readBytes_writeBytes_part (m : Mem) (a : Nat) (l p r : List Byte) :
    (m.writeBytes a (l ++ p ++ r)).readBytes (a + l.length) p.length = p := by
  apply List.ext_getElem
  · simp [Mem.readBytes]
  · intro i h1 h2
    have hi : l.length + i < (l ++ p ++ r).length := by
      simp only [List.length_append]
      omega
    simp only [Mem.readBytes, List.getElem_map, List.getElem_range, Nat.add_assoc, Mem.read_writeBytes_in _ _ _ _ hi]
    simp [h2]

theorem Mem.readNat_writeBytes_part {m : Mem} {a n v : Nat} {l r : List Byte} (hv : v < 256 ^ n) :
    (m.writeBytes a (l ++ leBytes n v ++ r)).readNat (a + l.length) n = v := by
  have h := m.readBytes_writeBytes_part a l (leBytes n v) r
  rw [leBytes_length] at h
  rw [Mem.readNat, h, leNat_leBytes, Nat.mod_eq_of_lt hv]

section
variable {s u : State} {t a p i us d : Nat} {w v : Int} {n m : Neuron} {pol : Bool}

/-! ## Records (R255) -/

/-- Each field of a neuron fits its place in the record. -/
structure Neuron.fits (n : Neuron) : Prop where
  v : -(2 ^ 15 : Nat) ≤ n.v ∧ n.v < (2 ^ 15 : Nat)
  a : n.a < 2 ^ 16
  last : n.last < 2 ^ 32
  left : n.left < 2 ^ 16

theorem Mem.readNat_lt (m : Mem) (a n : Nat) : m.readNat a n < 256 ^ n :=
  (leNat_lt _).trans_eq (by rw [Mem.readBytes_length])

theorem State.neuronAt_fits (s : State) (t a : Nat) : (s.neuronAt t a).fits where
  v := toSigned_bounds 16 _
  a := Mem.readNat_lt _ _ 2
  last := Mem.readNat_lt _ _ 4
  left := Mem.readNat_lt _ _ 2

/-- An address inside a record that does not leave its tile's memory. -/
theorem tileAddr_add {k : Nat} (h : a % 2 ^ 20 + 16 ≤ 2 ^ 20) (hk : k < 16) : tileAddr t (a + k) = tileAddr t a + k := by
  unfold tileAddr
  omega

/-- The bytes of a neuron's record (R255). -/
def Neuron.bytes (n : Neuron) : List Byte :=
  leBytes 2 (ofSigned 16 n.v) ++ leBytes 2 n.a ++ leBytes 4 n.last ++ leBytes 2 n.left ++ leBytes 6 0

theorem Neuron.bytes_length (n : Neuron) : n.bytes.length = 16 := by simp [Neuron.bytes, leBytes_length]

theorem State.putNeuron_eq (s : State) (t a : Nat) (n : Neuron) :
    s.putNeuron t a n = s.modTmem fun m => m.writeBytes (tileAddr t a) n.bytes := rfl

/-- The fields of a record that fits are read back from its bytes. -/
theorem Neuron.fits.readNat (hn : n.fits) (m : Mem) (b : Nat) :
    (m.writeBytes b n.bytes).readNat b 2 = ofSigned 16 n.v ∧ (m.writeBytes b n.bytes).readNat (b + 2) 2 = n.a ∧
    (m.writeBytes b n.bytes).readNat (b + 4) 4 = n.last ∧ (m.writeBytes b n.bytes).readNat (b + 8) 2 = n.left := by
  have hv := Mem.readNat_writeBytes_part (m := m) (a := b) (n := 2) (l := [])
    (r := leBytes 2 n.a ++ leBytes 4 n.last ++ leBytes 2 n.left ++ leBytes 6 0) (ofSigned_lt 16 n.v)
  have ha := Mem.readNat_writeBytes_part (m := m) (a := b) (n := 2) (l := leBytes 2 (ofSigned 16 n.v))
    (r := leBytes 4 n.last ++ leBytes 2 n.left ++ leBytes 6 0) hn.a
  have hlast := Mem.readNat_writeBytes_part (m := m) (a := b) (n := 4) (l := leBytes 2 (ofSigned 16 n.v) ++ leBytes 2 n.a)
    (r := leBytes 2 n.left ++ leBytes 6 0) hn.last
  have hleft := Mem.readNat_writeBytes_part (m := m) (a := b) (n := 2)
    (l := leBytes 2 (ofSigned 16 n.v) ++ leBytes 2 n.a ++ leBytes 4 n.last) (r := leBytes 6 0) hn.left
  simp only [List.append_assoc, List.nil_append, List.length_append, leBytes_length, List.length_nil, Nat.add_zero] at hv ha hlast hleft
  simp only [Neuron.bytes, List.append_assoc]
  exact ⟨hv, ha, hlast, hleft⟩

/-- A record that fits is read back as it was written. -/
theorem State.neuronAt_putNeuron (h : a % 2 ^ 20 + 16 ≤ 2 ^ 20) (hn : n.fits) : (s.putNeuron t a n).neuronAt t a = n := by
  obtain ⟨hv, ha, hlast, hleft⟩ := hn.readNat s.tmem (tileAddr t a)
  have hsigned : toSigned 16 (ofSigned 16 n.v) = n.v := toSigned_ofSigned (by decide) hn.v.1 hn.v.2
  rw [State.putNeuron_eq]
  simp only [State.neuronAt, State.tileNat, State.modTmem_tmem, tileAddr_add h (by decide : 2 < 16), tileAddr_add h (by decide : 4 < 16),
    tileAddr_add h (by decide : 8 < 16), hv, ha, hlast, hleft, hsigned]

theorem State.putNeuron_out {x : Nat} (s : State) (n : Neuron) (h : x < tileAddr t a ∨ tileAddr t a + 16 ≤ x) :
    (s.putNeuron t a n).tmem.read x = s.tmem.read x := by
  rw [State.putNeuron_eq]
  exact Mem.read_writeBytes_out _ _ _ _ (by rwa [n.bytes_length])

/-! ## Decay and the bounds of V and A (R257, R258) -/

theorem State.floorV_bounds (s : State) (p : Nat) (v : Int) : -(2 ^ 15 : Nat) ≤ s.floorV p v ∧ s.floorV p v < (2 ^ 15 : Nat) := by
  have hmin : -(2 ^ 15 : Nat) ≤ s.regS R.sfPopPar2VMin p ∧ s.regS R.sfPopPar2VMin p < (2 ^ 15 : Nat) := toSigned_bounds 16 _
  unfold State.floorV satSigned
  dsimp only
  split
  · omega
  · split <;> omega

theorem Neuron.fits.decayNeuron (hn : n.fits) (s : State) (t p d : Nat) : (s.decayNeuron t p d n).fits := by
  unfold State.decayNeuron
  split
  · exact hn
  · exact ⟨s.floorV_bounds p _, Nat.lt_succ_of_le (Nat.min_le_left _ _), hn.last, hn.left⟩

theorem State.decayNeuron_left (s : State) (t p d : Nat) (n : Neuron) : (s.decayNeuron t p d n).left = n.left := by
  unfold State.decayNeuron
  split <;> rfl

/-! ## The input (R257, R259) -/

/-- The count of updates of a tile is no field of a population. -/
theorem popKey_ne_count {r : Row} (hoff : r.off < 0xA01080) (hs : r.s1 = 0x80) (hlo : r.lo < 32) (hp : p < 64) (t : Nat) :
    R.sfTCntCount.key t 0 ≠ r.key p 0 := by
  simp only [Row.key, hs, R.sfTCntCount]
  omega

/-- The state in which an input is worked out: the update has been counted. -/
def State.counted (s : State) (t : Nat) : State := s.bump R.sfTCntCount t 0

theorem State.reg_counted_pop {r : Row} (hoff : r.off < 0xA01080) (hs : r.s1 = 0x80) (hlo : r.lo < 32) (hp : p < 64) (s : State) (t : Nat) :
    (s.counted t).reg r p = s.reg r p := s.reg_setReg_ne _ _ _ _ _ _ _ (popKey_ne_count hoff hs hlo hp t)

theorem State.paced_counted (hp : p < 64) : (s.counted t).paced p = s.paced p := by
  simp only [State.paced, State.flag, State.reg_counted_pop (r := R.sfPopCfgEn) (by decide) rfl (by decide) hp,
    State.reg_counted_pop (r := R.sfPopCfgMode) (by decide) rfl (by decide) hp]

theorem State.floorV_counted (hp : p < 64) (v : Int) : (s.counted t).floorV p v = s.floorV p v := by
  simp only [State.floorV, State.regS, State.reg_counted_pop (r := R.sfPopPar2VMin) (by decide) rfl (by decide) hp]

theorem State.decayFactor_counted (s : State) (t c i : Nat) : (s.counted t).decayFactor t c i = s.decayFactor t c i := by
  have hreg : (s.counted t).reg R.sfTPartsDecay t = s.reg R.sfTPartsDecay t := s.reg_setReg_ne _ _ _ _ _ _ _ (by
    simp only [Row.key, R.sfTCntCount, R.sfTPartsDecay]
    omega)
  unfold State.decayFactor
  rw [hreg]
  rfl

theorem State.decayNeuron_counted (hp : p < 64) (d : Nat) (n : Neuron) :
    (s.counted t).decayNeuron t p d n = s.decayNeuron t p d n := by
  simp only [State.decayNeuron, State.decayFactor_counted, State.floorV_counted hp,
    State.reg_counted_pop (r := R.sfPopPar2ColV) (by decide) rfl (by decide) hp,
    State.reg_counted_pop (r := R.sfPopPar2ColA) (by decide) rfl (by decide) hp]

/-- Steps 1 and 2 for an input that is not older than T_LAST. -/
theorem State.advance_of_elapsed (h : elapsed us n.last = (d, false)) (s : State) (t p : Nat) : s.advance t p us n =
    ({ s.decayNeuron t p d n with left := n.left - d, last := us % 2 ^ 32 }, false) := by
  simp [State.advance, h]

section
variable {r : Neuron} (hpaced : (s.counted t).paced p = false)
  (hadv : (s.counted t).advance t p us ((s.counted t).neuronAt t a) = (r, false))
include hpaced hadv

/-- Within the refractory time the input is counted as ignored. -/
theorem State.neuronInput_ignored (hleft : 0 < r.left) :
    s.neuronInput p t i a us w pol false = ((s.counted t).putNeuron t a r).bump R.sfTCntCount t 2 := by
  unfold State.neuronInput
  simp only [show s.bump R.sfTCntCount t 0 = s.counted t from rfl, hpaced, hadv, hleft, Bool.false_eq_true, if_false, if_true]

/-- Past it V takes the weight, and the threshold is tested. -/
theorem State.neuronInput_taken (hleft : r.left = 0) {e : Neuron × State} (he : e = (s.counted t).testSpike p t us i pol
      { r with v := (s.counted t).floorV p (r.v + w * 2 ^ (s.counted t).reg R.sfPopPar2WShift p) }) :
    s.neuronInput p t i a us w pol false = e.2.putNeuron t a e.1 := by
  subst he
  unfold State.neuronInput
  simp only [show s.bump R.sfTCntCount t 0 = s.counted t from rfl, hpaced, hadv, hleft, lt_irrefl, Bool.false_eq_true, if_false]

end

theorem State.testSpike_below (h : n.v < s.reg R.sfPopPar0Theta0 p + n.a) : s.testSpike p t us i pol n = (n, s) := by
  unfold State.testSpike
  exact if_neg (by omega)

theorem State.testSpike_spikes (h : ((s.reg R.sfPopPar0Theta0 p + n.a : Nat) : Int) ≤ n.v) : s.testSpike p t us i pol n =
    ({ n with v := s.floorV p (s.regS R.sfPopPar1VReset p), a := satTo 65535 (n.a + s.reg R.sfPopPar0AInc p),
              left := s.reg R.sfPopPar1TRef p }, s.emitSpike p t us i pol (n.v - (s.reg R.sfPopPar0Theta0 p + n.a : Nat))) := by
  unfold State.testSpike
  exact if_pos (by push_cast at h; exact h)

theorem State.countSpike_tmem (s : State) (p us i : Nat) : (s.countSpike p us i).tmem = s.tmem := by
  unfold State.countSpike
  split <;> rfl

/-- A spike leaves the tiles' memories alone. -/
theorem State.emitSpike_tmem (s : State) (p t us i : Nat) (pol : Bool) (v : Int) : (s.emitSpike p t us i pol v).tmem = s.tmem := by
  have hcount : (if s.spikeItem p = 0 then s else (s.bump R.sfTCntCount t 1).countSpike p us i).tmem = s.tmem := by
    split
    · rfl
    · exact State.countSpike_tmem _ _ _ _
  unfold State.emitSpike
  dsimp only
  generalize (if s.spikeItem p = 0 then s else (s.bump R.sfTCntCount t 1).countSpike p us i) = u at hcount ⊢
  split
  · exact hcount
  · exact hcount

/-- The record that an input leaves of a neuron that has decayed to m: V has come to v, and d µs have passed since T_LAST (R259). -/
def State.afterInput (s : State) (p us d : Nat) (v : Int) (m : Neuron) : Neuron :=
  if d < m.left then { m with last := us % 2 ^ 32, left := m.left - d }
  else if ((s.reg R.sfPopPar0Theta0 p + m.a : Nat) : Int) ≤ v then
    { v := s.floorV p (s.regS R.sfPopPar1VReset p), a := satTo 65535 (m.a + s.reg R.sfPopPar0AInc p), last := us % 2 ^ 32,
      left := s.reg R.sfPopPar1TRef p }
  else { v := v, a := m.a, last := us % 2 ^ 32, left := 0 }

/-- An input writes that record, and nothing else of the tiles' memories. -/
theorem State.tmem_neuronInput (hp : p < 64) (hpaced : s.paced p = false) (hn : n = s.neuronAt t a)
    (hd : elapsed us n.last = (d, false)) (hm : m = s.decayNeuron t p d n)
    (hv : v = s.floorV p (m.v + w * 2 ^ s.reg R.sfPopPar2WShift p)) :
    (s.neuronInput p t i a us w pol false).tmem = (s.putNeuron t a (s.afterInput p us d v m)).tmem := by
  have hleft : m.left = n.left := by rw [hm, State.decayNeuron_left]
  have hpaced' : (s.counted t).paced p = false := (State.paced_counted hp).trans hpaced
  have hadv : (s.counted t).advance t p us ((s.counted t).neuronAt t a) = ({ m with left := n.left - d, last := us % 2 ^ 32 }, false) := by
    rw [show (s.counted t).neuronAt t a = n from hn.symm, State.advance_of_elapsed hd, State.decayNeuron_counted hp, ← hm]
  have hreg {r : Row} (hoff : r.off < 0xA01080) (hs : r.s1 = 0x80) (hlo : r.lo < 32) : (s.counted t).reg r p = s.reg r p :=
    State.reg_counted_pop hoff hs hlo hp s t
  unfold State.afterInput
  split
  · next hlt =>
    rw [State.neuronInput_ignored hpaced' hadv (by dsimp only; omega), hleft]
    rfl
  · next hge =>
    have htaken := State.neuronInput_taken (i := i) (w := w) (pol := pol) hpaced' hadv (by dsimp only; omega) rfl
    rw [State.floorV_counted hp, hreg (r := R.sfPopPar2WShift) (by decide) rfl (by decide), ← hv] at htaken
    rw [htaken]
    split
    · next hspike =>
      rw [State.testSpike_spikes (by rwa [hreg (r := R.sfPopPar0Theta0) (by decide) rfl (by decide)])]
      simp only [State.putNeuron_eq, State.modTmem_tmem, State.emitSpike_tmem, State.floorV_counted hp, State.regS,
        hreg (r := R.sfPopPar1VReset) (by decide) rfl (by decide), hreg (r := R.sfPopPar0AInc) (by decide) rfl (by decide),
        hreg (r := R.sfPopPar1TRef) (by decide) rfl (by decide)]
      rfl
    · next hbelow =>
      rw [State.testSpike_below (by rw [hreg (r := R.sfPopPar0Theta0) (by decide) rfl (by decide)]; dsimp only; omega)]
      have hzero : n.left - d = 0 := by omega
      rw [hzero]
      rfl

end

theorem State.neuronAt_congr {s u : State} (h : u.tmem = s.tmem) (t a : Nat) : u.neuronAt t a = s.neuronAt t a := by
  unfold State.neuronAt State.tileNat
  rw [h]

/-- What an input leaves of a neuron: within the refractory time, below the threshold, and from there on. -/
theorem neuronInput_spec {s : State} {p t i a us d : Nat} {w v : Int} {n m : Neuron} {pol : Bool} (hp : p < 64)
    (hpaced : s.paced p = false) (hin : a % 2 ^ 20 + 16 ≤ 2 ^ 20) (hn : n = s.neuronAt t a) (hd : elapsed us n.last = (d, false))
    (hm : m = s.decayNeuron t p d n) (hv : v = s.floorV p (m.v + w * 2 ^ s.reg R.sfPopPar2WShift p)) :
    (n.left ≤ d → v < s.reg R.sfPopPar0Theta0 p + m.a →
      (s.neuronInput p t i a us w pol false).neuronAt t a = { v := v, a := m.a, last := us % 2 ^ 32, left := 0 }) ∧
    (n.left ≤ d → ((s.reg R.sfPopPar0Theta0 p + m.a : Nat) : Int) ≤ v → s.reg R.sfPopPar1TRef p < 2 ^ 16 →
      (s.neuronInput p t i a us w pol false).neuronAt t a =
        { v := s.floorV p (s.regS R.sfPopPar1VReset p), a := min 65535 (m.a + s.reg R.sfPopPar0AInc p), last := us % 2 ^ 32,
          left := s.reg R.sfPopPar1TRef p }) ∧
    (d < n.left → (s.neuronInput p t i a us w pol false).neuronAt t a = { m with last := us % 2 ^ 32, left := n.left - d }) ∧
    (∀ x, x < tileAddr t a ∨ tileAddr t a + 16 ≤ x → (s.neuronInput p t i a us w pol false).tmem.read x = s.tmem.read x) := by
  have htmem := State.tmem_neuronInput (i := i) (pol := pol) hp hpaced hn hd hm hv
  have hleft : m.left = n.left := by rw [hm, State.decayNeuron_left]
  have hfits : m.fits := by
    rw [hm, hn]
    exact (s.neuronAt_fits t a).decayNeuron s t p d
  have hlast : us % 2 ^ 32 < 2 ^ 32 := Nat.mod_lt _ (by decide)
  have hvb : -(2 ^ 15 : Nat) ≤ v ∧ v < (2 ^ 15 : Nat) := hv ▸ s.floorV_bounds p _
  have hrecord {x : Neuron} (hx : s.afterInput p us d v m = x) (hfx : x.fits) :
      (s.neuronInput p t i a us w pol false).neuronAt t a = x := by
    rw [State.neuronAt_congr htmem, hx, State.neuronAt_putNeuron hin hfx]
  refine ⟨fun hge hbelow => hrecord ?_ ⟨hvb, hfits.a, hlast, Nat.two_pow_pos 16⟩, fun hge hspike htref => hrecord ?_ ⟨s.floorV_bounds p _, ?_, hlast,
    htref⟩, fun hlt => hrecord ?_ ⟨hfits.v, hfits.a, hlast, ?_⟩, fun x hx => ?_⟩
  · rw [State.afterInput, if_neg (by omega), if_neg (by omega)]
  · rw [State.afterInput, if_neg (by omega), if_pos hspike]
    rfl
  · exact Nat.lt_succ_of_le (Nat.min_le_left _ _)
  · rw [State.afterInput, if_pos (by omega), hleft]
  · have := hfits.left
    dsimp only
    omega
  · rw [htmem, State.putNeuron_out s _ hx]

/-- Settles O37: the keyed stream from its queue to the tile that takes it, and the record that one input leaves. -/
theorem keyedStreamAndNeurons : Obligations.KeyedStreamAndNeurons := by
  refine ⟨fun q c rest s hallowed hsev hc heop hm hout hdis hret _ => exec_keyedPop_eop hallowed hsev hc heop hm hout hdis hret,
    ⟨fun q c rest s hallowed hsev hc heop hm hp hdis hret hq => ?_, fun q c rest u s hc heop hout => exec_keyedPop_waits hc heop hout,
      fun q u s hout hallowed => exec_keyedPop_refused hout hallowed, fun q item lossy rest s hout habroad => ?_,
      fun q s h => exec_keyedEopAccepted_waits h,
      fun t i fails p s hrole hon _ hnext hat hcut hexport => exec_spikeTileInput_cut hrole hon hnext hat hcut hexport,
      fun t i fails p s hrole hon _ hnext hat hdata => ?_, fun t fails s h => exec_spikeTileInput_idle h⟩,
    fun p t i a us d w v n m pol s hp hpaced hin hn hd hm hv => neuronInput_spec hp hpaced hin hn hd hm hv⟩
  · obtain ⟨w, hgone, hexec⟩ := exec_keyedPop_data hallowed hsev hc heop hm hp hdis hret hq
    exact ⟨_, hexec, hgone.cells, hgone.others, rfl, by rw [hgone.frame], hgone.regs.of_regs rfl⟩
  · exact ⟨_, _, exec_keyedEopAccepted_ends hout habroad, State.queue_modQueue_self _ _ _, fun n hn => State.queue_modQueue_ne hn _, rfl,
      rfl⟩
  · obtain ⟨hawake, hframe, hregs⟩ := s.wakeTile_spec t
    have hdue := s.exportDue_wakeTile t p
    refine ⟨_, s.wakeTile t, _, _, exec_spikeTileInput_takes hrole hon hnext hat, hawake, hframe, hregs, fun h => ?_, fun h => ?_,
      fun h hnone => ?_, rfl⟩
    · exact State.takeInput_data hdata (hdue.trans h)
    · exact State.takeInput_export hdata (hdue.trans h)
    · rw [State.takeInput_data hdata (hdue.trans h), State.integrate_unmatched (State.inputPops_wakeTile hnone)]
      exact ⟨rfl, rfl⟩

end Sys2Proof.Machine
end

section
/-! The host's command ring and its readout rings (R426 to R429, R435, R436). -/
namespace Sys2Proof.Machine

section
variable {s t u w : State} {ks : List Nat} {c : Fetched} {e : List Byte} {n l ci : Nat}

/-! ## Service of the rings (R424, R426, R453) -/

theorem State.pcieUp_of_regsBut (h : s.regsBut t ks) (hdom : R.pwDomStateOn.key 0 0 ∉ ks) (hlink : R.hiStatusLinkUp.key 0 0 ∉ ks) :
    t.pcieUp = s.pcieUp := by
  simp only [State.pcieUp, State.domOn, State.flag, h _ _ _ hdom, h _ _ _ hlink]

theorem State.ringsUp_of_regsBut (h : s.regsBut t ks) (hdom : R.pwDomStateOn.key 0 0 ∉ ks) (hlink : R.hiStatusLinkUp.key 0 0 ∉ ks)
    (hen : R.hiCtrlRingsEn.key 0 0 ∉ ks) : t.ringsUp = s.ringsUp := by
  simp only [State.ringsUp, State.flag_of_regsBut h hen, State.pcieUp_of_regsBut h hdom hlink]

theorem State.pcieUp_of_ringsUp (h : s.ringsUp = true) : s.pcieUp = true := (Bool.and_eq_true_iff.mp h).2

theorem State.ringsUp_of_pcieDown (h : s.pcieUp = false) : s.ringsUp = false := by
  simp [State.ringsUp, h]

theorem exec_cmdDoorbell_up {pi : Word} {slots : List (List Byte)} (h : s.pcieUp = true) :
    exec (.cmdDoorbell pi slots) s = .next ((s.writeSlots slots).writePi pi.toNat) :=
  congrArg Host.Outcome.next (if_pos h)

theorem exec_cmdDoorbell_down {pi : Word} {slots : List (List Byte)} (h : s.pcieUp = false) :
    exec (.cmdDoorbell pi slots) s = .next s := congrArg Host.Outcome.next (if_neg (ne_true_of_eq_false h))

theorem exec_ringsEn_up {on : Bool} (h : s.pcieUp = true) : exec (.ringsEn on) s = .next (s.writeRings on) :=
  congrArg Host.Outcome.next (if_pos h)

theorem exec_ringsEn_down {on : Bool} (h : s.pcieUp = false) : exec (.ringsEn on) s = .next s :=
  congrArg Host.Outcome.next (if_neg (ne_true_of_eq_false h))

theorem exec_dmaError_down (h : s.ringsUp = false) : exec .dmaError s = .next s :=
  congrArg Host.Outcome.next (if_neg (ne_true_of_eq_false h))

/-! ## Fetching (R426, R428, R429) -/

/-- Nothing is fetched where the rings are not served. -/
theorem State.fetch_of_down (h : s.ringsUp = false) (n : Nat) : s.fetch n = s := by
  cases n with
  | zero => rfl
  | succ n => simp [State.fetch, h]

/-- Nothing is fetched once CI has come to PI. -/
theorem State.fetch_of_empty (h : s.reg R.hiCmdCiIndex = s.reg R.hiCmdPiIndex) (n : Nat) : s.fetch n = s := by
  cases n with
  | zero => rfl
  | succ n => simp [State.fetch, h]

/-- A slot that holds no background command is fetched. -/
theorem State.fetch_slot (hup : s.ringsUp = true) (hq : s.flag R.lgStatusQuiescing = false) (hl : l = s.reg R.hiCmdSizeLog2)
    (hci : ci = s.reg R.hiCmdCiIndex) (hlt : ci < 2 ^ l) (hpi : ci ≠ s.reg R.hiCmdPiIndex % 2 ^ l)
    (he : s.hostMem.readBytes (hostBase (s.reg R.hiCmdBaseAddr 0) (s.reg R.hiCmdBaseAddr 1) + 64 * ci) 64 = e)
    (hop : isBackground (fieldAt e 4 1) = false) (n : Nat) :
    s.fetch (n + 1) = ((s.setReg R.hiCmdCiIndex ((ci + 1) % 2 ^ l)).admitCommand 8 e).fetch n := by
  have hci' : s.reg R.hiCmdCiIndex % 2 ^ l = ci := by rw [← hci, Nat.mod_eq_of_lt hlt]
  rw [State.fetch]
  simp only [← hl, hci', hup, hq, he, hop, bne_iff_ne, ne_eq, hpi, not_false_eq_true, Bool.not_false, Bool.and_self, Bool.false_and,
    Bool.true_and, if_true, Bool.false_eq_true, if_false]

/-- A fresh command of the ring is queued: it is counted, its sequence is noted in the window and in HI_SEQ, and its item is live. -/
def State.ringQueued (s : State) (c : Fetched) : State :=
  let w := s.hi.win8.accept (seqOf c.item)
  let s := (s.bump R.hiCntCount 0).modHi fun h => { h with fetched := h.fetched ++ [c], win8 := w }
  ((s.setReg R.hiSeqHigh (w.high.getD 0)).setReg R.hiSeqValid 1).create c.item

theorem State.admitCommand_ring
    (hc : c = { stream := 8, item := BitVec.ofNat 32 (fieldAt e 0 4), op := fieldAt e 4 1, args := e })
    (hstream : streamOf c.item = 8) (hfresh : s.hi.win8.classify (seqOf c.item) = .fresh) : s.admitCommand 8 e = s.ringQueued c := by
  subst hc
  unfold State.admitCommand
  extract_lets c u w
  have hne : ¬ streamOf c.item ≠ 8 := not_not.mpr hstream
  have hw : w.classify (seqOf c.item) = .fresh := hfresh
  rw [if_neg hne, hw]
  rfl

theorem State.ringQueued_spec (s : State) (c : Fetched) :
    (s.ringQueued c).hi = { s.hi with fetched := s.hi.fetched ++ [c], win8 := s.hi.win8.accept (seqOf c.item) } ∧
    (s.ringQueued c).reg R.hiSeqHigh = (s.hi.win8.accept (seqOf c.item)).high.getD 0 % 2 ^ 24 ∧
    (s.ringQueued c).reg R.hiSeqValid = 1 ∧ (s.ringQueued c).reg R.hiCntCount 0 = (s.reg R.hiCntCount 0 + 1) % 2 ^ 32 ∧
    (s.ringQueued c).lg = { s.lg with items := alPut s.lg.items c.item s.devtime } ∧
    s.ringQueued c = { s with regs := (s.ringQueued c).regs, hi := (s.ringQueued c).hi, lg := (s.ringQueued c).lg } ∧
    s.regsBut (s.ringQueued c) [R.hiSeqHigh.key 0 0, R.hiSeqValid.key 0 0, R.hiCntCount.key 0 0] := by
  have hregs (r : Row) (i j : Nat) : (s.ringQueued c).reg r i j = (((s.bump R.hiCntCount 0).setReg R.hiSeqHigh
      ((s.hi.win8.accept (seqOf c.item)).high.getD 0)).setReg R.hiSeqValid 1).reg r i j := rfl
  refine ⟨rfl, ?_, (hregs _ _ _).trans (State.reg_setReg_self _ _ _ _ _), ?_, rfl, rfl, fun r i j hk => (hregs r i j).trans ?_⟩
  · rw [hregs, State.reg_setReg_ne _ _ _ _ _ _ _ _ (by decide)]
    exact State.reg_setReg_self _ _ _ _ _
  · rw [hregs, State.reg_setReg_ne _ _ _ _ _ _ _ _ (by decide), State.reg_setReg_ne _ _ _ _ _ _ _ _ (by decide)]
    exact s.reg_setReg_self _ _ _ _
  · exact (((s.regsBut_refl _).setReg (by simp)).setReg (by simp)).setReg (by simp) r i j hk

/-! ## A doorbell behind which one entry stands -/

theorem State.writeSlots_one (hlen : e.length = 64) (hci : ci = s.reg R.hiCmdPiIndex) (hlt : ci < 2 ^ s.reg R.hiCmdSizeLog2) :
    s.writeSlots [e] = s.modHostMem fun m =>
      m.writeBytes (hostBase (s.reg R.hiCmdBaseAddr 0) (s.reg R.hiCmdBaseAddr 1) + 64 * ci) e := by
  simp [State.writeSlots, ← hci, Nat.mod_eq_of_lt hlt, List.take_append, hlen, List.take_of_length_le hlen.le]

/-- The place of slot ci of the command ring in the host's memory. -/
def State.slotAddr (s : State) (ci : Nat) : Nat := hostBase (s.reg R.hiCmdBaseAddr 0) (s.reg R.hiCmdBaseAddr 1) + 64 * ci

/-- The host has written an entry into slot ci, and both indices have passed it. -/
def State.slotPassed (s : State) (l ci : Nat) (e : List Byte) : State :=
  ((s.modHostMem fun m => m.writeBytes (s.slotAddr ci) e).setReg R.hiCmdPiIndex ((ci + 1) % 2 ^ l)).setReg R.hiCmdCiIndex
    ((ci + 1) % 2 ^ l)

theorem State.slotPassed_regsBut (s : State) (l ci : Nat) (e : List Byte) :
    s.regsBut (s.slotPassed l ci e) [R.hiCmdPiIndex.key 0 0, R.hiCmdCiIndex.key 0 0] :=
  (((s.regsBut_refl _).of_regs (u := s.modHostMem _) rfl).setReg (by simp)).setReg (by simp)

/-- Both indices read the same behind the entry. -/
theorem State.slotPassed_index (hl : l ≤ 12) (s : State) (ci : Nat) (e : List Byte) :
    (s.slotPassed l ci e).reg R.hiCmdPiIndex = (ci + 1) % 2 ^ l ∧ (s.slotPassed l ci e).reg R.hiCmdCiIndex = (ci + 1) % 2 ^ l := by
  have hlt : (ci + 1) % 2 ^ l < 2 ^ 12 := (Nat.mod_lt _ (Nat.two_pow_pos l)).trans_le (Nat.pow_le_pow_right (by decide) hl)
  refine ⟨(State.reg_setReg_ne _ _ _ _ _ _ _ _ (by decide)).trans ?_, ?_⟩
  · exact (State.reg_setReg_self _ _ _ _ _).trans (Nat.mod_eq_of_lt hlt)
  · exact (State.reg_setReg_self _ _ _ _ _).trans (Nat.mod_eq_of_lt hlt)

/-- The next index of a ring of two or more slots is another one. -/
theorem succ_mod_two_pow_ne (h1 : 1 ≤ l) (hlt : ci < 2 ^ l) : (ci + 1) % 2 ^ l ≠ ci := by
  have h2 : 2 ^ 1 ≤ 2 ^ l := Nat.pow_le_pow_right (by decide) h1
  rcases Nat.lt_or_ge (ci + 1) (2 ^ l) with h | h
  · rw [Nat.mod_eq_of_lt h]
    omega
  · rw [show ci + 1 = 2 ^ l by omega, Nat.mod_self]
    omega

/-- The entry behind a doorbell is fetched, and the ring is empty again. -/
theorem exec_cmdDoorbell_fetches (hup : s.ringsUp = true) (hq : s.flag R.lgStatusQuiescing = false) (hl : l = s.reg R.hiCmdSizeLog2)
    (h1 : 1 ≤ l) (h12 : l ≤ 12) (hci : ci = s.reg R.hiCmdCiIndex) (hpi : ci = s.reg R.hiCmdPiIndex) (hlt : ci < 2 ^ l)
    (hlen : e.length = 64) (hc : c = { stream := 8, item := BitVec.ofNat 32 (fieldAt e 0 4), op := fieldAt e 4 1, args := e })
    (hop : isBackground c.op = false) (hstream : streamOf c.item = 8) (hfresh : s.hi.win8.classify (seqOf c.item) = .fresh) :
    exec (.cmdDoorbell (BitVec.ofNat 32 ((ci + 1) % 2 ^ l)) [e]) s = .next ((s.slotPassed l ci e).ringQueued c) := by
  have hnext : (ci + 1) % 2 ^ l < 2 ^ 12 := (Nat.mod_lt _ (Nat.two_pow_pos l)).trans_le (Nat.pow_le_pow_right (by decide) h12)
  have hnat : (BitVec.ofNat 32 ((ci + 1) % 2 ^ l)).toNat = (ci + 1) % 2 ^ l := by
    rw [BitVec.toNat_ofNat, Nat.mod_eq_of_lt (hnext.trans (by decide))]
  rw [exec_cmdDoorbell_up (State.pcieUp_of_ringsUp hup), State.writeSlots_one hlen hpi (hl ▸ hlt), hnat]
  refine congrArg Host.Outcome.next ?_
  show ((s.modHostMem fun m => m.writeBytes (s.slotAddr ci) e).setReg R.hiCmdPiIndex ((ci + 1) % 2 ^ l)).fetch 4096 = _
  have hpassed : s.slotPassed l ci e = ((s.modHostMem fun m => m.writeBytes (s.slotAddr ci) e).setReg R.hiCmdPiIndex
    ((ci + 1) % 2 ^ l)).setReg R.hiCmdCiIndex ((ci + 1) % 2 ^ l) := rfl
  have hregs : s.regsBut ((s.modHostMem fun m => m.writeBytes (s.slotAddr ci) e).setReg R.hiCmdPiIndex ((ci + 1) % 2 ^ l))
      [R.hiCmdPiIndex.key 0 0] := ((s.regsBut_refl _).of_regs (u := s.modHostMem _) rfl).setReg (by simp)
  have hnew : ((s.modHostMem fun m => m.writeBytes (s.slotAddr ci) e).setReg R.hiCmdPiIndex ((ci + 1) % 2 ^ l)).reg R.hiCmdPiIndex =
      (ci + 1) % 2 ^ l := (State.reg_setReg_self _ _ _ _ _).trans (Nat.mod_eq_of_lt hnext)
  have hmem : ((s.modHostMem fun m => m.writeBytes (s.slotAddr ci) e).setReg R.hiCmdPiIndex ((ci + 1) % 2 ^ l)).hostMem =
      s.hostMem.writeBytes (s.slotAddr ci) e := rfl
  generalize (s.modHostMem fun m => m.writeBytes (s.slotAddr ci) e).setReg R.hiCmdPiIndex ((ci + 1) % 2 ^ l) = u at *
  have hread : u.hostMem.readBytes (hostBase (u.reg R.hiCmdBaseAddr 0) (u.reg R.hiCmdBaseAddr 1) + 64 * ci) 64 = e := by
    rw [hregs R.hiCmdBaseAddr 0 0 (by decide), hregs R.hiCmdBaseAddr 1 0 (by decide), hmem]
    have h := Mem.readBytes_writeBytes s.hostMem (s.slotAddr ci) e
    rwa [hlen] at h
  have hne : ci ≠ u.reg R.hiCmdPiIndex % 2 ^ l := by
    rw [hnew, Nat.mod_mod]
    exact (succ_mod_two_pow_ne h1 hlt).symm
  have hslot := State.fetch_slot (e := e) ((State.ringsUp_of_regsBut hregs (by decide) (by decide) (by decide)).trans hup)
    ((State.flag_of_regsBut hregs (by decide)).trans hq) (hl.trans (hregs _ _ _ (by decide)).symm)
    (hci.trans (hregs _ _ _ (by decide)).symm) hlt hne hread (by subst hc; exact hop) 4095
  have hhi : (s.slotPassed l ci e).hi = s.hi := rfl
  rw [← hpassed, State.admitCommand_ring hc hstream (by rwa [hhi])] at hslot
  obtain ⟨hpi', hci'⟩ := State.slotPassed_index h12 s ci e
  have hqueued := ((s.slotPassed l ci e).ringQueued_spec c).2.2.2.2.2.2
  rw [hslot, State.fetch_of_empty]
  rw [hqueued _ _ _ (by decide), hqueued _ _ _ (by decide), hpi', hci']

end
end Sys2Proof.Machine
end

section
/-! Readout rings, the PCIe link and the host's accesses to external memory (R424 to R427, R435, R436, R452, R453, R480). -/
namespace Sys2Proof.Machine

section
variable {s t u : State} {ks : List Nat} {c : Cell} {rest : List Cell} {d : List Byte} {k n l q off len : Nat} {x : Upset}

/-! ## One entry of a ring in host memory (R426, R427) -/

theorem State.ringWrite_hostMem (s : State) (n base wp log2 : Nat) (entry : List Byte) : (s.ringWrite n base wp log2 entry).hostMem =
    s.hostMem.writeBytes (base + entry.length * (wp % 2 ^ log2)) entry := by
  unfold State.ringWrite
  dsimp only
  split <;> rfl

theorem State.ringWrite_phases (s : State) (n base wp log2 : Nat) (entry : List Byte) : s.ringWrite n base wp log2 entry =
    { s with hostMem := (s.ringWrite n base wp log2 entry).hostMem,
             hi := { s.hi with phases := (s.ringWrite n base wp log2 entry).hi.phases } } := by
  unfold State.ringWrite
  dsimp only
  split <;> rfl

/-- The entry of a cell that is neither poisoned nor a marker. -/
theorem readoutEntry_of_good {d : Delivery} (h : d.tag = 0) (phase : Bool) : readoutEntry d phase =
    leBytes 8 d.data.toNat ++ [BitVec.ofNat 8 (4 * ofFlag d.eop)] ++ List.replicate 6 0 ++ [BitVec.ofNat 8 (128 * ofFlag phase)] := by
  simp [readoutEntry, h]

theorem readoutEntry_length (d : Delivery) (phase : Bool) : (readoutEntry d phase).length = 16 := by
  simp [readoutEntry, leBytes_length]

/-! ## READOUT_POP (R435, R436) -/

/-- Ring k writes the entry of a delivered cell at its WP. -/
def State.readoutWritten (s : State) (k : Nat) (d : Delivery) : State :=
  (s.ringWrite (2 + k) (hostBase (s.reg R.hiRdBaseAddr k 0) (s.reg R.hiRdBaseAddr k 1)) (s.reg R.hiRdWpIndex k) (s.reg R.hiRdCfgLog2 k)
    (readoutEntry d (s.phase (2 + k)))).setReg R.hiRdWpIndex ((s.reg R.hiRdWpIndex k + 1) % 2 ^ s.reg R.hiRdCfgLog2 k) k

theorem State.readoutWritten_spec (hl : s.reg R.hiRdCfgLog2 k ≤ 16) (d : Delivery) :
    (s.readoutWritten k d).hostMem = s.hostMem.writeBytes (hostBase (s.reg R.hiRdBaseAddr k 0) (s.reg R.hiRdBaseAddr k 1) +
      16 * (s.reg R.hiRdWpIndex k % 2 ^ s.reg R.hiRdCfgLog2 k)) (readoutEntry d (s.phase (2 + k))) ∧
    (s.readoutWritten k d).reg R.hiRdWpIndex k = (s.reg R.hiRdWpIndex k + 1) % 2 ^ s.reg R.hiRdCfgLog2 k ∧
    s.readoutWritten k d = { s with
      regs := (s.readoutWritten k d).regs, hi := { s.hi with phases := (s.readoutWritten k d).hi.phases },
      hostMem := (s.readoutWritten k d).hostMem } ∧
    s.regsBut (s.readoutWritten k d) [R.hiRdWpIndex.key k 0] := by
  have hlt : (s.reg R.hiRdWpIndex k + 1) % 2 ^ s.reg R.hiRdCfgLog2 k < 2 ^ 16 :=
    (Nat.mod_lt _ (Nat.two_pow_pos _)).trans_le (Nat.pow_le_pow_right (by decide) hl)
  have hframe := s.ringWrite_phases (2 + k) (hostBase (s.reg R.hiRdBaseAddr k 0) (s.reg R.hiRdBaseAddr k 1)) (s.reg R.hiRdWpIndex k)
    (s.reg R.hiRdCfgLog2 k) (readoutEntry d (s.phase (2 + k)))
  refine ⟨?_, (State.reg_setReg_self _ _ _ _ _).trans (Nat.mod_eq_of_lt hlt), ?_, ?_⟩
  · rw [← readoutEntry_length d (s.phase (2 + k))]
    exact State.ringWrite_hostMem _ _ _ _ _ _
  · rw [State.readoutWritten, hframe]
    rfl
  · exact ((s.regsBut_refl _).of_regs (by rw [hframe])).setReg (by simp)

/-- A ring that is not served, off, not installed or full pops nothing. -/
theorem exec_readoutPop_idle (h : s.ringsUp = false ∨ s.flag R.hiRdCfgEn k = false ∨ 16 ≤ k ∨
    ringFree (s.reg R.hiRdRpIndex k) (s.reg R.hiRdWpIndex k) (s.reg R.hiRdCfgLog2 k) = false) : exec (.readoutPop k x) s = .next s := by
  refine if_neg ?_
  rcases h with h | h | h | h <;> simp [h]

/-- A ring with room pops the head cell of its queue and writes its entry; behind an EOP cell its item ends. -/
theorem exec_readoutPop_good (hup : s.ringsUp = true) (hen : s.flag R.hiRdCfgEn k = true) (hk : k < 16)
    (hroom : ringFree (s.reg R.hiRdRpIndex k) (s.reg R.hiRdWpIndex k) (s.reg R.hiRdCfgLog2 k) = true) (hq : q = s.reg R.hiRdCfgQid k)
    (hallowed : s.popAllowed 0x70 q = true) (hsev : (s.queue q).severing = false) (hdis : (s.queue q).discard = false)
    (hc : (s.queue q).cells = c :: rest) (hm : c.marker = false) (hret : s.flag R.qmQCfgRetired q = false)
    (hp : parity 64 c.data.toNat = c.dp) (hu : u = (s.deliverHead q 0x70 false).readoutWritten k (c.delivery q 0x70)) :
    exec (.readoutPop k .none) s = .next (if c.eop = false then u else if q = 511 then u.vector 2 else
      (u.vector 2).endTaken 0x0F (cellItem c.data) (lossyCell c.data)) := by
  have hgone := State.headGone_pop (ep := 0x70) hc (by simp [hm]) hret
  have hkey {r : Row} (hr : 0x408001 ≤ r.off) (i j : Nat) : (s.deliverHead q 0x70 false).reg r i j = s.reg r i j :=
    hgone.regs r i j (by simpa using r.key_ne_xoff hr i j)
  have hgood : (s.deliverHead q 0x70 false).accept 0x0F (c.delivery q 0x70) = (.use, s.deliverHead q 0x70 false) :=
    State.accept_good ((c.delivery_tag q 0x70).trans (Cell.tag_of_good hm hp)) (hgone.discard.trans hdis)
  have hpop : s.popFor 0x0F 0x70 q false .none = (some (c.delivery q 0x70, .use), s.deliverHead q 0x70 false) := by
    rw [State.popFor_delivers hallowed (State.popWaits_of_head hsev hc (by simp)) hgone.delivered, hgood]
  have hstep : exec (.readoutPop k .none) s = execReadoutPop k .none s := rfl
  have hwritten := hu
  rw [State.readoutWritten, hkey (r := R.hiRdWpIndex) (by decide), hkey (r := R.hiRdCfgLog2) (by decide)] at hwritten
  rw [hstep]
  unfold execReadoutPop
  simp only [hup, hen, hk, hroom, ← hq, hpop, decide_true, Bool.and_self, if_true, ← hwritten]
  cases heop : c.eop <;> simp [Cell.delivery, heop]

/-- What the writing ring leaves of the popped queue, of host memory, of its WP and of everything else. -/
theorem State.readoutWritten_of_headGone {held : List HeldCell} {ep : Nat} (h : s.headGone q ep c rest held [R.eiXoffState.key 0 0] t)
    (hl : s.reg R.hiRdCfgLog2 k ≤ 16) (htag : c.tag = 0) (hu : u = t.readoutWritten k (c.delivery q ep)) :
    (u.queue q).cells = rest ∧ (∀ n, n ≠ q → u.queue n = s.queue n) ∧
    u.hostMem = s.hostMem.writeBytes (hostBase (s.reg R.hiRdBaseAddr k 0) (s.reg R.hiRdBaseAddr k 1) +
        16 * (s.reg R.hiRdWpIndex k % 2 ^ s.reg R.hiRdCfgLog2 k))
      (leBytes 8 c.data.toNat ++ [BitVec.ofNat 8 (4 * ofFlag c.eop)] ++ List.replicate 6 0 ++
        [BitVec.ofNat 8 (128 * ofFlag (s.phase (2 + k)))]) ∧
    u.reg R.hiRdWpIndex k = (s.reg R.hiRdWpIndex k + 1) % 2 ^ s.reg R.hiRdCfgLog2 k ∧
    u = { s with
      regs := u.regs, pal := u.pal, hi := { s.hi with phases := u.hi.phases }, hostMem := u.hostMem,
      pins := { s.pins with xoff := u.pins.xoff } } ∧
    s.regsBut u [R.eiXoffState.key 0 0, R.hiRdWpIndex.key k 0] := by
  have hkey {r : Row} (hr : 0x408001 ≤ r.off) (i j : Nat) : t.reg r i j = s.reg r i j :=
    h.regs r i j (by simpa using r.key_ne_xoff hr i j)
  have hlog := hkey (r := R.hiRdCfgLog2) (by decide) k 0
  have hwp := hkey (r := R.hiRdWpIndex) (by decide) k 0
  have hhost : t.hostMem = s.hostMem := by rw [h.frame]
  have hphase : t.phase (2 + k) = s.phase (2 + k) := by rw [State.phase, State.phase, h.frame]
  obtain ⟨hmem, hidx, hframe, hregs⟩ := State.readoutWritten_spec (hlog ▸ hl) (c.delivery q ep)
  rw [← hu] at hmem hidx hframe hregs
  have hqueue (n : Nat) : u.queue n = t.queue n := State.queue_congr (by rw [hframe]) n
  refine ⟨by rw [hqueue, h.cells], fun n hn => (hqueue n).trans (h.others n hn), ?_, by rw [hidx, hlog, hwp], ?_, fun r i j hr => ?_⟩
  · rw [hmem, hlog, hwp, hkey (r := R.hiRdBaseAddr) (by decide), hkey (r := R.hiRdBaseAddr) (by decide), hhost, hphase,
      readoutEntry_of_good ((c.delivery_tag q ep).trans htag)]
    rfl
  · rw [hframe, h.frame]
  · rw [List.mem_cons, not_or] at hr
    exact (hregs r i j hr.2).trans (h.regs r i j (by simpa using hr.1))

/-! ## The link and a failed access of the bus master (R452, R453) -/

theorem exec_ringsEn_false (hup : s.pcieUp = true) (hwait : s.hi.rspWait = []) :
    exec (.ringsEn false) s = .next (s.setFlag R.hiCtrlRingsEn false) := by
  have hdown : (s.setFlag R.hiCtrlRingsEn false).ringsUp = false := by
    simp [State.ringsUp, State.flag_setFlag s (r := R.hiCtrlRingsEn) false rfl]
  rw [exec_ringsEn_up hup, State.writeRings, State.flushResponses_of_nil (by exact hwait), State.fetchAll, State.fetch_of_down hdown]

theorem exec_ringsEn_true (hup : s.pcieUp = true) (hwait : s.hi.rspWait = []) :
    exec (.ringsEn true) s = .next (s.setFlag R.hiCtrlRingsEn true).fetchAll := by
  rw [exec_ringsEn_up hup, State.writeRings, State.flushResponses_of_nil (by exact hwait)]

/-- The bus master is off: the rings are disabled, and the responses that wait are lost. -/
def State.masterOff (s : State) : State :=
  (((s.setReg R.hiStatusDmaErr 1).setReg R.hiCtrlRingsEn 0).modHi fun h => { h with rspWait := [] }).bump R.hiCntCount 6 0
    s.hi.rspWait.length

theorem exec_dmaError_up (h : s.ringsUp = true) : exec .dmaError s = .next (s.masterOff.raise 0xFC0004 8 2 0x0F) :=
  congrArg Host.Outcome.next (if_pos h)

theorem State.masterOff_spec (s : State) : s.masterOff.reg R.hiStatusDmaErr = 1 ∧ s.masterOff.reg R.hiCtrlRingsEn = 0 ∧
    s.masterOff.reg R.hiCntCount 6 = (s.reg R.hiCntCount 6 + s.hi.rspWait.length) % 2 ^ 32 ∧
    s.masterOff = { s with regs := s.masterOff.regs, hi := { s.hi with rspWait := [] } } ∧
    s.regsBut s.masterOff [R.hiStatusDmaErr.key 0 0, R.hiCtrlRingsEn.key 0 0, R.hiCntCount.key 6 0] := by
  have hoff : s.regsBut ((s.setReg R.hiStatusDmaErr 1).setReg R.hiCtrlRingsEn 0)
      [R.hiStatusDmaErr.key 0 0, R.hiCtrlRingsEn.key 0 0] := ((s.regsBut_refl _).setReg (by simp)).setReg (by simp)
  have hregs (r : Row) (i j : Nat) : s.masterOff.reg r i j =
      (((s.setReg R.hiStatusDmaErr 1).setReg R.hiCtrlRingsEn 0).bump R.hiCntCount 6 0 s.hi.rspWait.length).reg r i j := rfl
  refine ⟨?_, ?_, ?_, rfl, fun r i j hk => ?_⟩
  · exact (hregs _ _ _).trans ((State.reg_setReg_ne _ _ _ _ _ _ _ _ (by decide)).trans
      ((State.reg_setReg_ne _ _ _ _ _ _ _ _ (by decide)).trans (State.reg_setReg_self _ _ _ _ _)))
  · exact (hregs _ _ _).trans ((State.reg_setReg_ne _ _ _ _ _ _ _ _ (by decide)).trans (State.reg_setReg_self _ _ _ _ _))
  · refine (hregs _ _ _).trans ((State.reg_setReg_self _ _ _ _ _).trans ?_)
    rw [hoff R.hiCntCount 6 0 (by decide)]
    rfl
  · exact (hregs r i j).trans
      ((((s.regsBut_refl _).setReg (by simp)).setReg (by simp) : s.regsBut _ _).setReg (r := R.hiCntCount) (by simp) r i j hk)

/-- The link as HI_STATUS shows it. -/
def State.linkSet (s : State) (up gen width : Nat) : State :=
  ((s.setReg R.hiStatusLinkUp up).setReg R.hiStatusGen gen).setReg R.hiStatusWidth width

theorem State.linkSet_spec {up gen width : Nat} (hup : up < 2) (hgen : gen < 4) (hwidth : width < 4) :
    (s.linkSet up gen width).pcieUp = (s.domOn 1 && decide (up = 1)) ∧ (s.linkSet up gen width).reg R.hiStatusGen = gen ∧
    (s.linkSet up gen width).reg R.hiStatusWidth = width ∧
    s.onlyRegs (s.linkSet up gen width) [R.hiStatusLinkUp.key 0 0, R.hiStatusGen.key 0 0, R.hiStatusWidth.key 0 0] := by
  have hregs : s.regsBut (s.linkSet up gen width) [R.hiStatusLinkUp.key 0 0, R.hiStatusGen.key 0 0, R.hiStatusWidth.key 0 0] :=
    (((s.regsBut_refl _).setReg (by simp)).setReg (by simp)).setReg (by simp)
  have hlink : (s.linkSet up gen width).reg R.hiStatusLinkUp = up :=
    (State.reg_setReg_ne _ _ _ _ _ _ _ _ (by decide)).trans ((State.reg_setReg_ne _ _ _ _ _ _ _ _ (by decide)).trans
      ((State.reg_setReg_self _ _ _ _ _).trans (Nat.mod_eq_of_lt hup)))
  refine ⟨?_, (State.reg_setReg_ne _ _ _ _ _ _ _ _ (by decide)).trans ((State.reg_setReg_self _ _ _ _ _).trans (Nat.mod_eq_of_lt hgen)),
    (State.reg_setReg_self _ _ _ _ _).trans (Nat.mod_eq_of_lt hwidth), rfl, hregs⟩
  simp only [State.pcieUp, State.domOn, State.flag, hlink, hregs R.pwDomStateOn 0 0 (by decide)]

theorem exec_pcieLinkDown (s : State) : exec .pcieLinkDown s = .next (s.linkSet 0 0 0) := rfl

theorem exec_pcieLinkUp_idle {gen width : BitVec 2}
    (h : s.domOn 1 = false ∨ s.pins.perstN = false ∨ gen = 0 ∨ width = 0 ∨ width = 3) : exec (.pcieLinkUp gen width) s = .next s := by
  refine congrArg Host.Outcome.next (if_neg ?_)
  rcases h with h | h | rfl | rfl | rfl <;> simp_all

theorem exec_pcieLinkUp_up {gen width : BitVec 2} (hdom : s.domOn 1 = true) (hperst : s.pins.perstN = true) (hgen : gen ≠ 0)
    (hwidth : width = 1 ∨ width = 2) : exec (.pcieLinkUp gen width) s =
      .next (((s.linkSet 1 gen.toNat width.toNat).flushResponses s.hi.rspWait.length).fetchAll) := by
  have hgen' : 1 ≤ gen.toNat := Nat.one_le_iff_ne_zero.mpr fun h => hgen (BitVec.eq_of_toNat_eq h)
  have hwidth' : 1 ≤ width.toNat ∧ width.toNat ≤ 2 := by rcases hwidth with rfl | rfl <;> decide
  refine congrArg Host.Outcome.next (if_pos ?_)
  simp [hdom, hperst, hgen', hwidth']

/-! ## BAR2 (R92, R132, R154, R425, R480, R484) -/

theorem exec_bar2Access_down {w : Option (List Byte)} (h : s.pcieUp = false) : exec (.bar2Access off len w) s = .next s :=
  if_pos (by simp [h])

/-- An access through BAR2 of n bytes at `off` is an Unsupported Request. -/
def State.bar2Refuses (s : State) (off n : Nat) : Bool :=
  !(s.domOn 6) || !(s.extOk (s.reg R.hiBar2Base * 0x10000000 + off) n) || decide (0x10000000 < off + n)

theorem State.bar2Refuses_iff : s.bar2Refuses off n = true ↔
    s.domOn 6 = false ∨ s.extOk (s.reg R.hiBar2Base * 0x10000000 + off) n = false ∨ 0x10000000 < off + n := by
  simp [State.bar2Refuses, or_assoc]

theorem State.bar2Refuses_of_served (hdom : s.domOn 6 = true) (hext : s.extOk (s.reg R.hiBar2Base * 0x10000000 + off) n = true)
    (hin : off + n ≤ 0x10000000) : s.bar2Refuses off n = false := by
  simp [State.bar2Refuses, hdom, hext, hin]

theorem exec_bar2Access_refused {w : Option (List Byte)} (hup : s.pcieUp = true)
    (h : s.bar2Refuses off (match w with | some d => d.length | none => len) = true) :
    exec (.bar2Access off len w) s = .next { s with hi := { s.hi with busUr := true, busOut := [] } } :=
  (if_neg (by simp [hup])).trans (congrArg Host.Outcome.next (if_pos h))

theorem exec_bar2Access_read (hup : s.pcieUp = true) (h : s.bar2Refuses off len = false) : exec (.bar2Access off len none) s =
    .next { s with hi := { s.hi with
      busUr := false, busOut := s.ext.readBytes (s.reg R.hiBar2Base * 0x10000000 + off) len } } :=
  (if_neg (by simp [hup])).trans (congrArg Host.Outcome.next (if_neg (ne_true_of_eq_false h)))

/-- An access through BAR2 that is no Unsupported Request and reads nothing. -/
def State.busQuiet (s : State) : State := { s with hi := { s.hi with busUr := false, busOut := [] } }

theorem exec_bar2Access_write (hup : s.pcieUp = true) (h : s.bar2Refuses off d.length = false) : exec (.bar2Access off len (some d)) s =
    .next (s.busQuiet.hostStore (s.reg R.hiBar2Base * 0x10000000 + off) d) :=
  (if_neg (by simp [hup])).trans (congrArg Host.Outcome.next (if_neg (ne_true_of_eq_false h)))

/-- The boot image is closed to the host. -/
theorem State.hostStore_boot {a : Nat} (ha : a < 0x4000000) (h : s.bootIface .pcie = false ∨ s.keeper.mode = .booting) :
    s.hostStore a d = s := by
  refine if_pos ?_
  rcases h with h | h <;> simp [ha, h]

/-- Elsewhere the INIT buffer and the plan images are kept, and anything else is written. -/
theorem State.hostStore_open {a : Nat} (h : 0x4000000 ≤ a ∨ (s.bootIface .pcie = true ∧ s.keeper.mode ≠ .booting)) :
    s.hostStore a d = if s.hitsInit a d.length then s.bump R.cvInitBlockedCount
      else if s.hitsPlan a d.length then s.bump R.ppImageBlockedCount else s.modExt fun m => m.writeBytes a d := by
  refine if_neg ?_
  rcases h with h | ⟨hif, hmode⟩
  · simp [Nat.not_lt.mpr h]
  · simp [hif, hmode]

end

/-- Settles O55: each event by its own step, the doorbell through the entry that it fetches and the readout through the popped cell. -/
theorem ringsReadoutsAndLink : Obligations.RingsReadoutsAndLink := by
  refine ⟨fun pi slots on s hdown => ⟨exec_cmdDoorbell_down hdown, exec_ringsEn_down hdown,
      exec_dmaError_down (State.ringsUp_of_pcieDown hdown)⟩,
    fun c e l ci s hup hq hl h1 h12 hci hpi hlt hlen hc hop hstream hfresh => ?_, fun s hup hwait => ⟨?_, ?_⟩,
    fun k u s h => exec_readoutPop_idle h,
    fun k w l q c rest s hup hen hk hw hl hl16 hq hroom hallowed hsev hdis hc hm hret hp => ?_,
    fun s => ⟨exec_dmaError_down, fun hup => ?_⟩, fun s => ?_, fun g w s => ⟨exec_pcieLinkUp_idle, fun hdom hperst hg hw => ?_⟩,
    fun off len w s => exec_bar2Access_down, fun off len n w s hup hn h => ?_, fun off len a s hup hdom ha hin hext => ?_,
    fun off len a d s hup hdom ha hin hext => ?_⟩
  case refine_1 =>
    obtain ⟨hhi, hhigh, hvalid, hcnt, hlg, hframe, hregs⟩ := (s.slotPassed l ci e).ringQueued_spec c
    obtain ⟨hPi, hCi⟩ := State.slotPassed_index h12 s ci e
    have hslot := s.slotPassed_regsBut l ci e
    refine ⟨_, exec_cmdDoorbell_fetches hup hq hl h1 h12 hci hpi hlt hlen hc hop hstream hfresh, hhi,
      (hregs _ _ _ (by decide)).trans hPi, (hregs _ _ _ (by decide)).trans hCi, hhigh, hvalid, ?_, ?_, hlg, ?_, fun r i j hk => ?_⟩
    · rw [hcnt, hslot R.hiCntCount 0 0 (by decide)]
    · rw [hframe]
      rfl
    · conv_lhs => rw [hframe]
      rfl
    · simp only [List.mem_cons, List.not_mem_nil, or_false, not_or] at hk
      obtain ⟨hkPi, hkCi, hkHigh, hkValid, hkCnt⟩ := hk
      exact (hregs r i j (by simp [hkHigh, hkValid, hkCnt])).trans (hslot r i j (by simp [hkPi, hkCi]))
  case refine_2 => exact ⟨_, exec_ringsEn_false hup hwait, State.reg_setReg_self _ _ _ _ _, State.onlyRegs_setReg (by simp)⟩
  case refine_3 =>
    exact ⟨_, _, exec_ringsEn_true hup hwait, State.reg_setReg_self _ _ _ _ _, State.onlyRegs_setReg (by simp), rfl⟩
  case refine_4 =>
    subst hw hl
    obtain ⟨hcells, hothers, hhost, hwp, hframe, hregs⟩ := State.readoutWritten_of_headGone
      (State.headGone_pop (ep := 0x70) hc (by simp [hm]) hret) hl16 (Cell.tag_of_good hm hp) rfl
    exact ⟨_, _, exec_readoutPop_good hup hen hk hroom hq hallowed hsev hdis hc hm hret hp rfl, hcells, hothers, hhost, hwp, hframe,
      hregs, rfl⟩
  case refine_5 =>
    obtain ⟨herr, hen, hcnt, hframe, hregs⟩ := s.masterOff_spec
    exact ⟨_, _, exec_dmaError_up hup, herr, hen, hcnt, hframe, hregs, rfl⟩
  case refine_6 =>
    obtain ⟨hup, hgen, hwidth, honly⟩ := s.linkSet_spec (up := 0) (gen := 0) (width := 0) (by decide) (by decide) (by decide)
    exact ⟨_, exec_pcieLinkDown s, by simpa using hup, hgen, hwidth, honly⟩
  case refine_7 =>
    obtain ⟨hup, hgen, hwidth, honly⟩ := s.linkSet_spec (up := 1) (by decide) g.isLt w.isLt
    exact ⟨_, _, exec_pcieLinkUp_up hdom hperst hg hw, by simpa [hdom] using hup, hgen, hwidth, honly, rfl⟩
  case refine_8 =>
    subst hn
    exact exec_bar2Access_refused hup (State.bar2Refuses_iff.mpr h)
  case refine_9 =>
    subst ha
    exact exec_bar2Access_read hup (State.bar2Refuses_of_served hdom hext hin)
  case refine_10 =>
    subst ha
    refine ⟨_, s.busQuiet, exec_bar2Access_write hup (State.bar2Refuses_of_served hdom hext hin), rfl,
      fun ha h => State.hostStore_boot ha h, fun hopen hinit => ?_, fun hopen hinit hplan => ?_, fun hopen hinit hplan => ?_⟩
    · exact (State.hostStore_open (s := s.busQuiet) hopen).trans (if_pos hinit)
    · exact (State.hostStore_open (s := s.busQuiet) hopen).trans ((if_neg (ne_true_of_eq_false hinit)).trans (if_pos hplan))
    · exact (State.hostStore_open (s := s.busQuiet) hopen).trans
        ((if_neg (ne_true_of_eq_false hinit)).trans (if_neg (ne_true_of_eq_false hplan)))

end Sys2Proof.Machine
end

section
/-! PACED_STEP_CLOSE: the close of a step moves the open step of its tile on by one (R261, R262, R264). -/
namespace Sys2Proof.Machine

section
variable {s t u : State}

theorem State.onlyPushed.sf (h : s.onlyPushed t) : t.sf = s.sf := by
  rw [State.onlyPushed] at h
  rw [h]

theorem State.onlyFaulted.sf (h : s.onlyFaulted t) : t.sf = s.sf := by
  rw [State.onlyFaulted] at h
  rw [h]

/-! ## Records (R462) -/

theorem State.onlyPushed.countRecord (h : s.onlyPushed t) {reason : Nat} {c0 c1 : Cell64} :
    s.onlyPushed (t.countRecord reason c0 c1) := by
  unfold State.countRecord
  extract_lets v w
  have hv : s.onlyPushed v := (h.bump : s.onlyPushed (t.bump R.lgCntCount 0)).setReg.setReg.setReg.setReg.setReg.setReg
  have hw : s.onlyPushed w := hv.bump.ite hv
  exact hw.bump.ite hw

theorem State.onlyPushed.pushCells (h : s.onlyPushed t) {c0 c1 : Cell64} : s.onlyPushed (t.pushCells c0 c1) :=
  State.onlyPushed.ite (h.push.push.ite h.push.push.bump) h.push.bump

theorem State.onlyPushed.showRecord (h : s.onlyPushed t) {n : Nat} {c0 c1 : Cell64} : s.onlyPushed (t.showRecord n c0 c1) := by
  unfold State.showRecord
  extract_lets v
  have hv : s.onlyPushed v := h.modHi.ite h
  exact hv.vector.ite hv

theorem State.onlyPushed.inform (h : s.onlyPushed t) {item : ItemId} {a b c : Nat} : s.onlyPushed (t.inform item a b c) := by
  unfold State.inform
  rw [State.pushRecord_eq]
  exact h.countRecord.pushCells.showRecord

end

/-! ## The open steps stay while neurons close and records are pushed -/

theorem State.steps_spikeParity (s : State) (p t : Nat) : (s.spikeParity p t).sf.steps = s.sf.steps := by
  unfold State.spikeParity
  dsimp only
  rw [(State.onlyFaulted_raise _ _ _ _ _).sf]
  rfl

theorem State.steps_countSpike (s : State) (p us i : Nat) : (s.countSpike p us i).sf.steps = s.sf.steps := by
  unfold State.countSpike
  split <;> rfl

theorem State.steps_emitSpike (s : State) (p t us i : Nat) (pol : Bool) (v : Int) :
    (s.emitSpike p t us i pol v).sf.steps = s.sf.steps := by
  unfold State.emitSpike
  extract_lets item u
  have hu : u.sf.steps = s.sf.steps := by
    unfold u
    split
    · rfl
    · exact State.steps_countSpike _ _ _ _
  split
  · exact hu
  · exact hu

theorem State.steps_testSpike (s : State) (p t us i : Nat) (pol : Bool) (n : Neuron) :
    (s.testSpike p t us i pol n).2.sf.steps = s.sf.steps := by
  unfold State.testSpike
  dsimp only
  split
  · exact s.steps_emitSpike _ _ _ _ _ _
  · rfl

theorem State.steps_closeNeuron (s : State) (p t i addr til : Nat) (fail : Bool) :
    (s.closeNeuron p t i addr til fail).sf.steps = s.sf.steps := by
  unfold State.closeNeuron
  split
  · exact State.steps_spikeParity _ _ _
  · extract_lets step n r m
    have hr : r.2.sf.steps = s.sf.steps := by
      unfold r
      split
      · exact s.steps_testSpike _ _ _ _ _ _
      · rfl
    exact hr

theorem State.steps_inform (s : State) (item : ItemId) (a b c : Nat) : (s.inform item a b c).sf.steps = s.sf.steps :=
  congrArg Spiking.steps s.onlyPushed_refl.inform.sf

theorem State.steps_endStretch (s : State) (p : Nat) : (s.endStretch p).sf.steps = s.sf.steps := by
  unfold State.endStretch
  split
  · rfl
  · exact s.steps_inform _ _ _ _

theorem State.steps_stepClosed (s : State) (p k : Nat) : (s.stepClosed p k).sf.steps = s.sf.steps := by
  unfold State.stepClosed
  extract_lets step above q u late v
  split
  · rfl
  · exact v.steps_endStretch p

/-! ## The command -/

theorem State.openStep_congr {s u : State} (h : u.sf.steps = s.sf.steps) (p t : Nat) : u.openStep p t = s.openStep p t := by
  unfold State.openStep
  rw [h]

/-- The tile's next step opens. -/
theorem State.openStep_closeStep (s : State) (p t : Nat) (hard : Bool) (fails : List Nat) :
    (s.closeStep p t hard fails).openStep p t = s.openStep p t + 1 := by
  unfold State.closeStep
  extract_lets k til r u v
  have hu : u.openStep p t = k + 1 := by
    show (alGet (alPut r.2.sf.steps (p, t) (k + 1)) (p, t)).getD 0 = k + 1
    rw [alGet_alPut_self]
    rfl
  have hv : v.openStep p t = k + 1 := by
    unfold v
    split
    · exact hu
    · exact hu
  split
  · exact (State.openStep_congr (v.steps_stepClosed p k) p t).trans hv
  · exact hv

section
variable {s : State} {p t : Nat} {fails : List Nat}

/-- The step's nominal close has come, and no input waits or the hard close has come too. -/
theorem exec_pacedStepClose_closes (hrole : s.role t = 1) (hon : s.domOn (10 + s.quadOf t) = true) (hpaced : s.paced p = true)
    (hholds : s.holdsPop t p = true) (hnominal : s.nominalClose p t = true) (hready : s.inputPending p t = false ∨ s.hardClose p t = true) :
    exec (.pacedStepClose p t fails) s = .next ((s.wakeTile t).closeStep p t (s.inputPending p t) fails) := by
  show execPacedStepClose p t fails s = _
  rcases hready with h | h <;> simp [execPacedStepClose, hrole, hon, hpaced, hholds, hnominal, h]

theorem exec_pacedStepClose_idle (h : s.role t ≠ 1 ∨ s.paced p = false ∨ s.nominalClose p t = false ∨
    (s.inputPending p t = true ∧ s.hardClose p t = false)) : exec (.pacedStepClose p t fails) s = .next s := by
  show execPacedStepClose p t fails s = _
  rcases h with h | h | h | ⟨hpending, hhard⟩
  · simp [execPacedStepClose, h]
  · simp [execPacedStepClose, h]
  · simp [execPacedStepClose, h]
  · simp [execPacedStepClose, hpending, hhard]

/-- The close at a tile that wakes: the next step opens, and neither DEVTIME nor external memory changes. -/
theorem State.closeStep_wakeTile (s : State) (p t : Nat) (hard : Bool) (fails : List Nat) :
    ((s.wakeTile t).closeStep p t hard fails).openStep p t = s.openStep p t + 1 ∧
    ((s.wakeTile t).closeStep p t hard fails).devtime = s.devtime ∧ ((s.wakeTile t).closeStep p t hard fails).ext = s.ext := by
  obtain ⟨-, hframe, -⟩ := s.wakeTile_spec t
  have hkept := (s.wakeTile t).hangKept_refl.closeStep (p := p) (n := t) (hard := hard) (fails := fails)
  refine ⟨(State.openStep_closeStep _ _ _ _ _).trans ?_, hkept.devtime.trans ?_, hkept.ext.trans ?_⟩
  · rw [State.openStep_congr (s := s) (by rw [hframe]) p t]
  · rw [hframe]
  · rw [hframe]

end
end Sys2Proof.Machine
end

section
/-! NEURON_SWEEP and RESET: the records of a tile's neurons lie apart, each in a block of 16 bytes of its own (R255, R256, R260, R270). -/
namespace Sys2Proof.Machine

section
variable {s u : State} {t p a b : Nat} {n : Neuron} {e : Nat × Nat}

/-! ## Records in a memory (R255) -/

/-- The neuron whose record begins at an address of a memory. -/
def Mem.neuron (m : Mem) (b : Nat) : Neuron :=
  { v := toSigned 16 (m.readNat b 2), a := m.readNat (b + 2) 2, last := m.readNat (b + 4) 4, left := m.readNat (b + 8) 2 }

theorem Mem.neuron_writeBytes_self (m : Mem) (b : Nat) (hn : n.fits) : (m.writeBytes b n.bytes).neuron b = n := by
  obtain ⟨hv, ha, hlast, hleft⟩ := hn.readNat m b
  rw [Mem.neuron, hv, ha, hlast, hleft, toSigned_ofSigned (by decide) hn.v.1 hn.v.2]

theorem Mem.readNat_writeBytes_out (m : Mem) {b c k : Nat} {l : List Byte} (h : c + k ≤ b ∨ b + l.length ≤ c) :
    (m.writeBytes b l).readNat c k = m.readNat c k := by
  unfold Mem.readNat Mem.readBytes
  refine congrArg leNat (List.map_congr_left fun i hi => m.read_writeBytes_out _ _ _ ?_)
  have := List.mem_range.mp hi
  omega

theorem Mem.neuron_writeBytes_out (m : Mem) {b c : Nat} (h : c + 16 ≤ b ∨ b + 16 ≤ c) :
    (m.writeBytes b n.bytes).neuron c = m.neuron c := by
  have hlen := n.bytes_length
  simp only [Mem.neuron]
  rw [m.readNat_writeBytes_out (by omega), m.readNat_writeBytes_out (by omega), m.readNat_writeBytes_out (by omega),
    m.readNat_writeBytes_out (by omega)]

/-! ## Records of a tile -/

/-- A record in a block of 16 bytes lies in its tile's memory. -/
theorem record_in_tile (h : 16 ∣ a) : a % 2 ^ 20 + 16 ≤ 2 ^ 20 := by omega

theorem outside_record {x : Nat} (h : 16 ∣ a) (hx : x < t * 2 ^ 20 ∨ (t + 1) * 2 ^ 20 ≤ x) :
    x < tileAddr t a ∨ tileAddr t a + 16 ≤ x :=
  hx.imp (fun hlt => hlt.trans_le (Nat.le_add_right _ _)) fun hge => by
    have hin := record_in_tile h
    unfold tileAddr
    omega

theorem State.neuronAt_eq (h : 16 ∣ a) (s : State) (t : Nat) : s.neuronAt t a = s.tmem.neuron (tileAddr t a) := by
  have hin := record_in_tile h
  simp only [State.neuronAt, State.tileNat, Mem.neuron, tileAddr_add hin (by decide : 2 < 16), tileAddr_add hin (by decide : 4 < 16),
    tileAddr_add hin (by decide : 8 < 16)]

/-- Where a neuron reads n, it does so after n has been written to any neuron of any tile. -/
theorem State.neuronAt_putNeuron_of_eq (ha : 16 ∣ a) (hb : 16 ∣ b) (hn : n.fits) (h : s.neuronAt t a = n) (tl : Nat) :
    (s.putNeuron tl b n).neuronAt t a = n := by
  rw [State.neuronAt_eq ha] at h ⊢
  rw [State.putNeuron_eq, State.modTmem_tmem]
  by_cases he : tileAddr tl b = tileAddr t a
  · rw [he]
    exact Mem.neuron_writeBytes_self _ _ hn
  · have hapart : tileAddr t a + 16 ≤ tileAddr tl b ∨ tileAddr tl b + 16 ≤ tileAddr t a := by
      unfold tileAddr at he ⊢
      omega
    rw [Mem.neuron_writeBytes_out _ hapart, h]

/-- Partitions begin at multiples of 4 KiB, so the records of a tile's neurons lie in blocks of 16 bytes (R126, R255). -/
theorem State.neuronAddr_aligned {l : Nat} (h : s.neuronAddr t l = some a) : 16 ∣ a := by
  unfold State.neuronAddr State.partOf at h
  cases hpart : s.cv.active.bind fun c => (c.part t (s.reg R.sfTPartsState t)).map fun m => (4096 * m.base, 4096 * m.size) with
  | none => simp [hpart] at h
  | some x =>
    obtain ⟨c, -, hc⟩ := Option.bind_eq_some_iff.mp hpart
    obtain ⟨m, -, rfl⟩ := Option.map_eq_some_iff.mp hc
    simp only [hpart, Option.ite_none_right_eq_some, Option.some.injEq] at h
    omega

theorem State.aligned_of_mem_popNeurons (h : e ∈ s.popNeurons t p) : 16 ∣ e.2 := by
  simp only [State.popNeurons, List.mem_flatMap, List.mem_filterMap, Option.map_eq_some_iff] at h
  obtain ⟨g, -, j, -, a, ha, rfl⟩ := h
  exact State.neuronAddr_aligned ha

/-! ## The sweep (R260) -/

/-- The states differ in the tiles' memories alone. -/
def State.onlyTmem (s u : State) : Prop := u = { s with tmem := u.tmem }

theorem State.onlyTmem_refl (s : State) : s.onlyTmem s := rfl

theorem State.onlyTmem.putNeuron (h : s.onlyTmem u) : s.onlyTmem (u.putNeuron t a n) := by
  unfold State.onlyTmem at *
  conv_lhs => rw [h]
  rfl

/-- The states differ in the memory of tile t alone. -/
structure State.onlyTile (s : State) (t : Nat) (u : State) : Prop where
  frame : s.onlyTmem u
  out : ∀ x, x < t * 2 ^ 20 ∨ (t + 1) * 2 ^ 20 ≤ x → u.tmem.read x = s.tmem.read x

theorem State.onlyTile_refl (s : State) (t : Nat) : s.onlyTile t s := ⟨rfl, fun _ _ => rfl⟩

theorem State.onlyTile.putNeuron (h : s.onlyTile t u) (ha : 16 ∣ a) : s.onlyTile t (u.putNeuron t a n) where
  frame := h.frame.putNeuron
  out x hx := (u.putNeuron_out n (outside_record ha hx)).trans (h.out x hx)

/-- A neuron of population p is brought up to now where it is old. -/
def State.sweepNeuron (t p : Nat) (s : State) (e : Nat × Nat) : State :=
  if s.neuronOld t e.2 then s.putNeuron t e.2 (s.advance t p s.us (s.neuronAt t e.2)).1 else s

/-- The neurons of population p in tile t are swept one after another. -/
def State.sweepPop (t : Nat) (s : State) (p : Nat) : State := (s.popNeurons t p).foldl (State.sweepNeuron t p) s

theorem exec_neuronSweep_on (hrole : s.role t = 1) (hon : s.domOn (10 + s.quadOf t) = true) :
    exec (.neuronSweep t) s = .next ((s.tilePops t).foldl (State.sweepPop t) s) := by
  show execNeuronSweep t s = _
  simp only [execNeuronSweep, hrole, hon, decide_true, Bool.and_self, if_true]
  rfl

theorem State.onlyTile.sweepNeuron (h : s.onlyTile t u) (ha : 16 ∣ e.2) : s.onlyTile t (u.sweepNeuron t p e) := by
  unfold State.sweepNeuron
  split
  · exact h.putNeuron ha
  · exact h

theorem State.onlyTile.sweepPop (h : s.onlyTile t u) : s.onlyTile t (u.sweepPop t p) :=
  List.foldlRecOn _ _ h fun _ hx _ he => hx.sweepNeuron (State.aligned_of_mem_popNeurons he)

theorem State.onlyTile_sweep (s : State) (t : Nat) : s.onlyTile t ((s.tilePops t).foldl (State.sweepPop t) s) :=
  foldlKeeps (P := s.onlyTile t) (fun _ _ hx => hx.sweepPop) _ (s.onlyTile_refl t)

/-- Steps 1 and 2 of R259 leave a record that fits. -/
theorem State.advance_fits (s : State) (t p us : Nat) (hn : n.fits) : (s.advance t p us n).1.fits := by
  have hlast : us % 2 ^ 32 < 2 ^ 32 := Nat.mod_lt _ (by decide)
  have hdecay := hn.decayNeuron s t p (elapsed us n.last).1
  refine ⟨hdecay.v, hdecay.a, ?_, Nat.lt_of_le_of_lt (Nat.sub_le _ _) hn.left⟩
  show (if (elapsed us n.last).2 then n.last else us % 2 ^ 32) < 2 ^ 32
  split
  · exact hn.last
  · exact hlast

theorem State.neuronAt_sweepNeuron (ha : 16 ∣ e.2) (hold : s.neuronOld t e.2 = true) :
    (s.sweepNeuron t p e).neuronAt t e.2 = (s.advance t p s.us (s.neuronAt t e.2)).1 := by
  rw [State.sweepNeuron, if_pos hold]
  exact State.neuronAt_putNeuron (record_in_tile ha) (s.advance_fits t p s.us (s.neuronAt_fits t e.2))

/-- The one neuron of a tile with one population is brought up to now. -/
theorem State.neuronAt_sweep {i : Nat} (hpops : s.tilePops t = [p]) (hneurons : s.popNeurons t p = [(i, a)])
    (hold : s.neuronOld t a = true) : ((s.tilePops t).foldl (State.sweepPop t) s).neuronAt t a =
      (s.advance t p s.us (s.neuronAt t a)).1 := by
  have ha : 16 ∣ a := State.aligned_of_mem_popNeurons (e := (i, a)) (by rw [hneurons]; simp)
  rw [hpops, List.foldl_cons, List.foldl_nil, State.sweepPop, hneurons, List.foldl_cons, List.foldl_nil]
  exact State.neuronAt_sweepNeuron (e := (i, a)) ha hold

/-! ## RESET (R270) -/

/-- n is written to every neuron of population p in tile t. -/
def State.fillPop (p : Nat) (n : Neuron) (s : State) (t : Nat) : State :=
  (s.popNeurons t p).foldl (fun (s : State) e => s.putNeuron t e.2 n) s

theorem exec_resetPop_clears {k : Nat} {o : SlotOp} (hop : s.spikeOp k 1 = some (o, p)) : exec (.resetPop k) s =
    .next (((s.spikeTiles p).foldl (State.fillPop p { last := s.us % 2 ^ 32 }) s).finishOp k) := by
  show execResetPop k s = _
  simp only [execResetPop, hop]
  rfl

theorem Neuron.cleared_fits (us : Nat) : ({ last := us % 2 ^ 32 } : Neuron).fits where
  v := (by decide : -(2 ^ 15 : Nat) ≤ (0 : Int) ∧ (0 : Int) < (2 ^ 15 : Nat))
  a := Nat.two_pow_pos 16
  last := Nat.mod_lt _ (Nat.two_pow_pos 32)
  left := Nat.two_pow_pos 16

theorem State.onlyTmem.fillPop (h : s.onlyTmem u) : s.onlyTmem (u.fillPop p n t) :=
  foldlKeeps (P := s.onlyTmem) (fun _ _ hx => hx.putNeuron) _ h

theorem State.onlyTmem_fillPops (s : State) (p : Nat) (n : Neuron) (l : List Nat) : s.onlyTmem (l.foldl (State.fillPop p n) s) :=
  foldlKeeps (P := s.onlyTmem) (fun _ _ hx => hx.fillPop) _ s.onlyTmem_refl

theorem State.onlyTmem.popNeurons (h : s.onlyTmem u) (t p : Nat) : u.popNeurons t p = s.popNeurons t p := by
  rw [h]
  rfl

section
variable (hn : n.fits)
include hn

/-- A neuron that reads n does so after any population has been filled with n. -/
theorem State.neuronAt_fillPop_of_eq (ha : 16 ∣ a) (h : s.neuronAt t a = n) (tl : Nat) : (s.fillPop p n tl).neuronAt t a = n :=
  List.foldlRecOn (motive := fun x : State => x.neuronAt t a = n) _ _ h fun _ hx _ he =>
    State.neuronAt_putNeuron_of_eq ha (State.aligned_of_mem_popNeurons he) hn hx tl

/-- Every neuron of a list of records has been written at its end. -/
theorem State.neuronAt_putAll {l : List (Nat × Nat)} (hl : ∀ e ∈ l, 16 ∣ e.2) (he : e ∈ l) (s : State) :
    (l.foldl (fun (s : State) e => s.putNeuron t e.2 n) s).neuronAt t e.2 = n := by
  induction l generalizing s with
  | nil => simp at he
  | cons x l ih =>
    have hl' : ∀ y ∈ l, 16 ∣ y.2 := fun y hy => hl y (List.mem_cons_of_mem x hy)
    rcases List.mem_cons.mp he with rfl | he
    · have ha : 16 ∣ e.2 := hl e List.mem_cons_self
      exact List.foldlRecOn (motive := fun y : State => y.neuronAt t e.2 = n) l _
        (State.neuronAt_putNeuron (record_in_tile ha) hn) fun _ hx b hb => State.neuronAt_putNeuron_of_eq ha (hl' b hb) hn hx t
    · exact ih hl' he _

theorem State.neuronAt_fillPop (he : e ∈ s.popNeurons t p) : (s.fillPop p n t).neuronAt t e.2 = n :=
  State.neuronAt_putAll hn (fun _ => State.aligned_of_mem_popNeurons) he s

theorem State.neuronAt_fillPops {l : List Nat} (ht : t ∈ l) (he : e ∈ s.popNeurons t p) :
    (l.foldl (State.fillPop p n) s).neuronAt t e.2 = n := by
  induction l generalizing s with
  | nil => simp at ht
  | cons x l ih =>
    have hsame : (s.fillPop p n x).popNeurons t p = s.popNeurons t p :=
      s.onlyTmem_refl.fillPop.popNeurons t p
    rcases List.mem_cons.mp ht with rfl | ht
    · exact List.foldlRecOn (motive := fun y : State => y.neuronAt t e.2 = n) l _ (State.neuronAt_fillPop hn he)
        fun _ hx b _ => State.neuronAt_fillPop_of_eq hn (State.aligned_of_mem_popNeurons he) hx b
    · exact ih ht (hsame ▸ he)

end
end
end Sys2Proof.Machine
end

section
/-! CUT, its end, count windows and sleep (R270, R273, R274, R277). -/
namespace Sys2Proof.Machine

section
variable {s t u : State} {k p tl : Nat} {o : SlotOp}

/-! ## CUT (R270) -/

/-- The cut marker that tile t sends toward the tile that exports population p (R268, R270). -/
def State.cutMarker (s : State) (p t : Nat) : Packet :=
  { item := s.popItem p, key := 2 ^ 31 + p * 2 ^ 24 + 0xFFFFFF, vc := 1, epoch := s.reg R.cvStatusEpoch, dest := 0, tile := t,
    cells := [], origin := t, since := s.devtime }

/-- The cut marker of a tile enters the mesh. -/
def State.sendMarker (p : Nat) (s : State) (t : Nat) : State := s.modMesh fun m => { m with packets := m.packets ++ [s.cutMarker p t] }

/-- The operation has begun, and the population awaits a marker from every tile. -/
def State.cutBegun (s : State) (k p : Nat) (item : ItemId) : State :=
  (s.modOp k fun x => { x with begun := true }).modPop p fun x => { x with cut := some (item, s.spikeTiles p) }

theorem State.spikeOp_eq_some {kind : Nat} (h : s.spikeOp k kind = some (o, p)) : s.opAt k 1 = some o := by
  unfold State.spikeOp at h
  split at h
  · next x hx =>
    rw [Option.ite_none_right_eq_some] at h
    obtain ⟨-, he⟩ := h
    rw [hx, (Prod.mk.inj (Option.some.inj he)).1]
  · exact absurd h (by simp)

theorem State.spikeOp_of_begun {kind : Nat} (h : s.opAt k 1 = some o) (hbegun : o.begun = true) : s.spikeOp k kind = none := by
  simp [State.spikeOp, h, hbegun]

theorem exec_cut_sends (hop : s.spikeOp k 0 = some (o, p)) (hcut : (s.pop p).cut = none) : exec (.cut k) s =
    .next (((s.spikeTiles p).filter fun t => s.domOn (10 + s.quadOf t)).foldl (State.sendMarker p) (s.cutBegun k p o.item)) := by
  show execCut k s = _
  simp only [execCut, hop, hcut, Option.isSome_none, Bool.false_eq_true, if_false]
  rfl

theorem exec_cut_idle (hop : s.spikeOp k 0 = none) : exec (.cut k) s = .next s := by
  show execCut k s = _
  simp [execCut, hop]

/-- The markers enter the mesh in the order of their tiles. -/
theorem State.sendMarkers_eq (s : State) (p : Nat) (l : List Nat) :
    l.foldl (State.sendMarker p) s = s.modMesh fun m => { m with packets := m.packets ++ l.map (s.cutMarker p) } := by
  induction l generalizing s with
  | nil => simp [State.modMesh]
  | cons t l ih =>
    have hsame : (s.sendMarker p t).cutMarker p = s.cutMarker p := rfl
    rw [List.foldl_cons, ih, hsame]
    simp [State.sendMarker, State.modMesh]

theorem State.spikeOp_cutBegun {item : ItemId} (hop : s.spikeOp k 0 = some (o, p)) : (s.cutBegun k p item).spikeOp k 0 = none :=
  State.spikeOp_of_begun (State.opAt_modOp (f := fun x => { x with begun := true }) (State.spikeOp_eq_some hop) rfl rfl) rfl

theorem exec_cut_spec (hop : s.spikeOp k 0 = some (o, p)) (hcut : (s.pop p).cut = none) : ∃ r, exec (.cut k) s = .next r ∧
    r.pop p = { s.pop p with cut := some (o.item, s.spikeTiles p) } ∧ (∀ n, n ≠ p → r.pop n = s.pop n) ∧
    r.mesh = { s.mesh with packets := s.mesh.packets ++
      ((s.spikeTiles p).filter fun t => s.domOn (10 + s.quadOf t)).map (s.cutMarker p) } ∧
    r.spikeOp k 0 = none ∧ r = { s with pp := r.pp, sf := r.sf, mesh := r.mesh } := by
  have hexec := exec_cut_sends hop hcut
  rw [State.sendMarkers_eq] at hexec
  exact ⟨_, hexec, State.pop_modPop_self _ _ _, fun n hn => State.pop_modPop_ne hn _ _, rfl,
    State.spikeOp_cutBegun (item := o.item) hop, rfl⟩

/-! ## Every marker is in (R270, R271) -/

theorem State.onlyPushed.markDropped (h : s.onlyPushed t) {item : ItemId} : s.onlyPushed (t.markDropped item) := h.ite h.modPal

theorem State.onlyPushed.pushItem (h : s.onlyPushed t) {ep q : Nat} {data : Cell64} {item : ItemId} {last epm : Bool} {stage flags : Nat} :
    s.onlyPushed (t.pushItem ep q data item last epm stage flags) := by
  unfold State.pushItem
  extract_lets r v w
  have hw : s.onlyPushed w := h.push.markDropped.ite h.push
  have hunmark : s.onlyPushed (w.unmark item) := hw.modPal
  exact hunmark.report.ite hw

/-- No marker is due before a cell of the epoch that the last one named (R217). -/
theorem State.epochMark_of_same {ep q port epoch : Nat} {item : ItemId} (h : s.markOf ep q = some epoch) :
    s.epochMark ep q port epoch item = s := if_pos h

/-- The EOP cell of the current item enters the output queue (R270). -/
def State.endPopItem (s : State) (p : Nat) : State :=
  s.pushItem (0x20 + s.reg R.sfPopCfgExportTile p) (s.reg R.sfPopCfgOutQid p)
    (eopCell (s.popItem p) (s.pop p).sent (s.pop p).lossy) (s.popItem p) true false 7 0

/-- The new item is current, and the population awaits no marker. -/
def State.beginPopItem (s : State) (p : Nat) (item : ItemId) : State :=
  (s.modPop p fun x => { x with cut := none, poison := false, sent := 0, lossy := false }).setReg R.sfPopItemId item.toNat p

/-- The CUT of population p that is in progress finishes. -/
def State.finishCut (s : State) (p : Nat) : State :=
  match s.cutOp p with
  | some k => s.finishOp k
  | none => s

theorem State.finishCut_frame (s : State) (p : Nat) : s.finishCut p = { s with pp := (s.finishCut p).pp } := by
  unfold State.finishCut
  split <;> rfl

theorem exec_cutMarkersCollected_ends {item : ItemId} (hcut : (s.pop p).cut = some (item, [])) (hpoison : (s.pop p).poison = false)
    (hmark : (s.markOf (0x20 + s.reg R.sfPopCfgExportTile p) (s.reg R.sfPopCfgOutQid p)).isSome = true) :
    exec (.cutMarkersCollected p) s = .next (((s.endPopItem p).beginPopItem p item).finishCut p) := by
  show execCutMarkersCollected p s = _
  obtain ⟨epoch, hepoch⟩ := Option.isSome_iff_exists.mp hmark
  have hsame : s.popMark p (s.reg R.sfPopCfgExportTile p) epoch = s := State.epochMark_of_same hepoch
  simp only [execCutMarkersCollected, hcut, hepoch, Option.getD_some, hsame, hpoison, Bool.false_eq_true, if_false]
  rfl

theorem exec_cutMarkersCollected_idle (h : ∀ item, (s.pop p).cut ≠ some (item, [])) : exec (.cutMarkersCollected p) s = .next s := by
  show execCutMarkersCollected p s = _
  unfold execCutMarkersCollected
  split
  · next item hcut => exact absurd hcut (h item)
  · rfl

theorem State.popItem_beginPopItem (s : State) (p : Nat) (item : ItemId) : (s.beginPopItem p item).popItem p = item := by
  have hreg : (s.beginPopItem p item).reg R.sfPopItemId p = item.toNat % 2 ^ 32 := State.reg_setReg_self _ R.sfPopItemId _ _ _
  rw [State.popItem, hreg, Nat.mod_eq_of_lt item.isLt, BitVec.ofNat_toNat, BitVec.setWidth_eq]

theorem State.pop_beginPopItem (s : State) (p : Nat) (item : ItemId) :
    (s.beginPopItem p item).pop p = { s.pop p with cut := none, poison := false, sent := 0, lossy := false } ∧
    ∀ n, n ≠ p → (s.beginPopItem p item).pop n = s.pop n :=
  ⟨State.pop_modPop_self _ _ _, fun _ hn => State.pop_modPop_ne hn _ _⟩

theorem exec_cutMarkersCollected_spec {item : ItemId} (hcut : (s.pop p).cut = some (item, [])) (hpoison : (s.pop p).poison = false)
    (hmark : (s.markOf (0x20 + s.reg R.sfPopCfgExportTile p) (s.reg R.sfPopCfgOutQid p)).isSome = true) :
    ∃ r, exec (.cutMarkersCollected p) s = .next r ∧ r.popItem p = item ∧
      r.pop p = { s.pop p with cut := none, sent := 0, lossy := false } ∧ (∀ n, n ≠ p → r.pop n = s.pop n) ∧
      r = { s.endPopItem p with regs := r.regs, sf := r.sf, pp := r.pp } ∧ (s.endPopItem p).regsBut r [R.sfPopItemId.key p 0] := by
  have hpushed : s.onlyPushed (s.endPopItem p) := s.onlyPushed_refl.pushItem
  have hpop (n : Nat) : (s.endPopItem p).pop n = s.pop n := State.pop_congr hpushed.sf n
  have hexec := exec_cutMarkersCollected_ends hcut hpoison hmark
  obtain ⟨hself, hothers⟩ := (s.endPopItem p).pop_beginPopItem p item
  have hitem := (s.endPopItem p).popItem_beginPopItem p item
  have hregs : (s.endPopItem p).regsBut ((s.endPopItem p).beginPopItem p item) [R.sfPopItemId.key p 0] :=
    ((s.endPopItem p).modPop p _).regsBut_setReg R.sfPopItemId _ _ _
  have hbegun : (s.endPopItem p).beginPopItem p item = { s.endPopItem p with
    regs := ((s.endPopItem p).beginPopItem p item).regs, sf := ((s.endPopItem p).beginPopItem p item).sf } := rfl
  have hframe := ((s.endPopItem p).beginPopItem p item).finishCut_frame p
  generalize (s.endPopItem p).beginPopItem p item = v at *
  refine ⟨v.finishCut p, hexec, ?_, ?_, fun n hn => ?_, ?_, ?_⟩
  · rw [hframe]
    exact hitem
  · have hsame : (v.finishCut p).pop p = v.pop p := State.pop_congr (by rw [hframe]) p
    rw [hsame, hself, hpop, ← hpoison]
  · exact (State.pop_congr (by rw [hframe]) n).trans ((hothers n hn).trans (hpop n))
  · rw [hframe, hbegun]
  · exact hregs.of_regs (by rw [hframe])

/-! ## Count windows (R274) -/

/-- BIN of a window's counts: how many spikes of l fell into it. -/
def State.putBin (p : Nat) (l : List Nat) (s : State) (b : Nat) : State := s.setReg R.sfPopBinCount (l.filter (· == b)).length p b

/-- The snapshot of the window before w: how many spikes, which window, and how many in each bin. -/
def State.snapshot (s : State) (p w : Nat) (l : List Nat) : State :=
  (List.range 16).foldl (State.putBin p l) ((s.setReg R.sfPopSnapTotalCount l.length p).setReg R.sfPopSnapSeqSeq w p)

/-- The bins of population p. -/
def binKeys (p : Nat) : List Nat := (List.range 16).map fun b => R.sfPopBinCount.key p b

theorem mem_binKeys {b : Nat} (hb : b < 16) : R.sfPopBinCount.key p b ∈ binKeys p :=
  List.mem_map_of_mem (List.mem_range.mpr hb)

theorem snapKeys_not_mem_binKeys (p : Nat) :
    R.sfPopSnapTotalCount.key p 0 ∉ binKeys p ∧ R.sfPopSnapSeqSeq.key p 0 ∉ binKeys p := by
  simp only [binKeys, List.mem_map, Row.key, R.sfPopSnapTotalCount, R.sfPopSnapSeqSeq, R.sfPopBinCount]
  omega

theorem binKey_inj {b c : Nat} (h : R.sfPopBinCount.key p b = R.sfPopBinCount.key p c) : b = c := by
  simp only [Row.key, R.sfPopBinCount] at h
  omega

theorem State.putBins_onlyRegs (s : State) (p : Nat) (l : List Nat) : s.onlyRegs ((List.range 16).foldl (State.putBin p l) s) (binKeys p) :=
  State.onlyRegs_foldl (fun _ hb _ => State.onlyRegs_setReg (mem_binKeys (List.mem_range.mp hb))) s

theorem State.reg_putBins (s : State) (p : Nat) (l bs : List Nat) (b : Nat) : (bs.foldl (State.putBin p l) s).reg R.sfPopBinCount p b =
    if b ∈ bs then (l.filter (· == b)).length % 2 ^ R.sfPopBinCount.width else s.reg R.sfPopBinCount p b := by
  induction bs generalizing s with
  | nil => simp
  | cons c bs ih =>
    rw [List.foldl_cons, ih]
    by_cases hb : b ∈ bs
    · simp [hb]
    · by_cases hc : b = c
      · subst hc
        simp only [hb, if_false, List.mem_cons, true_or, if_true]
        exact s.reg_setReg_self _ _ _ _
      · simp only [hb, hc, List.mem_cons, or_self, if_false]
        exact s.reg_setReg_ne _ _ _ _ _ _ _ fun he => hc (binKey_inj he).symm

theorem State.snapshot_spec (s : State) (p w : Nat) (l : List Nat) :
    (s.snapshot p w l).reg R.sfPopSnapTotalCount p = l.length % 2 ^ R.sfPopSnapTotalCount.width ∧
    (s.snapshot p w l).reg R.sfPopSnapSeqSeq p = w % 2 ^ R.sfPopSnapSeqSeq.width ∧
    (∀ b, b < 16 → (s.snapshot p w l).reg R.sfPopBinCount p b = (l.filter (· == b)).length % 2 ^ R.sfPopBinCount.width) ∧
    s.onlyRegs (s.snapshot p w l) ([R.sfPopSnapTotalCount.key p 0, R.sfPopSnapSeqSeq.key p 0] ++ binKeys p) := by
  obtain ⟨htotal, hseq⟩ := snapKeys_not_mem_binKeys p
  obtain ⟨hframe, hbins⟩ := ((s.setReg R.sfPopSnapTotalCount l.length p).setReg R.sfPopSnapSeqSeq w p).putBins_onlyRegs p l
  have hne : R.sfPopSnapSeqSeq.key p 0 ≠ R.sfPopSnapTotalCount.key p 0 := by
    simp only [Row.key, R.sfPopSnapSeqSeq, R.sfPopSnapTotalCount]
    omega
  refine ⟨?_, ?_, fun b hb => ?_, ?_, fun r i j hk => ?_⟩
  · exact (hbins _ _ _ htotal).trans ((State.reg_setReg_ne _ _ _ _ _ _ _ _ hne).trans (s.reg_setReg_self _ _ _ _))
  · exact (hbins _ _ _ hseq).trans (State.reg_setReg_self _ _ _ _ _)
  · exact (State.reg_putBins _ _ _ _ _).trans (if_pos (List.mem_range.mpr hb))
  · unfold State.snapshot
    rw [hframe]
    rfl
  · simp only [List.cons_append, List.nil_append, List.mem_cons, not_or] at hk
    obtain ⟨hk1, hk2, hk3⟩ := hk
    exact (hbins r i j hk3).trans (((s.regsBut_refl [R.sfPopSnapTotalCount.key p 0, R.sfPopSnapSeqSeq.key p 0]).setReg
      List.mem_cons_self).setReg (by simp) r i j (by simp [hk1, hk2]))

theorem exec_spikeCountWindow_ends {w : Nat} {l : List Nat} (hclock : s.clockRuns = true) (hw : w = s.us / s.reg R.sfPopWinWinUs p)
    (hnew : w ≠ (s.pop p).win) (hl : l = ((s.pop p).spikes.filter fun e => e.1 + 1 == w).map (·.2)) :
    exec (.spikeCountWindow p) s = .next ((s.snapshot p w l).modPop p fun x =>
      { x with win := w, spikes := x.spikes.filter fun e => decide (w ≤ e.1) }) := by
  subst hw hl
  show execSpikeCountWindow p s = _
  simp only [execSpikeCountWindow, hclock, Bool.not_true, Bool.false_or, beq_iff_eq, hnew, if_false]
  rfl

theorem exec_spikeCountWindow_spec {w : Nat} {l : List Nat} (hclock : s.clockRuns = true) (hw : w = s.us / s.reg R.sfPopWinWinUs p)
    (hnew : w ≠ (s.pop p).win) (hl : l = ((s.pop p).spikes.filter fun e => e.1 + 1 == w).map (·.2)) :
    ∃ r, exec (.spikeCountWindow p) s = .next r ∧
      r.reg R.sfPopSnapTotalCount p = l.length % 2 ^ R.sfPopSnapTotalCount.width ∧
      r.reg R.sfPopSnapSeqSeq p = w % 2 ^ R.sfPopSnapSeqSeq.width ∧
      (∀ b, b < 16 → r.reg R.sfPopBinCount p b = (l.filter (· == b)).length % 2 ^ R.sfPopBinCount.width) ∧
      (r.pop p).win = w ∧ (∀ n, n ≠ p → r.pop n = s.pop n) ∧ r = { s with regs := r.regs, sf := r.sf } ∧
      s.regsBut r ([R.sfPopSnapTotalCount.key p 0, R.sfPopSnapSeqSeq.key p 0] ++ binKeys p) := by
  obtain ⟨htotal, hseq, hbins, hframe, hregs⟩ := s.snapshot_spec p w l
  have hexec := exec_spikeCountWindow_ends hclock hw hnew hl
  generalize s.snapshot p w l = v at *
  refine ⟨_, hexec, htotal, hseq, hbins, congrArg PopState.win (v.pop_modPop_self p _), fun n hn => ?_, ?_, hregs.of_regs rfl⟩
  · exact (State.pop_modPop_ne hn v _).trans (State.pop_congr (by rw [hframe]) n)
  · rw [hframe]
    rfl

/-! ## Sleep (R273) -/

theorem exec_tileSleep_sleeps (hdue : s.due (.tileSleep tl) = true)
    (hinput : (s.mesh.atLocal.any fun p => p.tile == tl && p.vc == 1) = false)
    (hwork : ((s.tilePops tl).any fun p => (s.paced p && s.nominalClose p tl) || (s.popNeurons tl p).any fun e => s.neuronOld tl e.2) = false) :
    exec (.tileSleep tl) s = .next ((s.disarm (.tileSleep tl)).setReg R.sfTStatAwake 0 tl) := by
  show execTileSleep tl s = _
  simp only [execTileSleep, hdue, hinput, hwork, Bool.not_false, Bool.and_self, if_true]

theorem exec_tileSleep_early (hdue : s.due (.tileSleep tl) = false) : exec (.tileSleep tl) s = .next s := by
  show execTileSleep tl s = _
  simp [execTileSleep, hdue]

end

/-- Settles O38: each command by its own step, and for the two that walk a tile's neurons by the blocks of 16 bytes that keep their
records apart. -/
theorem spikingStepsAndItems : Obligations.SpikingStepsAndItems := by
  refine ⟨fun p t fails s hrole hon hpaced hholds hnominal hready => ?_, fun p t fails s h => exec_pacedStepClose_idle h,
    fun t s hrole hon => ?_, fun k p o s hop hcut => exec_cut_spec hop hcut, fun k s hop => exec_cut_idle hop,
    fun p item s hcut hpoison hmark => ?_, fun p s h => exec_cutMarkersCollected_idle h, fun k p o s hop => ?_,
    fun p w l s _ hclock hw hnew hl => exec_spikeCountWindow_spec hclock hw hnew hl, fun t s hdue hinput hwork => ?_,
    fun t s hdue => exec_tileSleep_early hdue⟩
  · exact ⟨_, exec_pacedStepClose_closes hrole hon hpaced hholds hnominal hready, rfl, s.closeStep_wakeTile p t _ fails⟩
  · obtain ⟨hframe, hout⟩ := s.onlyTile_sweep t
    exact ⟨_, exec_neuronSweep_on hrole hon, hframe, hout, fun p i a hpops hneurons hold => State.neuronAt_sweep hpops hneurons hold⟩
  · obtain ⟨r, hexec, hr⟩ := exec_cutMarkersCollected_spec hcut hpoison hmark
    exact ⟨r, _, hexec, rfl, hr⟩
  · have hframe := s.onlyTmem_fillPops p { last := s.us % 2 ^ 32 } (s.spikeTiles p)
    refine ⟨_, exec_resetPop_clears hop, fun t ht e he => State.neuronAt_fillPops (Neuron.cleared_fits _) ht he, State.opAt_finishOp _ _ _, ?_⟩
    rw [hframe]
    rfl
  · exact ⟨_, exec_tileSleep_sleeps hdue hinput hwork, State.reg_setReg_self _ _ _ _ _, s.armed_disarm _, rfl,
      (s.disarm _).regsBut_setReg _ _ _ _⟩

end Sys2Proof.Machine
end

section
/-! A step and the queue of commands, and the invariant of the fault stack. -/
namespace Sys2Proof.Machine

/-- Settles O1: both are the second equation of `step`; a command that was put in front leaves the queue as it was. -/
theorem stepRunsTheFrontCommand : Obligations.StepRunsTheFrontCommand := by
  refine ⟨fun c rest s h => ?_, fun c s => rfl⟩
  unfold step
  rw [h]

theorem State.stackSound_iff (s : State) : s.stackSound = true ↔ faultsSound s.lg.faults := by
  simp only [State.stackSound, faultsSound, Bool.and_eq_true, decide_eq_true_eq, List.all_eq_true, and_assoc]

/-- The fault stack is sound: a stable property, for only an update of the ledger touches it and a full reset empties it. -/
theorem stable_stackSound : Stable fun s => s.stackSound = true where
  modStore h := h
  modPins h := h
  modDevtime h := h
  modFrac h := h
  modTimers h := h
  modKeeper h := h
  modCv h := h
  modRoles h := h
  modPp h := h
  modMesh h := h
  modPal h := h
  modEi h := h
  modTm h := h
  modSf h := h
  modDeParity h := h
  modXr h := h
  modFu h := h
  modRd h := h
  modSl h := h
  modHi h := h
  modFreeCtr h := h
  putRegs _ h := h
  modExt _ h := h
  modTmem _ h := h
  modScratch _ h := h
  modHostMem _ h := h
  modLg hf h := (State.stackSound_iff _).mpr (hf ((State.stackSound_iff _).mp h))
  fullReset _ := (State.stackSound_iff _).mpr faultsSound.nil

/-- Settles O5: a sound fault stack is a stable property, and the queue's rest does not touch it. -/
theorem everyStepKeepsTheFaultStackSound : Obligations.EveryStepKeepsTheFaultStackSound :=
  fun _ _ hs h => step_next_stable stable_stackSound (fun hq => hq) hs h

end Sys2Proof.Machine
end

section
/-! LG_FAULT_ACK and a repeat raise at the fault stack (R466, R467, R473). -/
namespace Sys2Proof.Machine

section
variable {s t : State} {e : FaultEntry} {mask : Nat}

/-! ## What an acknowledgement retires -/

/-- The slots of the held entries of severity 2 that a mask names. -/
def ackedSlots (l : List FaultEntry) (mask : Nat) : List Nat :=
  (l.filter fun e => e.state == 3 && e.sev == 2 && bitAt mask e.slot).map (·.slot)

theorem mem_ackedSlots {l : List FaultEntry} (he : e ∈ l) (hstate : e.state = 3) (hsev : e.sev = 2) (hbit : bitAt mask e.slot = true) :
    e.slot ∈ ackedSlots l mask :=
  List.mem_map_of_mem (List.mem_filter.mpr ⟨he, by simp [hstate, hsev, hbit]⟩)

/-- What the retirement of entries leaves: the stack without them, and the clock, the mode and the raises as they were. -/
structure State.stackLeft (s : State) (l : List FaultEntry) (t : State) : Prop where
  faults : t.lg.faults = l
  raises : t.lg.raises = s.lg.raises
  devtime : t.devtime = s.devtime
  keeper : t.keeper = s.keeper

theorem State.stackLeft_retireFaults (l : List Nat) (s : State) :
    s.stackLeft (s.lg.faults.filter fun e => decide (e.slot ∉ l)) (l.foldl State.retireFault s) := by
  induction l generalizing s with
  | nil => exact ⟨by simp, rfl, rfl, rfl⟩
  | cons k l ih =>
    have hretire : s.stackLeft (s.lg.faults.filter (·.slot ≠ k)) (s.retireFault k) := by
      unfold State.retireFault
      rw [State.vector_frame]
      exact ⟨rfl, rfl, rfl, rfl⟩
    obtain ⟨hfaults, hraises, htime, hkeeper⟩ := ih (s.retireFault k)
    refine ⟨?_, hraises.trans hretire.raises, htime.trans hretire.devtime, hkeeper.trans hretire.keeper⟩
    rw [List.foldl_cons, hfaults, hretire.faults, List.filter_filter]
    exact List.filter_congr fun x _ => by simp [Bool.and_comm]

theorem State.stackLeft_ackFaults (s : State) (mask : Nat) :
    s.stackLeft (s.lg.faults.filter fun e => decide (e.slot ∉ ackedSlots s.lg.faults mask)) (s.ackFaults mask) := by
  obtain ⟨hfaults, hraises, htime, hkeeper⟩ := State.stackLeft_retireFaults (ackedSlots s.lg.faults mask) s
  have hack : s.ackFaults mask = (let u := (ackedSlots s.lg.faults mask).foldl State.retireFault s
    if (ackedSlots s.lg.faults mask).isEmpty then u else u.setFaultN u.faultNShould) := rfl
  rw [hack]
  dsimp only
  split <;> exact ⟨hfaults, hraises, htime, hkeeper⟩

theorem exec_lgFaultAck {m : BitVec 8} (h : s.alive = true) :
    exec (.lgFaultAck m) s = .next ((s.setReg R.lgFaultAckAck (s.reg R.lgFaultAckAck ||| m.toNat)).ackFaults m.toNat) := by
  show execLgFaultAck m s = _
  simp [execLgFaultAck, State.setCmd, h]

theorem exec_lgFaultAck_stackLeft {m : BitVec 8} (h : s.alive = true) : ∃ u, exec (.lgFaultAck m) s = .next u ∧
    s.stackLeft (s.lg.faults.filter fun e => decide (e.slot ∉ ackedSlots s.lg.faults m.toNat)) u := by
  obtain ⟨hfaults, hraises, htime, hkeeper⟩ :=
    (s.setReg R.lgFaultAckAck (s.reg R.lgFaultAckAck ||| m.toNat)).stackLeft_ackFaults m.toNat
  exact ⟨_, exec_lgFaultAck h, hfaults, hraises, htime, hkeeper⟩

theorem exec_lgFaultAck_of_none {m : BitVec 8} (h : ∀ e ∈ s.lg.faults, bitAt m.toNat e.slot = true → e.state ≠ 3) :
    exec (.lgFaultAck m) s = .next (if s.alive then s.setCmd R.lgFaultAckAck 0 m.toNat else s) := by
  have hnone {t : State} (ht : t.lg = s.lg) : t.ackFaults m.toNat = t := by
    have hfilter : (t.lg.faults.filter fun e => e.state == 3 && e.sev == 2 && bitAt m.toNat e.slot) = [] :=
      List.filter_eq_nil_iff.mpr fun e he => by
        have hstate := h e (ht ▸ he)
        simp only [Bool.and_eq_true, beq_iff_eq, not_and, and_imp]
        exact fun h3 _ hbit => hstate hbit h3
    simp only [State.ackFaults, hfilter, List.map_nil, List.foldl_nil, List.isEmpty_nil, if_true]
  by_cases halive : s.alive = true
  · rw [exec_lgFaultAck halive, hnone (t := s.setReg R.lgFaultAckAck (s.reg R.lgFaultAckAck ||| m.toNat)) rfl]
    simp [halive, State.setCmd]
  · show execLgFaultAck m s = _
    simp [execLgFaultAck, halive]

/-! ## The repeat raise -/

/-- A raise of a live entry counts in it when no storm begins. -/
theorem State.raise_repeats {sev block : Nat} (he : e ∈ s.lg.faults)
    (hone : ∀ x ∈ s.lg.faults, x.off = e.off → x.bit = e.bit → x = e) (hfew : s.recentRaises.length < 64) :
    s.raise e.off e.bit sev block = (s.countRaise.repeatFault e.slot).vector 3 := by
  have hfind : s.lg.faults.find? (fun x => x.off == e.off && x.bit == e.bit) = some e := by
    cases hx : s.lg.faults.find? fun x => x.off == e.off && x.bit == e.bit with
    | none => exact absurd (List.find?_eq_none.mp hx e he) (by simp)
    | some x =>
      have hname := List.find?_some hx
      simp only [Bool.and_eq_true, beq_iff_eq] at hname
      rw [hone x (List.mem_of_find?_eq_some hx) hname.1 hname.2]
  rw [(s.raise_spec e.off e.bit sev block).1 e hfind, State.manyRaises_of_few hfew]
  rfl

theorem State.faults_repeated (s : State) (k : Nat) : ((s.countRaise.repeatFault k).vector 3).lg.faults =
    s.lg.faults.map fun x => if x.slot = k then { x with rep := satTo 255 (x.rep + 1) } else x := by
  rw [State.vector_frame]
  show s.countRaise.lg.faults.map _ = _
  rw [s.countRaise_kept.1]

theorem State.keeper_repeated (s : State) (k : Nat) : ((s.countRaise.repeatFault k).vector 3).keeper = s.keeper := by
  rw [State.vector_frame]
  unfold State.countRaise
  dsimp only
  split <;> rfl

/-! ## A raise that enters the fault -/

/-- Keeper takes a pending entry in hand or leaves it pending. -/
theorem State.takeFault_keeps_pending (he : e ∈ s.lg.faults) (hstate : e.state = 1) :
    ∃ y ∈ s.takeFault.lg.faults, y.off = e.off ∧ y.bit = e.bit ∧ y.rep = e.rep ∧ y.time = e.time ∧ (y.state = 1 ∨ y.state = 2) := by
  have hset {l : List FaultEntry} {k st : Nat} (hst : st = 1 ∨ st = 2)
      (h : ∃ y ∈ l, y.off = e.off ∧ y.bit = e.bit ∧ y.rep = e.rep ∧ y.time = e.time ∧ (y.state = 1 ∨ y.state = 2)) :
      ∃ y ∈ setFaultState l k st, y.off = e.off ∧ y.bit = e.bit ∧ y.rep = e.rep ∧ y.time = e.time ∧
        (y.state = 1 ∨ y.state = 2) := by
    obtain ⟨y, hy, hname⟩ := h
    refine ⟨_, List.mem_map_of_mem hy, ?_⟩
    split
    · exact ⟨hname.1, hname.2.1, hname.2.2.1, hname.2.2.2.1, hst⟩
    · exact hname
  have hold : ∃ y ∈ s.lg.faults, y.off = e.off ∧ y.bit = e.bit ∧ y.rep = e.rep ∧ y.time = e.time ∧ (y.state = 1 ∨ y.state = 2) :=
    ⟨e, he, rfl, rfl, rfl, rfl, .inl hstate⟩
  unfold State.takeFault
  split
  · exact hold
  · exact hset (.inr rfl) hold
  · split
    · exact hset (.inr rfl) (hset (.inl rfl) hold)
    · exact hold

/-- A slot that no entry holds leaves a free slot. -/
theorem State.freeFaultSlot_of_free {k : Nat} (hk : k < 8) (h : ∀ x ∈ s.lg.faults, x.slot ≠ k) : ∃ j, s.freeFaultSlot = some j :=
  Option.isSome_iff_exists.mp (List.find?_isSome.mpr ⟨k, List.mem_range.mpr hk, by simpa using h⟩)

/-- A raise of no live entry enters the fault where a slot is free and no storm begins. -/
theorem State.raise_enters {off bit sev block k : Nat} (hnew : ∀ x ∈ s.lg.faults, x.off = off → x.bit ≠ bit)
    (hfew : s.recentRaises.length < 64) (hk : s.freeFaultSlot = some k) :
    ∃ y ∈ (s.raise off bit sev block).lg.faults, y.off = off ∧ y.bit = bit ∧ y.rep = 0 ∧ y.time = s.devtime ∧
      (y.state = 1 ∨ y.state = 2) := by
  have hfind : (s.lg.faults.find? fun x => x.off == off && x.bit == bit) = none :=
    find?_fault_eq_none fun x hx => Decidable.not_or_of_imp (hnew x hx)
  rw [(((s.raise_spec off bit sev block).2 hfind).2 (State.manyRaises_of_few hfew)).2 k hk]
  refine State.takeFault_keeps_pending (e := s.newFault k off bit sev block) ?_ rfl
  rw [State.vector_frame]
  exact List.mem_append_right _ (List.mem_singleton.mpr rfl)

/-! ## Both orders (R473) -/

theorem State.alive_congr (h : t.keeper = s.keeper) : t.alive = s.alive := by
  unfold State.alive
  rw [h]

/-- A held entry of severity 2 that a mask names, the only one of its field: after the acknowledgement the stack holds no entry of the
field. -/
theorem State.stackLeft.field_gone (h : s.stackLeft (s.lg.faults.filter fun e => decide (e.slot ∉ ackedSlots s.lg.faults mask)) t)
    (he : e ∈ s.lg.faults) (hone : ∀ x ∈ s.lg.faults, x.off = e.off → x.bit = e.bit → x = e) (hstate : e.state = 3)
    (hsev : e.sev = 2) (hbit : bitAt mask e.slot = true) : ∀ y ∈ t.lg.faults, y.off = e.off → y.bit ≠ e.bit := by
  intro y hy hoff hname
  rw [h.faults] at hy
  obtain ⟨hmem, hkept⟩ := List.mem_filter.mp hy
  rw [hone y hmem hoff hname] at hkept
  exact of_decide_eq_true hkept (mem_ackedSlots he hstate hsev hbit)

theorem exec_faultRaise_then_lgFaultAck {sev block : Nat} {m : BitVec 8} (halive : s.alive = true)
    (hfew : s.recentRaises.length < 64) (he : e ∈ s.lg.faults)
    (hone : ∀ x ∈ s.lg.faults, x.off = e.off → x.bit = e.bit → x = e) (hstate : e.state = 3) (hsev : e.sev = 2)
    (hbit : bitAt m.toNat e.slot = true) :
    ∃ t u, exec (.faultRaise e.off e.bit sev block) s = .next t ∧ { e with rep := min 255 (e.rep + 1) } ∈ t.lg.faults ∧
      t.lg.faults.length = s.lg.faults.length ∧ exec (.lgFaultAck m) t = .next u ∧
      (∀ y ∈ u.lg.faults, y.off = e.off → y.bit ≠ e.bit) := by
  have hexec := exec_faultRaise_alive (off := e.off) (bit := e.bit) (sev := sev) (block := block) halive
  rw [State.raise_repeats he hone hfew] at hexec
  have hfaults := s.faults_repeated e.slot
  have halive' := (State.alive_congr (s.keeper_repeated e.slot)).trans halive
  generalize (s.countRaise.repeatFault e.slot).vector 3 = t at *
  have hmem : { e with rep := min 255 (e.rep + 1) } ∈ t.lg.faults := by
    rw [hfaults]
    exact List.mem_map.mpr ⟨e, he, if_pos rfl⟩
  obtain ⟨u, hack, hleft⟩ := exec_lgFaultAck_stackLeft (m := m) halive'
  refine ⟨t, u, hexec, hmem, by rw [hfaults, List.length_map], hack,
    hleft.field_gone (e := { e with rep := min 255 (e.rep + 1) }) hmem ?_ hstate hsev hbit⟩
  intro x hx hoff hname
  rw [hfaults] at hx
  obtain ⟨z, hz, rfl⟩ := List.mem_map.mp hx
  have hze : z = e := hone z hz (by split at hoff <;> exact hoff) (by split at hname <;> exact hname)
  subst hze
  exact if_pos rfl

theorem exec_lgFaultAck_then_faultRaise {sev block : Nat} {m : BitVec 8} (halive : s.alive = true) (hsound : s.stackSound = true)
    (hfew : s.recentRaises.length < 64) (he : e ∈ s.lg.faults)
    (hone : ∀ x ∈ s.lg.faults, x.off = e.off → x.bit = e.bit → x = e) (hstate : e.state = 3) (hsev : e.sev = 2)
    (hbit : bitAt m.toNat e.slot = true) :
    ∃ t u y, exec (.lgFaultAck m) s = .next t ∧ (∀ y ∈ t.lg.faults, y.off = e.off → y.bit ≠ e.bit) ∧
      exec (.faultRaise e.off e.bit sev block) t = .next u ∧ y ∈ u.lg.faults ∧ y.off = e.off ∧ y.bit = e.bit ∧ y.rep = 0 ∧
      y.time = s.devtime ∧ (y.state = 1 ∨ y.state = 2) := by
  obtain ⟨t, hack, hleft⟩ := exec_lgFaultAck_stackLeft (m := m) halive
  have hgone := hleft.field_gone he hone hstate hsev hbit
  have hslot : e.slot < 8 := ((State.stackSound_iff s).mp hsound).2.1 e he
  obtain ⟨k, hk⟩ := State.freeFaultSlot_of_free (s := t) hslot fun x hx hxe => by
    rw [hleft.faults] at hx
    exact of_decide_eq_true (List.mem_filter.mp hx).2 (hxe ▸ mem_ackedSlots he hstate hsev hbit)
  have hfew' : t.recentRaises.length < 64 := by
    unfold State.recentRaises at hfew ⊢
    rwa [hleft.raises, hleft.devtime]
  obtain ⟨y, hy, hoff, hname, hrep, htime, hpend⟩ := State.raise_enters (sev := sev) (block := block) hgone hfew' hk
  exact ⟨t, _, y, hack, hgone, exec_faultRaise_alive ((State.alive_congr hleft.keeper).trans halive), hy, hoff, hname, hrep,
    htime.trans hleft.devtime, hpend⟩

/-- An entry that is not held stays: no other entry has its slot. -/
theorem exec_lgFaultAck_keeps {m : BitVec 8} (halive : s.alive = true) (hsound : s.stackSound = true) (he : e ∈ s.lg.faults)
    (hstate : e.state ≠ 3) : ∃ t, exec (.lgFaultAck m) s = .next t ∧ e ∈ t.lg.faults := by
  obtain ⟨t, hack, hleft⟩ := exec_lgFaultAck_stackLeft (m := m) halive
  have hnodup := ((State.stackSound_iff s).mp hsound).1
  refine ⟨t, hack, ?_⟩
  rw [hleft.faults]
  refine List.mem_filter.mpr ⟨he, decide_eq_true fun hmem => ?_⟩
  obtain ⟨x, hx, hslot⟩ := List.mem_map.mp hmem
  obtain ⟨hxs, hheld⟩ := List.mem_filter.mp hx
  have hxe : x = e := List.inj_on_of_nodup_map hnodup hxs he hslot
  subst hxe
  simp only [Bool.and_eq_true, beq_iff_eq] at hheld
  exact hstate hheld.1.1

end

/-- Settles O60: a repeat counts in the entry, which the acknowledgement then retires; an acknowledged entry leaves its slot free for a
new one. -/
theorem acknowledgementMeetsRepeat : Obligations.AcknowledgementMeetsRepeat :=
  ⟨fun _ _ _ _ _ halive hsound hfew he hone hstate hsev hbit =>
      ⟨exec_faultRaise_then_lgFaultAck halive hfew he hone hstate hsev hbit,
        exec_lgFaultAck_then_faultRaise halive hsound hfew he hone hstate hsev hbit⟩,
    fun _ _ _ halive hsound he hstate => exec_lgFaultAck_keeps halive hsound he hstate, fun _ _ h => exec_lgFaultAck_of_none h⟩

end Sys2Proof.Machine
end

section
/-! The instructions of the pixel program (R378, R397). -/
namespace Sys2Proof.Machine

section
variable {s : State} {u : PixelUnit} {c : Instr} {d a : Nat} {f : Nat → BitVec 16}

/-! ## Registers of a pixel -/

theorem PixelUnit.lane_put (hd : d < u.regs.length) (f : Nat → BitVec 16) (r : Nat) {i : Nat} (hi : i < 4) :
    (u.put d f).lane r i = if r = d then f i else u.lane r i := by
  unfold PixelUnit.lane PixelUnit.get PixelUnit.put
  split
  · next h =>
    subst h
    simp [List.getD_eq_getElem?_getD, hd, hi]
  · next h => simp [List.getD_eq_getElem?_getD, Ne.symm h]

/-! ## One instruction -/

theorem State.pixelOp_of_running (h : s.rd.px.ended = false) (op : PixelUnit → PixelUnit) :
    s.pixelOp op = { s with rd := { s.rd with px := (op s.rd.px).stepped } } := if_neg (by simp [h])

theorem State.pixelOp_of_ended (h : s.rd.px.ended = true) (op : PixelUnit → PixelUnit) : s.pixelOp op = s := if_pos h

/-- What an instruction that writes register d leaves of the pixel in hand. -/
def PixelUnit.wrote (u : PixelUnit) (d : Nat) (f : Nat → BitVec 16) (v : PixelUnit) : Prop :=
  (∀ r i, r < 8 → i < 4 → v.lane r i = if r = d then f i else u.lane r i) ∧ v.steps = u.steps + 1 ∧
    v.ended = decide (63 ≤ u.steps) ∧ v.killed = u.killed

theorem PixelUnit.wrote_put (hrun : u.ended = false) (hregs : u.regs.length = 8) (hd : d < 8) (f : Nat → BitVec 16) :
    u.wrote d f (u.put d f).stepped := by
  refine ⟨fun r i _ hi => u.lane_put (hregs ▸ hd) f r hi, rfl, ?_, rfl⟩
  show (u.ended || _) = _
  simp [PixelUnit.put, hrun]

/-- An instruction that puts lanes into a register writes them, and no other register. -/
theorem exec_writes_lanes {op : PixelUnit → PixelUnit} {d : BitVec 3} (hexec : exec c s = .next (s.pixelOp op))
    (hop : op s.rd.px = s.rd.px.put d.toNat f) (hrun : s.rd.px.ended = false) (hregs : s.rd.px.regs.length = 8) :
    ∃ t, exec c s = .next t ∧ (∀ r i, r < 8 → i < 4 → t.rd.px.lane r i = if r = d.toNat then f i else s.rd.px.lane r i) ∧
      t.rd.px.steps = s.rd.px.steps + 1 ∧ t.rd.px.ended = decide (63 ≤ s.rd.px.steps) ∧ t.rd.px.killed = s.rd.px.killed ∧
      t = { s with rd := { s.rd with px := t.rd.px } } := by
  rw [State.pixelOp_of_running hrun, hop] at hexec
  obtain ⟨hlanes, hsteps, hended, hkilled⟩ := PixelUnit.wrote_put hrun hregs d.isLt f
  exact ⟨_, hexec, hlanes, hsteps, hended, hkilled, rfl⟩

theorem swzLane (imm i : Nat) : bits imm (2 * i + 1) (2 * i) = imm / 4 ^ i % 4 := by
  have hwidth : 2 * i + 1 + 1 - 2 * i = 2 := by omega
  simp only [bits, hwidth, pow_mul]
  rfl

/-! ## END and KILL -/

theorem exec_endOp_running (hrun : s.rd.px.ended = false) : exec .endOp s =
    .next { s with rd := { s.rd with px := { s.rd.px with steps := s.rd.px.steps + 1, ended := true } } } := by
  show Host.Outcome.next (s.pixelOp _) = _
  rw [State.pixelOp_of_running hrun]
  rfl

theorem exec_kill_running {a : BitVec 3} (hrun : s.rd.px.ended = false) : exec (.kill a) s =
    .next { s with rd := { s.rd with px := { s.rd.px with
      steps := s.rd.px.steps + 1, ended := decide (63 ≤ s.rd.px.steps),
      killed := s.rd.px.killed || halfNeg (s.rd.px.lane a.toNat 0) } } } := by
  have hkill : (s.rd.px.kill a.toNat).stepped = { s.rd.px with
      steps := s.rd.px.steps + 1, ended := decide (63 ≤ s.rd.px.steps),
      killed := s.rd.px.killed || halfNeg (s.rd.px.lane a.toNat 0) } := by
    unfold PixelUnit.kill
    split
    · next h => simp [PixelUnit.stepped, hrun, h]
    · next h => simp [PixelUnit.stepped, hrun, h]
  show Host.Outcome.next (s.pixelOp _) = _
  rw [State.pixelOp_of_running hrun, hkill]

/-! ## TEX -/

theorem exec_tex_running {d a : BitVec 3} (hrun : s.rd.px.ended = false) {v : PixelUnit} {bad : Bool}
    (h : s.pixelTex d.toNat a.toNat s.rd.px = (v, bad)) : exec (.tex d a) s =
      .next (if bad then (s.modRd fun x => { x with px := v.stepped }).bump R.rdCntCount 12 else s.modRd fun x => { x with px := v.stepped }) := by
  show execTex d a s = _
  simp only [execTex, hrun, h]
  rfl

theorem State.pixelTex_some {e : TexSlot} {l : List Nat} (he : alGet s.rd.tex u.tex = some e)
    (hl : s.texel u.tile u.tex (texCoord (u.lane a 0) e.log2w) (texCoord (u.lane a 1) e.log2h) = some l) :
    s.pixelTex d a u = (u.put d fun i => halfOfQuot (l.getD i 0) 255, false) := by
  simp only [State.pixelTex, he, Option.map_some, Option.getD_some, hl]

theorem State.pixelTex_none (he : alGet s.rd.tex u.tex = none) : s.pixelTex d a u = (u.put d fun _ => 0, true) := by
  simp only [State.pixelTex, State.texel, he]

end

/-- Settles O48: an instruction puts its four lanes into a register and steps; END, KILL and TEX by their own steps. -/
theorem pixelInstructions : Obligations.PixelInstructions := by
  refine ⟨fun c d a b imm f s hrun hregs hmem => ?_, fun s hrun => exec_endOp_running hrun, fun a s hrun => exec_kill_running hrun,
    fun d a e l s hrun hregs he hl => ?_, fun d a s hrun hregs he => ?_, fun c d a b imm s hended hmem => ?_⟩
  · simp only [List.mem_cons, Prod.mk.injEq, List.not_mem_nil, or_false] at hmem
    have hswz : s.rd.px.swz d.toNat a.toNat imm.toNat = s.rd.px.put d.toNat fun i => s.rd.px.lane a.toNat (imm.toNat / 4 ^ i % 4) := by
      simp only [PixelUnit.swz, swzLane]
    rcases hmem with ⟨rfl, rfl⟩ | ⟨rfl, rfl⟩ | ⟨rfl, rfl⟩ | ⟨rfl, rfl⟩ | ⟨rfl, rfl⟩ | ⟨rfl, rfl⟩ | ⟨rfl, rfl⟩ | ⟨rfl, rfl⟩ | ⟨rfl, rfl⟩ |
      ⟨rfl, rfl⟩
    case inr.inr.inr.inr.inr.inr.inr.inl => exact exec_writes_lanes rfl hswz hrun hregs
    all_goals exact exec_writes_lanes rfl rfl hrun hregs
  · obtain ⟨hlanes, hsteps, -⟩ := PixelUnit.wrote_put hrun hregs d.isLt fun i => halfOfQuot (l.getD i 0) 255
    exact ⟨_, exec_tex_running hrun (State.pixelTex_some he hl), hlanes, hsteps, rfl⟩
  · obtain ⟨hlanes, -⟩ := PixelUnit.wrote_put hrun hregs d.isLt fun _ => 0
    exact ⟨_, exec_tex_running hrun (State.pixelTex_none he), hlanes, State.reg_setReg_self _ _ _ _ _, rfl,
      (s.modRd _).regsBut_setReg _ _ _ _⟩
  · have hstays (op : PixelUnit → PixelUnit) : Host.Outcome.next (s.pixelOp op) = (.next s : Out) := by rw [State.pixelOp_of_ended hended]
    have htex : exec (.tex d a) s = .next s := congrArg Host.Outcome.next (if_pos hended)
    simp only [List.mem_cons, List.not_mem_nil, or_false] at hmem
    rcases hmem with rfl | rfl | rfl | rfl | rfl | rfl | rfl | rfl | rfl | rfl | rfl | rfl | rfl
    case inr.inr.inr.inr.inr.inr.inr.inr.inr.inr.inl => exact htex
    all_goals exact hstays _

end Sys2Proof.Machine
end

section
/-! The display port: frame starts, lines, video mode and DCS writes (R385 to R387, R392, R398). -/
namespace Sys2Proof.Machine

section
variable {s : State}

theorem State.alive_of_inRun (h : s.inRun = true) : s.alive = true := by
  simp only [State.inRun, decide_eq_true_eq] at h
  simp [State.alive, h]

/-- A command bit of one bit reads 1 after its command. -/
theorem State.reg_setCmd_one {r : Row} (hw : r.width = 1) (halive : s.alive = true) (i : Nat) : (s.setCmd r i).reg r i = 1 := by
  have hodd : (s.reg r i ||| 1) % 2 = 1 := by simp
  rw [State.setCmd, if_pos halive, State.reg_setReg_self, hw]
  exact hodd

theorem State.regsBut_setCmd (s : State) (r : Row) (i v : Nat) : s.regsBut (s.setCmd r i v) [r.key i 0] := by
  unfold State.setCmd
  split
  · exact s.regsBut_setReg _ _ _ _
  · exact s.regsBut_refl _

theorem State.armed_of_alGet_none {x : Timer} (h : alGet s.timers x = none) : s.armed x = false := by
  simp [State.armed, h]

/-! ## Frame starts (R385, R387, R392) -/

/-- The timers and the line of a frame that starts. -/
def State.frameTimed (s : State) : State :=
  ((s.arm .frame (s.vtotal * s.reg R.rdDsiLineLineNs)).arm .line 0).modRd fun r => { r with line := 0 }

theorem State.timers_frameTimed (s : State) :
    alGet s.frameTimed.timers .frame = some (s.devtime + s.vtotal * s.reg R.rdDsiLineLineNs) ∧
    alGet s.frameTimed.timers .line = some s.devtime := by
  refine ⟨?_, alGet_alPut_self _ _ _⟩
  show alGet (alPut (alPut s.timers _ _) _ _) _ = _
  rw [alGet_alPut_ne _ _ (by decide), alGet_alPut_self]

theorem exec_frameStart_due (hscan : s.scanning = true) (hdue : s.due .frame = true) :
    exec .frameStart s = .next s.frameTimed.flip := by
  show execFrameStart s = _
  simp only [execFrameStart, hscan, hdue, Bool.not_true, Bool.or_self, Bool.false_eq_true, if_false]
  rfl

/-- The fields of a flip. -/
def flipKeys : List Nat := [R.rdStatusReady.key 0 0, R.rdFrameShown.key 0 0, R.rdCntCount.key 1 0, R.rdCntCount.key 2 0]

theorem State.flip_frame (s : State) : s.flip = { s with regs := s.flip.regs, rd := s.flip.rd } := by
  unfold State.flip
  split
  · rfl
  · split <;> rfl

theorem State.regsBut_flip (s : State) : s.regsBut s.flip flipKeys := by
  unfold State.flip
  split
  · exact (((s.modRd _).regsBut_refl _).setReg (by decide)).setReg (by decide) |>.setReg (by decide)
  · split
    · exact (s.regsBut_refl _).setReg (by decide)
    · exact s.regsBut_refl _

theorem State.flip_ready {f : RFrame} (h : s.rd.readyF = some f) :
    s.flip.rd = { s.rd with readyF := none, front := some f.no, frontBuf := some f.buffer } ∧ s.flip.reg R.rdStatusReady = 0 ∧
    s.flip.reg R.rdFrameShown = f.no % 2 ^ R.rdFrameShown.width ∧ s.flip.reg R.rdCntCount 1 = (s.reg R.rdCntCount 1 + 1) % 2 ^ 32 := by
  simp only [State.flip, h]
  generalize hu : (s.modRd fun r => { r with readyF := none, front := some f.no, frontBuf := some f.buffer }) = u
  have hcount : u.reg R.rdCntCount 1 = s.reg R.rdCntCount 1 := by subst hu; rfl
  refine ⟨by subst hu; rfl, ?_, ?_, ?_⟩
  · unfold State.bump
    rw [State.reg_setReg_ne _ _ _ _ _ _ _ _ (by decide), State.reg_setReg_ne _ _ _ _ _ _ _ _ (by decide), State.reg_setReg_self]
    rfl
  · unfold State.bump
    rw [State.reg_setReg_ne _ _ _ _ _ _ _ _ (by decide), State.reg_setReg_self]
  · unfold State.bump
    rw [State.reg_setReg_self, State.reg_setReg_ne _ _ _ _ _ _ _ _ (by decide), State.reg_setReg_ne _ _ _ _ _ _ _ _ (by decide), hcount]
    rfl

theorem State.flip_repeats (h : s.rd.readyF = none) : s.flip.rd = s.rd ∧
    s.flip.reg R.rdCntCount 2 = if s.rd.front.isSome then (s.reg R.rdCntCount 2 + 1) % 2 ^ 32 else s.reg R.rdCntCount 2 := by
  simp only [State.flip, h]
  split
  · exact ⟨rfl, s.reg_setReg_self _ _ _ _⟩
  · exact ⟨rfl, rfl⟩

/-! ## Lines (R386, R387, R398) -/

/-- Line n shows pixels of the frame. -/
def State.activeLine (s : State) (n : Nat) : Bool :=
  decide (s.reg R.rdDsiVVsa + s.reg R.rdDsiVVbp ≤ n) &&
    decide (n < s.reg R.rdDsiVVsa + s.reg R.rdDsiVVbp + s.reg R.rdScreenHM1 + 1)

/-- The state in which a line has been sent. -/
def State.lineSent (s : State) (underrun : Bool) : State :=
  let n := s.rd.line
  let top := s.reg R.rdDsiVVsa + s.reg R.rdDsiVVbp
  (s.tick).modRd fun r => { r with
    dsiOut := [((if n = 0 then 0x01 else 0x21 : Nat), ([] : List Byte))] ++
      (if s.activeLine n then [((0x3E : Nat), s.linePixels (n - top) (underrun && s.rd.frontBuf.isSome))] else []) ++
      (if s.flag R.rdCtrlEotp then [((0x08 : Nat), ([] : List Byte))] else []),
    line := n + 1 }

/-- The timer of the line that follows line n. -/
def State.nextLineTimer (s : State) (n : Nat) : State :=
  if n + 1 < s.vtotal then s.arm .line (s.reg R.rdDsiLineLineNs) else s.disarm .line

theorem State.nextLineTimer_frame (s : State) (n : Nat) : s.nextLineTimer n = { s with timers := (s.nextLineTimer n).timers } := by
  unfold State.nextLineTimer
  split <;> rfl

theorem State.alGet_nextLineTimer (s : State) (n : Nat) : alGet (s.nextLineTimer n).timers .line =
    if n + 1 < s.vtotal then some (s.devtime + s.reg R.rdDsiLineLineNs) else none := by
  unfold State.nextLineTimer
  split
  · exact alGet_alPut_self _ _ _
  · exact alGet_alDel _ _

theorem exec_dsiLine_due {underrun : Bool} (hscan : s.scanning = true) (hdue : s.due .line = true) : exec (.dsiLine underrun) s =
    .next ((if underrun && s.activeLine s.rd.line && s.rd.frontBuf.isSome then (s.lineSent underrun).underran
      else s.lineSent underrun).nextLineTimer s.rd.line) := by
  show execDsiLine underrun s = _
  simp only [execDsiLine, hscan, hdue, Bool.not_true, Bool.or_self, Bool.false_eq_true, if_false]
  rfl

/-- The first underrun of a second is counted and raises nothing. -/
theorem State.underran_first (h : s.rd.underruns = []) : s.underran =
    ((s.setReg R.rdStatusUnderrun 1).bump R.rdCntCount 9).modRd fun r => { r with underruns := [s.devtime] } := by
  simp [State.underran, h]

theorem exec_dsiLine_underrun {b : Nat} (hscan : s.scanning = true) (hdue : s.due .line = true)
    (hactive : s.activeLine s.rd.line = true) (hbuf : s.rd.frontBuf = some b) (hnone : s.rd.underruns = []) :
    ∃ t, exec (.dsiLine true) s = .next t ∧ t.reg R.rdStatusUnderrun = 1 ∧
      t.reg R.rdCntCount 9 = (s.reg R.rdCntCount 9 + 1) % 2 ^ 32 ∧ t.rd.underruns = [s.devtime] ∧ t.rd.line = s.rd.line + 1 ∧
      t = { s with regs := t.regs, rd := t.rd, timers := t.timers, freeCtr := s.freeCtr + 1 } ∧
      s.regsBut t [R.rdStatusUnderrun.key 0 0, R.rdCntCount.key 9 0] := by
  have hexec := exec_dsiLine_due (underrun := true) hscan hdue
  rw [if_pos (by simp [hactive, hbuf]), State.underran_first (s := s.lineSent true) hnone] at hexec
  generalize hu : s.lineSent true = u at hexec
  have hregs : u.regs = s.regs := by subst hu; rfl
  have hcount := State.reg_congr hregs R.rdCntCount 9 0
  generalize hv : ((u.setReg R.rdStatusUnderrun 1).bump R.rdCntCount 9).modRd (fun r => { r with underruns := [u.devtime] }) = v at hexec
  have hvregs : v.regs = ((u.setReg R.rdStatusUnderrun 1).bump R.rdCntCount 9).regs := by subst hv; rfl
  have hbut : s.regsBut v [R.rdStatusUnderrun.key 0 0, R.rdCntCount.key 9 0] := fun r i j hk => by
    rw [State.reg_congr hvregs, ← State.reg_congr hregs]
    exact ((u.regsBut_refl _).setReg (by decide)).setReg (by decide) r i j hk
  have hframe := v.nextLineTimer_frame s.rd.line
  generalize v.nextLineTimer s.rd.line = t at *
  have htregs : t.regs = v.regs := by rw [hframe]
  refine ⟨t, hexec, ?_, ?_, by rw [hframe, ← hv, ← hu]; rfl, by rw [hframe, ← hv, ← hu]; rfl, by rw [hframe, ← hv, ← hu]; rfl,
    fun r i j hk => (State.reg_congr htregs r i j).trans (hbut r i j hk)⟩
  · rw [State.reg_congr (htregs.trans hvregs)]
    unfold State.bump
    rw [State.reg_setReg_ne _ _ _ _ _ _ _ _ (by decide), State.reg_setReg_self]
    rfl
  · rw [State.reg_congr (htregs.trans hvregs)]
    unfold State.bump
    rw [State.reg_setReg_self, State.reg_setReg_ne _ _ _ _ _ _ _ _ (by decide), hcount]
    rfl

theorem exec_scan_off (h : s.scanning = false) (u : Bool) : exec .frameStart s = .next s ∧ exec (.dsiLine u) s = .next s := by
  refine ⟨?_, ?_⟩
  · show execFrameStart s = _
    simp [execFrameStart, h]
  · show execDsiLine u s = _
    simp [execDsiLine, h]

/-! ## Video mode (R386, R387) -/

theorem exec_video_starts (hon : s.domOn 8 = true) (hidle : s.flag R.rdStatusVideoOn = false) (hok : s.videoOk = true) :
    exec (.video true) s = .next (((s.setReg R.rdCtrlVideo 1).setReg R.rdStatusVideoOn 1).arm .frame 0) := by
  show execVideo true s = _
  simp [execVideo, hon, hidle, hok]

theorem exec_video_refused (hon : s.domOn 8 = true) (hidle : s.flag R.rdStatusVideoOn = false) (hok : s.videoOk = false) :
    exec (.video true) s = .next (s.setReg R.rdStatusCfgErr 1) := by
  show execVideo true s = _
  simp [execVideo, hon, hidle, hok]

theorem exec_video_ends (hon : s.domOn 8 = true) : exec (.video false) s = .next
    (((((s.setReg R.rdCtrlVideo 0).setReg R.rdStatusVideoOn 0).disarm .frame).disarm .line).modRd fun r => { r with dsiOut := [] }) := by
  show execVideo false s = _
  simp [execVideo, hon]

theorem exec_video_off {on : Bool} (hon : s.domOn 8 = false) : exec (.video on) s = .next s := by
  show execVideo on s = _
  simp [execVideo, hon]

/-- VIDEO and its view both take a value. -/
theorem State.videoShown (s : State) {v : Nat} (hv : v < 2) {t : State}
    (ht : t.regs = ((s.setReg R.rdCtrlVideo v).setReg R.rdStatusVideoOn v).regs) :
    t.reg R.rdCtrlVideo = v ∧ t.reg R.rdStatusVideoOn = v ∧ s.regsBut t [R.rdCtrlVideo.key 0 0, R.rdStatusVideoOn.key 0 0] := by
  have hmod : v % 2 ^ 1 = v := Nat.mod_eq_of_lt hv
  refine ⟨?_, ?_, fun r i j hk => ?_⟩
  · rw [State.reg_congr ht, State.reg_setReg_ne _ _ _ _ _ _ _ _ (by decide), State.reg_setReg_self]
    exact hmod
  · rw [State.reg_congr ht, State.reg_setReg_self]
    exact hmod
  · rw [State.reg_congr ht]
    exact ((s.regsBut_refl _).setReg (by simp)).setReg (by simp) r i j hk

/-! ## DCS writes (R386, R399) -/

theorem State.dcsWrite_sent {dt : Nat} {data rest : List Byte} (hon : s.domOn 8 = true) (hrun : s.inRun = true)
    (hvideo : s.flag R.rdCtrlVideo = false) (hdt : s.reg R.rdDcsHdrDt = dt) : s.dcsWrite dt data rest =
      (s.setReg R.rdDcsHdrGo (s.reg R.rdDcsHdrGo ||| 1)).modRd fun r => { r with dsiOut := [(dt, data)], fifo := rest } := by
  simp [State.dcsWrite, hon, hrun, hvideo, hdt, State.setCmd, State.alive_of_inRun hrun]

theorem State.dcsWrite_idle {dt : Nat} {data rest : List Byte} (h : s.inRun = false ∨ s.flag R.rdCtrlVideo = true) :
    s.dcsWrite dt data rest = s := by
  unfold State.dcsWrite
  rw [if_pos]
  rcases h with h | h <;> simp [h]

theorem exec_dcsLongWrite (s : State) : exec .dcsLongWrite s =
    .next ((s.dcsWrite 0x39 (s.rd.fifo.take (s.reg R.rdDcsHdrWc) ++
      (List.range (s.reg R.rdDcsHdrWc - (s.rd.fifo.take (s.reg R.rdDcsHdrWc)).length)).map fun i => Config.freeByte s.freeCtr i)
      (s.rd.fifo.drop (s.reg R.rdDcsHdrWc))).tick) := rfl

/-- GO reads 1 in a state that a write was sent from. -/
theorem State.dcsGo (s : State) {t : State} (ht : t.regs = (s.setReg R.rdDcsHdrGo (s.reg R.rdDcsHdrGo ||| 1)).regs) :
    t.reg R.rdDcsHdrGo = 1 ∧ s.regsBut t [R.rdDcsHdrGo.key 0 0] := by
  have hodd : (s.reg R.rdDcsHdrGo ||| 1) % 2 ^ 1 = 1 := by simp
  refine ⟨?_, fun r i j hk => ?_⟩
  · rw [State.reg_congr ht, State.reg_setReg_self]
    exact hodd
  · rw [State.reg_congr ht]
    exact s.regsBut_setReg _ _ _ _ r i j hk

end

/-- Settles O49: each command of the port by the state it leaves where its condition holds. -/
theorem displayPort : Obligations.DisplayPort := by
  refine ⟨fun s hscan hdue => ?_, fun n y s hscan hdue hn hy => ?_, fun n y b s hscan hdue hn hy htop hin hbuf hnone => ?_,
    fun u s h => exec_scan_off h u, fun s hon hidle hok => ?_, fun s hon hidle hok => ?_, fun s hon => ?_,
    fun on s hon => exec_video_off hon, fun s hon hrun hvideo => ⟨fun hdt => ?_, fun hdt => ?_, fun hdt hwc => ?_⟩, fun s h => ?_⟩
  · obtain ⟨hframe, hline⟩ := s.timers_frameTimed
    have hflip := s.frameTimed.flip_frame
    refine ⟨_, exec_frameStart_due hscan hdue, ?_, ?_, ?_, fun f hf => State.flip_ready (s := s.frameTimed) hf,
      fun hf => State.flip_repeats (s := s.frameTimed) hf, ?_, s.frameTimed.regsBut_flip⟩
    · cases hf : s.rd.readyF with
      | some f => rw [(State.flip_ready (s := s.frameTimed) hf).1]; rfl
      | none => rw [(State.flip_repeats (s := s.frameTimed) hf).1]; rfl
    · rw [hflip]
      exact hframe
    · rw [hflip]
      exact hline
    · rw [hflip]
      rfl
  · subst hn hy
    have hexec := exec_dsiLine_due (underrun := false) hscan hdue
    have hframe := (s.lineSent false).nextLineTimer_frame s.rd.line
    refine ⟨_, hexec, ?_, (s.lineSent false).alGet_nextLineTimer s.rd.line, ?_⟩
    · rw [if_neg (by simp), hframe]
      simp only [State.lineSent, State.activeLine, Bool.false_and, Bool.and_eq_true, decide_eq_true_eq]
      rfl
    · rw [if_neg (by simp), hframe]
      rfl
  · subst hn hy
    exact exec_dsiLine_underrun hscan hdue (by simp [State.activeLine, htop, hin]) hbuf hnone
  · obtain ⟨hvideo, hshown, hregs⟩ := s.videoShown (v := 1) (by decide)
      (t := ((s.setReg R.rdCtrlVideo 1).setReg R.rdStatusVideoOn 1).arm .frame 0) rfl
    exact ⟨_, exec_video_starts hon hidle hok, hvideo, hshown, alGet_alPut_self _ _ _, rfl, hregs⟩
  · exact ⟨_, exec_video_refused hon hidle hok, State.reg_setReg_self _ _ _ _ _, rfl, s.regsBut_setReg _ _ _ _⟩
  · obtain ⟨hvideo, hshown, hregs⟩ := s.videoShown (v := 0) (by decide) (t := ((((s.setReg R.rdCtrlVideo 0).setReg R.rdStatusVideoOn
      0).disarm .frame).disarm .line).modRd fun r => { r with dsiOut := [] }) rfl
    refine ⟨_, exec_video_ends hon, hvideo, hshown, State.armed_of_alGet_none ?_, State.armed_disarm _ _, rfl, rfl, hregs⟩
    show alGet (alDel (alDel _ _) _) _ = _
    rw [alGet_alDel_ne _ (by decide), alGet_alDel]
  · obtain ⟨hgo, hregs⟩ := s.dcsGo (t := s.dcsWrite 0x05 [BitVec.ofNat 8 (s.reg R.rdDcsHdrWc)] s.rd.fifo)
      (by rw [State.dcsWrite_sent hon hrun hvideo hdt]; rfl)
    exact ⟨_, rfl, hgo, hregs, by rw [State.dcsWrite_sent hon hrun hvideo hdt]; rfl⟩
  · obtain ⟨hgo, hregs⟩ := s.dcsGo (t := s.dcsWrite 0x15 (leBytes 2 (s.reg R.rdDcsHdrWc)) s.rd.fifo)
      (by rw [State.dcsWrite_sent hon hrun hvideo hdt]; rfl)
    exact ⟨_, rfl, hgo, hregs, by rw [State.dcsWrite_sent hon hrun hvideo hdt]; rfl⟩
  · have hfree : s.reg R.rdDcsHdrWc - (s.rd.fifo.take (s.reg R.rdDcsHdrWc)).length = 0 := by simp [hwc]
    have hexec := exec_dcsLongWrite s
    rw [State.dcsWrite_sent hon hrun hvideo hdt, hfree, List.range_zero, List.map_nil, List.append_nil] at hexec
    obtain ⟨hgo, hregs⟩ := s.dcsGo (t := ((s.setReg R.rdDcsHdrGo (s.reg R.rdDcsHdrGo ||| 1)).modRd fun r => { r with
      dsiOut := [(0x39, s.rd.fifo.take (s.reg R.rdDcsHdrWc))], fifo := s.rd.fifo.drop (s.reg R.rdDcsHdrWc) }).tick) rfl
    exact ⟨_, hexec, rfl, hgo, hregs, rfl⟩
  · refine ⟨congrArg _ (State.dcsWrite_idle h), congrArg _ (State.dcsWrite_idle h), _, exec_dcsLongWrite s, ?_⟩
    rw [State.dcsWrite_idle h]
    rfl

end Sys2Proof.Machine
end

section
/-! Pairing, births, the states of a track and its verdicts (R348, R349, R352, R353). -/
namespace Sys2Proof.Machine

/-! ## Pairing (R349) -/

/-- No two measurements of one source are paired with one track. -/
def onePerSource (ms : List Measure) : Prop :=
  ∀ (i j k : Nat) (m m' : Measure), ms[i]? = some m → ms[j]? = some m' → m.paired = some k → m'.paired = some k → m.src = m'.src → i = j

/-- One step of pairing: the measurement takes its track unless it is paired or the track has one of its source. -/
def pairStep (ms : List Measure) (p : Pairing) : List Measure :=
  match ms[p.idx]? with
  | none => ms
  | some m =>
    if m.paired.isSome || ms.any fun k => k.paired == some p.slot && k.src == m.src then ms
    else ms.set p.idx { m with paired := some p.slot }

theorem pairUp_eq_foldl (ms : List Measure) (ps : List Pairing) : pairUp ms ps = ps.foldl pairStep ms := rfl

theorem onePerSource_of_unpaired {ms : List Measure} (h : ∀ x ∈ ms, x.paired = none) : onePerSource ms := by
  intro i j k m m' hi _ hm
  rw [h m (List.mem_of_getElem? hi)] at hm
  cases hm

theorem onePerSource_pairStep {ms : List Measure} (h : onePerSource ms) (p : Pairing) : onePerSource (pairStep ms p) := by
  unfold pairStep
  split
  · exact h
  · next m hm =>
    split
    · exact h
    · next hfree =>
      simp only [Bool.or_eq_true, List.any_eq_true, Bool.and_eq_true, beq_iff_eq, not_or, not_exists, not_and] at hfree
      have hold {i k : Nat} {x : Measure} (hx : ms[i]? = some x) (hk : x.paired = some k) (hs : x.src = m.src) : k ≠ p.slot :=
        fun he => hfree.2 x (List.mem_of_getElem? hx) (he ▸ hk) hs
      intro i j k x y hi hj hx hy hsrc
      rw [List.getElem?_set] at hi hj
      split at hi
      · next hpi =>
        split at hj
        · next hpj => exact hpi.symm.trans hpj
        · split at hi
          · obtain rfl : { m with paired := some p.slot } = x := Option.some.inj hi
            exact absurd (Option.some.inj hx).symm (hold hj hy hsrc.symm)
          · cases hi
      · split at hj
        · split at hj
          · obtain rfl : { m with paired := some p.slot } = y := Option.some.inj hj
            exact absurd (Option.some.inj hy).symm (hold hi hx hsrc)
          · cases hj
        · exact h i j k x y hi hj hx hy hsrc

theorem onePerSource_pairUp {ms : List Measure} (h : onePerSource ms) (ps : List Pairing) : onePerSource (pairUp ms ps) := by
  rw [pairUp_eq_foldl]
  induction ps generalizing ms with
  | nil => exact h
  | cons p ps ih => exact ih (onePerSource_pairStep h p)

/-! ## Births (R348, R349) -/

section
variable {s : State}

theorem State.freeSlot_spec {k : Nat} (h : s.freeSlot = some k) :
    (∀ e ∈ s.fu.tracks, e.slot ≠ k) ∧ ∀ n, n < k → ∃ e ∈ s.fu.tracks, e.slot = n := by
  obtain ⟨hfree, before, after, hrange, htaken⟩ := List.find?_eq_some_iff_append.mp h
  refine ⟨by simpa using hfree, fun n hn => ?_⟩
  have hk : before.length = k := by
    have hget : (List.range 4096)[before.length]? = some k := by rw [hrange]; simp
    obtain ⟨_, hval⟩ := List.getElem?_eq_some_iff.mp hget
    simpa using hval
  have hmem : n ∈ before := by
    have hget : (List.range 4096)[n]? = before[n]? := by rw [hrange, List.getElem?_append_left (hk ▸ hn)]
    have hlen : before.length ≤ 4096 := by
      have := congrArg List.length hrange
      simp only [List.length_range, List.length_append, List.length_cons] at this
      omega
    rw [List.getElem?_range (by omega)] at hget
    exact List.mem_of_getElem? hget.symm
  simpa using htaken n hmem

/-- The track of a birth in a slot. -/
def State.bornTrack (s : State) (k : Nat) (x y : Int) (src oldest : Nat) : Track :=
  { slot := k, gen := ((alGet s.fu.gens k).getD 0 + 1) % 16, x := x, y := y, at_ := s.fu.tf, src := src, oldest := oldest,
    validUs := s.fu.tf }

theorem State.birth_of_free {k : Nat} (h : s.freeSlot = some k) (x y : Int) (src oldest : Nat) : s.birth x y src oldest =
    (some k, (s.modFu fun u => { u with
      tracks := u.tracks ++ [s.bornTrack k x y src oldest],
      gens := alPut u.gens k (((alGet s.fu.gens k).getD 0 + 1) % 16) }).bump R.fuCntCount 2) := by
  unfold State.birth State.bornTrack
  rw [h]

/-! ## The states of a track (R352) -/

section
variable {t : Track}

/-- The hits among the counted cycles that the rules look at. -/
def State.hitsOf (s : State) (t : Track) : Nat :=
  ((t.hist.drop (t.hist.length - s.reg R.fuTrackN)).filter fun b => decide (b = true)).length

/-- The misses that end a track. -/
def State.missLimit (s : State) (t : Track) : Nat := if t.hazard then s.reg R.fuTrackHazCoast else s.reg R.fuTrackCoastMax

theorem State.nextState_eq (h : t.state ≠ .deleted) : s.nextState t =
    if t.state = .tentative && decide (s.hitsOf t < s.reg R.fuTrackM) && decide (s.reg R.fuTrackN ≤ t.counted) then
      { t with state := .deleted, cause := 1 }
    else if t.missNow && decide (s.missLimit t ≤ t.misses) then { t with state := .deleted, cause := 0 }
    else if t.off then { t with state := .deleted, cause := 2 }
    else if t.state = .tentative && decide (s.reg R.fuTrackM ≤ s.hitsOf t) then { t with state := .confirmed }
    else if t.state = .confirmed && t.missNow then { t with state := .coasting }
    else if t.state = .coasting && t.hitNow then { t with state := .confirmed } else t := by
  have hlive : (!t.live) = false := by simp [Track.live, h]
  unfold State.nextState
  simp only [hlive, Bool.false_eq_true, if_false]
  rfl

end

/-! ## Verdicts (R353) -/

theorem State.applyVerdict_of_track {w : Cell64} (hk : bits w.toNat 63 51 < 4096)
    (hlive : (s.fu.tracks.any fun t => t.live && t.slot == bits w.toNat 63 51) = true) :
    s.applyVerdict w = s.mapTracks fun x => if x.slot ≠ bits w.toNat 63 51 then x else
      if bits w.toNat 36 34 = 0 then { x with cls := bits w.toNat 50 45, conf := bits w.toNat 44 37, hazard := false }
      else if bits w.toNat 36 34 = 2 then { x with hazard := true } else x := by
  simp only [State.applyVerdict, hk, if_true, hlive]

end

/-- Settles O45: pairing keeps one measurement of a source to a track at each step; a birth, a state change and a verdict by their
own equations. -/
theorem trackRules : Obligations.TrackRules := by
  refine ⟨fun gate k i j ms ts m m' hnone => ?_, fun x y src oldest k s hk => ?_, fun t hits limit s hstate hhits hlimit => ?_,
    fun w k s hk hlt hlive => ?_⟩
  · exact onePerSource_pairUp (onePerSource_of_unpaired hnone) _ i j k m m'
  · obtain ⟨hfree, hlow⟩ := State.freeSlot_spec hk
    exact ⟨_, State.birth_of_free hk x y src oldest,
      ⟨_, rfl, rfl, rfl, rfl, rfl, rfl, rfl, rfl, rfl, rfl, rfl, rfl, rfl, rfl, rfl⟩, hfree, hlow, State.reg_setReg_self _ _ _ _ _,
      rfl, (s.modFu _).regsBut_setReg _ _ _ _⟩
  · obtain rfl : hits = s.hitsOf t := hhits
    obtain rfl : limit = s.missLimit t := hlimit
    rw [State.nextState_eq hstate]
    refine ⟨fun hten hfew hn => ?_, fun hten hmiss hlim => ?_, fun hten hmiss hoff => ?_, fun hten hm hmiss hoff => ?_,
      fun hconf hmiss hlim hoff => ?_, fun hcoast hmiss hhit hoff => ?_⟩
    · simp [hten, hfew, hn]
    · simp [hten, hmiss, hlim]
    · simp [hten, hmiss, hoff]
    · simp [hten, hm, hmiss, hoff]
    · simp [hconf, hmiss, hlim, hoff]
    · simp [hcoast, hmiss, hhit, hoff]
  · subst hk
    refine ⟨_, rfl, ?_, ?_⟩
    · rw [State.applyVerdict_of_track hlt hlive]
      rfl
    · rw [State.applyVerdict_of_track hlt hlive]
      rfl

end Sys2Proof.Machine
end

section
/-! Control entries of the span links (R405, R410 to R412, R414, R415, R418, R421). -/
namespace Sys2Proof.Machine

section
variable {s t : State}

/-! ## What a raise leaves of the links (R407) -/

/-- The links' state differs at most in its items and incoming streams. -/
def State.linksKept (s t : State) : Prop := t.sl = { s.sl with items := t.sl.items, rx := t.sl.rx }

theorem State.linksKept_refl (s : State) : s.linksKept s := rfl

theorem State.linksKept.trans {u : State} (h : s.linksKept t) (h' : t.linksKept u) : s.linksKept u := by
  unfold State.linksKept at *
  rw [h', h]

theorem State.linksKept.of_sl (h : t.sl = s.sl) : s.linksKept t := by
  unfold State.linksKept
  rw [h]

theorem State.linksKept.bindings (h : s.linksKept t) : t.sl.bindings = s.sl.bindings := by
  rw [State.linksKept] at h
  rw [h]

theorem State.linksKept.removed (h : s.linksKept t) : t.sl.removed = s.sl.removed := by
  rw [State.linksKept] at h
  rw [h]

theorem State.linksKept.sides (h : s.linksKept t) : t.sl.sides = s.sl.sides := by
  rw [State.linksKept] at h
  rw [h]

theorem State.linksKept.linksDown (h : s.linksKept t) : t.sl.linksDown = s.sl.linksDown := by
  rw [State.linksKept] at h
  rw [h]

theorem State.onlyPushed.sl (h : s.onlyPushed t) : t.sl = s.sl := by
  rw [State.onlyPushed] at h
  rw [h]

theorem State.linksKept.setReg (h : s.linksKept t) {r : Row} {v i j : Nat} : s.linksKept (t.setReg r v i j) := h

theorem State.linksKept.arm (h : s.linksKept t) {k : Timer} {ns : Nat} : s.linksKept (t.arm k ns) := h

theorem State.linksKept_stopWork (s : State) : s.linksKept s.stopWork := by
  unfold State.stopWork
  extract_lets a b c d e f g k l m n o p
  have ha : s.linksKept a := .of_sl s.onlyPushed_refl.modPal.refreshXoff.sl
  have hf : s.linksKept f := ha
  have hg : s.linksKept g := foldlKeeps (P := s.linksKept) (fun _ _ hx => hx.setReg) _ hf
  exact hg.trans rfl

theorem State.linksKept_quiesce (s : State) (c a b : Nat) : s.linksKept (s.quiesce c a b) := by
  unfold State.quiesce
  split
  · exact s.linksKept_refl
  · have hcause : s.onlyPushed ((s.setReg R.lgStatusCause c).setReg R.lgStatusQuiescing 1) := s.onlyPushed_refl.setReg.setReg
    exact ((State.linksKept.of_sl hcause.setFaultN.alarm.quiesceReports.sl).trans (State.linksKept_stopWork _)).arm

theorem State.linksKept_raise (s : State) (off bit sev block : Nat) : s.linksKept (s.raise off bit sev block) := by
  obtain ⟨u, hu, -, heq | heq⟩ := s.raise_pushed_or_storm off bit sev block
  · exact heq ▸ .of_sl hu.sl
  · exact heq ▸ (State.linksKept.of_sl hu.sl).trans (State.linksKept_quiesce (u.bump R.lgCntCount 6) _ _ _)

/-! ## What the look at the links leaves alone (R334, R417) -/

/-- The fields that a look at the links writes: those of a raise, and the two sets of chips. -/
def reachKey (k : Nat) : Prop := k = R.slReachReach.key 0 0 ∨ k = R.xrStatusUnreach.key 0 0 ∨ raiseKey k

theorem State.refreshReach_keeps (s : State) : s.linksKept s.refreshReach ∧ s.regsOutside reachKey s.refreshReach := by
  have hstart (v w : Nat) : s.regsOutside reachKey ((s.setReg R.slReachReach v).setReg R.xrStatusUnreach w) :=
    ((s.regsOutside_refl reachKey).setReg (.inl rfl)).setReg (.inr (.inl rfl))
  refine foldlKeeps (P := fun t => s.linksKept t ∧ s.regsOutside reachKey t) (fun t c ⟨hb, hr⟩ => ?_) _ ⟨rfl, hstart _ _⟩
  have hraise := State.regsOutside_raise t 0xF00004 c 2 0x0D
  exact ⟨hb.trans (State.linksKept_raise ..), fun r i j hk => (hraise r i j fun h => hk (.inr (.inr h))).trans (hr r i j hk)⟩

/-- A field that no fault writes and no look at the links keeps its value. -/
theorem not_reachKey {k : Nat} (h1 : k ∉ faultKeys) (h5 : k % 8 ≠ 5)
    (h2 : k ∉ [R.slReachReach.key 0 0, R.xrStatusUnreach.key 0 0, R.lgStatusCause.key 0 0]) : ¬ reachKey k := by
  simp only [List.mem_cons, List.not_mem_nil, or_false, not_or] at h2
  obtain ⟨hreach, hunreach, hcause⟩ := h2
  rintro (h | h | h | h)
  · exact hreach h
  · exact hunreach h
  · exact hcause h
  · exact not_faultKey h1 h5 h

/-- The rows of SL_TX that a control entry looks at. -/
theorem not_reachKey_slTx : ∀ k < 32, ∀ r ∈ [R.slTxEn, R.slTxDst, R.slTxDstQid], ¬ reachKey (r.key k 0) := by
  have hkeys : ∀ k < 32, ∀ r ∈ [R.slTxEn, R.slTxDst, R.slTxDstQid], r.key k 0 ∉ faultKeys ∧ r.key k 0 % 8 ≠ 5 ∧
      r.key k 0 ∉ [R.slReachReach.key 0 0, R.xrStatusUnreach.key 0 0, R.lgStatusCause.key 0 0] := by decide
  intro k hk r hr
  obtain ⟨h1, h5, h2⟩ := hkeys k hk r hr
  exact not_reachKey h1 h5 h2

/-- The bindings to a queue follow from SL_TX and the bindings that drain. -/
theorem State.bindingTo_congr (hremoved : t.sl.removed = s.sl.removed)
    (hregs : ∀ k < 32, ∀ r ∈ [R.slTxEn, R.slTxDst, R.slTxDstQid], t.reg r k = s.reg r k) (src q : Nat) :
    t.bindingTo src q = s.bindingTo src q := by
  have hold (k : Nat) : t.oldBinding k = s.oldBinding k := by unfold State.oldBinding; rw [hremoved]
  have hcount : t.txCount = s.txCount := by unfold State.txCount; rw [hremoved]
  unfold State.bindingTo
  rw [hcount]
  refine congrArg (List.find? · (List.range s.txCount)) (funext fun k => ?_)
  by_cases hk : k < 32
  · have hen : t.reg R.slTxEn k = s.reg R.slTxEn k := hregs k hk _ (by simp)
    have hdst : t.reg R.slTxDst k = s.reg R.slTxDst k := hregs k hk _ (by simp)
    have hqid : t.reg R.slTxDstQid k = s.reg R.slTxDstQid k := hregs k hk _ (by simp)
    simp only [State.txOn, State.txDst, State.txDstQid, State.flag, hold, hen, hdst, hqid]
  · cases ho : s.oldBinding k with
    | none => simp [State.txOn, hold, ho, hk]
    | some o => simp [State.txOn, State.txDst, State.txDstQid, hold, ho]

theorem State.bindingTo_refreshReach (s : State) (src q : Nat) : s.refreshReach.bindingTo src q = s.bindingTo src q := by
  obtain ⟨hb, hr⟩ := s.refreshReach_keeps
  exact State.bindingTo_congr hb.removed (fun k hk r hm => hr r k 0 (not_reachKey_slTx k hk r hm)) src q

/-! ## One binding (R407) -/

theorem State.binding_congr (h : t.sl.bindings = s.sl.bindings) (k : Nat) : t.binding k = s.binding k := by
  unfold State.binding
  rw [h]

theorem State.binding_k (s : State) (k : Nat) : (s.binding k).k = k := by
  unfold State.binding
  cases h : s.sl.bindings.find? (·.k = k) with
  | none => rfl
  | some b => exact of_decide_eq_true (List.find?_some h :)

theorem State.binding_modBinding_self (s : State) {k : Nat} {f : Binding → Binding} (hf : (f (s.binding k)).k = k) :
    (s.modBinding k f).binding k = f (s.binding k) := by
  have hnone : (s.sl.bindings.filter (·.k ≠ k)).find? (·.k = k) = none := by simp
  show (((s.sl.bindings.filter (·.k ≠ k)) ++ [f (s.binding k)]).find? (·.k = k)).getD { k := k } = _
  rw [List.find?_append, hnone, List.find?_cons_of_pos (by simpa using hf)]
  rfl

theorem State.binding_modBinding_ne (s : State) {k m : Nat} {f : Binding → Binding} (hf : (f (s.binding k)).k = k) (hm : m ≠ k) :
    (s.modBinding k f).binding m = s.binding m := by
  have hrest : (s.sl.bindings.filter (·.k ≠ k)).find? (·.k = m) = s.sl.bindings.find? (·.k = m) := by
    rw [List.find?_filter]
    refine congrArg (List.find? · _) (funext fun b => ?_)
    by_cases hb : b.k = m <;> simp [hb, hm]
  have hlast : [f (s.binding k)].find? (·.k = m) = none := by
    simp [hf, Ne.symm hm]
  show (((s.sl.bindings.filter (·.k ≠ k)) ++ [f (s.binding k)]).find? (·.k = m)).getD { k := m } = _
  rw [List.find?_append, hrest, hlast, Option.or_none]
  rfl

/-! ## The front entry -/

theorem State.takeEntry_of_front {kind side src : Nat} {c : Cell64} {r : List (Nat × Nat × Cell64)}
    (h : s.sl.ctrlIn = (side, src, c) :: r) (hk : bits c.toNat 3 0 = kind) :
    s.takeEntry kind = (some (side, src, c.toNat), { s with sl := { s.sl with ctrlIn := r } }) := by
  unfold State.takeEntry
  rw [h]
  exact if_pos hk

theorem State.takeEntry_of_other {kind : Nat} (h : ∀ e, s.sl.ctrlIn.head? = some e → bits e.2.2.toNat 3 0 ≠ kind) :
    s.takeEntry kind = (none, s) := by
  unfold State.takeEntry
  split
  · rfl
  next e t he => exact if_neg (h e (by rw [he]; rfl))

end

/-! ## The commands -/

theorem exec_entry_of_other {n : Nat} {f : Instr} {s : State}
    (hf : (n, f) ∈ [(1, Instr.credit), (2, .grant), (3, .delivered), (4, .notice)])
    (h : ∀ e, s.sl.ctrlIn.head? = some e → bits e.2.2.toNat 3 0 ≠ n) : exec f s = .next s := by
  have htake := State.takeEntry_of_other h
  simp only [List.mem_cons, Prod.mk.injEq, List.not_mem_nil, or_false] at hf
  obtain ⟨rfl, rfl⟩ | ⟨rfl, rfl⟩ | ⟨rfl, rfl⟩ | ⟨rfl, rfl⟩ := hf
  · show execCredit s = _
    unfold execCredit; rw [htake]
  · show execGrant s = _
    unfold execGrant; rw [htake]
  · show execDelivered s = _
    unfold execDelivered; rw [htake]
  · show execNotice s = _
    unfold execNotice; rw [htake]

/-- What CREDIT does to a binding (R414, R420). -/
def Binding.credited (v : Nat) (b : Binding) : Binding :=
  if bitAt v 29 then { b with esc := 8 } else { b with general := b.general + (bits v 28 13 : Nat), sent := b.sent - (bits v 28 13 : Nat) }

theorem Binding.credited_k (v : Nat) (b : Binding) : (b.credited v).k = b.k := by
  unfold Binding.credited
  split <;> rfl

section
variable {side src : Nat} {c : Cell64} {r : List (Nat × Nat × Cell64)} {s : State}

theorem exec_credit_of_front (h : s.sl.ctrlIn = (side, src, c) :: r) (hk : bits c.toNat 3 0 = 1) :
    exec .credit s = .next (match ({ s with sl := { s.sl with ctrlIn := r } } : State).bindingTo src (bits c.toNat 12 4) with
      | none => { s with sl := { s.sl with ctrlIn := r } }
      | some k => ({ s with sl := { s.sl with ctrlIn := r } } : State).modBinding k (Binding.credited c.toNat)) := by
  show execCredit s = _
  unfold execCredit
  rw [State.takeEntry_of_front h hk]
  rfl

theorem exec_grant_of_front (h : s.sl.ctrlIn = (side, src, c) :: r) (hk : bits c.toNat 3 0 = 2) {u : State}
    (hu : u = { s with sl := { s.sl with ctrlIn := r, linksDown := s.sl.linksDown.filter fun l =>
        !(([s.ringLink src 0, s.ringLink src 1].filter fun l => l != s.ringLink s.chip 0 && l != s.ringLink s.chip 1).contains l) } }) :
    exec .grant s = .next (match u.refreshReach.bindingTo src (bits c.toNat 12 4) with
      | none => u.refreshReach
      | some k => u.refreshReach.modBinding k fun b => { b with general := (bits c.toNat 28 13 : Int) - b.sent }) := by
  show execGrant s = _
  unfold execGrant
  rw [State.takeEntry_of_front h hk, hu]
  rfl

theorem exec_delivered_of_front (h : s.sl.ctrlIn = (side, src, c) :: r) (hk : bits c.toNat 3 0 = 3) {u : State}
    (hu : u = { s with sl := { s.sl with ctrlIn := r } }) :
    exec .delivered s = .next (match s.sl.items.find? fun x => x.dst == src && x.token == bitAt c.toNat 4 && x.iseq == bits c.toNat 28 5 with
      | none => u.bump R.slSCntCount side 12
      | some x =>
        let u := (u.modSl fun y => { y with items := y.items.filter fun i => i.item != x.item }).disarm (.deliv x.item)
        if x.token then u else u.endTaken 0x0D x.item false) := by
  show execDelivered s = _
  unfold execDelivered
  rw [State.takeEntry_of_front h hk, hu] <;> rfl

theorem State.exhaust_nil (s : State) (side flags : Nat) : s.exhaust [] side flags = s := rfl

theorem State.abortRx_of_nil (hrx : s.sl.rx = []) (hit : Nat → RxItem → Bool) (side flags : Nat) : s.abortRx hit side flags = s := by
  unfold State.abortRx
  rw [hrx]
  rfl

/-- The links that are down, with one more. -/
def withLink (l : List Nat) (link : Nat) : List Nat := if l.contains link then l else l ++ [link]

theorem mem_withLink {l : List Nat} {link m : Nat} : m ∈ withLink l link ↔ m ∈ l ∨ m = link := by
  unfold withLink
  split
  next h =>
    have hmem : link ∈ l := by simpa using h
    exact ⟨.inl, fun hm => hm.elim id fun he => he ▸ hmem⟩
  next => simp

theorem exec_notice_of_front (h : s.sl.ctrlIn = (side, src, c) :: r) (hk : bits c.toNat 3 0 = 4) {link : Nat}
    (hlink : link = s.ringLink (bits c.toNat 5 4) (bits c.toNat 6 6)) (hrx : s.sl.rx = []) (hitems : ∀ x ∈ s.sl.items, link ∉ x.links) :
    exec .notice s =
      .next ({ s with sl := { s.sl with ctrlIn := r, linksDown := withLink s.sl.linksDown link } } : State).refreshReach := by
  have hnone : (s.sl.items.filter fun x => x.links.contains link) = [] := by
    simpa [List.filter_eq_nil_iff] using hitems
  show execNotice s = _
  unfold execNotice
  rw [State.takeEntry_of_front h hk]
  have hl : ({ s with sl := { s.sl with ctrlIn := r } } : State).ringLink (bits c.toNat 5 4) (bits c.toNat 6 6) = link := hlink.symm
  dsimp only
  rw [hl]
  show Host.Outcome.next ((State.abortRx (State.exhaust _ (s.sl.items.filter fun x => x.links.contains link) _ _) _ _ _).refreshReach) = _
  rw [hnone, State.exhaust_nil]
  exact congrArg (fun t : State => Host.Outcome.next t.refreshReach) (State.abortRx_of_nil (by exact hrx) _ _ _)

end

/-- Settles O52. -/
theorem spanControl : Obligations.SpanControl := by
  unfold Obligations.SpanControl
  refine ⟨?other, ?credit, ?creditNone, ?grant, ?delivered, ?deliveredNone, ?notice, ?tmo, ?tmoEarly⟩
  case other => exact fun n f s hf h => exec_entry_of_other hf h
  case credit =>
    rintro side src _ k c r s h rfl hkind hto
    have hf : (Binding.credited c.toNat (s.binding k)).k = k := (Binding.credited_k _ _).trans (s.binding_k k)
    have hexec := exec_credit_of_front h hkind
    have hto' : ({ s with sl := { s.sl with ctrlIn := r } } : State).bindingTo src (bits c.toNat 12 4) = some k := hto
    rw [hto'] at hexec
    exact ⟨_, hexec, State.binding_modBinding_self (s := { s with sl := { s.sl with ctrlIn := r } }) hf,
      fun m hm => State.binding_modBinding_ne (s := { s with sl := { s.sl with ctrlIn := r } }) hf hm, rfl⟩
  case creditNone =>
    rintro side src _ c r s h rfl hkind hto
    have hto' : ({ s with sl := { s.sl with ctrlIn := r } } : State).bindingTo src (bits c.toNat 12 4) = none := hto
    rw [exec_credit_of_front h hkind, hto']
  case grant =>
    rintro side src _ k c r s h rfl hkind hto -
    obtain ⟨u, hu⟩ : ∃ u : State, u = { s with sl := { s.sl with ctrlIn := r, linksDown := s.sl.linksDown.filter fun l =>
        !(([s.ringLink src 0, s.ringLink src 1].filter fun l => l != s.ringLink s.chip 0 && l != s.ringLink s.chip 1).contains l) } } :=
      ⟨_, rfl⟩
    have hto' : u.refreshReach.bindingTo src (bits c.toNat 12 4) = some k := by
      rw [State.bindingTo_refreshReach, hu]
      exact hto
    have hbinding (m : Nat) : u.refreshReach.binding m = s.binding m :=
      (State.binding_congr u.refreshReach_keeps.1.bindings m).trans (by rw [hu]; rfl)
    have hk : (u.refreshReach.binding k).k = k := State.binding_k _ _
    have hexec := exec_grant_of_front h hkind hu
    rw [hto'] at hexec
    refine ⟨_, u, hexec, hu, ?_, ?_, fun m hm => ?_, rfl⟩
    · rw [State.binding_modBinding_self _ hk, hbinding]
    · rw [State.binding_modBinding_self _ hk, hbinding]
    · rw [State.binding_modBinding_ne _ hk hm, hbinding]
  case delivered =>
    rintro side src _ x c r s h rfl hkind hfind
    have hexec := exec_delivered_of_front h hkind rfl
    rw [hfind] at hexec
    exact ⟨_, _, hexec, State.armed_disarm _ _, rfl, rfl⟩
  case deliveredNone =>
    rintro side src _ c r s h rfl hkind hfind
    rw [exec_delivered_of_front h hkind rfl, hfind]
  case notice =>
    rintro side src _ link c r s h rfl hkind hlink hrx hitems
    refine ⟨_, _, exec_notice_of_front h hkind hlink hrx hitems, mem_withLink.2 (.inr rfl), fun l hl => ?_, rfl, rfl⟩
    exact mem_withLink.trans (or_iff_left hl)
  case tmo =>
    intro item s hdue
    have hexec : exec (.delivTmo item) s = .next (((s.modSl fun y => { y with items := y.items.filter fun i =>
        i.item != item }).disarm (.deliv item)).report item 0x06 0x0D 0) := by
      show execDelivTmo item s = _
      unfold execDelivTmo
      rw [hdue]
      rfl
    exact ⟨_, _, hexec, State.armed_disarm _ _, rfl, rfl⟩
  case tmoEarly =>
    intro item s hdue
    show execDelivTmo item s = _
    unfold execDelivTmo
    rw [hdue]
    rfl

end Sys2Proof.Machine
end

section
/-! The commands of the host and GO (R429 to R431, R433). -/
namespace Sys2Proof.Machine

section
variable {s t u : State} {c : Fetched} {r : List Fetched} {n : Nat}

/-! ## The command whose turn it is (R431) -/

theorem State.popCommand_of_front (h : s.hi.fetched = c :: r) : s.popCommand = { s with hi := { s.hi with fetched := r } } := by
  show ({ s with hi := { s.hi with fetched := s.hi.fetched.drop 1 } } : State) = _
  rw [h]
  rfl

theorem State.command_of_front (h : s.hi.fetched = c :: r) (hop : c.op = n) : s.command n = some c := by
  unfold State.command
  rw [h]
  exact if_pos hop

theorem State.serve_of_front {ok : Fetched → Bool} {f : Fetched → State → State} (h : s.hi.fetched = c :: r) (hop : c.op = n)
    (hu : u = { s with hi := { s.hi with fetched := r } }) :
    s.serve n ok f = (if ok c && c.zero 5 3 then f c u else u.answer c 4 0).fetchAll := by
  unfold State.serve
  rw [State.command_of_front h hop, hu, State.popCommand_of_front h]

theorem State.serve_runs {ok : Fetched → Bool} {f : Fetched → State → State} (h : s.hi.fetched = c :: r) (hop : c.op = n)
    (hu : u = { s with hi := { s.hi with fetched := r } }) (hok : ok c = true) (hz : c.zero 5 3 = true) :
    s.serve n ok f = (f c u).fetchAll := by
  rw [State.serve_of_front h hop hu, hok, hz]
  rfl

theorem State.serve_bad_arg {ok : Fetched → Bool} {f : Fetched → State → State} (h : s.hi.fetched = c :: r) (hop : c.op = n)
    (hu : u = { s with hi := { s.hi with fetched := r } }) (hbad : ok c = false ∨ c.zero 5 3 = false) :
    s.serve n ok f = (u.answer c 4 0).fetchAll := by
  have hno : (ok c && c.zero 5 3) = false := by
    obtain h | h := hbad <;> simp [h]
  rw [State.serve_of_front h hop hu, hno]
  rfl

theorem State.serve_of_other {ok : Fetched → Bool} {f : Fetched → State → State} (h : ∀ c, s.hi.fetched.head? = some c → c.op ≠ n) :
    s.serve n ok f = s := by
  have hnone : s.command n = none := by
    unfold State.command
    split
    next c _ he => exact if_neg (h c (by rw [he]; rfl))
    next => rfl
  unfold State.serve
  rw [hnone]

theorem exec_command_of_other {f : Instr} (hf : (n, f) ∈ [(1, Instr.nopCmd), (2, .goCmd), (3, .domainCmd), (4, .resetCore true),
      (4, .resetCore false), (5, .fwStage), (6, .i2cXfer), (7, .alarmSend), (8, .resume)])
    (h : ∀ c, s.hi.fetched.head? = some c → c.op ≠ n) : exec f s = .next s := by
  simp only [List.mem_cons, Prod.mk.injEq, List.not_mem_nil, or_false] at hf
  obtain ⟨rfl, rfl⟩ | ⟨rfl, rfl⟩ | ⟨rfl, rfl⟩ | ⟨rfl, rfl⟩ | ⟨rfl, rfl⟩ | ⟨rfl, rfl⟩ | ⟨rfl, rfl⟩ | ⟨rfl, rfl⟩ | ⟨rfl, rfl⟩ := hf
  · exact congrArg Host.Outcome.next (State.serve_of_other h)
  · exact congrArg Host.Outcome.next (State.serve_of_other h)
  · exact congrArg Host.Outcome.next ((congrArg (ite _ s) (State.serve_of_other h)).trans (ite_self s))
  · exact congrArg Host.Outcome.next (State.serve_of_other h)
  · exact congrArg Host.Outcome.next (State.serve_of_other h)
  · exact congrArg Host.Outcome.next ((congrArg (ite _ s) (State.serve_of_other h)).trans (ite_self s))
  · exact congrArg Host.Outcome.next ((congrArg (ite _ s) (State.serve_of_other h)).trans (ite_self s))
  · exact congrArg Host.Outcome.next ((congrArg (ite _ s) (State.serve_of_other h)).trans (ite_self s))
  · exact congrArg Host.Outcome.next (State.serve_of_other h)

theorem exec_command_bad_arg {f : Instr} (hf : (n, f) ∈ [(1, Instr.nopCmd), (2, .goCmd), (3, .domainCmd), (4, .resetCore true),
      (4, .resetCore false), (8, .resume)]) (h : s.hi.fetched = c :: r) (hop : c.op = n) (hz : c.zero 5 3 = false)
    (hdom : n = 3 → s.domServing = false) (hu : u = { s with hi := { s.hi with fetched := r } }) :
    exec f s = .next (u.answer c 4 0).fetchAll := by
  have hserve {ok : Fetched → Bool} {f : Fetched → State → State} : s.serve n ok f = (u.answer c 4 0).fetchAll :=
    State.serve_bad_arg h hop hu (.inr hz)
  simp only [List.mem_cons, Prod.mk.injEq, List.not_mem_nil, or_false] at hf
  obtain ⟨rfl, rfl⟩ | ⟨rfl, rfl⟩ | ⟨rfl, rfl⟩ | ⟨rfl, rfl⟩ | ⟨rfl, rfl⟩ | ⟨rfl, rfl⟩ := hf
  · exact congrArg Host.Outcome.next hserve
  · exact congrArg Host.Outcome.next hserve
  · exact congrArg Host.Outcome.next ((if_neg (by simp [hdom rfl])).trans hserve)
  · exact congrArg Host.Outcome.next hserve
  · exact congrArg Host.Outcome.next hserve
  · exact congrArg Host.Outcome.next hserve

theorem exec_badOp_of_front (h : s.hi.fetched = c :: r) (hu : u = { s with hi := { s.hi with fetched := r } }) :
    exec .badOp s = .next (if 1 ≤ c.op ∧ c.op ≤ 8 then s else (u.answer c 3 0).fetchAll) := by
  show execBadOp s = _
  unfold execBadOp
  rw [State.popCommand_of_front h, h, hu]

/-! ## The response is written at once (R426, R427, R431) -/

/-- Nothing is fetched once the indices name one slot. -/
theorem State.fetchAll_of_empty
    (h : s.reg R.hiCmdCiIndex % 2 ^ s.reg R.hiCmdSizeLog2 = s.reg R.hiCmdPiIndex % 2 ^ s.reg R.hiCmdSizeLog2) : s.fetchAll = s := by
  simp [State.fetchAll, State.fetch, h]

theorem responseBytes_length (x : Response) (phase : Bool) : (responseBytes x phase).length = 16 := by
  simp [responseBytes, leBytes_length]

/-- A response waits alone in a ring that has room. -/
theorem State.respond_at_once {status result : Nat} (hstream : c.stream = 8) (hup : s.ringsUp = true)
    (hroom : ringFree (s.reg R.hiRspRpIndex) (s.reg R.hiRspWpIndex) (s.reg R.hiRspSizeLog2) = true) (hwait : s.hi.rspWait = []) :
    s.respond c status result = ({ s with hi := { s.hi with rspWait := [] } } : State).writeResponse
      { item := c.item, op := c.op, status := status, result := result % 2 ^ 64, ends := statusEnds status && streamOf c.item == c.stream } := by
  have hen : s.flag R.hiCtrlRingsEn = true := (Bool.and_eq_true_iff.mp hup).1
  unfold State.respond
  dsimp only
  rw [if_neg (by rw [hstream]; decide), if_pos hen]
  show State.flushResponses { s with hi := { s.hi with rspWait := s.hi.rspWait ++ _ } } (s.hi.rspWait ++ _).length = _
  rw [hwait]
  exact if_pos (Bool.and_eq_true_iff.mpr ⟨hup, hroom⟩)

/-- A completion that nobody logs (R459, R465). -/
theorem State.complete_silently {item : ItemId} {block : Nat} (hended : s.hasEnded item = false)
    (hlog : bitAt (s.reg R.lgLogOkStreams (streamOf item / 32)) (streamOf item % 32) = false) : s.complete item block = s.markEnded item := by
  unfold State.complete
  rw [hended]
  exact if_neg (by rw [← Bool.not_eq_true] at hlog; exact hlog)

/-- The fields that a response written into the ring touches. -/
def responseKeys : List Nat := [R.hiRspWpIndex.key 0 0, R.hiCntCount.key 1 0, R.hiIrqStatusVec.key 0 0]

/-- A response that completes its item is written at WP, and WP advances. -/
theorem State.writeResponse_spec {x : Response} {w l : Nat} (hw : w = s.reg R.hiRspWpIndex) (hl : l = s.reg R.hiRspSizeLog2) (h12 : l ≤ 12)
    (hends : x.ends = true) (hstream : streamOf x.item = 8) (hended : s.hasEnded x.item = false)
    (hlog : bitAt (s.reg R.lgLogOkStreams 0) 8 = false) (ht : t = s.writeResponse x) :
    t.hostMem = s.hostMem.writeBytes (hostBase (s.reg R.hiRspBaseAddr 0) (s.reg R.hiRspBaseAddr 1) + 16 * (w % 2 ^ l))
      (responseBytes x (s.phase 0)) ∧
    t.reg R.hiRspWpIndex = (w + 1) % 2 ^ l ∧ t.reg R.hiCntCount 1 = (s.reg R.hiCntCount 1 + 1) % 2 ^ 32 ∧
    bitAt (t.reg R.hiIrqStatusVec) 0 = true ∧ t.hi.fetched = s.hi.fetched ∧
    t.lg = { s.lg with ended := (x.item :: s.lg.ended).take 16384, items := alDel s.lg.items x.item } ∧
    t = { s with regs := t.regs, hi := t.hi, hostMem := t.hostMem, lg := t.lg } ∧ s.regsBut t responseKeys := by
  obtain ⟨a, ha⟩ : ∃ a : State, a = s.ringWrite 0 (hostBase (s.reg R.hiRspBaseAddr 0) (s.reg R.hiRspBaseAddr 1)) w l
    (responseBytes x (s.phase 0)) := ⟨_, rfl⟩
  obtain ⟨b, hb⟩ : ∃ b : State, b = (a.setReg R.hiRspWpIndex ((w + 1) % 2 ^ l)).bump R.hiCntCount 1 := ⟨_, rfl⟩
  have hframe : a = { s with hostMem := a.hostMem, hi := { s.hi with phases := a.hi.phases } } := by
    rw [ha]; exact State.ringWrite_phases _ _ _ _ _ _
  have hmem : a.hostMem = s.hostMem.writeBytes (hostBase (s.reg R.hiRspBaseAddr 0) (s.reg R.hiRspBaseAddr 1) + 16 * (w % 2 ^ l))
      (responseBytes x (s.phase 0)) := by
    rw [ha, State.ringWrite_hostMem, responseBytes_length]
  have hregs : s.regsBut a [R.hiRspWpIndex.key 0 0, R.hiCntCount.key 1 0] := (s.regsBut_refl _).of_regs (by rw [hframe])
  have hbregs : s.regsBut b [R.hiRspWpIndex.key 0 0, R.hiCntCount.key 1 0] := by
    rw [hb]
    exact (hregs.setReg (by simp)).setReg (by simp)
  have hnot : b.hasEnded x.item = false := by rw [hb]; show a.hasEnded x.item = false; rw [hframe]; exact hended
  have hblog : bitAt (b.reg R.lgLogOkStreams (streamOf x.item / 32)) (streamOf x.item % 32) = false := by
    rw [hstream, hbregs R.lgLogOkStreams _ 0 (by decide)]
    exact hlog
  have htv : t = (b.markEnded x.item).vector 0 := by
    rw [ht, ← State.complete_silently (block := 0x0F) hnot hblog, hb, ha, hw, hl]
    unfold State.writeResponse
    rw [hends]
    rfl
  have hvregs := (b.markEnded x.item).vector_regsBut 0
  have hvframe := (b.markEnded x.item).vector_frame 0
  have hbit := (b.markEnded x.item).bitAt_vector (v := 0) (by decide)
  have hfetched : t.hi.fetched = s.hi.fetched := by
    rw [htv]
    unfold State.vector
    dsimp only
    split
    all_goals
      show b.hi.fetched = _
      rw [hb]
      show a.hi.fetched = _
      rw [hframe]
  rw [← htv] at hvregs hvframe hbit
  have hlt : (w + 1) % 2 ^ l < 2 ^ 12 := (Nat.mod_lt _ (Nat.two_pow_pos _)).trans_le (Nat.pow_le_pow_right (by decide) h12)
  have hwp : b.reg R.hiRspWpIndex = (w + 1) % 2 ^ l := by
    rw [hb]
    exact (State.reg_setReg_ne _ _ _ _ _ _ _ _ (by decide)).trans ((State.reg_setReg_self _ _ _ _ _).trans (Nat.mod_eq_of_lt hlt))
  have hcnt : b.reg R.hiCntCount 1 = (s.reg R.hiCntCount 1 + 1) % 2 ^ 32 := by
    have hsame : (a.setReg R.hiRspWpIndex ((w + 1) % 2 ^ l)).reg R.hiCntCount 1 = s.reg R.hiCntCount 1 :=
      (State.reg_setReg_ne _ _ _ _ _ _ _ _ (by decide)).trans (by rw [hframe]; rfl)
    rw [hb]
    refine (State.reg_setReg_self _ _ _ _ _).trans ?_
    rw [hsame]
    rfl
  have hbs : b = { s with regs := b.regs, hostMem := a.hostMem, hi := { s.hi with phases := a.hi.phases } } := by
    have hbregs : b = { a with regs := b.regs } := by rw [hb]; rfl
    exact hbregs.trans (congrArg (fun z : State => { z with regs := b.regs }) hframe)
  have htframe : t = { s with regs := t.regs, hostMem := a.hostMem, hi := t.hi, lg := (b.markEnded x.item).lg } := by
    exact hvframe.trans (congrArg (fun z : State => { z with regs := t.regs, hi := t.hi, lg := (b.markEnded x.item).lg }) hbs)
  have hlg : t.lg = { s.lg with ended := (x.item :: s.lg.ended).take 16384, items := alDel s.lg.items x.item } := by
    rw [htframe]
    show ({ b.lg with ended := (x.item :: b.lg.ended).take 16384, items := alDel b.lg.items x.item } : Ledger) = _
    rw [hbs]
  have hmark {r : Row} {i j : Nat} : (b.markEnded x.item).reg r i j = b.reg r i j := rfl
  refine ⟨?_, ?_, ?_, hbit, hfetched, hlg, ?_, ?_⟩
  · rw [htframe]
    exact hmem
  · rw [hvregs _ _ _ (by decide), hmark, hwp]
  · rw [hvregs _ _ _ (by decide), hmark, hcnt]
  · rw [htframe]
  · intro r i j hk
    simp only [responseKeys, List.mem_cons, List.not_mem_nil, or_false, not_or] at hk
    obtain ⟨h1, h2, h3⟩ := hk
    rw [hvregs _ _ _ (by simp [h3]), hmark, hbregs _ _ _ (by simp [h1, h2])]

/-! ## NOP (R430, R431) -/

theorem exec_nopCmd_of_front (h : s.hi.fetched = c :: r) (hop : c.op = 1) (hz : c.zero 5 3 = true) (hz8 : c.zero 8 56 = true)
    (hu : u = { s with hi := { s.hi with fetched := r } }) : exec .nopCmd s = .next (u.answer c 0 s.devtime).fetchAll := by
  refine (congrArg Host.Outcome.next (State.serve_runs h hop hu hz8 hz)).trans ?_
  rw [hu]

theorem exec_nopCmd_writes {w l : Nat} (h : s.hi.fetched = c :: r) (hop : c.op = 1) (hz : c.zero 5 3 = true) (hz8 : c.zero 8 56 = true)
    (hstream : c.stream = 8) (hitem : streamOf c.item = 8) (hup : s.ringsUp = true) (hw : w = s.reg R.hiRspWpIndex)
    (hl : l = s.reg R.hiRspSizeLog2) (h12 : l ≤ 12) (hroom : ringFree (s.reg R.hiRspRpIndex) w l = true) (hwait : s.hi.rspWait = [])
    (hdups : s.hi.dups = [])
    (hempty : s.reg R.hiCmdCiIndex % 2 ^ s.reg R.hiCmdSizeLog2 = s.reg R.hiCmdPiIndex % 2 ^ s.reg R.hiCmdSizeLog2)
    (hended : s.hasEnded c.item = false) (hlog : bitAt (s.reg R.lgLogOkStreams 0) 8 = false) :
    ∃ t, exec .nopCmd s = .next t ∧
      t.hostMem = s.hostMem.writeBytes (hostBase (s.reg R.hiRspBaseAddr 0) (s.reg R.hiRspBaseAddr 1) + 16 * (w % 2 ^ l))
        (responseBytes { item := c.item, op := 1, status := 0, result := s.devtime % 2 ^ 64, ends := true } (s.phase 0)) ∧
      t.reg R.hiRspWpIndex = (w + 1) % 2 ^ l ∧ t.reg R.hiCntCount 1 = (s.reg R.hiCntCount 1 + 1) % 2 ^ 32 ∧
      bitAt (t.reg R.hiIrqStatusVec) 0 = true ∧ t.hi.fetched = r ∧
      t.lg = { s.lg with ended := (c.item :: s.lg.ended).take 16384, items := alDel s.lg.items c.item } ∧
      t = { s with regs := t.regs, hi := t.hi, hostMem := t.hostMem, lg := t.lg } ∧ s.regsBut t responseKeys := by
  obtain ⟨x, hx⟩ : ∃ x : Response, x = { item := c.item, op := 1, status := 0, result := s.devtime % 2 ^ 64, ends := true } := ⟨_, rfl⟩
  obtain ⟨g, hg⟩ : ∃ g : CmdWindow → CmdWindow,
    g = fun w => { w with seen := w.seen.map fun e => if e.1 = seqOf c.item then (seqOf c.item, some 0) else e } := ⟨_, rfl⟩
  obtain ⟨a, ha⟩ : ∃ a : State, a = { s with hi := { s.hi with fetched := r, win8 := g s.hi.win8, dups := [], rspWait := [] } } := ⟨_, rfl⟩
  obtain ⟨t, ht⟩ : ∃ t : State, t = a.writeResponse x := ⟨_, rfl⟩
  have hrespond : ({ s with hi := { s.hi with fetched := r, win8 := g s.hi.win8, dups := [] } } : State).respond c 0 s.devtime = t := by
    have hroom' : ringFree (s.reg R.hiRspRpIndex) (s.reg R.hiRspWpIndex) (s.reg R.hiRspSizeLog2) = true := by rw [← hw, ← hl]; exact hroom
    rw [State.respond_at_once (by exact hstream) (by exact hup) (by exact hroom') (by exact hwait), ht, ha, hx, hop, hitem, hstream]
    rfl
  have hanswer : ({ s with hi := { s.hi with fetched := r } } : State).answer c 0 s.devtime = t := by
    rw [← hrespond]
    unfold State.answer
    dsimp only
    have hnote : (({ s with hi := { s.hi with fetched := r } } : State).modHi fun h => if c.stream = 9 then { h with win9 := g h.win9 }
        else { h with win8 := g h.win8 }) = { s with hi := { s.hi with fetched := r, win8 := g s.hi.win8 } } := by
      rw [hstream]
      rfl
    rw [hg] at hnote ⊢
    rw [hnote]
    show ((s.hi.dups.filter _).foldl _ (State.respond { s with hi := { s.hi with
      fetched := r, win8 := _, dups := s.hi.dups.filter _ } } c 0 s.devtime)) = _
    rw [hdups]
    rfl
  obtain ⟨hmem, hwp, hcnt, hbit, hfetched, hlg, hframe, hregs⟩ := State.writeResponse_spec (s := a) (x := x) (w := w) (l := l)
    (by rw [ha]; exact hw) (by rw [ha]; exact hl) h12 (by rw [hx]) (by rw [hx]; exact hitem) (by rw [ha, hx]; exact hended)
    (by rw [ha]; exact hlog) ht
  have hfetch : t.fetchAll = t := by
    refine State.fetchAll_of_empty ?_
    rw [hregs _ _ _ (by decide), hregs R.hiCmdSizeLog2 _ _ (by decide), hregs R.hiCmdPiIndex _ _ (by decide), ha]
    exact hempty
  refine ⟨t, ?_, ?_, hwp, ?_, hbit, ?_, ?_, ?_, ?_⟩
  · rw [exec_nopCmd_of_front h hop hz hz8 rfl, hanswer, hfetch]
  · rw [hmem, ha, hx]
    rfl
  · rw [hcnt, ha]
    rfl
  · rw [hfetched, ha]
  · rw [hlg, ha, hx]
  · rw [ha] at hframe
    exact hframe
  · intro r i j hk
    rw [hregs r i j hk, ha]
    rfl

/-! ## GO (R433) -/

theorem exec_goCmd_of_front {g : GoArgs} (h : s.hi.fetched = c :: r) (hop : c.op = 2) (hz : c.zero 5 3 = true) (hok : goArgsOk c = true)
    (hg : g = GoArgs.ofBytes (c.args.drop 8)) (hu : u = { s with hi := { s.hi with fetched := r } }) :
    exec .goCmd s = .next (if !(s.flag R.ppStatusRun) then u.answer c 4 0
      else if s.pp.hostWait = some g.step then ((u.applyGo g).endHostStep g.step .go).answer c 0 0
      else match alGet s.pp.hostEnds g.step with
        | some .defaults => ((u.bump R.hiCntCount 4).report c.item 0x06 0x0F 0).answer c 2 0
        | some .go => u.answer c 9 0
        | none =>
          if g.step ≠ s.nextHostStep then u.answer c 4 0
          else if s.pp.heldGo.isSome then u.answer c 9 0
          else { u with pp := { s.pp with heldGo := some (g, c.item) } }).fetchAll := by
  refine (congrArg Host.Outcome.next (State.serve_runs h hop hu hok hz)).trans ?_
  unfold State.takeGo
  rw [hu, hg]
  rfl

/-! ## RESUME (R474, R475) -/

theorem State.stagedPowerOk_withFetched (s : State) (r : List Fetched) :
    ({ s with hi := { s.hi with fetched := r } } : State).stagedPowerOk = s.stagedPowerOk := by
  obtain ⟨u, hu⟩ : ∃ u : State, u = { s with hi := { s.hi with fetched := r } } := ⟨_, rfl⟩
  have hext : u.ext = s.ext := by rw [hu]
  have himage (e : DirEnt) : u.dirImage e = s.dirImage e := by rw [hu]; rfl
  have hpower (v : Canvas) : u.canvasPower v = s.canvasPower v := by rw [hu]; rfl
  have hmember : u.member = s.member := by rw [hu]; rfl
  rw [← hu]
  unfold State.stagedPowerOk
  simp only [hext, himage, hpower, hmember]

/-! ## DOMAIN (R71) -/

/-- The answer to a DOMAIN command, by the cause of its refusal. -/
def State.answerDomain (s : State) (c : Fetched) : Option Nat → State
  | some n => s.answer c 5 n
  | none => s.answer c 0 (s.reg R.pwDomStateOn)

theorem exec_domainCmd_of_front {k : Option Nat} {v : State} (h : s.hi.fetched = c :: r) (hop : c.op = 3) (hz : c.zero 5 3 = true)
    (hhi : bits (c.num 8 4) 31 10 = 0) (hlo : bits (c.num 8 4) 0 0 = 0) (hz12 : c.zero 12 52 = true)
    (hu : u = { s with hi := { s.hi with fetched := r } }) (hserving : s.domServing = false) (hk : u.domCommand c = (k, v)) :
    exec .domainCmd s = .next (v.answerDomain c k).fetchAll := by
  have hok : (bits (c.num 8 4) 31 10 == 0 && bits (c.num 8 4) 0 0 == 0 && c.zero 12 52) = true := by simp [hhi, hlo, hz12]
  refine (congrArg Host.Outcome.next ((if_neg (by simp [hserving])).trans (State.serve_runs h hop hu hok hz))).trans ?_
  rw [hk]
  cases k <;> rfl

end

/-- Settles O53. -/
theorem hostCommands : Obligations.HostCommands := by
  unfold Obligations.HostCommands
  refine ⟨?nop, ?other, ?badArg, ?badOp, ?badOpEmpty, ?nopWritten, ?go, ?domain, ?domainWaits, ?reset, ?resume⟩
  case nop => exact fun c r s u h hop hz hz8 hu => exec_nopCmd_of_front h hop hz hz8 hu
  case other => exact fun n f s hf h => exec_command_of_other hf h
  case badArg => exact fun n f c r s u hf h hop hz hdom hu => exec_command_bad_arg hf h hop hz hdom hu
  case badOp =>
    intro c r s u h hu
    refine ⟨fun hop => ?_, fun h1 h8 => ?_⟩
    · rw [exec_badOp_of_front h hu, if_neg (by omega)]
    · rw [exec_badOp_of_front h hu, if_pos ⟨h1, h8⟩]
  case badOpEmpty =>
    intro s h
    show execBadOp s = _
    unfold execBadOp
    rw [h]
  case nopWritten =>
    exact fun c r w l s h hop hz hz8 hstream hitem hup hw hl h12 hroom hwait hdups hempty hended hlog =>
      exec_nopCmd_writes h hop hz hz8 hstream hitem hup hw hl h12 hroom hwait hdups hempty hended hlog
  case go =>
    intro c r g s u h hop hz hok hg hu
    rw [exec_goCmd_of_front h hop hz hok hg hu]
    refine ⟨fun hrun => ?_, fun hrun hwait => ?_, fun hrun hwait hend => ?_, fun hrun hwait hend => ?_, fun hrun hwait hend hstep => ?_,
      fun hrun hwait hend hstep hheld => ?_, fun hrun hwait hend hstep hheld => ?_⟩
    · rw [if_pos (by simp [hrun])]
    all_goals rw [if_neg (by simp [hrun])]
    · rw [if_pos hwait]
    all_goals rw [if_neg hwait, hend]
    · dsimp only
      rw [if_pos hstep]
    all_goals
      dsimp only
      rw [if_neg (not_not_intro hstep)]
    · rw [if_pos hheld]
    · rw [if_neg (by simp [hheld])]
  case domain =>
    intro c r k s u v h hop hz hhi hlo hz12 hu hserving hk
    rw [exec_domainCmd_of_front h hop hz hhi hlo hz12 hu hserving hk]
    cases k <;> rfl
  case domainWaits => exact fun s h => congrArg Host.Outcome.next (if_pos h)
  case reset =>
    intro m c r s u h hop hz hz8 hu
    show execResetCore m s = _
    unfold execResetCore
    rw [State.serve_runs h hop hu (ok := fun c => c.zero 8 56) hz8 hz]
  case resume =>
    intro c r s u h hop hz hz8 hu
    have hreg (r : Row) : u.reg r = s.reg r := by rw [hu]; rfl
    have hgesso : u.inGesso = s.inGesso := by rw [hu]; rfl
    have hpower : u.stagedPowerOk = s.stagedPowerOk := by rw [hu, State.stagedPowerOk_withFetched]
    have hrefusal : u.resumeRefusal = s.resumeRefusal := by
      unfold State.resumeRefusal State.flag
      rw [hgesso, hpower, hreg, hreg, hreg, hreg]
    refine ⟨fun k hk => ?_, fun hk => ?_⟩
    all_goals
      show execResume s = _
      unfold execResume
      rw [State.serve_runs h hop hu (ok := fun c => c.zero 8 56) hz8 hz, hrefusal, hk]

end Sys2Proof.Machine
end

section
/-! The background commands: FW_STAGE, I2C transfers, ALARM_SEND (R93, R110, R430, R431, R440, R441, R443, R444, R449). -/
namespace Sys2Proof.Machine

section
variable {s u : State} {c : Fetched} {r : List Fetched}

/-! ## FW_STAGE (R93, R110) -/

/-- The arguments of FW_STAGE hold (R430, R431). -/
def State.fwArgsOk (s : State) (c : Fetched) : Bool :=
  c.zero 0x14 44 && decide (0 < c.num 0x10 4) && s.extOk (c.num 8 8) (c.num 0x10 4)

/-- A firmware load waits for its turn. -/
def State.fwQueued (s : State) (c : Fetched) : State :=
  (s.takeItem 0).modHi fun h => { h with fwLoads := h.fwLoads ++ [{ cmd := c, item := s.nextItem 0 }] }

theorem exec_fwStage_serve (h : s.background < 8) : exec .fwStage s = .next (s.serve 5 s.fwArgsOk fun c s => (s.fwQueued c).fwBegin) :=
  congrArg Host.Outcome.next (if_neg (by omega))

theorem State.fwQueued_spec (s : State) (c : Fetched) :
    alGet (s.fwQueued c).lg.items (s.nextItem 0) = some s.devtime ∧
    s.fwQueued c = { s with
      hi := { s.hi with fwLoads := s.hi.fwLoads ++ [{ cmd := c, item := s.nextItem 0 }] },
      lg := { s.lg with items := (s.fwQueued c).lg.items, seqs := (s.fwQueued c).lg.seqs } } :=
  ⟨alGet_alPut_self _ _ _, rfl⟩

theorem State.fwArgsOk_eq_false (h : c.zero 0x14 44 = false ∨ c.num 0x10 4 = 0 ∨ s.extOk (c.num 8 8) (c.num 0x10 4) = false) :
    s.fwArgsOk c = false := by
  unfold State.fwArgsOk
  obtain h | h | h := h <;> simp [h]

/-! ## The firmware load in progress (R93, R110) -/

theorem State.noteSig_frame (s : State) (kind slot : Nat) (res : SigRes) :
    s.noteSig kind slot res = { s with regs := (s.noteSig kind slot res).regs } := by
  unfold State.noteSig
  dsimp only
  split <;> rfl

theorem State.fwBody_bank (s : State) (i : Nat) (img : List Byte) :
    ((s.fwBody i img).bank i).image = img ∧ ((s.fwBody i img).bank i).headerOk = false := by
  unfold State.fwBody State.modBank State.bank
  by_cases h : i = 0 <;> simp [h, State.modStore]

theorem State.bankUsable_of_no_header {i : Nat} (h : (s.bank i).headerOk = false) : s.bankUsable i = false := by
  simp [State.bankUsable, h]

/-- The oldest load has its image and its outcome, and the signature is noted. -/
def State.fwChecked (s : State) (l : FwLoad) (r : List FwLoad) (img : List Byte) : State :=
  (s.modHi fun h => { h with fwLoads := { l with
      begun := true, img := img, bank := s.fwTarget, check := s.fwCheck img (hasTrailer img) } :: r }).noteSig 4 (slotIn img)
    ((s.modHi fun h => { h with fwLoads := { l with
      begun := true, img := img, bank := s.fwTarget, check := s.fwCheck img (hasTrailer img) } :: r }).sigCheck 4 (hasTrailer img) img)

theorem State.fwBegin_eq {l : FwLoad} {r : List FwLoad} {img : List Byte} (h : s.hi.fwLoads = l :: r) (hbegun : l.begun = false)
    (himg : img = s.image (l.cmd.num 8 8) (l.cmd.num 0x10 4)) :
    s.fwBegin = if (s.fwCheck img (hasTrailer img)).isNone then (s.fwChecked l r img).fwBody s.fwTarget img else s.fwChecked l r img := by
  unfold State.fwBegin
  rw [h, himg]
  dsimp only
  rw [hbegun]
  rfl

theorem State.fwChecked_spec (s : State) (l : FwLoad) (r : List FwLoad) (img : List Byte) :
    (s.fwChecked l r img).store = s.store ∧ (s.fwChecked l r img).hi = { s.hi with fwLoads := { l with
      begun := true, img := img, bank := s.fwTarget, check := s.fwCheck img (hasTrailer img) } :: r } := by
  unfold State.fwChecked
  rw [State.noteSig_frame]
  exact ⟨rfl, rfl⟩

theorem State.fwBody_hi (s : State) (i : Nat) (img : List Byte) : (s.fwBody i img).hi = s.hi := rfl

theorem exec_fwStageDone_of_front {l : FwLoad} {r : List FwLoad} (h : s.hi.fwLoads = l :: r)
    (hu : u = { s with hi := { s.hi with fwLoads := r } }) :
    exec .fwStageDone s = .next (((match l.check with
      | none => (u.fwHeader l.bank l.img).complete l.item 0
      | some k => u.report l.item 0x0F 4 k).answer l.cmd 0 l.item.toNat).fwBegin).fetchAll := by
  show execFwStageDone s = _
  unfold execFwStageDone
  rw [h, hu]
  rfl

/-! ## I2C transfers (R440, R441, R449) -/

theorem exec_i2cXfer_serve (h : s.background < 8) :
    exec .i2cXfer s = .next (s.serve 6 i2cArgsOk fun c s =>
      (s.modHi fun h => { h with transfers := h.transfers ++ [{ cmd := c, bus := bits (c.num 8 4) 0 0 }] }).startTransfer (bits (c.num 8 4) 0 0)) :=
  congrArg Host.Outcome.next (if_neg (by omega))

section
variable {bus : Nat} {p q : List Transfer} {x : Transfer}

theorem findIdx?_bus_none {l : List Transfer} {f : Transfer → Bool} (h : ∀ t ∈ l, t.bus ≠ bus) (hf : ∀ t, f t = true → t.bus = bus) :
    l.findIdx? f = none :=
  List.findIdx?_eq_none_iff.mpr fun t ht => by
    cases hb : f t with
    | false => rfl
    | true => exact absurd (hf t hb) (h t ht)

theorem findIdx?_bus_first {f : Transfer → Bool} (h : ∀ t ∈ p, t.bus ≠ bus) (hf : ∀ t, f t = true → t.bus = bus) (hx : f x = true) :
    (p ++ x :: q).findIdx? f = some p.length := by
  rw [List.findIdx?_append, findIdx?_bus_none h hf, List.findIdx?_cons, hx]
  simp

theorem State.startTransfer_of_none (h : ∀ t ∈ s.hi.transfers, t.bus ≠ bus) : s.startTransfer bus = s := by
  unfold State.startTransfer
  rw [findIdx?_bus_none h fun t ht => of_decide_eq_true ht]
  exact ite_self s

/-- The first transfer of a controller that no latch read holds up gains it. -/
theorem State.startTransfer_first (htransfers : s.hi.transfers = p ++ x :: q) (h : ∀ t ∈ p, t.bus ≠ bus) (hx : x.bus = bus) :
    s.startTransfer bus = if s.latchWaits bus then s
      else { s with hi := { s.hi with transfers := p ++ { x with started := true } :: q } } := by
  have hfind : s.hi.transfers.findIdx? (·.bus = bus) = some p.length := by
    rw [htransfers]
    exact findIdx?_bus_first h (fun t ht => of_decide_eq_true ht) (decide_eq_true hx)
  unfold State.startTransfer
  rw [hfind]
  show (if s.latchWaits bus then s else { s with hi := { s.hi with
    transfers := s.hi.transfers.modify p.length fun t => { t with started := true } } }) = _
  have hmodify : (p ++ x :: q).modify p.length (fun t => { t with started := true }) = p ++ { x with started := true } :: q := by
    clear htransfers hfind h
    induction p with
    | nil => rfl
    | cons a p ih => exact congrArg (a :: ·) ih
  rw [htransfers, hmodify]

theorem State.transferOn_of_none (h : ∀ t ∈ s.hi.transfers, t.bus ≠ bus) : s.transferOn bus = none := by
  unfold State.transferOn
  rw [findIdx?_bus_none h fun t ht => of_decide_eq_true (Bool.and_eq_true_iff.mp ht).1]
  rfl

theorem State.transferOn_first (htransfers : s.hi.transfers = p ++ x :: q) (h : ∀ t ∈ p, t.bus ≠ bus) (hx : x.bus = bus)
    (hstarted : x.started = true) : s.transferOn bus = some (p.length, x) := by
  unfold State.transferOn
  rw [htransfers, findIdx?_bus_first h (fun t ht => of_decide_eq_true (Bool.and_eq_true_iff.mp ht).1) (by simp [hx, hstarted])]
  simp

theorem State.startTransfer_started (htransfers : s.hi.transfers = p ++ x :: q) (h : ∀ t ∈ p, t.bus ≠ bus) (hx : x.bus = bus)
    (hstarted : x.started = true) : s.startTransfer bus = s := by
  have hsame : ({ x with started := true } : Transfer) = x := by rw [← hstarted]
  rw [State.startTransfer_first htransfers h hx, hsame, ← htransfers]
  exact ite_self s

theorem State.endTransfer_first (htransfers : s.hi.transfers = p ++ x :: q) (hx : x.bus = bus)
    (hu : u = { s with hi := { s.hi with transfers := p ++ q } }) (status result : Nat) :
    s.endTransfer p.length x status result = ((u.answer x.cmd status result).startTransfer bus).fetchAll := by
  unfold State.endTransfer
  show ((State.answer { s with hi := { s.hi with transfers := s.hi.transfers.eraseIdx p.length } } x.cmd status result).startTransfer
    x.bus).fetchAll = _
  rw [htransfers, List.eraseIdx_append_of_length_le (Nat.le_refl _), Nat.sub_self, List.eraseIdx_cons_zero, hx, hu]

end

/-! ## ALARM_SEND (R443, R444) -/

/-- The arguments of ALARM_SEND hold. -/
def alarmArgsOk (c : Fetched) : Bool :=
  c.zero 9 3 && decide (1 ≤ c.num 8 1) && decide (c.num 8 1 ≤ 52) && (bytesAt c.args 0x0C (c.num 8 1)).all sentenceChar

/-- The M sentence of a command is queued, or the command is refused. -/
def State.queueMessage (s : State) (c : Fetched) : State :=
  match s.queueSentence 2 (chars "PQWXM," ++ bytesAt c.args 0x0C (c.num 8 1)) (some c) with
  | (true, s) => s
  | (false, s) => s.answer c 5 0

theorem exec_alarmSend_serve (h : s.background < 8) : exec .alarmSend s = .next (s.serve 7 alarmArgsOk fun c s => s.queueMessage c) :=
  congrArg Host.Outcome.next (if_neg (by omega))

theorem State.queueMessage_off (hen : s.flag R.hiAlarmEn = false) : s.queueMessage c = s.answer c 5 0 := by
  unfold State.queueMessage State.queueSentence
  rw [hen]
  rfl

theorem State.queueMessage_full (hen : s.flag R.hiAlarmEn = true) (hfull : 16 ≤ s.hi.alarms.length) :
    s.queueMessage c = (s.bump R.hiCntCount 10).answer c 5 0 := by
  unfold State.queueMessage State.queueSentence
  dsimp only
  rw [hen, if_neg (by decide), if_neg (by omega)]
  cases (s.bump R.hiCntCount 10).hi.alarms.findIdx? (·.kind = 1) <;> rfl

theorem State.queueMessage_room (hen : s.flag R.hiAlarmEn = true) (hroom : s.hi.alarms.length < 16) :
    s.queueMessage c = (s.modHi fun h => { h with alarms := h.alarms ++
      [{ kind := 2, text := sentenceText (chars "PQWXM," ++ bytesAt c.args 0x0C (c.num 8 1)), cmd := some c }] }).startSentence := by
  unfold State.queueMessage State.queueSentence
  dsimp only
  rw [hen, if_neg (by decide), if_pos hroom]

end

/-- Settles O54. -/
theorem backgroundCommands : Obligations.BackgroundCommands := by
  unfold Obligations.BackgroundCommands
  refine ⟨?full, ?stage, ?stageBad, ?doneEmpty, ?begins, ?done, ?i2c, ?i2cBad, ?i2cNone, ?i2cEnds, ?alarm⟩
  case full =>
    intro s h
    exact ⟨congrArg Host.Outcome.next (if_pos h), congrArg Host.Outcome.next (if_pos h), congrArg Host.Outcome.next (if_pos h)⟩
  case stage =>
    rintro c r _ s hb h hop hz hz14 hlen hext rfl
    obtain ⟨u, hu⟩ : ∃ u : State, u = { s with hi := { s.hi with fetched := r } } := ⟨_, rfl⟩
    have hok : s.fwArgsOk c = true := by simp [State.fwArgsOk, hz14, hlen, hext]
    have hexec : exec .fwStage s = .next ((u.fwQueued c).fwBegin).fetchAll := by
      rw [exec_fwStage_serve hb, State.serve_runs h hop hu hok hz]
    obtain ⟨hitem, hframe⟩ := u.fwQueued_spec c
    rw [hu] at hexec hitem hframe
    exact ⟨_, _, hexec, hitem, hframe, rfl⟩
  case stageBad =>
    intro c r s u hb h hop hz hu hbad
    rw [exec_fwStage_serve hb, State.serve_bad_arg h hop hu (.inl (State.fwArgsOk_eq_false hbad))]
  case doneEmpty =>
    intro s h
    show execFwStageDone s = _
    unfold execFwStageDone
    rw [h]
  case begins =>
    rintro l r _ img s h hbegun himg rfl
    obtain ⟨hstore, hhi⟩ := s.fwChecked_spec l r img
    rw [State.fwBegin_eq h hbegun himg]
    refine ⟨?_, fun hk => ?_, fun k hk => ?_⟩
    · split
      · exact hhi
      · exact hhi
    · rw [hk]
      obtain ⟨himage, hheader⟩ := (s.fwChecked l r img).fwBody_bank s.fwTarget img
      exact ⟨State.bankUsable_of_no_header hheader, himage⟩
    · rw [hk]
      exact hstore
  case done =>
    intro l r s u h hu
    rw [exec_fwStageDone_of_front h hu]
    exact ⟨fun hk => by rw [hk], fun k hk => by rw [hk]⟩
  case i2c =>
    rintro c r _ s hb h hop hz hok rfl hbus
    have hstart := State.startTransfer_first (s := { s with hi := { s.hi with
        fetched := r, transfers := s.hi.transfers ++ [{ cmd := c, bus := bits (c.num 8 4) 0 0 }] } })
      (p := s.hi.transfers) (x := { cmd := c, bus := bits (c.num 8 4) 0 0 }) (q := []) rfl hbus rfl
    refine ⟨_, _, ?_, rfl, rfl⟩
    rw [exec_i2cXfer_serve hb, State.serve_runs h hop rfl hok hz]
    refine congrArg (fun t : State => Host.Outcome.next t.fetchAll) (hstart.trans ?_)
    have hlatch : ({ s with hi := { s.hi with fetched := r, transfers := s.hi.transfers ++ [{ cmd := c, bus := bits (c.num 8 4) 0 0 }] } } :
      State).latchWaits (bits (c.num 8 4) 0 0) = s.latchWaits (bits (c.num 8 4) 0 0) := rfl
    rw [hlatch]
    cases s.latchWaits (bits (c.num 8 4) 0 0) <;> rfl
  case i2cBad =>
    intro c r s u hb h hop hz hu hbad
    rw [exec_i2cXfer_serve hb, State.serve_bad_arg h hop hu (.inl hbad)]
  case i2cNone =>
    intro bus nack data s h
    constructor
    · show execI2cXferDone bus nack data s = _
      unfold execI2cXferDone
      dsimp only
      rw [State.startTransfer_of_none h, State.transferOn_of_none h]
    · show execI2cStretchTimeout bus s = _
      unfold execI2cStretchTimeout
      rw [State.transferOn_of_none h]
  case i2cEnds =>
    intro bus p r x s u htransfers hp hx hstarted hu
    have hstart := State.startTransfer_started htransfers hp hx hstarted
    have hon := State.transferOn_first htransfers hp hx hstarted
    have hdone (nack : Option Nat) (data : List Byte) : exec (.i2cXferDone bus nack data) s = .next (match nack with
        | some b => (s.bump R.hiCntCount 8).endTransfer p.length x 6 b
        | none => if data.length = bits (x.cmd.num 8 4) 19 16 then s.endTransfer p.length x 0 (leNat data) else s) := by
      show execI2cXferDone bus nack data s = _
      unfold execI2cXferDone
      dsimp only
      rw [hstart, hon] <;> cases nack <;> rfl
    have hcounted (k : Nat) : u.bump R.hiCntCount k =
        { s.bump R.hiCntCount k with hi := { (s.bump R.hiCntCount k).hi with transfers := p ++ r } } := by rw [hu]; rfl
    refine ⟨fun n data => ?_, fun data hlen => ?_, fun data hlen => ?_, ?_⟩
    · rw [hdone]
      exact congrArg Host.Outcome.next (State.endTransfer_first (s := s.bump R.hiCntCount 8) htransfers hx (hcounted 8) 6 n)
    · rw [hdone]
      dsimp only
      rw [if_pos hlen, State.endTransfer_first htransfers hx hu]
    · rw [hdone]
      exact congrArg Host.Outcome.next (if_neg hlen)
    · show execI2cStretchTimeout bus s = _
      unfold execI2cStretchTimeout
      rw [hon]
      exact congrArg Host.Outcome.next (State.endTransfer_first (s := s.bump R.hiCntCount 9) htransfers hx (hcounted 9) 7 0)
  case alarm =>
    rintro c r _ s u hb h hop hz hu rfl
    rw [exec_alarmSend_serve hb]
    refine ⟨fun hbad => ?_, fun hz9 h1 h52 hchars => ?_⟩
    · have hno : alarmArgsOk c = false := by
        unfold alarmArgsOk
        obtain h | h | h | h := hbad
        · simp [h]
        · simp [h]
        · simp [Nat.not_le.mpr h]
        · rw [h, Bool.and_false]
      rw [State.serve_bad_arg h hop hu (.inl hno)]
    · have hok : alarmArgsOk c = true := by
        unfold alarmArgsOk
        rw [hchars]
        simp [hz9, h1, h52]
      rw [State.serve_runs h hop hu hok hz]
      subst hu
      refine ⟨fun hen => ?_, fun hen hfull => ?_, fun hen hroom => ?_⟩
      · rw [State.queueMessage_off (by exact hen)]
      · rw [State.queueMessage_full (by exact hen) (by exact hfull)]
      · rw [State.queueMessage_room (by exact hen) (by exact hroom)]
        rfl

end Sys2Proof.Machine
end

section
/-! The alarm port, the TAP and the trace port (R442 to R446). -/
namespace Sys2Proof.Machine

section
variable {s t : State}

/-! ## The alarm port (R443, R444) -/

/-- The status timer is set for the next period. -/
def State.statusRearmed (s : State) (d : Nat) : State :=
  s.modTimers fun l => alPut l .alarm (d + 1000000000 * max 1 (s.reg R.hiAlarmPeriod))

theorem exec_alarmStatusTimer_idle (h : s.due .alarm = false ∨ (s.inRun = false ∧ s.inGesso = false)) : exec .alarmStatusTimer s = .next s := by
  refine congrArg Host.Outcome.next (if_neg ?_)
  obtain h | ⟨hrun, hgesso⟩ := h
  · simp [h]
  · simp [hrun, hgesso]

theorem exec_alarmStatusTimer_due {d : Nat} (hdue : s.due .alarm = true) (hon : s.inRun = true ∨ s.inGesso = true)
    (hd : alGet s.timers .alarm = some d) :
    exec .alarmStatusTimer s = .next ((s.statusRearmed d).queueSentence 1 s.statusBody none).2 := by
  have hon' : (s.due .alarm && (s.inRun || s.inGesso)) = true := by simp [hdue, hon]
  refine congrArg Host.Outcome.next ((if_pos hon').trans ?_)
  rw [hd]
  rfl

theorem State.queueSentence_off {kind : Nat} {body : List Byte} {cmd : Option Fetched} (h : s.flag R.hiAlarmEn = false) :
    s.queueSentence kind body cmd = (false, s) := by
  unfold State.queueSentence
  rw [h]
  rfl

/-- A sentence of no alarm that waits alone begins. -/
theorem State.startSentence_alone {x : Sentence} (halarms : s.hi.alarms = [x]) (hsending : s.hi.sending = none) (hkind : x.kind ≠ 0) :
    s.startSentence = ({ s with hi := { s.hi with alarms := [], sending := some x } } : State).arm .alarmSent
      (ceilDiv (x.text.length * 10 * 1000000000) (if s.flag R.hiAlarmBaud then 38400 else 4800)) := by
  have hfirst : [x].findIdx? (·.kind = 0) = none := by simp [hkind]
  unfold State.startSentence
  rw [hsending, halarms]
  dsimp only
  rw [if_neg (by decide), hfirst]
  rfl

/-- A status sentence that finds the port idle begins at once. -/
theorem State.queueSentence_idle {body : List Byte} (hen : s.flag R.hiAlarmEn = true) (halarms : s.hi.alarms = [])
    (hsending : s.hi.sending = none) : (s.queueSentence 1 body none).2 =
      ({ s with hi := { s.hi with sending := some { kind := 1, text := sentenceText body } } } : State).arm .alarmSent
        (ceilDiv ((sentenceText body).length * 10 * 1000000000) (if s.flag R.hiAlarmBaud then 38400 else 4800)) := by
  have halone : (s.modHi fun h => { h with alarms := h.alarms ++ [{ kind := 1, text := sentenceText body, cmd := none }] }).hi.alarms =
      [{ kind := 1, text := sentenceText body }] := by
    show s.hi.alarms ++ _ = _
    rw [halarms]
    rfl
  unfold State.queueSentence
  dsimp only
  rw [hen, if_neg (by decide), if_pos (by rw [halarms]; decide)]
  refine (State.startSentence_alone halone hsending Nat.one_ne_zero).trans ?_
  rw [← halarms]
  rfl

theorem exec_alarmSentenceSent_idle (h : s.hi.sending = none ∨ s.due .alarmSent = false) : exec .alarmSentenceSent s = .next s := by
  show execAlarmSentenceSent s = _
  unfold execAlarmSentenceSent
  obtain h | h := h
  · rw [h]
  · rw [h]
    cases s.hi.sending <;> rfl

theorem exec_alarmSentenceSent_due {x : Sentence} (hx : s.hi.sending = some x) (hdue : s.due .alarmSent = true) {u : State}
    (hu : u = (s.disarm .alarmSent).modHi fun h => { h with sending := none }) :
    exec .alarmSentenceSent s = .next (match x.cmd with
      | some c => (u.startSentence.answer c 0 0).fetchAll
      | none => u.startSentence) := by
  show execAlarmSentenceSent s = _
  unfold execAlarmSentenceSent
  rw [hx]
  dsimp only
  rw [if_pos hdue, hu] <;> cases x.cmd <;> rfl

/-! ## The TAP (R445) -/

theorem bits_eq (v hi lo : Nat) : bits v hi lo = v / 2 ^ lo % 2 ^ (hi + 1 - lo) := rfl

theorem idWord_fields {a p st : Nat} (ha : a < 2 ^ 11) (hp : p < 2 ^ 16) (hst : st < 16) :
    bits (1 + a * 2 + p * 2 ^ 12 + st * 2 ^ 28) 31 28 = st ∧ bitAt (1 + a * 2 + p * 2 ^ 12 + st * 2 ^ 28) 0 = true ∧
    bits (1 + a * 2 + p * 2 ^ 12 + st * 2 ^ 28) 27 12 = p := by
  refine ⟨?_, ?_, ?_⟩
  · rw [bits_eq]
    omega
  · show Nat.testBit _ 0 = true
    rw [Nat.testBit_zero]
    simp only [decide_eq_true_eq]
    omega
  · rw [bits_eq]
    omega

theorem State.idWord_spec (s : State) : bits s.idWord 31 28 = s.part.stepping % 16 ∧ bitAt s.idWord 0 = true ∧
    (s.member = .q64 → bits s.idWord 27 12 = 0x0064) := by
  have hlow : bits (Config.idcodeRest 0).toNat 11 1 < 2 ^ 11 := Nat.mod_lt _ (by decide)
  have hpart : (if s.member = .q64 then 0x0064 else bits (Config.idcodeRest s.member.num).toNat 27 12) < 2 ^ 16 := by
    split
    · decide
    · exact Nat.mod_lt _ (by decide)
  obtain ⟨hstep, hone, hnum⟩ := idWord_fields hlow hpart (Nat.mod_lt s.part.stepping (by decide))
  exact ⟨hstep, hone, fun hm => hnum.trans (if_pos hm)⟩

theorem State.selectTap_bitList (s : State) (w : Nat) :
    s.selectTap .idcode (bitList w) = { s with hi := { s.hi with tap := .idcode, tapOut := (List.range 32).map (bitAt w) } } := rfl

theorem State.balls_of_idle (h : s.tapDrives = false) : s.balls = s.pins := by
  unfold State.balls
  rw [h]
  rfl

theorem State.tapDrives_of_running (hreset : s.pins.resetN = true) (hgesso : s.inGesso = false) : s.tapDrives = false := by
  simp [State.tapDrives, hreset, hgesso]

theorem State.tapDrives_selectTap {i : TapInstr} {l : List Bool} (h : s.pins.resetN = false ∨ s.inGesso = true) :
    (s.selectTap i l).tapDrives = (i == .extest || i == .clamp || i == .highz) := by
  show ((!s.pins.resetN || s.inGesso) && (i == .extest || i == .clamp || i == .highz)) = _
  obtain h | h := h <;> simp [h]

theorem exec_extest_running (hreset : s.pins.resetN = true) (hgesso : s.inGesso = false) :
    exec .extest s = .next (s.selectTap .extest [false]) := by
  have hoff : (s.selectTap .extest [false]).tapDrives = false := State.tapDrives_of_running hreset hgesso
  exact congrArg Host.Outcome.next (if_neg (by simp [hoff]))

theorem exec_extest_held (h : s.pins.resetN = false ∨ s.inGesso = true) :
    exec .extest s = .next { s with hi := { s.hi with tap := .extest, tapOut := Config.boundaryBits s.freeCtr }, freeCtr := s.freeCtr + 1 } :=
  congrArg Host.Outcome.next (if_pos ((State.tapDrives_selectTap h).trans rfl))

theorem State.balls_highz (h : s.pins.resetN = false ∨ s.inGesso = true) : (s.selectTap .highz [false]).balls = { s.pins with
      heartbeat := .z, ready := .z, faultN := .z, camSync := .z, aerAck := .z, xoff := [.z, .z, .z, .z], alarmTx := .z, spiSdo := .z } := by
  unfold State.balls
  rw [State.tapDrives_selectTap h]
  rfl

/-! ## The trace port (R446) -/

theorem exec_tracePacket_idle (h : s.hi.traceDue = [] ∨ s.traceOn = false) : exec .tracePacket s = .next s := by
  show execTracePacket s = _
  unfold execTracePacket
  obtain h | h := h
  · rw [h]
  · rw [h]
    cases s.hi.traceDue <;> rfl

theorem exec_tracePacket_due {ty : Nat} {p : List Byte} {r : List (Nat × List Byte)} (hon : s.traceOn = true)
    (hdue : s.hi.traceDue = (ty, p) :: r) :
    exec .tracePacket s = .next (State.putTrace { s with hi := { s.hi with traceDue := r } } ty p) := by
  show execTracePacket s = _
  unfold execTracePacket
  rw [hdue]
  exact congrArg Host.Outcome.next (if_pos hon)

theorem exec_traceTime_idle (h : s.traceOn = false ∨ s.clockRuns = false ∨ s.devtime < 1000000000 ∨ s.devtime / 1000000000 = s.hi.traceSec ∨
    10000 ≤ s.devtime % 1000000000) : exec .traceTime s = .next s := by
  refine congrArg Host.Outcome.next (if_neg ?_)
  obtain h | h | h | h | h := h
  · simp [h]
  · simp [h]
  · simp [Nat.div_eq_of_lt h]
  · simp [h]
  · simp [Nat.not_lt.mpr h]

theorem exec_traceTime_due {k : Nat} (hon : s.traceOn = true) (hclock : s.clockRuns = true) (hk : k = s.devtime / 1000000000) (h0 : 0 < k)
    (hnew : k ≠ s.hi.traceSec) (hin : s.devtime % 1000000000 < 10000) :
    exec .traceTime s = .next (State.putTrace { s with hi := { s.hi with traceSec := k } } 4 (leBytes 8 s.devtime)) := by
  subst hk
  have hcond : (s.traceOn && s.clockRuns && decide (0 < s.devtime / 1000000000) && s.devtime / 1000000000 != s.hi.traceSec &&
      decide (s.devtime % 1000000000 < 10000)) = true := by simp [hon, hclock, h0, hnew, hin]
  exact congrArg Host.Outcome.next (if_pos hcond)

/-- The bytes of the LOST packet that is owed. -/
def State.traceOwed (s : State) : List Byte := if s.hi.traceLost = 0 then [] else traceBytes 3 (leBytes 4 s.hi.traceLost)

/-- The bytes that have left since the port's last change. -/
def State.traceSent (s : State) : Nat := min s.hi.trace.length ((s.devtime - s.hi.traceAt) / 8)

theorem State.putTrace_eq (s : State) (ty : Nat) (p : List Byte) : s.putTrace ty p =
    if (s.hi.trace.drop s.traceSent).length + (s.traceOwed ++ traceBytes ty p).length ≤ 4096 then
      s.drainTrace.modHi fun h => { h with trace := h.trace ++ (s.traceOwed ++ traceBytes ty p), traceLost := 0 }
    else (s.drainTrace.modHi fun h => { h with traceLost := h.traceLost + 1 }).bump R.hiCntCount 11 := rfl

theorem State.putTrace_room {ty n : Nat} {p b : List Byte} (hn : n = s.traceSent)
    (hb : b = s.hi.trace.drop n ++ (s.traceOwed ++ traceBytes ty p)) (hlen : b.length ≤ 4096) (ht : t = s.putTrace ty p) :
    t.hi.trace = b ∧ t.hi.traceLost = 0 ∧ t.hi.traceD = (s.hi.trace.take n).getLastD s.hi.traceD ∧
    t.hi.traceStb = (s.hi.traceStb != decide (n % 2 = 1)) ∧
    t = { s with hi := { s.hi with trace := b, traceAt := t.hi.traceAt, traceLost := 0, traceD := t.hi.traceD, traceStb := t.hi.traceStb } } := by
  subst hn hb
  rw [List.length_append] at hlen
  rw [ht, State.putTrace_eq, if_pos hlen]
  exact ⟨rfl, rfl, rfl, rfl, rfl⟩

theorem State.putTrace_full {ty n : Nat} {p : List Byte} (hn : n = s.traceSent)
    (hlen : 4096 < (s.hi.trace.drop n ++ (s.traceOwed ++ traceBytes ty p)).length) (ht : t = s.putTrace ty p) :
    t.hi.trace = s.hi.trace.drop n ∧ t.hi.traceLost = s.hi.traceLost + 1 ∧ t.reg R.hiCntCount 11 = (s.reg R.hiCntCount 11 + 1) % 2 ^ 32 ∧
    t = { s with regs := t.regs, hi := { s.hi with
      trace := t.hi.trace, traceAt := t.hi.traceAt, traceLost := t.hi.traceLost, traceD := t.hi.traceD, traceStb := t.hi.traceStb } } ∧
    s.regsBut t [R.hiCntCount.key 11 0] := by
  subst hn
  rw [List.length_append] at hlen
  rw [ht, State.putTrace_eq, if_neg (Nat.not_le.mpr hlen)]
  refine ⟨rfl, rfl, State.reg_setReg_self _ _ _ _ _, rfl, ?_⟩
  exact State.regsBut.setReg (t := s.drainTrace.modHi fun h => { h with traceLost := h.traceLost + 1 })
    ((s.regsBut_refl _).of_regs rfl) (by simp)

theorem traceBytes_length (ty : Nat) (p : List Byte) : (traceBytes ty p).length = p.length + 4 := by
  simp [traceBytes]

end

/-- Settles O57. -/
theorem alarmTapAndTrace : Obligations.AlarmTapAndTrace := by
  unfold Obligations.AlarmTapAndTrace
  refine ⟨?timerIdle, ?timer, ?sentIdle, ?sent, ?select, ?idcode, ?sample, ?running, ?held, ?traceIdle, ?packet, ?time⟩
  case timerIdle => exact fun s h => exec_alarmStatusTimer_idle h
  case timer =>
    intro d s hdue hon hd
    refine ⟨_, s.statusRearmed d, exec_alarmStatusTimer_due hdue hon hd, alGet_alPut_self _ _ _, rfl, rfl, fun hen => ?_,
      fun hen halarms hsending => ?_⟩
    · rw [State.queueSentence_off (by exact hen)]
    · rw [State.queueSentence_idle (by exact hen) (by exact halarms) (by exact hsending), Nat.mul_assoc]
      exact ⟨rfl, alGet_alPut_self _ _ _⟩
  case sentIdle => exact fun s h => exec_alarmSentenceSent_idle h
  case sent =>
    intro x s hx hdue
    obtain ⟨u, hu⟩ : ∃ u : State, u = (s.disarm .alarmSent).modHi fun h => { h with sending := none } := ⟨_, rfl⟩
    refine ⟨_, u, exec_alarmSentenceSent_due hx hdue hu, ?_, ?_, ?_⟩
    · rw [hu]
      exact State.armed_disarm _ _
    · rw [hu]
      rfl
    · cases x.cmd <;> rfl
  case select => exact fun s => ⟨rfl, rfl, rfl, rfl⟩
  case idcode => exact fun s => ⟨s.idWord, congrArg Host.Outcome.next (s.selectTap_bitList _), s.idWord_spec⟩
  case sample => exact fun p s => ⟨_, rfl, rfl, rfl⟩
  case running =>
    intro s hreset hgesso
    refine ⟨exec_extest_running hreset hgesso, fun f t hf ht => ?_⟩
    have hquiet (i : TapInstr) : (s.selectTap i [false]).balls = (s.selectTap i [false]).pins :=
      State.balls_of_idle (State.tapDrives_of_running hreset hgesso)
    simp only [List.mem_cons, List.not_mem_nil, or_false] at hf
    obtain rfl | rfl | rfl := hf
    · rw [exec_extest_running hreset hgesso] at ht
      cases ht
      exact hquiet .extest
    · cases ht
      exact hquiet .clamp
    · cases ht
      exact hquiet .highz
  case held =>
    intro s h
    refine ⟨⟨_, exec_extest_held h, rfl, rfl⟩, fun t ht => ?_⟩
    cases ht
    exact State.balls_highz h
  case traceIdle => exact fun s => ⟨fun h => exec_tracePacket_idle h, fun h => exec_traceTime_idle h⟩
  case packet =>
    rintro n ty p _ r s hon hn rfl
    refine ⟨fun b hb hlen hdue => ?_, fun hlen hdue => ?_⟩
    · obtain ⟨htrace, hlost, hd, hstb, hframe⟩ := State.putTrace_room (s := { s with hi := { s.hi with traceDue := r } })
        (ty := ty) (p := p) (n := n) (b := b) hn hb hlen rfl
      exact ⟨_, exec_tracePacket_due hon hdue, htrace, hlost, congrArg (fun t : State => t.hi.traceDue) hframe, hd, hstb, hframe⟩
    · obtain ⟨htrace, hlost, hcnt, hframe, hregs⟩ := State.putTrace_full (s := { s with hi := { s.hi with traceDue := r } })
        (ty := ty) (p := p) (n := n) hn hlen rfl
      exact ⟨_, exec_tracePacket_due hon hdue, htrace, hlost, hcnt, hframe, hregs⟩
  case time =>
    intro n k s hon hclock hk h0 hnew hin hn hlost hlen
    have howed : s.traceOwed = [] := if_pos hlost
    have hroom : (s.hi.trace.drop n ++ traceBytes 4 (leBytes 8 s.devtime)).length ≤ 4096 := by
      rw [List.length_append, traceBytes_length, leBytes_length]
      exact hlen
    have hb : s.hi.trace.drop n ++ traceBytes 4 (leBytes 8 s.devtime) =
        s.hi.trace.drop n ++ (s.traceOwed ++ traceBytes 4 (leBytes 8 s.devtime)) := by
      rw [howed]
      rfl
    obtain ⟨htrace, hlost', -, -, hframe⟩ := State.putTrace_room (s := { s with hi := { s.hi with traceSec := k } })
      (ty := 4) (p := leBytes 8 s.devtime) (n := n) hn hb hroom rfl
    refine ⟨_, exec_traceTime_due hon hclock hk h0 hnew hin, congrArg (fun t : State => t.hi.traceSec) hframe, htrace, ?_⟩
    rw [htrace]
    refine hframe.trans ?_
    show ({ s with hi := { s.hi with traceSec := k, trace := _, traceAt := _, traceLost := 0, traceD := _, traceStb := _ } } : State) = _
    rw [← hlost]

end Sys2Proof.Machine
end

section
/-! Frames of the span links (R402, R404, R409). The first clause of their statement supposes neither that the links' two sides are there
nor that nothing else waits; in a state without them a good frame advances no sequence. -/
namespace Sys2Proof.Machine

/-- PD09 is on and side 0 reads UP, but the state holds no side. -/
def noSidesState : State where
  regs := [(R.pwDomStateOn.key 0 0, 0x200), (R.slSStatusState.key 0 0, 2)]
  sl := { sides := [] }

/-- A frame of TYPE 0 and LSEQ 0: 74 bytes of 0. -/
def zeroFrame : List Byte := List.replicate 74 0

/-- Its CRC-32. -/
def zeroFrameCrc : Word := 2514962671

theorem frameOf_zeroFrame : (frameOf zeroFrame zeroFrameCrc).map (fun f => (f.lseq, f.nak)) = some (0, false) := by decide +kernel

/-- The frame is taken, and the sequence that side 0 expects next reads 0 as before. -/
theorem exec_longFrameReceive_noSidesState :
    ∃ t, exec (.longFrameReceive 0 zeroFrame zeroFrameCrc) noSidesState = .next t ∧ (t.spanSide 0).rxNext = 0 :=
  ⟨_, rfl, by decide +kernel⟩

/-- Refutes O51: its first clause does not suppose the two sides of the links. Where the state holds none, which no run reaches, a good
frame in order leaves the next sequence at 0. -/
theorem not_spanFrames : ¬ Obligations.SpanFrames := by
  rintro ⟨hreceive, -⟩
  obtain ⟨t, hexec, -, hnext⟩ := hreceive 0 zeroFrame zeroFrameCrc noSidesState (by decide +kernel) (by decide)
  obtain ⟨u, hexec', hzero⟩ := exec_longFrameReceive_noSidesState
  obtain rfl : t = u := Host.Outcome.next.inj (hexec.symm.trans hexec')
  obtain ⟨f, hf, hfields⟩ := Option.map_eq_some_iff.mp frameOf_zeroFrame
  obtain ⟨hseq, hnak⟩ := Prod.mk.inj hfields
  have hside : (noSidesState.spanSide 0).rxNext = 0 := by decide +kernel
  have hone := hnext f hf hnak (hseq.trans hside.symm)
  rw [hzero, hseq] at hone
  exact absurd hone (by decide)

end Sys2Proof.Machine
end

section
/-! The EN bit of a span link's side stays clear while items are pushed, delivered and reported (R233, R403, R416). -/
namespace Sys2Proof.Machine

/-! ## The fields that such steps write -/

/-- A row none of whose elements is the EN bit of a side: it lies above both sides, is a single field below them, or keeps to bit
addresses that are no multiple of 32 or of 256. -/
abbrev Row.offEn (r : Row) : Prop :=
  0xF10000 ≤ r.off ∨ (r.off < 0xF00000 ∧ r.s1 = 0 ∧ r.s2 = 0 ∧ r.lo < 32) ∨
    ((8 * r.off + r.lo) % 32 ≠ 0 ∧ r.s1 % 4 = 0 ∧ r.s2 % 4 = 0) ∨ ((8 * r.off + r.lo) % 256 ≠ 0 ∧ r.s1 % 32 = 0 ∧ r.s2 % 32 = 0)

theorem Row.offEn.key_ne {r : Row} (h : r.offEn) {n : Nat} (hn : n < 2) (i j : Nat) : r.key i j ≠ R.slSCtrlEn.key n 0 := by
  have hen : R.slSCtrlEn.key n 0 = 8 * (0xF01000 + 0x1000 * n) := rfl
  rw [hen]
  rcases h with h | ⟨hoff, h1, h2, hlo⟩ | ⟨hoff, h1, h2⟩ | ⟨hoff, h1, h2⟩
  · simp only [Row.key]
    omega
  · simp only [Row.key, h1, h2]
    omega
  · obtain ⟨b, hb⟩ := Nat.dvd_of_mod_eq_zero h1
    obtain ⟨c, hc⟩ := Nat.dvd_of_mod_eq_zero h2
    simp only [Row.key, hb, hc, Nat.mul_assoc]
    omega
  · obtain ⟨b, hb⟩ := Nat.dvd_of_mod_eq_zero h1
    obtain ⟨c, hc⟩ := Nat.dvd_of_mod_eq_zero h2
    simp only [Row.key, hb, hc, Nat.mul_assoc]
    omega

/-- A field that is 0 at reset reads 0 after any write of 0. -/
theorem State.reg_setReg_zero {s : State} {r r' : Row} {i j i' j' : Nat} (h : s.reg r' i' j' = 0) (hreset : r'.resetAt i' = 0) :
    (s.setReg r 0 i j).reg r' i' j' = 0 := by
  by_cases hk : r.key i j = r'.key i' j'
  · unfold State.setReg State.reg
    rw [Nat.zero_mod, ← hk]
    dsimp only
    split
    · rw [regGet_none _ _ _ (regDel_ne _ _), hreset]
    · exact regGet_regIns_self _ _ _ _ (regDel_ne _ _)
  · rw [State.reg_setReg_ne _ _ _ _ _ _ _ _ hk, h]

/-- The EN bit of side 0 or 1 is clear. -/
def State.enOff (n : Nat) (s : State) : Prop := n < 2 ∧ s.reg R.slSCtrlEn n = 0

section
variable {s t : State} {n : Nat}

theorem State.enOff.same (h : s.enOff n) (he : t.regs = s.regs) : t.enOff n := by
  refine ⟨h.1, ?_⟩
  unfold State.reg
  rw [he]
  exact h.2

theorem State.enOff.setReg (h : s.enOff n) {r : Row} (hr : r.offEn) {v i j : Nat} : (s.setReg r v i j).enOff n :=
  ⟨h.1, (State.reg_setReg_ne _ _ _ _ _ _ _ _ (hr.key_ne h.1 i j)).trans h.2⟩

theorem State.enOff.clear (h : s.enOff n) {r : Row} {i j : Nat} : (s.setReg r 0 i j).enOff n := ⟨h.1, State.reg_setReg_zero h.2 (by simp [Row.resetAt, R.slSCtrlEn])⟩

theorem State.enOff.ite {a b : State} {p : Prop} [Decidable p] (ha : a.enOff n) (hb : b.enOff n) : (if p then a else b).enOff n := by
  split
  · exact ha
  · exact hb

theorem State.enOff.modPal (h : s.enOff n) {f} : (s.modPal f).enOff n := h.same rfl
theorem State.enOff.modQueue (h : s.enOff n) {q f} : (s.modQueue q f).enOff n := h.same rfl
theorem State.enOff.modFu (h : s.enOff n) {f} : (s.modFu f).enOff n := h.same rfl
theorem State.enOff.modHi (h : s.enOff n) {f} : (s.modHi f).enOff n := h.same rfl
theorem State.enOff.modLg (h : s.enOff n) {f} : (s.modLg f).enOff n := h.same rfl
theorem State.enOff.modSl (h : s.enOff n) {f} : (s.modSl f).enOff n := h.same rfl
theorem State.enOff.modTimers (h : s.enOff n) {f} : (s.modTimers f).enOff n := h.same rfl
theorem State.enOff.tick (h : s.enOff n) : s.tick.enOff n := h.same rfl

/-! ## The palette (R232 to R246) -/

theorem State.enOff.refreshXoff (h : s.enOff n) : s.refreshXoff.enOff n := by
  have hreg (v : Nat) : (s.setReg R.eiXoffState v).enOff n := h.setReg (by decide)
  exact (hreg _).same rfl

theorem State.enOff.markerVector (h : s.enOff n) {q : Nat} : (s.markerVector q).enOff n := by
  have hbit : (s.setRegBit R.hiIrqStatusVec 4 true).enOff n := h.setReg (by decide)
  exact State.enOff.ite (State.enOff.ite hbit.modHi hbit) h

theorem State.enOff.watermark (h : s.enOff n) {q : Nat} : (s.watermark q).enOff n := h.modQueue.refreshXoff

theorem State.enOff.dropPush (h : s.enOff n) {q : Nat} : (s.dropPush q).enOff n := by
  have hcount : (s.bump R.qmQDropsCount q).enOff n := h.setReg (by decide)
  have hgap : ((s.bump R.qmQDropsCount q).bumpSat R.qmQGapCount q).enOff n := hcount.setReg (by decide)
  exact State.enOff.ite hcount.modQueue.markerVector (State.enOff.ite hcount.modQueue hgap.modQueue)

theorem State.enOff.landCell (h : s.enOff n) {q : Nat} {data : Cell64} {item : ItemId} {eop epm : Bool} :
    (s.landCell q data item eop epm).enOff n := by
  have hlow {t : State} (ht : t.enOff n) : t.poolLow.enOff n := State.enOff.ite (ht.setReg (by decide)) ht
  have htimer {t : State} (ht : t.enOff n) : t.gatherTimer.enOff n := by
    unfold State.gatherTimer
    split
    · exact ht.modTimers
    · exact ht.modTimers
  have hplaced : ∀ {t : State}, t.enOff n → (t.gatherStarts q item).enOff n := fun ht => State.enOff.ite (htimer ht.modFu) ht
  exact hplaced (hlow h.modQueue.tick).watermark

theorem State.enOff.releaseRetired (h : s.enOff n) {q : Nat} : (s.releaseRetired q).enOff n :=
  State.enOff.ite (State.enOff.refreshXoff (foldlKeeps (P := State.enOff n) (fun _ _ hx => hx.clear) _ h.modPal)) h

theorem State.enOff.renameItem (h : s.enOff n) {a b : ItemId} : (s.renameItem a b).enOff n := State.enOff.ite h h.modPal

theorem State.enOff.deliverHead (h : s.enOff n) {q ep : Nat} {take : Bool} : (s.deliverHead q ep take).enOff n := by
  unfold State.deliverHead
  split
  · exact h
  · extract_lets tag u dl v held w
    have hv : v.enOff n := h.modQueue.renameItem.modPal
    have hrelinked : (v.relinkMarker q).enOff n := State.enOff.ite hv hv.clear.modQueue.markerVector
    have hheld : ((v.modPal fun p => { p with held := p.held ++ [held] }).bump R.qmHoldHeld ep).enOff n := hv.modPal.setReg (by decide)
    have hw : w.enOff n := hrelinked.ite (hheld.ite hv)
    exact hw.watermark.releaseRetired

theorem State.enOff.toDropper (h : s.enOff n) {q : Nat} : (s.toDropper q).enOff n := by
  refine h.ite ?_
  dsimp only
  split
  · exact h.deliverHead.modPal
  · exact h.deliverHead

theorem State.enOff.push (h : s.enOff n) {ep q : Nat} {data : Cell64} {item : ItemId} {eop epm : Bool} :
    (s.push ep q data item eop epm).enOff n := by
  unfold State.push
  extract_lets note
  have hnote : (note s).enOff n := h.modQueue
  have hfreed : ((note s).bump R.qmQEvtDropRem q).enOff n := hnote.setReg (by decide)
  clear_value note
  split
  · exact h.setReg (by decide)
  · exact hnote.dropPush.toDropper.ite hnote.dropPush
  · refine (hfreed.ite hnote.landCell.toDropper).ite ?_
    split
    · exact hnote.modQueue.tick.deliverHead.ite (hnote.landCell.ite hnote.landCell.deliverHead)
    · exact hnote.landCell

/-! ## Reports, and the end of incoming items (R416, R460) -/

theorem State.enOff.report (h : s.enOff n) {item : ItemId} {reason stage flags : Nat} : (s.report item reason stage flags).enOff n := by
  have hcount (k : Nat) : (s.bump R.lgCntCount k).enOff n := h.setReg (by decide)
  unfold State.report
  split
  · exact (hcount 3).modLg.ite (hcount 3)
  · exact (hcount 4).ite (h.modLg.modLg.modTimers)

theorem State.enOff.abortRx (h : s.enOff n) {hit : Nat → RxItem → Bool} {side flags : Nat} : (s.abortRx hit side flags).enOff n :=
  foldlKeeps (P := State.enOff n) (fun _ _ hx => (State.enOff.report (hx.push.modSl.ite hx.push)).modSl) _ h

end

end Sys2Proof.Machine
end

section
/-! Training of the span links (R403, R406, R415 to R417, R422). -/
namespace Sys2Proof.Machine

section
variable {s t u : State} {n : Nat}

/-! ## The sides (R403) -/

/-- The sides and the links that are down are the same. -/
def State.sidesKept (s t : State) : Prop := t.sl.sides = s.sl.sides ∧ t.sl.linksDown = s.sl.linksDown

theorem State.sidesKept_refl (s : State) : s.sidesKept s := ⟨rfl, rfl⟩

theorem State.sidesKept.trans (h : s.sidesKept t) (h' : t.sidesKept u) : s.sidesKept u := ⟨h'.1.trans h.1, h'.2.trans h.2⟩

theorem State.linksKept.sidesKept (h : s.linksKept t) : s.sidesKept t := ⟨h.sides, h.linksDown⟩

theorem State.onlyPushed.sidesKept (h : s.onlyPushed t) : s.sidesKept t := by
  constructor <;> rw [h.sl]

theorem State.spanSide_congr (h : t.sl.sides = s.sl.sides) (n : Nat) : t.spanSide n = s.spanSide n := by
  unfold State.spanSide
  rw [h]

theorem State.spanSide_modSpan (hn : n < s.sl.sides.length) (f : SpanSide → SpanSide) : (s.modSpan n f).spanSide n = f (s.spanSide n) := by
  show (s.sl.sides.modify n f).getD n {} = f (s.sl.sides.getD n {})
  simp [List.getD, List.getElem?_eq_getElem hn]

theorem State.spanSide_clearWire (s : State) (n : Nat) : s.clearWire.spanSide n = { s.spanSide n with wire := [], shorts := [] } := by
  show ((s.sl.sides.map fun y => { y with wire := [], shorts := [] })[n]?).getD {} = _
  rw [List.getElem?_map]
  unfold State.spanSide
  rw [List.getD_eq_getElem?_getD]
  cases s.sl.sides[n]? <;> rfl

theorem State.length_sides_clearWire (s : State) : s.clearWire.sl.sides.length = s.sl.sides.length := List.length_map _

theorem State.length_sides_modSpan (s : State) (n : Nat) (f : SpanSide → SpanSide) :
    (s.modSpan n f).sl.sides.length = s.sl.sides.length := List.length_modify _ _ _

theorem Member.links_le (m : Member) : m.links ≤ 2 := by cases m <;> decide

theorem State.sideOn_lt (h : s.sideOn n = true) : n < 2 :=
  (of_decide_eq_true (Bool.and_eq_true_iff.mp h).1).trans_le s.member.links_le

/-! ## Fields beside those of a raise and of the sets of chips -/

/-- The fields of a side that its training reads. -/
theorem not_reachKey_side {n : Nat} (hn : n < 2) {r : Row} (hr : r ∈ [R.slSStatusState, R.slSCtrlEn]) : ¬ reachKey (r.key n 0) := by
  have hkeys : ∀ n < 2, ∀ r ∈ [R.slSStatusState, R.slSCtrlEn], r.key n 0 ∉ faultKeys ∧ r.key n 0 % 8 ≠ 5 ∧
      r.key n 0 ∉ [R.slReachReach.key 0 0, R.xrStatusUnreach.key 0 0, R.lgStatusCause.key 0 0] := by decide
  obtain ⟨h1, h5, h2⟩ := hkeys n hn r hr
  exact not_reachKey h1 h5 h2

theorem State.linkState_refreshReach (hn : n < 2) : s.refreshReach.linkState n = s.linkState n :=
  s.refreshReach_keeps.2 R.slSStatusState n 0 (not_reachKey_side hn (by simp))

theorem State.linkState_setReg_state (s : State) (v n : Nat) : (s.setReg R.slSStatusState v n).linkState n = v % 4 :=
  s.reg_setReg_self R.slSStatusState v n 0

/-! ## A side enters TRAINING (R403) -/

/-- A side shows TRAINING, and its limit runs. -/
def State.trainBegun (s : State) (n : Nat) : State :=
  let s := (s.setReg R.slSStatusState 1 n).modSpan n fun x => { x with trainGood := 0, heldLost := false }
  (s.disarm (.trainRetry n)).arm (.trainLimit n) 10000000

theorem State.train_eq (s : State) (n : Nat) : s.train n = (s.trainBegun n).refreshReach := rfl

theorem State.trainBegun_spec (s : State) (n : Nat) : (s.trainBegun n).linkState n = 1 ∧
    alGet (s.trainBegun n).timers (.trainLimit n) = some (s.devtime + 10000000) ∧
    s.trainBegun n = { s with regs := (s.trainBegun n).regs, sl := (s.trainBegun n).sl, timers := (s.trainBegun n).timers } ∧
    s.regsBut (s.trainBegun n) [R.slSStatusState.key n 0] :=
  ⟨s.linkState_setReg_state 1 n, alGet_alPut_self _ _ _, rfl, (s.regsBut_setReg R.slSStatusState 1 n 0).of_regs rfl⟩

theorem State.spanSide_trainBegun (hn : n < s.sl.sides.length) :
    (s.trainBegun n).spanSide n = { s.spanSide n with trainGood := 0, heldLost := false } :=
  State.spanSide_modSpan (s := s.setReg R.slSStatusState 1 n) hn _

theorem State.retry_trainBegun (s : State) (n : Nat) : (s.trainBegun n).armed (.trainRetry n) = false := by
  have hstopped : (s.disarm (.trainRetry n)).armed (.trainRetry n) = false := State.armed_disarm _ _
  unfold State.armed at hstopped ⊢
  refine Eq.trans ?_ hstopped
  exact congrArg Option.isSome (alGet_alPut_ne _ _ (by simp))

/-! ## A side becomes UP (R403, R415, R417) -/

/-- The side shows UP and its peer, its sequences begin afresh, and its link is not down. -/
def State.linkRaised (s : State) (n chip side : Nat) : State :=
  let link := s.ringLink s.chip n
  let s := ((s.setReg R.slSStatusState 2 n).setReg R.slSStatusPeerChip chip n).setReg R.slSStatusPeerSide side n
  let s := (s.setReg R.slSStatusStopIn 0 n).modSpan n fun x =>
    { x with trainGood := 0, txNext := 0, rxNext := 0, ackOwed := false, nakDue := false, nakSent := false, replay := [], dup := none }
  let s := s.modSl fun x => { x with linksDown := x.linksDown.filter (· != link) }
  (s.disarm (.trainLimit n)).disarm (.trainRetry n)

theorem State.linkComesUp_eq (s : State) (n chip side : Nat) : s.linkComesUp n chip side = (s.linkRaised n chip side).refreshReach.sendGrants :=
  rfl

/-- The fields of a side that show its peer. -/
def peerKeys (n : Nat) : List Nat :=
  [R.slSStatusState.key n 0, R.slSStatusPeerChip.key n 0, R.slSStatusPeerSide.key n 0, R.slSStatusStopIn.key n 0]

theorem State.linkRaised_regs (hn : n < 2) {chip side : Nat} (hchip : chip < 4) (hside : side < 2) :
    (s.linkRaised n chip side).linkState n = 2 ∧ (s.linkRaised n chip side).reg R.slSStatusPeerChip n = chip ∧
    (s.linkRaised n chip side).reg R.slSStatusPeerSide n = side ∧ (s.linkRaised n chip side).reg R.slSStatusStopIn n = 0 ∧
    s.regsBut (s.linkRaised n chip side) (peerKeys n) := by
  have hkeys : ∀ n < 2, R.slSStatusStopIn.key n 0 ≠ R.slSStatusPeerSide.key n 0 ∧ R.slSStatusStopIn.key n 0 ≠ R.slSStatusPeerChip.key n 0 ∧
      R.slSStatusStopIn.key n 0 ≠ R.slSStatusState.key n 0 ∧ R.slSStatusPeerSide.key n 0 ≠ R.slSStatusPeerChip.key n 0 ∧
      R.slSStatusPeerSide.key n 0 ≠ R.slSStatusState.key n 0 ∧ R.slSStatusPeerChip.key n 0 ≠ R.slSStatusState.key n 0 := by decide
  obtain ⟨h1, h2, h3, h4, h5, h6⟩ := hkeys n hn
  obtain ⟨w, hw⟩ : ∃ w : State, w = (((s.setReg R.slSStatusState 2 n).setReg R.slSStatusPeerChip chip n).setReg
    R.slSStatusPeerSide side n).setReg R.slSStatusStopIn 0 n := ⟨_, rfl⟩
  have hregs {r : Row} {i j : Nat} : (s.linkRaised n chip side).reg r i j = w.reg r i j := by rw [hw]; rfl
  refine ⟨?_, ?_, ?_, ?_, ?_⟩
  · show (s.linkRaised n chip side).reg R.slSStatusState n = 2
    rw [hregs, hw, State.reg_setReg_ne _ _ _ _ _ _ _ _ h3, State.reg_setReg_ne _ _ _ _ _ _ _ _ h5, State.reg_setReg_ne _ _ _ _ _ _ _ _ h6,
      State.reg_setReg_self]
    rfl
  · rw [hregs, hw, State.reg_setReg_ne _ _ _ _ _ _ _ _ h2, State.reg_setReg_ne _ _ _ _ _ _ _ _ h4, State.reg_setReg_self]
    exact Nat.mod_eq_of_lt hchip
  · rw [hregs, hw, State.reg_setReg_ne _ _ _ _ _ _ _ _ h1, State.reg_setReg_self]
    exact Nat.mod_eq_of_lt hside
  · rw [hregs, hw, State.reg_setReg_self]
    exact Nat.zero_mod _
  · have hwregs : s.regsBut w (peerKeys n) := by
      rw [hw]
      exact ((((s.regsBut_refl (peerKeys n)).setReg (by simp [peerKeys])).setReg (by simp [peerKeys])).setReg (by simp [peerKeys])).setReg
        (by simp [peerKeys])
    exact fun r i j hk => hregs.trans (hwregs r i j hk)

theorem State.linkRaised_timers (s : State) (n chip side : Nat) : (s.linkRaised n chip side).armed (.trainLimit n) = false ∧
    (s.linkRaised n chip side).armed (.trainRetry n) = false := by
  refine ⟨?_, State.armed_disarm _ _⟩
  have hstopped : (s.disarm (.trainLimit n)).armed (.trainLimit n) = false := State.armed_disarm _ _
  unfold State.armed at hstopped ⊢
  refine Eq.trans ?_ hstopped
  exact congrArg Option.isSome (alGet_alDel_ne _ (by simp))

/-- A side that shows its peer begins afresh, and its link is not down. -/
def State.linkFresh (s : State) (n link : Nat) : State :=
  (((s.modSpan n fun x => { x with
    trainGood := 0, txNext := 0, rxNext := 0, ackOwed := false, nakDue := false, nakSent := false, replay := [], dup := none }).modSl
      fun x => { x with linksDown := x.linksDown.filter (· != link) }).disarm (.trainLimit n)).disarm (.trainRetry n)

/-- A side shows UP and its peer. -/
def State.peerShown (s : State) (n chip side : Nat) : State :=
  (((s.setReg R.slSStatusState 2 n).setReg R.slSStatusPeerChip chip n).setReg R.slSStatusPeerSide side n).setReg R.slSStatusStopIn 0 n

theorem State.linkRaised_eq (s : State) (n chip side : Nat) :
    s.linkRaised n chip side = (s.peerShown n chip side).linkFresh n (s.ringLink s.chip n) := rfl

theorem State.linkFresh_frame (s : State) (n link : Nat) : s.linkFresh n link = { s with
      sl := { s.sl with sides := (s.linkFresh n link).sl.sides, linksDown := s.sl.linksDown.filter (· != link) },
      timers := (s.linkFresh n link).timers } := rfl

theorem State.peerShown_frame (s : State) (n chip side : Nat) : s.peerShown n chip side = { s with regs := (s.peerShown n chip side).regs } :=
  rfl

theorem State.linkRaised_frame (s : State) (n chip side : Nat) :
    (s.linkRaised n chip side).sl.linksDown = s.sl.linksDown.filter (· != s.ringLink s.chip n) ∧
    s.linkRaised n chip side = { s with
      regs := (s.linkRaised n chip side).regs,
      sl := { s.sl with sides := (s.linkRaised n chip side).sl.sides, linksDown := (s.linkRaised n chip side).sl.linksDown },
      timers := (s.linkRaised n chip side).timers } := by
  have hfresh := State.linkFresh_frame (s.peerShown n chip side) n (s.ringLink s.chip n)
  rw [← State.linkRaised_eq] at hfresh
  have hpeer := s.peerShown_frame n chip side
  generalize s.peerShown n chip side = w at *
  generalize s.linkRaised n chip side = t at *
  rw [hfresh, hpeer]
  exact ⟨rfl, rfl⟩

theorem State.spanSide_linkRaised (hn : n < s.sl.sides.length) (chip side : Nat) : (s.linkRaised n chip side).spanSide n =
    { s.spanSide n with
      trainGood := 0, txNext := 0, rxNext := 0, ackOwed := false, nakDue := false, nakSent := false, replay := [], dup := none } :=
  State.spanSide_modSpan (s := (((s.setReg R.slSStatusState 2 n).setReg R.slSStatusPeerChip chip n).setReg
    R.slSStatusPeerSide side n).setReg R.slSStatusStopIn 0 n) hn _

/-! ## A side falls (R410, R416) -/

theorem State.sidesKept.push (h : s.sidesKept t) {ep q : Nat} {data : Cell64} {item : ItemId} {eop epm : Bool} :
    s.sidesKept (t.push ep q data item eop epm) := h.trans t.onlyPushed_refl.push.sidesKept

theorem State.sidesKept.report (h : s.sidesKept t) {item : ItemId} {reason stage flags : Nat} :
    s.sidesKept (t.report item reason stage flags) := h.trans t.onlyPushed_refl.report.sidesKept

theorem State.sidesKept.modRx (h : s.sidesKept t) {key : Nat} {f : RxStream → RxStream} : s.sidesKept (t.modRx key f) := h

theorem State.sidesKept_abortRx (s : State) (hit : Nat → RxItem → Bool) (side flags : Nat) : s.sidesKept (s.abortRx hit side flags) := by
  refine foldlKeeps (P := s.sidesKept) (fun x e hx => State.sidesKept.modRx (State.sidesKept.report ?_)) _ s.sidesKept_refl
  split
  · exact hx.push
  · exact hx.push

theorem State.linkFalls_spec (hn : n < s.sl.sides.length) (flags : Nat) : ((s.linkFalls n flags).spanSide n).replay = [] ∧
    s.ringLink s.chip n ∈ (s.linkFalls n flags).sl.linksDown ∧ (s.linkFalls n flags).sl.sides.length = s.sl.sides.length := by
  obtain ⟨a, ha⟩ : ∃ a : State, a = (s.modSpan n fun x => { x with
    replay := [], forward := [], ctrl := [], ackOwed := false, nakDue := false }).modSl fun x => { x with
      linksDown := withLink x.linksDown (s.ringLink s.chip n) } := ⟨_, rfl⟩
  have hfalls : s.linkFalls n flags = ((((a.disarm (.ack n)).disarm (.ackIdle n)).abortRx (fun _ x => x.side == n) n flags).setReg
      R.slSStatusStopIn 0 n) := by
    rw [ha]
    rfl
  obtain ⟨hsides, hdown⟩ := State.sidesKept_abortRx ((a.disarm (.ack n)).disarm (.ackIdle n)) (fun _ x => x.side == n) n flags
  have hside : a.spanSide n = { s.spanSide n with replay := [], forward := [], ctrl := [], ackOwed := false, nakDue := false } := by
    rw [ha]
    exact State.spanSide_modSpan (s := s) hn _
  have hlength : a.sl.sides.length = s.sl.sides.length := by
    rw [ha]
    exact State.length_sides_modSpan s n _
  rw [hfalls]
  refine ⟨?_, ?_, ?_⟩
  · exact (congrArg SpanSide.replay (State.spanSide_congr (s := a) hsides n)).trans (by rw [hside])
  · show _ ∈ (State.abortRx _ _ _ _).sl.linksDown
    rw [hdown, ha]
    exact mem_withLink.2 (.inr rfl)
  · exact (congrArg List.length hsides).trans hlength

end

end Sys2Proof.Machine
end

section
/-! The partner of an UP side trains again, and the commands of a side's training (R403, R410, R416, R417, R422). -/
namespace Sys2Proof.Machine

section
variable {s t u : State} {n : Nat}

/-! ## Items end with their link (R320, R410) -/

/-- The fields that the end of items writes: counts of the ledger head and of expert routing. -/
def exhaustKey (k : Nat) : Prop := k = R.xrCntCount.key 2 0 ∨ faultKey k

theorem State.modEntry_frame (s : State) (obj : Nat) (f : XrEntry → XrEntry) : s.modEntry obj f = { s with xr := (s.modEntry obj f).xr } := by
  unfold State.modEntry
  split <;> rfl

theorem State.setHazard_spec (s : State) (tbl obj : Nat) :
    (s.setHazard tbl obj).sl = s.sl ∧ s.regsOutside exhaustKey (s.setHazard tbl obj) := by
  unfold State.setHazard
  extract_lets was u
  have hu : u.sl = s.sl ∧ s.regsOutside exhaustKey u := by
    have hcount : s.regsOutside exhaustKey (s.bump R.xrCntCount 2) := (s.regsOutside_refl exhaustKey).setReg (.inl rfl)
    unfold u
    split
    · exact ⟨rfl, s.regsOutside_refl _⟩
    · exact ⟨rfl, hcount⟩
  rw [State.modEntry_frame]
  exact ⟨hu.1, hu.2.of_regs rfl⟩

theorem State.tokenLost_spec (s : State) (item : ItemId) : (s.tokenLost item).sl = s.sl ∧ s.regsOutside exhaustKey (s.tokenLost item) := by
  unfold State.tokenLost
  split
  · exact ⟨rfl, s.regsOutside_refl _⟩
  · split
    · exact ⟨rfl, s.regsOutside_refl _⟩
    · dsimp only
      split
      · obtain ⟨hsl, hregs⟩ := State.setHazard_spec _ _ _
        exact ⟨hsl, hregs⟩
      · exact ⟨rfl, (s.regsOutside_refl _).of_regs rfl⟩

theorem State.exhaust_spec (s : State) (l : List SpanItem) (side flags : Nat) :
    s.sidesKept (s.exhaust l side flags) ∧ s.regsOutside exhaustKey (s.exhaust l side flags) := by
  refine foldlKeeps (P := fun t => s.sidesKept t ∧ s.regsOutside exhaustKey t) (fun t x ⟨hsides, hregs⟩ => ?_) _
    ⟨s.sidesKept_refl, s.regsOutside_refl _⟩
  obtain ⟨u, hu⟩ : ∃ u : State, u = (t.report x.item 0x05 side flags).disarm (.deliv x.item) := ⟨_, rfl⟩
  have husides : s.sidesKept u := by
    rw [hu]
    exact hsides.report
  have huregs : t.regsOutside faultKey u := by
    rw [hu]
    exact (t.regsOutside_refl faultKey).report.of_regs rfl
  obtain ⟨hlostsl, hlostregs⟩ := u.tokenLost_spec x.item
  rw [← hu]
  refine ⟨husides.trans ?_, fun r i j hk => ?_⟩
  · constructor
    · exact congrArg (·.sides) hlostsl
    · exact congrArg (·.linksDown) hlostsl
  · exact (hlostregs r i j hk).trans ((huregs r i j fun h => hk (.inr h)).trans (hregs r i j hk))

theorem State.ringLink_congr (h : ∀ r ∈ [R.slRingTopo, R.slRingNM1, R.xrCtrlChip], t.reg r = s.reg r) (n : Nat) :
    t.ringLink t.chip n = s.ringLink s.chip n := by
  have htopo : t.reg R.slRingTopo = s.reg R.slRingTopo := h _ (by simp)
  have hchips : t.reg R.slRingNM1 = s.reg R.slRingNM1 := h _ (by simp)
  have hchip : t.reg R.xrCtrlChip = s.reg R.xrCtrlChip := h _ (by simp)
  unfold State.ringLink State.chips State.chip
  rw [htopo, hchips, hchip]

theorem not_exhaustKey_ring : ∀ r ∈ [R.slRingTopo, R.slRingNM1, R.xrCtrlChip], ¬ exhaustKey (r.key 0 0) := by
  have hkeys : ∀ r ∈ [R.slRingTopo, R.slRingNM1, R.xrCtrlChip], r.key 0 0 ∉ faultKeys ∧ r.key 0 0 % 8 ≠ 5 ∧
      r.key 0 0 ≠ R.xrCntCount.key 2 0 := by decide
  rintro r hr (h | h)
  · exact (hkeys r hr).2.2 h
  · exact not_faultKey (hkeys r hr).1 (hkeys r hr).2.1 h

theorem State.ringLink_exhaust (s : State) (l : List SpanItem) (side flags n : Nat) :
    (s.exhaust l side flags).ringLink (s.exhaust l side flags).chip n = s.ringLink s.chip n :=
  State.ringLink_congr (fun r hr => (s.exhaust_spec l side flags).2 r 0 0 (not_exhaustKey_ring r hr)) n

/-! ## The partner of an UP side trains again (R410, R416) -/

theorem State.partnerTrains_spec (hn : n < 2) (hlen : s.sl.sides.length = 2) : (s.partnerTrains n).linkState n = 1 ∧
    ((s.partnerTrains n).spanSide n).replay = [] ∧ ((s.partnerTrains n).spanSide n).trainGood = 0 ∧
    s.ringLink s.chip n ∈ (s.partnerTrains n).sl.linksDown := by
  obtain ⟨a, ha⟩ : ∃ a : State, a = s.exhaust (s.sl.items.filter fun x =>
    (s.spanSide n).replay.any fun e => s.frameOfItem e.frame x) n (s.reg R.slSStatusPeerChip n) := ⟨_, rfl⟩
  obtain ⟨b, hb⟩ : ∃ b : State, b = a.linkFalls n (s.reg R.slSStatusPeerChip n) := ⟨_, rfl⟩
  have hlink : a.ringLink a.chip n = s.ringLink s.chip n := by rw [ha]; exact State.ringLink_exhaust ..
  have halen : a.sl.sides.length = 2 := by
    rw [ha, (State.exhaust_spec ..).1.1]
    exact hlen
  obtain ⟨hreplay, hdown, hlength⟩ := State.linkFalls_spec (s := a) (by rw [halen]; exact hn) (s.reg R.slSStatusPeerChip n)
  rw [← hb] at hreplay hdown hlength
  have hend : s.partnerTrains n = ((b.trainBegun n).refreshReach).bump R.slSCntCount n 11 := by rw [hb, ha]; rfl
  obtain ⟨hsides, hlinks⟩ := (b.trainBegun n).refreshReach_keeps.1.sidesKept
  have hside : (s.partnerTrains n).spanSide n = { b.spanSide n with trainGood := 0, heldLost := false } := by
    rw [hend]
    refine Eq.trans (State.spanSide_congr (s := b.trainBegun n) hsides n) ?_
    exact State.spanSide_trainBegun (by rw [hlength, halen]; exact hn)
  refine ⟨?_, ?_, ?_, ?_⟩
  · have hcount : ∀ n < 2, R.slSCntCount.key n 11 ≠ R.slSStatusState.key n 0 := by decide
    rw [hend]
    refine (State.reg_setReg_ne _ _ _ _ _ _ _ _ (hcount n hn)).trans ?_
    exact (State.linkState_refreshReach hn).trans (b.trainBegun_spec n).1
  · rw [hside]
    exact hreplay
  · rw [hside]
  · rw [hend]
    show _ ∈ ((b.trainBegun n).refreshReach).sl.linksDown
    rw [hlinks, ← hlink]
    exact hdown

/-! ## TRAIN_PAIR_RECEIVE -/

/-- The good pairs in a row behind one more pair. -/
def State.pairsInRow (s : State) (n : Nat) (ring : BitVec 16) (chip : BitVec 2) (ps good : Bool) : Nat :=
  if good = true ∧ ring.toNat = s.reg R.slRingRingId ∧ s.ringNeighbour n = some (chip.toNat, ofFlag ps) then
    (s.spanSide n).trainGood + 1 else 0

theorem exec_trainPairReceive_counts {ring : BitVec 16} {chip : BitVec 2} {ps good : Bool} {k : Nat} (hon : s.sideOn n = true)
    (hstate : s.linkState n = 1 ∨ s.linkState n = 2) (hk : k = s.pairsInRow n ring chip ps good) :
    exec (.trainPairReceive n ring chip ps good) s = .next (if k < 64 then s.clearWire.modSpan n fun x => { x with trainGood := k }
      else if s.linkState n = 1 then s.clearWire.linkComesUp n chip.toNat (ofFlag ps) else s.clearWire.partnerTrains n) := by
  have hcond : (!(s.sideOn n) || !(s.linkState n == 1 || s.linkState n == 2)) = false := by
    rw [hon]
    obtain h | h := hstate <;> simp [h]
  have hrow : (if (good && ring.toNat == s.clearWire.reg R.slRingRingId && s.clearWire.ringNeighbour n == some (chip.toNat, ofFlag ps)) = true
      then (s.clearWire.spanSide n).trainGood + 1 else 0) = k := by
    rw [hk, State.spanSide_clearWire]
    unfold State.pairsInRow
    have hregs : s.clearWire.reg R.slRingRingId = s.reg R.slRingRingId := rfl
    have hneighbour : s.clearWire.ringNeighbour n = s.ringNeighbour n := rfl
    rw [hregs, hneighbour]
    simp only [Bool.and_eq_true, beq_iff_eq, and_assoc]
  show execTrainPairReceive n ring chip ps good s = _
  unfold execTrainPairReceive
  rw [hcond, if_neg Bool.false_ne_true]
  dsimp only
  rw [hrow]
  rfl

theorem exec_trainPairReceive_idle {ring : BitVec 16} {chip : BitVec 2} {ps good : Bool}
    (h : s.sideOn n = false ∨ s.linkState n = 0 ∨ s.linkState n = 3) : exec (.trainPairReceive n ring chip ps good) s = .next s := by
  refine congrArg Host.Outcome.next (if_pos ?_)
  obtain h | h | h := h <;> simp [h]

/-! ## TRAINING_TIMEOUT, TRAINING_RETRY and RETRAIN -/

/-- A side shows LOST, and its limit runs no more. -/
def State.lostShown (s : State) (n : Nat) : State := (s.setReg R.slSStatusState 3 n).disarm (.trainLimit n)

theorem State.loseLink_eq {v : State} (hv : v = (s.lostShown n).raise (0xF01008 + 0x1000 * n) 0 1 0x0D) :
    s.loseLink n = (if (v.spanSide n).heldLost then v.disarm (.trainRetry n) else v.arm (.trainRetry n) 100000000).refreshReach := by
  rw [hv]
  rfl

theorem exec_trainingTimeout_due (hon : s.sideOn n = true) (hstate : s.linkState n = 1) (hdue : s.due (.trainLimit n) = true) :
    exec (.trainingTimeout n) s = .next (s.loseLink n) :=
  congrArg Host.Outcome.next (if_pos (by simp [hon, hstate, hdue]))

theorem exec_trainingRetry_due (hon : s.sideOn n = true) (hstate : s.linkState n = 3) (hdue : s.due (.trainRetry n) = true)
    (hheld : (s.spanSide n).heldLost = false) : exec (.trainingRetry n) s = .next ((s.train n).bump R.slSCntCount n 11) :=
  congrArg Host.Outcome.next (if_pos (by simp [hon, hstate, hdue, hheld]))

/-- RETRAIN leaves what a side's training reads. -/
theorem State.retrain_reads (hn : n < 2) : (s.setCmd R.slSCtrlRetrain n).sideOn n = s.sideOn n ∧
    (s.setCmd R.slSCtrlRetrain n).linkState n = s.linkState n ∧
    (s.setCmd R.slSCtrlRetrain n).flag R.slSCtrlEn n = s.flag R.slSCtrlEn n := by
  have hkeys : ∀ n < 2, R.pwDomStateOn.key 0 0 ∉ [R.slSCtrlRetrain.key n 0] ∧ R.slSStatusState.key n 0 ∉ [R.slSCtrlRetrain.key n 0] ∧
      R.slSCtrlEn.key n 0 ∉ [R.slSCtrlRetrain.key n 0] := by decide
  obtain ⟨hdom, hstate, hen⟩ := hkeys n hn
  have hregs := s.regsBut_setCmd R.slSCtrlRetrain n 1
  refine ⟨?_, hregs _ _ _ hstate, ?_⟩
  · have hpart : (s.setCmd R.slSCtrlRetrain n).part = s.part := by
      unfold State.setCmd
      split <;> rfl
    unfold State.sideOn State.member State.domOn
    rw [hpart, hregs R.pwDomStateOn 0 0 hdom]
  · unfold State.flag
    rw [hregs R.slSCtrlEn n 0 hen]

theorem exec_retrain_on (hon : s.sideOn n = true) : exec (.retrain n) s = .next (if s.linkState n == 3 && s.flag R.slSCtrlEn n then
    ((s.setCmd R.slSCtrlRetrain n).train n).bump R.slSCntCount n 11 else s.setCmd R.slSCtrlRetrain n) := by
  obtain ⟨hside, hstate, hen⟩ := s.retrain_reads (State.sideOn_lt hon)
  show execRetrain n s = _
  unfold execRetrain
  rw [if_pos hon]
  dsimp only
  rw [hside, hstate, hen, hon, Bool.true_and]

theorem exec_retrain_off (hoff : s.sideOn n = false) : exec (.retrain n) s = .next s := by
  show execRetrain n s = _
  unfold execRetrain
  rw [hoff, if_neg Bool.false_ne_true]
  dsimp only
  rw [hoff]
  rfl

/-! ## SPAN_LINK_ENABLE -/

/-- EN is written, and the wire forgets what the sides sent last. -/
def State.enableSet (s : State) (n : Nat) (on : Bool) : State := (s.setFlag R.slSCtrlEn on n).clearWire

theorem State.enableSet_spec (hn : n < 2) (s : State) (on : Bool) : (s.enableSet n on).reg R.slSCtrlEn n = ofFlag on ∧
    (s.enableSet n on).linkState n = s.linkState n ∧ (s.enableSet n on).sl.sides.length = s.sl.sides.length ∧
    s.enableSet n on = { s with regs := (s.enableSet n on).regs, sl := (s.enableSet n on).sl } ∧
    s.regsBut (s.enableSet n on) [R.slSCtrlEn.key n 0] := by
  have hkeys : ∀ n < 2, R.slSCtrlEn.key n 0 ≠ R.slSStatusState.key n 0 := by decide
  refine ⟨?_, State.reg_setReg_ne _ _ _ _ _ _ _ _ (hkeys n hn), State.length_sides_clearWire _, rfl,
    (s.regsBut_setReg R.slSCtrlEn (ofFlag on) n 0).of_regs rfl⟩
  refine (State.reg_setReg_self _ R.slSCtrlEn _ _ _).trans ?_
  cases on <;> rfl

theorem exec_spanLinkEnable_on (hon : s.sideOn n = true) (hstate : s.linkState n = 0) :
    exec (.spanLinkEnable n true) s = .next ((s.enableSet n true).train n) := by
  have hdown : (s.enableSet n true).linkState n = 0 := (State.enableSet_spec (State.sideOn_lt hon) s true).2.1.trans hstate
  show execSpanLinkEnable n true s = _
  unfold execSpanLinkEnable
  rw [hon]
  exact congrArg Host.Outcome.next (if_pos hdown)

/-- A side shows DOWN, and its timers of training run no more. -/
def State.downShown (s : State) (n : Nat) : State :=
  ((s.setReg R.slSStatusState 0 n).disarm (.trainLimit n)).disarm (.trainRetry n)

theorem exec_spanLinkEnable_off (hon : s.sideOn n = true) (hstate : s.linkState n ≠ 0) :
    exec (.spanLinkEnable n false) s = .next (((if s.linkState n = 2 then (s.enableSet n false).linkFalls n (s.enableSet n false).chip
      else s.enableSet n false).downShown n).refreshReach) := by
  have hsame : (s.enableSet n false).linkState n = s.linkState n := (State.enableSet_spec (State.sideOn_lt hon) s false).2.1
  have hup : (s.enableSet n false).linkState n ≠ 0 := hsame.trans_ne hstate
  show execSpanLinkEnable n false s = _
  unfold execSpanLinkEnable
  rw [hon]
  refine (congrArg Host.Outcome.next (if_neg hup)).trans ?_
  rw [← hsame]
  rfl

theorem State.enOff_linkFalls (h : s.enOff n) (flags : Nat) : (s.linkFalls n flags).enOff n := by
  unfold State.linkFalls
  dsimp only
  refine State.enOff.clear (State.enOff.abortRx ?_)
  exact h.same rfl

theorem exec_spanLinkEnable_idle {on : Bool} (hoff : s.sideOn n = false) : exec (.spanLinkEnable n on) s = .next s :=
  congrArg Host.Outcome.next (if_pos (by simp [hoff]))

theorem State.downShown_spec (hn : n < 2) (s : State) : (s.downShown n).linkState n = 0 ∧ (s.downShown n).armed (.trainLimit n) = false ∧
    (s.downShown n).armed (.trainRetry n) = false ∧ (s.downShown n).reg R.slSCtrlEn n = s.reg R.slSCtrlEn n ∧
    s.downShown n = { s with regs := (s.downShown n).regs, timers := (s.downShown n).timers } ∧
    s.regsBut (s.downShown n) [R.slSStatusState.key n 0] := by
  have hkeys : ∀ n < 2, R.slSStatusState.key n 0 ≠ R.slSCtrlEn.key n 0 := by decide
  refine ⟨s.linkState_setReg_state 0 n, ?_, State.armed_disarm _ _, State.reg_setReg_ne _ _ _ _ _ _ _ _ (hkeys n hn), rfl,
    (s.regsBut_setReg R.slSStatusState 0 n 0).of_regs rfl⟩
  have hstopped : (s.disarm (.trainLimit n)).armed (.trainLimit n) = false := State.armed_disarm _ _
  unfold State.armed at hstopped ⊢
  refine Eq.trans ?_ hstopped
  exact congrArg Option.isSome (alGet_alDel_ne _ (by simp))

end

/-- Settles O50: each command through what it leaves before the look at the links and the grants. -/
theorem spanTraining : Obligations.SpanTraining := by
  unfold Obligations.SpanTraining
  refine ⟨?pair, ?pairIdle, ?timeout, ?retry, ?sent, ?idle, ?enableIdle, ?enable, ?disable, ?disableUp⟩
  case pair =>
    intro n ring chip ps good k s hon hstate hlen hk
    have hn := State.sideOn_lt hon
    have hexec := exec_trainPairReceive_counts hon hstate (k := k) hk
    have hlen' : n < s.clearWire.sl.sides.length := by rw [State.length_sides_clearWire, hlen]; exact hn
    refine ⟨fun hlow => ?_, fun hhigh hup => ?_, fun hhigh htraining => ?_⟩
    · rw [if_pos hlow] at hexec
      refine ⟨_, hexec, ?_, rfl⟩
      rw [State.spanSide_modSpan hlen', State.spanSide_clearWire]
    · rw [if_neg (by omega), if_neg (by omega)] at hexec
      obtain ⟨hl, hr, hg, hd⟩ := State.partnerTrains_spec (s := s.clearWire) hn (by rw [State.length_sides_clearWire, hlen])
      exact ⟨_, hexec, rfl, hl, hr, hg, hd⟩
    · rw [if_neg (by omega), if_pos htraining, State.linkComesUp_eq] at hexec
      have hps : ofFlag ps < 2 := by cases ps <;> decide
      obtain ⟨hl, hc, hside, hstop, hregs⟩ := State.linkRaised_regs (s := s.clearWire) hn chip.isLt hps
      obtain ⟨hlimit, hretry⟩ := s.clearWire.linkRaised_timers n chip.toNat (ofFlag ps)
      obtain ⟨hdown, hframe⟩ := s.clearWire.linkRaised_frame n chip.toNat (ofFlag ps)
      refine ⟨_, _, hexec, hl, hc, hside, hstop, hlimit, hretry, ?_, hdown, hframe, hregs, rfl⟩
      rw [State.spanSide_linkRaised hlen', State.spanSide_clearWire]
  case pairIdle => exact fun n ring chip ps good s h => exec_trainPairReceive_idle h
  case timeout =>
    intro n s hon hstate hdue
    obtain ⟨v, hv⟩ : ∃ v : State, v = (s.lostShown n).raise (0xF01008 + 0x1000 * n) 0 1 0x0D := ⟨_, rfl⟩
    have hexec := exec_trainingTimeout_due hon hstate hdue
    rw [State.loseLink_eq hv] at hexec
    exact ⟨_, s.lostShown n, v, hexec, s.linkState_setReg_state 3 n, State.armed_disarm _ _, rfl,
      (s.regsBut_setReg R.slSStatusState 3 n 0).of_regs rfl, hv, rfl⟩
  case retry =>
    intro n f s v hon hstate hlen hcase
    have hn := State.sideOn_lt hon
    have hexec : exec f s = .next ((v.trainBegun n).refreshReach.bump R.slSCntCount n 11) := by
      obtain ⟨rfl, rfl, hdue, hheld⟩ | ⟨rfl, rfl, hen⟩ := hcase
      · exact exec_trainingRetry_due hon hstate hdue hheld
      · refine (exec_retrain_on hon).trans ?_
        rw [if_pos (by simp [hstate, hen])]
        rfl
    have hv : v.sl = s.sl ∧ v.devtime = s.devtime := by
      obtain ⟨-, rfl, -, -⟩ | ⟨-, rfl, -⟩ := hcase
      · exact ⟨rfl, rfl⟩
      · unfold State.setCmd
        split <;> exact ⟨rfl, rfl⟩
    obtain ⟨hl, hlimit, hframe, hregs⟩ := v.trainBegun_spec n
    refine ⟨_, v.trainBegun n, hexec, hl, ?_, v.retry_trainBegun n, ?_, hframe, hregs, rfl⟩
    · rw [State.spanSide_trainBegun (by rw [hv.1, hlen]; exact hn), State.spanSide_congr (congrArg (·.sides) hv.1)]
    · rw [hlimit, hv.2]
  case sent =>
    intro n s hon hstate
    exact if_pos (by simp [hon, hstate])
  case idle =>
    intro n s
    refine ⟨fun h => congrArg Host.Outcome.next (if_neg ?_), fun h => congrArg Host.Outcome.next (if_neg ?_), exec_retrain_off, fun hon h => ?_⟩
    · obtain h | h := h <;> simp [h]
    · obtain h | h | h := h <;> simp [h]
    · rw [exec_retrain_on hon, if_neg]
      obtain h | h := h <;> simp [h]
  case enableIdle => exact fun n on s hoff => exec_spanLinkEnable_idle hoff
  case enable =>
    intro n s hon hstate hlen
    have hn := State.sideOn_lt hon
    obtain ⟨hen, -, -, hset, hsetregs⟩ := State.enableSet_spec hn s true
    obtain ⟨hl, hlimit, hframe, hregs⟩ := (s.enableSet n true).trainBegun_spec n
    have hkeys : ∀ n < 2, R.slSCtrlEn.key n 0 ∉ [R.slSStatusState.key n 0] := by decide
    refine ⟨_, (s.enableSet n true).trainBegun n, exec_spanLinkEnable_on hon hstate, ?_, hl, hlimit, ?_, fun r i j hk => ?_, rfl⟩
    · rw [hregs R.slSCtrlEn n 0 (hkeys n hn), hen]
      rfl
    · rw [hframe, hset]
    · simp only [List.mem_cons, List.not_mem_nil, or_false, not_or] at hk
      rw [hregs r i j (by simp [hk.2]), hsetregs r i j (by simp [hk.1])]
  case disable =>
    intro n s hon hstate
    have hn := State.sideOn_lt hon
    obtain ⟨hen, -, -, hset, hsetregs⟩ := State.enableSet_spec hn s false
    obtain ⟨hl, hlimit, hretry, hkept, hframe, hregs⟩ := State.downShown_spec hn (s.enableSet n false)
    have hexec := exec_spanLinkEnable_off hon (by omega)
    rw [if_neg (by omega)] at hexec
    refine ⟨_, (s.enableSet n false).downShown n, hexec, hkept.trans hen, hl, hlimit, hretry, ?_, fun r i j hk => ?_, rfl⟩
    · rw [hframe, hset]
    · simp only [List.mem_cons, List.not_mem_nil, or_false, not_or] at hk
      rw [hregs r i j (by simp [hk.2]), hsetregs r i j (by simp [hk.1])]
  case disableUp =>
    intro n s hon hstate hlen
    have hn := State.sideOn_lt hon
    obtain ⟨hen, -, hlength, -, -⟩ := State.enableSet_spec hn s false
    have hexec := exec_spanLinkEnable_off hon (by omega)
    rw [if_pos hstate] at hexec
    obtain ⟨b, hb⟩ : ∃ b : State, b = (s.enableSet n false).linkFalls n (s.enableSet n false).chip := ⟨_, rfl⟩
    rw [← hb] at hexec
    obtain ⟨hreplay, -, -⟩ := State.linkFalls_spec (s := s.enableSet n false) (by rw [hlength, hlen]; exact hn) (s.enableSet n false).chip
    rw [← hb] at hreplay
    have hboff : b.reg R.slSCtrlEn n = 0 := by
      rw [hb]
      exact (State.enOff_linkFalls ⟨hn, hen⟩ _).2
    obtain ⟨hl, -, -, hkept, hframe, -⟩ := State.downShown_spec hn b
    obtain ⟨hlinks, hreach⟩ := (b.downShown n).refreshReach_keeps
    refine ⟨_, hexec, ?_, ?_, ?_⟩
    · rw [hreach R.slSCtrlEn n 0 (not_reachKey_side hn (by simp)), hkept, hboff]
    · rw [State.linkState_refreshReach hn, hl]
    · rw [State.spanSide_congr (s := b.downShown n) hlinks.sides, hframe]
      exact hreplay

end Sys2Proof.Machine
end

section
/-! Expert routing: what its operations share, and DISPATCH, the bias loop and the timer of a remote token (R312 to R333). -/
namespace Sys2Proof.Machine

section
variable {s t : State} {k tl : Nat} {o : SlotOp} {d : ExpertDesc}

/-! ## Slot operations -/

/-- An operation whose region does not fit is in progress no more. -/
theorem State.opAt_boundsFail (s : State) (k cls : Nat) : (s.boundsFail k).opAt k cls = none := by
  unfold State.boundsFail
  cases h : s.pp.ops[k]? with
  | none => simp [State.opAt, h]
  | some o => exact State.opAt_finishOp _ k cls

/-- An operation of expert routing is an operation in progress of class 5. -/
theorem State.expertOp_opAt {sub : Nat} (h : s.expertOp k sub = some (o, d, tl)) : s.opAt k 5 = some o := by
  unfold State.expertOp at h
  cases hop : s.opAt k 5 with
  | none => rw [hop] at h; exact absurd h (by simp)
  | some o' =>
    rw [hop] at h
    dsimp only at h
    split at h
    · split at h
      · rw [(Prod.mk.inj (Option.some.inj h)).1]
      · exact absurd h (by simp)
    · exact absurd h (by simp)

/-! ## Entries of objects (R312) -/

theorem alGet_alMod_self {α β : Type} [DecidableEq α] (l : List (α × β)) (x : α) (d : β) (f : β → β) :
    alGet (alMod l x d f) x = some (f ((alGet l x).getD d)) := alGet_alPut_self _ _ _

theorem alGet_alMod_ne {α β : Type} [DecidableEq α] (l : List (α × β)) {x y : α} (d : β) (f : β → β) (h : y ≠ x) :
    alGet (alMod l x d f) y = alGet l y := alGet_alPut_ne l _ h

theorem State.xrEntry_congr (h : t.xr.entries = s.xr.entries) (m : Nat) : t.xrEntry m = s.xrEntry m := by
  unfold State.xrEntry
  rw [h]

theorem State.xrEntry_modEntry_self (s : State) {obj : Nat} (h : obj < 4096) (f : XrEntry → XrEntry) :
    (s.modEntry obj f).xrEntry obj = f (s.xrEntry obj) := by
  rw [State.modEntry, if_pos h]
  exact congrArg (Option.getD · {}) (alGet_alMod_self s.xr.entries obj {} f)

theorem State.xrEntry_modEntry_ne (s : State) {obj m : Nat} (f : XrEntry → XrEntry) (h : m ≠ obj) :
    (s.modEntry obj f).xrEntry m = s.xrEntry m := by
  unfold State.modEntry
  split
  · exact congrArg (Option.getD · {}) (alGet_alMod_ne s.xr.entries {} f h)
  · rfl

/-- Entries are all that a change of an entry touches. -/
theorem State.modEntry_entries (s : State) (obj : Nat) (f : XrEntry → XrEntry) :
    (s.modEntry obj f).xr = { s.xr with entries := (s.modEntry obj f).xr.entries } := by
  unfold State.modEntry
  split <;> rfl

/-! ## DISPATCH (R312 to R318) -/

theorem exec_dispatch_ends {bad : List Nat} (hop : s.expertOp k 0 = some (o, d, tl)) (hdue : s.xr.biasDue = false) :
    ∃ t, exec (.dispatch k bad) s = .next t ∧ t.opAt k 5 = none := by
  refine ⟨_, rfl, ?_⟩
  rw [hop]
  dsimp only
  rw [if_neg (by simp [hdue])]
  split
  · split
    · exact State.opAt_boundsFail _ k 5
    · exact State.opAt_finishOp _ k 5
  · exact State.opAt_boundsFail _ k 5

theorem exec_dispatch_waits {bad : List Nat} (h : s.expertOp k 0 = none ∨ s.xr.biasDue = true) : exec (.dispatch k bad) s = .next s := by
  show execDispatch k bad s = _
  unfold execDispatch
  cases hop : s.expertOp k 0 with
  | none => rfl
  | some p =>
    have hdue : s.xr.biasDue = true := h.resolve_left (by simp [hop])
    exact congrArg Host.Outcome.next (if_pos hdue)

/-- Without a candidate capacity drops nothing (R318). -/
theorem State.applyCapacity_of_none (s : State) (g : GoArgs) {tbl : Nat} (hazards : List Nat) (h : ∀ x ∈ s.xr.tokens, x.tbl ≠ tbl) :
    s.applyCapacity g tbl hazards = s := by
  have hnone : (s.xr.tokens.filter fun x => decide (x.tbl = tbl)) = [] :=
    List.filter_eq_nil_iff.mpr fun x hx => by simpa using h x hx
  have hone : ∀ c j, ((tokenOrder g hazards (([] : List Token).filter fun x => decide (x.expert = j))).drop c).foldl State.dropToken s = s :=
    fun c j => by rw [List.filter_nil]; exact congrArg (List.foldl State.dropToken s) List.drop_nil
  unfold State.applyCapacity
  extract_lets on mine cf
  have hmine : mine = [] := hnone
  clear_value mine
  subst hmine
  exact List.foldlRecOn on _ (motive := (· = s)) rfl fun u hu j _ => by
    subst hu
    exact hone _ j

/-- The counts of a dispatch without tokens (R318). -/
theorem State.writeKept_of_none (s : State) {tbl : Nat} (a : Nat) (h : ∀ x ∈ s.xr.tokens, x.tbl ≠ tbl) :
    s.writeKept tbl a = s.modScratch fun m => m.writeBytes a (List.replicate 128 0) := by
  have hnone : ∀ j, (s.xr.tokens.filter fun x => x.tbl == tbl && x.kept && x.expert == j) = [] := fun j =>
    List.filter_eq_nil_iff.mpr fun x hx => by simp [h x hx]
  have hzeros : ((List.range 64).flatMap fun _ => leBytes 2 0) = List.replicate 128 (0 : Byte) := by decide
  unfold State.writeKept
  simp only [hnone, List.length_nil, hzeros]

theorem State.writeRouting_spec (s : State) {part off nobj ntok base size : Nat} (hp : s.partOf tl part = some (base, size)) :
    s.writeRouting tl part off nobj ntok = { s with tmem := (s.writeRouting tl part off nobj ntok).tmem, freeCtr := s.freeCtr + 1 } ∧
    ∀ n, n < tileAddr tl (base + off) ∨ tileAddr tl (base + off) + min (Config.routingBytes nobj ntok) (size - off) ≤ n →
      (s.writeRouting tl part off nobj ntok).tmem.read n = s.tmem.read n := by
  unfold State.writeRouting
  rw [hp]
  exact ⟨rfl, fun n hn => Mem.read_makeUndef_out _ _ _ _ _ hn⟩

/-- The tokens and objects of a routing table are forgotten. -/
def Experts.withoutTable (x : Experts) (tbl : Nat) : Experts :=
  { x with
    tokens := x.tokens.filter (fun y => decide (y.tbl ≠ tbl))
    objects := x.objects.filter (fun y => decide (y.tbl ≠ tbl)) }

/-- DISPATCH of an empty table (R313, R314, R318). -/
theorem exec_dispatch_empty {base size a tbl : Nat} (hop : s.expertOp k 0 = some (o, d, tl)) (hdue : s.xr.biasDue = false)
    (hpart : s.partOf tl d.part = some (base, size)) (hin : s.region tl d.part d.inOff 16 = some a)
    (hout : s.region tl d.part d.outOff 0 = some tbl) (hcount : s.tileNat tl a 2 = 0) :
    exec (.dispatch k []) s = .next ((((s.modXr (·.withoutTable tbl)).modScratch fun m =>
      m.writeBytes d.scrOff (List.replicate 128 0)).writeRouting tl d.part d.outOff 0 0).finishOp k) := by
  have hfit : d.inOff + 16 ≤ size := by
    rw [State.region, hpart] at hin
    by_contra hno
    exact absurd hin (by simp [hno])
  show execDispatch k [] s = _
  unfold execDispatch
  have hnone : ∀ x ∈ (s.modXr (·.withoutTable tbl)).xr.tokens, x.tbl ≠ tbl := fun x hx => by
    simpa using (List.mem_filter.mp hx).2
  have hkept : ((s.modXr (·.withoutTable tbl)).xr.tokens.filter fun x => x.tbl == tbl && x.kept) = [] :=
    List.filter_eq_nil_iff.mpr fun x hx => by simp [hnone x hx]
  have hmine : ((((s.modXr (·.withoutTable tbl)).modScratch fun m =>
      m.writeBytes d.scrOff (List.replicate 128 0)).xr.tokens.filter fun x => decide (x.tbl = tbl))) = [] :=
    List.filter_eq_nil_iff.mpr fun x hx => by simpa using hnone x hx
  have hempty : (s.modXr fun x => { x with tokens := x.tokens.filter (fun y => decide (y.tbl ≠ tbl)),
                                           objects := x.objects.filter (fun y => decide (y.tbl ≠ tbl)) }) =
      s.modXr (·.withoutTable tbl) := rfl
  rw [hop]
  dsimp only
  rw [if_neg (by simp [hdue]), hpart, hin, hout]
  dsimp only
  rw [hcount, Nat.zero_min, Nat.zero_min]
  rw [if_neg (by simpa using hfit), hempty]
  simp only [List.range_zero, List.map_nil, List.take_nil, List.drop_nil, List.foldl_nil, List.filter_nil, Nat.lt_irrefl, if_false]
  rw [State.applyCapacity_of_none _ _ _ hnone, hkept, List.foldl_nil, State.writeKept_of_none _ _ hnone, hmine, List.length_nil]

theorem exec_dispatch_empty_spec {base size a tbl : Nat} (hop : s.expertOp k 0 = some (o, d, tl)) (hdue : s.xr.biasDue = false)
    (hpart : s.partOf tl d.part = some (base, size)) (hin : s.region tl d.part d.inOff 16 = some a)
    (hout : s.region tl d.part d.outOff 0 = some tbl) (hcount : s.tileNat tl a 2 = 0) :
    ∃ t, exec (.dispatch k []) s = .next t ∧
      t.xr = { s.xr with tokens := s.xr.tokens.filter (fun x => decide (x.tbl ≠ tbl)),
                         objects := s.xr.objects.filter (fun x => decide (x.tbl ≠ tbl)) } ∧
      t.scratch.readBytes d.scrOff 128 = List.replicate 128 0 ∧
      (∀ n, n < d.scrOff ∨ d.scrOff + 128 ≤ n → t.scratch.read n = s.scratch.read n) ∧
      (∀ n, n < tileAddr tl (base + d.outOff) ∨ tileAddr tl (base + d.outOff) + Config.routingBytes 0 0 ≤ n →
        t.tmem.read n = s.tmem.read n) ∧ t.opAt k 5 = none ∧
      t = { s with xr := t.xr, scratch := t.scratch, tmem := t.tmem, pp := t.pp, freeCtr := t.freeCtr } := by
  refine ⟨_, exec_dispatch_empty hop hdue hpart hin hout hcount, ?_⟩
  generalize hu : ((s.modXr (·.withoutTable tbl)).modScratch fun m => m.writeBytes d.scrOff (List.replicate 128 0)) = u
  have hpart' : u.partOf tl d.part = some (base, size) := by rw [← hu]; exact hpart
  have hscr := Mem.writeBytes_spec (m := s.scratch) (a := d.scrOff) (List.length_replicate (n := 128) (a := (0 : Byte))) rfl
  have hus : u.scratch = s.scratch.writeBytes d.scrOff (List.replicate 128 0) := by rw [← hu]; rfl
  obtain ⟨hframe, hread⟩ := u.writeRouting_spec (off := d.outOff) (nobj := 0) (ntok := 0) hpart'
  generalize u.writeRouting tl d.part d.outOff 0 0 = w at hframe hread
  have hw : (w.finishOp k).scratch = s.scratch.writeBytes d.scrOff (List.replicate 128 0) := by rw [hframe, ← hus]; rfl
  refine ⟨by rw [hframe, ← hu]; rfl, by rw [hw]; exact hscr.1, fun n hn => by rw [hw]; exact hscr.2 n hn, fun n hn => ?_,
    State.opAt_finishOp _ _ _, by rw [hframe, ← hu]; rfl⟩
  have hut : u.tmem = s.tmem := by rw [← hu]; rfl
  exact (hread n (by omega)).trans (by rw [hut])

/-! ## Candidates (R312, R315 to R317) -/

/-- A candidate whose class is stable is skipped and counted (R312, R315). -/
theorem State.takeCandidate_skips (s : State) (g : GoArgs) (tl tbl : Nat) (c : Candidate) (hobj : c.obj < 4096) (hfresh : c.fresh = false)
    (hhazard : (s.xrEntry c.obj).hazard = false) (hforce : c.obj ∉ g.force) (hstable : s.reg R.xrSkipStableN ≤ (s.xrEntry c.obj).stable)
    (hconf : s.reg R.xrSkipSkipConf ≤ (s.xrEntry c.obj).conf) (hskip : (s.xrEntry c.obj).skip < s.reg R.xrSkipSkipMax) :
    s.takeCandidate g tl tbl [] c =
      ((s.modXr fun x => { x with objects := x.objects ++ [{ tbl := tbl, obj := c.obj, skipped := true }] }).modEntry c.obj
        fun e => { e with skip := e.skip + 1 }).bump R.xrCntCount 3 := by
  unfold State.takeCandidate
  simp [hforce, hobj, hfresh, hhazard, hstable, hconf, hskip]

theorem State.takeCandidate_skips_spec (g : GoArgs) (tl tbl : Nat) (c : Candidate) (s : State) (hobj : c.obj < 4096)
    (hfresh : c.fresh = false) (hhazard : (s.xrEntry c.obj).hazard = false) (hforce : c.obj ∉ g.force)
    (hstable : s.reg R.xrSkipStableN ≤ (s.xrEntry c.obj).stable) (hconf : s.reg R.xrSkipSkipConf ≤ (s.xrEntry c.obj).conf)
    (hskip : (s.xrEntry c.obj).skip < s.reg R.xrSkipSkipMax) : ∃ t, s.takeCandidate g tl tbl [] c = t ∧
      t.xr.objects = s.xr.objects ++ [{ tbl := tbl, obj := c.obj, skipped := true }] ∧ t.xr.tokens = s.xr.tokens ∧
      t.xrEntry c.obj = { s.xrEntry c.obj with skip := (s.xrEntry c.obj).skip + 1 } ∧
      (∀ m, m ≠ c.obj → t.xrEntry m = s.xrEntry m) ∧ t.reg R.xrCntCount 3 = (s.reg R.xrCntCount 3 + 1) % 2 ^ 32 ∧
      t = { s with regs := t.regs, xr := t.xr } ∧ s.regsBut t [R.xrCntCount.key 3 0] := by
  refine ⟨_, s.takeCandidate_skips g tl tbl c hobj hfresh hhazard hforce hstable hconf hskip, ?_⟩
  generalize hu : (s.modXr fun x => { x with objects := x.objects ++ [{ tbl := tbl, obj := c.obj, skipped := true }] }) = u
  have hentry : ∀ m, u.xrEntry m = s.xrEntry m := fun m => State.xrEntry_congr (by rw [← hu]; rfl) m
  generalize hv : (u.modEntry c.obj fun e => { e with skip := e.skip + 1 }) = v
  have hframe : v = { u with xr := v.xr } := by rw [← hv]; exact State.modEntry_frame u c.obj _
  have hxr : v.xr = { u.xr with entries := v.xr.entries } := by rw [← hv]; exact State.modEntry_entries u c.obj _
  have hregs : v.regs = s.regs := by rw [hframe, ← hu]; rfl
  refine ⟨?_, ?_, ?_, fun m hm => ?_, ?_, ?_, ?_⟩
  · rw [State.bump, State.setReg_xr, hxr, ← hu]; rfl
  · rw [State.bump, State.setReg_xr, hxr, ← hu]; rfl
  · rw [← hentry, ← hv]
    exact State.xrEntry_modEntry_self u hobj _
  · rw [← hentry, ← hv]
    exact State.xrEntry_modEntry_ne u _ hm
  · rw [State.bump, State.reg_setReg_self, State.reg_congr hregs]; rfl
  · have hparts : v = { s with regs := v.regs, xr := v.xr } := by rw [hframe, ← hu]; rfl
    exact congrArg (State.bump · R.xrCntCount 3) hparts
  · exact ((s.regsBut_refl _).of_regs hregs).setReg (List.mem_singleton_self _)

theorem topExperts_one (n : Nat) (a : Nat × Int) : topExperts (n + 1) [a] = [a] := by
  simp [topExperts, sortBy, insertBy]

/-- k of the level in effect is at least 1 (R316). -/
theorem State.topk_pos (s : State) (g : GoArgs) : ∃ n, s.topk g = n + 1 := by
  unfold State.topk
  dsimp only
  split
  · exact ⟨0, rfl⟩
  · exact ⟨_, (Nat.sub_add_cancel (by omega)).symm⟩

/-- With one enabled expert that is reachable a classified object becomes one token of full weight (R316, R317). -/
theorem State.selectExperts_one (s : State) (g : GoArgs) (tl tbl : Nat) (c : Candidate) {j : Nat} (hon : s.enabledExperts g = [j])
    (hreach : s.unreachable j = false) : s.selectExperts g tl tbl c =
      s.makeToken tbl c.obj 0 0xFFFF (j, toSigned 16 (s.tileNat tl (c.logit + 2 * j) 2) + s.regS R.xrExpBiasBias j) := by
  obtain ⟨n, hn⟩ := s.topk_pos g
  unfold State.selectExperts
  rw [hon]
  simp [topExperts_one, hreach, hn]

theorem State.makeToken_spec (s : State) (tbl obj rank weight : Nat) (e : Nat × Int) : ∃ (t : State) (k : Token),
    s.makeToken tbl obj rank weight e = t ∧ t.xr.tokens = s.xr.tokens ++ [k] ∧ k.tbl = tbl ∧ k.obj = obj ∧
    k.expert = e.1 ∧ k.rank = rank ∧ k.weight = weight ∧ k.item = s.nextItem (0x20 + e.1) ∧ k.remote = s.isRemote e.1 ∧
    k.score = e.2 ∧ k.kept = true ∧ t.live k.item = true ∧ t.reg R.xrCntCount 0 = (s.reg R.xrCntCount 0 + 1) % 2 ^ 32 ∧
    t.xr.objects = s.xr.objects ∧ t = { s with regs := t.regs, xr := t.xr, lg := t.lg } ∧ s.regsBut t [R.xrCntCount.key 0 0] := by
  have hlive := s.live_takeItem (0x20 + e.1)
  unfold State.makeToken
  extract_lets item i tok u
  have hframe : u = { s with regs := u.regs, lg := u.lg } := rfl
  have hcount : u.reg R.xrCntCount 0 = (s.reg R.xrCntCount 0 + 1) % 2 ^ 32 := State.reg_setReg_self _ _ _ _ _
  have hregs : s.regsBut u [R.xrCntCount.key 0 0] :=
    ((s.regsBut_refl _).of_regs (u := s.takeItem (0x20 + e.1)) rfl).setReg (List.mem_singleton_self _)
  have hliveU : u.live item = true := hlive
  clear_value u
  exact ⟨_, tok, rfl, by rw [hframe]; rfl, rfl, rfl, rfl, rfl, rfl, rfl, rfl, rfl, rfl, hliveU,
    (State.reg_congr rfl _ _ _).trans hcount, by rw [hframe]; rfl, by rw [hframe]; rfl, hregs.of_regs rfl⟩

/-! ## The bias loop (R326, R331) -/

theorem exec_biasUpdate_notDue (h : s.xr.biasDue = false) : exec .biasUpdate s = .next s :=
  congrArg Host.Outcome.next (if_pos (by simp [h]))

theorem exec_biasUpdate_off (hdue : s.xr.biasDue = true) (hloop : s.flag R.xrCtrlLoopEn = false) : exec .biasUpdate s =
    .next { s with xr := { s.xr with biasDue := false, biasSkips := [], routed := [], keptCounts := [] } } := by
  show execBiasUpdate s = _
  unfold execBiasUpdate
  rw [if_neg (by simp [hdue]), hloop]
  rfl

theorem exec_biasWrite_held {j : Nat} (v : Word) (halive : s.alive = true) (hj : j < 64) : exec (.biasWrite j v) s =
    .next { s with xr := { s.xr with biasWrites := alPut s.xr.biasWrites j (v.toNat % 65536) } } :=
  congrArg Host.Outcome.next (if_pos (by simp [halive, hj]))

/-- The bias of expert j after one move of the loop (R326). -/
def State.newBias (s : State) (sum eact j : Nat) : Int :=
  let d : Int := ((alGet s.xr.routed j).getD 0 * eact : Nat) - (sum : Int)
  if s.reg R.xrBiasctlDead * sum < 256 * d.natAbs then
    max (-(s.reg R.xrBiasctlBmax : Int)) (min (s.reg R.xrBiasctlBmax : Int)
      (if 0 < d then s.regS R.xrExpBiasBias j - s.reg R.xrBiasctlStepB else s.regS R.xrExpBiasBias j + s.reg R.xrBiasctlStepB))
  else s.regS R.xrExpBiasBias j

theorem bias_key_inj {i j : Nat} (h : i ≠ j) : R.xrExpBiasBias.key i 0 ≠ R.xrExpBiasBias.key j 0 := by
  simp only [Row.key, R.xrExpBiasBias]
  omega

theorem bias_key_ne {k : Nat} (hk : k < 8 * 0xC01004) (j : Nat) : R.xrExpBiasBias.key j 0 ≠ k := by
  simp only [Row.key, R.xrExpBiasBias]
  omega

theorem State.moveBias_spec (s : State) (sum eact j : Nat) (hmax : s.reg R.xrBiasctlBmax < 2 ^ 15) :
    (s.moveBias sum eact j).regS R.xrExpBiasBias j = s.newBias sum eact j ∧
    s.moveBias sum eact j = { s with regs := (s.moveBias sum eact j).regs } ∧
    s.regsBut (s.moveBias sum eact j) [R.xrExpBiasBias.key j 0] := by
  unfold State.moveBias State.newBias
  dsimp only
  split
  · refine ⟨?_, rfl, s.regsBut_setReg _ _ _ _⟩
    rw [State.regS, State.setRegS, State.reg_setReg_self, toSigned_mod]
    refine toSigned_ofSigned (by decide) ?_ ?_
    · have : (R.xrExpBiasBias.width - 1) = 15 := rfl
      rw [this]
      omega
    · have : (R.xrExpBiasBias.width - 1) = 15 := rfl
      rw [this]
      omega
  · exact ⟨rfl, rfl, s.regsBut_refl _⟩

theorem State.newBias_congr {sum eact i : Nat} (hframe : t = { s with regs := t.regs }) {l : List Nat} (hregs : s.regsBut t l)
    (hl : ∀ k ∈ l, k ≠ R.xrExpBiasBias.key i 0 ∧ 8 * 0xC01004 ≤ k) : t.newBias sum eact i = s.newBias sum eact i := by
  have hlow : ∀ r : Row, r.key 0 0 < 8 * 0xC01004 → t.reg r = s.reg r := fun r hr =>
    hregs r 0 0 fun hmem => absurd (hl _ hmem).2 (by omega)
  have hbias : t.regS R.xrExpBiasBias i = s.regS R.xrExpBiasBias i :=
    congrArg (toSigned _) (hregs _ _ _ fun hmem => (hl _ hmem).1 rfl)
  have hxr : t.xr = s.xr := by rw [hframe]
  unfold State.newBias
  rw [hlow R.xrBiasctlDead (by decide), hlow R.xrBiasctlBmax (by decide), hlow R.xrBiasctlStepB (by decide), hbias, hxr]

/-- The loop moves the bias of each expert of a list once (R326). -/
theorem State.moveBiases_spec (sum eact : Nat) : ∀ (l : List Nat) (s : State), l.Nodup → s.reg R.xrBiasctlBmax < 2 ^ 15 →
    ∃ t, l.foldl (fun (s : State) j => s.moveBias sum eact j) s = t ∧
      (∀ j, t.regS R.xrExpBiasBias j = if j ∈ l then s.newBias sum eact j else s.regS R.xrExpBiasBias j) ∧
      t = { s with regs := t.regs } ∧ s.regsBut t (l.map fun j => R.xrExpBiasBias.key j 0)
  | [], s, _, _ => ⟨s, rfl, by simp, rfl, s.regsBut_refl _⟩
  | i :: l, s, hnodup, hmax => by
    obtain ⟨hval, hframe, hregs⟩ := s.moveBias_spec sum eact i hmax
    obtain ⟨hi, hl⟩ := List.nodup_cons.mp hnodup
    rw [List.foldl_cons]
    generalize s.moveBias sum eact i = u at hval hframe hregs
    have hmaxU : u.reg R.xrBiasctlBmax < 2 ^ 15 := by
      rwa [hregs _ _ _ (List.mem_singleton.not.mpr (bias_key_ne (by decide) i).symm)]
    obtain ⟨t, ht, hvals, htframe, htregs⟩ := State.moveBiases_spec sum eact l u hl hmaxU
    refine ⟨t, ht, fun j => ?_, by rw [htframe, hframe], fun r a b hk => ?_⟩
    · rw [hvals j]
      by_cases hji : j = i
      · subst hji
        simp [hi, hval]
      · have hnew := State.newBias_congr (sum := sum) (eact := eact) hframe hregs (i := j) (by
          simpa using ⟨bias_key_inj (Ne.symm hji), by simp only [Row.key, R.xrExpBiasBias]; omega⟩)
        have hold : u.regS R.xrExpBiasBias j = s.regS R.xrExpBiasBias j :=
          congrArg (toSigned _) (hregs _ _ _ (List.mem_singleton.not.mpr (bias_key_inj hji)))
        simp only [List.mem_cons, hji, false_or, hnew, hold]
    · rw [List.map_cons, List.mem_cons, not_or] at hk
      rw [htregs r a b hk.2, hregs r a b (List.mem_singleton.not.mpr hk.1)]

/-- The loads are copied for every expert of a list (R326). -/
def State.copyLoads (s : State) (routed kept : Nat → Nat) (l : List Nat) : State :=
  l.foldl (fun (s : State) j =>
    (s.setReg R.xrExpLoadRouted (satTo 0xFFFF (routed j)) j).setReg R.xrExpLoadKept (satTo 0xFFFF (kept j)) j) s

theorem load_key_ne (i j : Nat) : R.xrExpLoadRouted.key i 0 ≠ R.xrExpLoadKept.key j 0 := by
  simp only [Row.key, R.xrExpLoadRouted, R.xrExpLoadKept]
  omega

theorem routed_key_inj {i j : Nat} (h : i ≠ j) : R.xrExpLoadRouted.key i 0 ≠ R.xrExpLoadRouted.key j 0 := by
  simp only [Row.key, R.xrExpLoadRouted]
  omega

theorem kept_key_inj {i j : Nat} (h : i ≠ j) : R.xrExpLoadKept.key i 0 ≠ R.xrExpLoadKept.key j 0 := by
  simp only [Row.key, R.xrExpLoadKept]
  omega

theorem State.copyLoads_spec (routed kept : Nat → Nat) : ∀ (l : List Nat) (s : State), l.Nodup →
    (∀ j ∈ l, (s.copyLoads routed kept l).reg R.xrExpLoadRouted j = min 0xFFFF (routed j) ∧
      (s.copyLoads routed kept l).reg R.xrExpLoadKept j = min 0xFFFF (kept j)) ∧
    s.copyLoads routed kept l = { s with regs := (s.copyLoads routed kept l).regs } ∧
    s.regsBut (s.copyLoads routed kept l) ((l.map fun j => R.xrExpLoadRouted.key j 0) ++ l.map fun j => R.xrExpLoadKept.key j 0)
  | [], s, _ => ⟨by simp, rfl, s.regsBut_refl _⟩
  | i :: l, s, hnodup => by
    obtain ⟨hi, hl⟩ := List.nodup_cons.mp hnodup
    have hsat : ∀ v, satTo 0xFFFF v % 2 ^ 16 = min 0xFFFF v := fun v => by
      unfold satTo
      omega
    have hr : ((s.setReg R.xrExpLoadRouted (satTo 0xFFFF (routed i)) i).setReg R.xrExpLoadKept (satTo 0xFFFF (kept i)) i).reg
        R.xrExpLoadRouted i = min 0xFFFF (routed i) := by
      rw [State.reg_setReg_ne _ _ _ _ _ _ _ _ (load_key_ne i i).symm, State.reg_setReg_self]
      exact hsat _
    have hk : ((s.setReg R.xrExpLoadRouted (satTo 0xFFFF (routed i)) i).setReg R.xrExpLoadKept (satTo 0xFFFF (kept i)) i).reg
        R.xrExpLoadKept i = min 0xFFFF (kept i) := (State.reg_setReg_self _ _ _ _ _).trans (hsat _)
    have hregs : s.regsBut ((s.setReg R.xrExpLoadRouted (satTo 0xFFFF (routed i)) i).setReg R.xrExpLoadKept (satTo 0xFFFF (kept i)) i)
        [R.xrExpLoadRouted.key i 0, R.xrExpLoadKept.key i 0] := ((s.regsBut_refl _).setReg (by simp)).setReg (by simp)
    have hframe : (s.setReg R.xrExpLoadRouted (satTo 0xFFFF (routed i)) i).setReg R.xrExpLoadKept (satTo 0xFFFF (kept i)) i =
      { s with regs := ((s.setReg R.xrExpLoadRouted (satTo 0xFFFF (routed i)) i).setReg R.xrExpLoadKept (satTo 0xFFFF (kept i)) i).regs } := rfl
    have hcons : s.copyLoads routed kept (i :: l) = ((s.setReg R.xrExpLoadRouted (satTo 0xFFFF (routed i)) i).setReg R.xrExpLoadKept
      (satTo 0xFFFF (kept i)) i).copyLoads routed kept l := rfl
    rw [hcons]
    generalize (s.setReg R.xrExpLoadRouted (satTo 0xFFFF (routed i)) i).setReg R.xrExpLoadKept (satTo 0xFFFF (kept i)) i = u at *
    obtain ⟨hvals, huframe, huregs⟩ := State.copyLoads_spec routed kept l u hl
    have hhead : R.xrExpLoadRouted.key i 0 ∉ ((l.map fun j => R.xrExpLoadRouted.key j 0) ++ l.map fun j => R.xrExpLoadKept.key j 0) ∧
        R.xrExpLoadKept.key i 0 ∉ ((l.map fun j => R.xrExpLoadRouted.key j 0) ++ l.map fun j => R.xrExpLoadKept.key j 0) := by
      simp only [List.mem_append, List.mem_map, not_or, not_exists, not_and]
      exact ⟨⟨fun j hj => routed_key_inj fun e => hi (e ▸ hj), fun j _ => (load_key_ne i j).symm⟩,
        fun j _ => load_key_ne j i, fun j hj => kept_key_inj fun e => hi (e ▸ hj)⟩
    refine ⟨fun j hj => ?_, by rw [huframe, hframe], fun r a b hk => ?_⟩
    · rcases List.mem_cons.mp hj with rfl | hj
      · rw [huregs _ _ _ hhead.1, huregs _ _ _ hhead.2]
        exact ⟨hr, hk⟩
      · exact hvals j hj
    · simp only [List.map_cons, List.cons_append, List.mem_cons, List.mem_append, not_or] at hk
      obtain ⟨hk1, hk2, hk3, hk4⟩ := hk
      rw [huregs r a b (by simp only [List.mem_append, not_or]; exact ⟨hk2, hk4⟩), hregs r a b (by simp [hk1, hk3])]

theorem exec_biasUpdate_on (hdue : s.xr.biasDue = true) (hloop : s.flag R.xrCtrlLoopEn = true) {on : List Nat} {sum : Nat} {u : State}
    (hon : on = (List.range 64).filter fun j => s.flag R.xrExpCfgEn j)
    (hsum : sum = (on.map fun j => (alGet s.xr.routed j).getD 0).foldl (· + ·) 0)
    (hu : (on.filter fun j => !(s.xr.biasSkips.contains j)).foldl (fun (s : State) j => s.moveBias sum on.length j) s = u) :
    exec .biasUpdate s = .next ((u.copyLoads (fun j => (alGet s.xr.routed j).getD 0)
        (fun j => (alGet u.xr.keptCounts j).getD 0) (List.range 64)).modXr
          fun x => { x with biasDue := false, biasSkips := [], routed := [], keptCounts := [] }) := by
  subst hu hon hsum
  show execBiasUpdate s = _
  unfold execBiasUpdate
  rw [if_neg (by simp [hdue])]
  dsimp only
  rw [if_pos hloop]
  rfl

theorem exec_biasUpdate_spec (sum eact : Nat) (on : List Nat) (s : State) (hdue : s.xr.biasDue = true)
    (hloop : s.flag R.xrCtrlLoopEn = true) (hmax : s.reg R.xrBiasctlBmax < 2 ^ 15)
    (hon : on = (List.range 64).filter (fun j => s.flag R.xrExpCfgEn j)) (heact : eact = on.length)
    (hsum : sum = (on.map fun j => (alGet s.xr.routed j).getD 0).foldl (· + ·) 0) : ∃ t, exec .biasUpdate s = .next t ∧
      (∀ (j r : Nat) (b : Int), j < 64 → r = (alGet s.xr.routed j).getD 0 → b = s.regS R.xrExpBiasBias j →
        t.regS R.xrExpBiasBias j =
          (if j ∈ on ∧ j ∉ s.xr.biasSkips ∧ s.reg R.xrBiasctlDead * sum < 256 * (((r * eact : Nat) : Int) - sum).natAbs then
            max (-(s.reg R.xrBiasctlBmax : Int)) (min (s.reg R.xrBiasctlBmax : Int)
              (if sum < r * eact then b - s.reg R.xrBiasctlStepB else b + s.reg R.xrBiasctlStepB))
          else b) ∧
        t.reg R.xrExpLoadRouted j = min 0xFFFF r ∧ t.reg R.xrExpLoadKept j = min 0xFFFF ((alGet s.xr.keptCounts j).getD 0)) ∧
      t.xr = { s.xr with biasDue := false, biasSkips := [], routed := [], keptCounts := [] } ∧ t = { s with regs := t.regs, xr := t.xr } ∧
      s.regsBut t (keysOf R.xrExpBiasBias ++ keysOf R.xrExpLoadRouted ++ keysOf R.xrExpLoadKept) := by
  have honNodup : on.Nodup := hon ▸ List.nodup_range.filter _
  have honLt : ∀ j ∈ on, j < 64 := fun j hj => List.mem_range.mp (List.mem_of_mem_filter (hon ▸ hj))
  obtain ⟨u, hu, hbias, huframe, huregs⟩ := State.moveBiases_spec sum eact (on.filter fun j => !(s.xr.biasSkips.contains j)) s
    (honNodup.filter _) hmax
  have hrun := exec_biasUpdate_on hdue hloop hon hsum (u := u) (by rw [← heact]; exact hu)
  have hkept : u.xr.keptCounts = s.xr.keptCounts := by rw [huframe]
  rw [hkept] at hrun
  refine ⟨_, hrun, ?_⟩
  obtain ⟨hloads, hvframe, hvregs⟩ := State.copyLoads_spec (fun j => (alGet s.xr.routed j).getD 0)
    (fun j => (alGet s.xr.keptCounts j).getD 0) (List.range 64) u List.nodup_range
  clear hrun
  generalize u.copyLoads (fun j => (alGet s.xr.routed j).getD 0) (fun j => (alGet s.xr.keptCounts j).getD 0) (List.range 64) = v at *
  generalize ht : (v.modXr fun x => { x with biasDue := false, biasSkips := [], routed := [], keptCounts := [] }) = t
  have htregs : t.regs = v.regs := by rw [← ht]; rfl
  refine ⟨fun j r b hj hr hb => ⟨?_, ?_, ?_⟩, ?_, ?_, fun r a b hk => ?_⟩
  · have hmem : j ∈ (on.filter fun j => !(s.xr.biasSkips.contains j)) ↔ j ∈ on ∧ j ∉ s.xr.biasSkips := by simp
    have hnot : R.xrExpBiasBias.key j 0 ∉ (((List.range 64).map fun j => R.xrExpLoadRouted.key j 0) ++
        (List.range 64).map fun j => R.xrExpLoadKept.key j 0) := by
      simp only [List.mem_append, List.mem_map, not_or, not_exists, not_and, Row.key, R.xrExpBiasBias, R.xrExpLoadRouted, R.xrExpLoadKept]
      exact ⟨fun i _ => by omega, fun i _ => by omega⟩
    have hval : t.regS R.xrExpBiasBias j = u.regS R.xrExpBiasBias j :=
      congrArg (toSigned _) ((State.reg_congr htregs _ _ _).trans (hvregs _ _ _ hnot))
    have hpos : 0 < ((r * eact : Nat) : Int) - sum ↔ sum < r * eact := by omega
    rw [hval, hbias j, State.newBias, ← hr, ← hb]
    simp only [hmem, hpos]
    by_cases hin : j ∈ on ∧ j ∉ s.xr.biasSkips
    · simp only [hin, not_false_eq_true, and_self, true_and, if_true]
    · rw [if_neg hin, if_neg fun h => hin ⟨h.1, h.2.1⟩]
  · rw [State.reg_congr htregs, hr]
    exact (hloads j (List.mem_range.mpr hj)).1
  · rw [State.reg_congr htregs]
    exact (hloads j (List.mem_range.mpr hj)).2
  · rw [← ht, State.modXr_xr, hvframe, huframe]
  · rw [← ht, hvframe, huframe]; rfl
  · simp only [List.mem_append, not_or] at hk
    obtain ⟨⟨hk1, hk2⟩, hk3⟩ := hk
    have hkeys : ∀ row : Row, row.n1 = 64 → row.n2 = 1 → r.key a b ∉ keysOf row → ∀ j < 64, row.key j 0 ≠ r.key a b :=
      fun row h1 h2 hno j hj e => hno (List.mem_flatMap.mpr ⟨j, by rwa [h1, List.mem_range],
        List.mem_map.mpr ⟨0, by rw [h2]; decide, e⟩⟩)
    have hv : r.key a b ∉ (((List.range 64).map fun j => R.xrExpLoadRouted.key j 0) ++
        (List.range 64).map fun j => R.xrExpLoadKept.key j 0) := by
      simp only [List.mem_append, List.mem_map, List.mem_range, not_or, not_exists, not_and]
      exact ⟨hkeys _ rfl rfl hk2, hkeys _ rfl rfl hk3⟩
    have hu : r.key a b ∉ ((on.filter fun j => !(s.xr.biasSkips.contains j)).map fun j => R.xrExpBiasBias.key j 0) := by
      simp only [List.mem_map, not_exists, not_and]
      exact fun j hj => hkeys _ rfl rfl hk1 j (honLt j (List.mem_of_mem_filter hj))
    rw [State.reg_congr htregs, hvregs _ _ _ hv, huregs _ _ _ hu]

/-! ## The timer of a remote token (R320, R329) -/

theorem exec_remoteTmo_ends {item : ItemId} (hdue : s.due (.remote item) = true) (hwait : s.resultWaits item = false) :
    exec (.remoteTmo item) s = .next (((s.disarm (.remote item)).report item 0x06 0x0A 0).tokenLost item) :=
  congrArg Host.Outcome.next (if_pos (by simp [hdue, hwait]))

theorem exec_remoteTmo_waits {item : ItemId} (h : s.due (.remote item) = false ∨ s.resultWaits item = true) :
    exec (.remoteTmo item) s = .next s :=
  congrArg Host.Outcome.next (if_neg (by rcases h with h | h <;> simp [h]))

end

/-- Settles O41: the branches of DISPATCH and of the two timers, with the loops over experts and candidates taken apart. -/
theorem dispatchAndBiases : Obligations.DispatchAndBiases := by
  unfold Obligations.DispatchAndBiases
  refine ⟨fun k tl o d bad s hop hdue => exec_dispatch_ends hop hdue, fun s hdue hloop => exec_biasUpdate_off hdue hloop,
    fun k bad s h => exec_dispatch_waits h,
    fun k tl base size a tbl o d s hop hdue hpart hin hout hcount => exec_dispatch_empty_spec hop hdue hpart hin hout hcount,
    State.takeCandidate_skips_spec, fun g tl tbl j c s hon hreach => ?_, fun s hdue => exec_biasUpdate_notDue hdue,
    exec_biasUpdate_spec, fun j v s halive hj => exec_biasWrite_held v halive hj,
    fun item s hdue hwait => ⟨_, _, exec_remoteTmo_ends hdue hwait, rfl, State.armed_disarm _ _, rfl⟩,
    fun item s h => exec_remoteTmo_waits h⟩
  obtain ⟨t, x, ht, hspec⟩ := s.makeToken_spec tbl c.obj 0 0xFFFF (j, toSigned 16 (s.tileNat tl (c.logit + 2 * j) 2) + s.regS R.xrExpBiasBias j)
  exact ⟨t, x, (s.selectExperts_one g tl tbl c hon hreach).trans ht, hspec⟩

end Sys2Proof.Machine
end

section
/-! COMBINE and EXIT: the results of tokens, verdicts, and the tokens that leave a batch (R312, R323 to R325). -/
namespace Sys2Proof.Machine

section
variable {s t u : State} {k tl : Nat} {o : SlotOp} {d : ExpertDesc}

/-! ## What pushes and endings leave to expert routing -/

theorem State.onlyPushed.xr (h : s.onlyPushed t) : t.xr = s.xr := by
  rw [State.onlyPushed] at h
  rw [h]

theorem State.onlyPushed.pp (h : s.onlyPushed t) : t.pp = s.pp := by
  rw [State.onlyPushed] at h
  rw [h]

theorem State.onlyPushed.sameBytes (h : s.onlyPushed t) : s.sameBytes t := by
  rw [State.onlyPushed] at h
  rw [h]
  exact fun _ => ⟨rfl, rfl, rfl, rfl⟩

theorem State.onlyPushed.complete (h : s.onlyPushed t) {item : ItemId} {block : Nat} : s.onlyPushed (t.complete item block) := by
  have hmark : s.onlyPushed (t.markEnded item) := h.modLg
  unfold State.complete
  exact State.onlyPushed.ite h.bump (hmark.inform.ite hmark)

theorem State.onlyPushed.endTaken (h : s.onlyPushed t) {block : Nat} {item : ItemId} {lossy : Bool} :
    s.onlyPushed (t.endTaken block item lossy) := by
  have hunmark : s.onlyPushed (t.unmark item) := h.modPal
  exact hunmark.ite (hunmark.report.ite h.complete)

theorem State.onlyPushed.accept (h : s.onlyPushed t) {block : Nat} {x : Delivery} : s.onlyPushed (t.accept block x).2 := by
  unfold State.accept
  split
  · exact h.modQueue.ite h
  · split
    · exact h.modQueue.report.ite h
    · split
      · exact h.ite h.modPal
      · exact h

theorem State.onlyPushed.popFor (h : s.onlyPushed t) {block ep q : Nat} {take : Bool} : s.onlyPushed (t.popFor block ep q take .none).2 := by
  unfold State.popFor
  split
  · exact h.setReg
  · have hup : s.onlyPushed (t.upsetHead q .none) := h
    dsimp only
    split
    · exact hup
    · split
      · exact hup.deliverHead
      · exact hup.deliverHead.accept

theorem State.onlyPushed.pushItemAll {ep q stage flags : Nat} {item : ItemId} : ∀ (l : List Cell64) {t : State}, s.onlyPushed t →
    s.onlyPushed (t.pushItemAll ep q item stage flags l)
  | [], _, h => h
  | _ :: l, _, h => State.onlyPushed.pushItemAll l h.pushItem

/-! ## The ended table (R459) -/

theorem State.ended_push (s : State) (ep q : Nat) (data : Cell64) (item : ItemId) (eop epm : Bool) :
    (s.push ep q data item eop epm).lg = s.lg := (s.headKept_refl.push).lg

theorem State.hasEnded_complete (s : State) (item : ItemId) (block : Nat) (h : s.hasEnded item = false) :
    ∃ l, (s.complete item block).lg.ended = item :: l := by
  have hno : item ∉ s.lg.ended := by simpa [State.hasEnded] using h
  rw [State.complete_of_live hno]
  have hmark : (s.markEnded item).lg.ended = item :: s.lg.ended.take 16383 := rfl
  split
  · exact ⟨_, (congrArg (·.ended) ((s.markEnded item).pushRecord_headKept item 0 block 0 _).lg).trans hmark⟩
  · exact ⟨_, hmark⟩

theorem State.ended_report (s : State) (item : ItemId) (reason stage flags : Nat) :
    (s.report item reason stage flags).lg.ended = s.lg.ended ∨
    (s.report item reason stage flags).lg.ended = (item :: s.lg.ended).take 16384 := by
  unfold State.report
  split
  · dsimp only
    split
    · exact .inl rfl
    · exact .inl rfl
  · split
    · exact .inl rfl
    · exact .inr rfl

theorem State.ended_pushItem (s : State) (ep q : Nat) (data : Cell64) (item : ItemId) (last epm : Bool) (stage flags : Nat) :
    (s.pushItem ep q data item last epm stage flags).lg.ended = s.lg.ended ∨
    (last = true ∧ (s.pushItem ep q data item last epm stage flags).lg.ended = (item :: s.lg.ended).take 16384) := by
  unfold State.pushItem
  extract_lets r v w
  have hv : v.lg = s.lg := s.ended_push _ _ _ _ _ _
  have hw : w.lg = s.lg := by
    unfold w
    split
    · rw [State.markDropped_frame]
      exact hv
    · exact hv
  split
  · next h =>
    have hlast : last = true := (Bool.and_eq_true_iff.mp h).1
    have hu : (w.unmark item).lg = s.lg := hw
    rw [← hu]
    exact ((w.unmark item).ended_report item _ _ _).imp id fun h => ⟨hlast, h⟩
  · exact .inl (congrArg (·.ended) hw)

/-- The push of an item's cells ends no item but that one. -/
theorem State.ended_pushItemAll (ep q : Nat) (item : ItemId) (stage flags : Nat) : ∀ (l : List Cell64) (s : State),
    (s.pushItemAll ep q item stage flags l).lg.ended = s.lg.ended ∨
    (s.pushItemAll ep q item stage flags l).lg.ended = (item :: s.lg.ended).take 16384
  | [], _ => .inl rfl
  | [c], s => (s.ended_pushItem ep q c item true false stage flags).imp id And.right
  | c :: c' :: l, s => by
    have hkeep : (s.pushItem ep q c item false false stage flags).lg.ended = s.lg.ended :=
      (s.ended_pushItem ep q c item false false stage flags).resolve_right (by simp)
    rw [← hkeep]
    exact State.ended_pushItemAll ep q item stage flags (c' :: l) _

/-- The newest ended item stays in the table while an item's cells are pushed. -/
theorem State.hasEnded_pushItemAll {ep q stage flags : Nat} {item i : ItemId} {l : List ItemId} {cells : List Cell64}
    (h : s.lg.ended = i :: l) : (s.pushItemAll ep q item stage flags cells).hasEnded i = true := by
  rw [State.hasEnded_iff]
  rcases State.ended_pushItemAll ep q item stage flags cells s with he | he <;> rw [he, h]
  · exact List.mem_cons_self
  · exact List.mem_cons_of_mem _ List.mem_cons_self

/-! ## Tokens whose results are settled (R320, R323) -/

/-- No kept token waits for a result from another chip. -/
def tokensSettled (l : List Token) : Prop := ∀ x ∈ l, x.remote = true → x.result.isSome = true ∨ x.lost = true ∨ x.kept = false

/-- A change of tokens that takes no result and finds no token again. -/
def settles (f : Token → Token) : Prop :=
  ∀ x : Token, (f x).kept = x.kept ∧ (f x).remote = x.remote ∧ (x.result.isSome = true → (f x).result.isSome = true) ∧
    (x.lost = true → (f x).lost = true)

theorem tokensSettled.map {l : List Token} (h : tokensSettled l) {f : Token → Token} (hf : settles f) : tokensSettled (l.map f) := by
  intro y hy hremote
  obtain ⟨x, hx, rfl⟩ := List.mem_map.mp hy
  obtain ⟨hkept, hrem, hres, hlost⟩ := hf x
  rw [hkept]
  exact (h x hx (hrem ▸ hremote)).imp hres (Or.imp_left hlost)

theorem State.setHazard_tokens (s : State) (tbl obj : Nat) : (s.setHazard tbl obj).xr.tokens = s.xr.tokens := by
  unfold State.setHazard
  dsimp only
  rw [State.modEntry_entries]
  dsimp only [State.modXr_xr]
  split <;> rfl

theorem State.tokenLost_tokens (s : State) (item : ItemId) : ∃ f, settles f ∧ (s.tokenLost item).xr.tokens = s.xr.tokens.map f := by
  have hid : settles id := fun _ => ⟨rfl, rfl, id, id⟩
  unfold State.tokenLost
  split
  · exact ⟨id, hid, (List.map_id _).symm⟩
  · next x _ =>
    split
    · exact ⟨id, hid, (List.map_id _).symm⟩
    · refine ⟨fun u => if u.item = item then { u with lost := true }
        else if u.tbl = x.tbl ∧ u.obj = x.obj ∧ u.rank = 0 ∧ x.rank = 1 then { u with weight := 0xFFFF } else u, fun u => ?_, ?_⟩
      · dsimp only
        split
        · exact ⟨rfl, rfl, id, fun _ => rfl⟩
        · split <;> exact ⟨rfl, rfl, id, id⟩
      · dsimp only
        split
        · rw [State.setHazard_tokens]; rfl
        · rfl

theorem tokensSettled.tokenLost (h : tokensSettled s.xr.tokens) (item : ItemId) : tokensSettled (s.tokenLost item).xr.tokens := by
  obtain ⟨f, hf, heq⟩ := s.tokenLost_tokens item
  exact heq ▸ h.map hf

theorem tokensSettled.pushed (h : tokensSettled s.xr.tokens) (hp : s.onlyPushed t) : tokensSettled t.xr.tokens := hp.xr ▸ h

theorem tokensSettled.takeResult (h : tokensSettled s.xr.tokens) (nclass : Nat) (cells : List Cell64) (bad : Bool) :
    tokensSettled (s.takeResult nclass cells bad).xr.tokens := by
  unfold State.takeResult
  split
  · exact h
  · next head data =>
    dsimp only
    split
    · exact h
    · split
      · exact h
      · split
        · exact h.pushed (s.onlyPushed_refl.inform).bump
        · split
          · exact (h.pushed s.onlyPushed_refl.report).tokenLost _
          · refine tokensSettled.map (f := fun u => if u.item = Config.resultItem head then
              { u with result := some ((data.flatMap fun c => leBytes 8 c.toNat).take nclass) } else u) h fun u => ?_
            dsimp only
            split
            · exact ⟨rfl, rfl, fun _ => rfl, id⟩
            · exact ⟨rfl, rfl, id, id⟩

theorem tokensSettled.takeReturns {q nclass : Nat} : ∀ (n : Nat) {s : State} (acc : List Cell64 × Bool), tokensSettled s.xr.tokens →
    tokensSettled (s.takeReturns q nclass n acc).xr.tokens
  | 0, _, _, h => h
  | n + 1, s, acc, h => by
    have hpop : tokensSettled (s.popFor 0x0A 0x60 q false Upset.none).2.xr.tokens := h.pushed s.onlyPushed_refl.popFor
    unfold State.takeReturns
    split
    · exact h
    · generalize s.popFor 0x0A 0x60 q false Upset.none = r at hpop
      obtain ⟨_ | ⟨x, got⟩, v⟩ := r
      · exact hpop
      · dsimp only
        split
        · exact hpop.takeReturns n _
        · split
          · split
            · exact hpop.takeReturns n _
            · refine tokensSettled.takeReturns n _ (tokensSettled.pushed ?_ (State.onlyPushed_refl _).endTaken)
              split
              · exact hpop
              · exact hpop.takeResult _ _ _
          · exact hpop.takeReturns n _

/-! ## COMBINE (R323, R325) -/

/-- The tokens of a table that were kept and have not been lost. -/
def State.goodTokens (s : State) (tbl : Nat) : List Token := s.xr.tokens.filter fun x => x.tbl == tbl && x.kept && !x.lost

/-- COMBINE once the results are there: they are taken, the tokens complete, and the verdicts go out as one item. -/
def State.combined (s : State) (o : SlotOp) (d : ExpertDesc) (tl tbl a : Nat) (poisoned : List Nat) : State :=
  let mine := s.goodTokens tbl
  let s := (mine.filter fun x => !x.remote).foldl (fun (s : State) x => s.takeLocal tl a d.nclass poisoned x) s
  let r := s.verdicts d.nclass (s.xr.objects.filter (·.tbl = tbl))
  let eop := BitVec.ofNat 64 (o.item.toNat * 2 ^ 32 + r.1.length % 65536 * 2 ^ 16 + 11 * 2 ^ 8)
  let s := mine.foldl (fun (s : State) x => if s.hasEnded x.item then s else s.complete x.item 0x0A) r.2
  (s.pushItemAll 0x60 d.outQid o.item 0x0A 0 (r.1 ++ [eop])).modXr (·.withoutTable tbl)

/-- What COMBINE takes of its return queues before it looks at its tokens (R322, R323). -/
def State.returnsTaken (s : State) (nclass : Nat) : State :=
  [0, 1].foldl (fun (s : State) c =>
    let q := s.reg R.xrRetQid c
    if s.reg R.qmQEpCons q = 0x60 && s.distributed then s.takeReturns q nclass (s.queue q).cells.length ([], false) else s) s

/-- The kept remote tokens of a table that have ended are lost (R320). -/
def State.endedLost (s : State) (tbl : Nat) : State :=
  ((s.xr.tokens.filter fun x => x.tbl == tbl && x.kept).filter fun x => x.remote && s.hasEnded x.item).foldl
    (fun (s : State) x => s.tokenLost x.item) s

theorem exec_combine_eq {bad : List Nat} (hop : s.expertOp k 1 = some (o, d, tl)) {tbl a : Nat}
    (hin : s.region tl d.part d.inOff 0 = some tbl) (hout : s.region tl d.part d.outOff 0 = some a)
    (hu : (s.returnsTaken d.nclass).endedLost tbl = u) : exec (.combine k bad) s = .next (
      if (u.goodTokens tbl).any fun x => x.remote && x.result.isNone then u else (u.combined o d tl tbl a bad).finishOp k) := by
  subst hu
  show execCombine k bad s = _
  unfold execCombine
  rw [hop]
  dsimp only
  rw [hin, hout]
  rfl

theorem tokensSettled.returnsTaken (h : tokensSettled s.xr.tokens) (nclass : Nat) : tokensSettled (s.returnsTaken nclass).xr.tokens := by
  refine foldlKeeps (P := fun s : State => tokensSettled s.xr.tokens) (fun s c hs => ?_) _ h
  dsimp only
  split
  · exact hs.takeReturns _ _
  · exact hs

theorem tokensSettled.endedLost (h : tokensSettled s.xr.tokens) (tbl : Nat) : tokensSettled (s.endedLost tbl).xr.tokens :=
  foldlKeeps (P := fun s : State => tokensSettled s.xr.tokens) (fun _ x hs => hs.tokenLost x.item) _ h

/-- With every result settled COMBINE finishes. -/
theorem exec_combine_ends {bad : List Nat} (hop : s.expertOp k 1 = some (o, d, tl)) (h : tokensSettled s.xr.tokens) :
    ∃ t, exec (.combine k bad) s = .next t ∧ t.opAt k 5 = none := by
  have hfail : ∀ u : State, u = s.boundsFail k → u.opAt k 5 = none := fun u hu => hu ▸ State.opAt_boundsFail s k 5
  cases hin : s.region tl d.part d.inOff 0 with
  | none =>
    refine ⟨_, rfl, hfail _ ?_⟩
    rw [hop]
    dsimp only
    rw [hin]
  | some tbl =>
    cases hout : s.region tl d.part d.outOff 0 with
    | none =>
      refine ⟨_, rfl, hfail _ ?_⟩
      rw [hop]
      dsimp only
      rw [hin, hout]
    | some a =>
      refine ⟨_, exec_combine_eq hop hin hout rfl, ?_⟩
      have hsettled := (h.returnsTaken d.nclass).endedLost tbl
      generalize (s.returnsTaken d.nclass).endedLost tbl = u at *
      have hnone : ((u.goodTokens tbl).any fun x => x.remote && x.result.isNone) = false := by
        refine List.any_eq_false.mpr fun x hx hno => ?_
        obtain ⟨hmem, hgood⟩ := List.mem_filter.mp hx
        simp only [Bool.and_eq_true, Bool.not_eq_true', beq_iff_eq] at hgood hno
        obtain ⟨⟨-, hkept⟩, hlost⟩ := hgood
        rcases hsettled x hmem hno.1 with h | h | h
        · exact absurd hno.2 (by simp [Option.isSome_iff_ne_none.mp h])
        · exact absurd (h.symm.trans hlost) (by simp)
        · exact absurd (h.symm.trans hkept) (by simp)
      rw [hnone]
      exact State.opAt_finishOp _ _ _

theorem State.returnsTaken_of_local (h : s.flag R.xrCtrlMode = false) (nclass : Nat) : s.returnsTaken nclass = s := by
  have hdist : s.distributed = false := by simp [State.distributed, h]
  simp [State.returnsTaken, hdist]

theorem State.endedLost_of_local {tbl : Nat} (h : ∀ x ∈ s.xr.tokens, x.tbl = tbl → x.remote = false) : s.endedLost tbl = s := by
  have hnone : ((s.xr.tokens.filter fun x => x.tbl == tbl && x.kept).filter fun x => x.remote && s.hasEnded x.item) = [] := by
    refine List.filter_eq_nil_iff.mpr fun x hx => ?_
    obtain ⟨hmem, hp⟩ := List.mem_filter.mp hx
    simp only [Bool.and_eq_true, beq_iff_eq] at hp
    simp [h x hmem hp.1]
  rw [State.endedLost, hnone]
  rfl

/-- On one chip COMBINE finds its results at once. -/
theorem exec_combine_local {bad : List Nat} (hop : s.expertOp k 1 = some (o, d, tl)) {tbl a : Nat}
    (hin : s.region tl d.part d.inOff 0 = some tbl) (hout : s.region tl d.part d.outOff 0 = some a) (hmode : s.flag R.xrCtrlMode = false)
    (h : ∀ x ∈ s.xr.tokens, x.tbl = tbl → x.remote = false) :
    exec (.combine k bad) s = .next ((s.combined o d tl tbl a bad).finishOp k) := by
  rw [exec_combine_eq hop hin hout rfl, State.returnsTaken_of_local hmode, State.endedLost_of_local h]
  refine congrArg Host.Outcome.next (if_neg fun hany => ?_)
  obtain ⟨x, hx, hp⟩ := List.any_eq_true.mp hany
  obtain ⟨hmem, hgood⟩ := List.mem_filter.mp hx
  simp only [Bool.and_eq_true, beq_iff_eq] at hgood hp
  exact absurd ((h x hmem hgood.1.1).symm.trans hp.1) (by simp)

/-- COMBINE of one skipped object: its verdict repeats its class (R312, R325). -/
theorem exec_combine_skipped {tbl a : Nat} {x : XrObject} {e : XrEntry} (hop : s.expertOp k 1 = some (o, d, tl))
    (hin : s.region tl d.part d.inOff 0 = some tbl) (hout : s.region tl d.part d.outOff 0 = some a) (hmode : s.flag R.xrCtrlMode = false)
    (hobj : (s.xr.objects.filter fun x => decide (x.tbl = tbl)) = [x]) (hskip : x.skipped = true)
    (htok : ∀ y ∈ s.xr.tokens, y.tbl ≠ tbl) (he : e = s.xrEntry x.obj) : ∃ t u : State, exec (.combine k []) s = .next t ∧
      u = s.pushItemAll 0x60 d.outQid o.item 0x0A 0 [verdictCell x.obj e.cls e.conf 1 (8 * ofFlag x.forced),
        BitVec.ofNat 64 (o.item.toNat * 2 ^ 32 + 2 ^ 16 + 11 * 2 ^ 8)] ∧
      t.xr.objects = u.xr.objects.filter (fun x => decide (x.tbl ≠ tbl)) ∧ t.opAt k 5 = none ∧ t = { u with xr := t.xr, pp := t.pp } := by
  subst he
  have hgood : s.goodTokens tbl = [] := List.filter_eq_nil_iff.mpr fun y hy => by simp [htok y hy]
  have htbl : x.tbl = tbl := of_decide_eq_true
    (List.mem_filter.mp (show x ∈ s.xr.objects.filter (fun x => decide (x.tbl = tbl)) by rw [hobj]; exact List.mem_singleton_self x)).2
  have hnone : (s.xr.tokens.filter fun y => y.tbl == x.tbl && y.obj == x.obj) = [] :=
    List.filter_eq_nil_iff.mpr fun y hy => by simp [htbl, htok y hy]
  have hverdict : s.verdict d.nclass x =
      (verdictCell x.obj (s.xrEntry x.obj).cls (s.xrEntry x.obj).conf 1 (8 * ofFlag x.forced), s) := by
    unfold State.verdict
    simp [hnone, hskip, ofFlag]
  refine ⟨_, _, exec_combine_local hop hin hout hmode fun y hy hno => absurd hno (htok y hy), rfl, ?_⟩
  have hcombined : s.combined o d tl tbl a [] = (s.pushItemAll 0x60 d.outQid o.item 0x0A 0
      [verdictCell x.obj (s.xrEntry x.obj).cls (s.xrEntry x.obj).conf 1 (8 * ofFlag x.forced),
        BitVec.ofNat 64 (o.item.toNat * 2 ^ 32 + 2 ^ 16 + 11 * 2 ^ 8)]).modXr (·.withoutTable tbl) := by
    unfold State.combined
    have hone : 1 % 65536 * 2 ^ 16 = 2 ^ 16 := by decide
    simp only [hgood, List.filter_nil, List.foldl_nil, hobj, State.verdicts, hverdict, List.length_singleton, hone, List.cons_append,
      List.nil_append]
  rw [hcombined]
  exact ⟨rfl, State.opAt_finishOp _ _ _, rfl⟩

/-! ## The verdict of one classified object (R325) -/

/-- The result of a token is kept with it. -/
def Token.withResult (y : Token) (l : List Byte) : Token := { y with result := some l }

/-- The tokens of an item take a result. -/
def Experts.withResult (x : Experts) (item : ItemId) (l : List Byte) : Experts :=
  { x with tokens := x.tokens.map fun u => if u.item = item then u.withResult l else u }

/-- A local token that is in progress takes the bytes of its result (R323). -/
theorem State.takeLocal_reads {y : Token} {a nclass : Nat} (hended : s.hasEnded y.item = false) (hpoison : y.item ∉ s.pal.poisoned)
    (hresult : y.result = none) : s.takeLocal tl a nclass [] y =
      s.modXr (·.withResult y.item (s.tileRead tl (a + y.index * resultStride nclass) nclass)) := by
  unfold State.takeLocal
  rw [if_neg (by simp [hended]), if_neg (by simp [hpoison]), if_neg (by simp), hresult]
  rfl

theorem filter_map_of_tbl {l : List Token} {f : Token → Token} {tbl : Nat} (hf : ∀ x, (f x).tbl = x.tbl) :
    ((l.map f).filter fun x => decide (x.tbl = tbl)) = (l.filter fun x => decide (x.tbl = tbl)).map f := by
  rw [List.filter_map]
  congr 1
  exact List.filter_congr fun x _ => by simp [hf]

/-- The entry of an object after a verdict of the unit's own (R325). -/
def XrEntry.classified (e : XrEntry) (c conf : Nat) : XrEntry :=
  { e with
    cls := c
    conf := conf
    stable := if e.stable ≠ 0 ∧ e.cls = c then e.stable + 1 else 1
    hazard := false }

/-- An object with one good token takes the class of the token's highest weighted score. -/
theorem State.verdict_classified {nclass c : Nat} {hi lo : Int} {x : XrObject} {y : Token} {l : List Byte} (hskip : x.skipped = false)
    (hhazard : x.hazard = false) (htoks : (s.xr.tokens.filter fun y => decide (y.tbl = x.tbl)) = [y]) (hobj : y.obj = x.obj)
    (hkept : y.kept = true) (hlost : y.lost = false) (hresult : y.result = some l)
    (hbest : bestClass ((List.range nclass).map fun c => (y.weight : Int) * toSigned 8 ((l.getD c 0).toNat)) = (c, hi, some lo)) :
    ∃ cell, s.verdict nclass x = (cell, s.tick.modEntry x.obj (·.classified c (min 255 ((hi - lo) / 65536)).toNat)) := by
  have hmine : (s.xr.tokens.filter fun y => y.tbl == x.tbl && y.obj == x.obj) = [y] := by
    have hsplit : (s.xr.tokens.filter fun y => y.tbl == x.tbl && y.obj == x.obj) =
        ((s.xr.tokens.filter fun y => decide (y.tbl = x.tbl)).filter fun y => y.obj == x.obj) := by
      rw [List.filter_filter]
      exact List.filter_congr fun z _ => by rw [Bool.and_comm, beq_eq_decide z.tbl]
    rw [hsplit, htoks]
    simp [hobj]
  have hscores : (List.range nclass).map (combinedScore [y]) =
      (List.range nclass).map fun c => (y.weight : Int) * toSigned 8 ((l.getD c 0).toNat) :=
    List.map_congr_left fun c _ => by simp [combinedScore, hresult]
  unfold State.verdict
  rw [hmine]
  have hgood : ([y].filter fun t => t.kept && !t.lost && t.result.isSome) = [y] := by simp [hkept, hlost, hresult]
  dsimp only
  rw [hgood, if_neg (by simp [hskip]), if_neg (by simp [hhazard]), hscores, hbest]
  exact ⟨_, rfl⟩

theorem exec_combine_classified {tbl a c : Nat} {hi lo : Int} {x : XrObject} {y : Token}
    (hop : s.expertOp k 1 = some (o, d, tl)) (hin : s.region tl d.part d.inOff 0 = some tbl) (hout : s.region tl d.part d.outOff 0 = some a)
    (hmode : s.flag R.xrCtrlMode = false) (hobjects : (s.xr.objects.filter fun x => decide (x.tbl = tbl)) = [x])
    (hskip : x.skipped = false) (hhazard : x.hazard = false) (htoks : (s.xr.tokens.filter fun y => decide (y.tbl = tbl)) = [y])
    (hobj : y.obj = x.obj) (hkept : y.kept = true) (hlost : y.lost = false) (hremote : y.remote = false) (hresult : y.result = none)
    (hslot : x.obj < 4096) (hended : s.hasEnded y.item = false) (hpoison : y.item ∉ s.pal.poisoned)
    (hbest : bestClass ((List.range d.nclass).map fun c => (y.weight : Int) *
      toSigned 8 (((s.tileRead tl (a + y.index * resultStride d.nclass) d.nclass).getD c 0).toNat)) = (c, hi, some lo)) :
    ∃ t, exec (.combine k []) s = .next t ∧ t.hasEnded y.item = true ∧ t.opAt k 5 = none ∧
      t.xrEntry x.obj = (s.xrEntry x.obj).classified c (min 255 ((hi - lo) / 65536)).toNat ∧
      (∀ m, m ≠ x.obj → t.xrEntry m = s.xrEntry m) ∧ (∀ z ∈ t.xr.tokens, z.tbl ≠ tbl) ∧ s.sameBytes t := by
  have hmem : y ∈ s.xr.tokens ∧ y.tbl = tbl := by
    have hy : y ∈ s.xr.tokens.filter (fun y => decide (y.tbl = tbl)) := by rw [htoks]; exact List.mem_singleton_self y
    exact ⟨List.mem_of_mem_filter hy, of_decide_eq_true (List.mem_filter.mp hy).2⟩
  have hxtbl : x.tbl = tbl := of_decide_eq_true
    (List.mem_filter.mp (show x ∈ s.xr.objects.filter (fun x => decide (x.tbl = tbl)) by rw [hobjects]; exact List.mem_singleton_self x)).2
  have hlocal : ∀ z ∈ s.xr.tokens, z.tbl = tbl → z.remote = false := fun z hz hztbl => by
    have hz' : z ∈ s.xr.tokens.filter (fun y => decide (y.tbl = tbl)) := List.mem_filter.mpr ⟨hz, by simpa using hztbl⟩
    rw [htoks, List.mem_singleton] at hz'
    rw [hz', hremote]
  have hmine : s.goodTokens tbl = [y] := by
    have hsplit : s.goodTokens tbl = ((s.xr.tokens.filter fun y => decide (y.tbl = tbl)).filter fun y => y.kept && !y.lost) := by
      rw [State.goodTokens, List.filter_filter]
      exact List.filter_congr fun z _ => by
        rw [beq_eq_decide z.tbl, Bool.and_assoc, Bool.and_comm]
    rw [hsplit, htoks]
    simp [hkept, hlost]
  refine ⟨_, exec_combine_local hop hin hout hmode hlocal, ?_⟩
  generalize hl : s.tileRead tl (a + y.index * resultStride d.nclass) d.nclass = l at hbest
  have htake := State.takeLocal_reads (tl := tl) (a := a) (nclass := d.nclass) hended hpoison hresult
  rw [hl] at htake
  generalize hu : s.modXr (·.withResult y.item l) = u at htake
  have hutoks : (u.xr.tokens.filter fun z => decide (z.tbl = x.tbl)) = [y.withResult l] := by
    rw [← hu, hxtbl]
    refine (filter_map_of_tbl (fun z => ?_)).trans ?_
    · split <;> rfl
    · rw [htoks]
      simp
  obtain ⟨cell, hverdict⟩ := State.verdict_classified (s := u) (y := y.withResult l) hskip hhazard hutoks hobj hkept hlost rfl hbest
  generalize hv : u.tick.modEntry x.obj (·.classified c (min 255 ((hi - lo) / 65536)).toNat) = v at hverdict
  have hvframe : v = { s with xr := v.xr, freeCtr := v.freeCtr } := by
    rw [← hv, State.modEntry_frame, ← hu]; rfl
  have huentry : ∀ m, u.tick.xrEntry m = s.xrEntry m := fun m => State.xrEntry_congr (by rw [← hu]; rfl) m
  have hvobj : v.xrEntry x.obj = (s.xrEntry x.obj).classified c (min 255 ((hi - lo) / 65536)).toNat := by
    rw [← hv, State.xrEntry_modEntry_self _ hslot, huentry]
  have hvne : ∀ m, m ≠ x.obj → v.xrEntry m = s.xrEntry m := fun m hm => by
    rw [← hv, State.xrEntry_modEntry_ne _ _ hm, huentry]
  have hvended : v.hasEnded y.item = false := by rw [hvframe]; exact hended
  obtain ⟨ended, hcomplete⟩ := v.hasEnded_complete y.item 0x0A hvended
  have hcombined : ∃ cells, s.combined o d tl tbl a [] =
      ((v.complete y.item 0x0A).pushItemAll 0x60 d.outQid o.item 0x0A 0 cells).modXr (·.withoutTable tbl) := by
    have hobjU : (u.xr.objects.filter fun x => decide (x.tbl = tbl)) = [x] := by rw [← hu]; exact hobjects
    have hlocals : ([y].filter fun x => !x.remote) = [y] := by simp [hremote]
    unfold State.combined
    simp only [hmine, hlocals, List.foldl_cons, List.foldl_nil, htake, hobjU, State.verdicts, hverdict, hvended]
    exact ⟨_, rfl⟩
  obtain ⟨cells, hcombined⟩ := hcombined
  rw [hcombined]
  have hpushed : v.onlyPushed ((v.complete y.item 0x0A).pushItemAll 0x60 d.outQid o.item 0x0A 0 cells) :=
    State.onlyPushed.pushItemAll cells v.onlyPushed_refl.complete
  have hhas := State.hasEnded_pushItemAll (ep := 0x60) (q := d.outQid) (stage := 0x0A) (flags := 0) (item := o.item) (cells := cells) hcomplete
  generalize (v.complete y.item 0x0A).pushItemAll 0x60 d.outQid o.item 0x0A 0 cells = w at hpushed hhas
  have hwentry : ∀ m, ((w.modXr (·.withoutTable tbl)).finishOp k).xrEntry m = v.xrEntry m :=
    fun m => State.xrEntry_congr (congrArg (·.entries) hpushed.xr) m
  refine ⟨hhas, State.opAt_finishOp _ _ _, by rw [hwentry, hvobj], fun m hm => by rw [hwentry, hvne m hm], fun z hz => ?_, fun n => ?_⟩
  · simpa using (List.mem_filter.mp (show z ∈ w.xr.tokens.filter _ from hz)).2
  · have hbytes := hpushed.sameBytes n
    rw [hvframe] at hbytes
    exact hbytes

/-! ## EXIT (R324) -/

/-- A token leaves its batch with the logits that lie at its place. -/
def State.exited (s : State) (tl a nclass : Nat) (x : Token) : Token :=
  { x with
    exited := true
    result := some (s.tileRead tl (a + x.index * resultStride nclass) nclass) }

/-- A token of EXIT leaves its batch (R324). -/
def State.exitToken (tl a nclass : Nat) (s : State) (x : Token) : State :=
  (s.bump R.xrCntCount 4).modXr fun y => { y with tokens := y.tokens.map fun u =>
    if u.item = x.item then { u with exited := true, result := some (s.tileRead tl (a + x.index * resultStride nclass) nclass) } else u }

/-- The tokens of a list leave, each with its own logits, and every other token stays. -/
theorem State.exitTokens_spec {a nclass : Nat} (hnodup : (s.xr.tokens.map (·.item)).Nodup) (l : List Token) : l.Nodup →
    (∀ x ∈ l, x ∈ s.xr.tokens) → ∃ t, l.foldl (State.exitToken tl a nclass) s = t ∧
      t.xr = { s.xr with tokens := s.xr.tokens.map fun x => if x ∈ l then s.exited tl a nclass x else x } ∧
      t.reg R.xrCntCount 4 % 2 ^ 32 = (s.reg R.xrCntCount 4 + l.length) % 2 ^ 32 ∧
      t = { s with regs := t.regs, xr := t.xr } ∧ s.regsBut t [R.xrCntCount.key 4 0] := by
  induction l using List.reverseRecOn with
  | nil => exact fun _ _ => ⟨s, rfl, by simp, by simp, rfl, s.regsBut_refl _⟩
  | append_singleton l x ih =>
    intro hl hmem
    have hsplit := List.nodup_append.mp hl
    have hx : x ∉ l := fun h => hsplit.2.2 x h x (List.mem_singleton_self x) rfl
    obtain ⟨u, hu, hxr, hcount, hframe, hregs⟩ := ih hsplit.1 fun y hy => hmem y (List.mem_append_left _ hy)
    refine ⟨_, rfl, ?_⟩
    rw [List.foldl_append, List.foldl_cons, List.foldl_nil, hu]
    have hread : u.tileRead tl (a + x.index * resultStride nclass) nclass = s.tileRead tl (a + x.index * resultStride nclass) nclass := by
      rw [hframe]; rfl
    have htokens : ((s.xr.tokens.map fun z => if z ∈ l then s.exited tl a nclass z else z).map fun z =>
        if z.item = x.item then { z with exited := true, result := some (u.tileRead tl (a + x.index * resultStride nclass) nclass) } else z) =
        s.xr.tokens.map fun z => if z ∈ l ++ [x] then s.exited tl a nclass z else z := by
      rw [List.map_map, hread]
      refine List.map_congr_left fun z hz => ?_
      have hitem : (if z ∈ l then s.exited tl a nclass z else z).item = z.item := by split <;> rfl
      by_cases hzx : z = x
      · subst hzx
        simp [hx, State.exited]
      · have hne : z.item ≠ x.item := fun h => hzx (List.inj_on_of_nodup_map hnodup hz (hmem x (by simp)) h)
        simp only [Function.comp_apply, hitem, hne, if_false, List.mem_append, List.mem_singleton, hzx, or_false]
    refine ⟨?_, ?_, ?_, ?_⟩
    · unfold State.exitToken
      rw [State.modXr_xr, State.bump, State.setReg_xr, hxr]
      exact congrArg (fun l => { s.xr with tokens := l }) htokens
    · have hreg : (State.exitToken tl a nclass u x).reg R.xrCntCount 4 = (u.reg R.xrCntCount 4 + 1) % 2 ^ 32 :=
        (State.reg_congr (s := u.bump R.xrCntCount 4) rfl _ _ _).trans (State.reg_setReg_self _ _ _ _ _)
      rw [hreg, List.length_append, List.length_singleton]
      omega
    · unfold State.exitToken
      rw [hframe]; rfl
    · exact (State.regsBut.setReg hregs (List.mem_singleton_self _)).of_regs rfl

/-! ## What EXIT writes in the partition of the tables (R314, R324) -/

/-- Bytes of a part of a range keep to its address range. -/
theorem tileAddr_part {base size off n : Nat} (hfit : base + size ≤ 2 ^ 20) (hoff : off + n ≤ size) (hn : 0 < n) :
    tileAddr tl (base + off) = tileAddr tl base + off := by
  unfold tileAddr
  rw [Nat.mod_eq_of_lt (by omega), Nat.mod_eq_of_lt (by omega), Nat.add_assoc]

theorem State.writeRouting_inside {part off nobj ntok base size : Nat} (hp : s.partOf tl part = some (base, size))
    (hfit : base + size ≤ 2 ^ 20) {n : Nat} (hn : n < tileAddr tl base ∨ tileAddr tl base + size ≤ n) :
    (s.writeRouting tl part off nobj ntok).tmem.read n = s.tmem.read n := by
  refine (s.writeRouting_spec hp).2 n ?_
  by_cases hpos : 0 < min (Config.routingBytes nobj ntok) (size - off)
  · rw [tileAddr_part hfit (by omega) hpos]
    omega
  · omega

/-- The entries of a problem list that stay are at most the entries of the list. -/
theorem compactBytes_length (f : Nat → List Byte) (hf : ∀ i, (f i).length = 16) (n : Nat) (stay : List Bool) :
    ((((List.range n).zip stay).filter (·.2)).flatMap fun e => f e.1).length ≤ 16 * n := by
  have hlen : ((((List.range n).zip stay).filter (·.2)).flatMap fun e => f e.1).length =
      16 * ((List.range n).zip stay |>.filter (·.2)).length := by
    rw [List.length_flatMap]
    simp only [hf, List.map_const', List.sum_replicate, smul_eq_mul, Nat.mul_comm]
  have hle : (((List.range n).zip stay).filter (·.2)).length ≤ n :=
    (List.length_filter_le _ _).trans (by rw [List.length_zip, List.length_range]; exact Nat.min_le_left _ _)
  omega

theorem State.compactList_spec {part tbl expert : Nat} {stay : List Bool} :
    s.compactList tl part tbl expert stay = { s with tmem := (s.compactList tl part tbl expert stay).tmem } ∧
    ∀ base size, s.partOf tl part = some (base, size) → base + size ≤ 2 ^ 20 →
      ∀ n, n < tileAddr tl base ∨ tileAddr tl base + size ≤ n → (s.compactList tl part tbl expert stay).tmem.read n = s.tmem.read n := by
  unfold State.compactList
  constructor
  · split <;> rfl
  · intro base size hp hfit n hn
    rw [hp]
    dsimp only
    generalize hc : min stay.length (size / 16) = c
    have hplace : Config.problemList tbl expert % (size - 16 * c + 1) ≤ size - 16 * c := Nat.le_of_lt_succ (Nat.mod_lt _ (by omega))
    generalize Config.problemList tbl expert % (size - 16 * c + 1) = off at hplace
    have hbytes := compactBytes_length (fun i => s.tileRead tl (base + off + 16 * i) 16) (fun i => s.tileRead_length _ _ _) c stay
    generalize ((((List.range c).zip stay).filter (·.2)).flatMap fun e => s.tileRead tl (base + off + 16 * e.1) 16) = l at hbytes
    refine Mem.read_writeBytes_out _ _ _ _ ?_
    by_cases hpos : 0 < c
    · rw [tileAddr_part (n := 16 * c) hfit (by omega) (by omega)]
      omega
    · have hnil : l.length = 0 := by omega
      rw [hnil]
      omega

theorem exec_exitOp_ends (hop : s.expertOp k 2 = some (o, d, tl)) : ∃ t, exec (.exitOp k) s = .next t ∧ t.opAt k 5 = none := by
  refine ⟨_, rfl, ?_⟩
  rw [hop]
  dsimp only
  split
  · exact State.opAt_finishOp _ _ _
  · exact State.opAt_boundsFail _ _ _

/-- EXIT with its tokens that leave (R324). -/
theorem exec_exitOp_eq {tbl a : Nat} {live out : List Token} (hop : s.expertOp k 2 = some (o, d, tl))
    (hin : s.region tl d.part d.inOff 0 = some tbl) (hout : s.region tl d.part d.outOff 0 = some a)
    (hlive : live = s.xr.tokens.filter fun x => x.tbl == tbl && x.kept && !x.lost && !x.exited && x.expert == d.expert)
    (hleave : out = live.filter fun x => decide (d.exitConf ≤ s.tileNat tl (a + x.index * resultStride d.nclass + d.nclass) 1))
    (hu : out.foldl (State.exitToken tl a d.nclass) s = u) : ∃ nobj ntok stay, exec (.exitOp k) s =
      .next (((((u.modScratch fun m => m.writeNat d.scrOff 2 (live.length - out.length)).writeRouting tl d.part d.inOff nobj ntok).compactList
        tl d.part tbl d.expert stay)).finishOp k) := by
  subst hu hleave hlive
  have hrun : exec (.exitOp k) s = execExitOp k s := rfl
  rw [hrun]
  unfold execExitOp
  rw [hop]
  dsimp only
  rw [hin, hout]
  exact ⟨_, _, _, rfl⟩

theorem exec_exitOp_spec {tbl a : Nat} {live out : List Token} (hop : s.expertOp k 2 = some (o, d, tl))
    (hin : s.region tl d.part d.inOff 0 = some tbl) (hout : s.region tl d.part d.outOff 0 = some a)
    (hnodup : (s.xr.tokens.map (·.item)).Nodup)
    (hlive : live = s.xr.tokens.filter fun x => x.tbl == tbl && x.kept && !x.lost && !x.exited && x.expert == d.expert)
    (hleave : out = live.filter fun x => decide (d.exitConf ≤ s.tileNat tl (a + x.index * resultStride d.nclass + d.nclass) 1)) :
    ∃ t, exec (.exitOp k) s = .next t ∧
      t.xr = { s.xr with tokens := s.xr.tokens.map fun x => if x ∈ out then s.exited tl a d.nclass x else x } ∧
      t.reg R.xrCntCount 4 % 2 ^ 32 = (s.reg R.xrCntCount 4 + out.length) % 2 ^ 32 ∧
      t.scratch.readNat d.scrOff 2 = (live.length - out.length) % 65536 ∧
      (∀ n, n < d.scrOff ∨ d.scrOff + 2 ≤ n → t.scratch.read n = s.scratch.read n) ∧ t.opAt k 5 = none ∧
      t = { s with regs := t.regs, xr := t.xr, scratch := t.scratch, tmem := t.tmem, pp := t.pp, freeCtr := t.freeCtr } ∧
      s.regsBut t [R.xrCntCount.key 4 0] ∧
      (∀ base size, s.partOf tl d.part = some (base, size) → base + size ≤ 2 ^ 20 →
        ∀ n, n < tileAddr tl base ∨ tileAddr tl base + size ≤ n → t.tmem.read n = s.tmem.read n) := by
  have hnodupOut : out.Nodup := by
    rw [hleave, hlive]
    exact ((List.Nodup.of_map _ hnodup).filter _).filter _
  have hmem : ∀ x ∈ out, x ∈ s.xr.tokens := fun x hx => by
    rw [hleave, hlive] at hx
    exact List.mem_of_mem_filter (List.mem_of_mem_filter hx)
  obtain ⟨u, hu, hxr, hcount, hframe, hregs⟩ := State.exitTokens_spec (tl := tl) (a := a) (nclass := d.nclass) hnodup out hnodupOut hmem
  obtain ⟨nobj, ntok, stay, hexec⟩ := exec_exitOp_eq hop hin hout hlive hleave hu
  refine ⟨_, hexec, ?_⟩
  have hscr := Mem.writeNat_spec s.scratch d.scrOff 2 (live.length - out.length)
  generalize hv : (u.modScratch fun m => m.writeNat d.scrOff 2 (live.length - out.length)) = v
  have hvframe : v = { u with scratch := s.scratch.writeNat d.scrOff 2 (live.length - out.length) } := by rw [← hv, hframe]; rfl
  have hpart : ∀ w : State, w.cv = s.cv → w.partOf tl d.part = s.partOf tl d.part := fun w hw => by rw [State.partOf, State.partOf, hw]
  obtain ⟨part, hpartEq⟩ : ∃ p, s.partOf tl d.part = some p := by
    cases hp : s.partOf tl d.part with
    | none => rw [State.region, hp] at hin; exact absurd hin (by simp)
    | some p => exact ⟨p, rfl⟩
  obtain ⟨base, size⟩ := part
  have hrout := v.writeRouting_spec (off := d.inOff) (nobj := nobj) (ntok := ntok) ((hpart v (by rw [hvframe, hframe])).trans hpartEq)
  have hinside := fun n => v.writeRouting_inside (off := d.inOff) (nobj := nobj) (ntok := ntok) (n := n)
    ((hpart v (by rw [hvframe, hframe])).trans hpartEq)
  generalize v.writeRouting tl d.part d.inOff nobj ntok = w at hrout hinside
  obtain ⟨hcomp, hcompRead⟩ := w.compactList_spec (tl := tl) (part := d.part) (tbl := tbl) (expert := d.expert) (stay := stay)
  generalize w.compactList tl d.part tbl d.expert stay = y at hcomp hcompRead
  have hparts : y = { s with regs := u.regs, xr := u.xr, scratch := s.scratch.writeNat d.scrOff 2 (live.length - out.length), tmem := y.tmem, freeCtr := y.freeCtr } := by
    rw [hcomp, hrout.1, hvframe, hframe]
  have hyregs : (y.finishOp k).regs = u.regs := by rw [hparts]; rfl
  have hyscr : (y.finishOp k).scratch = s.scratch.writeNat d.scrOff 2 (live.length - out.length) := by rw [hparts]; rfl
  refine ⟨?_, ?_, ?_, fun n hn => by rw [hyscr]; exact hscr.2 n hn, State.opAt_finishOp _ _ _, by rw [hparts]; rfl, hregs.of_regs hyregs,
    fun b z hbz hfit n hn => ?_⟩
  · rw [← hxr, hparts]; rfl
  · rw [State.reg_congr hyregs, hcount]
  · rw [Mem.readNat, hyscr, hscr.1, leNat_leBytes]
    rfl
  · obtain ⟨rfl, rfl⟩ := Prod.mk.inj (Option.some.inj (hbz.symm.trans hpartEq))
    have hwcv : w.cv = s.cv := by rw [hrout.1, hvframe, hframe]
    have hvt : v.tmem = s.tmem := by rw [hvframe, hframe]
    exact (hcompRead _ _ ((hpart w hwcv).trans hpartEq) hfit n hn).trans ((hinside n hfit hn).trans (by rw [hvt]))

theorem exec_combine_none {bad : List Nat} (h : s.expertOp k 1 = none) : exec (.combine k bad) s = .next s := by
  show execCombine k bad s = _
  unfold execCombine
  rw [h]

theorem exec_exitOp_none (h : s.expertOp k 2 = none) : exec (.exitOp k) s = .next s := by
  show execExitOp k s = _
  unfold execExitOp
  rw [h]

end

/-- Settles O42: results settle before the verdicts, a verdict is that of the one good token, and EXIT writes only its own places. -/
theorem combineAndExit : Obligations.CombineAndExit := by
  unfold Obligations.CombineAndExit
  refine ⟨fun k tl o d bad s hop h => exec_combine_ends hop h, fun k tl o d s hop => exec_exitOp_ends hop,
    fun k tl tbl a o d x e s hop hin hout hmode hobj hskip htok he => exec_combine_skipped hop hin hout hmode hobj hskip htok he,
    fun k tl tbl a c hi lo o d x y s hop hin hout hmode hobjects hskip hhazard htoks hobj hkept hlost hremote hresult hslot hended hpoison
      hbest => ?_,
    fun k tl tbl a live out o d s hop hin hout hnodup hlive hleave => exec_exitOp_spec hop hin hout hnodup hlive hleave,
    fun k bad s => ⟨exec_combine_none, exec_exitOp_none⟩⟩
  obtain ⟨t, ht, hdone, hop', hentry, hrest⟩ := exec_combine_classified hop hin hout hmode hobjects hskip hhazard htoks hobj hkept hlost
    hremote hresult hslot hended hpoison hbest
  exact ⟨t, ht, hdone, hop', congrArg (·.cls) hentry, congrArg (·.conf) hentry, congrArg (·.hazard) hentry,
    congrArg (·.stable) hentry, hrest⟩

end Sys2Proof.Machine
end

section
/-! The dense fabric: lists of writes, the elements of a map, and the operations that write one (R284 to R295, R305 to R311). -/
namespace Sys2Proof.Machine

/-! ## Lists of writes -/

/-- Bytes are written at several places, in order. -/
def Mem.writeAll (m : Mem) (l : List (Nat × List Byte)) : Mem := l.foldl (fun m e => m.writeBytes e.1 e.2) m

/-- Two writes have no byte in common. -/
def apart (e f : Nat × List Byte) : Prop := e.1 + e.2.length ≤ f.1 ∨ f.1 + f.2.length ≤ e.1

theorem Mem.writeAll_cons (m : Mem) (e : Nat × List Byte) (l : List (Nat × List Byte)) :
    m.writeAll (e :: l) = (m.writeBytes e.1 e.2).writeAll l := rfl

theorem Mem.writeAll_append (m : Mem) (l r : List (Nat × List Byte)) : m.writeAll (l ++ r) = (m.writeAll l).writeAll r :=
  List.foldl_append

theorem Mem.read_writeAll_out {n : Nat} : ∀ (l : List (Nat × List Byte)) (m : Mem),
    (∀ e ∈ l, n < e.1 ∨ e.1 + e.2.length ≤ n) → (m.writeAll l).read n = m.read n
  | [], _, _ => rfl
  | e :: l, m, h => by
    rw [Mem.writeAll_cons, Mem.read_writeAll_out l _ fun f hf => h f (List.mem_cons_of_mem _ hf)]
    exact Mem.read_writeBytes_out _ _ _ _ (h e List.mem_cons_self)

theorem Mem.readBytes_writeAll_out {a n : Nat} (l : List (Nat × List Byte)) (m : Mem)
    (h : ∀ e ∈ l, a + n ≤ e.1 ∨ e.1 + e.2.length ≤ a) : (m.writeAll l).readBytes a n = m.readBytes a n :=
  List.map_congr_left fun i hi => Mem.read_writeAll_out l m fun e he => by
    have := List.mem_range.mp hi
    have := h e he
    omega

/-- A write is read back where no other write of the list touches its bytes. -/
theorem Mem.readBytes_writeAll {e : Nat × List Byte} : ∀ (l : List (Nat × List Byte)) (m : Mem), e ∈ l →
    (∀ f ∈ l, f = e ∨ apart f e) → (m.writeAll l).readBytes e.1 e.2.length = e.2
  | f :: l, m, hmem, h => by
    rw [Mem.writeAll_cons]
    have hl : ∀ g ∈ l, g = e ∨ apart g e := fun g hg => h g (List.mem_cons_of_mem _ hg)
    by_cases hin : e ∈ l
    · exact Mem.readBytes_writeAll l _ hin hl
    · have hf : e = f := (List.mem_cons.mp hmem).resolve_right hin
      rw [← hf, Mem.readBytes_writeAll_out l _ fun g hg => ?_, Mem.readBytes_writeBytes]
      rcases hl g hg with rfl | hg'
      · exact absurd hg hin
      · exact hg'.symm

section
variable {s t u : State} {k kind tl : Nat} {o : SlotOp} {d : DenseDesc} {sh : Share} {p : Places}

/-! ## Registers that dense operations write (R311) -/

theorem denseCount_mem {t n : Nat} (ht : t < 64) (hn : n < 9) : R.deTCntCount.key t n ∈ keysOf R.deTCntCount :=
  List.mem_flatMap.mpr ⟨t, List.mem_range.mpr ht, List.mem_map.mpr ⟨n, List.mem_range.mpr hn, rfl⟩⟩

theorem renderCount_mem {n : Nat} (hn : n < 13) : R.rdCntCount.key n 0 ∈ keysOf R.rdCntCount :=
  List.mem_flatMap.mpr ⟨n, List.mem_range.mpr hn, List.mem_map.mpr ⟨0, by decide, rfl⟩⟩

theorem State.regsBut.trans {ks : List Nat} (h : s.regsBut t ks) (h' : t.regsBut u ks) : s.regsBut u ks :=
  fun r i j hk => (h' r i j hk).trans (h r i j hk)

theorem State.regsBut.mono {ks ks' : List Nat} (h : s.regsBut t ks) (hsub : ∀ x ∈ ks, x ∈ ks') : s.regsBut t ks' :=
  fun r i j hk => h r i j fun hmem => hk (hsub _ hmem)

theorem State.countOp_spec (s : State) {tl : Nat} (htl : tl < 64) (cost sat : Nat) :
    s.countOp tl cost sat = { s with regs := (s.countOp tl cost sat).regs, freeCtr := s.freeCtr + 1 } ∧
    s.regsBut (s.countOp tl cost sat) (keysOf R.deTCntCount) :=
  ⟨rfl, ((((s.regsBut_refl _).of_regs (u := s.tick) rfl).setReg (denseCount_mem htl (by decide))).setReg
    (denseCount_mem htl (by decide))).setReg (denseCount_mem htl (by decide))⟩

/-! ## Elements of a map (R286) -/

/-- A write inside a range of a tile's memory that does not leave it keeps every byte outside. -/
theorem State.tileWriteNat_inside (s : State) {a size off n v b : Nat} (hfit : a + size ≤ 2 ^ 20) (hoff : off + n ≤ size)
    (hn : 0 < n) (hb : b < tileAddr tl a ∨ tileAddr tl a + size ≤ b) :
    (s.tileWriteNat tl (a + off) n v).tmem.read b = s.tmem.read b := by
  refine Mem.read_writeBytes_out _ _ _ _ ?_
  rw [leBytes_length, tileAddr_part hfit hoff hn]
  omega

theorem State.setElem_frame (s : State) (a fmt e v : Nat) : s.setElem tl a fmt e v = { s with tmem := (s.setElem tl a fmt e v).tmem } := by
  unfold State.setElem
  dsimp only
  split
  · rfl
  · split <;> rfl

/-- An element is written inside the bytes of its map. -/
theorem State.setElem_inside (s : State) {a fmt e v n b : Nat} (he : e < n) (heven : fmt = 1 → n % 2 = 0)
    (hfit : a + fmtBytes fmt n ≤ 2 ^ 20) (hb : b < tileAddr tl a ∨ tileAddr tl a + fmtBytes fmt n ≤ b) :
    (s.setElem tl a fmt e v).tmem.read b = s.tmem.read b := by
  unfold State.setElem
  unfold fmtBytes at hfit hb
  by_cases h1 : fmt = 1
  · have hn := heven h1
    rw [if_pos h1] at hfit hb
    simp only [if_pos h1]
    exact s.tileWriteNat_inside hfit (by omega) (by decide) hb
  · rw [if_neg h1] at hfit hb
    rw [if_neg h1]
    by_cases h2 : fmt = 2
    · rw [if_pos h2] at hfit hb
      rw [if_pos h2]
      exact s.tileWriteNat_inside hfit (by omega) (by decide) hb
    · rw [if_neg h2] at hfit hb
      rw [if_neg h2]
      exact s.tileWriteNat_inside hfit (by omega) (by decide) hb

theorem le_padTo {n : Nat} (c : Nat) (hn : 0 < n) : c ≤ padTo n c := by
  unfold padTo ceilDiv
  have := Nat.div_add_mod (c + n - 1) n
  have := Nat.mod_lt (c + n - 1) hn
  rw [Nat.mul_comm]
  omega

theorem fmtPad_pos (fmt : Nat) : 0 < fmtPad fmt := by
  unfold fmtPad
  split
  · decide
  · split <;> decide

/-- The element of row j, column x and channel n is one of the map's. -/
theorem mapIndex_lt {w rows c j x n P : Nat} (hj : j < rows) (hx : x < w) (hn : n < c) (hP : c ≤ P) :
    (j * w + x) * P + n < w * rows * P := by
  have hrow : j * w + x + 1 ≤ rows * w := by
    calc j * w + x + 1 ≤ j * w + w := by omega
      _ = (j + 1) * w := by rw [Nat.add_mul, Nat.one_mul]
      _ ≤ rows * w := Nat.mul_le_mul_right _ hj
  calc (j * w + x) * P + n < (j * w + x) * P + P := by omega
    _ = (j * w + x + 1) * P := by rw [Nat.add_mul _ 1, Nat.one_mul]
    _ ≤ rows * w * P := Nat.mul_le_mul_right _ hrow
    _ = w * rows * P := by rw [Nat.mul_comm rows]

theorem mapIndex_inj {w P j x n j' x' n' : Nat} (hx : x < w) (hx' : x' < w) (hn : n < P) (hn' : n' < P)
    (h : (j * w + x) * P + n = (j' * w + x') * P + n') : j = j' ∧ x = x' ∧ n = n' := by
  have hpix : j * w + x = j' * w + x' := by
    have := congrArg (· / P) h
    simpa [Nat.mul_comm _ P, Nat.mul_add_div (Nat.zero_lt_of_lt hn), Nat.div_eq_of_lt hn, Nat.div_eq_of_lt hn'] using this
  have hj : j = j' := by
    have := congrArg (· / w) hpix
    simpa [Nat.mul_comm _ w, Nat.mul_add_div (Nat.zero_lt_of_lt hx), Nat.div_eq_of_lt hx, Nat.div_eq_of_lt hx'] using this
  subst hj
  have hxx : x = x' := by omega
  subst hxx
  exact ⟨rfl, rfl, by omega⟩

/-! ## The output of a share (R289 to R291) -/

/-- The width of an operation's output map. -/
def denseWidth (kind : Nat) (d : DenseDesc) : Nat := if kind = 0 ∨ kind = 4 then d.w else outSize d.pad d.kw d.dil d.stride d.w

/-- The format of an operation's output map. -/
def denseFmt (kind : Nat) (d : DenseDesc) : Nat := if kind = 3 then d.fmtIn else d.fmtOut

/-- The slice that a share writes. -/
def outSlice (kind : Nat) (d : DenseDesc) (sh : Share) (p : Places) : Slice :=
  { tile := sh.tile, base := p.out, fmt := denseFmt kind d, w := denseWidth kind d, first := sh.r0, chans := sh.chans }

/-- The elements of a share's output, as (x, y, channel). -/
def shareCells (w : Nat) (sh : Share) : List (Nat × Nat × Nat) :=
  (List.range sh.rows).flatMap fun j => (List.range w).flatMap fun x => (List.range sh.chans).map fun n => (x, sh.r0 + j, n)

/-- The bytes that a share writes. -/
def outBytes (kind : Nat) (d : DenseDesc) (sh : Share) : Nat := mapBytes (denseFmt kind d) (denseWidth kind d) sh.rows sh.chans

theorem mem_shareCells {w : Nat} {e : Nat × Nat × Nat} :
    e ∈ shareCells w sh ↔ ∃ j x n, j < sh.rows ∧ x < w ∧ n < sh.chans ∧ e = (x, sh.r0 + j, n) := by
  simp only [shareCells, List.mem_flatMap, List.mem_map, List.mem_range]
  constructor
  · rintro ⟨j, hj, x, hx, n, hn, rfl⟩
    exact ⟨j, x, n, hj, hx, hn, rfl⟩
  · rintro ⟨j, x, n, hj, hx, hn, rfl⟩
    exact ⟨j, hj, x, hx, n, hn, rfl⟩

theorem State.writeShare_eq (s : State) (kind : Nat) (d : DenseDesc) (sh : Share) (p : Places) : s.writeShare kind d sh p =
    (shareCells (denseWidth kind d) sh).foldl (fun (a : State × Nat) e =>
      let q := a.1.putElem s kind d sh p (outSlice kind d sh p) e.1 e.2.1 e.2.2
      (q.1, a.2 + q.2)) (s, 0) := rfl

/-- An element of a share's output is written inside the share's region. -/
theorem State.sliceSet_inside (s : State) {e : Nat × Nat × Nat} {v b : Nat} (he : e ∈ shareCells (denseWidth kind d) sh)
    (hfit : p.out + outBytes kind d sh ≤ 2 ^ 20) (hb : b < tileAddr sh.tile p.out ∨ tileAddr sh.tile p.out + outBytes kind d sh ≤ b) :
    (s.sliceSet (outSlice kind d sh p) e.1 e.2.1 e.2.2 v).tmem.read b = s.tmem.read b := by
  obtain ⟨j, x, n, hj, hx, hn, rfl⟩ := mem_shareCells.mp he
  have hrow : sh.r0 + j - sh.r0 = j := by omega
  unfold State.sliceSet outSlice
  dsimp only
  rw [hrow]
  refine s.setElem_inside (mapIndex_lt hj hx hn (le_padTo _ (fmtPad_pos _))) (fun h1 => ?_) hfit hb
  rw [h1]
  have hpad : padTo (fmtPad 1) sh.chans = 2 * (4 * ceilDiv sh.chans 8) := by
    unfold padTo fmtPad
    rw [if_pos rfl]
    omega
  rw [hpad, Nat.mul_left_comm]
  exact Nat.mul_mod_right _ _

theorem State.writeShare_frame (s : State) (kind : Nat) (d : DenseDesc) (sh : Share) (p : Places) :
    (s.writeShare kind d sh p).1 = { s with tmem := (s.writeShare kind d sh p).1.tmem } := by
  rw [State.writeShare_eq]
  refine List.foldlRecOn _ _ (motive := fun a : State × Nat => a.1 = { s with tmem := a.1.tmem }) rfl fun a ha e _ => ?_
  have hset := a.1.setElem_frame (tl := sh.tile) (outSlice kind d sh p).base (outSlice kind d sh p).fmt
    (((e.2.1 - (outSlice kind d sh p).first) * (outSlice kind d sh p).w + e.1) * padTo (fmtPad (outSlice kind d sh p).fmt)
      (outSlice kind d sh p).chans + e.2.2) (s.denseElem kind d sh p e.1 e.2.1 e.2.2).1
  refine hset.trans ?_
  rw [ha]
  rfl

/-- A share writes only inside its region. -/
theorem State.writeShare_inside (s : State) {b : Nat} (hfit : p.out + outBytes kind d sh ≤ 2 ^ 20)
    (hb : b < tileAddr sh.tile p.out ∨ tileAddr sh.tile p.out + outBytes kind d sh ≤ b) :
    (s.writeShare kind d sh p).1.tmem.read b = s.tmem.read b := by
  rw [State.writeShare_eq]
  exact List.foldlRecOn _ _ (motive := fun a : State × Nat => a.1.tmem.read b = s.tmem.read b) rfl
    fun a ha e he => (a.1.sliceSet_inside he hfit hb).trans ha

/-- The write of an INT8 element of a share's output. -/
def State.elemWrite (s : State) (kind : Nat) (d : DenseDesc) (sh : Share) (p : Places) (e : Nat × Nat × Nat) : Nat × List Byte :=
  (tileAddr sh.tile (p.out + (((e.2.1 - sh.r0) * denseWidth kind d + e.1) * padTo 4 sh.chans + e.2.2)),
    [BitVec.ofNat 8 (s.denseElem kind d sh p e.1 e.2.1 e.2.2).1])

theorem State.writeShare_int8 (s : State) (h : denseFmt kind d = 0) : (s.writeShare kind d sh p).1.tmem =
    s.tmem.writeAll ((shareCells (denseWidth kind d) sh).map (s.elemWrite kind d sh p)) := by
  have hset : ∀ (a : State) (e : Nat × Nat × Nat), (a.putElem s kind d sh p (outSlice kind d sh p) e.1 e.2.1 e.2.2).1.tmem =
      a.tmem.writeBytes (s.elemWrite kind d sh p e).1 (s.elemWrite kind d sh p e).2 := fun a e => by
    unfold State.putElem State.sliceSet State.setElem outSlice
    rw [h]
    rfl
  have hfold : ∀ (l : List (Nat × Nat × Nat)) (a : State × Nat), (l.foldl (fun (a : State × Nat) e =>
      let q := a.1.putElem s kind d sh p (outSlice kind d sh p) e.1 e.2.1 e.2.2
      (q.1, a.2 + q.2)) a).1.tmem = a.1.tmem.writeAll (l.map (s.elemWrite kind d sh p)) := fun l => by
    induction l with
    | nil => exact fun _ => rfl
    | cons e l ih => exact fun a => (ih _).trans (congrArg (Mem.writeAll · _) (hset a.1 e))
  exact hfold _ _

/-- Every element of an INT8 share is written with its value of the inputs as they were. -/
theorem State.writeShare_elem (s : State) (h : denseFmt kind d = 0) (hfit : p.out + outBytes kind d sh ≤ 2 ^ 20) {j x n : Nat}
    (hj : j < sh.rows) (hx : x < denseWidth kind d) (hn : n < sh.chans) : (s.writeShare kind d sh p).1.tmem.read
      (tileAddr sh.tile (p.out + ((j * denseWidth kind d + x) * padTo 4 sh.chans + n))) =
        BitVec.ofNat 8 (s.denseElem kind d sh p x (sh.r0 + j) n).1 := by
  have hpad := le_padTo sh.chans (n := 4) (by decide)
  have hbytes : outBytes kind d sh = denseWidth kind d * sh.rows * padTo 4 sh.chans := by
    unfold outBytes mapBytes
    rw [h]
    rfl
  rw [hbytes] at hfit
  have haddr : ∀ j' x' n', j' < sh.rows → x' < denseWidth kind d → n' < sh.chans → (s.elemWrite kind d sh p (x', sh.r0 + j', n')).1 =
      tileAddr sh.tile p.out + ((j' * denseWidth kind d + x') * padTo 4 sh.chans + n') := fun j' x' n' hj' hx' hn' => by
    have hrow : sh.r0 + j' - sh.r0 = j' := by omega
    unfold State.elemWrite
    dsimp only
    rw [hrow]
    exact tileAddr_part (n := 1) hfit (mapIndex_lt hj' hx' hn' hpad) (by decide)
  have hread := Mem.readBytes_writeAll (e := s.elemWrite kind d sh p (x, sh.r0 + j, n))
    ((shareCells (denseWidth kind d) sh).map (s.elemWrite kind d sh p)) s.tmem
    (List.mem_map.mpr ⟨_, mem_shareCells.mpr ⟨j, x, n, hj, hx, hn, rfl⟩, rfl⟩) fun f hf => by
      obtain ⟨e, he, rfl⟩ := List.mem_map.mp hf
      obtain ⟨j', x', n', hj', hx', hn', rfl⟩ := mem_shareCells.mp he
      by_cases hsame : (j' * denseWidth kind d + x') * padTo 4 sh.chans + n' = (j * denseWidth kind d + x) * padTo 4 sh.chans + n
      · obtain ⟨rfl, rfl, rfl⟩ := mapIndex_inj hx' hx (by omega) (by omega) hsame
        exact .inl rfl
      · refine .inr ?_
        unfold apart
        rw [haddr _ _ _ hj' hx' hn', haddr _ _ _ hj hx hn]
        simp only [State.elemWrite, List.length_singleton]
        omega
  have hrow : sh.r0 + j - sh.r0 = j := by omega
  rw [s.writeShare_int8 h]
  simpa [State.elemWrite, Mem.readBytes, hrow] using hread

/-! ## Running an operation (R305, R307, R311, R384) -/

/-- Beside registers, tile memory and the counter of free values nothing has changed; registers only those of the list, and
bytes only those of a set. -/
structure State.denseRan (s t : State) (ks : List Nat) (W : Nat → Prop) : Prop where
  frame : t = { s with regs := t.regs, tmem := t.tmem, freeCtr := t.freeCtr }
  regs : s.regsBut t ks
  bytes : ∀ a, ¬W a → t.tmem.read a = s.tmem.read a

theorem State.denseRan_refl (s : State) (ks : List Nat) (W : Nat → Prop) : s.denseRan s ks W := ⟨rfl, s.regsBut_refl _, fun _ _ => rfl⟩

theorem State.denseRan.trans {ks : List Nat} {W : Nat → Prop} (h : s.denseRan t ks W) (h' : t.denseRan u ks W) : s.denseRan u ks W where
  frame := by rw [h'.frame, h.frame]
  regs := h.regs.trans h'.regs
  bytes a ha := (h'.bytes a ha).trans (h.bytes a ha)

/-- The bytes of a share's output region. -/
def inOutput (kind : Nat) (d : DenseDesc) (e : Share × Places) (a : Nat) : Prop :=
  tileAddr e.1.tile e.2.out ≤ a ∧ a < tileAddr e.1.tile e.2.out + outBytes kind d e.1

theorem State.runShare_ran (s : State) {W : Nat → Prop} (htile : sh.tile < 64) (hfit : p.out + outBytes kind d sh ≤ 2 ^ 20)
    (hW : ∀ a, inOutput kind d (sh, p) a → W a) : s.denseRan (s.runShare kind d sh p) (keysOf R.deTCntCount) W := by
  have hwrite := s.writeShare_frame kind d sh p
  have hinside := fun a => s.writeShare_inside (kind := kind) (d := d) (sh := sh) (p := p) (b := a) hfit
  unfold State.runShare
  dsimp only
  generalize s.writeShare kind d sh p = r at hwrite hinside
  obtain ⟨u, n⟩ := r
  obtain ⟨hframe, hregs⟩ := u.countOp_spec htile (denseCost kind d sh) n
  dsimp only at hwrite hinside ⊢
  refine ⟨?_, ?_, fun a ha => ?_⟩
  · rw [hframe, hwrite]
  · exact (State.regsBut.of_regs (s.regsBut_refl _) (by rw [hwrite])).trans hregs
  · have htmem : (u.countOp sh.tile (denseCost kind d sh) n).tmem = u.tmem := by rw [hframe]
    rw [htmem]
    refine hinside a ?_
    by_contra hno
    exact ha (hW a (by unfold inOutput; dsimp only; omega))

/-- A list of shares runs inside its regions. -/
theorem State.runShares_ran (s : State) {l : List (Share × Places)} (htile : ∀ e ∈ l, e.1.tile < 64)
    (hfit : ∀ e ∈ l, e.2.out + outBytes kind d e.1 ≤ 2 ^ 20) :
    s.denseRan (l.foldl (fun s e => s.runShare kind d e.1 e.2) s) (keysOf R.deTCntCount) (fun a => ∃ e ∈ l, inOutput kind d e a) :=
  List.foldlRecOn _ _ (motive := fun t => s.denseRan t (keysOf R.deTCntCount) (fun a => ∃ e ∈ l, inOutput kind d e a))
    (s.denseRan_refl _ _) fun t ht e he => ht.trans (t.runShare_ran (htile e he) (hfit e he) fun _ ha => ⟨e, he, ha⟩)

theorem State.streamed_frame (s : State) (t n : Nat) : s.streamed t n = { s with pp := (s.streamed t n).pp } := by
  unfold State.streamed
  split <;> rfl

/-- The decisions of a contest: counters, the plan's blocks and the render side (R307, R384). -/
theorem State.contest_spec (s : State) {tl : Nat} (htl : tl < 64) :
    s.contest tl = { s with regs := (s.contest tl).regs, pp := (s.contest tl).pp, rd := (s.contest tl).rd } ∧
    s.regsBut (s.contest tl) (keysOf R.deTCntCount ++ keysOf R.rdCntCount) := by
  have hself := s.regsBut_refl (keysOf R.deTCntCount ++ keysOf R.rdCntCount)
  unfold State.contest
  split
  · exact ⟨rfl, hself⟩
  · dsimp only
    split
    · exact ⟨rfl, hself⟩
    · rw [State.streamed_frame]
      exact ⟨rfl, (State.regsBut.setReg (hself.of_regs rfl) (List.mem_append_left _ (denseCount_mem htl (by decide)))).setReg
        (List.mem_append_right _ (renderCount_mem (by decide)))⟩

theorem State.contests_spec (s : State) {tiles : List Nat} (htiles : ∀ x ∈ tiles, x < 64) : ∃ t, tiles.foldl State.contest s = t ∧
    t = { s with regs := t.regs, pp := t.pp, rd := t.rd } ∧ s.regsBut t (keysOf R.deTCntCount ++ keysOf R.rdCntCount) := by
  refine ⟨_, rfl, List.foldlRecOn _ _ (motive := fun t => t = { s with regs := t.regs, pp := t.pp, rd := t.rd } ∧
    s.regsBut t (keysOf R.deTCntCount ++ keysOf R.rdCntCount)) ⟨rfl, s.regsBut_refl _⟩ fun t ⟨hframe, hregs⟩ x hx => ?_⟩
  obtain ⟨hcframe, hcregs⟩ := t.contest_spec (htiles x hx)
  exact ⟨by rw [hcframe, hframe], hregs.trans hcregs⟩

/-- Without a screen tile in hand nothing is contended. -/
theorem State.contest_of_idle (h : ∀ x ∈ s.rd.sides, x.screen = none) (tl : Nat) : s.contest tl = s := by
  unfold State.contest
  split
  · rfl
  · next x hx => exact if_pos (by simp [h x (List.mem_of_find?_eq_some hx)])

theorem State.contests_of_idle (h : ∀ x ∈ s.rd.sides, x.screen = none) (tiles : List Nat) : tiles.foldl State.contest s = s :=
  foldlKeeps (P := (· = s)) (fun t x ht => by rw [ht]; exact State.contest_of_idle h x) tiles rfl

theorem State.denseElem_congr (h : t.tmem = s.tmem) (kind : Nat) (d : DenseDesc) (sh : Share) (p : Places) (x y n : Nat) :
    t.denseElem kind d sh p x y n = s.denseElem kind d sh p x y n := by
  have hnat : ∀ tl a n, t.tileNat tl a n = s.tileNat tl a n := fun tl a n => congrArg (fun m : Mem => m.readNat (tileAddr tl a) n) h
  have hread : ∀ tl a n, t.tileRead tl a n = s.tileRead tl a n := fun tl a n => congrArg (fun m : Mem => m.readBytes (tileAddr tl a) n) h
  have helem : ∀ tl a fmt e, t.elem tl a fmt e = s.elem tl a fmt e := fun tl a fmt e => by simp only [State.elem, hnat]
  have hget : ∀ m x y c, t.sliceGet m x y c = s.sliceGet m x y c := fun m x y c => helem _ _ _ _
  have htap : ∀ d m x y dx dy c, t.tapGet d m x y dx dy c = s.tapGet d m x y dx dy c := fun d m x y dx dy c => by
    simp only [State.tapGet, hget]
  have hweight : ∀ d tile w taps i c n, t.weight d tile w taps i c n = s.weight d tile w taps i c n :=
    fun d tile w taps i c n => helem _ _ _ _
  have hgroup : ∀ d tile w taps i j c n, t.groupWeightAt d tile w taps i j c n = s.groupWeightAt d tile w taps i j c n :=
    fun d tile w taps i j c n => by simp only [State.groupWeightAt, hnat, hread]
  have hentry : ∀ sh p n, t.entry sh p n = s.entry sh p n := fun sh p n => hnat _ _ _
  simp only [State.denseElem, hget, htap, hweight, hgroup, hentry]

/-! ## The array and window operations (R288 to R295) -/

theorem State.denseOp_eq_some {tiles : List Nat} (h : s.denseOp k kind = some (o, d, tiles)) :
    s.opAt k 1 = some o ∧ tiles = s.opTiles o (o.opnd 29 24) := by
  unfold State.denseOp at h
  cases hop : s.opAt k 1 with
  | none => rw [hop] at h; exact absurd h (by simp)
  | some x =>
    rw [hop] at h
    dsimp only at h
    split at h
    · obtain ⟨rfl, hrest⟩ := Prod.mk.inj (Option.some.inj h)
      exact ⟨rfl, (Prod.mk.inj hrest).2.symm⟩
    · exact absurd h (by simp)

theorem State.denseOp_tiles {tiles : List Nat} (h : s.denseOp k kind = some (o, d, tiles)) : ∀ x ∈ tiles, x < 64 :=
  fun _ hx => State.lt_of_mem_opTiles (s := s) (o := o) (g := o.opnd 29 24) ((State.denseOp_eq_some h).2 ▸ hx)

/-- A share lies on a tile of its operation. -/
theorem tile_of_mem_shares {tiles : List Nat} (h : sh ∈ shares kind d tiles) : sh.tile ∈ tiles := by
  obtain ⟨⟨_, i⟩, hx, rfl⟩ := List.mem_map.mp h
  have htile : ∀ window chans n x, (shareOf d window chans n i x).tile = x := fun window chans n x => by
    unfold shareOf
    dsimp only
    split <;> rfl
  rw [htile]
  exact (List.mem_zipIdx' hx).2 ▸ List.getElem_mem _

theorem tile_of_shares_one (h : shares kind d [tl] = [sh]) : sh.tile = tl := by
  have hmem : sh ∈ shares kind d [tl] := by rw [h]; exact List.mem_singleton_self sh
  exact List.mem_singleton.mp (tile_of_mem_shares hmem)

/-- The shares of an operation have run. -/
def State.sharesRun (s : State) (kind : Nat) (d : DenseDesc) (tiles : List Nat) (ps : List Places) : State :=
  ((shares kind d tiles).zip ps).foldl (fun s e => s.runShare kind d e.1 e.2) (tiles.foldl State.contest s)

theorem State.runDense_none (h : s.denseOp k kind = none) (pt : Option Nat) : s.runDense k kind pt = s := by
  unfold State.runDense
  rw [h]

theorem State.runDense_unfit {tiles : List Nat} (h : s.denseOp k kind = some (o, d, tiles))
    (hfit : allOf ((shares kind d tiles).map (s.placesOf kind d)) = none) (pt : Option Nat) : s.runDense k kind pt = s.boundsFail k := by
  unfold State.runDense
  rw [h]
  dsimp only
  rw [hfit]

theorem State.runDense_runs {tiles : List Nat} {ps : List Places} (h : s.denseOp k kind = some (o, d, tiles))
    (hfit : allOf ((shares kind d tiles).map (s.placesOf kind d)) = some ps) :
    s.runDense k kind none = (s.sharesRun kind d tiles ps).finishOp k := by
  unfold State.runDense
  rw [h]
  dsimp only
  rw [hfit]
  rfl

theorem State.runDense_ends {tiles : List Nat} (h : s.denseOp k kind = some (o, d, tiles)) (pt : Option Nat) :
    (s.runDense k kind pt).opAt k 1 = none := by
  unfold State.runDense
  rw [h]
  dsimp only
  split
  · exact State.opAt_boundsFail _ _ _
  · exact State.opAt_finishOp _ _ _

/-- A parity failure on the one tile of an operation undefines its output (R309). -/
theorem State.runDense_parity (h : s.denseOp k kind = some (o, d, [tl])) (hsh : shares kind d [tl] = [sh])
    (hp : s.placesOf kind d sh = some p) : s.runDense k kind (some tl) = ((((s.sharesRun kind d [tl] [p]).tileUndef tl p.out
      (outBytes kind d sh)).denseParity tl o.item).finishOp k) := by
  have htile : sh.tile = tl := tile_of_shares_one hsh
  have hfit : allOf ((shares kind d [tl]).map (s.placesOf kind d)) = some [p] := by rw [hsh]; simp [allOf, hp]
  have hfind : (([sh].zip [p]).find? fun e => some e.1.tile == some tl) = some (sh, p) := by simp [htile]
  unfold State.runDense
  rw [h]
  dsimp only
  rw [hfit]
  dsimp only
  rw [hsh, hfind]
  unfold State.sharesRun
  rw [hsh]
  rfl

theorem State.sharesRun_spec {tiles : List Nat} {ps : List Places} (h : s.denseOp k kind = some (o, d, tiles))
    (hfit : ∀ e ∈ (shares kind d tiles).zip ps, e.2.out + outBytes kind d e.1 ≤ 2 ^ 20) :
    ∃ t, s.sharesRun kind d tiles ps = t ∧
      t = { s with regs := t.regs, tmem := t.tmem, pp := t.pp, rd := t.rd, freeCtr := t.freeCtr } ∧
      s.regsBut t (keysOf R.deTCntCount ++ keysOf R.rdCntCount) ∧
      ((∀ x ∈ s.rd.sides, x.screen = none) → t.rd = s.rd ∧ s.regsBut t (keysOf R.deTCntCount)) ∧
      (∀ a, (∀ e ∈ (shares kind d tiles).zip ps, ¬inOutput kind d e a) → t.tmem.read a = s.tmem.read a) ∧
      (∀ (sh : Share) (p : Places), shares kind d tiles = [sh] → ps = [p] → denseFmt kind d = 0 →
        ∀ j x n, j < sh.rows → x < denseWidth kind d → n < sh.chans → t.tmem.read
          (tileAddr sh.tile (p.out + ((j * denseWidth kind d + x) * padTo 4 sh.chans + n))) =
            BitVec.ofNat 8 (s.denseElem kind d sh p x (sh.r0 + j) n).1) := by
  have htiles := State.denseOp_tiles h
  have hshares : ∀ e ∈ (shares kind d tiles).zip ps, e.1.tile < 64 := fun e he => htiles _ (tile_of_mem_shares (List.of_mem_zip he).1)
  obtain ⟨u, hu, huframe, huregs⟩ := s.contests_spec htiles
  have hidle : (∀ x ∈ s.rd.sides, x.screen = none) → u = s := fun hs => hu.symm.trans (State.contests_of_idle hs tiles)
  have hran := u.runShares_ran (kind := kind) (d := d) hshares hfit
  refine ⟨_, rfl, ?_⟩
  unfold State.sharesRun
  rw [hu]
  have helem : ∀ (sh : Share) (p : Places), shares kind d tiles = [sh] → ps = [p] → denseFmt kind d = 0 →
      ∀ j x n, j < sh.rows → x < denseWidth kind d → n < sh.chans →
      (((shares kind d tiles).zip ps).foldl (fun s e => s.runShare kind d e.1 e.2) u).tmem.read
        (tileAddr sh.tile (p.out + ((j * denseWidth kind d + x) * padTo 4 sh.chans + n))) =
          BitVec.ofNat 8 (s.denseElem kind d sh p x (sh.r0 + j) n).1 := by
    intro sh p hsh hps hfmt j x n hj hx hn
    have hin : (sh, p) ∈ (shares kind d tiles).zip ps := by rw [hsh, hps]; exact List.mem_singleton_self _
    rw [hsh, hps, ← State.denseElem_congr (t := u) (s := s) (by rw [huframe])]
    exact u.writeShare_elem hfmt (hfit _ hin) hj hx hn
  generalize ((shares kind d tiles).zip ps).foldl (fun s e => s.runShare kind d e.1 e.2) u = t at hran helem ⊢
  have hkeys : ∀ x ∈ keysOf R.deTCntCount, x ∈ keysOf R.deTCntCount ++ keysOf R.rdCntCount := fun x hx => List.mem_append_left _ hx
  refine ⟨by rw [hran.frame, huframe], huregs.trans (hran.regs.mono hkeys), fun hs => ?_, fun a ha => ?_, helem⟩
  · have hus := hidle hs
    subst hus
    exact ⟨by rw [hran.frame], hran.regs⟩
  · have hutmem : u.tmem = s.tmem := by rw [huframe]
    refine (hran.bytes a ?_).trans (by rw [hutmem])
    rintro ⟨e, he, hin⟩
    exact ha e he hin

end

/-- Settles O39: the five operations are one run of shares, and a share writes its elements inside its region. -/
theorem denseOperations : Obligations.DenseOperations := by
  unfold Obligations.DenseOperations
  intro k kind f s hf
  have hexec : ∀ pt, exec (f k pt) s = .next (s.runDense k kind pt) := fun pt => by
    simp only [List.mem_cons, Prod.mk.injEq, List.not_mem_nil, or_false] at hf
    rcases hf with ⟨rfl, rfl⟩ | ⟨rfl, rfl⟩ | ⟨rfl, rfl⟩ | ⟨rfl, rfl⟩ | ⟨rfl, rfl⟩ <;> rfl
  refine ⟨fun pt hop => ?_, fun o d tiles pt hop => ⟨_, hexec pt, State.runDense_ends hop pt⟩, fun o d tiles pt hop hfit => ?_,
    fun o d tiles ps wOut fmt hop hfit hw hfmt hregions => ?_, fun o d tl sh p wOut fmt hop hsh hp hw hfmt => ?_⟩
  · rw [hexec, State.runDense_none hop]
  · rw [hexec, State.runDense_unfit hop hfit]
  · obtain rfl : wOut = denseWidth kind d := hw
    obtain rfl : fmt = denseFmt kind d := hfmt
    obtain ⟨t, ht, hframe, hregs, hidle, hbytes, helem⟩ := State.sharesRun_spec hop hregions
    refine ⟨_, hexec none, State.runDense_ends hop none, ?_⟩
    rw [State.runDense_runs hop hfit, ht]
    refine ⟨by rw [hframe]; rfl, hregs.of_regs rfl, fun hs => ⟨(hidle hs).1, (hidle hs).2.of_regs rfl⟩, fun a ha => hbytes a fun e he hin => ?_,
      fun tl sh p htl hsh hps hzero => ?_⟩
    · have := ha e he
      unfold inOutput outBytes at hin
      omega
    · have htile : sh.tile = tl := tile_of_shares_one (htl ▸ hsh)
      exact htile ▸ helem sh p hsh hps hzero
  · obtain rfl : wOut = denseWidth kind d := hw
    obtain rfl : fmt = denseFmt kind d := hfmt
    have hfit : allOf ((shares kind d [tl]).map (s.placesOf kind d)) = some [p] := by rw [hsh]; simp [allOf, hp]
    refine ⟨s.sharesRun kind d [tl] [p], ?_, ?_⟩
    · rw [hexec, State.runDense_runs hop hfit]
    · rw [hexec, State.runDense_parity hop hsh hp]
      rfl

end Sys2Proof.Machine
end

section
/-! GEMM_BATCH and the time surfaces (R296 to R299, R308, R310). -/
namespace Sys2Proof.Machine

section
variable {s t u : State} {k tl : Nat} {o : SlotOp} {d : DenseDesc}

/-! ## GEMM_BATCH (R296, R308) -/

theorem exec_gemmBatch_ends {tiles : List Nat} (h : s.denseOp k 6 = some (o, d, tiles)) (pt : Option Nat) :
    ∃ t, exec (.gemmBatch k pt) s = .next t ∧ t.opAt k 1 = none := by
  refine ⟨_, rfl, ?_⟩
  rw [h]
  dsimp only
  split
  · exact State.opAt_boundsFail _ _ _
  · split
    · exact State.opAt_boundsFail _ _ _
    · exact State.opAt_finishOp _ _ _

/-- On one tile COUNT, clamped, of the problems of its list run in order, where all their regions fit. -/
theorem exec_gemmBatch_one {count list : Nat} {v : State} {ps : List Places} (h : s.denseOp k 6 = some (o, d, [tl]))
    (hcount : s.clampCount o d = (count, v)) (hlist : v.placeIn tl d.in2Part d.in2Off (16 * count) [5, 8] = some list)
    {jobs : List ((Nat × Nat × Nat × Nat) × DenseDesc × Share)}
    (hjobs : jobs = (v.batchList tl list count).map fun e => (e, batchDesc d e, batchShare (batchDesc d e) 1 0 tl))
    (hfit : allOf (jobs.map fun j => v.placesOf 0 j.2.1 j.2.2) = some ps) : exec (.gemmBatch k none) s =
      .next (((v.contest tl).runBatch tl o.item ((jobs.zip ps).filter fun j => decide (j.1.2.2.tile = tl))).finishOp k) := by
  subst hjobs
  show execGemmBatch k none s = _
  unfold execGemmBatch
  rw [h]
  dsimp only
  rw [hcount]
  simp only [List.map_cons, List.map_nil, hlist, allOf, Option.map_some, List.zip_cons_cons, List.zip_nil_right, List.zipIdx_cons,
    List.zipIdx_nil, List.flatMap_cons, List.flatMap_nil, List.append_nil, List.length_singleton, hfit, List.foldl_cons, List.foldl_nil]

theorem State.clampCount_of_le (h : o.count ≤ d.maxCount) : s.clampCount o d = (o.count, s) := if_neg (Nat.not_lt.mpr h)

theorem State.placeIn_zero (s : State) (t part off : Nat) (kinds : List Nat) : s.placeIn t part off 0 kinds = some 0 := if_pos rfl

/-- A batch without a problem only counts. -/
theorem exec_gemmBatch_empty {v : State} (h : s.denseOp k 6 = some (o, d, [tl])) (hcount : s.clampCount o d = (0, v)) :
    exec (.gemmBatch k none) s = .next (((v.contest tl).countOp tl 32 0).finishOp k) :=
  exec_gemmBatch_one (ps := []) h hcount (v.placeIn_zero _ _ _ _) rfl rfl

theorem tile_batchShare (d : DenseDesc) (n i t : Nat) : (batchShare d n i t).tile = t := by
  unfold batchShare shareOf
  dsimp only
  rfl

/-- A batch of one problem runs it as a GEMM of its own. -/
theorem exec_gemmBatch_single {list : Nat} {b : DenseDesc} {e : Nat × Nat × Nat × Nat} {p : Places}
    (h : s.denseOp k 6 = some (o, d, [tl])) (hcount : o.count = 1) (hmax : 1 ≤ d.maxCount)
    (hlist : s.placeIn tl d.in2Part d.in2Off 16 [5, 8] = some list) (he : e = batchEntry (s.tileNat tl list 16)) (hrows : e.1 ≤ 32)
    (hb : b = batchDesc d e) (hp : s.placesOf 0 b (batchShare b 1 0 tl) = some p) :
    ∃ (u : State) (n : Nat), (u, n) = (s.contest tl).writeShare 0 b (batchShare b 1 0 tl) p ∧ exec (.gemmBatch k none) s =
      .next ((u.countOp tl (32 + (denseCost 0 b (batchShare b 1 0 tl) - 32)) n).finishOp k) := by
  have hclamp : s.clampCount o d = (1, s) := hcount ▸ State.clampCount_of_le (hcount ▸ hmax)
  have hone : s.batchList tl list 1 = [e] := by rw [he]; rfl
  generalize hr : (s.contest tl).writeShare 0 b (batchShare b 1 0 tl) p = r
  refine ⟨r.1, r.2, rfl, ?_⟩
  rw [exec_gemmBatch_one (ps := [p]) (jobs := [(e, b, batchShare b 1 0 tl)]) h hclamp hlist (by rw [hone, hb]; rfl)
    (by simp [allOf, hp])]
  have hwork : (([(e, b, batchShare b 1 0 tl)].zip [p]).filter fun j => decide (j.1.2.2.tile = tl)) =
      [((e, b, batchShare b 1 0 tl), p)] := by simp [tile_batchShare]
  have hclamp' : ∀ u : State, u.batchClamp tl o.item e = u := fun u => if_pos hrows
  rw [hwork]
  unfold State.runBatch
  simp only [List.foldl_cons, List.foldl_nil, hclamp', List.map_cons, List.map_nil, List.sum_singleton, Nat.zero_add, hr]

theorem Mem.readNat_writeNat_self (m : Mem) (a n v : Nat) : (m.writeNat a n v).readNat a n = v % 256 ^ n := by
  rw [Mem.readNat, (m.writeNat_spec a n v).1, leNat_leBytes]

/-! ## Time surfaces (R297 to R299) -/

theorem exec_surfaceAccumulate_ends {tiles : List Nat} (h : s.denseOp k 5 = some (o, d, tiles)) (hsub : d.sub = 0) (pt : Option Nat) :
    ∃ t, exec (.surfaceAccumulate k pt) s = .next t ∧ t.opAt k 1 = none := by
  refine ⟨_, rfl, ?_⟩
  rw [h]
  dsimp only
  rw [if_neg (by simp [hsub])]
  split
  · exact State.opAt_boundsFail _ _ _
  · exact State.opAt_finishOp _ _ _

theorem State.runReadout_ends {tiles : List Nat} (h : s.denseOp k 5 = some (o, d, tiles)) (pt : Option Nat) :
    (s.runReadout k d.sub pt).opAt k 1 = none := by
  unfold State.runReadout
  rw [h]
  dsimp only
  rw [if_neg (by simp)]
  split
  · exact State.opAt_boundsFail _ _ _
  · exact State.opAt_finishOp _ _ _

theorem State.runReadout_none (h : s.denseOp k 5 = none) (sub : Nat) (pt : Option Nat) : s.runReadout k sub pt = s := by
  unfold State.runReadout
  rw [h]

theorem exec_surfaceAccumulate_none (h : s.denseOp k 5 = none) (pt : Option Nat) : exec (.surfaceAccumulate k pt) s = .next s := by
  show execSurfaceAccumulate k pt s = _
  unfold execSurfaceAccumulate
  rw [h]

/-- One cell of a list enters the surface of the one tile of an operation. -/
theorem exec_surfaceAccumulate_cell {a b : Nat} (h : s.denseOp k 5 = some (o, d, [tl])) (hsub : d.sub = 0) (hcount : o.count = 1)
    (hmax : 1 ≤ d.maxCount) (ha : s.placeIn tl d.inPart d.inOff (8 * d.maxCount + tagBytes d.maxCount) [5, 8] = some a)
    (hb : s.placeIn tl d.outPart d.outOff (surfaceBytes d) [5, 8] = some b) :
    exec (.surfaceAccumulate k none) s = .next (((s.surfaceCell d tl b (s.tileNat tl a 8)
      (bits (s.tileNat tl (a + 8 * d.maxCount) 1) 1 0)).countOp tl 34 0).finishOp k) := by
  have hclamp : s.clampCount o d = (1, s) := hcount ▸ State.clampCount_of_le (hcount ▸ hmax)
  show execSurfaceAccumulate k none s = _
  unfold execSurfaceAccumulate
  rw [h]
  dsimp only
  rw [if_neg (by simp [hsub]), hclamp]
  simp only [List.map_cons, List.map_nil, ha, hb, allOf, Option.map_some, List.foldl_cons, List.foldl_nil, State.surfaceCells]
  rfl

/-- An event inside the surface of its tile lands in its bin (R297). -/
theorem State.surfaceCell_event {b cell x y : Nat} (hty : bits cell 11 8 ≤ 1) (hvalid : s.flag R.deTEpochValid tl (bits cell 39 38) = true)
    (hx0 : d.x0 ≤ bits cell 23 12) (hy0 : d.y0 ≤ bits cell 35 24) (hx : x = (bits cell 23 12 - d.x0) / 2 ^ d.bs)
    (hy : y = (bits cell 35 24 - d.y0) / 2 ^ d.bs) (hxw : x < d.w) (hyh : y < d.h) : s.surfaceCell d tl b cell 0 =
      s.surfaceHit d tl b x y (bits cell 37 37) ((s.reg R.deTEpochEpoch tl (bits cell 39 38) * 2 ^ 24 + bits cell 63 40) % 2 ^ 32) := by
  subst hx hy
  have h3 : bits cell 11 8 ≠ 3 := by omega
  have h4 : bits cell 11 8 ≠ 4 := by omega
  unfold State.surfaceCell
  dsimp only
  rw [if_neg (by decide), if_neg (by decide), if_neg h3, if_neg h4, if_pos hty,
    if_neg (by simp [hvalid, Nat.not_lt.mpr hx0, Nat.not_lt.mpr hy0, Nat.not_le.mpr hxw, Nat.not_le.mpr hyh])]

/-! ## Entries of a surface (R297) -/

/-- The entry of a bin and polarity lies in the surface. -/
theorem surfaceEntry_in {a x y c : Nat} (hx : x < d.w) (hy : y < d.h) (hc : c < 2) :
    a + 16 ≤ surfaceEntry d a x y c ∧ surfaceEntry d a x y c + 8 ≤ a + surfaceBytes d := by
  have hbin := mapIndex_lt (P := 2) hy hx hc (Nat.le_refl 2)
  have hsize : 16 * d.w * d.h = 8 * (d.w * d.h * 2) := by ring
  unfold surfaceEntry surfaceBytes
  omega

theorem surfaceEntry_apart {a x y c x' y' c' : Nat} (hx : x < d.w) (hx' : x' < d.w) (hc : c < 2) (hc' : c' < 2) :
    (x = x' ∧ y = y' ∧ c = c') ∨ surfaceEntry d a x y c + 8 ≤ surfaceEntry d a x' y' c' ∨
      surfaceEntry d a x' y' c' + 8 ≤ surfaceEntry d a x y c := by
  by_cases h : (y * d.w + x) * 2 + c = (y' * d.w + x') * 2 + c'
  · obtain ⟨rfl, rfl, rfl⟩ := mapIndex_inj hx hx' hc hc' h
    exact .inl ⟨rfl, rfl, rfl⟩
  · refine .inr ?_
    unfold surfaceEntry
    omega

/-- Two bytes of a range of a tile's memory lie as far apart as their offsets. -/
theorem tileAddr_in {a size e n : Nat} (hfit : a + size ≤ 2 ^ 20) (hlo : a ≤ e) (hhi : e + n ≤ a + size) (hn : 0 < n) :
    tileAddr tl e = tileAddr tl a + (e - a) := by
  obtain ⟨off, rfl⟩ := Nat.exists_eq_add_of_le hlo
  rw [tileAddr_part (n := n) hfit (by omega) hn]
  omega

/-- What an event changes of its surface: LAST and COUNT of the bin, and the newest time (R297). -/
theorem State.surfaceHit_spec {b x y p time e : Nat} (hfit : b + surfaceBytes d ≤ 2 ^ 20) (hx : x < d.w) (hy : y < d.h) (hp : p < 2)
    (he : e = surfaceEntry d b x y p) (htime : time < 2 ^ 32) : ∃ t, s.surfaceHit d tl b x y p time = t ∧
      t.tileNat tl e 4 = max (s.tileNat tl e 4) time ∧
      t.tileNat tl (e + 4) 2 = min 65535 (s.tileNat tl (e + 4) 2 + 1) ∧ t.tileNat tl b 4 = max (s.tileNat tl b 4) time ∧
      (∀ n, n < tileAddr tl b ∨ (tileAddr tl b + 4 ≤ n ∧ n < tileAddr tl e) ∨ tileAddr tl e + 6 ≤ n →
        t.tmem.read n = s.tmem.read n) ∧ t = { s with tmem := t.tmem } := by
  obtain ⟨hlo, hhi⟩ := surfaceEntry_in (a := b) hx hy hp
  rw [← he] at hlo hhi
  have hE : tileAddr tl e = tileAddr tl b + (e - b) := tileAddr_in (n := 8) hfit (by omega) hhi (by decide)
  have hC : tileAddr tl (e + 4) = tileAddr tl b + (e - b) + 4 := by
    rw [tileAddr_in (n := 4) hfit (by omega) (by omega) (by decide)]
    omega
  generalize hv1 : max (s.tileNat tl e 4) time = v1
  generalize hv3 : max (s.tileNat tl b 4) time = v3
  generalize hv2 : min 65535 (s.tileNat tl (e + 4) 2 + 1) = v2
  have hlt : ∀ a, s.tileNat tl a 4 < 2 ^ 32 := fun a => Mem.readNat_lt _ _ 4
  have h1 : v1 < 2 ^ 32 := hv1 ▸ max_lt (hlt e) htime
  have h3 : v3 < 2 ^ 32 := hv3 ▸ max_lt (hlt b) htime
  have h2 : v2 < 2 ^ 16 := by omega
  have hread2 : (s.tileWriteNat tl e 4 v1).tileNat tl (e + 4) 2 = s.tileNat tl (e + 4) 2 :=
    Mem.readNat_writeBytes_out _ (by rw [leBytes_length]; omega)
  have hread3 : ((s.tileWriteNat tl e 4 v1).tileWriteNat tl (e + 4) 2 v2).tileNat tl b 4 = s.tileNat tl b 4 :=
    (Mem.readNat_writeBytes_out _ (by rw [leBytes_length]; omega)).trans (Mem.readNat_writeBytes_out _ (by rw [leBytes_length]; omega))
  have hsat : satTo 65535 (s.tileNat tl (e + 4) 2 + 1) = v2 := by
    unfold satTo
    omega
  have hhit : s.surfaceHit d tl b x y p time =
      ((s.tileWriteNat tl e 4 v1).tileWriteNat tl (e + 4) 2 v2).tileWriteNat tl b 4 v3 := by
    unfold State.surfaceHit
    dsimp only
    rw [← he, hv1, hread2, hsat, hread3, hv3]
  refine ⟨_, hhit, ?_, ?_, ?_, fun n hn => ?_, rfl⟩
  · refine (Mem.readNat_writeBytes_out _ (by rw [leBytes_length]; omega)).trans ?_
    refine (Mem.readNat_writeBytes_out _ (by rw [leBytes_length]; omega)).trans ?_
    exact (Mem.readNat_writeNat_self _ _ _ _).trans (Nat.mod_eq_of_lt h1)
  · refine (Mem.readNat_writeBytes_out _ (by rw [leBytes_length]; omega)).trans ?_
    exact (Mem.readNat_writeNat_self _ _ _ _).trans (Nat.mod_eq_of_lt h2)
  · exact (Mem.readNat_writeNat_self _ _ _ _).trans (Nat.mod_eq_of_lt h3)
  · refine (Mem.read_writeBytes_out _ _ _ _ (by rw [leBytes_length]; omega)).trans ?_
    refine (Mem.read_writeBytes_out _ _ _ _ (by rw [leBytes_length]; omega)).trans ?_
    exact Mem.read_writeBytes_out _ _ _ _ (by rw [leBytes_length]; omega)

theorem exec_surfaceAccumulate_event {a b x y e time cell : Nat} (h : s.denseOp k 5 = some (o, d, [tl])) (hsub : d.sub = 0)
    (hcount : o.count = 1) (hmax : 1 ≤ d.maxCount) (htl : tl < 64)
    (ha : s.placeIn tl d.inPart d.inOff (8 * d.maxCount + tagBytes d.maxCount) [5, 8] = some a)
    (hb : s.placeIn tl d.outPart d.outOff (surfaceBytes d) [5, 8] = some b) (hfit : b + surfaceBytes d ≤ 2 ^ 20)
    (hcell : cell = s.tileNat tl a 8) (htag : s.tileNat tl (a + 8 * d.maxCount) 1 % 4 = 0) (hty : bits cell 11 8 ≤ 1)
    (hvalid : s.flag R.deTEpochValid tl (bits cell 39 38) = true) (hx0 : d.x0 ≤ bits cell 23 12) (hy0 : d.y0 ≤ bits cell 35 24)
    (hx : x = (bits cell 23 12 - d.x0) / 2 ^ d.bs) (hy : y = (bits cell 35 24 - d.y0) / 2 ^ d.bs) (hxw : x < d.w) (hyh : y < d.h)
    (he : e = surfaceEntry d b x y (bits cell 37 37))
    (htime : time = (s.reg R.deTEpochEpoch tl (bits cell 39 38) * 2 ^ 24 + bits cell 63 40) % 2 ^ 32) :
    ∃ t, exec (.surfaceAccumulate k none) s = .next t ∧ t.tileNat tl e 4 = max (s.tileNat tl e 4) time ∧
      t.tileNat tl (e + 4) 2 = min 65535 (s.tileNat tl (e + 4) 2 + 1) ∧ t.tileNat tl b 4 = max (s.tileNat tl b 4) time ∧
      (∀ n, n < tileAddr tl b ∨ (tileAddr tl b + 4 ≤ n ∧ n < tileAddr tl e) ∨ tileAddr tl e + 6 ≤ n →
        t.tmem.read n = s.tmem.read n) ∧ t.opAt k 1 = none ∧
      t = { s with regs := t.regs, tmem := t.tmem, pp := t.pp, freeCtr := t.freeCtr } ∧ s.regsBut t (keysOf R.deTCntCount) := by
  have htag' : bits (s.tileNat tl (a + 8 * d.maxCount) 1) 1 0 = 0 := by
    simpa [bits] using htag
  have hpol : bits cell 37 37 < 2 := Nat.mod_lt _ (by decide)
  have hlt : time < 2 ^ 32 := htime ▸ Nat.mod_lt _ (by decide)
  obtain ⟨u, hu, hlast, hcnt, hnew, hbytes, hframe⟩ := State.surfaceHit_spec (s := s) (tl := tl) hfit hxw hyh hpol he hlt
  obtain ⟨hcframe, hcregs⟩ := u.countOp_spec htl 34 0
  refine ⟨_, exec_surfaceAccumulate_cell h hsub hcount hmax ha hb, ?_⟩
  rw [htag', ← hcell, State.surfaceCell_event hty hvalid hx0 hy0 hx hy hxw hyh, ← htime, hu]
  have htmem : ((u.countOp tl 34 0).finishOp k).tmem = u.tmem := congrArg (·.tmem) hcframe
  refine ⟨(congrArg (fun m : Mem => m.readNat (tileAddr tl e) 4) htmem).trans hlast,
    (congrArg (fun m : Mem => m.readNat (tileAddr tl (e + 4)) 2) htmem).trans hcnt,
    (congrArg (fun m : Mem => m.readNat (tileAddr tl b) 4) htmem).trans hnew,
    fun n hn => (congrArg (Mem.read · n) htmem).trans (hbytes n hn), State.opAt_finishOp _ _ _, ?_, ?_⟩
  · rw [hcframe, hframe]; rfl
  · exact (((s.regsBut_refl _).of_regs (by rw [hframe])).trans hcregs).of_regs rfl

/-! ## Readouts (R298) -/

/-- A fold whose steps each write a list of places writes all of them. -/
theorem State.foldl_writes {α : Type} {f : State → α → State} {g : α → List (Nat × List Byte)} : ∀ (l : List α) (s : State),
    (∀ a ∈ l, ∀ u : State, f u a = u.modTmem (·.writeAll (g a))) → l.foldl f s = s.modTmem (·.writeAll (l.flatMap g))
  | [], _, _ => rfl
  | a :: l, s, h => by
    rw [List.foldl_cons, h a List.mem_cons_self, State.foldl_writes l _ fun b hb => h b (List.mem_cons_of_mem _ hb), List.flatMap_cons]
    exact congrArg (fun m => { s with tmem := m }) (Mem.writeAll_append _ _ _).symm

/-- The bins of a surface as (x, y). -/
def bins (d : DenseDesc) : List (Nat × Nat) := (List.range d.h).flatMap fun y => (List.range d.w).map fun x => (x, y)

theorem mem_bins {e : Nat × Nat} : e ∈ bins d ↔ e.1 < d.w ∧ e.2 < d.h := by
  simp only [bins, List.mem_flatMap, List.mem_map, List.mem_range]
  constructor
  · rintro ⟨y, hy, x, hx, rfl⟩
    exact ⟨hx, hy⟩
  · rintro ⟨hx, hy⟩
    exact ⟨e.2, hy, e.1, hx, rfl⟩

/-- The four bytes of a pixel of a readout's map. -/
def State.pixelWrite (s : State) (d : DenseDesc) (tl src tab out : Nat) (e : Nat × Nat) : Nat × List Byte :=
  (tileAddr tl (out + 4 * (e.2 * d.w + e.1)),
    [BitVec.ofNat 8 (s.readoutElem d tl src tab e.1 e.2 1), BitVec.ofNat 8 (s.readoutElem d tl src tab e.1 e.2 0), 0, 0])

/-- The two counts of a bin are cleared. -/
def clearWrites (d : DenseDesc) (tl src : Nat) (e : Nat × Nat) : List (Nat × List Byte) :=
  [(tileAddr tl (surfaceEntry d src e.1 e.2 0 + 4), leBytes 2 0), (tileAddr tl (surfaceEntry d src e.1 e.2 1 + 4), leBytes 2 0)]

theorem pixel_in {x y : Nat} (hx : x < d.w) (hy : y < d.h) : 4 * (y * d.w + x) + 4 ≤ 4 * d.w * d.h := by
  have h := mapIndex_lt (P := 1) hy hx (Nat.lt_add_one 0) (Nat.le_refl 1)
  have hsize : 4 * d.w * d.h = 4 * (d.w * d.h * 1) := by ring
  omega

/-- A readout writes its map, and the count readout then clears the counts. -/
theorem State.readoutTile_eq (s : State) {src tab out : Nat} (hfit : out + 4 * d.w * d.h ≤ 2 ^ 20) : s.readoutTile d tl src tab out =
    ((s.modTmem (·.writeAll ((bins d).map (s.pixelWrite d tl src tab out)))).modTmem
      (·.writeAll (if d.sub = 2 then (bins d).flatMap (clearWrites d tl src) else []))).countOp tl (d.w * d.h + 32) 0 := by
  have hpix : ∀ e ∈ bins d, ∀ u : State, ((((u.tileWriteNat tl (out + 4 * (e.2 * d.w + e.1) + 0) 1 (s.readoutElem d tl src tab e.1 e.2 1)).tileWriteNat
      tl (out + 4 * (e.2 * d.w + e.1) + 1) 1 (s.readoutElem d tl src tab e.1 e.2 0)).tileWriteNat
      tl (out + 4 * (e.2 * d.w + e.1) + 2) 1 0).tileWriteNat tl (out + 4 * (e.2 * d.w + e.1) + 3) 1 0) =
        u.modTmem (·.writeAll [s.pixelWrite d tl src tab out e]) := fun e he u => by
    obtain ⟨hx, hy⟩ := mem_bins.mp he
    have hin := pixel_in hx hy
    have haddr : ∀ c < 4, tileAddr tl (out + 4 * (e.2 * d.w + e.1) + c) = tileAddr tl (out + 4 * (e.2 * d.w + e.1)) + c := fun c hc =>
      tileAddr_part (size := 4) (by omega) (by omega) (Nat.zero_lt_one)
    unfold State.tileWriteNat State.tileWrite
    rw [haddr 1 (by decide), haddr 2 (by decide), haddr 3 (by decide)]
    rfl
  have hclear : ∀ e ∈ bins d, ∀ u : State, ((u.tileWriteNat tl (surfaceEntry d src e.1 e.2 0 + 4) 2 0).tileWriteNat tl
      (surfaceEntry d src e.1 e.2 1 + 4) 2 0) = u.modTmem (·.writeAll (clearWrites d tl src e)) := fun _ _ _ => rfl
  have hmap := State.foldl_writes (bins d) s hpix
  rw [← List.map_eq_flatMap] at hmap
  generalize hu : s.modTmem (·.writeAll ((bins d).map (s.pixelWrite d tl src tab out))) = u at hmap ⊢
  unfold State.readoutTile
  refine congrArg (State.countOp · tl (d.w * d.h + 32) 0) ?_
  by_cases hsub : d.sub = 2
  · rw [if_pos hsub, if_pos hsub]
    rw [← State.foldl_writes (bins d) u hclear, ← hmap]
    rfl
  · rw [if_neg hsub, if_neg hsub]
    exact hmap

/-- The map of a readout holds its pixels, and nothing else is written. -/
theorem Mem.readout_pixels (s : State) {src tab out : Nat} (m : Mem) (hfit : out + 4 * d.w * d.h ≤ 2 ^ 20) :
    (∀ x y, x < d.w → y < d.h → (m.writeAll ((bins d).map (s.pixelWrite d tl src tab out))).readBytes
      (tileAddr tl (out + 4 * (y * d.w + x))) 4 =
        [BitVec.ofNat 8 (s.readoutElem d tl src tab x y 1), BitVec.ofNat 8 (s.readoutElem d tl src tab x y 0), 0, 0]) ∧
    (∀ n, n < tileAddr tl out ∨ tileAddr tl out + 4 * d.w * d.h ≤ n →
      (m.writeAll ((bins d).map (s.pixelWrite d tl src tab out))).read n = m.read n) := by
  have haddr : ∀ e ∈ bins d, tileAddr tl (out + 4 * (e.2 * d.w + e.1)) = tileAddr tl out + 4 * (e.2 * d.w + e.1) := fun e he =>
    tileAddr_part (n := 4) (size := 4 * d.w * d.h) hfit (pixel_in (mem_bins.mp he).1 (mem_bins.mp he).2) (by decide)
  constructor
  · intro x y hx hy
    have hmem : (x, y) ∈ bins d := mem_bins.mpr ⟨hx, hy⟩
    refine Mem.readBytes_writeAll (e := s.pixelWrite d tl src tab out (x, y)) _ m (List.mem_map.mpr ⟨_, hmem, rfl⟩) fun f hf => ?_
    obtain ⟨e, he, rfl⟩ := List.mem_map.mp hf
    by_cases hsame : e.2 * d.w + e.1 = y * d.w + x
    · obtain ⟨hey, hex, -⟩ := mapIndex_inj (j := e.2) (j' := y) (P := 1) (n := 0) (n' := 0) (mem_bins.mp he).1 hx (by decide) (by decide) (by omega)
      exact .inl (congrArg _ (Prod.ext hex hey))
    · refine .inr ?_
      unfold apart State.pixelWrite
      rw [haddr e he, haddr (x, y) hmem]
      simp only [List.length_cons, List.length_nil]
      omega
  · intro n hn
    refine Mem.read_writeAll_out _ m fun f hf => ?_
    obtain ⟨e, he, rfl⟩ := List.mem_map.mp hf
    have hin := pixel_in (mem_bins.mp he).1 (mem_bins.mp he).2
    unfold State.pixelWrite
    rw [haddr e he]
    simp only [List.length_cons, List.length_nil]
    omega

/-- The count readout clears the counts of a surface, and nothing else. -/
theorem Mem.readout_clears {src : Nat} (m : Mem) (hfit : src + surfaceBytes d ≤ 2 ^ 20) :
    (∀ x y c, x < d.w → y < d.h → c < 2 →
      (m.writeAll ((bins d).flatMap (clearWrites d tl src))).readNat (tileAddr tl (surfaceEntry d src x y c + 4)) 2 = 0 ∧
      (m.writeAll ((bins d).flatMap (clearWrites d tl src))).readNat (tileAddr tl (surfaceEntry d src x y c)) 4 =
        m.readNat (tileAddr tl (surfaceEntry d src x y c)) 4) ∧
    (∀ n, n < tileAddr tl src ∨ tileAddr tl src + surfaceBytes d ≤ n →
      (m.writeAll ((bins d).flatMap (clearWrites d tl src))).read n = m.read n) := by
  have hmem : ∀ f, f ∈ (bins d).flatMap (clearWrites d tl src) ↔
      ∃ x y c, x < d.w ∧ y < d.h ∧ c < 2 ∧ f = (tileAddr tl (surfaceEntry d src x y c + 4), leBytes 2 0) := fun f => by
    simp only [List.mem_flatMap, clearWrites, List.mem_cons, List.not_mem_nil, or_false]
    constructor
    · rintro ⟨e, he, rfl | rfl⟩
      · exact ⟨_, _, 0, (mem_bins.mp he).1, (mem_bins.mp he).2, by decide, rfl⟩
      · exact ⟨_, _, 1, (mem_bins.mp he).1, (mem_bins.mp he).2, by decide, rfl⟩
    · rintro ⟨x, y, c, hx, hy, hc, rfl⟩
      refine ⟨(x, y), mem_bins.mpr ⟨hx, hy⟩, ?_⟩
      interval_cases c
      · exact .inl rfl
      · exact .inr rfl
  have haddr : ∀ x y c, x < d.w → y < d.h → c < 2 → tileAddr tl (surfaceEntry d src x y c) = tileAddr tl src + (surfaceEntry d src x y c - src) ∧
      tileAddr tl (surfaceEntry d src x y c + 4) = tileAddr tl src + (surfaceEntry d src x y c - src) + 4 := fun x y c hx hy hc => by
    have hin := surfaceEntry_in (a := src) hx hy hc
    refine ⟨tileAddr_in (n := 8) hfit (by omega) hin.2 (by decide), ?_⟩
    rw [tileAddr_in (n := 4) hfit (by omega) (by omega) (by decide)]
    omega
  refine ⟨fun x y c hx hy hc => ⟨?_, ?_⟩, fun n hn => ?_⟩
  · have hread := Mem.readBytes_writeAll (e := (tileAddr tl (surfaceEntry d src x y c + 4), leBytes 2 0))
      ((bins d).flatMap (clearWrites d tl src)) m ((hmem _).mpr ⟨x, y, c, hx, hy, hc, rfl⟩) fun f hf => by
        obtain ⟨x', y', c', hx', hy', hc', rfl⟩ := (hmem f).mp hf
        rcases surfaceEntry_apart (d := d) (a := src) (y := y') (y' := y) hx' hx hc' hc with ⟨rfl, rfl, rfl⟩ | hapart
        · exact .inl rfl
        · have hin := surfaceEntry_in (a := src) hx hy hc
          have hin' := surfaceEntry_in (a := src) hx' hy' hc'
          refine .inr ?_
          unfold apart
          rw [(haddr x y c hx hy hc).2, (haddr x' y' c' hx' hy' hc').2]
          simp only [leBytes_length]
          omega
    exact congrArg leNat hread
  · refine congrArg leNat (Mem.readBytes_writeAll_out _ m fun f hf => ?_)
    obtain ⟨x', y', c', hx', hy', hc', rfl⟩ := (hmem f).mp hf
    have hin := surfaceEntry_in (a := src) hx hy hc
    have hin' := surfaceEntry_in (a := src) hx' hy' hc'
    rw [(haddr x y c hx hy hc).1, (haddr x' y' c' hx' hy' hc').2]
    simp only [leBytes_length]
    rcases surfaceEntry_apart (d := d) (a := src) (y := y') (y' := y) hx' hx hc' hc with ⟨rfl, rfl, rfl⟩ | hapart
    · omega
    · omega
  · refine Mem.read_writeAll_out _ m fun f hf => ?_
    obtain ⟨x', y', c', hx', hy', hc', rfl⟩ := (hmem f).mp hf
    have hin' := surfaceEntry_in (a := src) hx' hy' hc'
    rw [(haddr x' y' c' hx' hy' hc').2]
    simp only [leBytes_length]
    omega

/-- A readout on one tile. -/
theorem State.runReadout_one {a q b : Nat} (h : s.denseOp k 5 = some (o, d, [tl]))
    (ha : s.placeIn tl d.inPart d.inOff (surfaceBytes d) [5, 8] = some a)
    (hq : s.placeIn tl d.wPart d.qOff (if d.sub = 1 then 512 else 0) [4, 8] = some q)
    (hb : s.placeIn tl d.outPart d.outOff (4 * d.w * d.h) [5, 8] = some b) :
    s.runReadout k d.sub none = (s.readoutTile d tl a q b).finishOp k := by
  unfold State.runReadout
  rw [h]
  dsimp only
  rw [if_neg (by simp)]
  simp only [List.map_cons, List.map_nil, ha, hq, hb, allOf, Option.map_some, List.foldl_cons, List.foldl_nil]
  rfl

/-- The frame of a readout on one tile. -/
theorem State.readoutDone (s : State) (htl : tl < 64) (f : Mem → Mem) (cost : Nat) :
    ∃ t, (((s.modTmem f).countOp tl cost 0).finishOp k) = t ∧ t.tmem = f s.tmem ∧ t.opAt k 1 = none ∧
      t = { s with regs := t.regs, tmem := t.tmem, pp := t.pp, freeCtr := t.freeCtr } ∧ s.regsBut t (keysOf R.deTCntCount) := by
  obtain ⟨hframe, hregs⟩ := (s.modTmem f).countOp_spec htl cost 0
  refine ⟨_, rfl, congrArg (·.tmem) hframe, State.opAt_finishOp _ _ _, by rw [hframe]; rfl,
    (((s.regsBut_refl _).of_regs (u := s.modTmem f) rfl).trans hregs).of_regs rfl⟩

end

/-- Settles O40: each operation on one tile is a list of writes in its regions and a count. -/
theorem batchesAndSurfaces : Obligations.BatchesAndSurfaces := by
  unfold Obligations.BatchesAndSurfaces
  refine ⟨fun k o d tiles pt s h => exec_gemmBatch_ends h pt, fun n k f o d tiles pt s hf h hsub => ?_,
    fun k tl list o d b e p s h hcount hmax hlist he hrows hb hp => exec_gemmBatch_single h hcount hmax hlist he hrows hb hp,
    fun k tl o d s h hcount => ?_, fun k tl o d s h hmax hcount => ?_,
    fun k tl a b x y e time o d cell s h hsub hcount hmax htl ha hb hfit hcell htag hty hvalid hx0 hy0 hx hy hxw hyh he htime =>
      exec_surfaceAccumulate_event h hsub hcount hmax htl ha hb hfit hcell htag hty hvalid hx0 hy0 hx hy hxw hyh he htime,
    fun k tl a q b o d s h hsub htl ha hq hb hfit => ?_, fun k tl a b o d s h hsub htl ha hb hfit hfitA hapart => ?_,
    fun k pt s h => ⟨exec_surfaceAccumulate_none h pt, congrArg _ (State.runReadout_none h 1 pt), congrArg _ (State.runReadout_none h 2 pt)⟩⟩
  · simp only [List.mem_cons, Prod.mk.injEq, List.not_mem_nil, or_false] at hf
    rcases hf with ⟨rfl, rfl⟩ | ⟨rfl, rfl⟩ | ⟨rfl, rfl⟩
    · exact exec_surfaceAccumulate_ends h hsub pt
    · exact ⟨_, rfl, hsub ▸ State.runReadout_ends h pt⟩
    · exact ⟨_, rfl, hsub ▸ State.runReadout_ends h pt⟩
  · exact exec_gemmBatch_empty h (hcount ▸ State.clampCount_of_le (by omega))
  · refine exec_gemmBatch_empty h ?_
    rw [State.clampCount, if_pos (by omega), hmax]
  · obtain ⟨hpix, hout⟩ := Mem.readout_pixels (tl := tl) (src := a) (tab := q) s s.tmem hfit
    obtain ⟨t, ht, htmem, hop, hframe, hregs⟩ := s.readoutDone (k := k) htl
      (·.writeAll ((bins d).map (s.pixelWrite d tl a q b))) (d.w * d.h + 32)
    refine ⟨t, ?_, fun x y hx hy => ?_, fun n hn => ?_, hop, hframe, hregs⟩
    · refine congrArg Host.Outcome.next ?_
      rw [← hsub, State.runReadout_one h ha (by rw [if_pos hsub]; exact hq) hb, State.readoutTile_eq s hfit, if_neg (by omega), ← ht]
      rfl
    · rw [State.tileRead, htmem, hpix x y hx hy]
    · rw [htmem, hout n hn]
  · obtain ⟨hpix, hout⟩ := Mem.readout_pixels (tl := tl) (src := a) (tab := 0) s s.tmem hfit
    obtain ⟨hclear, hkeep⟩ := Mem.readout_clears (tl := tl) (s.tmem.writeAll ((bins d).map (s.pixelWrite d tl a 0 b))) hfitA
    obtain ⟨t, ht, htmem, hop, hframe, hregs⟩ := s.readoutDone (k := k) htl
      (fun m => (m.writeAll ((bins d).map (s.pixelWrite d tl a 0 b))).writeAll ((bins d).flatMap (clearWrites d tl a))) (d.w * d.h + 32)
    have hA : 0 < surfaceBytes d := by unfold surfaceBytes; omega
    have hbase : tileAddr tl a = tl * 2 ^ 20 + a := by unfold tileAddr; omega
    refine ⟨t, ?_, fun x y hx hy => ?_, fun x y c hx hy hc => ?_, hop, hframe, hregs⟩
    · refine congrArg Host.Outcome.next ?_
      rw [← hsub, State.runReadout_one h ha (by rw [if_neg (by omega)]; exact s.placeIn_zero _ _ _ _) hb, State.readoutTile_eq s hfit,
        if_pos hsub, ← ht]
      rfl
    · have hin := pixel_in hx hy
      have hbaseB : tileAddr tl (b + 4 * (y * d.w + x)) = tl * 2 ^ 20 + (b + 4 * (y * d.w + x)) := by unfold tileAddr; omega
      have hbytes : t.tileRead tl (b + 4 * (y * d.w + x)) 4 = (s.tmem.writeAll ((bins d).map (s.pixelWrite d tl a 0 b))).readBytes
          (tileAddr tl (b + 4 * (y * d.w + x))) 4 := by
        rw [State.tileRead, htmem]
        refine List.map_congr_left fun i hi => hkeep _ ?_
        have := List.mem_range.mp hi
        omega
      rw [hbytes, hpix x y hx hy]
      simp only [State.readoutElem, hsub, if_true]
    · have hin := surfaceEntry_in (a := a) hx hy hc
      have hbaseE : tileAddr tl (surfaceEntry d a x y c) = tl * 2 ^ 20 + surfaceEntry d a x y c := by unfold tileAddr; omega
      have hB : tileAddr tl b = tl * 2 ^ 20 + b := by
        have := pixel_in hx hy
        unfold tileAddr
        omega
      obtain ⟨hzero, hlast⟩ := hclear x y c hx hy hc
      rw [State.tileNat, State.tileNat, htmem]
      refine ⟨hzero, hlast.trans (congrArg leNat (List.map_congr_left fun i hi => hout _ ?_))⟩
      have := List.mem_range.mp hi
      omega

end Sys2Proof.Machine
end

section
/-! The commands of a fusion cycle (R338, R364, R469). UPDATE deletes a slot whose parity fails before it takes its items; the fault that
this raises can be the 65th within 1 s, and the quiesce that a storm begins ends the items that the engine holds. -/
namespace Sys2Proof.Machine

section
variable {s : State}

/-! ## A push leaves the engine's items (R233, R336) -/

theorem fuItems_ite {a b : State} {p : Prop} [Decidable p] {l : List FuItem} (ha : a.fu.items = l) (hb : b.fu.items = l) :
    (if p then a else b).fu.items = l := by
  split
  · exact ha
  · exact hb

theorem State.fuItems_markerVector (s : State) (q : Nat) : (s.markerVector q).fu.items = s.fu.items :=
  fuItems_ite (by rw [State.vector_frame]) rfl

theorem State.fuItems_dropPush (s : State) (q : Nat) : (s.dropPush q).fu.items = s.fu.items :=
  fuItems_ite (State.fuItems_markerVector _ _) (fuItems_ite rfl rfl)

theorem State.fuItems_gatherTimer (s : State) : s.gatherTimer.fu.items = s.fu.items := by
  unfold State.gatherTimer
  split <;> rfl

theorem State.fuItems_gatherStarts (s : State) (q : Nat) (item : ItemId) : (s.gatherStarts q item).fu.items = s.fu.items :=
  fuItems_ite (State.fuItems_gatherTimer _) rfl

theorem State.fuItems_landCell (s : State) (q : Nat) (data : Cell64) (item : ItemId) (eop epm : Bool) :
    (s.landCell q data item eop epm).fu.items = s.fu.items :=
  (State.fuItems_gatherStarts _ _ _).trans (fuItems_ite rfl rfl)

theorem State.fuItems_releaseRetired (s : State) (q : Nat) : (s.releaseRetired q).fu.items = s.fu.items :=
  fuItems_ite rfl rfl

theorem State.fuItems_relinkMarker (s : State) (q : Nat) : (s.relinkMarker q).fu.items = s.fu.items :=
  fuItems_ite rfl (State.fuItems_markerVector _ _)

theorem State.fuItems_deliverHead (s : State) (q ep : Nat) (take : Bool) : (s.deliverHead q ep take).fu.items = s.fu.items := by
  unfold State.deliverHead
  split
  · rfl
  · extract_lets tag u dl v held w
    have hv : v.fu.items = s.fu.items := fuItems_ite (p := _ = _) rfl rfl
    have hw : w.fu.items = s.fu.items := fuItems_ite ((v.fuItems_relinkMarker q).trans hv) (fuItems_ite hv hv)
    exact (State.fuItems_releaseRetired _ _).trans hw

theorem State.fuItems_toDropper (s : State) (q : Nat) : (s.toDropper q).fu.items = s.fu.items := by
  refine fuItems_ite rfl ?_
  dsimp only
  split
  · exact s.fuItems_deliverHead _ _ _
  · exact s.fuItems_deliverHead _ _ _

theorem State.fuItems_push (s : State) (ep q : Nat) (data : Cell64) (item : ItemId) (eop epm : Bool) :
    (s.push ep q data item eop epm).fu.items = s.fu.items := by
  unfold State.push
  extract_lets note
  have hnote : (note s).fu.items = s.fu.items := rfl
  clear_value note
  have hdrop := ((note s).fuItems_dropPush q).trans hnote
  have hland := ((note s).fuItems_landCell q data item eop epm).trans hnote
  split
  · rfl
  · exact fuItems_ite ((State.fuItems_toDropper _ _).trans hdrop) hdrop
  · refine fuItems_ite (fuItems_ite hnote ((State.fuItems_toDropper _ _).trans hland)) ?_
    split
    · exact fuItems_ite ((State.fuItems_deliverHead _ _ _ _).trans hnote) (fuItems_ite hland ((State.fuItems_deliverHead _ _ _ _).trans hland))
    · exact hland

theorem State.fuItems_report (s : State) (item : ItemId) (reason stage flags : Nat) :
    (s.report item reason stage flags).fu.items = s.fu.items := by
  unfold State.report
  split
  · exact fuItems_ite rfl rfl
  · exact fuItems_ite rfl rfl

theorem State.fuItems_pushItem (s : State) (ep q : Nat) (data : Cell64) (item : ItemId) (last epm : Bool) (stage flags : Nat) :
    (s.pushItem ep q data item last epm stage flags).fu.items = s.fu.items := by
  unfold State.pushItem
  extract_lets r v w
  have hv : v.fu.items = s.fu.items := s.fuItems_push _ _ _ _ _ _
  have hmark : (v.markDropped item).fu.items = s.fu.items := by rw [State.markDropped_frame]; exact hv
  have hw : w.fu.items = s.fu.items := fuItems_ite hmark hv
  exact fuItems_ite ((State.fuItems_report _ _ _ _ _).trans hw) hw

theorem State.fuItems_commandDone (s : State) (d : Delivery) (status : Nat) : (s.commandDone d status).fu.items = s.fu.items :=
  s.fuItems_pushItem _ _ _ _ _ _ _ _

end

/-! ## A storm in UPDATE (R364, R469) -/

/-- An UPDATE command. -/
def updateCell : Cell := { idx := 7, data := 3, dp := parity 64 3 }

/-- A DET item that waits for the next ASSOC. -/
def waitingItem : FuItem := { item := 0x1000001, kind := 3, src := 0, cells := [] }

/-- A track in slot 0. -/
def slotZeroTrack : Track := { slot := 0, gen := 0, x := 0, y := 0, at_ := 0, src := 0, oldest := 0, validUs := 0 }

/-- Fusion runs in a cycle, an UPDATE heads its command queue 5, and 64 faults have been raised within the last second. -/
def stormState : State where
  regs := [(R.pwDomStateOn.key 0 0, 0x3FFFFFF), (R.qmQCfgQuota.key 5 0, 8), (R.qmQCfgPresent.key 5 0, 1), (R.qmQEpProd.key 5 0, 0x10),
    (R.qmQEpCons.key 5 0, 0x62), (R.fuCtrlEn.key 0 0, 1), (R.fuCtrlCmdQid.key 0 0, 5)]
  devtime := 5000000000
  pal := { queues := [(5, { cells := [updateCell] })] }
  fu := { cycleStep := some 0, items := [waitingItem], tracks := [slotZeroTrack] }
  lg := { raises := List.replicate 64 5000000000 }

/-- The delivery of the command. -/
def updateDelivery : Delivery := { ep := 0x62, qid := 5, data := 3, tag := 0, eop := false, epm := false, item := 0, idx := 7 }

theorem stormState_takes : stormState.takeCommand.1 = some (updateDelivery, .use) ∧ stormState.takeCommand.2.fu.items = [waitingItem] := by
  decide +kernel

/-- Slot 0 fails parity; the raise is the 65th, and the waiting item is gone. -/
theorem exec_update_stormState : ∃ t, exec (.update [0]) stormState = .next t ∧ t.fu.items = [] := ⟨_, rfl, by decide +kernel⟩

/-- Refutes O44: its first clause has UPDATE leave every item of KIND below 4. Where slot 0 fails parity after 64 raises within 1 s, the
storm's quiesce ends the items that the engine holds, and the waiting DET item with them. -/
theorem not_fusionCommands : ¬ Obligations.FusionCommands := by
  rintro ⟨hcommand, -⟩
  obtain ⟨htake, hitems⟩ := stormState_takes
  obtain ⟨t, v, hexec, hdone⟩ := hcommand 3 (.update [0]) [0] 3 updateDelivery stormState stormState.takeCommand.2 (by simp)
    (by decide +kernel) rfl (Prod.ext htake rfl) (by decide)
  obtain ⟨u, hexec', hgone⟩ := exec_update_stormState
  obtain rfl : t = u := Host.Outcome.next.inj (hexec.symm.trans hexec')
  obtain ⟨-, hlt⟩ | ⟨hv, hkeeps, -⟩ := hdone
  · exact absurd hlt (by decide)
  · rw [hv, State.fuItems_commandDone, hkeeps rfl, hitems] at hgone
    exact absurd hgone (by decide)

end Sys2Proof.Machine
end

section
/-! Draw lists (R369 to R373, R375, R380, R389, R395): the front end takes a list cell by cell, and a whole group is handled by its command. -/
namespace Sys2Proof.Machine

section
variable {s t u v : State} {q : Nat} {c : Cell} {rest : List Cell} {d : Delivery} {l : DrawList}

/-! ## DRAW_LIST_TAKE (R369, R370) -/

theorem exec_drawListTake_idle (x : Upset) (h : s.rdRuns = false ∨ s.groupReady = true ∨ s.drawQueue = none) :
    exec (.drawListTake x) s = .next s := by
  show execDrawListTake x s = _
  unfold execDrawListTake State.takeDraw
  rcases h with h | h | h <;> simp [h]

/-- The front end takes a good head cell of its queue. -/
theorem exec_drawListTake_takes (hruns : s.rdRuns = true) (hready : s.groupReady = false) (hqueue : s.drawQueue = some q)
    (hallowed : s.popAllowed 0x63 q = true) (hsev : (s.queue q).severing = false) (hc : (s.queue q).cells = c :: rest)
    (hm : c.marker = false) (hp : parity 64 c.data.toNat = c.dp) (hdis : (s.queue q).discard = false)
    (hret : s.flag R.qmQCfgRetired q = false) : ∃ w, s.headGone q 0x63 c rest s.pal.held [R.eiXoffState.key 0 0] w ∧
      exec (.drawListTake .none) s = .next ((w.wanted q).listCell q (c.delivery q 0x63) .use) := by
  have hgone := State.headGone_pop (ep := 0x63) hc (by simp [hm]) hret
  have hpop := State.popFor_delivers (block := 0x0C) hallowed (State.popWaits_of_head hsev hc (by simp)) hgone.delivered
  generalize s.deliverHead q 0x63 false = w at hgone hpop
  rw [State.accept_good ((c.delivery_tag q _).trans (Cell.tag_of_good hm hp)) (hgone.discard.trans hdis)] at hpop
  refine ⟨w, hgone, ?_⟩
  show execDrawListTake .none s = _
  unfold execDrawListTake State.takeDraw
  simp only [hruns, hready, hqueue, hpop, Bool.not_true, Bool.or_self, Bool.false_eq_true, if_false]

/-- What the front end's pop leaves beside the palette and the XOFF balls: the wish list of a CLOSE alone. -/
theorem State.headGone.wanted (h : s.headGone q 0x63 c rest s.pal.held [R.eiXoffState.key 0 0] t) :
    ((t.wanted q).queue q).cells = rest ∧ (t.wanted q).rd = { s.rd with want := (t.wanted q).rd.want } ∧ (t.wanted q).lg = s.lg ∧
    (t.wanted q) = { s with
      regs := t.regs, pal := t.pal, rd := (t.wanted q).rd, pins := { s.pins with xoff := (t.wanted q).pins.xoff } } ∧
    s.regsBut (t.wanted q) [R.eiXoffState.key 0 0] := by
  have hrd : t.rd = s.rd := by rw [h.frame]
  refine ⟨h.cells, ?_, ?_, ?_, h.regs.of_regs rfl⟩
  · rw [← hrd]; rfl
  · have hlg : t.lg = s.lg := by rw [h.frame]
    exact hlg
  · unfold State.wanted State.modRd
    dsimp only
    rw [h.frame]

theorem State.listCell_first (hlist : s.rd.list = none) (heop : d.eop = false) :
    s.listCell q d .use = (s.modRd fun r => { r with list := some { queue := q } }).takeH0 d := by
  unfold State.listCell
  simp [hlist, heop]

theorem State.listCell_more (hlist : s.rd.list = some l) (hskip : l.skip = false) (hcells : l.cells ≠ []) (heop : d.eop = false) :
    s.listCell q d .use = s.modList fun l => { l with cells := l.cells ++ [(d.data, decide (d.tag = 1))] } := by
  unfold State.listCell
  simp [hlist, heop, hskip, hcells]

theorem State.listCell_end (hlist : s.rd.list = some l) (heop : d.eop = true) : s.listCell q d .use = s.endList d := by
  unfold State.listCell
  simp [hlist, heop]

theorem State.endList_whole (hlist : s.rd.list = some l) (hcells : l.cells = []) :
    s.endList d = (s.modRd fun r => { r with list := none }).endTaken 0x0C d.item false := by
  unfold State.endList
  simp [hlist, hcells]

/-- A draw call that its frame has room for (R369, R388). -/
theorem State.newDraw_open (hdropped : s.rd.openF.dropped = false) (hroom : s.rd.openF.draws.length < 4096) (layer : Nat) (f : ItemId → Draw) :
    s.newDraw layer f = (some s.rd.openF.draws.length,
      ((s.takeItem (0x70 + layer)).bump R.rdCntCount 6).modOpen fun r => { r with draws := r.draws ++ [f (s.nextItem (0x70 + layer))] }) := by
  have hopen : (((s.takeItem (0x70 + layer)).bump R.rdCntCount 6).rd.openF) = s.rd.openF := rfl
  unfold State.newDraw
  dsimp only
  generalize (s.takeItem (0x70 + layer)).bump R.rdCntCount 6 = u at hopen
  have hu : u.rd.openF.dropped = false := by rw [hopen, hdropped]
  have hlen : u.rd.openF.draws.length < 4096 := by rw [hopen]; exact hroom
  have hfits : ¬((!u.rd.openF.dropped && decide (4096 ≤ u.rd.openF.draws.length)) = true) := by simp [hu, hlen]
  have hkept : ¬(u.rd.openF.dropped = true) := by simp [hu]
  rw [if_neg hfits, if_neg hkept, hopen]

theorem State.newDraw_spec (hdropped : s.rd.openF.dropped = false) (hroom : s.rd.openF.draws.length < 4096) (layer : Nat) (f : ItemId → Draw) :
    ∃ t, s.newDraw layer f = (some s.rd.openF.draws.length, t) ∧
      t.rd = { s.rd with openF := { s.rd.openF with draws := s.rd.openF.draws ++ [f (s.nextItem (0x70 + layer))] } } ∧
      t.live (s.nextItem (0x70 + layer)) = true ∧ t.reg R.rdCntCount 6 = (s.reg R.rdCntCount 6 + 1) % 2 ^ 32 ∧
      t = { s with regs := t.regs, rd := t.rd, lg := t.lg } ∧ s.regsBut t [R.rdCntCount.key 6 0] := by
  refine ⟨_, State.newDraw_open hdropped hroom layer f, ?_⟩
  have hlive := s.live_takeItem (0x70 + layer)
  have hframe : s.takeItem (0x70 + layer) = { s with lg := (s.takeItem (0x70 + layer)).lg } := rfl
  generalize s.takeItem (0x70 + layer) = u at hlive hframe
  have hrd : u.rd = s.rd := by rw [hframe]
  have hregs : u.regs = s.regs := by rw [hframe]
  refine ⟨by rw [← hrd]; rfl, hlive, ?_, by rw [hframe]; rfl, ?_⟩
  · refine (State.reg_congr (s := u.bump R.rdCntCount 6) rfl _ _ _).trans ?_
    rw [State.bump, State.reg_setReg_self, State.reg_congr hregs]
    rfl
  · exact (((s.regsBut_refl _).of_regs hregs).setReg (List.mem_singleton_self _)).of_regs rfl

/-- The draw call that an H0 cell names. -/
def drawOf (h : Cell64) (item : ItemId) : Draw :=
  { item := item, layer := bits h.toNat 6 4, prog := bits h.toNat 15 12, blend := bits h.toNat 17 16, tex := bits h.toNat 26 22,
    colour := 0, param := 0, prims := [] }

/-- The H0 cell of a draw creates its draw call (R369, R371). -/
theorem State.takeH0_draw (hlist : s.rd.list = some l) (htag : d.tag = 0) (hok : h0Ok d.data = true) (hprim : h0Prim d.data < 4)
    (hdropped : s.rd.openF.dropped = false) (hroom : s.rd.openF.draws.length < 4096) : ∃ t, s.takeH0 d = t ∧
      t.rd = { s.rd with
        list := some { l with cells := [(d.data, false)], draw := some s.rd.openF.draws.length }
        openF := { s.rd.openF with draws := s.rd.openF.draws ++ [drawOf d.data (s.nextItem (0x70 + bits d.data.toNat 6 4))] } } ∧
      t.live (s.nextItem (0x70 + bits d.data.toNat 6 4)) = true ∧ t.reg R.rdCntCount 6 = (s.reg R.rdCntCount 6 + 1) % 2 ^ 32 ∧
      t = { s with regs := t.regs, rd := t.rd, lg := t.lg } ∧ s.regsBut t [R.rdCntCount.key 6 0] := by
  generalize hv : (s.modList fun l => { l with cells := [(d.data, false)], draw := none }) = v
  have hvrd : v.rd = { s.rd with list := some { l with cells := [(d.data, false)], draw := none } } := by
    rw [← hv]
    unfold State.modList State.modRd
    dsimp only
    rw [hlist]
    rfl
  have hvframe : v = { s with rd := v.rd } := by rw [← hv]; rfl
  have hopen : v.rd.openF = s.rd.openF := by rw [hvrd]
  have hitem : v.nextItem (0x70 + bits d.data.toNat 6 4) = s.nextItem (0x70 + bits d.data.toNat 6 4) := by rw [hvframe]; rfl
  have hregs : v.regs = s.regs := by rw [hvframe]
  obtain ⟨u, hu, hrd, hlive, hcount, hframe, huregs⟩ := State.newDraw_spec (s := v) (by rw [hopen, hdropped]) (by rw [hopen]; exact hroom)
    (bits d.data.toNat 6 4) (drawOf d.data)
  rw [hopen] at hu
  rw [hopen, hitem] at hrd
  rw [hitem] at hlive
  have htake : s.takeH0 d = u.modList fun l => { l with draw := some s.rd.openF.draws.length } := by
    unfold State.takeH0
    dsimp only
    rw [if_neg (by simp [htag]), if_neg (by simp [hok]), if_neg (by omega), hv]
    unfold drawOf at hu
    rw [hu]
  refine ⟨_, htake, ?_, hlive, ?_, ?_, ?_⟩
  · unfold State.modList State.modRd
    dsimp only
    rw [hrd, hvrd]
    rfl
  · rw [State.reg_congr hregs] at hcount
    exact hcount
  · unfold State.modList State.modRd
    rw [hframe, hvframe]
  · exact (((s.regsBut_refl _).of_regs hregs).trans huregs).of_regs rfl

/-- The registers that the front end and its pop may change. -/
def drawListKeys : List Nat := [R.eiXoffState.key 0 0, R.rdCntCount.key 6 0]

/-- The H0 cell of a draw begins its group and creates its draw call (R369, R371). -/
theorem State.headGone.begins (hgone : s.headGone q 0x63 c rest s.pal.held [R.eiXoffState.key 0 0] t) (hd : d = c.delivery q 0x63)
    (htag : d.tag = 0) (hlist : s.rd.list = none) (heop : c.eop = false) (hok : h0Ok c.data = true) (hprim : h0Prim c.data < 4)
    (hdropped : s.rd.openF.dropped = false) (hroom : s.rd.openF.draws.length < 4096) : ∃ u g, (t.wanted q).listCell q d .use = u ∧
      (u.queue q).cells = rest ∧ g = drawOf c.data (s.nextItem (0x70 + bits c.data.toNat 6 4)) ∧
      u.rd.openF = { s.rd.openF with draws := s.rd.openF.draws ++ [g] } ∧ u.live g.item = true ∧
      u.rd.list = some { queue := q, cells := [(c.data, false)], draw := some s.rd.openF.draws.length } ∧
      u.reg R.rdCntCount 6 = (s.reg R.rdCntCount 6 + 1) % 2 ^ 32 ∧
      u = { s with
        regs := u.regs, pal := u.pal, lg := u.lg, pins := { s.pins with xoff := u.pins.xoff },
        rd := { s.rd with list := u.rd.list, openF := u.rd.openF, want := u.rd.want } } ∧ s.regsBut u drawListKeys := by
  obtain ⟨hcells, hrd, hlg, hframe, hregs⟩ := hgone.wanted
  generalize t.wanted q = x at *
  have hcount : x.reg R.rdCntCount 6 = s.reg R.rdCntCount 6 := hregs _ _ _ (by decide)
  have hdata : d.data = c.data := by rw [hd]; rfl
  have hdeop : d.eop = false := by rw [hd]; exact heop
  have hxlist : x.rd.list = none := by rw [hrd]; exact hlist
  rw [State.listCell_first hxlist hdeop]
  have hopen : x.rd.openF = s.rd.openF := by rw [hrd]
  have hitem : ∀ n, (x.modRd fun r => { r with list := some { queue := q } }).nextItem n = s.nextItem n := by
    intro n
    rw [hframe]
    rfl
  obtain ⟨u, hu, hurd, hlive, hucount, huframe, huregs⟩ := State.takeH0_draw (s := x.modRd fun r => { r with list := some { queue := q } })
    (d := d) (l := { queue := q }) rfl htag (by rw [hdata]; exact hok) (by rw [hdata]; exact hprim)
    ((congrArg RFrame.dropped hopen).trans hdropped) ((congrArg (·.draws.length < 4096) hopen).mpr hroom)
  rw [hdata, hitem] at hurd hlive
  have hrd' : u.rd = { s.rd with
      list := some { queue := q, cells := [(c.data, false)], draw := some s.rd.openF.draws.length }
      openF := { s.rd.openF with draws := s.rd.openF.draws ++ [drawOf c.data (s.nextItem (0x70 + bits c.data.toNat 6 4))] }
      want := x.rd.want } := by
    rw [hurd]
    unfold State.modRd
    dsimp only
    rw [hrd]
  refine ⟨u, _, hu, ?_, rfl, by rw [hrd'], hlive, by rw [hrd'], hucount.trans (by rw [← hcount]; rfl), ?_, ?_⟩
  · rw [huframe]
    exact hcells
  · have hurd'' : u.rd = { s.rd with list := u.rd.list, openF := u.rd.openF, want := u.rd.want } := by rw [hrd']
    have hpins : u.pins = { s.pins with xoff := u.pins.xoff } := by
      rw [huframe]
      exact (congrArg State.pins hframe).trans rfl
    rw [← hpins, ← hurd'']
    rw [huframe]
    unfold State.modRd
    rw [hframe]
  · exact ((hregs.of_regs rfl).mono (by simp [drawListKeys])).trans (huregs.mono (by simp [drawListKeys]))

/-- A good cell behind the H0 cell joins its group (R370). -/
theorem State.headGone.joins (hgone : s.headGone q 0x63 c rest s.pal.held [R.eiXoffState.key 0 0] t) (hd : d = c.delivery q 0x63)
    (htag : d.tag = 0) (hlist : s.rd.list = some l) (hskip : l.skip = false) (hcells : l.cells ≠ []) (heop : c.eop = false) :
    ∃ u, (t.wanted q).listCell q d .use = u ∧ (u.queue q).cells = rest ∧
      u.rd = { s.rd with list := some { l with cells := l.cells ++ [(c.data, false)] }, want := u.rd.want } ∧
      u = { s with regs := u.regs, pal := u.pal, rd := u.rd, pins := { s.pins with xoff := u.pins.xoff } } ∧
      s.regsBut u [R.eiXoffState.key 0 0] := by
  obtain ⟨hleft, hrd, hlg, hframe, hregs⟩ := hgone.wanted
  generalize t.wanted q = x at *
  have hdata : d.data = c.data := by rw [hd]; rfl
  have hdeop : d.eop = false := by rw [hd]; exact heop
  have hxlist : x.rd.list = some l := by rw [hrd]; exact hlist
  refine ⟨_, State.listCell_more hxlist hskip hcells hdeop, hleft, ?_, ?_, hregs.of_regs rfl⟩
  · unfold State.modList State.modRd
    dsimp only
    rw [hxlist, htag, hdata, hrd]
    rfl
  · unfold State.modList State.modRd
    dsimp only
    rw [hframe]

/-- The EOP cell behind a whole group ends the list (R369). -/
theorem State.headGone.ends (hgone : s.headGone q 0x63 c rest s.pal.held [R.eiXoffState.key 0 0] t) (hd : d = c.delivery q 0x63)
    (hitem : d.item = c.itemSeen 0) (hlist : s.rd.list = some l) (hcells : l.cells = []) (heop : c.eop = true) :
    ∃ v u : State, (t.wanted q).listCell q d .use = v ∧ (u.queue q).cells = rest ∧
      u.rd = { s.rd with list := none, want := u.rd.want } ∧
      u = { s with regs := u.regs, pal := u.pal, rd := u.rd, pins := { s.pins with xoff := u.pins.xoff } } ∧
      s.regsBut u [R.eiXoffState.key 0 0] ∧ v = u.endTaken 0x0C (c.itemSeen 0) false := by
  obtain ⟨hleft, hrd, hlg, hframe, hregs⟩ := hgone.wanted
  generalize t.wanted q = x at *
  have hdeop : d.eop = true := by rw [hd]; exact heop
  have hxlist : x.rd.list = some l := by rw [hrd]; exact hlist
  refine ⟨_, x.modRd fun r => { r with list := none }, rfl, hleft, ?_, ?_, hregs.of_regs rfl, ?_⟩
  · unfold State.modRd
    dsimp only
    rw [hrd]
  · unfold State.modRd
    dsimp only
    rw [hframe]
  · rw [State.listCell_end hxlist hdeop, State.endList_whole hxlist hcells, hitem]

end
end Sys2Proof.Machine
end

section
/-! A whole group is handled by the command of its PRIM (R371 to R373, R375, R380), and DrawLists settled. -/
namespace Sys2Proof.Machine

section
variable {s t u v : State} {l : DrawList} {h h1 : Cell64} {p i : Nat} {f : Instr}

/-! ## The command of a group -/

/-- The draw commands, each with its PRIM (R371). -/
def drawCommands : List (Nat × Instr) := [(0, .triangleList), (1, .triangleStrip), (2, .lineList), (3, .glyphQuads)]

/-- The list behind a handled group. -/
def DrawList.handled (l : DrawList) : DrawList := { l with cells := [], draw := none }

theorem exec_drawCommand (hf : (p, f) ∈ drawCommands) (hruns : s.rdRuns = true) :
    exec f s = .next (s.withGroup p fun h c d s => s.binGroup h c d) := by
  have hrun : ∀ x y : State, (if s.rdRuns then x else y) = x := fun x y => by rw [hruns]; rfl
  simp only [drawCommands, List.mem_cons, Prod.mk.injEq, List.not_mem_nil, or_false] at hf
  rcases hf with ⟨rfl, rfl⟩ | ⟨rfl, rfl⟩ | ⟨rfl, rfl⟩ | ⟨rfl, rfl⟩ <;> exact congrArg Host.Outcome.next (hrun _ _)

/-- A whole group without a poisoned cell is handled by the command of its PRIM. -/
theorem State.withGroup_runs {run : Cell64 → List Cell64 → Option Nat → State → State} {r : List (Cell64 × Bool)} (hlist : s.rd.list = some l)
    (hcells : l.cells = (h, false) :: r) (hfull : l.full = true) (hprim : h0Prim h = p) (hgood : r.any (·.2) = false) :
    s.withGroup p run = (run h (r.map (·.1)) l.draw s).modList DrawList.handled := by
  unfold State.withGroup
  rw [hlist]
  dsimp only
  rw [hcells]
  simp only [hfull, hprim, hgood, Bool.not_true, bne_self_eq_false, Bool.or_self, Bool.false_eq_true, if_false]
  rfl

/-- Without a whole group of its PRIM a command does nothing. -/
theorem State.withGroup_idle (run : Cell64 → List Cell64 → Option Nat → State → State)
    (hnone : s.groupReady = false ∨ ∃ l h r, s.rd.list = some l ∧ l.cells = h :: r ∧ h0Prim h.1 ≠ p) : s.withGroup p run = s := by
  unfold State.withGroup
  split
  · rfl
  next l hlist =>
    split
    · rfl
    next h r hcells =>
      refine if_pos ?_
      rcases hnone with hready | ⟨l', h', r', hlist', hcells', hprim⟩
      · have hfull : l.full = false := by
          unfold State.groupReady at hready
          rw [hlist] at hready
          exact hready
        simp [hfull]
      · obtain rfl : l = l' := Option.some.inj (hlist.symm.trans hlist')
        obtain ⟨rfl, -⟩ := List.cons.inj (hcells.symm.trans hcells')
        simp [hprim]

theorem exec_group_idle (hf : (p, f) ∈ drawCommands ++ [(4, .transform), (5, .textureSlot)])
    (hnone : s.rdRuns = false ∨ s.groupReady = false ∨ ∃ l h r, s.rd.list = some l ∧ l.cells = h :: r ∧ h0Prim h.1 ≠ p) : exec f s = .next s := by
  have hidle : ∀ run, (if s.rdRuns then s.withGroup p run else s) = s := by
    intro run
    rcases hnone with hoff | hnone
    · rw [hoff]
      rfl
    · rw [State.withGroup_idle run hnone, ite_self]
  simp only [drawCommands, List.cons_append, List.nil_append, List.mem_cons, Prod.mk.injEq, List.not_mem_nil, or_false] at hf
  rcases hf with ⟨rfl, rfl⟩ | ⟨rfl, rfl⟩ | ⟨rfl, rfl⟩ | ⟨rfl, rfl⟩ | ⟨rfl, rfl⟩ | ⟨rfl, rfl⟩ <;> exact congrArg Host.Outcome.next (hidle _)

/-! ## Binning a draw (R371, R375, R380) -/

theorem State.screenPoint_congr (hxf : t.rd.xf = s.rd.xf) : t.screenPoint = s.screenPoint := by
  funext world xf x y
  unfold State.screenPoint
  rw [hxf]

theorem State.vertex_congr (hxf : t.rd.xf = s.rd.xf) : t.vertex = s.vertex := by
  funext world xf c
  unfold State.vertex
  rw [State.screenPoint_congr hxf]

theorem State.glyphs_congr (hxf : t.rd.xf = s.rd.xf) : t.glyphs = s.glyphs := by
  funext world xf cells
  fun_induction State.glyphs t world xf cells with
  | case1 a b cells ih =>
    rw [State.glyphs, ih]
    unfold State.glyph
    rw [State.screenPoint_congr hxf]
  | case2 cells hshort => rw [State.glyphs.eq_2 _ _ _ _ hshort]

/-- The primitives of a group depend on the transform slots alone. -/
theorem State.groupPrims_congr (hxf : t.rd.xf = s.rd.xf) (h : Cell64) (cells : List Cell64) :
    t.groupPrims h cells = s.groupPrims h cells := by
  unfold State.groupPrims
  rw [State.vertex_congr hxf, State.glyphs_congr hxf]

/-- The counters of primitives and of discarded ones (R373, R399). -/
def primKeys : List Nat := [R.rdCntCount.key 7 0, R.rdCntCount.key 8 0]

/-- The primitives of a hidden draw are counted, and nothing else. -/
theorem State.binAll_hidden (i : Nat) (ps : List (Option Prim)) (s : State) :
    (s.binAll i true ps).reg R.rdCntCount 7 % 2 ^ 32 = (s.reg R.rdCntCount 7 + ps.length) % 2 ^ 32 ∧
    (s.binAll i true ps).reg R.rdCntCount 8 % 2 ^ 32 = (s.reg R.rdCntCount 8 + (ps.filter (·.isNone)).length) % 2 ^ 32 ∧
    s.onlyRegs (s.binAll i true ps) primKeys := by
  induction ps generalizing s with
  | nil => exact ⟨rfl, rfl, rfl, s.regsBut_refl _⟩
  | cons p ps ih =>
    have hfirst : (s.bump R.rdCntCount 7).reg R.rdCntCount 7 = (s.reg R.rdCntCount 7 + 1) % 2 ^ 32 := State.reg_setReg_self _ _ _ _ _
    have hother : (s.bump R.rdCntCount 7).reg R.rdCntCount 8 = s.reg R.rdCntCount 8 := State.reg_setReg_ne _ _ _ _ _ _ _ _ (by decide)
    have hfirstOnly : s.onlyRegs (s.bump R.rdCntCount 7) primKeys := State.onlyRegs_setReg (by simp [primKeys])
    cases p with
    | some p =>
      obtain ⟨h7, h8, honly⟩ := ih (s.bump R.rdCntCount 7)
      have hstep : s.binAll i true (some p :: ps) = (s.bump R.rdCntCount 7).binAll i true ps := rfl
      rw [hstep]
      refine ⟨?_, ?_, hfirstOnly.trans honly⟩
      · rw [h7, hfirst, List.length_cons]
        omega
      · rw [h8, hother]
        rfl
    | none =>
      have hstep : s.binAll i true (none :: ps) = ((s.bump R.rdCntCount 7).bump R.rdCntCount 8).binAll i true ps := rfl
      obtain ⟨h7, h8, honly⟩ := ih ((s.bump R.rdCntCount 7).bump R.rdCntCount 8)
      have hkept : ∀ u : State, (u.bump R.rdCntCount 8).reg R.rdCntCount 7 = u.reg R.rdCntCount 7 := fun _ =>
        State.reg_setReg_ne _ _ _ _ _ _ _ _ (by decide)
      have hcount : ∀ u : State, (u.bump R.rdCntCount 8).reg R.rdCntCount 8 = (u.reg R.rdCntCount 8 + 1) % 2 ^ 32 := fun _ =>
        State.reg_setReg_self _ _ _ _ _
      rw [hkept, hfirst] at h7
      rw [hcount, hother] at h8
      rw [hstep]
      refine ⟨?_, ?_, (hfirstOnly.trans (State.onlyRegs_setReg (by simp [primKeys]))).trans honly⟩
      · rw [h7, List.length_cons]
        omega
      · rw [h8, List.filter_cons_of_pos rfl, List.length_cons]
        omega

/-- The draw in hand takes its colour and its parameter (R371). -/
def Draw.coloured (h1 : Cell64) (d : Draw) : Draw := { d with colour := bits h1.toNat 31 0, param := bits h1.toNat 63 32 }

theorem State.binGroup_draw (s : State) (h h1 : Cell64) (cells : List Cell64) (i : Nat) :
    s.binGroup h (h1 :: cells) (some i) =
      (s.modDraw i (Draw.coloured h1)).binAll i (!(bitAt (s.reg R.rdLayerEn) (bits h.toNat 6 4))) (s.groupPrims h cells) := by
  have hxf : (s.modDraw i (Draw.coloured h1)).rd.xf = s.rd.xf := rfl
  rw [← State.groupPrims_congr hxf]
  rfl

/-- A draw takes its colour and parameter, and its primitives go to the bins in order; a draw on a hidden layer is not shown (R380). -/
theorem exec_drawCommand_draw {r : List (Cell64 × Bool)} {shown : Bool} (hf : (p, f) ∈ drawCommands) (hruns : s.rdRuns = true)
    (hlist : s.rd.list = some l) (hcells : l.cells = (h, false) :: (h1, false) :: r) (hfull : l.full = true) (hprim : h0Prim h = p)
    (hgood : r.any (·.2) = false) (hdraw : l.draw = some i) (hlayer : bitAt (s.reg R.rdLayerEn) (bits h.toNat 6 4) = shown) :
    exec f s = .next (((s.modDraw i (Draw.coloured h1)).binAll i (!shown) (s.groupPrims h (r.map (·.1)))).modList DrawList.handled) := by
  rw [exec_drawCommand hf hruns, State.withGroup_runs hlist hcells hfull hprim (by simpa using hgood), List.map_cons, hdraw,
    State.binGroup_draw, hlayer]

theorem exec_drawCommand_hidden {r : List (Cell64 × Bool)} (hf : (p, f) ∈ drawCommands) (hruns : s.rdRuns = true)
    (hlist : s.rd.list = some l) (hcells : l.cells = (h, false) :: (h1, false) :: r) (hfull : l.full = true) (hprim : h0Prim h = p)
    (hgood : r.any (·.2) = false) (hdraw : l.draw = some i) (hlayer : bitAt (s.reg R.rdLayerEn) (bits h.toNat 6 4) = false) :
    ∃ t, exec f s = .next t ∧
      t.rd = { s.rd with
        list := some l.handled, openF := { s.rd.openF with draws := s.rd.openF.draws.modify i (Draw.coloured h1) } } ∧
      t.reg R.rdCntCount 7 % 2 ^ 32 = (s.reg R.rdCntCount 7 + (s.groupPrims h (r.map (·.1))).length) % 2 ^ 32 ∧
      t.reg R.rdCntCount 8 % 2 ^ 32 = (s.reg R.rdCntCount 8 + ((s.groupPrims h (r.map (·.1))).filter (·.isNone)).length) % 2 ^ 32 ∧
      t = { s with regs := t.regs, rd := t.rd } ∧ s.regsBut t primKeys := by
  have hrun := exec_drawCommand_draw hf hruns hlist hcells hfull hprim hgood hdraw hlayer
  obtain ⟨h7, h8, hframe, hbut⟩ := State.binAll_hidden i (s.groupPrims h (r.map (·.1))) (s.modDraw i (Draw.coloured h1))
  rw [Bool.not_false] at hrun
  generalize (s.modDraw i (Draw.coloured h1)).binAll i true _ = v at *
  refine ⟨_, hrun, ?_, h7, h8, ?_, hbut⟩
  · unfold State.modList State.modRd
    dsimp only
    rw [hframe]
    unfold State.modDraw State.modOpen State.modRd
    dsimp only
    rw [hlist]
    rfl
  · unfold State.modList State.modRd
    rw [hframe]
    rfl

/-! ## A primitive that is binned (R375) -/

theorem State.touched_congr (hregs : t.regs = s.regs) : t.touched = s.touched := by
  unfold State.touched State.screenTiles
  simp only [State.reg_congr hregs]

/-- RD_BIN shows the blocks in use and nothing else changes (R399). -/
theorem State.showBin_onlyRegs (s : State) : s.onlyRegs s.showBin [R.rdBinUsed.key 0 0, R.rdBinPeak.key 0 0] := by
  have hused : s.regsBut (s.setReg R.rdBinUsed s.usedBlocks.length) [R.rdBinUsed.key 0 0, R.rdBinPeak.key 0 0] :=
    (s.regsBut_refl _).setReg (by simp)
  unfold State.showBin
  dsimp only
  split
  · exact ⟨rfl, hused.setReg (by simp)⟩
  · exact ⟨rfl, hused⟩

/-- A bin whose last block has room takes an entry without a block. -/
theorem State.addEntry_room {i k n : Nat} (hdropped : s.rd.openF.dropped = false)
    (hroom : (s.rd.openF.bins.filter fun e => decide (e.1 = n)).length % 15 ≠ 0) :
    s.addEntry i k n = s.modOpen fun f => { f with bins := f.bins ++ [(n, i, k)] } := by
  unfold State.addEntry
  simp [hdropped, hroom]

/-- A primitive on one screen tile takes a record block and one entry of the tile's bin (R375). -/
theorem State.binPrim_one {i b n k : Nat} {p : Prim} (hdropped : s.rd.openF.dropped = false) (hfree : s.freeBlock = some b)
    (htouched : s.touched p = [n]) (hk : k = (s.rd.openF.draws[i]?.map (·.prims.length)).getD 0)
    (hroom : (s.rd.openF.bins.filter fun e => decide (e.1 = n)).length % 15 ≠ 0) : ∃ t, s.binPrim i p = t ∧
      t.rd.openF = { s.rd.openF with
        draws := s.rd.openF.draws.modify i fun d => { d with prims := d.prims ++ [p] }
        recs := s.rd.openF.recs ++ [(b, i, k)]
        bins := s.rd.openF.bins ++ [(n, i, k)] } ∧
      t = { s with regs := t.regs, rd := { s.rd with openF := t.rd.openF } } ∧ s.regsBut t [R.rdBinUsed.key 0 0, R.rdBinPeak.key 0 0] := by
  obtain ⟨u, hrec⟩ : ∃ u, u = ((s.modDraw i fun d => { d with prims := d.prims ++ [p] }).modOpen fun f =>
      { f with recs := f.recs ++ [(b, i, k)] }) := ⟨_, rfl⟩
  have hbin : s.binPrim i p = (u.touched p).foldl (fun (s : State) t => s.addEntry i k t) u.showBin := by
    unfold State.binPrim
    rw [if_neg (by simp [hdropped]), hfree, hrec, hk]
  have hrd : u.rd = { s.rd with openF := { s.rd.openF with
      draws := s.rd.openF.draws.modify i fun d => { d with prims := d.prims ++ [p] }
      recs := s.rd.openF.recs ++ [(b, i, k)] } } := by rw [hrec]; rfl
  have huframe : u = { s with rd := u.rd } := by rw [hrec]; rfl
  have huregs : u.regs = s.regs := by rw [huframe]
  rw [State.touched_congr huregs, htouched] at hbin
  obtain ⟨hframe, hbut⟩ := u.showBin_onlyRegs
  generalize u.showBin = w at *
  have hwrd : w.rd = u.rd := by rw [hframe]
  have hwopen : w.rd.openF.dropped = false ∧ w.rd.openF.bins = s.rd.openF.bins := by
    rw [hwrd, hrd]
    exact ⟨hdropped, rfl⟩
  rw [List.foldl_cons, List.foldl_nil, State.addEntry_room hwopen.1 (by rw [hwopen.2]; exact hroom)] at hbin
  have hsregs : s.regsBut u [R.rdBinUsed.key 0 0, R.rdBinPeak.key 0 0] := (s.regsBut_refl _).of_regs huregs
  refine ⟨_, hbin, ?_, ?_, (hsregs.trans hbut).of_regs rfl⟩
  · unfold State.modOpen State.modRd
    dsimp only
    rw [hwrd, hrd]
  · unfold State.modOpen State.modRd
    dsimp only
    rw [hframe, huframe, hrd]

/-! ## TRANSFORM and TEXTURE_SLOT (R371, R373) -/

theorem exec_transform_sets {r : List (Cell64 × Bool)} (hruns : s.rdRuns = true) (hlist : s.rd.list = some l)
    (hcells : l.cells = (h, false) :: r) (hfull : l.full = true) (hgood : r.any (·.2) = false) (hprim : h0Prim h = 4) :
    ∃ t, exec .transform s = .next t ∧
      alGet t.rd.xf (bits h.toNat 11 8) = some (r.flatMap fun c => [toSigned 32 (bits c.1.toNat 31 0), toSigned 32 (bits c.1.toNat 63 32)]) ∧
      t = { s with rd := { s.rd with xf := t.rd.xf, list := some l.handled } } := by
  have hrun : exec .transform s = .next ((s.setTransform h (r.map (·.1))).modList DrawList.handled) := by
    refine Eq.trans ?_ (congrArg Host.Outcome.next (State.withGroup_runs (run := fun h c _ s => s.setTransform h c) hlist hcells hfull hprim hgood))
    show execTransform s = _
    unfold execTransform
    rw [hruns, if_pos rfl]
  refine ⟨_, hrun, ?_, ?_⟩
  · exact (alGet_alPut_self _ _ _).trans (congrArg some (List.flatMap_map _ _ _))
  · unfold State.modList State.setTransform State.modRd
    dsimp only
    rw [hlist]
    rfl

theorem exec_textureSlot_sets {r : List (Cell64 × Bool)} (hruns : s.rdRuns = true) (hlist : s.rd.list = some l)
    (hcells : l.cells = (h, false) :: r) (hfull : l.full = true) (hgood : r.any (·.2) = false) (hprim : h0Prim h = 5) :
    ∃ t, exec .textureSlot s = .next t ∧ alGet t.rd.tex (bits h.toNat 26 22) = some
        { fmt := bits h.toNat 28 27, log2w := bits h.toNat 35 32, log2h := bits h.toNat 39 36, part := bits h.toNat 43 40
          off := bits h.toNat 63 44 } ∧
      t = { s with rd := { s.rd with tex := t.rd.tex, list := some l.handled } } := by
  have hrun : exec .textureSlot s = .next ((s.setTexture h).modList DrawList.handled) := by
    refine Eq.trans ?_ (congrArg Host.Outcome.next (State.withGroup_runs (run := fun h _ _ s => s.setTexture h) hlist hcells hfull hprim hgood))
    show execTextureSlot s = _
    unfold execTextureSlot
    rw [hruns, if_pos rfl]
  refine ⟨_, hrun, alGet_alPut_self _ _ _, ?_⟩
  unfold State.modList State.setTexture State.modRd
  dsimp only
  rw [hlist]
  rfl

end
/-- Settles O46: each cell of a list begins a group, joins it or ends the list, and a whole group goes to the command of its PRIM, which
bins its draw, or sets its slot. -/
theorem drawLists : Obligations.DrawLists := by
  refine ⟨?idle, ?take, ?draw, ?other, ?bin, ?slots⟩
  case idle =>
    intro u s hidle
    exact exec_drawListTake_idle u hidle
  case take =>
    intro q c rest s hruns hready hqueue hq hallowed hsev hc hm hp hdis hret
    obtain ⟨w, hgone, hrun⟩ := exec_drawListTake_takes hruns hready hqueue hallowed hsev hc hm hp hdis hret
    have htag : (c.delivery q 0x63).tag = 0 := (c.delivery_tag q _).trans (Cell.tag_of_good hm hp)
    refine ⟨?_, ?_, ?_⟩
    · intro hlist heop hok hprim hdropped hroom
      obtain ⟨t, g, ht, hcells, rfl, hopen, hlive, hin, hcount, hframe, hregs⟩ :=
        hgone.begins rfl htag hlist heop hok hprim hdropped hroom
      exact ⟨t, _, hrun.trans (congrArg _ ht), hcells, hopen, rfl, rfl, rfl, rfl, rfl, rfl, rfl, hlive, hin, hcount, hframe, hregs⟩
    · intro l hlist hskip hcells heop
      obtain ⟨t, ht, hspec⟩ := hgone.joins rfl htag hlist hskip hcells heop
      exact ⟨t, hrun.trans (congrArg _ ht), hspec⟩
    · intro l hlist hcells heop
      have hitem : (c.delivery q 0x63).item = c.itemSeen 0 := by
        rw [Cell.delivery, Cell.tag_of_good hm hp]
        exact if_neg (by omega)
      obtain ⟨t, u, ht, hspec⟩ := hgone.ends rfl hitem hlist hcells heop
      exact ⟨t, u, hrun.trans (congrArg _ ht), hspec⟩
  case draw =>
    intro p f l h h1 r s hf hruns hlist hcells hfull hprim hgood
    refine ⟨?_, ?_⟩
    · intro i hdraw hlayer
      exact exec_drawCommand_hidden hf hruns hlist hcells hfull hprim hgood hdraw hlayer
    · intro i hdraw hlayer
      exact ⟨_, _, _, exec_drawCommand_draw hf hruns hlist hcells hfull hprim hgood hdraw hlayer, rfl, rfl, rfl⟩
  case other =>
    intro p f s hf hnone
    exact exec_group_idle hf hnone
  case bin =>
    intro i b n k p s hdropped hfree htouched hk hroom
    exact State.binPrim_one hdropped hfree htouched hk hroom
  case slots =>
    intro l h r s hruns hlist hcells hfull hgood
    exact ⟨exec_transform_sets hruns hlist hcells hfull hgood, exec_textureSlot_sets hruns hlist hcells hfull hgood⟩

end Sys2Proof.Machine
end
